-- ==== Sys2Proof/Word.lean ====
section
/-! DEFINITION. The words the manual works in: bytes, 32-bit and 64-bit register words, and the
sorted table that holds sparse data by key (an address, an index). -/

namespace Sys2Proof

/-- One byte (R35: multi-byte elements are little-endian). -/
abbrev Byte := BitVec 8
/-- A 32-bit word: a scalar register, a vector lane, a 32-bit register. -/
abbrev W32 := BitVec 32
/-- A 64-bit word: a 64-bit register, a global address (R25), a sync count (R283). -/
abbrev W64 := BitVec 64

/-- Sparse data by key, keys strictly rising. -/
abbrev Tbl (α : Type) := List (Nat × α)

end Sys2Proof
end

