-- ==== Sys2Proof/Syntax.lean ====
section
/-! DEFINITION. The commands: one constructor for each row of the opcode table, with its operands. The table gives no operand
fields, so the operands are the model's (log entry 2): what the row's rule says the command carries, or what the environment
supplies to the event (a reading, a message, a result of a self-test). -/

namespace Sys2Proof

/-- Issuing masters of Table 1-7. -/
inductive MClass where
  | tile | hoist | site | host | core | tukosen | walker | steward | syncHome
deriving DecidableEq, Repr

/-- A master: its class and its index in Table 1-7. -/
structure Master where
  cls : MClass
  idx : Nat
deriving DecidableEq, Repr

/-- The header of an Axotte request (R348) and the mailbox it comes through (R346). -/
structure Req where
  mbx : Nat
  tag : W32
  seq : W32
  notify : Bool
deriving DecidableEq, Repr

/-- A 64 B stream flit with its two sideband bits (chapter 3). -/
structure Flit where
  data : BitVec 512
  last : Bool
  poison : Bool
deriving DecidableEq, Repr

/-- What starts a power-down (R499). -/
inductive PdCause where
  | below40 | overcurrent | overvoltage | j1Break
deriving DecidableEq, Repr

/-- Power states a PWR_STATE_SET may name (R434). -/
inductive PState where
  | active | drowse | sleep
deriving DecidableEq, Repr

/-- What the self-test or training of one HBM stack reports (Table 7-5). -/
structure StackRes where
  stack : Nat
  serial : W64
  pll : Bool
  ok : Bool
  badChannels : W32
  repaired : Nat
deriving DecidableEq, Repr

/-- What the environment reports at the end of a bring-up step (Table 18-1). -/
structure StepRes where
  durUs : Nat
  obNorth : W64
  obSouth : W64
  stackRes : List StackRes
  badTiles : List Nat
  badBenches : List Nat
  badColumns : List (Nat × Nat)
  badLanes : Nat
  fails : List (BitVec 256)
deriving DecidableEq, Repr

/-- Where a T2 or T3 addition comes from (R165). -/
inductive TierSrc where
  | range (base len : Nat)
  | peer (dev setts : Nat)
deriving DecidableEq, Repr

/-- A coherence agent (chapter 9). -/
inductive Agent where
  | tile (t : Nat)
  | site (s : Nat)
  | host
  | other (m : Master)
deriving DecidableEq, Repr

/-- A UCIe flit header (Table 10-2) with the messages it carries as 128-bit units. -/
structure UFlit where
  kind : Nat
  seq : Nat
  ack : Nat
  crcOk : Bool
  cret : List Nat
  units : List (BitVec 128)
deriving DecidableEq, Repr

/-- The headers of a Tukosen frame (Tables 13-3 and 13-4) and its payload. -/
structure Frame where
  lane : Nat
  lseq : Nat
  lack : Nat
  part : Nat
  cr0 : Nat × Nat
  cr1 : Nat × Nat
  op : Nat
  tc : Nat
  dst : Nat
  src : Nat
  hops : Nat
  resp : Bool
  poison : Bool
  status : Nat
  reqid : W32
  aop : Nat
  fmt : Nat
  len : Nat
  floor : Nat
  addr : W64
  aux : W64
  payload : List Byte
deriving DecidableEq, Repr

/-- An access by a data-plane master: read, write (with bytes) or atomic (R27). -/
inductive AccessOp where
  | read
  | write (bytes : List Byte)
  | atomic (aop : Nat) (operand compare : W64)
deriving DecidableEq, Repr

/-- A Tukosen frame that is not a sequenced frame for this device (R305, R313, R317). -/
inductive BadFrame where
  | fcs (sequenced : Bool) | foreignAddr | foreignPart | wrongSeq (lseq : Nat) | malformed (f : Frame)
deriving DecidableEq, Repr

/-- What SEC_TRUST_SET writes (R481). -/
inductive TrustItem where
  | anchor (digest : BitVec 512)
  | entry (i : Nat) (keyId : BitVec 128) (key : BitVec 512) (purposes : W32)
  | policy (w : W32)
deriving DecidableEq, Repr

/-- A live reading of the serving profile's environment: the request of Table 16-6. -/
structure SvReq where
  id : W64
  replyDev : Nat
  replyQueue : Nat
  tc : Nat
  topK : Nat
  maxNew : Nat
  temp : W32
  topP : W32
  prompt : List W32
  seed : W64
deriving DecidableEq, Repr

/-- What goes wrong in the datapath of one granule (R58 to R60): by how much the exact sum of an element is off, in units of
2^emin, and what the comparison of the duplicated path finds. -/
structure DpFaults where
  errs : List (Nat × Int)
  dup : Bool
deriving DecidableEq, Repr

/-- What a chiplet's SITE_MODS carries: the mask of the modules it enabled, and by module the spare lanes that repair used
(R263, R274). -/
structure ModEcho where
  mods : Nat
  spares : List Nat
deriving DecidableEq, Repr

/-- One command for each row of spec/opcode_table.json. `q` is an Axotte request header, `t` a physical tile, `b` the 64-bit
bundle the slot stands in (Table 4-1). -/
inductive Instr where
  /-- POWER_ON (R390). Input rises through power-good with J1-C1 mated; the keep and CXL domains power up, straps are sampled and the steward boots. -/
  | powerOn (vin : Nat) (mated : Bool) (perstN modRstN : Bool) (straps : BitVec 8)
  /-- MODULE_RESET (R429). PERST_N or MOD_RST_N held low for at least 100 µs resets every domain including the keep domain; shorter pulses are ignored. -/
  | moduleReset (perst : Bool) (lowUs : Nat)
  /-- POWER_DOWN (R499). Input below 40.0 V, an overcurrent trip, an over-voltage disconnect or a J1-C1 break runs the power-down order on hold-up energy. -/
  | powerDown (cause : PdCause)
  /-- OVERCURRENT_TRIP (R451). Input current above 80 A trips the input stage in hardware within 20 µs. -/
  | overcurrentTrip (iin : Nat)
  /-- OVERVOLTAGE_DISCONNECT (R415). Input above 58.0 V for 100 µs disconnects the input stage and powers the module down. -/
  | overvoltageDisconnect (vin us : Nat)
  /-- SUPPLY_SAMPLE (R413). Every 1 µs the steward samples input voltage and current and enters warning below 44.0 V. -/
  | supplySample (vin iin : Nat)
  /-- SUPPLY_WARNING_EXIT (R414). After 1 ms above 46.0 V without a break the steward leaves warning, restores limiters and grants and retries deferred persistent writes once. -/
  | supplyWarningExit (aboveUs durUs : Nat)
  /-- HOLDUP_MEASURE (R416). Every 24 h and at bring-up step 3 the steward measures the hold-up bank and sets or clears holdup_ok. -/
  | holdupMeasure (us : Nat)
  /-- ROOT_PLL_LOCK_LOSS (R20). Loss of root-PLL lock outside Sleep moves the keep domain to the 40 MHz reference, holds other domains in hub reset and sets lock_lost. -/
  | rootPllLockLoss
  /-- HUB_RESET_START (R429). 1 ms after RST_HUB's response is written, the hub reset begins. -/
  | hubResetStart
  /-- REGION_RESET_COMPLETE (R431). A domain's region reset completes within its bound and the domain resumes, held traffic resuming in order for the seam bridge. -/
  | regionResetComplete (dom : Nat)
  /-- STEP_GO_WRITE (R392). A write of stw.boot.step_go releases bring-up steps whose prerequisites are done, else sets order_err. -/
  | stepGoWrite (v : W32)
  /-- BOOT_STEP_COMPLETE (R394). A released bring-up step meets its condition; the steward sets step_done, records its duration and raises vector 3. -/
  | bootStepComplete (n : Nat) (r : StepRes)
  /-- BOOT_STEP_TIMEOUT (R394). Step 1, 2, 3, 4, 9 or 10 misses its bound; the step fails, is logged and no further go is accepted. -/
  | bootStepTimeout (n : Nat)
  /-- BUP_STEP_GO (R392). Releases the lowest step not yet released, or steps 5-8 together, and completes when they are done or failed. -/
  | bupStepGo (q : Req)
  /-- BUP_STEP_GO_EXPERT (R392). Releases the bring-up steps named in a mask. -/
  | bupStepGoExpert (q : Req) (mask : Nat)
  /-- BUP_STATUS (R397). Returns the stw.boot registers. -/
  | bupStatus (q : Req)
  /-- BUP_DEGRADED_ACK (R400). Acknowledges a Degraded shortfall whose payload equals stw.boot.short, allowing step 10. -/
  | bupDegradedAck (q : Req) (word : W32)
  /-- BUP_ID_READ (R397). Returns the identity readout from step 2 onward. -/
  | bupIdRead (q : Req)
  /-- RST_HUB (R429). Schedules a hub reset 1 ms after the response, refused while flow_ok is 0 or a burn runs. -/
  | rstHub (q : Req)
  /-- RST_REGION (R431). Region-resets one resettable domain after its preparatory action. -/
  | rstRegion (q : Req) (dom : Nat)
  /-- RST_REGION_EXPERT (R431). Holds a domain in region reset until a second expert command releases it. -/
  | rstRegionExpert (q : Req) (dom : Nat) (hold : Bool)
  /-- SITE_STATUS (R274). Returns site.s.status and site.s.pwr for a site. -/
  | siteStatus (q : Req) (site : Nat)
  /-- SITE_STATUS_EXPERT (R274). Returns a module's training record and credits per pool. -/
  | siteStatusExpert (q : Req) (site module : Nat)
  /-- SITE_RESET (R275). Runs a site reset without rail cycling or scrub. -/
  | siteReset (q : Req) (site : Nat)
  /-- SITE_RESET_EXPERT (R275). Runs a site reset with rail cycling and scrub as requested. -/
  | siteResetExpert (q : Req) (site : Nat) (cycle scrub : Bool)
  /-- PWR_CAP_SET (R410). Sets hub and site caps proportionally from a module input cap. -/
  | pwrCapSet (q : Req) (watts : Nat)
  /-- PWR_CAP_SET_EXPERT (R410). Sets the hub cap and site cap total directly. -/
  | pwrCapSetExpert (q : Req) (hubW siteW : Nat)
  /-- PWR_DOMAIN_STATUS (R406). Returns pwr.dom.d.status words. -/
  | pwrDomainStatus (q : Req) (first count : Nat)
  /-- PWR_THROTTLE_SET (R412). Sets one duty ceiling for every bench. -/
  | pwrThrottleSet (q : Req) (ceil : Nat)
  /-- PWR_THROTTLE_SET_EXPERT (R412). Sets a ceiling per bench and the thermal limit t_lim. -/
  | pwrThrottleSetExpert (q : Req) (ceils : List Nat) (tLim : Nat)
  /-- PWR_TOKEN_AUDIT (R303). Returns token pool sums and checks them. -/
  | pwrTokenAudit (q : Req)
  /-- AGE_STATUS (R421). Returns the plan status, committed plan and slack per domain. -/
  | ageStatus (q : Req)
  /-- AGE_REPLAN (R423). Starts a re-plan of the margin plan. -/
  | ageReplan (q : Req)
  /-- AGE_REPLAN_EXPERT (R423). Starts a re-plan and sets period and guard band. -/
  | ageReplanExpert (q : Req) (period guard : Nat)
  /-- THM_STATUS (R417). Returns bench, HBM and site temperatures and overburden state. -/
  | thmStatus (q : Req)
  /-- PWR_STATE_SET (R434). Moves the device between Active, Drowse and Sleep with a 100 ms quiesce. -/
  | pwrStateSet (q : Req) (target : PState) (save : Nat)
  /-- PWR_STATE_SET_EXPERT (R434). Moves the power state with a chosen quiesce time and optional wake-pin disable. -/
  | pwrStateSetExpert (q : Req) (target : PState) (save quiesceMs : Nat) (wakeOff : Bool)
  /-- PWR_STATE_QUIESCE_TIMEOUT (R434). The quiesce time ends with the state conditions unmet and the command is refused with STATE. -/
  | pwrStateQuiesceTimeout
  /-- SLEEP_EXIT (R437). MOD_WAKE_N low for 10 µs or a management command brings the device up, retrains and restores the saved state. -/
  | sleepExit (byPin : Bool) (lowUs : Nat) (stacksOk : BitVec 6)
  /-- SITE_PWR_SET (R279). Sets a ceiling on a site's power grant. -/
  | sitePwrSet (q : Req) (site watts : Nat)
  /-- SITE_PWR_SET_EXPERT (R279). Sets an exact site grant, ignoring later PWR_REQ until site reset. -/
  | sitePwrSetExpert (q : Req) (site grant : Nat)
  /-- MEM_SS_CONFIG (R206). Sets granules 0 to k-1 as cache in every slice. -/
  | memSsConfig (q : Req) (k : Nat)
  /-- MEM_SS_CONFIG_EXPERT (R206). Sets the granule masks of both halves. -/
  | memSsConfigExpert (q : Req) (north south : Nat)
  /-- MEM_SS_FLUSH (R208). Writes every dirty state-store line to HBM. -/
  | memSsFlush (q : Req)
  /-- MEM_SS_FLUSH_EXPERT (R208). Flushes an HBM range, optionally invalidating and recalling its lines. -/
  | memSsFlushExpert (q : Req) (base len : Nat) (inval : Bool)
  /-- MEM_HBM_STATUS (R213). Returns per-stack trained state, channel map, temperature and refresh mode. -/
  | memHbmStatus (q : Req)
  /-- MEM_HBM_STATUS_EXPERT (R213). Returns a channel's training record. -/
  | memHbmStatusExpert (q : Req) (stack chan : Nat)
  /-- MEM_SCRUB_SET (R216). Restores default patrol periods of 24 h for HBM and 1 h for the state store. -/
  | memScrubSet (q : Req)
  /-- MEM_SCRUB_SET_EXPERT (R216). Sets HBM and state-store patrol periods. -/
  | memScrubSetExpert (q : Req) (hbmHours ssHours : Nat)
  /-- MEM_ERR_READ (R212). Returns memory error records. -/
  | memErrRead (q : Req) (first count : Nat)
  /-- MEM_DIR_PROBE (R244). Returns the directory entry of a line. -/
  | memDirProbe (q : Req) (addr : Nat)
  /-- MEM_HOST_GRANT (R335). Grants a host-tier window at the lowest free window and offset. -/
  | memHostGrant (q : Req) (hostBase size : Nat)
  /-- MEM_HOST_GRANT_EXPERT (R335). Grants a host-tier window at a named window and tier offset. -/
  | memHostGrantExpert (q : Req) (hostBase size tier window : Nat)
  /-- MEM_HOST_REVOKE (R337). Clears a host-tier window. -/
  | memHostRevoke (q : Req) (window : Nat)
  /-- MEM_HOST_STATUS (R335). Returns cxl.status and the valid windows. -/
  | memHostStatus (q : Req)
  /-- REG_PART_SET (R379). Sets a partition's sources and class-0 rate, refused if rates overcommit. -/
  | regPartSet (q : Req) (part first last rate : Nat)
  /-- REG_PART_SET_EXPERT (R379). Sets per-half rates, burst, share and queue limit of a partition. -/
  | regPartSetExpert (q : Req) (part first last rateN rateS burst share qlim : Nat)
  /-- REG_CLASS_SET (R383). Sets class weights w1, w2, w3. -/
  | regClassSet (q : Req) (w1 w2 w3 : Nat)
  /-- REG_CLASS_SET_EXPERT (R381). Sets class weights and congestion hi, lo and step. -/
  | regClassSetExpert (q : Req) (w1 w2 w3 hi lo step : Nat)
  /-- REG_STATUS (R381). Returns regulation status and per-partition portions and bytes. -/
  | regStatus (q : Req)
  /-- REG_SS_SHARE (R386). Sets a partition's state-store way limit in eighths. -/
  | regSsShare (q : Req) (part eighths : Nat)
  /-- REG_SS_SHARE_EXPERT (R386). Sets exact way limits for all 16 partitions. -/
  | regSsShareExpert (q : Req) (ways : List Nat)
  /-- FAB_DRS_LOAD (R147). Verifies a Brutrum image, places it and reserves tiles, sync objects, routes and link rates. -/
  | fabDrsLoad (q : Req) (image : W64) (size ctx : Nat)
  /-- FAB_DRS_LOAD_EXPERT (R148). Loads a dressing at given logical and sync bases, with swap target and oversubscription option. -/
  | fabDrsLoadExpert (q : Req) (image : W64) (size ctx lbase sbase swap : Nat) (oversub : Bool)
  /-- FAB_DRS_ACTIVATE (R152). Writes a Loaded dressing into its tiles, binds routes and credits and starts flagged tiles. -/
  | fabDrsActivate (q : Req) (h obj : Nat)
  /-- FAB_DRS_ACTIVATE_EXPERT (R152). Activates a dressing, optionally holding tiles unstarted. -/
  | fabDrsActivateExpert (q : Req) (h obj : Nat) (hold : Bool)
  /-- FAB_DRS_DEACTIVATE (R153). Drains a dressing for up to 100 ms then runs the stop phase. -/
  | fabDrsDeactivate (q : Req) (h : Nat)
  /-- FAB_DRS_DEACTIVATE_EXPERT (R153). Deactivates with a drain time of 0-10,000 ms. -/
  | fabDrsDeactivateExpert (q : Req) (h drainMs : Nat)
  /-- DRS_DRAIN_TIMEOUT (R153). The drain time passes before every tile has executed END. -/
  | drsDrainTimeout (h : Nat)
  /-- DRS_STOP_PHASE (R153). After the drain, hoists detach, sequencers and DMA stop, endpoints unbind, credits return and the dressing becomes Loaded. -/
  | drsStopPhase (h : Nat)
  /-- SUNBOUND_TIMEOUT (R153). A site does not acknowledge SUnbind within 100 µs; it is logged and holds its credits until its reset. -/
  | sunboundTimeout (h site : Nat)
  /-- FAB_DRS_SWAP (R154). Deactivates dressing A and activates dressing B with no command between. -/
  | fabDrsSwap (q : Req) (a b : Nat)
  /-- FAB_DRS_SWAP_EXPERT (R154). Swaps dressings with a chosen drain time. -/
  | fabDrsSwapExpert (q : Req) (a b drainMs : Nat)
  /-- FAB_DRS_UNLOAD (R155). Deactivates or stops a dressing as needed and releases every reservation and the handle. -/
  | fabDrsUnload (q : Req) (h : Nat)
  /-- FAB_DRS_STATUS (R150). Returns a dressing's state, context, bases and last detail code. -/
  | fabDrsStatus (q : Req) (h : Nat)
  /-- FAB_MAP_READ (R135). Returns hub.map.l2p words of a logical range. -/
  | fabMapRead (q : Req) (first count : Nat)
  /-- SGRANT_TIMEOUT (R278). A chiplet does not answer SBind within 50 µs and activation fails with SITE_NO_GRANT. -/
  | sgrantTimeout (h site : Nat)
  /-- FAB_SYNC_RESERVE (R295). Reserves the lowest free run of sync objects, zeroing counts and disarming notifiers. -/
  | fabSyncReserve (q : Req) (count : Nat)
  /-- FAB_SYNC_RESERVE_EXPERT (R295). Reserves a run of sync objects from a named first object. -/
  | fabSyncReserveExpert (q : Req) (first count : Nat)
  /-- FAB_SYNC_RELEASE (R295). Frees a command-reserved run of sync objects. -/
  | fabSyncRelease (q : Req) (first count : Nat)
  /-- FAB_SYNC_AUDIT (R303). Returns sync operation sums and checks them. -/
  | fabSyncAudit (q : Req) (half : Nat)
  /-- FAB_CREDIT_AUDIT (R303). Returns per-stream credit sums of a dressing and checks them. -/
  | fabCreditAudit (q : Req) (h : Nat)
  /-- DIAG_LINK_AUDIT (R303). Returns per-pool credit sums of a link and checks them. -/
  | diagLinkAudit (q : Req) (kind idx : Nat)
  /-- MESH_CREDIT_IDLE_CHECK (R300). A mesh link pool idle for 64 NCLK has its credits compared with the grant. -/
  | meshCreditIdleCheck (bench link pool found : Nat)
  /-- UCIE_CREDIT_IDLE_CHECK (R300). A UCIe or Tukosen pool idle for 1 µs has its credits checked. -/
  | ucieCreditIdleCheck (tukosen : Bool) (unit pool found : Nat)
  /-- CTX_SEQ_OPEN (R158). Opens a sequence with fixed row_elems, wfmt, ppp and group count. -/
  | ctxSeqOpen (q : Req) (seq ctx groups rowElems wfmt ppp : Nat) (window : W64)
  /-- CTX_SEQ_OPEN_EXPERT (R158). Opens a sequence with a policy class and per-group kind list. -/
  | ctxSeqOpenExpert (q : Req) (seq ctx groups rowElems wfmt ppp : Nat) (window : W64) (policy : Nat) (kinds : W64)
  /-- CTX_SEQ_CLOSE (R188). Makes a sequence closing; new gathers kill with 0x03. -/
  | ctxSeqClose (q : Req) (seq obj : Nat)
  /-- SEQ_CLOSE_FINISH (R188). Once gathers and moves of a closing sequence finish, its pages, chunks and entry are freed and the completion object signalled. -/
  | seqCloseFinish (seq : Nat)
  /-- CTX_SEQ_QUERY (R158). Returns a sequence table entry and pages per tier. -/
  | ctxSeqQuery (q : Req) (seq : Nat)
  /-- CTX_PAGE_APPEND (R168). Allocates and maps one open page per named group. -/
  | ctxPageAppend (q : Req) (seq gFirst gCount : Nat)
  /-- CTX_APPEND_TIMEOUT (R168). Demotion fails to free a frame within 10 ms and the append returns NO_SPACE. -/
  | ctxAppendTimeout (mbx : Nat)
  /-- CTX_PAGE_COMMIT (R169). Raises the committed length, seals full pages and starts their unmaps. -/
  | ctxPageCommit (q : Req) (seq len obj : Nat)
  /-- CTX_PAGE_MOVE (R174). Moves a page to a destination tier. -/
  | ctxPageMove (q : Req) (seq group page tier : Nat)
  /-- CTX_PAGE_MOVE_EXPERT (R175). Moves a page with a narrower format and pin or unpin. -/
  | ctxPageMoveExpert (q : Req) (seq group page tier fmt : Nat) (pin unpin : Bool)
  /-- CTX_HOIST_ATTACH (R183). Attaches every hoist tag of a dressing to chosen hoist lanes. -/
  | ctxHoistAttach (q : Req) (h : Nat)
  /-- CTX_HOIST_ATTACH_EXPERT (R183). Attaches a named tag to a named hoist and lane. -/
  | ctxHoistAttachExpert (q : Req) (h tag hoist lane : Nat)
  /-- CTX_HOIST_DETACH (R184). Stops a dressing's lanes at a flit boundary and returns their credits to the tag. -/
  | ctxHoistDetach (q : Req) (h : Nat)
  /-- CTX_POLICY_SET (R171). Sets the marks of policy class 0. -/
  | ctxPolicySet (q : Req) (high low : List Nat)
  /-- CTX_POLICY_SET_EXPERT (R171). Sets every policy setting per class. -/
  | ctxPolicySetExpert (q : Req) (cls : Nat) (high low : List Nat) (share append : Nat) (next tfmt : List Nat)
  /-- CTX_TIER_ADD (R165). Adds a host-tier range or peer setts to a tier. -/
  | ctxTierAdd (q : Req) (tier : Nat) (src : TierSrc)
  /-- CTX_TIER_REMOVE (R165). Withdraws a tier range no page holds. -/
  | ctxTierRemove (q : Req) (tier : Nat) (src : TierSrc)
  /-- CTX_EXPORT_CONFIG (R166). Sets or withdraws the HBM export pool. -/
  | ctxExportConfig (q : Req) (base len : Nat)
  /-- CTX_AUDIT (R189). Returns context-page and epoch counts and checks them. -/
  | ctxAudit (q : Req)
  /-- CTX_EPOCH_STATUS (R181). Returns current and old epoch and their page counts. -/
  | ctxEpochStatus (q : Req)
  /-- CTX_STORE_INIT (R161). Lays out and zeroes the store tables in an HBM range. -/
  | ctxStoreInit (q : Req) (base len s d : Nat)
  /-- CTX_STORE_INIT_EXPERT (R161). Initialises the store with a chunk pool size and T0 granules. -/
  | ctxStoreInitExpert (q : Req) (base len s d c : Nat) (t0 : List Nat)
  /-- PAGE_DEMOTION (R171). A tier's use exceeds high; the hub ages pages and selects victims to move to next tier until use falls to low. -/
  | pageDemotion (tier : Nat)
  /-- PAGE_PROMOTION (R174). After a gather with promote set, a page read from T2 or T3 moves to a lower tier if that tier is below its low mark. -/
  | pagePromotion (desc tier : Nat)
  /-- PAGE_MOVE_START (R172). A move marks the page moving, allocates destination units and reads, re-quantizes and writes the page. -/
  | pageMoveStart (desc hoist : Nat)
  /-- PAGE_MOVE_DESCRIPTOR_REWRITE (R172). Once every destination write is acknowledged the descriptor is rewritten in one 32 B write. -/
  | pageMoveDescriptorRewrite (desc : Nat)
  /-- PAGE_MOVE_SOURCE_FREE (R172). Once reads in flight on the source reach 0 the source units are freed. -/
  | pageMoveSourceFree (desc : Nat)
  /-- EPOCH_REENCRYPT_PASS (R181). After a rotation the hub moves old-epoch pages to new setts under the current epoch at move_share. -/
  | epochReencryptPass (desc : Nat)
  /-- OLD_EPOCH_RETIRE (R181). When the old epoch's count reaches 0 its keys are destroyed and old_live cleared. -/
  | oldEpochRetire
  /-- LANE_TAIL_WRITE (R184). A write of ctx.h.n.lane.k.tail submits gather descriptors to a hoist lane. -/
  | laneTailWrite (n k : Nat) (v : W32)
  /-- HOIST_RING_PREFETCH (R230). A hoist lane requests translation of the ring's head page or next page ahead of use. -/
  | hoistRingPrefetch (n k : Nat)
  /-- GATHER_DESCRIPTOR_EXECUTE (R185). A hoist lane reads a gather descriptor and delivers pages to its input port, converting formats. -/
  | gatherDescriptorExecute (n k : Nat)
  /-- GATHER_DESCRIPTOR_COMPLETE (R186). The last flit of a descriptor reaches the consumer port; the lane signals its sync object. -/
  | gatherDescriptorComplete (n k : Nat)
  /-- PEER_TIER_TIMEOUT (R187). A peer tier does not answer within 10 ms and the gather ends with cause 0x07. -/
  | peerTierTimeout (n k : Nat)
  /-- SS_PATROL_READ (R202). Each slice patrols its lines once per period, correcting single-bit errors. -/
  | ssPatrolRead (addr : Nat)
  /-- HBM_PATROL (R216). Each stack controller patrols every line once per patrol period. -/
  | hbmPatrol (addr : Nat)
  /-- SS_POWERUP_INVALIDATE (R203). An overburden die that powers up marks every tag invalid while routers hold requests. -/
  | ssPowerupInvalidate (half : Nat)
  /-- SS_INVALIDATE_COMPLETE (R203). Every slice of the die finishes invalidation; ss_ready is set and held requests proceed. -/
  | ssInvalidateComplete (half : Nat)
  /-- SS_THERMAL_SAMPLE (R204). Every 100 µs the hub halves or stops a half's overburden by bench temperature. -/
  | ssThermalSample (half : Nat)
  /-- HBM_TEMP_READ (R215). Every 1 ms a stack temperature is read, setting refresh rate and halving or stopping issue. -/
  | hbmTempRead (stack temp : Nat)
  /-- SLICE_PREFETCH (R195). A slice's stream detector or a hoist request prefetches lines into the side buffer. -/
  | slicePrefetch (addr : Nat) (byHoist : Bool)
  /-- HBM_FILL_RETURN (R193). Data returns from HBM for a state-store miss and fills the line at its insertion age. -/
  | hbmFillReturn (addr : Nat) (ns : Nat)
  /-- HBM_FORCED_TURN (R217). A class-0 request of the other direction has waited 200 ns and the controller turns the bus after the current access. -/
  | hbmForcedTurn (stack : Nat)
  /-- XLT_CTX_SET (R233). Binds a context to a table pool and builds its root. -/
  | xltCtxSet (q : Req) (ctx base len : Nat)
  /-- XLT_CTX_SET_EXPERT (R233). Binds a context to a caller-built level-2 table. -/
  | xltCtxSetExpert (q : Req) (ctx root : Nat)
  /-- XLT_CTX_CLEAR (R234). Invalidates a context's whole space and frees the context. -/
  | xltCtxClear (q : Req) (ctx obj : Nat)
  /-- XLT_UNMAP (R236). Clears leaf entries of a range and runs the two-phase unmap on a slot. -/
  | xltUnmap (q : Req) (ctx : Nat) (va : W64) (len obj : Nat)
  /-- XLT_UNMAP_EXPERT (R239). Runs invalidation steps 2-5 for a range or whole context without writing entries. -/
  | xltUnmapExpert (q : Req) (ctx : Nat) (va : W64) (len obj : Nat) (all : Bool)
  /-- XLT_UNMAP_STATUS (R238). Returns a slot's phase and references outstanding. -/
  | xltUnmapStatus (q : Req) (slot : Nat)
  /-- XLT_MAP (R235). Writes 64 KiB leaf entries for a virtual range. -/
  | xltMap (q : Req) (ctx : Nat) (va : W64) (len : Nat) (target : W64) (w nc : Bool)
  /-- XLT_MAP_EXPERT (R235). Maps a range with 2 MiB runs and 512 MiB leaves where allowed. -/
  | xltMapExpert (q : Req) (ctx : Nat) (va : W64) (len : Nat) (target : W64) (w nc : Bool)
  /-- XLT_AUDIT (R241). Returns translation reference sums and checks them. -/
  | xltAudit (q : Req)
  /-- XLT_INV_GO (R236). A write of xlt.inv.k.ctl.go starts invalidation steps 2-5 on a register slot. -/
  | xltInvGo (k : Nat)
  /-- UNMAP_PHASE1_DONE (R236). Every holder acknowledges the invalidation; p1_done is set. -/
  | unmapPhase1Done (k : Nat)
  /-- UNMAP_COMPLETE (R236). Every retiring entry of the slot drops; the sync object is signalled and busy cleared. -/
  | unmapComplete (k : Nat)
  /-- WALK_REQUEST (R228). A bench TLB or hoist lane miss enters the walker queue of its half. -/
  | walkRequest (m : Master) (lane ctx : Nat) (va : W64) (write : Bool)
  /-- WALK_COMPLETE (R228). A walker finishes a walk, installing a translation or reporting a fault. -/
  | walkComplete (half : Nat)
  /-- TLB_PIN_RETRY (R100). A block or access that could not install a TLB entry retries after 16 NCLK. -/
  | tlbPinRetry (bench ctx : Nat) (va : W64)
  /-- MNOP (R102). Matrix-slot no-op. -/
  | mnop (t : Nat) (b : W64)
  /-- MMA (R108). Queues a matrix multiply-accumulate of a 32 × 32 block over K. -/
  | mma (t : Nat) (b : W64)
  /-- MCLR (R109). Clears an accumulator and sets its tag in the matrix queue. -/
  | mclr (t : Nat) (b : W64)
  /-- MATRIX_GRANULE (R501). A granule starts once elements and scales of both operands are buffered, and adds its exact sum to the accumulator. -/
  | matrixGranule (t : Nat) (mismatch : DpFaults)
  /-- OPERAND_BUFFER_FILL (R501). An operand buffer takes the next granule from local memory or an input port in execution order. -/
  | operandBufferFill (t : Nat) (opB : Bool)
  /-- VNOP (R102). Vector-slot no-op. -/
  | vnop (t : Nat) (b : W64)
  /-- VADD (R53). FP32 vector add rounded under rm. -/
  | vadd (t : Nat) (b : W64)
  /-- VSUB (R53). FP32 vector subtract rounded under rm. -/
  | vsub (t : Nat) (b : W64)
  /-- VMUL (R53). FP32 vector multiply rounded under rm. -/
  | vmul (t : Nat) (b : W64)
  /-- VFMA (R53). FP32 vector fused multiply-add rounded once. -/
  | vfma (t : Nat) (b : W64)
  /-- VMIN (R113). IEEE minimum per lane. -/
  | vmin (t : Nat) (b : W64)
  /-- VMAX (R113). IEEE maximum per lane. -/
  | vmax (t : Nat) (b : W64)
  /-- VCGT (R113). Writes -1 where va > vb, else 0. -/
  | vcgt (t : Nat) (b : W64)
  /-- VCEQ (R113). Writes -1 where va = vb, else 0. -/
  | vceq (t : Nat) (b : W64)
  /-- VSEL (R113). Selects va or vb per lane by vd. -/
  | vsel (t : Nat) (b : W64)
  /-- VIADD (R113). INT32 add modulo 2^32. -/
  | viadd (t : Nat) (b : W64)
  /-- VISUB (R113). INT32 subtract modulo 2^32. -/
  | visub (t : Nat) (b : W64)
  /-- VIMUL (R113). Low 32 bits of INT32 product. -/
  | vimul (t : Nat) (b : W64)
  /-- VAND (R113). Bitwise AND per lane. -/
  | vand (t : Nat) (b : W64)
  /-- VOR (R113). Bitwise OR per lane. -/
  | vor (t : Nat) (b : W64)
  /-- VXOR (R113). Bitwise XOR per lane. -/
  | vxor (t : Nat) (b : W64)
  /-- VSHL (R113). Left shift by vb mod 32. -/
  | vshl (t : Nat) (b : W64)
  /-- VSHR (R113). Logical right shift by vb mod 32. -/
  | vshr (t : Nat) (b : W64)
  /-- VSRA (R113). Arithmetic right shift by vb mod 32. -/
  | vsra (t : Nat) (b : W64)
  /-- VEXP2 (R54). FP32 exp2 per lane. -/
  | vexp2 (t : Nat) (b : W64)
  /-- VLOG2 (R54). FP32 log2 per lane. -/
  | vlog2 (t : Nat) (b : W64)
  /-- VRCP (R54). FP32 reciprocal per lane. -/
  | vrcp (t : Nat) (b : W64)
  /-- VRSQRT (R54). FP32 reciprocal square root per lane. -/
  | vrsqrt (t : Nat) (b : W64)
  /-- VRSUM (R113). Sums 64 lanes in a fixed tree into every lane of vd. -/
  | vrsum (t : Nat) (b : W64)
  /-- VRMAX (R113). Maximum of 64 lanes into every lane of vd. -/
  | vrmax (t : Nat) (b : W64)
  /-- VMOV (R113). Copies va to vd. -/
  | vmov (t : Nat) (b : W64)
  /-- VITOF (R113). Converts INT32 lanes to FP32 under rm. -/
  | vitof (t : Nat) (b : W64)
  /-- VFTOI (R113). Converts FP32 lanes to INT32 under rm. -/
  | vftoi (t : Nat) (b : W64)
  /-- VCVTD (R114). Narrows FP32 or INT32 lanes to a packed format. -/
  | vcvtd (t : Nat) (b : W64)
  /-- VCVTU (R114). Widens packed elements to FP32 or INT32 lanes. -/
  | vcvtu (t : Nat) (b : W64)
  /-- VLD (R115). Loads 256 B of local memory into a vector register. -/
  | vld (t : Nat) (b : W64)
  /-- VST (R115). Stores a vector register to 256 B of local memory. -/
  | vst (t : Nat) (b : W64)
  /-- VBC (R115). Broadcasts a scalar to every lane. -/
  | vbc (t : Nat) (b : W64)
  /-- VGET (R115). Reads one lane into a scalar register. -/
  | vget (t : Nat) (b : W64)
  /-- VPUT (R115). Writes a scalar into one lane. -/
  | vput (t : Nat) (b : W64)
  /-- PULL (R116). Pops n+1 flits from a direct-mode input port into a vector register. -/
  | pull (t : Nat) (b : W64)
  /-- PUSH (R116). Pushes n+1 flits of a vector register to an output port. -/
  | push (t : Nat) (b : W64)
  /-- VAWR (R117). Writes out an accumulator in a format to local memory or an output port. -/
  | vawr (t : Nat) (b : W64)
  /-- VALD (R117). Loads an accumulator from 32 rows of local memory and sets its tag. -/
  | vald (t : Nat) (b : W64)
  /-- VAADD (R119). Adds one accumulator into another element-wise. -/
  | vaadd (t : Nat) (b : W64)
  /-- VARSC (R119). Rescales each accumulator row by a lane of a vector. -/
  | varsc (t : Nat) (b : W64)
  /-- VAFIN (R57). Finalizes softmax rows by reciprocal of l. -/
  | vafin (t : Nat) (b : W64)
  /-- VAMAX (R119). Writes each accumulator row's maximum to a lane. -/
  | vamax (t : Nat) (b : W64)
  /-- VSMU (R55). Online-softmax update of a score block in an accumulator. -/
  | vsmu (t : Nat) (b : W64)
  /-- VSMG (R56). Merges two partial softmax row states. -/
  | vsmg (t : Nat) (b : W64)
  /-- NOP (R102). Control-slot no-op. -/
  | nop (t : Nat) (b : W64)
  /-- ALU_ADD (R120). sd = sd + sb. -/
  | aluAdd (t : Nat) (b : W64)
  /-- ALU_SUB (R120). sd = sd - sb. -/
  | aluSub (t : Nat) (b : W64)
  /-- ALU_AND (R120). sd = sd AND sb. -/
  | aluAnd (t : Nat) (b : W64)
  /-- ALU_OR (R120). sd = sd OR sb. -/
  | aluOr (t : Nat) (b : W64)
  /-- ALU_XOR (R120). sd = sd XOR sb. -/
  | aluXor (t : Nat) (b : W64)
  /-- ALU_SHL (R120). sd shifted left by sb mod 32. -/
  | aluShl (t : Nat) (b : W64)
  /-- ALU_SHR (R120). sd shifted right logically by sb mod 32. -/
  | aluShr (t : Nat) (b : W64)
  /-- ALU_SRA (R120). sd shifted right arithmetically by sb mod 32. -/
  | aluSra (t : Nat) (b : W64)
  /-- ALU_MUL (R120). Low 32 bits of sd × sb. -/
  | aluMul (t : Nat) (b : W64)
  /-- ALU_SLT (R120). 1 if sd < sb signed, else 0. -/
  | aluSlt (t : Nat) (b : W64)
  /-- ALU_SLTU (R120). 1 if sd < sb unsigned, else 0. -/
  | aluSltu (t : Nat) (b : W64)
  /-- ALU_MIN (R120). Signed minimum of sd and sb. -/
  | aluMin (t : Nat) (b : W64)
  /-- ALU_MAX (R120). Signed maximum of sd and sb. -/
  | aluMax (t : Nat) (b : W64)
  /-- ALU_MOV (R120). sd = sb. -/
  | aluMov (t : Nat) (b : W64)
  /-- ALUI_ADD (R120). sd = sd + imm5. -/
  | aluiAdd (t : Nat) (b : W64)
  /-- ALUI_SUB (R120). sd = sd - imm5. -/
  | aluiSub (t : Nat) (b : W64)
  /-- ALUI_AND (R120). sd = sd AND imm5. -/
  | aluiAnd (t : Nat) (b : W64)
  /-- ALUI_OR (R120). sd = sd OR imm5. -/
  | aluiOr (t : Nat) (b : W64)
  /-- ALUI_XOR (R120). sd = sd XOR imm5. -/
  | aluiXor (t : Nat) (b : W64)
  /-- ALUI_SHL (R120). sd shifted left by imm5. -/
  | aluiShl (t : Nat) (b : W64)
  /-- ALUI_SHR (R120). sd shifted right logically by imm5. -/
  | aluiShr (t : Nat) (b : W64)
  /-- ALUI_SRA (R120). sd shifted right arithmetically by imm5. -/
  | aluiSra (t : Nat) (b : W64)
  /-- ALUI_MUL (R120). Low 32 bits of sd × imm5. -/
  | aluiMul (t : Nat) (b : W64)
  /-- ALUI_SLT (R120). 1 if sd < imm5 signed, else 0. -/
  | aluiSlt (t : Nat) (b : W64)
  /-- ALUI_SLTU (R120). 1 if sd < imm5 unsigned, else 0. -/
  | aluiSltu (t : Nat) (b : W64)
  /-- ALUI_MIN (R120). Signed minimum of sd and imm5. -/
  | aluiMin (t : Nat) (b : W64)
  /-- ALUI_MAX (R120). Signed maximum of sd and imm5. -/
  | aluiMax (t : Nat) (b : W64)
  /-- ALUI_MOV (R120). sd = imm5. -/
  | aluiMov (t : Nat) (b : W64)
  /-- LIL (R120). Loads a sign-extended 10-bit immediate. -/
  | lil (t : Nat) (b : W64)
  /-- LIS (R120). Shifts sd left by 10 and ORs a 10-bit immediate. -/
  | lis (t : Nat) (b : W64)
  /-- ADDI (R120). Adds a sign-extended 10-bit immediate. -/
  | addi (t : Nat) (b : W64)
  /-- LD (R121). Loads 32 bits from local memory. -/
  | ld (t : Nat) (b : W64)
  /-- ST (R121). Stores 32 bits to local memory as a read-modify-write. -/
  | st (t : Nat) (b : W64)
  /-- GLD (R121). Translated 32-bit global load, allocating in the tile cache where allowed. -/
  | gld (t : Nat) (b : W64)
  /-- GST (R121). Translated 32-bit global store written through. -/
  | gst (t : Nat) (b : W64)
  /-- BRZ (R122). Branches if sa is 0. -/
  | brz (t : Nat) (b : W64)
  /-- BRNZ (R122). Branches if sa is not 0. -/
  | brnz (t : Nat) (b : W64)
  /-- LOOP (R123). Starts a hardware loop with count from a register. -/
  | loopOp (t : Nat) (b : W64)
  /-- LOOPI (R123). Starts a hardware loop with an immediate count. -/
  | loopi (t : Nat) (b : W64)
  /-- JMP (R122). Unconditional branch. -/
  | jmp (t : Nat) (b : W64)
  /-- SIG (R126). Adds a register value to a local sync object after earlier stores complete. -/
  | sig (t : Nat) (b : W64)
  /-- SIGI (R126). Adds an immediate to a local sync object. -/
  | sigi (t : Nat) (b : W64)
  /-- WAIT (R127). Registers a waiter and stalls until the object reaches the threshold. -/
  | waitOp (t : Nat) (b : W64)
  /-- WAIT_RELEASE (R127). The update that satisfies a waiter reaches the tile and the WAIT bundle issues within 4 FCLK. -/
  | waitRelease (t : Nat)
  /-- REL (R128). Releases flits of a ring-mode input port, returning credits. -/
  | rel (t : Nat) (b : W64)
  /-- FENCE (R129). Stalls until earlier operations of the masked classes complete. -/
  | fence (t : Nat) (b : W64)
  /-- TRR (R130). Reads 32 bits of the tile's own register block. -/
  | trr (t : Nat) (b : W64)
  /-- TRW (R130). Writes 32 bits of the tile's own register block. -/
  | trw (t : Nat) (b : W64)
  /-- CINV (R84). Invalidates the tile cache within 8 FCLK. -/
  | cinv (t : Nat) (b : W64)
  /-- END (R131). Stops the sequencer and sets ended. -/
  | endOp (t : Nat) (b : W64)
  /-- CONTEXT_KILL (R94). A kill cause is recorded and the steward stops every unit of the context and applies the kill reset. -/
  | contextKill (t cause unit detail : Nat) (addr : W64)
  /-- LM_REQUEST_AGED (R77). A local-memory request refused for 8 consecutive FCLK becomes aged. -/
  | lmRequestAged (t requester refused : Nat)
  /-- LM_EXTERNAL_ACCESS (R78). An external master reads or writes tile local memory through the bench router. -/
  | lmExternalAccess (m : Master) (addr : Nat) (n : Nat) (op : AccessOp)
  /-- TILE_CACHE_FILL (R246). A miss fill returns to the tile, completing the load and allocating unless invalidated meanwhile. -/
  | tileCacheFill (t line : Nat)
  /-- STREAM_FLIT_ARRIVAL (R87). A flit reaches an input port and is queued or landed in its ring, or discarded after a kill. -/
  | streamFlitArrival (t port : Nat) (f : Flit)
  /-- STREAM_CREDIT_RETURN (R86). A credit reaches a producer, letting stalled pushes or write-outs proceed. -/
  | streamCreditReturn (t port n : Nat)
  /-- DMA_DESCRIPTOR_EXECUTE (R91). An enabled channel reads the next descriptor and checks it. -/
  | dmaDescriptorExecute (t n : Nat)
  /-- DMA_TRANSFER_BLOCK (R92). A channel translates a block's pages and moves it. -/
  | dmaTransferBlock (t n : Nat)
  /-- DMA_DESCRIPTOR_COMPLETE (R93). All bytes of a descriptor are acknowledged; head advances and sync_obj is signalled. -/
  | dmaDescriptorComplete (t n : Nat)
  /-- DMA_TAIL_WRITE (R93). A write of tile.dma.n.tail submits descriptors, ignored if out of range. -/
  | dmaTailWrite (t n : Nat) (v : W32)
  /-- DMA_CTRL_WRITE (R93). A write of tile.dma.n.ctrl, ignored as a whole if misaligned or resizing while enabled. -/
  | dmaCtrlWrite (t n : Nat) (v : W32)
  /-- SEQ_START (R131). A write of 1 to tile.seq.ctrl.start starts the sequencer at pc.start if idle in an active dressing. -/
  | seqStart (t : Nat) (v : W32)
  /-- ARITH_CTRL_WRITE (R64). A write of tile.arith.ctrl takes effect at the next bundle; rmode writes of 0b111 or reserved codes are ignored. -/
  | arithCtrlWrite (t : Nat) (v : W32)
  /-- SR_SEED_WRITE (R48). A write of tile.arith.sr_seed reseeds all 64 lane generators. -/
  | srSeedWrite (t : Nat) (v : W32)
  /-- REGISTER_WRITE (R29). Write to any register without a row of its own, applying its access codes and management-only refusal. -/
  | registerWrite (m : Master) (addr : W64) (width : Nat) (v : W64)
  /-- BENCH_INVALIDATION (R245). A bench router passes a line invalidation to its tiles and acknowledges within 16 NCLK. -/
  | benchInvalidation (bench line : Nat) (writer : Option Nat)
  /-- RD_SHARED (R251). A read for a shared copy reaches the home and is handled by directory state. -/
  | rdShared (a : Agent) (line tag tc : Nat)
  /-- RD_UNIQUE (R251). A read for exclusive ownership reaches the home. -/
  | rdUnique (a : Agent) (line tag tc : Nat)
  /-- UPGRADE (R252). A request for ownership without data, handled as RdUnique if unrecorded. -/
  | upgrade (a : Agent) (line tag tc : Nat)
  /-- RD_NO_ALLOC (R251). A non-allocating read of current data. -/
  | rdNoAlloc (a : Agent) (line tag tc : Nat)
  /-- WR_FULL (R251). A non-allocating write of a whole line. -/
  | wrFull (a : Agent) (line tag tc : Nat) (data : BitVec 1024) (poison : Bool)
  /-- WR_PART (R266). A non-allocating masked write. -/
  | wrPart (a : Agent) (line tag tc : Nat) (mask : BitVec 128) (data : BitVec 1024) (poison : Bool)
  /-- ATOMIC (R266). A read-modify-write performed at the home, answered with the old value. -/
  | atomicOp (a : Agent) (addr tag tc aop size : Nat) (operand compare : W64)
  /-- EVICT_CLEAN (R254). An agent announces dropping a C, S or F copy. -/
  | evictClean (a : Agent) (line tag : Nat)
  /-- EVICT_DIRTY (R254). An agent writes back a D copy and drops it. -/
  | evictDirty (a : Agent) (line tag : Nat) (data : BitVec 1024) (poison : Bool)
  /-- SNP_INV (R257). A chiplet home's invalidating snoop to the hub agent, passed to every bench and answered RspI. -/
  | snpInv (site line tag : Nat) (target : Option Nat)
  /-- SNP_SHARE (R256). A chiplet home's share snoop reaching the hub agent. -/
  | snpShare (site line tag : Nat) (target : Option Nat)
  /-- SNP_CUR (R256). A chiplet home's current-data snoop reaching the hub agent. -/
  | snpCur (site line tag : Nat) (target : Option Nat)
  /-- RSP_I (R251). A snooped agent reports its copy invalid. -/
  | rspI (a : Agent) (line : Nat)
  /-- RSP_S (R251). A snooped agent reports its copy shared. -/
  | rspS (a : Agent) (line : Nat)
  /-- RSP_FWD (R251). An F holder reports data forwarded. -/
  | rspFwd (a : Agent) (line : Nat)
  /-- CMP (R259). A chiplet home completes a hub agent write or eviction. -/
  | cmp (site line tag : Nat)
  /-- CMP_E (R251). A home grants an upgrade. -/
  | cmpE (a : Agent) (line tag : Nat)
  /-- RSP_ERR (R255). A home refuses a request. -/
  | rspErr (a : Agent) (line tag reason : Nat)
  /-- DAT_C (R251). Data granting a C copy reaches the requester. -/
  | datC (a : Agent) (line tag : Nat) (data : BitVec 1024) (poison : Bool)
  /-- DAT_S (R251). Data granting S, answering RdNoAlloc or completing an Atomic reaches the requester. -/
  | datS (a : Agent) (line tag : Nat) (data : BitVec 1024) (poison : Bool)
  /-- DAT_F (R251). Data granting F reaches the requester. -/
  | datF (a : Agent) (line tag : Nat) (data : BitVec 1024) (poison : Bool)
  /-- DAT_WB (R251). Dirty data returned on a snoop reaches the home. -/
  | datWb (a : Agent) (line : Nat) (data : BitVec 1024) (poison : Bool)
  /-- DAT_CUR (R251). Current dirty data returned on SnpCur reaches the home. -/
  | datCur (a : Agent) (line : Nat) (data : BitVec 1024) (poison : Bool)
  /-- DAT_WR (R266). Write, Atomic or EvictDirty data reaches the home. -/
  | datWr (a : Agent) (line tag : Nat) (mask : BitVec 128) (data : BitVec 1024) (poison : Bool)
  /-- LINE_QUEUE_RESUME (R249). A transaction on a line ends and the next waiting request in the line queue is processed. -/
  | lineQueueResume (line : Nat)
  /-- SNOOP_TIMEOUT (R255). A site or host does not answer within snp_to and is fenced. -/
  | snoopTimeout (a : Agent)
  /-- DIR_PROBE_GO (R244). A write of coh.dir.probe.ctl.go reads a directory entry into the result registers. -/
  | dirProbeGo (v : W64)
  /-- UCIE_FLIT (R268). A kind-0 flit arrives and is accepted if crc and seq are right, else discarded with a NAK. -/
  | ucieFlit (site module : Nat) (f : UFlit)
  /-- UCIE_NAK (R268). A NAK arrives and the sender resends from ack + 1. -/
  | ucieNak (site module ack : Nat)
  /-- UCIE_ACK_FLIT (R268). An ack-only flit arrives, releasing acknowledged flits. -/
  | ucieAckFlit (site module ack : Nat)
  /-- UCIE_ACK_TIMER (R268). 1 µs since the last acknowledgement; the receiver sends an ack. -/
  | ucieAckTimer (site module : Nat)
  /-- UCIE_MODULE_RETRAIN (R269). 8 NAKs for one seq or 10 µs unacknowledged retrains a module. -/
  | ucieModuleRetrain (site module : Nat)
  /-- UCIE_RETRAIN_TIMEOUT (R269). A retrain not active within 10 ms fences the site and starts a site reset. -/
  | ucieRetrainTimeout (site module : Nat)
  /-- SFLIT (R278). A chiplet producer's stream flit reaches a tile input port. -/
  | sflit (site stream : Nat) (f : Flit)
  /-- SCREDIT (R278). A chiplet consumer returns end-to-end credits. -/
  | scredit (site stream n : Nat)
  /-- SGRANT (R278). A chiplet answers SBind with its capacity or 0. -/
  | sgrant (site stream n : Nat)
  /-- SUNBOUND (R278). A chiplet answers SUnbind, handing back credits. -/
  | sunbound (site stream n : Nat)
  /-- ID_RSP (R271). A chiplet returns an identity word, compared with the fuses. -/
  | idRsp (site w : Nat) (v : W32)
  /-- SITE_MODS (R274). The chiplet's echo of the enabled-module mask arrives. -/
  | siteMods (site : Nat) (mask : ModEcho)
  /-- PWR_REQ (R280). A chiplet requests VCORE and power; the steward ramps VCORE and grants. -/
  | pwrReq (site vcore power : Nat)
  /-- PWR_ACK (R279). A chiplet acknowledges a grant sequence, releasing reclaimed tokens. -/
  | pwrAck (site gseq : Nat)
  /-- THERM (R281). A chiplet reports its junction temperature; high readings halve or cut its grant. -/
  | therm (site temp : Nat)
  /-- THERM_TIMEOUT (R281). No THERM for 10 ms halves the grant, for 100 ms cuts the rails. -/
  | thermTimeout (site ms : Nat)
  /-- SCRUB_ACK (R276). A chiplet reports its scrub done or failed. -/
  | scrubAck (site : Nat) (ok : Bool)
  /-- SCRUB_TIMEOUT (R276). No scrub ack in the scrub time; unscrubbed is set and the site held in reset. -/
  | scrubTimeout (site : Nat)
  /-- CHIP_ERR (R273). A chiplet-defined error code is logged and passed to the operator. -/
  | chipErr (site code : Nat)
  /-- SITE_POWER_AVERAGE (R281). Each 1 ms a site's rail power average is compared with its grant. -/
  | sitePowerAverage (site avg : Nat)
  /-- SITE_OVERPOWER_RECHECK (R281). 10 ms after a repeated grant a site still over it is fenced and reset with rails cycled. -/
  | siteOverpowerRecheck (site avg : Nat)
  /-- SYNC_COUNT_WRITE (R284). A 64-bit write sets a sync object's count. -/
  | syncCountWrite (obj : Nat) (v : W64)
  /-- SYNC_ADD (R283). An add to a sync object's count, releasing waiters and firing notifiers that reach threshold. -/
  | syncAdd (obj : Nat) (v : W64)
  /-- SYNC_TAKE (R284). A read of sync.n.take returns the count and sets it to 0. -/
  | syncTake (m : Master) (obj : Nat)
  /-- SYNC_EXCHANGE (R286). An 8-byte swap, compare-and-swap or other Atomic to a sync page from a chiplet or peer. -/
  | syncExchange (m : Master) (obj off aop size : Nat) (operand compare : W64)
  /-- NOTIFIER_ACTION (R290). A notifier's action runs asynchronously, dropped and flagged on failure. -/
  | notifierAction
  /-- NOTIFIER_ACTION_WRITE (R289). A write of sync.n.nk.action arms the notifier when kind goes from 0 to nonzero, firing if already met. -/
  | notifierActionWrite (obj k : Nat) (v : W64)
  /-- NOTIFIER_THRESH_WRITE (R289). A write of a notifier threshold takes effect for later operations. -/
  | notifierThreshWrite (obj k : Nat) (v : W64)
  /-- PUT (R314). A Tukosen write request is performed at its address and memoized. -/
  | putOp (port : Nat) (f : Frame)
  /-- GET (R314). A Tukosen read request is performed and answered with data. -/
  | getOp (port : Nat) (f : Frame)
  /-- TKS_ATOMIC (R314). A Tukosen ATOMIC request is performed and answered with the old value. -/
  | tksAtomic (port : Nat) (f : Frame)
  /-- TKS_SYNC (R314). A Tukosen SYNC operation on a sync object page is performed. -/
  | tksSync (port : Nat) (f : Frame)
  /-- RED (R315). A Tukosen reduction combines payload elements into memory. -/
  | red (port : Nat) (f : Frame)
  /-- SETT_GRANT (R314). A peer requests setts of the export pool. -/
  | settGrant (port : Nat) (f : Frame)
  /-- SETT_RETURN (R314). A peer frees a run of setts. -/
  | settReturn (port : Nat) (f : Frame)
  /-- SETT_READ (R314). A peer reads a granted sett. -/
  | settRead (port : Nat) (f : Frame)
  /-- SETT_WRITE (R314). A peer writes a granted sett. -/
  | settWrite (port : Nat) (f : Frame)
  /-- MSG (R370). A message is delivered into a service ingress queue slot and signals its object. -/
  | msg (port : Nat) (f : Frame)
  /-- ECHO (R313). The port answers an ECHO without memory access. -/
  | echo (port : Nat) (f : Frame)
  /-- TKS_RESPONSE (R320). A response reaches the source, ending its outstanding request. -/
  | tksResponse (port : Nat) (f : Frame)
  /-- TKS_FORWARD (R311). A frame for another device is forwarded cut-through, or discarded with status 0x4 or 0x5. -/
  | tksForward (port : Nat) (f : Frame)
  /-- TKS_TRANSIT_DISCARD (R311). A transit frame held 1 ms without forwarding is discarded. -/
  | tksTransitDiscard (port : Nat)
  /-- NAK (R317). A Tukosen NAK arrives and the sender resends from lack + 1. -/
  | nak (port lack : Nat)
  /-- TKS_ACK_CREDIT_FRAME (R318). An ack and credit-only frame returns acknowledgements and cells. -/
  | tksAckCreditFrame (port lack : Nat) (cr0 cr1 : Nat × Nat)
  /-- HELLO (R313). A HELLO frame delivers the partner's device ID, tag and port. -/
  | hello (port dev part nbrPort : Nat)
  /-- TKS_ACK_TIMER (R317). 1 µs after accepting frames the receiver acknowledges. -/
  | tksAckTimer (port : Nat)
  /-- TKS_PORT_RETRAIN (R319). 8 NAKs or 10 µs unacknowledged retrains a port. -/
  | tksPortRetrain (port : Nat)
  /-- TKS_RETRAIN_TIMEOUT (R319). A port not up within 100 ms of retraining resets. -/
  | tksRetrainTimeout (port : Nat)
  /-- TKS_REQUEST_RESEND (R320). No response at 2, 4, 6 or 8 ms resends a request with the same reqid. -/
  | tksRequestResend (reqid : W32)
  /-- TKS_REQUEST_FAIL (R320). No response at 10 ms ends the request with status 0x7. -/
  | tksRequestFail (reqid : W32)
  /-- TKS_BUSY_RETRY (R315). 20 µs after a busy response the request is sent again. -/
  | tksBusyRetry (reqid : W32)
  /-- TKS_MEMO_EXPIRY (R321). A memo entry is freed 100 ms after creation. -/
  | tksMemoExpiry (src : Nat) (reqid : W32)
  /-- TKS_PORT_STATUS (R306). Returns port status and counters. -/
  | tksPortStatus (q : Req) (port : Nat)
  /-- TKS_PORT_STATUS_EXPERT (R306). Returns a lane's training record and FEC histogram. -/
  | tksPortStatusExpert (q : Req) (port lane : Nat)
  /-- TKS_PORT_RESET (R319). Resets a port and reruns link-up. -/
  | tksPortReset (q : Req) (port : Nat)
  /-- TKS_PORT_RESET_EXPERT (R319). Resets a port and holds it down until the next reset command. -/
  | tksPortResetExpert (q : Req) (port : Nat) (hold : Bool)
  /-- TKS_ROUTE_PROBE (R310). Returns the port chosen for a device ID. -/
  | tksRouteProbe (q : Req) (dev : Nat)
  /-- TKS_PING (R310). Sends ECHO requests and returns round-trip times. -/
  | tksPing (q : Req) (dev tc count : Nat)
  /-- TKS_CREDIT_SET (R318). Restores default pool grants and resets the port. -/
  | tksCreditSet (q : Req) (port : Nat)
  /-- TKS_CREDIT_SET_EXPERT (R318). Sets the 16 pool grants and resets the port. -/
  | tksCreditSetExpert (q : Req) (port : Nat) (grants : List Nat)
  /-- MEM_RD (R333). A host CXL.mem read, translated by MetaValue to RdShared, RdUnique or RdNoAlloc. -/
  | memRd (hpa : Nat) (metaV : Nat) (tag : Nat)
  /-- MEM_RD_DATA (R333). A host read without caching, treated as RdNoAlloc. -/
  | memRdData (hpa tag : Nat)
  /-- MEM_WR (R333). A host write, handled as EvictDirty from the owner or WrFull otherwise. -/
  | memWr (hpa : Nat) (metaI : Bool) (tag : Nat) (data : BitVec 512) (poison : Bool)
  /-- MEM_WR_PTL (R333). A host partial write, handled as WrPart. -/
  | memWrPtl (hpa : Nat) (tag : Nat) (mask : BitVec 64) (data : BitVec 512) (poison : Bool)
  /-- MEM_CLN_EVCT (R333). A host clean eviction, handled as EvictClean. -/
  | memClnEvct (hpa tag : Nat)
  /-- MEM_INV (R333). A host ownership request without data, handled as Upgrade. -/
  | memInv (hpa tag : Nat)
  /-- BI_RSP (R334). The host answers a back-invalidate snoop with BIRspI or BIRspS. -/
  | biRsp (hpa : Nat) (shared : Bool)
  /-- BI_CONFLICT (R334). The host signals a conflict, answered with BIConflictAck once ordered at the home. -/
  | biConflict (hpa : Nat)
  /-- H2D_SNOOP (R336). A host-to-device snoop is answered RspIHitI. -/
  | h2dSnoop (hpa tag : Nat)
  /-- CXL_IO_MEM_ACCESS (R330). A host CXL.io read or write through BAR2 or a BAR4 aperture. -/
  | cxlIoMemAccess (bar : Nat) (off : Nat) (n : Nat) (op : AccessOp)
  /-- CXL_ATOMIC_OP (R326). A host AtomicOp request completes with Unsupported Request. -/
  | cxlAtomicOp (bar off : Nat)
  /-- CXL_D2H_RESPONSE (R336). The host answers a hub RdCurr, ItoMWr or WrCur. -/
  | cxlD2hResponse (id : Nat) (data : BitVec 512) (poison : Bool)
  /-- CACHE_WRITEBACK_INVALIDATE (R336). Cache Writeback and Invalidate completes at once with Cache Invalid set. -/
  | cacheWritebackInvalidate
  /-- HDM_DECODER_COMMIT (R332). The host commits the HDM decoder, or Commit Error is set. -/
  | hdmDecoderCommit (base size ways : Nat)
  /-- MSIX_UNMASK (R339). Unmasking a vector with its pending bit set sends the message. -/
  | msixUnmask (vec : Nat)
  /-- FLR (R340). A function-level reset restores only the items of Table 14-6. -/
  | flr
  /-- CXL_LINK_UP (R390). The host root port trains the link. -/
  | cxlLinkUp (width rate : Nat)
  /-- CXL_LINK_DOWN (R341). A link-down, hot reset or refclk loss fences the host and ends outstanding CXL.cache requests as holes. -/
  | cxlLinkDown (refLost : Bool)
  /-- HOST_WINDOW_WRITE (R337). A write of cxl.ht.k.tier sets or clears a host-tier window, ignored if it breaks the rules. -/
  | hostWindowWrite (k : Nat) (v : W64)
  /-- MAILBOX_DOORBELL (R350). A doorbell write posts a request; the steward accepts, checks and executes it or sets overrun. -/
  | mailboxDoorbell (m : Nat) (v : W32)
  /-- AXOTTE_MGMT_MESSAGE (R359). An Axotte message in a secured management session binds or uses a management mailbox. -/
  | axotteMgmtMessage (session : Nat) (cmd flags len : Nat) (tag seq : W32)
  /-- MGMT_SESSION_END (R360). A management session ends; its command completes, the response is discarded and the mailbox freed. -/
  | mgmtSessionEnd (session : Nat)
  /-- LOCKSTEP_MISMATCH (R452). A steward lockstep mismatch enters the hardware hold and restarts the steward, or keeps the hold on a second mismatch. -/
  | lockstepMismatch (sinceRestartUs : Nat)
  /-- STEWARD_RESTART_COMPLETE (R345). The restart completes; accepted commands end RESTARTED, the hold is released and posted doorbells accepted. -/
  | stewardRestartComplete
  /-- FSIG (R364). A service core adds rs2 to a local sync object after its stores are acknowledged. -/
  | fsig (core : Nat) (rs1 rs2 : W64)
  /-- FWAIT (R365). A service core waits for a local object to reach a threshold. -/
  | fwait (core rd : Nat) (rs1 rs2 : W64)
  /-- FIRQ_READ (R366). A read of firq pops the oldest sync-interrupt entry. -/
  | firqRead (core rd : Nat)
  /-- SVC_CORE_ACCESS (R364). A service-core load, store or AMO outside its private range, issued uncached. -/
  | svcCoreAccess (core rd : Nat) (pa : W64) (n : Nat) (op : AccessOp) (lrsc : Bool)
  /-- SVC_FW_LOAD (R367). Verifies and copies a service image into the private range. -/
  | svcFwLoad (q : Req) (image : W64) (size : Nat)
  /-- SVC_START (R368). Sets the private range and starts all 16 cores. -/
  | svcStart (q : Req) (base size : Nat) (arg : W64)
  /-- SVC_START_EXPERT (R368). Starts the cores of a mask at given entries. -/
  | svcStartExpert (q : Req) (base size : Nat) (arg : W64) (mask : Nat) (entries : List Nat)
  /-- SVC_STOP (R369). Halts every core at an instruction boundary. -/
  | svcStop (q : Req)
  /-- SVC_QUEUE_SET (R370). Configures an ingress queue with 4 KiB slots. -/
  | svcQueueSet (q : Req) (queue base slots obj : Nat)
  /-- SVC_QUEUE_SET_EXPERT (R372). Configures ingress slot size and egress rings. -/
  | svcQueueSetExpert (q : Req) (queue base slots obj slotCode : Nat) (egress : List (Nat × W64))
  /-- SVC_STATUS (R366). Returns core status, fw_id and queue levels. -/
  | svcStatus (q : Req)
  /-- EGRESS_TAIL_WRITE (R372). A write of svc.eq.e.tail submits egress descriptors. -/
  | egressTailWrite (e : Nat) (v : W32)
  /-- EGRESS_SEND (R372). The hub reads an egress descriptor's payload and sends it as a MSG. -/
  | egressSend (e : Nat)
  /-- SERVING_STEP (R373). The serving profile writes the step table, signals step_go and reads logits after step_done. -/
  | servingStep
  /-- SERVING_ADMISSION (R374). The profile admits a queued request into a free step-table entry when capacity allows. -/
  | servingAdmission (r : SvReq)
  /-- SERVING_ADMISSION_TIMEOUT (R374). A request not admitted within wait_ms is answered with status 3. -/
  | servingAdmissionTimeout (id : W64)
  /-- REG_WINDOW_UPDATE (R381). At the end of each 64-NCLK window the allowance A of each half is updated from level L and portions redistributed. -/
  | regWindowUpdate (half level : Nat) (demand : List Nat)
  /-- BENCH_POOL_DIVIDE (R408). Every 100 µs the steward divides the bench pool among powered benches. -/
  | benchPoolDivide (demand : List Nat)
  /-- BENCH_GOVERNOR (R409). Every microsecond a bench governor sets the largest duty whose power estimate fits the grant. -/
  | benchGovernor (bench staticTok dynTok : Nat)
  /-- ESTIMATOR_CALIBRATION (R409). Every 10 ms estimators are calibrated against current sensors. -/
  | estimatorCalibration (hubMw : Nat)
  /-- BENCH_THERMAL_GOVERNOR (R417). Every 100 µs a bench lowers or raises its thermal limiter against t_lim. -/
  | benchThermalGovernor (bench sinceRaiseMs : Nat)
  /-- SENSOR_DIVERGE (R418). Bench sensors differing by more than 5 °C for 10 ms set diverge. -/
  | sensorDiverge (bench ms : Nat)
  /-- GRADIENT_CHECK (R419). Every 100 µs adjacent benches are compared and the gradient limiter set or released. -/
  | gradientCheck (a b mvA mvB : Nat)
  /-- GRADIENT_ESCALATE (R419). A pair not back within limit 1 ms after detection has its limiter set to 0. -/
  | gradientEscalate (a b mvA mvB : Nat)
  /-- AGE_MONITOR_READ (R421). Every 10 ms the steward reads each powered domain's weathering monitor. -/
  | ageMonitorRead (dom : Nat) (slack : BitVec 16)
  /-- SERVICE_HOUR_TICK (R422). Each powered hour advances the service-hour counter, starting a re-plan when the period has elapsed. -/
  | serviceHourTick
  /-- REPLAN_LOWERING_VERIFY (R425). 100 ms after lowerings the steward commits those whose slack stays above guard and reverts others. -/
  | replanLoweringVerify
  /-- TELEMETRY_RECORD (R427). Each stream period a telemetry record is written into the ring. -/
  | telemetryRecord
  /-- TEL_READ (R427). Returns one telemetry record for a mask. -/
  | telRead (q : Req) (mask : Nat)
  /-- TEL_STREAM_SET (R427). Starts or stops a telemetry stream. -/
  | telStreamSet (q : Req) (ring : W64) (k period : Nat)
  /-- TEL_STREAM_SET_EXPERT (R427). Starts a telemetry stream with item mask and traffic class. -/
  | telStreamSetExpert (q : Req) (ring : W64) (k period mask tc : Nat)
  /-- BENCH_IDLE (R433). A bench with no held tile or BIST for 10 µs goes Idle and gates FCLK. -/
  | benchIdle (bench us : Nat)
  /-- PRB_READ (R440). Returns persistent words. -/
  | prbRead (q : Req) (first count : Nat)
  /-- PRB_WRITE (R440). Writes operator persistent words in ascending order. -/
  | prbWrite (q : Req) (first : Nat) (vals : List W32)
  /-- PRB_WEAR (R441). Returns wear counts and prb.status. -/
  | prbWear (q : Req)
  /-- PRB_RWP_WRITE (R440). A data-plane RWP register write queues a persistent word write, dropped in warning or when worn. -/
  | prbRwpWrite (w : Nat) (v : W32)
  /-- PRB_WRITE_COMPLETE (R440). A persistent word write completes after 50 µs and the next queued write starts. -/
  | prbWriteComplete
  /-- DIAG_LOG_READ (R444). Returns event log entries newest first, filtered by tenancy outside management. -/
  | diagLogRead (q : Req) (first count : Nat)
  /-- DIAG_BIST_RUN (R403). Runs start-up BIST patterns on a free target. -/
  | diagBistRun (q : Req) (kind unit : Nat)
  /-- DIAG_BIST_RUN_EXPERT (R403). Runs BIST with explicit march elements, backgrounds and patterns. -/
  | diagBistRunExpert (q : Req) (kind unit bg : Nat) (elems : List (BitVec 16)) (lo hi patterns : Nat) (seed : W32) (stop : Bool)
  /-- DIAG_BIST_COMPLETE (R404). A DIAG BIST run ends; failures isolate tiles or are logged, and target memory holds zeros. -/
  | diagBistComplete (run : Nat) (fails : List (BitVec 256))
  /-- DIAG_BIST_RESULT (R405). Returns failing records of a run. -/
  | diagBistResult (q : Req) (run : Nat)
  /-- DIAG_SAFETY_STATUS (R446). Returns saf.status, heartbeat and safety records. -/
  | diagSafetyStatus (q : Req)
  /-- DIAG_FAULT_INJECT (R465). Injects a fault of a code on a target the steward chooses. -/
  | diagFaultInject (q : Req) (code : Nat)
  /-- DIAG_FAULT_INJECT_EXPERT (R465). Injects a fault on a named target. -/
  | diagFaultInjectExpert (q : Req) (code unit : Nat)
  /-- BENCH_SENSOR_READ (R448). Every 100 µs each bench sensor reads; five readings at 105 °C or out-of-range values detect a fault. -/
  | benchSensorRead (bench : Nat) (t0 t1 : Int)
  /-- SENSOR_REFRESH_TIMEOUT (R448). No new sensor reading for 1 ms is a detection of code 0x9. -/
  | sensorRefreshTimeout (bench sensor : Nat)
  /-- BENCH_COOL_EXIT (R449). Both sensors below 90 °C for 1 s restore the bench unless it is latched. -/
  | benchCoolExit (bench belowMs : Nat)
  /-- FLOW_OK_SAMPLE (R450). Every 1 ms from step 3 FLOW_OK is sampled; 50 low samples enter device cool. -/
  | flowOkSample (level : Bool)
  /-- DATAPATH_RETEST (R447). Once no handle reserves an isolated tile, the steward retests it and may lift the isolation. -/
  | datapathRetest (t : Nat) (pass : Bool)
  /-- ONLINE_BIST_ROUND (R454). Each second a round tests the free tiles of its benches. -/
  | onlineBistRound (round : Nat) (fails : List Nat)
  /-- WATCHDOG_EXPIRY (R458). A watched agent without progress for the limit is killed or its bench reset. -/
  | watchdogExpiry (kind unit : Nat) (idx ms : Nat)
  /-- HEARTBEAT_TICK (R446). Every 10 ms the steward advances saf.heartbeat. -/
  | heartbeatTick
  /-- COOL_LEAK (R497). A falling edge of COOL_LEAK_N logs a class-0 event and sets leak_seen. -/
  | coolLeak (level : Bool)
  /-- COOLANT_THERMISTOR_READ (R497). Every 100 ms the cold-plate thermistors are read; inlet above 40 °C logs once. -/
  | coolantThermistorRead (inlet outlet : Nat)
  /-- SEC_HANDOVER (R467). Kills, scrubs, resets sites with scrub, opens a fresh epoch and starts a new tenancy. -/
  | secHandover (q : Req)
  /-- SEC_HANDOVER_EXPERT (R467). Handover with rail cycling, library drop and new partition tag. -/
  | secHandoverExpert (q : Req) (cycle drop : Bool) (part : Option Nat)
  /-- SEC_LC_TRANSITION (R475). Burns life-cycle fuse bits for a permitted transition. -/
  | secLcTransition (q : Req) (target : Nat) (serial : W64) (token : W64)
  /-- LC_BURN_SUPPLY_TIMEOUT (R476). A supply warning lasting over 1 s before the first bit ends the burn with SUPPLY_LOW. -/
  | lcBurnSupplyTimeout
  /-- SEC_KEY_PROVISION (R484). Derives a slot key pair from a salt and returns its public key. -/
  | secKeyProvision (q : Req) (slot : Nat) (salt : BitVec 256)
  /-- SEC_EPOCH_ROTATE (R488). Opens a new key epoch and starts the re-encrypt pass. -/
  | secEpochRotate (q : Req)
  /-- SEC_TRUST_SET (R481). Writes a trust-store entry, the anchor or the policy word. -/
  | secTrustSet (q : Req) (item : TrustItem) (prov : Bool)
  /-- SEC_DEVICE_SET (R473). Writes the device ID. -/
  | secDeviceSet (q : Req) (dev : Nat)
  /-- SEC_ROUTE_WRITE (R473). Writes a run of routing table entries. -/
  | secRouteWrite (q : Req) (table first : Nat) (entries : List (BitVec 16))
  /-- SEC_FW_UPDATE (R482). Verifies and writes a steward image into the inactive slot for the next reset. -/
  | secFwUpdate (q : Req) (image : W64) (size : Nat)
  /-- SEC_FW_UPDATE_EXPERT (R482). Installs a steward image and activates it at once by a restart. -/
  | secFwUpdateExpert (q : Req) (image : W64) (size : Nat) (now : Bool)
  /-- SEC_DEBUG_OPEN (R480). Opens debug scopes under a signed token. -/
  | secDebugOpen (q : Req) (token : W64)
  /-- SEC_LIBRARY_LOAD (R471). Verifies and loads a retained library at the highest free boundary. -/
  | secLibraryLoad (q : Req) (image : W64) (size : Nat)
  /-- SEC_LIBRARY_LOAD_EXPERT (R471). Loads a retained library at a named base. -/
  | secLibraryLoadExpert (q : Req) (image : W64) (size base : Nat)
  /-- SEC_PARTITION_SET (R473). Writes the partition tag. -/
  | secPartitionSet (q : Req) (tagv : Nat)
  /-- SEC_STATUS (R474). Returns the sec status registers and nonce. -/
  | secStatus (q : Req)
  /-- GET_VERSION (R483). SPDM version request. -/
  | getVersion (port : Nat)
  /-- GET_CAPABILITIES (R483). SPDM capabilities request. -/
  | getCapabilities (port : Nat)
  /-- NEGOTIATE_ALGORITHMS (R483). SPDM algorithm negotiation. -/
  | negotiateAlgorithms (port : Nat) (offered : Nat)
  /-- GET_DIGESTS (R484). SPDM certificate digests request. -/
  | getDigests (port : Nat)
  /-- GET_CERTIFICATE (R484). SPDM certificate chain request. -/
  | getCertificate (port slot off len : Nat)
  /-- CHALLENGE (R483). SPDM challenge-response authentication. -/
  | challenge (port slot : Nat)
  /-- GET_MEASUREMENTS (R487). Returns a signed measurement set, held up to 2 s during transitional events. -/
  | getMeasurements (port index slot : Nat) (signed : Bool)
  /-- MEASUREMENT_HOLD_TIMEOUT (R487). A held GET_MEASUREMENTS after 2 s is answered with the last set and block 0xF0. -/
  | measurementHoldTimeout (port : Nat)
  /-- CHUNK_SEND (R483). SPDM chunked send. -/
  | chunkSend (port handle : Nat) (last : Bool) (data : List Byte)
  /-- CHUNK_GET (R483). SPDM chunked get. -/
  | chunkGet (port handle idx : Nat)
  /-- KEY_EXCHANGE (R483). SPDM key exchange with mutual authentication. -/
  | keyExchange (port session : Nat)
  /-- FINISH (R483). SPDM session finish. -/
  | finish (port session : Nat) (rootDigest : BitVec 512) (ok : Bool)
  /-- HEARTBEAT (R483). SPDM session heartbeat. -/
  | heartbeat (port session : Nat)
  /-- KEY_UPDATE (R483). SPDM session key update. -/
  | keyUpdate (port session op : Nat)
  /-- GET_ENCAPSULATED_REQUEST (R483). SPDM encapsulated request retrieval. -/
  | getEncapsulatedRequest (port session : Nat)
  /-- DELIVER_ENCAPSULATED_RESPONSE (R483). SPDM encapsulated response delivery. -/
  | deliverEncapsulatedResponse (port session : Nat) (chain : List Byte)
  /-- END_SESSION (R483). SPDM session end. -/
  | endSession (port session : Nat)
  /-- GET_CSR (R484). SPDM certificate signing request. -/
  | getCsr (port session slot : Nat)
  /-- SET_CERTIFICATE (R484). Installs an operator certificate chain in a slot. -/
  | setCertificate (port session slot : Nat) (chain : List Byte)
  /-- SPDM_UNSUPPORTED_REQUEST (R483). Any other SPDM request is answered ERROR UnsupportedRequest. -/
  | spdmUnsupportedRequest (port code : Nat)
  /-- MODULE_RESET_RELEASE (R429). The later of PERST_N and MOD_RST_N returns high, releasing the module reset so that the steward boots and sets stw.status.ready within 1,000 ms. -/
  | moduleResetRelease (perst : Bool) (straps : BitVec 8)
  /-- HUB_RESET_COMPLETE (R429). A hub reset completes: the CXL domain leaves reset and its link retrains, the host fence is cleared, commands reaching the reset domains end ABORTED, and bring-up waits at step 1. -/
  | hubResetComplete
  /-- CONFIGURATION_REQUEST (R390). A host CXL.io configuration read or write is completed with Configuration Request Retry Status until the steward is ready, and otherwise acts on the configuration space (MSI-X Enable, PM state and so on). -/
  | configurationRequest (write : Bool) (reg : Nat) (v : W32)
  /-- TKS_DISCARDED_FRAME (R305). A received Tukosen frame with a wrong FCS, a foreign address or EtherType, or a foreign partition tag is discarded and counted, and a discarded sequenced frame makes the receiver send one NAK under R317. -/
  | tksDiscardedFrame (port : Nat) (f : BadFrame)
  /-- TKS_RETRAIN_COMPLETE (R319). A retraining Tukosen port regains PCS alignment and FEC lock within 100 ms and replay resumes from the last acknowledged frame. -/
  | tksRetrainComplete (port : Nat)
  /-- UCIE_RETRAIN_COMPLETE (R269). A retraining UCIe module reaches the active state within 10 ms and replay resumes from the last acknowledged flit. -/
  | ucieRetrainComplete (site module : Nat)
  /-- UCIE_SIDEBAND_FAILURE (R273). The sideband that carries Flivon sideband messages fails, and the hub moves to the sideband of the next module that is up. -/
  | ucieSidebandFailure (site module : Nat)
  /-- REPLAN_RESTART (R428). 1 s after recovery from a supply warning, a margin re-plan that the warning stopped starts again. -/
  | replanRestart
  /-- BIST_ROUND_RESTART (R455). 1 ms after recovery from a supply warning, a start-up or online BIST round that the warning stopped runs again, with its bound extended. -/
  | bistRoundRestart
deriving DecidableEq, Repr

end Sys2Proof
end

