-- ==== Sys2Proof/Decode.lean ====
section
/-! DEFINITION. The command a word of the opcode table spells: the table gives no row bits (log entry 1), so no word spells
one. -/

namespace Sys2Proof

/-- The command that a word of nbits bits spells by the table's bits: none. -/
def decodeTableWord (_nbits _w : Nat) : Option Instr := none

end Sys2Proof
end

