-- ==== Sys2Proof/Config.lean ====
section
/-! DEFINITION. What the manual leaves open or names by another standard: constants with no body, so that nothing can be
proved of their values. Each is named in a row of the assumption log. -/

namespace Sys2Proof

/-- The n-th value the manual leaves free (undefined or unspecified results); log entry 3. -/
opaque Config.freeValue : Nat → W64

/-- A value the manual leaves free in the result of a tile instruction: a function of its operands and of a place in the result, since the same
operands give the same bits on every tile (R62); log entry 13. -/
opaque Config.freeResult : List Nat → Nat → W64

/-- The Flivon firmware key, and the token keys of Table 22-4, as fused; log entry 4. -/
opaque Config.flivonKey : Nat → BitVec 512

/-- A length-preserving cipher of one 4 KiB sett with its inverse: key number, tweak, data. -/
structure Config.Xts where
  enc : Nat → Nat → List Byte → List Byte := fun _ _ x => x
  dec : Nat → Nat → List Byte → List Byte := fun _ _ x => x
  encLen : ∀ k t x, (enc k t x).length = x.length := by intros; rfl
  decLen : ∀ k t x, (dec k t x).length = x.length := by intros; rfl
  inverse : ∀ k t x, x.length = 4096 → dec k t (enc k t x) = x := by intros; rfl
deriving Inhabited

/-- XTS-AES-256 under the key pair of an epoch (R178, IEEE 1619); that decryption undoes encryption is all the model knows of it; log
entry 4. -/
opaque Config.xts : Config.Xts

/-- Derivation of a slot key pair from the device secret and a salt (R484): slot, salt, public key; log entry 4. -/
opaque Config.deriveKey : Nat → BitVec 256 → BitVec 512

/-- Digests that the manual names and does not give: of the firmware shipped in slots 0 and 1, and of the steward's boot ROM, 2; log entry 4. -/
opaque Config.shippedDigest : Nat → BitVec 512

/-- Flivon's IANA enterprise number (R358), which the manual names and does not give; log entry 4. -/
opaque Config.flivonIana : BitVec 32

/-- The device identity chain of slot 0 (R484); log entry 4. -/
opaque Config.identityChain : List Byte

/-- An SPDM signature under a slot's key (R483, R484): slot and the bytes signed; log entry 4. -/
opaque Config.spdmSign : Nat → List Byte → List Byte

/-- The code, by format, of an element whose conversion sets its block scale to 0xFF (Table 2-4 states the scale only); log
entry 10. -/
opaque Config.blockNanElem : Nat → Nat

/-- A transcendental result before the bound of R54 is applied: function code (0 exp2, 1 log2, 2 reciprocal, 3 reciprocal
square root) and the operand's bits; the offset, in ulps, from the result the model computes; log entry 5. -/
opaque Config.transOffset : Nat → W32 → Nat

/-- The grant of a mesh link pool, which the manual does not state; log entry 32. -/
opaque Config.meshGrant : Nat → Nat

/-- The bench that the vertical port of a state-store slice stands under (R96): the manual gives no placement; log entry 144. -/
opaque Config.sliceBench : Nat → Nat

end Sys2Proof
end

