-- ==== Sys2Proof/Machine/Bits.lean ====
section
/-! DEFINITION. Bit fields of register words, little-endian bytes, sign extension and saturating counts. -/

namespace Sys2Proof.Machine

/-- Bits hi:lo of a word, as a number. -/
def nbits (v hi lo : Nat) : Nat := v / 2 ^ lo % 2 ^ (hi + 1 - lo)

/-- Bits hi:lo of a 64-bit register word, as a number. -/
def fld (v : W64) (hi lo : Nat) : Nat := nbits v.toNat hi lo

/-- A 64-bit register word with bits hi:lo set to `x`. -/
def setFld (v : W64) (hi lo x : Nat) : W64 :=
  BitVec.ofNat 64 (v.toNat - fld v hi lo * 2 ^ lo + x % 2 ^ (hi + 1 - lo) * 2 ^ lo)

/-- Bit i of a 64-bit register word. -/
def bit (v : W64) (i : Nat) : Bool := v.toNat.testBit i

/-- Bit i of a number. -/
def nbit (v i : Nat) : Bool := v.testBit i

/-- A Bool as a field value. -/
def b2n (b : Bool) : Nat := if b then 1 else 0

/-- The value of a `w`-bit field read as two's complement. -/
def sext (w v : Nat) : Int := if v % 2 ^ w < 2 ^ (w - 1) then (v % 2 ^ w : Nat) else (v % 2 ^ w : Nat) - (2 ^ w : Nat)

/-- An integer as a `w`-bit two's-complement number. -/
def wrap (w : Nat) (i : Int) : Nat := (i % (2 ^ w : Nat)).toNat

/-- A count of `w` bits that saturates at its largest value. -/
def satInc (w v n : Nat) : Nat := if v + n < 2 ^ w then v + n else 2 ^ w - 1

/-- A little-endian number from bytes (R35). -/
def leNat : List Byte → Nat
  | [] => 0
  | b :: bs => b.toNat + 256 * leNat bs

/-- The low `n` bytes of a number, little-endian (R35). -/
def leBytes : Nat → Nat → List Byte
  | 0, _ => []
  | n + 1, v => BitVec.ofNat 8 v :: leBytes n (v / 256)

/-- A number as n big-endian bytes, and the number that big-endian bytes hold. -/
def beBytes (n v : Nat) : List Byte := (leBytes n v).reverse
def beNat (bs : List Byte) : Nat := leNat bs.reverse

/-- Ceiling of a quotient. -/
def cdiv (a b : Nat) : Nat := (a + b - 1) / b

/-- The largest k with 2^k ≤ n (0 for n = 0). -/
def log2n (n : Nat) : Nat := n.log2

/-- The number of set bits among the low `n` bits. -/
def popcount : Nat → Nat → Nat
  | 0, _ => 0
  | n + 1, v => b2n (v.testBit n) + popcount n v

end Sys2Proof.Machine
end

