-- ==== Sys2Proof/Machine/Fp.lean ====
section
/-! DEFINITION. Exact arithmetic on the number formats of chapter 2: values as sign, significand and exponent, decoding and
encoding by format code, the five rounding modes, sums and products, and the functions of R54. -/

namespace Sys2Proof.Machine

/-- A value: a NaN, an infinity, or (−1)^neg × m × 2^e, zero when m is 0. -/
inductive Num where
  | nan
  | inf (neg : Bool)
  | fin (neg : Bool) (m : Nat) (e : Int)
deriving DecidableEq, Repr

/-- Flags of tile.arith.status, by bit (Table 2-8). -/
abbrev fInvalid : Nat := 1
abbrev fUnderflow : Nat := 2
abbrev fOverflow : Nat := 4
abbrev fSatHit : Nat := 8
abbrev fIntSat : Nat := 16
abbrev fBlockNan : Nat := 32
abbrev fDivZero : Nat := 64

/-- 2^k for k ≥ 0, 1 otherwise. -/
def pow2 (k : Int) : Nat := 2 ^ k.toNat

/-- Exponent bits, fraction bits and bias of the floating formats, by format code (Table 2-2). -/
def fmtParams : Nat → Nat × Nat × Nat
  | 0 => (8, 23, 127)
  | 1 => (8, 7, 127)
  | 2 => (5, 10, 15)
  | 3 => (4, 3, 7)
  | 4 => (5, 2, 15)
  | 5 => (3, 2, 3)
  | 6 => (2, 3, 1)
  | _ => (2, 1, 1)

/-- Element width in bits, by format code (Table 2-1). -/
def fmtBits : Nat → Nat
  | 0 => 32 | 1 => 16 | 2 => 16 | 3 => 8 | 4 => 8 | 5 => 6 | 6 => 6 | 7 => 4 | 8 => 4 | 9 => 8 | 10 => 8 | 11 => 4 | 12 => 32
  | _ => 0

/-- Whether a format is block-scaled (Table 2-1). -/
def fmtScaled (f : Nat) : Bool := decide (3 ≤ f) && decide (f ≤ 9)
/-- Whether a format is a two's-complement integer without scaling. -/
def fmtInt (f : Nat) : Bool := decide (10 ≤ f) && decide (f ≤ 12)
/-- Whether a format has an infinity: FP32, BF16, FP16, E5M2 (R41). -/
def fmtIeee (f : Nat) : Bool := decide (f ≤ 2) || f == 4

/-- The value of an element (R34); an MXINT8 element is i × 2^-6. -/
def decode (f v : Nat) : Num :=
  if f = 9 then
    let i := sext 8 v
    .fin (decide (i < 0)) i.natAbs (-6)
  else if fmtInt f then
    let i := sext (fmtBits f) v
    .fin (decide (i < 0)) i.natAbs 0
  else
    let (eb, mb, bias) := fmtParams f
    let neg := nbit v (eb + mb)
    let e := nbits v (eb + mb - 1) mb
    let m := v % 2 ^ mb
    if fmtIeee f && e == 2 ^ eb - 1 then if m = 0 then .inf neg else .nan
    else if f == 3 && e == 15 && m == 7 then .nan
    else if e = 0 then .fin neg m (1 - (bias : Int) - mb)
    else .fin neg (2 ^ mb + m) ((e : Int) - bias - mb)

/-- A value times 2^k. -/
def Num.scale (x : Num) (k : Int) : Num :=
  match x with
  | .fin n m e => .fin n m (e + k)
  | y => y

/-- A value with its sign flipped. -/
def Num.neg : Num → Num
  | .nan => .nan
  | .inf n => .inf !n
  | .fin n m e => .fin (!n) m e

def Num.isNan : Num → Bool
  | .nan => true
  | _ => false

def Num.isInf : Num → Bool
  | .inf _ => true
  | _ => false

/-- m × 2^e as an integer multiple of 2^q, for q ≤ e. -/
def atExp (m : Nat) (e q : Int) : Nat := m * pow2 (e - q)

/-- The signed significand of a finite value at exponent q. -/
def Num.toInt (x : Num) (q : Int) : Int :=
  match x with
  | .fin n m e => if n then -(atExp m e q : Int) else (atExp m e q : Int)
  | _ => 0

/-- The exact sum of two values (IEEE 754-2019); an exact zero of operands of unlike sign is −0 only toward −infinity. The flag is
invalid for infinities of unlike sign. -/
def Num.add (mode : Nat) (x y : Num) : Num × Nat :=
  match x, y with
  | .nan, _ => (.nan, 0)
  | _, .nan => (.nan, 0)
  | .inf a, .inf b => if a = b then (.inf a, 0) else (.nan, fInvalid)
  | .inf a, _ => (.inf a, 0)
  | _, .inf b => (.inf b, 0)
  | .fin a m e, .fin b n k =>
    let q := min e k
    let s := Num.toInt (.fin a m e) q + Num.toInt (.fin b n k) q
    if s = 0 then (.fin (if m = 0 ∧ n = 0 ∧ a = b then a else mode == 2) 0 0, 0)
    else (.fin (decide (s < 0)) s.natAbs q, 0)

/-- The exact product of two values. The flag is invalid for infinity times zero. -/
def Num.mul (x y : Num) : Num × Nat :=
  match x, y with
  | .nan, _ => (.nan, 0)
  | _, .nan => (.nan, 0)
  | .inf a, .inf b => (.inf (a != b), 0)
  | .inf a, .fin b m _ => if m = 0 then (.nan, fInvalid) else (.inf (a != b), 0)
  | .fin a m _, .inf b => if m = 0 then (.nan, fInvalid) else (.inf (a != b), 0)
  | .fin a m e, .fin b n k => (.fin (a != b) (m * n) (e + k), 0)

/-- Whether |x| < |y| for finite values m × 2^e and n × 2^k. -/
def absLt (m : Nat) (e : Int) (n : Nat) (k : Int) : Bool :=
  let q := min e k
  decide (atExp m e q < atExp n k q)

/-- Whether x < y, for values that are not NaN; −0 and +0 are equal. -/
def Num.lt (x y : Num) : Bool :=
  match x, y with
  | .inf a, .inf b => a && !b
  | .inf a, _ => a
  | _, .inf b => !b
  | .fin a m e, .fin b n k =>
    let q := min e k
    decide (Num.toInt (.fin a m e) q < Num.toInt (.fin b n k) q)
  | _, _ => false

/-- ⌊log2 (m × 2^e)⌋ for m > 0. -/
def flog2 (m : Nat) (e : Int) : Int := (log2n m : Int) + e

/-- Whether a significand with remainder `rem` of `2^sh` rounds up (Table 2-5; under SR, F > r of R47). -/
def roundUp (mode : Nat) (neg : Bool) (lo rem sh r : Nat) : Bool :=
  match mode with
  | 0 => decide (2 ^ sh < 2 * rem) || (2 * rem == 2 ^ sh && lo % 2 == 1)
  | 1 => false
  | 2 => neg && decide (0 < rem)
  | 3 => !neg && decide (0 < rem)
  | _ => decide (r < rem * 65536 / 2 ^ sh)

/-- m × 2^e rounded to a multiple of 2^q. -/
def roundAt (mode : Nat) (neg : Bool) (m : Nat) (e q : Int) (r : Nat) : Nat :=
  if q ≤ e then atExp m e q
  else
    let sh := (q - e).toNat
    m / 2 ^ sh + b2n (roundUp mode neg (m / 2 ^ sh) (m % 2 ^ sh) sh r)

/-- The rounding quantum of a floating format for a nonzero value: the exponent of its last place, the exponent range extended
upward without limit. -/
def quantum (f : Nat) (m : Nat) (e : Int) : Int :=
  let (_, mb, bias) := fmtParams f
  max (flog2 m e) (1 - (bias : Int)) - mb

/-- The code of M × 2^q in a floating format that has the value, the sign apart. -/
def packMag (f M : Nat) (q : Int) : Nat :=
  let (_, mb, bias) := fmtParams f
  if M = 0 then 0
  else if M < 2 ^ mb then M
  else if M = 2 ^ (mb + 1) then (q + mb + 1 + bias).toNat * 2 ^ mb
  else (q + mb + bias).toNat * 2 ^ mb + (M - 2 ^ mb)

/-- The code of the largest finite magnitude of a floating format (Table 2-2). -/
def maxMag (f : Nat) : Nat :=
  let (eb, mb, _) := fmtParams f
  if fmtIeee f then (2 ^ eb - 1) * 2 ^ mb - 1 else if f = 3 then 0x7E else 2 ^ (eb + mb) - 1

/-- The sign bit of a floating format in place. -/
def signBit (f : Nat) (neg : Bool) : Nat :=
  let (eb, mb, _) := fmtParams f
  b2n neg * 2 ^ (eb + mb)

/-- The code of an infinity, and the canonical NaN (R42). -/
def infCode (f : Nat) (neg : Bool) : Nat := signBit f neg + (maxMag f + 1)
def nanCode : Nat → Nat
  | 0 => 0x7FC00000 | 1 => 0x7FC0 | 2 => 0x7E00 | 4 => 0x7E | _ => 0x7F

/-- Whether an IEEE overflow under a mode gives infinity rather than the largest finite value. -/
def ovfInf (mode : Nat) (neg : Bool) : Bool :=
  match mode with
  | 1 => false
  | 2 => neg
  | 3 => !neg
  | _ => true

/-- A value rounded to FP32 under a mode, with the IEEE overflow rule (R50, R53, R55): code and flags. SR is RNE here (R45). -/
def toFp32 (mode : Nat) (x : Num) : Nat × Nat :=
  match x with
  | .nan => (nanCode 0, 0)
  | .inf n => (infCode 0 n, 0)
  | .fin n m e =>
    if m = 0 then (signBit 0 n, 0)
    else
      let md := if mode = 4 then 0 else mode
      let q := quantum 0 m e
      let M := roundAt md n m e q 0
      let c := packMag 0 M q
      if maxMag 0 < c then (if ovfInf md n then infCode 0 n else signBit 0 n + maxMag 0, fOverflow)
      else (signBit 0 n + c, if M = 0 then fUnderflow else 0)

/-- An FP32 input under ftz (R53): a subnormal becomes zero of the same sign. -/
def ftzIn (ftz : Bool) (v : Nat) : Nat := if ftz && nbits v 30 23 == 0 then v / 2 ^ 31 % 2 * 2 ^ 31 else v

/-- A vector FP32 result under ftz (R53): a nonzero result whose magnitude, rounded as if the exponent range were unbounded, lies
below 2^-126 is flushed to zero of the same sign and sets underflow. -/
def vecResult (ftz : Bool) (mode : Nat) (x : Num) : Nat × Nat :=
  match x with
  | .fin n m e =>
    let md := if mode = 4 then 0 else mode
    let q := flog2 m e - 23
    let M := roundAt md n m e q 0
    if ftz && m != 0 && absLt M q 1 (-126) then (signBit 0 n, fUnderflow) else toFp32 mode x
  | _ => toFp32 mode x

/-- FP32 addition, multiplication and fused multiply-add, rounded once (R53): code and flags. -/
def fAdd (ftz : Bool) (mode a b : Nat) : Nat × Nat :=
  let md := if mode = 4 then 0 else mode
  let (s, f) := Num.add md (decode 0 (ftzIn ftz a)) (decode 0 (ftzIn ftz b))
  let (c, g) := vecResult ftz mode s
  (c, f ||| g)

def fSub (ftz : Bool) (mode a b : Nat) : Nat × Nat :=
  let md := if mode = 4 then 0 else mode
  let (s, f) := Num.add md (decode 0 (ftzIn ftz a)) (decode 0 (ftzIn ftz b)).neg
  let (c, g) := vecResult ftz mode s
  (c, f ||| g)

def fMul (ftz : Bool) (mode a b : Nat) : Nat × Nat :=
  let (p, f) := Num.mul (decode 0 (ftzIn ftz a)) (decode 0 (ftzIn ftz b))
  let (c, g) := vecResult ftz mode p
  (c, f ||| g)

def fFma (ftz : Bool) (mode a b c : Nat) : Nat × Nat :=
  let md := if mode = 4 then 0 else mode
  if (decode 0 a).isNan || (decode 0 b).isNan || (decode 0 c).isNan then (nanCode 0, 0)
  else
    let (p, f) := Num.mul (decode 0 (ftzIn ftz a)) (decode 0 (ftzIn ftz b))
    let (s, g) := Num.add md p (decode 0 (ftzIn ftz c))
    let (r, h) := vecResult ftz mode s
    (r, f ||| g ||| h)

/-- The IEEE 754-2019 maximum and minimum (R113): a NaN operand gives the canonical NaN; −0 is less than +0; no flag. -/
def fMax (a b : Nat) : Nat :=
  let x := decode 0 a
  let y := decode 0 b
  if x.isNan || y.isNan then nanCode 0
  else if x.lt y then b else if y.lt x then a
  else if nbit a 31 then b else a

def fMin (a b : Nat) : Nat :=
  let x := decode 0 a
  let y := decode 0 b
  if x.isNan || y.isNan then nanCode 0
  else if x.lt y then a else if y.lt x then b
  else if nbit a 31 then a else b

/-- The two comparisons (R113): false where either operand is NaN. -/
def fGt (a b : Nat) : Bool :=
  let x := decode 0 a
  let y := decode 0 b
  !x.isNan && !y.isNan && y.lt x
def fEq (a b : Nat) : Bool :=
  let x := decode 0 a
  let y := decode 0 b
  !x.isNan && !y.isNan && !x.lt y && !y.lt x

/-! ### The functions of R54 -/

/-- Square root by bits, rounded down; the first argument counts the bits of the result still to find. -/
def isqrtGo : Nat → Nat → Nat → Nat
  | 0, _, r => r
  | k + 1, n, r => if (r + 2 ^ k) * (r + 2 ^ k) ≤ n then isqrtGo k n (r + 2 ^ k) else isqrtGo k n r
def isqrt (n : Nat) : Nat := isqrtGo (log2n n / 2 + 1) n 0

/-- 2^f × 2^192 for the fraction f = x / 2^k: a factor 2^(2^-i) for each set bit, each factor the square root of the one before;
`c` is the last factor, scaled by 2^192. -/
def exp2Frac : Nat → Nat → Nat → Nat → Nat
  | 0, _, _, acc => acc
  | k + 1, x, c, acc =>
    let c' := isqrt (c * 2 ^ 192)
    exp2Frac k x c' (if x.testBit k then acc * c' / 2 ^ 192 else acc)

/-- The fraction bits of log2 of y / 2^256 in [1, 2), n of them, by repeated squaring. -/
def log2Frac : Nat → Nat → Nat → Nat
  | 0, _, acc => acc
  | n + 1, y, acc =>
    let z := y * y / 2 ^ 256
    if 2 ^ 257 ≤ z then log2Frac n (z / 2) (2 * acc + 1) else log2Frac n z (2 * acc)

/-- The FP32 magnitudes within 2 ulp of m × 2^e > 0, as multiples of the ulp of its correctly rounded value, and that ulp's
exponent (R54). -/
def within2 (m : Nat) (e : Int) : List Nat × Int :=
  let q0 := quantum 0 m e
  let M := roundAt 0 false m e q0 0
  let q := if M = 2 ^ 24 then q0 + 1 else q0
  let c := roundAt 1 false m e q 0
  let near := [c - 1, c, c + 1, c + 2] ++ (if 2 ≤ c then [c - 2] else [])
  let p := min (min e q) 0
  (near.eraseDups.filter (fun k =>
    decide (atExp k q p ≤ atExp m e p + atExp 2 q p) && decide (atExp m e p ≤ atExp k q p + atExp 2 q p)), q)

/-- A result of R54 near m × 2^e: one of the FP32 values within 2 ulp, which one is left open (log entry 5). -/
def pickNear (fn : Nat) (x : W32) (neg : Bool) (m : Nat) (e : Int) : Num :=
  let (l, q) := within2 m e
  match l[Config.transOffset fn x % l.length]? with
  | some k => .fin neg k q
  | none => .fin neg m e

/-- Whether m is a power of two. -/
def isPow2 (m : Nat) : Bool := decide (0 < m) && m == 2 ^ log2n m

/-- The result of R54 and Table 2-6 before flushing: function 0 exp2, 1 log2, 2 reciprocal, 3 reciprocal square root. -/
def transNum (fn : Nat) (v : Nat) : Num × Nat :=
  let w := BitVec.ofNat 32 v
  match fn, decode 0 v with
  | _, .nan => (.nan, 0)
  | 0, .inf n => (if n then .fin false 0 0 else .inf false, 0)
  | 0, .fin n m e =>
    let q := min e (-100)
    let xi := Num.toInt (.fin n m e) q
    let fl := xi / (2 ^ (-q).toNat : Nat)
    let fr := (xi % (2 ^ (-q).toNat : Nat)).toNat
    if 128 ≤ fl then (.inf false, fOverflow)
    else if fl < -150 ∨ (fl = -150 ∧ fr = 0) then (.fin false 0 0, fUnderflow)
    else if fr = 0 then (.fin false 1 fl, 0)
    else (pickNear 0 w false (exp2Frac 100 (max 1 (fr / 2 ^ ((-q).toNat - 100))) (2 ^ 193) (2 ^ 192)) (fl - 192), 0)
  | 1, .inf n => (if n then .nan else .inf false, if n then fInvalid else 0)
  | 1, .fin n m e =>
    if m = 0 then (.inf true, fDivZero)
    else if n then (.nan, fInvalid)
    else if isPow2 m then
      let k := flog2 m e
      (.fin (decide (k < 0)) k.natAbs 0, 0)
    else
      let k := flog2 m e
      let r := log2Frac 100 (m * 2 ^ 256 / 2 ^ log2n m) 0
      let t := k * (2 ^ 100 : Nat) + r
      (pickNear 1 w (decide (t < 0)) t.natAbs (-100), 0)
  | 2, .inf n => (.fin n 0 0, 0)
  | 2, .fin n m e =>
    if m = 0 then (.inf n, fDivZero)
    else if isPow2 m then (.fin n 1 (-(flog2 m e)), 0)
    else (pickNear 2 w n (2 ^ 120 / m) (-120 - e), 0)
  | 3, .inf n => (if n then .nan else .fin false 0 0, if n then fInvalid else 0)
  | 3, .fin n m e =>
    if m = 0 then (.inf n, fDivZero)
    else if n then (.nan, fInvalid)
    else
      let e' := if e % 2 = 0 then e else e - 1
      let m' := if e % 2 = 0 then m else 2 * m
      (pickNear 3 w false (isqrt (2 ^ 240 / m')) (-120 - e' / 2), 0)
  | _, _ => (.nan, 0)

/-- A function of R54 on an FP32 code, with overflow, underflow and ftz (Table 2-6, R53): code and flags. -/
def trans (ftz : Bool) (fn v : Nat) : Nat × Nat :=
  let (x, f) := transNum fn (ftzIn ftz v)
  let (c, g) := vecResult ftz 0 x
  let z := if fn = 0 ∧ f = 0 ∧ !(decode 0 v).isInf then (match x with | .fin _ 0 _ => fUnderflow | _ => 0) else 0
  (c, f ||| g ||| z)

/-- Narrowing to INT32 under a mode (Table 2-4, R113): code and flags. -/
def toInt (w mode : Nat) (r : Nat) (x : Num) : Nat × Nat :=
  let hi : Int := (2 ^ (w - 1) : Nat) - 1
  let lo : Int := -((2 ^ (w - 1) : Nat) : Int)
  match x with
  | .nan => (0, fInvalid)
  | .inf n => (wrap w (if n then lo else hi), fSatHit)
  | .fin n m e =>
    if !n && absLt hi.toNat 0 m e then (wrap w hi, fSatHit)
    else if n && absLt (-lo).toNat 0 m e then (wrap w lo, fSatHit)
    else
      let M := roundAt mode n m e 0 r
      (wrap w (if n then -(M : Int) else (M : Int)), if m ≠ 0 ∧ M = 0 then fUnderflow else 0)

end Sys2Proof.Machine
end

