-- ==== Sys2Proof/Machine/Conv.lean ====
section
/-! DEFINITION. Conversions between formats (R41 to R47), the choice of block scales (R39, R40), and the packing of elements
(R35). -/

namespace Sys2Proof.Machine

/-- A value converted to an element of format f (Table 2-4): code, flags, and whether the block scale becomes 0xFF. The value has
been divided by its block scale. -/
def convElem (f : Nat) (sat : Bool) (mode r : Nat) (x : Num) : Nat × Nat × Bool :=
  if fmtInt f then
    let (c, g) := toInt (fmtBits f) (if f = 12 ∧ mode = 4 then 0 else mode) r x
    (c, g, false)
  else if f = 9 then
    match x with
    | .nan => (Config.blockNanElem f, fBlockNan, true)
    | .inf n => if sat then (if n then 0x80 else 0x7F, fSatHit, false) else (Config.blockNanElem f, fBlockNan, true)
    | y => let (c, g) := toInt 8 mode r (y.scale 6); (c, g, false)
  else if fmtIeee f then
    match x with
    | .nan => (nanCode f, 0, false)
    | .inf n => (infCode f n, 0, false)
    | .fin n m e =>
      if m = 0 then (signBit f n, 0, false)
      else
        let md := if f = 0 ∧ mode = 4 then 0 else mode
        let q := quantum f m e
        let M := roundAt md n m e q r
        let c := packMag f M q
        if maxMag f < c then
          (if sat then (signBit f n + maxMag f, fSatHit, false)
           else (if ovfInf md n then infCode f n else signBit f n + maxMag f, fOverflow, false))
        else (signBit f n + c, if M = 0 then fUnderflow else 0, false)
  else
    match x with
    | .nan => if f = 3 then (nanCode 3, 0, false) else (Config.blockNanElem f, fBlockNan, true)
    | .inf n =>
      if sat then (signBit f n + maxMag f, fSatHit, false)
      else if f = 3 then (nanCode 3, fInvalid, false) else (Config.blockNanElem f, fBlockNan, true)
    | .fin n m e =>
      if m = 0 then (signBit f n, 0, false)
      else
        match decode f (maxMag f) with
        | .fin _ mm me =>
          if absLt mm me m e then (signBit f n + maxMag f, fSatHit, false)
          else
            let q := quantum f m e
            let M := roundAt mode n m e q r
            (signBit f n + packMag f M q, if M = 0 then fUnderflow else 0, false)
        | _ => (0, 0, false)

/-- emax of an element format, and maxnorm as c × 2^k (Table 2-3). -/
def scaleConsts : Nat → Int × Nat × Int
  | 3 => (8, 7, 6)
  | 4 => (15, 7, 13)
  | 5 => (4, 7, 2)
  | 6 => (2, 15, -1)
  | 9 => (0, 127, -6)
  | _ => (2, 3, 1)

/-- The largest finite magnitude among values, as m × 2^e; m is 0 when there is none. -/
def maxFinite (xs : List Num) : Nat × Int :=
  xs.foldl (fun a x => match x with
    | .fin _ m e => if absLt a.1 a.2 m e then (m, e) else a
    | _ => a) (0, 0)

/-- The unbiased scale of a block (R40): rule 0 the OCP rule, rule 1 the no-clip rule. -/
def blockScale (f : Nat) (rule : Bool) (xs : List Num) : Int :=
  let (m, e) := maxFinite xs
  let (emax, c, k) := scaleConsts f
  if m = 0 then -127
  else
    let x := if rule then
        let x0 := flog2 m e - flog2 c k
        if absLt c (k + x0) m e then x0 + 1 else x0
      else flog2 m e - emax
    max (-127) (min 127 x)

/-- The offset of one SSF4 sub-block (R39). -/
def subOffset (xs sub : List Num) : Nat :=
  let (m, e) := maxFinite xs
  let (n, k) := maxFinite sub
  if n = 0 then 0 else (min 3 (flog2 m e - flog2 n k)).toNat

/-- The values of a block with their generator draws, converted element by element at unbiased scale x and SSF4 offsets os. -/
def quantElems (f : Nat) (sat : Bool) (mode : Nat) (x : Int) (os : List Nat) : Nat → List (Num × Nat) → List Nat × Nat × Bool
  | _, [] => ([], 0, false)
  | i, (v, r) :: vs =>
    let o : Nat := if f = 8 then os.getD (i / 8) 0 else 0
    let (c, g, b) := convElem f sat mode r (v.scale (-x + (o : Int)))
    let (cs, h, d) := quantElems f sat mode x os (i + 1) vs
    (c :: cs, g ||| h, b || d)

/-- A block of 32 values quantized to a block-scaled format (R39, R40): element codes, scale word, flags. A block whose scale is
set to 0xFF keeps the codes of its finite elements; the codes of the others are unstated (log entry 10). -/
def quantBlock (f : Nat) (rule sat : Bool) (mode : Nat) (vs : List (Num × Nat)) : List Nat × Nat × Nat :=
  let xs := vs.map (·.1)
  let x := blockScale f rule xs
  let os := if f = 8 then [0, 1, 2, 3].map (fun j => subOffset xs ((xs.drop (8 * j)).take 8)) else []
  let (cs, g, b) := quantElems f sat mode x os 0 vs
  let xe := if b then 0xFF else (x + 127).toNat
  (cs, xe + (if f = 8 then os.getD 0 0 * 2 ^ 8 + os.getD 1 0 * 2 ^ 10 + os.getD 2 0 * 2 ^ 12 + os.getD 3 0 * 2 ^ 14 else 0), g)

/-- The value of element i of a block under its scale word (R36, R38). -/
def blockValue (f scale i c : Nat) : Num :=
  if !fmtScaled f then decode f c
  else if scale % 256 = 0xFF then .nan
  else
    let o : Int := if f = 8 then (nbits scale (9 + 2 * (i / 8 % 4)) (8 + 2 * (i / 8 % 4)) : Nat) else 0
    (decode f c).scale ((scale % 256 : Nat) - 127 - o)

/-- Codes of width w packed from bit 0 upward (R35), as one number. -/
def packBits (w : Nat) : List Nat → Nat
  | [] => 0
  | c :: cs => c % 2 ^ w + 2 ^ w * packBits w cs

/-- n codes of width w from a number (R35). -/
def unpackBits (w : Nat) : Nat → Nat → List Nat
  | 0, _ => []
  | n + 1, v => v % 2 ^ w :: unpackBits w n (v / 2 ^ w)

/-- The bytes of packed elements. -/
def packBytes (w : Nat) (cs : List Nat) : List Byte := leBytes (w * cs.length / 8) (packBits w cs)

/-- Whether format f holds every value of format g exactly, leaving block scales aside (R185): the same format, FP32 from any
unscaled float, and nothing else the hub's hoists convert exactly element by element. -/
def holdsAll (f g : Nat) : Bool := f == g || (f == 0 && decide (g ≤ 2))

/-- The next state of a lane's generator, and its draw (R46). -/
def lcg (st : Nat) : Nat := (st * 1664525 + 1013904223) % 2 ^ 32
def lcgDraw (st : Nat) : Nat := st / 65536 % 65536

/-- Whether a conversion to f under a mode draws on the generator (R45, R46). -/
def usesSr (f mode : Nat) : Bool := mode == 4 && f != 0 && f != 12

end Sys2Proof.Machine
end

