-- ==== Sys2Proof/Machine/Tbl.lean ====
section
/-! DEFINITION. Tables (sparse data by key, keys strictly rising) and the memory: a list of address and byte pairs in one
canonical form, addresses strictly rising and no byte equal to what an unlisted address reads as. -/

namespace Sys2Proof.Machine

/-- The entry of a table under a key. -/
def tget {α : Type} : Tbl α → Nat → Option α
  | [], _ => none
  | (k, v) :: r, x => if k = x then some v else tget r x

/-- The entry under a key, or a default. -/
def tgetD {α : Type} (t : Tbl α) (k : Nat) (d : α) : α := (tget t k).getD d

/-- A table with an entry put under a key, in key order. -/
def tput {α : Type} : Tbl α → Nat → α → Tbl α
  | [], x, a => [(x, a)]
  | (k, v) :: r, x, a => if x < k then (x, a) :: (k, v) :: r else if k = x then (x, a) :: r else (k, v) :: tput r x a

/-- A table without the entry under a key. -/
def tdel {α : Type} (t : Tbl α) (k : Nat) : Tbl α := t.filter fun e => e.1 != k

/-- A table of words whose absent entries read as `d`: writing `d` removes the entry. -/
def tset {α : Type} [DecidableEq α] (t : Tbl α) (k : Nat) (d a : α) : Tbl α := if a = d then tdel t k else tput t k a

/-- Keys strictly rising, all above `b`. -/
def risingFrom {α : Type} : Option Nat → Tbl α → Bool
  | _, [] => true
  | none, (k, _) :: r => risingFrom (some k) r
  | some b, (k, _) :: r => decide (b < k) && risingFrom (some k) r

/-- The memory: bytes by local physical address. -/
abbrev Memory := List Host.Cell

/-- What an unlisted address reads as: log entry 6 (DESIGN CHOICE; the manual gives no contents). -/
def memDefault : Byte := 0

/-- One byte of memory. -/
def mget (m : Memory) (a : Nat) : Byte := tgetD m a memDefault

/-- Memory with one byte written. -/
def mset (m : Memory) (a : Nat) (b : Byte) : Memory := tset m a memDefault b

/-- `n` bytes from address `a`. -/
def mread (m : Memory) : Nat → Nat → List Byte
  | _, 0 => []
  | a, n + 1 => mget m a :: mread m (a + 1) n

/-- Memory with bytes written from address `a`. -/
def mwrite : Memory → Nat → List Byte → Memory
  | m, _, [] => m
  | m, a, b :: bs => mwrite (mset m a b) (a + 1) bs

/-- Memory with n bytes from a set to 0, which is what an unlisted byte reads as. -/
def mzero (m : Memory) (a n : Nat) : Memory := m.filter fun e => decide (e.1 < a) || decide (a + n ≤ e.1)

/-- The canonical form: addresses strictly rising and no byte at its default. -/
def Memory.wf (m : Memory) : Bool := risingFrom none m && m.all (fun e => e.2 != memDefault)

end Sys2Proof.Machine
end

