-- ==== Sys2Proof/Machine/Registers.lean ====
section
/-! DEFINITION. The registers of the register window: one name for each register the manual defines (its local physical
address and its reset value), and one description for each (width, fields, access code of Table 0-5, reset class of R10),
block by block in the order of Table 1-8. Written from the field maps of the chapters. -/

namespace Sys2Proof.Machine

/-- Access codes (Table 0-5; RWP is the access of the persistent words through PRB commands, R439). -/
inductive Acc where
  | rw | ro | w1c | w1s | wo | rc
deriving DecidableEq, Repr

/-- Reset classes (R10). -/
inductive RCls where
  | powerOn | module | hub | region | flr | tenancy | kill | kept
deriving DecidableEq, Repr

/-- A field: bits, access code, reset class, reset value, and whether it is management only (R32). -/
structure Fld where
  hi : Nat
  lo : Nat
  acc : Acc
  cls : RCls
  rst : Nat
  mgmt : Bool := false
deriving DecidableEq, Repr

/-- A register, or an array of them (strides and counts, outermost first). -/
structure RegDesc where
  base : Nat
  dims : List (Nat × Nat)
  wide : Bool
  flds : List Fld
deriving DecidableEq, Repr

/-- A register by its address, with its reset value. -/
structure Reg where
  addr : Nat
  rst : Nat
deriving DecidableEq, Repr


/-! ### hub block -/

/-- hubIdStepping. -/
abbrev R.hubIdStepping : Reg := ⟨0x3ff000000000, 0xb0⟩
/-- hubIdAssembly. -/
abbrev R.hubIdAssembly : Reg := ⟨0x3ff000000008, 0x3⟩
/-- hubIdVariant. -/
abbrev R.hubIdVariant : Reg := ⟨0x3ff000000010, 0x3700960⟩
/-- hubIdPci. -/
abbrev R.hubIdPci : Reg := ⟨0x3ff000000018, 0x59020000⟩
/-- hubIdSerial. -/
abbrev R.hubIdSerial (h : Nat) : Reg := ⟨0x3ff000000020 + 0x8 * h, 0x1⟩
/-- hubIdOb. -/
abbrev R.hubIdOb (h : Nat) : Reg := ⟨0x3ff000000030 + 0x8 * h, 0x1⟩
/-- hubIdHbm. -/
abbrev R.hubIdHbm (s : Nat) : Reg := ⟨0x3ff000000040 + 0x8 * s, 0x1⟩
/-- hubIdProgramme. -/
abbrev R.hubIdProgramme : Reg := ⟨0x3ff000000070, 0x4d51374b⟩
/-- hubIdSitemap. -/
abbrev R.hubIdSitemap : Reg := ⟨0x3ff000000078, 0x3042414130424141⟩
/-- hubIdGrade. -/
abbrev R.hubIdGrade : Reg := ⟨0x3ff000000080, 0x1⟩
/-- hubIdModule. -/
abbrev R.hubIdModule : Reg := ⟨0x3ff000000088, 0x1⟩
/-- hubClkStatus. -/
abbrev R.hubClkStatus : Reg := ⟨0x3ff000000100, 0x2⟩
/-- hubMapHbmTop. -/
abbrev R.hubMapHbmTop : Reg := ⟨0x3ff000000200, 0x0⟩
/-- hubMapHoleAddr. -/
abbrev R.hubMapHoleAddr : Reg := ⟨0x3ff000000208, 0x0⟩
/-- hubMapHoleInfo. -/
abbrev R.hubMapHoleInfo : Reg := ⟨0x3ff000000210, 0x0⟩
/-- hubMapMgmtRefused. -/
abbrev R.hubMapMgmtRefused : Reg := ⟨0x3ff000000218, 0x0⟩
/-- hubMapTiles. -/
abbrev R.hubMapTiles : Reg := ⟨0x3ff000000220, 0x0⟩
/-- hubMapHbmSplit. -/
abbrev R.hubMapHbmSplit : Reg := ⟨0x3ff000000228, 0x0⟩
/-- hubMemStatus. -/
abbrev R.hubMemStatus : Reg := ⟨0x3ff000000300, 0x0⟩
/-- hubTimeCount. -/
abbrev R.hubTimeCount : Reg := ⟨0x3ff000000400, 0x0⟩
/-- hubConsStatus. -/
abbrev R.hubConsStatus : Reg := ⟨0x3ff000000500, 0x0⟩
/-- hubConsDelta. -/
abbrev R.hubConsDelta : Reg := ⟨0x3ff000000508, 0x0⟩
/-- hubConsCount. -/
abbrev R.hubConsCount : Reg := ⟨0x3ff000000510, 0x0⟩
/-- hubStrap. -/
abbrev R.hubStrap : Reg := ⟨0x3ff000000600, 0x0⟩
/-- hubAuxStatus. -/
abbrev R.hubAuxStatus : Reg := ⟨0x3ff000000608, 0x0⟩
/-- hubMapL2p. -/
abbrev R.hubMapL2p (l : Nat) : Reg := ⟨0x3ff000010000 + 0x4 * l, 0x0⟩
/-- hubMapP2l. -/
abbrev R.hubMapP2l (t : Nat) : Reg := ⟨0x3ff000014000 + 0x4 * t, 0x0⟩

/-! ### stw block -/

/-- stwStatus. -/
abbrev R.stwStatus : Reg := ⟨0x3ff000100000, 0x0⟩
/-- stwRestarts. -/
abbrev R.stwRestarts : Reg := ⟨0x3ff000100010, 0x0⟩
/-- stwBootStepGo. -/
abbrev R.stwBootStepGo : Reg := ⟨0x3ff000100100, 0x0⟩
/-- stwBootStepDone. -/
abbrev R.stwBootStepDone : Reg := ⟨0x3ff000100108, 0x0⟩
/-- stwBootStepFail. -/
abbrev R.stwBootStepFail : Reg := ⟨0x3ff000100110, 0x0⟩
/-- stwBootStatus. -/
abbrev R.stwBootStatus : Reg := ⟨0x3ff000100118, 0x0⟩
/-- stwBootShort. -/
abbrev R.stwBootShort : Reg := ⟨0x3ff000100120, 0x0⟩
/-- stwBootDisagree. -/
abbrev R.stwBootDisagree : Reg := ⟨0x3ff000100128, 0x0⟩
/-- stwBootTime. -/
abbrev R.stwBootTime (n : Nat) : Reg := ⟨0x3ff000100200 + 0x8 * n, 0x0⟩
/-- stwPstate. -/
abbrev R.stwPstate : Reg := ⟨0x3ff000100300, 0x20000000⟩
/-- stwLogHead. -/
abbrev R.stwLogHead : Reg := ⟨0x3ff000100400, 0x0⟩
/-- stwLogBoot. -/
abbrev R.stwLogBoot : Reg := ⟨0x3ff000100408, 0x0⟩
/-- stwLogTenancy. -/
abbrev R.stwLogTenancy : Reg := ⟨0x3ff000100410, 0x0⟩

/-! ### prb block -/

/-- prbWord. -/
abbrev R.prbWord (n : Nat) : Reg := ⟨0x3ff000200000 + 0x4 * n, 0x0⟩
/-- prbWear. -/
abbrev R.prbWear (p : Nat) : Reg := ⟨0x3ff000201000 + 0x4 * p, 0x0⟩
/-- prbStatus. -/
abbrev R.prbStatus : Reg := ⟨0x3ff000202000, 0x0⟩
/-- prbDropped. -/
abbrev R.prbDropped : Reg := ⟨0x3ff000202008, 0x0⟩

/-! ### pwr block -/

/-- pwrSupplyStatus. -/
abbrev R.pwrSupplyStatus : Reg := ⟨0x3ff000300000, 0x0⟩
/-- pwrSupplyIin. -/
abbrev R.pwrSupplyIin : Reg := ⟨0x3ff000300008, 0x0⟩
/-- pwrSupplyHoldup. -/
abbrev R.pwrSupplyHoldup : Reg := ⟨0x3ff000300010, 0x0⟩
/-- pwrPool. -/
abbrev R.pwrPool (p : Nat) : Reg := ⟨0x3ff000300100 + 0x8 * p, 0x0⟩
/-- pwrThermCfg. -/
abbrev R.pwrThermCfg : Reg := ⟨0x3ff000300200, 0x64⟩
/-- pwrGradCount. -/
abbrev R.pwrGradCount : Reg := ⟨0x3ff000300208, 0x0⟩
/-- pwrWarnCount. -/
abbrev R.pwrWarnCount : Reg := ⟨0x3ff000300210, 0x0⟩
/-- pwrDomStatus. -/
abbrev R.pwrDomStatus (d : Nat) : Reg := ⟨0x3ff000301000 + 0x8 * d, 0x0⟩
/-- pwrBenchDuty. -/
abbrev R.pwrBenchDuty (b : Nat) : Reg := ⟨0x3ff000302000 + 0x10 * b, 0x0⟩
/-- pwrBenchCeil. -/
abbrev R.pwrBenchCeil (b : Nat) : Reg := ⟨0x3ff000302008 + 0x10 * b, 0x10⟩
/-- pwrBenchTemp. -/
abbrev R.pwrBenchTemp (b : Nat) : Reg := ⟨0x3ff000303000 + 0x8 * b, 0x0⟩

/-! ### age block -/

/-- ageMon. -/
abbrev R.ageMon (d : Nat) : Reg := ⟨0x3ff000400000 + 0x10 * d, 0x0⟩
/-- ageFuse. -/
abbrev R.ageFuse (d : Nat) : Reg := ⟨0x3ff000400008 + 0x10 * d, 0xb40064⟩
/-- agePlanStatus. -/
abbrev R.agePlanStatus : Reg := ⟨0x3ff000401000, 0x0⟩
/-- ageCfg. -/
abbrev R.ageCfg : Reg := ⟨0x3ff000401008, 0x0⟩
/-- ageHours. -/
abbrev R.ageHours : Reg := ⟨0x3ff000401010, 0x0⟩

/-! ### saf block -/

/-- safStatus. -/
abbrev R.safStatus : Reg := ⟨0x3ff000500000, 0x0⟩
/-- safHeartbeat. -/
abbrev R.safHeartbeat : Reg := ⟨0x3ff000500008, 0x0⟩
/-- safRecStatus. -/
abbrev R.safRecStatus : Reg := ⟨0x3ff000500100, 0x0⟩
/-- safRecTime. -/
abbrev R.safRecTime : Reg := ⟨0x3ff000500108, 0x0⟩
/-- safWdogCfg. -/
abbrev R.safWdogCfg : Reg := ⟨0x3ff000500200, 0x32⟩
/-- safCntDatapath. -/
abbrev R.safCntDatapath : Reg := ⟨0x3ff000500300, 0x0⟩
/-- safCntTemp. -/
abbrev R.safCntTemp : Reg := ⟨0x3ff000500308, 0x0⟩
/-- safCntWdog. -/
abbrev R.safCntWdog : Reg := ⟨0x3ff000500310, 0x0⟩
/-- safCntObistFail. -/
abbrev R.safCntObistFail : Reg := ⟨0x3ff000500318, 0x0⟩
/-- safCntParity. -/
abbrev R.safCntParity : Reg := ⟨0x3ff000500320, 0x0⟩
/-- safObist. -/
abbrev R.safObist (b : Nat) : Reg := ⟨0x3ff000501000 + 0x8 * b, 0x0⟩

/-! ### sec block (management only) -/

/-- secLcStatus. -/
abbrev R.secLcStatus : Reg := ⟨0x3ff000600000, 0x200001ff⟩
/-- secTenStatus. -/
abbrev R.secTenStatus : Reg := ⟨0x3ff000600100, 0x0⟩
/-- secTenCount. -/
abbrev R.secTenCount : Reg := ⟨0x3ff000600108, 0x0⟩
/-- secFwStatus. -/
abbrev R.secFwStatus : Reg := ⟨0x3ff000600200, 0x0⟩
/-- secLibStatus. -/
abbrev R.secLibStatus : Reg := ⟨0x3ff000600300, 0x0⟩
/-- secDbgNonce. -/
abbrev R.secDbgNonce : Reg := ⟨0x3ff000600400, 0x0⟩

/-! ### reg block -/

/-- regStatus. -/
abbrev R.regStatus : Reg := ⟨0x3ff000700000, 0x0⟩
/-- regClassW. -/
abbrev R.regClassW : Reg := ⟨0x3ff000700010, 0x1040c⟩
/-- regCongCfg. -/
abbrev R.regCongCfg : Reg := ⟨0x3ff000700018, 0xc604⟩
/-- regMissStatus. -/
abbrev R.regMissStatus : Reg := ⟨0x3ff000700020, 0x0⟩
/-- regMissAddr. -/
abbrev R.regMissAddr : Reg := ⟨0x3ff000700028, 0x0⟩
/-- regMissCount. -/
abbrev R.regMissCount : Reg := ⟨0x3ff000700030, 0x0⟩
/-- regMissThr. -/
abbrev R.regMissThr : Reg := ⟨0x3ff000700038, 0x0⟩
/-- regPartC0. -/
abbrev R.regPartC0 (n : Nat) : Reg := ⟨0x3ff000700100 + 0x40 * n, 0x4000800080⟩
/-- regPartShare. -/
abbrev R.regPartShare (n : Nat) : Reg := ⟨0x3ff000700108 + 0x40 * n, 0x10⟩
/-- regPartSs. -/
abbrev R.regPartSs (n : Nat) : Reg := ⟨0x3ff000700110 + 0x40 * n, 0x40⟩
/-- regPartQ. -/
abbrev R.regPartQ (n : Nat) : Reg := ⟨0x3ff000700118 + 0x40 * n, 0x3ff⟩
/-- regPartHeld. -/
abbrev R.regPartHeld (n : Nat) : Reg := ⟨0x3ff000700120 + 0x40 * n, 0x0⟩
/-- regSrc. -/
abbrev R.regSrc (s : Nat) : Reg := ⟨0x3ff000701000 + 0x4 * s, 0x0⟩
/-- regPartBytes. -/
abbrev R.regPartBytes (n : Nat) (h : Nat) (c : Nat) : Reg := ⟨0x3ff000702000 + 0x100 * n + 0x40 * h + 0x8 * c, 0x0⟩

/-! ### xlt block -/

/-- xltFaultStatus. -/
abbrev R.xltFaultStatus : Reg := ⟨0x3ff000800000, 0x0⟩
/-- xltFaultVa. -/
abbrev R.xltFaultVa : Reg := ⟨0x3ff000800008, 0x0⟩
/-- xltFaultMaster. -/
abbrev R.xltFaultMaster : Reg := ⟨0x3ff000800010, 0x0⟩
/-- xltWalkCount. -/
abbrev R.xltWalkCount : Reg := ⟨0x3ff000800100, 0x0⟩
/-- xltWalkRestart. -/
abbrev R.xltWalkRestart : Reg := ⟨0x3ff000800108, 0x0⟩
/-- xltWalkCacheHit. -/
abbrev R.xltWalkCacheHit : Reg := ⟨0x3ff000800110, 0x0⟩
/-- xltInvCtl. -/
abbrev R.xltInvCtl (k : Nat) : Reg := ⟨0x3ff000800400 + 0x40 * k, 0x0⟩
/-- xltInvVa. -/
abbrev R.xltInvVa (k : Nat) : Reg := ⟨0x3ff000800408 + 0x40 * k, 0x0⟩
/-- xltInvLen. -/
abbrev R.xltInvLen (k : Nat) : Reg := ⟨0x3ff000800410 + 0x40 * k, 0x0⟩
/-- xltInvRefs. -/
abbrev R.xltInvRefs (k : Nat) : Reg := ⟨0x3ff000800418 + 0x40 * k, 0x0⟩
/-- xltCtx. -/
abbrev R.xltCtx (c : Nat) : Reg := ⟨0x3ff000810000 + 0x8 * c, 0x0⟩

/-! ### coh block -/

/-- cohCtrl. -/
abbrev R.cohCtrl : Reg := ⟨0x3ff000900000, 0x80000014⟩
/-- cohSiteStatus. -/
abbrev R.cohSiteStatus (s : Nat) : Reg := ⟨0x3ff000900040 + 0x8 * s, 0x0⟩
/-- cohHostStatus. -/
abbrev R.cohHostStatus : Reg := ⟨0x3ff000900080, 0x0⟩
/-- cohDirProbeCtl. -/
abbrev R.cohDirProbeCtl : Reg := ⟨0x3ff000900100, 0x0⟩
/-- cohDirProbeRes. -/
abbrev R.cohDirProbeRes : Reg := ⟨0x3ff000900108, 0x0⟩
/-- cohDirProbeBench. -/
abbrev R.cohDirProbeBench : Reg := ⟨0x3ff000900110, 0x0⟩
/-- cohCntSnoop. -/
abbrev R.cohCntSnoop : Reg := ⟨0x3ff000900200, 0x0⟩
/-- cohCntFwd. -/
abbrev R.cohCntFwd : Reg := ⟨0x3ff000900208, 0x0⟩
/-- cohCntBenchInv. -/
abbrev R.cohCntBenchInv : Reg := ⟨0x3ff000900210, 0x0⟩
/-- cohCntRecall. -/
abbrev R.cohCntRecall : Reg := ⟨0x3ff000900218, 0x0⟩
/-- cohCntStaleEvict. -/
abbrev R.cohCntStaleEvict : Reg := ⟨0x3ff000900220, 0x0⟩

/-! ### cxl block -/

/-- cxlCtrl. -/
abbrev R.cxlCtrl : Reg := ⟨0x3ff000a00000, 0x14⟩
/-- cxlStatus. -/
abbrev R.cxlStatus : Reg := ⟨0x3ff000a00008, 0x0⟩
/-- cxlAptBase. -/
abbrev R.cxlAptBase (a : Nat) : Reg := ⟨0x3ff000a00100 + 0x8 * a, 0x0⟩
/-- cxlHtTier. -/
abbrev R.cxlHtTier (k : Nat) : Reg := ⟨0x3ff000a01000 + 0x20 * k, 0x0⟩
/-- cxlHtHost. -/
abbrev R.cxlHtHost (k : Nat) : Reg := ⟨0x3ff000a01008 + 0x20 * k, 0x0⟩
/-- cxlHtSize. -/
abbrev R.cxlHtSize (k : Nat) : Reg := ⟨0x3ff000a01010 + 0x20 * k, 0x0⟩

/-! ### mbx block -/

/-- mbxDoorbell. -/
abbrev R.mbxDoorbell (m : Nat) : Reg := ⟨0x3ff001002000 + 0x10000 * m, 0x0⟩
/-- mbxStatus. -/
abbrev R.mbxStatus (m : Nat) : Reg := ⟨0x3ff001002008 + 0x10000 * m, 0x0⟩
/-- mbxCvec. -/
abbrev R.mbxCvec (m : Nat) : Reg := ⟨0x3ff001002010 + 0x10000 * m, if m < 16 then 0x10000000 else if m < 24 then 0x40000000 else 0⟩
/-- mbxCount. -/
abbrev R.mbxCount (m : Nat) : Reg := ⟨0x3ff001002018 + 0x10000 * m, 0x0⟩
/-- mbxMgmtRejected. -/
abbrev R.mbxMgmtRejected : Reg := ⟨0x3ff001200000, 0x0⟩

/-! ### site block -/

/-- siteStatus. -/
abbrev R.siteStatus (s : Nat) : Reg := ⟨0x3ff002000000 + 0x200000 * s, 0x40000000⟩
/-- sitePwr. -/
abbrev R.sitePwr (s : Nat) : Reg := ⟨0x3ff002000100 + 0x200000 * s, 0x0⟩
/-- siteId. -/
abbrev R.siteId (s : Nat) (w : Nat) : Reg := ⟨0x3ff002000200 + 0x200000 * s + 0x8 * w, 0x0⟩
/-- siteModStatus. -/
abbrev R.siteModStatus (s : Nat) (m : Nat) : Reg := ⟨0x3ff002001000 + 0x200000 * s + 0x100 * m, 0x0⟩
/-- siteModCrcErr. -/
abbrev R.siteModCrcErr (s : Nat) (m : Nat) : Reg := ⟨0x3ff002001010 + 0x200000 * s + 0x100 * m, 0x0⟩
/-- siteModReplay. -/
abbrev R.siteModReplay (s : Nat) (m : Nat) : Reg := ⟨0x3ff002001018 + 0x200000 * s + 0x100 * m, 0x0⟩
/-- siteModRetrain. -/
abbrev R.siteModRetrain (s : Nat) (m : Nat) : Reg := ⟨0x3ff002001020 + 0x200000 * s + 0x100 * m, 0x0⟩

/-! ### tks block -/

/-- tksStatus. -/
abbrev R.tksStatus (p : Nat) : Reg := ⟨0x3ff003000000 + 0x200000 * p, 0x0⟩
/-- tksMac. -/
abbrev R.tksMac (p : Nat) : Reg := ⟨0x3ff003000008 + 0x200000 * p, 0x0⟩
/-- tksGrant. -/
abbrev R.tksGrant (p : Nat) (q : Nat) : Reg := ⟨0x3ff003000100 + 0x200000 * p + 0x8 * q, [128, 512, 1280, 128].getD (q % 4) 0⟩
/-- tksTx. -/
abbrev R.tksTx (p : Nat) : Reg := ⟨0x3ff003000200 + 0x200000 * p, 0x0⟩
/-- tksRx. -/
abbrev R.tksRx (p : Nat) : Reg := ⟨0x3ff003000208 + 0x200000 * p, 0x0⟩
/-- tksReplay. -/
abbrev R.tksReplay (p : Nat) : Reg := ⟨0x3ff003000210 + 0x200000 * p, 0x0⟩
/-- tksRetrain. -/
abbrev R.tksRetrain (p : Nat) : Reg := ⟨0x3ff003000218 + 0x200000 * p, 0x0⟩
/-- tksFecCorr. -/
abbrev R.tksFecCorr (p : Nat) : Reg := ⟨0x3ff003000220 + 0x200000 * p, 0x0⟩
/-- tksFecUncorr. -/
abbrev R.tksFecUncorr (p : Nat) : Reg := ⟨0x3ff003000228 + 0x200000 * p, 0x0⟩
/-- tksFcs. -/
abbrev R.tksFcs (p : Nat) : Reg := ⟨0x3ff003000230 + 0x200000 * p, 0x0⟩
/-- tksDropDa. -/
abbrev R.tksDropDa (p : Nat) : Reg := ⟨0x3ff003000238 + 0x200000 * p, 0x0⟩
/-- tksDropForeign. -/
abbrev R.tksDropForeign (p : Nat) : Reg := ⟨0x3ff003000240 + 0x200000 * p, 0x0⟩
/-- tksDropHeld. -/
abbrev R.tksDropHeld (p : Nat) : Reg := ⟨0x3ff003000248 + 0x200000 * p, 0x0⟩
/-- tksMalformed. -/
abbrev R.tksMalformed (p : Nat) : Reg := ⟨0x3ff003000250 + 0x200000 * p, 0x0⟩
/-- tksRtGrp. -/
abbrev R.tksRtGrp (g : Nat) : Reg := ⟨0x3ff003100000 + 0x4 * g, 0x0⟩
/-- tksRtMem. -/
abbrev R.tksRtMem (g : Nat) : Reg := ⟨0x3ff003101000 + 0x4 * g, 0x0⟩
/-- tksDevId. -/
abbrev R.tksDevId : Reg := ⟨0x3ff003102000, 0x0⟩
/-- tksDevPart. -/
abbrev R.tksDevPart : Reg := ⟨0x3ff003102008, 0x0⟩
/-- tksDevCfg. -/
abbrev R.tksDevCfg : Reg := ⟨0x3ff003102010, 0x20⟩
/-- tksErrStatus. -/
abbrev R.tksErrStatus : Reg := ⟨0x3ff003102100, 0x0⟩
/-- tksErrAddr. -/
abbrev R.tksErrAddr : Reg := ⟨0x3ff003102108, 0x0⟩
/-- tksE2eResend. -/
abbrev R.tksE2eResend : Reg := ⟨0x3ff003102200, 0x0⟩
/-- tksE2eDup. -/
abbrev R.tksE2eDup : Reg := ⟨0x3ff003102208, 0x0⟩
/-- tksE2eBusy. -/
abbrev R.tksE2eBusy : Reg := ⟨0x3ff003102210, 0x0⟩
/-- tksE2eFailed. -/
abbrev R.tksE2eFailed : Reg := ⟨0x3ff003102218, 0x0⟩
/-- tksE2eMemo. -/
abbrev R.tksE2eMemo : Reg := ⟨0x3ff003102220, 0x0⟩

/-! ### ss block -/

/-- ssCfg. -/
abbrev R.ssCfg (n : Nat) : Reg := ⟨0x3ff008000000 + 0x10000 * n, 0xff000000⟩
/-- ssHit. -/
abbrev R.ssHit (n : Nat) : Reg := ⟨0x3ff008000100 + 0x10000 * n, 0x0⟩
/-- ssMiss. -/
abbrev R.ssMiss (n : Nat) : Reg := ⟨0x3ff008000108 + 0x10000 * n, 0x0⟩
/-- ssSbHit. -/
abbrev R.ssSbHit (n : Nat) : Reg := ⟨0x3ff008000110 + 0x10000 * n, 0x0⟩
/-- ssSbDrop. -/
abbrev R.ssSbDrop (n : Nat) : Reg := ⟨0x3ff008000118 + 0x10000 * n, 0x0⟩
/-- ssCe. -/
abbrev R.ssCe (n : Nat) : Reg := ⟨0x3ff008000120 + 0x10000 * n, 0x0⟩
/-- ssUe. -/
abbrev R.ssUe (n : Nat) : Reg := ⟨0x3ff008000128 + 0x10000 * n, 0x0⟩
/-- ssUeRefetch. -/
abbrev R.ssUeRefetch (n : Nat) : Reg := ⟨0x3ff008000130 + 0x10000 * n, 0x0⟩

/-! ### hbm block -/

/-- hbmStatus. -/
abbrev R.hbmStatus (s : Nat) : Reg := ⟨0x3ff009000000 + 0x200000 * s, 0x0⟩
/-- hbmChmap. -/
abbrev R.hbmChmap (s : Nat) : Reg := ⟨0x3ff009000008 + 0x200000 * s, 0x0⟩
/-- hbmCe. -/
abbrev R.hbmCe (s : Nat) : Reg := ⟨0x3ff009000100 + 0x200000 * s, 0x0⟩
/-- hbmUe. -/
abbrev R.hbmUe (s : Nat) : Reg := ⟨0x3ff009000108 + 0x200000 * s, 0x0⟩
/-- hbmTurn. -/
abbrev R.hbmTurn (s : Nat) : Reg := ⟨0x3ff009000110 + 0x200000 * s, 0x0⟩

/-! ### ctx block -/

/-- ctxErrStatus. -/
abbrev R.ctxErrStatus (n : Nat) : Reg := ⟨0x3ff00a000000 + 0x40000 * n, 0x0⟩
/-- ctxErrAddr. -/
abbrev R.ctxErrAddr (n : Nat) : Reg := ⟨0x3ff00a000008 + 0x40000 * n, 0x0⟩
/-- ctxBytes. -/
abbrev R.ctxBytes (n : Nat) : Reg := ⟨0x3ff00a000100 + 0x40000 * n, 0x0⟩
/-- ctxMoved. -/
abbrev R.ctxMoved (n : Nat) : Reg := ⟨0x3ff00a000108 + 0x40000 * n, 0x0⟩
/-- ctxAbandon. -/
abbrev R.ctxAbandon (n : Nat) : Reg := ⟨0x3ff00a000110 + 0x40000 * n, 0x0⟩
/-- ctxSat. -/
abbrev R.ctxSat (n : Nat) : Reg := ⟨0x3ff00a000118 + 0x40000 * n, 0x0⟩
/-- ctxLaneCfg. -/
abbrev R.ctxLaneCfg (n : Nat) (k : Nat) : Reg := ⟨0x3ff00a001000 + 0x40000 * n + 0x100 * k, 0x0⟩
/-- ctxLaneRing. -/
abbrev R.ctxLaneRing (n : Nat) (k : Nat) : Reg := ⟨0x3ff00a001008 + 0x40000 * n + 0x100 * k, 0x0⟩
/-- ctxLaneTail. -/
abbrev R.ctxLaneTail (n : Nat) (k : Nat) : Reg := ⟨0x3ff00a001010 + 0x40000 * n + 0x100 * k, 0x0⟩
/-- ctxLaneHead. -/
abbrev R.ctxLaneHead (n : Nat) (k : Nat) : Reg := ⟨0x3ff00a001018 + 0x40000 * n + 0x100 * k, 0x0⟩
/-- ctxStoreStatus. -/
abbrev R.ctxStoreStatus : Reg := ⟨0x3ff00b000000, 0x0⟩
/-- ctxSeqBase. -/
abbrev R.ctxSeqBase : Reg := ⟨0x3ff00b000008, 0x0⟩
/-- ctxDescBase. -/
abbrev R.ctxDescBase : Reg := ⟨0x3ff00b000010, 0x0⟩
/-- ctxDescCount. -/
abbrev R.ctxDescCount : Reg := ⟨0x3ff00b000018, 0x0⟩
/-- ctxDescFree. -/
abbrev R.ctxDescFree : Reg := ⟨0x3ff00b000020, 0x0⟩
/-- ctxTierTotal. -/
abbrev R.ctxTierTotal (t : Nat) : Reg := ⟨0x3ff00b000100 + 0x10 * t, 0x0⟩
/-- ctxTierFree. -/
abbrev R.ctxTierFree (t : Nat) : Reg := ⟨0x3ff00b000108 + 0x10 * t, 0x0⟩
/-- ctxEpochCurPages. -/
abbrev R.ctxEpochCurPages : Reg := ⟨0x3ff00b000208, 0x0⟩
/-- ctxEpochOldPages. -/
abbrev R.ctxEpochOldPages : Reg := ⟨0x3ff00b000210, 0x0⟩

/-! ### sync block -/

/-- syncCount. -/
abbrev R.syncCount (n : Nat) : Reg := ⟨0x3ff010000000 + 0x1000 * n, 0x0⟩
/-- syncAdd. -/
abbrev R.syncAdd (n : Nat) : Reg := ⟨0x3ff010000008 + 0x1000 * n, 0x0⟩
/-- syncTake. -/
abbrev R.syncTake (n : Nat) : Reg := ⟨0x3ff010000010 + 0x1000 * n, 0x0⟩
/-- syncStatus. -/
abbrev R.syncStatus (n : Nat) : Reg := ⟨0x3ff010000018 + 0x1000 * n, 0x0⟩
/-- syncThresh. -/
abbrev R.syncThresh (n : Nat) (k : Nat) : Reg := ⟨0x3ff010000040 + 0x1000 * n + 0x20 * k, 0x0⟩
/-- syncAction. -/
abbrev R.syncAction (n : Nat) (k : Nat) : Reg := ⟨0x3ff010000048 + 0x1000 * n + 0x20 * k, 0x0⟩
/-- syncArg. -/
abbrev R.syncArg (n : Nat) (k : Nat) : Reg := ⟨0x3ff010000050 + 0x1000 * n + 0x20 * k, 0x0⟩
/-- syncUnitNfail. -/
abbrev R.syncUnitNfail (h : Nat) : Reg := ⟨0x3ff012000000 + 0x8 * h, 0x0⟩

/-! ### bench block -/

/-- benchTlbHit. -/
abbrev R.benchTlbHit (b : Nat) : Reg := ⟨0x3ff040000100 + 0x100000 * b, 0x0⟩
/-- benchTlbMiss. -/
abbrev R.benchTlbMiss (b : Nat) : Reg := ⟨0x3ff040000108 + 0x100000 * b, 0x0⟩
/-- benchTlbPinWait. -/
abbrev R.benchTlbPinWait (b : Nat) : Reg := ⟨0x3ff040000110 + 0x100000 * b, 0x0⟩
/-- benchTlbRefs. -/
abbrev R.benchTlbRefs (b : Nat) : Reg := ⟨0x3ff040000118 + 0x100000 * b, 0x0⟩
/-- benchTlbRetiring. -/
abbrev R.benchTlbRetiring (b : Nat) : Reg := ⟨0x3ff040000120 + 0x100000 * b, 0x0⟩
/-- benchSlink. -/
abbrev R.benchSlink (b : Nat) (d : Nat) : Reg := ⟨0x3ff040000200 + 0x100000 * b + 0x8 * d, 0x0⟩
/-- benchSrouteUsed. -/
abbrev R.benchSrouteUsed (b : Nat) : Reg := ⟨0x3ff040000240 + 0x100000 * b, 0x0⟩

/-! ### tile block -/

/-- tileDrsBind. -/
abbrev R.tileDrsBind (t : Nat) : Reg := ⟨0x3ff100000100 + 0x100000 * t, 0x0⟩
/-- tileDrsDtile. -/
abbrev R.tileDrsDtile (t : Nat) : Reg := ⟨0x3ff100000108 + 0x100000 * t, 0x0⟩
/-- tileSeqStatus. -/
abbrev R.tileSeqStatus (t : Nat) : Reg := ⟨0x3ff100000200 + 0x100000 * t, 0x0⟩
/-- tileSeqPc. -/
abbrev R.tileSeqPc (t : Nat) : Reg := ⟨0x3ff100000208 + 0x100000 * t, 0x0⟩
/-- tileSeqCtrl. -/
abbrev R.tileSeqCtrl (t : Nat) : Reg := ⟨0x3ff100000210 + 0x100000 * t, 0x0⟩
/-- tileSeqLoop. -/
abbrev R.tileSeqLoop (t : Nat) (n : Nat) : Reg := ⟨0x3ff100000220 + 0x100000 * t + 0x10 * n, 0x0⟩
/-- tileSeqLoopb. -/
abbrev R.tileSeqLoopb (t : Nat) (n : Nat) : Reg := ⟨0x3ff100000228 + 0x100000 * t + 0x10 * n, 0x0⟩
/-- tileSeqIssued. -/
abbrev R.tileSeqIssued (t : Nat) : Reg := ⟨0x3ff100000280 + 0x100000 * t, 0x0⟩
/-- tileSeqStalled. -/
abbrev R.tileSeqStalled (t : Nat) : Reg := ⟨0x3ff100000288 + 0x100000 * t, 0x0⟩
/-- tileWdog. -/
abbrev R.tileWdog (t : Nat) : Reg := ⟨0x3ff100000300 + 0x100000 * t, 0x0⟩
/-- tileArithCtrl. -/
abbrev R.tileArithCtrl (t : Nat) : Reg := ⟨0x3ff100000400 + 0x100000 * t, 0x20⟩
/-- tileArithStatus. -/
abbrev R.tileArithStatus (t : Nat) : Reg := ⟨0x3ff100000408 + 0x100000 * t, 0x0⟩
/-- tileArithSrSeed. -/
abbrev R.tileArithSrSeed (t : Nat) : Reg := ⟨0x3ff100000410 + 0x100000 * t, 0x0⟩
/-- tileErrStatus. -/
abbrev R.tileErrStatus (t : Nat) : Reg := ⟨0x3ff100000600 + 0x100000 * t, 0x0⟩
/-- tileErrAddr. -/
abbrev R.tileErrAddr (t : Nat) : Reg := ⟨0x3ff100000608 + 0x100000 * t, 0x0⟩
/-- tileErrCtx. -/
abbrev R.tileErrCtx (t : Nat) : Reg := ⟨0x3ff100000610 + 0x100000 * t, 0x0⟩
/-- tileLmCe. -/
abbrev R.tileLmCe (t : Nat) : Reg := ⟨0x3ff100000700 + 0x100000 * t, 0x0⟩
/-- tileLmUe. -/
abbrev R.tileLmUe (t : Nat) : Reg := ⟨0x3ff100000708 + 0x100000 * t, 0x0⟩
/-- tileCacheHit. -/
abbrev R.tileCacheHit (t : Nat) : Reg := ⟨0x3ff100000710 + 0x100000 * t, 0x0⟩
/-- tileCacheMiss. -/
abbrev R.tileCacheMiss (t : Nat) : Reg := ⟨0x3ff100000718 + 0x100000 * t, 0x0⟩
/-- tileCachePerr. -/
abbrev R.tileCachePerr (t : Nat) : Reg := ⟨0x3ff100000720 + 0x100000 * t, 0x0⟩
/-- tileSinCfg. -/
abbrev R.tileSinCfg (t : Nat) (n : Nat) : Reg := ⟨0x3ff100000800 + 0x100000 * t + 0x20 * n, 0x0⟩
/-- tileSinStat. -/
abbrev R.tileSinStat (t : Nat) (n : Nat) : Reg := ⟨0x3ff100000808 + 0x100000 * t + 0x20 * n, 0x0⟩
/-- tileSinWrptr. -/
abbrev R.tileSinWrptr (t : Nat) (n : Nat) : Reg := ⟨0x3ff100000810 + 0x100000 * t + 0x20 * n, 0x0⟩
/-- tileSoutStat. -/
abbrev R.tileSoutStat (t : Nat) (n : Nat) : Reg := ⟨0x3ff100000880 + 0x100000 * t + 0x20 * n, 0x0⟩
/-- tileSoutStall. -/
abbrev R.tileSoutStall (t : Nat) (n : Nat) : Reg := ⟨0x3ff100000888 + 0x100000 * t + 0x20 * n, 0x0⟩
/-- tileDmaCtrl. -/
abbrev R.tileDmaCtrl (t : Nat) (n : Nat) : Reg := ⟨0x3ff100000a00 + 0x100000 * t + 0x40 * n, 0x0⟩
/-- tileDmaTail. -/
abbrev R.tileDmaTail (t : Nat) (n : Nat) : Reg := ⟨0x3ff100000a08 + 0x100000 * t + 0x40 * n, 0x0⟩
/-- tileDmaHead. -/
abbrev R.tileDmaHead (t : Nat) (n : Nat) : Reg := ⟨0x3ff100000a10 + 0x100000 * t + 0x40 * n, 0x0⟩

/-! ### svc block -/

/-- svcStatus. -/
abbrev R.svcStatus (c : Nat) : Reg := ⟨0x3ff004000000 + 0x10000 * c, 0x0⟩
/-- svcIqCfg. -/
abbrev R.svcIqCfg (q : Nat) : Reg := ⟨0x3ff004200000 + 0x100 * q, 0x0⟩
/-- svcIqHead. -/
abbrev R.svcIqHead (q : Nat) : Reg := ⟨0x3ff004200008 + 0x100 * q, 0x0⟩
/-- svcIqTail. -/
abbrev R.svcIqTail (q : Nat) : Reg := ⟨0x3ff004200010 + 0x100 * q, 0x0⟩
/-- svcIqFull. -/
abbrev R.svcIqFull (q : Nat) : Reg := ⟨0x3ff004200018 + 0x100 * q, 0x0⟩
/-- svcEqCfg. -/
abbrev R.svcEqCfg (e : Nat) : Reg := ⟨0x3ff004300000 + 0x100 * e, 0x0⟩
/-- svcEqTail. -/
abbrev R.svcEqTail (e : Nat) : Reg := ⟨0x3ff004300008 + 0x100 * e, 0x0⟩
/-- svcEqHead. -/
abbrev R.svcEqHead (e : Nat) : Reg := ⟨0x3ff004300010 + 0x100 * e, 0x0⟩

/-- Descriptions of the hub block. -/
def descsHub : List RegDesc := [
  ⟨0x3ff000000000, [], false, [⟨31, 0, .ro, .kept, 0xb0, false⟩]⟩,
  ⟨0x3ff000000008, [], false, [⟨31, 0, .ro, .kept, 0x3, false⟩]⟩,
  ⟨0x3ff000000010, [], false, [⟨31, 0, .ro, .kept, 0x3700960, false⟩]⟩,
  ⟨0x3ff000000018, [], false, [⟨31, 0, .ro, .kept, 0x59020000, false⟩]⟩,
  ⟨0x3ff000000020, [(0x8, 2)], true, [⟨63, 0, .ro, .kept, 0x1, false⟩]⟩,
  ⟨0x3ff000000030, [(0x8, 2)], true, [⟨63, 0, .ro, .kept, 0x1, false⟩]⟩,
  ⟨0x3ff000000040, [(0x8, 6)], true, [⟨63, 0, .ro, .kept, 0x1, false⟩]⟩,
  ⟨0x3ff000000070, [], false, [⟨31, 0, .ro, .kept, 0x4d51374b, false⟩]⟩,
  ⟨0x3ff000000078, [], true, [⟨63, 0, .ro, .kept, 0x3042414130424141, false⟩]⟩,
  ⟨0x3ff000000080, [], false, [⟨31, 0, .ro, .kept, 0x1, false⟩]⟩,
  ⟨0x3ff000000088, [], true, [⟨63, 0, .ro, .kept, 0x1, false⟩]⟩,
  ⟨0x3ff000000100, [], false, [⟨17, 17, .w1c, .powerOn, 0x0, false⟩, ⟨16, 16, .ro, .hub, 0x0, false⟩, ⟨15, 8, .ro, .hub, 0x0, false⟩, ⟨7, 2, .ro, .hub, 0x0, false⟩, ⟨1, 1, .ro, .powerOn, 0x1, false⟩, ⟨0, 0, .ro, .hub, 0x0, false⟩]⟩,
  ⟨0x3ff000000200, [], true, [⟨63, 0, .ro, .hub, 0x0, false⟩]⟩,
  ⟨0x3ff000000208, [], true, [⟨63, 0, .ro, .hub, 0x0, false⟩]⟩,
  ⟨0x3ff000000210, [], false, [⟨31, 31, .w1c, .hub, 0x0, false⟩, ⟨30, 30, .w1c, .hub, 0x0, false⟩, ⟨17, 16, .ro, .hub, 0x0, false⟩, ⟨15, 12, .ro, .hub, 0x0, false⟩, ⟨11, 0, .ro, .hub, 0x0, false⟩]⟩,
  ⟨0x3ff000000218, [], false, [⟨31, 0, .ro, .hub, 0x0, false⟩]⟩,
  ⟨0x3ff000000220, [], false, [⟨11, 0, .ro, .hub, 0x0, false⟩]⟩,
  ⟨0x3ff000000228, [], true, [⟨63, 0, .ro, .hub, 0x0, false⟩]⟩,
  ⟨0x3ff000000300, [], false, [⟨31, 31, .ro, .region, 0x0, false⟩, ⟨30, 30, .ro, .hub, 0x0, false⟩, ⟨29, 28, .ro, .region, 0x0, false⟩, ⟨27, 26, .ro, .region, 0x0, false⟩, ⟨23, 16, .ro, .hub, 0x0, false⟩, ⟨15, 8, .ro, .hub, 0x0, false⟩]⟩,
  ⟨0x3ff000000400, [], true, [⟨63, 0, .ro, .powerOn, 0x0, false⟩]⟩,
  ⟨0x3ff000000500, [], false, [⟨31, 31, .w1c, .hub, 0x0, false⟩, ⟨30, 30, .w1c, .hub, 0x0, false⟩, ⟨29, 29, .ro, .hub, 0x0, false⟩, ⟨23, 20, .ro, .hub, 0x0, false⟩, ⟨15, 0, .ro, .hub, 0x0, false⟩]⟩,
  ⟨0x3ff000000508, [], true, [⟨63, 0, .ro, .hub, 0x0, false⟩]⟩,
  ⟨0x3ff000000510, [], false, [⟨31, 0, .rc, .hub, 0x0, false⟩]⟩,
  ⟨0x3ff000000600, [], false, [⟨7, 3, .ro, .module, 0x0, false⟩, ⟨2, 0, .ro, .module, 0x0, false⟩]⟩,
  ⟨0x3ff000000608, [], false, [⟨31, 31, .ro, .powerOn, 0x0, false⟩, ⟨30, 30, .w1c, .powerOn, 0x0, false⟩, ⟨15, 8, .ro, .powerOn, 0x0, false⟩, ⟨7, 0, .ro, .powerOn, 0x0, false⟩]⟩,
  ⟨0x3ff000010000, [(0x4, 2048)], false, [⟨31, 31, .ro, .hub, 0x0, false⟩, ⟨11, 0, .ro, .hub, 0x0, false⟩]⟩,
  ⟨0x3ff000014000, [(0x4, 2176)], false, [⟨31, 31, .ro, .hub, 0x0, false⟩, ⟨30, 30, .ro, .hub, 0x0, false⟩, ⟨10, 0, .ro, .hub, 0x0, false⟩]⟩]

/-- Descriptions of the stw block. -/
def descsStw : List RegDesc := [
  ⟨0x3ff000100000, [], false, [⟨31, 31, .ro, .module, 0x0, false⟩, ⟨30, 30, .ro, .module, 0x0, false⟩, ⟨29, 29, .ro, .module, 0x0, false⟩, ⟨23, 0, .ro, .module, 0x0, false⟩]⟩,
  ⟨0x3ff000100010, [], false, [⟨31, 0, .ro, .powerOn, 0x0, false⟩]⟩,
  ⟨0x3ff000100100, [], false, [⟨10, 1, .w1s, .hub, 0x0, false⟩]⟩,
  ⟨0x3ff000100108, [], false, [⟨10, 1, .ro, .hub, 0x0, false⟩]⟩,
  ⟨0x3ff000100110, [], false, [⟨10, 1, .ro, .hub, 0x0, false⟩]⟩,
  ⟨0x3ff000100118, [], false, [⟨31, 29, .ro, .hub, 0x0, false⟩, ⟨28, 28, .w1c, .hub, 0x0, false⟩, ⟨27, 27, .ro, .hub, 0x0, false⟩, ⟨3, 0, .ro, .hub, 0x0, false⟩]⟩,
  ⟨0x3ff000100120, [], false, [⟨31, 24, .ro, .hub, 0x0, false⟩, ⟨23, 16, .ro, .hub, 0x0, false⟩, ⟨11, 0, .ro, .hub, 0x0, false⟩]⟩,
  ⟨0x3ff000100128, [], true, [⟨55, 48, .ro, .hub, 0x0, false⟩, ⟨39, 32, .ro, .hub, 0x0, false⟩, ⟨27, 16, .ro, .hub, 0x0, false⟩, ⟨11, 0, .ro, .hub, 0x0, false⟩]⟩,
  ⟨0x3ff000100200, [(0x8, 11)], false, [⟨31, 0, .ro, .hub, 0x0, false⟩]⟩,
  ⟨0x3ff000100300, [], false, [⟨31, 30, .ro, .module, 0x0, false⟩, ⟨29, 29, .ro, .module, 0x1, false⟩, ⟨28, 28, .ro, .module, 0x0, false⟩]⟩,
  ⟨0x3ff000100400, [], false, [⟨31, 0, .ro, .kept, 0x0, false⟩]⟩,
  ⟨0x3ff000100408, [], false, [⟨31, 0, .ro, .kept, 0x0, false⟩]⟩,
  ⟨0x3ff000100410, [], false, [⟨31, 0, .ro, .kept, 0x0, false⟩]⟩]

/-- Descriptions of the prb block. -/
def descsPrb : List RegDesc := [
  ⟨0x3ff000200000, [(0x4, 1024)], false, [⟨31, 0, .rw, .kept, 0x0, false⟩]⟩,
  ⟨0x3ff000201000, [(0x4, 16)], false, [⟨16, 0, .ro, .kept, 0x0, false⟩]⟩,
  ⟨0x3ff000202000, [], false, [⟨31, 31, .ro, .powerOn, 0x0, false⟩, ⟨30, 30, .w1c, .powerOn, 0x0, false⟩, ⟨29, 29, .w1c, .powerOn, 0x0, false⟩, ⟨21, 16, .ro, .powerOn, 0x0, false⟩, ⟨5, 0, .ro, .powerOn, 0x0, false⟩]⟩,
  ⟨0x3ff000202008, [], false, [⟨31, 0, .rc, .powerOn, 0x0, false⟩]⟩]

/-- Descriptions of the pwr block. -/
def descsPwr : List RegDesc := [
  ⟨0x3ff000300000, [], false, [⟨31, 31, .ro, .powerOn, 0x0, false⟩, ⟨30, 30, .ro, .powerOn, 0x0, false⟩, ⟨29, 29, .ro, .powerOn, 0x0, false⟩, ⟨28, 28, .ro, .powerOn, 0x0, false⟩, ⟨27, 27, .ro, .powerOn, 0x0, false⟩, ⟨15, 0, .ro, .powerOn, 0x0, false⟩]⟩,
  ⟨0x3ff000300008, [], false, [⟨15, 0, .ro, .powerOn, 0x0, false⟩]⟩,
  ⟨0x3ff000300010, [], false, [⟨15, 0, .ro, .powerOn, 0x0, false⟩]⟩,
  ⟨0x3ff000300100, [(0x8, 2)], true, [⟨63, 48, .ro, .hub, 0x0, false⟩, ⟨47, 32, .ro, .hub, 0x0, false⟩, ⟨31, 16, .ro, .hub, 0x0, false⟩, ⟨15, 0, .ro, .hub, 0x0, false⟩]⟩,
  ⟨0x3ff000300200, [], false, [⟨7, 0, .rw, .hub, 0x64, false⟩]⟩,
  ⟨0x3ff000300208, [], false, [⟨31, 0, .rc, .hub, 0x0, false⟩]⟩,
  ⟨0x3ff000300210, [], false, [⟨31, 0, .rc, .hub, 0x0, false⟩]⟩,
  ⟨0x3ff000301000, [(0x8, 96)], false, [⟨31, 31, .ro, .hub, 0x0, false⟩, ⟨30, 30, .ro, .hub, 0x0, false⟩, ⟨29, 29, .ro, .hub, 0x0, false⟩, ⟨15, 0, .ro, .hub, 0x0, false⟩]⟩,
  ⟨0x3ff000302000, [(0x10, 68)], false, [⟨31, 21, .ro, .region, 0x0, false⟩, ⟨20, 16, .ro, .region, 0x0, false⟩, ⟨15, 8, .ro, .region, 0x0, false⟩]⟩,
  ⟨0x3ff000302008, [(0x10, 68)], false, [⟨4, 0, .rw, .hub, 0x10, false⟩]⟩,
  ⟨0x3ff000303000, [(0x8, 68)], false, [⟨16, 16, .w1c, .region, 0x0, false⟩, ⟨15, 8, .ro, .region, 0x0, false⟩, ⟨7, 0, .ro, .region, 0x0, false⟩]⟩]

/-- Descriptions of the age block. -/
def descsAge : List RegDesc := [
  ⟨0x3ff000400000, [(0x10, 96)], false, [⟨23, 16, .ro, .hub, 0x0, false⟩, ⟨15, 0, .ro, .hub, 0x0, false⟩]⟩,
  ⟨0x3ff000400008, [(0x10, 96)], false, [⟨23, 16, .ro, .powerOn, 0xb4, false⟩, ⟨15, 0, .ro, .powerOn, 0x64, false⟩]⟩,
  ⟨0x3ff000401000, [], false, [⟨31, 31, .ro, .hub, 0x0, false⟩, ⟨30, 30, .ro, .hub, 0x0, false⟩, ⟨29, 29, .ro, .hub, 0x0, false⟩, ⟨15, 0, .ro, .hub, 0x0, false⟩]⟩,
  ⟨0x3ff000401008, [], false, [⟨31, 16, .ro, .hub, 0x0, false⟩, ⟨15, 0, .ro, .hub, 0x0, false⟩]⟩,
  ⟨0x3ff000401010, [], false, [⟨31, 0, .ro, .hub, 0x0, false⟩]⟩]

/-- Descriptions of the saf block. -/
def descsSaf : List RegDesc := [
  ⟨0x3ff000500000, [], false, [⟨31, 31, .ro, .powerOn, 0x0, false⟩, ⟨30, 30, .ro, .hub, 0x0, false⟩, ⟨29, 29, .ro, .module, 0x0, false⟩, ⟨28, 28, .ro, .tenancy, 0x0, false⟩, ⟨19, 16, .ro, .hub, 0x0, false⟩, ⟨15, 0, .ro, .hub, 0x0, false⟩]⟩,
  ⟨0x3ff000500008, [], false, [⟨31, 0, .ro, .module, 0x0, false⟩]⟩,
  ⟨0x3ff000500100, [], false, [⟨31, 31, .w1c, .hub, 0x0, false⟩, ⟨30, 30, .w1c, .hub, 0x0, false⟩, ⟨29, 29, .ro, .hub, 0x0, false⟩, ⟨27, 24, .ro, .hub, 0x0, false⟩, ⟨15, 8, .ro, .hub, 0x0, false⟩, ⟨7, 0, .ro, .hub, 0x0, false⟩]⟩,
  ⟨0x3ff000500108, [], true, [⟨63, 0, .ro, .hub, 0x0, false⟩]⟩,
  ⟨0x3ff000500200, [], false, [⟨5, 0, .rw, .hub, 0x32, false⟩]⟩,
  ⟨0x3ff000500300, [], false, [⟨31, 0, .rc, .hub, 0x0, false⟩]⟩,
  ⟨0x3ff000500308, [], false, [⟨31, 0, .rc, .hub, 0x0, false⟩]⟩,
  ⟨0x3ff000500310, [], false, [⟨31, 0, .rc, .hub, 0x0, false⟩]⟩,
  ⟨0x3ff000500318, [], false, [⟨31, 0, .rc, .hub, 0x0, false⟩]⟩,
  ⟨0x3ff000500320, [], false, [⟨31, 0, .rc, .hub, 0x0, false⟩]⟩,
  ⟨0x3ff000501000, [(0x8, 68)], false, [⟨31, 31, .ro, .hub, 0x0, false⟩, ⟨30, 30, .w1c, .hub, 0x0, false⟩, ⟨15, 0, .ro, .hub, 0x0, false⟩]⟩]

/-- Descriptions of the sec block (management only). -/
def descsSec : List RegDesc := [
  ⟨0x3ff000600000, [], false, [⟨31, 29, .ro, .kept, 0x1, true⟩, ⟨28, 26, .ro, .hub, 0x0, true⟩, ⟨25, 25, .ro, .hub, 0x0, true⟩, ⟨24, 24, .ro, .hub, 0x0, true⟩, ⟨23, 23, .ro, .module, 0x0, true⟩, ⟨22, 22, .ro, .hub, 0x0, true⟩, ⟨15, 0, .ro, .kept, 0x1ff, true⟩]⟩,
  ⟨0x3ff000600100, [], false, [⟨31, 31, .ro, .hub, 0x0, true⟩, ⟨30, 30, .ro, .powerOn, 0x0, true⟩, ⟨29, 27, .ro, .hub, 0x0, true⟩, ⟨23, 16, .ro, .powerOn, 0x0, true⟩]⟩,
  ⟨0x3ff000600108, [], false, [⟨31, 0, .ro, .kept, 0x0, true⟩]⟩,
  ⟨0x3ff000600200, [], false, [⟨31, 31, .ro, .module, 0x0, true⟩, ⟨30, 30, .ro, .module, 0x0, true⟩, ⟨23, 16, .ro, .powerOn, 0x0, true⟩, ⟨15, 8, .ro, .module, 0x0, true⟩, ⟨7, 0, .ro, .module, 0x0, true⟩]⟩,
  ⟨0x3ff000600300, [], true, [⟨63, 63, .ro, .hub, 0x0, true⟩, ⟨62, 62, .ro, .hub, 0x0, true⟩, ⟨61, 46, .ro, .hub, 0x0, true⟩, ⟨45, 21, .ro, .hub, 0x0, true⟩]⟩,
  ⟨0x3ff000600400, [], true, [⟨63, 0, .ro, .module, 0x0, true⟩]⟩]

/-- Descriptions of the reg block. -/
def descsReg : List RegDesc := [
  ⟨0x3ff000700000, [], true, [⟨63, 63, .ro, .hub, 0x0, false⟩, ⟨39, 36, .ro, .hub, 0x0, false⟩, ⟨35, 32, .ro, .hub, 0x0, false⟩, ⟨31, 16, .ro, .hub, 0x0, false⟩, ⟨15, 0, .ro, .hub, 0x0, false⟩]⟩,
  ⟨0x3ff000700010, [], false, [⟨23, 16, .rw, .hub, 0x1, false⟩, ⟨15, 8, .rw, .hub, 0x4, false⟩, ⟨7, 0, .rw, .hub, 0xc, false⟩]⟩,
  ⟨0x3ff000700018, [], false, [⟨15, 12, .rw, .hub, 0xc, false⟩, ⟨11, 8, .rw, .hub, 0x6, false⟩, ⟨7, 0, .rw, .hub, 0x4, false⟩]⟩,
  ⟨0x3ff000700020, [], false, [⟨31, 31, .w1c, .hub, 0x0, false⟩, ⟨30, 30, .w1c, .hub, 0x0, false⟩, ⟨29, 28, .ro, .hub, 0x0, false⟩, ⟨27, 24, .ro, .hub, 0x0, false⟩, ⟨15, 8, .ro, .hub, 0x0, false⟩]⟩,
  ⟨0x3ff000700028, [], true, [⟨63, 0, .ro, .hub, 0x0, false⟩]⟩,
  ⟨0x3ff000700030, [], false, [⟨31, 0, .rc, .hub, 0x0, false⟩]⟩,
  ⟨0x3ff000700038, [], false, [⟨31, 0, .rc, .hub, 0x0, false⟩]⟩,
  ⟨0x3ff000700100, [(0x40, 16)], true, [⟨47, 32, .rw, .hub, 0x40, false⟩, ⟨31, 16, .rw, .hub, 0x80, false⟩, ⟨15, 0, .rw, .hub, 0x80, false⟩]⟩,
  ⟨0x3ff000700108, [(0x40, 16)], false, [⟨7, 0, .rw, .hub, 0x10, false⟩]⟩,
  ⟨0x3ff000700110, [(0x40, 16)], false, [⟨6, 0, .rw, .hub, 0x40, false⟩]⟩,
  ⟨0x3ff000700118, [(0x40, 16)], false, [⟨9, 0, .rw, .hub, 0x3ff, false⟩]⟩,
  ⟨0x3ff000700120, [(0x40, 16)], false, [⟨31, 0, .rc, .hub, 0x0, false⟩]⟩,
  ⟨0x3ff000701000, [(0x4, 150)], false, [⟨3, 0, .rw, .hub, 0x0, false⟩]⟩,
  ⟨0x3ff000702000, [(0x100, 16), (0x40, 2), (0x8, 4)], true, [⟨63, 0, .rc, .hub, 0x0, false⟩]⟩]

/-- Descriptions of the xlt block. -/
def descsXlt : List RegDesc := [
  ⟨0x3ff000800000, [], false, [⟨31, 31, .w1c, .tenancy, 0x0, false⟩, ⟨30, 30, .w1c, .tenancy, 0x0, false⟩, ⟨29, 27, .ro, .tenancy, 0x0, false⟩, ⟨26, 25, .ro, .tenancy, 0x0, false⟩, ⟨24, 21, .ro, .tenancy, 0x0, false⟩, ⟨11, 0, .ro, .tenancy, 0x0, false⟩]⟩,
  ⟨0x3ff000800008, [], true, [⟨63, 0, .ro, .tenancy, 0x0, false⟩]⟩,
  ⟨0x3ff000800010, [], false, [⟨11, 0, .ro, .tenancy, 0x0, false⟩]⟩,
  ⟨0x3ff000800100, [], true, [⟨63, 0, .rc, .hub, 0x0, false⟩]⟩,
  ⟨0x3ff000800108, [], false, [⟨31, 0, .rc, .hub, 0x0, false⟩]⟩,
  ⟨0x3ff000800110, [], true, [⟨63, 0, .rc, .hub, 0x0, false⟩]⟩,
  ⟨0x3ff000800400, [(0x40, 16)], false, [⟨31, 31, .w1s, .tenancy, 0x0, false⟩, ⟨30, 30, .ro, .tenancy, 0x0, false⟩, ⟨29, 29, .ro, .tenancy, 0x0, false⟩, ⟨28, 28, .rw, .tenancy, 0x0, false⟩, ⟨27, 27, .rw, .tenancy, 0x0, false⟩, ⟨26, 14, .rw, .tenancy, 0x0, false⟩, ⟨11, 0, .rw, .tenancy, 0x0, false⟩]⟩,
  ⟨0x3ff000800408, [(0x40, 16)], true, [⟨54, 16, .rw, .tenancy, 0x0, false⟩]⟩,
  ⟨0x3ff000800410, [(0x40, 16)], true, [⟨63, 0, .rw, .tenancy, 0x0, false⟩]⟩,
  ⟨0x3ff000800418, [(0x40, 16)], false, [⟨31, 0, .ro, .tenancy, 0x0, false⟩]⟩,
  ⟨0x3ff000810000, [(0x8, 4096)], true, [⟨63, 63, .ro, .tenancy, 0x0, false⟩, ⟨62, 62, .ro, .tenancy, 0x0, false⟩, ⟨61, 61, .ro, .tenancy, 0x0, false⟩, ⟨45, 16, .ro, .tenancy, 0x0, false⟩]⟩]

/-- Descriptions of the coh block. -/
def descsCoh : List RegDesc := [
  ⟨0x3ff000900000, [], false, [⟨31, 31, .rw, .hub, 0x1, false⟩, ⟨15, 0, .rw, .hub, 0x14, false⟩]⟩,
  ⟨0x3ff000900040, [(0x8, 8)], false, [⟨31, 31, .ro, .region, 0x0, false⟩, ⟨15, 0, .ro, .hub, 0x0, false⟩]⟩,
  ⟨0x3ff000900080, [], false, [⟨31, 31, .ro, .hub, 0x0, false⟩, ⟨15, 0, .ro, .hub, 0x0, false⟩]⟩,
  ⟨0x3ff000900100, [], true, [⟨63, 63, .w1s, .hub, 0x0, false⟩, ⟨62, 62, .ro, .hub, 0x0, false⟩, ⟨45, 7, .rw, .hub, 0x0, false⟩]⟩,
  ⟨0x3ff000900108, [], true, [⟨63, 0, .ro, .hub, 0x0, false⟩]⟩,
  ⟨0x3ff000900110, [], true, [⟨63, 0, .ro, .hub, 0x0, false⟩]⟩,
  ⟨0x3ff000900200, [], true, [⟨63, 0, .rc, .hub, 0x0, false⟩]⟩,
  ⟨0x3ff000900208, [], true, [⟨63, 0, .rc, .hub, 0x0, false⟩]⟩,
  ⟨0x3ff000900210, [], true, [⟨63, 0, .rc, .hub, 0x0, false⟩]⟩,
  ⟨0x3ff000900218, [], true, [⟨63, 0, .rc, .hub, 0x0, false⟩]⟩,
  ⟨0x3ff000900220, [], false, [⟨31, 0, .rc, .hub, 0x0, false⟩]⟩]

/-- Descriptions of the cxl block. -/
def descsCxl : List RegDesc := [
  ⟨0x3ff000a00000, [], false, [⟨5, 4, .rw, .hub, 0x1, false⟩, ⟨3, 2, .rw, .hub, 0x1, false⟩]⟩,
  ⟨0x3ff000a00008, [], false, [⟨31, 31, .ro, .hub, 0x0, false⟩, ⟨30, 30, .ro, .hub, 0x0, false⟩, ⟨29, 29, .ro, .hub, 0x0, false⟩, ⟨28, 28, .ro, .flr, 0x0, false⟩, ⟨12, 8, .ro, .hub, 0x0, false⟩, ⟨7, 4, .ro, .hub, 0x0, false⟩, ⟨3, 0, .ro, .hub, 0x0, false⟩]⟩,
  ⟨0x3ff000a00100, [(0x8, 4)], true, [⟨63, 38, .rw, .flr, 0x0, false⟩]⟩,
  ⟨0x3ff000a01000, [(0x20, 64)], true, [⟨63, 63, .rw, .hub, 0x0, false⟩, ⟨43, 21, .rw, .hub, 0x0, false⟩]⟩,
  ⟨0x3ff000a01008, [(0x20, 64)], true, [⟨51, 21, .rw, .hub, 0x0, false⟩]⟩,
  ⟨0x3ff000a01010, [(0x20, 64)], true, [⟨43, 21, .rw, .hub, 0x0, false⟩]⟩]

/-- Descriptions of the mbx block. -/
def descsMbx : List RegDesc := [
  ⟨0x3ff001002000, [(0x10000, 28)], false, [⟨0, 0, .w1s, .hub, 0x0, false⟩]⟩,
  ⟨0x3ff001002008, [(0x10000, 28)], false, [⟨31, 30, .ro, .hub, 0x0, false⟩, ⟨29, 29, .w1c, .hub, 0x0, false⟩, ⟨28, 28, .ro, .hub, 0x0, false⟩, ⟨23, 16, .ro, .hub, 0x0, false⟩, ⟨15, 0, .ro, .hub, 0x0, false⟩]⟩,
  ⟨0x3ff001002010, [(0x10000, 16)], false, [⟨31, 28, .rw, .hub, 0x1, false⟩, ⟨15, 0, .rw, .hub, 0x0, false⟩]⟩,
  ⟨0x3ff001102010, [(0x10000, 8)], false, [⟨31, 28, .rw, .hub, 0x4, false⟩, ⟨15, 0, .rw, .hub, 0x0, false⟩]⟩,
  ⟨0x3ff001182010, [(0x10000, 4)], false, [⟨31, 28, .rw, .hub, 0x0, false⟩, ⟨15, 0, .rw, .hub, 0x0, false⟩]⟩,
  ⟨0x3ff001002018, [(0x10000, 28)], false, [⟨31, 0, .rc, .hub, 0x0, false⟩]⟩,
  ⟨0x3ff001200000, [], false, [⟨31, 0, .rc, .hub, 0x0, true⟩]⟩]

/-- Descriptions of the site block. -/
def descsSite : List RegDesc := [
  ⟨0x3ff002000000, [(0x200000, 8)], false, [⟨31, 31, .ro, .region, 0x0, false⟩, ⟨30, 30, .ro, .hub, 0x1, false⟩, ⟨29, 29, .ro, .powerOn, 0x0, false⟩, ⟨28, 28, .ro, .hub, 0x0, false⟩, ⟨27, 27, .ro, .hub, 0x0, false⟩, ⟨26, 24, .ro, .region, 0x0, false⟩, ⟨23, 16, .ro, .hub, 0x0, false⟩, ⟨11, 0, .ro, .region, 0x0, false⟩]⟩,
  ⟨0x3ff002000100, [(0x200000, 8)], true, [⟨63, 56, .ro, .region, 0x0, false⟩, ⟨55, 45, .ro, .region, 0x0, false⟩, ⟨44, 34, .ro, .region, 0x0, false⟩, ⟨33, 23, .ro, .region, 0x0, false⟩, ⟨22, 12, .ro, .region, 0x0, false⟩, ⟨7, 0, .ro, .region, 0x0, false⟩]⟩,
  ⟨0x3ff002000200, [(0x200000, 8), (0x8, 9)], false, [⟨31, 0, .ro, .region, 0x0, false⟩]⟩,
  ⟨0x3ff002001000, [(0x200000, 8), (0x100, 12)], false, [⟨31, 31, .ro, .region, 0x0, false⟩, ⟨30, 30, .ro, .region, 0x0, false⟩, ⟨24, 21, .ro, .region, 0x0, false⟩, ⟨20, 19, .ro, .region, 0x0, false⟩, ⟨18, 17, .ro, .region, 0x0, false⟩]⟩,
  ⟨0x3ff002001010, [(0x200000, 8), (0x100, 12)], false, [⟨31, 0, .rc, .hub, 0x0, false⟩]⟩,
  ⟨0x3ff002001018, [(0x200000, 8), (0x100, 12)], false, [⟨31, 0, .rc, .hub, 0x0, false⟩]⟩,
  ⟨0x3ff002001020, [(0x200000, 8), (0x100, 12)], false, [⟨31, 0, .rc, .hub, 0x0, false⟩]⟩]

/-- Descriptions of the tks block. -/
def descsTks : List RegDesc := [
  ⟨0x3ff003000000, [(0x200000, 8)], false, [⟨31, 31, .ro, .region, 0x0, false⟩, ⟨30, 28, .ro, .region, 0x0, false⟩, ⟨27, 27, .ro, .region, 0x0, false⟩, ⟨20, 18, .ro, .region, 0x0, false⟩, ⟨17, 0, .ro, .region, 0x0, false⟩]⟩,
  ⟨0x3ff003000008, [(0x200000, 8)], true, [⟨47, 0, .ro, .powerOn, 0x0, false⟩]⟩,
  ⟨0x3ff003000100, [(0x200000, 8), (0x20, 4)], false, [⟨11, 0, .ro, .region, 0x80, false⟩]⟩,
  ⟨0x3ff003000108, [(0x200000, 8), (0x20, 4)], false, [⟨11, 0, .ro, .region, 0x200, false⟩]⟩,
  ⟨0x3ff003000110, [(0x200000, 8), (0x20, 4)], false, [⟨11, 0, .ro, .region, 0x500, false⟩]⟩,
  ⟨0x3ff003000118, [(0x200000, 8), (0x20, 4)], false, [⟨11, 0, .ro, .region, 0x80, false⟩]⟩,
  ⟨0x3ff003000200, [(0x200000, 8)], true, [⟨63, 0, .rc, .hub, 0x0, false⟩]⟩,
  ⟨0x3ff003000208, [(0x200000, 8)], true, [⟨63, 0, .rc, .hub, 0x0, false⟩]⟩,
  ⟨0x3ff003000210, [(0x200000, 8)], false, [⟨31, 0, .rc, .hub, 0x0, false⟩]⟩,
  ⟨0x3ff003000218, [(0x200000, 8)], false, [⟨31, 0, .rc, .hub, 0x0, false⟩]⟩,
  ⟨0x3ff003000220, [(0x200000, 8)], true, [⟨63, 0, .rc, .hub, 0x0, false⟩]⟩,
  ⟨0x3ff003000228, [(0x200000, 8)], false, [⟨31, 0, .rc, .hub, 0x0, false⟩]⟩,
  ⟨0x3ff003000230, [(0x200000, 8)], false, [⟨31, 0, .rc, .hub, 0x0, false⟩]⟩,
  ⟨0x3ff003000238, [(0x200000, 8)], false, [⟨31, 0, .rc, .hub, 0x0, false⟩]⟩,
  ⟨0x3ff003000240, [(0x200000, 8)], false, [⟨31, 0, .rc, .hub, 0x0, false⟩]⟩,
  ⟨0x3ff003000248, [(0x200000, 8)], false, [⟨31, 0, .rc, .hub, 0x0, false⟩]⟩,
  ⟨0x3ff003000250, [(0x200000, 8)], false, [⟨31, 0, .rc, .hub, 0x0, false⟩]⟩,
  ⟨0x3ff003100000, [(0x4, 512)], false, [⟨15, 15, .rw, .kept, 0x0, true⟩, ⟨14, 14, .rw, .kept, 0x0, true⟩, ⟨13, 13, .rw, .kept, 0x0, true⟩, ⟨12, 12, .rw, .kept, 0x0, true⟩, ⟨6, 4, .rw, .kept, 0x0, true⟩, ⟨2, 0, .rw, .kept, 0x0, true⟩]⟩,
  ⟨0x3ff003101000, [(0x4, 512)], false, [⟨15, 15, .rw, .kept, 0x0, true⟩, ⟨14, 14, .rw, .kept, 0x0, true⟩, ⟨13, 13, .rw, .kept, 0x0, true⟩, ⟨12, 12, .rw, .kept, 0x0, true⟩, ⟨6, 4, .rw, .kept, 0x0, true⟩, ⟨2, 0, .rw, .kept, 0x0, true⟩]⟩,
  ⟨0x3ff003102000, [], false, [⟨31, 31, .ro, .hub, 0x0, false⟩, ⟨17, 0, .ro, .hub, 0x0, false⟩]⟩,
  ⟨0x3ff003102008, [], false, [⟨15, 0, .rw, .hub, 0x0, true⟩]⟩,
  ⟨0x3ff003102010, [], false, [⟨5, 0, .rw, .hub, 0x20, false⟩]⟩,
  ⟨0x3ff003102100, [], false, [⟨31, 31, .w1c, .hub, 0x0, false⟩, ⟨30, 30, .w1c, .hub, 0x0, false⟩, ⟨29, 26, .ro, .hub, 0x0, false⟩, ⟨25, 20, .ro, .hub, 0x0, false⟩, ⟨17, 0, .ro, .hub, 0x0, false⟩]⟩,
  ⟨0x3ff003102108, [], true, [⟨63, 0, .ro, .hub, 0x0, false⟩]⟩,
  ⟨0x3ff003102200, [], false, [⟨31, 0, .rc, .hub, 0x0, false⟩]⟩,
  ⟨0x3ff003102208, [], false, [⟨31, 0, .rc, .hub, 0x0, false⟩]⟩,
  ⟨0x3ff003102210, [], false, [⟨31, 0, .rc, .hub, 0x0, false⟩]⟩,
  ⟨0x3ff003102218, [], false, [⟨31, 0, .rc, .hub, 0x0, false⟩]⟩,
  ⟨0x3ff003102220, [], false, [⟨31, 0, .ro, .hub, 0x0, false⟩]⟩]

/-- Descriptions of the ss block. -/
def descsSs : List RegDesc := [
  ⟨0x3ff008000000, [(0x10000, 256)], false, [⟨31, 24, .ro, .hub, 0xff, false⟩, ⟨23, 16, .ro, .hub, 0x0, false⟩, ⟨15, 8, .ro, .hub, 0x0, false⟩, ⟨0, 0, .ro, .hub, 0x0, false⟩]⟩,
  ⟨0x3ff008000100, [(0x10000, 256)], true, [⟨63, 0, .rc, .region, 0x0, false⟩]⟩,
  ⟨0x3ff008000108, [(0x10000, 256)], true, [⟨63, 0, .rc, .region, 0x0, false⟩]⟩,
  ⟨0x3ff008000110, [(0x10000, 256)], false, [⟨31, 0, .rc, .region, 0x0, false⟩]⟩,
  ⟨0x3ff008000118, [(0x10000, 256)], false, [⟨31, 0, .rc, .region, 0x0, false⟩]⟩,
  ⟨0x3ff008000120, [(0x10000, 256)], false, [⟨31, 0, .rc, .hub, 0x0, false⟩]⟩,
  ⟨0x3ff008000128, [(0x10000, 256)], false, [⟨31, 0, .rc, .hub, 0x0, false⟩]⟩,
  ⟨0x3ff008000130, [(0x10000, 256)], false, [⟨31, 0, .rc, .hub, 0x0, false⟩]⟩]

/-- Descriptions of the hbm block. -/
def descsHbm : List RegDesc := [
  ⟨0x3ff009000000, [(0x200000, 6)], false, [⟨31, 31, .ro, .hub, 0x0, false⟩, ⟨30, 30, .ro, .hub, 0x0, false⟩, ⟨29, 28, .ro, .hub, 0x0, false⟩, ⟨27, 26, .ro, .hub, 0x0, false⟩, ⟨15, 8, .ro, .hub, 0x0, false⟩, ⟨7, 0, .ro, .hub, 0x0, false⟩]⟩,
  ⟨0x3ff009000008, [(0x200000, 6)], false, [⟨31, 0, .ro, .hub, 0x0, false⟩]⟩,
  ⟨0x3ff009000100, [(0x200000, 6)], false, [⟨31, 0, .rc, .hub, 0x0, false⟩]⟩,
  ⟨0x3ff009000108, [(0x200000, 6)], false, [⟨31, 0, .rc, .hub, 0x0, false⟩]⟩,
  ⟨0x3ff009000110, [(0x200000, 6)], true, [⟨63, 0, .rc, .hub, 0x0, false⟩]⟩]

/-- Descriptions of the ctx block. -/
def descsCtx : List RegDesc := [
  ⟨0x3ff00a000000, [(0x40000, 64)], false, [⟨31, 31, .w1c, .tenancy, 0x0, false⟩, ⟨30, 30, .w1c, .tenancy, 0x0, false⟩, ⟨29, 27, .ro, .tenancy, 0x0, false⟩, ⟨23, 16, .ro, .tenancy, 0x0, false⟩, ⟨11, 0, .ro, .tenancy, 0x0, false⟩]⟩,
  ⟨0x3ff00a000008, [(0x40000, 64)], true, [⟨63, 0, .ro, .tenancy, 0x0, false⟩]⟩,
  ⟨0x3ff00a000100, [(0x40000, 64)], true, [⟨63, 0, .rc, .hub, 0x0, false⟩]⟩,
  ⟨0x3ff00a000108, [(0x40000, 64)], false, [⟨31, 0, .rc, .hub, 0x0, false⟩]⟩,
  ⟨0x3ff00a000110, [(0x40000, 64)], false, [⟨31, 0, .rc, .hub, 0x0, false⟩]⟩,
  ⟨0x3ff00a000118, [(0x40000, 64)], false, [⟨31, 0, .rc, .hub, 0x0, false⟩]⟩,
  ⟨0x3ff00a001000, [(0x40000, 64), (0x100, 8)], true, [⟨63, 63, .ro, .tenancy, 0x0, false⟩, ⟨62, 62, .ro, .tenancy, 0x0, false⟩, ⟨61, 56, .ro, .tenancy, 0x0, false⟩, ⟨55, 44, .ro, .tenancy, 0x0, false⟩, ⟨43, 28, .ro, .tenancy, 0x0, false⟩, ⟨27, 16, .ro, .tenancy, 0x0, false⟩, ⟨15, 14, .ro, .tenancy, 0x0, false⟩]⟩,
  ⟨0x3ff00a001008, [(0x40000, 64), (0x100, 8)], true, [⟨54, 12, .rw, .tenancy, 0x0, false⟩, ⟨2, 0, .rw, .tenancy, 0x0, false⟩]⟩,
  ⟨0x3ff00a001010, [(0x40000, 64), (0x100, 8)], false, [⟨11, 0, .rw, .tenancy, 0x0, false⟩]⟩,
  ⟨0x3ff00a001018, [(0x40000, 64), (0x100, 8)], false, [⟨11, 0, .ro, .tenancy, 0x0, false⟩]⟩,
  ⟨0x3ff00b000000, [], false, [⟨31, 31, .ro, .tenancy, 0x0, false⟩, ⟨30, 30, .ro, .tenancy, 0x0, false⟩, ⟨23, 16, .ro, .tenancy, 0x0, false⟩, ⟨15, 8, .ro, .tenancy, 0x0, false⟩]⟩,
  ⟨0x3ff00b000008, [], true, [⟨63, 0, .ro, .tenancy, 0x0, false⟩]⟩,
  ⟨0x3ff00b000010, [], true, [⟨63, 0, .ro, .tenancy, 0x0, false⟩]⟩,
  ⟨0x3ff00b000018, [], false, [⟨31, 0, .ro, .tenancy, 0x0, false⟩]⟩,
  ⟨0x3ff00b000020, [], false, [⟨31, 0, .ro, .tenancy, 0x0, false⟩]⟩,
  ⟨0x3ff00b000100, [(0x10, 4)], true, [⟨63, 0, .ro, .tenancy, 0x0, false⟩]⟩,
  ⟨0x3ff00b000108, [(0x10, 4)], true, [⟨63, 0, .ro, .tenancy, 0x0, false⟩]⟩,
  ⟨0x3ff00b000208, [], true, [⟨63, 0, .ro, .tenancy, 0x0, false⟩]⟩,
  ⟨0x3ff00b000210, [], true, [⟨63, 0, .ro, .tenancy, 0x0, false⟩]⟩]

/-- Descriptions of the sync block. -/
def descsSync : List RegDesc := [
  ⟨0x3ff010000000, [(0x1000, 8192)], true, [⟨63, 0, .rw, .tenancy, 0x0, false⟩]⟩,
  ⟨0x3ff010000008, [(0x1000, 8192)], true, [⟨63, 0, .wo, .tenancy, 0x0, false⟩]⟩,
  ⟨0x3ff010000010, [(0x1000, 8192)], true, [⟨63, 0, .wo, .tenancy, 0x0, false⟩]⟩,
  ⟨0x3ff010000018, [(0x1000, 8192)], false, [⟨31, 31, .w1c, .tenancy, 0x0, false⟩, ⟨30, 30, .w1c, .tenancy, 0x0, false⟩, ⟨29, 28, .ro, .tenancy, 0x0, false⟩, ⟨27, 22, .ro, .tenancy, 0x0, false⟩, ⟨11, 0, .ro, .tenancy, 0x0, false⟩]⟩,
  ⟨0x3ff010000040, [(0x1000, 8192), (0x20, 2)], true, [⟨63, 0, .rw, .tenancy, 0x0, false⟩]⟩,
  ⟨0x3ff010000048, [(0x1000, 8192), (0x20, 2)], true, [⟨63, 60, .rw, .tenancy, 0x0, false⟩, ⟨59, 58, .rw, .tenancy, 0x0, false⟩, ⟨57, 45, .rw, .tenancy, 0x0, false⟩, ⟨31, 0, .rw, .tenancy, 0x0, false⟩]⟩,
  ⟨0x3ff010000050, [(0x1000, 8192), (0x20, 2)], true, [⟨63, 0, .rw, .tenancy, 0x0, false⟩]⟩,
  ⟨0x3ff012000000, [(0x8, 2)], false, [⟨31, 0, .rc, .hub, 0x0, false⟩]⟩]

/-- Descriptions of the bench block. -/
def descsBench : List RegDesc := [
  ⟨0x3ff040000100, [(0x100000, 68)], false, [⟨31, 0, .rc, .region, 0x0, false⟩]⟩,
  ⟨0x3ff040000108, [(0x100000, 68)], false, [⟨31, 0, .rc, .region, 0x0, false⟩]⟩,
  ⟨0x3ff040000110, [(0x100000, 68)], false, [⟨31, 0, .rc, .region, 0x0, false⟩]⟩,
  ⟨0x3ff040000118, [(0x100000, 68)], false, [⟨31, 0, .ro, .region, 0x0, false⟩]⟩,
  ⟨0x3ff040000120, [(0x100000, 68)], false, [⟨31, 0, .ro, .region, 0x0, false⟩]⟩,
  ⟨0x3ff040000200, [(0x100000, 68), (0x8, 6)], false, [⟨15, 8, .ro, .tenancy, 0x0, false⟩, ⟨7, 0, .ro, .tenancy, 0x0, false⟩]⟩,
  ⟨0x3ff040000240, [(0x100000, 68)], false, [⟨9, 0, .ro, .tenancy, 0x0, false⟩]⟩]

/-- Descriptions of the tile block. -/
def descsTile : List RegDesc := [
  ⟨0x3ff100000100, [(0x100000, 2176)], false, [⟨31, 31, .ro, .tenancy, 0x0, false⟩, ⟨30, 30, .ro, .tenancy, 0x0, false⟩, ⟨29, 29, .ro, .tenancy, 0x0, false⟩, ⟨28, 23, .ro, .tenancy, 0x0, false⟩, ⟨22, 11, .ro, .tenancy, 0x0, false⟩, ⟨10, 0, .ro, .hub, 0x0, false⟩]⟩,
  ⟨0x3ff100000108, [(0x100000, 2176)], false, [⟨10, 0, .ro, .tenancy, 0x0, false⟩]⟩,
  ⟨0x3ff100000200, [(0x100000, 2176)], false, [⟨31, 31, .ro, .kill, 0x0, false⟩, ⟨30, 30, .ro, .kill, 0x0, false⟩, ⟨27, 24, .ro, .kill, 0x0, false⟩, ⟨19, 16, .ro, .kill, 0x0, false⟩, ⟨15, 0, .ro, .kill, 0x0, false⟩]⟩,
  ⟨0x3ff100000208, [(0x100000, 2176)], false, [⟨15, 0, .rw, .kill, 0x0, false⟩]⟩,
  ⟨0x3ff100000210, [(0x100000, 2176)], false, [⟨0, 0, .w1s, .kill, 0x0, false⟩]⟩,
  ⟨0x3ff100000220, [(0x100000, 2176), (0x10, 4)], false, [⟨31, 0, .ro, .kill, 0x0, false⟩]⟩,
  ⟨0x3ff100000228, [(0x100000, 2176), (0x10, 4)], false, [⟨31, 16, .ro, .kill, 0x0, false⟩, ⟨15, 0, .ro, .kill, 0x0, false⟩]⟩,
  ⟨0x3ff100000280, [(0x100000, 2176)], false, [⟨31, 0, .rc, .kill, 0x0, false⟩]⟩,
  ⟨0x3ff100000288, [(0x100000, 2176)], false, [⟨31, 0, .rc, .kill, 0x0, false⟩]⟩,
  ⟨0x3ff100000300, [(0x100000, 2176)], false, [⟨0, 0, .rw, .kill, 0x0, false⟩]⟩,
  ⟨0x3ff100000400, [(0x100000, 2176)], false, [⟨8, 8, .rw, .kill, 0x0, false⟩, ⟨7, 7, .rw, .kill, 0x0, false⟩, ⟨6, 6, .rw, .kill, 0x0, false⟩, ⟨5, 5, .rw, .kill, 0x1, false⟩, ⟨2, 0, .rw, .kill, 0x0, false⟩]⟩,
  ⟨0x3ff100000408, [(0x100000, 2176)], false, [⟨7, 7, .ro, .kill, 0x0, false⟩, ⟨6, 6, .w1c, .kill, 0x0, false⟩, ⟨5, 5, .w1c, .kill, 0x0, false⟩, ⟨4, 4, .w1c, .kill, 0x0, false⟩, ⟨3, 3, .w1c, .kill, 0x0, false⟩, ⟨2, 2, .w1c, .kill, 0x0, false⟩, ⟨1, 1, .w1c, .kill, 0x0, false⟩, ⟨0, 0, .w1c, .kill, 0x0, false⟩]⟩,
  ⟨0x3ff100000410, [(0x100000, 2176)], false, [⟨31, 0, .rw, .kill, 0x0, false⟩]⟩,
  ⟨0x3ff100000600, [(0x100000, 2176)], false, [⟨31, 31, .w1c, .tenancy, 0x0, false⟩, ⟨30, 30, .w1c, .tenancy, 0x0, false⟩, ⟨23, 16, .ro, .tenancy, 0x0, false⟩, ⟨11, 8, .ro, .tenancy, 0x0, false⟩, ⟨7, 0, .ro, .tenancy, 0x0, false⟩]⟩,
  ⟨0x3ff100000608, [(0x100000, 2176)], true, [⟨63, 0, .ro, .tenancy, 0x0, false⟩]⟩,
  ⟨0x3ff100000610, [(0x100000, 2176)], false, [⟨11, 0, .ro, .tenancy, 0x0, false⟩]⟩,
  ⟨0x3ff100000700, [(0x100000, 2176)], false, [⟨31, 0, .rc, .hub, 0x0, false⟩]⟩,
  ⟨0x3ff100000708, [(0x100000, 2176)], false, [⟨31, 0, .rc, .hub, 0x0, false⟩]⟩,
  ⟨0x3ff100000710, [(0x100000, 2176)], false, [⟨31, 0, .rc, .kill, 0x0, false⟩]⟩,
  ⟨0x3ff100000718, [(0x100000, 2176)], false, [⟨31, 0, .rc, .kill, 0x0, false⟩]⟩,
  ⟨0x3ff100000720, [(0x100000, 2176)], false, [⟨31, 0, .rc, .hub, 0x0, false⟩]⟩,
  ⟨0x3ff100000800, [(0x100000, 2176), (0x20, 4)], false, [⟨31, 31, .ro, .kill, 0x0, false⟩, ⟨30, 30, .ro, .kill, 0x0, false⟩, ⟨29, 27, .ro, .kill, 0x0, false⟩, ⟨18, 12, .ro, .kill, 0x0, false⟩]⟩,
  ⟨0x3ff100000808, [(0x100000, 2176), (0x20, 4)], false, [⟨31, 31, .w1c, .kill, 0x0, false⟩, ⟨28, 16, .ro, .kill, 0x0, false⟩, ⟨12, 0, .ro, .kill, 0x0, false⟩]⟩,
  ⟨0x3ff100000810, [(0x100000, 2176), (0x20, 4)], false, [⟨18, 6, .ro, .kill, 0x0, false⟩]⟩,
  ⟨0x3ff100000880, [(0x100000, 2176), (0x20, 4)], false, [⟨31, 31, .ro, .kill, 0x0, false⟩, ⟨12, 0, .ro, .kill, 0x0, false⟩]⟩,
  ⟨0x3ff100000888, [(0x100000, 2176), (0x20, 4)], false, [⟨31, 0, .rc, .kill, 0x0, false⟩]⟩,
  ⟨0x3ff100000a00, [(0x100000, 2176), (0x40, 4)], false, [⟨31, 31, .rw, .kill, 0x0, false⟩, ⟨26, 24, .rw, .kill, 0x0, false⟩, ⟨18, 5, .rw, .kill, 0x0, false⟩]⟩,
  ⟨0x3ff100000a08, [(0x100000, 2176), (0x40, 4)], false, [⟨10, 0, .rw, .kill, 0x0, false⟩]⟩,
  ⟨0x3ff100000a10, [(0x100000, 2176), (0x40, 4)], false, [⟨10, 0, .ro, .kill, 0x0, false⟩]⟩]

/-- Descriptions of the svc block. -/
def descsSvc : List RegDesc := [
  ⟨0x3ff004000000, [(0x10000, 16)], false, [⟨31, 31, .ro, .region, 0x0, false⟩, ⟨30, 30, .w1c, .region, 0x0, false⟩, ⟨6, 0, .ro, .region, 0x0, false⟩]⟩,
  ⟨0x3ff004200000, [(0x100, 256)], true, [⟨63, 63, .rw, .tenancy, 0x0, false⟩, ⟨62, 60, .rw, .tenancy, 0x0, false⟩, ⟨59, 56, .rw, .tenancy, 0x0, false⟩, ⟨55, 43, .rw, .tenancy, 0x0, false⟩, ⟨33, 0, .rw, .tenancy, 0x0, false⟩]⟩,
  ⟨0x3ff004200008, [(0x100, 256)], false, [⟨31, 0, .rw, .tenancy, 0x0, false⟩]⟩,
  ⟨0x3ff004200010, [(0x100, 256)], false, [⟨31, 0, .ro, .tenancy, 0x0, false⟩]⟩,
  ⟨0x3ff004200018, [(0x100, 256)], false, [⟨31, 0, .rc, .hub, 0x0, false⟩]⟩,
  ⟨0x3ff004300000, [(0x100, 16)], true, [⟨63, 63, .rw, .tenancy, 0x0, false⟩, ⟨59, 56, .rw, .tenancy, 0x0, false⟩, ⟨33, 0, .rw, .tenancy, 0x0, false⟩]⟩,
  ⟨0x3ff004300008, [(0x100, 16)], false, [⟨31, 0, .rw, .tenancy, 0x0, false⟩]⟩,
  ⟨0x3ff004300010, [(0x100, 16)], false, [⟨31, 0, .ro, .tenancy, 0x0, false⟩]⟩]

/-- The blocks of Table 1-8: base, size and registers. -/
def regBlocks : List (Nat × Nat × List RegDesc) := [
  (0x3ff000000000, 0x100000, descsHub),
  (0x3ff000100000, 0x100000, descsStw),
  (0x3ff000200000, 0x10000, descsPrb),
  (0x3ff000300000, 0x100000, descsPwr),
  (0x3ff000400000, 0x100000, descsAge),
  (0x3ff000500000, 0x100000, descsSaf),
  (0x3ff000600000, 0x100000, descsSec),
  (0x3ff000700000, 0x100000, descsReg),
  (0x3ff000800000, 0x100000, descsXlt),
  (0x3ff000900000, 0x100000, descsCoh),
  (0x3ff000a00000, 0x100000, descsCxl),
  (0x3ff001000000, 0x1000000, descsMbx),
  (0x3ff002000000, 0x1000000, descsSite),
  (0x3ff003000000, 0x1000000, descsTks),
  (0x3ff008000000, 0x1000000, descsSs),
  (0x3ff009000000, 0x1000000, descsHbm),
  (0x3ff00a000000, 0x2000000, descsCtx),
  (0x3ff010000000, 0x4000000, descsSync),
  (0x3ff040000000, 0x8000000, descsBench),
  (0x3ff100000000, 0x100000000, descsTile),
  (0x3ff004000000, 0x1000000, descsSvc)]

/-- Whether offset `o` from a register's base is one of an array with strides and counts `ds` (outermost first). -/
def dimsHit : List (Nat × Nat) → Nat → Bool
  | [], o => o == 0
  | (st, n) :: ds, o => decide (o / st < n) && dimsHit ds (o % st)

/-- Whether address `a` is the address of a register of `d`. -/
def RegDesc.hits (d : RegDesc) (a : Nat) : Bool := decide (d.base ≤ a) && dimsHit d.dims (a - d.base)

/-- The reset value of a register: its fields' reset values in place. -/
def RegDesc.rst (d : RegDesc) : Nat := d.flds.foldl (fun v f => v + f.rst * 2 ^ f.lo) 0

/-- The block an address of the register window lies in (R29). -/
def blockAt (a : Nat) : Option (List RegDesc) :=
  (regBlocks.find? fun b => decide (b.1 ≤ a) && decide (a < b.1 + b.2.1)).map (fun b => b.2.2)

/-- The register at an address, if a field map defines one (R29). -/
def descAt (a : Nat) : Option RegDesc := (blockAt a).bind fun ds => ds.find? (fun d => d.hits a)

end Sys2Proof.Machine
end

