-- ==== Sys2Proof/Machine/State.lean ====
section
/-! DEFINITION. The state of the module, as plain data: every register of the register window by address, the memories, and,
typed, what the manual names beside registers. Each field of a structure gives its reset value; State.reset is the module
before its first power-on. -/

namespace Sys2Proof.Machine

/-! ### The compute tile (chapters 2 to 4) -/

/-- One granule in an operand buffer (R501): 32 × 32 element codes row by row, 32 scale words, and its poison. -/
structure Granule where
  elems : List Nat
  scales : List Nat
  poison : Bool
deriving DecidableEq, Repr

/-- An operation executing or queued in the matrix engine (R72): an MCLR, or an MMA with its latched descriptors (R110), its
extent in granules, the granules done, those taken into each operand buffer, the scales of an odd granule that a paired flit
of MX scales has already brought (R71), int_wrap as it was at issue (R64), the address of its bundle (R133), and whether a check of
R58 or R59 has failed on it (R60). -/
structure MOp where
  mclr : Bool
  acc : Nat
  clr : Bool
  int : Bool
  dA : W64
  dB : W64
  total : Nat
  done : Nat := 0
  fillA : Nat := 0
  fillB : Nat := 0
  halfA : List Nat := []
  halfB : List Nat := []
  wrap : Bool := false
  addr : W64 := 0
  fault : Bool := false
deriving DecidableEq, Repr

/-- An access outstanding in one of the 16 miss slots (R84, R231): the line or access it waits for, the register a load
writes, the bench TLB entry it holds, the request it sent when its target is on another device or the host, its virtual address, the
word a store carries, whether its request has reached the line's home, whether an invalidation of the line has met it (R246),
its place in the order of issue, and whether a kill has met it: it completes, and its response is discarded (R94). -/
structure Miss where
  line : Nat
  cached : Bool
  store : Bool
  sd : Nat
  off : Nat
  tlb : Option Nat
  req : Option W32
  va : Nat
  data : W32 := 0
  sent : Bool := false
  stale : Bool := false
  seq : Nat := 0
  dead : Bool := false
  held : Bool := false
deriving DecidableEq, Repr

/-- A tile-cache line (R82): its local physical line address, its used bit (R502), and 128 bytes. -/
structure CLine where
  line : Nat
  used : Bool
  data : BitVec 1024
  perr : Bool := false
deriving DecidableEq, Repr

/-- A DMA channel's descriptor in execution (R92, R93): the four words, the next row and byte, the bytes of the block in
progress not yet moved, the TLB entries the block holds, the bytes and poison of a flit begun and not yet full, and writes not yet
acknowledged. -/
structure DmaSt where
  src : W64
  dst : W64
  strides : W64
  ctl : W64
  row : Nat := 0
  off : Nat := 0
  left : Nat := 0
  held : List Nat := []
  buf : List Byte := []
  bufBad : Bool := false
  unacked : Nat := 0
  waits : Bool := false
deriving DecidableEq, Repr

/-- The bundle being issued: the bundle, the slots already issued (0 none, 1 matrix, 2 matrix and vector), the scalar
write of a VGET, which takes effect when the bundle closes (R103), tile.arith.ctrl and tile.arith.sr_seed at its issue (R64), and the
flags its vector slot has set, which a write of its own cycle does not clear (R64). -/
structure OpenB where
  b : W64
  slots : Nat
  vget : Option (Nat × W32) := none
  ctl : W64 := 0
  seed : W64 := 0
  flags : Nat := 0
deriving DecidableEq, Repr

/-- One tile's typed state; its registers of the register window are in State.regs. -/
structure Tile where
  /-- Scalar registers s1–s31 (R65); reset 0, DESIGN CHOICE log 7. -/
  sreg : Tbl W32 := []
  /-- Vector registers, lane l of v r under 64 r + l (R65); reset 0, log 7. -/
  vreg : Tbl W32 := []
  /-- Accumulators, element (r, c) of a k under 1024 k + 32 r + c; reset 0, log 7. -/
  acc : Tbl W32 := []
  /-- Accumulators whose type tag is INT32 (R67); reset FP32, log 7. -/
  accInt : List Nat := []
  /-- Accumulators marked poisoned (R60, R80). -/
  accPoison : List Nat := []
  /-- Accumulator elements, by the key of `acc`, whose parity is wrong and that no read has met (R59). -/
  accPar : List Nat := []
  /-- The generator states drawn on since the last seeding (R46, R48); a lane not listed holds the value of R48. -/
  gen : Tbl W32 := []
  /-- Matrix operations, the executing one first (R72). -/
  queue : List MOp := []
  /-- Operand buffers A and B, at most two granules each (R501). -/
  bufA : List Granule := []
  bufB : List Granule := []
  /-- Outstanding misses and accesses by slot, at most 16 (R84, R231). -/
  misses : Tbl Miss := []
  /-- Tile-cache lines, way w of set i under 4 i + w (R82). -/
  cache : Tbl CLine := []
  /-- Direct-mode FIFOs of the input ports (R87). -/
  sin : Tbl (List Flit) := []
  /-- Producer endpoint code of each bound input port, consumer endpoint code of each bound output port (Table 5-4). -/
  sinSrc : Tbl Nat := []
  soutDst : Tbl Nat := []
  /-- DMA channels with a descriptor in execution. -/
  dma : Tbl DmaSt := []
  /-- Blocks of DMA channels that a kill has stopped: entries held, and writes not yet acknowledged, by channel (R94, R238). -/
  dmaDead : Tbl (Nat × List Nat) := []
  /-- Flits of a write-out to a port that wait for a credit (R118): accumulator, port and flits; and its bundle's address. -/
  wout : Option (Nat × Nat × List Flit) := none
  woAt : W64 := 0
  /-- Signals that wait for earlier GSTs to be acknowledged, oldest first: object, increment and miss slots awaited (R126). -/
  sigq : List (Nat × W64 × List Nat) := []
  /-- Active hardware loops, innermost first (R124). -/
  loopOrd : List Nat := []
  /-- The bundle being issued. -/
  bundle : Option OpenB := none
  /-- A reseeding of the generators that waits for the open bundle to close (R64). -/
  reseed : Bool := false
  /-- Bundles that the program itself has overwritten since its last taken branch, as it still sees them (R104), and the loop
  buffer (R123), by index. -/
  codeOld : Tbl W64 := []
  loopBuf : Tbl W64 := []
  /-- The update that satisfies the WAIT has been received (R127). -/
  released : Bool := false
  /-- Local-memory requests refused for 8 FCLK, oldest first (R77): requesters 0 and 1 operand fetch, 2 sequencer, 3 accumulator
  write-out, 4 to 7 input ports, 8 to 11 output ports, 12 to 15 DMA channels, 16 external masters. -/
  aged : List Nat := []
  /-- Datapath faults since the last hub reset, and whether the last was injected (R447). -/
  dpFaults : Nat := 0
  dpInjected : Bool := false
deriving DecidableEq, Repr

/-! ### Translation (chapters 3 and 8) -/

/-- A bench TLB entry (R98): context, virtual page number, size (0 64 KiB, 1 2 MiB, 2 512 MiB), the global address of the
page, W and NC, the reference count (R99), the unmap slots it is retiring for (R236), its used bit, and whether its parity is wrong
(R457). -/
structure TlbEnt where
  ctx : Nat
  vpn : Nat
  size : Nat
  frame : Nat
  w : Bool
  nc : Bool
  refs : Nat := 0
  retiring : List Nat := []
  used : Bool := true
  perr : Bool := false
deriving DecidableEq, Repr

/-- A request waiting for a walker (R228, R230). -/
structure WalkReq where
  half : Nat
  m : Master
  lane : Nat
  ctx : Nat
  va : Nat
  write : Bool
  prefetch : Bool
deriving DecidableEq, Repr

/-- A walk-cache entry (R229): context, level of the pointer (2 or 1), index path, table address, used bit. -/
structure WcEnt where
  ctx : Nat
  level : Nat
  path : Nat
  table : Nat
  used : Bool
deriving DecidableEq, Repr

/-- What an invalidation slot does at its completion beside its own signal (R234, R236): the mailbox of XLT_CTX_CLEAR and the
object it signals; or the commit whose sealed page it unmaps (R169). -/
structure InvRec where
  clear : Option Nat := none
  clearObj : Nat := 0xFFFF
  commit : Option Nat := none
deriving DecidableEq, Repr

/-- The table pool of a pooled context (R233): base, length, and the next unused table. -/
structure Pool where
  base : Nat
  len : Nat
  next : Nat
deriving DecidableEq, Repr

/-! ### Dressings (chapter 5) -/

/-- Dressing states (Table 5-6). -/
inductive DState where
  | loaded | activating | active | deactivating | dead
deriving DecidableEq, Repr

/-- A stream of a loaded dressing (Table 5-3) with the bench links its route leaves by (R142): bench and link. -/
structure DStream where
  prod : Nat
  cons : Nat
  ring : Bool
  ringSize : Nat
  ringBase : Nat
  order : Nat
  rate : Nat
  hops : List (Nat × Nat) := []
  benches : List Nat := []
  /-- The site module that carries it, for a chiplet endpoint (R278), and the credits its chiplet consumer granted. -/
  module : Nat := 0
  grant : Nat := 0
deriving DecidableEq, Repr

/-- A dressing holding a handle. -/
structure Dressing where
  st : DState := .loaded
  ctx : Nat
  image : Nat
  size : Nat
  digest : BitVec 512
  dressId : W64
  n : Nat
  lbase : Nat
  sbase : Nat
  syncs : Nat
  streams : List DStream := []
  /-- The last detail code (FAB_DRS_STATUS). -/
  last : Nat := 0
  /-- The mailbox whose command on this handle is executing (R150). -/
  mbx : Option Nat := none
  /-- Completion object of the activation, and its hold flag (R152). -/
  obj : Nat := 0xFFFF
  hold : Bool := false
  /-- The dressing whose tiles this one was loaded to take (R147), and the one to activate once this is stopped (R154). -/
  target : Option Nat := none
  swapTo : Option Nat := none
  /-- Step of the activation, or of the stop phase, in progress (Tables 5-7 and 5-8). -/
  phase : Nat := 0
  /-- Chiplet endpoints (bits 18:0 of their codes, and bit 20 for a consumer) whose grant or acknowledgement is awaited (step 5 of Table 5-7,
  step 3 of Table 5-8), and the credits each has handed back. -/
  await : List Nat := []
  handed : Tbl Nat := []
  /-- What step 3 of Table 5-7 wrote over, to be undone by a failure (R152): registers; scalar registers and generators of tiles; counts; and the
  local memory that step 2 wrote: tile, offset, length. -/
  undoRegs : List (Reg × W64) := []
  undoTiles : List (Nat × Tbl W32 × Tbl W32) := []
  undoSyncs : List W64 := []
  segs : List (Nat × Nat × Nat) := []
  /-- Physical tiles it was placed on and no longer reserves after a swap (R154). -/
  freed : List Nat := []
  /-- Dressing tiles that step 6 of Table 5-7 starts. -/
  starts : List Nat := []
  /-- Unload at the end of the stop phase (R155). -/
  unload : Bool := false
  /-- Loaded with allow_oversub (R145). -/
  oversub : Bool := false
  /-- Tiles that had not ended when the stop phase began. -/
  unended : Nat := 0
deriving DecidableEq, Repr

/-! ### Sync objects (chapter 11) -/

/-- A tile waiting at an object (R288). -/
structure Waiter where
  obj : Nat
  thresh : Nat
deriving DecidableEq, Repr

/-- A notifier action on its way (R290): the object and notifier it came from, kind, class, target, argument and the count
after the operation. -/
structure NAct where
  obj : Nat
  kind : Nat
  tclass : Nat
  target : Nat
  arg : W64
  count : W64
deriving DecidableEq, Repr

/-- The audited counts of one half's sync unit (Table 12-1, 0x5): operations received and performed, acknowledgements sent, writes and
Atomics performed. -/
structure SyncCnt where
  received : Nat := 0
  performed : Nat := 0
  acked : Nat := 0
  writes : Nat := 0
deriving DecidableEq, Repr

/-! ### The steward (chapters 15 and 20) -/

/-- The header of a posted, executing or answered request (R348). -/
structure Hdr where
  cmd : Nat
  tag : W32
  seq : W32
  notify : Bool
deriving DecidableEq, Repr

/-- A mailbox: the request posted or executing, whether its effect has begun, the last request that reached done (R354), and for
a management mailbox the session bound to it (R360); whether an FLR has met the command (R340). The windows are in memory (R347). -/
structure Mbx where
  cur : Option Hdr := none
  begun : Bool := false
  last : Option Hdr := none
  session : Option Nat := none
  flr : Bool := false
deriving DecidableEq, Repr

/-- An event-log entry (Table 20-8). -/
structure LogEntry where
  seq : Nat
  time : W64
  boot : Nat
  tenancy : Nat
  cls : Nat
  src : Nat
  code : Nat
  data : List Nat
deriving DecidableEq, Repr

/-- Requests a home processes (Table 9-4); the last two are its own: a capacity eviction or recall, and a recall that discards what
comes back (R207). -/
inductive ReqK where
  | rdShared | rdUnique | upgrade | rdNoAlloc | wrFull | wrPart | atomic | evictClean | evictDirty | recall | purge
deriving DecidableEq, Repr

/-- A message handed to a link, the host or the management network. The model's own record of what leaves the module. -/
inductive Out where
  | msix (vec : Nat)
  | sideband (site kind value : Nat)
  | snoop (dst : Agent) (line tag kind : Nat)
  | complete (dst : Agent) (line tag kind : Nat) (data : List Byte) (poison : Bool)
  | ucie (site module kind seq ack : Nat) (cret : List Nat)
  | req (site : Nat) (k : ReqK) (addr tag tc : Nat) (mask : BitVec 128) (data : BitVec 1024) (poison : Bool) (aop size : Nat)
  | flit (site stream : Nat) (f : Flit)
  | scredit (site stream n : Nat)
  | sbind (site module stream : Nat) (bind : Bool) (consumer : Bool) (count : Nat)
  | frame (port : Nat) (f : Frame)
  | linkFrame (port kind a : Nat) (c0 c1 : Nat × Nat)
  | cplIo (status : Nat) (data : List Byte) (poison : Bool)
  | memData (hpa tag grant : Nat) (data : List Byte) (poison : Bool)
  | memCmp (hpa tag grant : Nat)
  | data (dst : Master) (v : W64)
  | bytes (dst : Master) (data : List Byte) (poison : Bool)
  | h2dRsp (hpa tag : Nat)
  | biConflictAck (hpa : Nat)
  | bisnp (hpa : Nat) (inv : Bool)
  | d2h (id op hpa : Nat) (data : List Byte)
  | cfgCpl (status : Nat) (v : W32)
  | mgmt (session : Nat) (h : Hdr) (status detail : Nat) (payload : List Byte)
  | spdm (port code : Nat) (payload : List Byte)
  | command (mbx cmd : Nat) (args : List Nat)
deriving DecidableEq, Repr

/-! ### Hoist lanes (chapter 6) -/

/-- A translation a hoist lane holds (R230): context page number and size code, global address of the page, references, and the
slots it is retiring for. -/
structure LaneTr where
  vpn : Nat
  size : Nat
  frame : Nat
  refs : Nat := 0
  retiring : List Nat := []
deriving DecidableEq, Repr

/-- A page descriptor's fields (Table 6-3). -/
structure PD where
  loc : Nat
  posStart : Nat
  posCount : Nat
  seq : Nat
  group : Nat
  kind : Nat
  tier : Nat
  fmt : Nat
  wfmt : Nat
  epoch : Nat := 0
  size : Nat
  opened : Bool
  lossy : Bool := false
  pinned : Bool := false
  poisoned : Bool := false
  dataCrc : Nat := 0
deriving DecidableEq, Repr

/-- A gather descriptor in execution (R185, R186): its four words, none before its ring read ends; the pages it reads, with their descriptors as it read them; setts fetched from a peer and setts awaited,
under 16 desc + sett; whether its flits have been made; the flits not yet sent on its element lane and on its scale lane; and the
cause it ends in once its poisoned flits are sent (R187). -/
structure Gather where
  words : List W64
  pages : List (Nat × PD) := []
  got : Tbl (List Byte) := []
  want : List Nat := []
  made : Bool := false
  eflits : List Flit := []
  sflits : List Flit := []
  ending : Option (Nat × W64) := none
  gotBad : List Nat := []
  waits : Bool := false
deriving DecidableEq, Repr

/-- An attached lane (R183): handle, context, hoist tag, consumer tile and port, the descriptor in execution, the
translations it holds, and the ring read in flight: the page and size code of the translation it holds, and its global address (R230). -/
structure Lane where
  handle : Nat
  ctx : Nat
  tag : Nat
  ptile : Nat
  port : Nat
  cur : Option Gather := none
  tr : List LaneTr := []
  rd : Option (Nat × Nat × Nat) := none
deriving DecidableEq, Repr

/-! ### The context store (chapter 6) -/

/-- The unmap of a sealed page's window slot (R169): context, window address, and the commit it belongs to. -/
structure SealU where
  ctx : Nat
  va : Nat
  commit : Nat
deriving DecidableEq, Repr

/-- A CTX_PAGE_APPEND in progress (R168): its mailbox, sequence and groups, and, once its pages are allocated, their
descriptors. -/
structure AppendW where
  mbx : Nat
  seq : Nat
  gFirst : Nat
  gCount : Nat
  descs : Option (List Nat) := none
deriving DecidableEq, Repr

/-- How far a page move has come (Table 6-7): selected; its source setts asked of a peer; its destination written and not yet
acknowledged in full; the descriptor rewritten, the source units still held. -/
inductive MPhase where
  | chosen | reading | writing | rewritten | zeroing
deriving DecidableEq, Repr

/-- A page move (R172): destination tier, format after step 4, first destination unit and count; source tier, unit and count;
setts fetched from a peer, setts awaited, writes to a peer not yet acknowledged; what step 7 writes; and the hoist that does it. -/
structure MoveSt where
  tier : Nat
  fmt : Nat
  unit : Nat := 0
  count : Nat := 0
  srcTier : Nat
  srcUnit : Nat
  srcCount : Nat
  phase : MPhase := .chosen
  got : Tbl (List Byte) := []
  want : List Nat := []
  unacked : Nat := 0
  crc : Nat := 0
  lossy : Bool := false
  hoist : Nat := 0
  epoch : Nat := 0
  out : List (Nat × List Byte) := []
deriving DecidableEq, Repr

/-- Per-class policy settings (Table 6-6): append tier, next tier from each tier (none where nothing is named), and target formats
(none: the page's write format). -/
structure ClassPol where
  append : Nat := 1
  next : List (Option Nat) := [some 1, some 2, some 3, none]
  tfmt : List (Option Nat) := [none, none, none, none]
deriving DecidableEq, Repr

/-- Policy settings (Table 6-6); before any CTX_POLICY_SET, the values of the basic form (log entry 21). -/
structure Policy where
  high : List Nat := [14, 14, 14, 14]
  low : List Nat := [12, 12, 12, 12]
  share : Nat := 2
  cls : Tbl ClassPol := []
deriving DecidableEq, Repr

/-- The context store beside its tables in memory and its registers (R161 to R182): its HBM range; sequence capacity; chunk pool; the runs of units
of each tier and the units allocated; descriptors and chunks allocated; ages (R171); moves; sequences closing with their completion
objects; unmaps of seals that wait for a slot; commits whose unmaps are running, with their objects; appends in progress;
pages a gather has read with promote set (R174); the key
numbers of the live epochs (R179); whether a breach of the context-page counts has been found (Table 12-4). -/
structure Store where
  rBase : Nat := 0
  rLen : Nat := 0
  cap : Nat := 0
  chunkBase : Nat := 0
  chunks : Nat := 0
  pools : Tbl (List (Nat × Nat)) := []
  used : Tbl (List Nat) := []
  descUsed : List Nat := []
  chunkUsed : List Nat := []
  age : Tbl Nat := []
  moves : Tbl MoveSt := []
  closing : Tbl Nat := []
  unmapQ : List SealU := []
  commits : Tbl Nat := []
  nextCommit : Nat := 0
  appends : List AppendW := []
  promote : List Nat := []
  curKey : Nat := 0
  oldKey : Nat := 0
  broken : Bool := false
  /-- Free descriptors, and the pages of T2 and T3 under each epoch, as the hub counts them (R180, R188); whether a breach holds the rotation (Table 12-4). -/
  descFree : Nat := 0
  epochCnt : Tbl Nat := []
  epochBad : Bool := false
  /-- Poisoned pages of T2 and T3 of closing sequences whose setts have been rewritten with zeros. -/
  zeroed : List Nat := []
deriving DecidableEq, Repr

/-- The export pool (R166): an HBM range, and the peer each granted sett is granted to. -/
structure Export where
  base : Nat := 0
  len : Nat := 0
  granted : Tbl Nat := []
deriving DecidableEq, Repr

/-! ### State store and coherence (chapters 7 and 9) -/

/-- A directory entry (Table 9-2): benches, sites, the host, the F holder, and in DE the owner (0 to 7 site, 8 host). -/
structure Dir where
  bench : List Nat := []
  site : List Nat := []
  host : Bool := false
  fwd : Option Nat := none
  owner : Option Nat := none
deriving DecidableEq, Repr

/-- A line of the state store (R190 to R194, R386): its way, age, dirty bit, the partition that filled it (16 for none), and its
directory entry. A scratchpad line has an entry while its granule's tags record a copy or a transaction. -/
structure Line where
  way : Nat := 0
  age : Nat := 0
  dirty : Bool := false
  part : Nat := 16
  dir : Dir := {}
deriving DecidableEq, Repr

/-- A request at a home: kind, agent, line address, tag, traffic class, byte mask, data and poison of a write, and an Atomic's
operation, size, offset in the line, operand and compare value; for the write of a RED its operation and element format (R315). -/
structure CReq where
  k : ReqK
  a : Agent
  line : Nat
  tag : Nat := 0
  tc : Nat := 0
  mask : BitVec 128 := 0
  data : BitVec 1024 := 0
  poison : Bool := false
  aop : Nat := 0
  size : Nat := 0
  off : Nat := 0
  operand : W64 := 0
  compare : W64 := 0
  red : Nat := 0
  fmt : Nat := 0
  fwd : Bool := false
  void : Bool := false
deriving DecidableEq, Repr

/-- A transaction in progress on a line (R249, R251): the request; whether it waits for HBM; the benches and agents (0 to 7 site, 8
host) whose answers it awaits; the data a snoop of current data has brought (for RdShared, that a snoop was sent); and whether an F holder has answered the reader. -/
structure Txn where
  r : CReq
  fill : Bool := false
  benches : List Nat := []
  agents : List Nat := []
  cur : Option (BitVec 1024 × Bool) := none
  fwdDone : Bool := false
deriving DecidableEq, Repr

/-- Messages a home answers a requester with. -/
inductive AnsK where
  | datC | datS | datF | cmpE | rspErr
deriving DecidableEq, Repr

/-- An answer on its way to a requester, with `n` bytes of data. -/
structure Ans where
  a : Agent
  line : Nat
  tag : Nat
  k : AnsK
  data : BitVec 1024 := 0
  poison : Bool := false
  reason : Nat := 0
  copy : Bool := false
  tc : Nat := 0
  n : Nat := 128
deriving DecidableEq, Repr

/-- A MEM_SS_CONFIG, a MEM_SS_FLUSH with invalidation, or the write-back of an overburden region reset (R206 to R208, Table 20-2) whose
recalls are running: the mailbox it ends at; the new masks, for a configuration; the half reset; the lines still to be recalled;
and the lines written to HBM. -/
structure SsJob where
  mbx : Option Nat
  masks : Option (Nat × Nat) := none
  rst : Option Nat := none
  left : List Nat := []
  clean : List Nat := []
  written : Nat := 0
deriving DecidableEq, Repr

/-- An error record (MEM_ERR_READ): unit (0x000 to 0x0FF slice, 0x100 + s stack), address, kind (0 corrected, 1 uncorrectable, 2
refetched) and time. -/
structure MemErr where
  unit : Nat
  addr : Nat
  kind : Nat
  time : W64
deriving DecidableEq, Repr

/-! ### Tukosen (chapter 13) -/

/-- What a request was sent for: the master or operation its response reaches; `noone` for one whose command has ended. -/
inductive Purp where
  | tile (t slot : Nat)
  | line (g n : Nat)
  | eng (m : Master) (tag : Nat)
  | core (c rd : Nat)
  | site (n tag : Nat)
  | host (tag : Nat)
  | notifier (obj : Nat)
  | noone
  | msg (q : Nat)
  | grant (mbx n : Nat)
  | giveBack (mbx : Nat)
  | gather (n k piece : Nat)
  | moveRd (desc piece : Nat)
  | moveWr (desc : Nat)
  | ping (mbx i : Nat)
  | egress (e : Nat)
  | ingress (port : Nat) (f : Frame)
deriving DecidableEq, Repr

/-- A request kept by its source (R320): the frame as first sent, its purpose, the time of its first send, and whether it has
ended. -/
structure TReq where
  f : Frame
  why : Purp
  at0 : W64
  ended : Bool := false
deriving DecidableEq, Repr

/-- A frame waiting at an egress port for credits, and where its cells lie in this device: ingress port, pool and cells. -/
structure TxE where
  f : Frame
  back : Option (Nat × Nat × Nat) := none
deriving DecidableEq, Repr

/-- One port's link state (R317 to R319): next lseq, unacknowledged frames oldest first, frames waiting, last lseq accepted, whether a
NAK has been sent since, consecutive NAKs for one lseq, cells held of each pool, cells to return, frames accepted and not yet
acknowledged, the hold of TKS_PORT_RESET, grants for the next link-up; whether the partner's HELLO has been accepted, and the cells it granted;
the deficits of classes 1 to 3 and the class being served (R387). -/
structure PortSt where
  txSeq : Nat := 0
  replay : List Frame := []
  queue : List TxE := []
  rxSeq : Nat := 65535
  nakSent : Bool := false
  nakRun : Nat := 0
  nakSeq : Nat := 0
  cells : Tbl Nat := []
  owe : Tbl Nat := []
  toAck : Nat := 0
  hold : Bool := false
  grants : Option (List Nat) := none
  greeted : Bool := false
  cap : Tbl Nat := []
  drr : Tbl Nat := []
  drrAt : Nat := 1
deriving DecidableEq, Repr

/-- A memo entry (R321). -/
structure MemoE where
  src : Nat
  reqid : W32
  status : Nat
  aux : W64
  at0 : W64
  addr : Nat := 0
deriving DecidableEq, Repr


/-- A request of this device to a host line or to a chiplet home (R256, R336): the site, or none for the host; the local physical address
and bytes it concerns; its kind; and what it was sent for. -/
structure ExtReq where
  site : Option Nat
  addr : Nat
  n : Nat
  k : ReqK
  why : Purp
  data : List Byte := []
  tc : Nat := 1
deriving DecidableEq, Repr

/-- One UCIe module's link state (R267, R268): last seq sent, flits unacknowledged oldest first, messages waiting for a credit with
their pools, last seq accepted, whether a NAK has been sent since, consecutive NAKs for one seq, credits held and credits to return by
pool, flits accepted and not yet acknowledged, units of a message still to come. -/
structure ModSt where
  txSeq : Nat := 4095
  replay : List (Nat × List Out) := []
  waiting : List (Nat × Out) := []
  rxSeq : Nat := 4095
  nakSent : Bool := false
  nakRun : Nat := 0
  nakSeq : Nat := 0
  cred : Tbl Nat := []
  owe : Tbl Nat := []
  toAck : Nat := 0
  rest : Nat := 0
deriving DecidableEq, Repr

/-- An access of a unit that its home could not perform at once: master, what it was made for, global address, class, operation, bytes,
poison; the write acknowledgements it awaits, once its write has been made; the old value of its Atomic, once performed; its failure; whether
it has been counted as held (R378). -/
structure AccW where
  m : Master
  why : Purp
  g : Nat
  tc : Nat
  op : AccessOp
  n : Nat
  poison : Bool := false
  sent : Bool := false
  left : Nat := 0
  res : Option (Nat × Bool) := none
  err : Nat := 0
  held : Bool := false
deriving DecidableEq, Repr

/-- A TKS_PING in progress: how many responses it awaits, and the round-trip times by request. -/
structure PingW where
  left : Nat
  got : Tbl Nat := []
deriving DecidableEq, Repr

/-! ### Bring-up, self-test, power, resets (chapters 18 to 21) -/

/-- What the fuses hold beside the identity registers (chapter 18): the flaw map (tiles, state-store columns as granule and column,
channels by stack), each site's serial, the factory plan's set point of every domain, and the life-cycle word. The values are a specimen's: log entry 25. -/
structure Fuse where
  badTiles : List Nat := []
  badCols : List (Nat × Nat) := []
  badChans : Tbl Nat := []
  siteSerial : Tbl W64 := []
  planV : Nat := 150
  life : Nat := 0x01FF
deriving DecidableEq, Repr

/-- What bring-up keeps between its steps: tiles that step 8 failed, with those of failed benches, and columns that failed; channels, and UCIe lanes,
found bad in training and fused good; and the mailboxes that await steps, with their masks (R392). -/
structure Boot where
  badTiles : List Nat := []
  badCols : List (Nat × Nat) := []
  badChans : Nat := 0
  badLanes : Nat := 0
  await : Tbl Nat := []
deriving DecidableEq, Repr

/-- A self-test in progress: target kind and unit (Table 18-5), the benches under test, the mailbox that asked for it, and its limit to the first failure. -/
structure BistA where
  kind : Nat
  unit : Nat
  bench : Option Nat
  mbx : Option Nat
  stop : Bool := false
deriving DecidableEq, Repr

/-- Self-test (R401 to R405, R454): runs in progress by run number; records of the last runs, oldest first, each with its overflow
flag; the next run number; tiles under online test; whether a supply warning stopped the online round; benches that wait for a place (R455). -/
structure Bist where
  active : Tbl BistA := []
  done : List (Nat × List (BitVec 256) × Bool) := []
  next : Nat := 1
  online : List Nat := []
  stopped : Bool := false
  waitB : List Nat := []
deriving DecidableEq, Repr

/-- The plan in force (Table 19-4): v_full, v_half and stage of a domain. -/
structure PlanE where
  full : Nat
  half : Nat
  stage : Nat := 0
deriving DecidableEq, Repr

/-- A re-plan in progress (R424, R425): the mailbox that asked for it, the entries it commits, those it replaces, and the domains whose
lowerings are applied and not yet committed. -/
structure Replan where
  mbx : Option Nat
  new : Tbl PlanE := []
  old : Tbl PlanE := []
  low : List Nat := []
deriving DecidableEq, Repr

/-- A telemetry stream (R427): ring, log2 of its records, period, items, class, next sequence number and slot. -/
structure TelSt where
  ring : W64
  k : Nat
  period : Nat
  mask : Nat
  tc : Nat
  seq : Nat := 0
  slot : Nat := 0
deriving DecidableEq, Repr

/-- Power and thermal control (R406 to R428): the governor's, thermal and gradient limiters by bench (0, 16 and 16 where not listed);
benches whose safety limiter is 0; the breach limiter; benches whose derate limiter is 8; pairs of benches outside a gradient limit, with the bench throttled; estimator lowerings; whether an excursion below 46.0 V,
and one above 57.0 V, has been logged; the plan in force; the re-plan in progress, and one that a warning stopped; the hours since the last
commit counted in minutes; the telemetry stream; the lowest slack of each domain since the last record; the inlet excursion; when each bench's gradient limiter was last set or raised; domains whose
slack has been read since the last re-plan; the copy that holds the committed plan, and when it was committed. -/
structure Pwr where
  gov : Tbl Nat := []
  therm : Tbl Nat := []
  grad : Tbl Nat := []
  safety : List Nat := []
  breach : Bool := false
  derate : List Nat := []
  pairs : Tbl Nat := []
  calib : Nat := 0
  lowSeen : Bool := false
  highSeen : Bool := false
  plan : Tbl PlanE := []
  replan : Option Replan := none
  replanHeld : Option Replan := none
  tel : Option TelSt := none
  slackRec : Tbl Nat := []
  hotInlet : Bool := false
  gradAt : Tbl W64 := []
  seen : List Nat := []
  copy : Option Nat := none
  commitAt : Option W64 := none
deriving DecidableEq, Repr

/-- Where a site's bring-up or reset stands (Tables 10-8 and 10-9). -/
inductive SitePh where
  | off | scrubbing | idents | training | mods | ack | up | held
deriving DecidableEq, Repr

/-- A site beside its registers (chapter 10): the procedure in progress and its options; identity words received; the grant before any halving; the last grant sequence
and grants not yet acknowledged, with their sequences; the ceiling of SITE_PWR_SET; whether an exact grant holds; whether a grant was repeated for overpower; the
thermal stage (1 halved, 2 cut); the module whose sideband carries messages, and modules whose sideband failed; the mailbox that
asked for the reset; breaches of link credits counted against it (Table 12-4). -/
structure SiteSt where
  ph : SitePh := .off
  cycle : Bool := false
  scrub : Bool := false
  words : List Nat := []
  base : Nat := 0
  gseq : Nat := 0
  sent : List (Nat × Nat) := []
  ceil : Option Nat := none
  exact : Bool := false
  overAvg : Bool := false
  hot : Nat := 0
  side : Nat := 0
  sideDown : List Nat := []
  mbx : Option Nat := none
  breaches : Nat := 0
deriving DecidableEq, Repr

/-- A persistent word write (R440, R442): word, value, the mailbox, tag and seq of the command that needs it, and whether it is the one retry
after a warning. -/
structure PWrite where
  w : Nat
  v : W32
  cmd : Option (Nat × W32 × W32) := none
  retry : Bool := false
deriving DecidableEq, Repr

/-- What ends a command whose words are persistent: its response (nothing; nothing, with a new measurement set; first word and count; entries written), or the commit of
a margin plan. -/
inductive PEnd where
  | plain
  | measured
  | words (first n : Nat)
  | entries (n : Nat)
  | plan
deriving DecidableEq, Repr

/-- A command that waits for its words: those not yet given to the block, and what follows. -/
structure PJob where
  left : List PWrite
  fin : PEnd
deriving DecidableEq, Repr

/-- The persistent block's queue (R440 to R442): its first write is in progress where `run` is set, the others wait; writes queued for the end of a
warning; commands by mailbox (100 the margin plan, 101 the steward's own words, 200 the retries after a warning); and how often each word has been written. -/
structure Prb where
  q : List PWrite := []
  deferred : List PWrite := []
  jobs : Tbl PJob := []
  count : Tbl Nat := []
  run : Bool := false
deriving DecidableEq, Repr

/-- What Sleep keeps (R436): the save area, its digest, the registers saved there, the sync counts, and the context store's and the export pool's
records. -/
structure SleepSv where
  base : Nat
  digest : BitVec 512
  regs : Tbl W64
  sync : Tbl SyncCnt
  store : Store
  policy : Policy
  expo : Export
  pools : Tbl Pool
deriving DecidableEq, Repr

/-- A change of power state that waits for its conditions (R434). -/
structure PChange where
  mbx : Nat
  target : PState
  save : Nat
  wakeOff : Bool
  going : Bool := false
deriving DecidableEq, Repr

/-- Resets and pins (R429 to R438, R495): a hub reset scheduled; a hub reset in progress; region resets in progress by domain, with the mailbox that asked, and
whether the domain is to be held; domains held; the change of power state that waits; what Sleep saved; the reset pins that are low; a
module reset that waits for a burn; benches Idle; benches whose tiles are off; benches whose region reset the steward owes (R457, Table 12-4). -/
structure Rst where
  sched : Bool := false
  hub : Bool := false
  region : Tbl (Option Nat × Bool) := []
  held : List Nat := []
  change : Option PChange := none
  save : Option SleepSv := none
  perst : Bool := false
  modRst : Bool := false
  late : Bool := false
  idle : List Nat := []
  tilesOff : List Nat := []
  due : List Nat := []
deriving DecidableEq, Repr

/-- Functional safety beside its registers (chapter 21): why tiles are isolated (bit 0 datapath fault, 1 self-test, 2 bench cool, 3 bench held in
reset); benches in bench cool, those that stay in it, and the times each entered it; FLOW_OK samples low in a row; the last lockstep
restart's mismatch; hot readings in a row, by sensor (2 b + sensor); detections of the temperature and coolant comparators during the hold, whose reactions
complete when the steward returns: bench, mechanism, sensor (R452). -/
structure Saf where
  why : Tbl Nat := []
  cool : List Nat := []
  latched : List Nat := []
  entered : Tbl (List W64) := []
  flowLow : Nat := 0
  injected : Bool := false
  hotRun : Tbl Nat := []
  armed : List (Nat × Nat × Nat) := []
deriving DecidableEq, Repr

/-! ### Security (chapter 22) -/

/-- A handover (Table 22-1): its mailbox, its step, its options, the sites whose resets step 3 awaits, the epoch before it, and
the setts held from peers. -/
structure Handover where
  mbx : Nat
  cycle : Bool
  drop : Bool
  part : Option Nat
  sites : List Nat := []
  epoch : Nat := 0
  runs : List (Nat × Nat) := []
deriving DecidableEq, Repr

/-- A life-cycle burn (R475, R476): its mailbox, target and bits; how many are burned. -/
structure Burn where
  mbx : Nat
  target : Nat
  bits : List Nat
  done : Nat := 0
deriving DecidableEq, Repr

/-- A GET_MEASUREMENTS that is held (R487). -/
structure Held where
  port : Nat
  index : Nat
  slot : Nat
  signed : Bool
deriving DecidableEq, Repr

/-- An SPDM connection of a management port (R483): how far it has come (1 version, 2 capabilities, 3 algorithms), and a message being
sent in chunks: handle and bytes. -/
structure Conn where
  stage : Nat := 0
  chunk : Option (Nat × List Byte) := none
  big : List Byte := []
deriving DecidableEq, Repr

/-- A secured session (R359, R483): its port; whether its exchange is finished; whether its requester's chain ends in the anchor (operator or Flivon);
whether it presented any chain. -/
structure Sess where
  port : Nat
  ready : Bool := false
  auth : Bool := false
  shown : Bool := false
deriving DecidableEq, Repr

/-- Security beside its registers: the handover and burn in progress; open debug scopes; chains and provisioned keys of slots 1 to 3; the digests,
versions of the two firmware slots; the library's digest; the committed measurement set, by index; requests held; connections and
sessions; whether a library load, or a firmware update not yet active, is under way, the digest of its image, and whether a restart is to
activate it. -/
structure Sec where
  hand : Option Handover := none
  burn : Option Burn := none
  scopes : Nat := 0
  chains : Tbl (List Byte) := []
  keys : Tbl (BitVec 512) := []
  fwDigest : Tbl (BitVec 512) := []
  fwVer : Tbl Nat := []
  libDigest : BitVec 512 := 0
  meas : List (Nat × List Byte) := []
  held : List Held := []
  conns : Tbl Conn := []
  sess : Tbl Sess := []
  pendDigest : Option (BitVec 512) := none
  fwNow : Bool := false
  wiped : Nat := 0
deriving DecidableEq, Repr

/-! ### Host port and service complex (chapters 14 and 16) -/

/-- Configuration space (R328) by dword, as the host has written it; the MSI-X table of BAR0 by dword; the HDM decoder committed (base and size),
and its Commit Error; its registers as the host has written them, by offset in BAR0; the Cache Invalid bit of the device DVSEC (R336); the data object
written so far, the one to be read and the error bit of the data object exchange (R328); twice the address of each CXL.mem request not yet answered, by tag, and one for a MemInv. -/
structure Cfg where
  regs : Tbl W32 := []
  msixTab : Tbl W32 := []
  hdm : Option (Nat × Nat) := none
  hdmErr : Bool := false
  hdmReg : Tbl W32 := []
  cacheInv : Bool := false
  doeIn : List W32 := []
  doeOut : List W32 := []
  doeErr : Bool := false
  hostTag : Tbl Nat := []
deriving DecidableEq, Repr

/-- A service core (R362 to R366): integer registers, pc, the device and traffic-class CSRs, its machine mode, the FWAIT it is in (object, threshold, rd), an access it
waits for, the FSIGs that wait for its earlier stores, and an exception taken: cause and epc. -/
structure SCore where
  x : Tbl W64 := []
  pc : W64 := 0
  mode : Nat := 3
  fgdev : Nat := 0
  ftcls : Nat := 0
  wait : Option (Nat × W64 × Nat) := none
  stores : Nat := 0
  sigq : List (Nat × W64) := []
  cause : Option Nat := none
  epc : W64 := 0
  tval : W64 := 0
deriving DecidableEq, Repr

/-- A running sequence of the serving profile (R373, R374): request, sequence, prompt positions done, tokens generated, and tokens not yet sent. -/
structure SvEnt where
  r : SvReq
  seq : Nat
  pos : Nat := 0
  gen : Nat := 0
  last : W32 := 0
  toks : List W32 := []
deriving DecidableEq, Repr

/-- A MSG being delivered into an ingress queue (R370): what it was sent for, payload, source, reqid and poison; and its phase: 0 before the payload's
write, 2 before the header's, 4 both acknowledged, 8 failed; odd while a write is awaited. -/
structure MsgW where
  why : Purp
  data : List Byte
  src : Nat
  reqid : W32
  poison : Bool
  ph : Nat := 0
deriving DecidableEq, Repr

/-- The service complex (R362 to R374): cores; the private range, argument, the loaded image's fw_id and digest; egress descriptors sent by queue,
and those done that head has not passed (2^32 queue + index); responses of the profile not yet sent (device, queue, class, bytes); the
profile's step number, whether it awaits step_done, running entries and waiting requests; MSGs being delivered, by ingress queue. -/
structure Svc where
  cores : Tbl SCore := []
  base : Nat := 0
  size : Nat := 0
  arg : W64 := 0
  entry : Nat := 0
  loaded : Bool := false
  fwId : W64 := 0
  digest : BitVec 512 := 0
  sent : Tbl Nat := []
  egDone : List Nat := []
  rspQ : List (Nat × Nat × Nat × List Byte) := []
  step : Nat := 0
  going : Bool := false
  inq : Tbl (List MsgW) := []
  ents : Tbl SvEnt := []
  waitQ : List SvReq := []
deriving DecidableEq, Repr
/-- What a partition may issue toward a half in a window (R382, R383): its portion in GB/s; the bytes of the portion, those of classes 1 and 2 together, those
of class 1 and those of class 2; and the bytes of each of its sources. -/
structure WinLim where
  gbs : Nat
  all : Nat
  two : Nat
  c1 : Nat
  c2 : Nat
  each : Nat
deriving DecidableEq, Repr

/-- The state of the module. -/
structure State where
  /-- Input power is good and the module is powered (R390); reset: off. -/
  powered : Bool := false
  /-- PERST_N, MOD_RST_N held low: the module reset is in force (R429). -/
  modReset : Bool := false
  /-- The device is in Sleep (R433). -/
  asleep : Bool := false
  /-- The commands waiting, first in, first out. -/
  pending : List Instr := []
  /-- The registers of the register window, by local physical address (Table 1-8): a register not listed holds its reset value. -/
  regs : Tbl W64 := []
  /-- The bytes of every memory, by local physical address (R21): HBM, scratchpad, tile local memory at its physical view (R24),
  the mailbox windows (R347); what an unlisted byte reads as is log entry 6. -/
  mem : Memory := []
  /-- Memory units marked poisoned, by their first address (R79, R201, R216). -/
  poison : List Nat := []
  /-- Memory units whose code holds an uncorrectable, or a correctable, error that no read has met (R79). -/
  latentUe : List Nat := []
  latentCe : List Nat := []
  /-- The model's own: how many free values have been drawn (log entry 3). -/
  freeCtr : Nat := 0
  /-- Tiles with typed state other than that of a reset tile, by physical index. -/
  tiles : Tbl Tile := []
  /-- Enabled physical tiles in ascending order: the logical map (R135). -/
  l2p : List Nat := []
  /-- Physical tiles isolated (R136). -/
  isolated : List Nat := []
  /-- Stream flits on their way to input port p of tile t, under 4 t + p, oldest first. -/
  flight : Tbl (List Flit) := []
  /-- Stream credits on their way back to output port p of tile t, under 4 t + p. -/
  credFly : Tbl Nat := []
  /-- Credits that output ports of killed tiles keep until their dressing is unloaded, under 4 t + p (R90). -/
  deadCred : Tbl Nat := []
  /-- Dressings by handle (R147). -/
  dress : Tbl Dressing := []
  /-- Stream credits that a site which did not acknowledge its unbinding still holds, until its next reset (R153). -/
  siteHeld : Tbl Nat := []
  /-- Bench TLB entries: way w of set i of bench b under 256 b + 4 i + w (R98). -/
  tlb : Tbl TlbEnt := []
  /-- Requests waiting for a walker, oldest first (R228). -/
  walkQ : List WalkReq := []
  /-- Requests whose page found every way of its bench TLB set pinned (R100). -/
  pinWait : List WalkReq := []
  /-- Walk caches: entry i of half h under 128 h + i (R229). -/
  wcache : Tbl WcEnt := []
  /-- Invalidation slots in use (R236), by slot; their registers are xlt.inv.k. -/
  inv : Tbl InvRec := []
  /-- Table pools of pooled contexts (R233). -/
  pools : Tbl Pool := []
  /-- Tiles waiting at objects, by physical tile (R288). -/
  waiters : Tbl Waiter := []
  /-- Tiles to which a release is on its way (R127, R288). -/
  updates : List Nat := []
  /-- Notifier actions on their way, oldest first (R290). -/
  nq : List NAct := []
  /-- Audited sync counts, by half (R300). -/
  syncCnt : Tbl SyncCnt := []
  /-- Mesh link credits a sender holds where they are not the grant, under 32 (6 bench + link) + pool (Table 12-1, 0x1). -/
  meshHeld : Tbl Nat := []
  /-- Structures that hold a count and whose code holds an uncorrectable error that no read has met (R301): quantity and unit of
  Table 12-6. -/
  conUe : List (Nat × Nat) := []
  /-- Benches whose router holds a buffer word with wrong parity that no read has met (R457). -/
  rtrPar : List Nat := []
  /-- Mailboxes (R346). -/
  mbx : Tbl Mbx := []
  /-- The event log, oldest first (R443). -/
  log : List LogEntry := []
  /-- The model's own: messages handed to the links, the host and the management network, oldest first. -/
  out : List Out := []
  /-- Attached hoist lanes: lane k of hoist n under 8 n + k (R184). -/
  lanes : Tbl Lane := []
  /-- The context store (R161), its policy (Table 6-6), and the export pool (R166). -/
  store : Store := {}
  policy : Policy := {}
  expo : Export := {}
  /-- How many key epochs have been opened: the number of the next key pair (R179). -/
  keyCtr : Nat := 0
  /-- State-store lines under their line number (R192); transactions and line queues under it (R249); answers on their way to
  requesters; bench invalidations of site-homed lines on their way (R257): bench and line. -/
  lines : Tbl Line := []
  txn : Tbl Txn := []
  lineQ : Tbl (List CReq) := []
  ans : List Ans := []
  binv : List (Nat × Nat) := []
  /-- Fills an engine's read has asked of HBM, with their insertion age and partition (R194). -/
  fills : Tbl (Nat × Nat) := []
  /-- Current data a snoop has brought for an engine's read of a line another agent owns, under the line number. -/
  curData : Tbl (BitVec 1024 × Bool) := []
  /-- Prefetch side buffers by slice, oldest line first (R195), and the latest lines that missed, newest first, at most 16. -/
  sideBuf : Tbl (List Nat) := []
  missed : List Nat := []
  /-- The MEM_SS_CONFIG or flush whose recalls are running. -/
  ssJob : Option SsJob := none
  /-- Error records, oldest first (MEM_ERR_READ), and the patrol periods in hours (R216). -/
  memErr : List MemErr := []
  hbmPatrolH : Nat := 24
  ssPatrolH : Nat := 1
  /-- Halves whose overburden is marking its tags invalid (R203); sources and classes with demand in each half in the last window, by 4 source + class (R382). -/
  ssInv : List Nat := []
  regDemand : Tbl (List Nat) := []
  /-- What partition p of half h may issue in the window in progress, by 16 h + p (R382, R383); what sources have issued in it, by 640 h + 4 source +
  class; class-0 buckets with the time of their last change, and the class-0 settings in force, by 16 h + p (R378, Table 17-3); the class weights in force
  since the last window boundary. -/
  regLim : Tbl WinLim := []
  regSpent : Tbl Nat := []
  regBucket : Tbl (Nat × Nat) := []
  regC0 : Tbl Nat := []
  regW : Option W64 := none
  /-- Requests of chiplets and of the host that a regulator holds at their port, oldest first, and whether each has been counted as held (R376, R378). -/
  regQ : List (CReq × Bool) := []
  /-- Each HBM pseudo-channel's bus, under 64 stack + 2 channel + pseudo-channel: whether it writes, accesses in its direction since it turned, and those of the
  other direction that wait (R217). -/
  hbmBus : Tbl (Bool × Nat × Nat) := []
  /-- Sets whose tag entries hold an uncorrectable error that no access has met (Table 7-3), under 1024 slice + set. -/
  tagUe : List Nat := []
  /-- SnpInv of chiplet homes that the benches have not all acknowledged: site, line, tag (R257). -/
  snpInv : List (Nat × Nat × Nat) := []
  /-- Tukosen ports (R317), requests kept by this device under their reqid (R320), the next reqid, the memo (R321), and floors last sent
  to each destination. -/
  ports : Tbl PortSt := []
  tksReq : Tbl TReq := []
  tksNext : Nat := 0
  memo : List MemoE := []
  /-- Requests of other devices that wait in their port's buffer for earlier ones of their source and class, or for a regulator, oldest first: the port,
  the frame, and whether it has been counted as held (R322, R378). -/
  ingQ : List (Nat × Frame × Bool) := []
  /-- UCIe modules, module m of site n under 12 n + m (R267, R268). -/
  mods : Tbl ModSt := []
  /-- Requests outstanding at the host or at chiplet homes, by number, and the next number; 64 B blocks that answers have brought for
  engines, under their global address divided by 64: data, poison, and 0 or the reason of a failure. -/
  ext : Tbl ExtReq := []
  extNext : Nat := 0
  extGot : Tbl (BitVec 512 × Bool × Nat) := []
  /-- Accesses of units that wait for their home, by number, and the next number. -/
  accs : Tbl AccW := []
  accNext : Nat := 1
  /-- TKS_PING commands in progress, by mailbox. -/
  pings : Tbl PingW := []
  /-- MSI-X table: vectors whose mask bit is clear, by vector, with address and data; the function mask; vectors pending (R339).
  PRESUMED from PCI Express: every vector masked after reset (log entry 9). -/
  msixOpen : List Nat := []
  msixFnMask : Bool := false
  msixPend : List Nat := []
  /-- Interrupt queues of the service cores, oldest entry first, at most 64 (R366). -/
  svcIrq : Tbl (List W64) := []
  /-- What the fuses hold beside registers, and what bring-up keeps between steps (chapter 18). -/
  fuse : Fuse := {}
  boot : Boot := {}
  /-- Self-test (R401 to R405, R454 to R456), power and thermal control (chapter 19), sites (chapter 10). -/
  bist : Bist := {}
  pwr : Pwr := {}
  sites : Tbl SiteSt := []
  /-- The persistent block's queue, resets and power states (chapter 20), functional safety (chapter 21). -/
  prb : Prb := {}
  rst : Rst := {}
  saf : Saf := {}
  /-- Security (chapter 22), configuration space (chapter 14), the service complex (chapter 16). -/
  sec : Sec := {}
  cfg : Cfg := {}
  svc : Svc := {}
deriving DecidableEq, Repr

/-- The module before its first power-on: no power, every register at the reset value of its field map, every table empty. -/
def State.reset : State := {}

/-- Why the model stops with a fault. -/
inductive Fault where
  /-- A command names a unit the manual says does not exist (a tile above 2,175, a site above 7, a port above 7). Raised by the
  range check of any command. Safe: the hardware has no such unit. -/
  | noSuchUnit
deriving DecidableEq, Repr

/-- Why the model refuses a command. -/
inductive Refusal where
  /-- No meaning for the command yet. Raised by Dispatch. Safe. -/
  | notModelled (mnemonic : String)
  /-- The command's operands contradict it: a slot command whose bundle holds another opcode in that slot, raised by the slot
  commands of chapter 4; a Tukosen frame given to the command of another operation, or a frame for another device given to a
  command of this one (or one for this device given to TKS_FORWARD), raised by the Tukosen commands of chapter 13. Safe: the
  sequencer and the link raise no such command. -/
  | illFormed
deriving DecidableEq, Repr

/-- The outcome of a command. -/
abbrev Outc := Host.Outcome State Fault Refusal

end Sys2Proof.Machine
end

