-- ==== Sys2Proof/Machine/Ops.lean ====
section
/-! DEFINITION. The named operations over registers, memory, logs and sync objects that the meanings share, and the context
kill, which is this block's one exception entry. -/

namespace Sys2Proof.Machine

/-! ### Outcomes -/

/-- A command whose unit exists answers the next state; one that names no unit of the module faults. -/
def run (unitExists : Bool) (t : State) : Outc := if unitExists then .next t else .fault .noSuchUnit

/-! ### Registers -/

/-- The value of a register. -/
def State.get (s : State) (r : Reg) : W64 := tgetD s.regs r.addr (BitVec.ofNat 64 r.rst)

/-- A register set to a value. -/
def State.set (s : State) (r : Reg) (v : W64) : State :=
  { s with regs := tset s.regs r.addr (BitVec.ofNat 64 r.rst) v }

/-- Bits hi:lo of a register. -/
def State.fget (s : State) (r : Reg) (hi lo : Nat) : Nat := fld (s.get r) hi lo

/-- A register with bits hi:lo set. -/
def State.fset (s : State) (r : Reg) (hi lo x : Nat) : State := s.set r (setFld (s.get r) hi lo x)

/-- Bit i of a register. -/
def State.bget (s : State) (r : Reg) (i : Nat) : Bool := s.fget r i i == 1

/-- A register with bit i set to a Bool. -/
def State.bset (s : State) (r : Reg) (i : Nat) (b : Bool) : State := s.fset r i i (b2n b)

/-- A `w`-bit counter advanced by n; every counter saturates. -/
def State.bump (s : State) (r : Reg) (w n : Nat) : State := s.set r (BitVec.ofNat 64 (satInc w (s.get r).toNat n))

/-- The reset classes that a reset of a class restores (R430). -/
def RCls.covers : RCls → List RCls
  | .powerOn => [.powerOn, .module, .hub, .region, .flr, .tenancy, .kill]
  | .module => [.module, .hub, .region, .flr, .tenancy, .kill]
  | .hub => [.hub, .region, .flr, .tenancy, .kill]
  | .region => [.region, .kill]
  | .flr => [.flr]
  | .tenancy => [.tenancy, .kill]
  | .kill => [.kill]
  | .kept => [.kept]

/-- A register word with the fields of the given classes at their reset values (R10). -/
def fldReset (cs : List RCls) (d : RegDesc) (v : W64) : W64 :=
  d.flds.foldl (fun v f => if cs.contains f.cls then setFld v f.hi f.lo f.rst else v) v

/-- The registers whose addresses satisfy p, with the fields that a reset of class c restores at their reset values (R430). -/
def resetRegs (p : Nat → Bool) (c : RCls) (t : Tbl W64) : Tbl W64 :=
  t.filterMap fun e =>
    if p e.1 then
      match descAt e.1 with
      | some d => if fldReset c.covers d e.2 = BitVec.ofNat 64 d.rst then none else some (e.1, fldReset c.covers d e.2)
      | none => some e
    else some e

/-- A reset of class c over the register blocks that p picks. -/
def State.resetRegs (s : State) (p : Nat → Bool) (c : RCls) : State := { s with regs := Machine.resetRegs p c s.regs }

/-- Whether an address lies in the register block of tile t, of bench b. -/
def inTileBlock (t a : Nat) : Bool := decide (0x3FF100000000 + 0x100000 * t ≤ a) && decide (a < 0x3FF100000000 + 0x100000 * (t + 1))
def inBenchBlock (b a : Nat) : Bool := decide (0x3FF040000000 + 0x100000 * b ≤ a) && decide (a < 0x3FF040000000 + 0x100000 * (b + 1))

/-! ### Messages, free values, logs -/

/-- A sorted list of numbers with one put in. -/
def sIns : List Nat → Nat → List Nat
  | [], x => [x]
  | y :: r, x => if x < y then x :: y :: r else if x = y then y :: r else y :: sIns r x
/-- A list of numbers without one. -/
def sDel (l : List Nat) (x : Nat) : List Nat := l.filter (· != x)

/-- A message handed out. -/
def State.emit (s : State) (o : Out) : State := { s with out := s.out ++ [o] }

/-- The next free value (log entry 3). -/
def State.free (s : State) : W64 := Config.freeValue s.freeCtr
/-- The state once a free value has been drawn. -/
def State.drew (s : State) : State := { s with freeCtr := s.freeCtr + 1 }

/-- The log with an entry added: a full ring of 2,048 drops its oldest class-1 entry, or its oldest (R443). -/
def logAdd (l : List LogEntry) (e : LogEntry) : List LogEntry :=
  if l.length < 2048 then l ++ [e]
  else match l.findIdx? (fun x => x.cls == 1) with
    | some i => l.eraseIdx i ++ [e]
    | none => l.drop 1 ++ [e]

/-- MSI-X vector v raised (R339): not raised while MSI-X is disabled or the link is down; pending while it is masked. -/
def State.msix (s : State) (v : Nat) : State :=
  if !(s.bget R.cxlStatus 28) || !(s.bget R.cxlStatus 31) then s
  else if s.msixFnMask || !(s.msixOpen.contains v) then { s with msixPend := sIns s.msixPend v }
  else s.emit (.msix v)

/-- An event logged: class, source block (index in Table 1-8), code and data (R443); one of class 0 raises vector 0 (R338). The codes are the model's, log entry 8. -/
def State.log' (s : State) (cls src code : Nat) (data : List Nat) : State :=
  let n := (s.get R.stwLogHead).toNat + 1
  let s := { s with log := logAdd s.log ⟨n, s.get R.hubTimeCount, (s.get R.stwLogBoot).toNat, (s.get R.stwLogTenancy).toNat, cls, src, code, data⟩
                    regs := tset s.regs R.stwLogHead.addr 0 (BitVec.ofNat 64 n) }
  if cls = 0 then s.msix 0 else s

/-! ### Typed tile state -/

/-- The typed state of tile t. -/
def State.tile (s : State) (t : Nat) : Tile := tgetD s.tiles t {}
/-- The typed state of tile t replaced. -/
def State.setTile (s : State) (t : Nat) (x : Tile) : State := { s with tiles := tset s.tiles t {} x }
/-- The typed state of tile t changed. -/
def State.modTile (s : State) (t : Nat) (f : Tile → Tile) : State := s.setTile t (f (s.tile t))

/-- The logical index of a physical tile (R135). -/
def State.ltile (s : State) (t : Nat) : Option Nat := s.l2p.findIdx? (· == t)
/-- The physical tile of a logical index (R135). -/
def State.ptile (s : State) (l : Nat) : Option Nat := s.l2p[l]?

/-- Whether a dressing holds tiles in the fabric (R151). -/
def DState.holds : DState → Bool
  | .loaded => false
  | _ => true

/-- Whether a dressing's tiles run: it is active, or draining before its stop (R153). -/
def Dressing.runs (d : Dressing) : Bool := d.st == .active || (d.st == .deactivating && decide (d.phase ≤ 1))

/-- The handle and dressing that hold a physical tile (R151). -/
def State.dressOf (s : State) (t : Nat) : Option (Nat × Dressing) :=
  match s.ltile t with
  | none => none
  | some l => s.dress.find? fun e => e.2.st.holds && decide (e.2.lbase ≤ l) && decide (l < e.2.lbase + e.2.n)

/-- The handle and dressing that reserve a physical tile, in any state. -/
def State.reservedBy (s : State) (t : Nat) : Option (Nat × Dressing) :=
  match s.ltile t with
  | none => none
  | some l => s.dress.find? fun e => decide (e.2.lbase ≤ l) && decide (l < e.2.lbase + e.2.n)

/-- The context of a tile: that of the dressing that holds it; 0 for an unbound tile, which never runs (R151). -/
def State.ctxOf (s : State) (t : Nat) : Nat := match s.dressOf t with | some e => e.2.ctx | none => 0

/-- The physical tiles of a dressing, in logical order. -/
def State.tilesOf (s : State) (d : Dressing) : List Nat := (s.l2p.drop d.lbase).take d.n

/-! ### Memory -/

/-- Base of a tile's local memory in the physical view (R24). -/
def lmBase (t : Nat) : Nat := 0x010200000000 + t * 0x80000
/-- Whether an address lies in the physical view of tile local memory. -/
def isLm (a : Nat) : Bool := decide (0x010200000000 ≤ a) && decide (a < 0x010244000000)
/-- The unit of memory that is poisoned as a whole: the 16 B word of local memory (R79), the 128 B line elsewhere (R201). -/
def unitLen (a : Nat) : Nat := if isLm a then 16 else 128
def unitBase (a : Nat) : Nat := a - a % unitLen a

/-- The units that n bytes from a touch: their base, and whether the bytes cover it whole. The first argument is fuel. -/
def unitsOf : Nat → Nat → Nat → List (Nat × Bool)
  | 0, _, _ => []
  | _, _, 0 => []
  | k + 1, a, n =>
    let u := unitBase a
    let e := min (u + unitLen a) (a + n)
    (u, decide (a = u) && decide (e = u + unitLen a)) :: unitsOf k e (n - (e - a))

/-- The units that n bytes from a touch. -/
def units (a n : Nat) : List (Nat × Bool) := unitsOf (n / 16 + 2) a n

/-- Whether any byte of a range is marked poisoned. -/
def State.poisoned (s : State) (a n : Nat) : Bool := (units a n).any fun u => s.poison.contains u.1

/-- n bytes of memory from a. -/
def State.read (s : State) (a n : Nat) : List Byte := mread s.mem a n

/-- The poison marks after a write: a unit written whole takes the write's poison; one written in part keeps its own as well
(R79, R460). -/
def poisonAfter (p ue : List Nat) (us : List (Nat × Bool)) (poison : Bool) : List Nat :=
  us.foldl (fun p u => if poison || (!u.2 && (p.contains u.1 || ue.contains u.1)) then sIns p u.1 else if u.2 then sDel p u.1 else p) p

/-- Memory written, with the poison of the data (R79, R460); a unit written whole, or merged, holds no latent error. -/
def State.write (s : State) (a : Nat) (bs : List Byte) (poison : Bool) : State :=
  let us := units a bs.length
  { s with mem := mwrite s.mem a bs
           poison := poisonAfter s.poison s.latentUe us poison
           latentUe := us.foldl (fun l u => sDel l u.1) s.latentUe
           latentCe := us.foldl (fun l u => sDel l u.1) s.latentCe }

/-- A range of memory zeroed, with its marks and latent errors. -/
def State.zero (s : State) (a n : Nat) : State :=
  let out (x : Nat) : Bool := decide (x < a) || decide (a + n ≤ x)
  { s with mem := mzero s.mem a n, poison := s.poison.filter out, latentUe := s.latentUe.filter out, latentCe := s.latentCe.filter out }

/-- The poison mark of every unit of a range set (R79). -/
def State.poisonRange (s : State) (a n : Nat) : State :=
  { s with poison := (units a n).foldl (fun p u => sIns p u.1) s.poison }

/-- Bytes as a little-endian word. -/
def State.word (s : State) (a n : Nat) : Nat := leNat (s.read a n)

/-- Latent errors of a tile's local memory met by an access to n bytes from address a: a correctable one is corrected and
counted; an uncorrectable one marks the word poisoned and is counted (R79). -/
def State.lmMeet (s : State) (t a n : Nat) : State :=
  let us := (units a n).map (·.1)
  let ce := us.filter s.latentCe.contains
  let ue := us.filter s.latentUe.contains
  if ce.isEmpty && ue.isEmpty then s else
  let s := { s with latentCe := ce.foldl sDel s.latentCe, latentUe := ue.foldl sDel s.latentUe, poison := ue.foldl sIns s.poison }
  (s.bump (R.tileLmCe t) 32 ce.length).bump (R.tileLmUe t) 32 ue.length

/-! ### First-record registers (R28) -/

/-- Class code of a master in hub.map.hole_info (Table 1-7). -/
def classCode : MClass → Nat
  | .tile => 0 | .hoist => 1 | .site => 2 | .host => 3 | .core => 4 | .tukosen => 5 | .walker => 6 | .steward => 7 | .syncHome => 8

/-- Whether Table 1-7 gives a master's index a unit. -/
def masterOk (m : Master) : Bool :=
  decide (m.idx < match m.cls with
    | .tile => 2176 | .hoist => 64 | .site => 8 | .host => 1 | .core => 16 | .tukosen => 8 | .walker => 48 | .steward => 1
    | .syncHome => 2)

/-- A first-record register written (R28): its word with valid set; an overflow not yet cleared stays. -/
def State.record (s : State) (r : Reg) (v : Nat) : State := s.set r (BitVec.ofNat 64 (v + b2n (s.bget r 30) * 2 ^ 30))

/-- A hole access recorded (R28), a first record raising vector 1 (R338): access 0 read, 1 write, 2 atomic. -/
def State.hole (s : State) (m : Master) (access : Nat) (gaddr : Nat) : State :=
  if s.bget R.hubMapHoleInfo 31 then s.bset R.hubMapHoleInfo 30 true
  else ((s.set R.hubMapHoleAddr (BitVec.ofNat 64 gaddr)).record R.hubMapHoleInfo
    (0x80000000 + access * 0x10000 + classCode m.cls * 0x1000 + m.idx % 0x1000)).msix 1

/-! ### Safety detections and conservation breaches -/

/-- A safety detection (R446): the first recorded, counted, logged as class 0 (class 1 when injected, R465), vector 2 raised. -/
def State.detect (s : State) (mech domain detail : Nat) (injected : Bool) : State :=
  let s := if s.bget R.safRecStatus 31 then s.bset R.safRecStatus 30 true
    else (s.record R.safRecStatus
      (0x80000000 + b2n injected * 0x20000000 + mech % 16 * 0x1000000 + domain % 256 * 256 + detail % 256)).set R.safRecTime (s.get R.hubTimeCount)
  let s := s.fset R.safStatus 15 0 (satInc 16 (s.fget R.safStatus 15 0) 1)
  let s := if mech = 5 then s.bump R.safCntDatapath 32 1 else if mech = 3 ∨ mech = 9 then s.bump R.safCntTemp 32 1
    else if mech = 8 then s.bump R.safCntWdog 32 1 else if mech = 0xA then s.bump R.safCntParity 32 1 else s
  let s := s.log' (if injected then 1 else 0) 5 mech [domain, detail]
  s.msix 2

/-- A conservation breach recorded (R302), vector 2 raised (R459): quantity, unit, constant minus the sum found, and whether it arose under R301. -/
def State.breach (s : State) (q unit : Nat) (delta : Int) (ue : Bool) : State :=
  let s := if s.bget R.hubConsStatus 31 then s.bset R.hubConsStatus 30 true
    else ((s.record R.hubConsStatus (0x80000000 + b2n ue * 0x20000000 + q % 16 * 0x100000 + unit % 65536)).set R.hubConsDelta
      (if ue then 0 else BitVec.ofInt 64 delta)).msix 1
  ((s.bump R.hubConsCount 32 1).log' 0 0 2 [q, unit]).msix 2

/-- Whether the structure that holds a count has an uncorrectable error that no read has met (R301). -/
def State.countUe (s : State) (q unit : Nat) : Bool := s.conUe.contains (q, unit)
/-- The error of a structure that holds a count met by a read: reported as a breach of the quantity (R301). -/
def State.countMet (s : State) (q unit : Nat) : State := { s with conUe := s.conUe.filter (· != (q, unit)) }.breach q unit 0 true

/-- The region reset of a bench owed to the steward (R457, Table 12-4). -/
def State.oweReset (s : State) (b : Nat) : State := { s with rst := { s.rst with due := sIns s.rst.due b } }

/-- A parity error of a bench's router or TLB met by a read (R457): a detection, and the bench reset owed; none while it is owed already. -/
def State.parityMet (s : State) (b : Nat) : State := if s.rst.due.contains b then s else (s.detect 0xA b 0 false).oweReset b

/-- A buffer word of a bench's router read (R457). -/
def State.routerRead (s : State) (b : Nat) : State :=
  if s.rtrPar.contains b then { s with rtrPar := sDel s.rtrPar b }.parityMet b else s

/-! ### Sync objects (chapter 11) -/

/-- The half an object is homed in. -/
def syncHalf (obj : Nat) : Nat := if obj < 4096 then 0 else 1

/-- One operation counted at its home (Table 12-1): received and performed, and, where it is a write or Atomic, counted as one and acknowledged; an
uncorrectable error in the home's queue is met (R301). -/
def State.syncTally (s : State) (obj : Nat) (ack : Bool) : State :=
  let s := if s.countUe 5 (syncHalf obj) then s.countMet 5 (syncHalf obj) else s
  let c := tgetD s.syncCnt (syncHalf obj) {}
  { s with syncCnt := tput s.syncCnt (syncHalf obj) ⟨c.received + 1, c.performed + 1, c.acked + b2n ack, c.writes + b2n ack⟩ }

/-- One waiter released (R288): the update is sent to its tile and its entry is dropped. -/
def State.release (s : State) (t : Nat) : State :=
  match tget s.waiters t with
  | none => s
  | some w =>
    let s := { s with waiters := tdel s.waiters t, updates := s.updates ++ [t] }
    s.fset (R.syncStatus w.obj) 11 0 (s.fget (R.syncStatus w.obj) 11 0 - 1)

/-- The waiters of an object whose threshold a count meets. -/
def State.metBy (s : State) (obj c : Nat) : List Nat :=
  (s.waiters.filter fun e => e.2.obj == obj && decide (e.2.thresh ≤ c)).map (·.1)

/-- Notifier k of an object fired if it is armed and the count meets its threshold (R289). -/
def State.fire (s : State) (obj k : Nat) : State :=
  let act := s.get (R.syncAction obj k)
  let th := (s.get (R.syncThresh obj k)).toNat
  let c := s.get (R.syncCount obj)
  if fld act 63 60 = 0 ∨ c.toNat < th then s
  else
    let s := { s with nq := s.nq ++ [NAct.mk obj (fld act 63 60) (fld act 59 58) (fld act 57 45) (s.get (R.syncArg obj k)) c] }
    if fld act 31 0 = 0 ∨ 2 ^ 64 ≤ th + fld act 31 0 then s.fset (R.syncAction obj k) 63 60 0
    else s.set (R.syncThresh obj k) (BitVec.ofNat 64 (th + fld act 31 0))

/-- A service core in FWAIT that a count satisfies resumes: rd takes the count (R365). -/
def coreFree (obj : Nat) (c : W64) (e : Nat × SCore) : Nat × SCore :=
  match e.2.wait with
  | some (o, th, rd) =>
    if o = obj ∧ th.toNat ≤ c.toNat then (e.1, { e.2 with wait := none, x := if rd = 0 then e.2.x else tset e.2.x rd 0 c }) else e
  | none => e

/-- What follows every operation on an object's count: waiters it meets are released, armed notifiers it meets fire (R288,
R289). -/
def State.syncAfter (s : State) (obj : Nat) : State :=
  let s := { s with svc := { s.svc with cores := s.svc.cores.map (coreFree obj (s.get (R.syncCount obj))) } }
  let s := (s.metBy obj (s.get (R.syncCount obj)).toNat).foldl State.release s
  (s.fire obj 0).fire obj 1

/-- The count of an object set, as one operation at its home (R283). -/
def State.syncSet (s : State) (obj : Nat) (v : W64) (ack : Bool) : State :=
  ((s.syncTally obj ack).set (R.syncCount obj) v).syncAfter obj

/-- An add to an object (R283): modulo 2^64, setting wrap when it wraps. -/
def State.syncAdd (s : State) (obj : Nat) (v : W64) (ack : Bool) : State :=
  let c := s.get (R.syncCount obj)
  let s := if 2 ^ 64 ≤ c.toNat + v.toNat then s.bset (R.syncStatus obj) 31 true else s
  s.syncSet obj (c + v) ack

/-- The completion add of an engine or command (R292); object 0xFFFF, or any beyond the last, signals nothing. -/
def State.signal (s : State) (obj : Nat) : State := if obj < 8192 then s.syncAdd obj 1 false else s

/-- An object's count set to 0 and both notifiers disarmed (R295), with its ownership fields. -/
def State.syncClear (s : State) (obj owner handle : Nat) : State :=
  let s := ((s.set (R.syncCount obj) 0).fset (R.syncAction obj 0) 63 60 0).fset (R.syncAction obj 1) 63 60 0
  (s.fset (R.syncStatus obj) 29 28 owner).fset (R.syncStatus obj) 27 22 handle

/-- A tile's waiter entry dropped without a release (Table 11-4, context kill). -/
def State.dropWaiter (s : State) (t : Nat) : State :=
  match tget s.waiters t with
  | none => s
  | some w =>
    { s with waiters := tdel s.waiters t }.fset (R.syncStatus w.obj) 11 0 (s.fget (R.syncStatus w.obj) 11 0 - 1)

/-! ### Translation references -/

/-- A bench TLB entry's count raised by one transfer (R99). -/
def State.tlbHold (s : State) (k : Nat) : State :=
  match tget s.tlb k with
  | none => s
  | some e => { s with tlb := tput s.tlb k { e with refs := e.refs + 1 } }

/-- A bench TLB entry's count given back (R238); a retiring entry whose count reaches 0 is dropped (Table 8-2). -/
def State.tlbDrop (s : State) (k : Nat) : State :=
  match tget s.tlb k with
  | none => s
  | some e =>
    if e.refs ≤ 1 ∧ e.retiring ≠ [] then { s with tlb := tdel s.tlb k }
    else { s with tlb := tput s.tlb k { e with refs := e.refs - 1 } }

/-! ### Isolation (R136) -/

/-- A tile isolated for a reason (bit of Saf.why), and marked in hub.map.p2l. -/
def State.isoSet (s : State) (t why : Nat) : State :=
  { s with isolated := sIns s.isolated t, saf := { s.saf with why := tput s.saf.why t (tgetD s.saf.why t 0 ||| 2 ^ why) } }.bset (R.hubMapP2l t) 30 true

/-- A reason for a tile's isolation lifted; with none left the tile is isolated no longer. -/
def State.isoClear (s : State) (t why : Nat) : State :=
  let w := tgetD s.saf.why t 0
  if !nbit w why then s
  else
    let w := w - 2 ^ why
    let s := { s with saf := { s.saf with why := tset s.saf.why t 0 w } }
    if w = 0 then { s with isolated := sDel s.isolated t }.bset (R.hubMapP2l t) 30 false else s

end Sys2Proof.Machine
end

