-- ==== Sys2Proof/Machine/UcieLink.lean ====
section
/-! DEFINITION. Sending to a chiplet (chapter 10): modules, link credits, sequence numbers and the replay buffer. The model puts one
message in a flit (log entry 23). -/

namespace Sys2Proof.Machine

/-- A module's typed state, and its replacement. -/
def State.mod (s : State) (k : Nat) : ModSt := tgetD s.mods k {}
def State.setMod (s : State) (k : Nat) (x : ModSt) : State := { s with mods := tset s.mods k {} x }

/-- Enabled modules of a site, in ascending order. -/
def State.siteMods (s : State) (n : Nat) : List Nat := (List.range 12).filter fun m => nbit (s.fget (R.siteStatus n) 11 0) m

/-- The module that carries the messages of an address (R270). -/
def State.modSel (s : State) (n a : Nat) : Nat :=
  let l := s.siteMods n
  l.getD (a % 2 ^ 46 / 128 % max 1 l.length) 0

/-- Whether a module moves flits: its site's module is enabled and active. -/
def State.modUp (s : State) (n m : Nat) : Bool := s.bget (R.siteModStatus n m) 30 && s.fget (R.siteModStatus n m) 24 21 == 5

/-- Whether a site's credits of a REQ pool are withheld: a regulator holds a request of that class at its port (Table 17-2). -/
def State.withheld (s : State) (n p : Nat) : Bool := decide (p < 4) && s.regQ.any fun e => e.1.a == .site n && e.1.tc % 4 == p

/-- Up to 63 credits of each pool whose credits are not withheld, and what is left to return. -/
def takeCret (held : Nat → Bool) (o : Tbl Nat) : List Nat × Tbl Nat :=
  let n (p : Nat) : Nat := if held p then 0 else min 63 (tgetD o p 0)
  ((List.range 11).map n, (List.range 11).foldl (fun o p => tset o p 0 (tgetD o p 0 - n p)) o)

/-- Whether a module has credits to return. -/
def State.modOwes (s : State) (k : Nat) : Bool := (s.mod k).owe.any fun e => !s.withheld (k / 12) e.1

/-- The next waiting message sent, where its pool has a credit and at most 256 flits stay unacknowledged: a kind-0 flit with the
acknowledgement and the credits it returns. -/
def State.modSend (s : State) (k : Nat) : Option State :=
  let x := s.mod k
  match x.waiting.findIdx? (fun e => decide (0 < tgetD x.cred e.1 0)) with
  | none => none
  | some i =>
    if 256 ≤ x.replay.length then none
    else match x.waiting[i]? with
      | none => none
      | some (p, o) =>
        let q := (x.txSeq + 1) % 4096
        let (cr, owe) := takeCret (s.withheld (k / 12)) x.owe
        some (((s.setMod k { x with
          txSeq := q, replay := x.replay ++ [(q, [.ucie (k / 12) (k % 12) 0 q x.rxSeq cr, o])], waiting := x.waiting.eraseIdx i, cred := tset x.cred p 0 (tgetD x.cred p 0 - 1)
          owe := owe, toAck := 0 }).emit (.ucie (k / 12) (k % 12) 0 q x.rxSeq cr)).emit o)

/-- Waiting messages of a module sent while they may go; the first argument is fuel. -/
def State.modPumpGo (s : State) (k : Nat) : Nat → State
  | 0 => s
  | n + 1 => if !s.modUp (k / 12) (k % 12) then s else match s.modSend k with | none => s | some s => s.modPumpGo k n
def State.modPump (s : State) (k : Nat) : State := s.modPumpGo k (s.mod k).waiting.length

/-- A message given to a module of a site, in a pool (R267); while the site is not up there is nothing to take it (R275). -/
def State.siteSend (s : State) (n m pool : Nat) (o : Out) : State :=
  if !s.bget (R.siteStatus n) 31 then s else
  let x := s.mod (12 * n + m)
  (s.setMod (12 * n + m) { x with waiting := x.waiting ++ [(pool, o)] }).modPump (12 * n + m)

/-- A message about a line sent to an agent: a site's on the module of the line, the host's to the port. -/
def State.toAgent (s : State) (a : Agent) (line pool : Nat) (o : Out) : State :=
  match a with
  | .site n => s.siteSend n (s.modSel n line) pool o
  | _ => s.emit o

/-- Pools (R267). -/
abbrev poolSnp : Nat := 4
abbrev poolRsp : Nat := 5
def poolDat (tc : Nat) : Nat := 6 + tc % 4
abbrev poolStr : Nat := 10

end Sys2Proof.Machine
end

