-- ==== Sys2Proof/Machine/Axotte.lean ====
section
/-! DEFINITION. The life of an Axotte command (chapter 15): acceptance, duplicates, the checks of R352, the response, the
completion vector. Each command's meaning gives its own checks and effect to `axotte`. -/

namespace Sys2Proof.Machine

/-- Status codes (Table 15-6). -/
abbrev stDone : Nat := 0
abbrev stUnknown : Nat := 1
abbrev stInvalid : Nat := 2
abbrev stBusy : Nat := 3
abbrev stRefused : Nat := 4
abbrev stNotPermitted : Nat := 5
abbrev stBadLength : Nat := 6
abbrev stDeferred : Nat := 7
abbrev stAborted : Nat := 8
abbrev stRestarted : Nat := 9

/-- Detail codes (Table 15-7). -/
abbrev dBadHeader : Nat := 0x01
abbrev dMalformed : Nat := 0x02
abbrev dKeyUnknown : Nat := 0x03
abbrev dSigInvalid : Nat := 0x04
abbrev dDigest : Nat := 0x05
abbrev dTilesBusy : Nat := 0x06
abbrev dTileUnavail : Nat := 0x07
abbrev dSyncExhausted : Nat := 0x08
abbrev dLinkOversub : Nat := 0x09
abbrev dRouteFull : Nat := 0x0A
abbrev dSiteMismatch : Nat := 0x0B
abbrev dBadHandle : Nat := 0x0C
abbrev dNoHandle : Nat := 0x0D
abbrev dState : Nat := 0x0E
abbrev dSiteNoGrant : Nat := 0x0F
abbrev dContextDead : Nat := 0x10
abbrev dNoSpace : Nat := 0x11
abbrev dNoTable : Nat := 0x12
abbrev dSupplyLow : Nat := 0x13
abbrev dAboveFuse : Nat := 0x14
abbrev dPowerState : Nat := 0x15
abbrev dNotReady : Nat := 0x16
abbrev dHole : Nat := 0x17

/-- What a command's own checks and effect come to: done with a detail code and payload; ended with a status and detail; still
executing, to be ended by a later event; busy, with the microseconds after which a retry can succeed; or to be presented again, once what it reads is here. -/
inductive AxR where
  | done (s : State) (detail : Nat) (payload : List Byte)
  | fail (s : State) (status detail : Nat)
  | refuse (s : State) (detail : Nat) (payload : List Byte)
  | wait (s : State)
  | again (s : State) (us : Nat)
  | hold (s : State)
deriving DecidableEq, Repr

/-- Payload fields of 16, 32 and 64 bits, little-endian (R348). -/
def p16 (v : Nat) : List Byte := leBytes 2 v
def p32 (v : Nat) : List Byte := leBytes 4 v
def p64 (v : Nat) : List Byte := leBytes 8 v

/-- A payload padded to a multiple of 4 bytes (R348). -/
def pad4 (p : List Byte) : List Byte := p ++ List.replicate ((4 - p.length % 4) % 4) 0

/-- Base of a mailbox block (R347). -/
def mbxBase (m : Nat) : Nat := 0x3FF001000000 + 0x10000 * m

/-- The typed state of a mailbox, and its replacement. -/
def State.box (s : State) (m : Nat) : Mbx := tgetD s.mbx m {}
def State.setBox (s : State) (m : Nat) (b : Mbx) : State := { s with mbx := tset s.mbx m {} b }

/-- An interrupt entry pushed to a service core (R366): source 0 notifier, 1 mailbox. -/
def State.svcPush (s : State) (core source value : Nat) : State :=
  let q := tgetD s.svcIrq core []
  if q.length < 64 then
    { s with svcIrq := tset s.svcIrq core [] (q ++ [BitVec.ofNat 64 (2 ^ 63 + source % 4 * 2 ^ 14 + value % 8192)]) }.fset
      (R.svcStatus core) 6 0 (q.length + 1)
  else s.bset (R.svcStatus core) 30 true

/-- Types of the sideband messages the hub sends (Table 10-7). -/
abbrev sbIdReq : Nat := 0x01
abbrev sbSiteMods : Nat := 0x03
abbrev sbPwrGrant : Nat := 0x11
abbrev sbScrubReq : Nat := 0x30
abbrev sbRstNote : Nat := 0x40
abbrev sbMbxDone : Nat := 0x50

/-- The completion vector of mailbox m acted on (Table 15-12). -/
def State.actVec (s : State) (m : Nat) : State :=
  let v := s.get (R.mbxCvec m)
  match fld v 31 28 with
  | 1 => s.msix (16 + m)
  | 2 => s.signal (fld v 15 0)
  | 3 => s.svcPush (fld v 3 0) 1 m
  | 4 => if s.bget (R.siteStatus (m - 16)) 31 then s.emit (.sideband (m - 16) sbMbxDone (fld v 15 0)) else s
  | _ => s

/-- The completion raised where the request asked for it (R353); on a management mailbox the response message on its session
(R360). -/
def State.notify (s : State) (m : Nat) (h : Hdr) (status detail : Nat) (payload : List Byte) : State :=
  if 24 ≤ m then
    match (s.box m).session with
    | some n => s.emit (.mgmt n h status detail payload)
    | none => s
  else if h.notify then s.actVec m else s

/-- The response header (Table 15-5) and payload. -/
def respBytes (h : Hdr) (status detail retry : Nat) (payload : List Byte) : List Byte :=
  leBytes 2 h.cmd ++ leBytes 1 status ++ leBytes 1 detail ++ leBytes 2 payload.length ++ leBytes 2 (min retry 65535)
    ++ leBytes 4 h.tag.toNat ++ leBytes 4 h.seq.toNat ++ payload

/-- A command ended (R353): the response written, with its retry time, the mailbox done, counted, and the completion raised. -/
def State.axEndR (s : State) (m : Nat) (h : Hdr) (status detail retry : Nat) (payload : List Byte) : State :=
  let p := (pad4 payload).take 4080
  let s := { s with mem := mwrite s.mem (mbxBase m + 0x1000) (respBytes h status detail retry p) }
  let s := s.setBox m { (s.box m) with cur := none, begun := false, last := some h }
  let s := s.set (R.mbxStatus m) (setFld (setFld (setFld (setFld (s.get (R.mbxStatus m)) 31 30 3) 28 28 0) 23 16 status) 15 0 h.seq.toNat)
  let s := (s.bump (R.mbxCount m) 32 1).notify m h status detail p
  if (s.box m).flr then (s.setBox m { (s.box m) with flr := false }).set (R.mbxStatus m) 0 else s

def State.axEnd (s : State) (m : Nat) (h : Hdr) (status detail : Nat) (payload : List Byte) : State := s.axEndR m h status detail 0 payload

/-- A duplicate answered (R354): the previous response stands, and is what a session is sent; dup is set. -/
def State.axDup (s : State) (m : Nat) (h : Hdr) : State :=
  let b := mbxBase m + 0x1000
  let s := s.setBox m { (s.box m) with cur := none, begun := false }
  let s := s.set (R.mbxStatus m) (setFld (setFld (s.get (R.mbxStatus m)) 31 30 3) 28 28 1)
  (s.bump (R.mbxCount m) 32 1).notify m h (s.fget (R.mbxStatus m) 23 16) (s.word (b + 3) 1) (s.read (b + 16) (s.word (b + 4) 2))

/-- A command that was executing since an earlier step ended by an event. -/
def State.axFinish (s : State) (m : Nat) (status detail : Nat) (payload : List Byte) : State :=
  match (s.box m).cur with
  | some h => s.axEnd m h status detail payload
  | none => s

/-- The group of a command (R348). -/
def axGroup (cmd : Nat) : Nat := nbits cmd 14 8

/-- Groups accepted before the device is Ready, and while Degraded (chapter 18). -/
def earlyGroup (g : Nat) : Bool := g == 1 || g == 7 || g == 8 || g == 9 || g == 0xA

/-- Groups whose work needs only the keep domain, accepted in Sleep; PWR_STATE_SET also, from a management mailbox (R434). -/
def keepCmd (m cmd : Nat) : Bool :=
  let g := axGroup cmd
  g == 1 || g == 7 || g == 8 || g == 9 || g == 0xA || (decide (24 ≤ m) && cmd % 0x8000 == 0x204)

/-- Why the device as a whole refuses a command, before the command's own checks: a handover executing (R468), or one that ended early (R470), the device
not Ready, or in Sleep (Table 15-8). -/
def axGate (s : State) (m cmd : Nat) : Option (Nat × Nat) :=
  let g := axGroup cmd
  if s.bget R.secTenStatus 31 && decide (m < 24) then some (stRefused, dState)
  else if s.bget R.secTenStatus 30 && decide (m < 24) && g != 1 && g != 8 then some (stRefused, dNotReady)
  else if s.fget R.stwBootStatus 31 29 != 3 && !earlyGroup g then some (stRefused, dNotReady)
  else if s.asleep && !keepCmd m cmd then some (stRefused, dPowerState)
  else none

/-- Two headers with the same cmd, tag and seq (R354). -/
def Hdr.same (a b : Hdr) : Bool := a.cmd == b.cmd && a.tag == b.tag && a.seq == b.seq

/-- Whether the device has passed step 2 of a Sleep entry that is not yet over: doorbells of host mailboxes are then ignored (Table 20-6). -/
def State.drowsing (s : State) : Bool := match s.rst.change with | some c => c.going | none => false

/-- What becomes of a request whose own checks and effect gave r: it completes with a status, detail and payload, goes on executing, or waits at
its mailbox to begin again. -/
def axTakeUp (m : Nat) (h : Hdr) : AxR → State
  | .done s d p => s.axEnd m h stDone d p
  | .fail s st d => s.axEnd m h st d []
  | .refuse s d p => s.axEnd m h stRefused d p
  | .wait s => s
  | .again s us => s.axEndR m h stBusy 0 us []
  | .hold s => s.setBox m { s.box m with begun := false }

/-- A request past its group's gate: refused with what the gate says, or taken up. -/
def axPass (s : State) (m : Nat) (h : Hdr) (body : State → AxR) : Option (Nat × Nat) → State
  | some (st, d) => s.axEnd m h st d []
  | none => axTakeUp m h (body s)

/-- A request begins (R350 to R354): ignored with overrun while another is posted or executing; left posted while the steward
does not run; ignored in Sleep outside management, and once Sleep entry has passed its step 2 if not accepted before (Table 20-6); answered as a duplicate; refused by group or gate; else its own checks and effect. -/
def axotte (s : State) (q : Req) (cmd : Nat) (body : State → AxR) : State :=
  let h : Hdr := ⟨cmd, q.tag, q.seq, q.notify⟩
  let b := s.box q.mbx
  let st := s.fget (R.mbxStatus q.mbx) 31 30
  if !s.powered || (s.asleep && decide (q.mbx < 24)) || (s.drowsing && decide (q.mbx < 16) && b.cur != some h) then s
  else if (st = 1 ∨ st = 2) ∧ (b.cur ≠ some h ∨ b.begun) then s.bset (R.mbxStatus q.mbx) 29 true
  else if !(s.bget R.stwStatus 31) then
    (s.setBox q.mbx { b with cur := some h, begun := false }).fset (R.mbxStatus q.mbx) 31 30 1
  else if b.last.any fun l => l.same h then s.axDup q.mbx h
  else
    let s := (s.setBox q.mbx { b with cur := some h, begun := true }).fset (R.mbxStatus q.mbx) 31 30 2
    if axGroup cmd = 7 ∧ q.mbx < 24 then s.axEnd q.mbx h stNotPermitted 0 []
    else axPass s q.mbx h body (axGate s q.mbx cmd)

/-- Whether another mailbox than m executes a command of the given IDs; whether one of them waits for the bytes that its command reads (log entry 133). -/
def State.runs (s : State) (m : Nat) (ids : List Nat) : Bool :=
  (List.range 28).any fun k => k != m && s.fget (R.mbxStatus k) 31 30 == 2 && (match (s.box k).cur with | some h => ids.contains h.cmd | none => false)
def State.reads (s : State) (ids : List Nat) : Bool :=
  (List.range 28).any fun k => !(s.box k).begun && s.fget (R.mbxStatus k) 31 30 == 2 && (match (s.box k).cur with | some h => ids.contains h.cmd | none => false)

/-- A refusal with a detail code. -/
def refuse (s : State) (d : Nat) : AxR := .fail s stRefused d
/-- An invalid parameter. -/
def invalid (s : State) : AxR := .fail s stInvalid 0
/-- A resource held by another command. -/
def busy (s : State) : AxR := .fail s stBusy 0

/-- A mailbox number that Table 15-2 gives. -/
def mbxOk (q : Req) : Bool := decide (q.mbx < 28)

end Sys2Proof.Machine
end

