-- ==== Sys2Proof/Machine/MemMap.lean ====
section
/-! DEFINITION. The local physical map (R21 to R24) and global addresses (R25, R26): what is backed, where a view's bytes lie,
and which addresses are this device's. -/

namespace Sys2Proof.Machine

/-- Regions of Table 1-5. -/
inductive Region where
  | hbm | scratch | lmLogical | lmPhysical | site (n : Nat) | host | regs | none
deriving DecidableEq, Repr

/-- The region of a local physical address (Table 1-5). -/
def region (a : Nat) : Region :=
  if a < 0x004800000000 then .hbm
  else if 0x010000000000 ≤ a ∧ a < 0x010080000000 then .scratch
  else if 0x010100000000 ≤ a ∧ a < 0x010140000000 then .lmLogical
  else if 0x010200000000 ≤ a ∧ a < 0x010244000000 then .lmPhysical
  else if 0x020000000000 ≤ a ∧ a < 0x0A0000000000 then .site ((a - 0x020000000000) / 0x010000000000)
  else if 0x100000000000 ≤ a ∧ a < 0x200000000000 then .host
  else if 0x3FF000000000 ≤ a ∧ a < 0x400000000000 then .regs
  else .none

/-- This device's ID (R25). -/
def State.ownDev (s : State) : Nat := if s.bget R.tksDevId 31 then s.fget R.tksDevId 17 0 else 0
/-- Device ID and local physical address of a global address (R25). -/
def gDev (g : Nat) : Nat := g / 2 ^ 46 % 2 ^ 18
def gLocal (g : Nat) : Nat := g % 2 ^ 46
/-- The global address of a local physical address of this device. -/
def State.gOwn (s : State) (a : Nat) : Nat := s.ownDev * 2 ^ 46 + a
/-- Whether a global address is this device's (R25). -/
def State.isOwn (s : State) (g : Nat) : Bool := gDev g == s.ownDev

/-- Whether an HBM address is backed (R22). -/
def State.hbmBacked (s : State) (a : Nat) : Bool :=
  decide (a < 0x004800000000) && s.bget R.hubMemStatus 30 && decide (a ≤ (s.get R.hubMapHbmTop).toNat)

/-- Slice and granule of a scratchpad offset (R23). -/
def scrSlice (a : Nat) : Nat := (a - 0x010000000000) / 0x800000
def scrGran (a : Nat) : Nat := (a - 0x010000000000) % 0x800000 / 0x100000

/-- Whether a scratchpad address is backed: its granule is configured as scratchpad, is leaving that mode under no configuration in progress (R207), and is neither disabled nor promoted
(R23, R199, R200). -/
def State.scrBacked (s : State) (a : Nat) : Bool :=
  let c := s.get (R.ssCfg (scrSlice a))
  decide (0x010000000000 ≤ a) && decide (a < 0x010080000000) && !(nbit (fld c 31 24) (scrGran a)) && !(nbit (fld c 23 16) (scrGran a))
    && !(nbit (fld c 15 8) (scrGran a))
    && (match s.ssJob.bind fun j => j.masks with
      | some (mn, ms) => !(nbit (if scrSlice a < 128 then mn else ms) (scrGran a))
      | none => true)

/-- log2 of the window a site declared at its latest identity (Table 10-6, word 4). -/
def State.siteWindow (s : State) (n : Nat) : Nat := s.fget (R.siteId n 4) 7 0

/-- Whether an address of site n's region is backed (Table 1-5, R272). -/
def State.siteBacked (s : State) (n a : Nat) : Bool :=
  s.bget (R.siteStatus n) 31 && decide (a - (0x020000000000 + n * 0x010000000000) < 2 ^ s.siteWindow n)

/-- The coherent range a site declared (Table 10-6, word 4): whether it holds an address. -/
def State.siteCoherent (s : State) (n a : Nat) : Bool :=
  let k := s.fget (R.siteId n 4) 15 8
  let b := s.fget (R.siteId n 4) 31 16 * 2 ^ k
  let o := a - (0x020000000000 + n * 0x010000000000)
  k != 0 && decide (b ≤ o) && decide (o < b + 2 ^ k)

/-- The host-tier window in force that covers an offset of the region (Table 14-10). -/
def State.htWindow (s : State) (o : Nat) : Option Nat :=
  (List.range 64).find? fun k =>
    s.bget (R.cxlHtTier k) 63 && decide (s.fget (R.cxlHtTier k) 43 21 * 2 ^ 21 ≤ o)
      && decide (o < (s.fget (R.cxlHtTier k) 43 21 + s.fget (R.cxlHtSize k) 43 21) * 2 ^ 21)

/-- Whether a byte is backed (Table 1-5); a register address is backed inside a block range of Table 1-8 (R29). -/
def State.backed (s : State) (a : Nat) : Bool :=
  match region a with
  | .hbm => s.hbmBacked a
  | .scratch => s.scrBacked a
  | .lmLogical => decide ((a - 0x010100000000) / 0x80000 < s.l2p.length)
  | .lmPhysical => s.l2p.contains ((a - 0x010200000000) / 0x80000)
  | .site n => s.siteBacked n a
  | .host => (s.htWindow (a - 0x100000000000)).isSome
  | .regs => (blockAt a).isSome
  | .none => false

/-- Where the bytes of an address are stored: a logical view's at the physical view of the same tile (R24). -/
def State.home (s : State) (a : Nat) : Nat :=
  match region a with
  | .lmLogical =>
    let o := a - 0x010100000000
    lmBase (s.l2p.getD (o / 0x80000) 0) + o % 0x80000
  | _ => a

/-- Whether a whole range is backed, tested at each 16 B word it touches (every backed part is a multiple of 16 B). -/
def State.rangeBackedGo (s : State) : Nat → Nat → Nat → Bool
  | 0, _, _ => true
  | k + 1, a, n => if n = 0 then true else s.backed a && s.rangeBackedGo k (a + 16) (n - 16)
def State.rangeBacked (s : State) (a n : Nat) : Bool := s.rangeBackedGo (n / 16 + 2) a n && s.backed (a + (n - 1))

/-- Whether a tile or hoist may read tables there: backed HBM or backed scratchpad of this device (R222, R225). -/
def State.tableBacked (s : State) (a : Nat) : Bool := s.hbmBacked a || (region a == .scratch && s.scrBacked a)

/-- The slice that homes the lines of a slice: the next upward in its half that homes lines, where it is redirected (R200). -/
def State.redirected (s : State) (n : Nat) : Nat :=
  ((List.range 128).map (fun i => n / 128 * 128 + (n % 128 + i) % 128)).find? (fun m => !(s.bget (R.ssCfg m) 0)) |>.getD n

/-- The home slice of an HBM line (R192, R200). -/
def State.homeSlice (s : State) (a : Nat) : Nat :=
  let l := a / 128
  let fold := nbits l 6 0 ^^^ nbits l 13 7 ^^^ nbits l 20 14 ^^^ nbits l 27 21 ^^^ nbits l 31 28
  s.redirected (if a < (s.get R.hubMapHbmSplit).toNat then fold else 128 + fold)

/-- The slice that serves a line of HBM or of scratchpad (R23, R192). -/
def State.sliceOf (s : State) (a : Nat) : Nat := if region a = .scratch then scrSlice a else s.homeSlice a

/-- The half an address is homed in: 0 north, 1 south. -/
def State.halfOf (s : State) (a : Nat) : Nat := s.sliceOf a / 128

end Sys2Proof.Machine
end

