-- ==== Sys2Proof/Machine/TksLink.lean ====
section
/-! DEFINITION. Sending on Tukosen (chapter 13): routes, egress ports with their credits and replay buffers, and the requests a source
keeps until their responses arrive. -/

namespace Sys2Proof.Machine

/-! ### Routes (R310, R312) -/

/-- Whether a port is up. -/
def State.portUp (s : State) (p : Nat) : Bool := s.bget (R.tksStatus p) 31

/-- A port's typed state, replaced and changed. -/
def State.port (s : State) (p : Nat) : PortSt := tgetD s.ports p {}
def State.setPort (s : State) (p : Nat) (x : PortSt) : State := { s with ports := tset s.ports p {} x }
def State.modPort (s : State) (p : Nat) (f : PortSt → PortSt) : State := s.setPort p (f (s.port p))

/-- The routing entry for a destination: by group where the groups differ, else by member. -/
def State.rtEntry (s : State) (dst : Nat) : W64 :=
  if nbits dst 17 9 = nbits s.ownDev 17 9 then s.get (R.tksRtMem (nbits dst 8 0)) else s.get (R.tksRtGrp (nbits dst 17 9))

/-- The egress port for a destination, whether frames leaving by it enter lane 1, and whether it is the primary; none where the
destination is unreachable: the primary where it is up and valid is set, the alternate where the primary is not up and alt_valid is set (R310,
Table 13-11). -/
def State.route (s : State) (dst : Nat) : Option (Nat × Bool × Bool) :=
  let e := s.rtEntry dst
  if s.portUp (fld e 6 4) then (if bit e 15 then some (fld e 6 4, bit e 13, true) else none)
  else if bit e 14 then some (fld e 2 0, bit e 12, false)
  else none

/-- Whether the device takes part in Tukosen traffic (R309). -/
def State.tksOn (s : State) : Bool := s.bget R.tksDevId 31 && s.fget R.tksDevPart 15 0 != 0

/-! ### Egress (R317, R318, R323) -/

/-- The credit pool of a frame, and the cells it uses: by the payload it carries. -/
def framePool (f : Frame) : Nat := 8 * f.lane + 4 * b2n f.resp + f.tc
def frameCells (f : Frame) : Nat := cdiv (48 + f.payload.length) 256

/-- Two pools with cells to return, of 12 bits each, and what is left to return. -/
def takeOwe (o : Tbl Nat) : (Nat × Nat) × (Nat × Nat) × Tbl Nat :=
  match o with
  | [] => ((0, 0), (0, 0), [])
  | [(p, n)] => ((p, min n 4095), (0, 0), tset [] p 0 (n - min n 4095))
  | (p, n) :: (q, m) :: r =>
    ((p, min n 4095), (q, min m 4095), tset (tset r q 0 (m - min m 4095)) p 0 (n - min n 4095))

/-- Bytes of the unacknowledged frames of a port. -/
def PortSt.replayBytes (x : PortSt) : Nat := x.replay.foldl (fun n f => n + 66 + f.payload.length) 0

/-- Entries of a queue with no earlier entry of their pool, by index. -/
def queueHeads : List TxE → Nat → List Nat → List (Nat × TxE)
  | [], _, _ => []
  | e :: r, i, seen =>
    if seen.contains (framePool e.f) then queueHeads r (i + 1) seen else (i, e) :: queueHeads r (i + 1) ((framePool e.f) :: seen)

/-- Bytes of a frame at a port, and the quantum of the round robin for each unit of weight (R387). -/
def frameBytes (f : Frame) : Nat := 66 + f.payload.length
abbrev drrQuantum : Nat := 4162

/-- The classes after a class in the round of classes 1 to 3, itself last. -/
def drrOrder (c : Nat) : List Nat := [c % 3 + 1, (c + 1) % 3 + 1, (c + 2) % 3 + 1]

/-- Deficit round robin among classes 1 to 3 (R387): the class being served goes on while its deficit holds its frame; else the next class with a frame
takes a quantum for each unit of its weight. A class with no frame left keeps no deficit. The answer names the frame, the deficits and the class served. -/
def PortSt.drrPick (x : PortSt) (w : Nat → Nat) (ok : List (Nat × TxE)) : Option ((Nat × TxE) × Tbl Nat × Nat) :=
  let head (c : Nat) := ok.find? fun e => e.2.f.tc == c
  let here : Option ((Nat × TxE) × Tbl Nat × Nat) := match head x.drrAt with
    | some e =>
      if frameBytes e.2.f ≤ tgetD x.drr x.drrAt 0 then some (e, tset x.drr x.drrAt 0 (tgetD x.drr x.drrAt 0 - frameBytes e.2.f), x.drrAt) else none
    | none => none
  match here with
  | some r => some r
  | none =>
    let d := if x.queue.any (fun e => e.f.tc == x.drrAt) then x.drr else tdel x.drr x.drrAt
    (drrOrder x.drrAt).findSome? fun c => match head c with
      | some e =>
        let v := tgetD d c 0 + drrQuantum * w c
        if frameBytes e.2.f ≤ v then some (e, tset d c 0 (v - frameBytes e.2.f), c) else none
      | none => none

/-- The frame a port sends next, with cells and replay room for it: class 0 first, else by the weights of classes 1 to 3 (R323, R387). -/
def PortSt.pick (x : PortSt) (w : Nat → Nat) : Option ((Nat × TxE) × Tbl Nat × Nat) :=
  let ok := (queueHeads x.queue 0 []).filter fun e =>
    decide (frameCells e.2.f ≤ tgetD x.cells (framePool e.2.f) 0) && decide (x.replay.length < 1024)
      && decide (x.replayBytes + 66 + e.2.f.payload.length ≤ 0x200000)
  match ok.find? (fun e => e.2.f.tc == 0) with
  | some e => some (e, x.drr, x.drrAt)
  | none => x.drrPick w ok

/-- The weight of class c in force: that of the last window boundary (Tables 17-3 and 17-6). -/
def State.classW (s : State) (c : Nat) : Nat := fld (s.regW.getD (s.get R.regClassW)) (8 * c - 1) (8 * c - 8)

/-- Cells of a frame that has left its buffer, to be returned at the port it came in by (R318). -/
def State.oweCells (s : State) (b : Option (Nat × Nat × Nat)) : State :=
  match b with
  | none => s
  | some (p, q, n) => s.modPort p fun x => { x with owe := tset x.owe q 0 (tgetD x.owe q 0 + n) }

/-- One frame sent: numbered, kept for replay, with the acknowledgement and credits it carries. -/
def State.sendOne (s : State) (p i : Nat) (e : TxE) : State :=
  let x := s.port p
  let (c0, c1, o) := takeOwe x.owe
  let f := { e.f with lseq := x.txSeq, lack := x.rxSeq, part := s.fget R.tksDevPart 15 0, cr0 := c0, cr1 := c1 }
  let s := s.setPort p { x with
    queue := x.queue.eraseIdx i, txSeq := (x.txSeq + 1) % 65536, replay := x.replay ++ [f], owe := o, toAck := 0
    cells := tset x.cells (framePool f) 0 (tgetD x.cells (framePool f) 0 - frameCells f) }
  ((s.bump (R.tksTx p) 64 1).emit (.frame p f)).oweCells e.back

/-- Frames sent while the port is up and one may go; the first argument is fuel. -/
def State.pumpGo (s : State) (p : Nat) : Nat → State
  | 0 => s
  | n + 1 =>
    if !s.portUp p || !s.tksOn then s
    else match (s.port p).pick s.classW with
      | none => s
      | some ((i, e), d, c) => ((s.modPort p fun x => { x with drr := d, drrAt := c }).sendOne p i e).pumpGo p n
def State.pump (s : State) (p : Nat) : State := s.pumpGo p (s.port p).queue.length

/-- A frame given to an egress port. -/
def State.portPut (s : State) (p : Nat) (e : TxE) : State := (s.modPort p fun x => { x with queue := x.queue ++ [e] }).pump p

/-! ### Requests (R320, R321) -/

/-- TCLK cycles of one millisecond, by variant (Table 1-2). -/
def State.tclkMs (s : State) : Nat :=
  match s.fget R.hubIdVariant 15 0 with
  | 3200 => 58750
  | 1800 => 50000
  | _ => 55000

/-- TCLK cycles since a time. -/
def State.since (s : State) (t : W64) : Nat := (s.get R.hubTimeCount - t).toNat

/-- Requests that have ended and were first sent 100 ms ago or more are forgotten (R321). -/
def State.tksTrim (s : State) : State :=
  { s with tksReq := s.tksReq.filter fun e => !(e.2.ended && decide (100 * s.tclkMs ≤ s.since e.2.at0)) }

/-- Outstanding requests of the device. -/
def State.tksOut (s : State) : Nat := (s.tksReq.filter (fun e => !e.2.ended)).length

/-- How far a reqid lies behind the next one, modulo 2^32. -/
def State.reqAge (s : State) (r : Nat) : Nat := (s.tksNext + 2 ^ 32 - r) % 2 ^ 32

/-- The oldest reqid toward a destination that is outstanding or first sent less than 100 ms ago; the request's own where there is
none. -/
def State.tksFloor (s : State) (dst : Nat) : Nat :=
  (s.tksReq.filter (fun e => e.2.f.dst == dst)).foldl (fun b e => if s.reqAge b < s.reqAge e.1 then e.1 else b) s.tksNext

/-- The answer to an issuer that would send a request: it stalls, its destination is unreachable, or the request has been sent. -/
inductive AskR where
  | stall
  | noRoute
  | sent (reqid : W32) (s : State)

/-- A request frame of this device. -/
def State.reqFrame (s : State) (dst tc op aop fmt len : Nat) (addr aux : W64) (payload : List Byte) (poison : Bool) : Frame :=
  ⟨0, 0, 0, 0, (0, 0), (0, 0), op, tc, dst, s.ownDev, max 1 (s.fget R.tksDevCfg 5 0), false, poison, 0, BitVec.ofNat 32 s.tksNext,
    aop, fmt, len, s.tksFloor dst % 65536, addr, aux, payload⟩

/-- A frame put at its egress port in its lane (R312). -/
def State.sendVia (s : State) (r : Nat × Bool × Bool) (f : Frame) (back : Option (Nat × Nat × Nat)) : State :=
  s.portPut r.1 ⟨{ f with lane := if r.2.1 then 1 else f.lane }, back⟩

/-- A request sent (R310, R320, R321). -/
def State.tksAsk (s : State) (why : Purp) (f : Frame) : AskR :=
  let s := s.tksTrim
  if !s.tksOn then .noRoute
  else match s.route f.dst with
    | none => .noRoute
    | some r =>
      if 16384 ≤ s.tksOut ∨ 32768 ≤ s.reqAge (s.tksFloor f.dst) then .stall
      else
        let f := { f with reqid := BitVec.ofNat 32 s.tksNext, floor := s.tksFloor f.dst % 65536 }
        .sent f.reqid ({ s with tksNext := (s.tksNext + 1) % 2 ^ 32
                                tksReq := tput s.tksReq s.tksNext ⟨f, why, s.get R.hubTimeCount, false⟩ }.sendVia r f none)

/-- A request that need not be answered to its issuer at once: the state after it was sent, if it was. -/
def State.tksSend (s : State) (why : Purp) (f : Frame) : Option State :=
  match s.tksAsk why f with
  | .sent _ t => some t
  | _ => none

/-! ### Port states -/

/-- Codes of tks.p.status.state (Table 13-10). -/
abbrev psDown : Nat := 0
abbrev psTraining : Nat := 1
abbrev psHello : Nat := 2
abbrev psUp : Nat := 3
abbrev psRetrain : Nat := 4
abbrev psIsolated : Nat := 5
abbrev psHeld : Nat := 6

/-- The state of a port, and its change; up is set in state up alone. -/
def State.pst (s : State) (p : Nat) : Nat := s.fget (R.tksStatus p) 30 28
def State.setPst (s : State) (p k : Nat) : State := (s.fset (R.tksStatus p) 30 28 k).bset (R.tksStatus p) 31 (k == psUp)

/-- HELLO sent (step 3 of Table 13-2). -/
def State.helloSend (s : State) (p : Nat) : State := s.emit (.linkFrame p 3 s.ownDev (s.fget R.tksDevPart 15 0, p) (0, 0))

/-- Lanes locked: the port says HELLO (step 3). -/
def State.portLocked (s : State) (p : Nat) : State := ((s.bset (R.tksStatus p) 27 true).setPst p psHello).helloSend p

/-- Ports whose steps 3 to 6 are repeated, the partition tag or the ID having changed (Table 13-8): one that retrains repeats them once its lanes are locked
again. -/
def State.portsRejoin (s : State) : State :=
  (List.range 8).foldl (fun s p =>
    let t := s.modPort p fun x => { x with greeted := false, cells := [], cap := [], owe := [] }
    if s.pst p = psUp ∨ s.pst p = psIsolated ∨ s.pst p = psHello then t.portLocked p else if s.pst p = psRetrain then t else s) s

end Sys2Proof.Machine
end

