-- ==== Sys2Proof/Machine/Far.lean ====
section
/-! DEFINITION. What the hub's units read by global address where it is not in memory homed here (R25, R256, R314, R336): host lines, chiplet lines and other
devices, by a request whose answer arrives later; and what the steward reads for a command. -/

namespace Sys2Proof.Machine

/-! ### Requests to the host and to chiplet homes -/

/-- Host physical address of a host-tier offset, where a window covers it (R335). -/
def State.htHpa (s : State) (o : Nat) : Option Nat :=
  (s.htWindow o).map fun k => s.fget (R.cxlHtHost k) 51 21 * 2 ^ 21 + (o - s.fget (R.cxlHtTier k) 43 21 * 2 ^ 21)

/-- Whether the host's memory can be reached: the link is up (R341). -/
def State.hostUp (s : State) : Bool := s.bget R.cxlStatus 31

/-- Codes of the device-to-host requests (R336). -/
abbrev opRdCurr : Nat := 0
abbrev opItoMWr : Nat := 1
abbrev opWrCur : Nat := 2

/-- A request to the host for bytes of one 64 B line of the host tier (R336). -/
def State.hostAsk (s : State) (why : Purp) (k : ReqK) (a n : Nat) (bs : List Byte) : State :=
  let op := match k with | .wrFull => opItoMWr | .wrPart => opWrCur | _ => opRdCurr
  { s with ext := tput s.ext s.extNext ⟨none, a, n, k, why, bs, 1⟩, extNext := s.extNext + 1 }.emit
    (.d2h s.extNext op ((s.htHpa (a - 0x100000000000)).getD 0) bs)

/-- The payload of the DatWr of a write or Atomic of n bytes (R266): a line; a line and its mask, one bit for each byte; or 64 bytes with the operand, and
behind it the compare value, at the address modulo 64. -/
def datWr (k : ReqK) (a n : Nat) (bs : List Byte) : List Byte :=
  match k with
  | .wrPart => leBytes 128 (leNat bs * 2 ^ (8 * (a % 128))) ++ leBytes 16 ((2 ^ n - 1) * 2 ^ (a % 128))
  | .atomic => leBytes 64 (leNat bs * 2 ^ (8 * (a % 64)))
  | _ => bs

/-- A request to the chiplet that homes a line of its window (R256, R277), and the data that follow it (R266). -/
def State.siteAsk (s : State) (why : Purp) (k : ReqK) (a n tc : Nat) (bs : List Byte) (poison : Bool) (aop size : Nat) : State :=
  let site := match region a with | .site x => x | _ => 0
  let tag := s.extNext % 4096
  let s := { s with ext := tput s.ext s.extNext ⟨some site, a, n, k, why, bs, tc⟩, extNext := s.extNext + 1 }
  let s := s.siteSend site (s.modSel site (a / 128 * 128)) (tc % 4) (.req site k (if k = .atomic then a else a / 128 * 128) tag tc 0 0 poison aop size)
  if bs.isEmpty then s
  else s.siteSend site (s.modSel site (a / 128 * 128)) (poolDat tc) (.complete (.site site) a tag 5 (datWr k a n bs) poison)

/-! ### Blocks that engines read -/

/-- The 64 B blocks that n bytes from a global address touch, by number. -/
def blocksOf (g n : Nat) : List Nat := (List.range ((g % 64 + n + 63) / 64)).map fun i => g / 64 + i

/-- Whether a global address is served by memory homed here: HBM, scratchpad or tile local memory. -/
def State.near (s : State) (g : Nat) : Bool :=
  s.isOwn g && (match region (gLocal g) with | .hbm | .scratch | .lmLogical | .lmPhysical => true | _ => false)

/-- Whether an engine's access of n bytes is a hole: an unbacked address (R22 to R24, R272, R335), a register, whose width it is not
(R30), or a device with no route (R26). -/
def State.gHole (s : State) (g n : Nat) : Bool :=
  if s.isOwn g then
    (match region (gLocal g) with | .regs => true | .host => !s.hostUp | _ => false) || !s.rangeBacked (gLocal g) n
  else !s.tksOn || (s.route (gDev g)).isNone

/-- The reason of the first failure among the blocks of a range; 0 for none. -/
def State.gErr (s : State) (g n : Nat) : Nat :=
  if s.near g then 0
  else ((blocksOf g n).filterMap fun b => match tget s.extGot b with | some (_, _, e) => if e = 0 then none else some e | none => none).headD 0

/-- Whether a block is already asked for. -/
def State.asked (s : State) (b : Nat) : Bool :=
  s.ext.any (fun e => match e.2.why with | .line g n => (blocksOf g n).contains b | _ => false)
    || s.tksReq.any (fun e => !e.2.ended && (match e.2.why with | .line g n => (blocksOf g n).contains b | _ => false))

/-- What is missing of a range that is not in memory homed here, asked for (R251, R314, R336): one request for each host line or chiplet line; of another
device, a GET for each 4 KiB at most. -/
def State.farAsk (s : State) (g n tc : Nat) : State :=
  let bs := (blocksOf g n).filter fun b => (tget s.extGot b).isNone && !s.asked b
  if s.isOwn g then
    match region (gLocal g) with
    | .host => bs.foldl (fun s b => s.hostAsk (.line (64 * b) 64) .rdNoAlloc (gLocal (64 * b)) 64 []) s
    | .site _ => ((bs.map (· / 2)).eraseDups).foldl (fun s l => s.siteAsk (.line (128 * l) 128) .rdNoAlloc (gLocal (128 * l)) 128 tc [] false 0 0) s
    | _ => s
  else
    ((bs.map (· / 64)).eraseDups).foldl (fun s p =>
      let xs := bs.filter fun b => b / 64 == p
      let a := 64 * xs.headD 0
      let len := 64 * ((xs.getLast?.getD 0) + 1) - a
      match s.tksAsk (.line a len) (s.reqFrame (gDev g) tc 0x02 0 0 len (BitVec.ofNat 64 (gLocal a)) 0 [] false) with
      | .sent _ s => s
      | .stall => s
      | .noRoute => { s with extGot := (blocksOf a len).foldl (fun t b => tput t b (0, false, 2)) s.extGot }) s

/-- A block answered for an engine. -/
def State.gGot (s : State) (g n : Nat) (data : List Byte) (poison : Bool) (err : Nat) : State :=
  { s with extGot := (blocksOf g n).foldl (fun t b => tput t b (BitVec.ofNat 512 (leNat ((data.drop (64 * b - g)).take 64)), poison, err)) s.extGot }

/-- Whether every block of a range that is not in memory homed here has been brought; its bytes; and the state with them used up. -/
def State.farReady (s : State) (g n : Nat) : Bool := (blocksOf g n).all fun b => (tget s.extGot b).isSome
def State.farBytes (s : State) (g n : Nat) : List Byte :=
  (((blocksOf g n).flatMap fun b => match tget s.extGot b with | some (v, _, _) => leBytes 64 v.toNat | none => []).drop (g % 64)).take n
def State.farUsed (s : State) (g n : Nat) : State := { s with extGot := (blocksOf g n).foldl (fun t b => tdel t b) s.extGot }

/-! ### What the steward reads for a command (R26 to R28, R147) -/

/-- The steward as a master. -/
def steward : Master := ⟨.steward, 0⟩

/-- Whether n bytes that a command names are not all in backed memory. -/
def State.imgHole (s : State) (g n : Nat) : Bool := n == 0 || decide (2 ^ 46 < gLocal g + n) || s.gHole g n

/-- Whether they can be read now. -/
def State.imgReady (s : State) (g n : Nat) : Bool := s.near g || s.farReady g n

/-- The bytes that a command names, once they can be read; none where they lie in a hole. -/
def State.imgBytes (s : State) (g : W64) (n : Nat) : Option (List Byte) :=
  if s.imgHole g.toNat n then none
  else if s.near g.toNat then some (s.read (s.home (gLocal g.toNat)) n)
  else if s.gErr g.toNat n != 0 then none
  else some (s.farBytes g.toNat n)

/-- Whether any of them came poisoned. -/
def State.imgBad (s : State) (g : W64) (n : Nat) : Bool :=
  if s.near g.toNat then s.poisoned (s.home (gLocal g.toNat)) n
  else (blocksOf g.toNat n).any fun b => match tget s.extGot b with | some (_, p, _) => p | none => false

/-- A command that reads n bytes: a hole is recorded, and the command's own check meets it (Table 1-6); bytes that have to be brought are asked for, and the
command is presented again once they are here (log entry 133). -/
def State.withImage (s : State) (g : W64) (n : Nat) (f : State → Option (List Byte) → AxR) : AxR :=
  if s.imgHole g.toNat n then f (s.hole steward 0 g.toNat) none
  else if !s.imgReady g.toNat n then .hold (s.farAsk g.toNat n 0)
  else f (if s.near g.toNat then s else s.farUsed g.toNat n) (s.imgBytes g n)

end Sys2Proof.Machine
end

