-- ==== Sys2Proof/Machine/Keccak.lean ====
section
/-! DEFINITION. SHAKE256 of FIPS 202, which the specification names for digests (R137, R164, R436, R481, R483). -/

namespace Sys2Proof.Machine

/-- The rotation of each lane, by 5 y + x, and the round constants. -/
def keccakRot : List Nat := [0, 1, 62, 28, 27, 36, 44, 6, 55, 20, 3, 10, 43, 25, 39, 41, 45, 15, 21, 8, 18, 2, 61, 56, 14]
def keccakRc : List W64 :=
  [0x0000000000000001, 0x0000000000008082, 0x800000000000808A, 0x8000000080008000, 0x000000000000808B, 0x0000000080000001]
  ++ [0x8000000080008081, 0x8000000000008009, 0x000000000000008A, 0x0000000000000088, 0x0000000080008009, 0x000000008000000A]
  ++ [0x000000008000808B, 0x800000000000008B, 0x8000000000008089, 0x8000000000008003, 0x8000000000008002, 0x8000000000000080]
  ++ [0x000000000000800A, 0x800000008000000A, 0x8000000080008081, 0x8000000000008080, 0x0000000080000001, 0x8000000080008008]

/-- One round of Keccak-f[1600] on 25 lanes, lane (x, y) at 5 y + x. -/
def keccakRound (a : List W64) (rc : W64) : List W64 :=
  let c := (List.range 5).map fun x => (List.range 5).foldl (fun v y => v ^^^ a.getD (5 * y + x) 0) 0
  let d := (List.range 5).map fun x => c.getD ((x + 4) % 5) 0 ^^^ (c.getD ((x + 1) % 5) 0).rotateLeft 1
  let t := a.zipIdx.map fun p => p.1 ^^^ d.getD (p.2 % 5) 0
  let b := (List.range 25).map fun i => let k := 5 * (i % 5) + (i % 5 + 3 * (i / 5)) % 5; (t.getD k 0).rotateLeft (keccakRot.getD k 0)
  let e := (List.range 25).map fun i =>
    let y := i / 5 * 5
    b.getD i 0 ^^^ (~~~ b.getD (y + (i % 5 + 1) % 5) 0 &&& b.getD (y + (i % 5 + 2) % 5) 0)
  match e with
  | v :: r => (v ^^^ rc) :: r
  | [] => []
def keccakF (a : List W64) : List W64 := keccakRc.foldl keccakRound a

/-- A block of 136 bytes taken into the state. -/
def keccakTake (a : List W64) (bs : List Byte) : List W64 :=
  keccakF (a.zipIdx.map fun p => if p.2 < 17 then p.1 ^^^ BitVec.ofNat 64 (leNat ((bs.drop (8 * p.2)).take 8)) else p.1)

/-- The padding of SHAKE256 behind a message of n bytes. -/
def shakePad (n : Nat) : List Byte :=
  let k := 136 - n % 136
  if k = 1 then [0x9F] else 0x1F :: (List.replicate (k - 2) 0 ++ [0x80])

/-- Blocks taken in, one after the other; the first argument is their number. -/
def shakeIn : Nat → List W64 → List Byte → List W64
  | 0, a, _ => a
  | n + 1, a, bs => shakeIn n (keccakTake a (bs.take 136)) (bs.drop 136)

/-- SHAKE256 with n bytes of output, at most 136. -/
@[irreducible] def shakeBytes (bs : List Byte) (n : Nat) : List Byte :=
  ((shakeIn (bs.length / 136 + 1) (List.replicate 25 0) (bs ++ shakePad bs.length)).flatMap fun v => leBytes 8 v.toNat).take n

/-- SHAKE256 with 64 bytes of output, the first byte lowest (R137). -/
def shake256 (bs : List Byte) : BitVec 512 := BitVec.ofNat 512 (leNat (shakeBytes bs 64))

end Sys2Proof.Machine
end

