-- ==== Sys2Proof/Machine/Meas.lean ====
section
/-! DEFINITION. The measurement set of attestation (R485, R486), and the retained library (R461, R472). -/

namespace Sys2Proof.Machine

/-- A persistent word. -/
def State.prbW (s : State) (n : Nat) : W32 := BitVec.ofNat 32 (s.get (R.prbWord n)).toNat
/-- Persistent words as bytes. -/
def State.prbBytes (s : State) (first n : Nat) : List Byte := (List.range n).flatMap fun k => leBytes 4 (s.prbW (first + k)).toNat

/-- The digest of the firmware in a slot. -/
def State.fwDigest (s : State) (slot : Nat) : BitVec 512 := (tget s.sec.fwDigest slot).getD (Config.shippedDigest slot)

/-- A block of the measurement set (Table 22-8); an omitted block is none. -/
def State.measBlock (s : State) (i : Nat) : Option (List Byte) :=
  let dig (d : BitVec 512) : List Byte := leBytes 64 d.toNat
  match i with
  | 1 => some (dig (Config.shippedDigest 2))
  | 2 => some (dig (s.fwDigest (s.fget R.secFwStatus 30 30)))
  | 3 => some (leBytes 3 (s.fget R.stwStatus 23 0) ++ leBytes 1 (s.fget R.secFwStatus 15 8) ++ leBytes 1 (s.fget R.secFwStatus 23 16) ++ leBytes 1 (s.fget R.secFwStatus 30 30))
  | 4 => some (leBytes 2 (s.fget R.secLcStatus 15 0) ++ leBytes 1 (s.fget R.hubIdGrade 0 0) ++ leBytes 1 s.sec.scopes)
  | 5 => some (leBytes 4 (s.get R.hubIdProgramme).toNat ++ leBytes 8 (s.get R.hubIdSitemap).toNat ++ leBytes 8 (s.get R.hubIdModule).toNat
      ++ leBytes 8 (s.get (R.hubIdOb 0)).toNat ++ leBytes 8 (s.get (R.hubIdOb 1)).toNat)
  | 6 => some (leBytes 4 (s.get R.stwBootShort).toNat ++ leBytes 8 (s.get R.stwBootDisagree).toNat ++ leBytes 2 (s.fget R.hubMapTiles 11 0)
      ++ (List.range 6).flatMap (fun t => leBytes 1 (popcount 32 (s.get (R.hbmChmap t)).toNat)) ++ leBytes 1 (s.fget R.stwBootStatus 27 27))
  | 7 => some ((List.range 8).flatMap (fun n => leBytes 4 (s.get (R.siteStatus n)).toNat ++ leBytes 4 (s.get (R.siteId n 2)).toNat
      ++ leBytes 4 (s.get (R.siteId n 3)).toNat) ++ leBytes 1 (s.fget R.secTenStatus 23 16))
  | 8 => some (dig (shake256 (s.prbBytes 0x10 0x70)))
  | 9 => if s.bget R.secLibStatus 63 then some (dig s.sec.libDigest) else none
  | 10 => if s.svc.loaded then some (dig s.svc.digest ++ leBytes 8 s.svc.fwId.toNat) else none
  | 11 => some (s.dress.flatMap fun e => leBytes 2 e.1 ++ leBytes 8 e.2.dressId.toNat ++ dig e.2.digest)
  | 12 => some (leBytes 4 (s.get R.tksDevId).toNat ++ leBytes 2 (s.fget R.tksDevPart 15 0) ++ dig (shake256 (s.prbBytes 0x200 0x200)))
  | 13 => some (leBytes 4 (s.get R.secTenCount).toNat ++ leBytes 4 (s.fget R.ctxStoreStatus 23 16) ++ leBytes 4 (s.get R.secTenStatus).toNat)
  | 14 => some (leBytes 2 (s.fget R.agePlanStatus 15 0) ++ leBytes 1 (s.fget R.agePlanStatus 30 29))
  | _ => none

/-- A new measurement set committed at once (R486). -/
def State.measCommit (s : State) : State :=
  { s with sec := { s.sec with meas := (List.range 15).filterMap fun i => (s.measBlock i).map fun b => (i, b) } }

/-- The retained library's range, while it is valid: base and length. -/
def State.libRange (s : State) : Nat × Nat :=
  if s.bget R.secLibStatus 63 then (s.fget R.secLibStatus 45 21 * 2 ^ 21, s.fget R.secLibStatus 61 46 * 2 ^ 21) else (0, 0)

/-- Whether a range meets the valid library, where writes and Atomics are holes (R472). -/
def State.libHit (s : State) (a n : Nat) : Bool := decide (a < s.libRange.1 + s.libRange.2) && decide (s.libRange.1 < a + n)

/-- An uncorrectable error met in the library (R461): the whole library invalid, and measured no longer. -/
def State.libFail (s : State) : State :=
  ((s.bset R.secLibStatus 63 false).bset R.safStatus 28 true).measCommit

end Sys2Proof.Machine
end

