-- ==== Sys2Proof/Machine/SlhDsa.lean ====
section
/-! DEFINITION. Verification of SLH-DSA-SHAKE-256s, which the specification names for images and tokens (R139, R480), as FIPS 205 defines it in its pure form
with an empty context. -/

namespace Sys2Proof.Machine

/-- An address: layer, tree, type, and three words. -/
def slhAdrs (layer tree ty a b c : Nat) : List Byte := beBytes 4 layer ++ beBytes 12 tree ++ beBytes 4 ty ++ beBytes 4 a ++ beBytes 4 b ++ beBytes 4 c

/-- The i-th of the 32-byte strings of a signature. -/
def slhAt (sig : List Byte) (i : Nat) : List Byte := (sig.drop (32 * i)).take 32

/-- Digits of b bits each, the most significant first. -/
def slhDigits (bs : List Byte) (b n : Nat) : List Nat := (List.range n).map fun i => beNat bs / 2 ^ (8 * bs.length - b * (i + 1)) % 2 ^ b

/-- A node's way up from its index through m siblings, whose strings begin at i; `up` hashes a pair at a height and index. -/
def slhClimb (up : Nat → Nat → List Byte → List Byte) (sig : List Byte) (i idx m : Nat) (leaf : List Byte) : List Byte :=
  (List.range m).foldl (fun node j =>
    let sib := slhAt sig (i + j)
    up (j + 1) (idx / 2 ^ (j + 1)) (if idx / 2 ^ j % 2 = 0 then node ++ sib else sib ++ node)) leaf

/-- The one-time public key that a signature of a 32-byte string gives: 67 chains of 4-bit digits. -/
def slhWots (seed : List Byte) (layer tree key : Nat) (sig msg : List Byte) : List Byte :=
  let ds := slhDigits msg 4 64
  let sum := ds.foldl (fun n d => n + (15 - d)) 0
  let ds := ds ++ slhDigits (beBytes 2 (16 * sum)) 4 3
  let ends := ds.zipIdx.flatMap fun p =>
    (List.range (15 - p.1)).foldl (fun x j => shakeBytes (seed ++ slhAdrs layer tree 0 key p.2 (p.1 + j) ++ x) 32) (slhAt sig p.2)
  shakeBytes (seed ++ slhAdrs layer tree 1 key 0 0 ++ ends) 32

/-- The root that a layer's signature gives: one-time key, then 8 siblings. -/
def slhXmss (seed : List Byte) (layer tree idx : Nat) (sig msg : List Byte) : List Byte :=
  slhClimb (fun h i x => shakeBytes (seed ++ slhAdrs layer tree 2 0 h i ++ x) 32) sig 67 idx 8 (slhWots seed layer tree idx sig msg)

/-- The FORS public key that a signature gives: 22 trees of height 14. -/
def slhFors (seed : List Byte) (tree key : Nat) (sig md : List Byte) : List Byte :=
  let roots := (slhDigits md 14 22).zipIdx.flatMap fun p =>
    let base := p.2 * 2 ^ 14 + p.1
    slhClimb (fun h i x => shakeBytes (seed ++ slhAdrs 0 tree 3 key h i ++ x) 32) sig (15 * p.2 + 1) base 14
      (shakeBytes (seed ++ slhAdrs 0 tree 3 key 0 base ++ slhAt sig (15 * p.2)) 32)
  shakeBytes (seed ++ slhAdrs 0 tree 4 key 0 0 ++ roots) 32

/-- The eight layers of the hypertree, from the leaf up; the layer, the tree, the leaf, the strings left, the node. -/
def slhTree (seed : List Byte) : Nat → Nat → Nat → Nat → List Byte → List Byte → List Byte
  | 0, _, _, _, _, node => node
  | n + 1, layer, tree, idx, sig, node => slhTree seed n (layer + 1) (tree / 256) (tree % 256) (sig.drop 2400) (slhXmss seed layer tree idx sig node)

/-- Whether a signature of a message verifies under a public key of 64 bytes: seed, then root. -/
@[irreducible] def slhVerify (key : BitVec 512) (msg sig : List Byte) : Bool :=
  let k := leBytes 64 key.toNat
  let seed := k.take 32
  let root := k.drop 32
  let dig := shakeBytes (sig.take 32 ++ k ++ 0 :: 0 :: msg) 47
  let tree := beNat ((dig.drop 39).take 7)
  let leaf := beNat ((dig.drop 46).take 1)
  sig.length == 29792 && slhTree seed 8 0 tree leaf (sig.drop 10592) (slhFors seed tree leaf ((sig.drop 32).take 10560) (dig.take 39)) == root

end Sys2Proof.Machine
end

