-- ==== Sys2Proof/Machine/Kill.lean ====
section
/-! DEFINITION. The context kill, which is this block's one exception entry: what it records, what it stops and what it clears. -/

namespace Sys2Proof.Machine

/-! ### The context kill (R68, R90, R94, R95, R156) -/

/-- A kill cause recorded in a tile (R94): the first record stays. -/
def State.recordKill (s : State) (t cause unit detail : Nat) (addr : W64) : State :=
  if s.bget (R.tileErrStatus t) 31 then s.bset (R.tileErrStatus t) 30 true
  else
    let s := (s.fset (R.tileErrStatus t) 31 31 1).fset (R.tileErrStatus t) 23 16 cause
    let s := (s.fset (R.tileErrStatus t) 11 8 unit).fset (R.tileErrStatus t) 7 0 detail
    (s.set (R.tileErrAddr t) addr).fset (R.tileErrCtx t) 11 0 (s.ctxOf t)

/-- Free credits of an attached lane: those its consumer port granted, less the flits on their way (R184). -/
def State.laneCredits (s : State) (l : Lane) : Nat :=
  s.fget (R.tileSinStat l.ptile l.port) 12 0 - (tgetD s.flight (4 * l.ptile + l.port) []).length

/-- Flits put on their way to the consumer port of a lane of hoist n, and counted (R184, Table 6-18). -/
def State.laneSend (s : State) (n : Nat) (l : Lane) (fs : List Flit) : State :=
  let k := 4 * l.ptile + l.port
  if fs.isEmpty then s
  else { s with flight := tput s.flight k (tgetD s.flight k [] ++ fs) }.bump (R.ctxBytes n) 64 (64 * fs.length)

/-- The lanes that carry a gather's element plane and scale plane (Table 6-10). -/
def Gather.elane (g : Gather) : Nat := fld (g.words.getD 2 0) 14 12
def Gather.slane (g : Gather) : Nat := fld (g.words.getD 2 0) 11 9

/-- What ring lane k of hoist n has for lane j, sent as far as credits allow; in the hold every lane stops at a flit boundary (R452). -/
def State.lanePushFrom (s : State) (n j k : Nat) : State :=
  match tget s.lanes (8 * n + j), tget s.lanes (8 * n + k) with
  | some l, some r =>
    match r.cur with
    | none => s
    | some g =>
      if s.bget R.safStatus 29 then s else
      let c := s.laneCredits l
      if g.elane = j then
        { s with lanes := tput s.lanes (8 * n + k) { r with cur := some { g with eflits := g.eflits.drop c } } }.laneSend n l (g.eflits.take c)
      else if g.slane = j then
        { s with lanes := tput s.lanes (8 * n + k) { r with cur := some { g with sflits := g.sflits.drop c } } }.laneSend n l (g.sflits.take c)
      else s
  | _, _ => s

/-- Every flit that waits for lane j of hoist n, sent as far as credits allow. -/
def State.lanePush (s : State) (n j : Nat) : State := [0, 1, 2, 3, 4, 5, 6, 7].foldl (fun s k => s.lanePushFrom n j k) s

/-- Credits returned to the producer of an input port of a tile of dressing d: to a tile's output port they travel back, to a
site they are sent, a hoist lane sends on with them, and a DMA channel finds them at its own tile's port (R90, R184). -/
def State.creditBack (s : State) (d : Dressing) (prod n : Nat) : State :=
  if n = 0 then s
  else if nbits prod 31 28 = 1 then
    match s.ptile (d.lbase + nbits prod 10 0) with
    | some p =>
      let k := 4 * p + nbits prod 17 16
      { s with credFly := tset s.credFly k 0 (tgetD s.credFly k 0 + n) }
    | none => s
  else if nbits prod 31 28 = 4 then
    match s.lanes.find? (fun e => decide ((tgetD s.dress e.2.handle d).lbase = d.lbase) && e.2.tag == nbits prod 15 0) with
    | some (k, _) => s.lanePush (k / 8) (k % 8)
    | none => s
  else if nbits prod 31 28 = 5 then s.siteSend (nbits prod 18 16) (((d.streams.find? fun x => x.prod == prod).map (·.module)).getD 0) poolStr (.scredit (nbits prod 18 16) (nbits prod 15 0) n)
  else s

/-- Input port p of a tile flushed: held flits discarded and their credits returned to the producer (R90). -/
def State.flushIn (s : State) (d : Dressing) (t p : Nat) : State :=
  match tget (s.tile t).sinSrc p with
  | none => s
  | some prod =>
    let n := s.fget (R.tileSinStat t p) 28 16
    let s := s.modTile t fun x => { x with sin := tdel x.sin p }
    let s := (s.fset (R.tileSinStat t p) 28 16 0).fset (R.tileSinStat t p) 12 0 (s.fget (R.tileSinStat t p) 12 0 + n)
    s.creditBack d prod n

/-- Output port p of a killed tile keeps its credits until the unload (R90). -/
def State.keepCred (s : State) (t p : Nat) : State :=
  let n := s.fget (R.tileSoutStat t p) 12 0
  if n = 0 then s else { s with deadCred := tset s.deadCred (4 * t + p) 0 (tgetD s.deadCred (4 * t + p) 0 + n) }

/-- The blocks of a stopped tile's channels whose writes are not all acknowledged: they keep their entries until then (R94, R238). -/
def Tile.deadBlocks (x : Tile) : Tbl (Nat × List Nat) :=
  x.dma.foldl (fun tb e =>
    let o := tgetD x.dmaDead e.1 (0, [])
    if e.2.unacked = 0 then tb else tput tb e.1 (o.1 + e.2.unacked, o.2 ++ e.2.held)) x.dmaDead

/-- What a stopped tile keeps: accesses and blocks already issued, whose responses are discarded (R94), and its datapath faults. -/
def Tile.stopped (x : Tile) : Tile :=
  { misses := x.misses.map fun (e : Nat × Miss) => (e.1, { e.2 with dead := true }), dmaDead := x.deadBlocks, dpFaults := x.dpFaults, dpInjected := x.dpInjected }

/-- The translations of a stopped tile's channels that have nothing issued, given back (R238). -/
def State.dropIdle (s : State) (t : Nat) : State :=
  (((s.tile t).dma.filter fun (e : Nat × DmaSt) => e.2.unacked == 0).flatMap (fun e => e.2.held)).foldl State.tlbDrop s

/-- The kill reset of one tile (R68, R90, R94, R430): the sequencer and DMA channels stop, registers, accumulators, marks and
queues are cleared, input ports are flushed, requests already issued stay to complete, and every field of reset class kill returns to its
reset value; local memory is unchanged (R81). -/
def State.killTile (s : State) (d : Dressing) (t : Nat) : State :=
  let x := s.tile t
  let s := s.dropIdle t
  let s := { s with updates := sDel s.updates t }.dropWaiter t
  let s := [0, 1, 2, 3].foldl (fun s p => s.flushIn d t p) s
  let s := [0, 1, 2, 3].foldl (fun s p => s.keepCred t p) s
  let s := s.setTile t x.stopped
  s.resetRegs (inTileBlock t) .kill

/-- A lane of a killed context stops (R187); a translation that a ring read in flight holds stays until the read completes (R238);
ctx.h.n.lane.k.cfg.dead is set. -/
def State.killLane (s : State) (k : Nat) : State :=
  match tget s.lanes k with
  | none => s
  | some l =>
    { s with lanes := tput s.lanes k { l with cur := none, tr := l.tr.filter fun t => t.refs != 0 } }.bset (R.ctxLaneCfg (k / 8) (k % 8)) 62 true

/-- A dressing that no longer executes mailbox m's command. -/
def mbxFreed (m : Nat) (e : Nat × Dressing) : Nat × Dressing := (e.1, if e.2.mbx = some m then { e.2 with mbx := none } else e.2)

/-- The command executing on a dressing that a kill meets ends refused with CONTEXT_DEAD (R156; log entry 18); in a swap, the
other dressing is no longer concerned. -/
def State.killMbx (s : State) (d : Dressing) : State :=
  match d.mbx with
  | some m => { s with dress := s.dress.map (mbxFreed m) }.axFinish m stRefused dContextDead []
  | none => s

/-- One dressing of a killed context becomes Dead; the tiles it holds, other than the one that raised the kill, record cause
0x0E, and all take the kill reset (R95, R156). -/
def State.killDressing (s : State) (origin : Option Nat) (h : Nat) (d : Dressing) : State :=
  let ts := if d.st.holds then s.tilesOf d else []
  let s := (ts.filter (fun t => origin != some t)).foldl (fun s t => s.recordKill t 0x0E 7 0 0) s
  let s := ts.foldl (fun s t => s.killTile d t) s
  let s := s.killMbx d
  { s with dress := tput s.dress h { d with st := .dead, mbx := none, swapTo := none, unload := false, phase := 0, await := [] } }

/-- The kill of a context: every unit of it stops, its dressings that hold tiles become Dead (log entry 115), its lanes stop, the context is marked killed, and
a class-1 event is logged (R94, R156, R233, R459). -/
def State.killCtx (s : State) (ctx : Nat) (origin : Option Nat) : State :=
  let s := (s.dress.filter (fun e => e.2.ctx == ctx && e.2.st.holds && e.2.st != .dead)).foldl (fun s e => s.killDressing origin e.1 e.2) s
  let s := ((s.lanes.filter (fun e => e.2.ctx == ctx)).map (·.1)).foldl State.killLane s
  let s := if s.bget (R.xltCtx ctx) 63 then (s.bset (R.xltCtx ctx) 63 false).bset (R.xltCtx ctx) 62 true else s
  s.log' 1 20 1 [ctx]

/-- A kill raised by a unit of tile t: cause, unit code and detail of Table 3-10, and the address concerned (R94). -/
def State.kill (s : State) (t cause unit detail : Nat) (addr : W64) : State :=
  (s.recordKill t cause unit detail addr).killCtx (s.ctxOf t) (some t)

/-- The kills of R157: every context with a dressing that holds a tile among those given. -/
def State.killTilesOf (s : State) (ts : List Nat) : State :=
  let cs := (ts.filterMap (fun t => (s.dressOf t).map (·.2.ctx))).eraseDups
  cs.foldl (fun s c => s.killCtx c none) s

end Sys2Proof.Machine
end

