-- ==== Sys2Proof/Machine/Xlt.lean ====
section
/-! DEFINITION. Address translation (chapter 8): the walk, the bench TLBs, walk caches and lane translations, faults,
invalidation slots, and the XLT commands' operations. -/

namespace Sys2Proof.Machine

/-! ### The walk -/

/-- What a walk answers: the page (size code, global address, W, NC); a fault (kind of Table 8-6 and level; kind 0 a hole, for which the table names
none); or that the entry at an address cannot be read yet. -/
inductive WalkR where
  | page (size frame : Nat) (w nc : Bool)
  | fault (kind level : Nat)
  | wait (a : Nat)
deriving DecidableEq, Repr

/-- Bytes of a page by size code: 64 KiB, 2 MiB, 512 MiB. -/
def pageBytes : Nat → Nat
  | 0 => 0x10000
  | 1 => 0x200000
  | _ => 0x20000000

/-- Whether an entry is malformed at a level (R222), given the virtual address (R223). -/
def State.malformed (s : State) (lvl va e : Nat) : Bool :=
  let ptr := lvl == 2 || (lvl == 1 && !nbit e 1)
  nbits e 11 6 != 0 || (nbits e 63 46 != 0 && !nbit e 4) || (lvl == 2 && nbit e 1) || (nbit e 4 && ptr) || (nbit e 3 && lvl != 0)
    || (ptr && !s.tableBacked (nbits e 45 16 * 0x10000))
    || (lvl == 0 && nbit e 3 && nbits e 20 16 != nbits va 20 16)
    || (lvl == 1 && nbit e 1 && nbits e 28 16 != 0)

/-- The address of a table's entry for a virtual address at a level (R221). -/
def entryAddr (table lvl va : Nat) : Nat := table + 8 * nbits va (16 + 13 * lvl + 12) (16 + 13 * lvl)

/-- The leaf a valid, well-formed leaf entry gives: a run entry's frame is that of the 2 MiB page (R223). -/
def State.leafOf (s : State) (lvl e : Nat) : WalkR :=
  let dev := if nbit e 4 then nbits e 63 46 else s.ownDev
  if lvl = 1 then .page 2 (dev * 2 ^ 46 + nbits e 45 29 * 2 ^ 29) (nbit e 2) (nbit e 5)
  else if nbit e 3 then .page 1 (dev * 2 ^ 46 + nbits e 45 21 * 2 ^ 21) (nbit e 2) (nbit e 5)
  else .page 0 (dev * 2 ^ 46 + nbits e 45 16 * 2 ^ 16) (nbit e 2) (nbit e 5)

/-- The answer for an access of a kind: a write needs W. -/
def WalkR.under (r : WalkR) (write : Bool) : WalkR :=
  match r with
  | .page size frame w nc => if write && !w then .fault 4 (if size = 2 then 1 else 0) else .page size frame w nc
  | .fault k l => .fault k l
  | .wait a => .wait a

/-- The walk-cache entry of a half for a pointer of a level (R229). -/
def State.wcFind (s : State) (half ctx lvl path : Nat) : Option (Nat × WcEnt) :=
  s.wcache.find? fun e => decide (e.1 / 128 = half) && e.2.ctx == ctx && e.2.level == lvl && e.2.path == path

/-- The index path that names a pointer of a level: the virtual-address bits above it. -/
def wcPath (lvl va : Nat) : Nat := if lvl = 2 then nbits va 54 42 else nbits va 54 29

/-- A victim by R502 among n places numbered from base: `used` is the place's used bit (none when invalid). The answer is the
place, and whether all used bits are cleared first. `elig` excludes places a rule excludes. -/
def nruVictim (n : Nat) (used : Nat → Option Bool) (elig : Nat → Bool) : Option (Nat × Bool) :=
  match (List.range n).find? (fun i => elig i && (used i).isNone) with
  | some i => some (i, false)
  | none =>
    match (List.range n).find? (fun i => elig i && (used i == some false)) with
    | some i => some (i, false)
    | none => ((List.range n).find? elig).map (fun i => (i, true))

/-- A pointer put in a half's walk cache, replaced not-recently-used over its 128 entries (R229). -/
def State.wcInstall (s : State) (half ctx lvl va table : Nat) : State :=
  match s.wcFind half ctx lvl (wcPath lvl va) with
  | some (k, e) => { s with wcache := tput s.wcache k { e with table := table, used := true } }
  | none =>
    match nruVictim 128 (fun i => (tget s.wcache (128 * half + i)).map (·.used)) (fun _ => true) with
    | none => s
    | some (i, clr) =>
      let w := if clr then s.wcache.map (fun e => if e.1 / 128 = half then (e.1, { e.2 with used := false }) else e) else s.wcache
      { s with wcache := tput w (128 * half + i) ⟨ctx, lvl, wcPath lvl va, table, true⟩ }

/-! ### Bench TLBs -/

/-- The set a lookup probes for a page size (R98). -/
def tlbSet (size va : Nat) : Nat :=
  match size with
  | 0 => nbits va 21 16
  | 1 => nbits va 26 21
  | _ => nbits va 34 29

/-- The key of a bench TLB entry that translates an address; a retiring entry is never hit (R98, R237). -/
def State.tlbFind (s : State) (bench ctx va : Nat) : Option (Nat × TlbEnt) :=
  ([0, 1, 2].flatMap fun sz => [0, 1, 2, 3].map fun w => (sz, 256 * bench + 4 * tlbSet sz va + w)).findSome? fun p =>
    match tget s.tlb p.2 with
    | some e => if e.ctx = ctx ∧ e.size = p.1 ∧ e.vpn = va / pageBytes p.1 ∧ e.retiring = [] then some (p.2, e) else none
    | none => none

/-- The global address an entry gives. -/
def TlbEnt.addr (e : TlbEnt) (va : Nat) : Nat := e.frame + va % pageBytes e.size

/-- A page installed in a bench TLB (R99, R502): none when every way of the set is pinned. -/
def State.tlbInstall (s : State) (bench ctx va size frame : Nat) (w nc : Bool) : Option State :=
  let base := 256 * bench + 4 * tlbSet size va
  let ent (i : Nat) := tget s.tlb (base + i)
  match nruVictim 4 (fun i => (ent i).map (·.used)) (fun i => match ent i with | some e => e.refs == 0 | none => true) with
  | none => none
  | some (i, clr) =>
    let t := if clr then s.tlb.map (fun e => if base ≤ e.1 ∧ e.1 < base + 4 then (e.1, { e.2 with used := false }) else e) else s.tlb
    some { s with tlb := tput t (base + i) ⟨ctx, va / pageBytes size, size, frame, w, nc, 0, [], true, false⟩ }

/-- The half whose walkers serve a bench, a hoist (R99, R228). -/
def benchHalf (b : Nat) : Nat := if b < 34 then 0 else 1
def hoistHalf (h : Nat) : Nat := if h < 32 then 0 else 1

/-- The half whose walkers serve a master. -/
def walkHalf (m : Master) : Nat := if m.cls = .hoist then hoistHalf m.idx else benchHalf (m.idx / 32)

/-- Whether a unit may send one more request to the walkers: a bench has at most 8 misses outstanding (R99), a hoist lane two requests (R228). -/
def State.walkRoom (s : State) (m : Master) (lane : Nat) : Bool :=
  let q := s.walkQ ++ s.pinWait
  if m.cls = .hoist then decide ((q.filter fun x => x.m == m && x.lane == lane).length < 2)
  else decide ((q.filter fun x => x.m.cls == .tile && decide (x.m.idx / 32 = m.idx / 32)).length < 8)

/-- Whether the same request waits already. -/
def State.walkAsked (s : State) (m : Master) (lane ctx va : Nat) (write : Bool) : Bool :=
  (s.walkQ ++ s.pinWait).any fun x => x.m == m && x.lane == lane && x.ctx == ctx && x.va / 0x10000 == va / 0x10000 && x.write == write

/-- A request put in its half's walk queue, unless the same one waits there already or its unit has no room for one (R99, R228). -/
def State.askWalk (s : State) (m : Master) (lane ctx va : Nat) (write prefetch : Bool) : State :=
  if s.walkAsked m lane ctx va write || !s.walkRoom m lane then s
  else { s with walkQ := s.walkQ ++ [⟨walkHalf m, m, lane, ctx, va, write, prefetch⟩] }

/-- The walks of a half, in the order of their first requests: requests of one context and 64 KiB page share one (R228). -/
def State.walks (s : State) (half : Nat) : List (Nat × Nat) :=
  ((s.walkQ.filter fun r => r.half == half).map fun r => (r.ctx, r.va / 0x10000)).eraseDups
/-- Those that the 24 walkers of the half have taken (R228). -/
def State.walking (s : State) (half : Nat) : List (Nat × Nat) := (s.walks half).take 24

/-- A fault recorded (R232): the first record stays. The level of a fault without an entry, and the kind of a hole, are free (log entry 3). -/
def State.recordFault (s : State) (kind level : Nat) (m : Master) (lane ctx : Nat) (va : Nat) : State :=
  if s.bget R.xltFaultStatus 31 then s.bset R.xltFaultStatus 30 true
  else
    let level := if kind = 1 ∨ kind = 2 then s.free.toNat else level
    let kind := if kind = 0 then s.free.toNat else kind
    let s := s.drew.record R.xltFaultStatus (0x80000000 + kind % 8 * 2 ^ 27 + level % 4 * 2 ^ 25 + classCode m.cls * 2 ^ 21 + ctx % 4096)
    let s := s.set R.xltFaultVa (BitVec.ofNat 64 va)
    (s.set R.xltFaultMaster (BitVec.ofNat 64 (if m.cls = .hoist then 8 * m.idx + lane else m.idx))).msix 1

/-- A hoist cause recorded, and the context of the lane killed (R187): cause of Table 6-11 and the address it concerns. -/
def State.hoistKill (s : State) (n k cause : Nat) (addr : W64) : State :=
  match tget s.lanes (8 * n + k) with
  | none => s
  | some l =>
    let s := if s.bget (R.ctxErrStatus n) 31 then s.bset (R.ctxErrStatus n) 30 true
      else (s.record (R.ctxErrStatus n) (0x80000000 + k % 8 * 2 ^ 27 + cause % 256 * 2 ^ 16 + l.ctx % 4096)).set (R.ctxErrAddr n) addr
    s.killCtx l.ctx none

/-- A demand translation that failed (R232): the fault recorded and the issuing context killed. For a tile, lane 0 is the control
slot and lane 1 + c DMA channel c; `addr` is the first unmapped page. -/
def State.xltFault (s : State) (kind level : Nat) (m : Master) (lane ctx va : Nat) : State :=
  let s := s.recordFault kind level m lane ctx va
  if m.cls = .hoist then
    s.hoistKill m.idx lane 5 (BitVec.ofNat 64 va)
  else s.kill m.idx 7 (if lane = 0 then 2 else 3) (lane - 1) (BitVec.ofNat 64 (va / 0x10000 * 0x10000))

/-- Whether the unit that asked for a walk still wants it: its tile is held by a dressing of the context, its lane attached to
one. -/
def State.walkWanted (s : State) (r : WalkReq) : Bool :=
  if r.m.cls = .hoist then (match tget s.lanes (8 * r.m.idx + r.lane) with | some l => l.ctx == r.ctx | none => false)
  else (match s.dressOf r.m.idx with | some e => e.2.ctx == r.ctx && e.2.st == .active | none => false)

/-- A lane's translations with one more page; it holds two (R230). -/
def laneAdd (tr : List LaneTr) (x : LaneTr) : List LaneTr :=
  let live := tr.filter (fun t => !(t.vpn == x.vpn && t.size == x.size && t.retiring == []))
  if live.length < 2 then live ++ [x]
  else match live.findIdx? (fun t => t.refs == 0) with
    | some i => live.eraseIdx i ++ [x]
    | none => live

/-- What a tile's lookup of an address gives (R98, R231): a hit; a miss, sent to a walker; or a fault known at once. -/
inductive XlR where
  | hit (key : Nat) (e : TlbEnt) (g : Nat)
  | miss
  | bad (kind : Nat)
deriving DecidableEq, Repr

/-- A tile's lookup of a virtual address, without side effects. -/
def State.lookup (s : State) (t : Nat) (va : Nat) (write : Bool) : XlR :=
  if 2 ^ 55 ≤ va then .bad 1
  else
    match s.tlbFind (t / 32) (s.ctxOf t) va with
    | none => .miss
    | some (k, e) => if e.perr then .miss else if write && !e.w then .bad 4 else .hit k e (e.addr va)

/-- Whether the entry a lookup reads has wrong parity (R457). -/
def State.tlbParity (s : State) (t va : Nat) : Bool :=
  match s.tlbFind (t / 32) (s.ctxOf t) va with
  | some (_, e) => e.perr
  | none => false

/-- The level of a fault met at a lookup (Table 8-6): that of the root for a non-canonical address; that of the entry's page for a write without W. -/
def State.lookupLevel (s : State) (t va kind : Nat) : Nat :=
  if kind = 1 then 2
  else match s.tlbFind (t / 32) (s.ctxOf t) va with
    | some (_, e) => if e.size = 2 then 1 else 0
    | none => 0

/-- The counters and used bit of a lookup (R502, Table 3-12): a hit marks the entry; a miss asks a walker, and counts once, as it is sent. An entry whose
parity is wrong is a detection (R457). -/
def State.lookupDone (s : State) (t lane va : Nat) (write : Bool) : State :=
  match s.lookup t va write with
  | .hit k e _ => { s with tlb := tput s.tlb k { e with used := true } }.bump (R.benchTlbHit (t / 32)) 32 1
  | .miss =>
    if s.tlbParity t va then s.parityMet (t / 32)
    else if s.walkAsked ⟨.tile, t⟩ lane (s.ctxOf t) va write || !s.walkRoom ⟨.tile, t⟩ lane then s
    else (s.askWalk ⟨.tile, t⟩ lane (s.ctxOf t) va write false).bump (R.benchTlbMiss (t / 32)) 32 1
  | .bad k => s.xltFault k (s.lookupLevel t va k) ⟨.tile, t⟩ lane (s.ctxOf t) va

/-! ### Breaches of translation references (R301, Table 12-4) -/

/-- The contexts with transfers on a bench, whose entries some transfer holds. -/
def State.tlbCtxs (s : State) (b : Nat) : List Nat := ((s.tlb.filter fun e => e.1 / 256 == b && decide (0 < e.2.refs)).map fun e => e.2.ctx).eraseDups
/-- The contexts with lanes of a hoist. -/
def State.laneCtxs (s : State) (h : Nat) : List Nat := ((s.lanes.filter fun e => e.1 / 8 == h).map fun e => e.2.ctx).eraseDups

/-- The action on a breach of translation references: the contexts with transfers there are killed (Table 12-4). -/
def State.tlbBreach (s : State) (b : Nat) (delta : Int) : State :=
  (s.tlbCtxs b).foldl (fun s c => s.killCtx c none) (s.breach 7 b delta false)
def State.laneBreach (s : State) (h : Nat) (delta : Int) : State :=
  (s.laneCtxs h).foldl (fun s c => s.killCtx c none) (s.breach 7 (0x100 + h) delta false)

/-- A reference count of a bench TLB, or of a hoist's lanes, read: an uncorrectable error in it is a breach (R301). -/
def State.tlbRefRead (s : State) (b : Nat) : State :=
  if s.countUe 7 b then (s.tlbCtxs b).foldl (fun s c => s.killCtx c none) (s.countMet 7 b) else s
def State.laneRefRead (s : State) (h : Nat) : State :=
  if s.countUe 7 (0x100 + h) then (s.laneCtxs h).foldl (fun s c => s.killCtx c none) (s.countMet 7 (0x100 + h)) else s

/-! ### Invalidation slots (R236 to R239) -/

/-- Whether a slot covers a part of n bytes at p of a context: the whole context, or one that meets the slot's range. -/
def State.invMeets (s : State) (k ctx p n : Nat) : Bool :=
  let c := s.get (R.xltInvCtl k)
  let va := fld (s.get (R.xltInvVa k)) 54 16 * 0x10000
  fld c 11 0 == ctx && (bit c 28 || (decide (p < va + (s.get (R.xltInvLen k)).toNat) && decide (va < p + n)))

/-- Whether a slot covers a page. -/
def State.invCovers (s : State) (k ctx vpn size : Nat) : Bool := s.invMeets k ctx (vpn * pageBytes size) (pageBytes size)

/-- The span of addresses under a cached pointer: level 2 names a level-1 table, level 1 a level-0 table (R221, R229). -/
def pointerSpan (level : Nat) : Nat := if level = 2 then 2 ^ 42 else 2 ^ 29

/-- What step 3 leaves of one lane translation. -/
def State.invLaneTr (s : State) (k ctx : Nat) (t : LaneTr) : Option LaneTr :=
  if s.invCovers k ctx t.vpn t.size then
    if t.refs = 0 then none else some { t with retiring := sIns t.retiring k }
  else some t

/-- Step 3 of Table 8-2: every holder drops its matching entries whose count is 0 and marks the rest retiring for the slot; walk
caches drop the pointers that lead into the range (log entry 14); a walk in progress for the range, of the 24 of its half, walks
again (R237). -/
def State.invStep3 (s : State) (k : Nat) : State :=
  let ctx := s.fget (R.xltInvCtl k) 11 0
  let tlb := s.tlb.filterMap fun e =>
    if s.invCovers k e.2.ctx e.2.vpn e.2.size then
      if e.2.refs = 0 then none else some (e.1, { e.2 with retiring := sIns e.2.retiring k })
    else some e
  let lanes := s.lanes.map fun e => (e.1, { e.2 with tr := e.2.tr.filterMap (s.invLaneTr k e.2.ctx) })
  let wc := s.wcache.filter fun e => !(s.invMeets k e.2.ctx (e.2.path * pointerSpan e.2.level) (pointerSpan e.2.level))
  let n := ((s.walking 0 ++ s.walking 1).filter fun w => s.invCovers k w.1 w.2 0).length
  ({ s with tlb := tlb, lanes := lanes, wcache := wc }.bump R.xltWalkRestart 32 n).bset (R.xltInvCtl k) 29 true

/-- References outstanding under a slot (xlt.inv.k.refs): the counts of entries retiring for it. -/
def State.invRefs (s : State) (k : Nat) : Nat :=
  (s.tlb.filter (fun e => e.2.retiring.contains k)).foldl (fun n e => n + e.2.refs) 0
    + (s.lanes.flatMap (fun e => e.2.tr)).foldl (fun n t => if t.retiring.contains k then n + t.refs else n) 0

/-- A slot started on steps 2 to 5 (R236); a slot already busy, or a range of length 0 or not a multiple of 64 KiB, ignores the
go. -/
def State.invGo (s : State) (k : Nat) (r : InvRec) : State :=
  let n := (s.get (R.xltInvLen k)).toNat
  if s.bget (R.xltInvCtl k) 30 then s
  else if !(s.bget (R.xltInvCtl k) 28) && (n = 0 || n % 0x10000 != 0) then s
  else { s with inv := tput s.inv k r }.set (R.xltInvCtl k) (setFld (setFld (s.get (R.xltInvCtl k)) 30 30 1) 29 29 0)

/-- The slots pending for a context. -/
def State.invPending (s : State) (ctx : Nat) : Bool := s.inv.any fun e => s.fget (R.xltInvCtl e.1) 11 0 == ctx

/-- Step 5 of Table 8-2, once no entry is retiring for the slot: the object signalled if sig is set, busy cleared; an
XLT_CTX_CLEAR clears its context and ends (R234). -/
def State.invFinish (s : State) (k : Nat) : State :=
  match tget s.inv k with
  | none => s
  | some r =>
    if !(s.bget (R.xltInvCtl k) 29) || s.invRefs k != 0 || s.tlb.any (fun e => e.2.retiring.contains k) then s
    else
      let c := s.get (R.xltInvCtl k)
      let s := { s with inv := tdel s.inv k }.bset (R.xltInvCtl k) 30 false
      let s := if bit c 27 then s.signal (fld c 26 14) else s
      match r.clear with
      | none => s
      | some m =>
        let s := { s with pools := tdel s.pools (fld c 11 0) }.set (R.xltCtx (fld c 11 0)) 0
        (s.signal r.clearObj).axFinish m stDone 0 []

/-! ### Table writes of the steward (R233, R235, R239) -/

/-- A new zeroed table of a pooled context. -/
def State.newTable (s : State) (ctx : Nat) : Option (Nat × State) :=
  match tget s.pools ctx with
  | none => none
  | some p =>
    if p.next + 0x10000 ≤ p.base + p.len then
      some (p.next, { s with pools := tput s.pools ctx { p with next := p.next + 0x10000 } }.zero p.next 0x10000)
    else none

/-- The table of a level on the path to an address, following valid pointers. -/
def State.tableAt (s : State) (root va : Nat) : Nat → Option Nat
  | 0 => some root
  | d + 1 =>
    match s.tableAt root va d with
    | none => none
    | some t =>
      let e := s.word (entryAddr t (2 - d) va) 8
      if nbit e 0 && !(d == 1 && nbit e 1) then some (nbits e 45 16 * 0x10000) else none

/-- The table of level `2 - d` made present in a pooled context, taking tables from the pool (R235). -/
def State.needTable (s : State) (ctx root va : Nat) : Nat → Option (Nat × State)
  | 0 => some (root, s)
  | d + 1 =>
    match s.needTable ctx root va d with
    | none => none
    | some (t, s) =>
      let a := entryAddr t (2 - d) va
      let e := s.word a 8
      if nbit e 0 then some (nbits e 45 16 * 0x10000, s)
      else match s.newTable ctx with
        | none => none
        | some (n, s) => some (n, s.write a (leBytes 8 (n + 1)) false)

/-- Whether a 64 KiB page of a context has a valid leaf. -/
def State.mapped (s : State) (root va : Nat) : Bool :=
  match s.tableAt root va 1 with
  | none => false
  | some t1 =>
    let e := s.word (entryAddr t1 1 va) 8
    if nbit e 0 && nbit e 1 then true
    else match s.tableAt root va 2 with
      | none => false
      | some t0 => nbit (s.word (entryAddr t0 0 va) 8) 0

/-- The flag bits of a leaf for a target (Table 8-1): V, W, G for another device, NC. -/
def State.leafBits (s : State) (g : Nat) (w nc : Bool) : Nat :=
  1 + b2n w * 4 + (if s.isOwn g then 0 else 16 + gDev g * 2 ^ 46) + b2n nc * 32

/-- How the next piece of a mapping is written: page size code under the form and what range and target allow (R235). -/
def mapSize (expert pooled : Bool) (va g n : Nat) : Nat :=
  if expert && pooled && va % 0x20000000 == 0 && g % 0x20000000 == 0 && decide (0x20000000 ≤ n) then 2
  else if expert && va % 0x200000 == 0 && g % 0x200000 == 0 && decide (0x200000 ≤ n) then 1
  else 0

/-- Whether the level-1 entry of an address points to a table: a 512 MiB leaf does not take its place (R227, R235). -/
def State.hasTable (s : State) (root va : Nat) : Bool :=
  match s.tableAt root va 1 with
  | none => false
  | some t => nbit (s.word (entryAddr t 1 va) 8) 0

/-- The leaves of a range written (R235), piece by piece; the first argument is fuel. The failure is the detail code. -/
def State.mapRange (s : State) (ctx root : Nat) (pooled expert w nc : Bool) : Nat → Nat → Nat → Nat → State × Nat
  | 0, _, _, _ => (s, 0)
  | _, _, _, 0 => (s, 0)
  | f + 1, va, g, n =>
    let sz := if mapSize expert pooled va g n = 2 ∧ s.hasTable root va = true then 1 else mapSize expert pooled va g n
    let d := if sz = 2 then 1 else 2
    let tb := if pooled then s.needTable ctx root va d else (s.tableAt root va d).map (fun t => (t, s))
    match tb with
    | none => (s, if pooled then dNoSpace else dNoTable)
    | some (t, s) =>
      let bits := s.leafBits g w nc
      let s := if sz = 2 then s.write (entryAddr t 1 va) (leBytes 8 (bits + 2 + gLocal g)) false
        else if sz = 1 then (List.range 32).foldl (fun s i =>
          s.write (entryAddr t 0 (va + i * 0x10000)) (leBytes 8 (bits + 8 + gLocal g + i * 0x10000)) false) s
        else s.write (entryAddr t 0 va) (leBytes 8 (bits + gLocal g)) false
      s.mapRange ctx root pooled expert w nc f (va + pageBytes sz) (g + pageBytes sz) (n - pageBytes sz)

/-- Step 1 of Table 8-2 for one 64 KiB page: V cleared; a run it lies in loses C in all 32 entries (R239). -/
def State.unmapPage (s : State) (root va : Nat) : State :=
  match s.tableAt root va 2 with
  | none => s
  | some t =>
    let a := entryAddr t 0 va
    let e := s.word a 8
    let s := if nbit e 0 && nbit e 3 then
        let run := va / 0x200000 * 0x200000
        (List.range 32).foldl (fun s i =>
          let a := entryAddr t 0 (run + i * 0x10000)
          let e := s.word a 8
          if nbit e 3 then s.write a (leBytes 8 (e - 8)) false else s) s
      else s
    let e := s.word a 8
    if nbit e 0 then s.write a (leBytes 8 (e - 1)) false else s

/-- V cleared in the leaf entry of a 64 KiB page: step 1 where the whole of its run is unmapped. -/
def State.unmapLeaf (s : State) (root va : Nat) : State :=
  match s.tableAt root va 2 with
  | none => s
  | some t =>
    let e := s.word (entryAddr t 0 va) 8
    if nbit e 0 then s.write (entryAddr t 0 va) (leBytes 8 (e - 1)) false else s

/-- The pages of a range from lo to hi unmapped, a whole 512 MiB leaf at once; a run that lies in the range keeps its C (R239). -/
def State.unmapRange (s : State) (root lo hi : Nat) : Nat → Nat → Nat → State
  | 0, _, _ => s
  | _, _, 0 => s
  | f + 1, va, n =>
    match s.tableAt root va 1 with
    | none => s.unmapRange root lo hi f (va + 0x10000) (n - 0x10000)
    | some t1 =>
      let a := entryAddr t1 1 va
      let e := s.word a 8
      let run := va / 0x200000 * 0x200000
      if nbit e 0 && nbit e 1 then
        (s.write a (leBytes 8 (e - 1)) false).unmapRange root lo hi f (va + 0x20000000) (n - 0x20000000)
      else (if lo ≤ run ∧ run + 0x200000 ≤ hi then s.unmapLeaf root va else s.unmapPage root va).unmapRange root lo hi f (va + 0x10000) (n - 0x10000)

/-- Whether a range covers part of a 512 MiB leaf only (R239): tested at its first and last page. -/
def State.partLeaf (s : State) (root va n : Nat) : Bool :=
  let big (v : Nat) : Bool := match s.tableAt root v 1 with
    | none => false
    | some t1 => let e := s.word (entryAddr t1 1 v) 8; nbit e 0 && nbit e 1
  (big va && va % 0x20000000 != 0) || (big (va + n - 1) && (va + n) % 0x20000000 != 0)

/-- A range that meets runs, widened to whole runs for invalidation (R239). -/
def State.runRange (s : State) (root va n : Nat) : Nat × Nat :=
  let inRun (v : Nat) : Bool := match s.tableAt root v 2 with
    | none => false
    | some t => let e := s.word (entryAddr t 0 v) 8; nbit e 0 && nbit e 3
  let lo := if inRun va then va / 0x200000 * 0x200000 else va
  let hi := if inRun (va + n - 1) then (va + n + 0x1FFFFF) / 0x200000 * 0x200000 else va + n
  (lo, hi - lo)

end Sys2Proof.Machine
end

