-- ==== Sys2Proof/Machine/Operands.lean ====
section
/-! DEFINITION. Operand forms of the tile: the slots of a bundle and their fields (Tables 4-1 to 4-7), the checks an encoding
must pass (R102, R103, Table 4-9), register access, local memory access, and global addresses from register pairs (R66). -/

namespace Sys2Proof.Machine

/-- The three slots of a bundle (Table 4-1). -/
def mSlot (b : W64) : Nat := fld b 63 44
def vSlot (b : W64) : Nat := fld b 43 20
def cSlot (b : W64) : Nat := fld b 19 0

/-- Opcodes of the slots. -/
def mOp (b : W64) : Nat := nbits (mSlot b) 19 17
def vOp (b : W64) : Nat := nbits (vSlot b) 23 18
def cOp (b : W64) : Nat := nbits (cSlot b) 19 15

/-- Reserved rounding codes (Table 2-5). -/
def rmBad (rm : Nat) : Bool := rm == 5 || rm == 6

/-- The kill cause of a matrix slot's encoding, 0 for none (Table 4-2, R102). -/
def mCheck (m : Nat) : Nat :=
  match nbits m 19 17 with
  | 0 => if m = 0 then 0 else 9
  | 1 => if nbit m 0 then 9 else 0
  | 2 => if m % 2 ^ 14 = 0 then 0 else 9
  | _ => 9

/-- The kill cause of a format field where a set of codes is accepted (Table 4-9). -/
def fmtCheck (f : Nat) (ok : List Nat) : Nat := if 13 ≤ f then 1 else if ok.contains f then 0 else 9

/-- The kill cause of a vector slot's encoding, 0 for none (Tables 4-4 to 4-6, R102, R113, R114, R116, R119). -/
def vCheck (v : Nat) : Nat :=
  let op := nbits v 23 18
  let rm := v % 8
  let z (c : Bool) : Nat := if c then 0 else 9
  if op = 0 then z (v % 2 ^ 18 == 0)
  else if op ≤ 4 then (if rmBad rm then 3 else 0)
  else if op ≤ 0x12 then z (rm == 0)
  else if op = 0x13 ∨ op = 0x1F ∨ op = 0x27 ∨ 0x30 ≤ op then 9
  else if op ≤ 0x1A then z (v % 256 == 0)
  else if op ≤ 0x1C then (if nbits v 7 3 != 0 then 9 else if rmBad rm then 3 else 0)
  else if op = 0x1D then
    (if nbit v 3 then 9
     else if fmtCheck (nbits v 7 4) [1, 2, 3, 4, 10] != 0 then fmtCheck (nbits v 7 4) [1, 2, 3, 4, 10]
     else if rmBad rm then 3 else 0)
  else if op = 0x1E then
    (if v % 4 != 0 then 9
     else if fmtCheck (nbits v 7 4) [1, 2, 3, 4, 10] != 0 then fmtCheck (nbits v 7 4) [1, 2, 3, 4, 10]
     else z (!(decide (nbits v 7 4 ≤ 2) && decide (2 ≤ nbits v 3 2))))
  else if op ≤ 0x21 then 0
  else if op = 0x22 then z (v % 256 == 0)
  else if op ≤ 0x24 then z (v % 4 == 0)
  else if op = 0x25 then z (v % 512 == 0)
  else if op = 0x26 then z (v % 256 == 0)
  else if op = 0x28 then (if v % 4 != 0 then 9 else if 13 ≤ nbits v 10 7 then 1 else if rmBad (nbits v 6 4) then 3 else 0)
  else if op = 0x29 then z (v % 2 ^ 10 == 0)
  else if op = 0x2A then z (v % 2 ^ 14 == 0)
  else if op ≤ 0x2D then z (v % 2 ^ 11 == 0)
  else if op = 0x2E then z (v % 2 == 0)
  else z (v % 8 == 0 && nbits v 7 3 % 2 == 0)

/-- The kill cause of a control slot's encoding, 0 for none (Table 4-7, R102, R128). -/
def cCheck (c : Nat) : Nat :=
  let z (x : Bool) : Nat := if x then 0 else 9
  match nbits c 19 15 with
  | 0x00 => z (c % 2 ^ 15 == 0)
  | 0x01 => z (c % 2 == 0 && decide (nbits c 14 11 ≤ 13))
  | 0x02 => z (c % 2 == 0 && decide (nbits c 14 11 ≤ 13))
  | 0x03 => 0 | 0x04 => 0 | 0x05 => 0 | 0x06 => 0 | 0x07 => 0
  | 0x08 => z (nbits c 9 5 % 2 == 0)
  | 0x09 => z (nbits c 9 5 % 2 == 0)
  | 0x0A => 0 | 0x0B => 0
  | 0x0C => z (c % 8 == 0)
  | 0x0D => 0 | 0x0E => 0
  | 0x0F => z (c % 32 == 0)
  | 0x10 => 0
  | 0x11 => z (c % 32 == 0 && nbits c 9 5 % 2 == 0)
  | 0x12 => z (nbits c 12 0 != 0)
  | 0x13 => z (nbits c 14 4 == 0)
  | 0x14 => 0 | 0x15 => 0
  | 0x16 => z (c % 2 ^ 15 == 0)
  | 0x17 => z (c % 2 ^ 15 == 0)
  | _ => 9

/-- The accumulators a vector slot names. -/
def vAccs (v : Nat) : List Nat :=
  match nbits v 23 18 with
  | 0x28 => [nbits v 17 16] | 0x29 => [nbits v 17 16] | 0x2A => [nbits v 17 16, nbits v 15 14]
  | 0x2B => [nbits v 17 16] | 0x2C => [nbits v 17 16] | 0x2D => [nbits v 12 11] | 0x2E => [nbits v 2 1]
  | _ => []

/-- The scalar register a vector slot writes (VGET), and the scalar registers it reads. -/
def vWrites (v : Nat) : Option Nat := if nbits v 23 18 = 0x23 then some (nbits v 17 13) else none
def vReads (v : Nat) : List Nat :=
  match nbits v 23 18 with
  | 0x20 => [nbits v 12 8] | 0x21 => [nbits v 12 8] | 0x22 => [nbits v 12 8] | 0x24 => [nbits v 12 8]
  | 0x28 => [nbits v 15 11] | 0x29 => [nbits v 15 11]
  | _ => []

/-- The scalar register a control slot writes, and those it reads. -/
def cWrites (c : Nat) : Option Nat :=
  match nbits c 19 15 with
  | 1 => some (nbits c 10 6) | 2 => some (nbits c 10 6) | 3 => some (nbits c 14 10) | 4 => some (nbits c 14 10)
  | 5 => some (nbits c 14 10) | 6 => some (nbits c 14 10) | 8 => some (nbits c 14 10) | 0x14 => some (nbits c 14 10)
  | _ => none
def cReads (c : Nat) : List Nat :=
  let p := nbits c 14 10
  let q := nbits c 9 5
  match nbits c 19 15 with
  | 1 => [nbits c 10 6, nbits c 5 1] | 2 => [nbits c 10 6] | 4 => [p] | 5 => [p] | 6 => [q] | 7 => [p, q]
  | 8 => [q, q + 1] | 9 => [p, q, q + 1] | 0xA => [p] | 0xB => [p] | 0xC => [nbits c 12 8] | 0xF => [p, q]
  | 0x11 => [p, q, q + 1] | 0x15 => [p]
  | _ => []

/-- The scalar registers a matrix slot reads: its descriptors and extent (Table 4-2). -/
def mReads (m : Nat) : List Nat :=
  if nbits m 19 17 = 1 then
    [2 * nbits m 13 10, 2 * nbits m 13 10 + 1, 2 * nbits m 9 6, 2 * nbits m 9 6 + 1, nbits m 5 1]
  else []

/-- The accumulator a matrix slot names. -/
def mAcc (m : Nat) : Option Nat := if nbits m 19 17 = 1 ∨ nbits m 19 17 = 2 then some (nbits m 16 15) else none

/-- The kill a bundle's encoding causes (R102, R103, R133): cause, unit code, detail. -/
def bundleCheck (b : W64) : Option (Nat × Nat × Nat) :=
  let m := mSlot b
  let v := vSlot b
  let c := cSlot b
  if mCheck m ≠ 0 then some (mCheck m, 0, 0)
  else if vCheck v ≠ 0 then some (vCheck v, 1, 0)
  else if cCheck c ≠ 0 then some (cCheck c, 2, if nbits c 19 15 = 0x12 then nbits c 14 13 else 0)
  else
    match mAcc m with
    | some a =>
      if (vAccs v).contains a then some (9, 0, a)
      else match vWrites v, cWrites c with
        | some x, some y => if x = y ∧ x ≠ 0 then some (9, 1, x) else none
        | _, _ => none
    | none =>
      match vWrites v, cWrites c with
      | some x, some y => if x = y ∧ x ≠ 0 then some (9, 1, x) else none
      | _, _ => none

/-! ### Tile registers -/

/-- A scalar register; s0 reads 0 (R65). -/
def State.sr (s : State) (t r : Nat) : W32 := if r = 0 then 0 else tgetD (s.tile t).sreg r 0
/-- A scalar register written; s0 ignores writes (R65). -/
def State.setSr (s : State) (t r : Nat) (v : W32) : State :=
  if r = 0 then s else s.modTile t fun x => { x with sreg := tset x.sreg r 0 v }
/-- An even–odd pair as 64 bits: the odd register above (R66). -/
def State.pair (s : State) (t r : Nat) : W64 := BitVec.ofNat 64 ((s.sr t (r + 1)).toNat * 2 ^ 32 + (s.sr t r).toNat)

/-- Lane l of a vector register. -/
def State.vr (s : State) (t r l : Nat) : W32 := tgetD (s.tile t).vreg (64 * r + l) 0
/-- The 64 lanes of a vector register. -/
def State.vrow (s : State) (t r : Nat) : List W32 := (List.range 64).map (fun l => s.vr t r l)

/-- A block of keys from `base` replaced in a table by the nonzero values of a list. -/
def putRow (tb : Tbl W32) (base n : Nat) (vs : List W32) : Tbl W32 :=
  tb.filter (fun e => decide (e.1 < base)) ++
    ((List.range n).map (fun i => (base + i, vs.getD i 0))).filter (fun e => e.2 != 0) ++
    tb.filter (fun e => decide (base + n ≤ e.1))

/-- The 64 lanes of a vector register written. -/
def State.setVrow (s : State) (t r : Nat) (vs : List W32) : State :=
  s.modTile t fun x => { x with vreg := putRow x.vreg (64 * r) 64 vs }

/-- Element (r, c) of an accumulator, its rows, and its replacement. -/
def State.acc (s : State) (t a r c : Nat) : W32 := tgetD (s.tile t).acc (1024 * a + 32 * r + c) 0
def State.accRow (s : State) (t a r : Nat) : List W32 := (List.range 32).map (fun c => s.acc t a r c)
def State.setAcc (s : State) (t a : Nat) (vs : List W32) : State :=
  s.modTile t fun x => { x with acc := putRow x.acc (1024 * a) 1024 vs, accPar := x.accPar.filter (fun i => i / 1024 != a) }

/-- Whether a read of an accumulator meets an element whose parity is wrong (R59). -/
def State.accParity (s : State) (t a : Nat) : Bool := (s.tile t).accPar.any (fun i => i / 1024 == a)

/-- Whether an accumulator's tag is INT32 (R67), and the tag set. -/
def State.accIsInt (s : State) (t a : Nat) : Bool := (s.tile t).accInt.contains a
def State.setTag (s : State) (t a : Nat) (int : Bool) : State :=
  s.modTile t fun x => { x with accInt := if int then sIns x.accInt a else sDel x.accInt a }
/-- Whether an accumulator is marked poisoned (R60, R80), and the mark. -/
def State.accBad (s : State) (t a : Nat) : Bool := (s.tile t).accPoison.contains a
def State.setAccBad (s : State) (t a : Nat) (p : Bool) : State :=
  s.modTile t fun x => { x with accPoison := if p then sIns x.accPoison a else sDel x.accPoison a }

/-! ### Local memory (R75 to R79) -/

/-- Bytes of a tile's local memory from an offset, addresses modulo 512 KiB; latent errors met first (R79). -/
def State.lmMeetAt (s : State) (t off n : Nat) : State :=
  let o := off % 0x80000
  if o + n ≤ 0x80000 then s.lmMeet t (lmBase t + o) n
  else (s.lmMeet t (lmBase t + o) (0x80000 - o)).lmMeet t (lmBase t) (o + n - 0x80000)
def State.lmRead (s : State) (t off n : Nat) : List Byte :=
  let o := off % 0x80000
  if o + n ≤ 0x80000 then s.read (lmBase t + o) n
  else s.read (lmBase t + o) (0x80000 - o) ++ s.read (lmBase t) (o + n - 0x80000)
/-- Whether those bytes carry poison. -/
def State.lmBad (s : State) (t off n : Nat) : Bool :=
  let o := off % 0x80000
  if o + n ≤ 0x80000 then s.poisoned (lmBase t + o) n
  else s.poisoned (lmBase t + o) (0x80000 - o) || s.poisoned (lmBase t) (o + n - 0x80000)
/-- Local memory written; a word written in part meets its latent error first (R79). -/
def State.lmWriteFlat (s : State) (t a : Nat) (bs : List Byte) (poison : Bool) : State :=
  let part := (units a bs.length).filter (fun u => !u.2)
  (part.foldl (fun s u => s.lmMeet t u.1 1) s).write a bs poison
def State.lmWrite (s : State) (t off : Nat) (bs : List Byte) (poison : Bool) : State :=
  let o := off % 0x80000
  if o + bs.length ≤ 0x80000 then s.lmWriteFlat t (lmBase t + o) bs poison
  else (s.lmWriteFlat t (lmBase t + o) (bs.take (0x80000 - o)) poison).lmWriteFlat t (lmBase t) (bs.drop (0x80000 - o)) poison

/-- A requester of a tile's local memory served: it is aged no longer (R77). -/
def State.served (s : State) (t r : Nat) : State := s.modTile t fun x => { x with aged := sDel x.aged r }

/-- The bundle the sequencer sees at an index: that of the loop buffer (R123); as it was before the program's own writes since its last taken branch
(R104); else that in local memory. -/
def State.fetchB (s : State) (t p : Nat) : W64 :=
  match tget (s.tile t).loopBuf p with
  | some b => b
  | none => match tget (s.tile t).codeOld p with
    | some b => b
    | none => BitVec.ofNat 64 (leNat (s.lmRead t (8 * p) 8))

/-- Whether the bundle at an index is fetched from local memory. -/
def State.fetchesLm (s : State) (t p : Nat) : Bool := (tget (s.tile t).loopBuf p).isNone && (tget (s.tile t).codeOld p).isNone

/-- The bundles that n bytes at an offset touch kept as the program sees them, before its own store changes them (R104). -/
def State.codeKeep (s : State) (t off n : Nat) : State :=
  let ps := (List.range ((off % 8 + n + 7) / 8)).map fun i => (off / 8 + i) % 65536
  s.modTile t fun x => { x with codeOld := ps.foldl (fun c p => if (tget c p).isSome then c else tput c p (s.fetchB t p)) x.codeOld }

/-- A store of the sequencer to its local memory (R104, R112). -/
def State.seqStore (s : State) (t off : Nat) (bs : List Byte) (poison : Bool) : State := (s.codeKeep t off bs.length).lmWrite t off bs poison

/-- Little-endian 32-bit words of bytes, and bytes of words. -/
def wordsOf : Nat → List Byte → List W32
  | 0, _ => []
  | n + 1, bs => BitVec.ofNat 32 (leNat (bs.take 4)) :: wordsOf n (bs.drop 4)
def bytesOf (vs : List W32) : List Byte := vs.flatMap (fun v => leBytes 4 v.toNat)

/-! ### Tile cache and global targets (R82) -/

/-- The set and line address of a local physical address in a tile cache. -/
def cacheSet (a : Nat) : Nat := nbits a 12 7
def lineOf (a : Nat) : Nat := a / 128 * 128

/-- A tile-cache line held valid, with its key. -/
def State.cacheFind (s : State) (t a : Nat) : Option (Nat × CLine) :=
  [0, 1, 2, 3].findSome? fun w =>
    match tget (s.tile t).cache (4 * cacheSet a + w) with
    | some l => if l.line = lineOf a then some (4 * cacheSet a + w, l) else none
    | none => none

/-- The way of a line's set that holds it already: a second load of the line outstanding brings it there again (log entry 127). -/
def cacheWay (c : Tbl CLine) (a : Nat) : Option Nat :=
  [0, 1, 2, 3].find? fun w => match tget c (4 * cacheSet a + w) with
    | some l => l.line == lineOf a
    | none => false

/-- A line installed, replaced not-recently-used in its set (R82, R502). -/
def cacheInstall (c : Tbl CLine) (a : Nat) (d : BitVec 1024) : Tbl CLine :=
  let base := 4 * cacheSet a
  match cacheWay c a with
  | some w => tput c (base + w) ⟨lineOf a, true, d, false⟩
  | none =>
    match nruVictim 4 (fun i => (tget c (base + i)).map (·.used)) (fun _ => true) with
    | none => c
    | some (i, clr) =>
      let c := if clr then c.map (fun e => if base ≤ e.1 ∧ e.1 < base + 4 then (e.1, { e.2 with used := false }) else e) else c
      tput c (base + i) ⟨lineOf a, true, d, false⟩

/-- Whether a load from a global address allocates in the tile cache (R82, NC of Table 8-1). -/
def State.allocates (s : State) (g : Nat) (nc : Bool) : Bool :=
  !nc && s.isOwn g && (match region (gLocal g) with
    | .hbm => true
    | .scratch => true
    | .site n => s.siteCoherent n (gLocal g)
    | _ => false)

/-- The virtual address of a GLD or GST: its pair plus 4 × imm5 (Table 4-7, R66). -/
def State.gva (s : State) (t c : Nat) : Nat := ((s.pair t (nbits c 9 5)).toNat + 4 * (c % 32)) % 2 ^ 64

end Sys2Proof.Machine
end

