-- ==== Sys2Proof/Machine/Flags.lean ====
section
/-! DEFINITION. The sticky flags of tile.arith.status (R63, Table 2-8), the arithmetic controls, the rounding mode of an
instruction, and the stochastic-rounding generators (R44 to R48). -/

namespace Sys2Proof.Machine

/-- Flags set in tile.arith.status: sticky (R63). -/
def State.flag (s : State) (t f : Nat) : State :=
  if f = 0 then s else s.set (R.tileArithStatus t) (s.get (R.tileArithStatus t) ||| BitVec.ofNat 64 f)

/-- Flags set by a bundle's own vector slot, which a write in the same cycle does not clear (R64). -/
def State.flagV (s : State) (t f : Nat) : State :=
  (s.flag t f).modTile t fun x => { x with bundle := x.bundle.map fun o => { o with flags := o.flags ||| f } }

/-- tile.arith.ctrl as the bundle being issued sees it: its value at that issue (R64). -/
def State.actl (s : State) (t : Nat) : W64 :=
  match (s.tile t).bundle with
  | some o => o.ctl
  | none => s.get (R.tileArithCtrl t)

/-- Controls of tile.arith.ctrl (Table 2-7). -/
def State.ftz (s : State) (t : Nat) : Bool := bit (s.actl t) 6
def State.sat (s : State) (t : Nat) : Bool := bit (s.actl t) 5
def State.scaleRule (s : State) (t : Nat) : Bool := bit (s.actl t) 7
def State.intWrap (s : State) (t : Nat) : Bool := bit (s.actl t) 8

/-- The rounding mode of an instruction's rm field: 0b111 is dynamic (Table 2-5). -/
def State.rmode (s : State) (t rm : Nat) : Nat := if rm = 7 then fld (s.actl t) 2 0 else rm

/-- tile.arith.sr_seed as the bundle being issued sees it (R64). -/
def State.aseed (s : State) (t : Nat) : W64 :=
  match (s.tile t).bundle with
  | some o => o.seed
  | none => s.get (R.tileArithSrSeed t)

/-- The generator state of a lane: what R48 seeds until the lane first draws. -/
def State.genOf (s : State) (t lane : Nat) : Nat :=
  match tget (s.tile t).gen lane with
  | some v => v.toNat
  | none => ((s.aseed t).toNat % 2 ^ 32) ^^^ (64 * (s.ltile t).getD 0 + lane)

/-- The draws of a list of elements converted in order, each on its lane (R46): none are made where SR is not in effect. -/
def State.draws (s : State) (t f mode : Nat) : List Nat → List Nat × State
  | [] => ([], s)
  | l :: ls =>
    if usesSr f mode then
      let g := lcg (s.genOf t l)
      let s := s.modTile t fun x => { x with gen := tput x.gen l (BitVec.ofNat 32 g) }
      let (rs, s) := s.draws t f mode ls
      (lcgDraw g :: rs, s)
    else (List.replicate (ls.length + 1) 0, s)

/-- Results and flags of a list of lane operations gathered. -/
def gather (rs : List (Nat × Nat)) : List W32 × Nat :=
  (rs.map (fun r => BitVec.ofNat 32 r.1), rs.foldl (fun f r => f ||| r.2) 0)

end Sys2Proof.Machine
end

