-- ==== Sys2Proof/Machine/Issue.lean ====
section
/-! DEFINITION. Issue of bundles (R101 to R107): the checks before a bundle issues, its stalls, the order of its three slot
commands, hardware loops and the next bundle index. Cycle counts are left out (log entry 11). -/

namespace Sys2Proof.Machine

/-- Whether the sequencer runs; the index of the next bundle (Table 4-10); its local-memory offset. -/
def State.running (s : State) (t : Nat) : Bool := s.bget (R.tileSeqStatus t) 31
def State.pc (s : State) (t : Nat) : Nat := s.fget (R.tileSeqStatus t) 15 0
def State.bAddr (s : State) (t : Nat) : W64 := BitVec.ofNat 64 (8 * s.pc t)

/-- A kill raised by a slot of the bundle at pc: unit 0 matrix, 1 vector, 2 control (R133). -/
def State.slotKill (s : State) (t cause unit detail : Nat) : State := s.kill t cause unit detail (s.bAddr t)

/-! ### Local-memory hazards (R112) -/

/-- Whether two ranges of local memory meet, addresses modulo 512 KiB. -/
def lmMeets (a n b m : Nat) : Bool :=
  decide ((b % 0x80000 + 0x80000 - a % 0x80000) % 0x80000 < n) || decide ((a % 0x80000 + 0x80000 - b % 0x80000) % 0x80000 < m)

/-- Fields of a matrix operand descriptor (Table 4-3); the even register is bits 31:0 of the pair. -/
def dFmt (d : W64) : Nat := fld d 31 28
def dEport (d : W64) : Option Nat := if bit d 27 then some (fld d 26 25) else none
def dSport (d : W64) : Option Nat := if bit d 24 then some (fld d 23 22) else none
def dEbase (d : W64) : Nat := fld d 18 4 * 16
def dSbase (d : W64) : Nat := fld d 63 49 * 16
def dStride (d : W64) : Nat := fld d 48 34 * 16
/-- Bytes of a scale group: 32 for an MX format, 64 for SSF4 (R111). -/
def scaleGroup (f : Nat) : Nat := if f = 8 then 64 else 32

/-- The local-memory ranges of one operand of an MMA of k elements (R111). -/
def opRanges (d : W64) (total : Nat) : List (Nat × Nat) :=
  (match dEport d with
    | some _ => []
    | none => (List.range 32).map (fun r => (dEbase d + r * dStride d, 32 * total * fmtBits (dFmt d) / 8))) ++
  (if fmtScaled (dFmt d) then (match dSport d with
    | some _ => []
    | none => [(dSbase d, scaleGroup (dFmt d) * total)]) else [])

/-- The ranges that queued and executing MMAs still hold: all of an MMA's until every byte of them has been read into the operand buffers (R112). -/
def heldRanges (q : List MOp) : List (Nat × Nat) :=
  q.flatMap fun o => if o.mclr then [] else
    let a := opRanges o.dA o.total
    let b := opRanges o.dB o.total
    if (decide (o.fillA < o.total) && !a.isEmpty) || (decide (o.fillB < o.total) && !b.isEmpty) then a ++ b else []

/-- The write-out address word of VAWR and VALD (R117): base and stride. -/
def woBase (w : W32) : Nat := nbits w.toNat 14 0 * 16
def woStride (w : W32) : Nat := nbits w.toNat 30 16 * 16

/-- The local-memory ranges a bundle writes: a VST, a write-out to local memory, an ST. -/
def State.writesLm (s : State) (t : Nat) (b : W64) : List (Nat × Nat) :=
  let v := vSlot b
  let c := cSlot b
  (if vOp b = 0x21 then [((s.sr t (nbits v 12 8)).toNat + 16 * (v % 256), 256)]
   else if vOp b = 0x28 ∧ !nbit v 3 then
     let w := s.sr t (nbits v 15 11)
     let n := 32 * fmtBits (nbits v 10 7) / 8
     (List.range 32).map (fun r => (woBase w + r * woStride w, n)) ++
       (if fmtScaled (nbits v 10 7) then [(woBase w + 32 * woStride w, scaleGroup (nbits v 10 7))] else [])
   else []) ++
  (if cOp b = 7 then [((s.sr t (nbits c 9 5)).toNat + 4 * (c % 32), 4)] else [])

/-! ### Stalls (Table 4-10) -/

/-- Scalar registers whose loads are outstanding (R105). -/
def State.pendingSr (s : State) (t : Nat) : List Nat :=
  ((s.tile t).misses.filter (fun m => !m.2.store && !m.2.dead)).map (·.2.sd)

/-- Flits held by a direct-mode input port. -/
def State.fifo (s : State) (t p : Nat) : List Flit := tgetD (s.tile t).sin p []

/-- Whether a request to another device would stall its issuer (R320, R321). -/
def State.tksStall (s : State) (dst : Nat) : Bool :=
  let s := s.tksTrim
  decide (16384 ≤ s.tksOut) || decide (32768 ≤ s.reqAge (s.tksFloor dst))

/-- The stall of a GLD or GST (R84, R231, R320): 0xB while its translation, a miss slot or room for its request is awaited. A misaligned one does not wait
(R121). -/
def State.stallG (s : State) (t c : Nat) (store : Bool) : Nat :=
  if s.gva t c % 4 ≠ 0 then 0
  else match s.lookup t (s.gva t c) store with
  | .miss => 0xB
  | .bad _ => 0
  | .hit _ e g =>
    if !s.isOwn g && (s.route (gDev g)).isSome && s.tksStall (gDev g) then 0xB
    else if 16 ≤ (s.tile t).misses.length ∧ !(!store && s.allocates g e.nc && (match s.cacheFind t (gLocal g) with | some (_, l) => !l.perr | none => false)) then 0xB else 0

/-- The stall code of a bundle, 0 when it can issue: the first that applies in the order of the codes of Table 4-10. Stores and write-outs to local
memory (mask bit 1 of FENCE, R129) are complete as they issue. -/
def State.stallCode (s : State) (t : Nat) (b : W64) : Nat :=
  let x := s.tile t
  let v := vSlot b
  let c := cSlot b
  let regs := mReads (mSlot b) ++ vReads v ++ cReads c ++ (vWrites v).toList ++ (cWrites c).toList
  let pend := s.pendingSr t
  if regs.any (fun r => r != 0 && pend.contains r) then 1
  else if (vAccs v).any (fun a => x.queue.any (fun o => o.acc == a))
      || (match x.wout, mAcc (mSlot b) with | some (a, _, _), some m => a == m | _, _ => false) then 2
  else if mOp b ≠ 0 ∧ 3 ≤ x.queue.length then 3
  else if (s.writesLm t b).any (fun w => (heldRanges x.queue).any (fun h => lmMeets w.1 w.2 h.1 h.2)) then 4
  else if vOp b = 0x25 ∧ s.bget (R.tileSinCfg t (nbits v 12 11)) 31 ∧ !(s.bget (R.tileSinCfg t (nbits v 12 11)) 30)
      ∧ (s.fifo t (nbits v 12 11)).length < nbits v 10 9 + 1 then 5
  else if (vOp b ≠ 0 ∧ x.wout.isSome) ∨ (vOp b = 0x26 ∧ s.bget (R.tileSoutStat t (nbits v 12 11)) 31
      ∧ s.fget (R.tileSoutStat t (nbits v 12 11)) 12 0 < nbits v 10 9 + 1) then 6
  else if cOp b = 0x11 ∧ !x.released then 7
  else if cOp b = 0x13 ∧ ((nbit c 0 && x.misses.any (fun m => m.2.store && !m.2.dead)) || (nbit c 2 && !x.queue.isEmpty)
      || (nbit c 3 && x.misses.any (fun m => m.2.cached && !m.2.store && !m.2.dead))) then 8
  else if cOp b = 8 then s.stallG t c false
  else if cOp b = 9 then s.stallG t c true
  else 0

/-- A waiter registered at an object's home for a tile (R288), once; already met, it is released at once. -/
def State.waitReg (s : State) (t obj thresh : Nat) : State :=
  if (tget s.waiters t).isSome || (s.tile t).released || s.updates.contains t || decide (8192 ≤ obj) then s
  else
    let s := { s with waiters := tput s.waiters t ⟨obj, thresh⟩ }.fset (R.syncStatus obj) 11 0 (s.fget (R.syncStatus obj) 11 0 + 1)
    if thresh ≤ (s.get (R.syncCount obj)).toNat then s.release t else s

/-- What a stall does: its code and count are kept (Table 4-10), and for want of a credit the port's count too (R90); a WAIT registers (R127), a
GLD or GST asks for its translation. -/
def State.stallDo (s : State) (t : Nat) (b : W64) (k : Nat) : State :=
  let s := (s.fset (R.tileSeqStatus t) 27 24 k).bump (R.tileSeqStalled t) 32 1
  let c := cSlot b
  if k = 6 then (if vOp b = 0x26 ∧ (s.tile t).wout.isNone then s.bump (R.tileSoutStall t (nbits (vSlot b) 12 11)) 32 1 else s)
  else if k = 7 then s.waitReg t (s.sr t (nbits c 14 10)).toNat (s.pair t (nbits c 9 5)).toNat
  else if k = 0xB then (match s.lookup t (s.gva t c) (cOp b == 9) with
    | .miss => s.lookupDone t 0 (s.gva t c) (cOp b == 9)
    | _ => s)
  else s

/-! ### Issue -/

/-- Whether slot n may be the first command of a bundle: the slots before it hold no operation. -/
def firstSlot (b : W64) (n : Nat) : Bool :=
  match n with
  | 0 => true
  | 1 => mSlot b == 0
  | _ => mSlot b == 0 && vSlot b == 0

/-- Whether slot n is the next command of an open bundle. -/
def nextSlot (o : OpenB) (b : W64) (n : Nat) : Bool :=
  o.b == b && (o.slots == n || (n == 2 && o.slots == 1 && vSlot b == 0))

/-- A slot's effect, and its place in the open bundle; a killed tile has none. The control slot closes the bundle itself. -/
def State.slotRun (s : State) (t n : Nat) (eff : State → State) : State :=
  let s := eff s
  if n < 2 ∧ s.running t then s.modTile t fun x => { x with bundle := x.bundle.map (fun o => { o with slots := n + 1 }) } else s

/-- The loop buffer with a bundle put in where the body of an active loop holds its index (R123). -/
def State.loopKeep (s : State) (t p : Nat) (b : W64) : Tbl W64 :=
  let x := s.tile t
  if x.loopOrd.any (fun n => decide (s.fget (R.tileSeqLoopb t n) 15 0 ≤ p) && decide (p ≤ s.fget (R.tileSeqLoopb t n) 31 16)) then tput x.loopBuf p b else x.loopBuf

/-- A bundle's issue: tile.arith.ctrl and tile.arith.sr_seed are those in force now (R64). -/
def State.openB (s : State) (t : Nat) (b : W64) (n : Nat) : State :=
  s.modTile t fun x => { x with bundle := some { b := b, slots := n, ctl := s.get (R.tileArithCtrl t), seed := s.get (R.tileArithSrSeed t) }
                                loopBuf := s.loopKeep t (s.pc t) b }

/-- A slot command of tile t (R101, R103). The first slot of a bundle issues the bundle: a poisoned or illegal bundle kills (R104,
R102), a stalled one stays. A command out of its turn or that carries another bundle than the one fetched, and any command to a stopped tile, has no effect
(log entry 12). -/
def State.slot (s : State) (t : Nat) (b : W64) (n : Nat) (eff : State → State) : State :=
  if !s.running t then s
  else match (s.tile t).bundle with
    | some o => if nextSlot o b n then s.slotRun t n eff else s
    | none =>
      if !firstSlot b n || s.fetchB t (s.pc t) != b then s
      else
        let lm := s.fetchesLm t (s.pc t)
        let s := if lm then (s.lmMeetAt t (8 * s.pc t) 8).served t 2 else s
        if lm && s.lmBad t (8 * s.pc t) 8 then s.slotKill t 8 6 0
        else match bundleCheck b with
          | some (c, u, d) => s.slotKill t c u d
          | none =>
            let k := s.stallCode t b
            if k ≠ 0 then s.stallDo t b k
            else (s.openB t b n).slotRun t n eff

/-! ### The next bundle -/

/-- First and last bundle of a loop's body; its remaining count (chapter 4). -/
def State.loopFirst (s : State) (t n : Nat) : Nat := s.fget (R.tileSeqLoopb t n) 15 0
def State.loopLast (s : State) (t n : Nat) : Nat := s.fget (R.tileSeqLoopb t n) 31 16

/-- A loop level ended. -/
def State.loopEnd (s : State) (t n : Nat) : State :=
  let s := (s.set (R.tileSeqLoop t n) 0).bset (R.tileSeqStatus t) (16 + n) false
  s.modTile t fun x =>
    let o := x.loopOrd.filter (· != n)
    { x with loopOrd := o, loopBuf := if o.isEmpty then [] else x.loopBuf }

/-- The bundle after p when no branch is taken: loops that end at p count, innermost first (R124). -/
def State.after (s : State) (t p : Nat) : List Nat → State × Nat
  | [] => (s, p + 1)
  | n :: ns =>
    if s.loopLast t n ≠ p then s.after t p ns
    else
      let c := (s.get (R.tileSeqLoop t n)).toNat
      if 1 < c then (s.set (R.tileSeqLoop t n) (BitVec.ofNat 64 (c - 1)), s.loopFirst t n)
      else (s.loopEnd t n).after t p ns

/-- Loops that a branch to p leaves end (R125). -/
def State.leaveLoops (s : State) (t p : Nat) : State :=
  ((s.tile t).loopOrd.filter (fun n => !(decide (s.loopFirst t n ≤ p) && decide (p ≤ s.loopLast t n)))).foldl
    (fun s n => s.loopEnd t n) s

/-- The open bundle closed: the write of its VGET made (R103), the update of its WAIT taken (R127), a reseeding that it held up done (R64). -/
def State.closeB (s : State) (t : Nat) : State :=
  let s := match (s.tile t).bundle with
    | some o => (match o.vget with | some (r, v) => s.setSr t r v | none => s)
    | none => s
  s.modTile t fun x => { x with bundle := none, released := false, gen := if x.reseed then [] else x.gen, reseed := false }

/-- The bundle issued: the VGET write made, the counters kept, the next index set; past 0xFFFF the context is killed (R104). -/
def State.finishB (s : State) (t : Nat) (next : Int) : State :=
  if next < 0 ∨ 0xFFFF < next then s.slotKill t 9 2 0
  else
    let s := s.closeB t
    (s.set (R.tileSeqStatus t) (setFld (setFld (s.get (R.tileSeqStatus t)) 27 24 0) 15 0 next.toNat)).bump (R.tileSeqIssued t) 32 1

/-- The bundle closed with no branch taken, as if it stood at p. -/
def State.fall (s : State) (t p : Nat) : State :=
  let (s, n) := s.after t p (s.tile t).loopOrd
  s.finishB t n

/-- The bundle closed at its own index. -/
def State.next (s : State) (t : Nat) : State := s.fall t (s.pc t)

/-- The bundle closed with a branch by a signed number of bundles (R120, R122, R125); what the program has written of its own bundles shows from here on
(R104; log entry 128). -/
def State.branch (s : State) (t : Nat) (off : Int) : State :=
  let p := (s.pc t : Int) + off
  ((s.leaveLoops t p.toNat).modTile t fun x => { x with codeOld := [], loopBuf := [] }).finishB t p

end Sys2Proof.Machine
end

