-- ==== Sys2Proof/Machine/Matrix.lean ====
section
/-! DEFINITION. The matrix engine: the matrix slot's operations, the operand buffers and the granules (chapters 2 to 4). -/

namespace Sys2Proof.Machine

/-- A slot command of a tile: it faults for a tile that does not exist, is refused where its bundle holds another operation in
that slot, and else answers the next state. -/
def slotCmd (t : Nat) (fits : Bool) (next : State) : Outc :=
  if 2176 ≤ t then .fault .noSuchUnit else if fits then .next next else .refused .illFormed

/-! ### Streams, consumer side (R86 to R89) -/

/-- n flits popped from a direct-mode input port: one credit returns to the producer for each (R87, R88). -/
def State.popFlits (s : State) (t p n : Nat) : State :=
  match s.dressOf t with
  | none => s
  | some (_, d) =>
    let s := s.modTile t fun x => { x with sin := tset x.sin p [] ((tgetD x.sin p []).drop n) }
    let s := s.set (R.tileSinStat t p) (setFld (setFld (s.get (R.tileSinStat t p)) 28 16 (s.fget (R.tileSinStat t p) 28 16 - n))
      12 0 (s.fget (R.tileSinStat t p) 12 0 + n))
    s.creditBack d (tgetD (s.tile t).sinSrc p 0) n

/-- Whether a port can be popped: bound and in direct mode (R89). -/
def State.popOk (s : State) (t p : Nat) : Bool := s.bget (R.tileSinCfg t p) 31 && !(s.bget (R.tileSinCfg t p) 30)

/-- An uncorrectable error in an input port's credit or occupancy field, met by a read: a breach of stream credits, and the context of the dressing is
killed (R301, Table 12-4). -/
def State.portMet (s : State) (t p : Nat) : State :=
  if (s.dressOf t).isSome then (s.countMet 4 (4 * t + p)).killCtx (s.ctxOf t) none else s.countMet 4 (4 * t + p)

/-- The bytes of flits in order, and whether any is poisoned. -/
def flitBytes (fs : List Flit) : List Byte := fs.flatMap (fun f => leBytes 64 f.data.toNat)
def flitsBad (fs : List Flit) : Bool := fs.any (·.poison)

/-! ### Issue of matrix operations -/

/-- Whether a pair of formats is accepted (R49), and whether it accumulates into INT32. -/
def pairOk (f g : Nat) : Bool :=
  let small (x : Nat) := decide (3 ≤ x) && decide (x ≤ 8)
  let int (x : Nat) := x == 10 || x == 11
  (small f && small g) || (f == 9 && g == 9) || (f == 1 && g == 1) || (f == 2 && g == 2) || (int f && int g)
def pairInt (f : Nat) : Bool := f == 10 || f == 11

/-- Whether a descriptor's reserved bits other than fmt are all 0 (Table 4-3). -/
def descClean (d : W64) : Bool := fld d 21 19 == 0 && fld d 3 0 == 0 && fld d 33 32 == 0

/-- The kill cause of an MMA's operands, 0 for none (R108, R110, R49, R67). -/
def State.mmaCheck (s : State) (t m : Nat) : Nat :=
  let dA := s.pair t (2 * nbits m 13 10)
  let dB := s.pair t (2 * nbits m 9 6)
  let k := (s.sr t (nbits m 5 1)).toNat
  if k = 0 ∨ 0xFFFE0 < k ∨ k % 32 ≠ 0 then 2
  else if 13 ≤ dFmt dA ∨ 13 ≤ dFmt dB then 1
  else if !(descClean dA) || !(descClean dB) then 9
  else if !(pairOk (dFmt dA) (dFmt dB)) then 4
  else if !(nbit m 14) && s.accIsInt t (nbits m 16 15) != pairInt (dFmt dA) then 0xA
  else 0

/-- An MMA issued: its descriptors latched, the operation queued, the tag set by a clear (R67, R72, R110). -/
def State.mmaDo (s : State) (t m : Nat) : State :=
  let a := nbits m 16 15
  let dA := s.pair t (2 * nbits m 13 10)
  let dB := s.pair t (2 * nbits m 9 6)
  if s.mmaCheck t m ≠ 0 then s.slotKill t (s.mmaCheck t m) 0 (if s.mmaCheck t m = 0xA then a else 0)
  else
    let s := s.modTile t fun x =>
      { x with queue := x.queue ++ [{ mclr := false, acc := a, clr := nbit m 14, int := pairInt (dFmt dA), dA := dA, dB := dB, total := (s.sr t (nbits m 5 1)).toNat / 32, wrap := s.intWrap t, addr := s.bAddr t }] }
    if nbit m 14 then s.setTag t a (pairInt (dFmt dA)) else s

/-- An MCLR issued: it enters the matrix queue like an MMA (R109). -/
def State.mclrDo (s : State) (t m : Nat) : State :=
  let a := nbits m 16 15
  let s := s.modTile t fun x => { x with queue := x.queue ++ [{ mclr := true, acc := a, clr := true, int := nbit m 14, dA := 0, dB := 0, total := 0 }] }
  s.setTag t a (nbit m 14)

/-- MNOP: no operation in the matrix slot (Table 4-2). A bundle whose matrix slot holds a reserved opcode, or a nonzero bit beside opcode 0, issues by this
command too, and kills (R102). -/
def execMnop (t : Nat) (b : W64) (s : State) : Outc := slotCmd t (mOp b != 1 && mOp b != 2) (s.slot t b 0 id)
/-- MMA: acc = acc + A × B queued (R108). -/
def execMma (t : Nat) (b : W64) (s : State) : Outc := slotCmd t (mOp b == 1) (s.slot t b 0 (fun s => s.mmaDo t (mSlot b)))
/-- MCLR: accumulator clear queued (R109). -/
def execMclr (t : Nat) (b : W64) (s : State) : Outc := slotCmd t (mOp b == 2) (s.slot t b 0 (fun s => s.mclrDo t (mSlot b)))

/-! ### Operand buffers (R71, R501) -/

/-- Flits of a granule's elements in a port (R71). -/
def granFlits (f : Nat) : Nat := 2 * fmtBits f

/-- What a fill takes: the granule, the flits popped from the element and scale ports, and the scales kept for the odd granule. -/
structure Fill where
  g : Granule
  half : List Nat
deriving DecidableEq, Repr

/-- The elements of granule g of an operand from local memory (R111): codes row by row, and poison. -/
def State.granLm (s : State) (t : Nat) (d : W64) (g : Nat) : List Nat × Bool :=
  let w := fmtBits (dFmt d)
  let at' (r : Nat) := dEbase d + r * dStride d + 4 * w * g
  ((List.range 32).flatMap (fun r => unpackBits w 32 (leNat (s.lmRead t (at' r) (4 * w)))),
   (List.range 32).any (fun r => s.lmBad t (at' r) (4 * w)))

/-- The 32 scale words of a group of bytes. -/
def scaleWords (f : Nat) (bs : List Byte) : List Nat := unpackBits (if f = 8 then 16 else 8) 32 (leNat bs)

/-- Errors of local memory met by the fetch of granule g of an operand (R79). -/
def State.granMeet (s : State) (t : Nat) (d : W64) (g : Nat) : State :=
  let w := fmtBits (dFmt d)
  let s := if (dEport d).isNone then
      (List.range 32).foldl (fun s r => s.lmMeetAt t (dEbase d + r * dStride d + 4 * w * g) (4 * w)) s
    else s
  if fmtScaled (dFmt d) && (dSport d).isNone then s.lmMeetAt t (dSbase d + scaleGroup (dFmt d) * g) (scaleGroup (dFmt d)) else s

/-- The next granule of one operand of an operation: `none` while port-fed elements or scales have not all arrived. Where one port carries both planes, a
granule's element flits come before its scale flit (log entry 129). -/
def State.fillOne (s : State) (t : Nat) (opB : Bool) (d : W64) (g : Nat) (half : List Nat) : Option (Fill × State) :=
  let f := dFmt d
  let s := s.granMeet t d g
  let s := if (dEport d).isSome && (!fmtScaled f || (dSport d).isSome) then s else s.served t (b2n opB)
  let elems : Option (List Nat × Bool × State) := match dEport d with
    | none => let (e, p) := s.granLm t d g; some (e, p, s)
    | some p =>
      let fs := (s.fifo t p).take (granFlits f)
      if fs.length < granFlits f then none
      else some (unpackBits (fmtBits f) 1024 (leNat (flitBytes fs)), flitsBad fs, s.popFlits t p (granFlits f))
  match elems with
  | none => none
  | some (e, bad, s) =>
    if !fmtScaled f then some (⟨⟨e, [], bad⟩, []⟩, s)
    else match dSport d with
      | none =>
        let o := dSbase d + scaleGroup f * g
        some (⟨⟨e, scaleWords f (s.lmRead t o (scaleGroup f)), bad || s.lmBad t o (scaleGroup f)⟩, []⟩, s)
      | some p =>
        if f ≠ 8 ∧ g % 2 = 1 then some (⟨⟨e, half, bad⟩, []⟩, s)
        else
          match s.fifo t p with
          | [] => none
          | fl :: _ =>
            let bs := flitBytes [fl]
            some (⟨⟨e, scaleWords f (bs.take (if f = 8 then 64 else 32)), bad || fl.poison⟩,
              if f = 8 then [] else scaleWords f (bs.drop 32)⟩, s.popFlits t p 1)

/-- An operation of the queue replaced. -/
def setOp (q : List MOp) (i : Nat) (o : MOp) : List MOp := q.set i o

/-- The ports an operand is fed from. -/
def opPorts (d : W64) : List Nat := (dEport d).toList ++ (if fmtScaled (dFmt d) then (dSport d).toList else [])

/-- The next granule taken into an operand buffer, in execution order (R501): nothing while the buffer holds two granules, no
queued operation lacks one, or its flits have not arrived; a port that cannot be popped is misuse (R89). -/
def State.bufFill (s : State) (t : Nat) (opB : Bool) : State :=
  let x := s.tile t
  let buf := if opB then x.bufB else x.bufA
  if 2 ≤ buf.length then s
  else match x.queue.findIdx? (fun o => !o.mclr && decide ((if opB then o.fillB else o.fillA) < o.total)) with
    | none => s
    | some i =>
      match x.queue[i]? with
      | none => s
      | some o =>
        let d := if opB then o.dB else o.dA
        match (opPorts d).find? (fun p => !s.popOk t p) with
        | some p => s.kill t 0xB 0 p o.addr
        | none =>
          match (opPorts d).find? (fun p => s.countUe 4 (4 * t + p)) with
          | some p => s.portMet t p
          | none =>
          match s.fillOne t opB d (if opB then o.fillB else o.fillA) (if opB then o.halfB else o.halfA) with
          | none => s
          | some (fl, s) =>
            s.modTile t fun x =>
              if opB then { x with bufB := x.bufB ++ [fl.g], queue := setOp x.queue i { o with fillB := o.fillB + 1, halfB := fl.half } }
              else { x with bufA := x.bufA ++ [fl.g], queue := setOp x.queue i { o with fillA := o.fillA + 1, halfA := fl.half } }

/-- OPERAND_BUFFER_FILL (R501). -/
def execOperandBufferFill (t : Nat) (opB : Bool) (s : State) : Outc := run (t < 2176) (s.bufFill t opB)

/-! ### Granules (R50 to R52, R58 to R60) -/

/-- The values of a granule's row r in format f. -/
def granRow (f : Nat) (g : Granule) (r : Nat) : List Num :=
  (List.range 32).map (fun k => blockValue f (g.scales.getD r 0) k (g.elems.getD (32 * r + k) 0))

/-- The exact sum of the products of two rows (R50, R51), with the invalid flag. -/
def dot : List Num → List Num → Num × Nat
  | [], _ => (.fin false 0 0, 0)
  | _, [] => (.fin false 0 0, 0)
  | [a], [b] => Num.mul a b
  | a :: as, b :: bs =>
    let (p, f) := Num.mul a b
    let (q, g) := dot as bs
    let (r, h) := Num.add 0 p q
    (r, f ||| g ||| h)

/-- The significand and exponent a finite operand decodes to (R58). -/
def resM : Num → Int
  | .fin n m _ => if n then -(m : Int) else m
  | _ => 0
def resE : Num → Int
  | .fin _ _ e => e
  | _ => 0

/-- The pairs of a granule's operands, and the smallest sum of their exponents (R58). -/
def resPairs (as bs : List Num) : List (Int × Int × Int) := (as.zip bs).map fun p => (resM p.1, resM p.2, resE p.1 + resE p.2)
def resMin : List (Int × Int × Int) → Int
  | [] => 0
  | [x] => x.2.2
  | x :: r => min x.2.2 (resMin r)

/-- The residue the check unit predicts (R58). -/
def resPredict (ps : List (Int × Int × Int)) : Int :=
  ps.foldl (fun r p => (r + p.1 % 7 * (p.2.1 % 7) * (2 ^ ((p.2.2 - resMin ps) % 3).toNat : Nat)) % 7) 0

/-- The exact granule sum in units of 2^emin (R58). -/
def resSum (ps : List (Int × Int × Int)) : Int := ps.foldl (fun r p => r + p.1 * p.2.1 * (2 ^ (p.2.2 - resMin ps).toNat : Nat)) 0

/-- Whether every operand of a row is finite: only then is there an exact sum to check (log entry 130). -/
def allFin (as : List Num) : Bool := as.all fun x => match x with | .fin _ _ _ => true | _ => false

/-- The residue check of one output element and granule, on a datapath whose exact sum is off by `err` units of 2^emin: whether it fails (R58). -/
def resFails (as bs : List Num) (err : Int) : Bool :=
  allFin as && allFin bs && (resSum (resPairs as bs) + err) % 7 != resPredict (resPairs as bs)

/-- An error of the datapath as a value (R58). -/
def errNum (as bs : List Num) (err : Int) : Num := .fin (decide (err < 0)) err.natAbs (resMin (resPairs as bs))

/-- One FP32 accumulator element after a granule whose exact sum is off by `err`: one RNE rounding (R50, R51). A NaN among the operands gives NaN and no
invalid flag, which a NaN that arises from operands that are none sets (Table 2-8). -/
def accAdd (old : W32) (as bs : List Num) (err : Int) : Nat × Nat :=
  if (decode 0 old.toNat).isNan || as.any Num.isNan || bs.any Num.isNan then (nanCode 0, 0)
  else
    let (p, f) := dot as bs
    let p := if err = 0 then p else (Num.add 0 p (errNum as bs err)).1
    let (r, g) := Num.add 0 (decode 0 old.toNat) p
    let (c, h) := toFp32 0 r
    (c, f ||| g ||| h)

/-- The exact integer sum of two rows. -/
def dotInt : List Num → List Num → Int
  | a :: as, b :: bs => a.toInt 0 * b.toInt 0 + dotInt as bs
  | _, _ => 0

/-- One INT32 accumulator element after a granule (R52). -/
def accAddInt (wrapOn : Bool) (old : W32) (as bs : List Num) (err : Int) : Nat × Nat :=
  let v := sext 32 old.toNat + dotInt as bs + err
  if wrapOn then (wrap 32 v, 0)
  else if v < -(2 ^ 31 : Nat) then (2 ^ 31, fIntSat)
  else if (2 ^ 31 : Nat) ≤ v then (2 ^ 31 - 1, fIntSat)
  else (wrap 32 v, 0)

/-- The error a list gives an element. -/
def errAt (errs : List (Nat × Int)) (i : Nat) : Int := ((errs.find? fun e => e.1 == i).map (·.2)).getD 0

/-- The rows of a granule pair. -/
def granRows (f : Nat) (g : Granule) : List (List Num) := (List.range 32).map (granRow f g)

/-- The accumulator after a granule: its 1,024 elements and the flags. -/
def State.granule (s : State) (t : Nat) (o : MOp) (ra rb : List (List Num)) (errs : List (Nat × Int)) : List W32 × Nat :=
  let zero := o.clr && o.done == 0
  gather ((List.range 1024).map fun i =>
    let old := if zero then 0 else s.acc t o.acc (i / 32) (i % 32)
    if o.int then accAddInt o.wrap old (ra.getD (i / 32) []) (rb.getD (i % 32) []) (errAt errs i)
    else accAdd old (ra.getD (i / 32) []) (rb.getD (i % 32) []) (errAt errs i))

/-- Whether a check fails on a granule (R58, R59): the residue of an element whose sum is off; the duplicated path; the parity of an accumulator that
is read. -/
def State.granFails (s : State) (t : Nat) (o : MOp) (ra rb : List (List Num)) (errs : List (Nat × Int)) (dup : Bool) : Bool :=
  dup || errs.any (fun e => decide (e.1 < 1024) && resFails (ra.getD (e.1 / 32) []) (rb.getD (e.1 % 32) []) e.2)
    || (!(o.clr && o.done == 0) && s.accParity t o.acc)

/-- A datapath fault found by an operation of a slot of tile t (R60, R447): the accumulator poisoned, the fault recorded, the context killed, the tile
isolated. -/
def State.dpFault (s : State) (t a unit : Nat) (addr : W64) : State :=
  let s := (s.setAccBad t a true).bset (R.tileArithStatus t) 7 true
  let s := s.modTile t fun x => { x with dpFaults := x.dpFaults + 1, dpInjected := false }
  let s := s.detect 5 (t / 32) (t % 32) false
  (s.kill t 5 unit a addr).isoSet t 0

/-- The matrix engine's next step: an MCLR, or one granule of the executing MMA once both its operands are in their buffers
(R501). An MMA completes before a fault found on it (R60), or poison it has consumed (R80), kills the context. -/
def State.matStep (s : State) (t : Nat) (errs : List (Nat × Int)) (dup : Bool) : State :=
  let x := s.tile t
  match x.queue with
  | [] => s
  | o :: q =>
    if o.mclr then ((s.setAcc t o.acc []).setAccBad t o.acc false).modTile t fun x => { x with queue := q }
    else match x.bufA, x.bufB with
      | ga :: ta, gb :: tb =>
        if o.fillA ≤ o.done ∨ o.fillB ≤ o.done then s
        else
          let ra := granRows (dFmt o.dA) ga
          let rb := granRows (dFmt o.dB) gb
          let (vs, f) := s.granule t o ra rb errs
          let fault := o.fault || s.granFails t o ra rb errs dup
          let s := if o.clr && o.done == 0 then s.setAccBad t o.acc false else s
          let s := (s.setAcc t o.acc vs).flag t f
          let s := if ga.poison || gb.poison then s.setAccBad t o.acc true else s
          let s := s.modTile t fun x =>
            { x with bufA := ta, bufB := tb, queue := if o.done + 1 = o.total then q else { o with done := o.done + 1, fault := fault } :: q }
          if o.done + 1 ≠ o.total then s
          else if fault then s.dpFault t o.acc 0 o.addr
          else if s.accBad t o.acc then s.kill t 8 0 o.acc o.addr
          else s
      | _, _ => s

/-- MATRIX_GRANULE: one step of the matrix engine (R501), on a datapath with the faults `mismatch` (R58 to R60). -/
def execMatrixGranule (t : Nat) (mismatch : DpFaults) (s : State) : Outc := run (t < 2176) (s.matStep t mismatch.errs mismatch.dup)

end Sys2Proof.Machine
end

