-- ==== Sys2Proof/Machine/Vector.lean ====
section
/-! DEFINITION. The vector slot: FP32 and INT32 lane operations, conversions, local memory, streams, accumulators and softmax
(chapter 2, Tables 4-4 to 4-6). -/

namespace Sys2Proof.Machine

/-- A vector-slot command: the slot of bundle b holds opcode `op`. -/
def vecCmd (t : Nat) (b : W64) (op : Nat) (s : State) (eff : State → State) : Outc := slotCmd t (vOp b == op) (s.slot t b 1 eff)

/-! ### Lane operations (R113) -/

/-- Lane l of a V3 instruction's operands: va, vb, vd. -/
def State.ops3 (s : State) (t v l : Nat) : Nat × Nat × Nat :=
  ((s.vr t (nbits v 12 8) l).toNat, (s.vr t (nbits v 7 3) l).toNat, (s.vr t (nbits v 17 13) l).toNat)

/-- The 64 results of a lane function of va, vb and vd written to vd, with their flags. -/
def State.lanes3 (s : State) (t v : Nat) (f : Nat → Nat → Nat → Nat × Nat) : State :=
  let (vs, fl) := gather ((List.range 64).map fun l => f (s.ops3 t v l).1 (s.ops3 t v l).2.1 (s.ops3 t v l).2.2)
  (s.setVrow t (nbits v 17 13) vs).flagV t fl

/-- A lane function that sets no flag. -/
def State.lanesI (s : State) (t v : Nat) (f : Nat → Nat → Nat → Nat) : State := s.lanes3 t v (fun a b d => (f a b d, 0))

/-- The rounding mode of a vector instruction's rm field. -/
def State.vmode (s : State) (t v : Nat) : Nat := s.rmode t (v % 8)

/-- Every lane of vd set to one result. -/
def State.splat (s : State) (t d : Nat) (r : Nat × Nat) : State := (s.setVrow t d (List.replicate 64 (BitVec.ofNat 32 r.1))).flagV t r.2

/-- One level of the adder tree: lane 2k with lane 2k + 1 (R113). -/
def pairUp (ftz : Bool) : List Nat → List Nat × Nat
  | a :: b :: r =>
    let (x, f) := fAdd ftz 0 a b
    let (xs, g) := pairUp ftz r
    (x :: xs, f ||| g)
  | r => (r, 0)

/-- n levels of the adder tree. -/
def treeSum (ftz : Bool) : Nat → List Nat → Nat × Nat
  | 0, xs => (xs.getD 0 0, 0)
  | n + 1, xs =>
    let (ys, f) := pairUp ftz xs
    let (z, g) := treeSum ftz n ys
    (z, f ||| g)

/-- The maximum of FP32 values (R113). -/
def maxAll (ftz : Bool) : List Nat → Nat
  | [] => 0
  | [a] => fMax (ftzIn ftz a) (ftzIn ftz a)
  | a :: r => fMax (ftzIn ftz a) (maxAll ftz r)

/-- An integer as a value. -/
def numOfInt (i : Int) : Num := .fin (decide (i < 0)) i.natAbs 0

/-- INT32 to FP32, and FP32 to INT32, under a mode (R113, Table 2-4). -/
def itof (mode a : Nat) : Nat × Nat := toFp32 mode (numOfInt (sext 32 a))
def ftoi (ftz : Bool) (mode a : Nat) : Nat × Nat := toInt 32 (if mode = 4 then 0 else mode) 0 (decode 0 (ftzIn ftz a))

/-- The comparisons' result: −1 or 0. -/
def lane1 (c : Bool) : Nat := if c then 2 ^ 32 - 1 else 0

/-- Shifts by b mod 32 (R113, R120). -/
def shl32 (a b : Nat) : Nat := a * 2 ^ (b % 32) % 2 ^ 32
def shr32 (a b : Nat) : Nat := a / 2 ^ (b % 32)
def sra32 (a b : Nat) : Nat := wrap 32 (sext 32 a / (2 ^ (b % 32) : Nat))

/-- VNOP: no operation in the vector slot. -/
def execVnop (t : Nat) (b : W64) (s : State) : Outc := vecCmd t b 0 s id
/-- VADD (R53). -/
def execVadd (t : Nat) (b : W64) (s : State) : Outc :=
  vecCmd t b 1 s fun s => s.lanes3 t (vSlot b) fun x y _ => fAdd (s.ftz t) (s.vmode t (vSlot b)) x y
/-- VSUB (R53). -/
def execVsub (t : Nat) (b : W64) (s : State) : Outc :=
  vecCmd t b 2 s fun s => s.lanes3 t (vSlot b) fun x y _ => fSub (s.ftz t) (s.vmode t (vSlot b)) x y
/-- VMUL (R53). -/
def execVmul (t : Nat) (b : W64) (s : State) : Outc :=
  vecCmd t b 3 s fun s => s.lanes3 t (vSlot b) fun x y _ => fMul (s.ftz t) (s.vmode t (vSlot b)) x y
/-- VFMA (R53): va × vb + vd. -/
def execVfma (t : Nat) (b : W64) (s : State) : Outc :=
  vecCmd t b 4 s fun s => s.lanes3 t (vSlot b) fun x y d => fFma (s.ftz t) (s.vmode t (vSlot b)) x y d
/-- VMIN (R113). -/
def execVmin (t : Nat) (b : W64) (s : State) : Outc :=
  vecCmd t b 5 s fun s => s.lanesI t (vSlot b) fun x y _ => fMin (ftzIn (s.ftz t) x) (ftzIn (s.ftz t) y)
/-- VMAX (R113). -/
def execVmax (t : Nat) (b : W64) (s : State) : Outc :=
  vecCmd t b 6 s fun s => s.lanesI t (vSlot b) fun x y _ => fMax (ftzIn (s.ftz t) x) (ftzIn (s.ftz t) y)
/-- VCGT (R113). -/
def execVcgt (t : Nat) (b : W64) (s : State) : Outc :=
  vecCmd t b 7 s fun s => s.lanesI t (vSlot b) fun x y _ => lane1 (fGt (ftzIn (s.ftz t) x) (ftzIn (s.ftz t) y))
/-- VCEQ (R113). -/
def execVceq (t : Nat) (b : W64) (s : State) : Outc :=
  vecCmd t b 8 s fun s => s.lanesI t (vSlot b) fun x y _ => lane1 (fEq (ftzIn (s.ftz t) x) (ftzIn (s.ftz t) y))
/-- VSEL: va where vd is not 0, else vb. -/
def execVsel (t : Nat) (b : W64) (s : State) : Outc :=
  vecCmd t b 9 s fun s => s.lanesI t (vSlot b) fun x y d => if d = 0 then y else x
/-- VIADD, modulo 2^32. -/
def execViadd (t : Nat) (b : W64) (s : State) : Outc := vecCmd t b 0xA s fun s => s.lanesI t (vSlot b) fun x y _ => x + y
/-- VISUB, modulo 2^32. -/
def execVisub (t : Nat) (b : W64) (s : State) : Outc := vecCmd t b 0xB s fun s => s.lanesI t (vSlot b) fun x y _ => x + (2 ^ 32 - y)
/-- VIMUL: the low 32 bits of the product. -/
def execVimul (t : Nat) (b : W64) (s : State) : Outc := vecCmd t b 0xC s fun s => s.lanesI t (vSlot b) fun x y _ => x * y
/-- VAND. -/
def execVand (t : Nat) (b : W64) (s : State) : Outc := vecCmd t b 0xD s fun s => s.lanesI t (vSlot b) fun x y _ => x &&& y
/-- VOR. -/
def execVor (t : Nat) (b : W64) (s : State) : Outc := vecCmd t b 0xE s fun s => s.lanesI t (vSlot b) fun x y _ => x ||| y
/-- VXOR. -/
def execVxor (t : Nat) (b : W64) (s : State) : Outc := vecCmd t b 0xF s fun s => s.lanesI t (vSlot b) fun x y _ => x ^^^ y
/-- VSHL. -/
def execVshl (t : Nat) (b : W64) (s : State) : Outc := vecCmd t b 0x10 s fun s => s.lanesI t (vSlot b) fun x y _ => shl32 x y
/-- VSHR. -/
def execVshr (t : Nat) (b : W64) (s : State) : Outc := vecCmd t b 0x11 s fun s => s.lanesI t (vSlot b) fun x y _ => shr32 x y
/-- VSRA. -/
def execVsra (t : Nat) (b : W64) (s : State) : Outc := vecCmd t b 0x12 s fun s => s.lanesI t (vSlot b) fun x y _ => sra32 x y
/-- VEXP2 (R54). -/
def execVexp2 (t : Nat) (b : W64) (s : State) : Outc := vecCmd t b 0x14 s fun s => s.lanes3 t (vSlot b) fun x _ _ => trans (s.ftz t) 0 x
/-- VLOG2 (R54). -/
def execVlog2 (t : Nat) (b : W64) (s : State) : Outc := vecCmd t b 0x15 s fun s => s.lanes3 t (vSlot b) fun x _ _ => trans (s.ftz t) 1 x
/-- VRCP (R54). -/
def execVrcp (t : Nat) (b : W64) (s : State) : Outc := vecCmd t b 0x16 s fun s => s.lanes3 t (vSlot b) fun x _ _ => trans (s.ftz t) 2 x
/-- VRSQRT (R54). -/
def execVrsqrt (t : Nat) (b : W64) (s : State) : Outc := vecCmd t b 0x17 s fun s => s.lanes3 t (vSlot b) fun x _ _ => trans (s.ftz t) 3 x
/-- VRSUM: the 64 lanes of va summed in a fixed binary tree (R113). -/
def execVrsum (t : Nat) (b : W64) (s : State) : Outc :=
  vecCmd t b 0x18 s fun s =>
    s.splat t (nbits (vSlot b) 17 13) (treeSum (s.ftz t) 6 ((s.vrow t (nbits (vSlot b) 12 8)).map (·.toNat)))
/-- VRMAX: the maximum of the 64 lanes of va (R113). -/
def execVrmax (t : Nat) (b : W64) (s : State) : Outc :=
  vecCmd t b 0x19 s fun s =>
    s.splat t (nbits (vSlot b) 17 13) (maxAll (s.ftz t) ((s.vrow t (nbits (vSlot b) 12 8)).map (·.toNat)), 0)
/-- VMOV. -/
def execVmov (t : Nat) (b : W64) (s : State) : Outc := vecCmd t b 0x1A s fun s => s.lanesI t (vSlot b) fun x _ _ => x
/-- VITOF (R113). -/
def execVitof (t : Nat) (b : W64) (s : State) : Outc :=
  vecCmd t b 0x1B s fun s => s.lanes3 t (vSlot b) fun x _ _ => itof (s.vmode t (vSlot b)) x
/-- VFTOI (R113). -/
def execVftoi (t : Nat) (b : W64) (s : State) : Outc :=
  vecCmd t b 0x1C s fun s => s.lanes3 t (vSlot b) fun x _ _ => ftoi (s.ftz t) (s.vmode t (vSlot b)) x

/-! ### Conversions (R114) -/

/-- The bytes of a vector register. -/
def State.vbytes (s : State) (t r : Nat) : List Byte := bytesOf (s.vrow t r)

/-- VCVTD's effect: 64 lanes narrowed to fmt, packed from byte 0, the rest 0. -/
def State.cvtd (s : State) (t v : Nat) : State :=
  let f := nbits v 7 4
  let mode := s.rmode t (v % 8)
  let xs := s.vrow t (nbits v 12 8)
  let (rs, s) := s.draws t f mode (List.range 64)
  let cs := (List.range 64).map fun l =>
    let x := (xs.getD l 0).toNat
    convElem f (s.sat t) mode (rs.getD l 0) (if f = 0xA then numOfInt (sext 32 x) else decode 0 (ftzIn (s.ftz t) x))
  let fl := cs.foldl (fun a c => a ||| c.2.1) 0
  (s.setVrow t (nbits v 17 13) (wordsOf 64 (packBytes (fmtBits f) (cs.map (·.1))))).flagV t fl

/-- VCVTU's effect: 64 packed elements of one part of va widened exactly. -/
def State.cvtu (s : State) (t v : Nat) : State :=
  let f := nbits v 7 4
  let w := fmtBits f
  let bs := (s.vbytes t (nbits v 12 8)).drop (8 * w * nbits v 3 2)
  let cs := unpackBits w 64 (leNat (bs.take (8 * w)))
  s.setVrow t (nbits v 17 13) (cs.map fun c => BitVec.ofNat 32 (if f = 0xA then wrap 32 (sext 8 c) else (toFp32 0 (decode f c)).1))

/-- VCVTD. -/
def execVcvtd (t : Nat) (b : W64) (s : State) : Outc := vecCmd t b 0x1D s fun s => s.cvtd t (vSlot b)
/-- VCVTU. -/
def execVcvtu (t : Nat) (b : W64) (s : State) : Outc := vecCmd t b 0x1E s fun s => s.cvtu t (vSlot b)

/-! ### Local memory and scalars (R115) -/

/-- The local-memory address of a VLD or VST. -/
def State.vaddr (s : State) (t v : Nat) : Nat := ((s.sr t (nbits v 12 8)).toNat + 16 * (v % 256)) % 0x80000

/-- VLD's effect: 256 B loaded; a poisoned word is consumed (R80). -/
def State.vld (s : State) (t v : Nat) : State :=
  let a := s.vaddr t v
  if (s.sr t (nbits v 12 8)).toNat % 16 ≠ 0 then s.kill t 0xC 1 0 (BitVec.ofNat 64 a)
  else
    let s := (s.lmMeetAt t a 256).served t 2
    let s := s.setVrow t (nbits v 17 13) (wordsOf 64 (s.lmRead t a 256))
    if s.lmBad t a 256 then s.slotKill t 8 1 0 else s

/-- VST's effect: 256 B stored. -/
def State.vst (s : State) (t v : Nat) : State :=
  let a := s.vaddr t v
  if (s.sr t (nbits v 12 8)).toNat % 16 ≠ 0 then s.kill t 0xC 1 0 (BitVec.ofNat 64 a)
  else (s.seqStore t a (s.vbytes t (nbits v 17 13)) false).served t 2

/-- VGET's write waits for the bundle to close (R103). -/
def State.latchGet (s : State) (t r : Nat) (x : W32) : State :=
  s.modTile t fun y => { y with bundle := y.bundle.map (fun o => { o with vget := some (r, x) }) }

/-- VLD. -/
def execVld (t : Nat) (b : W64) (s : State) : Outc := vecCmd t b 0x20 s fun s => s.vld t (vSlot b)
/-- VST. -/
def execVst (t : Nat) (b : W64) (s : State) : Outc := vecCmd t b 0x21 s fun s => s.vst t (vSlot b)
/-- VBC: a scalar in every lane. -/
def execVbc (t : Nat) (b : W64) (s : State) : Outc :=
  vecCmd t b 0x22 s fun s => s.splat t (nbits (vSlot b) 17 13) ((s.sr t (nbits (vSlot b) 12 8)).toNat, 0)
/-- VGET: one lane to a scalar register. -/
def execVget (t : Nat) (b : W64) (s : State) : Outc :=
  vecCmd t b 0x23 s fun s => s.latchGet t (nbits (vSlot b) 17 13) (s.vr t (nbits (vSlot b) 12 8) (nbits (vSlot b) 7 2))
/-- VPUT: a scalar to one lane. -/
def execVput (t : Nat) (b : W64) (s : State) : Outc :=
  vecCmd t b 0x24 s fun s =>
    s.setVrow t (nbits (vSlot b) 17 13)
      ((s.vrow t (nbits (vSlot b) 17 13)).set (nbits (vSlot b) 7 2) (s.sr t (nbits (vSlot b) 12 8)))

/-! ### Streams (R86, R89, R116) -/

/-- Flits sent from output port p of tile t: one credit spent for each, and the flits on their way to the consumer (R86). -/
def State.sendFlits (s : State) (t p : Nat) (fs : List Flit) : State :=
  let s := s.fset (R.tileSoutStat t p) 12 0 (s.fget (R.tileSoutStat t p) 12 0 - fs.length)
  match s.dressOf t with
  | none => s
  | some (_, d) =>
    let c := tgetD (s.tile t).soutDst p 0
    if nbits c 31 28 = 2 then
      match s.ptile (d.lbase + nbits c 10 0) with
      | some q => { s with flight := tput s.flight (4 * q + nbits c 17 16) (tgetD s.flight (4 * q + nbits c 17 16) [] ++ fs) }
      | none => s
    else
      let m := ((d.streams.find? fun x => x.cons == c).map (·.module)).getD 0
      fs.foldl (fun s f => s.siteSend (nbits c 18 16) m poolStr (.flit (nbits c 18 16) (nbits c 15 0) f)) s

/-- PULL's effect: n + 1 flits popped into v, the lanes beyond them 0; a poisoned flit is consumed (R80). -/
def State.pull (s : State) (t v : Nat) : State :=
  let p := nbits v 12 11
  let n := nbits v 10 9 + 1
  if !s.popOk t p then s.slotKill t 0xB 1 p
  else if s.countUe 4 (4 * t + p) then s.portMet t p
  else
    let fs := (s.fifo t p).take n
    let s := (s.popFlits t p n).setVrow t (nbits v 17 13) (wordsOf 64 (flitBytes fs))
    if flitsBad fs then s.slotKill t 8 1 p else s

/-- Bytes cut into flits, the last of them marked where asked. -/
def cutFlits (last poison : Bool) : Nat → List Byte → List Flit
  | 0, _ => []
  | n + 1, bs => ⟨BitVec.ofNat 512 (leNat (bs.take 64)), last && n == 0, poison⟩ :: cutFlits last poison n (bs.drop 64)

/-- PUSH's effect: n + 1 flits of v sent. -/
def State.push (s : State) (t v : Nat) : State :=
  let p := nbits v 12 11
  if !s.bget (R.tileSoutStat t p) 31 then s.slotKill t 0xB 1 p
  else (s.sendFlits t p (cutFlits (nbit v 8) false (nbits v 10 9 + 1) (s.vbytes t (nbits v 17 13)))).served t (8 + p)

/-- PULL. -/
def execPull (t : Nat) (b : W64) (s : State) : Outc := vecCmd t b 0x25 s fun s => s.pull t (vSlot b)
/-- PUSH. -/
def execPush (t : Nat) (b : W64) (s : State) : Outc := vecCmd t b 0x26 s fun s => s.push t (vSlot b)

/-! ### Accumulators (R117 to R119) -/

/-- −infinity and 1 in FP32. -/
abbrev fNegInf : Nat := 0xFF800000
abbrev fOne : Nat := 0x3F800000

/-- The end of a vector-slot instruction that has read an accumulator: a parity error met is a datapath fault (R59, R60), poison a kill (R80). -/
def State.accEnd (s : State) (t a : Nat) (par bad : Bool) : State :=
  if par then s.dpFault t a 1 (s.bAddr t) else if bad then s.slotKill t 8 1 a else s

/-- Element i of an accumulator as a value; with ftz an FP32 subnormal is flushed (R53). -/
def State.accNum (s : State) (t a i : Nat) : Num :=
  let x := s.acc t a (i / 32) (i % 32)
  if s.accIsInt t a then numOfInt (sext 32 x.toNat) else decode 0 (ftzIn (s.ftz t) x.toNat)

/-- An accumulator in format f: the codes row by row, the 32 scale words, and the flags (R39, R40, R46, R117). -/
def State.woConv (s : State) (t a f mode : Nat) : (List Nat × List Nat × Nat) × State :=
  let (rs, s) := s.draws t f mode ((List.range 1024).map (· % 64))
  let row (r : Nat) : List (Num × Nat) := (List.range 32).map fun c => (s.accNum t a (32 * r + c), rs.getD (32 * r + c) 0)
  let one (r : Nat) : List Nat × Nat × Nat :=
    if fmtScaled f then quantBlock f (s.scaleRule t) (s.sat t) mode (row r)
    else
      let cs := (row r).map fun x => convElem f (s.sat t) mode x.2 x.1
      (cs.map (·.1), 0, cs.foldl (fun g c => g ||| c.2.1) 0)
  let all := (List.range 32).map one
  ((all.flatMap (·.1), all.map (·.2.1), all.foldl (fun g x => g ||| x.2.2) 0), s)

/-- The accumulator and local-memory operand checks of VAWR and VALD: a refused format or a reserved bit kills (R117). -/
def State.vawrCheck (s : State) (t v : Nat) : Nat :=
  let w := (s.sr t (nbits v 15 11)).toNat
  let f := nbits v 10 7
  if (if s.accIsInt t (nbits v 17 16) then decide (f < 0xA) else f == 0xC) then 9
  else if nbit v 3 then (if nbits w 31 2 ≠ 0 then 9 else 0)
  else if nbit w 31 || nbit w 15 then 9 else 0

/-- The scale group of a write-out as one flit: bytes past the group are unstated where it is an MX group (R71), and free (log entry 13). -/
def scaleFlit (f : Nat) (scales : List Nat) : List Byte :=
  if f = 8 then packBytes 16 scales
  else packBytes 8 scales ++ [0, 1, 2, 3].flatMap (fun i => leBytes 8 (Config.freeResult scales i).toNat)

/-- The flits of a write-out that hold credits sent, the rest kept waiting (R118); once all are sent, a poisoned accumulator
kills the context (R80). -/
def State.woPush (s : State) (t : Nat) : State :=
  match (s.tile t).wout with
  | none => s
  | some (a, p, fs) =>
    let n := min (s.fget (R.tileSoutStat t p) 12 0) fs.length
    let s := s.sendFlits t p (fs.take n)
    if n < fs.length then (s.modTile t fun x => { x with wout := some (a, p, fs.drop n) }).bump (R.tileSoutStall t p) 32 1
    else
      let s := s.modTile t fun x => { x with wout := none }
      if flitsBad fs then s.kill t 8 1 a (s.tile t).woAt else s

/-- Rows of bytes stored in local memory at base + r × stride. -/
def State.woRows (s : State) (t : Nat) (w : W32) (n : Nat) (poison : Bool) : Nat → Nat → List Byte → State
  | 0, _, _ => s
  | k + 1, r, bs => (s.seqStore t (woBase w + r * woStride w) (bs.take n) poison).woRows t w n poison k (r + 1) (bs.drop n)

/-- VAWR's effect. -/
def State.vawr (s : State) (t v : Nat) : State :=
  let a := nbits v 17 16
  let f := nbits v 10 7
  let w := s.sr t (nbits v 15 11)
  let bad := s.accBad t a
  let par := s.accParity t a
  if s.vawrCheck t v ≠ 0 then s.slotKill t 9 1 a
  else if nbit v 3 && !s.bget (R.tileSoutStat t (w.toNat % 4)) 31 then s.slotKill t 0xB 1 (w.toNat % 4)
  else
    let ((cs, scales, fl), s) := s.woConv t a f (s.rmode t (nbits v 6 4))
    let s := s.flagV t fl
    let rows := packBytes (fmtBits f) cs
    if nbit v 3 then
      let bs := rows ++ (if fmtScaled f then scaleFlit f scales else [])
      let s := (s.modTile t fun x => { x with wout := some (a, w.toNat % 4, cutFlits (nbit v 2) (bad || par) (bs.length / 64) bs), woAt := s.bAddr t }).woPush t
      if par then s.dpFault t a 1 (s.bAddr t) else s
    else
      let s := (s.woRows t w (4 * fmtBits f) (bad || par) 32 0 rows).served t 3
      let s := if fmtScaled f then
          s.seqStore t (woBase w + 32 * woStride w) (packBytes (if f = 8 then 16 else 8) scales) (bad || par)
        else s
      s.accEnd t a par bad

/-- VALD's effect: 32 rows of 128 B, and the tag (R117); poisoned words poison the accumulator (R80). -/
def State.vald (s : State) (t v : Nat) : State :=
  let a := nbits v 17 16
  let w := s.sr t (nbits v 15 11)
  if nbit w.toNat 31 || nbit w.toNat 15 then s.slotKill t 9 1 a
  else
    let at' (r : Nat) := woBase w + r * woStride w
    let s := ((List.range 32).foldl (fun s r => s.lmMeetAt t (at' r) 128) s).served t 3
    let bad := (List.range 32).any fun r => s.lmBad t (at' r) 128
    let s := s.setAcc t a ((List.range 32).flatMap fun r => wordsOf 32 (s.lmRead t (at' r) 128))
    let s := (s.setTag t a (nbit v 10)).setAccBad t a bad
    if bad then s.slotKill t 8 1 a else s

/-- The 1,024 elements of an accumulator, row by row. -/
def State.accAll (s : State) (t a : Nat) : List Nat := (List.range 1024).map fun i => (s.acc t a (i / 32) (i % 32)).toNat

/-- An accumulator written element by element with flags; a parity error or poison met is consumed (R60, R80). -/
def State.accOut (s : State) (t a : Nat) (rs : List (Nat × Nat)) (par bad : Bool) : State :=
  let (vs, fl) := gather rs
  let s := (s.setAcc t a vs).flagV t fl
  (if bad then s.setAccBad t a true else s).accEnd t a par bad

/-- INT32 addition of accumulator elements under int_wrap (R52). -/
def iAcc (w : Bool) (a b : Nat) : Nat × Nat :=
  let v := sext 32 a + sext 32 b
  if w then (wrap 32 v, 0)
  else if v < -(2 ^ 31 : Nat) then (2 ^ 31, fIntSat)
  else if (2 ^ 31 : Nat) ≤ v then (2 ^ 31 - 1, fIntSat)
  else (wrap 32 v, 0)

/-- VAADD's effect: ad = ad + as, an FP32 sum rounded RNE (log entry 131); tags that differ kill (R119). -/
def State.vaadd (s : State) (t v : Nat) : State :=
  let d := nbits v 17 16
  let a := nbits v 15 14
  if s.accIsInt t d != s.accIsInt t a then s.slotKill t 0xA 1 d
  else
    let f := if s.accIsInt t d then iAcc (s.intWrap t) else fAdd (s.ftz t) 0
    let rs := (List.range 1024).map fun i => f (s.acc t d (i / 32) (i % 32)).toNat (s.acc t a (i / 32) (i % 32)).toNat
    s.accOut t d rs (s.accParity t d || s.accParity t a) (s.accBad t d || s.accBad t a)

/-- VARSC's effect: row r times lane r of vb, RNE (R119); a row whose factor is exactly 1 is not touched (R55). -/
def State.varsc (s : State) (t v : Nat) : State :=
  let a := nbits v 17 16
  if s.accIsInt t a then s.slotKill t 0xA 1 a
  else
    let rs := (List.range 1024).map fun i =>
      let x := (s.acc t a (i / 32) (i % 32)).toNat
      let f := (s.vr t (nbits v 15 11) (i / 32)).toNat
      if f = fOne then (x, 0) else fMul (s.ftz t) 0 x f
    s.accOut t a rs (s.accParity t a) (s.accBad t a)

/-- One row of the finalize (R57); the product with reciprocal(l) is rounded RNE (log entry 131). -/
def finRow (ftz : Bool) (l : Nat) (row : List Nat) : List (Nat × Nat) :=
  match decode 0 (ftzIn ftz l) with
  | .nan => row.map fun _ => (nanCode 0, 0)
  | .inf _ => row.map fun _ => (nanCode 0, fInvalid)
  | .fin n m _ =>
    if m = 0 && !n then row.map fun _ => (0, 0)
    else
      let (r, f) := trans ftz 2 l
      row.map fun x => let (y, g) := fMul ftz 0 x r; (y, f ||| g)

/-- VAFIN's effect (R57). -/
def State.vafin (s : State) (t v : Nat) : State :=
  let a := nbits v 17 16
  if s.accIsInt t a then s.slotKill t 0xA 1 a
  else
    let rs := (List.range 32).flatMap fun r =>
      finRow (s.ftz t) (s.vr t (nbits v 15 11) r).toNat ((s.accRow t a r).map (·.toNat))
    s.accOut t a rs (s.accParity t a) (s.accBad t a)

/-- Lanes 0 to 31 written, lanes 32 to 63 +0 (R119). -/
def State.setHalf (s : State) (t r : Nat) (vs : List Nat) : State := s.setVrow t r ((vs.take 32).map (BitVec.ofNat 32 ·))

/-- VAMAX's effect: the maximum of each row. -/
def State.vamax (s : State) (t v : Nat) : State :=
  let a := nbits v 12 11
  if s.accIsInt t a then s.slotKill t 0xA 1 a
  else
    (s.setHalf t (nbits v 17 13) ((List.range 32).map fun r => maxAll (s.ftz t) ((s.accRow t a r).map (·.toNat)))).accEnd t a
      (s.accParity t a) (s.accBad t a)

/-! ### Online softmax (R55, R56) -/

/-- exp2(x − m): the difference rounded RNE, then R54. -/
def expDiff (ftz : Bool) (x m : Nat) : Nat × Nat :=
  let (d, f) := fSub ftz 0 x m
  let (e, g) := trans ftz 0 d
  (e, f ||| g)

/-- The running sum: additions in ascending column order, each rounded RNE. -/
def sumFrom (ftz : Bool) (l : Nat) (f : Nat) : List Nat → Nat × Nat
  | [] => (l, f)
  | p :: ps => let (x, g) := fAdd ftz 0 l p; sumFrom ftz x (f ||| g) ps

/-- One row of VSMU: new m, new l, alpha, the p of the row, flags (R55). -/
structure SmRow where
  m : Nat
  l : Nat
  alpha : Nat
  ps : List Nat
  fl : Nat
deriving DecidableEq, Repr

/-- Whether a score makes its row NaN (R55), and whether it is itself a NaN. -/
def badScore (x : Nat) : Bool := (decode 0 x).isNan || x == 0x7F800000

/-- The update of one row (R55). -/
def smRow (ftz : Bool) (m l : Nat) (row : List Nat) : SmRow :=
  if row.any badScore then
    ⟨nanCode 0, nanCode 0, nanCode 0, row.map (fun _ => nanCode 0),
      if row.any (fun x => (decode 0 x).isNan) then 0 else fInvalid⟩
  else
    let mn := fMax (ftzIn ftz m) (maxAll ftz row)
    let (al, f) := if mn = fNegInf then (fOne, 0) else expDiff ftz m mn
    let ps := row.map fun x => if mn = fNegInf then (0, 0) else expDiff ftz x mn
    let codes := ps.map (·.1)
    let (l1, g) := fFma ftz 0 al l (codes.getD 0 0)
    let (l2, h) := sumFrom ftz l1 0 (codes.drop 1)
    ⟨mn, l2, al, codes, ps.foldl (fun a p => a ||| p.2) (f ||| g ||| h)⟩

/-- Vector registers written at once; one named twice takes free values, a function of what the instruction computed (`key`), since the manual states no
result: log entry 13. -/
def State.setHalves (s : State) (t : Nat) (key : List Nat) : List (Nat × List Nat) → State
  | [] => s
  | (r, vs) :: rest =>
    let s := s.setHalves t key rest
    if rest.any (fun e => e.1 == r) then s.setHalf t r ((List.range 32).map fun i => (Config.freeResult key (32 * r + i)).toNat)
    else s.setHalf t r vs
/-- The registers and values of a write of several vector registers, as one list. -/
def halvesKey (ws : List (Nat × List Nat)) : List Nat := ws.flatMap fun w => w.1 :: w.2

/-- VSMU's effect (R55, R119). -/
def State.vsmu (s : State) (t v : Nat) : State :=
  let a := nbits v 2 1
  if s.accIsInt t a then s.slotKill t 0xA 1 a
  else
    let rs := (List.range 32).map fun r =>
      smRow (s.ftz t) (s.vr t (nbits v 17 13) r).toNat (s.vr t (nbits v 12 8) r).toNat ((s.accRow t a r).map (·.toNat))
    let bad := s.accBad t a
    let par := s.accParity t a
    let ws := [(nbits v 17 13, rs.map (·.m)), (nbits v 12 8, rs.map (·.l)), (nbits v 7 3, rs.map (·.alpha))]
    let s := s.setAcc t a ((rs.flatMap (·.ps)).map (BitVec.ofNat 32 ·))
    let s := s.setHalves t (halvesKey ws) ws
    let s := s.flagV t (rs.foldl (fun f r => f ||| r.fl) 0)
    s.accEnd t a par bad

/-- One row of VSMG: m_new, l_new, alpha1, alpha2, flags (R56). -/
def mergeRow (ftz : Bool) (m1 l1 m2 l2 : Nat) : Nat × Nat × Nat × Nat × Nat :=
  let mn := fMax (ftzIn ftz m1) (ftzIn ftz m2)
  let (a1, f) := if mn = fNegInf then (fOne, 0) else expDiff ftz m1 mn
  let (a2, g) := if mn = fNegInf then (0, 0) else expDiff ftz m2 mn
  let (x, h) := fMul ftz 0 a2 l2
  let (l, k) := fFma ftz 0 a1 l1 x
  (mn, l, a1, a2, f ||| g ||| h ||| k)

/-- VSMG's effect (R56, R119). -/
def State.vsmg (s : State) (t v : Nat) : State :=
  let vm := nbits v 17 13
  let vl := nbits v 12 8
  let vp := nbits v 7 3
  let rs := (List.range 32).map fun r =>
    mergeRow (s.ftz t) (s.vr t vm r).toNat (s.vr t vl r).toNat (s.vr t vp r).toNat (s.vr t (vp + 1) r).toNat
  let ws := [(vm, rs.map (·.1)), (vl, rs.map (·.2.1)), (vp, rs.map (·.2.2.1)), (vp + 1, rs.map (·.2.2.2.1))]
  let s := s.setHalves t (halvesKey ws) ws
  s.flagV t (rs.foldl (fun f r => f ||| r.2.2.2.2) 0)

/-- VAWR. -/
def execVawr (t : Nat) (b : W64) (s : State) : Outc := vecCmd t b 0x28 s fun s => s.vawr t (vSlot b)
/-- VALD. -/
def execVald (t : Nat) (b : W64) (s : State) : Outc := vecCmd t b 0x29 s fun s => s.vald t (vSlot b)
/-- VAADD. -/
def execVaadd (t : Nat) (b : W64) (s : State) : Outc := vecCmd t b 0x2A s fun s => s.vaadd t (vSlot b)
/-- VARSC. -/
def execVarsc (t : Nat) (b : W64) (s : State) : Outc := vecCmd t b 0x2B s fun s => s.varsc t (vSlot b)
/-- VAFIN. -/
def execVafin (t : Nat) (b : W64) (s : State) : Outc := vecCmd t b 0x2C s fun s => s.vafin t (vSlot b)
/-- VAMAX. -/
def execVamax (t : Nat) (b : W64) (s : State) : Outc := vecCmd t b 0x2D s fun s => s.vamax t (vSlot b)
/-- VSMU. -/
def execVsmu (t : Nat) (b : W64) (s : State) : Outc := vecCmd t b 0x2E s fun s => s.vsmu t (vSlot b)
/-- VSMG. -/
def execVsmg (t : Nat) (b : W64) (s : State) : Outc := vecCmd t b 0x2F s fun s => s.vsmg t (vSlot b)

end Sys2Proof.Machine
end

