-- ==== Sys2Proof/Machine/Stream.lean ====
section
/-! DEFINITION. Streams between tiles (R86 to R90), the tile's own registers that act when written (R48, R64, R93, R131), the
context kill as an event (R94), and local-memory ageing (R77). -/

namespace Sys2Proof.Machine

/-! ### Local-memory requests -/


/-- LM_REQUEST_AGED (R77): a request refused for 8 consecutive FCLK is aged, after those aged before it. -/
def execLmRequestAged (t requester refused : Nat) (s : State) : Outc :=
  run (t < 2176 && requester < 17)
    (if refused < 8 || (s.tile t).aged.contains requester then s else s.modTile t fun x => { x with aged := x.aged ++ [requester] })

/-! ### Streams, arrival and credit -/

/-- Ring bytes of an input port: 4 KiB × 2^ring_size. -/
def State.ringBytes (s : State) (t p : Nat) : Nat := 4096 * 2 ^ s.fget (R.tileSinCfg t p) 29 27

/-- A flit landed in the ring at the write pointer, which advances (R87). -/
def State.landRing (s : State) (t p : Nat) (f : Flit) : State :=
  let w := s.fget (R.tileSinWrptr t p) 18 6
  let base := s.fget (R.tileSinCfg t p) 18 12 * 4096
  let s := (s.lmWrite t (base + 64 * w) (leBytes 64 f.data.toNat) f.poison).served t (4 + p)
  s.fset (R.tileSinWrptr t p) 18 6 ((w + 1) % (s.ringBytes t p / 64))

/-- A flit accepted by a bound input port: queued, or landed in its ring (R87, R88). -/
def State.acceptFlit (s : State) (t p : Nat) (f : Flit) : State :=
  let s := if f.poison then s.bset (R.tileSinStat t p) 31 true else s
  let s := s.fset (R.tileSinStat t p) 28 16 (s.fget (R.tileSinStat t p) 28 16 + 1)
  let s := s.fset (R.tileSinStat t p) 12 0 (s.fget (R.tileSinStat t p) 12 0 - 1)
  if s.bget (R.tileSinCfg t p) 30 then s.landRing t p f
  else s.modTile t fun x => { x with sin := tset x.sin p [] (tgetD x.sin p [] ++ [f]) }

/-- A flit that reaches an unbound port, after a kill or a stop: discarded, and its credit returned to its producer (R90). -/
def State.dropFlit (s : State) (t p : Nat) : State :=
  match s.dressOf t with
  | none => s
  | some (_, d) =>
    let l := (s.ltile t).getD 0 - d.lbase
    match d.streams.find? (fun x => nbits x.cons 31 28 == 2 && nbits x.cons 10 0 == l && nbits x.cons 17 16 == p) with
    | none => s
    | some x => s.creditBack d x.prod 1

/-- A flit reaching input port p of tile t, through its bench's router (R97). -/
def State.arrive (s : State) (t p : Nat) (f : Flit) : State :=
  let s := s.routerRead (t / 32)
  if s.bget (R.tileSinCfg t p) 31 then
    if s.countUe 4 (4 * t + p) then s.portMet t p else
    if s.fget (R.tileSinStat t p) 12 0 = 0 then s else s.acceptFlit t p f
  else s.dropFlit t p

/-- The half an endpoint of a stream of dressing d lies in: a tile's, a hoist's, a site's (R11, R13). -/
def State.endHalf (s : State) (d : Dressing) (ep : Nat) : Nat :=
  match nbits ep 31 28 with
  | 1 | 2 => ((s.ptile (d.lbase + nbits ep 10 0)).getD 0) / 32 / 34
  | 4 => ((s.lanes.find? (fun e => decide ((tgetD s.dress e.2.handle d).lbase = d.lbase) && e.2.tag == nbits ep 15 0)).map (·.1 / 256)).getD 0
  | _ => nbits ep 18 16 / 4

/-- Whether the bench routers hold what travels between a tile and an endpoint of its dressing: it crosses the seam while the bridge is in region reset
(R16). -/
def State.seamHolds (s : State) (t : Nat) (ep : Option Nat) : Bool :=
  s.bget (R.pwrDomStatus 92) 30 && (match s.dressOf t, ep with
    | some (_, d), some e => s.endHalf d e != t / 32 / 34
    | _, _ => false)

/-- STREAM_FLIT_ARRIVAL (R87, R90): of the flits on their way to a port the oldest arrives, and no other (R89); where none is on
its way from a tile, the flit is another producer's. -/
def execStreamFlitArrival (t port : Nat) (f : Flit) (s : State) : Outc :=
  run (t < 2176 && port < 4)
    (if s.seamHolds t (tget (s.tile t).sinSrc port) then s else match tgetD s.flight (4 * t + port) [] with
     | g :: r => if g = f then { s with flight := tset s.flight (4 * t + port) [] r }.arrive t port f else s
     | [] => s.arrive t port f)

/-- n credits reaching output port p: they join the held credits, and a waiting write-out goes on (R86, R118); a port unbound by
a kill keeps them until the unload (R90). -/
def State.creditIn (s : State) (t p n : Nat) : State :=
  if s.bget (R.tileSoutStat t p) 31 then
    let s := s.fset (R.tileSoutStat t p) 12 0 (s.fget (R.tileSoutStat t p) 12 0 + n)
    match (s.tile t).wout with
    | some (_, q, _) => if q = p then s.woPush t else s
    | none => s
  else { s with deadCred := tset s.deadCred (4 * t + p) 0 (tgetD s.deadCred (4 * t + p) 0 + n) }

/-- STREAM_CREDIT_RETURN (R86): of the credits on their way to a port, n arrive. -/
def execStreamCreditReturn (t port n : Nat) (s : State) : Outc :=
  let k := min n (tgetD s.credFly (4 * t + port) 0)
  run (t < 2176 && port < 4)
    (if k = 0 || s.seamHolds t (tget (s.tile t).soutDst port) then s
     else { s with credFly := tset s.credFly (4 * t + port) 0 (tgetD s.credFly (4 * t + port) 0 - k) }.creditIn t port k)

/-! ### The context kill as an event -/

/-- CONTEXT_KILL (R94): a cause detected by a unit of a tile that a dressing holds; an unheld tile runs nothing. -/
def execContextKill (t cause unit detail : Nat) (addr : W64) (s : State) : Outc :=
  run (t < 2176) (if (s.dressOf t).isSome then s.kill t cause unit detail addr else s)

/-! ### Registers of the tile that act when written -/

/-- The sequencer started at an index, where it is idle in a tile of an active dressing (Table 4-12, R131). -/
def State.seqGo (s : State) (t : Nat) : State :=
  match s.dressOf t with
  | some (_, d) =>
    if d.st = .active ∧ !s.running t then
      let s := s.modTile t fun x => { x with bundle := none, released := false, loopOrd := [], loopBuf := [], codeOld := [] }
      s.set (R.tileSeqStatus t) (BitVec.ofNat 64 (2 ^ 31 + s.fget (R.tileSeqPc t) 15 0))
    else s
  | none => s

/-- SEQ_START: a write of tile.seq.ctrl (Table 4-12). -/
def State.seqCtrl (s : State) (t : Nat) (v : W32) : State := if nbit v.toNat 0 then s.seqGo t else s
def execSeqStart (t : Nat) (v : W32) (s : State) : Outc := run (t < 2176) (s.seqCtrl t v)

/-- A write of tile.arith.ctrl (Table 2-7): rmode keeps its value where the code written is not a mode (R44). -/
def State.arithWr (s : State) (t : Nat) (v : W32) : State :=
  let o := s.fget (R.tileArithCtrl t) 2 0
  let n := nbits v.toNat 8 5 * 32 + (if v.toNat % 8 ≤ 4 then v.toNat % 8 else o)
  s.set (R.tileArithCtrl t) (BitVec.ofNat 64 n)
/-- ARITH_CTRL_WRITE (R64). -/
def execArithCtrlWrite (t : Nat) (v : W32) (s : State) : Outc := run (t < 2176) (s.arithWr t v)

/-- A write of tile.arith.sr_seed: all 64 generators are reseeded (R48), from the next bundle on (R64). -/
def State.seedWr (s : State) (t : Nat) (v : W32) : State :=
  (s.modTile t fun x => if x.bundle.isSome then { x with reseed := true } else { x with gen := [] }).set (R.tileArithSrSeed t) (BitVec.ofNat 64 v.toNat)

/-- A write of tile.arith.status: a flag that the vector slot of the bundle being issued has set stays (R64). -/
def State.flagsWr (s : State) (t : Nat) (v : W64) : W64 := v &&& ~~~ BitVec.ofNat 64 (((s.tile t).bundle.map (·.flags)).getD 0)
/-- SR_SEED_WRITE (R48). -/
def execSrSeedWrite (t : Nat) (v : W32) (s : State) : Outc := run (t < 2176) (s.seedWr t v)

/-- Descriptors in a channel's ring: 2^(4 + size) (Table 3-8). -/
def State.dmaCount (s : State) (t n : Nat) : Nat := 2 ^ (4 + s.fget (R.tileDmaCtrl t n) 26 24)

/-- A write of tile.dma.n.tail: ignored at or above the ring's count (R93). -/
def State.dmaTailWr (s : State) (t n : Nat) (v : W32) : State :=
  if nbits v.toNat 10 0 < s.dmaCount t n then s.set (R.tileDmaTail t n) (BitVec.ofNat 64 (nbits v.toNat 10 0)) else s
/-- DMA_TAIL_WRITE. -/
def execDmaTailWrite (t n : Nat) (v : W32) (s : State) : Outc := run (t < 2176 && n < 4) (s.dmaTailWr t n v)

/-- A write of tile.dma.n.ctrl: ignored as a whole where the base is not aligned to the ring's size; size and base keep their
values while the channel is enabled (Table 3-8). -/
def State.dmaCtrlWr (s : State) (t n : Nat) (v : W32) : State :=
  let c := s.get (R.tileDmaCtrl t n)
  let w := v.toNat
  if nbits w 18 5 % 2 ^ (4 + nbits w 26 24) ≠ 0 then s
  else if bit c 31 then s.set (R.tileDmaCtrl t n) (setFld c 31 31 (nbits w 31 31))
  else s.set (R.tileDmaCtrl t n) (BitVec.ofNat 64 (nbits w 31 31 * 2 ^ 31 + nbits w 26 24 * 2 ^ 24 + nbits w 18 5 * 32))
/-- DMA_CTRL_WRITE. -/
def execDmaCtrlWrite (t n : Nat) (v : W32) (s : State) : Outc := run (t < 2176 && n < 4) (s.dmaCtrlWr t n v)

end Sys2Proof.Machine
end

