-- ==== Sys2Proof/Machine/Sync.lean ====
section
/-! DEFINITION. Sync objects (chapter 11): their register pages, waiting, notifiers and ownership. -/

namespace Sys2Proof.Machine

/-- Whether an object exists. -/
def syncOk (obj : Nat) : Bool := decide (obj < 8192)

/-- A write of a notifier's action (R289): a reserved kind is ignored; a kind that goes from 0 to another arms the notifier, which
fires if the count is already there. -/
def State.actionWr (s : State) (obj k : Nat) (v : W64) : State :=
  if 5 ≤ fld v 63 60 then s
  else
    let o := s.fget (R.syncAction obj k) 63 60
    let s := s.set (R.syncAction obj k) (setFld v 44 32 0)
    if o = 0 ∧ fld v 63 60 ≠ 0 then s.fire obj k else s

/-- A write of a notifier's threshold: it fires nothing (R289). -/
def State.threshWr (s : State) (obj k : Nat) (v : W64) : State := s.set (R.syncThresh obj k) v

/-- A read of sync.n.take: the count, and the object set to 0 in one operation (R284). -/
def State.syncTakeRd (s : State) (obj : Nat) : W64 × State := (s.get (R.syncCount obj), s.syncSet obj 0 false)

/-- The value of an Atomic of Table 10-3 on an n-byte operand. -/
def atomicVal (aop n : Nat) (old operand compare : Nat) : Nat :=
  let w := 8 * n
  let o := old % 2 ^ w
  let x := operand % 2 ^ w
  match aop with
  | 1 => (o + x) % 2 ^ w
  | 2 => x
  | 3 => if o = compare % 2 ^ w then x else o
  | 4 => o &&& x
  | 5 => o ||| x
  | 6 => o ^^^ x
  | 7 => if sext w o < sext w x then x else o
  | 8 => if sext w x < sext w o then x else o
  | 9 => max o x
  | _ => min o x

/-- Whether an Atomic's operation is one of Table 10-3. -/
def aopOk (aop : Nat) : Bool := decide (1 ≤ aop) && decide (aop ≤ 10)

/-- Whether an Atomic to an object's page is performed: 8 bytes at offset 0 (R286). -/
def syncAtomicOk (off aop size : Nat) : Bool := off == 0 && size == 8 && aopOk aop

/-- An Atomic to an object's count, as one operation (R286): the old count is the answer. -/
def State.syncAtomic (s : State) (obj aop : Nat) (operand compare : W64) : W64 × State :=
  let c := s.get (R.syncCount obj)
  (c, s.syncSet obj (BitVec.ofNat 64 (atomicVal aop 8 c.toNat operand.toNat compare.toNat)) true)

/-- A write of n bytes to an object's register page (R284, R285). The offset is aligned to n. -/
def State.syncPageWr (s : State) (obj off n : Nat) (v : Nat) : State :=
  let k := (off - 0x40) / 0x20
  let r := (off - 0x40) % 0x20
  let half (o : W64) : W64 :=
    if n = 8 then BitVec.ofNat 64 v else if off % 8 = 0 then setFld o 31 0 v else setFld o 63 32 v
  if off = 0 ∧ n = 8 then s.syncSet obj (BitVec.ofNat 64 v) true
  else if off = 8 then s.syncAdd obj (BitVec.ofNat 64 (v % 2 ^ (8 * n))) true
  else if off = 0x18 then
    s.set (R.syncStatus obj) (s.get (R.syncStatus obj) &&& ~~~ (BitVec.ofNat 64 (nbits v 31 30 * 2 ^ 30)))
  else if 0x40 ≤ off ∧ off < 0x80 then
    if r / 8 = 0 then s.threshWr obj k (half (s.get (R.syncThresh obj k)))
    else if r / 8 = 1 then s.actionWr obj k (half (s.get (R.syncAction obj k)))
    else if r / 8 = 2 then s.set (R.syncArg obj k) (half (s.get (R.syncArg obj k)))
    else s
  else s

/-- A read of n bytes of an object's register page (R284, R285): the value, and what the read changes. -/
def State.syncPageRd (s : State) (obj off n : Nat) : Nat × State :=
  let k := (off - 0x40) / 0x20
  let r := (off - 0x40) % 0x20
  let half (o : W64) : Nat := if n = 8 then o.toNat else if off % 8 = 0 then fld o 31 0 else fld o 63 32
  if off / 8 = 0 then (half (s.get (R.syncCount obj)), (s.syncTally obj false).syncAfter obj)
  else if off / 8 = 2 then
    if n = 8 then ((s.syncTakeRd obj).1.toNat, (s.syncTakeRd obj).2) else (0, s)
  else if off / 8 = 3 then (half (s.get (R.syncStatus obj)), s)
  else if 0x40 ≤ off ∧ off < 0x80 then
    ((if r / 8 = 0 then half (s.get (R.syncThresh obj k)) else if r / 8 = 1 then half (s.get (R.syncAction obj k))
      else if r / 8 = 2 then half (s.get (R.syncArg obj k)) else 0), s)
  else (0, s)

/-- SYNC_COUNT_WRITE (R284). -/
def execSyncCountWrite (obj : Nat) (v : W64) (s : State) : Outc := run (syncOk obj) (s.syncSet obj v true)
/-- SYNC_ADD (R283). -/
def execSyncAdd (obj : Nat) (v : W64) (s : State) : Outc := run (syncOk obj) (s.syncAdd obj v true)
/-- SYNC_TAKE (R284): the count is answered. A tile's accesses are of 32 bits, and such a take has no effect (R285). -/
def execSyncTake (m : Master) (obj : Nat) (s : State) : Outc :=
  run (syncOk obj && masterOk m)
    (if m.cls = .tile then s else (s.syncTakeRd obj).2.emit (.data m (s.syncTakeRd obj).1))
/-- NOTIFIER_ACTION_WRITE (R289). -/
def execNotifierActionWrite (obj k : Nat) (v : W64) (s : State) : Outc := run (syncOk obj && k < 2) (s.actionWr obj k v)
/-- NOTIFIER_THRESH_WRITE (R289). -/
def execNotifierThreshWrite (obj k : Nat) (v : W64) (s : State) : Outc := run (syncOk obj && k < 2) (s.threshWr obj k v)

/-- WAIT_RELEASE (R127, R288): the update on its way to a tile reaches it; a tile that waits no longer drops it. -/
def State.waitRelease (s : State) (t : Nat) : State :=
  if s.updates.contains t then
    let s := { s with updates := s.updates.erase t }
    if s.running t then s.modTile t fun x => { x with released := true } else s
  else s
def execWaitRelease (t : Nat) (s : State) : Outc := run (t < 2176) (s.waitRelease t)

/-! ### Ownership (R295) -/

/-- The owner field of an object. -/
def State.syncOwner (s : State) (obj : Nat) : Nat := s.fget (R.syncStatus obj) 29 28

/-- Whether a run of objects exists and every object has an owner code. -/
def State.syncRun (s : State) (first n owner : Nat) : Bool :=
  decide (first + n ≤ 8192) && (List.range n).all fun i => s.syncOwner (first + i) == owner

/-- The lowest free run. -/
def State.freeRun (s : State) (n : Nat) : Option Nat := (List.range 8192).find? fun f => s.syncRun f n 0

/-- A run claimed or freed: counts 0, notifiers disarmed (R295). -/
def State.syncClaim (s : State) (first n owner handle : Nat) : State :=
  (List.range n).foldl (fun s i => s.syncClear (first + i) owner handle) s

/-- FAB_SYNC_RESERVE: the lowest free run of 1 to 1,024 objects, reserved. -/
def execFabSyncReserve (q : Req) (count : Nat) (s : State) : Outc :=
  run (mbxOk q) (axotte s q 0x0408 fun s =>
    if count = 0 ∨ 1024 < count then invalid s
    else match s.freeRun count with
      | none => refuse s dSyncExhausted
      | some f => .done (s.syncClaim f count 2 q.mbx) 0 (p16 f ++ p16 count))

/-- FAB_SYNC_RESERVE expert: a named run. -/
def execFabSyncReserveExpert (q : Req) (first count : Nat) (s : State) : Outc :=
  run (mbxOk q) (axotte s q 0x8408 fun s =>
    if count = 0 ∨ 1024 < count ∨ 8192 < first + count then invalid s
    else if s.syncRun first count 0 then .done (s.syncClaim first count 2 q.mbx) 0 (p16 first ++ p16 count)
    else refuse s dSyncExhausted)

/-- FAB_SYNC_RELEASE: a run of command-reserved objects freed. -/
def execFabSyncRelease (q : Req) (first count : Nat) (s : State) : Outc :=
  run (mbxOk q) (axotte s q 0x0409 fun s =>
    if count = 0 ∨ 8192 < first + count then invalid s
    else if s.syncRun first count 2 then .done (s.syncClaim first count 0 0) 0 []
    else refuse s dState)

end Sys2Proof.Machine
end

