-- ==== Sys2Proof/Machine/Brutrum.lean ====
section
/-! DEFINITION. Images and their verification (R137 to R141, R367, R471, R481, R482): the header and signature block that every
image shares, the trust store, and the sections of a Brutrum image. -/

namespace Sys2Proof.Machine

/-! ### Bytes of an image -/

/-- n bytes at an offset, as a number. -/
def imgU (img : List Byte) (off n : Nat) : Nat := leNat ((img.drop off).take n)
/-- Whether n bytes at an offset are all 0. -/
def imgZero (img : List Byte) (off n : Nat) : Bool := imgU img off n == 0

/-- The header checks that images share (Table 5-1, Table 16-2): magic, version, sizes. The body size. -/
def imgHeader (img : List Byte) (magic size : Nat) : Option Nat :=
  let b := imgU img 0x10 4
  if imgU img 0 4 == magic && imgU img 4 2 == 1 && imgU img 6 2 == 0x100 && imgU img 8 8 == b + 29800 && size == b + 29800
    && b % 16 == 0 && decide (0x100 ≤ b) then some b else none

/-- The key entry i of the trust store (Table 22-6): key_id, public key, purposes word. -/
def State.trustNum (s : State) (first n : Nat) : Nat := leNat (s.prbBytes first n)

/-- The public key that a key_id names, admitted for a purpose (bit 0 dressing, 1 service firmware, 2 library), in state Deployed (Table 22-4). -/
def State.trustKey (s : State) (keyId purpose : Nat) : Option (BitVec 512) :=
  (List.range 4).findSome? fun i =>
    let b := 0x20 + 21 * i
    let p := (s.prbW (b + 20)).toNat
    if s.fget R.secLcStatus 31 29 == 1 && nbit p 31 && nbit p purpose && s.trustNum b 4 == keyId then some (BitVec.ofNat 512 (s.trustNum (b + 4) 16)) else none

/-- Whether the digest of an image's body is the one its header holds (R137). -/
def imgDigestOk (img : List Byte) (body : Nat) : Bool :=
  shake256 ((img.drop 0x100).take (body - 0x100)) == BitVec.ofNat 512 (imgU img 0x30 64)

/-- Whether an image's signature block verifies under a key (R139). -/
def imgSigOk (img : List Byte) (body : Nat) (key : BitVec 512) : Bool :=
  imgU img body 4 == 1 && imgU img (body + 4) 4 == 29792
    && slhVerify key (img.take body) ((img.drop (body + 8)).take 29792)

/-- Checks 1 to 4 of Table 5-5 for an image of a purpose: the body size, or the detail code of the first that fails. -/
def State.imgVerify (s : State) (img : List Byte) (magic size purpose : Nat) : Nat × Nat :=
  match imgHeader img magic size with
  | none => (0, dBadHeader)
  | some b =>
    match s.trustKey (imgU img 0x70 16) purpose with
    | none => (b, dKeyUnknown)
    | some k =>
      if !imgDigestOk img b then (b, dDigest)
      else if !imgSigOk img b k then (b, dSigInvalid)
      else (b, 0)

/-! ### Sections (R138, Table 5-2) -/

/-- A section: type, offset, length. -/
structure Sect where
  ty : Nat
  off : Nat
  len : Nat
deriving DecidableEq, Repr

/-- The section table. -/
def imgSects (img : List Byte) : List Sect :=
  (List.range (imgU img 0x18 2)).map fun i =>
    ⟨imgU img (0x100 + 16 * i) 2, imgU img (0x108 + 16 * i) 8, imgU img (0x104 + 16 * i) 4⟩

/-- The section of a type. -/
def sectOf (ss : List Sect) (ty : Nat) : Option Sect := ss.find? fun x => x.ty == ty

/-- Record size of a section type (Table 5-2); LOCAL's records vary. -/
def recSize : Nat → Nat
  | 1 => 32 | 3 => 32 | 4 => 8 | 5 => 16 | 6 => 8 | 7 => 16 | 8 => 8
  | _ => 1

/-- The records of a section type, each as its bytes. -/
def recsOf (img : List Byte) (ss : List Sect) (ty : Nat) : List (List Byte) :=
  match sectOf ss ty with
  | none => []
  | some x => (List.range (x.len / recSize ty)).map fun i => (img.drop (x.off + i * recSize ty)).take (recSize ty)

/-- Whether two sections overlap. -/
def sectMeet (a b : Sect) : Bool := decide (a.off < b.off + b.len) && decide (b.off < a.off + a.len)

/-- Whether the sections of a list meet no later one and no type appears twice. -/
def sectsApart : List Sect → Bool
  | [] => true
  | a :: r => r.all (fun b => !sectMeet a b && a.ty != b.ty) && sectsApart r

/-- Whether the section table is well formed (R138). -/
def sectsOk (img : List Byte) (body : Nat) : Bool :=
  let n := imgU img 0x18 2
  let ss := imgSects img
  (List.range n).all (fun i => imgZero img (0x102 + 16 * i) 2)
    && ss.all (fun x => decide (1 ≤ x.ty) && decide (x.ty ≤ 8) && x.off % 16 == 0 && decide (0x100 + 16 * n ≤ x.off)
        && decide (x.off + x.len ≤ body) && x.len % recSize x.ty == 0)
    && sectsApart ss
    && (match sectOf ss 1 with | some x => x.len == 32 | none => false)
    && (sectOf ss 2).isSome
    && (sectOf ss 7).isSome == (sectOf ss 8).isSome
    && (recsOf img ss 7).length == (recsOf img ss 8).length

/-! ### Records (Table 5-3) -/

/-- A local-memory segment: tile, offset, data. -/
structure Seg where
  t : Nat
  off : Nat
  data : List Byte
deriving DecidableEq, Repr

/-- The segments of the LOCAL section (the first argument is fuel): none where a header does not fit or sets a reserved byte. -/
def parseSegs : Nat → List Byte → Option (List Seg)
  | 0, _ => none
  | _, [] => some []
  | k + 1, bs =>
    let len := imgU bs 8 4
    if bs.length < 16 + len ∨ !imgZero bs 2 2 ∨ !imgZero bs 12 4 ∨ len % 16 ≠ 0 ∨ imgU bs 4 4 % 16 ≠ 0
        ∨ 0x80000 < imgU bs 4 4 + len then none
    else (parseSegs k (bs.drop (16 + len))).map fun r => ⟨imgU bs 0 2, imgU bs 4 4, (bs.drop 16).take len⟩ :: r

/-- Whether no two segments of one tile overlap. -/
def segsApart : List Seg → Bool
  | [] => true
  | a :: r => r.all (fun b => a.t != b.t || !(decide (a.off < b.off + b.data.length) && decide (b.off < a.off + a.data.length)))
      && segsApart r

/-- The segments of an image. -/
def imgSegs (img : List Byte) : Option (List Seg) :=
  match sectOf (imgSects img) 2 with
  | none => none
  | some x => parseSegs (x.len / 16 + 1) ((img.drop x.off).take x.len)

/-- Whether an endpoint code is well formed for a dressing of n tiles (Table 5-4). -/
def epOk (n c : Nat) : Bool :=
  match nbits c 31 28 with
  | 1 => c / 2 ^ 18 % 2 ^ 10 == 0 && nbits c 15 11 == 0 && decide (nbits c 10 0 < n)
  | 2 => c / 2 ^ 18 % 2 ^ 10 == 0 && nbits c 15 11 == 0 && decide (nbits c 10 0 < n)
  | 3 => c / 2 ^ 18 % 2 ^ 10 == 0 && nbits c 15 11 == 0 && decide (nbits c 10 0 < n)
  | 4 => nbits c 27 16 == 0
  | 5 => nbits c 27 19 == 0
  | 6 => nbits c 27 19 == 0
  | _ => false

/-- Whether a stream binding is valid (R141) and its record well formed. -/
def streamOk (n : Nat) (r : List Byte) : Bool :=
  let p := imgU r 0 4
  let c := imgU r 4 4
  let md := imgU r 8 1
  let kp := nbits p 31 28
  let kc := nbits c 31 28
  let ring := nbit md 0
  epOk n p && epOk n c && (kp == 1 || kp == 3 || kp == 4 || kp == 5) && (kc == 2 || kc == 6)
    && (kp != 3 || (kc == 2 && nbits p 10 0 == nbits c 10 0))
    && (!(kp == 4 || kp == 5) || kc == 2)
    && md / 16 == 0 && decide (nbits md 3 1 ≤ 6) && imgU r 9 1 / 128 == 0 && imgZero r 10 6
    && (!ring || (kc == 2 && imgU r 9 1 % 2 ^ nbits md 3 1 == 0 && decide (imgU r 9 1 * 4096 + 4096 * 2 ^ nbits md 3 1 ≤ 0x80000)))

/-- No number of a list appears twice. -/
def distinct : List Nat → Bool
  | [] => true
  | a :: r => !r.contains a && distinct r

/-- A value of tile.arith.ctrl, of tile.dma.n.ctrl, that an image may hold. -/
def arithOk (v : Nat) : Bool := v / 512 == 0 && nbits v 4 3 == 0 && decide (v % 8 ≤ 4)
def dmaOk (v : Nat) : Bool :=
  nbits v 30 27 == 0 && nbits v 23 19 == 0 && nbits v 4 0 == 0 && nbits v 18 5 % 2 ^ (4 + nbits v 26 24) == 0

/-- Whether the header's own fields are in range and its reserved bytes 0 (Table 5-1; part of check 1, log entry 116). -/
def imgHeadOk (img : List Byte) : Bool :=
  decide (1 ≤ imgU img 0x14 2) && decide (imgU img 0x14 2 ≤ 2048) && decide (imgU img 0x16 1 ≤ 11) && imgZero img 0x17 1
    && decide (1 ≤ imgU img 0x18 2) && decide (imgU img 0x18 2 ≤ 8) && imgZero img 0x1A 6 && imgZero img 0x28 8 && imgZero img 0x80 128

/-- Check 5 of Table 5-5: sections and records well formed (R138, R140, R141). -/
def imgRecordsOk (img : List Byte) (body : Nat) : Bool :=
  let ss := imgSects img
  let n := imgU img 0x14 2
  let claim := (recsOf img ss 1).headD []
  let sync := imgU claim 0 2
  imgHeadOk img && sectsOk img body
    && decide (sync ≤ 1024) && decide (imgU claim 2 2 ≤ 512) && imgZero claim 12 20
    && (List.range 8).all (fun k => let c := imgU claim (4 + k) 1; c == 0 || (decide (0x41 ≤ c) && decide (c ≤ 0x48)))
    && (match imgSegs img with | some gs => gs.all (fun g => decide (g.t < n)) && segsApart gs | none => false)
    && distinct ((recsOf img ss 3).map fun r => imgU r 0 2)
    && (recsOf img ss 3).all (fun r => decide (imgU r 0 2 < n) && arithOk (imgU r 4 4)
        && [12, 16, 20, 24].all (fun o => dmaOk (imgU r o 4)) && imgU r 28 1 / 2 == 0 && imgZero r 29 3)
    && (recsOf img ss 4).all (fun r => decide (imgU r 0 2 < n) && decide (1 ≤ imgU r 2 1) && decide (imgU r 2 1 ≤ 31) && decide (imgU r 3 1 ≤ 2))
    && (recsOf img ss 5).all (fun r => decide (imgU r 0 2 < sync) && imgZero r 2 6)
    && (recsOf img ss 6).all (fun r => decide (imgU r 0 2 < n) && imgU r 2 1 == 1 && imgZero r 3 1 && imgU r 4 4 % 8 == 0
        && (match imgSegs img with
          | some gs => gs.any (fun g => g.t == imgU r 0 2 && decide (g.off ≤ imgU r 4 4) && decide (imgU r 4 4 + 8 ≤ g.off + g.data.length))
          | none => false))
    && (recsOf img ss 7).all (streamOk n)
    && distinct ((recsOf img ss 7).flatMap fun r => [imgU r 0 4, imgU r 4 4])
    && (recsOf img ss 8).all (fun r => decide (imgU r 0 2 < (recsOf img ss 7).length) && decide (imgU r 2 1 ≤ 1)
        && decide (1 ≤ imgU r 3 1) && decide (imgU r 3 1 ≤ 16) && imgZero r 4 4)
    && distinct ((recsOf img ss 8).map fun r => imgU r 0 2)

/-- The streams of an image with the order and rate of their routes. -/
def imgStreams (img : List Byte) : List DStream :=
  let ss := imgSects img
  let rs := recsOf img ss 8
  (recsOf img ss 7).zipIdx.map fun x =>
    let r := (rs.find? (fun y => imgU y 0 2 == x.2)).getD []
    let md := imgU x.1 8 1
    { prod := imgU x.1 0 4, cons := imgU x.1 4 4, ring := nbit md 0, ringSize := nbits md 3 1, ringBase := imgU x.1 9 1,
      order := imgU r 2 1, rate := imgU r 3 1 }

/-- Check 11: every relocated bundle holds a SIGI whose object is below sync_count. -/
def relocsOk (img : List Byte) : Bool :=
  let ss := imgSects img
  let sync := imgU ((recsOf img ss 1).headD []) 0 2
  match imgSegs img with
  | none => false
  | some gs => (recsOf img ss 6).all fun r =>
      match gs.find? (fun g => g.t == imgU r 0 2 && decide (g.off ≤ imgU r 4 4) && decide (imgU r 4 4 < g.off + g.data.length)) with
      | none => false
      | some g =>
        let c := imgU g.data (imgU r 4 4 - g.off) 8 % 2 ^ 20
        nbits c 19 15 == 0x10 && decide (nbits c 14 2 < sync)

end Sys2Proof.Machine
end

