-- ==== Sys2Proof/Machine/Fabric.lean ====
section
/-! DEFINITION. Dressings (chapter 5): placement, routes, load, activation, stop, swap, unload, and the stream messages of chiplet
sites (R278). -/

namespace Sys2Proof.Machine

/-! ### Routes (R142, R145) -/

/-- The links a route leaves benches by, along a row to a column, along a column to a row: 0 north, 1 south, 2 east, 3 west. -/
def hopsRow (b c : Nat) : List (Nat × Nat) :=
  let k := b % 17
  if k ≤ c then (List.range (c - k)).map fun i => (b + i, 2) else (List.range (k - c)).map fun i => (b - i, 3)
def hopsCol (b r : Nat) : List (Nat × Nat) :=
  let k := b / 17
  if k ≤ r then (List.range (r - k)).map fun i => (b + 17 * i, 1) else (List.range (k - r)).map fun i => (b - 17 * i, 0)

/-- The hops between two benches: row first (order 0) or column first (order 1). -/
def hopsOf (order a d : Nat) : List (Nat × Nat) :=
  if order = 0 then hopsRow a (d % 17) ++ hopsCol (17 * (a / 17) + d % 17) (d / 17)
  else hopsCol a (d / 17) ++ hopsRow (17 * (d / 17) + a % 17) (d % 17)

/-- Where a site attaches for a tile in a bench: bench, and link 4 edge or 5 side (R142, Table 1-10). -/
def siteAttach (n b : Nat) : Nat × Nat :=
  let clamp (x lo hi : Nat) := max lo (min x hi)
  match n with
  | 0 => (clamp (b % 17) 0 3, 4)
  | 1 => (clamp (b % 17) 13 16, 4)
  | 4 => (51 + clamp (b % 17) 0 3, 4)
  | 5 => (51 + clamp (b % 17) 13 16, 4)
  | 2 => (17 * clamp (b / 17) 0 1 + 16, 5)
  | 3 => (17 * clamp (b / 17) 0 1, 5)
  | 6 => (17 * clamp (b / 17) 2 3 + 16, 5)
  | _ => (17 * clamp (b / 17) 2 3, 5)

/-- The bench whose edge port a hoist attaches to (R183). -/
def hoistBench (h : Nat) : Nat := (if h < 32 then 0 else 51) + 4 + h % 32 * 9 / 32

/-- A route from a bench to a bench with its entry and exit ports: links 6 and 7 stand for the inward edge and side ports. -/
def routeVia (x : DStream) (a d : Nat) (inn out : List (Nat × Nat)) : DStream :=
  let hs := hopsOf x.order a d
  { x with hops := inn ++ hs ++ out, benches := (hs.map (·.1)) ++ [d] }

/-- A stream with its route resolved from the placement; a hoist-fed stream has none until a lane attaches (R142). -/
def State.routed (s : State) (lbase : Nat) (x : DStream) : DStream :=
  let bench (c : Nat) := (s.ptile (lbase + nbits c 10 0)).getD 0 / 32
  let kp := nbits x.prod 31 28
  let kc := nbits x.cons 31 28
  if kp = 1 ∧ kc = 2 then routeVia x (bench x.prod) (bench x.cons) [] []
  else if kp = 1 then
    let (d, l) := siteAttach (nbits x.cons 18 16) (bench x.prod)
    routeVia x (bench x.prod) d [] [(d, l)]
  else if kp = 5 then
    let (a, l) := siteAttach (nbits x.prod 18 16) (bench x.cons)
    routeVia x a (bench x.cons) [(a, l + 2)] []
  else x

/-- The streams of every dressing. -/
def State.allStreams (s : State) : List DStream := s.dress.flatMap fun e => e.2.streams

/-- The sum of declared rates over a link, the routes over it, and the route entries of a bench (R145). -/
def linkSum (xs : List DStream) (b l : Nat) : Nat := (xs.filter (fun x => x.hops.contains (b, l))).foldl (fun n x => n + x.rate) 0
def linkRoutes (xs : List DStream) (b l : Nat) : Nat := (xs.filter (fun x => x.hops.contains (b, l))).length
def routeEntries (xs : List DStream) (b : Nat) : Nat := (xs.filter (fun x => x.benches.contains b)).length

/-- The first bench that the routes ys of a load would take over 512 entries beside the routes xs, the first link they would take over its limit
(checks 12 and 13). -/
def routeFull (xs ys : List DStream) : Option Nat :=
  (List.range 68).find? fun b => decide (0 < routeEntries ys b) && decide (512 < routeEntries xs b + routeEntries ys b)
def linkOver (xs ys : List DStream) (limit : Nat) : Option (Nat × Nat) :=
  ((List.range 68).flatMap fun b => (List.range 8).map fun l => (b, l)).find? fun p =>
    decide (0 < linkSum ys p.1 p.2) && decide (limit < linkSum xs p.1 p.2 + linkSum ys p.1 p.2)
/-- Link code of a response: the inward ports are named as the ports they are. -/
def linkCode (l : Nat) : Nat := if 6 ≤ l then l - 2 else l

/-! ### Placement (R147, R148) -/

/-- Whether a dressing reserves a physical tile: it was placed there, and no swap has released it (R149, R154). -/
def State.reserves (s : State) (d : Dressing) (p : Nat) : Bool := (s.tilesOf d).contains p && !d.freed.contains p

/-- Whether a physical tile is reserved by a dressing other than the swap target, or is under a DIAG run (R403). -/
def State.tileTaken (s : State) (swap : Option Nat) (p : Nat) : Bool :=
  (s.dress.any fun e => some e.1 != swap && s.reserves e.2 p)
    || s.bist.active.any fun e => if decide (e.2.kind ≤ 3) then e.2.unit == p else e.2.kind == 4 && e.2.unit == p / 32

/-- Check 9 for a base: 0, or the detail code. -/
def State.placeCheck (s : State) (base n : Nat) (swap : Option Nat) : Nat :=
  let ts := (s.l2p.drop base).take n
  if ts.length < n ∨ ts.any s.isolated.contains then dTileUnavail
  else if ts.any (s.tileTaken swap) then dTilesBusy
  else 0

/-- The base of a basic load: the lowest multiple of 2^align that passes; else the detail code (TILES_BUSY where only reservations
stand in the way of some base; log entry 19). -/
def State.placeBase (s : State) (n align : Nat) : Nat × Nat :=
  let bases := (List.range (2048 / 2 ^ align)).map (· * 2 ^ align)
  match bases.find? (fun b => s.placeCheck b n none == 0) with
  | some b => (b, 0)
  | none => (0, if bases.any (fun b => s.placeCheck b n none == dTilesBusy) then dTilesBusy else dTileUnavail)

/-- The type letter fused for a site, "0" for an empty one (R5). -/
def State.siteType (s : State) (n : Nat) : Nat := s.fget R.hubIdSitemap (8 * n + 7) (8 * n)

/-- What a load names beside the image: bases (none in the basic form), swap target, allow_oversub. -/
structure LoadOpt where
  base : Option (Nat × Nat) := none
  swap : Option Nat := none
  oversub : Bool := false
deriving DecidableEq, Repr

/-- The link limit of a load (R145). -/
def LoadOpt.limit (o : LoadOpt) : Nat := if o.oversub then 255 else 64

/-- FAB_DRS_LOAD: the checks of Table 5-5 in order, then the reservations (R147 to R149). -/
def State.drsLoad (s : State) (g : W64) (size ctx : Nat) (o : LoadOpt) : AxR :=
  s.withImage g size fun s img => match img with
  | none => refuse s dBadHeader
  | some img =>
    let (body, e) := s.imgVerify img 0x54555242 size 0
    if !imgHeadOk img then refuse s dBadHeader
    else if e ≠ 0 then refuse s e
    else if !imgRecordsOk img body then refuse s dMalformed
    else if !s.bget (R.xltCtx ctx) 63 then refuse s dContextDead
    else match (List.range 64).find? (fun h => (tget s.dress h).isNone) with
      | none => refuse s dNoHandle
      | some h =>
        let n := imgU img 0x14 2
        let claim := (recsOf img (imgSects img) 1).headD []
        let sync := imgU claim 0 2
        if (List.range 8).any (fun k => let c := imgU claim (4 + k) 1; c != 0 && c != s.siteType k) then refuse s dSiteMismatch
        else
          let (base, pe) := match o.base with
            | some (b, _) => (b, s.placeCheck b n o.swap)
            | none => s.placeBase n (imgU img 0x16 1)
          if pe ≠ 0 then refuse s pe
          else
            let sb := match o.base with
              | some (_, b) => if s.syncRun b sync 0 then some b else none
              | none => s.freeRun sync
            match sb with
            | none => refuse s dSyncExhausted
            | some sb =>
              if !relocsOk img then refuse s dMalformed
              else
                let xs := (imgStreams img).map (s.routed base)
                match routeFull s.allStreams xs, linkOver s.allStreams xs o.limit with
                | some b, _ => .refuse s dRouteFull (p16 b ++ p16 0)
                | none, some (b, l) => .refuse s dLinkOversub (p16 b ++ p16 (linkCode l))
                | none, none =>
                  let d : Dressing :=
                    { ctx := ctx, image := g.toNat, size := size
                      digest := BitVec.ofNat 512 (imgU img 0x30 64), dressId := BitVec.ofNat 64 (imgU img 0x20 8), n := n
                      lbase := base, sbase := sb, syncs := sync, streams := xs, target := o.swap.filter fun a => (tget s.dress a).isSome, oversub := o.oversub }
                  let s := (List.range sync).foldl (fun s i =>
                    (s.fset (R.syncStatus (sb + i)) 29 28 1).fset (R.syncStatus (sb + i)) 27 22 h) s
                  let s := { s with dress := tput s.dress h d }
                  let s := { s with bist := { s.bist with online := s.bist.online.filter fun t => !(s.tilesOf d).contains t } }
                  .done s.measCommit 0 (p16 h ++ p16 base ++ p16 sb)

/-- FAB_DRS_LOAD. -/
def execFabDrsLoad (q : Req) (image : W64) (size ctx : Nat) (s : State) : Outc :=
  run (mbxOk q) (axotte s q 0x0401 fun s => if 4096 ≤ ctx then invalid s else s.drsLoad image size ctx {})

/-- FAB_DRS_LOAD expert: bases and swap target (0xFF none) as given; a handle that names no dressing holds no tile (log entry 134). -/
def execFabDrsLoadExpert (q : Req) (image : W64) (size ctx lbase sbase swap : Nat) (oversub : Bool) (s : State) : Outc :=
  run (mbxOk q) (axotte s q 0x8401 fun s =>
    if 4096 ≤ ctx ∨ (swap ≠ 0xFF ∧ 64 ≤ swap) then invalid s
    else s.drsLoad image size ctx { base := some (lbase, sbase), swap := if swap = 0xFF then none else some swap, oversub := oversub })

/-! ### Activation (Table 5-7) -/

/-- A dressing replaced, and its last detail code set. -/
def State.putD (s : State) (h : Nat) (d : Dressing) : State := { s with dress := tput s.dress h d }

/-- The physical tile of a dressing tile. -/
def State.dtile (s : State) (d : Dressing) (t : Nat) : Nat := (s.ptile (d.lbase + t)).getD 0

/-- Step 2: every segment copied into its tile. -/
def State.copySegs (s : State) (d : Dressing) (gs : List Seg) : State :=
  gs.foldl (fun s g => s.lmWrite (s.dtile d g.t) g.off g.data false) s

/-- Local memories written by a failed activation hold unspecified contents (R152). -/
def State.freeBytes (s : State) (n : Nat) : List Byte := (List.range n).map fun i => (Config.freeValue (s.freeCtr + i)).setWidth 8
def State.freeSegs (s : State) (d : Dressing) (gs : List (Nat × Nat × Nat)) : State :=
  gs.foldl (fun s g =>
    { s with freeCtr := s.freeCtr + g.2.2 }.lmWrite (s.dtile d g.1) g.2.1 (s.freeBytes g.2.2) false) s
/-- Where segments lie: tile, offset, length. -/
def segPlaces (gs : List Seg) : List (Nat × Nat × Nat) := gs.map fun g => (g.t, g.off, g.data.length)

/-- The presets of one tile (Table 5-3): pc, arithmetic registers, DMA rings. -/
def State.presetTile (s : State) (p : Nat) (r : List Byte) : State :=
  let s := s.set (R.tileSeqPc p) (BitVec.ofNat 64 (imgU r 2 2))
  let s := (s.arithWr p (BitVec.ofNat 32 (imgU r 4 4))).seedWr p (BitVec.ofNat 32 (imgU r 8 4))
  [0, 1, 2, 3].foldl (fun s c => s.set (R.tileDmaCtrl p c) (BitVec.ofNat 64 (imgU r (12 + 4 * c) 4))) s

/-- Step 3: DMA indices 0, presets, scalar registers, relocations, initial counts. -/
def State.presets (s : State) (d : Dressing) (img : List Byte) : State :=
  let ss := imgSects img
  let s := (s.tilesOf d).foldl (fun s p => [0, 1, 2, 3].foldl (fun s c => (s.set (R.tileDmaHead p c) 0).set (R.tileDmaTail p c) 0) s) s
  let s := (recsOf img ss 3).foldl (fun s r => s.presetTile (s.dtile d (imgU r 0 2)) r) s
  let s := (recsOf img ss 4).foldl (fun s r =>
    let add := if imgU r 3 1 = 1 then d.sbase else if imgU r 3 1 = 2 then d.lbase else 0
    s.setSr (s.dtile d (imgU r 0 2)) (imgU r 2 1) (BitVec.ofNat 32 (imgU r 4 4 + add))) s
  let s := (recsOf img ss 6).foldl (fun s r =>
    let p := s.dtile d (imgU r 0 2)
    let b := leNat (s.lmRead p (imgU r 4 4) 8)
    s.lmWrite p (imgU r 4 4) (leBytes 8 (b + 4 * d.sbase)) false) s
  let init (i : Nat) : Nat := match (recsOf img ss 5).find? (fun r => imgU r 0 2 == i) with | some r => imgU r 8 8 | none => 0
  (List.range d.syncs).foldl (fun s i => s.syncSet (d.sbase + i) (BitVec.ofNat 64 (init i)) true) s

/-- Registers of a tile that step 3 writes. -/
def presetRegs (p : Nat) : List Reg :=
  [R.tileSeqPc p, R.tileArithCtrl p, R.tileArithSrSeed p] ++ [0, 1, 2, 3].flatMap fun c => [R.tileDmaCtrl p c, R.tileDmaHead p c, R.tileDmaTail p c]

/-- A dressing with what step 3 is about to write over. -/
def State.keepUndo (s : State) (d : Dressing) : Dressing :=
  { d with undoRegs := ((s.tilesOf d).flatMap presetRegs).map fun a => (a, s.get a)
           undoTiles := (s.tilesOf d).map fun p => (p, (s.tile p).sreg, (s.tile p).gen)
           undoSyncs := (List.range d.syncs).map fun i => s.get (R.syncCount (d.sbase + i)) }

/-- Step 3 undone (R152). -/
def State.undoPresets (s : State) (d : Dressing) : State :=
  let s := d.undoRegs.foldl (fun s e => s.set e.1 e.2) s
  let s := d.undoTiles.foldl (fun s e => s.modTile e.1 fun x => { x with sreg := e.2.1, gen := e.2.2 }) s
  d.undoSyncs.zipIdx.foldl (fun s e => s.syncSet (d.sbase + e.2) e.1 true) s

/-- Capacity of a tile consumer (R88). -/
def DStream.cap (x : DStream) : Nat := if x.ring then 64 * 2 ^ x.ringSize else 64

/-- Step 4 for one stream: its consumer port bound with its credits granted, its producer port bound. -/
def State.bindStream (s : State) (d : Dressing) (x : DStream) : State :=
  let s := if nbits x.cons 31 28 = 2 then
      let q := s.dtile d (nbits x.cons 10 0)
      let p := nbits x.cons 17 16
      let s := s.set (R.tileSinCfg q p) (BitVec.ofNat 64 (2 ^ 31 + b2n x.ring * 2 ^ 30 + x.ringSize * 2 ^ 27 + x.ringBase * 2 ^ 12))
      let s := (s.set (R.tileSinStat q p) (BitVec.ofNat 64 x.cap)).set (R.tileSinWrptr q p) 0
      s.modTile q fun y => { y with sinSrc := tput y.sinSrc p x.prod, sin := tdel y.sin p }
    else s
  if nbits x.prod 31 28 = 1 then
    let q := s.dtile d (nbits x.prod 10 0)
    let p := nbits x.prod 17 16
    let s := s.set (R.tileSoutStat q p) (BitVec.ofNat 64 (2 ^ 31 + if nbits x.cons 31 28 = 2 then x.cap else 0))
    s.modTile q fun y => { y with soutDst := tput y.soutDst p x.cons }
  else s

/-- The chiplet endpoint of a stream: whether it is the consumer, and bits 18:0 of its code. -/
def DStream.siteEp (x : DStream) : Option (Bool × Nat) :=
  if nbits x.prod 31 28 = 5 then some (false, nbits x.prod 18 0)
  else if nbits x.cons 31 28 = 6 then some (true, nbits x.cons 18 0)
  else none

/-- An endpoint awaited: bits 18:0 of its code, and bit 20 for a consumer; the site of one. -/
def epKey (c : Bool) (e : Nat) : Nat := b2n c * 2 ^ 20 + e
def epSite (k : Nat) : Nat := k % 2 ^ 20 / 65536

/-- The streams bound by dressings other than one (R278). -/
def State.boundStreams (s : State) (h : Nat) : List DStream := (s.dress.filter fun e => e.1 != h && e.2.st.holds).flatMap fun e => e.2.streams

/-- The module that carries a chiplet endpoint: the enabled module of the site with the fewest bound streams (R278). -/
def State.pickModule (s : State) (site : Nat) (xs : List DStream) : Nat :=
  let load (m : Nat) := (xs.filter (fun x => x.module == m && (match x.siteEp with | some (_, c) => c / 65536 == site | none => false))).length
  let ms := (List.range 12).filter fun m => nbit (s.fget (R.siteStatus site) 11 0) m
  ms.foldl (fun b m => if load m < load b then m else b) (ms.headD 0)

/-- A bound stream unbound at its tiles: FIFOs, credits in flight and port bindings cleared (step 4 of Table 5-8). -/
def State.unbindTile (s : State) (q : Nat) : State :=
  let s := s.modTile q fun y => { y with sin := [], sinSrc := [], soutDst := [], wout := none }
  [0, 1, 2, 3].foldl (fun s p =>
    let s := ((s.set (R.tileSinCfg q p) 0).set (R.tileSinStat q p) 0).set (R.tileSinWrptr q p) 0
    { s.set (R.tileSoutStat q p) 0 with
      flight := tdel s.flight (4 * q + p), credFly := tdel s.credFly (4 * q + p), deadCred := tdel s.deadCred (4 * q + p) }) s

/-- SUnbind sent for every chiplet endpoint of a dressing. -/
def State.sendUnbinds (s : State) (d : Dressing) : State :=
  d.streams.foldl (fun s x => match x.siteEp with
    | some (c, e) => s.siteSend (e / 65536) x.module poolStr (.sbind (e / 65536) x.module (e % 65536) false c 0)
    | none => s) s

/-- A dressing with nothing left to undo. -/
def Dressing.settled (d : Dressing) : Dressing := { d with undoRegs := [], undoTiles := [], undoSyncs := [], mbx := none, phase := 0, await := [] }

/-- Steps 6 and 7: flagged tiles started unless held, the dressing Active, the completion object signalled. -/
def State.actFinish (s : State) (h : Nat) (d : Dressing) : State :=
  let s := s.putD h { d.settled with st := .active, obj := 0xFFFF, last := 0 }
  let s := if d.hold then s else d.starts.foldl (fun s t => s.seqGo (s.dtile d t)) s
  s.signal d.obj

/-- A failed activation undone: step 4 and step 3 undone, the local memories written left with unspecified contents, the dressing Loaded again with the
detail code. -/
def State.actUndo (s : State) (h : Nat) (d : Dressing) (e : Nat) : State :=
  let s := (s.tilesOf d).foldl State.unbindTile s
  let s := (s.freeSegs d d.segs).undoPresets d
  s.putD h { d.settled with st := .loaded, last := e }

/-- Whether another dressing that holds tiles holds one of this dressing's (R151). -/
def State.tilesHeld (s : State) (h : Nat) (d : Dressing) : Bool :=
  ((s.tilesOf d).any fun p => s.dress.any fun e => e.1 != h && e.2.st.holds && (s.tilesOf e.2).contains p)
    || d.freed.any (s.tileTaken (some h))

/-- Steps 1 to 5 of Table 5-7, and the rest where no site need answer: refused in Drowse (R435), or with a tile isolated (Table 21-6); idle benches wake
(R433). `m` is the mailbox whose command this is. -/
def State.activate (s : State) (h m obj : Nat) (hold : Bool) (d : Dressing) : AxR :=
  let no (s : State) (e : Nat) : AxR := refuse (s.putD h { d with last := e, mbx := none }) e
  if s.fget R.stwPstate 31 30 = 1 then no s dPowerState
  else if d.st ≠ .loaded then no s dState
  else if !s.bget (R.xltCtx d.ctx) 63 then no s dContextDead
  else if (s.tilesOf d).any s.isolated.contains then no s dTileUnavail
  else if s.tilesHeld h d then no s dState
  else s.withImage (BitVec.ofNat 64 d.image) d.size fun s img => match img with
    | none => no s dDigest
    | some img =>
      let gs := (imgSegs img).getD []
      if !(imgDigestOk img (imgU img 0x10 4) && BitVec.ofNat 512 (imgU img 0x30 64) == d.digest) then no (s.freeSegs d (segPlaces gs)) dDigest
      else
        let xs := d.streams.foldl (fun ys x => ys ++ [match x.siteEp with
          | some (_, e) => { x with module := s.pickModule (e / 65536) (s.boundStreams h ++ ys), grant := 0 }
          | none => x]) []
        let starts := ((recsOf img (imgSects img) 3).filter (fun r => nbit (imgU r 28 1) 0)).map fun r => imgU r 0 2
        let await := xs.filterMap fun x => x.siteEp.map fun e => epKey e.1 e.2
        let d := { s.keepUndo d with st := .activating, mbx := some m, obj := obj, hold := hold, streams := xs, phase := 5, await := await, handed := [], starts := starts, segs := segPlaces gs, freed := [] }
        let s := { s with rst := { s.rst with idle := s.rst.idle.filter fun b => !((s.tilesOf d).map (· / 32)).contains b } }
        let s := ((s.copySegs d gs).putD h d).presets d img
        let s := xs.foldl (fun s x => s.bindStream d x) s
        let s := xs.foldl (fun s x => match x.siteEp with
          | some (c, e) => s.siteSend (e / 65536) x.module poolStr (.sbind (e / 65536) x.module (e % 65536) true c (if c then 0 else x.cap))
          | none => s) s
        if await.isEmpty then .done (s.actFinish h d) 0 [] else .wait s

/-- A command on a handle: handles out of range (Table 15-6), unknown handles, and handles with a command executing, are turned away (R150). -/
def onHandle (s : State) (h : Nat) (f : Dressing → AxR) : AxR :=
  if 64 ≤ h then invalid s
  else match tget s.dress h with
    | none => refuse s dBadHandle
    | some d => if d.mbx.isSome then busy s else f d

/-- Whether a completion object is named rightly: an object of this device, or 0xFFFF for none (R292). -/
def objOk (obj : Nat) : Bool := decide (obj < 8192) || obj == 0xFFFF

/-- FAB_DRS_ACTIVATE. -/
def execFabDrsActivate (q : Req) (h obj : Nat) (s : State) : Outc :=
  run (mbxOk q) (axotte s q 0x0402 fun s => if !objOk obj then invalid s else onHandle s h fun d => s.activate h q.mbx obj false d)
/-- FAB_DRS_ACTIVATE expert. -/
def execFabDrsActivateExpert (q : Req) (h obj : Nat) (hold : Bool) (s : State) : Outc :=
  run (mbxOk q) (axotte s q 0x8402 fun s => if !objOk obj then invalid s else onHandle s h fun d => s.activate h q.mbx obj hold d)

/-- A command's outcome given to the mailbox where it is executing. -/
def AxR.finish (m : Nat) : AxR → State
  | .done s d p => s.axFinish m stDone d p
  | .fail s st d => s.axFinish m st d []
  | .refuse s d p => s.axFinish m stRefused d p
  | .wait s => s
  | .again s _ => s.axFinish m stBusy 0 []
  | .hold s => s

/-- The dressing and stream of a chiplet endpoint in a role, among dressings that hold tiles and pass a test. -/
def State.siteStream (s : State) (site stream : Nat) (c : Bool) (f : Dressing → Bool) : Option (Nat × Dressing × DStream) :=
  s.dress.findSome? fun e =>
    if e.2.st.holds && f e.2 then
      (e.2.streams.find? fun x => x.siteEp == some (c, site * 65536 + stream)).map fun x => (e.1, e.2, x)
    else none

/-- Whether a dressing awaits an endpoint's answer, in a state and phase. -/
def Dressing.awaits (st : DState) (phase key : Nat) (d : Dressing) : Bool := d.st == st && d.phase == phase && d.await.contains key

/-- A stream with the credits its chiplet consumer granted. -/
def DStream.granted (cons n : Nat) (x : DStream) : DStream := if x.cons = cons then { x with grant := n } else x

/-- SGRANT (R278): a consumer's capacity, 1 to 4,096 credits, becomes the producer port's credits, a producer's answer carries 0; once every endpoint has
answered, the activation goes on. -/
def State.sgrant (s : State) (site stream n : Nat) : State :=
  let c := decide (1 ≤ n)
  let key := epKey c (site * 65536 + stream)
  match s.siteStream site stream c (Dressing.awaits .activating 5 key) with
  | none => s
  | some (h, d, x) =>
    if 4096 < n then s
    else
      let s := if c then s.fset (R.tileSoutStat (s.dtile d (nbits x.prod 10 0)) (nbits x.prod 17 16)) 12 0 n else s
      let d := { d with await := sDel d.await key, streams := if c then d.streams.map (DStream.granted x.cons n) else d.streams }
      if d.await.isEmpty then
        match d.mbx with
        | some m => (s.actFinish h d).axFinish m stDone 0 []
        | none => s.actFinish h d
      else s.putD h d
def execSgrant (site stream n : Nat) (s : State) : Outc := run (site < 8) (s.sgrant site stream n)

/-- SGRANT_TIMEOUT (R278): a site that has not answered fails the activation with SITE_NO_GRANT. -/
def State.sgrantTimeout (s : State) (h site : Nat) : State :=
  match tget s.dress h with
  | none => s
  | some d =>
    if d.st = .activating ∧ d.await.any (fun k => epSite k == site) then
      let s := (s.sendUnbinds d).actUndo h d dSiteNoGrant
      match d.mbx with
      | some m => s.axFinish m stRefused dSiteNoGrant []
      | none => s
    else s
def execSgrantTimeout (h site : Nat) (s : State) : Outc := run (h < 64 && site < 8) (s.sgrantTimeout h site)

/-- SFLIT (R278): a chiplet producer's flit reaches its tile port. -/
def execSflit (site stream : Nat) (f : Flit) (s : State) : Outc :=
  run (site < 8) (match s.siteStream site stream false (fun _ => true) with
    | some (_, d, x) => s.arrive (s.dtile d (nbits x.cons 10 0)) (nbits x.cons 17 16) f
    | none => s)

/-- SCREDIT (R278): a chiplet consumer returns credits to the producing port. -/
def execScredit (site stream n : Nat) (s : State) : Outc :=
  run (site < 8) (match s.siteStream site stream true (fun _ => true) with
    | some (_, d, x) => s.creditIn (s.dtile d (nbits x.prod 10 0)) (nbits x.prod 17 16) n
    | none => s)

/-! ### Stop phase (Table 5-8) -/

/-- The matrix engine of a stopped tile run until nothing moves (the first argument is fuel). -/
def State.matDrain (s : State) (t : Nat) : Nat → State
  | 0 => s
  | n + 1 => ((((s.bufFill t false).bufFill t true).matStep t [] false)).matDrain t n

/-- Step 2 for one tile: the sequencer stopped at a bundle boundary, matrix operations complete, no further block of a channel begins. -/
def State.haltTile (s : State) (t : Nat) : State :=
  let s := s.matDrain t (4 * ((s.tile t).queue.foldl (fun n o => n + o.total + 1) 0))
  let s := { s with updates := sDel s.updates t }.dropWaiter t
  let s := s.modTile t fun y => { y with bundle := none, released := false, loopOrd := [], loopBuf := [], codeOld := [] }
  let s := [0, 1, 2, 3].foldl (fun s c => s.bset (R.tileDmaCtrl t c) 31 false) s
  s.set (R.tileSeqStatus t) (setFld (setFld (setFld (s.get (R.tileSeqStatus t)) 31 31 0) 27 24 0) 19 16 0)

/-- Whether a write-out or a channel's block of a halted tile waits for a credit that its stopped consumer cannot return. -/
def State.woutStuck (s : State) (t p : Nat) : Bool :=
  nbits (tgetD (s.tile t).soutDst p 0) 31 28 == 2 && s.fget (R.tileSoutStat t p) 12 0 == 0 && tgetD s.credFly (4 * t + p) 0 == 0
def State.blockStuck (s : State) (t : Nat) (d : DmaSt) : Bool :=
  fld d.ctl 49 48 == 1 && d.unacked == 0 && s.fget (R.tileSinStat t (fld d.dst 1 0)) 12 0 == 0

/-- Whether a halted tile is stopped: its accesses, signals, write-outs and the blocks in progress are complete, or can never be. -/
def State.tileStopped (s : State) (t : Nat) : Bool :=
  let x := s.tile t
  x.misses.isEmpty && x.sigq.isEmpty && (match x.wout with | some (_, p, _) => s.woutStuck t p | none => true)
    && x.dma.all fun e => (e.2.left == 0 && e.2.unacked == 0) || s.blockStuck t e.2

/-- A stopped tile's descriptors not completed are abandoned, with the translations their blocks held. -/
def State.stopTile (s : State) (t : Nat) : State :=
  let s := ((s.tile t).dma.flatMap fun e => e.2.held).foldl State.tlbDrop s
  s.modTile t fun y => { y with dma := [], queue := [], bufA := [], bufB := [] }

/-- Every flit on its way to a port landed there. -/
def State.landAll (s : State) (t p : Nat) : State :=
  (tgetD s.flight (4 * t + p) []).foldl (fun s f => s.arrive t p f) { s with flight := tdel s.flight (4 * t + p) }

/-- A lane detached: its flits in flight landed, its registers cleared, its credits back with the tag (R184), its translations
dropped. -/
def State.laneDetach (s : State) (k : Nat) : State :=
  let n := k / 8
  let l := k % 8
  let s := match tget s.lanes k with | some x => s.landAll x.ptile x.port | none => s
  (((({ s with lanes := tdel s.lanes k }.set (R.ctxLaneCfg n l) 0).set (R.ctxLaneRing n l) 0).set (R.ctxLaneTail n l) 0).set (R.ctxLaneHead n l) 0)

/-- Every lane of a dressing detached; hoist-fed streams have no route. -/
def State.detachAll (s : State) (h : Nat) : State :=
  let s := ((s.lanes.filter (fun e => e.2.handle == h)).map (·.1)).foldl State.laneDetach s
  match tget s.dress h with
  | none => s
  | some d => s.putD h { d with streams := d.streams.map fun x => if nbits x.prod 31 28 = 4 then { x with hops := [], benches := [] } else x }

/-- A dressing whose swap target is gone. -/
def untarget (h : Nat) (e : Nat × Dressing) : Nat × Dressing := (e.1, if e.2.target = some h then { e.2 with target := none } else e.2)

/-- Every reservation of a dressing released, and its handle freed (R155). -/
def State.drsRelease (s : State) (h : Nat) (d : Dressing) : State :=
  let s := (s.detachAll h).syncClaim d.sbase d.syncs 0 0
  { s with dress := (tdel s.dress h).map (untarget h) }.measCommit

/-- What step 4 of Table 5-8 finds of a stream split between two agents that both answer: the consumer port or chiplet (the unit of Table 12-6), the
credits it has granted and not had back as flits, and those found at its producer or handed back (R88, R278, R300). -/
def State.streamSides (s : State) (d : Dressing) (x : DStream) : Option (Nat × Nat × Nat) :=
  let pt := s.dtile d (nbits x.prod 10 0)
  let pp := nbits x.prod 17 16
  let ct := s.dtile d (nbits x.cons 10 0)
  let cp := nbits x.cons 17 16
  let out := s.fget (R.tileSinStat ct cp) 12 0
  let held := s.fget (R.tileSoutStat pt pp) 12 0 + tgetD s.credFly (4 * pt + pp) 0
  match x.siteEp with
  | none => if nbits x.prod 31 28 = 1 then some (4 * ct + cp, out, held + (tgetD s.flight (4 * ct + cp) []).length) else none
  | some (c, e) => (tget d.handed (epKey c e)).map fun n => if c then (0xF000 + e / 65536, x.grant, held + n) else (4 * ct + cp, out, n)

/-- The exact credit check of step 4: a stream whose credits are not all back at its consumer is a breach (R300, R302). Whether one was found. -/
def State.creditsBack (s : State) (d : Dressing) : State × Bool :=
  d.streams.foldl (fun (r : State × Bool) x =>
    match r.1.streamSides d x with
    | some (u, a, b) => if a = b then r else (r.1.breach 4 u ((a : Int) - b) false, true)
    | none => r) (s, false)

/-- Step 5, and what follows: a swap releases the tiles that its second dressing does not place and activates it, an unload releases the handle. -/
def State.stopDone (s : State) (h : Nat) (d : Dressing) : State :=
  let dead := d.st == .dead
  let d' := { d.settled with st := .loaded, swapTo := none, unload := false, last := 0, handed := [] }
  match d.mbx with
  | none => if d.unload then s.drsRelease h d else s.putD h d'
  | some m =>
    if d.unload then (s.drsRelease h d).axFinish m stDone 0 []
    else match d.swapTo with
      | some b =>
        match tget s.dress b with
        | some e => ((s.putD h { d' with freed := (s.tilesOf d).filter fun p => !(s.tilesOf e).contains p }).activate b m 0xFFFF false { e with mbx := none }).finish m
        | none => (s.putD h d').axFinish m stRefused dBadHandle []
      | none => if dead then s.putD h d' else (s.putD h d').axFinish m stDone 0 (p16 d.unended)

/-- Step 4, and step 5: credits checked and bindings cleared; a breach kills the dressing's context (Table 12-4). A swap waits, before step 4, for what its
second dressing's image has elsewhere. -/
def State.stopEnd (s : State) (h : Nat) (d : Dressing) : State :=
  let far := match d.swapTo.bind (tget s.dress) with
    | some e => if !s.imgHole e.image e.size && !s.imgReady e.image e.size then some e else none
    | none => none
  match far with
  | some e => (s.farAsk e.image e.size 0).putD h { d with phase := 4, await := [] }
  | none =>
    let r := if d.st = .dead then (s, false) else s.creditsBack d
    if r.2 then (r.1.putD h d).killCtx d.ctx none
    else ((s.tilesOf d).foldl State.unbindTile r.1).stopDone h d

/-- Step 3: SUnbind for every chiplet endpoint, whose acknowledgements are awaited; with none, steps 4 and 5. -/
def State.stopUnbind (s : State) (h : Nat) (d : Dressing) : State :=
  let es := d.streams.filterMap fun x => x.siteEp.map fun e => epKey e.1 e.2
  if es.isEmpty then s.stopEnd h d
  else (s.sendUnbinds d).putD h { d with phase := 3, await := es, handed := [] }

/-- Whether every tile of a dressing has executed END. -/
def State.allEnded (s : State) (d : Dressing) : Bool := (s.tilesOf d).all fun p => s.bget (R.tileSeqStatus p) 30

/-- Step 2 of Table 5-8 over, once every tile is stopped. -/
def State.stopTiles (s : State) (h : Nat) (d : Dressing) : State :=
  if (s.tilesOf d).all s.tileStopped then ((s.tilesOf d).foldl State.stopTile s).stopUnbind h d else s.putD h d

/-- DRS_STOP_PHASE (R153): once every tile has ended or the drain time has passed, and no tile is within a bundle, steps 1 to 3 of Table 5-8; a phase that
waits goes on where what it waits for has come. -/
def State.stopPhase (s : State) (h : Nat) : State :=
  match tget s.dress h with
  | none => s
  | some d =>
    if d.st ≠ .deactivating then s
    else if d.phase = 2 then s.stopTiles h d
    else if d.phase = 4 then s.stopEnd h d
    else if (d.phase = 1 ∨ (d.phase = 0 ∧ s.allEnded d)) ∧ (s.tilesOf d).all (fun p => (s.tile p).bundle.isNone) then
      let n := ((s.tilesOf d).filter fun p => !s.bget (R.tileSeqStatus p) 30).length
      let s := (s.detachAll h)
      match tget s.dress h with
      | none => s
      | some d => ((s.tilesOf d).foldl State.haltTile s).stopTiles h { d with unended := n, phase := 2 }
    else s
def execDrsStopPhase (h : Nat) (s : State) : Outc := run (h < 64) (s.stopPhase h)

/-- DRS_DRAIN_TIMEOUT (R153): the drain time has passed. -/
def execDrsDrainTimeout (h : Nat) (s : State) : Outc :=
  run (h < 64) (match tget s.dress h with
    | some d => if d.st = .deactivating ∧ d.phase = 0 then s.putD h { d with phase := 1 } else s
    | none => s)

/-- Whether a stop phase awaits an endpoint's acknowledgement. -/
def Dressing.unbinds (key : Nat) (d : Dressing) : Bool := d.phase == 3 && d.await.contains key

/-- The endpoint that an SUNBOUND is of: a producer's stream number and a consumer's may be one, and then the producer answers first. -/
def State.unboundOf (s : State) (site stream : Nat) : Option (Nat × Dressing × DStream × Bool) :=
  match s.siteStream site stream false (Dressing.unbinds (epKey false (site * 65536 + stream))) with
  | some (h, d, x) => some (h, d, x, false)
  | none => (s.siteStream site stream true (Dressing.unbinds (epKey true (site * 65536 + stream)))).map fun e => (e.1, e.2.1, e.2.2, true)

/-- SUNBOUND (R278): an endpoint's acknowledgement, with the credits it hands back; the last one lets the stop phase go on. -/
def State.sunbound (s : State) (site stream n : Nat) : State :=
  match s.unboundOf site stream with
  | none => s
  | some (h, d, _, c) =>
    let key := epKey c (site * 65536 + stream)
    let d := { d with await := sDel d.await key, handed := tput d.handed key n }
    if d.await.isEmpty then s.stopEnd h d else s.putD h d
def execSunbound (site stream n : Nat) (s : State) : Outc := run (site < 8 && n < 8192) (s.sunbound site stream n)

/-- SUNBOUND_TIMEOUT (R153): the site is logged and keeps the credits outstanding toward it until its next reset. -/
def State.sunboundTimeout (s : State) (h site : Nat) : State :=
  match tget s.dress h with
  | none => s
  | some d =>
    let late := d.await.filter fun k => epSite k == site
    if d.phase ≠ 3 ∨ late.isEmpty then s
    else
      let held := (d.streams.filter fun x => match x.siteEp with | some (c, e) => !c && late.contains (epKey c e) | none => false).foldl
        (fun n x => n + s.fget (R.tileSinStat (s.dtile d (nbits x.cons 10 0)) (nbits x.cons 17 16)) 12 0) 0
      let s := { s with siteHeld := tset s.siteHeld site 0 (tgetD s.siteHeld site 0 + held) }.log' 1 12 1 [site, h]
      let d := { d with await := d.await.filter fun k => epSite k != site }
      if d.await.isEmpty then s.stopEnd h d else s.putD h d
def execSunboundTimeout (h site : Nat) (s : State) : Outc := run (h < 64 && site < 8) (s.sunboundTimeout h site)

/-- A deactivation begun (R153): draining, or past it where the drain time is 0. -/
def State.deactivate (s : State) (h m drain : Nat) (d : Dressing) (swap : Option Nat) (unload : Bool) : State :=
  s.putD h { d with st := .deactivating, mbx := some m, phase := if drain = 0 then 1 else 0, swapTo := swap, unload := unload }

/-- FAB_DRS_DEACTIVATE. -/
def State.drsDeact (s : State) (m h drain : Nat) : AxR :=
  if 10000 < drain then invalid s
  else onHandle s h fun d => if d.st ≠ .active then refuse s dState else .wait (s.deactivate h m drain d none false)
def execFabDrsDeactivate (q : Req) (h : Nat) (s : State) : Outc := run (mbxOk q) (axotte s q 0x0403 fun s => s.drsDeact q.mbx h 100)
/-- FAB_DRS_DEACTIVATE expert. -/
def execFabDrsDeactivateExpert (q : Req) (h drainMs : Nat) (s : State) : Outc :=
  run (mbxOk q) (axotte s q 0x8403 fun s => s.drsDeact q.mbx h drainMs)

/-- FAB_DRS_SWAP (R154): A Active, B Loaded with A as its swap target. -/
def State.drsSwap (s : State) (m a b drain : Nat) : AxR :=
  if 10000 < drain ∨ 64 ≤ b then invalid s
  else onHandle s a fun d => onHandle s b fun e =>
    if d.st ≠ .active ∨ e.st ≠ .loaded ∨ e.target ≠ some a then refuse s dState
    else .wait ((s.deactivate a m drain d (some b) false).putD b { e with mbx := some m })
def execFabDrsSwap (q : Req) (a b : Nat) (s : State) : Outc := run (mbxOk q) (axotte s q 0x0404 fun s => s.drsSwap q.mbx a b 100)
/-- FAB_DRS_SWAP expert. -/
def execFabDrsSwapExpert (q : Req) (a b drainMs : Nat) (s : State) : Outc :=
  run (mbxOk q) (axotte s q 0x8404 fun s => s.drsSwap q.mbx a b drainMs)

/-- FAB_DRS_UNLOAD (R155). -/
def State.drsUnload (s : State) (m h : Nat) : AxR :=
  onHandle s h fun d =>
    match d.st with
    | .loaded => .done (s.drsRelease h d) 0 []
    | .active => .wait (s.deactivate h m 100 d none true)
    | .dead => .wait (s.stopUnbind h { d with mbx := some m, unload := true })
    | _ => refuse s dState
def execFabDrsUnload (q : Req) (h : Nat) (s : State) : Outc := run (mbxOk q) (axotte s q 0x0405 fun s => s.drsUnload q.mbx h)

/-- Codes of the states in the order of Table 5-6 (log entry 15). -/
def DState.code : DState → Nat
  | .loaded => 0 | .activating => 1 | .active => 2 | .deactivating => 3 | .dead => 4

/-- FAB_DRS_STATUS: answered always (R150). -/
def execFabDrsStatus (q : Req) (h : Nat) (s : State) : Outc :=
  run (mbxOk q) (axotte s q 0x0406 fun s => if 64 ≤ h then invalid s else match tget s.dress h with
    | none => refuse s dBadHandle
    | some d => .done s 0 (p16 d.st.code ++ p16 d.ctx ++ leBytes 8 d.dressId.toNat ++ p16 d.lbase ++ p16 d.sbase ++ p16 d.n ++ p16 d.syncs ++ p16 d.last))

/-- The word of hub.map.l2p.L (Table 5-11). -/
def State.l2pWord (s : State) (l : Nat) : Nat := match s.ptile l with | some p => 2 ^ 31 + p | none => 0

/-- FAB_MAP_READ (R135). -/
def execFabMapRead (q : Req) (first count : Nat) (s : State) : Outc :=
  run (mbxOk q) (axotte s q 0x0407 fun s =>
    if count = 0 ∨ 512 < count ∨ 2048 < first + count then invalid s
    else .done s 0 ((List.range count).flatMap fun i => p32 (s.l2pWord (first + i))))

end Sys2Proof.Machine
end

