-- ==== Sys2Proof/Machine/Mem.lean ====
section
/-! DEFINITION. The state store as a cache over HBM (chapter 7): ways, ages, victims, the side buffer, errors met on a line, and the
stacks; and what a miss slot, a DMA channel or a page move does when an access of its own completes. -/

namespace Sys2Proof.Machine

/-! ### Completions at the issuing units -/

/-- A miss slot freed, and its translation given back (R231). -/
def State.missEnd (s : State) (t k : Nat) : State :=
  match tget (s.tile t).misses k with
  | none => s
  | some m =>
    let s := s.modTile t fun x => { x with misses := tdel x.misses k }
    match m.tlb with | some e => (s.tlbDrop e).tlbRefRead (t / 32) | none => s

/-- A load's word delivered to its register; a poisoned one is written and kills the context (R80). A tile that a kill has stopped since discards it
(R94). -/
def State.loadDone (s : State) (t k : Nat) (v : W32) (poison : Bool) : State :=
  match tget (s.tile t).misses k with
  | none => s
  | some m =>
    if m.dead then s.missEnd t k else
    let s := (s.missEnd t k).setSr t m.sd v
    if poison then s.kill t 8 2 0 (BitVec.ofNat 64 m.va) else s

/-- A miss fill returned (R82, R246): the load completes with its word, and the line is allocated unless an invalidation of it has met the miss, or its home
keeps no record of a copy (R245, R386). -/
def State.fillDone (s : State) (t k : Nat) (data : BitVec 1024) (poison copy : Bool) : State :=
  match tget (s.tile t).misses k with
  | none => s
  | some m =>
    let s := if m.cached && !m.stale && !m.dead && !poison && copy then s.modTile t fun x => { x with cache := cacheInstall x.cache m.line data } else s
    s.loadDone t k (BitVec.ofNat 32 (data.toNat / 2 ^ (8 * m.off))) poison

/-- A signal that waits on miss slot k waits on it no longer. -/
def sigDrop (k : Nat) (e : Nat × W64 × List Nat) : Nat × W64 × List Nat := (e.1, e.2.1, e.2.2.filter (· != k))

/-- Signals at the front of the queue that wait for nothing leave the tile, in order (R126); the first argument is fuel. -/
def State.sigFlush (s : State) (t : Nat) : Nat → State
  | 0 => s
  | n + 1 =>
    match (s.tile t).sigq with
    | (obj, v, []) :: r => ((s.modTile t fun x => { x with sigq := r }).syncAdd obj v false).sigFlush t n
    | _ => s

/-- A store acknowledged: its slot is free, and signals that waited for it may leave (R126, R231). -/
def State.storeDone (s : State) (t k : Nat) : State :=
  let s := (s.missEnd t k).modTile t fun x => { x with sigq := x.sigq.map (sigDrop k) }
  s.sigFlush t (s.tile t).sigq.length

/-- A hole met by an access in a miss slot: recorded, and the context killed with cause 0x06 (Table 1-6), unless a kill has stopped the tile since. -/
def State.missHole (s : State) (t k gaddr : Nat) : State :=
  match tget (s.tile t).misses k with
  | none => s
  | some m =>
    let s := (s.missEnd t k).hole ⟨.tile, t⟩ (b2n m.store) gaddr
    if m.dead then s else s.kill t 6 2 0 (BitVec.ofNat 64 m.va)

/-- A write of a block of a stopped tile's channel acknowledged; with the last one its translations are given back (R94, R238). -/
def State.deadAck (s : State) (t n : Nat) (d : Nat × List Nat) : State :=
  if d.1 ≤ 1 then (d.2.foldl State.tlbDrop (s.modTile t fun x => { x with dmaDead := tdel x.dmaDead n })).tlbRefRead (t / 32)
  else s.modTile t fun x => { x with dmaDead := tput x.dmaDead n (d.1 - 1, d.2) }

/-- A write of an engine acknowledged: a DMA channel's, under its number, the last of a block giving its translations back (R238); a page move's, under 16 + its descriptor; another unit's, under
its access's number. -/
def State.engAck (s : State) (m : Master) (tag : Nat) : State :=
  if m.cls = .tile then
    match tget (s.tile m.idx).dmaDead tag, tget (s.tile m.idx).dma tag with
    | some d, _ => s.deadAck m.idx tag d
    | none, some d =>
      let isOver := d.left = 0 ∧ d.unacked ≤ 1
      let s := if isOver then (d.held.foldl State.tlbDrop s).tlbRefRead (m.idx / 32) else s
      s.modTile m.idx fun x => { x with dma := tput x.dma tag { d with unacked := d.unacked - 1, held := if isOver then [] else d.held } }
    | none, none => s
  else if m.cls = .hoist ∧ 16 ≤ tag then
    match tget s.store.moves (tag - 16) with
    | some v => { s with store := { s.store with moves := tput s.store.moves (tag - 16) { v with unacked := v.unacked - 1 } } }
    | none => s
  else match tget s.accs tag with
    | some x => { s with accs := tput s.accs tag { x with left := x.left - 1 } }
    | none => s

/-! ### Sources and partitions (R376) -/

/-- The regulated source of an agent (Table 17-2). -/
def srcIdx : Agent → Option Nat
  | .tile t => some (t / 32)
  | .site n => some (132 + n)
  | .host => some 140
  | .other m => match m.cls with
    | .tile => some (m.idx / 32)
    | .hoist => some (68 + m.idx)
    | .site => some (132 + m.idx)
    | .host => some 140
    | .tukosen => some (141 + m.idx)
    | .core => some 149
    | _ => none

/-- The partition of an agent's requests; 16 for an agent that is no source. -/
def State.partOf (s : State) (a : Agent) : Nat := match srcIdx a with | some i => s.fget (R.regSrc i) 3 0 | none => 16

/-- Bytes moved by an agent to or from a home, counted (Table 17-7). -/
def State.countBytes (s : State) (a : Agent) (addr tc n : Nat) : State :=
  if 16 ≤ s.partOf a then s else s.bump (R.regPartBytes (s.partOf a) (s.halfOf addr) (tc % 4)) 64 n

/-- Requests of a partition outstanding toward a half (R385). -/
def State.outstanding (s : State) (half p : Nat) : Nat :=
  let mine (r : CReq) : Bool := s.partOf r.a == p && s.halfOf r.line == half
  (s.txn.filter fun e => mine e.2.r).length + ((s.lineQ.flatMap (·.2)).filter mine).length

/-- FCLK in MHz (Table 1-2), and the bytes that a rate in GB/s is in a window of 64 NCLK. -/
def State.fclk (s : State) : Nat := max 1 (s.fget R.hubIdVariant 31 16)
def State.winBytes (s : State) (rate : Nat) : Nat := rate * 32000 / s.fclk

/-- The class-0 settings of a partition in force toward a half, and what its bucket holds: it refills at the rate, up to the burst (R378). -/
def State.c0Word (s : State) (half p : Nat) : Nat := tgetD s.regC0 (16 * half + p) (s.get (R.regPartC0 p)).toNat
def State.bucket (s : State) (half p : Nat) : Nat :=
  let w := s.c0Word half p
  let burst := 1024 * nbits w 47 32
  match tget s.regBucket (16 * half + p) with
  | none => burst
  | some (b, t) => min burst (b + ((s.get R.hubTimeCount).toNat - t) * ((if half = 0 then nbits w 15 0 else nbits w 31 16) * 16000 / s.fclk))

/-- Bytes that a class of a partition, and a source in classes 1 to 3, have issued in the window in progress. -/
def State.spent (s : State) (half p tc : Nat) : Nat :=
  (s.regSpent.filter fun e : Nat × Nat => e.1 / 640 == half && e.1 % 4 == tc && s.fget (R.regSrc (e.1 % 640 / 4)) 3 0 == p).foldl (fun n e => n + e.2) 0
def State.spentBy (s : State) (half src : Nat) : Nat :=
  tgetD s.regSpent (640 * half + 4 * src + 1) 0 + tgetD s.regSpent (640 * half + 4 * src + 2) 0 + tgetD s.regSpent (640 * half + 4 * src + 3) 0

/-- Whether a source of a partition may issue n bytes of a class toward a half now (R378, R382, R383): before the first window only class 0 is held. A class, or a
source, that has issued nothing in the window issues one request, so that none waits for more than a window without progress (log entry 140). -/
def State.regFits (s : State) (half p src tc n : Nat) : Bool :=
  if tc = 0 then decide (n ≤ s.bucket half p)
  else match tget s.regLim (16 * half + p) with
    | none => true
    | some w =>
      let a := s.spent half p 1
      let b := s.spent half p 2
      let c := s.spent half p 3
      let x := s.spentBy half src
      s.spent half p tc == 0
        || ((x == 0 || decide (x + n ≤ w.each))
          && (if tc = 3 then decide (a + b + c + n ≤ w.all) || decide (64 * (c + n) ≤ w.all)
              else decide (s.spent half p tc + n ≤ if tc = 1 then w.c1 else w.c2) && decide (a + b + n ≤ w.two)))

/-- Whether an agent's request of n bytes toward an address is held by no regulator (R378, R382, R383, R385). -/
def State.regOpen (s : State) (ag : Agent) (a tc n : Nat) : Bool :=
  let p := s.partOf ag
  let h := s.halfOf a
  decide (16 ≤ p) || (region a != .hbm && region a != .scratch)
    || (s.regFits h p ((srcIdx ag).getD 0) (tc % 4) n && (s.fget (R.regPartQ p) 9 0 == 0x3FF || decide (s.outstanding h p < 16 * s.fget (R.regPartQ p) 9 0)))

/-- A request of n bytes issued, counted in its partition's bucket or window. -/
def State.regSpend (s : State) (ag : Agent) (a tc n : Nat) : State :=
  let p := s.partOf ag
  let h := s.halfOf a
  if 16 ≤ p ∨ (region a ≠ .hbm ∧ region a ≠ .scratch) then s
  else if tc % 4 = 0 then { s with regBucket := tput s.regBucket (16 * h + p) (s.bucket h p - n, (s.get R.hubTimeCount).toNat) }
  else
    let k := 640 * h + 4 * (srcIdx ag).getD 0 + tc % 4
    { s with regSpent := tput s.regSpent k (tgetD s.regSpent k 0 + n) }

/-- A class-0 request that its bucket holds back, counted once (R378). -/
def State.regCount (s : State) (ag : Agent) (a tc n : Nat) (counted : Bool) : State :=
  if tc % 4 = 0 ∧ !counted ∧ s.bucket (s.halfOf a) (s.partOf ag) < n then s.bump (R.regPartHeld (s.partOf ag)) 32 1 else s

/-! ### Ways and ages (R190 to R194, R199, R386) -/

/-- The set of an HBM line in its home slice (R192). -/
def setOf (a : Nat) : Nat := nbits (a / 128) 16 7

/-- Whether a granule of a slice is usable cache: cache by mask or promoted, not disabled, and not leaving the cache under a
configuration in progress, which adds ways only when it ends (R207). -/
def State.granCache (s : State) (n g : Nat) : Bool :=
  let c := s.get (R.ssCfg n)
  let stays := match s.ssJob.bind fun j => j.masks with
    | some (mn, ms) => nbit (if n < 128 then mn else ms) g
    | none => true
  !(nbit (fld c 23 16) g) && ((nbit (fld c 31 24) g && stays) || nbit (fld c 15 8) g)

/-- The usable ways of a slice: 8 for each usable cache granule. -/
def State.waysOf (s : State) (n : Nat) : List Nat := (List.range 64).filter fun w => s.granCache n (w / 8)

/-- The lines held in the set of an address, with their keys. -/
def State.setLines (s : State) (a : Nat) : List (Nat × Line) :=
  s.lines.filter fun e => region (128 * e.1) == .hbm && s.homeSlice (128 * e.1) == s.homeSlice a && setOf (128 * e.1) == setOf a

/-- The oldest age among lines. -/
def maxAge (ls : List (Nat × Line)) : Nat := ls.foldl (fun m e => max m e.2.age) 0

/-- The lowest-numbered way among lines of an age. -/
def lowestWay (ls : List (Nat × Line)) (age : Nat) : Option (Nat × Line) :=
  (ls.filter (fun e => e.2.age == age)).foldl (fun b e => match b with
    | some x => if e.2.way < x.2.way then some e else some x
    | none => some e) none

/-- Every line of a set made older by d, up to 3 (R194). -/
def State.ageUp (s : State) (ls : List (Nat × Line)) (d : Nat) : State :=
  { s with lines := s.lines.map fun e => if ls.any (fun x => x.1 == e.1) then (e.1, { e.2 with age := min 3 (e.2.age + d) }) else e }

/-- Whether any agent holds a copy of a line. -/
def Dir.held (d : Dir) : Bool := !d.bench.isEmpty || !d.site.isEmpty || d.host || d.owner.isSome

/-- The entry of a line, changed. -/
def State.modLine (s : State) (l : Nat) (f : Line → Line) : State :=
  match tget s.lines l with
  | some x => { s with lines := tput s.lines l (f x) }
  | none => s

/-! ### Stacks and errors (R211, R212, R216, R201) -/

/-- Slots of a half: channels in slot order (R211). -/
def State.slotList (s : State) (half : Nat) : List (Nat × Nat) :=
  (List.range 32).flatMap fun k => ([0, 1, 2].map (· + 3 * half)).filterMap fun t => if nbit (s.get (R.hbmChmap t)).toNat k then some (t, k) else none

/-- Stack, channel and channel address of an HBM address (R211). -/
def State.stackOf (s : State) (a : Nat) : Nat × Nat × Nat :=
  let sp := (s.get R.hubMapHbmSplit).toNat
  let half := if a < sp then 0 else 1
  let o := if a < sp then a else a - sp
  let ls := s.slotList half
  let q := o / 256
  let (t, c) := ls.getD (q % max 1 ls.length) (0, 0)
  (t, c, q / max 1 ls.length * 256 + o % 256)

/-- Unit and channel address of an HBM error's record: 256 + 32 × stack + channel (R212; log entry 138). -/
def State.hbmUnit (s : State) (a : Nat) : Nat := 256 + 32 * (s.stackOf a).1 + (s.stackOf a).2.1
def State.chanAddr (s : State) (a : Nat) : Nat := (s.stackOf a).2.2

/-- The bus of a pseudo-channel turned, and counted (R217): what waited is served. -/
def State.hbmTurn (s : State) (k : Nat) (b : Bool × Nat × Nat) : State :=
  { s with hbmBus := tput s.hbmBus k (!b.1, b.2.2, 0) }.bump (R.hbmTurn (k / 64)) 64 1

/-- An access of a line at its pseudo-channel (R211, R217): one of the direction the bus does not have waits until 32 of its direction have gone. -/
def State.hbmReq (s : State) (a : Nat) (wr : Bool) : State :=
  if region a ≠ .hbm then s
  else
    let (t, c, q) := s.stackOf a
    let k := 64 * t + 2 * c + q / 128 % 2
    match tget s.hbmBus k with
    | none => { s with hbmBus := tput s.hbmBus k (wr, 1, 0) }
    | some (w, n, m) =>
      let b := if w = wr then (w, n + 1, m) else (w, n, m + 1)
      if 32 ≤ b.2.1 ∧ 0 < b.2.2 then s.hbmTurn k b else { s with hbmBus := tput s.hbmBus k b }

/-- An error recorded for MEM_ERR_READ, and logged where it is uncorrectable (R212). -/
def State.memErrAdd (s : State) (unit addr kind : Nat) : State :=
  let s := { s with memErr := s.memErr ++ [⟨unit, addr, kind, s.get R.hubTimeCount⟩] }
  if kind = 1 then s.log' 1 (if unit < 256 then 15 else 16) 1 [unit, addr] else s

/-- Whether a cached line of HBM is clean and without an owner, so that its error can be mended by a refetch (Table 7-3). -/
def State.refetchable (s : State) (b : Nat) : Bool :=
  match tget s.lines (b / 128) with
  | some x => region b == .hbm && !x.dirty && x.dir.owner.isNone
  | none => false

/-- The errors of one line of HBM or scratchpad met by a read (R201, Table 7-3, R216, R461). -/
def State.meetLine (s : State) (a : Nat) : State :=
  let l := a / 128
  let b := 128 * l
  let inSs := (tget s.lines l).isSome || region b == .scratch
  let s := if s.latentCe.contains b then
      let s := { s with latentCe := sDel s.latentCe b }
      if inSs then (s.bump (R.ssCe (s.sliceOf b)) 32 1).memErrAdd (s.sliceOf b) b 0
      else (s.bump (R.hbmCe (s.stackOf b).1) 32 1).memErrAdd (s.hbmUnit b) (s.chanAddr b) 0
    else s
  if s.latentUe.contains b then
    let s := { s with latentUe := sDel s.latentUe b }
    if s.refetchable b then (s.bump (R.ssUeRefetch (s.sliceOf b)) 32 1).memErrAdd (s.sliceOf b) b 2
    else
      let s := { s with poison := sIns s.poison b }
      let s := if s.libHit b 128 then s.libFail else s
      if inSs then (s.bump (R.ssUe (s.sliceOf b)) 32 1).memErrAdd (s.sliceOf b) b 1
      else (s.bump (R.hbmUe (s.stackOf b).1) 32 1).memErrAdd (s.hbmUnit b) (s.chanAddr b) 1
  else s

/-- The errors of every line that a range of HBM or scratchpad touches met by a read; the first argument is fuel. -/
def State.meetGo (s : State) : Nat → Nat → Nat → State
  | 0, _, _ => s
  | k + 1, a, e => if e ≤ a then s else (s.meetLine a).meetGo k (a + 128) e
def State.meet (s : State) (a n : Nat) : State :=
  if n = 0 ∨ isLm a then s else s.meetGo (n / 128 + 2) (a / 128 * 128) (a + n)

/-- The tag entries of a line's set read: an uncorrectable error poisons every line of the set (Table 7-3). -/
def State.tagMeet (s : State) (a : Nat) : State :=
  let k := 1024 * s.homeSlice a + setOf a
  if s.tagUe.contains k then
    { s with tagUe := sDel s.tagUe k, poison := (s.setLines a).foldl (fun p (e : Nat × Line) => sIns p (128 * e.1)) s.poison }.log' 0 15 5 [s.homeSlice a, setOf a]
  else s

/-! ### The side buffer (R195, R196) -/

/-- The slice whose side buffer holds a line. -/
def State.inSide (s : State) (l : Nat) : Bool := (tgetD s.sideBuf (s.homeSlice (128 * l)) []).contains l

/-- A line taken out of the side buffer. -/
def State.sideDrop (s : State) (l : Nat) : State :=
  let n := s.homeSlice (128 * l)
  { s with sideBuf := tset s.sideBuf n [] ((tgetD s.sideBuf n []).filter (· != l)) }

/-- A line that leaves the side buffer because of a write or a coherence request, counted (R196). -/
def State.sideLose (s : State) (l : Nat) : State :=
  if s.inSide l then (s.sideDrop l).bump (R.ssSbDrop (s.homeSlice (128 * l))) 32 1 else s

/-- A line put in the side buffer: the oldest of 64 leaves, counted (R195, R196). -/
def State.sidePut (s : State) (l : Nat) : State :=
  let n := s.homeSlice (128 * l)
  let b := tgetD s.sideBuf n []
  let s := if b.length < 64 then s else s.bump (R.ssSbDrop n) 32 1
  { s with sideBuf := tset s.sideBuf n [] ((if b.length < 64 then b else b.drop 1) ++ [l]) }

/-- What a lookup meets (Table 7-3): a tag error; an uncorrectable error of a line that only the side buffer holds, which drops it. -/
def State.ssMeet (s : State) (l : Nat) : State :=
  let s := s.tagMeet (128 * l)
  if s.inSide l && (tget s.lines l).isNone && s.latentUe.contains (128 * l) then
    { s with latentUe := sDel s.latentUe (128 * l) }.sideLose l
  else s

/-! ### Availability (R203 to R205) -/

/-- Whether the home of an address takes requests: its overburden has finished invalidation and is not stopped. -/
def State.homeReady (s : State) (a : Nat) : Bool :=
  (s.bget R.hubMemStatus 31 || (!s.ssInv.isEmpty && !s.ssInv.contains (s.halfOf a)))
    && (if s.halfOf a = 0 then s.fget R.hubMemStatus 29 28 else s.fget R.hubMemStatus 27 26) != 2

/-- The half of a source: north for benches 0 to 33, hoists 0 to 31, sites and Tukosen ports 0 to 3, the host and the steward (R11, R13). -/
def agentHalf : Agent → Nat
  | .tile t => t / 32 / 34
  | .site n => n / 4
  | .host => 0
  | .other m => match m.cls with
    | .tile => m.idx / 32 / 34
    | .hoist => m.idx / 32
    | .site => m.idx / 4
    | .tukosen => m.idx / 4
    | .walker => m.idx / 24
    | .core => 1
    | _ => 0

/-- Whether the seam bridge holds what an agent sends toward an address: it lies across the seam, and the bridge is in region reset (R16). -/
def State.seamHeld (s : State) (ag : Agent) (a : Nat) : Bool := s.bget (R.pwrDomStatus 92) 30 && s.halfOf a != agentHalf ag

/-- Whether the stack of an HBM line issues accesses: its home takes requests and the stack is not stopped (R205, R215). -/
def State.stackReady (s : State) (a : Nat) : Bool := s.homeReady a && s.fget (R.hbmStatus (s.stackOf a).1) 27 26 != 2

/-- Whether a half is throttled for the accounting of missed bounds (R388): its overburden or one of its stacks. -/
def State.halfThrottled (s : State) (half : Nat) : Bool :=
  (if half = 0 then s.fget R.hubMemStatus 29 28 else s.fget R.hubMemStatus 27 26) != 0
    || [0, 1, 2].any fun k => s.fget (R.hbmStatus (3 * half + k)) 27 26 != 0

end Sys2Proof.Machine
end

