-- ==== Sys2Proof/Machine/Coh.lean ====
section
/-! DEFINITION. The coherence protocol at the hub's homes (chapter 9): the directory, transactions, snoops and their answers, and the
accesses of engines that the homes order. -/

namespace Sys2Proof.Machine

/-! ### Agents -/

/-- The directory number of an agent (Table 9-2): 0 to 7 a site, 8 the host; others have none. -/
def agentNo : Agent → Option Nat
  | .site n => some n
  | .host => some 8
  | _ => none
def agentOf (k : Nat) : Agent := if k = 8 then .host else .site k

/-- Whether an agent is fenced (R255). -/
def State.fenced (s : State) (k : Nat) : Bool := s.bget (if k = 8 then R.cohHostStatus else R.cohSiteStatus k) 31

/-- Whether a bench's caches hold nothing: it is off or in region reset (R247). -/
def State.benchDown (s : State) (b : Nat) : Bool := !(s.bget (R.pwrDomStatus b) 31) || s.bget (R.pwrDomStatus b) 30

/-- Whether a line is homed at the hub: backed HBM or scratchpad. -/
def State.homed (s : State) (a : Nat) : Bool := s.hbmBacked a || (region a == .scratch && s.scrBacked a)

/-- The directory of a line. -/
def State.dirOf (s : State) (l : Nat) : Dir := (tgetD s.lines l {}).dir

/-- A directory entry without an agent. -/
def Dir.without (d : Dir) (k : Nat) : Dir :=
  { d with site := sDel d.site k, host := d.host && k != 8, fwd := if d.fwd = some k then none else d.fwd
           owner := if d.owner = some k then none else d.owner }

/-- Sites and the host recorded as sharers, other than one. -/
def Dir.others (d : Dir) (k : Option Nat) : List Nat := (d.site ++ (if d.host then [8] else [])).filter fun x => some x != k

/-! ### Snoops and invalidations -/

/-- Snoops of a kind sent to agents: fenced ones count as answered RspI, and a fenced owner's line is poisoned (R255). The answer is
the agents whose answers are awaited. -/
def State.snoop (s : State) (l kind tag : Nat) (ks : List Nat) : State × List Nat :=
  let live := ks.filter fun k => !s.fenced k
  let gone := ks.filter s.fenced
  let s := gone.foldl (fun s k =>
    let s := if (s.dirOf l).owner = some k then { s with poison := sIns s.poison (128 * l) } else s
    s.modLine l fun x => { x with dir := x.dir.without k }) s
  (live.foldl (fun s k => (s.toAgent (agentOf k) (128 * l) poolSnp (.snoop (agentOf k) (128 * l) tag kind)).bump R.cohCntSnoop 64 1) s, live)

/-- Bench invalidations sent: benches that hold nothing have acknowledged when sent (R247). -/
def State.invBenches (s : State) (l : Nat) (bs : List Nat) : State × List Nat :=
  let live := bs.filter fun b => !s.benchDown b
  let s := if bs.isEmpty then s else s.bump R.cohCntBenchInv 64 bs.length
  (s.modLine l fun x => { x with dir := { x.dir with bench := x.dir.bench.filter live.contains } }, live)

/-- A recall started (R193, Table 9-4): every copy invalidated; with none held it has nothing to await. -/
def State.recallStart (s : State) (k : ReqK) (l : Nat) : State × Txn :=
  let d := s.dirOf l
  let (s, bs) := s.invBenches l d.bench
  let (s, ks) := s.snoop l 1 0 (d.others none ++ d.owner.toList)
  (s, { r := { k := k, a := .other ⟨.steward, 0⟩, line := 128 * l }, benches := bs, agents := ks })

/-- A line that leaves the state store: its entry removed; what it held is in HBM, a dirty one by a write (R193). -/
def State.lineOut (s : State) (l : Nat) : State :=
  { (match tget s.lines l with | some x => if x.dirty then s.hbmReq (128 * l) true else s | none => s) with lines := tdel s.lines l }

/-- A victim evicted: at once where no agent holds it, else by a recall, which is counted. -/
def State.ssEvict (s : State) (l : Nat) : State :=
  if (s.dirOf l).held then
    let (s, t) := s.recallStart .recall l
    let s := s.bump R.cohCntRecall 64 1
    if t.benches.isEmpty && t.agents.isEmpty then s.lineOut l else { s with txn := tput s.txn l t }
  else s.lineOut l

/-- The way that a line filled by a partition can take (R194, R386): a free one, else a victim's, with every line of the set made older until a candidate is
of age 3, and the lowest-numbered of those. `some (some l)`: line l leaves first; `none`: no way can be had while transactions and recalls of the set run. -/
def State.ssVictim (s : State) (l part : Nat) : Option (Option Nat) :=
  let a := 128 * l
  let ways := s.waysOf (s.homeSlice a)
  let ls := s.setLines a
  let own := ls.filter fun e => e.2.part == part
  let lim := if part < 16 then s.fget (R.regPartSs part) 6 0 else 64
  let xs := if lim < ways.length ∧ lim ≤ own.length then own else ls
  if lim ≥ ways.length ∧ ways.isEmpty then some none
  else if ¬ (lim < ways.length ∧ lim ≤ own.length) ∧ ways.any (fun w => !(ls.any fun e => e.2.way == w)) then some none
  else if xs.any (fun e => match tget s.txn e.1 with | some t => t.r.k == .recall | none => false) then none
  else
    let cs := xs.filter fun e => (tget s.txn e.1).isNone
    (lowestWay cs (maxAge cs)).map fun v => some v.1

/-- Room made for a line (R193): a victim that other agents hold is recalled first. Whether a way is free. -/
def State.ssRoom (s : State) (l part : Nat) : State × Bool :=
  match s.ssVictim l part with
  | none => (s, false)
  | some none => (s, true)
  | some (some v) =>
    let age := match tget s.lines v with | some x => x.age | none => 3
    let s := (s.ageUp (s.setLines (128 * l)) (3 - age)).ssEvict v
    (s, (tget s.lines v).isNone)

/-- A line put in a free way of the state store with an age and the partition that fills it (R194, R386). -/
def State.ssInsert (s : State) (l age part : Nat) (dirty : Bool) : State :=
  let ways := s.waysOf (s.homeSlice (128 * l))
  let ls := s.setLines (128 * l)
  let w := ((ways.find? fun w => !(ls.any fun e => e.2.way == w))).getD (ways.headD 0)
  { s with lines := tput s.lines l { way := w, age := age, dirty := dirty, part := part } }

/-! ### Answers -/

/-- An answer sent to a requester; an engine's is taken at once. -/
def State.answer (s : State) (r : CReq) (k : AnsK) (data : BitVec 1024) (poison copy : Bool) (reason : Nat) : State :=
  match r.a with
  | .other _ =>
    if r.k = .atomic then
      match tget s.accs r.tag with
      | some x => { s with accs := tput s.accs r.tag { x with res := some (data.toNat / 2 ^ (8 * r.off) % 2 ^ (8 * r.size), poison) } }
      | none => s
    else { s with curData := tput s.curData (r.line / 128) (data, poison) }
  | a =>
    let old := data.toNat / 2 ^ (8 * r.off) % 2 ^ (8 * r.size) * 2 ^ (8 * (r.off % 64))
    let (d, n) := if r.k = .atomic then (BitVec.ofNat 1024 old, 64) else (data, 128)
    { s with ans := s.ans ++ [⟨a, r.line, r.tag, k, d, poison, reason, copy, r.tc, n⟩] }

/-- The completion Cmp of a write or eviction (R259): acknowledged to the unit that wrote. -/
def State.answerCmp (s : State) (r : CReq) : State :=
  match r.a with
  | .tile t => s.storeDone t r.tag
  | .other m => s.engAck m r.tag
  | .host => { s with cfg := { s.cfg with hostTag := tdel s.cfg.hostTag r.tag } }.emit (.memCmp (tgetD s.cfg.hostTag r.tag (2 * r.line) / 2) r.tag 0)
  | a => s.toAgent a r.line poolRsp (.complete a r.line r.tag 4 [] false)

/-- The 128 bytes of a line as a number, and its poison. -/
def State.lineData (s : State) (a : Nat) : BitVec 1024 := BitVec.ofNat 1024 (leNat (s.read (a / 128 * 128) 128))

/-- Bytes merged under a mask, the lowest byte first; the first argument counts them. -/
def mergeBytes : Nat → Nat → List Byte → Nat → List Byte
  | 0, _, _, _ => []
  | n + 1, m, o, d => (if m % 2 = 1 then BitVec.ofNat 8 d else o.headD 0) :: mergeBytes n (m / 2) (o.drop 1) (d / 256)

/-- One element of a RED combined (R315): 1 sum, 2 max, 3 min; FP32, BF16 or INT32. A sum rounds once, RNE. -/
def redElem (op fmt x y : Nat) : Nat :=
  match fmt with
  | 0 => if op = 1 then (fAdd false 0 x y).1 else if op = 2 then fMax x y else fMin x y
  | 1 =>
    if op = 1 then (convElem 1 false 0 0 (Num.add 0 (decode 1 x) (decode 1 y)).1).1
    else (if op = 2 then fMax (x * 65536) (y * 65536) else fMin (x * 65536) (y * 65536)) / 65536
  | _ =>
    if op = 1 then (x + y) % 2 ^ 32
    else if op = 2 then (if sext 32 x < sext 32 y then y else x)
    else (if sext 32 x < sext 32 y then x else y)
/-- The elements of a line combined with those of a payload. -/
def redLine (op fmt : Nat) (old data : BitVec 1024) : BitVec 1024 :=
  let w := if fmt = 1 then 16 else 32
  BitVec.ofNat 1024 ((List.range (1024 / w)).foldl (fun v i =>
    v + redElem op fmt (old.toNat / 2 ^ (w * i) % 2 ^ w) (data.toNat / 2 ^ (w * i) % 2 ^ w) % 2 ^ w * 2 ^ (w * i)) 0)

/-- A write performed at a line's home: whole, or merged (R201, R251). -/
def State.lineWrite (s : State) (a : Nat) (mask : BitVec 128) (data : BitVec 1024) (poison : Bool) : State :=
  let full := mask = BitVec.allOnes 128
  let s := if full then s else s.meetLine a
  let bad := poison || (!full && s.poison.contains a)
  let s := s.write a (mergeBytes 128 mask.toNat (s.read a 128) data.toNat) bad
  s.modLine (a / 128) fun x => { x with dirty := region a == .hbm }

/-- Dirty data that a snoop or an eviction brings, written into the array (R251). -/
def State.wbWrite (s : State) (l : Nat) (data : BitVec 1024) (poison : Bool) : State :=
  (s.write (128 * l) (leBytes 128 data.toNat) poison).modLine l fun x => { x with dirty := region (128 * l) == .hbm }

/-! ### The life of a transaction -/

/-- The bench of a writer that keeps its bit (Table 9-4). -/
def CReq.keepBench (r : CReq) : List Nat := match r.a with | .tile t => [t / 32] | _ => []

/-- The entry a write leaves: DI, or DS with the writer's bench alone. -/
def Dir.afterWrite (d : Dir) (r : CReq) : Dir := { bench := d.bench.filter r.keepBench.contains }

/-- The entry once a requester shares a line. -/
def Dir.share (d : Dir) (a : Agent) (fwd : Bool) : Dir :=
  match a with
  | .tile t => { d with bench := sIns d.bench (t / 32), owner := none }
  | .site n => { d with site := sIns d.site n, fwd := if fwd then some n else d.fwd, owner := none }
  | .host => { d with host := true, owner := none }
  | .other _ => d

/-- A line whose last copy and use are gone: a scratchpad line without copies needs no entry. -/
def State.lineTidy (s : State) (l : Nat) : State :=
  if region (128 * l) == .scratch && !(s.dirOf l).held then s.lineOut l else s

/-- A recall that has finished: the line leaves the store, and a job that waited for it goes on. -/
def State.jobNext (s : State) (l written : Nat) : State :=
  match s.ssJob with
  | some j => if j.left.contains l then { s with ssJob := some { j with left := sDel j.left l, written := j.written + written } } else s
  | none => s

/-- What a request comes to once every snoop and invalidation of it has been answered (Table 9-4); nothing, where its requester has been fenced since (R255). -/
def State.cohEnd (s : State) (t : Txn) : State :=
  let r := t.r
  let l := r.line / 128
  let s := { s with txn := tdel s.txn l }
  if r.void then s.lineTidy l else
  let s := (match r.k with | .wrFull => s | .recall => s | .purge => s | _ => s.meetLine r.line)
  let d := s.dirOf l
  let data := s.lineData r.line
  let bad := s.poison.contains r.line
  let setDir (s : State) (x : Dir) : State := s.modLine l fun y => { y with dir := x }
  let n := if r.k = .atomic then r.size else 128
  let s := match r.k with | .recall => s | .purge => s | _ => s.countBytes r.a r.line r.tc n
  match r.k with
  | .rdShared =>
    match r.a with
    | .tile _ => (setDir s (d.share r.a false)).answer r .datS data bad true 0
    | .site _ =>
      if !d.held && t.cur.isNone then
        (setDir s { owner := agentNo r.a }).answer r .datC data bad true 0
      else if t.fwdDone then (setDir s (d.share r.a true)).bump R.cohCntFwd 64 1
      else if r.fwd then (setDir s (d.share r.a true)).answer r .datF data bad true 0
      else (setDir s (d.share r.a false)).answer r .datS data bad true 0
    | .host =>
      if d.held || t.cur.isSome then (setDir s (d.share r.a false)).answer r .datS data bad true 0
      else (setDir s { owner := some 8 }).answer r .datC data bad true 0
    | .other _ => s.answer r .datS data bad false 0
  | .rdUnique => (setDir s { owner := agentNo r.a }).answer r .datC data bad true 0
  | .upgrade => (setDir s { owner := agentNo r.a }).answer r .cmpE 0 false true 0
  | .rdNoAlloc =>
    match t.cur with
    | some (x, p) => (s.lineTidy l).answer r .datS x p false 0
    | none => (s.lineTidy l).answer r .datS data bad false 0
  | .wrFull => ((setDir (s.lineWrite r.line (BitVec.allOnes 128) r.data r.poison) (d.afterWrite r)).lineTidy l).answerCmp r
  | .wrPart =>
    let s := if r.red = 0 then s.lineWrite r.line r.mask r.data r.poison
      else s.lineWrite r.line r.mask (redLine r.red r.fmt data r.data) (r.poison || bad)
    ((setDir s (d.afterWrite r)).lineTidy l).answerCmp r
  | .atomic =>
    let old := leNat (s.read (r.line + r.off) r.size)
    let new := atomicVal r.aop r.size old r.operand.toNat r.compare.toNat
    let m := BitVec.ofNat 128 ((2 ^ r.size - 1) * 2 ^ r.off)
    let s := s.lineWrite r.line m (BitVec.ofNat 1024 (new * 2 ^ (8 * r.off))) r.poison
    ((setDir s (d.afterWrite r)).lineTidy l).answer r .datS data bad false 0
  | .evictClean => s
  | .evictDirty => s
  | .recall =>
    let w := match tget s.lines l with | some x => x.dirty | none => false
    (s.lineOut l).jobNext l (b2n w)
  | .purge => (s.lineOut l).jobNext l 0

/-- A transaction kept while it waits, ended when it does not. -/
def State.cohWait (s : State) (t : Txn) : State :=
  if t.benches.isEmpty && t.agents.isEmpty && !t.fill then s.cohEnd t else { s with txn := tput s.txn (t.r.line / 128) t }

/-- "Invalidate others" (R251), and a snoop of the owner. -/
def State.invOthers (s : State) (r : CReq) : State :=
  let l := r.line / 128
  let d := s.dirOf l
  let (s, bs) := s.invBenches l d.bench
  let (s, ks) := s.snoop l 1 r.tag (d.others (agentNo r.a) ++ d.owner.toList.filter (fun k => some k != agentNo r.a))
  s.cohWait { r := r, benches := bs, agents := ks }

/-- An eviction announced (Table 9-4, Table 9-5): data of an agent that is not the owner is discarded; an unrecorded agent is
counted. -/
def State.cohEvict (s : State) (r : CReq) : State :=
  let l := r.line / 128
  let d := s.dirOf l
  match agentNo r.a with
  | none => s
  | some k =>
    let known := d.owner == some k || (d.others none).contains k
    let s := if known then s else s.bump R.cohCntStaleEvict 32 1
    let s := if r.k = .evictDirty ∧ d.owner = some k then
        (if r.mask = 0 then s.wbWrite l r.data r.poison else s.lineWrite r.line r.mask r.data r.poison)
      else s
    let gone := match r.k with | .evictDirty => d.owner == some k | _ => known
    let s := if gone then s.modLine l fun x => { x with dir := x.dir.without k } else s
    (s.lineTidy l).answerCmp r

/-- A request processed against the line's directory state (Table 9-4); the line is in the store. -/
def State.cohGo (s : State) (r : CReq) : State :=
  let l := r.line / 128
  let d := s.dirOf l
  if r.void then s.cohEnd { r := r } else
  match r.k with
  | .evictClean => s.cohEvict r
  | .evictDirty => s.cohEvict r
  | .rdShared =>
    match d.owner, d.fwd, r.a with
    | some x, _, _ =>
      let (s, ks) := s.snoop l 2 r.tag ([x].filter fun k => some k != agentNo r.a)
      s.cohWait { r := r, agents := ks, cur := some (0, false) }
    | none, some y, .site n =>
      if y ≠ n ∧ r.fwd then
        let (s, ks) := s.snoop l 4 (4096 * n + r.tag) [y]
        s.cohWait { r := r, agents := ks, cur := some (0, false) }
      else s.cohEnd { r := r }
    | none, _, _ => s.cohEnd { r := r }
  | .rdNoAlloc =>
    match d.owner with
    | some x =>
      let (s, ks) := s.snoop l 3 r.tag [x]
      s.cohWait { r := r, agents := ks }
    | none => s.cohEnd { r := r }
  | .upgrade =>
    let rec' := match agentNo r.a with | some k => d.owner.isNone && (d.others none).contains k | none => false
    if rec' then s.invOthers r else s.invOthers { r with k := .rdUnique }
  | .recall => s
  | .purge => s
  | _ => s.invOthers r

/-- Whether a request reads data, and the age at which its fill enters: that of a non-allocating snoop read is 3 (Table 7-1). -/
def ReqK.reads : ReqK → Bool
  | .rdShared => true
  | .rdNoAlloc => true
  | _ => false
def CReq.fillAge (r : CReq) : Nat :=
  match r.k, r.a with
  | .rdNoAlloc, .tile _ => 1
  | .rdNoAlloc, .host => 1
  | .rdNoAlloc, _ => 3
  | _, _ => 1

/-- A request put at the front of its line's queue: nothing of the line runs, and a way of its set is awaited. -/
def State.lineHold (s : State) (r : CReq) : State := { s with lineQ := tput s.lineQ (r.line / 128) (r :: tgetD s.lineQ (r.line / 128) []) }

/-- A demand miss, counted and kept for the stream detector (R195). -/
def State.ssMissed (s : State) (l : Nat) : State := { (s.bump (R.ssMiss (s.homeSlice (128 * l))) 64 1) with missed := (l :: s.missed).take 16 }

/-- A request that its home takes up: a hit goes on; a miss fills first, but a whole-line write needs no data (R193); a side-buffer
line moves in on a demand read and is dropped otherwise (R196). A partition whose way limit is 0 reads without allocation (R386). -/
def State.cohTake (s : State) (r : CReq) : State :=
  let l := r.line / 128
  let part := s.partOf r.a
  let r := { r with fwd := s.bget R.cohCtrl 31 }
  if r.k = .recall ∨ r.k = .purge then
    if (tget s.lines l).isSome then
      let (s, t) := s.recallStart r.k l
      s.cohWait t
    else s.jobNext l 0
  else if region r.line = .scratch then
    if (tget s.lines l).isSome then s.cohGo r else { s with lines := tput s.lines l { part := part } }.cohGo r
  else
    let s := s.ssMeet l
    if (tget s.lines l).isSome then
    let ev := r.k = .evictClean ∨ r.k = .evictDirty
    let s := if ev then s else (s.bump (R.ssHit (s.homeSlice r.line)) 64 1).modLine l fun x => { x with age := 0 }
    s.cohGo r
    else
    match r.k with
    | .evictClean => s.cohEvict r
    | .evictDirty => s.cohEvict r
    | _ =>
      if s.inSide l && r.k.reads then
        let n := s.homeSlice r.line
        match s.ssRoom l part with
        | (s, true) => (((s.sideDrop l).bump (R.ssSbHit n) 32 1).bump (R.ssHit n) 64 1 |>.ssInsert l r.fillAge part false).cohGo r
        | (s, false) => s.lineHold r
      else if r.k = .wrFull then
        match s.ssRoom l part with
        | (s, true) => (((s.sideLose l).ssMissed l).ssInsert l 1 part true).cohGo r
        | (s, false) => s.lineHold r
      else { ((s.sideLose l).ssMissed l) with txn := tput s.txn l { r := r, fill := true } }

/-- Whether a request on a line waits: behind a transaction or an older request on it, or while its home takes none (R203, R205, R249). -/
def State.lineBusy (s : State) (l : Nat) : Bool := (tget s.txn l).isSome || !(tgetD s.lineQ l []).isEmpty || !s.homeReady (128 * l)

/-- Whether a request reaching its home waits: its line is busy, or the seam holds it (R16). -/
def State.reqWaits (s : State) (r : CReq) : Bool := s.lineBusy (r.line / 128) || s.seamHeld r.a r.line

/-- A request reaching its home (R249): refused from a fenced agent (R255), queued where its line is busy, else taken up. -/
def State.cohReq (s : State) (r : CReq) : State :=
  let l := r.line / 128
  match agentNo r.a with
  | some k => if s.fenced k then s.answer r .rspErr 0 false false 1
    else if s.reqWaits r then { s with lineQ := tput s.lineQ l (tgetD s.lineQ l [] ++ [r]) }
    else s.cohTake r
  | none =>
    if s.reqWaits r then { s with lineQ := tput s.lineQ l (tgetD s.lineQ l [] ++ [r]) }
    else s.cohTake r

/-- The next request of a line's queue taken up once the transaction before it has ended (R249). -/
def State.lineResume (s : State) (l : Nat) : State :=
  match tgetD s.lineQ l [] with
  | [] => s
  | r :: q => if (tget s.txn l).isSome || !s.homeReady r.line || s.seamHeld r.a r.line then s else { s with lineQ := tset s.lineQ l [] q }.cohTake r

/-! ### Answers to snoops -/

/-- Whether a transaction awaits an agent. -/
def State.awaits (s : State) (a : Agent) (l : Nat) : Option (Nat × Txn) :=
  match agentNo a, tget s.txn l with
  | some k, some t => if t.agents.contains k then some (k, t) else none
  | _, _ => none

/-- An agent's answer taken: it is awaited no longer. -/
def Txn.heard (t : Txn) (k : Nat) : Txn := { t with agents := sDel t.agents k }

/-- RspI: the agent holds the line no longer. -/
def State.rspI (s : State) (a : Agent) (l : Nat) : State :=
  match s.awaits a l with
  | none => s
  | some (k, t) => (s.modLine l fun x => { x with dir := x.dir.without k }).cohWait (t.heard k)

/-- RspS: after SnpShare the agent shares the line; after SnpCur it keeps it. -/
def State.rspS (s : State) (a : Agent) (l : Nat) : State :=
  match s.awaits a l with
  | none => s
  | some (k, t) =>
    if t.r.k = .rdShared then
      (s.modLine l fun x => { x with dir := { x.dir with
        owner := if x.dir.owner = some k then none else x.dir.owner
        fwd := if x.dir.fwd = some k then none else x.dir.fwd
        site := if k = 8 then x.dir.site else sIns x.dir.site k, host := x.dir.host || k == 8 } }).cohWait (t.heard k)
    else s.cohWait (t.heard k)

/-- RspFwd: the F holder has answered the reader and shares the line. -/
def State.rspFwd (s : State) (a : Agent) (l : Nat) : State :=
  match s.awaits a l with
  | none => s
  | some (k, t) =>
    if t.r.k = .rdShared ∧ (s.dirOf l).fwd = some k then
      (s.modLine l fun x => { x with dir := { x.dir with fwd := none } }).cohWait { t.heard k with fwdDone := true }
    else s

/-- DatWb: dirty data into the array, but for a whole-line write or a discard (Table 9-4, R207); an eviction that crosses a SnpCur sends it too (R254). -/
def State.datWb (s : State) (a : Agent) (l : Nat) (data : BitVec 1024) (poison : Bool) : State :=
  match s.awaits a l with
  | none => s
  | some (_, t) => if t.r.k = .wrFull ∨ t.r.k = .purge then s else s.wbWrite l data poison

/-- DatCur: current data, the state kept. -/
def State.datCur (s : State) (a : Agent) (l : Nat) (data : BitVec 1024) (poison : Bool) : State :=
  match s.awaits a l with
  | none => s
  | some (k, t) => if t.r.k = .rdNoAlloc then s.cohWait { t.heard k with cur := some (data, poison) } else s

/-- A miss of a tile that an invalidation of its line meets is not allocated (R246). -/
def missStale (l : Nat) (e : Nat × Miss) : Nat × Miss :=
  (e.1, if e.2.line = 128 * l ∧ !e.2.store then { e.2 with stale := true } else e.2)

/-- A line dropped by one tile's cache (R245, R246). -/
def State.tileInv (s : State) (l t : Nat) : State :=
  s.modTile t fun x => { x with cache := x.cache.filter (fun e => e.2.line != 128 * l), misses := x.misses.map (missStale l) }

/-- An invalidation reaching a bench: passed to every tile but the writer, and acknowledged (R245). -/
def State.benchInv (s : State) (b l : Nat) (writer : Option Nat) : State :=
  let s := ((List.range 32).filter (fun i => writer != some (32 * b + i))).foldl (fun s i => s.tileInv l (32 * b + i)) s
  match tget s.txn l with
  | some t =>
    if t.benches.contains b then
      let s := if t.r.keepBench.contains b then s else s.modLine l fun x => { x with dir := { x.dir with bench := sDel x.dir.bench b } }
      s.cohWait { t with benches := sDel t.benches b }
    else { s with binv := s.binv.erase (b, l) }
  | none => { s with binv := s.binv.erase (b, l) }

/-! ### Fences (R255) -/

/-- A pending snoop to a fenced agent taken as RspI, its line poisoned where the agent owned it. -/
def State.fenceTxn (s : State) (k l : Nat) : State :=
  match tget s.txn l with
  | none => s
  | some t =>
    if t.agents.contains k then (s.modLine l fun x => { x with dir := x.dir.without k }).cohWait (t.heard k) else s

/-- Whether an address lies in a site's window. -/
def inWindow (n a : Nat) : Bool := region a == .site n

/-- Tile-cache lines of a site's window dropped (R258). -/
def dropWindow (n : Nat) (e : Nat × Tile) : Nat × Tile := (e.1, { e.2 with cache := e.2.cache.filter fun c : Nat × CLine => !inWindow n c.2.line })

/-- Whether a request is one of an agent that its home has not answered, and a transaction whose requester is fenced: it changes nothing more for it. -/
def CReq.isOf (k : Nat) (r : CReq) : Bool := agentNo r.a == some k && !r.void
def Txn.voided (k : Nat) (e : Nat × Txn) : Nat × Txn := (e.1, if e.2.r.isOf k then { e.2 with r := { e.2.r with void := true } } else e.2)

/-- Every request of an agent, queued or in progress, answered RspErr (R255). -/
def State.refuseAll (s : State) (k : Nat) : State :=
  let rs := ((s.txn.map fun e : Nat × Txn => e.2.r) ++ s.lineQ.flatMap (·.2) ++ s.regQ.map (·.1)).filter (CReq.isOf k)
  let s := { s with regQ := s.regQ.filter (fun e => !e.1.isOf k), txn := s.txn.map (Txn.voided k), lineQ := (s.lineQ.map fun e : Nat × List CReq => (e.1, e.2.filter fun r => !r.isOf k)).filter fun e => !e.2.isEmpty }
  rs.foldl (fun s r => s.answer r .rspErr 0 false false 1) s

/-- An agent fenced: the lines it owned are poisoned at their homes, its own requests are answered RspErr, pending snoops to it count as answered, and benches
drop the lines of a site's window (R258). -/
def State.fence (s : State) (k : Nat) : State :=
  let s := { s with tiles := if k = 8 then s.tiles else s.tiles.map (dropWindow k) }
  let s := s.bset (if k = 8 then R.cohHostStatus else R.cohSiteStatus k) 31 true
  let owned := (s.lines.filter fun e => e.2.dir.owner == some k).map (·.1)
  let s := { s with poison := owned.foldl (fun p l => sIns p (128 * l)) s.poison }.refuseAll k
  (s.txn.map (·.1)).foldl (fun s l => s.fenceTxn k l) s

/-- The sweep of a site reset: the site leaves every directory entry (R255). -/
def State.sweep (s : State) (k : Nat) : State :=
  { s with lines := s.lines.map fun e => (e.1, { e.2 with dir := e.2.dir.without k }) }

/-- SNOOP_TIMEOUT (R255): an agent that has a snoop unanswered is fenced, counted and logged. -/
def State.snoopTimeout (s : State) (a : Agent) : State :=
  match agentNo a with
  | none => s
  | some k =>
    if s.txn.any (fun e => e.2.agents.contains k) then
      let r := if k = 8 then R.cohHostStatus else R.cohSiteStatus k
      ((s.fset r 15 0 (satInc 16 (s.fget r 15 0) 1)).log' 1 (if k = 8 then 10 else 12) 2 [k]).fence k
    else s

/-! ### Engines (R256, R314): reads and writes that the homes order -/

/-- The line numbers that n bytes from a touch. -/
def linesOf (a n : Nat) : List Nat := (List.range ((a % 128 + n + 127) / 128)).map fun i => a / 128 + i

/-- Whether an engine can read a line now: its current data has been brought; or its home takes requests, nothing of it is in progress or queued (R249), no
agent owns it, and it is in the store or its stack issues accesses (R215). -/
def State.lineReady (s : State) (m : Master) (l : Nat) : Bool :=
  (tget s.curData l).isSome
    || (!s.lineBusy l && !s.seamHeld (.other m) (128 * l) && (s.dirOf l).owner.isNone && ((tget s.lines l).isSome || s.inSide l || region (128 * l) != .hbm || s.stackReady (128 * l)))

/-- Lines of a range that another agent owns and whose current data has not been brought. -/
def State.ownedIn (s : State) (a n : Nat) : List Nat :=
  (linesOf a n).filter fun l => (s.dirOf l).owner.isSome && (tget s.curData l).isNone

/-- Whether an engine can read a range now. -/
def State.engReady (s : State) (m : Master) (a n : Nat) : Bool := (region a != .hbm && region a != .scratch) || (linesOf a n).all (s.lineReady m)

/-- RdNoAlloc sent for the owned lines of a range, once each (R251). -/
def State.engAsk (s : State) (m : Master) (a n tc : Nat) : State :=
  (s.ownedIn a n).foldl (fun s l =>
    if (match tget s.txn l with | some t => t.r.k == .rdNoAlloc && t.r.a == .other m | none => false)
        || (tgetD s.lineQ l []).any (fun r => r.k == .rdNoAlloc && r.a == .other m) then s
    else s.cohReq { k := .rdNoAlloc, a := .other m, line := 128 * l, tc := tc }) s

/-- One line of HBM or scratchpad read or written by an engine, as the state store sees it: a hit, a side-buffer hit, a whole-line write, which enters where a way
is free, or a miss whose fill is asked; a read fills at an age of Table 7-1. -/
def State.ssTouch (s : State) (ag : Agent) (l tc n age : Nat) (wr : Bool) : State :=
  let a := 128 * l
  let s := (s.countBytes ag a tc n).regSpend ag a tc n
  if region a ≠ .hbm then s
  else
    let s := s.ssMeet l
    if (tget s.lines l).isSome then
      (s.bump (R.ssHit (s.homeSlice a)) 64 1).modLine l fun x => { x with age := 0, dirty := x.dirty || wr }
    else if wr then ((s.sideLose l).ssMissed l).ssInsert l 1 (s.partOf ag) true
    else if s.inSide l then
      let s := (s.bump (R.ssSbHit (s.homeSlice a)) 32 1).bump (R.ssHit (s.homeSlice a)) 64 1
      match s.ssRoom l (s.partOf ag) with
      | (s, true) => (s.sideDrop l).ssInsert l age (s.partOf ag) false
      | (s, false) => s
    else { (s.ssMissed l) with fills := tput s.fills l (age, s.partOf ag) }

/-- The bytes an engine reads from a range that is ready, with the current data of owned lines over the array, and their poison; misses fill at an age. -/
def State.engReadAt (s : State) (m : Master) (a n tc age : Nat) : List Byte × Bool × State :=
  if region a ≠ .hbm ∧ region a ≠ .scratch then (s.read a n, s.poisoned a n, s)
  else
    let ls := linesOf a n
    let s := ls.foldl (fun s l => s.ssTouch (.other m) l tc (min n 128) age false) (s.meet a n)
    let one (l : Nat) : List Byte := match tget s.curData l with
      | some (d, _) => leBytes 128 d.toNat
      | none => s.read (128 * l) 128
    let bad := ls.any fun l => match tget s.curData l with | some (_, p) => p | none => s.poisoned (128 * l) 128
    (((ls.flatMap one).drop (a % 128)).take n, bad, { s with curData := ls.foldl (fun t l => tdel t l) s.curData })

/-- A read that does not allocate: its fills are the next victims. -/
def State.engRead (s : State) (m : Master) (a n tc : Nat) : List Byte × Bool × State := s.engReadAt m a n tc 3

/-- A mask of n bytes from offset o. -/
def byteMask (o n : Nat) : BitVec 128 := BitVec.ofNat 128 ((2 ^ n - 1) * 2 ^ o)

/-- A write of an engine to one line, as a request to its home whose acknowledgement is awaited. -/
def engWr (m : Master) (tag l o tc : Nat) (bs : List Byte) (poison : Bool) : CReq :=
  { k := if o = 0 ∧ bs.length = 128 then .wrFull else .wrPart, a := .other m, line := 128 * l, tag := tag, tc := tc
    mask := byteMask o bs.length, data := BitVec.ofNat 1024 (leNat bs * 2 ^ (8 * o)), poison := poison }

/-- Whether an engine's write of a line is a request: an agent holds the line, it is busy, or a part of it misses and HBM is read first (R193). -/
def State.engAsks (s : State) (m : Master) (l : Nat) (full : Bool) : Bool :=
  (s.dirOf l).held || s.lineBusy l || s.seamHeld (.other m) (128 * l) || (!full && region (128 * l) == .hbm && (tget s.lines l).isNone)

/-- One line written by an engine: at once, or as a request, also where no way of its set is free. The answer is the number of acknowledgements awaited. -/
def State.engWrite1 (s : State) (m : Master) (tag l o tc : Nat) (bs : List Byte) (poison : Bool) : State × Nat :=
  let full := decide (o = 0 ∧ bs.length = 128)
  if s.engAsks m l full then ((s.regSpend (.other m) (128 * l) tc bs.length).cohReq (engWr m tag l o tc bs poison), 1)
  else
    let r := if (tget s.lines l).isSome ∨ region (128 * l) ≠ .hbm then (s, true) else s.ssRoom l (s.partOf (.other m))
    if !r.2 then ((r.1.regSpend (.other m) (128 * l) tc bs.length).cohReq (engWr m tag l o tc bs poison), 1)
    else
      let s := r.1.ssTouch (.other m) l tc bs.length 1 true
      ((if full then s else s.meetLine (128 * l)).write (128 * l + o) bs poison, 0)

/-- Bytes written by an engine, line by line; the first argument is fuel. -/
def State.engWriteGo (s : State) (m : Master) (tag tc : Nat) (poison : Bool) : Nat → Nat → List Byte → State × Nat
  | 0, _, _ => (s, 0)
  | _, _, [] => (s, 0)
  | f + 1, a, bs =>
    let k := 128 - a % 128
    let (s, n) := s.engWrite1 m tag (a / 128) (a % 128) tc (bs.take k) poison
    let (s, r) := s.engWriteGo m tag tc poison f (a + k) (bs.drop k)
    (s, n + r)
def State.engWrite (s : State) (m : Master) (tag a tc : Nat) (bs : List Byte) (poison : Bool) : State × Nat :=
  if region a ≠ .hbm ∧ region a ≠ .scratch then (s.write a bs poison, 0)
  else s.engWriteGo m tag tc poison (bs.length / 128 + 2) a bs

/-! ### Requests held at a port (R376 to R378) -/

/-- Bytes of a request of a chiplet or of the host. -/
def CReq.bytes (r : CReq) : Nat := if r.a = .host then 64 else if r.k = .atomic then r.size else 128

/-- A request sent to its home, unless one of its agent and class is held before it or a regulator holds it; a class-0 one that its bucket holds is counted
once. -/
def State.regOne (s : State) (e : CReq × Bool) : State :=
  let r := e.1
  if s.regQ.any fun x => x.1.a == r.a && x.1.tc == r.tc then { s with regQ := s.regQ ++ [e] }
  else if s.regOpen r.a r.line r.tc r.bytes then (s.regSpend r.a r.line r.tc r.bytes).cohReq r
  else
    let short := r.tc % 4 == 0 && decide (s.bucket (s.halfOf r.line) (s.partOf r.a) < r.bytes)
    let t := s.regCount r.a r.line r.tc r.bytes e.2
    { t with regQ := t.regQ ++ [(r, e.2 || short)] }

/-- Requests that were held looked at again, oldest first. -/
def State.regPump (s : State) : State := s.regQ.foldl State.regOne { s with regQ := [] }

/-! ### Snoops of chiplet homes (R257) -/

/-- A message about a line that a chiplet homes, given to that chiplet: kind 7 DatWb, 8 DatCur, 9 RspI, 10 RspS, 11 RspFwd.
Snoops have one pool and no class; the data answers them in class 1 (log entry 146). -/
def State.toHome (s : State) (m l tag kind : Nat) (data : List Byte) (poison : Bool) : State :=
  s.toAgent (.site m) (128 * l) (if kind < 9 then poolDat 1 else poolRsp) (.complete (.site m) (128 * l) tag kind data poison)

/-- The SnpInv of a line answered RspI once no bench has an invalidation of it outstanding (R257). -/
def State.snpInvDone (s : State) (l : Nat) : State :=
  if s.binv.any (fun x : Nat × Nat => x.2 == l) then s
  else
    (s.snpInv.filter fun x : Nat × Nat × Nat => x.2.1 == l).foldl (fun (s : State) (x : Nat × Nat × Nat) => s.toHome x.1 l x.2.2 9 [] false)
      { s with snpInv := s.snpInv.filter fun x : Nat × Nat × Nat => x.2.1 != l }

end Sys2Proof.Machine
end

