-- ==== Sys2Proof/Machine/Ext.lean ====
section
/-! DEFINITION. What the hub's engines read and write by global address: memory homed here at once, everything else by a request whose answer arrives later
(R25, R256, R314, R336). -/

namespace Sys2Proof.Machine

/-- Whether an engine can read a range at once: what is homed here is ready; every other block has been brought. -/
def State.gReady (s : State) (m : Master) (g n : Nat) : Bool :=
  if s.near g then s.engReady m (s.home (gLocal g)) n else s.farReady g n

/-- What is missing of a range asked for. -/
def State.gAsk (s : State) (m : Master) (g n tc : Nat) : State := if s.near g then s.engAsk m (s.home (gLocal g)) n tc else s.farAsk g n tc

/-- Bytes that an engine reads from a range that is ready, and their poison; blocks brought for it are used up. -/
def State.gRead (s : State) (m : Master) (g n tc : Nat) : List Byte × Bool × State :=
  if s.near g then s.engRead m (s.home (gLocal g)) n tc
  else
    let bs := blocksOf g n
    let d := bs.flatMap fun b => match tget s.extGot b with | some (v, _, _) => leBytes 64 v.toNat | none => []
    let p := bs.any fun b => match tget s.extGot b with | some (_, p, _) => p | none => false
    ((d.drop (g % 64)).take n, p, { s with extGot := bs.foldl (fun t b => tdel t b) s.extGot })

/-! ### Writes of engines -/

/-- Bytes cut at multiples of a size: address and bytes of each piece; the first argument is fuel. -/
def cutAt (k : Nat) : Nat → Nat → List Byte → List (Nat × List Byte)
  | 0, _, _ => []
  | _, _, [] => []
  | f + 1, a, bs => (a, bs.take (k - a % k)) :: cutAt k f (a + (k - a % k)) (bs.drop (k - a % k))
def pieces (k a : Nat) (bs : List Byte) : List (Nat × List Byte) := cutAt k (bs.length / k + 2) a bs

/-- The length of the PUT that carries the first of n bytes at an address (R308): a multiple of 16 B up to the next 4 KiB, else 8 B or 4 B; what no PUT may
carry, fewer bytes than a word, goes as it is (log entry 24). -/
def putLen (a n : Nat) : Nat :=
  if a % 16 = 0 ∧ 16 ≤ n then min (n / 16 * 16) (4096 - a % 4096)
  else if a % 8 = 0 ∧ 8 ≤ n then 8
  else if a % 4 = 0 ∧ 4 ≤ n then 4
  else min n (4 - a % 4)

/-- The PUTs that carry bytes to another device, address and bytes of each; the first argument is fuel. -/
def putCut : Nat → Nat → List Byte → List (Nat × List Byte)
  | 0, _, _ => []
  | _, _, [] => []
  | k + 1, a, bs => (a, bs.take (putLen a bs.length)) :: putCut k (a + putLen a bs.length) (bs.drop (putLen a bs.length))
def putPieces (g : Nat) (bs : List Byte) : List (Nat × List Byte) := putCut bs.length g bs

/-- Whether an engine's write can be sent now: it would not stall at the limit on outstanding requests (R320, R321). -/
def State.gRoom (s : State) (g n : Nat) : Bool :=
  s.isOwn g || (decide (s.tksOut + n / 4096 + 8 ≤ 16384) && decide (s.reqAge (s.tksFloor (gDev g)) < 32000))

/-- Bytes written by an engine at a global address: the state, and how many acknowledgements it awaits. -/
def State.gWrite (s : State) (m : Master) (tag g tc : Nat) (bs : List Byte) (poison : Bool) : State × Nat :=
  if s.near g then s.engWrite m tag (s.home (gLocal g)) tc bs poison
  else if s.isOwn g then
    match region (gLocal g) with
    | .host =>
      let ps := pieces 64 (gLocal g) bs
      (ps.foldl (fun s p => s.hostAsk (.eng m tag) (if p.2.length = 64 then .wrFull else .wrPart) p.1 p.2.length p.2) s, ps.length)
    | .site _ =>
      let ps := pieces 128 (gLocal g) bs
      (ps.foldl (fun s p => s.siteAsk (.eng m tag) (if p.2.length = 128 then .wrFull else .wrPart) p.1 p.2.length tc p.2 poison 0 0) s, ps.length)
    | _ => (s, 0)
  else
    let ps := putPieces g bs
    (ps.foldl (fun s p => (s.tksSend (.eng m tag)
      (s.reqFrame (gDev g) tc 0x01 0 0 p.2.length (BitVec.ofNat 64 (gLocal p.1)) 0 p.2 poison)).getD s) s, ps.length)

end Sys2Proof.Machine
end

