-- ==== Sys2Proof/Machine/MemCmd.lean ====
section
/-! DEFINITION. The memory commands and events of chapter 7: granule modes, flushes, patrol, temperature, prefetch and fills; and the
directory probe. -/

namespace Sys2Proof.Machine

/-! ### Granule modes and flushes (R206 to R208) -/

/-- First address of a granule of a slice in the scratchpad region (R23). -/
def granBase (n g : Nat) : Nat := 0x010000000000 + n * 0x800000 + g * 0x100000

/-- The granule mask field of a half set in every slice. -/
def State.setMask (s : State) (half m : Nat) : State :=
  (List.range 128).foldl (fun s i => s.fset (R.ssCfg (128 * half + i)) 31 24 m) s

/-- The mask of a half. -/
def State.maskOf (s : State) (half : Nat) : Nat := s.fget (R.ssCfg (128 * half)) 31 24

/-- The granules of a half whose modes change, zeroed or emptied in every slice (R207). -/
def State.clearGrans (s : State) (half m : Nat) : State :=
  (List.range 8).foldl (fun s g => if nbit m g then (List.range 128).foldl (fun s i => s.zero (granBase (128 * half + i) g) 0x100000) s else s) s

/-- Lines whose home lies in a half. -/
def State.halfLine (s : State) (half : Nat) (e : Nat × Line) : Bool := s.halfOf (128 * e.1) == half

/-- A dirty line lost: HBM holds what it last held, which is unspecified (R262, log entry 3). -/
def State.loseLine (s : State) (l : Nat) : State :=
  { s with freeCtr := s.freeCtr + 128 }.write (128 * l) (s.freeBytes 128) false

/-- The tags of a half marked invalid, its side buffers emptied, and its scratchpad unspecified (R203, log entry 6). -/
def State.ssDrop (s : State) (half : Nat) : State :=
  let dirty := (s.lines.filter fun e => s.halfLine half e && e.2.dirty).map (·.1)
  let s := dirty.foldl State.loseLine s
  let s := { s with lines := s.lines.filter fun e => !s.halfLine half e
                    sideBuf := s.sideBuf.filter fun e => decide (e.1 / 128 ≠ half)
                    fills := s.fills.filter fun e => decide (s.halfOf (128 * e.1) ≠ half) }
  s.zero (0x010000000000 + half * 0x40000000) 0x40000000

/-- A line written to HBM: it stays valid and clean (R208). -/
def State.cleanLine (s : State) (l : Nat) : State := (s.hbmReq (128 * l) true).modLine l fun x => { x with dirty := false }

/-- The lines that a job still has to write, written where their stacks issue accesses (R205, R215). -/
def State.jobClean (s : State) : State :=
  match s.ssJob with
  | none => s
  | some j =>
    let go := j.clean.filter fun l => s.stackReady (128 * l)
    go.foldl State.cleanLine { s with ssJob := some { j with clean := j.clean.filter fun l => !go.contains l } }

/-- A job whose recalls and writes have all ended, finished: new masks, with the contents of granules that change mode gone (R207), or a flush's count,
answered where a command asked. -/
def State.jobEnd (s : State) : State :=
  let s := s.jobClean
  match s.ssJob with
  | none => s
  | some j =>
    if !j.left.isEmpty || !j.clean.isEmpty then s
    else
      let s := { s with ssJob := none }
      match j.masks, j.rst with
      | some (mn, ms), _ =>
        let s := (s.clearGrans 0 (s.maskOf 0 ^^^ mn)).clearGrans 1 (s.maskOf 1 ^^^ ms)
        let s := (s.setMask 0 mn).setMask 1 ms
        match j.mbx with | some m => s.axFinish m stDone 0 [] | none => s
      | none, some h => ({ s with ssInv := sIns s.ssInv h }.ssDrop h).bset R.hubMemStatus 31 false
      | none, none => match j.mbx with | some m => s.axFinish m stDone 0 (p32 j.written) | none => s

/-- A job started: the recall or purge of each of its lines asked of its home. -/
def State.jobStart (s : State) (j : SsJob) (recalls purge : List Nat) : State :=
  let rq (k : ReqK) (l : Nat) : CReq := { k := k, a := .other ⟨.steward, 0⟩, line := 128 * l }
  let s := { s with ssJob := some { j with left := (recalls ++ purge).foldl sIns [] } }
  let s := recalls.foldl (fun s l => s.cohReq (rq .recall l)) s
  (purge.foldl (fun s l => s.cohReq (rq .purge l)) s).jobEnd

/-- HBM lines of the store that satisfy p. -/
def State.hbmLines (s : State) (p : Nat × Line → Bool) : List Nat := (s.lines.filter fun e => region (128 * e.1) == .hbm && p e).map (·.1)

/-- The bits of a mask that change to 0, or to 1. -/
def lost (old new : Nat) : Nat := (List.range 8).foldl (fun m g => if nbit old g && !nbit new g then m + 2 ^ g else m) 0

/-- Whether a granule that leaves scratchpad is a T0 granule of the context store. -/
def State.t0Meets (s : State) (mn ms : Nat) : Bool :=
  (tgetD s.store.pools 0 []).any fun r =>
    (List.range (cdiv r.2 16)).any fun i =>
      let g := r.1 / 16 + i
      nbit (if g / 8 < 128 then mn else ms) (g % 8)

/-- MEM_SS_CONFIG (R206, R207): from acceptance to its end a granule that changes mode is neither usable cache nor backed scratchpad. -/
def State.ssConfig (s : State) (m mn ms : Nat) : AxR :=
  if mn % 2 = 0 ∨ ms % 2 = 0 ∨ 256 ≤ mn ∨ 256 ≤ ms then invalid s
  else if s.t0Meets (lost mn (s.maskOf 0)) (lost ms (s.maskOf 1)) then refuse s dState
  else if s.ssJob.isSome then busy s
  else
    let on := s.maskOf 0
    let os := s.maskOf 1
    let out (e : Nat × Line) : Bool :=
      let n := s.homeSlice (128 * e.1)
      nbit (if n < 128 then lost on mn else lost os ms) (e.2.way / 8) && !nbit (s.fget (R.ssCfg n) 15 8) (e.2.way / 8)
    let rec' := s.hbmLines out
    let pur := (s.lines.filter fun e => region (128 * e.1) == .scratch
      && nbit (if scrSlice (128 * e.1) < 128 then lost mn on else lost ms os) (scrGran (128 * e.1))).map (·.1)
    .wait (s.jobStart { mbx := some m, masks := some (mn, ms) } rec' pur)

def execMemSsConfig (q : Req) (k : Nat) (s : State) : Outc :=
  run (mbxOk q) (axotte s q 0x0301 fun s => if k = 0 ∨ 8 < k then invalid s else s.ssConfig q.mbx (2 ^ k - 1) (2 ^ k - 1))
def execMemSsConfigExpert (q : Req) (north south : Nat) (s : State) : Outc :=
  run (mbxOk q) (axotte s q 0x8301 fun s => s.ssConfig q.mbx north south)

/-- Dirty lines written (R208): those whose stack is stopped wait for it (R205). -/
def State.flushLines (s : State) (m : Nat) (ls : List Nat) : AxR :=
  if s.ssJob.isSome then busy s
  else if ls.all fun l => s.stackReady (128 * l) then .done (ls.foldl State.cleanLine s) 0 (p32 ls.length)
  else .wait { s with ssJob := some { mbx := some m, clean := ls, written := ls.length } }.jobClean

/-- MEM_SS_FLUSH basic (R208): every dirty line written. -/
def execMemSsFlush (q : Req) (s : State) : Outc :=
  run (mbxOk q) (axotte s q 0x0302 fun s => s.flushLines q.mbx (s.hbmLines (·.2.dirty)))
/-- MEM_SS_FLUSH expert: a range, and its lines recalled where asked. -/
def execMemSsFlushExpert (q : Req) (base len : Nat) (inval : Bool) (s : State) : Outc :=
  run (mbxOk q) (axotte s q 0x8302 fun s =>
    let inR (e : Nat × Line) : Bool := decide (base ≤ 128 * e.1) && decide (128 * e.1 < base + len)
    if base % 128 ≠ 0 ∨ len % 128 ≠ 0 ∨ len = 0 ∨ !s.hbmBacked base ∨ !s.hbmBacked (base + len - 1) then invalid s
    else if inval then (if s.ssJob.isSome then busy s else .wait (s.jobStart { mbx := some q.mbx } (s.hbmLines inR) []))
    else s.flushLines q.mbx (s.hbmLines fun e => inR e && e.2.dirty))

/-! ### Status, scrub periods, error records -/

/-- MEM_HBM_STATUS: hbm.s.status and hbm.s.chmap of each stack. -/
def execMemHbmStatus (q : Req) (s : State) : Outc :=
  run (mbxOk q) (axotte s q 0x0303 fun s =>
    .done s 0 ((List.range 6).flatMap fun t => p32 (s.get (R.hbmStatus t)).toNat ++ p32 (s.get (R.hbmChmap t)).toNat))
/-- MEM_HBM_STATUS expert: a channel's training record, whose contents the training leaves (free values, log entry 3). -/
def execMemHbmStatusExpert (q : Req) (stack chan : Nat) (s : State) : Outc :=
  run (mbxOk q) (axotte s q 0x8303 fun s =>
    if 6 ≤ stack ∨ 32 ≤ chan then invalid s else .done { s with freeCtr := s.freeCtr + 64 } 0 (s.freeBytes 64))

/-- MEM_SCRUB_SET (R216). -/
def execMemScrubSet (q : Req) (s : State) : Outc :=
  run (mbxOk q) (axotte s q 0x0304 fun s => .done { s with hbmPatrolH := 24, ssPatrolH := 1 } 0 [])
def execMemScrubSetExpert (q : Req) (hbmHours ssHours : Nat) (s : State) : Outc :=
  run (mbxOk q) (axotte s q 0x8304 fun s =>
    if hbmHours = 0 ∨ 168 < hbmHours ∨ ssHours = 0 ∨ 24 < ssHours then invalid s
    else .done { s with hbmPatrolH := hbmHours, ssPatrolH := ssHours } 0 [])

/-- MEM_ERR_READ: records from the first asked, oldest first. -/
def execMemErrRead (q : Req) (first count : Nat) (s : State) : Outc :=
  run (mbxOk q) (axotte s q 0x0305 fun s =>
    if count = 0 ∨ 64 < count then invalid s
    else .done s 0 (((s.memErr.drop first).take count).flatMap fun e => p32 e.unit ++ p32 e.kind ++ p64 e.addr ++ p64 e.time.toNat))

/-! ### The directory probe (Tables 9-8 and 9-9) -/

/-- The two result words of a probe. -/
def State.probe (s : State) (a : Nat) : Nat × Nat :=
  if !s.homed a then (2 ^ 38, 0)
  else
    let l := a / 128
    let pend := b2n (tget s.txn l).isSome * 2 ^ 39
    match tget s.lines l with
    | none => ((if region a = .scratch then 0 else 3 * 2 ^ 62) + pend, 0)
    | some x =>
      let d := x.dir
      let bits (b : List Nat) : Nat := b.foldl (fun n i => n + 2 ^ i) 0
      let st := if d.owner.isSome then 2 else if d.held then 1 else 0
      (st * 2 ^ 62 + b2n d.fwd.isSome * 2 ^ 61 + d.fwd.getD 0 * 2 ^ 58 + d.owner.getD 0 * 2 ^ 54 + b2n d.host * 2 ^ 53
        + bits d.site * 2 ^ 45 + bits d.bench / 2 ^ 64 * 2 ^ 41 + b2n x.dirty * 2 ^ 40 + pend, bits d.bench % 2 ^ 64)

/-- MEM_DIR_PROBE. -/
def execMemDirProbe (q : Req) (addr : Nat) (s : State) : Outc :=
  run (mbxOk q) (axotte s q 0x0306 fun s =>
    if 2 ^ 46 ≤ addr then invalid s else .done s 0 (p64 (s.probe (addr / 128 * 128)).1 ++ p64 (s.probe (addr / 128 * 128)).2))

/-- DIR_PROBE_GO: a write of coh.dir.probe.ctl. -/
def State.dirProbeWr (s : State) (v : W64) : State :=
  let a := fld v 45 7 * 128
  let s := s.fset R.cohDirProbeCtl 45 7 (fld v 45 7)
  if bit v 63 then
    ((s.set R.cohDirProbeRes (BitVec.ofNat 64 (s.probe a).1)).set R.cohDirProbeBench (BitVec.ofNat 64 (s.probe a).2)).fset R.cohDirProbeCtl 62 62 1
  else s
def execDirProbeGo (v : W64) (s : State) : Outc := .next (s.dirProbeWr v)

/-! ### Patrol, invalidation, temperature -/

/-- SS_PATROL_READ (R202): a line of the array read and corrected. -/
def execSsPatrolRead (addr : Nat) (s : State) : Outc :=
  .next (if (tget s.lines (addr / 128)).isSome || s.scrBacked addr then s.meetLine addr else s)
/-- HBM_PATROL (R216): a line of HBM read and corrected; a stopped stack issues no patrol (R215). -/
def execHbmPatrol (addr : Nat) (s : State) : Outc :=
  .next (if s.hbmBacked addr && (tget s.lines (addr / 128)).isNone && s.stackReady addr then (s.hbmReq addr false).meetLine addr else s)

/-- SS_POWERUP_INVALIDATE (R203). -/
def execSsPowerupInvalidate (half : Nat) (s : State) : Outc :=
  run (half < 2) ({ s with ssInv := sIns s.ssInv half }.ssDrop half |>.bset R.hubMemStatus 31 false)
/-- SS_INVALIDATE_COMPLETE (R203): ss_ready once both dies have finished. -/
def execSsInvalidateComplete (half : Nat) (s : State) : Outc :=
  run (half < 2) (if s.ssInv.contains half then
    let s := { s with ssInv := sDel s.ssInv half }
    if s.ssInv.isEmpty && s.powered then s.bset R.hubMemStatus 31 true else s
  else s)

/-- Benches of a half. -/
def halfBenches (half : Nat) : List Nat := (List.range 34).map (· + 34 * half)

/-- The highest bench sensor reading of a half (R204). -/
def State.halfTemp (s : State) (half : Nat) : Nat :=
  (halfBenches half).foldl (fun m b => max m (max (s.fget (R.pwrBenchTemp b) 7 0) (s.fget (R.pwrBenchTemp b) 15 8))) 0

/-- A throttle state with hysteresis: above `hi2` stopped until below `lo2`, above `hi1` halved until below `lo1`. -/
def throttle (cur t hi1 lo1 hi2 lo2 : Nat) : Nat :=
  if hi2 < t ∨ (cur = 2 ∧ lo2 ≤ t) then 2 else if hi1 < t ∨ (1 ≤ cur ∧ lo1 ≤ t) then 1 else 0

/-- SS_THERMAL_SAMPLE (R204). -/
def State.ssThermal (s : State) (half : Nat) : State :=
  let hi := if half = 0 then 29 else 27
  let cur := s.fget R.hubMemStatus hi (hi - 1)
  let new := throttle cur (s.halfTemp half) 95 93 102 100
  if new = cur then s else (s.fset R.hubMemStatus hi (hi - 1) new).log' 1 15 2 [half, new]
def execSsThermalSample (half : Nat) (s : State) : Outc := run (half < 2) (s.ssThermal half).jobEnd

/-- HBM_TEMP_READ (R214, R215). -/
def State.hbmTemp (s : State) (t temp : Nat) : State :=
  let w := s.get (R.hbmStatus t)
  let cur := fld w 27 26
  let new := if 95 ≤ temp ∨ (cur = 2 ∧ 93 ≤ temp) then 2 else if 93 ≤ temp ∨ (1 ≤ cur ∧ 91 ≤ temp) then 1 else 0
  let w := setFld (setFld w 15 8 temp) 27 26 new
  let w := if fld w 29 28 = 2 then w else setFld w 29 28 (if 85 < temp then 1 else 0)
  let s := s.set (R.hbmStatus t) w
  if new = 2 ∧ cur ≠ 2 then s.log' 0 16 2 [t, temp] else s
def execHbmTempRead (stack temp : Nat) (s : State) : Outc := run (stack < 6) (s.hbmTemp stack temp).jobEnd

/-- HBM_FORCED_TURN (R217): a bus of a trained stack turned early, for a class-0 request of the other direction that has waited 200 ns. -/
def State.forcedTurn (s : State) (t : Nat) : State :=
  if !(s.bget (R.hbmStatus t) 31) then s
  else match s.hbmBus.find? fun e => e.1 / 64 == t && decide (0 < e.2.2.2) with
    | some (k, b) => s.hbmTurn k b
    | none => s.bump (R.hbmTurn t) 64 1
def execHbmForcedTurn (stack : Nat) (s : State) : Outc := run (stack < 6) (s.forcedTurn stack)

/-! ### Prefetch and fill (R195, R384, R194) -/

/-- Whether the stream detector has cause to prefetch a line: it is one of the next 4 lines after two demand misses to consecutive lines of its 4 KiB. -/
def State.streamAt (s : State) (l : Nat) : Bool :=
  (List.range 4).any fun i => decide (i + 2 ≤ l) && decide ((l - 1 - i) / 32 = l / 32) && decide ((l - 2 - i) / 32 = l / 32)
    && s.missed.contains (l - 1 - i) && s.missed.contains (l - 2 - i)

/-- A prefetch of a line that is in neither array nor buffer and that nothing is in progress on enters its slice's side buffer, while the level of its half is at or
below lo (R384); its read of HBM waits with the stack. -/
def State.prefetch (s : State) (a : Nat) (cause : Bool) : State :=
  let l := a / 128
  let lvl := if s.halfOf a = 0 then s.fget R.regStatus 35 32 else s.fget R.regStatus 39 36
  if !cause || !s.hbmBacked a || (tget s.lines l).isSome || s.inSide l || s.lineBusy l || !s.stackReady a || !decide (lvl ≤ s.fget R.regCongCfg 11 8) then s
  else
    let s := (s.hbmReq a false).meetLine (128 * l)
    if s.poison.contains (128 * l) then s else s.sidePut l

/-- A class-0 read that took `ns` against its bound (R388): path 0 hit, 1 HBM, 2 site snoop. -/
def State.boundCheck (s : State) (ag : Agent) (a path bound ns : Nat) : State :=
  if ns ≤ bound ∨ s.bget R.regStatus 63 ∨ 16 ≤ s.partOf ag then s
  else if s.halfThrottled (s.halfOf a) then s.bump R.regMissThr 32 1
  else
    let s := s.bump R.regMissCount 32 1
    let s := if s.bget R.regMissStatus 31 then s.bset R.regMissStatus 30 true
      else (s.record R.regMissStatus
        (2 ^ 31 + path % 4 * 2 ^ 28 + s.partOf ag % 16 * 2 ^ 24 + (srcIdx ag).getD 0 % 256 * 256)).set R.regMissAddr (BitVec.ofNat 64 a)
    s.msix 4

/-- HBM_FILL_RETURN: the transaction that waits for the line goes on, once a way of its set is free, or an engine's fill enters, at its age (Table 7-1). A
stopped stack, or one whose half is stopped, returns nothing (R205, R215). -/
def State.fillReturn (s : State) (a ns : Nat) : State :=
  let a := a / 128 * 128
  let l := a / 128
  if !s.hbmBacked a || !s.stackReady a then s
  else
    let waits := match tget s.txn l with | some t => t.fill | none => false
    match tget s.txn l, tget s.fills l with
    | some t, _ =>
      if !waits then s
      else
        let r := t.r
        let p := s.partOf r.a
        let bare := r.k.reads && decide (p < 16) && s.fget (R.regPartSs p) 6 0 == 0 && (agentNo r.a).isNone
        let room := if bare then (s, true) else s.ssRoom l p
        if !room.2 then room.1
        else
          let s := (room.1.hbmReq a false).meetLine a
          let s := if r.k.reads && r.tc == 0 then s.boundCheck r.a a 1 750 ns else s
          let s := { s with txn := tdel s.txn l }
          if bare then (s.countBytes r.a a r.tc 128).answer r .datS (s.lineData a) (s.poison.contains a) false 0
          else (s.ssInsert l r.fillAge p false).cohGo r
    | none, some (x, p) =>
      let gone := { s with fills := tdel s.fills l }
      if (tget s.lines l).isSome then gone
      else
        let gone := (gone.hbmReq a false).meetLine a
        if p < 16 ∧ s.fget (R.regPartSs p) 6 0 = 0 then gone
        else match gone.ssRoom l p with
          | (s, true) => s.ssInsert l (x % 4) p false
          | (s, false) => s
    | none, none => s
def execHbmFillReturn (addr ns : Nat) (s : State) : Outc := .next (s.fillReturn addr ns).jobEnd

end Sys2Proof.Machine
end

