-- ==== Sys2Proof/Machine/Regulate.lean ====
section
/-! DEFINITION. Bandwidth and capacity regulation (chapter 17): partitions, class-0 rates, congestion allowance, shares. -/

namespace Sys2Proof.Machine

/-- The sum of class-0 rates of a half (R379). -/
def State.rateSum (s : State) (half : Nat) : Nat :=
  (List.range 16).foldl (fun n p => n + (if half = 0 then s.fget (R.regPartC0 p) 15 0 else s.fget (R.regPartC0 p) 31 16)) 0

/-- reg.status.overcommit kept with the rates (R379). -/
def State.overcommit (s : State) : State := s.bset R.regStatus 63 (decide (2048 < s.rateSum 0) || decide (2048 < s.rateSum 1))

/-- The rates of a partition set. -/
def State.setRates (s : State) (p rn rs : Nat) : State := ((s.fset (R.regPartC0 p) 15 0 rn).fset (R.regPartC0 p) 31 16 rs).overcommit

/-- The partition of a range of sources set (R376). -/
def State.setSrcs (s : State) (p first last : Nat) : State :=
  (List.range (last + 1 - first)).foldl (fun s i => s.fset (R.regSrc (first + i)) 3 0 p) s

/-- Detail code C0_OVERCOMMIT (R379). -/
abbrev dOvercommit : Nat := 0x20

/-- REG_PART_SET (R379): a setting that would overcommit a half is refused. -/
def State.partSet (s : State) (p first last rn rs : Nat) (more : State → State) : AxR :=
  if 16 ≤ p ∨ 150 ≤ last ∨ last < first ∨ 65536 ≤ rn ∨ 65536 ≤ rs then invalid s
  else
    let t := s.setRates p rn rs
    if t.bget R.regStatus 63 then refuse s dOvercommit else .done (more (t.setSrcs p first last)) 0 []
def execRegPartSet (q : Req) (part first last rate : Nat) (s : State) : Outc :=
  run (mbxOk q) (axotte s q 0x0320 fun s => s.partSet part first last rate rate id)
def execRegPartSetExpert (q : Req) (part first last rateN rateS burst share qlim : Nat) (s : State) : Outc :=
  run (mbxOk q) (axotte s q 0x8320 fun s =>
    if burst = 0 ∨ 65536 ≤ burst ∨ share = 0 ∨ 256 ≤ share ∨ 0x400 ≤ qlim then invalid s
    else s.partSet part first last rateN rateS fun s =>
      ((s.fset (R.regPartC0 part) 47 32 burst).fset (R.regPartShare part) 7 0 share).fset (R.regPartQ part) 9 0 qlim)

/-- REG_CLASS_SET. -/
def byteOk (w : Nat) : Bool := decide (1 ≤ w) && decide (w < 256)
def State.classSet (s : State) (w1 w2 w3 : Nat) : State := s.set R.regClassW (BitVec.ofNat 64 (w3 * 65536 + w2 * 256 + w1))
def execRegClassSet (q : Req) (w1 w2 w3 : Nat) (s : State) : Outc :=
  run (mbxOk q) (axotte s q 0x0321 fun s => if byteOk w1 && byteOk w2 && byteOk w3 then .done (s.classSet w1 w2 w3) 0 [] else invalid s)
def execRegClassSetExpert (q : Req) (w1 w2 w3 hi lo step : Nat) (s : State) : Outc :=
  run (mbxOk q) (axotte s q 0x8321 fun s =>
    if byteOk w1 && byteOk w2 && byteOk w3 && byteOk step && decide (lo < hi) && decide (hi < 16) then
      .done ((s.classSet w1 w2 w3).set R.regCongCfg (BitVec.ofNat 64 (hi * 4096 + lo * 256 + step))) 0 []
    else invalid s)

/-- REG_SS_SHARE (R386). -/
def execRegSsShare (q : Req) (part eighths : Nat) (s : State) : Outc :=
  run (mbxOk q) (axotte s q 0x0323 fun s =>
    if 16 ≤ part ∨ 8 < eighths then invalid s else .done (s.fset (R.regPartSs part) 6 0 (8 * eighths)) 0 [])
def execRegSsShareExpert (q : Req) (ways : List Nat) (s : State) : Outc :=
  run (mbxOk q) (axotte s q 0x8323 fun s =>
    if ways.length ≠ 16 ∨ ways.any (fun w => decide (64 < w)) then invalid s
    else .done ((List.range 16).foldl (fun s p => s.fset (R.regPartSs p) 6 0 (ways.getD p 0)) s) 0 [])

/-- Allowance of a half in GB/s (R381). -/
def State.allow (s : State) (half : Nat) : Nat := if half = 0 then s.fget R.regStatus 15 0 else s.fget R.regStatus 31 16

/-- Partitions with demand in a half in the previous window, and the sources of one: a demand is 4 source + class, of class 1 to 3. -/
def State.demandParts (s : State) (half : Nat) : List Nat :=
  ((tgetD s.regDemand half []).map fun d : Nat => s.fget (R.regSrc (d / 4)) 3 0).foldl sIns []
def State.demandOf (s : State) (half p : Nat) : List Nat := (tgetD s.regDemand half []).filter fun d : Nat => s.fget (R.regSrc (d / 4)) 3 0 == p

/-- What demand entitles a partition to of a half's allowance (R382). -/
def State.entitled (s : State) (half p : Nat) : Nat :=
  let sh := s.fget (R.regPartShare p) 7 0
  let sum := (s.demandParts half).foldl (fun n d => n + s.fget (R.regPartShare d) 7 0) 0
  s.allow half * sh / max 1 (if sum = 0 then sh else sum)

/-- A partition's portion in the window in progress: none without demand. -/
def State.portion (s : State) (half p : Nat) : Nat :=
  if (s.demandParts half).contains p then (match tget s.regLim (16 * half + p) with | some w => w.gbs | none => 0) else 0

/-- What a partition's classes and sources may issue in a window, from its portion, the same in bytes, the classes that have demand and the number of its
sources that do (R382, R383): class 3 with demand is left 1/64; classes 1 and 2 divide the rest by w1 : w2 where both have demand, and either takes all of it
where the other has none; sources divide the portion equally. -/
def classLims (gbs all w1 w2 : Nat) (d1 d2 d3 : Bool) (n : Nat) : WinLim :=
  let two := if d3 then all - all / 64 else all
  ⟨gbs, all, two, if d2 then two * w1 / max 1 (w1 + w2) else two, if d1 then two * w2 / max 1 (w1 + w2) else two, all / max 1 n⟩

/-- The limits of a partition in a half for a window. -/
def State.winLims (s : State) (half p : Nat) : WinLim :=
  let ds := s.demandOf half p
  let has (c : Nat) : Bool := ds.any fun d => d % 4 == c
  classLims (s.entitled half p) (s.winBytes (s.entitled half p)) (s.fget R.regClassW 7 0) (s.fget R.regClassW 15 8)
    (has 1) (has 2) (has 3) ((ds.map (· / 4)).foldl sIns []).length

/-- A window begun in a half: limits, class-0 settings and class weights, and nothing issued (R382, R383, Table 17-3). -/
def State.winOpen (s : State) (half : Nat) : State :=
  { s with regLim := (List.range 16).foldl (fun t p => tput t (16 * half + p) (s.winLims half p)) s.regLim
           regC0 := (List.range 16).foldl (fun t p => tput t (16 * half + p) (s.get (R.regPartC0 p)).toNat) s.regC0
           regW := some (s.get R.regClassW)
           regSpent := s.regSpent.filter fun e => e.1 / 640 != half }

/-- REG_STATUS. -/
def execRegStatus (q : Req) (s : State) : Outc :=
  run (mbxOk q) (axotte s q 0x0322 fun s =>
    .done s 0 (p64 (s.get R.regStatus).toNat ++ (List.range 16).flatMap fun p =>
      p16 (s.portion 0 p) ++ p16 (s.portion 1 p) ++ p16 (s.outstanding 0 p) ++ p16 (s.outstanding 1 p)
        ++ [0, 1].flatMap fun h => [0, 1, 2, 3].flatMap fun c => p64 (s.get (R.regPartBytes p h c)).toNat))

/-- REG_WINDOW_UPDATE (R381 to R383): the end of a window of 64 NCLK: the level, the new allowance, the sources and classes that had demand, and the
limits of the next window; requests held go on as far as these allow. -/
def State.regWindow (s : State) (half level : Nat) (demand : List Nat) : State :=
  let c := 64 * (if half = 0 then s.fget R.hubMemStatus 23 16 else s.fget R.hubMemStatus 15 8)
  let a := s.allow half
  let a' := if s.fget R.regCongCfg 15 12 ≤ level then max (c / 16) (a - a / 8)
    else if level ≤ s.fget R.regCongCfg 11 8 then min c (a + c * s.fget R.regCongCfg 7 0 / 256) else a
  let s := { s with regDemand := tput s.regDemand half ((demand.filter fun d => decide (d < 600) && d % 4 != 0).foldl sIns []) }
  State.winOpen (if half = 0 then (s.fset R.regStatus 15 0 a').fset R.regStatus 35 32 (min 15 level) else (s.fset R.regStatus 31 16 a').fset R.regStatus 39 36 (min 15 level)) half
def execRegWindowUpdate (half level : Nat) (demand : List Nat) (s : State) : Outc := run (half < 2) (s.regWindow half level demand).regPump

end Sys2Proof.Machine
end

