-- ==== Sys2Proof/Machine/Store.lean ====
section
/-! DEFINITION. The context store (chapter 6): its tables in HBM, page descriptors, units of the four tiers, sequences, appends and
commits. -/

namespace Sys2Proof.Machine

/-! ### CRC-32C (R164) -/

/-- One bit of the reflected division by 0x1EDC6F41. -/
def crcBit (c : Nat) : Nat := if c % 2 = 1 then (c / 2) ^^^ 0x82F63B78 else c / 2
/-- One byte. -/
def crcByte (c : Nat) (b : Byte) : Nat := crcBit (crcBit (crcBit (crcBit (crcBit (crcBit (crcBit (crcBit (c ^^^ b.toNat))))))))
/-- CRC-32C of bytes (R164). -/
def crc32c (bs : List Byte) : Nat := (bs.foldl crcByte 0xFFFFFFFF) ^^^ 0xFFFFFFFF

/-! ### Page formats (R159) -/

/-- Bytes of one row's elements, and of its scale group. -/
def rowBytes (f elems : Nat) : Nat := elems * fmtBits f / 8
def rowScale (f elems : Nat) : Nat := if f = 8 then elems / 32 * 2 else if fmtScaled f then elems / 32 else 0
/-- Bytes of a page of ppp rows. -/
def pageSize (f elems ppp : Nat) : Nat := ppp * (rowBytes f elems + rowScale f elems)

/-! ### Units of the tiers (Tables 6-4 and 6-5) -/

/-- Runs of units of a tier, and its units allocated. -/
def State.tierRuns (s : State) (t : Nat) : List (Nat × Nat) := tgetD s.store.pools t []
def State.tierUsed (s : State) (t : Nat) : List Nat := tgetD s.store.used t []
/-- Units added to a tier. -/
def State.tierTotal (s : State) (t : Nat) : Nat := (s.tierRuns t).foldl (fun n r => n + r.2) 0

/-- The registers that count descriptors and units, kept with the lists (R188, Table 6-18). -/
def State.recount (s : State) : State :=
  let s := s.set R.ctxDescFree (BitVec.ofNat 64 s.store.descFree)
  [0, 1, 2, 3].foldl (fun s t => (s.set (R.ctxTierTotal t) (BitVec.ofNat 64 (s.tierTotal t))).set (R.ctxTierFree t)
    (BitVec.ofNat 64 (s.tierTotal t - (s.tierUsed t).length))) s

/-- The store changed, its counting registers following. -/
def State.modStore (s : State) (f : Store → Store) : State := { s with store := f s.store }.recount

/-- The lowest run of n free units within the runs given (log entry 20). -/
def findRun (runs : List (Nat × Nat)) (used : List Nat) (n : Nat) : Option Nat :=
  let ok (c : Nat) : Bool := runs.any (fun r => decide (r.1 ≤ c) && decide (c + n ≤ r.1 + r.2))
    && (List.range n).all fun i => !used.contains (c + i)
  ((runs.map (fun r : Nat × Nat => r.1) ++ used.map (· + 1)).filter ok).foldl (fun b c => match b with | some x => some (min x c) | none => some c) none

/-- A word of the store's tables that counts a tier's units (0 to 3) or descriptors (4) read: an uncorrectable error in it is a breach (R301, Table 12-4). -/
def State.tableRead (s : State) (t : Nat) : State :=
  if s.countUe 8 t then { (s.countMet 8 t) with store := { s.store with broken := true } } else s

/-- Units of a tier taken, and given back. -/
def State.takeUnits (s : State) (t n : Nat) : Option (Nat × State) :=
  let s := s.tableRead t
  match findRun (s.tierRuns t) (s.tierUsed t) n with
  | some u => some (u, s.modStore fun x => { x with used := tput x.used t ((List.range n).foldl (fun l i => sIns l (u + i)) (s.tierUsed t)) })
  | none => none
def State.giveUnits (s : State) (t u n : Nat) : State :=
  s.modStore fun x => { x with used := tset x.used t [] ((tgetD x.used t []).filter fun i => !(decide (u ≤ i) && decide (i < u + n))) }

/-- Local physical address of a unit of T0, T1 or T2 (Table 6-4). -/
def unitAddr (t u : Nat) : Nat :=
  match t with
  | 0 => 0x010000000000 + u * 0x10000
  | 1 => u * 0x10000
  | _ => 0x100000000000 + u * 0x1000

/-- A T3 unit: device and sett. -/
def t3Dev (u : Nat) : Nat := u / 2 ^ 32
def t3Sett (u : Nat) : Nat := u % 2 ^ 32

/-- loc of a unit, and the unit of a loc (Table 6-4). -/
def locOf (t u : Nat) : Nat := if t = 3 then t3Dev u * 2 ^ 32 + t3Sett u else u

/-- Units a page of a number of setts takes in a tier. -/
def unitsIn (t setts : Nat) : Nat := if t < 2 then 1 else setts

/-! ### Page descriptors (Table 6-3) -/

/-- Bytes 0 to 27 of a descriptor. -/
def PD.body (d : PD) : List Byte :=
  leBytes 8 d.loc ++ leBytes 8 (d.posStart * 2 ^ 24 + d.posCount * 2 ^ 8)
    ++ leBytes 8 (d.seq * 2 ^ 40 + d.group * 2 ^ 28 + d.kind * 2 ^ 26 + d.tier * 2 ^ 24 + d.fmt * 2 ^ 20 + d.wfmt * 2 ^ 16
      + d.epoch * 2 ^ 8 + d.size * 16 + b2n d.opened * 8 + b2n d.lossy * 4 + b2n d.pinned * 2 + b2n d.poisoned)
    ++ leBytes 4 d.dataCrc
/-- The 32 bytes of a descriptor, with desc_crc (R164). -/
def PD.bytes (d : PD) : List Byte := d.body ++ leBytes 4 (crc32c d.body)

/-- A descriptor read from 32 bytes. -/
def pdOf (bs : List Byte) : PD :=
  let w1 := leNat ((bs.drop 8).take 8)
  let w2 := leNat ((bs.drop 16).take 8)
  ⟨leNat (bs.take 8), nbits w1 63 24, nbits w1 23 8, nbits w2 63 40, nbits w2 39 28, nbits w2 27 26, nbits w2 25 24, nbits w2 23 20,
    nbits w2 19 16, nbits w2 15 8, nbits w2 7 4, nbit w2 3, nbit w2 2, nbit w2 1, nbit w2 0, leNat ((bs.drop 24).take 4)⟩

/-- Address of a descriptor. -/
def State.pdAddr (s : State) (i : Nat) : Nat := (s.get R.ctxDescBase).toNat + 32 * i
/-- A descriptor as its bytes stand. -/
def State.pd (s : State) (i : Nat) : PD := pdOf (s.read (s.pdAddr i) 32)
/-- Whether a descriptor reads without error: unpoisoned, and with its CRC right (R164). -/
def State.pdOk (s : State) (i : Nat) : Bool :=
  let bs := s.read (s.pdAddr i) 32
  !s.poisoned (s.pdAddr i) 32 && crc32c (bs.take 28) == leNat (bs.drop 28)
/-- A descriptor written in one 32 B write, with its CRC. Every update reads it first; one that reads with an error is updated only to mark its page poisoned
(R164, R187). -/
def State.setPd (s : State) (i : Nat) (d : PD) : State := s.write (s.pdAddr i) d.bytes false
/-- The poisoned bit of a page's descriptor set (R187, Table 6-12). -/
def State.poisonPage (s : State) (i : Nat) : State := s.setPd i { s.pd i with poisoned := true }
/-- The unit of a page: in T3 the device is loc bits 49:32. -/
def PD.unit (d : PD) : Nat := match d.tier with | 0 => d.loc % 2 ^ 15 | 1 => d.loc % 2 ^ 23 | 2 => d.loc % 2 ^ 32 | _ => d.loc % 2 ^ 50
/-- Units a page holds in its tier. -/
def PD.units (d : PD) : Nat := unitsIn d.tier (d.size + 1)

/-! ### Sequence, group and chunk tables (Tables 6-1 and 6-2) -/

/-- Address of a sequence's entry, and the fields of one. -/
def State.seqAddr (s : State) (q : Nat) : Nat := (s.get R.ctxSeqBase).toNat + 64 * q
def State.seqW (s : State) (q i : Nat) : Nat := s.word (s.seqAddr q + 8 * i) 8
def State.seqState (s : State) (q : Nat) : Nat := if q < s.store.cap then nbits (s.seqW q 0) 63 56 else 0
def State.seqClass (s : State) (q : Nat) : Nat := nbits (s.seqW q 0) 55 52
def State.seqCtx (s : State) (q : Nat) : Nat := nbits (s.seqW q 0) 51 40
def State.seqGroups (s : State) (q : Nat) : Nat := nbits (s.seqW q 0) 39 27
def State.seqWfmt (s : State) (q : Nat) : Nat := nbits (s.seqW q 0) 26 23
def State.seqElems (s : State) (q : Nat) : Nat := nbits (s.seqW q 1) 63 48
def State.seqPpp (s : State) (q : Nat) : Nat := nbits (s.seqW q 1) 47 32
def State.seqLen (s : State) (q : Nat) : Nat := nbits (s.seqW q 2) 63 24
def State.seqWin (s : State) (q : Nat) : Nat := s.seqW q 3
def State.seqGtab (s : State) (q : Nat) : Nat := s.seqW q 4
def State.seqPages (s : State) (q : Nat) : Nat := s.seqW q 5

/-- The store's words written. -/
def State.put8 (s : State) (a v : Nat) : State := s.write a (leBytes 8 v) false
def State.put4 (s : State) (a v : Nat) : State := s.write a (leBytes 4 v) false

/-- A group's entry: its first chunk, kind, page count and open page. -/
def State.grpAddr (s : State) (q g : Nat) : Nat := s.seqGtab q + 16 * g
def State.grpChunk (s : State) (q g : Nat) : Nat := nbits (s.word (s.grpAddr q g) 8) 45 12 * 4096
def State.grpKind (s : State) (q g : Nat) : Nat := s.word (s.grpAddr q g) 8 % 4
def State.grpPages (s : State) (q g : Nat) : Nat := s.word (s.grpAddr q g + 8) 4
def State.grpOpen (s : State) (q g : Nat) : Nat := s.word (s.grpAddr q g + 12) 4

/-- The chunk with index k in a chain. -/
def State.chunkAt (s : State) (c : Nat) : Nat → Nat
  | 0 => c
  | k + 1 => s.chunkAt (s.word (c + 4088) 8) k

/-- The descriptor index of page k of a group. -/
def State.pageIdx (s : State) (q g k : Nat) : Option Nat :=
  if k < s.grpPages q g then some (s.word (s.chunkAt (s.grpChunk q g) (k / 1022) + 4 * (k % 1022)) 4) else none

/-- The descriptors of a group, of a sequence. -/
def State.grpDescs (s : State) (q g : Nat) : List Nat := (List.range (s.grpPages q g)).filterMap (s.pageIdx q g)
def State.seqDescs (s : State) (q : Nat) : List Nat := (List.range (s.seqGroups q)).flatMap (s.grpDescs q)

/-- Chunks of the pool taken: n contiguous ones, zeroed (log entry 20). -/
def State.takeChunks (s : State) (n : Nat) : Option (Nat × State) :=
  match findRun [(0, s.store.chunks)] s.store.chunkUsed n with
  | some c =>
    let s := { s with store := { s.store with chunkUsed := (List.range n).foldl (fun l i => sIns l (c + i)) s.store.chunkUsed } }
    some (s.store.chunkBase + 4096 * c, s.zero (s.store.chunkBase + 4096 * c) (4096 * n))
  | none => none
/-- The chunk numbers of addresses given back. -/
def State.giveChunks (s : State) (as : List Nat) : State :=
  { s with store := { s.store with chunkUsed := s.store.chunkUsed.filter fun c => !(as.contains (s.store.chunkBase + 4096 * c)) } }

/-- A free descriptor taken: the lowest (log entry 20). -/
def State.takeDesc (s : State) : Option (Nat × State) :=
  match findRun [(0, (s.get R.ctxDescCount).toNat)] s.store.descUsed 1 with
  | some i => some (i, (s.tableRead 4).modStore fun x => { x with descUsed := sIns x.descUsed i, descFree := x.descFree - 1 })
  | none => none

/-! ### Reads in flight and epochs (R171, R180) -/

/-- Whether a gather in execution reads a page, from a given unit where one is named. -/
def State.pageRead (s : State) (d : Nat) (at' : Option (Nat × Nat)) : Bool :=
  s.lanes.any fun e => match e.2.cur with
    | some g => g.pages.any fun p => p.1 == d && (match at' with | some (t, u) => p.2.tier == t && p.2.unit == u | none => true)
    | none => false

/-- Whether a descriptor's page is counted under an epoch: in T2 or T3 (R180). -/
def PD.under (d : PD) (e : Nat) : Bool := decide (2 ≤ d.tier) && d.epoch == e

/-- Pages of T2 and T3 whose descriptors name an epoch. -/
def State.pagesUnder (s : State) (e : Nat) : Nat := (s.store.descUsed.filter fun i => (s.pd i).under e).length

/-- Hoist reads of an epoch's pages in flight, from their issue until their last byte is decrypted: of gathers, and of moves (R180). -/
def State.epochReads (s : State) (e : Nat) : Nat :=
  ((s.lanes.flatMap fun l => match l.2.cur with | some g => if g.made then [] else g.pages | none => []).filter fun p => p.2.under e).length
    + (s.store.moves.filter fun m => m.2.phase == .reading && (s.pd m.1).under e).length

/-- The count of an epoch: the pages under it as the hub counts them, and the reads of them in flight (R180). -/
def State.epochPages (s : State) (e : Nat) : Nat := tgetD s.store.epochCnt e 0 + s.epochReads e

/-- The hub's count of an epoch's pages moved by a page that joins it or leaves it. -/
def State.epochIn (s : State) (tier e : Nat) : State :=
  if tier < 2 then s else { s with store := { s.store with epochCnt := tset s.store.epochCnt e 0 (tgetD s.store.epochCnt e 0 + 1) } }
def State.epochOut (s : State) (tier e : Nat) : State :=
  if tier < 2 then s else { s with store := { s.store with epochCnt := tset s.store.epochCnt e 0 (tgetD s.store.epochCnt e 0 - 1) } }

/-- Whether an epoch's count does not account for its pages, or its structure holds an error that no read has met (R300, R301). -/
def State.epochCheck (s : State) (e : Nat) : State :=
  let hold (s : State) : State := { s with store := { s.store with epochBad := true } }
  if s.countUe 9 e then hold (s.countMet 9 e)
  else if s.pagesUnder e = tgetD s.store.epochCnt e 0 then s
  else hold (s.breach 9 e (((tgetD s.store.epochCnt e 0 : Nat) : Int) - s.pagesUnder e) false)

/-- Epoch registers. -/
def State.curEpoch (s : State) : Nat := s.fget R.ctxStoreStatus 23 16
def State.oldEpoch (s : State) : Nat := s.fget R.ctxStoreStatus 15 8
def State.oldLive (s : State) : Bool := s.bget R.ctxStoreStatus 30
def State.storeInit (s : State) : Bool := s.bget R.ctxStoreStatus 31

/-- The key number of a live epoch (R179). -/
def State.epochKey (s : State) (e : Nat) : Option Nat :=
  if e = s.curEpoch then some s.store.curKey else if s.oldLive && e == s.oldEpoch then some s.store.oldKey else none

/-! ### CTX_STORE_INIT (R161) -/

/-- Rounding up to 64 KiB. -/
def up64K (n : Nat) : Nat := (n + 0xFFFF) / 0x10000 * 0x10000

/-- The checks of R161 on range, sizes and T0 granules. -/
def State.initOk (s : State) (base len sl d : Nat) (t0 : List Nat) : Bool :=
  base % 0x10000 == 0 && decide (10 ≤ sl) && decide (sl ≤ 24) && d % 1024 == 0 && decide (65536 ≤ d) && decide (d ≤ 2 ^ 28)
    && decide (0 < len) && s.hbmBacked base && s.hbmBacked (base + len - 1)
    && t0.all fun g => decide (g < 2048) && s.scrBacked (0x010000000000 + g * 0x100000)

/-- The state-store granules that another user of the scratchpad claims (R161): the retained library's place is HBM, so none but the
store's own (log entry 20). -/
def State.storeInitGo (s : State) (base len sl d c : Nat) (t0 : List Nat) : AxR :=
  if s.storeInit then refuse s dState
  else if !s.initOk base len sl d t0 || t0.eraseDups.length != t0.length then invalid s
  else
    let b1 := base + up64K (2 ^ sl * 64)
    let b2 := b1 + up64K (d * 32)
    let b3 := b2 + up64K (c * 4096)
    if base + len < b3 then invalid s
    else
      let frames := (base + len - b3) / 0x10000
      let s := s.zero base (b3 - base)
      let s := (s.set R.ctxSeqBase (BitVec.ofNat 64 base)).set R.ctxDescBase (BitVec.ofNat 64 b1)
      let s := (s.set R.ctxDescCount (BitVec.ofNat 64 d)).bset R.ctxStoreStatus 31 true
      let s := { s with keyCtr := s.keyCtr + 1 }
      let s := s.modStore fun _ =>
        { rBase := base, rLen := len, cap := 2 ^ sl, chunkBase := b2, chunks := c
          descFree := d, pools := (if t0.isEmpty then [] else [(0, t0.map fun g => (16 * g, 16))]) ++ [(1, [(b3 / 0x10000, frames)])], curKey := s.keyCtr }
      .done s 0 (p64 base ++ p64 b1 ++ p64 b2 ++ p64 frames)
def execCtxStoreInit (q : Req) (base len s' d : Nat) (s : State) : Outc :=
  run (mbxOk q) (axotte s q 0x0510 fun s => s.storeInitGo base len s' d (d / 512 + 2 ^ s' / 128) [])
def execCtxStoreInitExpert (q : Req) (base len s' d c : Nat) (t0 : List Nat) (s : State) : Outc :=
  run (mbxOk q) (axotte s q 0x8510 fun s => s.storeInitGo base len s' d c t0)

/-- A command of the store: refused with STATE while it is uninitialised. -/
def onStore (s : State) (f : State → AxR) : AxR := if s.storeInit then f s else refuse s dState
/-- A command on an open sequence. -/
def onSeq (s : State) (q : Nat) (f : State → AxR) : AxR := onStore s fun s => if s.seqState q = 1 then f s else refuse s dState

/-! ### Sequences (R158, R160) -/

/-- The conditions of R158. -/
def seqOk (groups elems wfmt ppp : Nat) : Bool :=
  decide (1 ≤ groups) && decide (groups ≤ 4096) && elems % 32 == 0 && decide (32 ≤ elems) && decide (elems ≤ 8192) && decide (wfmt ≤ 9)
    && rowBytes wfmt elems % 16 == 0 && ppp % 32 == 0 && decide (0 < ppp) && decide (ppp < 65536) && decide (pageSize wfmt elems ppp ≤ 0x10000)

/-- Whether the fields of CTX_SEQ_OPEN are in range. -/
def openOk (ctx groups elems wfmt ppp win cls : Nat) : Bool :=
  decide (ctx < 4096) && seqOk groups elems wfmt ppp && win % 0x10000 == 0 && decide (win + 0x10000 * groups ≤ 2 ^ 55) && decide (cls < 16)

/-- CTX_SEQ_OPEN: kinds by group. -/
def State.seqOpen (s : State) (q ctx groups elems wfmt ppp win cls : Nat) (kinds : List Nat) : AxR :=
  if s.store.cap ≤ q ∨ 4096 ≤ ctx ∨ !seqOk groups elems wfmt ppp ∨ win % 0x10000 ≠ 0 ∨ 2 ^ 55 < win + 0x10000 * groups
      ∨ kinds.any (fun k => decide (3 ≤ k)) then invalid s
  else if s.seqState q ≠ 0 then refuse s dState
  else match s.takeChunks (cdiv (16 * groups) 4096) with
    | none => refuse s dNoSpace
    | some (gt, s) =>
      let a := s.seqAddr q
      let s := s.put8 a (2 ^ 56 + cls * 2 ^ 52 + ctx * 2 ^ 40 + groups * 2 ^ 27 + wfmt * 2 ^ 23)
      let s := ((((s.put8 (a + 8) (elems * 2 ^ 48 + ppp * 2 ^ 32)).put8 (a + 16) 0).put8 (a + 24) win).put8 (a + 32) gt).put8 (a + 40) 0
      let s := (List.range groups).foldl (fun s g =>
        ((s.put8 (gt + 16 * g) (kinds.getD g 0)).put4 (gt + 16 * g + 8) 0).put4 (gt + 16 * g + 12) 0xFFFFFFFF) s
      .done s 0 []
def execCtxSeqOpen (q : Req) (seq ctx groups rowElems wfmt ppp : Nat) (window : W64) (s : State) : Outc :=
  run (mbxOk q) (axotte s q 0x0501 fun s => if !openOk ctx groups rowElems wfmt ppp window.toNat 0 then invalid s else onStore s fun s =>
    s.seqOpen seq ctx groups rowElems wfmt ppp window.toNat 0 ((List.range groups).map (· % 2)))
/-- CTX_SEQ_OPEN expert: a policy class and a list of kinds, a byte for each group, at an address (log entry 15). -/
def execCtxSeqOpenExpert (q : Req) (seq ctx groups rowElems wfmt ppp : Nat) (window : W64) (policy : Nat) (kinds : W64) (s : State) : Outc :=
  run (mbxOk q) (axotte s q 0x8501 fun s => if !openOk ctx groups rowElems wfmt ppp window.toNat policy then invalid s else onStore s fun s =>
    s.withImage kinds groups fun s bs => match bs with
      | none => refuse s dHole
      | some bs => s.seqOpen seq ctx groups rowElems wfmt ppp window.toNat policy (bs.map (·.toNat)))

/-- CTX_SEQ_CLOSE: the sequence is closing; SEQ_CLOSE_FINISH frees it (Table 6-12). -/
def execCtxSeqClose (q : Req) (seq obj : Nat) (s : State) : Outc :=
  run (mbxOk q) (axotte s q 0x0502 fun s => if !objOk obj then invalid s else onSeq s seq fun s =>
    let a := s.seqAddr seq
    let s := s.put8 a (s.seqW seq 0 % 2 ^ 56 + 2 * 2 ^ 56)
    .done { s with store := { s.store with closing := tput s.store.closing seq obj } } 0 [])

/-- A page's units freed, a frame of T0 or T1 zeroed first where the page is poisoned (Table 6-12). A page whose descriptor cannot be read keeps what it may
hold: a doubtful count is withheld. -/
def State.freePage (s : State) (i : Nat) : State :=
  if !s.pdOk i then s.poisonPage i
  else
    let d := s.pd i
    let s := if d.poisoned ∧ d.tier < 2 then s.zero (unitAddr d.tier d.unit) 0x10000 else s
    let s := (s.giveUnits d.tier d.unit d.units).epochOut d.tier d.epoch
    (s.zero (s.pdAddr i) 32).modStore fun x =>
      { x with descUsed := sDel x.descUsed i, descFree := x.descFree + 1, age := tdel x.age i, promote := sDel x.promote i, zeroed := sDel x.zeroed i }

/-- The chunks of a group's page list. -/
def State.chain (s : State) : Nat → Nat → List Nat
  | 0, _ => []
  | n + 1, c => if c = 0 then [] else c :: s.chain n (s.word (c + 4088) 8)

/-- The setts of zeros that a poisoned page of T2 or T3 is rewritten with (Table 6-12). -/
def PD.zeros (d : PD) : List (Nat × List Byte) := (List.range (d.size + 1)).map fun k => (k, List.replicate 4096 0)

/-- One sett of a page move, or of a zeroed page, sent to the host or to a peer, or left waiting. -/
def State.settOut (s : State) (i : Nat) (v : MoveSt) (p : Nat × List Byte) : State × MoveSt :=
  if v.tier = 3 then
    match s.tksAsk (.moveWr i) (s.reqFrame (t3Dev v.unit) 3 0x0B 0 0 4096 (BitVec.ofNat 64 (t3Sett v.unit + p.1)) 0 p.2 false) with
    | .sent _ s => (s, { v with unacked := v.unacked + 1 })
    | _ => (s, { v with out := v.out ++ [p] })
  else
    let r := s.gWrite ⟨.hoist, v.hoist⟩ (16 + i) (s.gOwn (unitAddr 2 v.unit + 4096 * p.1)) 3 p.2 false
    (r.1, { v with unacked := v.unacked + r.2 })

/-- The setts that wait to be sent, sent as far as they can go: one try for each. -/
def State.settsOut (s : State) (i : Nat) (v : MoveSt) : State × MoveSt :=
  v.out.foldl (fun (a : State × MoveSt) p => a.1.settOut i a.2 p) (s, { v with out := [] })

/-- Whether a move's destination, or a page to be zeroed, cannot be reached (R26, R335, R341). -/
def State.moveLost (s : State) (v : MoveSt) : Bool :=
  if v.tier = 3 then !s.tksOn || (s.route (t3Dev v.unit)).isNone
  else decide (v.tier = 2) && s.gHole (s.gOwn (unitAddr 2 v.unit)) (4096 * v.count)

/-- A poisoned page of T2 or T3 of a closing sequence: its zeros sent, and, once they are acknowledged or can reach nothing, marked zeroed. -/
def State.zeroPage (s : State) (i : Nat) : State :=
  let d := s.pd i
  let v := match tget s.store.moves i with
    | some v => v
    | none => { tier := d.tier, fmt := d.fmt, unit := d.unit, count := d.units, srcTier := d.tier, srcUnit := d.unit, srcCount := d.units, phase := .zeroing, out := d.zeros }
  let r := if s.moveLost v then (s, { v with out := [], unacked := 0 }) else s.settsOut i v
  if r.2.out.isEmpty && r.2.unacked == 0 then { r.1 with store := { r.1.store with moves := tdel r.1.store.moves i, zeroed := sIns r.1.store.zeroed i } }
  else { r.1 with store := { r.1.store with moves := tput r.1.store.moves i r.2 } }

/-- Pages of a sequence still to be zeroed. -/
def State.unzeroed (s : State) (q : Nat) : List Nat :=
  (s.seqDescs q).filter fun i => s.pdOk i && (s.pd i).poisoned && decide (2 ≤ (s.pd i).tier) && !s.store.zeroed.contains i

/-- Whether a closing sequence waits: for appends, gathers or moves, other than the zeroing of its pages. -/
def State.closeWaits (s : State) (q : Nat) : Bool :=
  s.store.appends.any (fun w => w.seq == q)
    || (s.seqDescs q).any fun i => s.pageRead i none || (match tget s.store.moves i with | some v => v.phase != .zeroing | none => false)

/-- SEQ_CLOSE_FINISH: once gathers and moves of a closing sequence have finished, and the zeros of its poisoned pages are acknowledged (Table 6-12, R292). -/
def State.seqFinish (s : State) (q : Nat) : State :=
  match tget s.store.closing q with
  | none => s
  | some obj =>
    if s.closeWaits q then s
    else
      let s := (s.unzeroed q).foldl State.zeroPage s
      if !(s.unzeroed q).isEmpty then s
      else
        let ds := s.seqDescs q
        let gs := List.range (s.seqGroups q)
        let cs := gs.flatMap (fun g => s.chain (s.grpPages q g / 1022 + 1) (s.grpChunk q g))
          ++ (List.range (cdiv (16 * s.seqGroups q) 4096)).map (fun i => s.seqGtab q + 4096 * i)
        let s := (ds.foldl State.freePage s).giveChunks cs
        let s := s.zero (s.seqAddr q) 64
        { s with store := { s.store with closing := tdel s.store.closing q } }.signal obj

/-- Pages of a sequence in a tier. -/
def State.seqTier (s : State) (q t : Nat) : Nat := ((s.seqDescs q).filter fun i => (s.pd i).tier == t).length
/-- CTX_SEQ_QUERY: the entry, and pages per tier. -/
def execCtxSeqQuery (q : Req) (seq : Nat) (s : State) : Outc :=
  run (mbxOk q) (axotte s q 0x0503 fun s => onSeq s seq fun s =>
    .done s 0 (s.read (s.seqAddr seq) 64 ++ [0, 1, 2, 3].flatMap fun t => p32 (s.seqTier seq t)))

/-! ### Appending (R168) -/

/-- The settings of a policy class (Table 6-6). -/
def State.clsPol (s : State) (c : Nat) : ClassPol := tgetD s.policy.cls c {}

/-- A frame for a new page: in the append tier, or in T1 where that is T0 and has none. -/
def State.takeFrame (s : State) (tier : Nat) : Option (Nat × Nat × State) :=
  match s.takeUnits tier 1 with
  | some (u, s) => some (tier, u, s)
  | none => if tier = 0 then (s.takeUnits 1 1).map fun p => (1, p.1, p.2) else none

/-- A page linked at the end of a group's list, with a chunk where the last is full. -/
def State.linkPage (s : State) (q g i : Nat) : Option State :=
  let n := s.grpPages q g
  let a := s.grpAddr q g
  let done (s : State) (c : Nat) : State := ((s.put4 (c + 4 * (n % 1022)) i).put4 (a + 8) (n + 1)).put4 (a + 12) i
  if n % 1022 ≠ 0 then some (done s (s.chunkAt (s.grpChunk q g) (n / 1022)))
  else match s.takeChunks 1 with
    | none => none
    | some (c, s) =>
      if n = 0 then some (done (s.put8 a (c + s.grpKind q g)) c)
      else some (done (s.put8 (s.chunkAt (s.grpChunk q g) (n / 1022 - 1) + 4088) c) c)

/-- One page appended to a group: frame, descriptor, list and mapping (R168). The failure is 1 for want of a frame, else a detail. -/
def State.appendPage (s : State) (q g : Nat) : Sum Nat (Nat × State) :=
  match s.takeFrame (s.clsPol (s.seqClass q)).append with
  | none => .inl 1
  | some (tier, u, s) =>
    match s.takeDesc with
    | none => .inl dNoSpace
    | some (i, s) =>
      let f := s.seqWfmt q
      let d : PD := { loc := u, posStart := s.grpPages q g * s.seqPpp q, posCount := 0, seq := q, group := g, kind := s.grpKind q g
                      tier := tier, fmt := f, wfmt := f, size := cdiv (pageSize f (s.seqElems q) (s.seqPpp q)) 4096 - 1, opened := true }
      match (s.setPd i d).linkPage q g i with
      | none => .inl dNoSpace
      | some s =>
        let s := s.put8 (s.seqAddr q + 40) (s.seqPages q + 1)
        let s := { s with store := { s.store with age := tdel s.store.age i } }
        let ctx := s.seqCtx q
        let va := s.seqWin q + 0x10000 * g
        let root := s.fget (R.xltCtx ctx) 45 16 * 0x10000
        if !s.bget (R.xltCtx ctx) 63 then .inl dContextDead
        else if s.mapped root va then .inl dState
        else
          let (s, e) := s.mapRange ctx root (s.bget (R.xltCtx ctx) 61) false true false 2 va (s.gOwn (unitAddr tier u)) 0x10000
          if e = 0 then .inr (i, s) else .inl e

/-- Pages appended to groups in order, all or none. -/
def State.appendAll (s : State) (q : Nat) : List Nat → Sum Nat (List Nat × State)
  | [] => .inr ([], s)
  | g :: gs =>
    match s.appendPage q g with
    | .inl e => .inl e
    | .inr (i, s) =>
      match s.appendAll q gs with
      | .inl e => .inl e
      | .inr (is, s) => .inr (i :: is, s)

/-- Whether an unmap that a seal started runs or waits on a window slot (R168). -/
def State.slotUnmaps (s : State) (ctx va : Nat) : Bool :=
  s.store.unmapQ.any (fun u => u.ctx == ctx && u.va == va)
    || s.inv.any fun e => e.2.commit.isSome && s.invMeets e.1 ctx va 0x10000

/-- An append whose pages are allocated ends once no earlier unmap remains on its slots. -/
def State.appendEnd (s : State) (w : AppendW) : State :=
  match w.descs with
  | none => s
  | some ds =>
    if (List.range w.gCount).any (fun i => s.slotUnmaps (s.seqCtx w.seq) (s.seqWin w.seq + 0x10000 * (w.gFirst + i))) then s
    else { s with store := { s.store with appends := s.store.appends.filter (fun x => x.mbx != w.mbx) } }.axFinish w.mbx stDone 0 (ds.flatMap p32)

/-- An append tried (again): allocated, or ended with a detail, or left waiting for a frame. -/
def State.appendTry (s : State) (w : AppendW) : State :=
  let put (s : State) (w : AppendW) : State :=
    { s with store := { s.store with appends := s.store.appends.map fun x => if x.mbx = w.mbx then w else x } }
  match w.descs with
  | some _ => s.appendEnd w
  | none =>
    match s.appendAll w.seq ((List.range w.gCount).map (· + w.gFirst)) with
    | .inr (ds, s) => (put s { w with descs := some ds }).appendEnd { w with descs := some ds }
    | .inl 1 => s
    | .inl e => { s with store := { s.store with appends := s.store.appends.filter (fun x => x.mbx != w.mbx) } }.axFinish w.mbx stRefused e []

/-- Every append that waits tried again: after units have come free or an unmap has ended. -/
def State.appendRetry (s : State) : State := s.store.appends.foldl State.appendTry s

/-- CTX_PAGE_APPEND. -/
def execCtxPageAppend (q : Req) (seq gFirst gCount : Nat) (s : State) : Outc :=
  run (mbxOk q) (axotte s q 0x0504 fun s => if gCount = 0 then invalid s else onSeq s seq fun s =>
    if s.seqGroups seq < gFirst + gCount then invalid s
    else if s.store.broken then refuse s dState
    else if (List.range gCount).any (fun i => s.grpOpen seq (gFirst + i) != 0xFFFFFFFF)
        || s.store.appends.any (fun w => w.seq == seq && decide (w.gFirst < gFirst + gCount) && decide (gFirst < w.gFirst + w.gCount)) then
      refuse s dState
    else
      let w : AppendW := { mbx := q.mbx, seq := seq, gFirst := gFirst, gCount := gCount }
      .wait ({ s with store := { s.store with appends := s.store.appends ++ [w] } }.appendTry w))

/-- CTX_APPEND_TIMEOUT (R168): demotion has freed no frame in 10 ms. -/
def State.appendTimeout (s : State) (m : Nat) : State :=
  match s.store.appends.find? (fun w => w.mbx == m) with
  | some ⟨_, _, _, _, none⟩ =>
    { s with store := { s.store with appends := s.store.appends.filter (fun x => x.mbx != m) } }.axFinish m stRefused dNoSpace []
  | _ => s
def execCtxAppendTimeout (mbx : Nat) (s : State) : Outc := run (mbx < 28) (s.appendTimeout mbx)

/-! ### Committing (R169) -/

/-- Open pages of a sequence: group and descriptor. -/
def State.openPages (s : State) (q : Nat) : List (Nat × Nat) :=
  (List.range (s.seqGroups q)).filterMap fun g => if s.grpOpen q g = 0xFFFFFFFF then none else some (g, s.grpOpen q g)

/-- The longest length a commit may give: the end of the open pages, or the present length. -/
def State.commitMax (s : State) (q : Nat) : Nat :=
  (s.openPages q).foldl (fun n p => max n ((s.pd p.2).posStart + s.seqPpp q)) (s.seqLen q)

/-- An unmap of a seal put on one of slots 12 to 15, where one is free (R236): phase 1 of it has still to run. -/
def State.sealGo (s : State) (u : SealU) : Option State :=
  match [12, 13, 14, 15].find? (fun k => !s.bget (R.xltInvCtl k) 30) with
  | none => none
  | some k =>
    let s := s.set (R.xltInvCtl k) (BitVec.ofNat 64 u.ctx)
    let s := (s.set (R.xltInvVa k) (BitVec.ofNat 64 u.va)).set (R.xltInvLen k) 0x10000
    some (s.invGo k { commit := some u.commit })

/-- Waiting unmaps of seals put on free slots, oldest first; the first argument is fuel. -/
def State.sealPump (s : State) : Nat → State
  | 0 => s
  | n + 1 =>
    match s.store.unmapQ with
    | [] => s
    | u :: r =>
      match s.sealGo u with
      | none => s
      | some s => { s with store := { s.store with unmapQ := r } }.sealPump n

/-- The bytes of a page in T0 or T1. -/
def State.pageBytes01 (s : State) (d : PD) : List Byte := s.read (unitAddr d.tier d.unit) (pageSize d.fmt (s.seqElems d.seq) (s.seqPpp d.seq))

/-- One open page after a commit: its count, and the seal of a full one: data_crc, open cleared, its window slot unmapped. A page whose descriptor reads with
an error is marked poisoned, and no more (R164). -/
def State.commitPage (s : State) (q len c : Nat) (p : Nat × Nat) : State × Nat :=
  let d := s.pd p.2
  let n := min (s.seqPpp q) (len - d.posStart)
  if !s.pdOk p.2 then (s.poisonPage p.2, 0)
  else if n < s.seqPpp q then (s.setPd p.2 { d with posCount := n }, 0)
  else
    let s := s.setPd p.2 { d with posCount := n, opened := false, dataCrc := crc32c (s.pageBytes01 d) }
    let s := s.put4 (s.grpAddr q p.1 + 12) 0xFFFFFFFF
    let ctx := s.seqCtx q
    let va := s.seqWin q + 0x10000 * p.1
    let s := s.unmapPage (s.fget (R.xltCtx ctx) 45 16 * 0x10000) va
    ({ s with store := { s.store with unmapQ := s.store.unmapQ ++ [⟨ctx, va, c⟩] } }, 1)

/-- CTX_PAGE_COMMIT. -/
def State.commit (s : State) (q len obj : Nat) : AxR :=
  if len < s.seqLen q ∨ s.commitMax q < len then invalid s
  else
    let c := s.store.nextCommit
    let s := s.put8 (s.seqAddr q + 16) (len * 2 ^ 24)
    let (s, n) := (s.openPages q).foldl (fun a p => let b := a.1.commitPage q len c p; (b.1, a.2 + b.2)) (s, 0)
    let s := { s with store := { s.store with nextCommit := c + 1 } }
    if n = 0 then .done (s.signal obj) 0 (p32 0)
    else
      let s := { s with store := { s.store with commits := tput s.store.commits c obj } }
      .done (s.sealPump s.store.unmapQ.length) 0 (p32 n)
def execCtxPageCommit (q : Req) (seq len obj : Nat) (s : State) : Outc :=
  run (mbxOk q) (axotte s q 0x0505 fun s => if !objOk obj then invalid s else onSeq s seq fun s => s.commit seq len obj)

/-- The unmap of a seal ended: its commit's object is signalled with the last of them, the next waiting one takes the slot, and
appends on the slot may end. -/
def State.sealDone (s : State) (c : Nat) : State :=
  let left := s.store.unmapQ.any (fun u => u.commit == c) || s.inv.any fun e => e.2.commit == some c
  let s := if left then s
    else { s with store := { s.store with commits := tdel s.store.commits c } }.signal (tgetD s.store.commits c 0xFFFF)
  (s.sealPump s.store.unmapQ.length).appendRetry

def execSeqCloseFinish (seq : Nat) (s : State) : Outc := .next (s.seqFinish seq).appendRetry

end Sys2Proof.Machine
end

