-- ==== Sys2Proof/Machine/Hoist.lean ====
section
/-! DEFINITION. Page moves, re-quantization and gathers (chapter 6): how a hoist reads a page of each tier, narrows it, moves it, and
delivers it to a tile. -/

namespace Sys2Proof.Machine

/-- The master that is hoist n. -/
def hoist (n : Nat) : Master := ⟨.hoist, n⟩

/-! ### Reading a page -/

/-- Whether a page's bytes can be taken: at once, after answers, or not at all because its tier is unreachable (R187). -/
inductive PageS where
  | ready | waits | lost
deriving DecidableEq, Repr

/-- Global address and length of a page that is not in a peer. -/
def State.pageAt (s : State) (d : PD) : Nat × Nat :=
  (s.gOwn (unitAddr d.tier d.unit), if d.tier < 2 then pageSize d.fmt (s.seqElems d.seq) (s.seqPpp d.seq) else 0x1000 * (d.size + 1))

/-- The state of a page's bytes; setts of a peer's page are held under 16 desc + sett. Of a page whose descriptor reads with an error nothing is read (R164). -/
def State.pageS (s : State) (m : Master) (i : Nat) (d : PD) (got : Tbl (List Byte)) : PageS :=
  if !s.pdOk i then .ready
  else if d.tier = 3 then
    if (List.range (d.size + 1)).all fun k => (tget got (16 * i + k)).isSome then .ready
    else if !s.tksOn || (s.route (t3Dev d.unit)).isNone then .lost else .waits
  else
    let (g, n) := s.pageAt d
    if s.gHole g n || s.gErr g n != 0 then .lost else if s.gReady m g n then .ready else .waits

/-- The stored bytes of a ready page, and whether they are poisoned. -/
def State.pageRaw (s : State) (m : Master) (tc i : Nat) (d : PD) (got : Tbl (List Byte)) : List Byte × Bool × State :=
  if !s.pdOk i then ([], true, s)
  else if d.tier = 3 then ((List.range (d.size + 1)).flatMap fun k => tgetD got (16 * i + k) [], false, s)
  else
    let (g, n) := s.pageAt d
    s.gRead m g n tc

/-- Offsets within a page of T0 or T1 of its 128 B lines that are poisoned: by the data that a snoop has brought, else as the array holds them after the read. -/
def State.badLines (s after : State) (d : PD) : List Nat :=
  let (g, n) := s.pageAt d
  let a := gLocal g
  if 2 ≤ d.tier then []
  else ((linesOf a n).filter fun l => match tget s.curData l with | some (_, p) => p | none => after.poison.contains (128 * l)).map fun l => 128 * l - a

/-- A hole met by a hoist at a page it cannot reach (R26 to R28, R310). -/
def State.pageHole (s : State) (n : Nat) (d : PD) : State :=
  s.hole (hoist n) 0 (if d.tier = 3 then t3Dev d.unit * 2 ^ 46 + t3Sett d.unit * 4096 else (s.pageAt d).1)

/-- The tweak of one sett (R178). -/
def State.tweak (s : State) (i k : Nat) : Nat := s.ownDev * 2 ^ 40 + i * 2 ^ 8 + k

/-- The setts of bytes, each under its number. -/
def setts (bs : List Byte) : List (Nat × List Byte) := (List.range (bs.length / 4096)).map fun k => (k, (bs.drop (4096 * k)).take 4096)

/-- A page's plaintext in its format, and whether it is bad: poisoned, of an epoch not live (R182), or, where asked or fetched from T2
or T3, with data_crc wrong (R164). -/
def State.plain (s : State) (i : Nat) (d : PD) (raw : List Byte) (bad check : Bool) : List Byte × Bool :=
  let n := pageSize d.fmt (s.seqElems d.seq) (s.seqPpp d.seq)
  if d.tier < 2 then
    let bs := raw.take n
    (bs, bad || d.poisoned || (check && crc32c bs != d.dataCrc))
  else
    match s.epochKey d.epoch with
    | none => (raw.take n, true)
    | some key =>
      let bs := ((setts raw).flatMap fun p => Config.xts.dec key (s.tweak i p.1) p.2).take n
      (bs, bad || d.poisoned || crc32c bs != d.dataCrc)

/-! ### Rows and re-quantization (R175, R185) -/

/-- Element codes and scale words of row r of a page. -/
def rowCodes (f elems : Nat) (bs : List Byte) (r : Nat) : List Nat :=
  unpackBits (fmtBits f) elems (leNat ((bs.drop (r * rowBytes f elems)).take (rowBytes f elems)))
def rowScales (f elems ppp : Nat) (bs : List Byte) (r : Nat) : List Nat :=
  if fmtScaled f then
    unpackBits (if f = 8 then 16 else 8) (elems / 32) (leNat ((bs.drop (ppp * rowBytes f elems + r * rowScale f elems)).take (rowScale f elems)))
  else []

/-- A block of 32 values put in a format, RNE and saturating, block scales by rule 1: codes, scale word, elements saturated. -/
def requant (f : Nat) (vs : List Num) : List Nat × Nat × Nat :=
  if fmtScaled f then
    let x := blockScale f true vs
    let os := if f = 8 then [0, 1, 2, 3].map (fun j => subOffset vs ((vs.drop (8 * j)).take 8)) else []
    let (cs, sc, _) := quantBlock f true true 0 (vs.map fun v => (v, 0))
    let sat (p : Num × Nat) : Bool :=
      let o : Nat := if f = 8 then os.getD (p.2 / 8) 0 else 0
      (convElem f true 0 0 (p.1.scale (-x + (o : Int)))).2.1 &&& fSatHit != 0
    (cs, sc, ((vs.zip (List.range vs.length)).filter sat).length)
  else
    let rs := vs.map fun v => convElem f true 0 0 v
    (rs.map (·.1), 0, (rs.filter fun r => r.2.1 &&& fSatHit != 0).length)

/-- Values of a block of a row. -/
def blockVals (f : Nat) (codes scales : List Nat) (b : Nat) : List Num :=
  (List.range 32).map fun j => blockValue f (scales.getD b 0) j (codes.getD (32 * b + j) 0)

/-- A page in format f brought to format g (R175): bytes and elements saturated. -/
def narrow (f g elems ppp : Nat) (bs : List Byte) : List Byte × Nat :=
  let rows := (List.range ppp).map fun r =>
    let cs := rowCodes f elems bs r
    let sc := rowScales f elems ppp bs r
    (List.range (elems / 32)).map fun b => requant g (blockVals f cs sc b)
  let elem := rows.flatMap fun row => packBytes (fmtBits g) (row.flatMap (·.1))
  let scal := if fmtScaled g then rows.flatMap fun row => row.flatMap (fun b => leBytes (if g = 8 then 2 else 1) b.2.1) else []
  (elem ++ scal, rows.foldl (fun n row => row.foldl (fun n b => n + b.2.2) n) 0)

/-! ### Page moves (R172, R173) -/

/-- Setts of a page in a format. -/
def State.pageSetts (s : State) (d : PD) (f : Nat) : Nat := cdiv (pageSize f (s.seqElems d.seq) (s.seqPpp d.seq)) 4096

/-- A move in progress, changed. -/
def State.setMove (s : State) (i : Nat) (v : MoveSt) : State := { s with store := { s.store with moves := tput s.store.moves i v } }
def State.dropMove (s : State) (i : Nat) : State := { s with store := { s.store with moves := tdel s.store.moves i } }

/-- A page selected for a move to a tier in a format (step 1 of Table 6-7). -/
def State.choose (s : State) (i tier fmt : Nat) : State :=
  let d := s.pd i
  s.setMove i { tier := tier, fmt := fmt, srcTier := d.tier, srcUnit := d.unit, srcCount := d.units }

/-- A move abandoned, its destination units given back and the move counted. -/
def State.abandon (s : State) (i h : Nat) (poison : Bool) : State :=
  match tget s.store.moves i with
  | none => s
  | some v =>
    let s := if v.count = 0 then s else s.giveUnits v.tier v.unit v.count
    let s := if poison then s.poisonPage i else s
    (s.dropMove i).bump (R.ctxAbandon h) 32 1

/-- A write of a move that its destination has refused: the move is abandoned; where it was a zero of a page to be freed, nothing more is sent of it. -/
def State.moveFailed (s : State) (i h : Nat) : State :=
  match tget s.store.moves i with
  | none => s
  | some v => if v.phase = .zeroing then s.setMove i { v with unacked := v.unacked - 1 } else s.abandon i h false

/-- Bytes filled to whole setts with bytes the manual does not give. -/
def State.fillSetts (s : State) (bs : List Byte) (n : Nat) : List Byte × State :=
  let k := 4096 * n - bs.length
  (bs ++ s.freeBytes k, { s with freeCtr := s.freeCtr + k })

/-- The bytes written to the destination of a move (step 6): setts of T2 and T3 that stall wait to be sent. -/
def State.moveWrite (s : State) (i h : Nat) (v : MoveSt) (bs : List Byte) : State × MoveSt :=
  if 2 ≤ v.tier then s.settsOut i { v with out := setts bs }
  else
    let r := s.gWrite (hoist h) (16 + i) (s.gOwn (unitAddr v.tier v.unit)) 3 bs false
    (r.1, { v with unacked := r.2 })

/-- Steps 3 to 6 for a page whose bytes are ready. -/
def State.moveDo (s : State) (i h : Nat) (v : MoveSt) : State :=
  let d := s.pd i
  let (raw, bad, s) := s.pageRaw (hoist h) 3 i d v.got
  let (pt, bad) := s.plain i d raw bad true
  if bad then s.abandon i h true
  else if s.moveLost v then s.abandon i h false
  else
    let same := v.fmt = d.fmt
    let keep := same ∧ 2 ≤ d.tier ∧ 2 ≤ v.tier ∧ v.tier ≠ d.tier ∧ d.epoch = s.curEpoch
    let (bs, sat) := if same then (pt, 0) else narrow d.fmt v.fmt (s.seqElems d.seq) (s.seqPpp d.seq) pt
    let s := s.bump (R.ctxSat h) 32 sat
    let (out, s) := if keep then (raw, s) else if v.tier < 2 then (bs, s)
      else
        let (b, s) := s.fillSetts bs (s.pageSetts d v.fmt)
        ((setts b).flatMap fun p => Config.xts.enc s.store.curKey (s.tweak i p.1) p.2, s)
    let (s, v) := s.moveWrite i h { v with phase := .writing, got := [], want := [], crc := crc32c bs, lossy := d.lossy || decide (¬ same), hoist := h
                                           epoch := if v.tier < 2 then 0 else s.curEpoch } out
    s.setMove i v

/-- Setts of a peer's page asked for that are neither here nor asked; a stalled request is tried again later. -/
def State.moveAsk (s : State) (i : Nat) (d : PD) (v : MoveSt) : State × MoveSt :=
  ((List.range (d.size + 1)).filter fun k => (tget v.got k).isNone && !v.want.contains k).foldl (fun (a : State × MoveSt) k =>
    match a.1.tksAsk (.moveRd i k) (a.1.reqFrame (t3Dev d.unit) 3 0x0A 0 0 4096 (BitVec.ofNat 64 (t3Sett d.unit + k)) 0 [] false) with
    | .sent _ s => (s, { a.2 with want := sIns a.2.want k })
    | _ => a) (s, v)

/-- Steps 3 to 6: the source read once its bytes are here. -/
def State.moveGo (s : State) (i h : Nat) (v : MoveSt) : State :=
  let d := s.pd i
  let got : Tbl (List Byte) := v.got.map fun p : Nat × List Byte => (16 * i + p.1, p.2)
  match s.pageS (hoist h) i d got with
  | .lost => (s.pageHole h d).abandon i h true
  | .ready =>
    if s.pdOk i && decide (d.tier < 2) && !s.regOpen (.other (hoist h)) (gLocal (s.pageAt d).1) 3 (s.pageAt d).2 then s.setMove i { v with phase := .reading }
    else s.moveDo i h { v with got := got }
  | .waits =>
    if d.tier = 3 then
      let (s, v) := s.moveAsk i d v
      s.setMove i { v with phase := .reading }
    else
      let (g, n) := s.pageAt d
      (s.gAsk (hoist h) g n 3).setMove i { v with phase := .reading }

/-- PAGE_MOVE_START: step 2, then steps 3 to 6 as far as the bytes are here and the writes can go. A re-encryption waits for setts (R181); any other move
that finds none is abandoned. -/
def State.moveStart (s : State) (i h : Nat) : State :=
  match tget s.store.moves i with
  | none => s
  | some v =>
    match v.phase with
    | .chosen =>
      let d := s.pd i
      let n := unitsIn v.tier (s.pageSetts d v.fmt)
      match s.takeUnits v.tier n with
      | some (u, s) => s.moveGo i h { v with unit := u, count := n }
      | none => if v.tier = d.tier ∧ v.fmt = d.fmt then s else s.abandon i h false
    | .reading => s.moveGo i h v
    | .writing =>
      if v.out.isEmpty then s
      else if s.moveLost v then s.abandon i v.hoist false
      else let r := s.settsOut i v; r.1.setMove i r.2
    | _ => s
def execPageMoveStart (desc hoist : Nat) (s : State) : Outc := run (hoist < 64) (s.moveStart desc hoist)

/-- Step 7. -/
def State.moveRewrite (s : State) (i : Nat) : State :=
  match tget s.store.moves i with
  | none => s
  | some v =>
    if v.phase = .writing ∧ v.unacked = 0 ∧ v.out.isEmpty then
      let d := s.pd i
      if !s.pdOk i then s.abandon i v.hoist true
      else
        (((s.epochOut d.tier d.epoch).epochIn v.tier v.epoch).setPd i
            { d with loc := locOf v.tier v.unit, tier := v.tier, fmt := v.fmt, epoch := v.epoch, size := s.pageSetts d v.fmt - 1, lossy := v.lossy
                     dataCrc := v.crc }).setMove i { v with phase := .rewritten }
    else s
def execPageMoveDescriptorRewrite (desc : Nat) (s : State) : Outc := .next (s.moveRewrite desc)

/-- Step 8. -/
def State.moveFree (s : State) (i : Nat) : State :=
  match tget s.store.moves i with
  | none => s
  | some v =>
    if v.phase = .rewritten ∧ !s.pageRead i (some (v.srcTier, v.srcUnit)) then
      (((s.giveUnits v.srcTier v.srcUnit v.srcCount).dropMove i).bump (R.ctxMoved v.hoist) 32 1).appendRetry
    else s
def execPageMoveSourceFree (desc : Nat) (s : State) : Outc := .next (s.moveFree desc)

/-! ### Policy (R171, R174, R181) -/

/-- Whether a page may be moved at all: allocated, its descriptor readable (R164), sealed, not poisoned, not moving. -/
def State.movable (s : State) (i : Nat) : Bool :=
  !s.store.broken && s.store.descUsed.contains i && s.pdOk i && !(s.pd i).opened && !(s.pd i).poisoned && (tget s.store.moves i).isNone

/-- The format a page takes in a tier (R175): the class's, where it is narrower and the page is not of kind S. -/
def State.fmtIn (s : State) (d : PD) (tier : Nat) : Nat :=
  match (s.clsPol (s.seqClass d.seq)).tfmt.getD tier none with
  | some f => if d.kind ≠ 2 ∧ fmtBits f < fmtBits d.fmt then f else d.fmt
  | none => if d.kind ≠ 2 ∧ fmtBits d.wfmt < fmtBits d.fmt then d.wfmt else d.fmt

/-- Victims of a tier (R171) whose class names a next tier. -/
def State.victims (s : State) (t : Nat) : List Nat :=
  s.store.descUsed.filter fun i =>
    let d := s.pd i
    d.tier == t && s.movable i && !d.pinned && !s.pageRead i none && ((s.clsPol (s.seqClass d.seq)).next.getD t none).isSome

/-- Units of a tier that stay in use once the moves under way have ended. -/
def State.tierUse (s : State) (t : Nat) : Nat :=
  (s.tierUsed t).length - ((s.store.moves.filter fun e => e.2.srcTier == t).foldl (fun n e => n + e.2.srcCount) 0)

/-- One victim chosen: of the oldest age, which reaches 3 by raising every page of the tier, and the lowest descriptor. -/
def State.demote1 (s : State) (t : Nat) : Option State :=
  let vs := s.victims t
  let a := vs.foldl (fun m i => max m (tgetD s.store.age i 0)) 0
  match vs.find? fun i => tgetD s.store.age i 0 == a with
  | none => none
  | some i =>
    let age := s.store.descUsed.foldl (fun t' j =>
      if s.pdOk j ∧ (s.pd j).tier = t then tset t' j 0 (min 3 (tgetD s.store.age j 0 + (3 - a))) else t') s.store.age
    let s := { s with store := { s.store with age := age } }
    match (s.clsPol (s.seqClass (s.pd i).seq)).next.getD t none with
    | some n => some (s.choose i n (s.fmtIn (s.pd i) n))
    | none => none

/-- Victims chosen until the use falls to low; the first argument is fuel. -/
def State.demoteGo (s : State) (t : Nat) : Nat → State
  | 0 => s
  | n + 1 =>
    if 16 * s.tierUse t ≤ s.policy.low.getD t 12 * s.tierTotal t then s
    else match s.demote1 t with | some s => s.demoteGo t n | none => s

/-- PAGE_DEMOTION: begun where the use of a tier exceeds high. -/
def execPageDemotion (tier : Nat) (s : State) : Outc :=
  run (tier < 4) (if s.storeInit && decide (s.policy.high.getD tier 14 * s.tierTotal tier < 16 * s.tierUse tier)
    then s.demoteGo tier s.store.descUsed.length else s)

/-- PAGE_PROMOTION (R174): a page that a gather with promote set has read, to a lower tier below its low mark. -/
def State.promote (s : State) (i t : Nat) : State :=
  let d := s.pd i
  if !s.store.promote.contains i then s
  else
    let s := { s with store := { s.store with promote := sDel s.store.promote i } }
    if s.movable i && !d.pinned && decide (t < d.tier) && decide (16 * s.tierUse t < s.policy.low.getD t 12 * s.tierTotal t) then s.choose i t d.fmt
    else s
def execPagePromotion (desc tier : Nat) (s : State) : Outc := run (tier < 4) (s.promote desc tier)

/-- EPOCH_REENCRYPT_PASS (R181): a page of the old epoch moved within its tier. -/
def State.reencrypt (s : State) (i : Nat) : State :=
  let d := s.pd i
  if s.oldLive && s.movable i && decide (2 ≤ d.tier) && d.epoch == s.oldEpoch then s.choose i d.tier d.fmt else s
def execEpochReencryptPass (desc : Nat) (s : State) : Outc := .next (s.reencrypt desc)

/-- OLD_EPOCH_RETIRE (R181): the count of the old epoch checked (R300), its keys destroyed, old_live cleared, the completion logged. A page whose move has
still to name the old epoch holds it. -/
def State.retire (s : State) : State :=
  let e := s.oldEpoch
  if s.oldLive && s.epochPages e == 0 && !s.store.epochBad && !s.store.moves.any (fun m => m.2.phase == .writing && decide (2 ≤ m.2.tier) && m.2.epoch == e) then
    let s := s.epochCheck e
    if s.store.epochBad then s
    else ({ s with store := { s.store with oldKey := 0 } }.bset R.ctxStoreStatus 30 false).log' 1 17 1 [e]
  else s
def execOldEpochRetire (s : State) : Outc := .next s.retire

/-! ### Gathers (R185 to R187) -/

/-- Fields of a gather descriptor (Table 6-10). -/
def gW (g : Gather) (i : Nat) : W64 := g.words.getD i 0
def Gather.seq (g : Gather) : Nat := fld (gW g 0) 63 40
def Gather.group (g : Gather) : Nat := fld (gW g 0) 39 28
def Gather.colFirst (g : Gather) : Nat := fld (gW g 0) 27 20
def Gather.dfmt (g : Gather) : Nat := fld (gW g 0) 11 8
def Gather.value (g : Gather) : Bool := bit (gW g 0) 7
def Gather.promote (g : Gather) : Bool := bit (gW g 0) 6
def Gather.posFirst (g : Gather) : Nat := fld (gW g 1) 63 24
def Gather.posCount (g : Gather) : Nat := fld (gW g 2) 63 32
def Gather.tc (g : Gather) : Nat := fld (gW g 2) 17 16
/-- Columns delivered, of a row with n columns of 32 elements. -/
def Gather.cols (g : Gather) (n : Nat) : Nat := if fld (gW g 0) 19 12 = 0 then n - g.colFirst else fld (gW g 0) 19 12

/-- Virtual address of a lane's descriptor, and the descriptors of its ring. -/
def State.ringSize (s : State) (n k : Nat) : Nat := 2 ^ (5 + s.fget (R.ctxLaneRing n k) 2 0)
def State.ringVa (s : State) (n k i : Nat) : Nat := s.fget (R.ctxLaneRing n k) 54 12 * 4096 + 32 * i
def State.ringHead (s : State) (n k : Nat) : Nat := s.fget (R.ctxLaneHead n k) 11 0
def State.ringTail (s : State) (n k : Nat) : Nat := s.fget (R.ctxLaneTail n k) 11 0

/-- A lane's entry replaced, and its gather. -/
def State.setLane (s : State) (n k : Nat) (l : Lane) : State := { s with lanes := tput s.lanes (8 * n + k) l }
def State.setGather (s : State) (n k : Nat) (g : Option Gather) : State :=
  match tget s.lanes (8 * n + k) with | some l => s.setLane n k { l with cur := g } | none => s

/-- The cause of Table 6-11 that a descriptor meets before any page is read, 0 for none. -/
def State.gatherCheck (s : State) (n : Nat) (l : Lane) (g : Gather) : Nat :=
  let cols := s.seqElems g.seq / 32
  let kind := s.grpKind g.seq g.group
  let bound (k : Nat) : Bool := match tget s.lanes (8 * n + k) with | some x => x.handle == l.handle | none => false
  if 13 ≤ g.dfmt then 1
  else if 10 ≤ g.dfmt then 2
  else if fld (gW g 0) 4 0 ≠ 0 ∨ fld (gW g 1) 23 0 ≠ 0 ∨ bit (gW g 2) 15 ∨ fld (gW g 2) 8 0 ≠ 0 ∨ (gW g 3) ≠ 0 ∨ g.posCount = 0 then 2
  else if !bound g.elane || (fmtScaled g.dfmt && (g.slane == g.elane || !bound g.slane)) then 2
  else if s.seqState g.seq ≠ 1 ∨ s.seqGroups g.seq ≤ g.group then 3
  else if cols ≤ g.colFirst ∨ cols < g.colFirst + g.cols cols then 2
  else if kind = 2 ∧ (g.dfmt ≠ s.seqWfmt g.seq ∨ g.value ∨ g.cols cols ≠ cols) then 2
  else if s.seqLen g.seq < g.posFirst + g.posCount then 4
  else 0

/-- The pages a gather reads: descriptors as they stand, none where a table does not read. -/
def State.gatherPages (s : State) (g : Gather) : List (Nat × PD) :=
  let p := s.seqPpp g.seq
  let a := g.posFirst / p
  let z := (g.posFirst + g.posCount - 1) / p
  (List.range (z + 1 - a)).filterMap fun k => (s.pageIdx g.seq g.group (a + k)).map fun i => (i, s.pd i)

/-- Flits of bytes of an operand: their poison where a bad unit of w bytes overlaps; upper bytes of a last flit cut short are free. -/
def State.flitsOf (s : State) (bs : List Byte) (w : Nat) (bad : List Bool) : List Flit × State :=
  let n := cdiv bs.length 64
  let k := 64 * n - bs.length
  let full := bs ++ s.freeBytes k
  ((List.range n).map fun j =>
    ⟨BitVec.ofNat 512 (leNat ((full.drop (64 * j)).take 64)), false,
      (List.range bad.length).any fun i => bad.getD i false && decide (i * w < 64 * (j + 1)) && decide (64 * j < (i + 1) * w)⟩,
   { s with freeCtr := s.freeCtr + k })

/-- A page as a gather delivers it: descriptor, plaintext, whether all of it is bad, and the offsets of its bad lines. -/
structure GPage where
  d : PD
  bs : List Byte
  bad : Bool
  lines : List Nat := []
deriving DecidableEq, Repr

/-- Whether n bytes at an offset of a page are bad. -/
def GPage.badAt (x : GPage) (o n : Nat) : Bool := x.bad || x.lines.any fun l => decide (l < o + n) && decide (o < l + 128)

/-- Whether a block of 32 elements of a row, or its scale, is bad. -/
def GPage.badBlock (x : GPage) (elems ppp r b : Nat) : Bool :=
  let f := x.d.fmt
  let w := 4 * fmtBits f
  let k := if f = 8 then 2 else 1
  x.badAt (r * rowBytes f elems + b * w) w || (fmtScaled f && x.badAt (ppp * rowBytes f elems + r * rowScale f elems + b * k) k)

/-- One position of a unit as its page holds it: format, codes, scales, and whether each block is bad. -/
abbrev GRow := Nat × List Nat × List Nat × List Bool

/-- One position of a unit; none beyond the last position. -/
def State.gRow (s : State) (g : Gather) (ps : List GPage) (p : Nat) : Option GRow :=
  if g.posFirst + g.posCount ≤ p then none
  else
    let ppp := s.seqPpp g.seq
    match ps[p / ppp - g.posFirst / ppp]? with
    | none => none
    | some x =>
      let e := s.seqElems g.seq
      some (x.d.fmt, rowCodes x.d.fmt e x.bs (p % ppp), rowScales x.d.fmt e ppp x.bs (p % ppp), (List.range (e / 32)).map (x.badBlock e ppp (p % ppp)))

/-- A block of 32 elements of one position in the delivery format: codes, scale word, elements saturated (R185). -/
def gBlock (df : Nat) (r : Option GRow) (b : Nat) : List Nat × Nat × Nat :=
  match r with
  | none => (List.replicate 32 0, 0, 0)
  | some (f, cs, sc, _) =>
    if f = df then ((List.range 32).map fun j => cs.getD (32 * b + j) 0, sc.getD b 0, 0) else requant df (blockVals f cs sc b)

/-- One row of a granule in value order: element column j of block b over the 32 positions (R185). -/
def gColumn (df : Nat) (rs : List (Option GRow)) (b j : Nat) : List Nat × Nat × Nat :=
  let val (r : Option GRow) : Num := match r with
    | none => .fin false 0 0
    | some (f, cs, sc, _) => blockValue f (sc.getD b 0) j (cs.getD (32 * b + j) 0)
  let same := rs.all fun r => match r with | none => true | some (f, _, _, _) => f == df
  if same && !fmtScaled df then
    (rs.map fun r => match r with | none => 0 | some (_, cs, _, _) => cs.getD (32 * b + j) 0, 0, 0)
  else requant df (rs.map val)

/-- Bytes of a scale plane's part: one scale word for each row. -/
def scaleBytes (df : Nat) (rows : List (List Nat × Nat × Nat)) : List Byte := rows.flatMap fun r => leBytes (if df = 8 then 2 else 1) r.2.1

/-- Flits of one operand of K = 32 × the number of its granules: elements granule by granule, scales two granules to a flit, or one for
SSF4 (R71). Each granule comes with the poison of its 32 rows. -/
def State.operandFlits (s : State) (df : Nat) (gs : List (List (List Nat × Nat × Nat) × List Bool)) : List Flit × List Flit × State :=
  let w := fmtBits df
  let (es, s) := gs.foldl (fun (a : List Flit × State) g =>
    let (fs, s) := a.2.flitsOf (packBytes w (g.1.flatMap (·.1))) (4 * w) g.2
    (a.1 ++ fs, s)) ([], s)
  if !fmtScaled df then (es, [], s)
  else
    let sb := if df = 8 then 2 else 1
    let (ss, s) := s.flitsOf (gs.flatMap fun g => scaleBytes df g.1) sb (gs.flatMap (·.2))
    (es, ss, s)

/-- The operands of one unit of 32 positions, in delivery order. -/
def State.unitOperands (s : State) (g : Gather) (ps : List GPage) (u : Nat) : List (List (List (List Nat × Nat × Nat) × List Bool)) :=
  let rs := (List.range 32).map fun i => s.gRow g ps (g.posFirst + 32 * u + i)
  let bad (k : Nat) : List Bool := rs.map fun r => match r with | some (_, _, _, b) => b.getD k false | none => false
  let c := g.cols (s.seqElems g.seq / 32)
  if g.value then
    (List.range c).map fun d =>
      [((List.range 32).map fun j => gColumn g.dfmt rs (g.colFirst + d) j, List.replicate 32 ((bad (g.colFirst + d)).any id))]
  else [(List.range c).map fun k => (rs.map fun r => gBlock g.dfmt r (g.colFirst + k), bad (g.colFirst + k))]

/-- Every flit of a gather: elements and scales, and the elements saturated. -/
def State.gatherFlits (s : State) (g : Gather) (ps : List GPage) : List Flit × List Flit × Nat × State :=
  let ops := (List.range (cdiv g.posCount 32)).flatMap fun u => s.unitOperands g ps u
  ops.foldl (fun (a : List Flit × List Flit × Nat × State) o =>
    let (es, ss, s) := a.2.2.2.operandFlits g.dfmt o
    (a.1 ++ es, a.2.1 ++ ss, a.2.2.1 + o.foldl (fun n gr => gr.1.foldl (fun n r => n + r.2.2) n) 0, s)) ([], [], 0, s)

/-- The final element flit marked last (Table 6-10). -/
def markLast (fs : List Flit) : List Flit :=
  match fs.reverse with
  | [] => []
  | f :: r => (({ f with last := true } : Flit) :: r).reverse

/-- Flits up to the last that carries poison (R187). -/
def toPoison (fs : List Flit) : List Flit := (fs.reverse.dropWhile fun f => !f.poison).reverse

/-- Setts of peers' pages that a gather still needs, asked for; none where a peer cannot be reached. -/
def State.gatherAsk (s : State) (n k : Nat) (g : Gather) : Option (State × Gather) :=
  let need := g.pages.flatMap fun p => if p.2.tier = 3 then (List.range (p.2.size + 1)).map fun j => (p, j) else []
  (need.filter fun x => (tget g.got (16 * x.1.1 + x.2)).isNone && !g.want.contains (16 * x.1.1 + x.2)).foldl
    (fun (a : Option (State × Gather)) x => match a with
      | none => none
      | some (s, g) =>
        match s.tksAsk (.gather n k (16 * x.1.1 + x.2))
            (s.reqFrame (t3Dev x.1.2.unit) g.tc 0x0A 0 0 4096 (BitVec.ofNat 64 (t3Sett x.1.2.unit + x.2)) 0 [] false) with
        | .sent _ s => some (s, { g with want := sIns g.want (16 * x.1.1 + x.2) })
        | .stall => some (s, g)
        | .noRoute => none) (some (s, g))

/-- A gather whose pages are all here turned into flits; where a page is bad, the flits up to the last that carries its data go out, poisoned where they do, and
the lane ends in cause 0x06 (R187). -/
def State.gatherMake (s : State) (n k : Nat) (g : Gather) : State :=
  let (ps, s) := g.pages.foldl (fun (a : List (Nat × GPage) × State) p =>
    let (raw, bad, s) := a.2.pageRaw (hoist n) g.tc p.1 p.2 g.got
    let lines := a.2.badLines s p.2
    let peer := g.gotBad.any fun x => x / 16 == p.1
    let (bs, all) := s.plain p.1 p.2 raw ((bad && lines.isEmpty) || peer) false
    (a.1 ++ [(p.1, ⟨p.2, bs, all, lines⟩)], s)) ([], s)
  let bad := (ps.filter fun p => p.2.bad || !p.2.lines.isEmpty).map (·.1)
  let (es, ss, sat, s) := s.gatherFlits g (ps.map (·.2))
  let s := (bad.foldl State.poisonPage s).bump (R.ctxSat n) 32 sat
  let es := if bit (gW g 0) 5 then markLast es else es
  let ending := bad.head?.map fun i => (6, BitVec.ofNat 64 i)
  let cut (fs : List Flit) : List Flit := if bad.isEmpty then fs else toPoison fs
  let s := s.setGather n k (some { g with made := true, eflits := cut es, sflits := cut ss, got := [], want := [], gotBad := [], ending := ending })
  (s.lanePush n g.elane).lanePush n g.slane

/-- Pages of T0 and T1 whose reads a regulator holds (R377). -/
def State.gatherHeld (s : State) (n : Nat) (g : Gather) : Bool :=
  g.pages.any fun p => decide (p.2.tier < 2) && !s.regOpen (.other (hoist n)) (gLocal (s.pageAt p.2).1) g.tc (s.pageAt p.2).2

/-- A checked gather taken further: what its pages still need is asked for, or its flits are made. -/
def State.gatherGo (s : State) (n k : Nat) (g : Gather) : State :=
  match g.pages.find? fun p => s.pageS (hoist n) p.1 p.2 g.got == .lost with
  | some p =>
    (((g.pages.filter fun q => s.pageS (hoist n) q.1 q.2 g.got == .lost).map (·.1)).foldl State.poisonPage (s.pageHole n p.2)).hoistKill n k 7 (BitVec.ofNat 64 p.1)
  | none =>
    if g.pages.all fun p => s.pageS (hoist n) p.1 p.2 g.got == .ready then
      (if s.gatherHeld n g then
        match g.pages with
        | p :: _ => (s.regCount (.other (hoist n)) (gLocal (s.pageAt p.2).1) g.tc (s.pageAt p.2).2 g.waits).setGather n k (some { g with waits := true })
        | [] => s
      else s.gatherMake n k g)
    else
      let s := g.pages.foldl (fun s p => if p.2.tier = 3 then s else s.gAsk (hoist n) (s.pageAt p.2).1 (s.pageAt p.2).2 g.tc) s
      match s.gatherAsk n k g with
      | some (s, g) => s.setGather n k (some g)
      | none => s.hoistKill n k 7 (BitVec.ofNat 64 ((g.pages.map (·.1)).headD 0))

/-- Ages of pages set to 0. -/
def agesOff (t : Tbl Nat) (ps : List (Nat × PD)) : Tbl Nat := ps.foldl (fun (t : Tbl Nat) (p : Nat × PD) => tdel t p.1) t

/-- A descriptor's words read: checked, its pages found and their ages set to 0 (R171). -/
def State.gatherBegin (s : State) (n k va : Nat) (l : Lane) (ws : List W64) : State :=
  let g : Gather := { words := ws }
  let c := s.gatherCheck n l g
  if c ≠ 0 then s.hoistKill n k c (if c = 2 then BitVec.ofNat 64 va else 0)
  else
    let g : Gather := { g with pages := s.gatherPages g }
    let s := { s with store := { s.store with age := agesOff s.store.age g.pages } }
    (s.setGather n k (some g)).gatherGo n k g

/-- A lane's translation of an address (R230). -/
def laneTr (l : Lane) (va : Nat) : Option LaneTr := l.tr.find? fun t => t.vpn == va / pageBytes t.size && t.retiring == []
def laneFind (l : Lane) (va : Nat) : Option Nat := (laneTr l va).map fun t => t.frame + va % pageBytes t.size

/-- Whether a translation is the one of a page that a read holds. -/
def LaneTr.isOf (vpn size : Nat) (t : LaneTr) : Bool := t.vpn == vpn && t.size == size

/-- The ring read of a lane goes out: the translation it uses is held until it completes (R230). -/
def State.laneHold (s : State) (n k va g : Nat) : State :=
  match tget s.lanes (8 * n + k) with
  | none => s
  | some l => match l.rd, laneTr l va with
    | none, some t =>
      (s.setLane n k { l with rd := some (t.vpn, t.size, g), tr := l.tr.map fun x => if x.isOf t.vpn t.size && x.retiring == [] then { x with refs := x.refs + 1 } else x }).laneRefRead n
    | _, _ => s

/-- The ring read of a lane has completed: what it held is given back, and a retiring translation with nothing left on it is dropped (R238). -/
def State.laneGive (s : State) (n k : Nat) : State :=
  match tget s.lanes (8 * n + k) with
  | none => s
  | some l => match l.rd with
    | none => s
    | some (v, z, _) =>
      (s.setLane n k { l with rd := none, tr := (l.tr.map fun x => if x.isOf v z && decide (0 < x.refs) then { x with refs := x.refs - 1 } else x).filter fun x => x.refs != 0 || x.retiring == [] }).laneRefRead n

/-- The ring reads of stopped lanes whose bytes have come: the bytes are discarded (R187). -/
def State.laneSettle (s : State) : State :=
  s.lanes.foldl (fun s e => match e.2.rd with
    | some (_, _, g) =>
      if s.bget (R.ctxLaneCfg (e.1 / 8) (e.1 % 8)) 62 && (s.near g || s.farReady g 32) then (s.farUsed g 32).laneGive (e.1 / 8) (e.1 % 8) else s
    | none => s) s

/-- A descriptor's 32 bytes read from its global address, once they are here (R182, R230). -/
def State.ringRead (s : State) (n k va g : Nat) (l : Lane) : State :=
  if s.gHole g 32 then ((s.laneGive n k).hole (hoist n) 0 g).hoistKill n k (if s.isOwn g then 5 else 7) (BitVec.ofNat 64 va)
  else if !s.gReady (hoist n) g 32 then (s.laneHold n k va g).gAsk (hoist n) g 32 0
  else
    let e := s.gErr g 32
    let (bs, bad, s) := s.gRead (hoist n) g 32 0
    let s := s.laneGive n k
    if e ≠ 0 then (if e = 2 then s.hole (hoist n) 0 g else s).hoistKill n k 7 (BitVec.ofNat 64 va)
    else if bad then s.hoistKill n k 6 (BitVec.ofNat 64 va)
    else s.gatherBegin n k va l ((List.range 4).map fun i => BitVec.ofNat 64 (leNat ((bs.drop (8 * i)).take 8)))

/-- GATHER_DESCRIPTOR_EXECUTE: the next descriptor of a lane read and begun, or the one in execution taken further. -/
def State.gatherExec (s : State) (n k : Nat) : State :=
  match tget s.lanes (8 * n + k) with
  | none => s
  | some l =>
    if s.bget (R.ctxLaneCfg n k) 62 || s.bget R.safStatus 29 then s
    else match l.cur with
      | some g => if g.made then (s.lanePush n g.elane).lanePush n g.slane else s.gatherGo n k g
      | none =>
        if s.ringHead n k = s.ringTail n k ∨ !s.storeInit then s
        else
          let va := s.ringVa n k (s.ringHead n k)
          match l.rd, laneFind l va with
          | some (_, _, g), _ => s.ringRead n k va g l
          | none, some g => s.ringRead n k va g l
          | none, none => s.askWalk (hoist n) k l.ctx va false false
def execGatherDescriptorExecute (n k : Nat) (s : State) : Outc := run (n < 64 && k < 8) (s.gatherExec n k)

/-- GATHER_DESCRIPTOR_COMPLETE (R186): its last flit has reached the consumer port; the ring advances and the object is signalled; a
lane that met poison ends. -/
def State.gatherEnd (s : State) (n k : Nat) : State :=
  match tget s.lanes (8 * n + k) with
  | none => s
  | some l =>
    match l.cur with
    | none => s
    | some g =>
      let fly (j : Nat) : Bool := match tget s.lanes (8 * n + j) with | some x => !(tgetD s.flight (4 * x.ptile + x.port) []).isEmpty | none => false
      if !g.made || !g.eflits.isEmpty || !g.sflits.isEmpty || fly g.elane || (fmtScaled g.dfmt && fly g.slane) then s
      else match g.ending with
        | some (c, a) => s.hoistKill n k c a
        | none =>
          let s := s.setGather n k none
          let s := s.set (R.ctxLaneHead n k) (BitVec.ofNat 64 ((s.ringHead n k + 1) % s.ringSize n k))
          let s := if g.promote then
              { s with store := { s.store with promote := ((g.pages.filter fun p : Nat × PD => decide (2 ≤ p.2.tier)).map fun p : Nat × PD => p.1).foldl sIns s.store.promote } }
            else s
          if bit (gW g 2) 18 then s.syncAdd (fld (gW g 2) 31 19) 1 false else s
def execGatherDescriptorComplete (n k : Nat) (s : State) : Outc := run (n < 64 && k < 8) (s.gatherEnd n k)

/-- PEER_TIER_TIMEOUT (R187): a peer has not answered a gather within 10 ms. -/
def State.peerTimeout (s : State) (n k : Nat) : State :=
  match tget s.lanes (8 * n + k) with
  | some l =>
    match l.cur with
    | some g => match g.want with
      | x :: _ => (s.poisonPage (x / 16)).hoistKill n k 7 (BitVec.ofNat 64 (x / 16))
      | [] => s
    | none => s
  | none => s
def execPeerTierTimeout (n k : Nat) (s : State) : Outc := run (n < 64 && k < 8) (s.peerTimeout n k)

/-! ### The ring (R184, R230) -/

/-- LANE_TAIL_WRITE: descriptors submitted; an index beyond the ring is misuse (Table 6-11); the page that holds head is asked for. -/
def State.laneTail (s : State) (n k : Nat) (v : W32) : State :=
  let s := s.set (R.ctxLaneTail n k) (BitVec.ofNat 64 (nbits v.toNat 11 0))
  match tget s.lanes (8 * n + k) with
  | none => s
  | some _ =>
    if s.ringSize n k ≤ nbits v.toNat 11 0 then s.hoistKill n k 8 (BitVec.ofNat 64 (s.ringVa n k (nbits v.toNat 11 0))) else s
def execLaneTailWrite (n k : Nat) (v : W32) (s : State) : Outc := run (n < 64 && k < 8) (s.laneTail n k v)

/-- HOIST_RING_PREFETCH (R230): the page of head, or, within 4 KiB of its end, the next page of the ring. -/
def State.ringPrefetch (s : State) (n k : Nat) : State :=
  match tget s.lanes (8 * n + k) with
  | none => s
  | some l =>
    let va := s.ringVa n k (s.ringHead n k)
    match laneTr l va with
    | none => s.askWalk (hoist n) k l.ctx va false true
    | some t =>
      let last := (t.vpn + 1) * pageBytes t.size
      let nxt := if last < s.ringVa n k (s.ringSize n k) then last else s.ringVa n k 0
      if last - va ≤ 4096 ∧ (laneFind l nxt).isNone then s.askWalk (hoist n) k l.ctx nxt false true else s
def execHoistRingPrefetch (n k : Nat) (s : State) : Outc := run (n < 64 && k < 8) (s.ringPrefetch n k)

/-! ### Slice prefetch (R195) -/

/-- Whether a line is of a page that a hoist's current descriptor has still to read. -/
def State.hoistNext (s : State) (a : Nat) : Bool :=
  s.lanes.any fun e => match e.2.cur with
    | some g => !g.made && g.pages.any fun p => p.2.tier == 1 && decide (unitAddr 1 p.2.unit ≤ a) && decide (a < unitAddr 1 p.2.unit + (s.pageAt p.2).2)
    | none => false

/-- SLICE_PREFETCH. -/
def execSlicePrefetch (addr : Nat) (byHoist : Bool) (s : State) : Outc :=
  .next (s.prefetch addr (if byHoist then s.hoistNext addr else s.streamAt (addr / 128)))

end Sys2Proof.Machine
end

