-- ==== Sys2Proof/Machine/CtxCmd.lean ====
section
/-! DEFINITION. The remaining commands of the context store: moves by command, lanes, policy, tiers, the export pool, audit and epochs
(chapter 6). -/

namespace Sys2Proof.Machine

/-! ### Moves by command (R174, R175) -/

/-- A page named by sequence, group and page number. -/
def State.pageNamed (s : State) (q g k : Nat) : Option Nat := if g < s.seqGroups q then s.pageIdx q g k else none

/-- CTX_PAGE_MOVE: the move is selected; the hub goes on with it after the answer. -/
def execCtxPageMove (q : Req) (seq group page tier : Nat) (s : State) : Outc :=
  run (mbxOk q) (axotte s q 0x0506 fun s => if 4 ≤ tier then invalid s else onSeq s seq fun s =>
    match s.pageNamed seq group page with
      | none => invalid s
      | some i =>
        let d := s.pd i
        if !s.movable i || tier == d.tier then refuse s dState
        else .done (s.choose i tier (if tier < d.tier then d.fmt else s.fmtIn d tier)) 0 [])

/-- CTX_PAGE_MOVE expert: a format, pin and unpin. A page that neither changes tier nor format is only pinned or unpinned. -/
def execCtxPageMoveExpert (q : Req) (seq group page tier fmt : Nat) (pin unpin : Bool) (s : State) : Outc :=
  run (mbxOk q) (axotte s q 0x8506 fun s => if 4 ≤ tier ∨ 10 ≤ fmt ∨ (pin ∧ unpin) then invalid s else onSeq s seq fun s =>
    match s.pageNamed seq group page with
      | none => invalid s
      | some i =>
        let d := s.pd i
        let narrower := decide (fmtBits fmt < fmtBits d.fmt)
        if fmt ≠ d.fmt ∧ (!narrower ∨ d.kind = 2) then refuse s dState
        else
          let stay := tier = d.tier ∧ fmt = d.fmt
          if !s.movable i && !(stay && decide (pin ∨ unpin) && s.pdOk i && (tget s.store.moves i).isNone) then refuse s dState
          else if stay ∧ !pin ∧ !unpin then refuse s dState
          else
            let s := if pin || unpin then s.setPd i { d with pinned := pin } else s
            .done (if stay then s else s.choose i tier fmt) 0 [])

/-! ### Lanes (R183, R184) -/

/-- Lanes of a hoist that are attached, and its lowest free lane. -/
def State.boundLanes (s : State) (n : Nat) : Nat := ((List.range 8).filter fun k => (tget s.lanes (8 * n + k)).isSome).length
def State.freeLane (s : State) (n : Nat) : Option Nat := (List.range 8).find? fun k => (tget s.lanes (8 * n + k)).isNone

/-- The hoist for a consumer tile: of its half, with the fewest attached lanes, then the lowest number. -/
def State.pickHoist (s : State) (t : Nat) : Nat :=
  let b := if t / 32 < 34 then 0 else 32
  (List.range 32).foldl (fun best i => if s.boundLanes (b + i) < s.boundLanes best then b + i else best) b

/-- The detail codes of R145 for streams added to others; 0 where the routes fit. -/
def routeCheck (xs ys : List DStream) (limit : Nat) : Nat × List Byte :=
  match routeFull xs ys with
  | some b => (dRouteFull, p32 b)
  | none => match linkOver xs ys limit with
    | some (b, l) => (dLinkOversub, p16 b ++ p16 (linkCode l))
    | none => (0, [])

/-- One stream of a dressing attached to a lane: its route resolved and checked, and the lane bound; the failure is a detail. -/
def State.attach1 (s : State) (h n k : Nat) (x : DStream) : Sum (Nat × List Byte) State :=
  match tget s.dress h with
  | none => .inl (dBadHandle, [])
  | some d =>
    let t := s.dtile d (nbits x.cons 10 0)
    let y := routeVia x (hoistBench n) (t / 32) [(hoistBench n, 6)] []
    let d' := { d with streams := d.streams.map fun z => if z.prod = x.prod then y else z }
    let s' := s.putD h d'
    let (c, p) := routeCheck s.allStreams [y] (if d.oversub then 255 else 64)
    if c ≠ 0 then .inl (c, p)
    else
      let port := nbits x.cons 17 16
      let tag := nbits x.prod 15 0
      let s := s'.setLane n k { handle := h, ctx := d.ctx, tag := tag, ptile := t, port := port }
      .inr (s.set (R.ctxLaneCfg n k) (BitVec.ofNat 64 (2 ^ 63 + h % 64 * 2 ^ 56 + d.ctx % 4096 * 2 ^ 44 + tag * 2 ^ 28 + t % 4096 * 2 ^ 16 + port * 2 ^ 14)))

/-- Whether a hoist tag of a dressing has a lane. -/
def State.tagBound (s : State) (h tag : Nat) : Bool := s.lanes.any fun e => e.2.handle == h && e.2.tag == tag

/-- Hoist-fed streams of a dressing that have no lane. -/
def State.openTags (s : State) (h : Nat) (d : Dressing) : List DStream :=
  d.streams.filter fun x => nbits x.prod 31 28 == 4 && !s.tagBound h (nbits x.prod 15 0)

/-- Streams attached one after another, all or none; the answer lists tag, hoist and lane. -/
def State.attachAll (s : State) (h : Nat) : List DStream → Sum (Nat × List Byte) (List Byte × State)
  | [] => .inr ([], s)
  | x :: xs =>
    match tget s.dress h with
    | none => .inl (dBadHandle, [])
    | some d =>
      let n := s.pickHoist (s.dtile d (nbits x.cons 10 0))
      match s.freeLane n with
      | none => .inl (dNoSpace, [])
      | some k =>
        match s.attach1 h n k x with
        | .inl e => .inl e
        | .inr s =>
          match s.attachAll h xs with
          | .inl e => .inl e
          | .inr (p, s) => .inr (p16 (nbits x.prod 15 0) ++ p16 n ++ p16 k ++ p16 0 ++ p, s)

def execCtxHoistAttach (q : Req) (h : Nat) (s : State) : Outc :=
  run (mbxOk q) (axotte s q 0x0507 fun s => if 64 ≤ h then invalid s else onStore s fun s => onHandle s h fun d =>
    if d.st ≠ .active ∨ (s.openTags h d).isEmpty then refuse s dState
    else match s.attachAll h (s.openTags h d) with
      | .inl (e, p) => .refuse s e p
      | .inr (p, s) => .done s 0 p)
def execCtxHoistAttachExpert (q : Req) (h tag hoist lane : Nat) (s : State) : Outc :=
  run (mbxOk q) (axotte s q 0x8507 fun s => if 64 ≤ h ∨ 64 ≤ hoist ∨ 8 ≤ lane then invalid s else onStore s fun s => onHandle s h fun d =>
    if d.st ≠ .active then refuse s dState
    else match d.streams.find? fun x => nbits x.prod 31 28 == 4 && nbits x.prod 15 0 == tag with
      | none => invalid s
      | some x =>
        if s.tagBound h tag || (tget s.lanes (8 * hoist + lane)).isSome then refuse s dState
        else match s.attach1 h hoist lane x with
          | .inl (e, p) => .refuse s e p
          | .inr s => .done s 0 (p16 tag ++ p16 hoist ++ p16 lane ++ p16 0))
/-- CTX_HOIST_DETACH (R184). -/
def execCtxHoistDetach (q : Req) (h : Nat) (s : State) : Outc :=
  run (mbxOk q) (axotte s q 0x0508 fun s => if 64 ≤ h then invalid s else onStore s fun s => onHandle s h fun _ => .done (s.detachAll h) 0 [])

/-! ### Policy (Table 6-6) -/

/-- Marks within their range. -/
def marksOk (high low : List Nat) : Bool :=
  high.length == 4 && low.length == 4 && ((high.zip low).all fun p => decide (p.2 < p.1) && decide (p.1 ≤ 16))

/-- CTX_POLICY_SET: class 0 at its basic settings, with the marks given. -/
def execCtxPolicySet (q : Req) (high low : List Nat) (s : State) : Outc :=
  run (mbxOk q) (axotte s q 0x0509 fun s =>
    if !marksOk high low then invalid s
    else onStore s fun s => .done { s with policy := { high := high, low := low, share := 2, cls := tput s.policy.cls 0 {} } } 0 [])

/-- One next[t]: a higher tier number, or 0xF for none. -/
def nextOk (p : Nat × Nat) : Bool := p.2 == 15 || (decide (p.1 < p.2) && decide (p.2 < 4))
def execCtxPolicySetExpert (q : Req) (cls : Nat) (high low : List Nat) (share append : Nat) (next tfmt : List Nat) (s : State) : Outc :=
  run (mbxOk q) (axotte s q 0x8509 fun s =>
    if !marksOk high low ∨ 16 ≤ cls ∨ 8 < share ∨ 2 ≤ append ∨ next.length ≠ 4 ∨ tfmt.length ≠ 4
        ∨ !(([0, 1, 2, 3].zip next).all nextOk) ∨ !(tfmt.all fun f => decide (f ≤ 9)) then invalid s
    else onStore s fun s =>
      let opt (x : Nat) : Option Nat := if x = 15 then none else some x
      .done { s with policy := { high := high, low := low, share := share
                                 cls := tput s.policy.cls cls { append := append, next := next.map opt, tfmt := tfmt.map some } } } 0 [])

/-! ### Tiers and the export pool (R165, R166) -/

/-- Whether host-tier windows cover a run of offsets; the first argument is fuel. -/
def State.hostCovers (s : State) : Nat → Nat → Nat → Bool
  | 0, _, _ => false
  | f + 1, o, e =>
    if e ≤ o then true
    else match s.htWindow o with
      | none => false
      | some k => s.hostCovers f ((s.fget (R.cxlHtTier k) 43 21 + s.fget (R.cxlHtSize k) 43 21) * 2 ^ 21) e

/-- The first offset of a run that no window covers. -/
def State.hostEnd (s : State) : Nat → Nat → Nat → Nat
  | 0, o, _ => o
  | f + 1, o, e =>
    if e ≤ o then o
    else match s.htWindow o with
      | none => o
      | some k => s.hostEnd f ((s.fget (R.cxlHtTier k) 43 21 + s.fget (R.cxlHtSize k) 43 21) * 2 ^ 21) e

/-- Whether a run of units meets runs of a tier. -/
def runMeets (rs : List (Nat × Nat)) (u n : Nat) : Bool := rs.any fun r => decide (u < r.1 + r.2) && decide (r.1 < u + n)

/-- Runs of a tier without a run. -/
def runCut (rs : List (Nat × Nat)) (u n : Nat) : List (Nat × Nat) :=
  rs.flatMap fun r =>
    (if r.1 < u then [(r.1, min r.2 (u - r.1))] else []) ++ (if u + n < r.1 + r.2 then [(max r.1 (u + n), r.1 + r.2 - max r.1 (u + n))] else [])

/-- Units added to a tier. -/
def State.addRun (s : State) (t u n : Nat) : State := s.modStore fun x => { x with pools := tput x.pools t (tgetD x.pools t [] ++ [(u, n)]) }

/-- Whether the fields of CTX_TIER_ADD and CTX_TIER_REMOVE are in range: whole 4 KiB units of host memory, or a peer. -/
def tierSrcOk (tier : Nat) (add : Bool) : TierSrc → Bool
  | .range b n => tier == 2 && b % 4096 == 0 && n % 4096 == 0 && n != 0 && decide (0x100000000000 ≤ b)
  | .peer dev n => tier == 3 && decide (dev < 2 ^ 18) && (!add || (n != 0 && decide (n < 2 ^ 32)))

def execCtxTierAdd (q : Req) (tier : Nat) (src : TierSrc) (s : State) : Outc :=
  run (mbxOk q) (axotte s q 0x050A fun s => if !tierSrcOk tier true src then invalid s else onStore s fun s =>
    match src with
    | .range b n =>
      let o := b - 0x100000000000
      if !s.hostCovers 65 o (o + n) then refuse (s.hole steward 0 (s.gOwn (0x100000000000 + s.hostEnd 65 o (o + n)))) dHole
      else if runMeets (s.tierRuns 2) (o / 4096) (n / 4096) then invalid s
      else .done ((s.addRun 2 (o / 4096) (n / 4096)).appendRetry) 0 (p64 (n / 4096))
    | .peer dev n =>
      if dev = s.ownDev then invalid s
      else match s.tksAsk (.grant q.mbx n) (s.reqFrame dev 3 0x08 0 0 0 0 (BitVec.ofNat 64 n) [] false) with
        | .sent _ s => .wait s
        | .stall => busy s
        | .noRoute => refuse (s.hole steward 1 (dev * 2 ^ 46)) dHole)

/-- A run withdrawn from a tier. -/
def State.cutRun (s : State) (t u n : Nat) : State := s.modStore fun x => { x with pools := tset x.pools t [] (runCut (tgetD x.pools t []) u n) }
/-- Whether any unit of a run is in use. -/
def State.runUsed (s : State) (t u n : Nat) : Bool := (s.tierUsed t).any fun i => decide (u ≤ i) && decide (i < u + n)

def execCtxTierRemove (q : Req) (tier : Nat) (src : TierSrc) (s : State) : Outc :=
  run (mbxOk q) (axotte s q 0x050B fun s => if !tierSrcOk tier false src then invalid s else onStore s fun s =>
    if s.store.broken then refuse s dState
    else match src with
    | .range b n =>
      let u := (b - 0x100000000000) / 4096
      if !runMeets (s.tierRuns 2) u (n / 4096) then invalid s
      else if s.runUsed 2 u (n / 4096) then busy s
      else .done (s.cutRun 2 u (n / 4096)) 0 []
    | .peer dev _ =>
      let rs := (s.tierRuns 3).filter fun r => t3Dev r.1 == dev
      if rs.isEmpty then invalid s
      else if rs.any fun r => s.runUsed 3 r.1 r.2 then busy s
      else if !s.tksOn || (s.route dev).isNone then refuse (s.hole steward 1 (dev * 2 ^ 46)) dHole
      else
        let s := s.tksTrim
        if 16384 < s.tksOut + rs.length ∨ 32768 ≤ s.reqAge (s.tksFloor dev) + rs.length then busy s
        else
          let s := rs.foldl (fun s r => s.cutRun 3 r.1 r.2) s
          .wait (rs.foldl (fun s r =>
            (s.tksSend (.giveBack q.mbx) (s.reqFrame dev 3 0x09 0 0 0 (BitVec.ofNat 64 (t3Sett r.1)) (BitVec.ofNat 64 r.2) [] false)).getD s) s))

/-- CTX_EXPORT_CONFIG (R166). -/
def execCtxExportConfig (q : Req) (base len : Nat) (s : State) : Outc :=
  run (mbxOk q) (axotte s q 0x050C fun s => if len ≠ 0 ∧ (base % 4096 ≠ 0 ∨ len % 4096 ≠ 0) then invalid s else onStore s fun s =>
    if len = 0 then if s.expo.granted.isEmpty then .done { s with expo := {} } 0 (p32 0) else busy s
    else if !s.hbmBacked base ∨ !s.hbmBacked (base + len - 1)
        ∨ (base < s.store.rBase + s.store.rLen ∧ s.store.rBase < base + len) then invalid s
    else if s.expo.len ≠ 0 ∧ !s.expo.granted.isEmpty then busy s
    else .done { s with expo := { base := base, len := len } } 0 (p32 (len / 4096)))

/-! ### Audit and epochs (R189) -/

/-- Units of a tier that pages and moves account for. -/
def State.unitsHeld (s : State) (t : Nat) : Nat :=
  (s.store.descUsed.filter fun i => (s.pd i).tier == t).foldl (fun n i => n + (s.pd i).units) 0
    + s.store.moves.foldl (fun n e =>
        n + (if e.2.phase = .zeroing then 0 else if e.2.phase = .rewritten then (if e.2.srcTier = t then e.2.srcCount else 0) else if e.2.tier = t then e.2.count else 0)) 0
    + 0

/-- A breach of the store's counts: appends, removals and moves are refused until handover (Table 12-4). -/
def State.storeBreach (s : State) (unit : Nat) (delta : Int) : State :=
  { s with store := { s.store with broken := true } }.breach 8 unit delta false

/-- The check of an audit: a tier whose pages do not account for the units allocated, and descriptors allocated and free that are not D, are breaches, and so is an
epoch whose count does not account for its pages (R189, Tables 12-3 and 12-4). -/
def State.ctxCheck (s : State) : State :=
  let s := [0, 1, 2, 3].foldl (fun s t =>
    let s := s.tableRead t
    if s.unitsHeld t = (s.tierUsed t).length then s else s.storeBreach t ((s.tierUsed t).length - (s.unitsHeld t : Int))) s
  let s := s.tableRead 4
  let n := s.store.descUsed.length + s.store.descFree
  let s := if n = (s.get R.ctxDescCount).toNat then s else s.storeBreach 4 ((s.get R.ctxDescCount).toNat - (n : Int))
  let s := s.epochCheck s.curEpoch
  if s.oldLive then s.epochCheck s.oldEpoch else s

/-- Pages held by a tier. -/
def State.pagesHeld (s : State) (t : Nat) : Nat := (s.store.descUsed.filter fun i => (s.pd i).tier == t).length

def execCtxAudit (q : Req) (s : State) : Outc :=
  run (mbxOk q) (axotte s q 0x050D fun s => onStore s fun s =>
    let p := p32 (s.get R.ctxDescCount).toNat ++ ([0, 1, 2, 3].flatMap fun t =>
        p64 (s.tierTotal t) ++ p64 (s.tierUsed t).length ++ p64 (s.tierTotal t - (s.tierUsed t).length) ++ p64 (s.pagesHeld t))
      ++ p64 (s.epochPages s.curEpoch) ++ p64 (if s.oldLive then s.epochPages s.oldEpoch else 0) ++ p32 s.store.moves.length
    .done s.ctxCheck 0 p)
def execCtxEpochStatus (q : Req) (s : State) : Outc :=
  run (mbxOk q) (axotte s q 0x050E fun s => onStore s fun s =>
    .done s 0 (p32 (s.curEpoch + 256 * s.oldEpoch + 65536 * b2n s.oldLive) ++ p64 (s.epochPages s.curEpoch)
      ++ p64 (if s.oldLive then s.epochPages s.oldEpoch else 0)))

end Sys2Proof.Machine
end

