-- ==== Sys2Proof/Machine/Walk.lean ====
section
/-! DEFINITION. Page walks (R221 to R232): a walker reads each entry coherently, in traffic class 0. -/

namespace Sys2Proof.Machine

/-- The walkers of a half as a master: the first of its 24 stands for them. -/
def walker (half : Nat) : Master := ⟨.walker, 24 * half⟩

/-- The walk from a table at a level (R221 to R225): the answer, and the pointers it read (level and table). An entry whose line is owned by an agent, or
whose home takes no requests, is waited for. -/
def State.walkFrom (s : State) (half va : Nat) : Nat → Nat → WalkR × List (Nat × Nat) × State
  | 0, table =>
    let a := entryAddr table 0 va
    if !s.tableBacked table then (.fault 0 0, [], s.hole (walker half) 0 (s.gOwn a))
    else if !s.engReady (walker half) a 8 then (.wait a, [], s)
    else
      let r := s.engReadAt (walker half) a 8 0 1
      let e := leNat r.1
      (if r.2.1 then .fault 6 0 else if !nbit e 0 then .fault 3 0 else if s.malformed 0 va e then .fault 5 0 else s.leafOf 0 e, [], r.2.2)
  | lvl + 1, table =>
    let a := entryAddr table (lvl + 1) va
    if !s.tableBacked table then (.fault 0 (lvl + 1), [], s.hole (walker half) 0 (s.gOwn a))
    else if !s.engReady (walker half) a 8 then (.wait a, [], s)
    else
      let r := s.engReadAt (walker half) a 8 0 1
      let e := leNat r.1
      if r.2.1 then (.fault 6 (lvl + 1), [], r.2.2)
      else if !nbit e 0 then (.fault 3 (lvl + 1), [], r.2.2)
      else if s.malformed (lvl + 1) va e then (.fault 5 (lvl + 1), [], r.2.2)
      else if lvl = 0 ∧ nbit e 1 then (s.leafOf 1 e, [], r.2.2)
      else
        let t := nbits e 45 16 * 0x10000
        let z := r.2.2.walkFrom half va lvl t
        (z.1, (lvl + 1, t) :: z.2.1, z.2.2)

/-- Where a walk begins: at the lowest cached pointer, or the root; the level, the table, and the entry's use. -/
def State.walkStart (s : State) (half ctx va : Nat) : Nat × Nat × State :=
  match s.wcFind half ctx 1 (wcPath 1 va) with
  | some (k, e) => (0, e.table, { s with wcache := tput s.wcache k { e with used := true } }.bump R.xltWalkCacheHit 64 1)
  | none => match s.wcFind half ctx 2 (wcPath 2 va) with
    | some (k, e) => (1, e.table, { s with wcache := tput s.wcache k { e with used := true } }.bump R.xltWalkCacheHit 64 1)
    | none => (2, s.fget (R.xltCtx ctx) 45 16 * 0x10000, s)

/-- A whole walk by a walker of a half (R228, R229); pointers read are cached. -/
def State.walk (s : State) (half ctx va : Nat) : WalkR × State :=
  if 2 ^ 55 ≤ va then (.fault 1 0, s)
  else if !(s.bget (R.xltCtx ctx) 63) then (.fault 2 0, s)
  else
    let b := s.walkStart half ctx va
    let r := b.2.2.walkFrom half va b.1 b.2.1
    (r.1, (r.2.1.foldl (fun s p => s.wcInstall half ctx p.1 va p.2) r.2.2).bump R.xltWalkCount 64 1)

/-- Whether a walk can be made now; the entry it waits for where it cannot. -/
def State.walkWaits (s : State) (half ctx va : Nat) : Option Nat := match (s.walk half ctx va).1 with | .wait a => some a | _ => none

/-- What a walk's answer does for one request (R228 to R232): the page installed in the bench TLB, unless another request of the bench has brought it, or
in the lane; or the fault taken. A bench set whose every way is pinned makes the request wait (R100); a prefetch that faults records nothing (R230). -/
def State.walkServe (s : State) (r : WalkReq) (a : WalkR) : State :=
  if !s.walkWanted r then s
  else match a.under r.write with
    | .wait _ => s
    | .fault k l => if r.prefetch then s else s.xltFault k l r.m r.lane r.ctx r.va
    | .page size frame w nc =>
      if r.m.cls = .hoist then
        match tget s.lanes (8 * r.m.idx + r.lane) with
        | none => s
        | some l => { s with lanes := tput s.lanes (8 * r.m.idx + r.lane) { l with tr := laneAdd l.tr ⟨r.va / pageBytes size, size, frame, 0, []⟩ } }
      else if (s.tlbFind (r.m.idx / 32) r.ctx r.va).isSome then s
      else
        match s.tlbInstall (r.m.idx / 32) r.ctx r.va size frame w nc with
        | some s => s
        | none => { s with pinWait := s.pinWait ++ [r] }

/-- The oldest walk that a walker of a half has taken and that can be made, served for every request that shares it (R228). Where
none can, the data of the line that the oldest waits for is asked of its owner. -/
def State.walkComplete (s : State) (half : Nat) : State :=
  let rs := s.walkQ.filter fun r => r.half == half && (s.walking half).contains (r.ctx, r.va / 0x10000)
  match rs.find? fun r => (s.walkWaits half r.ctx r.va).isNone with
  | some r =>
    let same (x : WalkReq) : Bool := x.half == half && x.ctx == r.ctx && x.va / 0x10000 == r.va / 0x10000
    let w := { s with walkQ := s.walkQ.filter (fun x => !same x) }.walk half r.ctx r.va
    (s.walkQ.filter same).foldl (fun z x => z.walkServe x w.1) w.2
  | none =>
    match rs with
    | [] => s
    | r :: _ => match s.walkWaits half r.ctx r.va with
      | some a => s.engAsk (walker half) a 8 0
      | none => s

end Sys2Proof.Machine
end

