-- ==== Sys2Proof/Machine/XltCmd.lean ====
section
/-! DEFINITION. The translation commands and events of chapter 8. -/

namespace Sys2Proof.Machine

/-! ### Contexts (R233, R234) -/

/-- Whether an address of this device can hold tables: backed HBM or scratchpad. -/
def ctxOk (ctx : Nat) : Bool := decide (ctx < 4096)

/-- XLT_CTX_SET: a table pool, whose first table is the root. -/
def execXltCtxSet (q : Req) (ctx base len : Nat) (s : State) : Outc :=
  run (mbxOk q) (axotte s q 0x0C01 fun s =>
    if !ctxOk ctx ∨ base % 0x10000 ≠ 0 ∨ len % 0x10000 ≠ 0 ∨ len < 0x30000 then invalid s
    else if s.bget (R.xltCtx ctx) 63 || s.bget (R.xltCtx ctx) 62 then refuse s dState
    else if !(s.hbmBacked base && s.hbmBacked (base + len - 1)) then refuse s dNoTable
    else
      let s := { s with pools := tput s.pools ctx ⟨base, len, base + 0x10000⟩ }.zero base 0x10000
      .done (s.set (R.xltCtx ctx) (BitVec.ofNat 64 (2 ^ 63 + 2 ^ 61 + base))) 0 (p64 base))
/-- XLT_CTX_SET expert: a root the caller has built. -/
def execXltCtxSetExpert (q : Req) (ctx root : Nat) (s : State) : Outc :=
  run (mbxOk q) (axotte s q 0x8C01 fun s =>
    if !ctxOk ctx ∨ root % 0x10000 ≠ 0 then invalid s
    else if s.bget (R.xltCtx ctx) 63 || s.bget (R.xltCtx ctx) 62 then refuse s dState
    else if !s.tableBacked root then refuse s dNoTable
    else .done (s.set (R.xltCtx ctx) (BitVec.ofNat 64 (2 ^ 63 + root))) 0 (p64 root))

/-- Whether a context is free: never set, or cleared. -/
def State.ctxFree (s : State) (ctx : Nat) : Bool := !s.bget (R.xltCtx ctx) 63 && !s.bget (R.xltCtx ctx) 62

/-- What holds a context against XLT_CTX_CLEAR (R234). -/
def State.ctxHeld (s : State) (ctx : Nat) : Bool :=
  s.dress.any (fun e => e.2.ctx == ctx) || s.lanes.any (fun e => e.2.ctx == ctx)
    || (s.storeInit && (List.range s.store.cap).any fun q => s.seqState q != 0 && s.seqCtx q == ctx) || s.invPending ctx

/-- A slot of those the steward uses that is not busy (R236). -/
def State.freeSlot (s : State) : Option Nat := [12, 13, 14, 15].find? fun k => !s.bget (R.xltInvCtl k) 30

/-- A slot loaded and started. -/
def State.slotGo (s : State) (k ctx va len obj : Nat) (all : Bool) (r : InvRec) : State :=
  let s := s.set (R.xltInvCtl k) (BitVec.ofNat 64 (b2n all * 2 ^ 28 + (if obj < 8192 then 2 ^ 27 + obj * 2 ^ 14 else 0) + ctx))
  ((s.set (R.xltInvVa k) (BitVec.ofNat 64 va)).set (R.xltInvLen k) (BitVec.ofNat 64 len)).invGo k r

def execXltCtxClear (q : Req) (ctx obj : Nat) (s : State) : Outc :=
  run (mbxOk q) (axotte s q 0x0C02 fun s =>
    if !ctxOk ctx ∨ !objOk obj then invalid s
    else if s.ctxHeld ctx then refuse s dState
    else match s.freeSlot with
      | none => busy s
      | some k => .wait (s.slotGo k ctx 0 0 0xFFFF true { clear := some q.mbx, clearObj := obj }))

/-! ### Unmap (R236, R239) -/

/-- A virtual range of whole 64 KiB pages. -/
def vaOk (va len : Nat) : Bool := va % 0x10000 == 0 && len % 0x10000 == 0 && decide (0 < len) && decide (va + len ≤ 2 ^ 55)

/-- The root table of a context. -/
def State.root (s : State) (ctx : Nat) : Nat := s.fget (R.xltCtx ctx) 45 16 * 0x10000

def execXltUnmap (q : Req) (ctx : Nat) (va : W64) (len obj : Nat) (s : State) : Outc :=
  run (mbxOk q) (axotte s q 0x0C03 fun s =>
    if !ctxOk ctx ∨ !vaOk va.toNat len ∨ !objOk obj then invalid s
    else if s.ctxFree ctx then refuse s dState
    else if s.partLeaf (s.root ctx) va.toNat len then invalid s
    else match s.freeSlot with
      | none => busy s
      | some k =>
        let (a, n) := s.runRange (s.root ctx) va.toNat len
        .done ((s.unmapRange (s.root ctx) va.toNat (va.toNat + len) (len / 0x10000) va.toNat len).slotGo k ctx a n obj false {}) 0 (p32 k))
def execXltUnmapExpert (q : Req) (ctx : Nat) (va : W64) (len obj : Nat) (all : Bool) (s : State) : Outc :=
  run (mbxOk q) (axotte s q 0x8C03 fun s =>
    if !ctxOk ctx ∨ !(all || vaOk va.toNat len) ∨ !objOk obj then invalid s
    else if s.ctxFree ctx then refuse s dState
    else match s.freeSlot with
      | none => busy s
      | some k => .done (s.slotGo k ctx va.toNat len obj all {}) 0 (p32 k))

/-- XLT_UNMAP_STATUS: phase 0 idle, 1 steps 2 and 3, 2 step 4; and the references outstanding. -/
def execXltUnmapStatus (q : Req) (slot : Nat) (s : State) : Outc :=
  run (mbxOk q) (axotte s q 0x0C04 fun s =>
    if 16 ≤ slot then invalid s
    else .done s 0 (p32 (if !s.bget (R.xltInvCtl slot) 30 then 0 else if s.bget (R.xltInvCtl slot) 29 then 2 else 1) ++ p32 (s.invRefs slot)))

/-! ### Map (R235) -/

/-- XLT_MAP in either form; a command that fails writes nothing (log entry 16). -/
def State.xltMap (s : State) (ctx va len g : Nat) (w nc expert : Bool) : AxR :=
  if !ctxOk ctx ∨ !vaOk va len ∨ g % 0x10000 ≠ 0 ∨ 2 ^ 64 < g + len then invalid s
  else if s.bget (R.xltCtx ctx) 62 then refuse s dContextDead
  else if !s.bget (R.xltCtx ctx) 63 then refuse s dState
  else if (List.range (len / 0x10000)).any fun i => s.mapped (s.root ctx) (va + 0x10000 * i) then refuse s dState
  else
    let (t, e) := s.mapRange ctx (s.root ctx) (s.bget (R.xltCtx ctx) 61) expert w nc (len / 0x10000) va g len
    if e = 0 then .done t 0 [] else refuse s e
def execXltMap (q : Req) (ctx : Nat) (va : W64) (len : Nat) (target : W64) (w nc : Bool) (s : State) : Outc :=
  run (mbxOk q) (axotte s q 0x0C05 fun s => s.xltMap ctx va.toNat len target.toNat w nc false)
def execXltMapExpert (q : Req) (ctx : Nat) (va : W64) (len : Nat) (target : W64) (w nc : Bool) (s : State) : Outc :=
  run (mbxOk q) (axotte s q 0x8C05 fun s => s.xltMap ctx va.toNat len target.toNat w nc true)

/-! ### Audit (R241) -/

/-- The sum of the counts of a bench TLB, and the translations that transfers of its tiles hold. -/
def State.tlbSum (s : State) (b : Nat) : Nat := (s.tlb.filter fun e => e.1 / 256 == b).foldl (fun n e => n + e.2.refs) 0
def State.tlbHeld (s : State) (b : Nat) : Nat :=
  (s.tiles.filter fun e => e.1 / 32 == b).foldl (fun n e =>
    n + (e.2.misses.filter fun m => m.2.tlb.isSome).length + e.2.dma.foldl (fun k d => k + d.2.held.length) 0
      + e.2.dmaDead.foldl (fun k d => k + d.2.2.length) 0) 0
/-- The sum of the counts of a hoist's lanes, and its descriptor reads in flight (R230). -/
def State.laneSum (s : State) (h : Nat) : Nat := (s.lanes.filter fun e => e.1 / 8 == h).foldl (fun n e => e.2.tr.foldl (fun n t => n + t.refs) n) 0
def State.laneReads (s : State) (h : Nat) : Nat :=
  (s.lanes.filter fun e => e.1 / 8 == h && e.2.rd.isSome).length

/-- The counts of every holder read, and each sum compared with the translations in flight (R241, R300, R301). -/
def State.xltCheck (s : State) : State :=
  let s := s.laneSettle
  let s := (List.range 68).foldl (fun s b =>
    let s := s.tlbRefRead b
    if s.tlbSum b = s.tlbHeld b then s else s.tlbBreach b ((s.tlbHeld b : Int) - s.tlbSum b)) s
  (List.range 64).foldl (fun s h =>
    let s := s.laneRefRead h
    if s.laneSum h = s.laneReads h then s else s.laneBreach h ((s.laneReads h : Int) - s.laneSum h)) s

def execXltAudit (q : Req) (s : State) : Outc :=
  run (mbxOk q) (axotte s q 0x0C06 fun s =>
    let s := s.laneSettle
    .done s.xltCheck 0 (((List.range 68).flatMap fun b => p32 (s.tlbSum b) ++ p32 (s.tlbHeld b)) ++ ((List.range 64).flatMap fun h => p32 (s.laneSum h) ++ p32 (s.laneReads h))))

/-! ### Events -/

/-- XLT_INV_GO: go written in a slot's register. -/
def execXltInvGo (k : Nat) (s : State) : Outc := run (k < 16) (s.invGo k {})
/-- UNMAP_PHASE1_DONE: step 3 on a busy slot. -/
def execUnmapPhase1Done (k : Nat) (s : State) : Outc :=
  run (k < 16) (if s.bget (R.xltInvCtl k) 30 && !s.bget (R.xltInvCtl k) 29 then s.invStep3 k else s)
/-- UNMAP_COMPLETE: step 5; the unmap of a seal lets its commit go on (R169). -/
def State.unmapDone (s : State) (k : Nat) : State :=
  let c := (tget s.inv k).bind (·.commit)
  let s := s.laneSettle.invFinish k
  match c with
  | some c => if (tget s.inv k).isNone then s.sealDone c else s
  | none => s
def execUnmapComplete (k : Nat) (s : State) : Outc := run (k < 16) (s.unmapDone k)
/-- WALK_REQUEST (R228). -/
def execWalkRequest (m : Master) (lane ctx : Nat) (va : W64) (write : Bool) (s : State) : Outc :=
  run (masterOk m && (m.cls == .tile || m.cls == .hoist) && ctx < 4096) (s.askWalk m lane ctx va.toNat write false)
def execWalkComplete (half : Nat) (s : State) : Outc := run (half < 2) (s.walkComplete half)
/-- TLB_PIN_RETRY (R100): requests of a bench that found every way pinned are walked again. -/
def State.pinRetry (s : State) (b ctx va : Nat) : State :=
  let p (r : WalkReq) : Bool := r.m.idx / 32 == b && r.ctx == ctx && r.va / 0x10000 == va / 0x10000
  { s with walkQ := s.walkQ ++ s.pinWait.filter p, pinWait := s.pinWait.filter fun r => !p r }.bump (R.benchTlbPinWait b) 32 (s.pinWait.filter p).length
def execTlbPinRetry (bench ctx : Nat) (va : W64) (s : State) : Outc := run (bench < 68) (s.pinRetry bench ctx va.toNat)

end Sys2Proof.Machine
end

