-- ==== Sys2Proof/Machine/Power.lean ====
section
/-! DEFINITION. Power domains and token pools, duty, thermal and gradient control (chapter 19, R298). -/

namespace Sys2Proof.Machine

/-! ### Variants (Table 0-1, Table 19-1, Table 19-2) -/

/-- A value by variant: of the 3200, the 2400 and the 1800. -/
def State.byVar (s : State) (a b c : Nat) : Nat :=
  match s.fget R.hubIdVariant 15 0 with
  | 3200 => a
  | 1800 => c
  | _ => b

/-- Fused caps in W: module input, hub, chiplet sites; the minimum hub cap of Table 19-2. -/
def State.fusedModule (s : State) : Nat := s.byVar 3200 2400 1800
def State.fusedHub (s : State) : Nat := s.byVar 1750 1350 1050
def State.fusedSite (s : State) : Nat := s.byVar 1250 880 600
def State.minHub (s : State) : Nat := s.byVar 1082 969 857

/-- The pool a domain draws from: 0 hub, 1 site (R406). -/
def poolOf (d : Nat) : Nat := if 76 ≤ d ∧ d ≤ 83 then 1 else 0

/-- The fixed grant of a non-bench hub domain, in tokens of 0.125 W (Table 19-1, R298). -/
def State.fixedGrant (s : State) (d : Nat) : Nat :=
  8 * (if d < 68 then 0
    else if d < 70 then s.byVar 60 52 46
    else if d < 76 then 30
    else if d < 84 then 0
    else if d < 88 then 20
    else if d = 88 then 12
    else if d = 89 then s.byVar 40 36 32
    else if d < 92 then s.byVar 20 18 16
    else if d = 92 then s.byVar 14 12 11
    else if d = 93 then 10
    else s.byVar 15 14 13)

/-- A bench's power at full FP4 duty, static and dynamic, in 0.1 W (Table 19-2); its floor, and its grant under BIST, in tokens
(R402, R408), rounded up. -/
def State.benchStat (s : State) : Nat := s.byVar 36 32 28
def State.benchDyn (s : State) : Nat := s.byVar 200 162 122
def State.benchFloor (s : State) : Nat := cdiv (8 * (16 * s.benchStat + s.benchDyn)) 160
def State.benchBist (s : State) : Nat := cdiv (8 * 14 * (s.benchStat + s.benchDyn)) 100

/-! ### Tokens (R298, R407) -/

/-- Tokens held by a domain. -/
def State.held (s : State) (d : Nat) : Nat := s.fget (R.pwrDomStatus d) 15 0

/-- A pool with its cap and tokens held: free is what the cap leaves, owed what exceeds it. -/
def State.poolSet (s : State) (p cap held : Nat) : State :=
  s.set (R.pwrPool p) (setFld (setFld (setFld (setFld (s.get (R.pwrPool p)) 63 48 cap) 47 32 held) 31 16 (cap - held)) 15 0 (held - cap))

/-- The tokens a domain holds set, and its pool with them. -/
def State.hold (s : State) (d n : Nat) : State :=
  let p := poolOf d
  let h := s.fget (R.pwrPool p) 47 32 + n - s.held d
  (s.fset (R.pwrDomStatus d) 15 0 n).poolSet p (s.fget (R.pwrPool p) 63 48) h

/-- Free tokens of a pool. -/
def State.freeTok (s : State) (p : Nat) : Nat := s.fget (R.pwrPool p) 31 16

/-- A domain's rails on, with its fixed grant, or off, with its tokens free (R407). -/
def State.domOn (s : State) (d : Nat) : State :=
  let s := (s.bset (R.pwrDomStatus d) 31 true).fset (R.pwrDomStatus d) 29 29 (poolOf d)
  if d < 68 ∨ poolOf d = 1 then s else s.hold d (s.fixedGrant d)
def State.domOff (s : State) (d : Nat) : State := (s.bset (R.pwrDomStatus d) 31 false).hold d 0

/-- Whether a domain is powered, and not in region reset. -/
def State.domUp (s : State) (d : Nat) : Bool := s.bget (R.pwrDomStatus d) 31 && !s.bget (R.pwrDomStatus d) 30

/-- Whether a bench's tiles are powered. -/
def State.tilesOn (s : State) (b : Nat) : Bool := s.domUp b && !s.rst.tilesOff.contains b

/-! ### Duty (R411) -/

/-- The gradient limiter of a bench: the lowest of those that its pairs set (R419). -/
def State.gradLim (s : State) (b : Nat) : Nat := (s.pwr.pairs.filter fun e => e.2 == b).foldl (fun m e => min m (tgetD s.pwr.grad e.1 16)) 16

/-- The limiters of a bench that are in force, with their values (Table 19-3). The governor's, the ceiling, the thermal and the gradient limiter are always in force (log entry 26). -/
def State.limiters (s : State) (b : Nat) : List (Nat × Nat) :=
  [(0, tgetD s.pwr.gov b 0), (1, s.fget (R.pwrBenchCeil b) 4 0), (3, tgetD s.pwr.therm b 16), (4, s.gradLim b)]
    ++ (if s.bget R.pwrSupplyStatus 31 then [(2, 4)] else [])
    ++ (if s.pwr.breach then [(5, 4)] else [])
    ++ (if s.pwr.safety.contains b || s.bget R.safStatus 29 then [(6, 0)] else [])
    ++ (if s.pwr.derate.contains b then [(7, 8)] else [])

/-- The lowest of the limiters, and the set of those at it. -/
def lowest (ls : List (Nat × Nat)) : Nat × Nat :=
  let d := ls.foldl (fun m x => min m x.2) 16
  (d, ls.foldl (fun n x => if x.2 = d then n + 2 ^ x.1 else n) 0)

/-- The set point of a domain: a bench that is derated or at duty 8 or less runs at v_half (Table 19-4). -/
def State.setPoint (s : State) (d : Nat) : Nat :=
  match tget s.pwr.plan d with
  | none => s.fget (R.ageMon d) 23 16
  | some e => if d < 68 ∧ (1 ≤ e.stage ∨ s.fget (R.pwrBenchDuty d) 20 16 ≤ 8) then e.half else e.full

/-- A bench's effective duty and limiters written, and its set point. -/
def State.setDuty (s : State) (b : Nat) : State :=
  if !s.bget (R.pwrDomStatus b) 31 then s
  else
    let (d, l) := lowest (s.limiters b)
    let s := s.set (R.pwrBenchDuty b) (setFld (setFld (s.get (R.pwrBenchDuty b)) 20 16 d) 15 8 l)
    s.fset (R.ageMon b) 23 16 (s.setPoint b)
def State.dutyAll (s : State) : State := (List.range 68).foldl State.setDuty s

/-! ### The bench pool (R408, R409) -/

/-- Benches under BIST: those of a DIAG run, and those whose tiles an online round tests. -/
def State.bistBenches (s : State) : List Nat :=
  ((s.bist.active.filterMap fun e : Nat × BistA => e.2.bench) ++ s.bist.online.map (· / 32)).foldl sIns []

/-- A bench's grant set: a higher one as far as tokens are free, held at once; a lower one held until its duty has taken effect. -/
def State.grantBench (s : State) (b n : Nat) : State :=
  let g := if s.held b < n then min n (s.held b + s.freeTok 0) else n
  let s := s.fset (R.pwrBenchDuty b) 31 21 g
  if s.held b < g then s.hold b g else s

/-- What the division of the bench pool does (R408): frozen in the hold (R452). -/
def State.divide (s : State) (demand : List Nat) : State :=
  if s.bget R.safStatus 29 then s
  else
    let up := (List.range 68).filter s.tilesOn
    let bist := up.filter s.bistBenches.contains
    let rest := up.filter fun b => !s.bistBenches.contains b
    let fixed := ((List.range 96).filter fun d => decide (68 ≤ d) && poolOf d == 0).foldl (fun n d => n + s.held d) 0
    let pool := s.fget (R.pwrPool 0) 63 48 - fixed
    let left := pool - bist.length * s.benchBist - rest.length * s.benchFloor
    let sum := rest.foldl (fun n b => n + demand.getD b 0) 0
    let share (b : Nat) : Nat := s.benchFloor + (if sum = 0 then 0 else left * demand.getD b 0 / sum)
    let target (b : Nat) : Nat := if s.bistBenches.contains b then s.benchBist else share b
    let low := up.filter fun b => decide (target b < s.held b)
    let high := up.filter fun b => !decide (target b < s.held b)
    (low ++ high).foldl (fun s b => s.grantBench b (target b)) s

/-- The largest duty whose estimate fits a grant. -/
def fitDuty (grant st dyn : Nat) : Nat := ((List.range 17).filter fun d => decide (16 * st + dyn * d ≤ 16 * grant)).foldl max 0

/-- What a bench's governor does (R409): the estimate, static and dynamic at full duty, is the environment's; once the duty has taken effect a lowered
grant is held no longer. -/
def State.governor (s : State) (b st dyn : Nat) : State :=
  if !s.tilesOn b then s
  else
    let g := s.fget (R.pwrBenchDuty b) 31 21
    let s := { s with pwr := { s.pwr with gov := tset s.pwr.gov b 0 (fitDuty g st dyn) } }.setDuty b
    if g < s.held b then s.hold b g else s

/-- ESTIMATOR_CALIBRATION (R409): measured hub power in mW averaged over 1 ms, more than 3% above the active cap. -/
def execEstimatorCalibration (hubMw : Nat) (s : State) : Outc :=
  .next (if 103 * 125 * s.fget (R.pwrPool 0) 63 48 < 100 * hubMw then
    { s with pwr := { s.pwr with calib := s.pwr.calib + 1 } }.log' 1 3 1 [hubMw] else s)

/-! ### Thermal and gradient control (R417 to R419) -/

/-- The higher reading of a bench's sensors. -/
def State.benchTemp (s : State) (b : Nat) : Nat := max (s.fget (R.pwrBenchTemp b) 7 0) (s.fget (R.pwrBenchTemp b) 15 8)

/-- BENCH_THERMAL_GOVERNOR (R417). -/
def State.thermGov (s : State) (b sinceMs : Nat) : State :=
  let t := s.benchTemp b
  let lim := s.fget R.pwrThermCfg 7 0
  let x := tgetD s.pwr.therm b 16
  if !s.domUp b then s
  else if lim < t then { s with pwr := { s.pwr with therm := tset s.pwr.therm b 16 (x - 1) } }.setDuty b
  else if t + 2 < lim ∧ x < 16 ∧ 1 ≤ sinceMs then { s with pwr := { s.pwr with therm := tset s.pwr.therm b 16 (x + 1) } }.setDuty b
  else s
def execBenchThermalGovernor (bench sinceRaiseMs : Nat) (s : State) : Outc := run (bench < 68) (s.thermGov bench sinceRaiseMs)

/-- The distance of two numbers. -/
def gap (a b : Nat) : Nat := (a - b) + (b - a)

/-- SENSOR_DIVERGE (R418). -/
def execSensorDiverge (bench ms : Nat) (s : State) : Outc :=
  run (bench < 68) (if 5 < gap (s.fget (R.pwrBenchTemp bench) 7 0) (s.fget (R.pwrBenchTemp bench) 15 8) ∧ 10 ≤ ms ∧ !s.bget (R.pwrBenchTemp bench) 16 then
    (s.bset (R.pwrBenchTemp bench) 16 true).log' 1 3 2 [bench] else s)

/-- Whether two benches are adjacent, the seam included (R419). -/
def adjacent (a b : Nat) : Bool :=
  let x := min a b
  let y := max a b
  decide (y < 68) && ((decide (y = x + 1) && decide (y % 17 ≠ 0)) || decide (y = x + 17))

/-- A condition k of a pair sets the gradient limiter of bench b, logged and counted. -/
def State.gradSet (s : State) (k b v cls : Nat) : State :=
  let s := { s with pwr := { s.pwr with pairs := tput s.pwr.pairs k b, grad := tset s.pwr.grad k 16 v, gradAt := tput s.pwr.gradAt k (s.get R.hubTimeCount) } }.setDuty b
  (s.bump R.pwrGradCount 32 1).log' cls 3 3 [b, v]

/-- The bench of a pair that a condition throttles: the hotter (kind 0), or the one further from its plan set point (kind 1). -/
def State.gradBench (s : State) (kind a b mvA mvB : Nat) : Nat :=
  if kind = 0 then (if s.benchTemp a < s.benchTemp b then b else a)
  else if gap mvA (5 * s.setPoint a) < gap mvB (5 * s.setPoint b) then b else a

/-- A pair's difference for a condition: in °C (0), or in mV (1). -/
def State.gradDiff (s : State) (kind a b mvA mvB : Nat) : Nat := if kind = 0 then gap (s.benchTemp a) (s.benchTemp b) else gap mvA mvB

/-- The limit of a condition: in °C, or in mV; and the number under which a pair's condition is kept. -/
def gradMax (kind : Nat) : Nat := if kind = 0 then 25 else 80
def gradKey (a b kind : Nat) : Nat := 2 * (68 * min a b + max a b) + kind

/-- One condition of a pair checked: throttled beyond its limit, a release begun included; released by 1/16 per 1 ms once both are back. -/
def State.gradOne (s : State) (a b mvA mvB kind : Nat) : State :=
  let k := gradKey a b kind
  let g := tgetD s.pwr.grad k 16
  if gradMax kind < s.gradDiff kind a b mvA mvB then
    if g ≤ 4 then s
    else
      let t := s.gradSet k (s.gradBench kind a b mvA mvB) 4 1
      match tget s.pwr.pairs k with | some x => t.setDuty x | none => t
  else match tget s.pwr.pairs k with
  | none => s
  | some x =>
    if s.gradDiff 0 a b mvA mvB ≤ 22 ∧ s.gradDiff 1 a b mvA mvB ≤ 60 ∧ s.tclkMs ≤ s.since (tgetD s.pwr.gradAt k 0) then
      let s := s.gradSet k x (min 16 (g + 1)) 1
      if 15 ≤ g then { s with pwr := { s.pwr with pairs := tdel s.pwr.pairs k } } else s
    else s

/-- GRADIENT_CHECK (R419): the two benches' measured supply voltages are the environment's. -/
def execGradientCheck (a b mvA mvB : Nat) (s : State) : Outc :=
  run (adjacent a b) (if s.domUp a && s.domUp b then (s.gradOne a b mvA mvB 0).gradOne a b mvA mvB 1 else s)

/-- GRADIENT_ESCALATE (R419): a pair still beyond its limit 1 ms after detection. -/
def State.gradEsc (s : State) (a b mvA mvB kind : Nat) : State :=
  let k := gradKey a b kind
  match tget s.pwr.pairs k with
  | none => s
  | some x =>
    if gradMax kind < s.gradDiff kind a b mvA mvB ∧ s.tclkMs ≤ s.since (tgetD s.pwr.gradAt k 0) ∧ tgetD s.pwr.grad k 16 ≠ 0 then s.gradSet k x 0 0
    else s
def execGradientEscalate (a b mvA mvB : Nat) (s : State) : Outc :=
  run (adjacent a b) (if s.domUp a && s.domUp b then (s.gradEsc a b mvA mvB 0).gradEsc a b mvA mvB 1 else s)

/-! ### Commands -/

/-- PWR_DOMAIN_STATUS. -/
def execPwrDomainStatus (q : Req) (first count : Nat) (s : State) : Outc :=
  run (mbxOk q) (axotte s q 0x0202 fun s =>
    if count = 0 ∨ 96 < first + count then invalid s
    else .done s 0 ((List.range count).flatMap fun i => p32 (s.get (R.pwrDomStatus (first + i))).toNat))

/-- Ceilings of the benches set, from the first. -/
def State.setCeils (s : State) (cs : List Nat) : State := (cs.zipIdx.foldl (fun s x => s.fset (R.pwrBenchCeil x.2) 4 0 x.1) s).dutyAll

/-- PWR_THROTTLE_SET (R412): a ceiling is 1 to 16, as in its register (DEDUCED, log entry 38). -/
def execPwrThrottleSet (q : Req) (ceil : Nat) (s : State) : Outc :=
  run (mbxOk q) (axotte s q 0x0203 fun s => if ceil = 0 ∨ 16 < ceil then invalid s else .done (s.setCeils (List.replicate 68 ceil)) 0 [])
def execPwrThrottleSetExpert (q : Req) (ceils : List Nat) (tLim : Nat) (s : State) : Outc :=
  run (mbxOk q) (axotte s q 0x8203 fun s =>
    if ceils.length ≠ 68 ∨ ceils.any (fun c => c == 0 || decide (16 < c)) ∨ tLim < 70 ∨ 100 < tLim then invalid s
    else .done ((s.setCeils ceils).fset R.pwrThermCfg 7 0 tLim) 0 [])

/-- THM_STATUS: bench temperatures, HBM and site temperatures, overburden throttle states. -/
def execThmStatus (q : Req) (s : State) : Outc :=
  run (mbxOk q) (axotte s q 0x0240 fun s =>
    .done s 0 ((List.range 68).flatMap (fun b => p32 (s.get (R.pwrBenchTemp b)).toNat)
      ++ (List.range 6).flatMap (fun t => leBytes 1 (s.fget (R.hbmStatus t) 15 8))
      ++ (List.range 8).flatMap (fun n => leBytes 1 (s.fget (R.sitePwr n) 7 0))
      ++ leBytes 2 (s.fget R.hubMemStatus 29 26)))

end Sys2Proof.Machine
end

