-- ==== Sys2Proof/Machine/Prb.lean ====
section
/-! DEFINITION. The persistent register block and the event log's readout (R439 to R444). -/

namespace Sys2Proof.Machine

abbrev dWorn : Nat := 0x20
abbrev dProtected : Nat := 0x21

/-- The first write in line started, outside a warning (R442); the queue's counts in prb.status, and pwr.supply.status.deferred. -/
def State.prbShow (s : State) : State :=
  let s := { s with prb := { s.prb with run := !s.prb.q.isEmpty && (s.prb.run || !s.bget R.pwrSupplyStatus 31) } }
  let r := s.get R.prbStatus
  let r := setFld (setFld (setFld r 31 31 (b2n s.prb.run)) 21 16 (min 63 s.prb.deferred.length)) 5 0 (min 32 (s.prb.q.length - b2n s.prb.run))
  (s.set R.prbStatus r).bset R.pwrSupplyStatus 27 (!s.prb.deferred.isEmpty)

/-- Whether a word accepts no further write (R441). -/
def State.worn (s : State) (w : Nat) : Bool := decide (100000 ≤ tgetD s.prb.count w 0)

/-- What takes effect with a word (R439, R473): the device ID, the partition tag, the retain policy, two routes. -/
def State.prbMirror (s : State) (w : Nat) (v : W32) : State :=
  let x := v.toNat
  if w = 0 then
    let t := s.set R.tksDevId (BitVec.ofNat 64 (b2n (nbit x 31) * 2 ^ 31 + x % 2 ^ 18))
    if s.bget R.tksDevId 31 = nbit x 31 then t else t.portsRejoin
  else if w = 1 then
    if s.fget R.tksDevPart 15 0 = x % 65536 then s else (s.set R.tksDevPart (BitVec.ofNat 64 (x % 65536))).portsRejoin
  else if w = 0x74 then s.bset R.secLibStatus 62 (nbit x 0)
  else
    let r (g : Bool) (i : Nat) : Reg := if g then R.tksRtGrp i else R.tksRtMem i
    let put (s : State) (g : Bool) (i e : Nat) : State :=
      s.set (r g i) (BitVec.ofNat 64 (nbits e 15 12 * 2 ^ 12 + nbits e 6 4 * 2 ^ 4 + e % 8))
    if 0x200 ≤ w ∧ w < 0x400 then
      let i := 2 * (w % 0x100)
      (put s (decide (w < 0x300)) i (x % 65536)) |> fun s => put s (decide (w < 0x300)) (i + 1) (x / 65536)
    else s

/-- A job's words put in the line of writes, in arrival order: those beyond the 32 that may wait behind the one in progress stall at their ports (R440; log
entry 66); none in a warning (R442). -/
def State.prbFeedOne (s : State) (k : Nat) : State :=
  match tget s.prb.jobs k with
  | none => s
  | some j => { s with prb := { s.prb with q := s.prb.q ++ j.left, jobs := tput s.prb.jobs k { j with left := [] } } }
def State.prbFeed (s : State) : State :=
  (if s.bget R.pwrSupplyStatus 31 then s else (s.prb.jobs.map fun e : Nat × PJob => e.1).foldl State.prbFeedOne s).prbShow

/-- Words of a job put in line; in a warning they wait for its end (R442). -/
def State.prbJob (s : State) (k : Nat) (ws : List PWrite) (fin : PEnd) : State :=
  let old := match tget s.prb.jobs k with | some j => j.left | none => []
  { s with prb := { s.prb with jobs := tput s.prb.jobs k (PJob.mk (old ++ ws) fin) } }.prbFeed

/-- A command's words (R440 to R442): refused where one is worn; deferred in a warning; else in line. -/
def State.prbCmd (s : State) (q : Req) (ws : List (Nat × W32)) (fin : PEnd) : AxR :=
  let xs := ws.map fun p : Nat × W32 => PWrite.mk p.1 p.2 (some (q.mbx, q.tag, q.seq)) false
  match ws.find? (fun p : Nat × W32 => s.worn p.1) with
  | some p => refuse (s.log' 0 2 1 [p.1]) dWorn
  | none =>
    if s.bget R.pwrSupplyStatus 31 then
      if 32 < s.prb.deferred.length + xs.length then refuse s dSupplyLow
      else .fail { s with prb := { s.prb with deferred := s.prb.deferred ++ xs } }.prbShow stDeferred 0
    else .wait (s.prbJob q.mbx xs fin)

/-- Whether a job has every word persistent. -/
def State.prbDone (s : State) (k : Nat) : Bool :=
  match tget s.prb.jobs k with
  | none => false
  | some j => j.left.isEmpty && !s.prb.q.any (fun p => match p.cmd with | some c => c.1 == k && !p.retry | none => false)

/-- The write in progress ends: the word holds its value, its count rises, its page's wear follows (R440, R441); a retry's outcome is
logged (R442). -/
def State.prbWord1 (s : State) (p : PWrite) : State :=
  if s.worn p.w then
    s.log' 0 2 1 (p.w :: match p.cmd with | some c => [c.1, c.2.1.toNat, c.2.2.toNat] | none => [])
  else
    let n := tgetD s.prb.count p.w 0 + 1
    let s := { s with prb := { s.prb with count := tput s.prb.count p.w n } }.set (R.prbWord p.w) (BitVec.ofNat 64 p.v.toNat)
    let s := if s.fget (R.prbWear (p.w / 64)) 16 0 < n then s.fset (R.prbWear (p.w / 64)) 16 0 n else s
    let s := s.prbMirror p.w p.v
    let s := if p.retry ∧ (p.w = 1 ∨ 0x200 ≤ p.w) then s.measCommit else s
    if p.retry then s.log' 1 2 2 (p.w :: match p.cmd with | some c => [c.1, c.2.1.toNat, c.2.2.toNat] | none => []) else s

/-- PRB_RWP_WRITE (R440 to R442): a data-plane write of an operator word; it stalls at its port behind a full line, which keeps it in order (log entry 66). -/
def State.rwpWrite (s : State) (w : Nat) (v : W32) : State :=
  if w < 0x80 ∨ 0x100 ≤ w then s
  else if s.bget R.pwrSupplyStatus 31 then (s.bset R.prbStatus 29 true).bump R.prbDropped 32 1
  else if s.worn w then ((s.bset R.prbStatus 30 true).bump R.prbDropped 32 1).log' 0 2 1 [w]
  else { s with prb := { s.prb with q := s.prb.q ++ [PWrite.mk w v none false] } }.prbShow
def execPrbRwpWrite (w : Nat) (v : W32) (s : State) : Outc := run (w < 1024) (s.rwpWrite w v)

/-- PRB_READ; the trust stores read 0 outside management (Table 20-7, R32). -/
def execPrbRead (q : Req) (first count : Nat) (s : State) : Outc :=
  run (mbxOk q) (axotte s q 0x0A01 fun s =>
    if count = 0 ∨ 1020 < count ∨ 1024 < first + count then invalid s
    else .done s 0 ((List.range count).flatMap fun i =>
      p32 (if q.mbx < 24 ∧ 0x10 ≤ first + i ∧ first + i < 0x80 then 0 else (s.prbW (first + i)).toNat)))
/-- PRB_WRITE (R440). -/
def execPrbWrite (q : Req) (first : Nat) (vals : List W32) (s : State) : Outc :=
  run (mbxOk q) (axotte s q 0x0A02 fun s =>
    if vals.isEmpty ∨ 64 < vals.length then invalid s
    else if first < 0x80 ∨ 0x100 < first + vals.length then refuse s dProtected
    else s.prbCmd q (vals.zipIdx.map fun p : W32 × Nat => (first + p.2, p.1)) (.words first vals.length))
/-- PRB_WEAR. -/
def execPrbWear (q : Req) (s : State) : Outc :=
  run (mbxOk q) (axotte s q 0x0A03 fun s =>
    .done s 0 ((List.range 16).flatMap (fun p => p32 (s.get (R.prbWear p)).toNat) ++ p32 (s.get R.prbStatus).toNat))

/-- A log entry's 32 bytes (Table 20-8). -/
def logBytes (e : LogEntry) : List Byte :=
  leBytes 8 e.time.toNat ++ leBytes 4 e.boot ++ leBytes 4 e.tenancy ++ leBytes 1 e.cls ++ leBytes 1 e.src ++ leBytes 2 e.code
    ++ (leBytes 4 (e.data.getD 0 0) ++ leBytes 4 (e.data.getD 1 0) ++ leBytes 4 (e.data.getD 2 0))

/-- DIAG_LOG_READ (R444): entries from the first named to older ones; outside management those of the current tenancy. -/
def execDiagLogRead (q : Req) (first count : Nat) (s : State) : Outc :=
  run (mbxOk q) (axotte s q 0x0803 fun s =>
    if count = 0 ∨ 127 < count then invalid s
    else
      let es := s.log.reverse.filter fun e => decide (e.seq ≤ first) && (decide (24 ≤ q.mbx) || e.tenancy == (s.get R.stwLogTenancy).toNat)
      .done s 0 ((es.take count).flatMap logBytes))

end Sys2Proof.Machine
end

