-- ==== Sys2Proof/Machine/Age.lean ====
section
/-! DEFINITION. Ageing, the margin plan and telemetry (R421 to R427), and the completion of persistent writes. -/

namespace Sys2Proof.Machine

/-! ### The plan's copies (R422, Table 19-4) -/

/-- First word of a copy. -/
def planBase (copy : Nat) : Nat := if copy = 0 then 0x100 else 0x180

/-- The entry of a domain in a plan; the factory plan's where none is loaded. -/
def State.planOf (s : State) (p : Tbl PlanE) (d : Nat) : PlanE := tgetD p d ⟨s.fuse.planV, s.fuse.planV, 0⟩

/-- The 100 words of a plan. -/
def State.planWords (s : State) (p : Tbl PlanE) (seq hours period guard : Nat) : List Nat :=
  let dom (d : Nat) : Nat :=
    let e := s.planOf p d
    e.full % 256 * 2 ^ 24 + e.half % 256 * 2 ^ 16 + (s.fget (R.ageFuse d) 23 16 - e.full) % 256 * 2 ^ 8 + e.stage % 4 * 2 ^ 6
  let ws := [seq % 65536] ++ (List.range 96).map dom ++ [hours % 2 ^ 32, period % 65536 * 65536 + guard % 65536]
  ws ++ [crc32c (ws.flatMap (leBytes 4))]

/-- Whether a copy's CRC is right, and its sequence. -/
def State.copyOk (s : State) (c : Nat) : Bool := crc32c (s.prbBytes (planBase c) 99) == (s.prbW (planBase c + 99)).toNat
def State.copySeq (s : State) (c : Nat) : Nat := (s.prbW (planBase c)).toNat % 65536

/-- The copy that bring-up loads: the newer of those whose CRC is right, modulo 2^16. -/
def State.planCopy (s : State) : Option Nat :=
  match s.copyOk 0, s.copyOk 1 with
  | true, true => if (s.copySeq 0 + 65536 - s.copySeq 1) % 65536 < 32768 then some 0 else some 1
  | true, false => some 0
  | false, true => some 1
  | false, false => none

/-- Plan status after a plan has been put in force: sequence, derated and exhausted; derate limiters (R426). -/
def State.planShow (s : State) (seq : Nat) : State :=
  let has (n : Nat) : Bool := (List.range 96).any fun d => (s.planOf s.pwr.plan d).stage == n
  let r := s.get R.agePlanStatus
  let s := s.set R.agePlanStatus (setFld (setFld (setFld r 30 30 (b2n (has 2))) 29 29 (b2n (has 1))) 15 0 seq)
  { s with pwr := { s.pwr with derate := (List.range 68).filter fun b => decide (1 ≤ (s.planOf s.pwr.plan b).stage) } }.dutyAll

/-- The plan of a copy of the persistent block in force. -/
def State.planTake (s : State) (c : Nat) : State :=
  let e (d : Nat) : PlanE :=
    let w := (s.prbW (planBase c + 1 + d)).toNat
    ⟨nbits w 31 24, nbits w 23 16, nbits w 7 6⟩
  { s with pwr := { s.pwr with plan := (List.range 96).map (fun d => (d, e d)), copy := some c } }

/-- The plan of a module without a valid copy in force. -/
def State.planFirst (s : State) : State :=
  { s with pwr := { s.pwr with plan := (List.range 96).map (fun d => (d, s.planOf [] d)), copy := none } }

/-- The service hours that are persistent (R422). -/
def State.hoursKept (s : State) : Nat := (List.range 8).foldl (fun m i => max m (s.prbW (0x1F0 + i)).toNat) 0

/-- The margin plan loaded at bring-up step 2, with period, guard and hours (R422). -/
def State.planLoad (s : State) : State :=
  let s := s.set R.ageHours (BitVec.ofNat 64 s.hoursKept)
  match s.planCopy with
  | some c => ((s.planTake c).set R.ageCfg (BitVec.ofNat 64 (s.prbW (planBase c + 98)).toNat)).planShow (s.copySeq c)
  | none => ((s.planFirst.set R.ageCfg (BitVec.ofNat 64 (168 * 65536 + 25))).planShow 0).log' 0 4 1 []

/-- Service hours at the last commit. -/
def State.commitHours (s : State) : Nat := match s.pwr.copy with | some c => (s.prbW (planBase c + 97)).toNat | none => 0

/-! ### Monitors (R421) -/

/-- The lower of two slacks, two's complement. -/
def slackMin (a b : BitVec 16) : BitVec 16 := if a.toInt ≤ b.toInt then a else b

/-- AGE_MONITOR_READ: the lowest since the last re-plan, and since the last telemetry record. -/
def State.monitor (s : State) (d : Nat) (x : BitVec 16) : State :=
  if !s.domUp d then s
  else
    let old := BitVec.ofNat 16 (s.fget (R.ageMon d) 15 0)
    let v := if s.pwr.seen.contains d then slackMin old x else x
    let r := match tget s.pwr.slackRec d with | some o => slackMin (BitVec.ofNat 16 o) x | none => x
    { s with pwr := { s.pwr with seen := sIns s.pwr.seen d, slackRec := tput s.pwr.slackRec d r.toNat } }.fset (R.ageMon d) 15 0 v.toNat
def execAgeMonitorRead (dom : Nat) (slack : BitVec 16) (s : State) : Outc := run (dom < 96) (s.monitor dom slack)

/-! ### Re-plans (R423 to R426) -/

/-- The change of a domain's set points, in 5 mV: ⌈(guard − slack) / k⌉, at most 10 mV down. k is in 0.01 ps per mV. -/
def planStep (guard : Nat) (slack : Int) (k : Nat) : Int := max (-2) (-(-(20 * ((guard : Int) - slack)) / (k : Int)))

/-- The set points of benches after one pass in which the lower of two adjacent ones is raised to within 80 mV; one whose entry stays is not raised. -/
def raiseOnce (up : Nat → Bool) (vs : List Nat) : List Nat :=
  (List.range 68).map fun b =>
    if up b then (List.range 68).foldl (fun m c => if adjacent b c then max m (vs.getD c 0 - 16) else m) (vs.getD b 0) else vs.getD b 0
def raiseGo (up : Nat → Bool) : Nat → List Nat → List Nat
  | 0, vs => vs
  | n + 1, vs => raiseGo up n (raiseOnce up vs)

/-- The new entries of every domain (R424, R426); a domain in reset or off keeps its own. -/
def State.planNew (s : State) : List PlanE :=
  let guard := s.fget R.ageCfg 15 0
  let step (d : Nat) : Int := planStep guard (BitVec.ofNat 16 (s.fget (R.ageMon d) 15 0)).toInt (s.fget (R.ageFuse d) 15 0)
  let up (d : Nat) : Bool := s.domUp d && s.pwr.seen.contains d
  let v (sel : PlanE → Nat) (d : Nat) : Nat := if up d then ((sel (s.planOf s.pwr.plan d) : Int) + step d).toNat else sel (s.planOf s.pwr.plan d)
  let fs := raiseGo up 20 ((List.range 68).map (v (·.full)))
  let hs := raiseGo up 20 ((List.range 68).map (v (·.half)))
  (List.range 96).map fun d =>
    let e := s.planOf s.pwr.plan d
    let vmax := s.fget (R.ageFuse d) 23 16
    if d < 68 then
      let f := fs.getD d 0
      let h := hs.getD d 0
      if !up d then e
      else if vmax < h then ⟨e.full, e.half, 2⟩
      else if vmax < f then ⟨e.full, h, max e.stage 1⟩
      else ⟨f, h, e.stage⟩
    else if !up d then e
    else if vmax < v (·.full) d then ⟨vmax, vmax, 2⟩
    else ⟨v (·.full) d, v (·.full) d, e.stage⟩

/-- A plan in force: set points of the domains follow. -/
def State.planUse (s : State) (p : Tbl PlanE) : State :=
  let s := { s with pwr := { s.pwr with plan := p } }
  (List.range 96).foldl (fun s d => if s.bget (R.pwrDomStatus d) 31 then s.fset (R.ageMon d) 23 16 (s.setPoint d) else s) s

/-- The commit written to the inactive copy, one sequence on (R423, R425). -/
def State.planCommit (s : State) (r : Replan) : State :=
  let c := match s.pwr.copy with | some 0 => 1 | _ => 0
  let ws := s.planWords r.new (s.fget R.agePlanStatus 15 0 + 1) (s.get R.ageHours).toNat (s.fget R.ageCfg 31 16) (s.fget R.ageCfg 15 0)
  { s with pwr := { s.pwr with replan := some { r with low := [] } } }.prbJob 100
    (ws.zipIdx.map fun p : Nat × Nat => PWrite.mk (planBase c + p.2) (BitVec.ofNat 32 p.1) (some (100, 0, 0)) false) .plan

/-- A re-plan begins: lowerings are applied and watched first; with none, it commits at once. -/
def State.replanGo (s : State) (mbx : Option Nat) : State :=
  let es := s.planNew
  let old := (List.range 96).map fun d => (d, s.planOf s.pwr.plan d)
  let new := es.zipIdx.map fun p : PlanE × Nat => (p.2, p.1)
  let low := (List.range 96).filter fun d =>
    decide ((es.getD d ⟨0, 0, 0⟩).full < (s.planOf s.pwr.plan d).full) || decide ((es.getD d ⟨0, 0, 0⟩).half < (s.planOf s.pwr.plan d).half)
  let r : Replan := ⟨mbx, new, old, low⟩
  let s := s.bset R.agePlanStatus 31 true
  if low.isEmpty then s.planCommit r
  else
    let s := { s with pwr := { s.pwr with replan := some r, seen := s.pwr.seen.filter fun d => !low.contains d } }
    s.planUse (old.map fun p : Nat × PlanE => if low.contains p.1 then (p.1, tgetD new p.1 p.2) else p)

/-- REPLAN_LOWERING_VERIFY (R425): lowerings whose slack stayed at the guard or above are committed, the others return. -/
def State.replanVerify (s : State) : State :=
  match s.pwr.replan with
  | none => s
  | some r =>
    if r.low.isEmpty then s
    else
      let bad := r.low.filter fun d => !(s.pwr.seen.contains d
        && decide ((s.fget R.ageCfg 15 0 : Int) ≤ (BitVec.ofNat 16 (s.fget (R.ageMon d) 15 0)).toInt))
      let back (t : Tbl PlanE) : Tbl PlanE := bad.foldl (fun t d => tput t d (tgetD r.old d ⟨0, 0, 0⟩)) t
      (s.planUse (back s.pwr.plan)).planCommit { r with new := back r.new }
def execReplanLoweringVerify (s : State) : Outc := .next s.replanVerify

/-- The commit is persistent: its plan is in force and measured, new stages are logged, the command is answered (R425, R426, R486). -/
def State.planDone (s : State) : State :=
  match s.pwr.replan with
  | none => s
  | some r =>
    let seq := (s.fget R.agePlanStatus 15 0 + 1) % 65536
    let c := match s.pwr.copy with | some 0 => 1 | _ => 0
    let s := s.planUse r.new
    let s := { s with pwr := { s.pwr with replan := none, copy := some c, seen := [], commitAt := some (s.get R.hubTimeCount) } }
    let s := (s.bset R.agePlanStatus 31 false).planShow seq
    let up := (List.range 96).filter fun d => decide ((tgetD r.old d ⟨0, 0, 0⟩).stage < (tgetD r.new d ⟨0, 0, 0⟩).stage)
    let s := (up.foldl (fun s d => s.log' 0 4 2 [d, (tgetD r.new d ⟨0, 0, 0⟩).stage]) s).measCommit
    let changed := ((List.range 96).filter fun d => decide (tgetD r.old d ⟨0, 0, 0⟩ ≠ tgetD r.new d ⟨0, 0, 0⟩)).length
    match r.mbx with
    | some m => s.axFinish m stDone 0 (p16 seq ++ p16 changed ++ (List.range 96).flatMap fun d => leBytes 1 (s.planOf r.new d).stage)
    | none => s

/-- A supply warning stops a re-plan (Table 19-6): uncommitted lowerings return; it is kept for its restart. -/
def State.replanStop (s : State) : State :=
  match s.pwr.replan with
  | none => s
  | some r =>
    let s := s.planUse r.old
    let keep (p : PWrite) : Bool := match p.cmd with | some c => c.1 != 100 | none => true
    let q := s.prb.q
    let q := if s.prb.run then q.take 1 ++ (q.drop 1).filter keep else q.filter keep
    ({ s with pwr := { s.pwr with replan := none, replanHeld := some r }
              prb := { s.prb with q := q, jobs := tdel s.prb.jobs 100 } }.bset R.agePlanStatus 31 false).prbShow

/-- REPLAN_RESTART (R428). -/
def execReplanRestart (s : State) : Outc :=
  .next (match s.pwr.replanHeld with
    | some r =>
      if s.bget R.pwrSupplyStatus 31 ∨ s.pwr.replan.isSome then s
      else { s with pwr := { s.pwr with replanHeld := none } }.replanGo r.mbx
    | none => s)

/-- AGE_REPLAN (R423): busy while one is in progress, or within 1 h of the last commit; deferred in a warning, when it starts after recovery (R413, R428).
A period and guard that come with it take effect. -/
def State.replanAsk (s : State) (m : Nat) (cfg : Option Nat) : AxR :=
  let wait := match s.pwr.commitAt with | some t => 3600000 * s.tclkMs - s.since t | none => 0
  if s.pwr.replan.isSome ∨ s.pwr.replanHeld.isSome then busy s
  else if 0 < wait then .again s (1000 * wait / s.tclkMs + 1)
  else
    let s := match cfg with | some c => s.set R.ageCfg (BitVec.ofNat 64 c) | none => s
    if s.bget R.pwrSupplyStatus 31 then .fail { s with pwr := { s.pwr with replanHeld := some ⟨none, [], [], []⟩ } } stDeferred 0
    else .wait (s.replanGo (some m))
def execAgeReplan (q : Req) (s : State) : Outc := run (mbxOk q) (axotte s q 0x0231 fun s => s.replanAsk q.mbx none)
def execAgeReplanExpert (q : Req) (period guard : Nat) (s : State) : Outc :=
  run (mbxOk q) (axotte s q 0x8231 fun s =>
    if period < 24 ∨ 2160 < period ∨ guard < 10 ∨ 100 < guard then invalid s
    else s.replanAsk q.mbx (some (period * 65536 + guard)))

/-- AGE_STATUS: plan status, the committed plan's words, the slack of each domain. -/
def execAgeStatus (q : Req) (s : State) : Outc :=
  run (mbxOk q) (axotte s q 0x0230 fun s =>
    let plan := match s.pwr.copy with
      | some c => s.prbBytes (planBase c) 100
      | none => (s.planWords [] 0 0 168 25).flatMap (leBytes 4)
    .done s 0 (p32 (s.get R.agePlanStatus).toNat ++ plan ++ (List.range 96).flatMap fun d => leBytes 2 (s.fget (R.ageMon d) 15 0)))

/-- SERVICE_HOUR_TICK (R422, R423): the hour's word written, and a re-plan when its period has passed. -/
def State.hourTick (s : State) : State :=
  let h := max (s.get R.ageHours).toNat s.hoursKept + 1
  let s := (s.set R.ageHours (BitVec.ofNat 64 (h % 2 ^ 32))).prbJob 101 [PWrite.mk (0x1F0 + h % 8) (BitVec.ofNat 32 h) none false] .plain
  if s.commitHours + s.fget R.ageCfg 31 16 < h ∧ s.pwr.replan.isNone ∧ s.pwr.replanHeld.isNone ∧ s.bget R.stwBootStepDone 2 ∧ !s.bget R.pwrSupplyStatus 31 then
    s.replanGo none else s
def execServiceHourTick (s : State) : Outc := .next (if s.powered then s.hourTick else s)

/-! ### Persistent writes complete (R440) -/

/-- A command whose words are persistent ends. -/
def State.prbJobEnd (s : State) (k : Nat) : State :=
  match tget s.prb.jobs k with
  | none => s
  | some j =>
    if !s.prbDone k then s
    else
      let s := { s with prb := { s.prb with jobs := tdel s.prb.jobs k } }
      match j.fin with
      | .plan => s.planDone
      | .plain => if k < 28 then s.axFinish k stDone 0 [] else s
      | .measured => s.measCommit.axFinish k stDone 0 []
      | .words f n => s.axFinish k stDone 0 (p16 f ++ p16 n)
      | .entries n => s.measCommit.axFinish k stDone 0 (p16 n ++ p16 0)

/-- PRB_WRITE_COMPLETE: the write in progress is persistent; the next starts. -/
def State.prbComplete (s : State) : State :=
  match s.prb.q with
  | [] => s
  | p :: r =>
    if !s.prb.run then s
    else
      let s := { s with prb := { s.prb with q := r, run := false } }.prbWord1 p
      let s := s.prbFeed
      (s.prb.jobs.map fun e : Nat × PJob => e.1).foldl State.prbJobEnd s
def execPrbWriteComplete (s : State) : Outc := .next s.prbComplete

/-- Writes deferred in a warning tried once, in order (R442). -/
def State.prbRetry (s : State) : State :=
  let ds := s.prb.deferred.map fun p : PWrite => { p with retry := true }
  { s with prb := { s.prb with deferred := [] } }.prbJob 200 ds .plain

/-! ### Telemetry (R427) -/

/-- An item of a record (Table 19-5). Power is measured: the environment's, free values (log entry 3). -/
def State.telItem (s : State) (i : Nat) : List Byte :=
  match i with
  | 0 => p32 (s.get R.pwrSupplyStatus).toNat ++ p32 (s.get R.pwrSupplyIin).toNat
  | 1 => p64 (s.get (R.pwrPool 0)).toNat ++ p64 (s.get (R.pwrPool 1)).toNat
  | 2 => (List.range 68).flatMap fun b => p32 (s.get (R.pwrBenchDuty b)).toNat
  | 3 => (List.range 68).flatMap fun b => p32 (s.get (R.pwrBenchTemp b)).toNat
  | 4 => s.freeBytes 192
  | 5 => (List.range 8).flatMap fun n => p64 (s.get (R.sitePwr n)).toNat
  | 6 => (List.range 6).flatMap fun t => p32 (s.get (R.hbmStatus t)).toNat
  | 7 => p32 (s.get R.hubMemStatus).toNat ++ p32 0
  | 8 => (List.range 96).flatMap fun d => p16 (tgetD s.pwr.slackRec d (s.fget (R.ageMon d) 15 0))
  | _ => p64 (s.get R.regStatus).toNat

/-- Bytes of zeros up to a multiple of 64. -/
def pad64 (bs : List Byte) : List Byte := bs ++ List.replicate ((64 - bs.length % 64) % 64) 0

/-- A record: header, items in mask order, padding. -/
def State.telRecord (s : State) (mask seq : Nat) : List Byte :=
  pad64 (p64 (s.get R.hubTimeCount).toNat ++ p32 seq ++ p32 mask ++ ((List.range 10).filter (nbit mask)).flatMap s.telItem)

/-- Measured power drawn, where a mask asks for it. -/
def State.telDrew (s : State) (mask : Nat) : State := if nbit mask 4 then { s with freeCtr := s.freeCtr + 192 } else s

/-- TEL_READ. -/
def execTelRead (q : Req) (mask : Nat) (s : State) : Outc :=
  run (mbxOk q) (axotte s q 0x0901 fun s => if 1024 ≤ mask then invalid s else .done (s.telDrew mask) 0 (s.telRecord mask 0))

/-- TEL_STREAM_SET; the basic form streams every item (log entry 27). -/
def State.telSet (s : State) (ring : W64) (k period mask tc : Nat) : AxR :=
  if period = 0 then .done { s with pwr := { s.pwr with tel := none } } 0 []
  else if 10000 < period ∨ k < 4 ∨ 16 < k ∨ 1024 ≤ mask ∨ 3 < tc then invalid s
  else .done { s with pwr := { s.pwr with tel := some ⟨ring, k, period, mask, tc, 0, 0⟩ } } 0 []
def execTelStreamSet (q : Req) (ring : W64) (k period : Nat) (s : State) : Outc :=
  run (mbxOk q) (axotte s q 0x0902 fun s => s.telSet ring k period 0x3FF 3)
def execTelStreamSetExpert (q : Req) (ring : W64) (k period mask tc : Nat) (s : State) : Outc :=
  run (mbxOk q) (axotte s q 0x8902 fun s => s.telSet ring k period mask tc)

/-- TELEMETRY_RECORD: written into its slot; a hole drops it, logged as class 1 (R27); one that cannot be sent is skipped. -/
def State.telGo (s : State) : State :=
  match s.pwr.tel with
  | none => s
  | some t =>
    let bs := s.telRecord t.mask t.seq
    let g := (t.ring.toNat + t.slot * bs.length) % 2 ^ 64
    let next (s : State) (slot : Nat) : State := { s with pwr := { s.pwr with tel := some { t with seq := (t.seq + 1) % 2 ^ 32, slot := slot } } }
    let fresh (s : State) : State := { s with pwr := { s.pwr with slackRec := [] } }
    if s.gHole g bs.length || (s.isOwn g && s.libHit (gLocal g) bs.length) then next ((s.hole ⟨.steward, 0⟩ 1 g).log' 1 3 4 [t.seq]) t.slot
    else if !s.gRoom g bs.length then next s t.slot
    else next (fresh ((s.telDrew t.mask).gWrite ⟨.steward, 0⟩ (2 ^ 41) g t.tc bs false).1) ((t.slot + 1) % 2 ^ t.k)
def execTelemetryRecord (s : State) : Outc := .next s.telGo

end Sys2Proof.Machine
end

