-- ==== Sys2Proof/Machine/Reply.lean ====
section
/-! DEFINITION. What an answer does that reaches this device's units from the host, a chiplet or another device (R316, R320, R336), and
the responses the device sends to requests of others. -/

namespace Sys2Proof.Machine

/-- An answer: the global address concerned, whether the request wrote, the bytes it asked for, their poison, the status (0 performed,
else a code of Table 13-6), the sett and count of a grant, and the traffic class of the request. -/
structure Rep where
  g : Nat
  wr : Bool
  bs : List Byte := []
  poison : Bool := false
  err : Nat := 0
  first : Nat := 0
  val : Nat := 0
  atom : Bool := false
  tc : Nat := 1
deriving DecidableEq, Repr

/-- The access code of hub.map.hole_info: 0 read, 1 write, 2 atomic. -/
def Rep.acc (r : Rep) : Nat := if r.atom then 2 else b2n r.wr

/-! ### Responses to requests of other devices -/

/-- Operations whose performance is memoized (Table 13-5). -/
def opMemo (op : Nat) : Bool := [0x01, 0x03, 0x04, 0x05, 0x08, 0x09, 0x0B, 0x10].contains op

/-- The memo count register (Table 13-14). -/
def State.memoCount (s : State) : State := s.set R.tksE2eMemo (BitVec.ofNat 64 s.memo.length)

/-- A response frame sent to the source of a request, where there is a route to it (R311). -/
def State.tksSendResp (s : State) (f : Frame) (status addr : Nat) (aux : W64) (bs : List Byte) (poison : Bool) : State :=
  match s.route f.src with
  | none => s
  | some r => s.sendVia r { f with
      lane := 0, dst := f.src, src := s.ownDev, hops := max 1 (s.fget R.tksDevCfg 5 0), resp := true, poison := poison, status := status
      len := bs.length, floor := s.tksFloor f.src % 65536, addr := BitVec.ofNat 64 addr, aux := aux, payload := bs } none

/-- A request answered after it was performed: the memo keeps what it returned (R314, R321). -/
def State.tksRespond (s : State) (f : Frame) (status addr : Nat) (aux : W64) (bs : List Byte) (poison : Bool) : State :=
  let s := if status = 0 && opMemo f.op then
      State.memoCount { s with memo := s.memo ++ [MemoE.mk f.src f.reqid status aux (s.get R.hubTimeCount) addr] }
    else s
  s.tksSendResp f status addr aux bs poison

/-! ### Egress descriptors (R372) -/

/-- The physical address of descriptor i of egress queue e, and its ring's descriptors. -/
def State.eqSize (s : State) (e : Nat) : Nat := 2 ^ (s.fget (R.svcEqCfg e) 59 56 + 4)
def State.eqAddr (s : State) (e i : Nat) : Nat := s.fget (R.svcEqCfg e) 33 0 * 4096 + 32 * (i % s.eqSize e)

/-- The unit that reads and writes the rings of the service complex. -/
def svcHub : Master := ⟨.core, 0⟩

/-- Head passes every descriptor done in order; the first argument is fuel. -/
def State.egressHead (s : State) (e : Nat) : Nat → State
  | 0 => s
  | k + 1 =>
    let h := (s.get (R.svcEqHead e)).toNat
    if s.svc.egDone.contains (e * 2 ^ 32 + h) then
      ({ s with svc := { s.svc with egDone := sDel s.svc.egDone (e * 2 ^ 32 + h) } }.set (R.svcEqHead e) (BitVec.ofNat 64 ((h + 1) % 2 ^ 32))).egressHead e k
    else s

/-- A descriptor done: done and status written, its object signalled, head moved on. -/
def State.egressDone (s : State) (e i status : Nat) : State :=
  let a := s.home (s.eqAddr e i)
  let sig := nbit (s.word (a + 11) 1) 7
  let obj := s.word (a + 16) 2 % 8192
  let s := (s.engWrite svcHub (2 ^ 40) (a + 18) 0 (leBytes 2 (0x8000 + status % 16)) false).1
  let s := { s with svc := { s.svc with egDone := sIns s.svc.egDone (e * 2 ^ 32 + i) } }
  let s := if sig then s.syncAdd obj 1 false else s
  s.egressHead e (s.eqSize e)

/-! ### Answers by issuer (Table 1-6, R316) -/

/-- A CXL.io access answered with Unsupported Request, which AER's uncorrectable error status shows in bit 20 (R328, log entry 35). -/
def State.ur (s : State) : State :=
  { s with cfg := { s.cfg with regs := tset s.cfg.regs 0x41 0 (tgetD s.cfg.regs 0x41 0 ||| 0x100000) } }.emit (.cplIo 1 [] false)

/-- A hole met by an engine: a DMA channel's kills its context; a page move is abandoned; another unit's access ends with the failure; a telemetry record
is dropped and logged (R27). -/
def State.engFail (s : State) (m : Master) (tag g : Nat) (wr : Bool) : State :=
  match m.cls with
  | .tile => match tget (s.tile m.idx).dmaDead tag with
    | some d => (s.hole m (b2n wr) g).deadAck m.idx tag d
    | none => (s.hole m (b2n wr) g).kill m.idx 6 3 tag (BitVec.ofNat 64 g)
  | .hoist => let s := s.hole m (b2n wr) g; if 16 ≤ tag then s.moveFailed (tag - 16) m.idx else s
  | _ => match tget s.accs tag with
    | some x => { s with accs := tput s.accs tag { x with left := x.left - 1, err := 2 } }
    | none => let s := s.hole m (b2n wr) g; if m.cls = .steward then s.log' 1 3 4 [] else s

/-- The trap of a service core that an access fault raises (Table 1-6, R363): its cause and address, in machine mode; the vector is that of
the core's own configuration (log entry 28). -/
def SCore.trap (x : SCore) (cause : Nat) (tval : W64) : SCore := { x with cause := some cause, epc := x.pc, tval := tval, mode := 3, wait := none }

/-- A service core's typed state, and its change. -/
def State.core (s : State) (c : Nat) : SCore := tgetD s.svc.cores c {}
def State.modCore (s : State) (c : Nat) (f : SCore → SCore) : State :=
  { s with svc := { s.svc with cores := tset s.svc.cores c {} (f (s.core c)) } }

/-- A store of a core acknowledged; with none left the FSIGs that waited leave it, in order (R364, Table 16-1). -/
def State.coreStored (s : State) (c : Nat) : State :=
  let x := s.core c
  if x.stores ≤ 1 then
    x.sigq.foldl (fun (s : State) (e : Nat × W64) => s.syncAdd e.1 e.2 false) (s.modCore c fun x => { x with stores := 0, sigq := [] })
  else s.modCore c fun x => { x with stores := x.stores - 1 }

/-- A register of a service core written; x0 stays 0. -/
def SCore.setX (x : SCore) (rd : Nat) (v : W64) : SCore := if rd = 0 then x else { x with x := tset x.x rd 0 v }

/-- A piece of a page arrived for a gather: desc and sett in `k16`. -/
def State.gatherGot (s : State) (n k k16 : Nat) (r : Rep) : State :=
  match tget s.lanes (8 * n + k) with
  | some l =>
    match l.cur with
    | some g =>
      if !g.want.contains k16 then s
      else if r.err ≠ 0 then (s.poisonPage (k16 / 16)).hoistKill n k 7 (BitVec.ofNat 64 (k16 / 16))
      else s.setGather n k (some { g with want := sDel g.want k16, got := tput g.got k16 r.bs, gotBad := if r.poison then sIns g.gotBad k16 else g.gotBad })
    | none => s
  | none => s

/-- A sett arrived for a move, and a write of one acknowledged. -/
def State.moveGot (s : State) (i k : Nat) (r : Rep) : State :=
  match tget s.store.moves i with
  | some v =>
    if !v.want.contains k then s
    else if r.err ≠ 0 ∨ r.poison then s.abandon i v.hoist true
    else s.setMove i { v with want := sDel v.want k, got := tput v.got k r.bs }
  | none => s
def State.moveAcked (s : State) (i : Nat) (r : Rep) : State :=
  match tget s.store.moves i with
  | some v => if r.err ≠ 0 then s.moveFailed i v.hoist else s.setMove i { v with unacked := v.unacked - 1 }
  | none => s

/-- Requests for a mailbox's setts given back that are still outstanding. -/
def State.backLeft (s : State) (m : Nat) : Bool := s.tksReq.any fun e => !e.2.ended && e.2.why == .giveBack m

/-- Outstanding requests of one purpose that no one awaits any longer. -/
def dropWhy (y : Purp) (e : Nat × TReq) : Nat × TReq := (e.1, if e.2.why = y then { e.2 with why := .noone } else e.2)

/-- The answer to a request of setts (R165, R166): the run joins the tier; a grant of fewer than asked is given back and refused. -/
def State.granted (s : State) (m n dev : Nat) (r : Rep) : State :=
  if r.err = 6 then s.axFinish m stRefused dNoSpace []
  else if r.err ≠ 0 then s.axFinish m stRefused dHole []
  else if r.val < n then
    let s := if r.val = 0 then s else
      (s.tksSend .noone (s.reqFrame dev 3 0x09 0 0 0 (BitVec.ofNat 64 r.first) (BitVec.ofNat 64 r.val) [] false)).getD s
    s.axFinish m stRefused dNoSpace []
  else ((s.addRun 3 (dev * 2 ^ 32 + r.first) n).appendRetry).axFinish m stDone 0 (p64 n)

/-- A TKS_PING's response: its round-trip time kept; the last one ends the command. -/
def State.pinged (s : State) (m i rtt : Nat) (r : Rep) : State :=
  match tget s.pings m with
  | none => s
  | some x =>
    if r.err ≠ 0 then { s with pings := tdel s.pings m }.axFinish m stRefused dHole []
    else if x.left ≤ 1 then { s with pings := tdel s.pings m }.axFinish m stDone 0 ((tput x.got i rtt).flatMap fun e : Nat × Nat => p32 e.2)
    else { s with pings := tput s.pings m ⟨x.left - 1, tput x.got i rtt⟩ }

/-- A value a load brings to a core: n bytes, sign-extended as RV64's LB, LH, LW do unless `uns` is set in bit 5 of rd. -/
def coreVal (rd n v : Nat) : W64 := if 32 ≤ rd then BitVec.ofNat 64 v else BitVec.ofInt 64 (sext (8 * n) v)

/-- A write of a MSG's delivery acknowledged, or failed (R370). -/
def msgNext (err : Nat) : List MsgW → List MsgW
  | [] => []
  | m :: r => { m with ph := if err = 0 then m.ph + 1 else 8 } :: r
def State.msgGot (s : State) (q err : Nat) : State :=
  { s with svc := { s.svc with inq := tset s.svc.inq q [] (msgNext err (tgetD s.svc.inq q [])) } }

/-- An answer taken by what the request was sent for. -/
def State.reply (s : State) (why : Purp) (id : W32) (age : Nat) (r : Rep) : State :=
  match why with
  | .tile t k =>
    match tget (s.tile t).misses k with
    | none => s
    | some m =>
      if m.req ≠ some id then s
      else if r.err ≠ 0 then s.missHole t k r.g
      else if m.store then s.storeDone t k
      else if m.cached then s.fillDone t k (BitVec.ofNat 1024 (leNat r.bs)) r.poison true
      else s.loadDone t k (BitVec.ofNat 32 (leNat (r.bs.take 4))) r.poison
  | .line g n => s.gGot g n r.bs r.poison r.err
  | .eng m tag => if r.err ≠ 0 then s.engFail m tag r.g r.wr else s.engAck m tag
  | .core c rd =>
    if r.err ≠ 0 then
      let s := (s.hole ⟨.core, c⟩ r.acc r.g).modCore c fun x => x.trap (if r.wr || r.atom then 7 else 5) (BitVec.ofNat 64 r.g)
      if r.wr then s.coreStored c else s
    else if r.bs.isEmpty then s.coreStored c
    else s.modCore c fun x => x.setX (rd % 32) (coreVal rd r.bs.length (leNat r.bs))
  | .site n tag =>
    if r.err ≠ 0 then (s.hole ⟨.site, n⟩ r.acc r.g).toAgent (.site n) (gLocal r.g) poolRsp (.complete (.site n) (gLocal r.g) tag 6 [2] false)
    else if r.bs.isEmpty then s.toAgent (.site n) (gLocal r.g) poolRsp (.complete (.site n) (gLocal r.g) tag 4 [] false)
    else s.toAgent (.site n) (gLocal r.g) (poolDat r.tc) (.complete (.site n) (gLocal r.g) tag 1 r.bs r.poison)
  | .host _ =>
    if r.err ≠ 0 then (s.hole ⟨.host, 0⟩ r.acc r.g).ur
    else if r.bs.isEmpty then s else s.emit (.cplIo 0 r.bs r.poison)
  | .notifier obj =>
    if r.err ≠ 0 then
      ((s.hole ⟨.syncHome, syncHalf obj⟩ 1 r.g).bset (R.syncStatus obj) 30 true).bump (R.syncUnitNfail (syncHalf obj)) 32 1
    else s
  | .noone => s
  | .msg q => s.msgGot q r.err
  | .grant m n => s.granted m n (gDev r.g) r
  | .giveBack m =>
    if r.err ≠ 0 then { s with tksReq := s.tksReq.map (dropWhy (.giveBack m)) }.axFinish m stRefused dHole []
    else if s.backLeft m then s else s.axFinish m stDone 0 []
  | .gather n k p => s.gatherGot n k p r
  | .moveRd i k => s.moveGot i k r
  | .moveWr i => s.moveAcked i r
  | .ping m i => s.pinged m i age r
  | .egress x => s.egressDone (x / 2 ^ 32) (x % 2 ^ 32) r.err
  | .ingress p f =>
    if r.err ≠ 0 then (s.hole ⟨.tukosen, p⟩ (if f.op = 0x02 then 0 else if f.op = 0x03 then 2 else 1) r.g).tksRespond f 2 f.addr.toNat 0 [] false
    else if f.op = 0x03 ∨ f.op = 0x04 then s.tksRespond f 0 f.addr.toNat (BitVec.ofNat 64 (leNat r.bs)) [] r.poison
    else s.tksRespond f 0 f.addr.toNat 0 r.bs r.poison

/-- Whether a request kind writes without returning data. -/
def ReqK.writes : ReqK → Bool
  | .wrFull => true
  | .wrPart => true
  | _ => false

/-- An answer of the host or of a chiplet home to request `id` (R256, R336); what it read or wrote is what that memory holds (log entry
17). -/
def State.extEnd (s : State) (id : Nat) (bs : List Byte) (poison : Bool) (err : Nat) : State :=
  match tget s.ext id with
  | none => s
  | some x =>
    let s := { s with ext := tdel s.ext id }
    let s := if err ≠ 0 then s else match x.k with
      | .atomic => s
      | k => { s with mem := mwrite s.mem x.addr (if k.writes then x.data else bs.take x.n) }
    s.reply x.why (BitVec.ofNat 32 id) 0 { g := s.gOwn x.addr, wr := x.k.writes, atom := x.k == .atomic, bs := if x.k.writes then [] else bs.take x.n, poison := poison, err := err, tc := x.tc }

/-! ### Accesses that end -/

/-- Whether an access writes, and the bytes it writes. -/
def accWrites : AccessOp → Bool
  | .write _ => true
  | _ => false
def accBytes : AccessOp → List Byte
  | .write bs => bs
  | _ => []
/-- The code of an access in hub.map.hole_info. -/
def accCode : AccessOp → Nat
  | .read => 0
  | .write _ => 1
  | .atomic _ _ _ => 2

/-- The answer to an access, as the unit that made it takes it. -/
def accRep (g tc : Nat) (op : AccessOp) (bs : List Byte) (poison : Bool) (err : Nat) : Rep :=
  { g := g, wr := accWrites op, atom := accCode op == 2, bs := if accWrites op then [] else bs, poison := poison, err := err, tc := tc }

/-- Access k ended with an answer. -/
def State.accDone (s : State) (k : Nat) (x : AccW) (bs : List Byte) (poison : Bool) (err : Nat) : State :=
  { s with accs := tdel s.accs k }.reply x.why 0 0 (accRep x.g x.tc x.op bs poison err)

/-- Accesses whose last piece has failed ended, as what they were made for takes it (R296). -/
def State.accEnds (s : State) : State :=
  (s.accs.filter fun e : Nat × AccW => e.2.sent && e.2.left == 0 && accCode e.2.op != 2).foldl (fun (s : State) (e : Nat × AccW) => s.accDone e.1 e.2 [] false e.2.err) s

/-- The first failed request recorded (R316, R28), raising vector 1. -/
def State.tksErr (s : State) (f : Frame) (st : Nat) : State :=
  if s.bget R.tksErrStatus 31 then s.bset R.tksErrStatus 30 true
  else ((s.record R.tksErrStatus (0x80000000 + st % 16 * 2 ^ 26 + f.op % 64 * 2 ^ 20 + f.dst % 2 ^ 18)).set R.tksErrAddr f.addr).msix 1

/-- A request of this device ended with a status (R320, R316): it is kept until 100 ms after its first send (R321). -/
def State.tksEnd (s : State) (id st : Nat) (r : Frame) : State :=
  match tget s.tksReq id with
  | none => s
  | some q =>
    if q.ended then s
    else
      let s := { s with tksReq := tput s.tksReq id { q with ended := true } }
      let s := if st = 0 then s else s.tksErr q.f st
      let s := if st = 7 then s.bump R.tksE2eFailed 32 1 else s
      let rd := q.f.op == 0x02 || q.f.op == 0x0A
      s.reply q.why (BitVec.ofNat 32 id) (s.since q.at0)
        { g := q.f.dst * 2 ^ 46 + q.f.addr.toNat % 2 ^ 46, wr := !rd && q.f.op != 0x03 && !(q.f.op == 0x04 && q.f.aop != 0)
          atom := q.f.op == 0x03 || (q.f.op == 0x04 && (q.f.aop == 2 || q.f.aop == 3))
          bs := if rd then r.payload else if q.f.op = 0x03 ∨ q.f.op = 0x04 && q.f.aop ≠ 0 then leBytes (if q.f.op = 0x03 then q.f.payload.length else 8) r.aux.toNat else []
          poison := r.poison, err := st, first := r.addr.toNat % 2 ^ 32, val := r.aux.toNat, tc := q.f.tc }

end Sys2Proof.Machine
end

