-- ==== Sys2Proof/Machine/Wire.lean ====
section
/-! DEFINITION. The bytes of a Tukosen frame (R307, R308, Tables 13-3 and 13-4): how a port forms them and reads them. -/

namespace Sys2Proof.Machine

/-- The 128 bits of a link header (Table 13-3): ver 1; kind 0 sequenced, 1 NAK, 2 ack and credit, 3 HELLO. -/
def linkHead (kind lane lseq lack part : Nat) (c0 c1 : Nat × Nat) : Nat :=
  2 ^ 124 + kind * 2 ^ 120 + lane * 2 ^ 119 + lseq * 2 ^ 103 + lack * 2 ^ 87 + part * 2 ^ 71 + c0.1 * 2 ^ 67 + c0.2 * 2 ^ 55 + c1.1 * 2 ^ 51 + c1.2 * 2 ^ 39

/-- The 256 bits of a transport header (Table 13-4). -/
def transHead (f : Frame) : Nat :=
  f.op * 2 ^ 250 + f.tc * 2 ^ 248 + f.dst * 2 ^ 230 + f.src * 2 ^ 212 + f.hops * 2 ^ 206 + b2n f.resp * 2 ^ 205 + b2n f.poison * 2 ^ 204
    + f.status * 2 ^ 200 + f.reqid.toNat * 2 ^ 168 + f.aop * 2 ^ 164 + f.fmt * 2 ^ 160 + f.len * 2 ^ 144 + f.floor * 2 ^ 128 + f.addr.toNat * 2 ^ 64 + f.aux.toNat

/-- One bit of the FCS, and the FCS, of IEEE 802.3. -/
def fcsBit (c : Nat) : Nat := if c % 2 = 1 then (c / 2) ^^^ 0xEDB88320 else c / 2
def fcsByte (c : Nat) (b : Byte) : Nat := (List.range 8).foldl (fun c _ => fcsBit c) (c ^^^ b.toNat)
def fcs (bs : List Byte) : Nat := (bs.foldl fcsByte 0xFFFFFFFF) ^^^ 0xFFFFFFFF

/-- A frame on the wire (R304, R305, R307): destination and source address, EtherType 0x88B5, padding to 64 B, FCS. -/
def ethBytes (da sa : Nat) (body : List Byte) : List Byte :=
  let bs := beBytes 6 da ++ beBytes 6 sa ++ beBytes 2 0x88B5 ++ body
  let bs := bs ++ List.replicate (60 - bs.length) 0
  bs ++ leBytes 4 (fcs bs)

/-- What a sequenced frame carries after its Ethernet header. -/
def frameBody (f : Frame) : List Byte := beBytes 16 (linkHead 0 f.lane f.lseq f.lack f.part f.cr0 f.cr1) ++ beBytes 32 (transHead f) ++ f.payload

/-- What a link frame carries: a HELLO (kind 3) the device ID and the port's number, a NAK or an acknowledgement nothing. -/
def linkBody (kind lack part : Nat) (c0 c1 : Nat × Nat) (dev port : Nat) : List Byte :=
  beBytes 16 (linkHead kind 0 0 lack part c0 c1) ++ (if kind = 3 then beBytes 4 dev ++ beBytes 4 port ++ List.replicate 8 0 else [])

/-- The bytes a port sends for a frame or a link frame, toward the partner's address `da` (R305, R307). -/
def State.wireBytes (s : State) (da : Nat) : Out → Option (List Byte)
  | .frame p f => some (ethBytes da (s.get (R.tksMac p)).toNat (frameBody f))
  | .linkFrame p kind a c0 c1 =>
    some (if kind = 3 then ethBytes (2 ^ 48 - 1) (s.get (R.tksMac p)).toNat (linkBody 3 0 c0.1 (0, 0) (0, 0) a p)
      else ethBytes da (s.get (R.tksMac p)).toNat (linkBody kind a (s.fget R.tksDevPart 15 0) c0 c1 0 0))
  | _ => none

/-- The sequenced frame that link header, transport header and payload hold; none where a field is reserved, a reserved bit is set or the length is not that of
the payload (R308). -/
def readFrame (bs : List Byte) : Option Frame :=
  let l := beNat (bs.take 16)
  let t := beNat ((bs.drop 16).take 32)
  let n := nbits t 159 144
  if bs.length < 48 + n ∨ nbits l 127 124 ≠ 1 ∨ nbits l 123 120 ≠ 0 ∨ nbits l 38 0 ≠ 0 ∨ nbits t 127 110 ≠ 0 ∨ 4096 < n then none
  else some {
    lane := nbits l 119 119, lseq := nbits l 118 103, lack := nbits l 102 87, part := nbits l 86 71
    cr0 := (nbits l 70 67, nbits l 66 55), cr1 := (nbits l 54 51, nbits l 50 39)
    op := nbits t 255 250, tc := nbits t 249 248, dst := nbits t 247 230, src := nbits t 229 212, hops := nbits t 211 206
    resp := nbit t 205, poison := nbit t 204, status := nbits t 203 200, reqid := BitVec.ofNat 32 (nbits t 199 168)
    aop := nbits t 167 164, fmt := nbits t 163 160, len := n, floor := nbits t 143 128
    addr := BitVec.ofNat 64 (nbits t 127 64), aux := BitVec.ofNat 64 (nbits t 63 0), payload := (bs.drop 48).take n }

end Sys2Proof.Machine
end

