-- ==== Sys2Proof/Machine/Port.lean ====
section
/-! DEFINITION. The Tukosen ports (chapter 13): link-up, acceptance, acknowledgement, credits, retrain and reset, the source's resends, and
the commands on ports. -/

namespace Sys2Proof.Machine

/-- The default grant of a pool (R318). -/
def poolGrant (q : Nat) : Nat := [128, 512, 1280, 128].getD (q % 4) 0
/-- The grants a port gives at its next link-up. -/
def PortSt.granting (x : PortSt) : List Nat := x.grants.getD ((List.range 16).map poolGrant)

/-- A port that starts its link-up (Table 13-2), unless it is held down or its pair has no power: its PHY PLL locks, which hub.clk.status shows. -/
def State.portStart (s : State) (p : Nat) : State :=
  if (s.port p).hold then (s.setPst p psHeld).bset R.hubClkStatus (8 + p) false
  else if !s.domUp (84 + p / 2) then (s.setPst p psDown).bset R.hubClkStatus (8 + p) false
  else (s.setPst p psTraining).bset R.hubClkStatus (8 + p) true

/-- The frames that a port has received and that still lie in its buffer discarded: those that wait to be forwarded, and those that wait to be performed. -/
def State.dropReceived (s : State) (p : Nat) : State :=
  let other (e : TxE) : Bool := match e.back with | some b => b.1 != p | none => true
  (List.range 8).foldl (fun (s : State) (q : Nat) => s.modPort q fun x => { x with queue := x.queue.filter other })
    { s with ingQ := s.ingQ.filter fun e => e.1 != p }

/-- A port reset (R319): the replay buffer, received frames and credits discarded, and link-up begun again from the PHY on; frames not yet sent keep their
port (Table 13-8). -/
def State.portReset (s : State) (p : Nat) : State :=
  let s := s.dropReceived p
  let x := s.port p
  (((s.setPort p { hold := x.hold, grants := x.grants, queue := x.queue }).set (R.tksStatus p) 0).resetRegs (fun a => (List.range 16).any fun q => a == (R.tksGrant p q).addr) .region).portStart p

/-- Step 5: the port's own grants sent as credits, pool by pool. -/
def State.grantSend (s : State) (p : Nat) : State :=
  let gs := (s.port p).granting
  let s := gs.zipIdx.foldl (fun (s : State) (g : Nat × Nat) => s.emit (.linkFrame p 2 (s.port p).rxSeq (g.2, g.1) (0, 0))) s
  gs.zipIdx.foldl (fun (s : State) (g : Nat × Nat) => s.fset (R.tksGrant p g.2) 11 0 g.1) s

/-- HELLO accepted: an equal tag goes on to the grants, another isolates the port (R313); a device without ID or tag says no more (R309). -/
def State.hello (s : State) (p dev part nbr : Nat) : State :=
  if s.pst p = psDown ∨ s.pst p = psHeld ∨ s.pst p = psRetrain then s
  else
    let s := if s.pst p = psTraining then s.portLocked p else s
    let s := (s.fset (R.tksStatus p) 20 18 nbr).fset (R.tksStatus p) 17 0 dev
    if part ≠ s.fget R.tksDevPart 15 0 then s.setPst p psIsolated
    else if !s.tksOn then s.setPst p psHello
    else if s.pst p = psIsolated then ((s.modPort p fun x => { x with greeted := true, cells := [], cap := [] }).setPst p psHello).grantSend p
    else if (s.port p).greeted then s
    else (s.modPort p fun x => { x with greeted := true }).grantSend p
def execHello (port dev part nbrPort : Nat) (s : State) : Outc := run (port < 8) (s.hello port dev part nbrPort)

/-! ### Acknowledgements and credits (R317, R318) -/

/-- Frames that an acknowledgement covers leave the replay buffer. -/
def PortSt.acked (x : PortSt) (lack : Nat) : PortSt :=
  match x.replay.findIdx? (fun f => f.lseq == lack) with
  | some i => { x with replay := x.replay.drop (i + 1), nakRun := 0 }
  | none => x

/-- Cells returned by the partner. Before the port is up they are its initial grant; once every pool has one the port is up (steps 5 and 6).
Afterwards they may not exceed the grant: a breach, and the port resets (Tables 12-3 and 12-4), as for an uncorrectable error met in the count (R301). -/
def State.portCredit (s : State) (p : Nat) (c : Nat × Nat) : State :=
  if c.2 = 0 then s
  else if s.pst p = psHello then
    let s := s.modPort p fun x => { x with cells := tput x.cells c.1 (tgetD x.cells c.1 0 + c.2), cap := tput x.cap c.1 (tgetD x.cap c.1 0 + c.2) }
    if (s.port p).greeted && (List.range 16).all (fun q => (tget (s.port p).cap q).isSome) then (s.setPst p psUp).pump p else s
  else
    if s.countUe 3 p then (s.countMet 3 p).portReset p else
    let n := tgetD (s.port p).cells c.1 0 + c.2
    let g := tgetD (s.port p).cap c.1 0
    if g < n then (s.breach 3 p ((g : Int) - n) false).portReset p
    else s.modPort p fun x => { x with cells := tput x.cells c.1 n }

/-- An acknowledgement with its credits taken, and what they let go sent. -/
def State.portAck (s : State) (p lack : Nat) (c0 c1 : Nat × Nat) : State :=
  (((s.modPort p fun x => x.acked lack).portCredit p c0).portCredit p c1).pump p

/-- An ack and credit-only frame sent: at once where there is something to say. -/
def State.sendAck (s : State) (p : Nat) : State :=
  let x := s.port p
  let (c0, c1, o) := takeOwe x.owe
  if x.toAck = 0 ∧ c0.2 = 0 then s
  else (s.setPort p { x with owe := o, toAck := 0 }).emit (.linkFrame p 2 x.rxSeq c0 c1)

/-- One NAK for a frame discarded, none again until a frame is accepted. -/
def State.sendNak (s : State) (p : Nat) : State :=
  if (s.port p).nakSent then s
  else (s.modPort p fun x => { x with nakSent := true }).emit (.linkFrame p 1 (s.port p).rxSeq (0, 0) (0, 0))

/-- Whether a port takes sequenced frames: up, or retraining with its state kept. -/
def State.portLive (s : State) (p : Nat) : Bool := s.pst p == psUp || s.pst p == psRetrain

/-- A sequenced frame at a port (R313, R317): taken if its tag and its lseq are right, with the acknowledgement and credits it carries. -/
def State.tksTake (s : State) (p : Nat) (f : Frame) : Option State :=
  if !s.portLive p || !s.tksOn then none
  else if f.part ≠ s.fget R.tksDevPart 15 0 ∨ f.lseq ≠ ((s.port p).rxSeq + 1) % 65536 then none
  else
    let s := (s.modPort p fun x => { x with rxSeq := f.lseq, nakSent := false, toAck := x.toAck + 1 }).bump (R.tksRx p) 64 1
    let s := s.portAck p f.lack f.cr0 f.cr1
    some (if 32 ≤ (s.port p).toAck then s.sendAck p else s)

/-- What becomes of a frame not taken: a foreign one is counted, at an isolated port too, and answered by nothing (R313); another makes one NAK (R317). -/
def State.tksDrop (s : State) (p : Nat) (f : Frame) : State :=
  if s.pst p = psDown ∨ s.pst p = psHeld then s
  else if f.part ≠ s.fget R.tksDevPart 15 0 then s.bump (R.tksDropForeign p) 32 1
  else if !s.portLive p || !s.tksOn then s
  else s.sendNak p

/-- The cells a frame takes while it lies in the device. -/
def cellsOf (p : Nat) (f : Frame) : Nat × Nat × Nat := (p, framePool f, frameCells f)

/-- A malformed frame at a port (R308): accepted by the link where its lseq is right, then counted and discarded; its buffer is free again. -/
def State.badForm (s : State) (p : Nat) (f : Frame) : State :=
  match s.tksTake p f with
  | none => s.tksDrop p f
  | some s => (s.bump (R.tksMalformed p) 32 1).oweCells (some (cellsOf p f))

/-- TKS_DISCARDED_FRAME (R305, R308, R313, R317): counted by its kind. -/
def State.badFrame (s : State) (p : Nat) (b : BadFrame) : State :=
  if s.pst p = psDown ∨ s.pst p = psHeld then s
  else match b with
    | .fcs _ => s.bump (R.tksFcs p) 32 1
    | .foreignAddr => s.bump (R.tksDropDa p) 32 1
    | .foreignPart => s.bump (R.tksDropForeign p) 32 1
    | .wrongSeq q => if s.tksOn ∧ s.portLive p ∧ q ≠ ((s.port p).rxSeq + 1) % 65536 then s.sendNak p else s
    | .malformed f => s.badForm p f
def execTksDiscardedFrame (port : Nat) (f : BadFrame) (s : State) : Outc := run (port < 8) (s.badFrame port f)

/-- NAK: frames after the last accepted are sent again. -/
def State.nakIn (s : State) (p lack : Nat) : State :=
  if !s.portLive p || !s.tksOn then s
  else
    let s := s.modPort p fun x => x.acked lack
    let x := s.port p
    let q := (lack + 1) % 65536
    let s := s.setPort p { x with nakSeq := q, nakRun := if x.nakSeq = q then x.nakRun + 1 else 1 }
    (x.replay.foldl (fun s f => s.emit (.frame p { f with lack := x.rxSeq })) s).bump (R.tksReplay p) 32 x.replay.length
def execNak (port lack : Nat) (s : State) : Outc := run (port < 8) (s.nakIn port lack)

/-- TKS_ACK_CREDIT_FRAME. -/
def execTksAckCreditFrame (port lack : Nat) (cr0 cr1 : Nat × Nat) (s : State) : Outc :=
  run (port < 8) (if s.tksOn && (s.portLive port || s.pst port == psHello) then s.portAck port lack cr0 cr1 else s)

/-- TKS_ACK_TIMER: accepted frames acknowledged, and cells returned. -/
def execTksAckTimer (port : Nat) (s : State) : Outc := run (port < 8) (if s.tksOn && s.portLive port then s.sendAck port else s)

/-! ### Retrain (R319) -/

/-- TKS_PORT_RETRAIN: 8 NAKs for one frame, or frames unacknowledged. -/
def execTksPortRetrain (port : Nat) (s : State) : Outc :=
  run (port < 8) (if s.pst port = psUp ∧ (8 ≤ (s.port port).nakRun ∨ (s.port port).replay ≠ []) then
    ((s.modPort port fun x => { x with nakRun := 0 }).setPst port psRetrain).bump (R.tksRetrain port) 32 1 |>.bset (R.tksStatus port) 27 false
  else s)
/-- Lanes locked again: a port that has to greet its partner anew, or whose device sends only HELLO (R309), says HELLO; another is up and replays what is
unacknowledged. -/
def State.retrained (s : State) (p : Nat) : State :=
  if !(s.port p).greeted || !s.tksOn then s.portLocked p
  else
    let s := (s.setPst p psUp).bset (R.tksStatus p) 27 true
    ((s.port p).replay.foldl (fun s f => s.emit (.frame p f)) s).pump p
/-- TKS_RETRAIN_COMPLETE; a port in training has locked its lanes. -/
def execTksRetrainComplete (port : Nat) (s : State) : Outc :=
  run (port < 8) (if s.pst port = psRetrain then s.retrained port else if s.pst port = psTraining then s.portLocked port else s)
/-- TKS_RETRAIN_TIMEOUT (R306, R319): a port that is not up again in time resets; one whose partner does not answer in steps 2 to 5 ends down. -/
def execTksRetrainTimeout (port : Nat) (s : State) : Outc :=
  run (port < 8) (if s.pst port = psRetrain then s.portReset port else if s.pst port = psTraining ∨ s.pst port = psHello then s.setPst port psDown else s)

/-! ### Forwarding (R311) -/

/-- Whether the length and address of a PUT, GET or RED are allowed (R308). -/
def spanOk (a n : Nat) : Bool :=
  ((n == 4 && a % 4 == 0) || (n == 8 && a % 8 == 0) || (n != 0 && n % 16 == 0 && a % 16 == 0 && decide (n ≤ 4096))) && decide (a % 4096 + n ≤ 4096)

/-- Whether a response is well formed (R308, Tables 13-4 to 13-6): its operation and its status exist, and it carries the data of a performed GET or
SETT_READ alone. -/
def respOk (f : Frame) : Bool :=
  let ops : List Nat := [0x01, 0x02, 0x03, 0x04, 0x05, 0x08, 0x09, 0x0A, 0x0B, 0x10, 0x3E]
  let a := f.addr.toNat
  decide (f.tc < 4) && ops.contains f.op && [0, 2, 3, 4, 5, 6].contains f.status && f.payload.length == f.len && decide (a < 2 ^ 46)
    && (if f.status = 0 ∧ f.op = 0x02 then spanOk a f.len else if f.status = 0 ∧ f.op = 0x0A then f.len == 4096 else f.len == 0)

/-- A frame for another device: forwarded in its class, or discarded; a request discarded is answered 0x5 or 0x4. -/
def State.tksForward (s : State) (p : Nat) (f : Frame) : State :=
  let back := some (cellsOf p f)
  let no (st : Nat) : State := (if f.resp then s else s.tksSendResp f st f.addr.toNat 0 [] false).oweCells back
  if s.bget R.secTenStatus 31 then s.oweCells back
  else if f.hops = 0 then no 5
  else match s.route f.dst with
    | some r => s.sendVia r { f with hops := f.hops - 1 } back
    | none => no 4

/-- TKS_TRANSIT_DISCARD: the oldest frame in transit that waits at a port. -/
def State.transitDrop (s : State) (p : Nat) : State :=
  match (s.port p).queue.findIdx? (fun e => e.back.isSome) with
  | none => s
  | some i =>
    let b := match (s.port p).queue[i]? with | some e => e.back | none => none
    ((s.modPort p fun x => { x with queue := x.queue.eraseIdx i }).oweCells b).bump (R.tksDropHeld p) 32 1
def execTksTransitDiscard (port : Nat) (s : State) : Outc := run (port < 8) (s.transitDrop port)

/-! ### Requests of this device (R315, R320, R321) -/

/-- A request sent again on the route of the moment. -/
def State.tksAgain (s : State) (id : Nat) (count : Bool) : State :=
  match tget s.tksReq id with
  | none => s
  | some q =>
    if q.ended then s
    else match s.route q.f.dst with
      | none => s
      | some r =>
        let s := if count then s.bump R.tksE2eResend 32 1 else s
        s.sendVia r { q.f with floor := s.tksFloor q.f.dst % 65536 } none
/-- TKS_REQUEST_RESEND. -/
def execTksRequestResend (reqid : W32) (s : State) : Outc := .next (s.tksAgain reqid.toNat true)
/-- TKS_REQUEST_FAIL. -/
def execTksRequestFail (reqid : W32) (s : State) : Outc :=
  .next (match tget s.tksReq reqid.toNat with | some q => s.tksEnd reqid.toNat 7 q.f | none => s)
/-- TKS_BUSY_RETRY. -/
def execTksBusyRetry (reqid : W32) (s : State) : Outc := .next (s.tksAgain reqid.toNat false)
/-- TKS_MEMO_EXPIRY. -/
def execTksMemoExpiry (src : Nat) (reqid : W32) (s : State) : Outc :=
  .next (State.memoCount { s with memo := s.memo.filter fun e : MemoE => !(e.src == src && e.reqid == reqid) })

/-! ### Commands (Table 13-9) -/

/-- TKS_PORT_STATUS. -/
def execTksPortStatus (q : Req) (port : Nat) (s : State) : Outc :=
  run (mbxOk q) (axotte s q 0x0601 fun s =>
    if 8 ≤ port then invalid s
    else .done s 0 (p32 (s.get (R.tksStatus port)).toNat ++ p64 (s.get (R.tksTx port)).toNat ++ p64 (s.get (R.tksRx port)).toNat
      ++ p32 (s.get (R.tksReplay port)).toNat ++ p32 (s.get (R.tksRetrain port)).toNat ++ p64 (s.get (R.tksFecCorr port)).toNat
      ++ ([R.tksFecUncorr port, R.tksFcs port, R.tksDropDa port, R.tksDropForeign port, R.tksDropHeld port, R.tksMalformed port].flatMap
        fun r => p32 (s.get r).toNat)))
/-- TKS_PORT_STATUS expert: the training record and FEC histogram, which the manual does not lay out, are free values (log entry 15). -/
def execTksPortStatusExpert (q : Req) (port lane : Nat) (s : State) : Outc :=
  run (mbxOk q) (axotte s q 0x8601 fun s =>
    if 8 ≤ port ∨ 8 ≤ lane then invalid s else .done { s with freeCtr := s.freeCtr + 128 } 0 (s.freeBytes 128))

/-- TKS_PORT_RESET (R319). -/
def execTksPortReset (q : Req) (port : Nat) (s : State) : Outc :=
  run (mbxOk q) (axotte s q 0x0602 fun s =>
    if 8 ≤ port then invalid s else .done ((s.modPort port fun x => { x with hold := false }).portReset port) 0 [])
/-- TKS_PORT_RESET expert. -/
def execTksPortResetExpert (q : Req) (port : Nat) (hold : Bool) (s : State) : Outc :=
  run (mbxOk q) (axotte s q 0x8602 fun s =>
    if 8 ≤ port then invalid s else .done ((s.modPort port fun x => { x with hold := hold }).portReset port) 0 [])

/-- TKS_ROUTE_PROBE (R310): port, 1 for the primary, 1 for reachable. -/
def execTksRouteProbe (q : Req) (dev : Nat) (s : State) : Outc :=
  run (mbxOk q) (axotte s q 0x0603 fun s =>
    if 2 ^ 18 ≤ dev then invalid s
    else .done s 0 (match s.route dev with
      | some r => [BitVec.ofNat 8 r.1, if r.2.2 then 1 else 0, 1, 0]
      | none => [0, 0, 0, 0]))

/-- TKS_PING: its requests sent together; it stalls while the device's requests have no room for them (R320, R321). -/
def State.pingGo (s : State) (m dev tc n : Nat) : AxR :=
  if !s.tksOn || (s.route dev).isNone then refuse (s.hole ⟨.steward, 0⟩ 0 (dev * 2 ^ 46)) dHole
  else if 16384 < s.tksOut + n ∨ 32768 < s.tksTrim.reqAge (s.tksTrim.tksFloor dev) + n then .hold s
  else .wait ((List.range n).foldl (fun s i => (s.tksSend (.ping m i) (s.reqFrame dev tc 0x3E 0 0 0 0 0 [] false)).getD s)
    { s with pings := tput s.pings m (PingW.mk n []) })
def execTksPing (q : Req) (dev tc count : Nat) (s : State) : Outc :=
  run (mbxOk q) (axotte s q 0x0604 fun s =>
    if 2 ^ 18 ≤ dev ∨ dev = s.ownDev ∨ 4 ≤ tc ∨ count = 0 ∨ 256 < count then invalid s else s.pingGo q.mbx dev tc count)

/-- TKS_CREDIT_SET (R318): grants for the next link-up, which a port reset starts. -/
def execTksCreditSet (q : Req) (port : Nat) (s : State) : Outc :=
  run (mbxOk q) (axotte s q 0x0605 fun s =>
    if 8 ≤ port then invalid s else .done ((s.modPort port fun x => { x with grants := none }).portReset port) 0 [])
/-- TKS_CREDIT_SET expert. -/
def execTksCreditSetExpert (q : Req) (port : Nat) (grants : List Nat) (s : State) : Outc :=
  run (mbxOk q) (axotte s q 0x8605 fun s =>
    if 8 ≤ port ∨ grants.length ≠ 16 ∨ 8192 < grants.foldl (· + ·) 0 ∨ grants.any (· < 17) then invalid s
    else .done ((s.modPort port fun x => { x with grants := some grants }).portReset port) 0 [])

end Sys2Proof.Machine
end

