-- ==== Sys2Proof/Machine/Attest.lean ====
section
/-! DEFINITION. Answers to GET_MEASUREMENTS (R485 to R487), and the end of a tenancy handover (Table 22-1, steps 4 and 5). -/

namespace Sys2Proof.Machine

/-! ### Measurements (R485 to R487) -/

/-- Flags of block 0xF0 (R487): firmware pending, library loading, handover, regions in reset. -/
def State.transFlags (s : State) : Nat :=
  b2n (s.bget R.secFwStatus 31 || s.reads [0x0708, 0x8708]) + 2 * b2n (s.reads [0x070A, 0x870A]) + 4 * b2n (s.sec.hand.isSome || s.bget R.secTenStatus 30) + 8 * b2n (!s.rst.region.isEmpty || !s.rst.held.isEmpty)

/-- Whether a GET_MEASUREMENTS is held (R487): an event of the flags is in progress, or a hub reset before step 10. -/
def State.transitional (s : State) : Bool := s.transFlags != 0 || s.rst.hub || (s.fget R.stwBootStatus 31 29 != 3 && s.fget R.stwBootStatus 31 29 != 5)

/-- Value types of Table 22-8. -/
def measType (i : Nat) : Nat := [0, 0x00, 0x01, 0x83, 0x85, 0x82, 0x82, 0x82, 0x03, 0x04, 0x01, 0x84, 0x83, 0x83, 0x82].getD i 0x83

/-- A block in DMTF format (R485). -/
def measDmtf (i : Nat) (bs : List Byte) : List Byte :=
  leBytes 1 i ++ leBytes 1 1 ++ p16 (bs.length + 3) ++ leBytes 1 (measType i) ++ p16 bs.length ++ bs

/-- Block 0xF0 (Table 22-8). -/
def State.transBlock (s : State) : List Byte :=
  leBytes 1 s.transFlags ++ leBytes 64 (match s.sec.pendDigest with | some d => d.toNat | none => 0)
    ++ leBytes 12 (((s.rst.region.map fun e : Nat × (Option Nat × Bool) => e.1) ++ s.rst.held).foldl (fun n d => if n.testBit d then n else n + 2 ^ d) 0)

/-- An SPDM message sent; one above the message size of R358 is kept, to be fetched in chunks, and ERROR LargeResponse names it (PRESUMED from DSP0274,
log entry 34). -/
def State.spdm (s : State) (port code : Nat) (payload : List Byte) : State :=
  if payload.length ≤ 4096 then s.emit (.spdm port code payload)
  else
    let c := tgetD s.sec.conns port {}
    { s with sec := { s.sec with conns := tput s.sec.conns port { c with big := BitVec.ofNat 8 0x13 :: BitVec.ofNat 8 code :: 0 :: 0 :: payload } } }.emit
      (.spdm port 0x7F [0x0F, 0, 0])

/-- The response to a request, from the committed set (R486), with block 0xF0 where an event has outlasted the hold. -/
def State.measAnswer (s : State) (h : Held) (trans : Bool) : State :=
  let bs := s.sec.meas ++ (if trans then [(0xF0, s.transBlock)] else [])
  let pick := if h.index = 0xFF then bs else bs.filter fun b : Nat × List Byte => b.1 == h.index
  if h.index ≠ 0 ∧ pick.isEmpty then s.spdm h.port 0x7F [1, 0]
  else
    let rec' := if h.index = 0 then [] else pick.flatMap fun b : Nat × List Byte => measDmtf b.1 b.2
    let body := leBytes 1 (if h.index = 0 then bs.length else pick.length) ++ leBytes 3 rec'.length ++ rec'
    s.spdm h.port 0x60 (body ++ (if h.signed then Config.spdmSign h.slot body else []))

/-- Held requests answered once no event holds them (R487). -/
def State.heldFlush (s : State) : State :=
  if s.transitional then s
  else s.sec.held.foldl (fun s h => s.measAnswer h false) { s with sec := { s.sec with held := [] } }

/-- A new set committed at an event's completion, and the requests it lets go answered. -/
def State.measDone (s : State) : State := s.measCommit.heldFlush

/-! ### The end of a handover (R467, R470, R473) -/

/-- Sites unscrubbed, as a mask. -/
def State.unscrubbed (s : State) : Nat := (List.range 8).foldl (fun n k => if s.bget (R.siteStatus k) 29 then n + 2 ^ k else n) 0

/-- Step 4: a fresh epoch numbered one above the last; setts held from peers returned; a new partition tag. -/
def State.handFour (s : State) (h : Handover) : State :=
  let s := { s with keyCtr := s.keyCtr + 1, store := { s.store with curKey := s.keyCtr, oldKey := 0 } }
  let s := (s.fset R.ctxStoreStatus 23 16 ((h.epoch + 1) % 256)).bset R.ctxStoreStatus 30 false
  let s := h.runs.foldl (fun (s : State) (r : Nat × Nat) =>
    (s.tksSend .noone (s.reqFrame (t3Dev r.1) 3 0x09 0 0 0 (BitVec.ofNat 64 (t3Sett r.1)) (BitVec.ofNat 64 r.2) [] false)).getD s) s
  match h.part with
  | some p => (s.prbMirror 1 (BitVec.ofNat 32 p)).prbJob 101 [PWrite.mk 1 (BitVec.ofNat 32 p) none false] .plain
  | none => s

/-- Step 5: the tenancy number raised, the set re-measured and committed, busy cleared, the command done. -/
def State.handFive (s : State) (h : Handover) : State :=
  let n := (s.get R.secTenCount).toNat + 1
  let s := { s with sec := { s.sec with hand := none } }
  let s := (s.set R.secTenCount (BitVec.ofNat 64 n)).set R.stwLogTenancy (BitVec.ofNat 64 n)
  let s := s.set R.secTenStatus (BitVec.ofNat 64 (s.unscrubbed * 65536))
  (s.measDone.log' 1 6 1 [n]).axFinish h.mbx stDone 0 (p32 n ++ p32 s.unscrubbed)

/-- Steps 4 and 5 once every site is up or held. -/
def State.handEnd (s : State) (h : Handover) : State := (s.handFour h).handFive h

/-- A site that a handover awaits has settled. -/
def State.handSite (s : State) (n : Nat) : State :=
  match s.sec.hand with
  | none => s
  | some h =>
    if !h.sites.contains n then s
    else
      let h := { h with sites := sDel h.sites n }
      let s := { s with sec := { s.sec with hand := some h } }
      if h.sites.isEmpty then s.handEnd h else s

end Sys2Proof.Machine
end

