-- ==== Sys2Proof/Machine/Site.lean ====
section
/-! DEFINITION. Chiplet sites (chapter 10): the UCIe link, identity, bring-up and reset, power and thermal limits, commands. -/

namespace Sys2Proof.Machine

/-! ### Site state -/

/-- A site's typed state, and its change. -/
def State.site (s : State) (n : Nat) : SiteSt := tgetD s.sites n {}
def State.modSite (s : State) (n : Nat) (f : SiteSt → SiteSt) : State := { s with sites := tset s.sites n {} (f (s.site n)) }

/-- Whether the site map populates a site (R5, R6). -/
def State.populated (s : State) (n : Nat) : Bool := s.siteType n != 0x30 && s.siteType n != 0

/-- Whether a bring-up or a reset of a site is running. -/
def SitePh.running : SitePh → Bool
  | .off => false
  | .up => false
  | .held => false
  | _ => true

/-- Fields of identity words (Table 10-6). -/
def State.idw (s : State) (n w hi lo : Nat) : Nat := s.fget (R.siteId n w) hi lo
def State.siteSerial (s : State) (n : Nat) : Nat := (s.get (R.siteId n 2)).toNat + (s.get (R.siteId n 3)).toNat * 2 ^ 32

/-- Whether every identity word lies in its range (R272, Table 10-6). -/
def State.idRanges (s : State) (n : Nat) : Bool :=
  let k := s.idw n 4 15 8
  let win := s.idw n 4 7 0
  s.idw n 0 31 24 == 1 && s.idw n 0 15 0 == 0 && [0, 1, 2, 3].all (fun i => decide (s.idw n 1 (8 * i + 7) (8 * i) < 0x80)) && decide (0x41 ≤ s.idw n 0 23 16) && decide (s.idw n 0 23 16 ≤ 0x48)
    && decide (20 ≤ win) && decide (win ≤ 40)
    && (k == 0 || (decide (20 ≤ k) && decide (k ≤ 40) && decide ((s.idw n 4 31 16 + 1) * 2 ^ k ≤ 2 ^ win)))
    && decide (4 ≤ s.idw n 6 31 24) && decide (16 ≤ s.idw n 6 23 16) && decide (8 ≤ s.idw n 6 15 8) && decide (4 ≤ s.idw n 6 7 0)
    && decide (s.idw n 7 31 24 ≤ 100) && decide (70 ≤ s.idw n 7 23 16) && decide (s.idw n 7 23 16 ≤ 110) && s.idw n 7 15 9 == 0
    && decide (8 ≤ s.idw n 7 7 0) && decide (110 ≤ s.idw n 8 31 22) && decide (s.idw n 8 31 22 ≤ 210)

/-- Credits the chiplet grants the hub for a pool (word 6, word 7), and those the hub grants (R267). -/
def State.chipGrant (s : State) (n p : Nat) : Nat :=
  if p < 4 then s.idw n 6 7 0 else if p = 4 then s.idw n 6 15 8 else if p = 5 then s.idw n 6 23 16 else if p < 10 then s.idw n 6 31 24 else s.idw n 7 7 0
def hubGrant (p : Nat) : Nat := if p = 4 then 16 else if p = 5 ∨ p = 10 then 64 else 32

/-! ### Power (R279 to R281) -/

/-- Populated sites. -/
def State.nSites (s : State) : Nat := ((List.range 8).filter s.populated).length

/-- An equal share of the cap total among the populated sites (R279, step 7 of Table 10-8). -/
def State.siteShare (s : State) : Nat := s.fget (R.pwrPool 1) 63 48 / max 1 s.nSites

/-- The most a site may be granted: 175 W, its declared maximum, the cap total, its ceiling. What of the cap total a later request may take is what is
free (R279; log entry 125). -/
def State.siteMax (s : State) (n : Nat) : Nat :=
  let m := min (min 1400 (s.idw n 8 21 11)) (s.fget (R.pwrPool 1) 63 48)
  match (s.site n).ceil with | some c => min m c | none => m

/-- The grant in force: the base, halved for heat, for a supply warning, for a token breach. -/
def State.siteEff (s : State) (n : Nat) : Nat :=
  let h (b : Bool) (x : Nat) : Nat := if b then x / 2 else x
  h (decide (1 ≤ (s.site n).hot)) (h (s.bget R.pwrSupplyStatus 31) (h s.pwr.breach (s.site n).base))

/-- A PWR_GRANT sent (R279): tokens of a higher grant are held at once, those of a lower one until its acknowledgement (R298). -/
def State.siteGrant (s : State) (n : Nat) : State :=
  let g := s.siteEff n
  let q := ((s.site n).gseq + 1) % 256
  let s := (s.modSite n fun x => { x with gseq := q, sent := x.sent ++ [(q, g)] }).fset (R.sitePwr n) 22 12 g
  let s := if s.held (76 + n) < g then s.hold (76 + n) g else s
  let s := s.fset (R.siteStatus n) 26 24 (if g < (s.site n).base then 3 else 2)
  s.emit (.sideband n sbPwrGrant (q * 2 ^ 32 + s.fget (R.sitePwr n) 63 56 * 2 ^ 22 + g))

/-- Whether a site takes grants: its rails are on and its bring-up has reached them. -/
def State.sitePowered (s : State) (n : Nat) : Bool := (s.site n).ph == .up || (s.site n).ph == .ack

/-- A grant sent again where what is in force has changed. -/
def State.siteRegrant (s : State) (n : Nat) : State :=
  if s.sitePowered n && s.fget (R.sitePwr n) 22 12 != s.siteEff n then s.siteGrant n else s
def State.sitesRegrant (s : State) : State := (List.range 8).foldl State.siteRegrant s

/-- The limits that depend on the supply and on a breach put in force: their limiters on every bench, site grants halved or restored. -/
def State.supplyUse (s : State) : State := s.dutyAll.sitesRegrant

/-! ### The sums of the token pools (R298, R300 to R302) -/

/-- Tokens the domains of a pool hold. -/
def State.domSum (s : State) (p : Nat) : Nat := ((List.range 96).filter fun d => poolOf d == p).foldl (fun n d => n + s.held d) 0

/-- The action on a breach of the token sum of a pool (Table 12-4): throttled, grants halved, the pool rebuilt from what is held, and released. -/
def State.tokenRebuild (s : State) (p : Nat) : State :=
  let s := { s with pwr := { s.pwr with breach := true } }.supplyUse
  let s := s.poolSet p (s.fget (R.pwrPool p) 63 48) (s.domSum p)
  { s with pwr := { s.pwr with breach := false } }.supplyUse

/-- The sum of a pool checked (Table 12-3), as on every grant and every acknowledgement; an uncorrectable error in the steward's token tables is met (R301). -/
def State.tokenCheck (s : State) (p : Nat) : State :=
  let all := s.fget (R.pwrPool p) 63 48 + s.fget (R.pwrPool p) 15 0
  let sum := s.domSum p + s.freeTok p
  if s.countUe 6 p then (s.countMet 6 p).tokenRebuild p
  else if sum = all then s
  else (s.breach 6 p ((all : Int) - (sum : Int)) false).tokenRebuild p

/-- The base set to a request as far as the limits and free tokens allow. -/
def State.siteBase (s : State) (n want : Nat) : State :=
  s.modSite n fun x => { x with base := min (min want (s.siteMax n)) (s.held (76 + n) + s.freeTok 1) }

/-- PWR_REQ (R279, R280): VCORE set to the value named, a grant up to the tokens free. An exact grant ignores the request until the site's
next reset. -/
def State.pwrReq (s : State) (n vcore power : Nat) : State :=
  let s := s.fset (R.sitePwr n) 33 23 power
  if !s.sitePowered n || (s.site n).exact || s.bget R.safStatus 29 then s
  else
    let s := if 110 ≤ vcore ∧ vcore ≤ 210 then s.fset (R.sitePwr n) 63 56 vcore else s
    ((s.siteBase n power).siteGrant n).tokenCheck 1
def execPwrReq (site vcore power : Nat) (s : State) : Outc := run (site < 8) (s.pwrReq site vcore power)

/-! ### Bring-up and reset (R271 to R276, Tables 10-8 and 10-9) -/

/-- Whether an address lies in the register block of a site. -/
def inSiteBlock (n a : Nat) : Bool := decide (0x3FF002000000 + 0x200000 * n ≤ a) && decide (a < 0x3FF002000000 + 0x200000 * (n + 1))

/-- A bring-up or reset that has settled: its command ends, and a handover that awaited the site goes on. -/
def State.siteSettled (s : State) (n detail : Nat) : State :=
  let s := match (s.site n).mbx with
    | some m => (s.modSite n fun x => { x with mbx := none }).axFinish m stDone detail [BitVec.ofNat 8 (b2n (s.bget (R.siteStatus n) 29)), 0, 0, 0]
    | none => s
  s.measDone.handSite n

/-- A site held in reset, logged; with its rails but VAUX off where they are to be. -/
def State.siteHold (s : State) (n detail code : Nat) (railsOff : Bool) : State :=
  let s := ((s.bset (R.siteStatus n) 30 true).bset (R.siteStatus n) 31 false).fset (R.siteStatus n) 11 0 0
  let s := if railsOff then (s.domOff (76 + n)).fset (R.siteStatus n) 26 24 1 else s
  ((s.modSite n fun x => { x with ph := .held }).log' 1 12 code [n]).siteSettled n detail

/-- Modules of a site in a state. -/
def State.modsAll (s : State) (n k : Nat) : State := (List.range 12).foldl (fun s m => s.set (R.siteModStatus n m) (BitVec.ofNat 64 (k * 2 ^ 21))) s

/-- Modules whose sideband is up. -/
def SiteSt.sideMask (x : SiteSt) : Nat := (List.range 12).foldl (fun k m => if x.sideDown.contains m then k else k + 2 ^ m) 0

/-- Steps 2 to 4 of Table 10-8: reset deasserted, sidebands initialised, ID_REQ sent. -/
def State.siteIdent (s : State) (n : Nat) : State :=
  let s := (s.modsAll n 1).bset (R.siteStatus n) 30 false
  let s := s.modSite n fun x => { x with ph := .idents, words := [] }
  s.emit (.sideband n sbIdReq (n * 2 ^ 48 + (s.site n).sideMask * 2 ^ 36))

/-- Step 1: the rails on, VCORE at 0.75 V. -/
def State.siteRails (s : State) (n : Nat) : State :=
  ((s.domOn (76 + n)).fset (R.siteStatus n) 26 24 2).fset (R.sitePwr n) 63 56 150

/-- Bring-up step 6 for one site: an unscrubbed one is held in reset (R399). -/
def State.siteStart (s : State) (n : Nat) : State :=
  if !s.populated n || (s.site n).ph.running then s
  else if s.bget (R.siteStatus n) 29 then (s.bset (R.siteStatus n) 30 true).modSite n fun x => { x with ph := .held }
  else (s.siteRails n).siteIdent n

/-- Dressings with an endpoint on a site. -/
def State.siteCtxs (s : State) (n : Nat) : List Nat :=
  ((s.dress.filter fun e : Nat × Dressing => e.2.streams.any fun x => match x.siteEp with | some (_, c) => c / 65536 == n | none => false).map
    fun e : Nat × Dressing => e.2.ctx).eraseDups

/-- Step 2 of Table 10-9: the fence, the sweep, tile-cache lines of the window dropped; messages of and to the site lost, and this device's
requests to it holes. -/
def State.siteFence (s : State) (n : Nat) : State :=
  let s := (s.fence n).sweep n
  let s := { s with
    ans := s.ans.filter fun x : Ans => x.a != Agent.site n
    binv := s.binv.filter fun x : Nat × Nat => !inWindow n (128 * x.2)
    snpInv := s.snpInv.filter fun x : Nat × Nat × Nat => x.1 != n
    lineQ := (s.lineQ.map fun e : Nat × List CReq => (e.1, e.2.filter fun r : CReq => r.a != Agent.site n)).filter fun e : Nat × List CReq => !e.2.isEmpty }
  ((s.ext.filter fun e : Nat × ExtReq => e.2.site == some n).map fun e : Nat × ExtReq => e.1).foldl (fun s i => s.extEnd i [] false 2) s |>.accEnds

/-- A site reset (R275): steps 1 to 4 of Table 10-9, then the scrub asked for, or bring-up again. A reset that runs already goes on. -/
def State.siteReset (s : State) (n : Nat) (cycle scrub : Bool) (mbx : Option Nat) : State :=
  if !s.populated n || (s.site n).ph.running || (s.site n).ph == .off then s
  else
    let s := (s.siteCtxs n).foldl (fun s c => s.killCtx c none) s
    let on := s.bget (R.pwrDomStatus (76 + n)) 31
    let s := if on then s.emit (.sideband n sbRstNote (b2n cycle)) else s
    let s := s.siteFence n
    let pw := s.get (R.sitePwr n)
    let s := s.resetRegs (inSiteBlock n) .region
    let s := { s with mods := s.mods.filter fun e : Nat × ModSt => e.1 / 12 != n, siteHeld := tdel s.siteHeld n }
    let s := (s.bset (R.siteStatus n) 31 false).bset (R.siteStatus n) 28 false
    let x := s.site n
    let s := { s with sites := tset s.sites n {} { cycle := cycle, scrub := scrub, gseq := x.gseq, sent := if cycle then [] else x.sent, ceil := x.ceil, mbx := mbx, breaches := x.breaches } }
    let s := if cycle ∨ !on then (s.domOff (76 + n)).siteRails n
      else (s.fset (R.siteStatus n) 26 24 2).set (R.sitePwr n) (BitVec.ofNat 64 (fld pw 63 56 * 2 ^ 56 + fld pw 22 12 * 2 ^ 12))
    if scrub then (s.modSite n fun x => { x with ph := .scrubbing }).emit (.sideband n sbScrubReq 0) else s.siteIdent n

/-- The rails cut for power or heat (R281): a reset with the rails cycled, the cause shown until the site answers. A bring-up or reset that is running
starts again, with the scrub it still owes. -/
def State.siteCut (s : State) (n : Nat) : State :=
  let x := s.site n
  ((s.modSite n fun x => { x with ph := .held }).siteReset n true (x.scrub && x.ph == .scrubbing) x.mbx).fset (R.siteStatus n) 26 24 4

/-- Whether a site draws power under a grant: its rails are on (R281). -/
def State.siteRailsOn (s : State) (n : Nat) : Bool := s.bget (R.pwrDomStatus (76 + n)) 31

/-- The site has answered: its rails are shown on. -/
def State.siteHeard (s : State) (n : Nat) : State := if s.fget (R.siteStatus n) 26 24 = 4 then s.fset (R.siteStatus n) 26 24 2 else s

/-- ID_RSP (R271): once every word is in, the letter, the serial and the ranges are checked; a match trains the main band. -/
def State.idRsp (s : State) (n w : Nat) (v : W32) : State :=
  if (s.site n).ph ≠ .idents ∨ 8 < w then s
  else
    let s := ((s.siteHeard n).set (R.siteId n w) (BitVec.ofNat 64 v.toNat)).modSite n fun x => { x with words := sIns x.words w }
    if (s.site n).words.length < 9 then s
    else if s.idw n 0 23 16 = s.siteType n ∧ s.siteSerial n = (tgetD s.fuse.siteSerial n 1).toNat ∧ s.idRanges n then
      let s := (s.fset (R.sitePwr n) 63 56 (s.idw n 8 31 22)).fset (R.sitePwr n) 44 34 (s.idw n 8 21 11)
      ((s.fset (R.sitePwr n) 33 23 (s.idw n 8 10 0)).modsAll n 3).modSite n fun x => { x with ph := .training }
    else (s.bset (R.siteStatus n) 28 true).siteHold n dSiteMismatch 3 true
def execIdRsp (site w : Nat) (v : W32) (s : State) : Outc := run (site < 8) (s.idRsp site w v)

/-- The spare lanes that the repair of module m of a site has put in use (R263): at most two in each direction, and none at a chiplet without them.
`v` is 4 times those toward the chiplet, plus those from it. -/
def State.modSpares (s : State) (n m v : Nat) : State :=
  if s.idw n 7 8 8 = 0 then s
  else s.set (R.siteModStatus n m) (setFld (setFld (s.get (R.siteModStatus n m)) 20 19 (min 2 (v / 4 % 4))) 18 17 (min 2 (v % 4)))

/-- SITE_MODS (Table 10-8, steps 5 to 7): spare lanes in use by module, as training has left them; the enabled set is fixed; its echo must match; then the
first grant. -/
def State.siteModsIn (s : State) (n mask : Nat) (spares : List Nat) : State :=
  if (s.site n).ph ≠ .training then s
  else
    let ours := (List.range 12).foldl (fun k m => if s.bget (R.siteModStatus n m) 30 then k + 2 ^ m else k) 0
    let s := s.emit (.sideband n sbSiteMods ours)
    if ours = 0 ∨ mask ≠ ours then s.siteHold n dState 4 false
    else
      let s := (List.range 12).foldl (fun s m => if nbit ours m then s.modSpares n m (spares.getD m 0) else s.set (R.siteModStatus n m) (BitVec.ofNat 64 (7 * 2 ^ 21))) s
      let s := (s.fset (R.siteStatus n) 11 0 ours).modSite n fun x => { x with ph := .ack }
      ((s.siteBase n (min (s.idw n 8 10 0) s.siteShare)).siteGrant n).tokenCheck 1
def execSiteMods (site : Nat) (mask : ModEcho) (s : State) : Outc := run (site < 8) (s.siteModsIn site mask.mods mask.spares)

/-- Step 8 of Table 10-8, step 7 of Table 10-9: unfenced and up. -/
def State.siteUp (s : State) (n : Nat) : State :=
  let s := ((s.bset (R.siteStatus n) 31 true).bset (R.cohSiteStatus n) 31 false).modSite n fun x => { x with ph := .up }
  s.siteSettled n 0

/-- PWR_ACK (R279, R298): the tokens held fall to the highest of the grant acted on and those sent after it; the first one lets the site
up. -/
def State.pwrAckIn (s : State) (n q : Nat) : State :=
  match (s.site n).sent.findIdx? (fun p : Nat × Nat => p.1 == q) with
  | none => s
  | some i =>
    let rest := (s.site n).sent.drop i
    let s := ((s.modSite n fun x => { x with sent := rest.drop 1 }).hold (76 + n) (rest.foldl (fun m p => max m p.2) 0)).tokenCheck 1
    if (s.site n).ph = .ack then s.siteUp n else s
def execPwrAck (site gseq : Nat) (s : State) : Outc := run (site < 8) (s.pwrAckIn site gseq)

/-- SCRUB_ACK (R276). -/
def State.scrubAckIn (s : State) (n : Nat) (ok : Bool) : State :=
  if (s.site n).ph ≠ .scrubbing then s
  else if ok then ((s.siteHeard n).bset (R.siteStatus n) 29 false).siteIdent n
  else s.log' 1 12 5 [n]
def execScrubAck (site : Nat) (ok : Bool) (s : State) : Outc := run (site < 8) (s.scrubAckIn site ok)
/-- SCRUB_TIMEOUT (R276). -/
def execScrubTimeout (site : Nat) (s : State) : Outc :=
  run (site < 8) (if (s.site site).ph = .scrubbing then (s.bset (R.siteStatus site) 29 true).siteHold site dState 6 false else s)

/-! ### Temperature, power averages, errors (R273, R281) -/

/-- The thermal stage of a site set. -/
def State.siteHot (s : State) (n hot : Nat) : State := (s.modSite n fun x => { x with hot := hot }).siteRegrant n |>.tokenCheck 1

/-- THERM (R281). -/
def State.thermIn (s : State) (n temp : Nat) : State :=
  let s := s.fset (R.sitePwr n) 7 0 temp
  let m := s.idw n 7 23 16
  if !s.siteRailsOn n || m == 0 then s
  else if m + 5 ≤ temp then (s.log' 1 12 7 [n, temp]).siteCut n
  else if m < temp then s.siteHot n 1
  else if temp < m then s.siteHot n 0
  else s
def execTherm (site temp : Nat) (s : State) : Outc := run (site < 8) (s.thermIn site temp)
/-- THERM_TIMEOUT (R281): 10 ms without a reading halves the grant, 100 ms cuts the rails. -/
def execThermTimeout (site ms : Nat) (s : State) : Outc :=
  run (site < 8) (if !s.siteRailsOn site || s.idw site 7 23 16 == 0 then s
    else if 100 ≤ ms then (s.log' 1 12 7 [site, 0]).siteCut site
    else if 10 ≤ ms then s.siteHot site 1 else s)

/-- CHIP_ERR (R273). -/
def execChipErr (site code : Nat) (s : State) : Outc := run (site < 8) (s.log' 1 12 8 [site, code])

/-- SITE_POWER_AVERAGE (R281, R452): above 175 W, or in the hold more than 10% above the frozen grant, the rails are cut; above the grant, the grant is repeated and a site event logged. -/
def State.siteAvg (s : State) (n avg : Nat) : State :=
  let s := s.fset (R.sitePwr n) 55 45 avg
  if !s.siteRailsOn n then s
  else if 1400 < avg ∨ (s.bget R.safStatus 29 ∧ 11 * s.fget (R.sitePwr n) 22 12 < 10 * avg) then (s.log' 1 12 9 [n, avg]).siteCut n
  else if (s.site n).gseq ≠ 0 ∧ s.fget (R.sitePwr n) 22 12 < avg then ((s.modSite n fun x => { x with overAvg := true }).siteGrant n).log' 1 12 9 [n, avg]
  else s.modSite n fun x => { x with overAvg := false }
def execSitePowerAverage (site avg : Nat) (s : State) : Outc := run (site < 8) (s.siteAvg site avg)
/-- SITE_OVERPOWER_RECHECK (R281). -/
def execSiteOverpowerRecheck (site avg : Nat) (s : State) : Outc :=
  run (site < 8) (if !s.siteRailsOn site || !(s.site site).overAvg then s
    else if s.fget (R.sitePwr site) 22 12 < avg then (s.log' 1 12 9 [site, avg]).siteCut site
    else s.modSite site fun x => { x with overAvg := false })

/-! ### The UCIe link (R264 to R269) -/

/-- A module's link state changed; its status state. -/
def State.modMod (s : State) (k : Nat) (f : ModSt → ModSt) : State := s.setMod k (f (s.mod k))
def State.mst (s : State) (n m : Nat) : Nat := s.fget (R.siteModStatus n m) 24 21

/-- Flits that an acknowledgement covers leave the replay buffer. -/
def ModSt.acked (x : ModSt) (ack : Nat) : ModSt :=
  match x.replay.findIdx? (fun e => e.1 == ack) with
  | some i => { x with replay := x.replay.drop (i + 1), nakRun := 0 }
  | none => x

/-- An ack-only flit (R268). -/
def State.modAckOnly (s : State) (k : Nat) : State :=
  if (s.mod k).toAck = 0 then s
  else (s.modMod k fun x => { x with toAck := 0 }).emit (.ucie (k / 12) (k % 12) 2 0 (s.mod k).rxSeq [])

/-- A flit without messages, to return credits; with 256 flits unacknowledged there is room for an acknowledgement alone. -/
def State.modNull (s : State) (k : Nat) : State :=
  let x := s.mod k
  if !s.modOwes k then s
  else if 256 ≤ x.replay.length then s.modAckOnly k
  else
    let q := (x.txSeq + 1) % 4096
    let (cr, owe) := takeCret (s.withheld (k / 12)) x.owe
    let o : Out := .ucie (k / 12) (k % 12) 0 q x.rxSeq cr
    (s.setMod k { x with txSeq := q, replay := x.replay ++ [(q, [o])], owe := owe, toAck := 0 }).emit o

/-- An acknowledgement sent: with credits to return as a kind-0 flit, else ack-only. -/
def State.modAck (s : State) (k : Nat) : State :=
  if s.modOwes k then s.modNull k else s.modAckOnly k

/-- One NAK for a flit discarded. -/
def State.modNak (s : State) (k : Nat) : State :=
  let s := s.bump (R.siteModCrcErr (k / 12) (k % 12)) 32 1
  if (s.mod k).nakSent then s else (s.modMod k fun x => { x with nakSent := true }).emit (.ucie (k / 12) (k % 12) 1 0 (s.mod k).rxSeq [])

/-- The action on a breach of a module's link credits (Table 12-4): counted against the site, which is fenced and reset with its rails cycled. -/
def State.ucieReset (s : State) (n : Nat) : State := (s.modSite n fun x => { x with breaches := x.breaches + 1 }).siteReset n true false none
def State.ucieBreach (s : State) (n m : Nat) (delta : Int) : State := (s.breach 2 (12 * n + m) delta false).ucieReset n

/-- Credits returned, pool by pool, checked against the chiplet's grant (Table 12-3); the answer says whether one exceeds it. -/
def State.modCret (s : State) (k : Nat) (cret : List Nat) : State × Option Int :=
  (List.range 11).foldl (fun (a : State × Option Int) p =>
    let c := tgetD (a.1.mod k).cred p 0 + cret.getD p 0
    let g := a.1.chipGrant (k / 12) p
    if g < c then (a.1, some ((g : Int) - c)) else (a.1.modMod k fun x => { x with cred := tset x.cred p 0 c }, a.2)) (s, none)

/-- The data lengths a message of a class may have (R266, Table 10-4): only DAT and SFlit carry data; DatWr carries 64 B, a line, or a mask and a line;
DatS a line, or 64 B for an Atomic; the others a line. -/
def dlenOk (cls op dl : Nat) : Bool :=
  if cls = 4 then (if op = 6 then dl != 0 else if op = 2 then dl == 1 || dl == 2 else dl == 2)
  else if cls = 5 then dl == b2n (op == 1)
  else dl == 0

/-- Fields of a header of class REQ, SNP, RSP or DAT that must be 0 or in range for its opcode (Table 10-3): the peer of SnpFwd and of DatF is a site, the reason of
RspErr is 1 to 3; only an Atomic has an operation, with its size, aligned; any other message carries a line's address. -/
def headFields (v cls op : Nat) : Bool :=
  let peer := nbits v 103 100
  let aop := nbits v 99 96
  let size := nbits v 95 93
  (if (cls = 2 ∧ op = 4) ∨ (cls = 4 ∧ op = 3) then decide (peer < 8) else if cls = 3 ∧ op = 6 then decide (1 ≤ peer) && decide (peer ≤ 3) else peer == 0)
    && (if cls = 1 ∧ op = 7 then decide (1 ≤ aop) && decide (aop ≤ 10) && (size == 2 || size == 3) else aop == 0 && size == 0)
    && ((cls == 1 && op == 7) || (cls == 4 && (op == 6 || op == 2)) || (cls == 3 && op == 6) || v % 128 == 0)

/-- What a unit that starts a message is (Tables 10-3 and 10-4): its pool, none where a reserved value, field or bit is met (R265); and the units that
follow it. A null unit has neither. -/
def unitHead (u : BitVec 128) : Option (Option Nat) × Nat :=
  let v := u.toNat
  let cls := nbits v 127 125
  let op := nbits v 124 121
  let dl := nbits v 118 117
  let units := [0, 4, 8, 9].getD dl 0
  if v = 0 then (some none, 0)
  else if cls = 5 then
    if op = 0 ∨ 6 < op ∨ nbits v 120 119 ≠ 0 ∨ nbits v 113 112 ≠ 0 ∨ nbits v 82 0 ≠ 0 ∨ !dlenOk 5 op dl ∨ (op ≠ 1 ∧ nbits v 116 115 ≠ 0) ∨ (op ≠ 3 ∧ nbits v 114 114 ≠ 0)
      ∨ (!([2, 3, 4, 6].contains op) ∧ nbits v 95 83 ≠ 0)
    then (none, units) else (some (some 10), units)
  else if cls = 0 ∨ 5 < cls ∨ nbits v 91 64 ≠ 0 ∨ (nbits v 92 92 = 0 ∧ nbits v 63 46 ≠ 0) then (none, units)
  else
    let top := if cls = 1 then 9 else if cls = 2 then 4 else 6
    if op = 0 ∨ top < op ∨ !dlenOk cls op dl ∨ !headFields v cls op then (none, units)
    else (some (some (if cls = 1 then nbits v 120 119 else if cls = 2 then 4 else if cls = 3 then 5 else 6 + nbits v 120 119)), units)

/-- The messages that start in a flit, by pool; the units of the last one still to come; and whether a reserved value was met. The data of a message
discarded is skipped with it (R265). -/
def flitMsgs : List (BitVec 128) → Nat → List Nat × Nat × Bool
  | [], r => ([], r, false)
  | _ :: us, r + 1 => flitMsgs us r
  | u :: us, 0 =>
    match unitHead u with
    | (none, n) => let (ps, r, _) := flitMsgs us n; (ps, r, true)
    | (some none, _) => flitMsgs us 0
    | (some (some p), n) => let (ps, r, b) := flitMsgs us n; (p :: ps, r, b)

/-- A module that has trained: its first flit enables it, and the hub's initial grants go out (step 6 of Table 10-8, R267). -/
def State.modEnable (s : State) (n m : Nat) : State :=
  let k := 12 * n + m
  let s := s.set (R.siteModStatus n m) (setFld (setFld (setFld (s.get (R.siteModStatus n m)) 31 31 1) 30 30 1) 24 21 5)
  ((s.modMod k fun x => { x with owe := (List.range 11).map fun p => (p, hubGrant p) }).modNull k).modNull k

/-- UCIE_FLIT (R268): a sequenced flit accepted or discarded. Each message it carries arrives by its own command; its buffer place is given
back here. -/
def State.ucieIn (s : State) (n m : Nat) (f : UFlit) : State :=
  let k := 12 * n + m
  let st := s.mst n m
  if st ≠ 3 ∧ st ≠ 5 then s
  else if !f.crcOk || f.seq != ((s.mod k).rxSeq + 1) % 4096 then s.modNak k
  else
    let s := if st = 3 then s.modEnable n m else s
    let s := s.modMod k fun x => { (x.acked f.ack) with rxSeq := f.seq, nakSent := false, toAck := x.toAck + 1 }
    let (s, isOver) := s.modCret k f.cret
    if s.countUe 2 k then (s.countMet 2 k).ucieReset n else
    match isOver with
    | some d => s.ucieBreach n m d
    | none =>
      let (ps, r, bad) := flitMsgs f.units (s.mod k).rest
      let s := s.modMod k fun x => { x with rest := r, owe := ps.foldl (fun o p => tset o p 0 (tgetD o p 0 + 1)) x.owe }
      let s := if bad then (s.log' 1 12 10 [n, m]).fence n else s
      let s := s.modPump k
      if 32 ≤ (s.mod k).toAck then s.modAck k else s
def execUcieFlit (site module : Nat) (f : UFlit) (s : State) : Outc := run (site < 8 && module < 12) (s.ucieIn site module f)

/-- Flits kept for replay sent again. -/
def State.modReplay (s : State) (k : Nat) : State := ((s.mod k).replay.flatMap fun e : Nat × List Out => e.2).foldl State.emit s

/-- UCIE_NAK (R268). -/
def State.ucieNakIn (s : State) (n m ack : Nat) : State :=
  let k := 12 * n + m
  if s.mst n m ≠ 5 then s
  else
    let s := s.modMod k fun x => x.acked ack
    let q := (ack + 1) % 4096
    let s := s.modMod k fun x => { x with nakSeq := q, nakRun := if x.nakSeq = q then x.nakRun + 1 else 1 }
    (s.modReplay k).bump (R.siteModReplay n m) 32 (s.mod k).replay.length
def execUcieNak (site module ack : Nat) (s : State) : Outc := run (site < 8 && module < 12) (s.ucieNakIn site module ack)

/-- UCIE_ACK_FLIT. -/
def execUcieAckFlit (site module ack : Nat) (s : State) : Outc :=
  run (site < 8 && module < 12) (if s.mst site module = 5 then (s.modMod (12 * site + module) fun x => x.acked ack).modPump (12 * site + module) else s)
/-- UCIE_ACK_TIMER. -/
def execUcieAckTimer (site module : Nat) (s : State) : Outc :=
  run (site < 8 && module < 12) (if s.mst site module = 5 then s.modAck (12 * site + module) else s)

/-- UCIE_MODULE_RETRAIN (R269): 8 NAKs for one flit, or flits unacknowledged. -/
def execUcieModuleRetrain (site module : Nat) (s : State) : Outc :=
  run (site < 8 && module < 12) (
    let x := s.mod (12 * site + module)
    if s.mst site module = 5 ∧ (8 ≤ x.nakRun ∨ x.replay ≠ []) then
      ((s.modMod (12 * site + module) fun x => { x with nakRun := 0 }).fset (R.siteModStatus site module) 24 21 6).bump (R.siteModRetrain site module) 32 1
    else s)
/-- UCIE_RETRAIN_COMPLETE. -/
def execUcieRetrainComplete (site module : Nat) (s : State) : Outc :=
  run (site < 8 && module < 12) (if s.mst site module = 6 then
    ((s.fset (R.siteModStatus site module) 24 21 5).modReplay (12 * site + module)).modPump (12 * site + module) else s)
/-- UCIE_RETRAIN_TIMEOUT (R269). -/
def execUcieRetrainTimeout (site module : Nat) (s : State) : Outc :=
  run (site < 8 && module < 12) (if s.mst site module = 6 then (s.log' 1 12 11 [site, module]).siteReset site false false none else s)

/-- UCIE_SIDEBAND_FAILURE (R273): the sideband of the next module that is up carries the messages. A bring-up left without one has failed its step 3:
the site is held (R274). -/
def State.sideFail (s : State) (n m : Nat) : State :=
  let s := s.modSite n fun x =>
    let d := sIns x.sideDown m
    { x with sideDown := d, side := ((List.range 12).find? fun i => !d.contains i).getD x.side }
  if (s.site n).ph = .idents ∧ (s.site n).sideMask = 0 then s.siteHold n dState 12 false else s
def execUcieSidebandFailure (site module : Nat) (s : State) : Outc := run (site < 8 && module < 12) (s.sideFail site module)

/-! ### Commands (Table 10-11, R282) -/

/-- A site command: refused as invalid for a site above 7, or from a site's mailbox for another site. -/
def onSite (s : State) (q : Req) (n : Nat) (f : State → AxR) : AxR :=
  if 8 ≤ n ∨ (16 ≤ q.mbx ∧ q.mbx < 24 ∧ q.mbx ≠ 16 + n) then invalid s else f s

/-- SITE_STATUS. -/
def execSiteStatus (q : Req) (site : Nat) (s : State) : Outc :=
  run (mbxOk q) (axotte s q 0x0120 fun s => onSite s q site fun s =>
    .done s 0 (p32 (s.get (R.siteStatus site)).toNat ++ p64 (s.get (R.sitePwr site)).toNat))
/-- SITE_STATUS expert: a module's training record, which the manual does not lay out (free values, log entry 15), and credits of each pool at the hub
and owed to the chiplet. -/
def execSiteStatusExpert (q : Req) (site module : Nat) (s : State) : Outc :=
  run (mbxOk q) (axotte s q 0x8120 fun s => onSite s q site fun s =>
    if 12 ≤ module then invalid s
    else .done { s with freeCtr := s.freeCtr + 64 } 0 (s.freeBytes 64 ++ (List.range 11).flatMap fun p =>
      p16 (tgetD (s.mod (12 * site + module)).cred p 0) ++ p16 (hubGrant p - tgetD (s.mod (12 * site + module)).owe p 0)))

/-- SITE_RESET (R275). -/
def State.siteResetCmd (s : State) (m n : Nat) (cycle scrub : Bool) : AxR :=
  if !s.populated n || (s.site n).ph == .off || s.rst.held.contains (76 + n) then refuse s dState
  else if (s.site n).ph.running then busy s
  else .wait (s.siteReset n cycle scrub (some m))
def execSiteReset (q : Req) (site : Nat) (s : State) : Outc :=
  run (mbxOk q) (axotte s q 0x0121 fun s => onSite s q site fun s => s.siteResetCmd q.mbx site false false)
/-- SITE_RESET expert. -/
def execSiteResetExpert (q : Req) (site : Nat) (cycle scrub : Bool) (s : State) : Outc :=
  run (mbxOk q) (axotte s q 0x8121 fun s => onSite s q site fun s => s.siteResetCmd q.mbx site cycle scrub)

/-- SITE_PWR_SET (R279): a ceiling in W on the grant; for a site without a chiplet the ceiling is kept and the grant in force is 0 (log entry 126). -/
def execSitePwrSet (q : Req) (site watts : Nat) (s : State) : Outc :=
  run (mbxOk q) (axotte s q 0x0220 fun s => onSite s q site fun s =>
    if 175 < watts then invalid s
    else
      let s := (s.modSite site fun x => { x with ceil := some (8 * watts) })
      let s := (if (s.site site).exact then s.modSite site fun x => { x with base := min x.base (8 * watts) }
        else s.siteBase site (s.fget (R.sitePwr site) 33 23)).siteRegrant site |>.tokenCheck 1
      .done s 0 (p32 (s.fget (R.sitePwr site) 22 12)))
/-- SITE_PWR_SET expert: an exact grant in units of 0.125 W, as far as R279 allows it. -/
def execSitePwrSetExpert (q : Req) (site grant : Nat) (s : State) : Outc :=
  run (mbxOk q) (axotte s q 0x8220 fun s => onSite s q site fun s =>
    if s.siteMax site < grant then invalid s
    else if s.held (76 + site) + s.freeTok 1 < grant then busy s
    else
      let s := (s.modSite site fun x => { x with exact := true, base := grant }).siteRegrant site |>.tokenCheck 1
      .done s 0 (p32 (s.fget (R.sitePwr site) 22 12)))

end Sys2Proof.Machine
end

