-- ==== Sys2Proof/Machine/Supply.lean ====
section
/-! DEFINITION. The 52 V input, caps and tokens (R410, R413 to R416, R298 to R303), and what the steward reads at the connectors (R497). -/

namespace Sys2Proof.Machine

/-! ### The 52 V input (R413 to R416) -/

/-- A warning entered (R413): limiters, grants, the re-plan stopped (R428), the BIST round stopped (Table 18-8), a class-0 event. -/
def State.warnEnter (s : State) (vin : Nat) : State :=
  let s := (((s.bset R.pwrSupplyStatus 31 true).bset R.pwrSupplyStatus 30 false).bump R.pwrWarnCount 32 1).supplyUse
  let s := { s with bist := { s.bist with stopped := s.bist.stopped || !s.bist.online.isEmpty, online := [] } }
  s.replanStop.prbShow.log' 0 3 4 [vin]

/-- A sample of the input (R413 to R415), in units of 10 mV and 10 mA. -/
def State.supply (s : State) (vin iin : Nat) : State :=
  let s := (s.fset R.pwrSupplyStatus 15 0 vin).set R.pwrSupplyIin (BitVec.ofNat 64 (iin % 65536))
  let warn := s.bget R.pwrSupplyStatus 31
  let s := if 5700 < vin ∧ !s.pwr.highSeen then s.log' 0 3 5 [vin] else s
  let s := { s with pwr := { s.pwr with highSeen := decide (5700 < vin) } }.bset R.pwrSupplyStatus 28 (decide (5700 < vin))
  if vin < 4400 then
    let s := { s with pwr := { s.pwr with lowSeen := true } }
    if warn then s.bset R.pwrSupplyStatus 30 false else s.warnEnter vin
  else if warn then s.bset R.pwrSupplyStatus 30 (decide (4600 < vin))
  else if vin < 4600 then
    if s.pwr.lowSeen then s else { s with pwr := { s.pwr with lowSeen := true } }.log' 1 3 6 [vin]
  else { s with pwr := { s.pwr with lowSeen := false } }
/-- SUPPLY_SAMPLE. -/
def execSupplySample (vin iin : Nat) (s : State) : Outc := .next (if s.powered then s.supply vin iin else s)

/-- HOLDUP_MEASURE (R416). -/
def State.holdup (s : State) (us : Nat) : State :=
  let s := (s.set R.pwrSupplyHoldup (BitVec.ofNat 64 (min us 65535))).bset R.pwrSupplyStatus 29 (decide (2000 ≤ us))
  if us < 2000 then s.log' 1 3 7 [us] else s
def execHoldupMeasure (us : Nat) (s : State) : Outc := .next (if s.powered then s.holdup us else s)

/-! ### Connector readings (R497) -/

/-- COOL_LEAK (R497): the level of COOL_LEAK_N; a falling edge is logged. -/
def State.coolLeak (s : State) (level : Bool) : State :=
  if level then s.bset R.hubAuxStatus 31 false
  else if s.bget R.hubAuxStatus 31 then s
  else ((s.bset R.hubAuxStatus 31 true).bset R.hubAuxStatus 30 true).log' 0 0 3 []
def execCoolLeak (level : Bool) (s : State) : Outc := .next (if s.powered then s.coolLeak level else s)

/-- COOLANT_THERMISTOR_READ (R497): in °C. -/
def State.coolant (s : State) (inlet outlet : Nat) : State :=
  let s := (s.fset R.hubAuxStatus 7 0 inlet).fset R.hubAuxStatus 15 8 outlet
  let s := if 40 < inlet ∧ !s.pwr.hotInlet then s.log' 1 0 4 [inlet] else s
  { s with pwr := { s.pwr with hotInlet := decide (40 < inlet) } }
def execCoolantThermistorRead (inlet outlet : Nat) (s : State) : Outc := .next (if s.powered then s.coolant inlet outlet else s)

/-! ### Caps and tokens (R410, R298, R302, R303) -/

abbrev dBelowFloor : Nat := 0x20

/-- Caps put in force, in W (R410): tokens beyond free are owed, and where the site pool then owes some, site grants are lowered to their share (R298). -/
def State.capsUse (s : State) (hubW siteW : Nat) : State :=
  let s := (s.poolSet 0 (8 * hubW) (s.fget (R.pwrPool 0) 47 32)).poolSet 1 (8 * siteW) (s.fget (R.pwrPool 1) 47 32)
  let top (n : Nat) : Nat := if 8 * siteW < s.fget (R.pwrPool 1) 47 32 then min (s.siteMax n) s.siteShare else s.siteMax n
  (((List.range 8).foldl (fun s n => s.modSite n fun x => { x with base := min x.base (top n) }) s).sitesRegrant.tokenCheck 0).tokenCheck 1

/-- Caps checked (R2, R410) and put in force. -/
def State.capsSet (s : State) (hubW siteW : Nat) : AxR :=
  if s.fusedHub < hubW ∨ s.fusedSite < siteW then refuse s dAboveFuse
  else if hubW < s.minHub then refuse s dBelowFloor
  else .done (s.capsUse hubW siteW) 0 (p32 hubW ++ p32 siteW)
/-- PWR_CAP_SET. -/
def execPwrCapSet (q : Req) (watts : Nat) (s : State) : Outc :=
  run (mbxOk q) (axotte s q 0x0201 fun s =>
    if s.fusedModule < watts then refuse s dAboveFuse
    else s.capsSet (s.fusedHub * watts / s.fusedModule) (s.fusedSite * watts / s.fusedModule))
def execPwrCapSetExpert (q : Req) (hubW siteW : Nat) (s : State) : Outc := run (mbxOk q) (axotte s q 0x8201 fun s => s.capsSet hubW siteW)

/-- BENCH_POOL_DIVIDE (R408): the pool's sum is checked with the grants (Table 12-3). -/
def execBenchPoolDivide (demand : List Nat) (s : State) : Outc := .next ((s.divide demand).tokenCheck 0)
/-- BENCH_GOVERNOR (R409): a throttle that takes effect acknowledges a lowered grant. -/
def execBenchGovernor (bench staticTok dynTok : Nat) (s : State) : Outc := run (bench < 68) ((s.governor bench staticTok dynTok).tokenCheck 0)

/-- PWR_TOKEN_AUDIT (R303): the pools, and what each domain holds. -/
def execPwrTokenAudit (q : Req) (s : State) : Outc :=
  run (mbxOk q) (axotte s q 0x0210 fun s =>
    .done ((s.tokenCheck 0).tokenCheck 1) 0
      ((List.range 2).flatMap (fun p => p64 (s.get (R.pwrPool p)).toNat) ++ (List.range 96).flatMap fun d => p16 (s.held d)))

/-- BENCH_IDLE (R433): no tile held by a dressing that runs, no self-test, for 10 µs. -/
def State.benchBusy (s : State) (b : Nat) : Bool :=
  s.bistBenches.contains b || (s.dress.any fun e : Nat × Dressing =>
    (e.2.st == .activating || e.2.st == .active || e.2.st == .deactivating) && (s.tilesOf e.2).any fun p => p / 32 == b)
def execBenchIdle (bench us : Nat) (s : State) : Outc :=
  run (bench < 68) (if 10 ≤ us ∧ s.tilesOn bench ∧ !s.benchBusy bench then { s with rst := { s.rst with idle := sIns s.rst.idle bench } } else s)

end Sys2Proof.Machine
end

