-- ==== Sys2Proof/Machine/Reset.lean ====
section
/-! DEFINITION. The reset classes of chapter 20 (R429 to R432), power-on and power-down (R390, R499), and what survives each. -/

namespace Sys2Proof.Machine

/-! ### What a hub reset loses (Table 20-3) -/

/-- The service cores halted at an instruction boundary (R369): a wait is dropped, nothing is resumed later. -/
def State.svcHalt (s : State) : State :=
  (List.range 16).foldl (fun s c => s.bset (R.svcStatus c) 31 false) { s with svc := { s.svc with cores := [] } }

/-- Memory that a reset of the whole data plane leaves: the mailbox windows, which lie in the keep domain, and the host's own. -/
def planeMem (a : Nat) : Bool := decide (0x100000000000 ≤ a)

/-- Memory for which p fails becomes unspecified (Table 20-3, log entry 6). -/
def State.memKeep (s : State) (p : Nat → Bool) : State :=
  { s with mem := s.mem.filter (fun e : Host.Cell => p e.1), poison := s.poison.filter p, latentUe := s.latentUe.filter p, latentCe := s.latentCe.filter p }

/-- The typed state of every domain but the keep domain emptied. -/
def State.planeDrop (s : State) : State :=
  { s with
    tiles := [], flight := [], credFly := [], deadCred := [], dress := [], siteHeld := [], tlb := [], walkQ := [], pinWait := [], wcache := []
    inv := [], pools := [], waiters := [], updates := [], nq := [], syncCnt := [], lanes := [], store := {}, expo := {}
    hbmBus := [], regLim := [], regW := none, regQ := [], regSpent := [], regBucket := [], regC0 := [], tagUe := [], snpInv := [], meshHeld := [], rtrPar := []
    conUe := s.conUe.filter fun x : Nat × Nat => x.1 == 6
    lines := [], txn := [], lineQ := [], ans := [], binv := [], fills := [], curData := [], sideBuf := [], missed := [], ssJob := none, ssInv := []
    regDemand := [], ports := [], tksReq := [], memo := [], ingQ := [], mods := [], ext := [], extGot := [], accs := [], pings := []
    msixOpen := [], msixFnMask := false, msixPend := [], svcIrq := [], sites := [], cfg := {}, bist := { next := s.bist.next, done := s.bist.done } }

/-- Mailboxes keep what they are doing through a hub reset: the steward and the mailboxes are in the keep domain. -/
def State.mbxKeep (s : State) : State :=
  (List.range 28).foldl (fun s m => match (s.box m).cur with
    | some _ => s.fset (R.mbxStatus m) 31 30 (if (s.box m).begun then 2 else 1)
    | none => s) s

/-- A handover that ends before step 5 (R470): its command ends, and incomplete is set. -/
def State.handFail (s : State) (status : Nat) : State :=
  match s.sec.hand with
  | none => s
  | some h =>
    let s := ({ s with sec := { s.sec with hand := none } }.bset R.secTenStatus 30 true).bset R.secTenStatus 31 false
    s.axFinish h.mbx status 0 []

/-- The rails that stay on outside Off: the CXL domain, but for Sleep, and the keep domain, with their fixed grants. The pools are at the fused caps, their
tokens free but for those grants (R299, R410, Table 12-2; log entry 142). -/
def State.keepRails (s : State) : State :=
  let s := [88, 93].foldl (fun s d => (s.bset (R.pwrDomStatus d) 31 true).fset (R.pwrDomStatus d) 15 0 (s.fixedGrant d)) s
  (s.poolSet 0 (8 * s.fusedHub) (s.fixedGrant 88 + s.fixedGrant 93)).poolSet 1 (8 * s.fusedSite) 0

/-- A hub reset begins (R429 to R432): every domain but the keep domain in reset, the active caps and bring-up back at the start. The steward runs on, with
its test records; a state of Drowse stays, which only a module reset or a command ends (Table 20-6, Table 20-11). -/
def State.hubResetGo (s : State) : State :=
  let drowse := s.fget R.stwPstate 31 30 == 1
  let s := if s.sec.hand.isSome then { s with sec := { s.sec with hand := none } }.bset R.secTenStatus 30 true else s
  let s := (s.planeDrop.memKeep planeMem).resetRegs (fun _ => true) .hub
  let s := { s with
    l2p := [], isolated := [], policy := {}, memErr := [], hbmPatrolH := 24, ssPatrolH := 1, boot := {}, svc := {}, asleep := false
    pwr := { lowSeen := s.pwr.lowSeen, highSeen := s.pwr.highSeen, hotInlet := s.pwr.hotInlet, calib := s.pwr.calib, copy := s.pwr.copy, commitAt := s.pwr.commitAt }
    prb := { s.prb with jobs := tdel s.prb.jobs 100, q := (s.prb.q.take (b2n s.prb.run)) ++ (s.prb.q.drop (b2n s.prb.run)).filter fun p : PWrite =>
      match p.cmd with | some c => c.1 != 100 | none => true }
    rst := { perst := s.rst.perst, modRst := s.rst.modRst, late := s.rst.late, hub := true, tilesOff := if drowse then List.range 68 else [] }
    saf := {} }.fset R.stwPstate 31 30 (b2n drowse)
  ((s.bset R.hubClkStatus 1 true).keepRails.mbxKeep).prbShow

/-- HUB_RESET_START (R429). -/
def execHubResetStart (s : State) : Outc := .next (if s.rst.sched then s.hubResetGo else s)

/-- Whether a mailbox's command needs only the keep domain: its words are on their way, or it burns fuses (Table 15-8). -/
def State.keepWork (s : State) (m : Nat) : Bool := (tget s.prb.jobs m).isSome || (match s.sec.burn with | some b => b.mbx == m | none => false)

/-- Commands whose work reached the domains reset end ABORTED (Table 15-8). -/
def State.abortAll (s : State) : State :=
  (List.range 28).foldl (fun s m => if (s.box m).begun && !s.keepWork m then s.axFinish m stAborted 0 [] else s) s

/-- HUB_RESET_COMPLETE (R429): the CXL domain leaves reset, the host is unfenced, bring-up waits at step 1. -/
def execHubResetComplete (s : State) : Outc :=
  .next (if s.rst.hub then ({ s with rst := { s.rst with hub := false } }.bset R.cohHostStatus 31 false).abortAll else s)

/-- ROOT_PLL_LOCK_LOSS (R20). -/
def State.lockLoss (s : State) : State :=
  if !s.powered || s.asleep || s.modReset || !s.bget R.hubClkStatus 0 then s
  else (s.hubResetGo.log' 0 0 5 []).bset R.hubClkStatus 17 true
def execRootPllLockLoss (s : State) : Outc := .next s.lockLoss

/-- Whether an RST_HUB, RST_REGION or PWR_STATE_SET of another mailbox executes (Table 20-6). -/
def State.resetting (s : State) (m : Nat) : Bool := s.rst.sched || s.rst.hub || s.runs m [0x0111, 0x8111, 0x0204, 0x8204]

/-- RST_HUB (R429, R438, R450): done before the reset begins. -/
def execRstHub (q : Req) (s : State) : Outc :=
  run (mbxOk q) (axotte s q 0x0110 fun s =>
    if s.sec.burn.isSome then busy s
    else if !s.bget R.safStatus 31 then refuse s dState
    else if s.resetting q.mbx then busy s
    else .done { s with rst := { s.rst with sched := true } } 0 [])

/-! ### Power-on, module reset and power-down (R390, R415, R429, R451, R495, R499) -/

/-- Whether the supply lets a fuse be burned (R476): vin above 50.00 V, holdup_ok, no warning. -/
def State.burnOk (s : State) : Bool := decide (5000 < s.fget R.pwrSupplyStatus 15 0) && s.bget R.pwrSupplyStatus 29 && !s.bget R.pwrSupplyStatus 31

/-- The version of the image in a slot; that of the firmware shipped is the specimen's, 1.0.0 (log entry 25). -/
def State.fwVersion (s : State) (slot : Nat) : Nat := tgetD s.sec.fwVer slot 0x010000

/-- A pending image becomes the one that runs (R482); svn_min is burned up to it where the supply allows. -/
def State.fwActivate (s : State) : State :=
  let w := s.get R.secFwStatus
  let act := bit w 31
  let w := if act then setFld (setFld (setFld (setFld w 31 31 0) 30 30 (1 - fld w 30 30)) 15 8 (fld w 7 0)) 7 0 0 else w
  let w := if fld w 23 16 < fld w 15 8 ∧ s.burnOk then setFld w 23 16 (fld w 15 8) else w
  let s := (s.set R.secFwStatus w).fset R.stwStatus 29 29 (fld w 30 30)
  let s := (s.fset R.stwStatus 23 0 (s.fwVersion (fld w 30 30))).bset R.stwStatus 31 true
  if act then { s with sec := { s.sec with pendDigest := none } }.measDone else s

/-- The steward boots (R390, R482, R480): straps sampled, the nonce fresh, its firmware running. -/
def State.stewardBoot (s : State) (straps : BitVec 8) : State :=
  let s := s.set R.hubStrap (straps.setWidth 64)
  let s := (s.set R.secDbgNonce s.free).drew
  s.fwActivate

/-- A module reset in force (R429): what a hub reset loses, and the steward with its sessions, its queues and open debug scopes. -/
def State.moduleResetGo (s : State) : State :=
  let fw := s.get R.secFwStatus
  let s := s.hubResetGo
  let s := (s.resetRegs (fun _ => true) .module).set R.secFwStatus fw
  let s := { s with
    mbx := [], modReset := true, bist := {}
    prb := { s.prb with q := s.prb.q.take (b2n s.prb.run), deferred := [], jobs := [] }
    rst := { s.rst with hub := false, late := false }
    sec := { s.sec with scopes := 0, held := [], conns := [], sess := [], burn := none } }
  ((List.range 28).foldl (fun s m => s.fset (R.mbxStatus m) 31 30 0) s).prbShow

/-- MODULE_RESET (R429, R495): applied at the end of a burn that is in progress (Table 23-11). -/
def State.moduleReset (s : State) (perst : Bool) (lowUs : Nat) : State :=
  if !s.powered || lowUs < 100 then s
  else
    let s := { s with rst := { s.rst with perst := s.rst.perst || perst, modRst := s.rst.modRst || !perst } }
    if s.modReset then s
    else if s.sec.burn.isSome then { s with rst := { s.rst with late := true } }
    else s.moduleResetGo.set R.stwLogBoot (s.get R.stwLogBoot + 1)
def execModuleReset (perst : Bool) (lowUs : Nat) (s : State) : Outc := .next (s.moduleReset perst lowUs)

/-- MODULE_RESET_RELEASE (Table 23-11): the later of the two pins returns high. -/
def State.moduleRelease (s : State) (perst : Bool) (straps : BitVec 8) : State :=
  let s := { s with rst := { s.rst with perst := s.rst.perst && !perst, modRst := s.rst.modRst && perst } }
  if s.powered && s.modReset && !s.rst.perst && !s.rst.modRst then { s with modReset := false }.stewardBoot straps else s
def execModuleResetRelease (perst : Bool) (straps : BitVec 8) (s : State) : Outc := .next (s.moduleRelease perst straps)

/-- Everything off (Table 23-10): only the persistent block, the event log, the fuses and what flash holds stay; of sec.fw.status all does, which a boot reads
(R482; log entry 143). -/
def State.powerOff (s : State) : State :=
  let fw := s.get R.secFwStatus
  let s := ((s.moduleResetGo.resetRegs (fun _ => true) .powerOn).set R.secFwStatus fw).memKeep fun _ => false
  let s := [88, 93].foldl (fun s d => s.set (R.pwrDomStatus d) 0) s
  { s with powered := false, modReset := false, prb := { s.prb with q := [], run := false }, rst := {}, pwr := {} }

/-- A power-down: its cause logged first (Table 23-10). The cause codes are the model's, log entry 8. -/
def State.powerDown (s : State) (code : Nat) (data : List Nat) : State := if s.powered then (s.log' 0 3 code data).powerOff else s
/-- POWER_DOWN (R499). -/
def execPowerDown (cause : PdCause) (s : State) : Outc :=
  .next (s.powerDown 8 [match cause with | .below40 => 0 | .overcurrent => 1 | .overvoltage => 2 | .j1Break => 3])
/-- OVERCURRENT_TRIP (R446, R451): above 80 A; only the log entry is written. -/
def execOvercurrentTrip (iin : Nat) (s : State) : Outc := .next (if 8000 < iin then s.powerDown 9 [iin] else s)
/-- OVERVOLTAGE_DISCONNECT (R415). -/
def execOvervoltageDisconnect (vin us : Nat) (s : State) : Outc := .next (if 5800 < vin ∧ 100 ≤ us then s.powerDown 10 [vin] else s)

/-- POWER_ON (R390, R491, Table 23-9): with J1-C1 mated and the input at or above 46.0 V. -/
def State.powerOn (s : State) (vin : Nat) (mated perstN modRstN : Bool) (straps : BitVec 8) : State :=
  if s.powered || !mated || vin < 4600 then s
  else
    let s := { s with powered := true, rst := { perst := !perstN, modRst := !modRstN }, modReset := !(perstN && modRstN) }
    let s := (s.set R.stwLogBoot (s.get R.stwLogBoot + 1)).keepRails
    if s.modReset then s else s.stewardBoot straps
def execPowerOn (vin : Nat) (mated : Bool) (perstN modRstN : Bool) (straps : BitVec 8) (s : State) : Outc :=
  .next (s.powerOn vin mated perstN modRstN straps)

/-! ### Burns (R475, R476) -/

/-- A burn refused or ended. -/
def State.burnRefuse (s : State) (b : Burn) : State := { s with sec := { s.sec with burn := none } }.axFinish b.mbx stRefused dSupplyLow []

/-- The life-cycle state that a word encodes (Table 22-2, Table 22-11). -/
def lcState (w : Nat) : Nat := match w with | 0x0007 => 0 | 0x01FF => 1 | 0x7FFF => 2 | 0xFFFF => 3 | _ => 7

/-- Bits burned, one each millisecond, as many as ten between two heartbeats; with the last the command is done, and a module reset that waited
is applied (R475, Table 23-11). -/
def State.burnOn (s : State) (b : Burn) : State :=
  let now := (b.bits.drop b.done).take 10
  let s := { s with fuse := { s.fuse with life := now.foldl (fun w i => w ||| 2 ^ i) s.fuse.life } }
  let b := { b with done := b.done + now.length }
  if b.done < b.bits.length then { s with sec := { s.sec with burn := some b } }
  else
    let s := { s with sec := { s.sec with burn := none } }
    let s := (s.bset R.secLcStatus 25 true).fset R.secLcStatus 28 26 b.target
    let s := s.measDone.axFinish b.mbx stDone 0 (p32 b.target ++ p32 (b.bits.foldl (fun n i => n + 2 ^ i) 0))
    if s.rst.late then s.moduleResetGo.set R.stwLogBoot (s.get R.stwLogBoot + 1) else s

/-- A heartbeat's share of a burn: it starts outside a warning, and once started it goes on whatever the supply does. -/
def State.burnTick (s : State) : State :=
  match s.sec.burn with
  | some b => if b.done = 0 ∧ s.bget R.pwrSupplyStatus 31 then s else s.burnOn b
  | none => s

/-- LC_BURN_SUPPLY_TIMEOUT (R476). -/
def execLcBurnSupplyTimeout (s : State) : Outc :=
  .next (match s.sec.burn with
    | some b => if b.done = 0 ∧ s.bget R.pwrSupplyStatus 31 then s.burnRefuse b else s
    | none => s)

/-- A burn that waits for the supply checked again. -/
def State.burnAgain (s : State) : State :=
  match s.sec.burn with
  | some b => if b.done ≠ 0 then s else if s.burnOk then s.burnOn b else s.burnRefuse b
  | none => s

/-- SUPPLY_WARNING_EXIT (R414): the limiter cleared, grants restored, deferred writes retried once, a waiting burn checked again. -/
def State.warnExit (s : State) (durUs : Nat) : State :=
  ((((s.bset R.pwrSupplyStatus 31 false).bset R.pwrSupplyStatus 30 false).supplyUse).prbRetry.log' 1 3 11 [durUs]).burnAgain
def execSupplyWarningExit (aboveUs durUs : Nat) (s : State) : Outc :=
  .next (if s.powered && s.bget R.pwrSupplyStatus 31 && decide (1000 ≤ aboveUs) then s.warnExit durUs else s)

end Sys2Proof.Machine
end

