-- ==== Sys2Proof/Machine/Region.lean ====
section
/-! DEFINITION. Region resets (R431) and power states (R433 to R438). -/

namespace Sys2Proof.Machine

/-! ### Region resets (R431, Table 20-2) -/

abbrev dDomainFixed : Nat := 0x23

/-- Domains that no region reset reaches. -/
def domFixed (d : Nat) : Bool := (decide (70 ≤ d) && decide (d < 76)) || d == 88 || decide (93 ≤ d)

/-- The tiles of a bench. -/
def benchTiles (b : Nat) : List Nat := (List.range 32).map (· + 32 * b)

/-- A tile's typed state lost, but for its datapath faults since the last hub reset (R447). -/
def State.tileDrop (s : State) (t : Nat) : State := s.setTile t { dpFaults := (s.tile t).dpFaults, dpInjected := (s.tile t).dpInjected }

/-- The bench at the far end of a mesh link (Table 5-13), none for a link that leaves the mesh; whether the link crosses the seam. -/
def linkTo (b l : Nat) : Option Nat :=
  if l = 0 ∧ 17 ≤ b then some (b - 17)
  else if l = 1 ∧ b < 51 then some (b + 17)
  else if l = 2 ∧ b % 17 ≠ 16 then some (b + 1)
  else if l = 3 ∧ b % 17 ≠ 0 then some (b - 1)
  else none
def linkSeam (b l : Nat) : Bool := (l == 1 && decide (17 ≤ b) && decide (b < 34)) || (l == 0 && decide (34 ≤ b) && decide (b < 51))

/-- The count of a link re-established at the grant, where no seam crossing keeps it (Table 12-2, R16). -/
def State.meshFull (s : State) (b : Nat) : State :=
  { s with meshHeld := s.meshHeld.filter fun e => let k := e.1 / 32; linkSeam (k / 6) (k % 6) || (k / 6 != b && linkTo (k / 6) (k % 6) != some b) }

/-- A bench as a region reset begins: contexts killed (R157), references 0 and mesh credits at their grant (R299), local memory unspecified, its caches and TLB empty. -/
def State.benchDrop (s : State) (b : Nat) : State :=
  let ts := benchTiles b
  let s := s.killTilesOf ts
  let gone := (s.binv.filter fun x : Nat × Nat => x.1 == b).map fun x : Nat × Nat => x.2
  let mine (m : Master) : Bool := m.cls == .tile && m.idx / 32 == b
  let s := ts.foldl State.tileDrop s
  let s := { s with tlb := s.tlb.filter fun e : Nat × TlbEnt => e.1 / 256 != b, rtrPar := sDel s.rtrPar b, rst := { s.rst with due := sDel s.rst.due b }
                    walkQ := s.walkQ.filter fun r : WalkReq => !mine r.m, pinWait := s.pinWait.filter fun r : WalkReq => !mine r.m
                    binv := s.binv.filter fun x : Nat × Nat => x.1 != b }
  let s := gone.foldl State.snpInvDone s
  let s := (s.meshFull b).zero (lmBase (32 * b)) (32 * 0x80000)
  s.resetRegs (fun a => inBenchBlock b a || ts.any (fun t => inTileBlock t a) || a == (R.pwrBenchDuty b).addr || a == (R.pwrBenchTemp b).addr) .region

/-- Invalidations that a bench in reset will not answer count as answered: it holds no copy. -/
def State.benchAnswers (s : State) (b : Nat) : State :=
  ((s.txn.filter fun e : Nat × Txn => e.2.benches.contains b).map fun e : Nat × Txn => e.1).foldl (fun s l => s.benchInv b l none) s

/-- What a region reset does to its domain as it begins. -/
def State.regionDrop (s : State) (d : Nat) : State :=
  if d < 68 then (s.benchDrop d).benchAnswers d
  else if d < 70 then s.jobStart { mbx := none, rst := some (d - 68) } (s.hbmLines (s.halfLine (d - 68))) []
  else if 84 ≤ d ∧ d < 88 then (s.portReset (2 * (d - 84))).portReset (2 * (d - 84) + 1)
  else if d = 89 then
    { s with svcIrq := [] }.svcHalt.resetRegs (fun a => decide (0x3FF004000000 ≤ a) && decide (a < 0x3FF004200000)) .region
  else if d = 90 ∨ d = 91 then
    let ks := (s.lanes.filter fun e : Nat × Lane => e.1 / 256 == d - 90)
    let s := ((ks.map fun e : Nat × Lane => e.2.ctx).eraseDups).foldl (fun s c => s.killCtx c none) s
    let s := (ks.map fun e : Nat × Lane => e.1).foldl State.laneDetach s
    let b := 0x3FF00A000000 + (d - 90) * 0x800000
    s.resetRegs (fun a => decide (b ≤ a) && decide (a < b + 0x800000)) .region
  else s

/-- A region reset begins: the domain in reset; the mailbox that asked, and whether the domain is to stay there. A domain already in reset goes on, and a
mailbox that asks then waits for its end. -/
def State.regionGo (s : State) (d : Nat) (mbx : Option Nat) (hold : Bool) : State :=
  match tget s.rst.region d with
  | some (none, _) => { s with rst := { s.rst with region := tput s.rst.region d (mbx, hold) } }
  | some _ => s
  | none => ({ s with rst := { s.rst with region := tput s.rst.region d (mbx, hold) } }.bset (R.pwrDomStatus d) 30 true).regionDrop d

/-- Bench resets that a parity error has called for, begun by the steward (R457). -/
def State.duePump (s : State) : State := s.rst.due.foldl (fun s b => { s with rst := { s.rst with due := sDel s.rst.due b } }.regionGo b none false) s

/-- A domain out of reset. -/
def State.regionOut (s : State) (d : Nat) : State :=
  let s := s.bset (R.pwrDomStatus d) 30 false
  if d < 68 then s.setDuty d
  else if d < 70 then if s.ssInv.isEmpty then s.bset R.hubMemStatus 31 true else s
  else if 84 ≤ d ∧ d < 88 then (s.portStart (2 * (d - 84))).portStart (2 * (d - 84) + 1)
  else s

/-- A self-test of a bench that was reset: its command ends ABORTED (Table 15-8). -/
def State.bistDrop (s : State) (b : Nat) : State :=
  let hit (e : Nat × BistA) : Bool := e.2.bench == some b
  let ms := (s.bist.active.filter hit).filterMap fun e : Nat × BistA => e.2.mbx
  ms.foldl (fun s m => s.axFinish m stAborted 0 []) { s with bist := { s.bist with active := s.bist.active.filter fun e => !hit e } }

/-- REGION_RESET_COMPLETE (R431): the domain resumes, or is held; the command that asked is done. -/
def State.regionDone (s : State) (d : Nat) : State :=
  match tget s.rst.region d with
  | none => s
  | some (m, hold) =>
    if 68 ≤ d ∧ d < 70 ∧ (s.ssJob.isSome ∨ s.ssInv.contains (d - 68)) then s
    else
      let s := { s with rst := { s.rst with region := tdel s.rst.region d } }
      let s := if d < 68 then s.bistDrop d
        else if d < 70 then
          let h := d - 68
          (s.resetRegs (fun a => decide (0x3FF008000000 + h * 0x800000 ≤ a) && decide (a < 0x3FF008000000 + (h + 1) * 0x800000)) .region).fset R.hubMemStatus
            (29 - 2 * h) (28 - 2 * h) 0
        else s
      let s := if hold then
          let s := { s with rst := { s.rst with held := sIns s.rst.held d } }
          if d < 68 then (benchTiles d).foldl (fun s t => s.isoSet t 3) s else if d < 70 then s.bset R.hubMemStatus 31 false else s
        else s.regionOut d
      (match m with | some m => s.axFinish m stDone 0 [] | none => s).heldFlush
def execRegionResetComplete (dom : Nat) (s : State) : Outc := run (dom < 96) (s.regionDone dom)

/-- A held domain released by the second expert command. -/
def State.regionRelease (s : State) (d : Nat) : State :=
  let s := { s with rst := { s.rst with held := sDel s.rst.held d } }
  let s := if d < 68 then (benchTiles d).foldl (fun s t => s.isoClear t 3) s else s
  (s.regionOut d).heldFlush

/-- RST_REGION (R431, R438): `rel` marks the expert form's release. -/
def State.rstRegion (s : State) (m d : Nat) (hold rel : Bool) : AxR :=
  if 96 ≤ d then invalid s
  else if domFixed d then refuse s dDomainFixed
  else if s.resetting m then busy s
  else if s.asleep || (decide (d < 68) && s.fget R.stwPstate 31 30 == 1) then refuse s dPowerState
  else if s.rst.held.contains d then
    if !rel then refuse s dState
    else if 76 ≤ d ∧ d < 84 then { s with rst := { s.rst with held := sDel s.rst.held d } }.siteResetCmd m (d - 76) true false
    else .done (s.regionRelease d) 0 []
  else if 76 ≤ d ∧ d < 84 then
    match s.siteResetCmd m (d - 76) true false with
    | .wait s => .wait (if hold then { s with rst := { s.rst with held := sIns s.rst.held d } }.siteHold (d - 76) 0 12 true else s)
    | r => r
  else if !s.bget (R.pwrDomStatus d) 31 then refuse s dPowerState
  else if 68 ≤ d ∧ d < 70 ∧ s.ssJob.isSome then busy s
  else .wait (s.regionGo d (some m) hold)
def execRstRegion (q : Req) (dom : Nat) (s : State) : Outc := run (mbxOk q) (axotte s q 0x0111 fun s => s.rstRegion q.mbx dom false false)
def execRstRegionExpert (q : Req) (dom : Nat) (hold : Bool) (s : State) : Outc :=
  run (mbxOk q) (axotte s q 0x8111 fun s => s.rstRegion q.mbx dom hold (!hold))

/-! ### Power states (R433 to R438) -/

/-- The conditions of a change of state (R434). -/
def State.drowseOk (s : State) : Bool := !s.dress.any (fun e : Nat × Dressing => e.2.st.holds) && s.bist.active.isEmpty && s.bist.online.isEmpty
def State.sleepOk (s : State) : Bool :=
  s.dress.isEmpty && s.lanes.isEmpty && s.inv.isEmpty && [0, 2, 3].all fun t => (s.tierRuns t).isEmpty

/-- Tiles of benches powered off: their state lost, their tokens free (R435). -/
def State.tilesDown (s : State) (bs : List Nat) : State :=
  let s := { s with rst := { s.rst with tilesOff := bs.foldl sIns s.rst.tilesOff } }
  bs.foldl (fun s b =>
    let ts := benchTiles b
    let s := ts.foldl State.tileDrop s
    let s := (s.zero (lmBase (32 * b)) (32 * 0x80000)).resetRegs (fun a => ts.any fun t => inTileBlock t a) .region
    (s.hold b 0).fset (R.pwrBenchDuty b) 31 21 0) s
/-- Tiles powered up again, with their region defaults, but for those of benches that stay cool. -/
def State.tilesUp (s : State) : State := { s with rst := { s.rst with tilesOff := s.saf.cool } }

/-- Registers that stay through Sleep: those of the steward's blocks, what bring-up has mapped (R22, R24), routes (log entry 29). -/
def sleepKeeps (a : Nat) : Bool :=
  decide (a < 0x3FF000700000) || (decide (0x3FF001000000 ≤ a) && decide (a < 0x3FF002000000))
    || (decide (0x3FF008000000 ≤ a) && decide (a < 0x3FF009000000) && (a - 0x3FF008000000) % 0x10000 == 0)
    || (decide (0x3FF009000000 ≤ a) && decide (a < 0x3FF00A000000) && (a - 0x3FF009000000) % 0x200000 < 16)
    || (decide (0x3FF003100000 ≤ a) && decide (a < 0x3FF003200000))

/-- The saved registers of R436: sync objects, context bases, the context store's, host-tier windows, settings. -/
def savedReg (a : Nat) : Bool :=
  (decide (0x3FF010000000 ≤ a) && decide (a < 0x3FF014000000)) || (decide (0x3FF000810000 ≤ a) && decide (a < 0x3FF000818000))
    || (decide (0x3FF00B000000 ≤ a) && decide (a < 0x3FF00C000000)) || (decide (0x3FF000A01000 ≤ a) && decide (a < 0x3FF000A01800))
def savedSetting (a : Nat) : Bool := (decide (0x3FF000700000 ≤ a) && decide (a < 0x3FF000800000)) || (decide (0x3FF000900000 ≤ a) && decide (a < 0x3FF000A00000))

/-- A register word with every field but the writable ones at its reset value. -/
def settingOf (a : Nat) (v : W64) : W64 :=
  match descAt a with
  | some d => d.flds.foldl (fun v f => if f.acc = .rw then v else setFld v f.hi f.lo f.rst) v
  | none => v

/-- What Sleep saves of the registers. -/
def State.savedRegs (s : State) : Tbl W64 :=
  s.regs.filterMap fun e : Nat × W64 => if savedReg e.1 then some e else if savedSetting e.1 then some (e.1, settingOf e.1 e.2) else none

/-- Steps 4 and 5 of Table 20-4: the save area written (its layout is not stated: log entry 30), its digest kept, the rails off, the command done. -/
def State.sleepDown (s : State) : State :=
  match s.rst.change with
  | none => s
  | some c =>
    let s := s.axFinish c.mbx stDone 0 (p32 2)
    let s := { s with freeCtr := s.freeCtr + 0x100000 }.write c.save (s.freeBytes 0x100000) false
    let sv : SleepSv := { base := c.save, digest := shake256 (s.read c.save 0x100000), regs := s.savedRegs, sync := s.syncCnt, store := s.store, policy := s.policy, expo := s.expo, pools := s.pools }
    let s := (s.planeDrop).memKeep fun a => planeMem a || decide (a < 0x004800000000)
    let s := ((List.range 96).filter fun d => d != 93).foldl (fun s d => s.domOff d) s
    let s := s.resetRegs (fun a => !sleepKeeps a) .hub
    let s := { s with asleep := true, rst := { s.rst with change := none, save := some sv, idle := [], tilesOff := [] } }
    let s := (List.range 6).foldl (fun s t => s.fset (R.hbmStatus t) 29 28 2) s
    let s := ((s.set R.hubClkStatus (setFld (s.get R.hubClkStatus) 16 0 2)).bset R.hubMemStatus 31 false).bset R.hubMemStatus 30 false
    s.bset R.stwPstate 29 (!c.wakeOff)

/-- Steps 2 and 3: the cores halted, the sites told, every line recalled; then down, once the flush has ended. -/
def State.sleepGo (s : State) (c : PChange) : State :=
  let s := { s with rst := { s.rst with change := some { c with going := true } } }.fset R.stwPstate 31 30 2
  let s := (List.range 8).foldl (fun s n => if s.bget (R.siteStatus n) 31 then s.emit (.sideband n sbRstNote 1) else s) s.svcHalt
  let s := s.jobStart { mbx := none } (s.hbmLines fun _ => true) []
  if s.ssJob.isNone then s.sleepDown else s

/-- A change whose conditions are met. -/
def State.changeGo (s : State) (c : PChange) : State :=
  match c.target with
  | .sleep => s.sleepGo c
  | .drowse => (({ s with rst := { s.rst with change := none } }.tilesDown (List.range 68)).fset R.stwPstate 31 30 1).axFinish c.mbx stDone 0 (p32 1)
  | .active => ({ s with rst := { s.rst with change := none } }.tilesUp.fset R.stwPstate 31 30 0).axFinish c.mbx stDone 0 (p32 0)

def State.changeOk (s : State) (c : PChange) : Bool :=
  match c.target with
  | .sleep => s.sleepOk && s.ssJob.isNone
  | .drowse => s.drowseOk
  | .active => true

/-- The steward looks again at a change that waits, or finishes one whose flush has ended (R434, log entry 31). -/
def State.changePoll (s : State) : State :=
  match s.rst.change with
  | none => s
  | some c => if s.asleep then s else if c.going then (if s.ssJob.isNone then s.sleepDown else s) else if s.changeOk c then s.changeGo c else s

/-- PWR_STATE_SET (R434, R438). -/
def State.pwrState (s : State) (m : Nat) (target : PState) (save : Nat) (wakeOff : Bool) : AxR :=
  let c : PChange := { mbx := m, target := target, save := save, wakeOff := wakeOff }
  if s.resetting m then busy s
  else if s.asleep then
    if target = .active then .wait ({ s with rst := { s.rst with change := some c } }.fset R.stwPstate 31 30 3) else refuse s dPowerState
  else if target = .sleep ∧ (save % 0x100000 ≠ 0 ∨ !s.hbmBacked save ∨ !s.hbmBacked (save + 0xFFFFF)) then invalid s
  else if target = .sleep ∧ s.bget R.safStatus 30 then refuse s dPowerState
  else .wait ({ s with rst := { s.rst with change := some c } }.changePoll)
def execPwrStateSet (q : Req) (target : PState) (save : Nat) (s : State) : Outc :=
  run (mbxOk q) (axotte s q 0x0204 fun s => s.pwrState q.mbx target save false)
def execPwrStateSetExpert (q : Req) (target : PState) (save quiesceMs : Nat) (wakeOff : Bool) (s : State) : Outc :=
  run (mbxOk q) (axotte s q 0x8204 fun s => if quiesceMs = 0 ∨ 1000 < quiesceMs then invalid s else s.pwrState q.mbx target save wakeOff)

/-- PWR_STATE_QUIESCE_TIMEOUT (R434). -/
def State.quiesceEnd (s : State) : State :=
  match s.rst.change with
  | none => s
  | some c =>
    if c.going || s.asleep then s
    else if s.changeOk c then s.changeGo c
    else { s with rst := { s.rst with change := none } }.axFinish c.mbx stRefused dState []
def execPwrStateQuiesceTimeout (s : State) : Outc := .next s.quiesceEnd

/-- Rails up again at a Sleep exit: bring-up steps 1, 3 and 4, the stacks out of self-refresh, ports and sites starting. -/
def State.wakeRails (s : State) : State :=
  let s := { s with asleep := false }.set R.hubClkStatus (setFld (s.get R.hubClkStatus) 7 0 0xFD)
  let s := (List.range 96).foldl (fun s d => if d = 93 ∨ poolOf d = 1 then s else s.domOn d) s
  let s := ({ s with ssInv := [0, 1] }.bset R.hubMemStatus 31 false).bset R.hubMemStatus 30 true
  let s := (List.range 6).foldl (fun s t => s.fset (R.hbmStatus t) 29 28 0) s
  let s := (List.range 8).foldl State.siteStart s
  ((List.range 8).foldl State.portStart s).dutyAll

/-- The saved state restored where the digest is equal (Table 20-5, step 3). -/
def State.restore (s : State) (v : SleepSv) : State :=
  if shake256 (s.read v.base 0x100000) = v.digest then
    ({ s with regs := v.regs.foldl (fun (t : Tbl W64) (e : Nat × W64) => tput t e.1 e.2) s.regs, syncCnt := v.sync, store := v.store, policy := v.policy
              expo := v.expo, pools := v.pools }.bset R.stwPstate 28 true).log' 1 1 1 []
  else
    let s := ((s.setMask 0 0xFF).setMask 1 0xFF).set R.tksDevCfg (BitVec.ofNat 64 0x20)
    let s := (List.range 28).foldl (fun s m => { s with regs := tdel s.regs (R.mbxCvec m).addr }) (s.capsUse s.fusedHub s.fusedSite)
    (s.bset R.stwPstate 28 false).log' 0 1 2 []

/-- SLEEP_EXIT (R434, R437): by MOD_WAKE_N, or for a command of a management mailbox; a stack that does not train ends it as a hub reset. -/
def State.sleepExit (s : State) (byPin : Bool) (lowUs : Nat) (ok : BitVec 6) : State :=
  let asked := s.rst.change.isSome
  if !s.asleep || !(if byPin then decide (10 ≤ lowUs) && s.bget R.stwPstate 29 else asked) then s
  else if (List.range 6).any fun t => s.get (R.hbmChmap t) != 0 && !ok.getLsbD t then { s with rst := { s.rst with save := none } }.hubResetGo
  else
    let sv := s.rst.save
    let c := s.rst.change
    let s := { s with rst := { s.rst with save := none, change := none } }.wakeRails
    let s := match sv with | some v => s.restore v | none => s
    let s := s.fset R.stwPstate 31 30 0
    match c with | some c => s.axFinish c.mbx stDone 0 (p32 0) | none => s
def execSleepExit (byPin : Bool) (lowUs : Nat) (stacksOk : BitVec 6) (s : State) : Outc := .next (s.sleepExit byPin lowUs stacksOk)

end Sys2Proof.Machine
end

