-- ==== Sys2Proof/Machine/Boot.lean ====
section
/-! DEFINITION. Bring-up (chapter 18): the steps, what each does, identity, yield, Degraded. -/

namespace Sys2Proof.Machine

abbrev dStepOrder : Nat := 0x20
abbrev dNotAcked : Nat := 0x21
abbrev dShortMismatch : Nat := 0x22

/-! ### Releasing steps (R392) -/

/-- Whether a step is released, done, failed. -/
def State.stepGone (s : State) (n : Nat) : Bool := s.bget R.stwBootStepGo n
def State.stepDoneB (s : State) (n : Nat) : Bool := s.bget R.stwBootStepDone n
def State.stepFailed (s : State) (n : Nat) : Bool := s.bget R.stwBootStepFail n

/-- Prerequisites of Table 18-1. -/
def stepNeeds (n : Nat) : List Nat :=
  match n with
  | 2 => [1]
  | 3 => [2]
  | 4 => [3]
  | 5 => [4]
  | 6 => [4]
  | 7 => [4]
  | 8 => [4]
  | 9 => [5, 6, 7, 8]
  | 10 => [9]
  | _ => []

/-- The device's bring-up state, and whether only identity and self-test are allowed (R395, R477). -/
def State.bootState (s : State) : Nat := s.fget R.stwBootStatus 31 29
def State.isVoid (s : State) : Bool := s.bootState == 5

/-- Why a step may not be released: a detail code of BUP_STEP_GO; none if it may. -/
def State.stepStop (s : State) (n : Nat) : Option Nat :=
  if s.isVoid && [5, 6, 7, 9, 10].contains n then some dState
  else if s.bootState = 4 then some dState
  else if !(stepNeeds n).all s.stepDoneB then some dStepOrder
  else if n = 10 ∧ s.bootState = 2 ∧ !s.bget R.stwBootStatus 27 then some dNotAcked
  else none

/-- One step released; steps 6 and 7 start their sites and ports at once. -/
def State.stepRelease (s : State) (n : Nat) : State :=
  let s := s.bset R.stwBootStepGo n true
  let s := s.fset R.stwBootStatus 3 0 (max n (s.fget R.stwBootStatus 3 0))
  let s := if s.bootState = 0 then s.fset R.stwBootStatus 31 29 1 else s
  if n = 6 then (List.range 8).foldl State.siteStart s
  else if n = 7 then (List.range 8).foldl State.portStart s
  else s

/-- STEP_GO_WRITE (R392). -/
def State.stepGoWr (s : State) (v : W32) : State :=
  ((List.range 10).map (· + 1)).foldl (fun s n =>
    if !nbit v.toNat n || s.stepGone n then s
    else match s.stepStop n with
      | none => s.stepRelease n
      | some d => if d = dState then s else s.bset R.stwBootStatus 28 true) s
def execStepGoWrite (v : W32) (s : State) : Outc := .next (if s.powered && s.bget R.stwStatus 31 then s.stepGoWr v else s)

/-- The payload of BUP_STEP_GO: step_done and step_fail. -/
def State.stepWords (s : State) : List Byte := p32 (s.get R.stwBootStepDone).toNat ++ p32 (s.get R.stwBootStepFail).toNat

/-- Whether every step of a mask is done or failed. -/
def State.stepsOver (s : State) (mask : Nat) : Bool := (List.range 11).all fun n => !nbit mask n || s.stepDoneB n || s.stepFailed n

/-- Mailboxes whose steps are over answered. -/
def State.stepAnswer (s : State) : State :=
  (s.boot.await.filter fun e : Nat × Nat => s.stepsOver e.2).foldl (fun (s : State) (e : Nat × Nat) =>
    ({ s with boot := { s.boot with await := tdel s.boot.await e.1 } }).axFinish e.1 stDone 0 s.stepWords) s

/-- BUP_STEP_GO for a set of steps. -/
def State.stepGoCmd (s : State) (m mask : Nat) : AxR :=
  let new := ((List.range 11).filter fun n => nbit mask n && !s.stepGone n)
  match new.findSome? s.stepStop with
  | some d => refuse s d
  | none =>
    let s := new.foldl State.stepRelease s
    if s.stepsOver mask then .done s 0 s.stepWords
    else .wait { s with boot := { s.boot with await := tput s.boot.await m mask } }

/-- The steps that the basic form releases. -/
def State.basicSteps (s : State) : Nat :=
  match ((List.range 10).map (· + 1)).find? fun n => !s.stepGone n with
  | none => 0
  | some n => if 5 ≤ n ∧ n ≤ 8 then ([5, 6, 7, 8].filter fun k => !s.stepGone k).foldl (fun x k => x + 2 ^ k) 0 else 2 ^ n
def execBupStepGo (q : Req) (s : State) : Outc := run (mbxOk q) (axotte s q 0x0101 fun s => s.stepGoCmd q.mbx s.basicSteps)
def execBupStepGoExpert (q : Req) (mask : Nat) (s : State) : Outc :=
  run (mbxOk q) (axotte s q 0x8101 fun s => if mask = 0 ∨ mask % 2 = 1 ∨ 2048 ≤ mask then invalid s else s.stepGoCmd q.mbx mask)

/-! ### What the steps do (Table 18-1) -/

/-- A step done (R394): its bit, its duration, vector 3. -/
def State.stepDone (s : State) (n us : Nat) : State :=
  (((s.bset R.stwBootStepDone n true).set (R.stwBootTime n) (BitVec.ofNat 64 (us % 2 ^ 32))).msix 3).stepAnswer

/-- A step failed (R394): no further go is accepted. -/
def State.stepFail (s : State) (n : Nat) : State :=
  (((((s.bset R.stwBootStepFail n true).fset R.stwBootStatus 31 29 4).log' 0 1 3 [n])).msix 3).stepAnswer

/-- Words erased at step 2 (R479). -/
def State.prbErase (s : State) (first n : Nat) : State := (List.range n).foldl (fun s i => s.set (R.prbWord (first + i)) 0) s

/-- The erasure at the first step 2 in Scrapped (R479, R443), with every field that no reset short of it restores (R10). -/
def State.scrapWipe (s : State) : State :=
  let s := { s.prbErase 0 1024 with log := [], sec := { s.sec with chains := [], keys := [], wiped := 3 }, prb := { s.prb with count := [] } }
  s.resetRegs (fun _ => true) .kept

/-- Step 2: the life-cycle word takes effect, with the erasures it asks for (R475, R477, R479). -/
def State.lcLoad (s : State) : State :=
  let w := s.fuse.life
  let st := lcState w
  let s := s.set R.secLcStatus (setFld (setFld (setFld (setFld (s.get R.secLcStatus) 31 29 st) 28 26 0) 25 25 0) 15 0 w)
  let s := if st = 2 then
      (if s.sec.wiped = 2 then s else { s.prbErase 0x10 0x70 with sec := { s.sec with chains := [], keys := [], wiped := 2 } }).bset R.secLcStatus 24 true
    else if st = 3 then
      (if s.sec.wiped = 3 then s else s.scrapWipe).bset R.secLcStatus 24 true
    else s
  if st = 3 ∨ st = 7 then s.fset R.stwBootStatus 31 29 5 else s

/-- Step 2: what the persistent block and the site map hold loaded (Table 20-7, R5, R6, R422). -/
def State.fuseLoad (s : State) : State :=
  let s := s.lcLoad
  let ws := [0, 1, 0x74] ++ (List.range 0x200).map (· + 0x200)
  let s := ws.foldl (fun s w => s.prbMirror w (s.prbW w)) s
  let s := (List.range 8).foldl (fun s n =>
    if s.populated n then s.fset (R.siteStatus n) 23 16 (s.siteType n) else s.bset (R.siteStatus n) 27 true) s
  s.planLoad

/-- Step 3: domains on, the pools at the fused caps (R406, R407), set points in force. -/
def State.powerLoad (s : State) : State :=
  let s := (s.poolSet 0 (8 * s.fusedHub) (s.fixedGrant 88 + s.fixedGrant 93)).poolSet 1 (8 * s.fusedSite) 0
  let order := [94, 95, 68, 69] ++ List.range 68 ++ [92, 90, 91] ++ (List.range 6).map (· + 70) ++ (List.range 4).map (· + 84) ++ [89]
  let s := order.foldl State.domOn s
  let s := (List.range 96).foldl (fun s d => if 76 ≤ d ∧ d < 84 then s else s.fset (R.ageMon d) 23 16 (s.setPoint d)) s
  s.dutyAll

/-- Channels of a stack that are out: with two bad, or the stack itself bad, all 32 (R210, R213, R396). -/
def State.chansOut (s : State) (r : StackRes) : Nat :=
  let bad := tgetD s.fuse.badChans r.stack 0 ||| r.badChannels.toNat
  if !r.ok || r.serial != s.get (R.hubIdHbm r.stack) || decide (2 ≤ popcount 32 bad) then 0xFFFFFFFF else bad

/-- Step 5: one stack's outcome; its PHY PLL's lock shows whatever a later step of Table 7-5 found (R213). -/
def State.stackLoad (s : State) (r : StackRes) : State :=
  let out := s.chansOut r
  let fused := tgetD s.fuse.badChans r.stack 0
  let new := popcount 32 (r.badChannels.toNat - (r.badChannels.toNat &&& fused))
  let s := { s with boot := { s.boot with badChans := s.boot.badChans + new } }
  let s := s.set (R.hbmChmap r.stack) (BitVec.ofNat 64 (0xFFFFFFFF - out))
  let s := s.set (R.hbmStatus r.stack) (setFld (setFld (setFld (s.get (R.hbmStatus r.stack)) 31 31 (b2n r.ok)) 30 30 (b2n (out == 0xFFFFFFFF))) 7 0 r.repaired)
  let s := s.bset R.hubClkStatus (2 + r.stack) (r.pll || r.ok)
  if r.serial ≠ s.get (R.hubIdHbm r.stack) then s.log' 0 16 3 [r.stack]
  else if new = 0 then s else s.log' 1 16 4 [r.stack, r.badChannels.toNat]

/-- Step 5: the slot lists, hbm_split and hbm_top (R22, R211). -/
def State.memLoad (s : State) (rs : List StackRes) : State :=
  let s := (List.range 6).foldl (fun s t => s.stackLoad ((rs.find? fun r : StackRes => r.stack == t).getD ⟨t, 0, false, false, 0, 0⟩)) s
  let chans (a : Nat) : Nat := ((List.range 3).map fun i => popcount 32 (s.get (R.hbmChmap (a + i))).toNat).foldl (· + ·) 0
  let n := chans 0
  let m := chans 3
  let s := (s.set R.hubMapHbmSplit (BitVec.ofNat 64 (n * 0x60000000))).set R.hubMapHbmTop (BitVec.ofNat 64 ((n + m) * 0x60000000 - 1))
  let s := s.set R.hubMemStatus (setFld (setFld (setFld (s.get R.hubMemStatus) 30 30 1) 23 16 n) 15 8 m)
  s.set R.regStatus (setFld (setFld (s.get R.regStatus) 15 0 (64 * n)) 31 16 (64 * m))

/-- Whether steps 6 and 7 have met their conditions: every populated site up or held, every port up, down or isolated. -/
def State.sitesSettled (s : State) : Bool := (List.range 8).all fun n => !s.populated n || (s.site n).ph == .up || (s.site n).ph == .held
def State.portsSettled (s : State) : Bool := (List.range 8).all fun p => [psDown, psUp, psIsolated, psHeld].contains (s.pst p)

/-- Failing addresses of a unit among the records of the start-up test (Table 18-7): of a tile's kinds, or of a granule's. -/
def failAddrs (r : StepRes) (kind unit : Nat) : List Nat :=
  (r.fails.filter fun f => nbits f.toNat 47 32 == unit && (if kind = 5 then nbits f.toNat 55 48 == 5 else decide (nbits f.toNat 55 48 ≤ 3))).map fun f => nbits f.toNat 95 64

/-- Step 8: units that the start-up test failed; those the flaw map calls good are logged (R398). -/
def State.bistLoad (s : State) (r : StepRes) : State :=
  let tiles := (r.badTiles ++ r.badBenches.flatMap benchTiles).foldl sIns []
  let new := tiles.filter fun t => !s.fuse.badTiles.contains t
  let cols := r.badColumns.eraseDups
  let s := { s with boot := { s.boot with badTiles := tiles, badCols := cols }
                    bist := { s.bist with done := (0, r.fails.take 4096, decide (4096 < r.fails.length)) :: s.bist.done.filter fun e => e.1 != 0 } }
  let s := new.foldl (fun s t => s.log' 1 1 4 (t :: failAddrs r 0 t)) s
  (cols.filter fun c => !s.fuse.badCols.contains c).foldl (fun (s : State) (c : Nat × Nat) => s.log' 1 15 3 (c.1 :: c.2 :: failAddrs r 5 c.1)) s

/-- Step 9, columns (R199, R200): granules with more than four bad columns disabled, promotion, redirection. -/
def State.colsLoad (s : State) : State :=
  let cols := (s.fuse.badCols ++ s.boot.badCols).eraseDups
  let bad (g : Nat) : Bool := decide (4 < (cols.filter fun c : Nat × Nat => c.1 == g).length)
  (List.range 256).foldl (fun s n =>
    let b := (List.range 8).foldl (fun x g => if bad (8 * n + g) then x + 2 ^ g else x) 0
    if b = 0 then s
    else
      let good := (List.range 8).find? fun g => !nbit b g
      let w := setFld (s.get (R.ssCfg n)) 23 16 b
      let w := if nbit b 0 then match good with | some g => setFld w 15 8 (2 ^ g) | none => setFld w 0 0 1 else w
      s.set (R.ssCfg n) w) s

/-- Step 9: whether a tile is good: neither fused bad, nor failed, nor of a bench at stage 2 of the margin plan (R134, R398, R426). -/
def State.tileGood (s : State) (t : Nat) : Bool :=
  !s.fuse.badTiles.contains t && !s.boot.badTiles.contains t && (s.planOf s.pwr.plan (t / 32)).stage != 2

/-- Tiles enabled, in ascending order (R134): 30 of each bench, then one at a time, bench by bench, up to 2,048. -/
def State.enabled (s : State) : List Nat :=
  let good (b : Nat) : List Nat := (benchTiles b).filter s.tileGood
  let first := (List.range 68).flatMap fun b => (good b).take 30
  let more := (List.range 2).flatMap fun r => (List.range 68).flatMap fun b => ((good b).drop (30 + r)).take 1
  let on := first ++ more.take (2048 - first.length)
  (List.range 2176).filter on.contains

/-- Step 9: the tile map published (R135). -/
def State.mapLoad (s : State) : State :=
  let ts := s.enabled
  let s := { s with l2p := ts }.set R.hubMapTiles (BitVec.ofNat 64 ts.length)
  ts.zipIdx.foldl (fun (s : State) (x : Nat × Nat) =>
    (s.set (R.hubMapL2p x.2) (BitVec.ofNat 64 (2 ^ 31 + x.1))).set (R.hubMapP2l x.1) (BitVec.ofNat 64 (2 ^ 31 + x.2))) s

/-- Sites short under Table 18-4. -/
def State.siteShort (s : State) (n : Nat) : Bool :=
  s.populated n && (decide (popcount 12 (s.fget (R.siteStatus n) 11 0) < 10) || s.bget (R.siteStatus n) 28 || s.bget (R.siteStatus n) 29)

/-- The shortfall word (Table 18-11), and the disagreement word (Table 18-12). -/
def State.shortWord (s : State) : Nat :=
  let chans := (List.range 6).foldl (fun n t => n + popcount 32 (s.get (R.hbmChmap t)).toNat) 0
  (List.range 8).foldl (fun x n => if s.siteShort n then x + 2 ^ (24 + n) else x) 0 + (190 - chans) * 65536 + (2048 - s.l2p.length)
def State.disagreeWord (s : State) : Nat :=
  let tiles := (s.boot.badTiles.filter fun t => !s.fuse.badTiles.contains t).length
  let cols := (s.boot.badCols.filter fun c => !s.fuse.badCols.contains c).length
  min tiles 0xFFF + min cols 0xFFF * 2 ^ 16 + min s.boot.badChans 0xFF * 2 ^ 32 + min s.boot.badLanes 0xFF * 2 ^ 48

/-- Step 9 (R134, R135, R199, R200, R398, R399). -/
def State.mapStep (s : State) : State :=
  let s := s.colsLoad.mapLoad
  let s := s.set R.stwBootDisagree (BitVec.ofNat 64 s.disagreeWord)
  let w := s.shortWord
  if w = 0 then s
  else (((s.set R.stwBootShort (BitVec.ofNat 64 w)).fset R.stwBootStatus 31 29 2).log' 0 1 5 [w]).msix 3

/-- Registers that hold the regulation settings: weights, cong.cfg, each partition's rates, share, ways and limit, each source's partition (R376 to R386). -/
def regSetting (a : Nat) : Bool :=
  let o := a - 0x3FF000700000
  decide (0x3FF000700000 ≤ a) && (o == 0x10 || o == 0x18 || (decide (0x100 ≤ o) && decide (o < 0x500) && decide (o % 0x40 < 0x20)) ||
    (decide (0x1000 ≤ o) && decide (o < 0x1258)))

/-- Step 10: the regulation defaults loaded, the measurements taken, Ready (Table 18-1). -/
def State.readyStep (s : State) (us : Nat) : State :=
  (((s.resetRegs regSetting .hub).fset R.stwBootStatus 31 29 3).stepDone 10 us).measDone

/-- BOOT_STEP_COMPLETE (R394): a released step that has met its condition; what was found is the environment's. -/
def State.stepComplete (s : State) (n : Nat) (r : StepRes) : State :=
  if !s.powered || !s.bget R.stwStatus 31 || s.rst.hub || !s.stepGone n || s.stepDoneB n || s.stepFailed n then s
  else match n with
    | 1 => (s.set R.hubClkStatus (setFld (s.get R.hubClkStatus) 1 0 1)).stepDone 1 r.durUs
    | 2 =>
      if r.obNorth = s.get (R.hubIdOb 0) ∧ r.obSouth = s.get (R.hubIdOb 1) then s.fuseLoad.stepDone 2 r.durUs else s.stepFail 2
    | 3 => s.powerLoad.stepDone 3 r.durUs
    | 4 => ({ s with ssInv := [] }.bset R.hubMemStatus 31 true).stepDone 4 r.durUs
    | 5 => (s.memLoad r.stackRes).stepDone 5 r.durUs
    | 6 => if s.sitesSettled then { s with boot := { s.boot with badLanes := r.badLanes } }.stepDone 6 r.durUs else s
    | 7 => if s.portsSettled then s.stepDone 7 r.durUs else s
    | 8 => (s.bistLoad r).stepDone 8 r.durUs
    | 9 => s.mapStep.stepDone 9 r.durUs
    | 10 => s.readyStep r.durUs
    | _ => s
def execBootStepComplete (n : Nat) (r : StepRes) (s : State) : Outc := run (1 ≤ n && n ≤ 10) (s.stepComplete n r)

/-- Sites whose bring-up has not ended in time are held in reset and logged (R274); ports that have found no partner are down (R306). -/
def State.sitesLate (s : State) : State :=
  (List.range 8).foldl (fun s k => if (s.site k).ph.running && (s.site k).ph != .scrubbing then s.siteHold k dState 12 false else s) s
def State.portsLate (s : State) : State :=
  (List.range 8).foldl (fun s p => if s.pst p = psTraining ∨ s.pst p = psHello then s.setPst p psDown else s) s

/-- BOOT_STEP_TIMEOUT (R394): steps 5 to 8 never fail; what steps 6 and 7 wait for is settled. -/
def State.stepLate (s : State) (n : Nat) : State :=
  if !s.powered || !s.stepGone n || s.stepDoneB n || s.stepFailed n then s
  else if n = 6 then s.sitesLate else if n = 7 then s.portsLate else if n = 5 ∨ n = 8 then s else s.stepFail n
def execBootStepTimeout (n : Nat) (s : State) : Outc := run (1 ≤ n && n ≤ 10) (s.stepLate n)

/-! ### Identity and Degraded (R397, R400) -/

/-- The stw.boot registers. -/
def State.bootRegs (s : State) : List Byte :=
  p32 (s.get R.stwBootStepGo).toNat ++ s.stepWords ++ p32 (s.get R.stwBootStatus).toNat ++ p32 (s.get R.stwBootShort).toNat
    ++ p64 (s.get R.stwBootDisagree).toNat ++ (List.range 10).flatMap fun i => p32 (s.get (R.stwBootTime (i + 1))).toNat
/-- BUP_STATUS. -/
def execBupStatus (q : Req) (s : State) : Outc := run (mbxOk q) (axotte s q 0x0102 fun s => .done s 0 s.bootRegs)

/-- BUP_DEGRADED_ACK. -/
def execBupDegradedAck (q : Req) (word : W32) (s : State) : Outc :=
  run (mbxOk q) (axotte s q 0x8103 fun s =>
    if s.bootState ≠ 2 then refuse s dState
    else if word.toNat ≠ (s.get R.stwBootShort).toNat then refuse s dShortMismatch
    else .done (s.bset R.stwBootStatus 27 true) 0 [])

/-- The identity readout, in the order of R397 (log entry 15). -/
def State.idReadout (s : State) : List Byte :=
  p32 (s.get R.hubIdStepping).toNat ++ p32 (s.get R.hubIdAssembly).toNat ++ p32 (s.get R.hubIdVariant).toNat ++ p32 (s.get R.hubIdPci).toNat
    ++ (List.range 2).flatMap (fun h => p64 (s.get (R.hubIdSerial h)).toNat) ++ (List.range 2).flatMap (fun h => p64 (s.get (R.hubIdOb h)).toNat)
    ++ (List.range 6).flatMap (fun t => p64 (s.get (R.hubIdHbm t)).toNat) ++ p32 (s.get R.hubIdProgramme).toNat ++ p64 (s.get R.hubIdSitemap).toNat
    ++ p32 (s.get R.hubIdGrade).toNat ++ p64 (s.get R.hubIdModule).toNat
    ++ (List.range 8).flatMap (fun n => (List.range 9).flatMap (fun w => p32 (s.get (R.siteId n w)).toNat) ++ p32 (s.get (R.siteStatus n)).toNat)
    ++ p32 (s.get R.stwBootStatus).toNat ++ p32 (s.get R.stwBootShort).toNat ++ p64 (s.get R.stwBootDisagree).toNat
    ++ p16 (s.fget R.hubMapTiles 11 0) ++ (List.range 6).flatMap (fun t => leBytes 1 (popcount 32 (s.get (R.hbmChmap t)).toNat))
    ++ (List.range 8).flatMap (fun n => leBytes 1 (popcount 12 (s.fget (R.siteStatus n) 11 0)))
    ++ leBytes 1 ((List.range 8).filter s.portUp).length
    ++ (List.range 256).flatMap (fun n => leBytes 3 (s.fget (R.ssCfg n) 23 0))
/-- BUP_ID_READ (R397). -/
def execBupIdRead (q : Req) (s : State) : Outc :=
  run (mbxOk q) (axotte s q 0x0104 fun s => if s.stepDoneB 2 then .done s 0 s.idReadout else refuse s dNotReady)

end Sys2Proof.Machine
end

