-- ==== Sys2Proof/Machine/Bist.lean ====
section
/-! DEFINITION. Self-test in service (R402 to R405, R454 to R456) and the conservation audits (R300 to R303). -/

namespace Sys2Proof.Machine

/-! ### The open BIST engine (R403 to R405) -/

/-- The bench of a target: none for a granule. -/
def bistBench (kind unit : Nat) : Option Nat := if kind ≤ 3 then some (unit / 32) else if kind = 4 then some unit else none

/-- Whether a target exists (Table 18-5). -/
def bistUnitOk (kind unit : Nat) : Bool :=
  decide (1 ≤ kind) && decide (kind ≤ 5) && decide (unit < if kind ≤ 3 then 2176 else if kind = 4 then 68 else 2048)

/-- Whether a target meets its condition (R403). -/
def State.bistFree (s : State) (kind unit : Nat) : Bool :=
  if kind ≤ 3 then (s.dressOf unit).isNone
  else if kind = 4 then (benchTiles unit).all fun t => (s.dressOf t).isNone
  else s.scrBacked (granBase (unit / 8) (unit % 8)) && !(tgetD s.store.pools 0 []).any fun r => decide (r.1 / 16 ≤ unit) && decide (16 * unit < r.1 + r.2)

/-- Whether a run tests a target already, or tiles of it (log entry 33). -/
def State.bistTaken (s : State) (kind unit : Nat) : Bool :=
  let covers (a : BistA) : Bool := a.kind == kind && a.unit == unit || (if kind ≤ 3 then a.kind == 4 && a.unit == unit / 32 || decide (a.kind ≤ 3) && a.unit == unit
    else kind == 4 && decide (a.kind ≤ 3) && a.unit / 32 == unit)
  s.bist.active.any fun e => covers e.2

/-- DIAG_BIST_RUN (R403, R455, Table 18-8): a run begins; its command is done when it ends. -/
def State.bistRun (s : State) (m kind unit : Nat) (stop : Bool) : AxR :=
  let b := bistBench kind unit
  if s.asleep || s.fget R.stwPstate 31 30 == 1 then refuse s dPowerState
  else if s.bootState ≠ 2 ∧ s.bootState ≠ 3 then (if s.stepGone 8 && !s.stepDoneB 8 then busy s else refuse s dNotReady)
  else if !s.bistFree kind unit then refuse s dState
  else if !s.bist.online.isEmpty then busy s
  else if s.bistTaken kind unit || (match b with | some b => decide (8 ≤ s.bistBenches.length) && !s.bistBenches.contains b | none => false) then
    .again s.drew (s.free.toNat % 65536)
  else
    let n := s.bist.next
    .wait { s with bist := { s.bist with next := n + 1, active := tput s.bist.active n { kind := kind, unit := unit, bench := b, mbx := some m, stop := stop } } }
def execDiagBistRun (q : Req) (kind unit : Nat) (s : State) : Outc :=
  run (mbxOk q) (axotte s q 0x0801 fun s => if !bistUnitOk kind unit then invalid s else s.bistRun q.mbx kind unit false)
def execDiagBistRunExpert (q : Req) (kind unit bg : Nat) (elems : List (BitVec 16)) (lo hi patterns : Nat) (seed : W32) (stop : Bool) (s : State) : Outc :=
  run (mbxOk q) (axotte s q 0x8801 fun s =>
    let march := kind == 2 || kind == 3 || kind == 5
    if !bistUnitOk kind unit || seed.toNat ≥ 2 ^ 32 || (march && (bg == 0 || decide (16 ≤ bg))) || decide (8 < elems.length) || elems.any (fun e => nbits e.toNat 11 8 != 0)
      || (kind == 2 && (decide (hi < lo) || decide (0x7FFF < hi))) || ((kind == 1 || kind == 4) && (patterns == 0 || decide (2 ^ 20 < patterns))) then invalid s
    else s.bistRun q.mbx kind unit stop)

/-- A tile that failed a self-test (R404, R456): a context that holds it is killed (R157), and it is isolated until the next hub reset, counted, a
detection of code 0x7. -/
def State.bistFail (s : State) (t : Nat) : State :=
  let s := s.killTilesOf [t]
  let s := ((s.isoSet t 1).bset (R.safObist (t / 32)) 30 true).bump R.safCntObistFail 32 1
  s.detect 7 (t / 32) (t % 32) false

/-- A run's records kept: those of the last 16 DIAG runs, at most 256 of each (R405). -/
def State.bistKeep (s : State) (n : Nat) (rs : List (BitVec 256)) : State :=
  let other := s.bist.done.filter fun (e : Nat × List (BitVec 256) × Bool) => e.1 == 0 || e.1 == 0xFFFFFFFF
  let runs := (s.bist.done.filter fun (e : Nat × List (BitVec 256) × Bool) => e.1 != 0 && e.1 != 0xFFFFFFFF) ++ [(n, rs.take 256, decide (256 < rs.length))]
  { s with bist := { s.bist with done := other ++ runs.drop (runs.length - 16) } }

/-- DIAG_BIST_RESULT (R405): the overflow flag, the number of records and the records that the window holds. -/
def execDiagBistResult (q : Req) (run' : Nat) (s : State) : Outc :=
  run (mbxOk q) (axotte s q 0x0802 fun s =>
    match s.bist.done.find? fun (e : Nat × List (BitVec 256) × Bool) => e.1 == run' with
    | none => invalid s
    | some e => .done s 0 (p16 (b2n e.2.2) ++ p16 e.2.1.length ++ e.2.1.flatMap fun r => leBytes 32 r.toNat))

/-! ### Online BIST (R454 to R456) -/

/-- The tiles of a bench that a round tests: enabled, reserved by no handle, not isolated. -/
def State.benchTest (s : State) (b : Nat) : List Nat :=
  if s.tilesOn b then (benchTiles b).filter fun t => s.l2p.contains t && (s.reservedBy t).isNone && !s.isolated.contains t else []

/-- Benches put under test while places are free; those under a DIAG run and those beyond the eighth wait (R402, R455). -/
def State.benchesGo (s : State) (want : List Nat) : State :=
  let bs := want.eraseDups.filter fun b => !(s.benchTest b).isEmpty
  let busy := s.bistBenches
  let can := (bs.filter fun b => !busy.contains b).take (8 - busy.length)
  let ts := can.flatMap s.benchTest
  let s := { s with bist := { s.bist with online := s.bist.online ++ ts, waitB := bs.filter fun b => !can.contains b } }
  can.foldl (fun s b => s.bset (R.safObist b) 31 true) s

/-- Benches that wait are tested once a place frees, but in a warning. -/
def State.benchesNext (s : State) : State := if s.bist.waitB.isEmpty || s.bget R.pwrSupplyStatus 31 then s else s.benchesGo s.bist.waitB

/-- DIAG_BIST_COMPLETE (R403, R404): memory left at zero; failures isolate tiles, or are logged; a place frees (R455). -/
def State.bistEnd (s : State) (n : Nat) (fails : List (BitVec 256)) : State :=
  match tget s.bist.active n with
  | none => s
  | some a =>
    let rs := if a.stop then fails.take 1 else fails
    let s := { s with bist := { s.bist with active := tdel s.bist.active n } }.bistKeep n rs
    let s := if a.kind ≤ 3 then s.zero (lmBase a.unit) 0x80000
      else if a.kind = 4 then s.zero (lmBase (32 * a.unit)) (32 * 0x80000)
      else s.zero (granBase (a.unit / 8) (a.unit % 8)) 0x100000
    let s := if fails.isEmpty then s
      else if a.kind ≤ 3 then s.bistFail a.unit
      else if a.kind = 4 then (benchTiles a.unit).foldl State.bistFail s
      else s.log' 1 15 4 [a.unit]
    let s := s.benchesNext
    match a.mbx with | some m => s.axFinish m stDone 0 (p32 n) | none => s
def execDiagBistComplete (run' : Nat) (fails : List (BitVec 256)) (s : State) : Outc := .next (s.bistEnd run' fails)

/-- A round begins, but in a warning, when it waits for recovery (R455). -/
def State.roundGo (s : State) (r : Nat) : State :=
  let s := s.fset R.safStatus 19 16 r
  if s.bget R.pwrSupplyStatus 31 then { s with bist := { s.bist with stopped := true } }
  else { s with bist := { s.bist with stopped := false } }.benchesGo (s.bist.waitB ++ (List.range 68).filter fun b => b % 9 == r)

/-- The record of a failure online: run, unit and kind; the rest is what the test found (free, log entry 3). -/
def State.onlineRec (s : State) (t : Nat) : BitVec 256 :=
  BitVec.ofNat 256 (0xFFFFFFFF + t * 2 ^ 32 + 2 ^ 48 + leNat (s.freeBytes 25) * 2 ^ 56)

/-- A round ends: tested memory is zero, failures isolate (R456), the ages of its benches are 0. -/
def State.roundEnd (s : State) (fails : List Nat) : State :=
  let ts := s.bist.online
  let s := { s with bist := { s.bist with online := [] } }
  let s := ts.foldl (fun s t => s.zero (lmBase t) 0x80000) s
  let s := (((ts.map (· / 32)).eraseDups)).foldl (fun s b => (s.bset (R.safObist b) 31 false).fset (R.safObist b) 15 0 0) s
  let s := (ts.filter fails.contains).foldl (fun s t =>
    let old := ((s.bist.done.find? fun (e : Nat × List (BitVec 256) × Bool) => e.1 == 0xFFFFFFFF).map fun e => e.2.1).getD []
    let rs := old ++ [s.onlineRec t]
    { s with freeCtr := s.freeCtr + 25
             bist := { s.bist with done := (s.bist.done.filter fun (e : Nat × List (BitVec 256) × Bool) => e.1 != 0xFFFFFFFF) ++ [(0xFFFFFFFF, rs.take 256, decide (256 < rs.length))] } }.bistFail t) s
  s.benchesNext

/-- ONLINE_BIST_ROUND (R454): one command begins a round, a second later's ages counted, the next ends it with what failed (log entry 33). -/
def State.onlineRound (s : State) (r : Nat) (fails : List Nat) : State :=
  if s.bootState ≠ 2 ∧ s.bootState ≠ 3 ∨ !s.bget R.stwStatus 31 ∨ s.asleep then s
  else if !s.bist.online.isEmpty then s.roundEnd fails
  else ((List.range 68).foldl (fun s b => s.fset (R.safObist b) 15 0 (satInc 16 (s.fget (R.safObist b) 15 0) 1)) s).roundGo r
def execOnlineBistRound (round : Nat) (fails : List Nat) (s : State) : Outc := run (round < 9) (s.onlineRound round fails)

/-- BIST_ROUND_RESTART (R455, Table 18-8). -/
def execBistRoundRestart (s : State) : Outc :=
  .next (if s.bist.stopped && !s.bget R.pwrSupplyStatus 31 then s.roundGo (s.fget R.safStatus 19 16) else s)

/-- DATAPATH_RETEST (R447). -/
def State.retest (s : State) (t : Nat) (pass : Bool) : State :=
  if !nbit (tgetD s.saf.why t 0) 0 || (s.reservedBy t).isSome then s
  else if !pass then s.bistFail t
  else if (s.tile t).dpFaults = 1 ∧ !(s.tile t).dpInjected then s.isoClear t 0
  else s
def execDatapathRetest (t : Nat) (pass : Bool) (s : State) : Outc := run (t < 2176) (s.retest t pass)

/-! ### Audits (R300 to R303) -/

/-- FAB_SYNC_AUDIT: received, performed, queued and acknowledgements of a half; none is queued between commands. The sums checked: operations, and
acknowledgements against writes and Atomics; an uncorrectable error in the half's queue is met (R300, R301). -/
def State.syncAudit (s : State) (h : Nat) : List Byte :=
  let c := tgetD s.syncCnt h {}
  p64 c.received ++ p64 c.performed ++ p64 (c.received - c.performed) ++ p64 c.acked
def State.syncCheck (s : State) (h : Nat) : State :=
  let c := tgetD s.syncCnt h {}
  let s := if s.countUe 5 h then s.countMet 5 h else s
  if c.received < c.performed then s.breach 5 h ((c.performed : Int) - c.received) false
  else if c.acked ≠ c.writes then s.breach 5 h ((c.writes : Int) - c.acked) false
  else s
def execFabSyncAudit (q : Req) (half : Nat) (s : State) : Outc :=
  run (mbxOk q) (axotte s q 0x040A fun s =>
    if half < 2 then .done (s.syncCheck half) 0 (s.syncAudit half)
    else if half = 0xFF then .done ((s.syncCheck 0).syncCheck 1) 0 (s.syncAudit 0 ++ s.syncAudit 1)
    else invalid s)

/-- The credits a stream's producer holds: those of a tile's output port, of a hoist lane; a chiplet's are not the hub's to read. -/
def State.prodHeld (s : State) (h : Nat) (d : Dressing) (x : DStream) : Nat :=
  if nbits x.prod 31 28 = 1 then s.fget (R.tileSoutStat (s.dtile d (nbits x.prod 10 0)) (nbits x.prod 17 16)) 12 0
  else if nbits x.prod 31 28 = 4 then
    match s.lanes.find? (fun e => e.2.handle == h && e.2.tag == nbits x.prod 15 0) with | some (_, l) => s.laneCredits l | none => 0
  else 0

/-- Capacity, occupancy, credits_out and the producer's credits of a stream; of a chiplet consumer the hub holds what it granted alone (log entry 132). -/
def State.creditSums (s : State) (h : Nat) (d : Dressing) (x : DStream) : Nat × Nat × Nat × Nat :=
  if nbits x.cons 31 28 = 2 then
    let t := s.dtile d (nbits x.cons 10 0)
    let p := nbits x.cons 17 16
    (x.cap, s.fget (R.tileSinStat t p) 28 16, s.fget (R.tileSinStat t p) 12 0, s.prodHeld h d x)
  else (x.grant, 0, x.grant, s.prodHeld h d x)

/-- The unit code of a stream in hub.cons.status (Table 12-6). -/
def State.streamUnit (s : State) (d : Dressing) (x : DStream) : Nat :=
  if nbits x.cons 31 28 = 2 then 4 * s.dtile d (nbits x.cons 10 0) + nbits x.cons 17 16 else 0xF000 + nbits x.cons 18 16

/-- FAB_CREDIT_AUDIT: a stream whose sums do not fit is a breach, and its context is killed (Table 12-4). -/
def State.creditCheck (s : State) (h : Nat) (d : Dressing) (x : DStream) : State :=
  let (cap, occ, out, held) := s.creditSums h d x
  if s.countUe 4 (s.streamUnit d x) then (s.countMet 4 (s.streamUnit d x)).killCtx d.ctx none
  else if d.st = .active ∧ (occ + out ≠ cap ∨ out < held ∨ cap < out - held) then
    (s.breach 4 (s.streamUnit d x) ((cap : Int) - (occ + out : Nat)) false).killCtx d.ctx none
  else s
def execFabCreditAudit (q : Req) (h : Nat) (s : State) : Outc :=
  run (mbxOk q) (axotte s q 0x040B fun s =>
    onHandle s h fun d =>
      let bytes := d.streams.flatMap fun x => let (a, b, c, e) := s.creditSums h d x; p16 a ++ p16 b ++ p16 c ++ p16 e
      .done (d.streams.foldl (fun s x => s.creditCheck h d x) s) 0 bytes)

/-- Whether a bench has a link: a mesh link, the edge port of rows 0 and 3, the side port of columns 0 and 16 (R13, R96). -/
def linkReal (b l : Nat) : Bool :=
  (linkTo b l).isSome || (l == 4 && (b / 17 == 0 || b / 17 == 3)) || (l == 5 && (b % 17 == 0 || b % 17 == 16))

/-- Pools of a mesh link: each traffic class with each message class (R97, R248), and the two stream channels (R143). -/
abbrev meshPools : Nat := 18

/-- Credits that the sender of a mesh link holds for a pool: the grant, but for what a check has found (Table 12-1). -/
def State.meshCred (s : State) (b l pool : Nat) : Nat := tgetD s.meshHeld (32 * (6 * b + l) + pool) (Config.meshGrant pool)

/-- The action on a breach of mesh link credits (Table 12-4): the bench at the receiving end is reset, which re-establishes the count; for a seam crossing the
seam bridge is. -/
def State.meshAct (s : State) (b l : Nat) : State :=
  if linkSeam b l then s.regionGo 92 none false
  else s.regionGo ((linkTo b l).getD b) none false

/-- MESH_CREDIT_IDLE_CHECK (R300, R301, Table 12-4): `found` credits at the sender of an idle pool against the grant. -/
def State.meshCheck (s : State) (b l pool found : Nat) : State :=
  let g := Config.meshGrant pool
  if s.countUe 1 (6 * b + l) then (s.countMet 1 (6 * b + l)).meshAct b l
  else
    let s := { s with meshHeld := tset s.meshHeld (32 * (6 * b + l) + pool) g found }
    if found = g then s else (s.breach 1 (6 * b + l) ((g : Int) - found) false).meshAct b l
def execMeshCreditIdleCheck (bench link pool found : Nat) (s : State) : Outc :=
  run (bench < 68 && link < 6 && linkReal bench link && pool < meshPools) (s.meshCheck bench link pool found)

/-- UCIE_CREDIT_IDLE_CHECK (R300, Table 12-4): a pool of a module or of a port that has been idle. -/
def State.linkCheck (s : State) (tukosen : Bool) (unit pool found : Nat) : State :=
  if tukosen then
    let g := tgetD (s.port unit).cap pool 0
    if s.countUe 3 unit then (s.countMet 3 unit).portReset unit else
    if !s.portUp unit || found = g then s else (s.breach 3 unit ((g : Int) - found) false).portReset unit
  else
    let g := s.chipGrant (unit / 12) pool
    if s.countUe 2 unit then (s.countMet 2 unit).ucieReset (unit / 12) else
    if !s.modUp (unit / 12) (unit % 12) || found = g then s else s.ucieBreach (unit / 12) (unit % 12) ((g : Int) - found)
def execUcieCreditIdleCheck (tukosen : Bool) (unit pool found : Nat) (s : State) : Outc :=
  run (unit < (if tukosen then 8 else 96) && pool < (if tukosen then 16 else 11)) (s.linkCheck tukosen unit pool found)

/-- Whether a pool of a module, of a port, is idle at the snapshot: every credit of its grant is back, and nothing waits for one (R303). -/
def State.modIdle (s : State) (k p : Nat) : Bool := tgetD (s.mod k).cred p 0 == s.chipGrant (k / 12) p && !(s.mod k).waiting.any fun e => e.1 == p
def State.portIdle (s : State) (k p : Nat) : Bool :=
  tgetD (s.port k).cells p 0 == tgetD (s.port k).cap p 0 && !(s.port k).queue.any fun e => framePool e.f == p

/-- Grant, held and idle flag of every pool of a link: kind 0 mesh, 1 UCIe, 2 Tukosen (log entry 15). Between commands nothing moves on the mesh (log entry
144). -/
def State.linkAudit (s : State) (kind idx : Nat) : List Byte :=
  match kind with
  | 0 => (List.range meshPools).flatMap fun p => p16 (Config.meshGrant p) ++ p16 (s.meshCred (idx / 6) (idx % 6) p) ++ p16 1
  | 1 => (List.range 11).flatMap fun p => p16 (s.chipGrant (idx / 12) p) ++ p16 (tgetD (s.mod idx).cred p 0) ++ p16 (b2n (s.modIdle idx p))
  | _ => (List.range 16).flatMap fun p => p16 (tgetD (s.port idx).cap p 0) ++ p16 (tgetD (s.port idx).cells p 0) ++ p16 (b2n (s.portIdle idx p))

/-- DIAG_LINK_AUDIT (R303). -/
def execDiagLinkAudit (q : Req) (kind idx : Nat) (s : State) : Outc :=
  run (mbxOk q) (axotte s q 0x0810 fun s =>
    if 3 ≤ kind || decide ([68 * 6, 96, 8].getD kind 0 ≤ idx) || (kind == 0 && !linkReal (idx / 6) (idx % 6)) then invalid s
    else .done s 0 (s.linkAudit kind idx))

end Sys2Proof.Machine
end

