-- ==== Sys2Proof/Machine/Saf.lean ====
section
/-! DEFINITION. Functional safety (chapter 21): safe states, sensors, coolant, lockstep, the watchdog, fault injection. -/

namespace Sys2Proof.Machine

/-! ### Bench cool (R448, R449) -/

/-- A bench enters bench cool under a code (Table 21-2): the safety limiter at once, its contexts killed, its tiles off and isolated. The third time in one
hour, or under code 0x9, it stays until the next hub reset. -/
def State.coolGo (s : State) (b mech sensor : Nat) (injected : Bool) : State :=
  if s.saf.cool.contains b then s
  else
    let now := s.get R.hubTimeCount
    let es := if injected then tgetD s.saf.entered b [] else tgetD s.saf.entered b [] ++ [now]
    let near := (es.filter fun t => decide ((now - t).toNat ≤ 3600000 * s.tclkMs)).length
    let latch := !injected && (mech == 9 || decide (3 ≤ near))
    let s := { s with saf := { s.saf with cool := sIns s.saf.cool b, entered := tput s.saf.entered b es, latched := if latch then sIns s.saf.latched b else s.saf.latched }
                      pwr := { s.pwr with safety := sIns s.pwr.safety b } }.setDuty b
    let s := (s.detect mech b sensor injected).killTilesOf (benchTiles b)
    (benchTiles b).foldl (fun s t => s.isoSet t 2) (s.tilesDown [b])

/-- A detection of the hold kept for the steward's restart, the first of its domain (R452). -/
def State.armAt (s : State) (d mech sensor : Nat) : State :=
  if s.saf.armed.any (fun e => e.1 == d) then s else { s with saf := { s.saf with armed := s.saf.armed ++ [(d, mech, sensor)] } }

/-- A detection at a bench's sensors (R448): in the hold the limiter alone is set, and the rest waits for the steward (R452). -/
def State.benchCool (s : State) (b mech sensor : Nat) (injected : Bool) : State :=
  if s.bget R.safStatus 29 && !injected then
    { s.armAt b mech sensor with pwr := { s.pwr with safety := sIns s.pwr.safety b } }.setDuty b
  else s.coolGo b mech sensor injected

/-- A bench leaves bench cool: tiles up, limiter cleared, isolation lifted. -/
def State.coolExit (s : State) (b : Nat) : State :=
  let s := { s with saf := { s.saf with cool := sDel s.saf.cool b }
                    pwr := { s.pwr with safety := sDel s.pwr.safety b }
                    rst := { s.rst with tilesOff := if s.fget R.stwPstate 31 30 = 1 then s.rst.tilesOff else sDel s.rst.tilesOff b } }
  ((benchTiles b).foldl (fun s t => s.isoClear t 2) s).setDuty b
/-- BENCH_COOL_EXIT. -/
def execBenchCoolExit (bench belowMs : Nat) (s : State) : Outc :=
  run (bench < 68) (if s.saf.cool.contains bench && !s.saf.latched.contains bench && decide (1000 ≤ belowMs)
    && decide (s.fget (R.pwrBenchTemp bench) 7 0 < 90) && decide (s.fget (R.pwrBenchTemp bench) 15 8 < 90) then s.coolExit bench else s)

/-- One sensor's reading (R448): five in a row at or above 105 °C, or one out of range, are a detection. The field holds 0 to 255 °C. -/
def State.sensor (s : State) (b i : Nat) (t : Int) : State :=
  let s := s.fset (R.pwrBenchTemp b) (8 * i + 7) (8 * i) (min 255 t.toNat)
  let k := 2 * b + i
  if t < -20 ∨ 150 < t then s.benchCool b 9 i false
  else
    let n := if 105 ≤ t then tgetD s.saf.hotRun k 0 + 1 else 0
    let s := { s with saf := { s.saf with hotRun := tset s.saf.hotRun k 0 (min n 5) } }
    if 5 ≤ n then s.benchCool b 3 i false else s
/-- BENCH_SENSOR_READ. -/
def execBenchSensorRead (bench : Nat) (t0 t1 : Int) (s : State) : Outc :=
  run (bench < 68) (if s.domUp bench then (s.sensor bench 0 t0).sensor bench 1 t1 else s)
/-- SENSOR_REFRESH_TIMEOUT. -/
def execSensorRefreshTimeout (bench sensor : Nat) (s : State) : Outc :=
  run (bench < 68 && sensor < 2) (if s.domUp bench then s.benchCool bench 9 sensor false else s)

/-! ### Device cool (R450) -/

/-- Every context that a unit could run in. -/
def State.allCtxs (s : State) : List Nat :=
  ((s.dress.map fun e : Nat × Dressing => e.2.ctx) ++ (s.lanes.map fun e : Nat × Lane => e.2.ctx)
    ++ (List.range 4096).filter fun c => s.bget (R.xltCtx c) 63).eraseDups

/-- Device cool (Table 21-2), in force until a hub reset; a Sleep entry under way is refused (Table 21-6). -/
def State.deviceCool (s : State) : State :=
  let s : State := match s.rst.change with
    | some c => if c.target = PState.sleep then State.axFinish (State.fset { s with rst := { s.rst with change := none } } R.stwPstate 31 30 0) c.mbx stRefused dPowerState [] else s
    | none => s
  let s := s.allCtxs.foldl (fun s c => s.killCtx c none) s
  let s := s.svcHalt.bset R.safStatus 30 true
  let s := (List.range 8).foldl (fun s n =>
    if s.populated n then (((s.siteFence n).bset (R.siteStatus n) 31 false).bset (R.siteStatus n) 30 true).modSite n fun x => { x with ph := .off, sent := [] } else s) s
  let s := s.tilesDown (List.range 68)
  let s := (List.range 68 ++ (List.range 8).map (· + 76) ++ (List.range 4).map (· + 84) ++ [89, 90, 91]).foldl State.domOff s
  let s := (List.range 8).foldl State.portReset s
  (List.range 6).foldl (fun s t => s.fset (R.hbmStatus t) 29 28 2) s

/-- FLOW_OK_SAMPLE (R450): from bring-up step 3 on. -/
def State.flow (s : State) (level : Bool) : State :=
  if !s.stepDoneB 3 then s
  else
    let n := if level then 0 else s.saf.flowLow + 1
    let s := { s with saf := { s.saf with flowLow := min n 50 } }.bset R.safStatus 31 level
    if n = 50 ∧ !s.bget R.safStatus 30 then
      if s.bget R.safStatus 29 then s.armAt 93 4 0
      else (s.detect 4 93 0 false).deviceCool
    else s
def execFlowOkSample (level : Bool) (s : State) : Outc := .next (s.flow level)

/-! ### Lockstep (R345, R452, R453) -/

/-- What awaited the end of a command of the mailboxes that `p` picks forgets it: its issuer has been answered, and its effects stand. -/
def State.forgetCmds (s : State) (p : Nat → Bool) : State :=
  let w (x : Purp) : Purp := match x with
    | .grant m n => if p m then .noone else .grant m n
    | .giveBack m => if p m then .noone else .giveBack m
    | .ping m i => if p m then .noone else .ping m i
    | x => x
  let o (m : Option Nat) : Option Nat := match m with | some m => if p m then none else some m | none => none
  { s with
    dress := s.dress.map fun e : Nat × Dressing => (e.1, { e.2 with mbx := o e.2.mbx })
    ssJob := s.ssJob.map fun j : SsJob => { j with mbx := o j.mbx }
    inv := s.inv.map fun e : Nat × InvRec => (e.1, { e.2 with clear := e.2.clear.map fun m => if p m then 28 else m })
    sites := s.sites.map fun e : Nat × SiteSt => (e.1, { e.2 with mbx := o e.2.mbx })
    tksReq := s.tksReq.map fun e : Nat × TReq => (e.1, { e.2 with why := w e.2.why })
    store := { s.store with appends := s.store.appends.filter fun a : AppendW => !p a.mbx }
    pings := s.pings.filter fun e : Nat × PingW => !p e.1
    boot := { s.boot with await := s.boot.await.filter fun e : Nat × Nat => !p e.1 }
    bist := { s.bist with active := s.bist.active.map fun e : Nat × BistA => (e.1, { e.2 with mbx := o e.2.mbx }) }
    pwr := { s.pwr with replan := s.pwr.replan.map (fun r : Replan => { r with mbx := o r.mbx }), replanHeld := s.pwr.replanHeld.map (fun r : Replan => { r with mbx := o r.mbx }) }
    rst := { s.rst with region := s.rst.region.map (fun e : Nat × (Option Nat × Bool) => (e.1, (o e.2.1, e.2.2)))
                        change := match s.rst.change with | some c => if p c.mbx && !s.asleep then none else some c | none => none }
    prb := { s.prb with jobs := s.prb.jobs.filter fun e : Nat × PJob => decide (28 ≤ e.1) || !p e.1 }
    sec := { s.sec with burn := match s.sec.burn with | some b => if !p b.mbx then some b else if b.done = 0 then none else some { b with mbx := 28 } | none => none } }

/-- The hold (R452): every bench's safety limiter at 0, lanes and grants frozen; the steward restarts, and a step in progress has failed. -/
def State.lockstep (s : State) (sinceUs : Nat) (injected : Bool) : State :=
  let again := decide ((s.get R.stwRestarts).toNat ≠ 0) && decide (sinceUs < 10000000)
  let s := ({ s with saf := { s.saf with injected := injected } }.bset R.safStatus 29 true).dutyAll
  let s := (s.bset R.stwStatus 31 false).bset R.stwStatus 30 (!again)
  let s := { s with boot := { s.boot with await := [] } }
  ((List.range 11).filter fun n => s.stepGone n && !s.stepDoneB n && !s.stepFailed n).foldl State.stepFail s
/-- LOCKSTEP_MISMATCH: a second one within 10 s of a restart keeps the hold. -/
def execLockstepMismatch (sinceRestartUs : Nat) (s : State) : Outc :=
  .next (if s.powered && s.bget R.stwStatus 31 then s.lockstep sinceRestartUs false else s)

/-- Reactions that waited for the steward complete (R452). -/
def State.armedGo (s : State) : State :=
  s.saf.armed.foldl (fun (s : State) (e : Nat × Nat × Nat) => if e.2.1 = 4 then (s.detect 4 93 0 false).deviceCool else s.coolGo e.1 e.2.1 e.2.2 false)
    { s with saf := { s.saf with armed := [] } }

/-- STEWARD_RESTART_COMPLETE (R345, R446, R452, R470, R482): the mismatch recorded, but for a restart that activates firmware; accepted commands end RESTARTED; a pending image that asked for it is active; the
hold is released. -/
def State.restarted (s : State) : State :=
  let s := ((s.bset R.stwStatus 30 false).bset R.stwStatus 31 true).bump R.stwRestarts 32 1
  let s := if s.bget R.secFwStatus 31 && s.sec.fwNow then s else s.detect 2 93 0 s.saf.injected
  let s := (s.handFail stRestarted).forgetCmds fun _ => true
  let s := (List.range 28).foldl (fun s m => if (s.box m).begun then s.axFinish m stRestarted 0 [] else s) s
  let s := (s.bset R.safStatus 29 false).dutyAll.armedGo
  let s := (List.range 64).foldl (fun s n => (List.range 8).foldl (fun s j => s.lanePush n j) s) s
  (if s.bget R.secFwStatus 31 && s.sec.fwNow then { s.fwActivate with sec := { s.fwActivate.sec with fwNow := false } } else s).heldFlush
def execStewardRestartComplete (s : State) : Outc := .next (if s.powered && s.bget R.stwStatus 30 then s.restarted else s)

/-- HEARTBEAT_TICK (R446, R434, R475, R457): the steward's turn, every 10 ms. -/
def execHeartbeatTick (s : State) : Outc :=
  .next (if s.powered && s.bget R.stwStatus 31 then
    ((s.set R.safHeartbeat (BitVec.ofNat 64 (((s.get R.safHeartbeat).toNat + 1) % 2 ^ 32))).changePoll).burnTick.duePump else s)

/-! ### The watchdog (R458, Table 21-3) -/

/-- Whether time of a bench's agents runs: its duty is not 0 and there is no hold. -/
def State.wdogRuns (s : State) (b ms : Nat) : Bool :=
  decide (s.fget R.safWdogCfg 5 0 ≤ ms) && decide (s.fget (R.pwrBenchDuty b) 20 16 ≠ 0) && !s.bget R.safStatus 29

/-- A tile stalled as Table 21-3 names. -/
def State.seqStuck (s : State) (t : Nat) : Bool :=
  let c := s.fget (R.tileSeqStatus t) 27 24
  s.bget (R.tileSeqStatus t) 31 && (c == 5 || c == 6 || c == 8 || (c == 7 && !s.bget (R.tileWdog t) 0))

/-- WATCHDOG_EXPIRY: kind 0 a sequencer, 1 a DMA channel, 2 a hoist lane, 3 a mesh link pool of a receiving bench. -/
def State.watchdog (s : State) (kind unit idx ms : Nat) : State :=
  match kind with
  | 0 => if s.seqStuck unit && s.wdogRuns (unit / 32) ms then (s.detect 8 (unit / 32) (unit % 32) false).kill unit 0x0F 2 0 0 else s
  | 1 =>
    if (tget (s.tile unit).dma idx).isSome && s.wdogRuns (unit / 32) ms then (s.detect 8 (unit / 32) (unit % 32) false).kill unit 0x0F 3 idx 0 else s
  | 2 =>
    match tget s.lanes (8 * unit + idx) with
    | some l =>
      if s.ringHead unit idx ≠ s.ringTail unit idx ∧ s.wdogRuns (l.ptile / 32) ms then (s.detect 8 (90 + unit / 32) (8 * unit % 256 + idx) false).killCtx l.ctx none else s
    | none => s
  | _ => if s.wdogRuns unit ms then (s.detect 8 unit idx false).regionGo unit none false else s
def execWatchdogExpiry (kind unit : Nat) (idx ms : Nat) (s : State) : Outc :=
  run (kind < 4 && unit < ([2176, 2176, 64, 68].getD kind 0) && idx < 8) (s.watchdog kind unit idx ms)

/-! ### Commands (R465, Table 21-7) -/

/-- DIAG_SAFETY_STATUS. -/
def execDiagSafetyStatus (q : Req) (s : State) : Outc :=
  run (mbxOk q) (axotte s q 0x0804 fun s =>
    .done s 0 (p32 (s.get R.safStatus).toNat ++ p32 (s.get R.safHeartbeat).toNat ++ p32 (s.get R.safRecStatus).toNat ++ p64 (s.get R.safRecTime).toNat
      ++ (List.range 68).flatMap (fun b => p32 (s.get (R.safObist b)).toNat)
      ++ p32 (s.get R.safCntDatapath).toNat ++ p32 (s.get R.safCntTemp).toNat ++ p32 (s.get R.safCntWdog).toNat ++ p32 (s.get R.safCntObistFail).toNat
      ++ p32 (s.get R.safCntParity).toNat))

/-- Whether a tile, or a bench, may take an injected fault (R465). -/
def State.injTile (s : State) (t : Nat) : Bool := decide (t < 2176) && s.tilesOn (t / 32) && s.l2p.contains t && (s.reservedBy t).isNone && !s.isolated.contains t
def State.injBench (s : State) (b : Nat) : Bool := decide (b < 68) && s.tilesOn b && (benchTiles b).all fun t => (s.reservedBy t).isNone

/-- The fault injected and detected: the real reaction, logged as class 1, its own isolation lifted. -/
def State.inject (s : State) (code u : Nat) : State :=
  match code with
  | 3 => (s.benchCool u 3 0 true).coolExit u
  | 5 => (((((s.modTile u fun x => { x with dpInjected := true }).bset (R.tileArithStatus u) 7 true).detect 5 (u / 32) (u % 32) true).isoSet u 0)).isoClear u 0
  | 6 => ({ s with latentUe := sIns s.latentUe (lmBase u) }.lmMeet u (lmBase u) 16).log' 1 5 6 [u]
  | 7 => (((s.bset (R.safObist (u / 32)) 30 true).detect 7 (u / 32) (u % 32) true).isoSet u 1).isoClear u 1
  | _ => s.detect 8 (u / 32) (u % 32) true

/-- DIAG_FAULT_INJECT: the target the steward chooses is the lowest eligible (log entry 20); times to detection and to the safe state are free (log entry 11). -/
def State.injectCmd (s : State) (m code : Nat) (unit : Option Nat) : AxR :=
  if code = 2 then if m < 24 then invalid s else .wait (s.lockstep 10000000 true)
  else if !([3, 5, 6, 7, 8].contains code) then invalid s
  else
    let top := if code = 3 then 68 else 2176
    let ok (u : Nat) : Bool := if code = 3 then s.injBench u else if code = 8 then s.injTile u && (List.range 2176).any fun v => v != u && s.injTile v else s.injTile u
    if (match unit with | some u => decide (top ≤ u) | none => false) then invalid s
    else match (match unit with | some u => if ok u then some u else none | none => (List.range top).find? ok) with
    | none => refuse s dState
    | some u => .done ({ s with freeCtr := s.freeCtr + 8 }.inject code u) 0 (p32 1 ++ s.freeBytes 8)
def execDiagFaultInject (q : Req) (code : Nat) (s : State) : Outc := run (mbxOk q) (axotte s q 0x0805 fun s => s.injectCmd q.mbx code none)
def execDiagFaultInjectExpert (q : Req) (code unit : Nat) (s : State) : Outc :=
  run (mbxOk q) (axotte s q 0x8805 fun s => s.injectCmd q.mbx code (some unit))

end Sys2Proof.Machine
end

