-- ==== Sys2Proof/Machine/Sec.lean ====
section
/-! DEFINITION. Security commands (chapter 22): tenancy handover, the retained library, partition layout, life cycle, debug tokens, trust
stores, firmware, keys. -/

namespace Sys2Proof.Machine

/-! ### Handover (R466 to R470, Table 22-1) -/

/-- Whether a command executing in mailbox m works on the data plane, which a handover takes from it. -/
def State.planeWork (s : State) (m : Nat) : Bool :=
  s.dress.any (fun e : Nat × Dressing => e.2.mbx == some m) || (match s.ssJob with | some j => j.mbx == some m | none => false)
    || s.inv.any (fun e : Nat × InvRec => e.2.clear == some m) || s.store.appends.any (fun a : AppendW => a.mbx == m)
    || (match s.rst.change with | some c => c.mbx == m | none => false)
    || s.tksReq.any (fun e : Nat × TReq => match e.2.why with | .grant k _ => k == m | .giveBack k => k == m | _ => false)

/-- Commands that a handover ends ABORTED at step 1 (R468): those of mailboxes 0 to 23, and what management has under way on the data plane. -/
def State.handAborts (s : State) (own : Nat) : State :=
  let ms := (List.range 28).filter fun m => (s.box m).begun && (decide (m < 24) || (m != own && s.planeWork m))
  let s := s.forgetCmds fun m => decide (m < 24) || ms.contains m
  ms.foldl (fun s m => s.axFinish m stAborted 0 []) s

/-- Step 1: contexts killed, dressings unloaded, lanes detached, service cores stopped, the memo cleared. -/
def State.handOne (s : State) : State :=
  let s := s.allCtxs.foldl (fun s c => s.killCtx c none) s
  let s := (s.lanes.map fun e : Nat × Lane => e.1).foldl State.laneDetach s
  let s := s.dress.foldl (fun (s : State) (e : Nat × Dressing) => match tget s.dress e.1 with | some d => s.drsRelease e.1 d | none => s) s
  { s.svcHalt with memo := [], ingQ := [] }

/-- What the data plane holds beside memory and registers, gone, the records of memory errors with it (R462); host coherence, links, sites and self-test records stay (Table 20-3). -/
def State.tenDrop (s : State) : State :=
  let s := (s.tiles.map fun e : Nat × Tile => e.1).foldl State.tileDrop s
  { s with
    flight := [], credFly := [], deadCred := [], dress := [], tlb := [], walkQ := [], pinWait := [], wcache := [], inv := [], pools := []
    waiters := [], updates := [], nq := [], syncCnt := [], memErr := [], lanes := [], store := {}, policy := {}, expo := {}, accs := [], svc := {}
    lines := (s.lines.filter fun e : Nat × Line => e.2.dir.host || e.2.dir.owner == some 8).map fun e : Nat × Line =>
      (e.1, { e.2 with dirty := false, part := 16, dir := { host := e.2.dir.host, owner := if e.2.dir.owner = some 8 then some 8 else none, fwd := if e.2.dir.fwd = some 8 then some 8 else none } })
    txn := s.txn.filter fun e : Nat × Txn => e.2.r.a == Agent.host
    lineQ := (s.lineQ.map fun e : Nat × List CReq => (e.1, e.2.filter fun r : CReq => r.a == Agent.host)).filter fun e : Nat × List CReq => !e.2.isEmpty
    ans := s.ans.filter (fun x : Ans => x.a == Agent.host), regQ := s.regQ.filter fun e : CReq × Bool => e.1.a == Agent.host
    fills := [], curData := [], sideBuf := [], missed := [], ssJob := none
    tksReq := s.tksReq.map fun e : Nat × TReq => (e.1, { e.2 with why := match e.2.why with | .ping m i => .ping m i | _ => .noone }) }

/-- Whether step 2 leaves a byte as it is: what is no HBM, state store or local memory; a retained library; the response windows of mailboxes 0 to 23
are zeroed (R468). -/
def handKeeps (lib : Nat × Nat) (a : Nat) : Bool :=
  match region a with
  | .hbm => decide (lib.1 ≤ a) && decide (a < lib.1 + lib.2)
  | .scratch | .lmLogical | .lmPhysical => false
  | .regs => !(decide (0x3FF001000000 ≤ a) && decide (a < mbxBase 24) && decide (0x1000 ≤ (a - 0x3FF001000000) % 0x10000) && decide ((a - 0x3FF001000000) % 0x10000 < 0x2000))
  | _ => true

/-- Step 2: everything scrubbed, keys destroyed, registers at their tenancy resets. The registers of the management mailboxes stay. -/
def State.handTwo (s : State) (keepLib : Bool) : State :=
  let s := if keepLib then s else s.bset R.secLibStatus 63 false
  let lib := s.libRange
  let s := (s.tenDrop.memKeep (handKeeps lib)).resetRegs (fun a => !(decide (mbxBase 24 ≤ a) && decide (a < mbxBase 28))) .tenancy
  { s with mbx := s.mbx.filter fun e : Nat × Mbx => decide (24 ≤ e.1) }

/-- A site reset for the handover: one that runs already starts again, with the scrub. -/
def State.handReset (s : State) (cycle : Bool) (n : Nat) : State :=
  let mb := (s.site n).mbx
  (if (s.site n).ph.running then s.modSite n fun x => { x with ph := .held } else s).siteReset n cycle true mb

/-- SEC_HANDOVER: steps 1 and 2, and the start of step 3. -/
def State.handover (s : State) (m : Nat) (cycle drop : Bool) (part : Option Nat) : AxR :=
  if s.fget R.stwPstate 31 30 ≠ 0 then refuse s dPowerState
  else if s.sec.burn.isSome || s.sec.fwNow || s.sec.hand.isSome || s.runs m [0x0708, 0x8708, 0x070A, 0x870A] then busy s
  else
    let epoch := s.curEpoch
    let runs := s.tierRuns 3
    let keepLib := s.bget R.secLibStatus 62 && s.bget R.secLibStatus 63 && !drop
    let ns := (List.range 8).filter fun n => s.populated n && (s.site n).ph != .off
    let h : Handover := { mbx := m, cycle := cycle, drop := drop, part := part, sites := ns, epoch := epoch, runs := runs }
    let s := { s.handAborts m with sec := { (s.handAborts m).sec with hand := some h } }
    let s := s.set R.secTenStatus (setFld (setFld (s.get R.secTenStatus) 31 31 1) 29 27 3)
    let s := (s.handOne).handTwo keepLib
    let s := ns.foldl (fun s n => s.handReset cycle n) s
    .wait (if ns.isEmpty then s.handEnd h else s)
def execSecHandover (q : Req) (s : State) : Outc := run (mbxOk q) (axotte s q 0x0701 fun s => s.handover q.mbx false false none)
def execSecHandoverExpert (q : Req) (cycle drop : Bool) (part : Option Nat) (s : State) : Outc :=
  run (mbxOk q) (axotte s q 0x8701 fun s =>
    match part with
    | some p => if 0x10000 ≤ p then invalid s else s.handover q.mbx cycle drop part
    | none => s.handover q.mbx cycle drop none)

/-! ### The retained library (R471, R472) -/

/-- The reserved bytes of a header of Table 16-2. -/
def svcReserved (img : List Byte) : Bool := imgZero img 0x1C 4 && imgZero img 0x28 8 && imgZero img 0x80 128

/-- Ranges of HBM in use that a library, or a service range, may not overlap: base and length. -/
def State.drsRanges (s : State) : List (Nat × Nat) :=
  (s.dress.filter fun e : Nat × Dressing => s.isOwn e.2.image).map fun e : Nat × Dressing => (s.home (gLocal e.2.image), e.2.size)
def State.libBars (s : State) : List (Nat × Nat) :=
  ((s.store.rBase, s.store.rLen) :: (s.expo.base, s.expo.len) :: (s.svc.base, s.svc.size) :: s.drsRanges).filter fun r : Nat × Nat => r.2 != 0
def barHit (bars : List (Nat × Nat)) (b n : Nat) : Option (Nat × Nat) := bars.find? fun r => decide (r.1 < b + n) && decide (b < r.1 + r.2)

/-- The highest free 2 MiB boundary at or below b; the first argument is fuel. -/
def libPlace (bars : List (Nat × Nat)) (n : Nat) : Nat → Nat → Option Nat
  | 0, _ => none
  | k + 1, b =>
    match barHit bars b n with
    | none => some b
    | some r => if r.1 < n then none else libPlace bars n k ((r.1 - n) / 2 ^ 21 * 2 ^ 21)

/-- A verified library loaded at its place, or refused where it has none. -/
def State.libPut (s : State) (img : List Byte) (body n : Nat) : Option Nat → AxR
  | none => refuse s dState
  | some b =>
    if n = 0 then refuse s dBadHeader
    else
      let d := BitVec.ofNat 512 (imgU img 0x30 64)
      let s := { s with sec := { s.sec with libDigest := d } }.write b ((img.drop 0x100).take (body - 0x100)) false
      let s := s.set R.secLibStatus (BitVec.ofNat 64 (2 ^ 63 + b2n (s.bget R.secLibStatus 62) * 2 ^ 62 + n / 2 ^ 21 * 2 ^ 46 + b))
      .done (s.bset R.safStatus 28 false).measDone 0 (p64 b ++ p64 n ++ leBytes 64 d.toNat)

/-- SEC_LIBRARY_LOAD. -/
def State.libLoad (s : State) (g : W64) (size : Nat) (base : Option Nat) : AxR :=
  if s.sec.hand.isSome then busy s
  else s.withImage g size fun s img => match img with
  | none => refuse s dBadHeader
  | some img =>
    let (body, e) := s.imgVerify img 0x5242494C size 2
    if e ≠ 0 ∧ e ≠ dBadHeader ∧ (!svcReserved img || !imgZero img 0x14 8) then refuse s dBadHeader
    else if e ≠ 0 then refuse s e
    else if !svcReserved img || !imgZero img 0x14 8 then refuse s dBadHeader
    else
      let n := cdiv (body - 0x100) (2 ^ 21) * 2 ^ 21
      let top := (s.get R.hubMapHbmTop).toNat + 1
      let at' := match base with
        | some b => if (barHit s.libBars b n).isSome then none else some b
        | none => if top < n then none else libPlace s.libBars n 256 ((top - n) / 2 ^ 21 * 2 ^ 21)
      match base with
      | some b => if b % 2 ^ 21 ≠ 0 ∨ top < b + n then invalid s else s.libPut img body n at'
      | none => s.libPut img body n at'
def execSecLibraryLoad (q : Req) (image : W64) (size : Nat) (s : State) : Outc :=
  run (mbxOk q) (axotte s q 0x070A fun s => s.libLoad image size none)
def execSecLibraryLoadExpert (q : Req) (image : W64) (size base : Nat) (s : State) : Outc :=
  run (mbxOk q) (axotte s q 0x870A fun s => s.libLoad image size (some base))

/-! ### Partition layout (R473) -/

/-- What forbids a change of device ID or partition tag. -/
def State.tenantLeft (s : State) : Bool := !s.allCtxs.isEmpty || s.storeInit || s.expo.len != 0

/-- SEC_DEVICE_SET. -/
def execSecDeviceSet (q : Req) (dev : Nat) (s : State) : Outc :=
  run (mbxOk q) (axotte s q 0x0706 fun s =>
    if 2 ^ 18 ≤ dev then invalid s
    else if s.tenantLeft then refuse s dState
    else s.prbCmd q [(0, BitVec.ofNat 32 (2 ^ 31 + dev))] .plain)
/-- SEC_PARTITION_SET. -/
def execSecPartitionSet (q : Req) (tagv : Nat) (s : State) : Outc :=
  run (mbxOk q) (axotte s q 0x070B fun s =>
    if 2 ^ 16 ≤ tagv then invalid s
    else if s.tenantLeft then refuse s dState
    else s.prbCmd q [(1, BitVec.ofNat 32 tagv)] .measured)

/-- The value a word will hold once every write in line is made. -/
def State.prbLatest (s : State) (w : Nat) : Nat :=
  match (s.prb.q.reverse.find? fun p : PWrite => p.w == w) with
  | some p => p.v.toNat
  | none => (s.prbW w).toNat

/-- SEC_ROUTE_WRITE: table 0 tks.rt.grp, 1 tks.rt.mem; two entries a word (Table 20-7). -/
def State.routeWords (s : State) (base first : Nat) (es : List (BitVec 16)) : List (Nat × W32) :=
  let n := es.length
  let e (i w half : Nat) : Nat :=
    if first ≤ i ∧ i < first + n then (es.getD (i - first) 0).toNat else s.prbLatest w / 65536 ^ half % 65536
  ((List.range 256).filter fun i => decide (first < 2 * i + 2) && decide (2 * i < first + n)).map fun i =>
    (base + i, BitVec.ofNat 32 (e (2 * i) (base + i) 0 + e (2 * i + 1) (base + i) 1 * 65536))
def execSecRouteWrite (q : Req) (table first : Nat) (entries : List (BitVec 16)) (s : State) : Outc :=
  run (mbxOk q) (axotte s q 0x0707 fun s =>
    if 1 < table ∨ entries.isEmpty ∨ 512 < first + entries.length ∨ entries.any fun e => nbits e.toNat 11 7 != 0 || nbit e.toNat 3 then invalid s
    else s.prbCmd q (s.routeWords (if table = 0 then 0x200 else 0x300) first entries) (.entries entries.length))

/-! ### Tokens and debug (R480, Table 22-5) -/

/-- A token verified: its scope byte, where the kind matches the state, the serial and nonce are this module's, and the signature holds. The token
keys of Table 22-4 are 1 (test) and 2 (return). -/
def State.tokenScope (s : State) (img : List Byte) : Option Nat :=
  let kind := imgU img 4 1
  let st := s.fget R.secLcStatus 31 29
  if imgU img 0 4 == 0x4E4B4F54 && imgZero img 6 2 && decide (imgU img 5 1 < 32)
      && ((kind == 1 && st == 0) || (kind == 2 && st == 2 && s.bget R.secLcStatus 24))
      && imgU img 8 8 == (s.get R.hubIdModule).toNat && imgU img 16 8 == (s.get R.secDbgNonce).toNat && imgSigOk img 24 (Config.flivonKey kind)
  then some (imgU img 5 1) else none

/-- A fresh nonce. -/
def State.newNonce (s : State) : State := (s.set R.secDbgNonce s.free).drew

/-- SEC_DEBUG_OPEN: a fresh nonce every time. -/
def execSecDebugOpen (q : Req) (token : W64) (s : State) : Outc :=
  run (mbxOk q) (axotte s q 0x0709 fun s =>
    if s.fget R.secLcStatus 31 29 = 1 then refuse s.newNonce dState
    else s.withImage token (24 + 29800) fun s img =>
      let t := s.newNonce
      match img.bind s.tokenScope with
      | none => refuse t dSigInvalid
      | some k =>
        let t := { t with sec := { t.sec with scopes := t.sec.scopes ||| k } }
        .done (t.bset R.secLcStatus 23 (t.sec.scopes != 0)).measDone 0 (p32 t.sec.scopes))

/-! ### Life cycle (R474 to R476, Table 22-3) -/

/-- The bits a transition burns. -/
def lcBits (old new : Nat) : Option (List Nat) :=
  match old, new with
  | 0, 1 => some [3, 4, 5, 6, 7, 8]
  | 0, 3 => some [3, 4, 5, 6, 7, 8, 9, 10, 11, 12, 13, 14, 15]
  | 1, 2 => some [9, 10, 11, 12, 13, 14]
  | 1, 3 => some [9, 10, 11, 12, 13, 14, 15]
  | 2, 3 => some [15]
  | _, _ => none

/-- SEC_LC_TRANSITION. A session in Deployed is the operator's and one in Returned Flivon's (Table 22-4); from Test a token is needed with scope bit 4. -/
def execSecLcTransition (q : Req) (target : Nat) (serial : W64) (token : W64) (s : State) : Outc :=
  run (mbxOk q) (axotte s q 0x0702 fun s =>
    if 3 < target ∨ serial ≠ s.get R.hubIdModule then invalid s
    else if s.bget R.secLcStatus 25 then refuse s dState
    else if s.sec.burn.isSome || s.sec.hand.isSome then busy s
    else match lcBits (s.fget R.secLcStatus 31 29) target with
      | none => refuse s dState
      | some bits =>
        let go (s : State) (ok : Bool) : AxR :=
          if !ok then refuse s dSigInvalid
          else if !s.burnOk then refuse s dSupplyLow
          else .wait { s with sec := { s.sec with burn := some { mbx := q.mbx, target := target, bits := bits } } }
        if s.fget R.secLcStatus 31 29 ≠ 0 then go s true
        else s.withImage token (24 + 29800) fun s img => go s (match img.bind s.tokenScope with | some k => nbit k 4 | none => false))

/-! ### Keys and trust stores (R481, R484, R488) -/

/-- SEC_KEY_PROVISION: alias keys live in Deployed only (Table 22-4). -/
def execSecKeyProvision (q : Req) (slot : Nat) (salt : BitVec 256) (s : State) : Outc :=
  run (mbxOk q) (axotte s q 0x0703 fun s =>
    if slot = 0 ∨ 3 < slot then invalid s
    else if s.fget R.secLcStatus 31 29 ≠ 1 then refuse s dState
    else .done { s with sec := { s.sec with keys := tput s.sec.keys slot (Config.deriveKey slot salt) } } 0 (leBytes 64 (Config.deriveKey slot salt).toNat))

/-- SEC_EPOCH_ROTATE: the current epoch is old, with its keys, while the store holds pages under it; an uninitialised store has its key replaced. -/
def State.rotate (s : State) : AxR :=
  if s.sec.hand.isSome then busy s
  else if s.oldLive || s.store.epochBad then refuse s dState
  else
    let e := s.curEpoch
    let n := (e + 1) % 256
    let s := { s with keyCtr := s.keyCtr + 1, store := { s.store with curKey := s.keyCtr, oldKey := if s.storeInit then s.store.curKey else 0 } }
    let s := s.fset R.ctxStoreStatus 23 16 n
    let s := if s.storeInit then (s.fset R.ctxStoreStatus 15 8 e).bset R.ctxStoreStatus 30 true else s
    .done s.measDone 0 (p32 n)
def execSecEpochRotate (q : Req) (s : State) : Outc := run (mbxOk q) (axotte s q 0x0704 fun s => s.rotate)

/-- Words of a number, from a first word on. -/
def numWords (first n v : Nat) : List (Nat × W32) := (List.range n).map fun i => (first + i, BitVec.ofNat 32 (v / 2 ^ (32 * i)))

/-- The words of a trust item (Table 22-6); none where its index, purposes or policy break the table. -/
def trustWords : TrustItem → Option (List (Nat × W32))
  | .anchor d => some (numWords 0x10 16 d.toNat)
  | .entry i k key w =>
    if 4 ≤ i ∨ w.toNat % 2 ^ 31 / 8 ≠ 0 then none
    else some (numWords (0x20 + 21 * i) 4 k.toNat ++ numWords (0x24 + 21 * i) 16 key.toNat ++ [(0x34 + 21 * i, w)])
  | .policy w => if w.toNat / 2 ≠ 0 then none else some [(0x74, w)]

/-- The operator management anchor. -/
def State.anchor (s : State) : Nat := s.trustNum 0x10 16

/-- SEC_TRUST_SET. A session that is not authenticated sets only the first anchor, while MGMT_PROV_N reads low (`prov`). -/
def execSecTrustSet (q : Req) (item : TrustItem) (prov : Bool) (s : State) : Outc :=
  run (mbxOk q) (axotte s q 0x0705 fun s =>
    let s := s.bset R.secLcStatus 22 prov
    let auth := match (s.box q.mbx).session with | some n => (tgetD s.sec.sess n { port := 0 }).auth | none => true
    let first := match item with | .anchor _ => prov && s.anchor == 0 | _ => false
    match trustWords item with
    | none => invalid s
    | some ws => if !auth && !first then .fail s stNotPermitted 0 else s.prbCmd q ws .plain)

/-! ### Firmware (R482) -/

/-- SEC_FW_UPDATE: the image verified and its body in the slot that does not run; the expert form restarts the steward with it (`now`). -/
def State.fwUpdate (s : State) (g : W64) (size : Nat) (now : Bool) : AxR :=
  s.withImage g size fun s img => match img with
  | none => refuse s dBadHeader
  | some img =>
    match imgHeader img 0x46564C46 size with
    | none => refuse s dBadHeader
    | some b =>
      let svn := imgU img 0x14 4
      if !svcReserved img || 255 < svn then refuse s dBadHeader
      else if !imgDigestOk img b then refuse s dDigest
      else if !imgSigOk img b (Config.flivonKey 0) || decide (svn < s.fget R.secFwStatus 23 16) then refuse s dSigInvalid
      else
        let slot := 1 - s.fget R.secFwStatus 30 30
        let d := BitVec.ofNat 512 (imgU img 0x30 64)
        let s := { s with sec := { s.sec with
                                   fwDigest := tput s.sec.fwDigest slot d, fwVer := tput s.sec.fwVer slot (imgU img 0x18 4 % 2 ^ 24),
                                   pendDigest := some d, fwNow := now || s.sec.fwNow } }.set
          R.secFwStatus (setFld (setFld (s.get R.secFwStatus) 31 31 1) 7 0 svn)
        .done s 0 (p32 (s.fwVersion slot))
def execSecFwUpdate (q : Req) (image : W64) (size : Nat) (s : State) : Outc :=
  run (mbxOk q) (axotte s q 0x0708 fun s => s.fwUpdate image size false)
def execSecFwUpdateExpert (q : Req) (image : W64) (size : Nat) (now : Bool) (s : State) : Outc :=
  run (mbxOk q) (
    let t := axotte s q 0x8708 fun s => s.fwUpdate image size now
    if t.sec.fwNow && !s.sec.fwNow then t.lockstep 10000000 false else t)

/-- SEC_STATUS. -/
def execSecStatus (q : Req) (s : State) : Outc :=
  run (mbxOk q) (axotte s q 0x070C fun s =>
    .done s 0 (p32 (s.get R.secLcStatus).toNat ++ p32 (s.get R.secTenStatus).toNat ++ p32 (s.get R.secFwStatus).toNat
      ++ p64 (s.get R.secLibStatus).toNat ++ p64 (s.get R.secDbgNonce).toNat))

end Sys2Proof.Machine
end

