-- ==== Sys2Proof/Machine/Mgmt.lean ====
section
/-! DEFINITION. Doorbells (R350 to R354), the management network (R358 to R360), and SPDM (R483, R484, R487). Message codes and payload layouts are
those of DSP0274 as far as the manual names its messages (PRESUMED, log entry 34). -/

namespace Sys2Proof.Machine

/-! ### Acceptance (R350 to R352) -/

/-- Basic command IDs (Table 15-13). -/
def basicIds : List Nat :=
  [0x0101, 0x0102, 0x0104, 0x0110, 0x0111, 0x0120, 0x0121]
  ++ [0x0201, 0x0202, 0x0203, 0x0204, 0x0210, 0x0220, 0x0230, 0x0231, 0x0240]
  ++ [0x0301, 0x0302, 0x0303, 0x0304, 0x0305, 0x0306, 0x0310, 0x0311, 0x0312, 0x0320, 0x0321, 0x0322, 0x0323]
  ++ [0x0401, 0x0402, 0x0403, 0x0404, 0x0405, 0x0406, 0x0407, 0x0408, 0x0409, 0x040A, 0x040B]
  ++ [0x0501, 0x0502, 0x0503, 0x0504, 0x0505, 0x0506, 0x0507, 0x0508, 0x0509, 0x050A, 0x050B, 0x050C, 0x050D, 0x050E, 0x0510]
  ++ [0x0601, 0x0602, 0x0603, 0x0604, 0x0605]
  ++ [0x0701, 0x0702, 0x0703, 0x0704, 0x0705, 0x0706, 0x0707, 0x0708, 0x0709, 0x070A, 0x070B, 0x070C]
  ++ [0x0801, 0x0802, 0x0803, 0x0804, 0x0805, 0x0810, 0x0901, 0x0902, 0x0A01, 0x0A02, 0x0A03]
  ++ [0x0B01, 0x0B02, 0x0B03, 0x0B04, 0x0B05, 0x0C01, 0x0C02, 0x0C03, 0x0C04, 0x0C05, 0x0C06]

/-- Expert command IDs without bit 15 (Table 15-13). -/
def expertIds : List Nat :=
  [0x0101, 0x0103, 0x0111, 0x0120, 0x0121, 0x0201, 0x0203, 0x0204, 0x0220, 0x0231, 0x0301, 0x0302, 0x0303, 0x0304, 0x0310, 0x0320, 0x0321, 0x0323]
  ++ [0x0401, 0x0402, 0x0403, 0x0404, 0x0408, 0x0501, 0x0506, 0x0507, 0x0509, 0x0510, 0x0601, 0x0602, 0x0605, 0x0701, 0x0708, 0x070A]
  ++ [0x0801, 0x0805, 0x0902, 0x0B02, 0x0B04, 0x0C01, 0x0C03, 0x0C05]

/-- Commands whose request has no payload. -/
def emptyIds : List Nat :=
  [0x0101, 0x0102, 0x0104, 0x0110, 0x0210, 0x0230, 0x0231, 0x0240, 0x0302, 0x0303, 0x0304, 0x0312, 0x0322, 0x050D, 0x050E, 0x0C06, 0x0B03, 0x0B05, 0x0A03]
  ++ [0x0804, 0x0701, 0x0704, 0x070C]

/-- Whether an ID is one of Table 15-13. -/
def idKnown (cmd : Nat) : Bool := if nbit cmd 15 then expertIds.contains (cmd - 0x8000) else basicIds.contains cmd

/-- The checks of R352 that the header decides, in their order: the status of the first that fails. -/
def headerCheck (m cmd flags len rsv : Nat) : Nat :=
  if !idKnown cmd then stUnknown
  else if axGroup cmd = 7 ∧ m < 24 then stNotPermitted
  else if len % 4 ≠ 0 ∨ 4080 < len ∨ (emptyIds.contains cmd && len != 0) then stBadLength
  else if flags / 2 ≠ 0 ∨ rsv ≠ 0 then stInvalid
  else stDone

/-- A request posted in mailbox m (R350, R351): a duplicate or a header that fails a check is answered at once; else the command waits for its
execution, which is its own row. -/
def State.post (s : State) (m : Nat) (h : Hdr) (flags len rsv : Nat) : State :=
  let st := s.fget (R.mbxStatus m) 31 30
  if !s.powered || (s.asleep && decide (m < 24)) || (s.drowsing && decide (m < 16)) then s
  else if st = 1 ∨ st = 2 then s.bset (R.mbxStatus m) 29 true
  else
    let s := (s.setBox m { (s.box m) with cur := some h, begun := false }).fset (R.mbxStatus m) 31 30 1
    if !s.bget R.stwStatus 31 then s
    else if (s.box m).last.any fun l => l.same h then s.axDup m h
    else if headerCheck m h.cmd flags len rsv ≠ stDone then s.axEnd m h (headerCheck m h.cmd flags len rsv) 0 []
    else s

/-- MAILBOX_DOORBELL (R350): the request is what the window holds. The blocks of management mailboxes are out of reach (R347). -/
def State.doorbell (s : State) (m : Nat) (v : W32) : State :=
  let b := mbxBase m
  let flags := s.word (b + 2) 2
  if !v.getLsbD 0 || 24 ≤ m then s
  else s.post m ⟨s.word b 2, BitVec.ofNat 32 (s.word (b + 8) 4), BitVec.ofNat 32 (s.word (b + 12) 4), nbit flags 0⟩ flags (s.word (b + 4) 2) (s.word (b + 6) 2)
def execMailboxDoorbell (m : Nat) (v : W32) (s : State) : Outc := run (m < 28) (s.doorbell m v)

/-! ### Management sessions (R359, R360) -/

/-- Whether a session may send a command: its requester is authenticated; or, while the anchor is all zeros, it has presented any chain and the command
is SEC_TRUST_SET (R481). -/
def State.sessOk (s : State) (n cmd : Nat) : Bool :=
  match tget s.sec.sess n with
  | none => false
  | some x => x.ready && (x.auth || (x.shown && cmd == 0x0705 && s.anchor == 0))

/-- The mailbox a session is bound to, or the lowest free one. -/
def State.sessBox (s : State) (n : Nat) : Option Nat :=
  match [24, 25, 26, 27].find? fun m => (s.box m).session == some n with
  | some m => some m
  | none => [24, 25, 26, 27].find? fun m => (s.box m).session.isNone && (s.box m).cur.isNone

/-- AXOTTE_MGMT_MESSAGE. -/
def State.mgmtMsg (s : State) (n cmd flags len : Nat) (tag seq : W32) : State :=
  let h : Hdr := ⟨cmd, tag, seq, nbit flags 0⟩
  if !s.powered then s
  else if !s.sessOk n cmd then s.bump R.mbxMgmtRejected 32 1
  else match s.sessBox n with
    | none => s.emit (.mgmt n h stBusy 0 [])
    | some m => (if (s.box m).session = some n then s else s.setBox m { session := some n }).post m h flags len 0
def execAxotteMgmtMessage (session : Nat) (cmd flags len : Nat) (tag seq : W32) (s : State) : Outc :=
  .next (s.mgmtMsg session (cmd % 65536) flags len tag seq)

/-- A session ends: the command it has under way completes unanswered, and its mailbox is free. -/
def State.sessEnd (s : State) (n : Nat) : State :=
  let s := { s with sec := { s.sec with sess := tdel s.sec.sess n } }
  [24, 25, 26, 27].foldl (fun s m => if (s.box m).session = some n then s.setBox m { (s.box m) with session := none, last := none } else s) s
/-- MGMT_SESSION_END. -/
def execMgmtSessionEnd (session : Nat) (s : State) : Outc := .next (s.sessEnd session)

/-! ### SPDM (R483, R484, Table 22-7) -/

/-- An SPDM request is answered while the steward runs; `need` is how far the port's connection must have come. -/
def State.onSpdm (s : State) (port need : Nat) (f : State → State) : State :=
  if !s.powered || !s.bget R.stwStatus 31 then s
  else if (tgetD s.sec.conns port {}).stage < need then s.spdm port 0x7F [0x04, 0]
  else f s

/-- The connection of a port changed. -/
def State.modConn (s : State) (port : Nat) (f : Conn → Conn) : State :=
  { s with sec := { s.sec with conns := tput s.sec.conns port (f (tgetD s.sec.conns port {})) } }

/-- A request inside a session that is finished. -/
def State.onSess (s : State) (port n : Nat) (f : State → Sess → State) : State :=
  s.onSpdm port 3 fun s =>
    match tget s.sec.sess n with
    | some x => if x.port = port ∧ x.ready then f s x else s.spdm port 0x7F [0x02, 0]
    | none => s.spdm port 0x7F [0x02, 0]

/-- The chain of a slot; whether its key may sign (Table 22-4). -/
def State.chainOf (s : State) (slot : Nat) : Option (List Byte) := if slot = 0 then some Config.identityChain else tget s.sec.chains slot
def State.slotSigns (s : State) (slot : Nat) : Bool :=
  let st := s.fget R.secLcStatus 31 29
  if slot = 0 then decide (st ≤ 2) else st == 1 && decide (slot < 4) && (tget s.sec.keys slot).isSome

/-- GET_VERSION: SPDM 1.3; the connection starts again. -/
def execGetVersion (port : Nat) (s : State) : Outc :=
  run (port < 2) (s.onSpdm port 0 fun s => (s.modConn port fun _ => { stage := 1 }).spdm port 0x04 [0, 1, 0, 0x13])
/-- GET_CAPABILITIES. -/
def execGetCapabilities (port : Nat) (s : State) : Outc :=
  run (port < 2) (s.onSpdm port 1 fun s => (s.modConn port fun c => { c with stage := max c.stage 2 }).spdm port 0x61 [0, 0])
/-- NEGOTIATE_ALGORITHMS: the four algorithms of R483 are bits 0 to 3 of the offer; all must stand in it. -/
def execNegotiateAlgorithms (port : Nat) (offered : Nat) (s : State) : Outc :=
  run (port < 2) (s.onSpdm port 2 fun s =>
    if offered % 16 = 15 then (s.modConn port fun c => { c with stage := 3 }).spdm port 0x63 [0, 0, 15] else s.spdm port 0x7F [0x01, 0])
/-- GET_DIGESTS: a mask of the slots that hold a chain, and their digests. -/
def execGetDigests (port : Nat) (s : State) : Outc :=
  run (port < 2) (s.onSpdm port 3 fun s =>
    let ns := [0, 1, 2, 3].filter fun k => (s.chainOf k).isSome
    s.spdm port 0x01 (leBytes 1 (ns.foldl (fun n k => n + 2 ^ k) 0) ++ ns.flatMap fun k => leBytes 64 (shake256 ((s.chainOf k).getD [])).toNat))
/-- GET_CERTIFICATE: a portion of a chain. -/
def execGetCertificate (port slot off len : Nat) (s : State) : Outc :=
  run (port < 2) (s.onSpdm port 3 fun s =>
    match s.chainOf slot with
    | none => s.spdm port 0x7F [0x01, 0]
    | some c =>
      if c.length < off then s.spdm port 0x7F [0x01, 0]
      else
        let p := (c.drop off).take len
        s.spdm port 0x02 (leBytes 1 slot ++ [0] ++ p16 p.length ++ p16 (c.length - off - p.length) ++ p))
/-- CHALLENGE: the digest of the slot's chain and a nonce (free), signed. -/
def execChallenge (port slot : Nat) (s : State) : Outc :=
  run (port < 2) (s.onSpdm port 3 fun s =>
    match s.chainOf slot with
    | none => s.spdm port 0x7F [0x01, 0]
    | some c =>
      if !s.slotSigns slot then s.spdm port 0x7F [0x01, 0]
      else
        let body := leBytes 1 slot ++ leBytes 64 (shake256 c).toNat ++ s.freeBytes 32
        { s with freeCtr := s.freeCtr + 32 }.spdm port 0x03 (body ++ Config.spdmSign slot body))
/-- GET_MEASUREMENTS (R487): held while an event of that rule is in progress. -/
def execGetMeasurements (port index slot : Nat) (signed : Bool) (s : State) : Outc :=
  run (port < 2) (s.onSpdm port 3 fun s =>
    let h : Held := ⟨port, index, slot, signed⟩
    if signed ∧ !s.slotSigns slot then s.spdm port 0x7F [0x01, 0]
    else if s.transitional then { s with sec := { s.sec with held := s.sec.held ++ [h] } }
    else s.measAnswer h false)
/-- MEASUREMENT_HOLD_TIMEOUT (R487): the port's held requests are answered from the last set, with block 0xF0. -/
def execMeasurementHoldTimeout (port : Nat) (s : State) : Outc :=
  run (port < 2) (
    let hs := s.sec.held.filter fun h : Held => h.port == port
    hs.foldl (fun s h => s.measAnswer h true) { s with sec := { s.sec with held := s.sec.held.filter fun h : Held => h.port != port } })
/-- CHUNK_SEND: the pieces of a large request; the last one makes it whole, and the request is then its own row. -/
def execChunkSend (port handle : Nat) (last : Bool) (data : List Byte) (s : State) : Outc :=
  run (port < 2) (s.onSpdm port 3 fun s =>
    let old := match (tgetD s.sec.conns port {}).chunk with | some (k, bs) => if k = handle then bs else [] | none => []
    (s.modConn port fun c => { c with chunk := if last then none else some (handle, old ++ data) }).spdm port 0x05 (leBytes 1 handle))
/-- CHUNK_GET: a piece of the response that was too large. -/
def execChunkGet (port handle idx : Nat) (s : State) : Outc :=
  run (port < 2) (s.onSpdm port 3 fun s =>
    let b := (tgetD s.sec.conns port {}).big
    let p := (b.drop (4000 * idx)).take 4000
    if p.isEmpty then s.spdm port 0x7F [0x01, 0]
    else s.spdm port 0x06 (leBytes 1 handle ++ p16 idx ++ p32 p.length ++ [BitVec.ofNat 8 (b2n (decide (b.length ≤ 4000 * (idx + 1))))] ++ p))
/-- KEY_EXCHANGE: mutual authentication is requested; none in Void or Scrapped (R478). The exchange data are free values. -/
def execKeyExchange (port session : Nat) (s : State) : Outc :=
  run (port < 2) (s.onSpdm port 3 fun s =>
    if !s.slotSigns 0 || (tget s.sec.sess session).isSome then s.spdm port 0x7F [0x01, 0]
    else
      let body := p32 session ++ [1] ++ s.freeBytes 96
      { s with freeCtr := s.freeCtr + 96, sec := { s.sec with sess := tput s.sec.sess session { port := port } } }.spdm port 0x64 (body ++ Config.spdmSign 0 body))

/-- Whether a root digest is that of the anchor in force: the operator's in Deployed, Flivon's in Test and Returned (Table 22-4, R481). -/
def State.anchored (s : State) (root : BitVec 512) : Bool :=
  let st := s.fget R.secLcStatus 31 29
  if st = 1 then s.anchor != 0 && root.toNat == s.anchor else (st == 0 || st == 2) && root == Config.flivonKey 3
/-- FINISH: `ok` says whether the requester's signature and MAC hold; `rootDigest` is that of the root of the chain it presented, 0 for none. -/
def execFinish (port session : Nat) (rootDigest : BitVec 512) (ok : Bool) (s : State) : Outc :=
  run (port < 2) (s.onSpdm port 3 fun s =>
    match tget s.sec.sess session with
    | none => s.spdm port 0x7F [0x02, 0]
    | some x =>
      if x.port ≠ port ∨ x.ready then s.spdm port 0x7F [0x02, 0]
      else if !ok then (s.sessEnd session).spdm port 0x7F [0x06, 0]
      else
        let shown := x.shown || rootDigest != 0
        { s with sec := { s.sec with sess := tput s.sec.sess session { x with ready := true, shown := shown, auth := shown && s.anchored rootDigest } } }.spdm port 0x65 [])
/-- HEARTBEAT. -/
def execHeartbeat (port session : Nat) (s : State) : Outc := run (port < 2) (s.onSess port session fun s _ => s.spdm port 0x68 [])
/-- KEY_UPDATE: operations 1 to 3. -/
def execKeyUpdate (port session op : Nat) (s : State) : Outc :=
  run (port < 2) (s.onSess port session fun s _ => if op = 0 ∨ 3 < op then s.spdm port 0x7F [0x01, 0] else s.spdm port 0x69 (leBytes 1 op))
/-- GET_ENCAPSULATED_REQUEST: the hub asks for the requester's chain. -/
def execGetEncapsulatedRequest (port session : Nat) (s : State) : Outc :=
  run (port < 2) (s.onSpdm port 3 fun s =>
    if (tget s.sec.sess session).isSome then s.spdm port 0x6A [1, 0x82] else s.spdm port 0x7F [0x02, 0])
/-- DELIVER_ENCAPSULATED_RESPONSE: the requester has presented a chain. -/
def execDeliverEncapsulatedResponse (port session : Nat) (chain : List Byte) (s : State) : Outc :=
  run (port < 2) (s.onSpdm port 3 fun s =>
    match tget s.sec.sess session with
    | none => s.spdm port 0x7F [0x02, 0]
    | some x => { s with sec := { s.sec with sess := tput s.sec.sess session { x with shown := x.shown || !chain.isEmpty } } }.spdm port 0x6B [1])
/-- END_SESSION. -/
def execEndSession (port session : Nat) (s : State) : Outc := run (port < 2) (s.onSess port session fun s _ => (s.sessEnd session).spdm port 0x6C [])
/-- GET_CSR: of a slot whose key has been provisioned. -/
def execGetCsr (port session slot : Nat) (s : State) : Outc :=
  run (port < 2) (s.onSess port session fun s _ =>
    match tget s.sec.keys slot with
    | none => s.spdm port 0x7F [0x01, 0]
    | some k =>
      if !s.slotSigns slot then s.spdm port 0x7F [0x01, 0]
      else s.spdm port 0x6D (leBytes 64 k.toNat ++ Config.spdmSign slot (leBytes 64 k.toNat)))
/-- SET_CERTIFICATE: a chain of up to 64 KiB in slots 1 to 3, in an authenticated session. -/
def execSetCertificate (port session slot : Nat) (chain : List Byte) (s : State) : Outc :=
  run (port < 2) (s.onSess port session fun s x =>
    if slot = 0 ∨ 3 < slot ∨ 65536 < chain.length ∨ !x.auth then s.spdm port 0x7F [0x01, 0]
    else { s with sec := { s.sec with chains := tput s.sec.chains slot chain } }.spdm port 0x6E (leBytes 1 slot))
/-- SPDM_UNSUPPORTED_REQUEST. -/
def execSpdmUnsupportedRequest (port code : Nat) (s : State) : Outc := run (port < 2) (s.onSpdm port 0 fun s => s.spdm port 0x7F (0x07 :: leBytes 1 code))

end Sys2Proof.Machine
end

