-- ==== Sys2Proof/Machine/RegWindow.lean ====
section
/-! DEFINITION. The register window (R8 to R10, R29 to R32): what a read of a register returns and does, and what a write does, by the
access codes of Table 0-5 and by each register's own rule. -/

namespace Sys2Proof.Machine

/-! ### Addresses of arrays -/

/-- The index of an address in an array of registers. -/
def arrIdx (base stride n a : Nat) : Option Nat :=
  if base ≤ a ∧ (a - base) % stride = 0 ∧ (a - base) / stride < n then some ((a - base) / stride) else none

/-- The block prefix of an address by its base, in the order of Table 1-8 (0 hub to 5 saf, 6 sec, ...). -/
def inBlk (base size a : Nat) : Bool := decide (base ≤ a) && decide (a < base + size)

/-- Registers and words that only management reaches (R32, R347, Table 20-7): the sec block, the blocks of mailboxes 24 to 27, the trust stores,
and registers with a field marked management only. -/
def mgmtOnly (a : Nat) : Bool :=
  inBlk 0x3FF000600000 0x100000 a || inBlk 0x3FF001180000 0x40000 a || inBlk 0x3FF000200040 0x1C0 a
    || (match descAt (a / 4 * 4) with | some d => d.flds.any (·.mgmt) | none => false)

/-- Whether a block's registers act: every block but hub, stw, prb, sec, mbx and cxl reads 0 before bring-up step 4 is done (R391); so does the
block of a disabled tile (Table 1-8). -/
def State.blockOn (s : State) (a : Nat) : Bool :=
  (s.bget R.stwBootStepDone 4 || inBlk 0x3FF000000000 0x300000 a || inBlk 0x3FF000600000 0x100000 a || inBlk 0x3FF000A00000 0x100000 a
    || inBlk 0x3FF001000000 0x1000000 a)
  && (!inBlk 0x3FF100000000 0x100000000 a || s.bget (R.hubMapP2l ((a - 0x3FF100000000) / 0x100000)) 31)

/-! ### Values that follow from the state -/

/-- tile.drs.bind and tile.drs.dtile (Table 5-10): what the dressings say of a tile. -/
def State.drsBind (s : State) (t : Nat) : Nat :=
  (s.ltile t).getD 0 + match s.dressOf t with
    | some (h, d) => 2 ^ 31 + b2n (d.st == .active) * 2 ^ 30 + b2n (d.st == .dead) * 2 ^ 29 + h * 2 ^ 23 + d.ctx * 2 ^ 11
    | none => 0
def State.drsDtile (s : State) (t : Nat) : Nat := match s.dressOf t with | some (_, d) => (s.ltile t).getD 0 - d.lbase | none => 0

/-- Retiring entries of a bench TLB. -/
def State.tlbRetiring (s : State) (b : Nat) : Nat := (s.tlb.filter fun e => e.1 / 256 == b && e.2.retiring != []).length

/-- The value of a register of the bench block at an offset, where it follows from the state (Tables 5-13, 8-8). -/
def State.benchView (s : State) (b o : Nat) : Option Nat :=
  if o = 0x118 then some (s.tlbSum b)
  else if o = 0x120 then some (s.tlbRetiring b)
  else if o = 0x240 then some (routeEntries s.allStreams b)
  else match arrIdx 0x200 8 6 o with
    | some d => some (linkRoutes s.allStreams b d % 256 * 256 + linkSum s.allStreams b d % 256)
    | none => none

/-- cxl.status (Table 14-9): fenced follows the host's fence, mem_active hbm_ready (R331, R341). -/
def State.cxlStat (s : State) : Nat :=
  (setFld (setFld (s.get R.cxlStatus) 30 30 (b2n (s.bget R.cohHostStatus 31))) 29 29 (b2n (s.bget R.hubMemStatus 30))).toNat

/-- The value of the register at an address: kept in the register table, or following from the state. -/
def State.regVal (s : State) (d : RegDesc) (a : Nat) : W64 :=
  let v := match (if inBlk 0x3FF040000000 0x8000000 a then s.benchView ((a - 0x3FF040000000) / 0x100000) ((a - 0x3FF040000000) % 0x100000)
      else if inBlk 0x3FF100000000 0x100000000 a then
        (let o := (a - 0x3FF100000000) % 0x100000
         let t := (a - 0x3FF100000000) / 0x100000
         if o = 0x100 then some (s.drsBind t) else if o = 0x108 then some (s.drsDtile t) else none)
      else if a = R.cxlStatus.addr then some s.cxlStat
      else if a = R.ctxEpochCurPages.addr then some (s.epochPages s.curEpoch)
      else if a = R.ctxEpochOldPages.addr then some (if s.oldLive then s.epochPages s.oldEpoch else 0)
      else (arrIdx (R.xltInvRefs 0).addr 0x40 16 a).map s.invRefs) with
    | some n => BitVec.ofNat 64 n
    | none => tgetD s.regs a (BitVec.ofNat 64 d.rst)
  v

/-! ### Reads -/

/-- The bits of a register that have one of the given access codes. -/
def RegDesc.bits (d : RegDesc) (accs : List Acc) : W64 :=
  d.flds.foldl (fun v f => if accs.contains f.acc then setFld v f.hi f.lo (2 ^ (f.hi + 1 - f.lo) - 1) else v) 0

/-- Bits of a register read under a mask: reserved and write-only bits read 0; the RC bits among them are then cleared (Table 0-5). -/
def State.regRd (s : State) (d : RegDesc) (a : Nat) (m : W64) : W64 × State :=
  let v := s.regVal d a
  let rc := d.bits [.rc] &&& m
  (v &&& d.bits [.rw, .ro, .w1c, .w1s, .rc] &&& m,
   if rc = 0 then s else { s with regs := tset s.regs a (BitVec.ofNat 64 d.rst) (v &&& ~~~ rc) })

/-- The low and high words of a wide register. -/
def loMask : W64 := 0xFFFFFFFF
def hiMask : W64 := 0xFFFFFFFF00000000

/-- One 32-bit word read: a register, the high half of a wide one, or an offset that no field map defines, which reads 0 (R29). -/
def State.rd32 (s : State) (a : Nat) : Nat × State :=
  match descAt a with
  | some d => ((s.regRd d a loMask).1.toNat, (s.regRd d a loMask).2)
  | none => match descAt (a - 4) with
    | some d => if d.wide ∧ a % 8 = 4 then ((s.regRd d (a - 4) hiMask).1.toNat / 2 ^ 32, (s.regRd d (a - 4) hiMask).2) else (0, s)
    | none => (0, s)

/-- A register word of 4 or 8 bytes read; a 64-bit register in one access (R30). -/
def State.rdReg (s : State) (a n : Nat) : Nat × State :=
  if n = 4 then s.rd32 a
  else match descAt a with
    | some d =>
      if d.wide then ((s.regRd d a (BitVec.allOnes 64)).1.toNat, (s.regRd d a (BitVec.allOnes 64)).2)
      else ((s.rd32 a).1 + ((s.rd32 a).2.rd32 (a + 4)).1 * 2 ^ 32, ((s.rd32 a).2.rd32 (a + 4)).2)
    | none => ((s.rd32 (a + 4)).1 * 2 ^ 32, (s.rd32 (a + 4)).2)

/-- Whether an address is in the request or response window of a mailbox, and which (R347). -/
def mbxWindow (a : Nat) : Option Bool :=
  if inBlk 0x3FF001000000 0x1C0000 a ∧ (a - 0x3FF001000000) % 0x10000 < 0x2000 then some (decide ((a - 0x3FF001000000) % 0x10000 < 0x1000)) else none

/-- The object and offset of an address in an object's register page (R284). -/
def syncPage (a : Nat) : Option (Nat × Nat) :=
  if inBlk 0x3FF010000000 0x2000000 a then some ((a - 0x3FF010000000) / 0x1000, (a - 0x3FF010000000) % 0x1000) else none

/-- An access to what only management reaches counted (R32). -/
def State.mgmtRefuse (s : State) : State := s.bump R.hubMapMgmtRefused 32 1

/-- A data-plane read of n bytes at an address of a block (R29 to R32, R391): the value and what the read changes. -/
def State.regRead (s : State) (a n : Nat) : Nat × State :=
  if mgmtOnly a then (0, s.mgmtRefuse)
  else if !s.blockOn a then (0, s)
  else match syncPage a, mbxWindow a with
    | some (o, x), _ => s.syncPageRd o x n
    | none, some _ => (s.word a n, s)
    | none, none => s.rdReg a n

/-! ### Writes -/

/-- The register word after a write under a mask: RW bits take the value, W1C bits written 1 are cleared, the others stay (Table 0-5). -/
def RegDesc.after (d : RegDesc) (old m v : W64) : W64 :=
  let rw := d.bits [.rw] &&& m
  (old &&& ~~~ rw &&& ~~~ (d.bits [.w1c] &&& m &&& v)) ||| (v &&& rw)

/-- A register written by its access codes alone. -/
def State.regPut (s : State) (d : RegDesc) (a : Nat) (m v : W64) : State :=
  { s with regs := tset s.regs a (BitVec.ofNat 64 d.rst) (d.after (tgetD s.regs a (BitVec.ofNat 64 d.rst)) m v) }

/-- A field value kept where the value written is outside its range. -/
def keepFld (old new : W64) (hi lo : Nat) (ok : Nat → Bool) : W64 := if ok (fld new hi lo) then new else setFld new hi lo (fld old hi lo)

/-- Host-tier windows (R335): whether window k with these tier and size fields would break the rule. -/
def State.htBad (s : State) (k tier size : Nat) : Bool :=
  decide (2 ^ 23 < tier + size) ||
    (List.range 64).any fun j => j != k && s.bget (R.cxlHtTier j) 63 && decide (s.fget (R.cxlHtTier j) 43 21 < tier + size)
      && decide (tier < s.fget (R.cxlHtTier j) 43 21 + s.fget (R.cxlHtSize j) 43 21)

/-- A write of cxl.ht.k.tier (Table 14-10): one that sets valid and breaks R335 is ignored. -/
def State.hostWindow (s : State) (k : Nat) (v : W64) : State :=
  if bit v 63 && s.htBad k (fld v 43 21) (s.fget (R.cxlHtSize k) 43 21) then s
  else s.set (R.cxlHtTier k) (BitVec.ofNat 64 (b2n (bit v 63) * 2 ^ 63 + fld v 43 21 * 2 ^ 21))
/-- HOST_WINDOW_WRITE (R337). -/
def execHostWindowWrite (k : Nat) (v : W64) (s : State) : Outc := run (k < 64) (s.hostWindow k v)

/-- A write of a register of the reg block (Tables 17-6, 17-7): each field keeps its value where the value written is out of its range; the
rates decide overcommit (R379). -/
def State.regBlkWr (s : State) (d : RegDesc) (a : Nat) (m v : W64) : State :=
  let old := tgetD s.regs a (BitVec.ofNat 64 d.rst)
  let new := d.after old m v
  let pos (x : Nat) : Bool := x != 0
  let new := if a = R.regClassW.addr then keepFld old (keepFld old (keepFld old new 23 16 pos) 15 8 pos) 7 0 pos
    else if a = R.regCongCfg.addr then (if fld new 15 12 ≤ fld new 11 8 then old else keepFld old new 7 0 pos)
    else match arrIdx (R.regPartC0 0).addr 8 128 a with
      | some i => match i % 8 with
        | 0 => keepFld old new 47 32 pos
        | 1 => keepFld old new 7 0 pos
        | 2 => keepFld old new 6 0 (fun x => decide (x ≤ 64))
        | _ => new
      | none => new
  { s with regs := tset s.regs a (BitVec.ofNat 64 d.rst) new }.overcommit

/-- A write of a register of invalidation slot k (Table 8-7): ignored while it is busy; then go (R236). -/
def State.invWr (s : State) (k : Nat) (d : RegDesc) (a : Nat) (m v : W64) : State :=
  if s.bget (R.xltInvCtl k) 30 then s
  else
    let s := s.regPut d a m v
    if a = (R.xltInvCtl k).addr ∧ bit (v &&& m) 31 then s.invGo k {} else s

/-- A write of a mailbox register (Tables 15-10 to 15-12). -/
def State.mbxWr (s : State) (k : Nat) (d : RegDesc) (a : Nat) (m v : W64) : State :=
  if a = (R.mbxDoorbell k).addr then s.doorbell k (BitVec.ofNat 32 (v &&& m).toNat)
  else if a = (R.mbxCvec k).addr then
    let kind := fld v 31 28
    if kind = 0 ∨ (kind = 1 ∧ k < 16) ∨ kind = 2 ∨ kind = 3 ∨ (kind = 4 ∧ 16 ≤ k ∧ k < 24) then s.regPut d a m v else s
  else s.regPut d a m v

/-- A write of a tile's register (chapters 2 to 4). -/
def State.tileRegWr (s : State) (t o : Nat) (d : RegDesc) (a : Nat) (m v : W64) : State :=
  let w := BitVec.ofNat 32 (v &&& m).toNat
  if o = 0x208 then (if s.running t then s else s.regPut d a m v)
  else if o = 0x210 then s.seqCtrl t w
  else if o = 0x400 then s.arithWr t w
  else if o = 0x408 then s.regPut d a m (s.flagsWr t v)
  else if o = 0x410 then s.seedWr t w
  else match arrIdx 0xA00 0x40 4 o, arrIdx 0xA08 0x40 4 o with
    | some n, _ => s.dmaCtrlWr t n w
    | none, some n => s.dmaTailWr t n w
    | none, none => s.regPut d a m v

/-- A write of a register of the service complex (chapter 16): a queue's cfg is ignored while tail differs from head. -/
def State.svcRegWr (s : State) (d : RegDesc) (a : Nat) (m v : W64) : State :=
  match arrIdx (R.svcIqCfg 0).addr 0x100 256 a, arrIdx (R.svcEqCfg 0).addr 0x100 16 a with
  | some q, _ => if s.get (R.svcIqTail q) = s.get (R.svcIqHead q) then s.regPut d a m v else s
  | none, some e => if s.get (R.svcEqTail e) = s.get (R.svcEqHead e) then s.regPut d a m v else s
  | none, none => s.regPut d a m v

/-- A write of a register of the cxl block (chapter 14): a window's host and size are ignored while it is valid. -/
def State.cxlRegWr (s : State) (d : RegDesc) (a : Nat) (m v : W64) : State :=
  match arrIdx (R.cxlHtTier 0).addr 8 256 a with
  | some i =>
    let k := i / 4
    if i % 4 = 0 then s.hostWindow k (d.after (s.get (R.cxlHtTier k)) m v)
    else if s.bget (R.cxlHtTier k) 63 then s else s.regPut d a m v
  | none => s.regPut d a m v

/-- A write of a register that a field map defines, under a mask of the bits the access carries. -/
def State.regWr1 (s : State) (d : RegDesc) (a : Nat) (m v : W64) : State :=
  let w := BitVec.ofNat 32 (v &&& m).toNat
  if a = R.stwBootStepGo.addr then (if s.powered && s.bget R.stwStatus 31 then s.stepGoWr w else s)
  else if inBlk 0x3FF000200000 0x1000 a then s.rwpWrite ((a - 0x3FF000200000) / 4) w
  else if a = R.pwrThermCfg.addr then (if 70 ≤ fld v 7 0 ∧ fld v 7 0 ≤ 100 then s.regPut d a m v else s)
  else if a = R.safWdogCfg.addr then (if 1 ≤ fld v 5 0 ∧ fld v 5 0 ≤ 50 then s.regPut d a m v else s)
  else if inBlk 0x3FF000302000 0x1000 a then
    match arrIdx (R.pwrBenchCeil 0).addr 0x10 68 a with
    | some b => if 1 ≤ w.toNat ∧ w.toNat ≤ 16 then (s.regPut d a m v).setDuty b else s
    | none => s
  else if inBlk 0x3FF000700000 0x100000 a then s.regBlkWr d a m v
  else if inBlk 0x3FF000800400 0x400 a then s.invWr ((a - 0x3FF000800400) / 0x40) d a m v
  else if a = R.cohCtrl.addr then
    s.set R.cohCtrl (keepFld (s.get R.cohCtrl) (d.after (s.get R.cohCtrl) m v) 15 0 (fun x => decide (5 ≤ x) && decide (x ≤ 1000)))
  else if a = R.cohDirProbeCtl.addr then s.dirProbeWr ((d.after (s.get R.cohDirProbeCtl) m v &&& 0x3FFFFFFFFFFFFFFF) ||| (v &&& m &&& 0x8000000000000000))
  else if inBlk 0x3FF000A00000 0x100000 a then s.cxlRegWr d a m v
  else if inBlk 0x3FF001000000 0x1C0000 a then s.mbxWr ((a - 0x3FF001000000) / 0x10000) d a m v
  else if inBlk 0x3FF00A000000 0x1000000 a then
    let n := (a - 0x3FF00A000000) / 0x40000
    let k := (a - 0x3FF00A000000) % 0x40000 / 0x100 - 0x10
    if a = (R.ctxLaneTail n k).addr then s.laneTail n k w
    else if a = (R.ctxLaneRing n k).addr then (if s.ringHead n k = s.ringTail n k then (s.regPut d a m v).ringPrefetch n k else s)
    else s.regPut d a m v
  else if inBlk 0x3FF100000000 0x100000000 a then s.tileRegWr ((a - 0x3FF100000000) / 0x100000) ((a - 0x3FF100000000) % 0x100000) d a m v
  else if inBlk 0x3FF004000000 0x1000000 a then s.svcRegWr d a m v
  else s.regPut d a m v

/-- One 32-bit word written. -/
def State.wr32 (s : State) (a v : Nat) : State :=
  match descAt a with
  | some d => s.regWr1 d a loMask (BitVec.ofNat 64 (v % 2 ^ 32))
  | none => match descAt (a - 4) with
    | some d => if d.wide ∧ a % 8 = 4 then s.regWr1 d (a - 4) hiMask (BitVec.ofNat 64 (v % 2 ^ 32 * 2 ^ 32)) else s
    | none => s

/-- A register word of 4 or 8 bytes written; a 64-bit register in one access (R30), two 32-bit ones one after the other. -/
def State.wrReg (s : State) (a n v : Nat) : State :=
  if n = 4 then s.wr32 a v
  else match descAt a with
    | some d => if d.wide then s.regWr1 d a (BitVec.allOnes 64) (BitVec.ofNat 64 v) else (s.wr32 a v).wr32 (a + 4) (v / 2 ^ 32)
    | none => (s.wr32 a v).wr32 (a + 4) (v / 2 ^ 32)

/-- A data-plane write of n bytes at an address of a block (R29 to R32, R347, R391). -/
def State.regWrite (s : State) (a n v : Nat) : State :=
  if mgmtOnly a then s.mgmtRefuse
  else if !s.blockOn a then s
  else match syncPage a, mbxWindow a with
    | some (o, x), _ => s.syncPageWr o x n v
    | none, some true => { s with mem := mwrite s.mem a (leBytes n v) }
    | none, some false => s
    | none, none => s.wrReg a n v

/-- Whether an access to the register window is a register access: naturally aligned, of 4 or 8 bytes (R30), inside a block (R29). -/
def regOk (a n : Nat) : Bool := (n == 4 || n == 8) && a % n == 0 && (blockAt a).isSome

end Sys2Proof.Machine
end

