-- ==== Sys2Proof/Machine/Access.lean ====
section
/-! DEFINITION. An access by a data-plane master to a global address (R21 to R32, R256, R286, R314, R330, R364): a hole, the register window, a tile's
local memory, a line homed here, a chiplet's or the host's memory, or another device. -/

namespace Sys2Proof.Machine

/-! ### Local memory and registers -/

/-- The tile and offset of an address in local memory, as stored. -/
def lmTile (a : Nat) : Nat := (a - 0x010200000000) / 0x80000
def lmOff (a : Nat) : Nat := (a - 0x010200000000) % 0x80000

/-- An access to local memory performed (R78 to R80): the bytes read or the old value of an Atomic, their poison, and the state. The address is that
of the physical view. -/
def State.lmAccess (s : State) (a n : Nat) (op : AccessOp) (poison : Bool) : List Byte × Bool × State :=
  let t := lmTile a
  let o := lmOff a
  let s := (s.routerRead (t / 32)).served t 16
  match op with
  | .read => let s := s.lmMeetAt t o n; (s.lmRead t o n, s.lmBad t o n, s)
  | .write bs => ([], false, s.lmWrite t o bs poison)
  | .atomic aop x c =>
    let s := s.lmMeetAt t o n
    let old := s.lmRead t o n
    (old, s.lmBad t o n, s.lmWrite t o (leBytes n (atomicVal aop n (leNat old) x.toNat c.toNat)) (poison || s.lmBad t o n))

/-- An access to the register window performed (R29, R30, R284 to R286): none for a hole. -/
def State.regAccess (s : State) (a n : Nat) (op : AccessOp) : Option (List Byte × State) :=
  if !regOk a n then none
  else match op with
    | .read => let (v, s) := s.regRead a n; some (leBytes n v, s)
    | .write bs => some ([], s.regWrite a n (leNat bs))
    | .atomic aop x c => match syncPage a with
      | some (obj, off) => if syncAtomicOk off aop n then let (v, s) := s.syncAtomic obj aop x c; some (leBytes 8 v.toNat, s) else none
      | none => none

/-! ### Accesses that wait for their home -/

/-- The frame that carries an access to another device (R308, Table 13-5): 8-byte accesses to a sync object's page as SYNC, others as GET, PUT and
ATOMIC. -/
def State.accFrame (s : State) (x : AccW) : Frame :=
  let a := BitVec.ofNat 64 (gLocal x.g)
  let d := gDev x.g
  let sync := x.n == 8 && (syncPage (gLocal x.g)).isSome
  match x.op with
  | .read => if sync then s.reqFrame d x.tc 0x04 0xF 0 0 a 0 [] false else s.reqFrame d x.tc 0x02 0 0 x.n a 0 [] false
  | .write bs =>
    if sync then s.reqFrame d x.tc 0x04 0 0 0 a (BitVec.ofNat 64 (leNat bs)) [] x.poison else s.reqFrame d x.tc 0x01 0 0 x.n a 0 bs x.poison
  | .atomic aop v c =>
    let p := leBytes x.n c.toNat
    if sync && (aop == 2 || aop == 3) then s.reqFrame d x.tc 0x04 aop 0 (if aop = 3 then 8 else 0) a v (if aop = 3 then p else []) x.poison
    else s.reqFrame d x.tc 0x03 aop 0 x.n a v p x.poison

/-- Whether an access to another device is one frame. -/
def accOne (x : AccW) : Bool := !accWrites x.op || x.n == 4 || x.n == 8

/-- A request to another device sent at once, or kept until there is room for it (R320, R321); without a route it is a hole (R26). -/
def State.accSend (s : State) (k : Nat) (x : AccW) : State :=
  match s.tksAsk x.why (s.accFrame x) with
  | .sent _ t => { t with accs := tdel t.accs k }
  | .stall => s
  | .noRoute => s.accDone k x [] false 2

/-- A write made piece by piece (R314, R336): its acknowledgements are awaited. -/
def State.accWrite (s : State) (k : Nat) (x : AccW) : State :=
  let (s, w) := s.gWrite x.m k x.g x.tc (accBytes x.op) x.poison
  if w = 0 then s.accDone k x [] false 0 else { s with accs := tput s.accs k { x with sent := true, left := w } }

/-- An Atomic of an access at its home (R251, R266). -/
def State.accAtomic (s : State) (k : Nat) (x : AccW) (aop : Nat) (v c : W64) : State :=
  let a := gLocal x.g
  match region a with
  | .site _ =>
    { s with accs := tdel s.accs k }.siteAsk x.why .atomic a x.n x.tc
      (leBytes x.n v.toNat ++ if aop = 3 then leBytes x.n c.toNat else []) x.poison aop (if x.n = 4 then 2 else 3)
  | _ =>
    { s with accs := tput s.accs k { x with sent := true } }.cohReq
      { k := .atomic, a := .other x.m, line := a / 128 * 128, tag := k, tc := x.tc, poison := x.poison, aop := aop, size := x.n, off := a % 128
        operand := v, compare := c }

/-- Whether a regulator holds an access of a service core or of the host's CXL.io to HBM or scratchpad at its source (Table 17-2); requests of other devices are
held before they become accesses. -/
def State.accShut (s : State) (x : AccW) : Bool :=
  (x.m.cls == .core || x.m.cls == .host) && s.near x.g && !s.regOpen (.other x.m) (s.home (gLocal x.g)) x.tc x.n

/-- An access tried, or looked at again (R249, R256, R320, R336). -/
def State.accTry (s : State) (k : Nat) : State :=
  match tget s.accs k with
  | none => s
  | some x =>
    if x.sent then
      match x.op with
      | .atomic _ _ _ => match x.res with
        | some (v, p) => s.accDone k x (leBytes x.n v) p 0
        | none => s
      | _ => if x.left = 0 then s.accDone k x [] false x.err else s
    else if s.accShut x then
      { s.regCount (.other x.m) (s.home (gLocal x.g)) x.tc x.n x.held with accs := tput s.accs k { x with held := true } }
    else if !s.isOwn x.g then
      if accOne x then s.accSend k x
      else if !s.tksOn || (s.route (gDev x.g)).isNone then s.accDone k x [] false 2
      else if s.gRoom x.g x.n then s.accWrite k x else s
    else match x.op with
      | .read =>
        if s.gReady x.m x.g x.n then
          let e := s.gErr x.g x.n
          let (bs, p, s) := s.gRead x.m x.g x.n x.tc
          s.accDone k x bs p e
        else s.gAsk x.m x.g x.n x.tc
      | .write _ => s.accWrite k x
      | .atomic aop v c => s.accAtomic k x aop v c

/-! ### Ports of the mesh (R13, R14) -/

/-- The benches whose edge or side ports a unit attaches to (Table 1-10); a tile's own bench. -/
def portBenches (m : Master) : List Nat :=
  match m.cls with
  | .tile => [m.idx / 32]
  | .hoist => [hoistBench m.idx]
  | .site => [[0, 1, 2, 3], [13, 14, 15, 16], [16, 33], [0, 17], [51, 52, 53, 54], [64, 65, 66, 67], [50, 67], [34, 51]].getD m.idx []
  | .tukosen => [[17, 33, 34, 50].getD (m.idx / 2) 17]
  | .host => [17]
  | .core => [67]
  | .steward => [0]
  | _ => []

/-- Mesh hops between two benches (R12). -/
def benchHops (a b : Nat) : Nat := (a % 17 - b % 17) + (b % 17 - a % 17) + ((a / 17 - b / 17) + (b / 17 - a / 17))

/-- The bench of a list that is nearest to another, the lower number on a tie (R14): the list rises. -/
def nearestBench (bs : List Nat) (dst : Nat) : Option Nat :=
  bs.foldl (fun r b => match r with | some c => if benchHops b dst < benchHops c dst then some b else r | none => some b) none

/-- The bench that the target at a global address lies behind. -/
def State.benchOf (s : State) (g : Nat) : Nat :=
  let a := s.home (gLocal g)
  if !s.isOwn g then match s.route (gDev g) with | some r => [17, 33, 34, 50].getD (r.1 / 2) 17 | none => 0
  else if isLm a then lmTile a / 32
  else match region a with
    | .host => 17
    | .site n => (portBenches ⟨.site, n⟩).headD 0
    | .regs => if inBlk 0x3FF100000000 0x100000000 a then (a - 0x3FF100000000) / 0x2000000 else if inBlk 0x3FF040000000 0x8000000 a then (a - 0x3FF040000000) / 0x100000 else 0
    | _ => Config.sliceBench (s.homeSlice a) % 68

/-- The bench through whose port a unit's message to an address enters the mesh, and its response leaves (R14). -/
def State.entryBench (s : State) (m : Master) (g : Nat) : Option Nat := nearestBench (portBenches m) (s.benchOf g)

/-- A message through its port reads a word of that bench's router (R457). -/
def State.portRead (s : State) (m : Master) (g : Nat) : State := match s.entryBench m g with | some b => s.routerRead b | none => s

/-- Whether an access to an address of this device is a hole (R27): unbacked bytes, a host line without its link (R341), an Atomic to the host tier
(R336) or across a line, or a write into the signed code area of the library. -/
def State.accHole (s : State) (a n : Nat) (op : AccessOp) : Bool :=
  !s.rangeBacked a n || (region a == .host && (!s.hostUp || accCode op == 2)) || (accCode op == 2 && decide (128 < a % 128 + n))
    || (accCode op != 0 && s.libHit (s.home a) n)

/-- An access by a master (R25 to R32): what it was made for takes the answer, now or when its home gives it. -/
def State.access (s : State) (m : Master) (why : Purp) (g n tc : Nat) (op : AccessOp) (poison : Bool) : State :=
  let a := gLocal g
  let s := s.portRead m g
  let put (s : State) : State :=
    { s with accs := tput s.accs s.accNext { m := m, why := why, g := g, tc := tc, op := op, n := n, poison := poison }, accNext := s.accNext + 1 }.accTry s.accNext
  if !s.isOwn g then put s
  else match region a with
    | .regs => match s.regAccess a n op with
      | some (bs, s) => s.reply why 0 0 (accRep g tc op bs false 0)
      | none => s.reply why 0 0 (accRep g tc op [] false 2)
    | _ =>
      if s.accHole a n op then s.reply why 0 0 (accRep g tc op [] false 2)
      else if isLm (s.home a) then
        let (bs, p, s) := s.lmAccess (s.home a) n op poison
        s.reply why 0 0 (accRep g tc op bs p 0)
      else put s

/-! ### MSGs into ingress queues (R370, R371) -/

/-- Slots of an ingress queue, and the bytes of one. -/
def State.iqSlots (s : State) (q : Nat) : Nat := 2 ^ (s.fget (R.svcIqCfg q) 59 56 + 4)
def State.iqSlot (s : State) (q : Nat) : Nat := 256 * 2 ^ s.fget (R.svcIqCfg q) 62 60

/-- The next step of the delivery at the front of a queue, if it waits for no acknowledgement. -/
def State.msgStep (s : State) (q : Nat) : Option State :=
  match tgetD s.svc.inq q [] with
  | [] => none
  | m :: r =>
    let tail := (s.get (R.svcIqTail q)).toNat
    let g := s.gOwn (s.fget (R.svcIqCfg q) 33 0 * 4096 + tail % s.iqSlots q * s.iqSlot q)
    let at' (s : State) (k : Nat) : State := { s with svc := { s.svc with inq := tset s.svc.inq q [] ({ m with ph := k } :: r) } }
    let pop (s : State) : State := { s with svc := { s.svc with inq := tset s.svc.inq q [] r } }
    let by' : Master := match m.why with | .ingress p _ => ⟨.tukosen, p⟩ | _ => svcHub
    let tc := match m.why with | .ingress _ f => f.tc | _ => 1
    let rep (e : Nat) : Rep := { g := g, wr := true, err := e }
    match m.ph with
    | 0 => if m.data.isEmpty then some (at' s 2) else some ((at' s 1).access by' (.msg q) (g + 16) m.data.length tc (.write m.data) m.poison)
    | 2 =>
      let h := leBytes 4 m.data.length ++ leBytes 4 m.src ++ leBytes 4 m.reqid.toNat ++ leBytes 4 tail
      some ((at' s 3).access by' (.msg q) g 16 tc (.write h) false)
    | 4 =>
      let s := ((pop s).set (R.svcIqTail q) (BitVec.ofNat 64 ((tail + 1) % 2 ^ 32))).syncAdd (s.fget (R.svcIqCfg q) 55 43) 1 false
      some (s.reply m.why 0 0 (rep 0))
    | 8 => some ((pop s).reply m.why 0 0 (rep 2))
    | _ => none
def State.msgGo (s : State) (q : Nat) : Nat → State
  | 0 => s
  | n + 1 => match s.msgStep q with | some t => t.msgGo q n | none => s
/-- The deliveries of every queue taken as far as they go. -/
def State.msgPump (s : State) : State := s.svc.inq.foldl (fun s (e : Nat × List MsgW) => s.msgGo e.1 (4 * e.2.length)) s

/-- What becomes of a MSG (R370, R371): answered 0x2, dropped for want of a slot and counted, or delivered. -/
inductive MsgR where
  | bad | full (s : State) | taken (s : State)
def State.msgIn (s : State) (q : Nat) (m : MsgW) : MsgR :=
  let w := tgetD s.svc.inq q []
  let used := ((s.get (R.svcIqTail q)).toNat + 2 ^ 32 - (s.get (R.svcIqHead q)).toNat) % 2 ^ 32
  if !s.bget (R.svcIqCfg q) 63 || decide (s.iqSlot q < m.data.length + 16) then .bad
  else if s.iqSlots q ≤ used + w.length then .full (s.bump (R.svcIqFull q) 32 1)
  else .taken ({ s with svc := { s.svc with inq := tput s.svc.inq q (w ++ [m]) } }.msgGo q 4)

/-! ### Register writes and local-memory accesses as commands -/

/-- What a hole does to the master that met it, where the master itself stops or is answered (Table 1-6). -/
def State.holeBy (s : State) (m : Master) (code g : Nat) : State :=
  let s := s.hole m code g
  match m.cls with
  | .tile => if (s.dressOf m.idx).isSome then s.kill m.idx 6 2 0 (BitVec.ofNat 64 g) else s
  | .core => s.modCore m.idx fun x => x.trap (if code = 0 then 5 else 7) (BitVec.ofNat 64 g)
  | .host => s.ur
  | .site => s.toAgent (.site m.idx) (gLocal g) poolRsp (.complete (.site m.idx) (gLocal g) 0 6 [2] false)
  | _ => s

/-- REGISTER_WRITE (R29 to R32): a data-plane write of the register window at a local physical address; another width or alignment, and an address
outside every block, is a hole access. -/
def State.registerWrite (s : State) (m : Master) (a : Nat) (n : Nat) (v : W64) : State :=
  if !s.powered then s
  else if region a = .regs ∧ regOk a n then s.regWrite a n (v.toNat % 2 ^ (8 * n)) else s.holeBy m 1 (s.gOwn a)
def execRegisterWrite (m : Master) (addr : W64) (width : Nat) (v : W64) (s : State) : Outc :=
  run (masterOk m && region addr.toNat == .regs) (s.registerWrite m addr.toNat width v)

/-- LM_EXTERNAL_ACCESS (R24, R78 to R80): a master's access to local memory through the bench router, at a local physical address of either view. -/
def State.lmExternal (s : State) (m : Master) (a n : Nat) (op : AccessOp) : State :=
  if !s.powered then s
  else if !s.rangeBacked a n then s.holeBy m (accCode op) (s.gOwn a)
  else
    let (bs, p, s) := s.lmAccess (s.home a) n op false
    if accWrites op then s else s.emit (.bytes m bs p)
def execLmExternalAccess (m : Master) (addr : Nat) (n : Nat) (op : AccessOp) (s : State) : Outc :=
  run (masterOk m && (region addr == .lmLogical || region addr == .lmPhysical))
    (match op with
     | .write bs => s.lmExternal m addr bs.length op
     | _ => s.lmExternal m addr n op)

/-- SYNC_EXCHANGE (R286): performed and answered with the old count, or a hole access with its answer (Table 1-6). -/
def execSyncExchange (m : Master) (obj off aop size : Nat) (operand compare : W64) (s : State) : Outc :=
  run (syncOk obj && masterOk m)
    (if syncAtomicOk off aop size then
       let (c, t) := s.syncAtomic obj aop operand compare
       t.emit (.data m c)
     else s.holeBy m 2 (s.gOwn ((R.syncCount obj).addr + off)))

end Sys2Proof.Machine
end

