-- ==== Sys2Proof/Machine/Ingress.lean ====
section
/-! DEFINITION. Requests of other devices at their target (R308, R314, R315, R321, R322, R370): performed in the order of their source and class, and
answered. -/

namespace Sys2Proof.Machine

/-! ### Requests in general -/

/-- Whether a request is well formed (R308, Tables 13-4 and 13-5). -/
def reqOk (f : Frame) : Bool :=
  let a := f.addr.toNat
  let body (n : Nat) : Bool := f.payload.length == n
  let plain := f.aop == 0 && f.fmt == 0
  decide (f.tc < 4) && f.status == 0 && decide (a < 2 ^ 46) &&
    (match f.op with
     | 0x01 => spanOk a f.len && body f.len && plain
     | 0x02 => spanOk a f.len && body 0 && plain
     | 0x03 => aopOk f.aop && f.fmt == 0 && (f.len == 4 || f.len == 8) && body f.len && decide (a % 4096 + f.len ≤ 4096)
     | 0x04 => f.fmt == 0 && (((f.aop == 0 || f.aop == 0xF || f.aop == 2) && f.len == 0 && body 0) || (f.aop == 3 && f.len == 8 && body 8))
     | 0x05 => spanOk a f.len && body f.len && (f.aop == 1 || f.aop == 2 || f.aop == 3) && (f.fmt == 0 || f.fmt == 1 || f.fmt == 0xC)
     | 0x08 => f.len == 0 && body 0 && plain
     | 0x09 => f.len == 0 && body 0 && plain && decide (a < 2 ^ 32)
     | 0x0A => body 0 && plain && decide (a < 2 ^ 32)
     | 0x0B => f.len == 4096 && body 4096 && plain && decide (a < 2 ^ 32)
     | 0x10 => body f.len && decide (f.len ≤ 4096) && plain && decide (a < 2 ^ 8)
     | 0x3E => f.len == 0 && body 0 && plain
     | _ => false)

/-- Whether a frame is well formed. -/
def frameOk (f : Frame) : Bool := if f.resp then respOk f else reqOk f

/-- Whether a memo entry of the source lies below a floor, modulo 65,536 (R321). -/
def memoOld (f : Frame) (e : MemoE) : Bool :=
  e.src == f.src && (let d := (f.floor + 65536 - e.reqid.toNat % 65536) % 65536; decide (0 < d) && decide (d < 32768))

/-- An access for a request (R314). -/
def State.ingress (s : State) (p : Nat) (f : Frame) (a n : Nat) (op : AccessOp) : State :=
  s.access ⟨.tukosen, p⟩ (.ingress p f) (s.gOwn a) n f.tc op f.poison

/-! ### Memory operations -/

/-- A hole met by a request (R28, Table 13-6). -/
def State.ingressHole (s : State) (p : Nat) (f : Frame) (code : Nat) : State :=
  (s.hole ⟨.tukosen, p⟩ code (s.gOwn f.addr.toNat)).tksRespond f 2 f.addr.toNat 0 [] false

/-- SYNC: an operation on the register page of an object; another address is a hole. -/
def State.tksSyncDo (s : State) (p : Nat) (f : Frame) : State :=
  let a := f.addr.toNat
  match syncPage a with
  | none => s.ingressHole p f (if f.aop = 0xF then 0 else if f.aop = 0 then 1 else 2)
  | some _ =>
    match f.aop with
    | 0 => s.ingress p f a 8 (.write (leBytes 8 f.aux.toNat))
    | 0xF => s.ingress p f a 8 .read
    | k => s.ingress p f a 8 (.atomic k f.aux (BitVec.ofNat 64 (leNat f.payload)))

/-- RED (R315): each line of the payload combined at its home; HBM and scratchpad only. -/
def State.redDo (s : State) (p : Nat) (f : Frame) : State :=
  let a := f.addr.toNat
  if (region a != .hbm && region a != .scratch) || !s.rangeBacked a f.len || s.libHit a f.len then s.ingressHole p f 1
  else
    let m : Master := ⟨.tukosen, p⟩
    let k := s.accNext
    let ps := pieces 128 a f.payload
    let x : AccW := { m := m, why := .ingress p f, g := s.gOwn a, tc := f.tc, op := .write [], n := f.len, sent := true, left := ps.length }
    let s := { s with accs := tput s.accs k x, accNext := k + 1 }
    (ps.foldl (fun (s : State) (e : Nat × List Byte) => (s.regSpend (.other m) e.1 f.tc e.2.length).cohReq
      { k := .wrPart, a := .other m, line := e.1 / 128 * 128, tag := k, tc := f.tc, mask := byteMask (e.1 % 128) e.2.length
        data := BitVec.ofNat 1024 (leNat e.2 * 2 ^ (8 * (e.1 % 128))), poison := f.poison, red := f.aop, fmt := f.fmt }) s).accTry k

/-! ### The export pool (R166) -/

/-- Setts of the export pool, and whether a run of them is granted to a peer, or free. -/
def State.expoSetts (s : State) : Nat := s.expo.len / 4096
def State.settsOf (s : State) (dev i n : Nat) : Bool :=
  decide (0 < n) && decide (i + n ≤ s.expoSetts) && (List.range n).all fun k => tget s.expo.granted (i + k) == some dev
/-- SETT_GRANT: the lowest free run of the setts asked for, or a refusal. -/
def State.settGrantDo (s : State) (f : Frame) : State :=
  let n := f.aux.toNat
  if n = 0 ∨ s.expoSetts < n then s.tksRespond f 6 0 0 [] false
  else match findRun [(0, s.expoSetts)] (s.expo.granted.map (·.1)) n with
    | none => s.tksRespond f 6 0 0 [] false
    | some u => { s with expo := { s.expo with granted := (List.range n).foldl (fun t k => tput t (u + k) f.src) s.expo.granted } }.tksRespond
        f 0 u (BitVec.ofNat 64 n) [] false
/-- SETT_RETURN: a run granted to the peer freed. -/
def State.settReturnDo (s : State) (f : Frame) : State :=
  let i := f.addr.toNat
  let n := f.aux.toNat
  if s.settsOf f.src i n then
    { s with expo := { s.expo with granted := s.expo.granted.filter fun e => !(decide (i ≤ e.1) && decide (e.1 < i + n)) } }.tksRespond f 0 i 0 [] false
  else s.tksRespond f 6 i 0 [] false
/-- SETT_READ and SETT_WRITE: of a sett granted to the peer. -/
def State.settAccess (s : State) (p : Nat) (f : Frame) (op : AccessOp) : State :=
  if s.settsOf f.src f.addr.toNat 1 then s.ingress p f (s.expo.base + 4096 * f.addr.toNat) 4096 op
  else s.tksRespond f 6 f.addr.toNat 0 [] false

/-! ### Messages, echo, responses, transit -/

/-- MSG (R370, R371): no response where the queue is full. -/
def State.msgDo (s : State) (p : Nat) (f : Frame) : State :=
  match s.msgIn f.addr.toNat ⟨.ingress p f, f.payload, f.src, f.reqid, f.poison, 0⟩ with
  | .bad => s.tksRespond f 2 f.addr.toNat 0 [] false
  | .full t => t
  | .taken t => t

/-! ### Performing, in order (R314, R321, R322) -/

/-- A well-formed request performed, by its operation (Table 13-5); the size of an ATOMIC is its payload's length (log entry 24). -/
def State.reqDo (s : State) (p : Nat) (f : Frame) : State :=
  let a := f.addr.toNat
  match f.op with
  | 0x01 => s.ingress p f a f.len (.write f.payload)
  | 0x02 => s.ingress p f a f.len .read
  | 0x03 => s.ingress p f a f.len (.atomic f.aop f.aux (BitVec.ofNat 64 (leNat f.payload)))
  | 0x04 => s.tksSyncDo p f
  | 0x05 => s.redDo p f
  | 0x08 => s.settGrantDo f
  | 0x09 => s.settReturnDo f
  | 0x0A => s.settAccess p f .read
  | 0x0B => s.settAccess p f (.write f.payload)
  | 0x10 => s.msgDo p f
  | 0x3E => s.tksRespond f 0 a 0 [] false
  | _ => s

/-- The line of HBM or scratchpad that a request reads or writes first, and its bytes, as the regulator of its port counts it (R377). -/
def State.reqPlace (s : State) (f : Frame) : Option (Nat × Nat) :=
  let a := f.addr.toNat
  match f.op with
  | 0x01 | 0x02 | 0x03 | 0x05 => some (s.home a, f.len)
  | 0x0A | 0x0B => some (s.expo.base + 4096 * a, 4096)
  | 0x10 => some (s.fget (R.svcIqCfg (a % 256)) 33 0 * 4096, f.len)
  | _ => none
/-- Whether a regulator holds a request in its port's receive cells (Table 17-2). -/
def State.reqShut (s : State) (p : Nat) (f : Frame) : Bool :=
  match s.reqPlace f with
  | some (a, n) => !s.regOpen (.other ⟨.tukosen, p⟩) a f.tc n
  | none => false
/-- One held for its class-0 bucket, counted once (R378). -/
def State.reqHeld (s : State) (p : Nat) (f : Frame) (counted : Bool) : State :=
  match s.reqPlace f with
  | some (a, n) => if region a = .hbm ∨ region a = .scratch then s.regCount (.other ⟨.tukosen, p⟩) a f.tc n counted else s
  | none => s

/-- Requests of other devices that are being performed. -/
def Purp.request : Purp → Option Frame
  | .ingress _ f => some f
  | _ => none
def State.performing (s : State) : List Frame :=
  s.accs.filterMap (fun e => e.2.why.request) ++ s.ext.filterMap (fun e => e.2.why.request)
    ++ s.svc.inq.flatMap fun e => e.2.filterMap fun m => m.why.request

/-- Whether an earlier request of the same source and class is still to be performed (R322). -/
def sameFlow (f g : Frame) : Bool := f.src == g.src && f.tc == g.tc
def State.flowBusy (s : State) (f : Frame) : Bool := s.performing.any (sameFlow f)

/-- Whether the memo has no room for one more performed request (R321). -/
def State.memoFull (s : State) : Bool := decide (65536 ≤ s.memo.length + (s.performing.filter fun f => opMemo f.op).length)

/-- A request whose turn has come: a duplicate answered from the memo, a full memo answered 0x3, else performed (R321); its buffer is free. -/
def State.reqGo (s : State) (p : Nat) (f : Frame) : State :=
  (match s.memo.find? (fun e : MemoE => e.src == f.src && e.reqid == f.reqid) with
   | some e => (s.bump R.tksE2eDup 32 1).tksSendResp f e.status e.addr e.aux [] false
   | none =>
     if opMemo f.op && s.memoFull then (s.bump R.tksE2eBusy 32 1).tksSendResp f 3 f.addr.toNat 0 [] false
     else s.reqDo p f).oweCells (some (cellsOf p f))

/-- A request of this device's own address taken from port p: none during a handover (Table 13-8); the memo entries below its floor freed (R321); its turn
comes after earlier requests of its source and class (R322), but for an ECHO, which the port answers. -/
def State.reqIn (s : State) (p : Nat) (f : Frame) : State :=
  if s.bget R.secTenStatus 31 then s.oweCells (some (cellsOf p f))
  else if !reqOk f then (s.bump (R.tksMalformed p) 32 1).oweCells (some (cellsOf p f))
  else
    let s := State.memoCount { s with memo := s.memo.filter fun e : MemoE => !memoOld f e }
    if f.op != 0x3E && (s.flowBusy f || s.ingQ.any fun e => sameFlow f e.2.1) then { s with ingQ := s.ingQ ++ [(p, f, false)] }
    else if s.reqShut p f then let s := s.reqHeld p f false; { s with ingQ := s.ingQ ++ [(p, f, true)] }
    else s.reqGo p f

/-- Whether it is a waiting request's turn: it is the oldest of its flow, and none of the flow is being performed. -/
def State.ingTurn (s : State) (e : Nat × Frame × Bool) : Bool := !s.flowBusy e.2.1 && (s.ingQ.find? fun x => sameFlow e.2.1 x.2.1) == some e

/-- Waiting requests whose turn has come performed, or held by the regulator of their port; the first argument is fuel. -/
def State.ingGo (s : State) : Nat → State
  | 0 => s
  | n + 1 =>
    match s.ingQ.find? (fun e => s.ingTurn e && !s.reqShut e.1 e.2.1) with
    | none =>
      { (s.ingQ.filter s.ingTurn).foldl (fun (s : State) e => s.reqHeld e.1 e.2.1 e.2.2) s with
        ingQ := s.ingQ.map fun e => (e.1, e.2.1, e.2.2 || s.ingTurn e) }
    | some e => ({ s with ingQ := s.ingQ.erase e }.reqGo e.1 e.2.1).ingGo n

/-- Every access that waits, every delivery and every waiting request looked at again. -/
def State.accPump (s : State) : State :=
  let s := ((s.accs.map (·.1)).foldl State.accTry s.duePump).msgPump
  s.ingGo (s.ingQ.length + 1)

end Sys2Proof.Machine
end

