-- ==== Sys2Proof/Machine/CohCmd.lean ====
section
/-! DEFINITION. The messages of the coherence protocol as they arrive (chapter 9, Tables 9-3 and 9-4): requests at the hub's homes from
tiles, chiplets and the host, answers to snoops, answers to the requesters, and the lines homed at a chiplet. -/

namespace Sys2Proof.Machine

/-- What follows every message at a home: a job whose recalls have ended is finished, and accesses that wait are looked at again. -/
def State.cohTail (s : State) : State := s.jobEnd.regPump.accPump

/-- Whether an agent exists. -/
def agentOk : Agent → Bool
  | .tile t => decide (t < 2176)
  | .site n => decide (n < 8)
  | .host => true
  | .other m => masterOk m

/-- The global address of a line by its number: a number from 2^39 on counts global addresses (glob of Table 10-3). -/
def State.lineG (s : State) (l : Nat) : Nat := if l < 2 ^ 39 then s.gOwn (128 * l) else 128 * l

/-! ### Requests of tiles -/

/-- The access in a slot of a tile whose request may reach the home of line l now: it has not, and no earlier store of the tile that has not stands
before it (stores leave in program order, R83; a load sees earlier stores to its line, R260). -/
def State.tileTurn (s : State) (t k l : Nat) (p : Miss → Bool) : Option Miss :=
  match tget (s.tile t).misses k with
  | some m =>
    let before := (s.tile t).misses.filter fun e : Nat × Miss => !e.2.sent && e.2.store && decide (e.2.seq < m.seq)
    if !m.sent && m.line == 128 * l && p m && !(before.any fun e : Nat × Miss => m.store || e.2.line == m.line) then some m else none
  | none => none

/-- A tile's request at the home of its line: here, or at the chiplet whose window holds it (R256). One that a regulator holds stays (R377, R378). -/
def State.tileReq (s : State) (t l k tc : Nat) (rk : ReqK) (p : Miss → Bool) : State :=
  match s.tileTurn t k l p with
  | none => s
  | some m =>
    let a := m.line + m.off
    let bs := if m.store then leBytes 4 m.data.toNat else []
    let n := if m.cached then 128 else 4
    let sent (r : Option W32) : State := (s.routerRead (t / 32)).modTile t fun x => { x with misses := tput x.misses k { m with sent := true, req := r } }
    match region a with
    | .site n =>
      if s.siteBacked n a then
        (sent (some (BitVec.ofNat 32 s.extNext))).siteAsk (.tile t k) rk (if m.cached then m.line else a) (if m.cached then 128 else 4) tc bs false 0 0
      else s.missHole t k (s.gOwn a)
    | _ =>
      if !s.regOpen (.tile t) a tc n then (s.regCount (.tile t) a tc n m.held).modTile t fun x => { x with misses := tput x.misses k { m with held := true } }
      else if s.homed a then
        ((sent none).regSpend (.tile t) a tc n).cohReq
          { k := rk, a := .tile t, line := m.line, tag := k, tc := tc, mask := byteMask m.off 4, data := BitVec.ofNat 1024 (leNat bs * 2 ^ (8 * m.off)) }
      else s.missHole t k (s.gOwn a)

/-! ### Requests of chiplets (R256, R266) -/

/-- A request of a site refused, with the reason of Table 10-3. -/
def State.siteErr (s : State) (n : Nat) (r : CReq) (reason : Nat) : State :=
  s.toAgent (.site n) r.line poolRsp (.complete (.site n) r.line r.tag 6 [BitVec.ofNat 8 reason] false)
/-- A hole met by a site (R27). -/
def State.siteHole (s : State) (n : Nat) (r : CReq) (code g reason : Nat) : State := (s.hole ⟨.site, n⟩ code g).siteErr n r reason

/-- The access code of a request: 0 read, 1 write, 2 Atomic. -/
def ReqK.code : ReqK → Nat
  | .wrFull => 1
  | .wrPart => 1
  | .evictDirty => 1
  | .atomic => 2
  | _ => 0

/-- Runs of bytes under a mask, lowest first: offset and bytes. -/
def runsOf (mask : BitVec 128) (data : BitVec 1024) : List (Nat × List Byte) :=
  let bs := leBytes 128 data.toNat
  ((List.range 128).foldl (fun (acc : List (Nat × List Byte)) i =>
    if nbit mask.toNat i then
      match acc with
      | (o, x) :: r => if o + x.length = i then (o, x ++ (bs.drop i).take 1) :: r else (i, (bs.drop i).take 1) :: acc
      | [] => [(i, (bs.drop i).take 1)]
    else acc) []).reverse

/-- A site's write to bytes this device does not home: an access for each run of bytes, answered once all are performed. -/
def State.siteWrite (s : State) (n : Nat) (r : CReq) (g : Nat) : State :=
  let m : Master := ⟨.site, n⟩
  let k := s.accNext
  let rs := runsOf r.mask r.data
  let x : AccW := { m := m, why := .site n r.tag, g := g, tc := r.tc, op := .write [], n := 128, poison := r.poison, sent := true, left := rs.length }
  let s := { s with accs := tput s.accs k x, accNext := k + 1 }
  (rs.foldl (fun (s : State) (e : Nat × List Byte) => s.access m (.eng m k) (g + e.1) e.2.length r.tc (.write e.2) r.poison) s).accTry k

/-- A site's request to a line homed at a chiplet, passed on in its own kind (R256, R257). -/
def State.sitePass (s : State) (n m : Nat) (r : CReq) : State :=
  let id := s.extNext
  let a := if r.k = .atomic then r.line + r.off else r.line
  let data := if r.k.writes then mergeBytes 128 r.mask.toNat (s.read r.line 128) r.data.toNat else []
  let body : List Byte :=
    if r.k = .atomic then List.replicate (r.off % 64) 0 ++ leBytes r.size r.operand.toNat ++ (if r.aop = 3 then leBytes r.size r.compare.toNat else [])
    else leBytes 128 r.data.toNat
  let s := { s with ext := tput s.ext id ⟨some m, a, if r.k == ReqK.atomic then r.size else 128, r.k, .site n r.tag, data, r.tc⟩, extNext := id + 1 }
  let s := s.siteSend m (s.modSel m r.line) (r.tc % 4)
    (.req m r.k a (id % 4096) r.tc (if r.k.writes then r.mask else 0) r.data r.poison r.aop (if r.size = 4 then 2 else if r.size = 8 then 3 else 0))
  if r.k.code = 0 then s else s.siteSend m (s.modSel m r.line) (poolDat r.tc) (.complete (.site m) a (id % 4096) 5 body r.poison)

/-- A site's request to a line with no directory here: another chiplet's; or a read, a write or an Atomic performed where the line lies. A line
that nothing caches has no copy to own or to evict: its owner's request reads, and its eviction is discarded. -/
def State.siteFar (s : State) (n : Nat) (r : CReq) (g : Nat) : State :=
  let go (s : State) : State :=
    match r.k with
    | .wrFull => s.siteWrite n r g
    | .wrPart => s.siteWrite n r g
    | .atomic => s.access ⟨.site, n⟩ (.site n r.tag) (g + r.off) r.size r.tc (.atomic r.aop r.operand r.compare) r.poison
    | .evictClean => s.toAgent (.site n) r.line poolRsp (.complete (.site n) r.line r.tag 4 [] false)
    | .evictDirty => s.toAgent (.site n) r.line poolRsp (.complete (.site n) r.line r.tag 4 [] false)
    | _ => s.access ⟨.site, n⟩ (.site n r.tag) g 128 r.tc .read false
  if !s.isOwn g then go s
  else match region r.line with
    | .site m =>
      if !s.bget (R.siteStatus m) 31 then s.siteHole n r r.k.code g 3
      else if !s.siteBacked m r.line then s.siteHole n r r.k.code g 2
      else s.sitePass n m r
    | _ => go s

/-- A request of a site (R249, R255, R265): none from a site that is not up; refused while it is fenced; one with a reserved field fences it. -/
def State.siteReq (s : State) (n l : Nat) (r : CReq) : State :=
  let g := s.lineG l
  let r := { r with a := .site n, line := gLocal g }
  if !s.bget (R.siteStatus n) 31 then s
  else if s.fenced n then s.siteErr n r 1
  else if r.k = .atomic ∧ (!(aopOk r.aop) ∨ (r.size ≠ 4 ∧ r.size ≠ 8)) then (s.log' 1 12 10 [n]).fence n
  else if r.k = .atomic ∧ 128 < r.off + r.size then s.siteHole n r 2 g 2
  else if s.isOwn g && s.homed r.line then
    match r.k with
    | .evictClean => s.cohReq r
    | .evictDirty => s.cohReq r
    | _ => if r.k.code ≠ 0 ∧ s.libHit r.line 128 then s.siteHole n r r.k.code g 2
      else s.regOne (r, false)
  else s.siteFar n r g

/-- A request of the host as a coherence message (R333). -/
def State.hostReq (s : State) (l : Nat) (r : CReq) : State :=
  if s.hostUp && s.homed (128 * l) && !(decide (r.k.code ≠ 0) && s.libHit (128 * l) 128) then s.regOne ({ r with a := .host, line := 128 * l }, false) else s

/-- A request reaching its home. A unit of the hub itself sends its requests with the commands that make them. -/
def State.request (s : State) (a : Agent) (l : Nat) (r : CReq) (p : Miss → Bool) : State :=
  if !s.powered then s
  else match a with
    | .tile t => s.tileReq t l r.tag r.tc r.k p
    | .site n => s.siteReq n l r
    | .host => s.hostReq l r
    | .other _ => s

/-- RD_SHARED: a tile's, for a miss that allocates. -/
def execRdShared (a : Agent) (line tag tc : Nat) (s : State) : Outc :=
  run (agentOk a) (s.request a line { k := .rdShared, a := a, line := 0, tag := tag, tc := tc } (fun m => m.cached && !m.store)).cohTail
/-- RD_UNIQUE. -/
def execRdUnique (a : Agent) (line tag tc : Nat) (s : State) : Outc :=
  run (agentOk a) (s.request a line { k := .rdUnique, a := a, line := 0, tag := tag, tc := tc } (fun _ => false)).cohTail
/-- UPGRADE. -/
def execUpgrade (a : Agent) (line tag tc : Nat) (s : State) : Outc :=
  run (agentOk a) (s.request a line { k := .upgrade, a := a, line := 0, tag := tag, tc := tc } (fun _ => false)).cohTail
/-- RD_NO_ALLOC: a tile's, for a load that does not allocate. -/
def execRdNoAlloc (a : Agent) (line tag tc : Nat) (s : State) : Outc :=
  run (agentOk a) (s.request a line { k := .rdNoAlloc, a := a, line := 0, tag := tag, tc := tc } (fun m => !m.cached && !m.store)).cohTail
/-- WR_FULL. -/
def execWrFull (a : Agent) (line tag tc : Nat) (data : BitVec 1024) (poison : Bool) (s : State) : Outc :=
  run (agentOk a) (s.request a line { k := .wrFull, a := a, line := 0, tag := tag, tc := tc, mask := BitVec.allOnes 128, data := data, poison := poison }
    (fun _ => false)).cohTail
/-- WR_PART: a tile's, for a store. -/
def execWrPart (a : Agent) (line tag tc : Nat) (mask : BitVec 128) (data : BitVec 1024) (poison : Bool) (s : State) : Outc :=
  run (agentOk a) (s.request a line { k := .wrPart, a := a, line := 0, tag := tag, tc := tc, mask := mask, data := data, poison := poison }
    (fun m => m.store)).cohTail
/-- ATOMIC: `size` bytes at an address. -/
def execAtomicOp (a : Agent) (addr tag tc aop size : Nat) (operand compare : W64) (s : State) : Outc :=
  run (agentOk a) (s.request a (addr / 128) { k := .atomic, a := a, line := 0, tag := tag, tc := tc, aop := aop, size := size, off := addr % 128
                                              operand := operand, compare := compare } (fun _ => false)).cohTail
/-- EVICT_CLEAN (R254). -/
def execEvictClean (a : Agent) (line tag : Nat) (s : State) : Outc :=
  run (agentOk a) (s.request a line { k := .evictClean, a := a, line := 0, tag := tag } (fun _ => false)).cohTail
/-- EVICT_DIRTY (R254). -/
def execEvictDirty (a : Agent) (line tag : Nat) (data : BitVec 1024) (poison : Bool) (s : State) : Outc :=
  run (agentOk a) (s.request a line { k := .evictDirty, a := a, line := 0, tag := tag, data := data, poison := poison } (fun _ => false)).cohTail

/-- DAT_WR (R266): the data of a write, an Atomic or an eviction that is queued or in progress. -/
def CReq.withData (r : CReq) (a : Agent) (l tag : Nat) (mask : BitVec 128) (data : BitVec 1024) (poison : Bool) : CReq :=
  if r.a = a ∧ r.line = 128 * l ∧ r.tag = tag then
    match r.k with
    | .wrFull => { r with data := data, poison := poison }
    | .wrPart => { r with data := data, mask := mask, poison := poison }
    | .evictDirty => { r with data := data, poison := poison }
    | .atomic =>
      let o := data.toNat / 2 ^ (8 * (r.off % 64))
      { r with operand := BitVec.ofNat 64 (o % 2 ^ (8 * r.size)), compare := BitVec.ofNat 64 (o / 2 ^ (8 * r.size) % 2 ^ (8 * r.size)), poison := poison }
    | _ => r
  else r
def execDatWr (a : Agent) (line tag : Nat) (mask : BitVec 128) (data : BitVec 1024) (poison : Bool) (s : State) : Outc :=
  run (agentOk a) { s with
    txn := s.txn.map fun e : Nat × Txn => (e.1, { e.2 with r := e.2.r.withData a line tag mask data poison })
    lineQ := s.lineQ.map fun e : Nat × List CReq => (e.1, e.2.map fun r : CReq => r.withData a line tag mask data poison) }

/-! ### Snoops of chiplet homes (R257) -/

/-- A snoop of a chiplet home: of another site's copy, passed on unchanged; of the hub agent's, which holds only S: SnpInv is passed to every bench
that holds lines and answered RspI once each has dropped it, the others are answered RspS. -/
def State.chipSnoop (s : State) (m l tag kind : Nat) (target : Option Nat) : State :=
  if !s.powered || !s.bget (R.siteStatus m) 31 || !s.siteCoherent m (128 * l) then s
  else match target with
    | some k => s.toAgent (.site k) (128 * l) poolSnp (.snoop (.site k) (128 * l) tag kind)
    | none =>
      if kind = 1 then
        ({ s with binv := s.binv ++ ((List.range 68).filter fun b => !s.benchDown b).map fun b => (b, l), snpInv := s.snpInv ++ [(m, l, tag)] }.snpInvDone l)
      else s.toHome m l tag 10 [] false
/-- Whether a snoop names a home and, where it names one, another site. -/
def snpOk (site line : Nat) (target : Option Nat) : Bool :=
  decide (site < 8) && region (128 * line) == .site site && (match target with | some k => decide (k < 8 ∧ k ≠ site) | none => true)
/-- SNP_INV. -/
def execSnpInv (site line tag : Nat) (target : Option Nat) (s : State) : Outc := run (snpOk site line target) (s.chipSnoop site line tag 1 target)
/-- SNP_SHARE. -/
def execSnpShare (site line tag : Nat) (target : Option Nat) (s : State) : Outc := run (snpOk site line target) (s.chipSnoop site line tag 2 target)
/-- SNP_CUR. -/
def execSnpCur (site line tag : Nat) (target : Option Nat) (s : State) : Outc := run (snpOk site line target) (s.chipSnoop site line tag 3 target)

/-! ### Answers to snoops -/

/-- An answer to a snoop: at the home here, or passed to the chiplet that homes the line. -/
def State.snpAns (s : State) (a : Agent) (l kind : Nat) (data : List Byte) (poison : Bool) (here : State → State) : State :=
  match region (128 * l), a with
  | .site m, .site _ => s.toHome m l 0 kind data poison
  | _, _ => here s
/-- RSP_I. -/
def execRspI (a : Agent) (line : Nat) (s : State) : Outc := run (agentOk a) (s.snpAns a line 9 [] false fun s => (s.rspI a line).cohTail)
/-- RSP_S. -/
def execRspS (a : Agent) (line : Nat) (s : State) : Outc := run (agentOk a) (s.snpAns a line 10 [] false fun s => (s.rspS a line).cohTail)
/-- RSP_FWD. -/
def execRspFwd (a : Agent) (line : Nat) (s : State) : Outc := run (agentOk a) (s.snpAns a line 11 [] false fun s => (s.rspFwd a line).cohTail)
/-- DAT_WB. -/
def execDatWb (a : Agent) (line : Nat) (data : BitVec 1024) (poison : Bool) (s : State) : Outc :=
  run (agentOk a) (s.snpAns a line 7 (leBytes 128 data.toNat) poison fun s => s.datWb a line data poison)
/-- DAT_CUR. -/
def execDatCur (a : Agent) (line : Nat) (data : BitVec 1024) (poison : Bool) (s : State) : Outc :=
  run (agentOk a) (s.snpAns a line 8 (leBytes 128 data.toNat) poison fun s => (s.datCur a line data poison).cohTail)

/-- The tile whose write caused an invalidation: it keeps the line (R245). -/
def State.invWriter (s : State) (b l : Nat) : Option Nat :=
  match tget s.txn l with
  | some t => if t.benches.contains b then (match t.r.a with | .tile x => some x | _ => none) else none
  | none => none
/-- BENCH_INVALIDATION: one that is on its way. -/
def execBenchInvalidation (bench line : Nat) (writer : Option Nat) (s : State) : Outc :=
  run (bench < 68)
    (if ((match tget s.txn line with | some t => t.benches.contains bench | none => false) || s.binv.contains (bench, line)) && writer == s.invWriter bench line then
      ((s.benchInv bench line writer).snpInvDone line).cohTail
    else s)
/-- LINE_QUEUE_RESUME. -/
def execLineQueueResume (line : Nat) (s : State) : Outc := .next (s.lineResume line).cohTail
/-- SNOOP_TIMEOUT. -/
def execSnoopTimeout (a : Agent) (s : State) : Outc := run (agentOk a) (s.snoopTimeout a).cohTail

/-! ### Answers reaching their requesters -/

/-- An answer of a home here, taken from its way. -/
def State.ansTake (s : State) (a : Agent) (l tag : Nat) (k : AnsK) : Option (Ans × State) :=
  match s.ans.find? (fun x : Ans => x.a == a && x.line / 128 == l && x.tag == tag && x.k == k) with
  | some x => some (x, { s with ans := s.ans.erase x })
  | none => none

/-- The code of an answer's kind, and what the host is granted by it (Table 14-4): 0 Cmp, 1 Cmp-S, 2 Cmp-E, 3 an error. -/
def ansCode : AnsK → Nat
  | .datC => 0
  | .datS => 1
  | .datF => 2
  | .cmpE => 3
  | .rspErr => 6
def Ans.grant (x : Ans) : Nat :=
  match x.k with
  | .rspErr => 3
  | .datS => b2n x.copy
  | _ => 2

/-- An answer delivered. -/
def State.ansGive (s : State) (x : Ans) : State :=
  match x.a with
  | .tile t => match x.k with
    | .datS => s.fillDone t x.tag x.data x.poison x.copy
    | _ => s
  | .site n => match x.k with
    | .cmpE => s.toAgent x.a x.line poolRsp (.complete (.site n) x.line x.tag 3 [] false)
    | .rspErr => s.toAgent x.a x.line poolRsp (.complete (.site n) x.line x.tag 6 [BitVec.ofNat 8 x.reason] false)
    | k => s.toAgent x.a x.line (poolDat x.tc) (.complete (.site n) x.line x.tag (ansCode k) (leBytes x.n x.data.toNat) x.poison)
  | .host =>
    let hpa := tgetD s.cfg.hostTag x.tag (2 * x.line) / 2
    let inv := tgetD s.cfg.hostTag x.tag (2 * x.line) % 2 == 1
    let s := { s with cfg := { s.cfg with hostTag := tdel s.cfg.hostTag x.tag } }
    match x.k with
    | .cmpE => s.emit (.memCmp hpa x.tag 2)
    | .rspErr => s.emit (.memCmp hpa x.tag 3)
    | _ => if inv then s.emit (.memCmp hpa x.tag 2) else s.emit (.memData hpa x.tag x.grant (((leBytes 128 x.data.toNat).drop (hpa % 128 / 64 * 64)).take 64) x.poison)
  | .other _ => s

/-- The request outstanding at the chiplet that homes a line, by its tag. -/
def State.extFind (s : State) (l tag : Nat) : Option (Nat × ExtReq) :=
  match region (128 * l) with
  | .site m => s.ext.find? fun e : Nat × ExtReq => e.2.site == some m && e.1 % 4096 == tag && e.2.addr / 128 == l
  | _ => none

/-- An answer of a chiplet home: passed to the site that asked, with what it grants, or taken by the hub's unit. -/
def State.chipAns (s : State) (e : Nat × ExtReq) (kind : Nat) (data : BitVec 1024) (poison : Bool) : State :=
  let x := e.2
  let bs := if kind = 3 ∨ kind = 4 then [] else (leBytes 128 data.toNat).drop (if x.k = .atomic then x.addr % 64 else x.addr % 128)
  match x.why with
  | .site n t =>
    if kind = 1 ∨ kind = 4 then s.extEnd e.1 bs poison 0
    else
      { s with ext := tdel s.ext e.1, mem := mwrite s.mem x.addr bs }.toAgent (.site n) x.addr (if kind = 3 then poolRsp else poolDat x.tc)
        (.complete (.site n) x.addr t kind bs poison)
  | _ => s.extEnd e.1 bs poison 0

/-- An answer of a kind: of a home here, which carries its own data, or of a chiplet home. -/
def State.ansIn (s : State) (a : Agent) (l tag : Nat) (k : AnsK) (data : BitVec 1024) (poison : Bool) : State :=
  match s.ansTake a l tag k with
  | some (x, s) => s.ansGive x
  | none => match s.extFind l tag with
    | some e => s.chipAns e (ansCode k) data poison
    | none => s
/-- DAT_C. -/
def execDatC (a : Agent) (line tag : Nat) (data : BitVec 1024) (poison : Bool) (s : State) : Outc :=
  run (agentOk a) (s.ansIn a line tag .datC data poison).accPump
/-- DAT_S. -/
def execDatS (a : Agent) (line tag : Nat) (data : BitVec 1024) (poison : Bool) (s : State) : Outc :=
  run (agentOk a) (s.ansIn a line tag .datS data poison).accPump
/-- CMP_E. -/
def execCmpE (a : Agent) (line tag : Nat) (s : State) : Outc := run (agentOk a) (s.ansIn a line tag .cmpE 0 false).accPump

/-- Whether a site awaits data from an F holder: its read is in progress, or has made it the F holder (R251). -/
def State.fwdDue (s : State) (n l tag : Nat) : Bool :=
  (match tget s.txn l with | some t => t.r.k == .rdShared && t.r.a == .site n && t.r.tag == tag && t.cur.isSome | none => false)
    || (s.dirOf l).fwd == some n
/-- DAT_F: of the home, of a chiplet home, or of the F holder of a line homed here, passed on. -/
def State.datFIn (s : State) (a : Agent) (l tag : Nat) (data : BitVec 1024) (poison : Bool) : State :=
  match a with
  | .site n =>
    if (s.ansTake a l tag .datF).isNone && s.homed (128 * l) && s.fwdDue n l tag then
      s.toAgent a (128 * l) (poolDat (match tget s.txn l with | some t => t.r.tc | none => 1)) (.complete (.site n) (128 * l) tag 2 (leBytes 128 data.toNat) poison)
    else s.ansIn a l tag .datF data poison
  | _ => s.ansIn a l tag .datF data poison
def execDatF (a : Agent) (line tag : Nat) (data : BitVec 1024) (poison : Bool) (s : State) : Outc :=
  run (agentOk a) (s.datFIn a line tag data poison).accPump

/-- CMP: a chiplet home has performed a write, or taken an eviction. -/
def State.cmpIn (s : State) (l tag : Nat) : State :=
  match s.extFind l tag with
  | some e => s.chipAns e 4 0 false
  | none => s
def execCmp (site line tag : Nat) (s : State) : Outc := run (site < 8 && region (128 * line) == .site site) (s.cmpIn line tag).accPump

/-- RSP_ERR: of a home here, or of a chiplet home, whose refusal is a hole at the unit that asked. -/
def State.rspErrIn (s : State) (a : Agent) (l tag : Nat) : State :=
  match s.ansTake a l tag .rspErr with
  | some (x, s) => s.ansGive x
  | none => match s.extFind l tag with
    | some e => s.extEnd e.1 [] false 2
    | none => s
def execRspErr (a : Agent) (line tag reason : Nat) (s : State) : Outc :=
  run (agentOk a) ((if reason < 16 then s.rspErrIn a line tag else s).accPump)

end Sys2Proof.Machine
end

