-- ==== Sys2Proof/Machine/Control.lean ====
section
/-! DEFINITION. The control slot (R120 to R131, Table 4-7): the scalar unit, local and global loads and stores, branches, hardware loops, signals,
fences and the tile's own registers. Each effect closes its bundle. -/

namespace Sys2Proof.Machine

/-- A control-slot command: the slot of bundle b holds opcode `op`; for the scalar unit also `funct`. -/
def ctlCmd (t : Nat) (b : W64) (op : Nat) (s : State) (eff : State → State) : Outc := slotCmd t (cOp b == op) (s.slot t b 2 eff)
def aluCmd (t : Nat) (b : W64) (op funct : Nat) (s : State) (eff : State → State) : Outc :=
  slotCmd t (cOp b == op && nbits (cSlot b) 14 11 == funct) (s.slot t b 2 eff)

/-! ### The scalar unit (R120) -/

/-- A scalar function of the destination and the second operand, by funct code. -/
def aluFn (funct : Nat) (x y : W32) : W32 :=
  match funct with
  | 0x0 => x + y
  | 0x1 => x - y
  | 0x2 => x &&& y
  | 0x3 => x ||| y
  | 0x4 => x ^^^ y
  | 0x5 => x <<< (y.toNat % 32)
  | 0x6 => x >>> (y.toNat % 32)
  | 0x7 => x.sshiftRight (y.toNat % 32)
  | 0x8 => x * y
  | 0x9 => if x.slt y then 1 else 0
  | 0xA => if x.ult y then 1 else 0
  | 0xB => if x.slt y then x else y
  | 0xC => if x.slt y then y else x
  | _ => y

/-- ALU's effect: sd = sd funct sb; ALUI's takes the sb field as an immediate. -/
def State.alu (s : State) (t c funct : Nat) : State :=
  let d := nbits c 10 6
  (s.setSr t d (aluFn funct (s.sr t d) (s.sr t (nbits c 5 1)))).next t
def State.alui (s : State) (t c funct : Nat) : State :=
  let d := nbits c 10 6
  (s.setSr t d (aluFn funct (s.sr t d) (BitVec.ofNat 32 (nbits c 5 1)))).next t

/-- NOP. -/
def execNop (t : Nat) (b : W64) (s : State) : Outc := ctlCmd t b 0x00 s fun s => s.next t
/-- ALU ADD. -/
def execAluAdd (t : Nat) (b : W64) (s : State) : Outc := aluCmd t b 1 0x0 s fun s => s.alu t (cSlot b) 0x0
/-- ALU SUB. -/
def execAluSub (t : Nat) (b : W64) (s : State) : Outc := aluCmd t b 1 0x1 s fun s => s.alu t (cSlot b) 0x1
/-- ALU AND. -/
def execAluAnd (t : Nat) (b : W64) (s : State) : Outc := aluCmd t b 1 0x2 s fun s => s.alu t (cSlot b) 0x2
/-- ALU OR. -/
def execAluOr (t : Nat) (b : W64) (s : State) : Outc := aluCmd t b 1 0x3 s fun s => s.alu t (cSlot b) 0x3
/-- ALU XOR. -/
def execAluXor (t : Nat) (b : W64) (s : State) : Outc := aluCmd t b 1 0x4 s fun s => s.alu t (cSlot b) 0x4
/-- ALU SHL. -/
def execAluShl (t : Nat) (b : W64) (s : State) : Outc := aluCmd t b 1 0x5 s fun s => s.alu t (cSlot b) 0x5
/-- ALU SHR. -/
def execAluShr (t : Nat) (b : W64) (s : State) : Outc := aluCmd t b 1 0x6 s fun s => s.alu t (cSlot b) 0x6
/-- ALU SRA. -/
def execAluSra (t : Nat) (b : W64) (s : State) : Outc := aluCmd t b 1 0x7 s fun s => s.alu t (cSlot b) 0x7
/-- ALU MUL. -/
def execAluMul (t : Nat) (b : W64) (s : State) : Outc := aluCmd t b 1 0x8 s fun s => s.alu t (cSlot b) 0x8
/-- ALU SLT. -/
def execAluSlt (t : Nat) (b : W64) (s : State) : Outc := aluCmd t b 1 0x9 s fun s => s.alu t (cSlot b) 0x9
/-- ALU SLTU. -/
def execAluSltu (t : Nat) (b : W64) (s : State) : Outc := aluCmd t b 1 0xA s fun s => s.alu t (cSlot b) 0xA
/-- ALU MIN. -/
def execAluMin (t : Nat) (b : W64) (s : State) : Outc := aluCmd t b 1 0xB s fun s => s.alu t (cSlot b) 0xB
/-- ALU MAX. -/
def execAluMax (t : Nat) (b : W64) (s : State) : Outc := aluCmd t b 1 0xC s fun s => s.alu t (cSlot b) 0xC
/-- ALU MOV. -/
def execAluMov (t : Nat) (b : W64) (s : State) : Outc := aluCmd t b 1 0xD s fun s => s.alu t (cSlot b) 0xD
/-- ALUI ADD. -/
def execAluiAdd (t : Nat) (b : W64) (s : State) : Outc := aluCmd t b 2 0x0 s fun s => s.alui t (cSlot b) 0x0
/-- ALUI SUB. -/
def execAluiSub (t : Nat) (b : W64) (s : State) : Outc := aluCmd t b 2 0x1 s fun s => s.alui t (cSlot b) 0x1
/-- ALUI AND. -/
def execAluiAnd (t : Nat) (b : W64) (s : State) : Outc := aluCmd t b 2 0x2 s fun s => s.alui t (cSlot b) 0x2
/-- ALUI OR. -/
def execAluiOr (t : Nat) (b : W64) (s : State) : Outc := aluCmd t b 2 0x3 s fun s => s.alui t (cSlot b) 0x3
/-- ALUI XOR. -/
def execAluiXor (t : Nat) (b : W64) (s : State) : Outc := aluCmd t b 2 0x4 s fun s => s.alui t (cSlot b) 0x4
/-- ALUI SHL. -/
def execAluiShl (t : Nat) (b : W64) (s : State) : Outc := aluCmd t b 2 0x5 s fun s => s.alui t (cSlot b) 0x5
/-- ALUI SHR. -/
def execAluiShr (t : Nat) (b : W64) (s : State) : Outc := aluCmd t b 2 0x6 s fun s => s.alui t (cSlot b) 0x6
/-- ALUI SRA. -/
def execAluiSra (t : Nat) (b : W64) (s : State) : Outc := aluCmd t b 2 0x7 s fun s => s.alui t (cSlot b) 0x7
/-- ALUI MUL. -/
def execAluiMul (t : Nat) (b : W64) (s : State) : Outc := aluCmd t b 2 0x8 s fun s => s.alui t (cSlot b) 0x8
/-- ALUI SLT. -/
def execAluiSlt (t : Nat) (b : W64) (s : State) : Outc := aluCmd t b 2 0x9 s fun s => s.alui t (cSlot b) 0x9
/-- ALUI SLTU. -/
def execAluiSltu (t : Nat) (b : W64) (s : State) : Outc := aluCmd t b 2 0xA s fun s => s.alui t (cSlot b) 0xA
/-- ALUI MIN. -/
def execAluiMin (t : Nat) (b : W64) (s : State) : Outc := aluCmd t b 2 0xB s fun s => s.alui t (cSlot b) 0xB
/-- ALUI MAX. -/
def execAluiMax (t : Nat) (b : W64) (s : State) : Outc := aluCmd t b 2 0xC s fun s => s.alui t (cSlot b) 0xC
/-- ALUI MOV. -/
def execAluiMov (t : Nat) (b : W64) (s : State) : Outc := aluCmd t b 2 0xD s fun s => s.alui t (cSlot b) 0xD

/-- LIL: the immediate sign-extended. -/
def execLil (t : Nat) (b : W64) (s : State) : Outc :=
  ctlCmd t b 0x03 s fun s => (s.setSr t (nbits (cSlot b) 14 10) (BitVec.ofInt 32 (sext 10 (nbits (cSlot b) 9 0)))).next t
/-- LIS: the register shifted by 10 with the immediate below. -/
def execLis (t : Nat) (b : W64) (s : State) : Outc :=
  ctlCmd t b 0x04 s fun s =>
    let d := nbits (cSlot b) 14 10
    (s.setSr t d ((s.sr t d <<< 10) ||| BitVec.ofNat 32 (nbits (cSlot b) 9 0))).next t
/-- ADDI. -/
def execAddi (t : Nat) (b : W64) (s : State) : Outc :=
  ctlCmd t b 0x05 s fun s =>
    let d := nbits (cSlot b) 14 10
    (s.setSr t d (s.sr t d + BitVec.ofInt 32 (sext 10 (nbits (cSlot b) 9 0)))).next t

/-! ### Local loads and stores (R76, R79, R80, R121) -/

/-- The local address of LD and ST, modulo 512 KiB. -/
def State.lva (s : State) (t c : Nat) : Nat := ((s.sr t (nbits c 9 5)).toNat + 4 * (c % 32)) % 0x80000

/-- LD's effect: a poisoned word is written and kills the context. -/
def State.ldDo (s : State) (t c : Nat) : State :=
  let a := s.lva t c
  if a % 4 ≠ 0 then s.kill t 0xC 2 0 (BitVec.ofNat 64 a)
  else
    let s := (s.lmMeetAt t a 4).served t 2
    let s' := s.setSr t (nbits c 14 10) (BitVec.ofNat 32 (leNat (s.lmRead t a 4)))
    if s.lmBad t a 4 then s'.kill t 8 2 0 (BitVec.ofNat 64 a) else s'.next t
def execLd (t : Nat) (b : W64) (s : State) : Outc := ctlCmd t b 0x06 s fun s => s.ldDo t (cSlot b)

/-- ST's effect. -/
def State.stDo (s : State) (t c : Nat) : State :=
  let a := s.lva t c
  if a % 4 ≠ 0 then s.kill t 0xC 2 0 (BitVec.ofNat 64 a)
  else ((s.seqStore t a (leBytes 4 (s.sr t (nbits c 14 10)).toNat) false).served t 2).next t
def execSt (t : Nat) (b : W64) (s : State) : Outc := ctlCmd t b 0x07 s fun s => s.stDo t (cSlot b)

/-! ### Global loads and stores (R66, R82 to R84, R121, R231, R314, R336) -/

/-- The lowest free miss slot, and the place of the next access in the order of issue. -/
def Tile.freeMiss (x : Tile) : Nat := ((List.range 16).find? fun k => (tget x.misses k).isNone).getD 16
def Tile.nextSeq (x : Tile) : Nat := x.misses.foldl (fun n e => max n (e.2.seq + 1)) 0

/-- An access put in a miss slot; the entry that translated it is held (R99). -/
def State.missPut (s : State) (t key : Nat) (m : Miss) : State :=
  ((s.tlbHold key).tlbRefRead (t / 32)).modTile t fun x => { x with misses := tput x.misses x.freeMiss { m with tlb := some key, seq := x.nextSeq } }

/-- A hole met at the issue of GLD or GST (Table 1-6). -/
def State.gHoleKill (s : State) (t va code g : Nat) : State := (s.hole ⟨.tile, t⟩ code g).kill t 6 2 0 (BitVec.ofNat 64 va)

/-- An access of a tile to the host or to another device, in its miss slot with the request it sent. -/
def State.tileAskOut (s : State) (t key va : Nat) (g : Nat) (m : Miss) : State :=
  let k := (s.tile t).freeMiss
  let bs := if m.store then leBytes 4 m.data.toNat else []
  if s.isOwn g then
    (s.missPut t key { m with req := some (BitVec.ofNat 32 s.extNext), sent := true }).hostAsk (.tile t k) (if m.store then .wrPart else .rdNoAlloc) (gLocal g) 4 bs
  else
    match s.tksAsk (.tile t k) (s.reqFrame (gDev g) 1 (if m.store then 0x01 else 0x02) 0 0 4 (BitVec.ofNat 64 (gLocal g)) 0 bs false) with
    | .sent id u => u.missPut t key { m with req := some id, sent := true }
    | _ => s.gHoleKill t va (b2n m.store) g

/-- A load that hits in the tile cache; a parity error on the line drops it and makes a miss (R85). -/
def State.cacheLoad (s : State) (t a : Nat) : Option W32 × State :=
  match s.cacheFind t a with
  | some (k, l) =>
    if l.perr then (none, (s.modTile t fun x => { x with cache := tdel x.cache k }).bump (R.tileCachePerr t) 32 1)
    else (some (BitVec.ofNat 32 (l.data.toNat / 2 ^ (8 * (a % 128)))),
      (s.modTile t fun x => { x with cache := tput x.cache k { l with used := true } }).bump (R.tileCacheHit t) 32 1)
  | none => (none, s)

/-- A load translated to global address g. -/
def State.gldAt (s : State) (t sd va key g : Nat) (nc : Bool) : State :=
  let a := gLocal g
  let m : Miss := { line := lineOf a, cached := false, store := false, sd := sd, off := a % 128, tlb := none, req := none, va := va }
  if !s.isOwn g then (s.tileAskOut t key va g m).next t
  else match region a with
    | .regs =>
      match s.regAccess a 4 .read with
      | some (bs, s) => (s.setSr t sd (BitVec.ofNat 32 (leNat bs))).next t
      | none => s.gHoleKill t va 0 g
    | _ =>
      if s.accHole a 4 .read then s.gHoleKill t va 0 g
      else if isLm (s.home a) then
        let (bs, p, s) := s.lmAccess (s.home a) 4 .read false
        let s := s.setSr t sd (BitVec.ofNat 32 (leNat bs))
        if p then s.kill t 8 2 0 (BitVec.ofNat 64 va) else s.next t
      else if region a = .host then (s.tileAskOut t key va g m).next t
      else if s.allocates g nc then
        match s.cacheLoad t a with
        | (some v, s) => (s.setSr t sd v).next t
        | (none, s) => ((s.bump (R.tileCacheMiss t) 32 1).missPut t key { m with cached := true }).next t
      else (s.missPut t key m).next t

/-- A line's bytes at an offset replaced by a 32-bit word. -/
def lineMerge (d : BitVec 1024) (off : Nat) (v : W32) : BitVec 1024 :=
  (d &&& ~~~ (BitVec.ofNat 1024 ((2 ^ 32 - 1) * 2 ^ (8 * off)))) ||| BitVec.ofNat 1024 (v.toNat * 2 ^ (8 * off))

/-- A store written through (R83): the line, if present, takes it; a miss of the line that is outstanding will not allocate. -/
def State.cacheStore (s : State) (t a : Nat) (v : W32) : State :=
  s.modTile t fun x => { x with
    cache := x.cache.map fun (e : Nat × CLine) => if e.2.line = lineOf a then (e.1, { e.2 with data := lineMerge e.2.data (a % 128) v }) else e
    misses := x.misses.map (missStale (a / 128)) }

/-- A store translated to global address g. -/
def State.gstAt (s : State) (t va key g : Nat) (v : W32) : State :=
  let a := gLocal g
  let bs := leBytes 4 v.toNat
  let m : Miss := { line := lineOf a, cached := false, store := true, sd := 0, off := a % 128, tlb := none, req := none, va := va, data := v }
  if !s.isOwn g then (s.tileAskOut t key va g m).next t
  else match region a with
    | .regs =>
      match s.regAccess a 4 (.write bs) with
      | some (_, s) => if s.running t then s.next t else s
      | none => s.gHoleKill t va 1 g
    | _ =>
      if s.accHole a 4 (.write bs) then s.gHoleKill t va 1 g
      else if isLm (s.home a) then (s.lmAccess (s.home a) 4 (.write bs) false).2.2.next t
      else if region a = .host then (s.tileAskOut t key va g m).next t
      else ((s.cacheStore t a v).missPut t key m).next t

/-- GLD and GST (R121): misaligned, untranslated (R66, R232) or performed. -/
def State.gAccess (s : State) (t c : Nat) (store : Bool) : State :=
  let va := s.gva t c
  if va % 4 ≠ 0 then s.kill t 0xC 2 0 (BitVec.ofNat 64 va)
  else match s.lookup t va store with
    | .miss => s
    | .bad _ => s.lookupDone t 0 va store
    | .hit k e g =>
      let s := s.lookupDone t 0 va store
      if store then s.gstAt t va k g (s.sr t (nbits c 14 10)) else s.gldAt t (nbits c 14 10) va k g e.nc
/-- GLD. -/
def execGld (t : Nat) (b : W64) (s : State) : Outc := ctlCmd t b 0x08 s fun s => s.gAccess t (cSlot b) false
/-- GST. -/
def execGst (t : Nat) (b : W64) (s : State) : Outc := ctlCmd t b 0x09 s fun s => s.gAccess t (cSlot b) true

/-! ### Branches and loops (R120, R122 to R125) -/

/-- BRZ. -/
def execBrz (t : Nat) (b : W64) (s : State) : Outc :=
  ctlCmd t b 0x0A s fun s => if s.sr t (nbits (cSlot b) 14 10) = 0 then s.branch t (sext 10 (nbits (cSlot b) 9 0)) else s.next t
/-- BRNZ. -/
def execBrnz (t : Nat) (b : W64) (s : State) : Outc :=
  ctlCmd t b 0x0B s fun s => if s.sr t (nbits (cSlot b) 14 10) = 0 then s.next t else s.branch t (sext 10 (nbits (cSlot b) 9 0))
/-- JMP. -/
def execJmp (t : Nat) (b : W64) (s : State) : Outc := ctlCmd t b 0x0E s fun s => s.branch t (sext 15 (nbits (cSlot b) 14 0))

/-- Whether a control opcode may not stand on the last bundle of a loop body (R124). -/
def loopBarred (op : Nat) : Bool := [0x0A, 0x0B, 0x0C, 0x0D, 0x0E, 0x17].contains op

/-- Whether a loop at a level with n bundles of body breaks R124. -/
def State.loopBad (s : State) (t lvl n : Nat) : Bool :=
  let p := s.pc t
  s.bget (R.tileSeqStatus t) (16 + lvl)
    || (s.tile t).loopOrd.any (fun k => !(decide (s.loopFirst t k ≤ p + 1) && decide (p + n ≤ s.loopLast t k)))
    || loopBarred (cOp (s.fetchB t (p + n)))

/-- A loop opened: n bundles of body, run `count` times (R123, R124). -/
def State.loopGo (s : State) (t lvl count n : Nat) : State :=
  let p := s.pc t
  if s.loopBad t lvl n then s.slotKill t 9 2 0
  else if count = 0 then s.fall t (p + n)
  else
    let s := (s.set (R.tileSeqLoop t lvl) (BitVec.ofNat 64 count)).set (R.tileSeqLoopb t lvl) (BitVec.ofNat 64 ((p + n) % 65536 * 65536 + (p + 1) % 65536))
    let s := (s.bset (R.tileSeqStatus t) (16 + lvl) true).modTile t fun x => { x with loopOrd := lvl :: x.loopOrd }
    s.finishB t (p + 1)

/-- LOOP. -/
def execLoopOp (t : Nat) (b : W64) (s : State) : Outc :=
  ctlCmd t b 0x0C s fun s =>
    let c := cSlot b
    s.loopGo t (nbits c 14 13) (s.sr t (nbits c 12 8)).toNat (nbits c 7 3 + 1)
/-- LOOPI. -/
def execLoopi (t : Nat) (b : W64) (s : State) : Outc :=
  ctlCmd t b 0x0D s fun s =>
    let c := cSlot b
    s.loopGo t (nbits c 14 13) (nbits c 12 5 + 1) (nbits c 4 0 + 1)

/-! ### Signals, waits, releases, fences (R126 to R129) -/

/-- A signal: it leaves once the stores before it are acknowledged, in order (R126). -/
def State.sigDo (s : State) (t obj : Nat) (v : W64) : State :=
  if 8191 < obj then s.slotKill t 9 2 0
  else
    let ks := ((s.tile t).misses.filter (fun e => e.2.store && !e.2.dead)).map (·.1)
    let s := s.modTile t fun x => { x with sigq := x.sigq ++ [(obj, v, ks)] }
    (s.sigFlush t (s.tile t).sigq.length).next t
/-- SIG. -/
def execSig (t : Nat) (b : W64) (s : State) : Outc :=
  ctlCmd t b 0x0F s fun s => s.sigDo t (s.sr t (nbits (cSlot b) 14 10)).toNat (BitVec.ofNat 64 (s.sr t (nbits (cSlot b) 9 5)).toNat)
/-- SIGI. -/
def execSigi (t : Nat) (b : W64) (s : State) : Outc :=
  ctlCmd t b 0x10 s fun s => s.sigDo t (nbits (cSlot b) 14 2) (BitVec.ofNat 64 (nbits (cSlot b) 1 0 + 1))
/-- WAIT: the bundle issues once the update has been received. -/
def execWaitOp (t : Nat) (b : W64) (s : State) : Outc := ctlCmd t b 0x11 s fun s => s.next t

/-- REL's effect: flits of a ring released, one credit each (R87, R89, R128). -/
def State.relDo (s : State) (t p n : Nat) : State :=
  if !(s.bget (R.tileSinCfg t p) 31) || !(s.bget (R.tileSinCfg t p) 30) || decide (s.fget (R.tileSinStat t p) 28 16 < n) then s.slotKill t 0xB 2 p
  else if s.countUe 4 (4 * t + p) then s.portMet t p
  else match s.dressOf t with
    | none => s
    | some (_, d) =>
      let v := s.get (R.tileSinStat t p)
      let s := s.set (R.tileSinStat t p) (setFld (setFld v 28 16 (fld v 28 16 - n)) 12 0 (fld v 12 0 + n))
      (s.creditBack d (tgetD (s.tile t).sinSrc p 0) n).next t
/-- REL. -/
def execRel (t : Nat) (b : W64) (s : State) : Outc := ctlCmd t b 0x12 s fun s => s.relDo t (nbits (cSlot b) 14 13) (nbits (cSlot b) 12 0)
/-- FENCE: the bundle issues once the classes of its mask are complete. -/
def execFence (t : Nat) (b : W64) (s : State) : Outc := ctlCmd t b 0x13 s fun s => s.next t

/-! ### The tile's registers, the tile cache, the end (R130, R131) -/

/-- The address of a register of the tile's own block. -/
def trAddr (t c : Nat) : Nat := 0x3FF100000000 + 0x100000 * t + 8 * nbits c 9 0

/-- TRR. -/
def execTrr (t : Nat) (b : W64) (s : State) : Outc :=
  ctlCmd t b 0x14 s fun s =>
    let (v, s) := s.regRead (trAddr t (cSlot b)) 4
    (s.setSr t (nbits (cSlot b) 14 10) (BitVec.ofNat 32 v)).next t
/-- TRW. -/
def execTrw (t : Nat) (b : W64) (s : State) : Outc :=
  ctlCmd t b 0x15 s fun s => (s.regWrite (trAddr t (cSlot b)) 4 (s.sr t (nbits (cSlot b) 14 10)).toNat).next t
/-- CINV. -/
def execCinv (t : Nat) (b : W64) (s : State) : Outc := ctlCmd t b 0x16 s fun s => (s.modTile t fun x => { x with cache := [] }).next t

/-- END's effect: the bundle closes, and the sequencer stops (R131). -/
def State.endDo (s : State) (t : Nat) : State :=
  let s := s.closeB t
  let v := s.get (R.tileSeqStatus t)
  (s.set (R.tileSeqStatus t) (setFld (setFld (setFld v 31 30 1) 27 24 0) 15 0 (fld v 15 0 + 1))).bump (R.tileSeqIssued t) 32 1
def execEndOp (t : Nat) (b : W64) (s : State) : Outc := ctlCmd t b 0x17 s fun s => s.endDo t

/-! ### Fills of the tile cache (R246) -/

/-- TILE_CACHE_FILL: the answer of a line's home reaches the tile whose miss asked for it. -/
def State.tileFill (s : State) (t l : Nat) : State :=
  match s.ans.find? (fun a => a.a == .tile t && a.line == 128 * l && a.k == .datS) with
  | none => s
  | some a => { s with ans := s.ans.erase a }.fillDone t a.tag a.data a.poison a.copy
def execTileCacheFill (t line : Nat) (s : State) : Outc := run (t < 2176) (s.tileFill t line)

end Sys2Proof.Machine
end

