-- ==== Sys2Proof/Machine/CxlRx.lean ====
section
/-! DEFINITION. The host port (chapter 14): CXL.mem requests and back-invalidate answers, CXL.io accesses, the host's answers to the hub's own
requests, configuration, the link, the function-level reset, and the host-tier commands. -/

namespace Sys2Proof.Machine

/-- Whether the port moves traffic: the module is powered and the link is up. -/
def State.port' (s : State) : Bool := s.powered && s.hostUp

/-! ### CXL.mem (R331 to R334, Table 14-4) -/

/-- The device address of a host physical address that the committed decoder covers (R332). -/
def State.hdmDpa (s : State) (hpa : Nat) : Option Nat :=
  match s.cfg.hdm with
  | some (b, n) => if b ≤ hpa ∧ hpa < b + n then some (hpa - b) else none
  | none => none

/-- A CXL.mem request that no decoder covers, or whose line is not backed (Table 1-6): a read returns poison, a write is dropped. What is recorded is the
global address of the line, or the host's own address where no decoder gives one (log entry 147). -/
def State.memHole (s : State) (hpa tag : Nat) (wr : Bool) : State :=
  let s := s.hole ⟨.host, 0⟩ (b2n wr) (match s.hdmDpa hpa with | some d => s.gOwn d | none => hpa)
  if wr then s.emit (.memCmp hpa tag 0) else { s with freeCtr := s.freeCtr + 64 }.emit (.memData hpa tag 0 (s.freeBytes 64) true)

/-- A request of the host at the home of its line (R333); the answer is given for its 64 bytes. -/
def State.memReq (s : State) (hpa tag inv : Nat) (wr : Bool) (r : Nat → CReq) : State :=
  if !s.port' then s
  else match s.hdmDpa hpa with
    | none => s.memHole hpa tag wr
    | some d =>
      if !s.homed d || region d != .hbm || (wr && s.libHit d 64) then s.memHole hpa tag wr
      else
        let x := { r d with a := .host, line := lineOf d, tag := tag, tc := s.fget R.cxlCtrl 5 4 }
        let s := { s with cfg := { s.cfg with hostTag := tput s.cfg.hostTag tag (2 * hpa + inv) } }
        if x.k = .evictClean ∨ x.k = .evictDirty then s.cohReq x else s.regOne (x, false)

/-- MEM_RD: MetaValue 0 I, 2 A, 3 S, as CXL codes them (PRESUMED, log entry 35). -/
def execMemRd (hpa metaV tag : Nat) (s : State) : Outc :=
  .next (s.memReq hpa tag 0 false fun _ => { k := if metaV = 3 then .rdShared else if metaV = 2 then .rdUnique else .rdNoAlloc, a := .host, line := 0 }).cohTail
/-- MEM_RD_DATA. -/
def execMemRdData (hpa tag : Nat) (s : State) : Outc :=
  .next (s.memReq hpa tag 0 false fun _ => { k := .rdNoAlloc, a := .host, line := 0 }).cohTail

/-- The mask and data of 64 bytes in their line. -/
def halfMask (d : Nat) (m : BitVec 64) : BitVec 128 := BitVec.ofNat 128 (m.toNat * 2 ^ (d % 128 / 64 * 64))
def halfData (d : Nat) (v : BitVec 512) : BitVec 1024 := BitVec.ofNat 1024 (v.toNat * 2 ^ (8 * (d % 128 / 64 * 64)))

/-- Dirty data of the host on a snoop (R334): 64 bytes over the line; current data where the snoop asked for that. -/
def State.hostWb (s : State) (d : Nat) (data : BitVec 512) (poison : Bool) : State :=
  let l := d / 128
  match s.awaits .host l with
  | none => s
  | some (_, t) =>
    let base : BitVec 1024 × Bool := match t.cur with
      | some (x, p) => if t.r.k = .rdNoAlloc then (x, p) else (s.lineData (128 * l), s.poison.contains (128 * l))
      | none => (s.lineData (128 * l), s.poison.contains (128 * l))
    let v := BitVec.ofNat 1024 (leNat (mergeBytes 128 (halfMask d (BitVec.allOnes 64)).toNat (leBytes 128 base.1.toNat) (halfData d data).toNat))
    if t.r.k = .rdNoAlloc then { s with txn := tput s.txn l { t with cur := some (v, base.2 || poison) } }
    else s.datWb .host l v (base.2 || poison)

/-- MEM_WR: from the recorded owner with MetaValue I an eviction; while a snoop of the line awaits the host its dirty data; else a write. -/
def State.memWr (s : State) (hpa : Nat) (metaI : Bool) (tag : Nat) (data : BitVec 512) (poison : Bool) : State :=
  let snooped := match s.hdmDpa hpa with | some d => (s.awaits .host (d / 128)).isSome | none => false
  if s.port' && snooped then
    match s.hdmDpa hpa with
    | some d => (s.hostWb d data poison).emit (.memCmp hpa tag 0)
    | none => s
  else s.memReq hpa tag 0 true fun d =>
    { k := if metaI ∧ (s.dirOf (d / 128)).owner = some 8 then .evictDirty else .wrPart, a := .host, line := 0
      mask := halfMask d (BitVec.allOnes 64), data := halfData d data, poison := poison }
def execMemWr (hpa : Nat) (metaI : Bool) (tag : Nat) (data : BitVec 512) (poison : Bool) (s : State) : Outc :=
  .next (s.memWr hpa metaI tag data poison).cohTail
/-- MEM_WR_PTL. -/
def execMemWrPtl (hpa : Nat) (tag : Nat) (mask : BitVec 64) (data : BitVec 512) (poison : Bool) (s : State) : Outc :=
  .next (s.memReq hpa tag 0 true fun d =>
    { k := .wrPart, a := .host, line := 0, mask := halfMask d mask, data := halfData d data, poison := poison }).cohTail
/-- MEM_CLN_EVCT. -/
def execMemClnEvct (hpa tag : Nat) (s : State) : Outc :=
  .next (s.memReq hpa tag 0 false fun _ => { k := .evictClean, a := .host, line := 0 }).cohTail
/-- MEM_INV: it brings no data, whatever the home answers. -/
def execMemInv (hpa tag : Nat) (s : State) : Outc :=
  .next (s.memReq hpa tag 1 false fun _ => { k := .upgrade, a := .host, line := 0 }).cohTail

/-- BI_RSP. -/
def execBiRsp (hpa : Nat) (shared : Bool) (s : State) : Outc :=
  .next (if s.port' then
    match s.hdmDpa hpa with
    | some d => (if shared then s.rspS .host (d / 128) else s.rspI .host (d / 128)).cohTail
    | none => s
  else s)
/-- BI_CONFLICT: acknowledged once the home holds both transactions. -/
def execBiConflict (hpa : Nat) (s : State) : Outc := .next (if s.port' && (s.hdmDpa hpa).isSome then s.emit (.biConflictAck hpa) else s)

/-! ### CXL.cache (R336) -/

/-- H2D_SNOOP: the hub holds no host line. -/
def execH2dSnoop (hpa tag : Nat) (s : State) : Outc := .next (if s.port' then s.emit (.h2dRsp hpa tag) else s)
/-- CXL_D2H_RESPONSE: the 64 bytes of the line, or a write's completion. -/
def State.d2hRsp (s : State) (id : Nat) (data : BitVec 512) (poison : Bool) : State :=
  match tget s.ext id with
  | some x => if x.site.isNone then s.extEnd id ((leBytes 64 data.toNat).drop (x.addr % 64)) poison 0 else s
  | none => s
def execCxlD2hResponse (id : Nat) (data : BitVec 512) (poison : Bool) (s : State) : Outc :=
  .next (if s.port' then (s.d2hRsp id data poison).cohTail else s)
/-- CACHE_WRITEBACK_INVALIDATE. -/
def execCacheWritebackInvalidate (s : State) : Outc := .next (if s.port' then { s with cfg := { s.cfg with cacheInv := true } } else s)

/-! ### CXL.io (R326, R329, R330) -/

/-- A dword of the MSI-X table: a vector's control word resets to masked (log entry 9). -/
def State.msixDw (s : State) (i : Nat) : W32 := tgetD s.cfg.msixTab i (if i % 4 = 3 then 1 else 0)
/-- A vector unmasked, its pending message sent (R339); masked. -/
def State.msixUnmaskDo (s : State) (v : Nat) : State :=
  let s := { s with msixOpen := sIns s.msixOpen v }
  if s.msixPend.contains v && !s.msixFnMask && s.bget R.cxlStatus 28 && s.hostUp then { s with msixPend := sDel s.msixPend v }.emit (.msix v) else s
def State.msixWr (s : State) (i : Nat) (v : W32) : State :=
  let v := if i % 4 = 3 then v &&& 1 else v
  let s := { s with cfg := { s.cfg with msixTab := tset s.cfg.msixTab i (if i % 4 = 3 then 1 else 0) v } }
  if i % 4 ≠ 3 then s else if v = 0 then s.msixUnmaskDo (i / 4) else { s with msixOpen := sDel s.msixOpen (i / 4) }

/-- A commit of the HDM decoder (R332). -/
def State.hdmCommit (s : State) (base size ways : Nat) : State :=
  if ways = 1 ∧ base % 2 ^ 28 = 0 ∧ s.bget R.cxlStatus 29 ∧ size ≤ (s.get R.hubMapHbmTop).toNat + 1 then
    { s with cfg := { s.cfg with hdm := some (base, size), hdmErr := false } }
  else { s with cfg := { s.cfg with hdm := none, hdmErr := true } }

/-- The component registers (Table 14-3): the capability header at 0x1000 and the HDM decoder capability at 0x1010, laid out as CXL has them; what stands
elsewhere CXL defines and this manual does not (free values, log entry 35). -/
def State.compRd (s : State) (o : Nat) : W32 :=
  match o with
  | 0x1000 => 0x01110001
  | 0x1004 => 0x01030005
  | 0x1010 => 0
  | 0x1014 | 0x1020 | 0x1024 | 0x1028 | 0x102C => tgetD s.cfg.hdmReg o 0
  | 0x1030 => tgetD s.cfg.hdmReg o 0 ||| BitVec.ofNat 32 (b2n s.cfg.hdm.isSome * 2 ^ 10 + b2n s.cfg.hdmErr * 2 ^ 11)
  | _ => s.free.setWidth 32
/-- A write of one: the decoder's base and size are kept while it is uncommitted; Commit commits it, and taken away uncommits it. -/
def State.compWr (s : State) (o : Nat) (v : W32) : State :=
  let put (m : W32) (s : State) : State := { s with cfg := { s.cfg with hdmReg := tset s.cfg.hdmReg o 0 (v &&& m) } }
  let r (o : Nat) : Nat := (tgetD s.cfg.hdmReg o 0).toNat
  match o with
  | 0x1014 => put 0x3 s
  | 0x1020 | 0x1028 => if s.cfg.hdm.isSome then s else put 0xF0000000 s
  | 0x1024 | 0x102C => if s.cfg.hdm.isSome then s else put 0xFFFFFFFF s
  | 0x1030 =>
    if nbit v.toNat 9 then
      if s.cfg.hdm.isSome then s
      else (put 0x3FF s).hdmCommit (r 0x1024 * 2 ^ 32 + r 0x1020) (r 0x102C * 2 ^ 32 + r 0x1028) (2 ^ nbits v.toNat 7 4)
    else let s := put 0x3FF s; { s with cfg := { s.cfg with hdm := none, hdmErr := false } }
  | _ => s

/-- A dword of BAR0: component registers, the MSI-X table, the PBA. -/
def State.bar0Dw (s : State) (o : Nat) : W32 :=
  if o < 0x10000 then s.compRd o
  else if o < 0x18000 then s.msixDw ((o - 0x10000) / 4)
  else if o < 0x18100 then BitVec.ofNat 32 ((List.range 32).foldl (fun n k => n + b2n (s.msixPend.contains (8 * (o - 0x18000) + k)) * 2 ^ k) 0)
  else 0
def State.bar0 (s : State) (o n : Nat) (op : AccessOp) : State :=
  if (n ≠ 4 ∧ n ≠ 8) ∨ o % n ≠ 0 then s.ur
  else match op with
    | .read =>
      let d := leBytes 4 (s.bar0Dw o).toNat ++ (if n = 8 then leBytes 4 (s.bar0Dw (o + 4)).toNat else [])
      (if o < 0x10000 then s.drew else s).emit (.cplIo 0 d false)
    | .write bs =>
      let put (s : State) (o : Nat) (bs : List Byte) : State :=
        let v := BitVec.ofNat 32 (leNat bs)
        if o < 0x10000 then s.compWr o v else if 0x18000 ≤ o then s else s.msixWr ((o - 0x10000) / 4) v
      let s := put s o (bs.take 4)
      if n = 8 then put s (o + 4) (bs.drop 4) else s
    | .atomic _ _ _ => s.ur

/-- An access through an aperture: this device's host-tier region is a hole, a fenced host is answered with an error (R255). -/
def State.bar4 (s : State) (o n : Nat) (op : AccessOp) : State :=
  let g := fld (s.get (R.cxlAptBase (o / 2 ^ 38 % 4))) 63 38 * 2 ^ 38 + o % 2 ^ 38
  if s.fenced 8 then s.ur
  else if s.isOwn g && region (gLocal g) == .host then (s.hole ⟨.host, 0⟩ (accCode op) g).ur
  else s.access ⟨.host, 0⟩ (.host 0) g n (s.fget R.cxlCtrl 3 2) op false

/-- CXL_IO_MEM_ACCESS. -/
def State.ioAccess (s : State) (bar off n : Nat) (op : AccessOp) : State :=
  if accCode op = 2 then s.ur
  else if bar = 0 ∧ off + n ≤ 0x20000 then s.bar0 off n op
  else if bar = 2 ∧ off + n ≤ 2 ^ 36 then s.access ⟨.host, 0⟩ (.host 0) (s.gOwn (0x3FF000000000 + off)) n (s.fget R.cxlCtrl 3 2) op false
  else if bar = 4 ∧ off + n ≤ 2 ^ 40 then s.bar4 off n op
  else s.ur
def execCxlIoMemAccess (bar : Nat) (off : Nat) (n : Nat) (op : AccessOp) (s : State) : Outc :=
  .next (if s.port' then (s.ioAccess bar off (if accWrites op then (accBytes op).length else n) op).accPump else s)
/-- CXL_ATOMIC_OP. -/
def execCxlAtomicOp (_bar _off : Nat) (s : State) : Outc := .next (if s.port' then s.ur else s)

/-- HDM_DECODER_COMMIT (R332). -/
def execHdmDecoderCommit (base size ways : Nat) (s : State) : Outc :=
  .next (if s.port' then s.hdmCommit base size ways else s)
/-- MSIX_UNMASK (R339). -/
def execMsixUnmask (vec : Nat) (s : State) : Outc := run (vec < 2048) (if s.port' then s.msixWr (4 * vec + 3) 0 else s)

/-! ### Function-level reset (R340) -/

/-- A host mailbox met by an FLR: cleared, after the command in progress has ended. -/
def State.mbxFlr (s : State) (m : Nat) : State :=
  match (s.box m).cur with
  | some h => s.setBox m { (s.box m) with cur := some { h with notify := false }, flr := true }
  | none => s.set (R.mbxStatus m) 0
/-- The dwords of the CXL range in the device DVSEC, which an FLR keeps. -/
def rangeReg (r : Nat) : Bool := r == 0x68 || r == 0x69
/-- FLR. -/
def State.flr (s : State) : State :=
  let s := { s with cfg := { s.cfg with regs := s.cfg.regs.filter fun e => rangeReg e.1, msixTab := [], doeIn := [], doeOut := [], doeErr := false }, msixOpen := [], msixFnMask := false, msixPend := [] }
  let s := s.resetRegs (fun a => inBlk 0x3FF000A00000 0x100000 a) .flr
  let s := (List.range 16).foldl State.mbxFlr s
  s.fset R.cxlStatus 3 0 (min 15 (s.fget R.cxlStatus 3 0 + 1))
def execFlr (s : State) : Outc := .next (if s.port' then s.flr else s)

/-! ### The link (R327, R341) -/

/-- CXL_LINK_UP: the reference is present and the link trained, at a width of 1 to 16 lanes and a rate of 1 to 6. -/
def execCxlLinkUp (width rate : Nat) (s : State) : Outc :=
  .next (if s.powered && !s.asleep && !s.modReset && s.bget (R.pwrDomStatus 88) 31 && decide (1 ≤ width ∧ width ≤ 16 ∧ 1 ≤ rate ∧ rate ≤ 6) then
    let s := s.bset R.hubClkStatus 16 true
    ((s.bset R.cxlStatus 31 true).fset R.cxlStatus 12 8 width).fset R.cxlStatus 7 4 rate
  else s)

/-- CXL_LINK_DOWN: the host is fenced, and every request outstanding at it ends as a hole access. -/
def State.linkDown (s : State) (refLost : Bool) : State :=
  let s := if refLost then s.bset R.hubClkStatus 16 false else s
  if !s.hostUp then s
  else
    let v := s.get R.cxlStatus
    let s := (s.set R.cxlStatus (setFld (setFld (setFld v 31 30 1) 12 8 0) 7 4 0)).log' 1 10 1 [8]
    let s := s.fence 8
    ((s.ext.filter fun e : Nat × ExtReq => e.2.site.isNone).map fun e : Nat × ExtReq => e.1).foldl (fun (s : State) i => s.extEnd i [] false 2) s
def execCxlLinkDown (refLost : Bool) (s : State) : Outc := .next (if s.powered then (s.linkDown refLost).cohTail else s)

/-! ### Configuration space (R328, R329, R390) -/

/-- Registers of configuration space, by dword: what each holds at reset, its writable bits. The capability offsets are the model's, the layouts PCI Express's and
CXL's (log entry 35): power management at 0x40, MSI-X at 0x50, PCI Express at 0x60, AER at 0x100, serial number at 0x148, data object exchange at 0x160, and the
three DVSECs at 0x180, 0x1C0 and 0x1E0. -/
def cfgReset : Nat → Nat
  | 0x01 => 0x00100000 | 0x02 => 0x12000000 | 0x04 => 0x4 | 0x06 => 0xC | 0x08 => 0xC | 0x0D => 0x40
  | 0x10 => 0x00035001 | 0x14 => 0x07FF6011 | 0x15 => 0x10000 | 0x16 => 0x18000 | 0x18 => 0x00020010 | 0x19 => 0x10008002 | 0x1B => 0x00000106
  | 0x21 => 0x00030006 | 0x23 => 0x0000007E
  | 0x40 => 0x14820001 | 0x52 => 0x16010003 | 0x58 => 0x1802002E | 0x60 => 0x1C010023 | 0x61 => 0x03C11E98 | 0x62 => 0x00570000
  | 0x70 => 0x1E010023 | 0x71 => 0x02011E98 | 0x72 => 0x00070007 | 0x78 => 0x00010023 | 0x79 => 0x01011E98 | 0x7A => 0x00000008 | 0x7B => 0x00000100
  | _ => 0
def cfgMask : Nat → Nat
  | 0x01 => 0x0000FFFF | 0x03 => 0xFF | 0x04 => 0xFFFE0000 | 0x05 => 0xFFFFFFFF | 0x07 => 0xFFFFFFF0 | 0x09 => 0xFFFFFF00 | 0x0F => 0xFF
  | 0x11 => 0x3 | 0x14 => 0xC0000000 | 0x1A => 0x00007FFF | 0x42 => 0x00100000 | 0x43 => 0x00100000 | 0x63 => 0xFFFF
  | 0x68 => 0xFFFFFFFF | 0x69 => 0xF0000000 | _ => 0

/-- The size of the CXL range: none until HBM is ready (R331). -/
def State.rangeSize (s : State) : Nat := if s.bget R.cxlStatus 29 then (s.get R.hubMapHbmTop).toNat + 1 else 0

/-- The CDAT's entries (R328): its header, one device-scoped memory affinity structure over the HDM range, and that range's read latency in units of
1,000 ps and bandwidth in units of 1,000 MB/s. -/
def State.cdat (s : State) : List (List Byte) :=
  let perf (k v : Nat) : List Byte := [1, 0, 24, 0, 0, 0, BitVec.ofNat 8 k, 0] ++ leBytes 8 1000 ++ leBytes 2 v ++ [0, 0, 0, 0, 0, 0]
  let es := [[0, 0, 24, 0, 0, 0, 0, 0] ++ leBytes 8 0 ++ leBytes 8 s.rangeSize, perf 1 750, perf 3 12288]
  let head (sum : Nat) : List Byte := leBytes 4 88 ++ [1, BitVec.ofNat 8 sum, 0, 0, 0, 0, 0, 0] ++ leBytes 4 0
  let total := ((head 0 :: es).flatten.foldl (fun n b => n + b.toNat) 0) % 256
  head ((256 - total) % 256) :: es

/-- The dwords of a data object, with its header. -/
def doeObj (vendor kind : Nat) (bs : List Byte) : List W32 :=
  let ds := (List.range (bs.length / 4)).map fun i => BitVec.ofNat 32 (leNat ((bs.drop (4 * i)).take 4))
  BitVec.ofNat 32 (vendor + kind * 2 ^ 16) :: BitVec.ofNat 32 (ds.length + 2) :: ds
/-- The data object written taken: the discovery of the two protocols, or an entry of the CDAT; another is an error (log entry 35). -/
def State.doeGo (s : State) : State :=
  let w (i : Nat) : Nat := (s.cfg.doeIn.getD i 0).toNat
  let out (o : List W32) (bad : Bool) : State := { s with cfg := { s.cfg with doeIn := [], doeOut := o, doeErr := bad } }
  if s.cfg.doeIn.length = 3 ∧ w 1 = 3 ∧ w 0 = 1 then
    out (doeObj 1 0 (leBytes 4 (match w 2 % 256 with | 0 => 0x01000001 | 1 => 0x00021E98 | _ => 0xFFFF))) false
  else if s.cfg.doeIn.length = 3 ∧ w 1 = 3 ∧ w 0 = 0x00021E98 ∧ w 2 % 65536 = 0 ∧ w 2 / 65536 < 4 then
    let k := w 2 / 65536
    out (doeObj 0x1E98 2 (leBytes 4 ((if k = 3 then 0xFFFF else k + 1) * 65536) ++ s.cdat.getD k [])) false
  else out [] true

/-- The value of a dword of configuration space. -/
def State.cfgRd (s : State) (r : Nat) : W32 :=
  let top := s.rangeSize
  match r with
  | 0x00 => BitVec.ofNat 32 (s.fget R.hubIdPci 31 0)
  | 0x14 => BitVec.ofNat 32 (0x07FF6011 + b2n (s.bget R.cxlStatus 28) * 2 ^ 31 + b2n s.msixFnMask * 2 ^ 30)
  | 0x1C => BitVec.ofNat 32 ((s.fget R.cxlStatus 12 8 * 16 + s.fget R.cxlStatus 7 4) * 2 ^ 16)
  | 0x5B => BitVec.ofNat 32 (b2n s.cfg.doeErr * 4 + b2n (!s.cfg.doeOut.isEmpty) * 2 ^ 31)
  | 0x5D => s.cfg.doeOut.headD 0
  | 0x53 => (s.get (R.hubIdSerial 0)).setWidth 32
  | 0x54 => (s.get (R.hubIdSerial 0) >>> 32).setWidth 32
  | 0x64 => BitVec.ofNat 32 (b2n s.cfg.cacheInv * 2 ^ 16)
  | 0x66 => BitVec.ofNat 32 (top / 2 ^ 32)
  | 0x67 => BitVec.ofNat 32 (top % 2 ^ 32 / 2 ^ 28 * 2 ^ 28 + b2n (s.bget R.cxlStatus 29) * 3)
  | _ => tgetD s.cfg.regs r (BitVec.ofNat 32 (cfgReset r))

/-- A dword of configuration space written: MSI-X Enable and the function mask act, FLR begins, and Cache Writeback and Invalidate completes. -/
def State.cfgWr (s : State) (r : Nat) (v : W32) : State :=
  let m := BitVec.ofNat 32 (cfgMask r)
  let s := if cfgMask r = 0 then s else
    { s with cfg := { s.cfg with regs := tset s.cfg.regs r (BitVec.ofNat 32 (cfgReset r)) ((tgetD s.cfg.regs r (BitVec.ofNat 32 (cfgReset r)) &&& ~~~ m) ||| (v &&& m)) } }
  match r with
  | 0x14 =>
    let s := { s.bset R.cxlStatus 28 (nbit v.toNat 31) with msixFnMask := nbit v.toNat 30 }
    (s.msixPend.filter s.msixOpen.contains).foldl State.msixUnmaskDo s
  | 0x1A => if nbit v.toNat 15 then s.flr else s
  | 0x41 => { s with cfg := { s.cfg with regs := tset s.cfg.regs 0x41 0 (tgetD s.cfg.regs 0x41 0 &&& ~~~ v) } }
  | 0x5A => if nbit v.toNat 0 then { s with cfg := { s.cfg with doeIn := [], doeOut := [], doeErr := false } } else if nbit v.toNat 31 then s.doeGo else s
  | 0x5C => { s with cfg := { s.cfg with doeIn := s.cfg.doeIn ++ [v] } }
  | 0x5D => { s with cfg := { s.cfg with doeOut := s.cfg.doeOut.drop 1 } }
  | 0x64 => if nbit v.toNat 1 then { s with cfg := { s.cfg with cacheInv := true } } else s
  | _ => s

/-- CONFIGURATION_REQUEST: retried until the steward is ready; `reg` is the dword's number. -/
def State.cfgReq (s : State) (write : Bool) (reg : Nat) (v : W32) : State :=
  if !s.bget R.stwStatus 31 then s.emit (.cfgCpl 2 0)
  else if write then (s.cfgWr reg v).emit (.cfgCpl 0 0) else s.emit (.cfgCpl 0 (s.cfgRd reg))
def execConfigurationRequest (write : Bool) (reg : Nat) (v : W32) (s : State) : Outc :=
  run (reg < 1024) (if s.port' then s.cfgReq write reg v else s)

/-! ### Commands (Table 14-7) -/

/-- A window put in force (R335). -/
def State.htGrant (s : State) (k base size tier : Nat) : State :=
  ((s.set (R.cxlHtHost k) (BitVec.ofNat 64 base)).set (R.cxlHtSize k) (BitVec.ofNat 64 size)).set (R.cxlHtTier k) (BitVec.ofNat 64 (2 ^ 63 + tier))
/-- Whether a host base and a size may be granted. -/
def htArgs (base size : Nat) : Bool := base % 2 ^ 21 == 0 && decide (base < 2 ^ 52) && size % 2 ^ 21 == 0 && size != 0 && decide (size ≤ 2 ^ 44)
/-- The lowest tier offset where a window of a size fits. -/
def State.htFree (s : State) (k size : Nat) : Option Nat :=
  let ends := (List.range 64).filterMap fun j =>
    if s.bget (R.cxlHtTier j) 63 then some (s.fget (R.cxlHtTier j) 43 21 + s.fget (R.cxlHtSize j) 43 21) else none
  ((0 :: ends).filter fun t => !s.htBad k t (size / 2 ^ 21)).foldl (fun b t => match b with | some x => some (min x t) | none => some t) none

/-- MEM_HOST_GRANT. -/
def execMemHostGrant (q : Req) (hostBase size : Nat) (s : State) : Outc :=
  run (mbxOk q) (axotte s q 0x0310 fun s =>
    if !htArgs hostBase size then invalid s
    else match (List.range 64).find? fun k => !s.bget (R.cxlHtTier k) 63 with
      | none => refuse s dNoSpace
      | some k => match s.htFree k size with
        | none => refuse s dNoSpace
        | some t => .done (s.htGrant k hostBase size (t * 2 ^ 21)) 0 (p32 k ++ p64 (t * 2 ^ 21)))
/-- MEM_HOST_GRANT expert. -/
def execMemHostGrantExpert (q : Req) (hostBase size tier window : Nat) (s : State) : Outc :=
  run (mbxOk q) (axotte s q 0x8310 fun s =>
    if !htArgs hostBase size ∨ 64 ≤ window ∨ tier % 2 ^ 21 ≠ 0 ∨ 2 ^ 44 < tier + size then invalid s
    else if s.bget (R.cxlHtTier window) 63 then refuse s dState
    else if s.htBad window (tier / 2 ^ 21) (size / 2 ^ 21) then invalid s
    else .done (s.htGrant window hostBase size tier) 0 (p32 window ++ p64 tier))
/-- MEM_HOST_REVOKE (R337). -/
def execMemHostRevoke (q : Req) (window : Nat) (s : State) : Outc :=
  run (mbxOk q) (axotte s q 0x0311 fun s =>
    if 64 ≤ window then invalid s
    else if !s.bget (R.cxlHtTier window) 63 then refuse s dState
    else .done (s.bset (R.cxlHtTier window) 63 false) 0 [])
/-- MEM_HOST_STATUS: cxl.status, then each valid window's number, tier offset, host base and size. -/
def execMemHostStatus (q : Req) (s : State) : Outc :=
  run (mbxOk q) (axotte s q 0x0312 fun s =>
    .done s 0 (p32 (s.get R.cxlStatus).toNat ++ ((List.range 64).filter fun k => s.bget (R.cxlHtTier k) 63).flatMap fun k =>
      p32 k ++ p64 (s.fget (R.cxlHtTier k) 43 21 * 2 ^ 21) ++ p64 (s.get (R.cxlHtHost k)).toNat ++ p64 (s.get (R.cxlHtSize k)).toNat))

end Sys2Proof.Machine
end

