-- ==== Sys2Proof/Machine/Dma.lean ====
section
/-! DEFINITION. Tile DMA (R91 to R93, R99, R100, R231): descriptors, transfer blocks, and what a channel sends to an input port of its
tile. -/

namespace Sys2Proof.Machine

/-! ### The descriptor (Table 3-7) -/

def DmaSt.rows (d : DmaSt) : Nat := fld d.ctl 39 24
def DmaSt.rowBytes (d : DmaSt) : Nat := fld d.ctl 23 0
def DmaSt.toPort (d : DmaSt) : Bool := fld d.ctl 49 48 == 1
def DmaSt.port (d : DmaSt) : Nat := fld d.dst 1 0
def DmaSt.srcLocal (d : DmaSt) : Bool := bit d.ctl 47
def DmaSt.dstLocal (d : DmaSt) : Bool := bit d.ctl 46
def DmaSt.tc (d : DmaSt) : Nat := fld d.ctl 45 44
def DmaSt.srcStride (d : DmaSt) : Int := sext 32 (fld d.strides 63 32)
def DmaSt.dstStride (d : DmaSt) : Int := sext 32 (fld d.strides 31 0)

/-- The address of byte `off` of the row in progress, at the source and at the destination. -/
def DmaSt.srcAt (d : DmaSt) : Nat := ((d.src.toNat : Int) + d.row * d.srcStride + d.off).toNat
def DmaSt.dstAt (d : DmaSt) : Nat := ((d.dst.toNat : Int) + d.row * d.dstStride + d.off).toNat

/-- Whether a side's rows, taken at its signed stride, leave local memory, or leave the 55-bit virtual space. -/
def dmaOut (base stride : Int) (rows bytes : Nat) (lm : Bool) : Bool :=
  let z := base + (rows - 1 : Nat) * stride
  decide (min base z < 0) || decide ((if lm then 0x80000 else 2 ^ 55 : Int) < max base z + bytes)

/-- Whether a descriptor is invalid (R91). -/
def DmaSt.invalid (d : DmaSt) (bound : Bool) : Bool :=
  d.rows == 0 || d.rowBytes == 0 || d.rowBytes % 16 != 0 || (decide (1 < d.rows) && (d.srcStride % 16 != 0 || d.dstStride % 16 != 0))
    || decide (2 ≤ fld d.ctl 49 48) || (d.toPort && !bound) || fld d.ctl 43 40 != 0
    || dmaOut d.src.toNat d.srcStride d.rows d.rowBytes d.srcLocal
    || (!d.toPort && dmaOut d.dst.toNat d.dstStride d.rows d.rowBytes d.dstLocal)

/-- A channel's descriptor in execution, replaced. -/
def State.setDma (s : State) (t n : Nat) (d : DmaSt) : State := s.modTile t fun x => { x with dma := tput x.dma n d }

/-- Whether input port p of a tile is bound to channel n of it (Table 5-4). -/
def State.dmaBound (s : State) (t n p : Nat) : Bool :=
  match s.dressOf t, s.ltile t with
  | some (_, d), some l => s.bget (R.tileSinCfg t p) 31 && tgetD (s.tile t).sinSrc p 0 == 3 * 2 ^ 28 + n * 2 ^ 16 + (l - d.lbase)
  | _, _ => false

/-- Whether a tile's dressing runs: it is active, or draining (R153). -/
def State.dressRuns (s : State) (t : Nat) : Bool := match s.dressOf t with | some (_, d) => d.runs | none => false

/-- The next descriptor read: a poisoned one, and an invalid one, kill the context (R91). -/
def State.dmaFetch (s : State) (t n : Nat) : State :=
  let o := fld (s.get (R.tileDmaCtrl t n)) 18 5 * 32 + 32 * (s.get (R.tileDmaHead t n)).toNat
  let s := (s.lmMeetAt t o 32).served t (12 + n)
  let w (i : Nat) : W64 := BitVec.ofNat 64 (leNat (s.lmRead t (o + 8 * i) 8))
  let d : DmaSt := { src := w 0, dst := w 1, strides := w 2, ctl := w 3 }
  if s.lmBad t o 32 then s.kill t 8 3 n (BitVec.ofNat 64 o)
  else if d.invalid (s.dmaBound t n d.port) then s.kill t 0xD 3 n (BitVec.ofNat 64 o)
  else s.setDma t n d

/-- DMA_DESCRIPTOR_EXECUTE: an enabled channel with nothing in execution and a ring that is not empty. -/
def execDmaDescriptorExecute (t n : Nat) (s : State) : Outc :=
  run (t < 2176 && n < 4)
    (if s.dressRuns t && s.bget (R.tileDmaCtrl t n) 31 && (tget (s.tile t).dma n).isNone && s.get (R.tileDmaHead t n) != s.get (R.tileDmaTail t n) then
      s.dmaFetch t n
    else s)

/-! ### Transfer blocks (R92) -/

/-- The pages that n bytes from a virtual address touch, by an address in each. -/
def pagesAt (va n : Nat) (write : Bool) : List (Nat × Bool) :=
  if va / 0x10000 = (va + n - 1) / 0x10000 then [(va, write)] else [(va, write), (va + n - 1, write)]

/-- The translations of a block, all or nothing: a fault kills; a miss goes to a walker; with every page found the entries are held. -/
def State.dmaStart (s : State) (t n : Nat) (d : DmaSt) : State :=
  let len := min 0x10000 (d.rowBytes - d.off)
  let ps := (if d.srcLocal then [] else pagesAt d.srcAt len false) ++ (if d.toPort || d.dstLocal then [] else pagesAt d.dstAt len true)
  let look (p : Nat × Bool) : XlR := s.lookup t p.1 p.2
  match ps.find? (fun p => match look p with | .bad _ => true | _ => false) with
  | some p => s.lookupDone t (1 + n) p.1 p.2
  | none =>
    let keys := ps.filterMap fun p => match look p with | .hit k _ _ => some k | _ => none
    let s := ps.foldl (fun (s : State) p => s.lookupDone t (1 + n) p.1 p.2) s
    if keys.length = ps.length then
      ((keys.eraseDups.foldl State.tlbHold s).setDma t n { d with held := keys.eraseDups, left := len }).tlbRefRead (t / 32)
    else s

/-- The global address of a virtual address, by the entries a block holds. -/
def State.dmaG (s : State) (d : DmaSt) (va : Nat) : Nat :=
  (d.held.findSome? fun k => match tget s.tlb k with
    | some e => if e.vpn * pageBytes e.size ≤ va ∧ va < (e.vpn + 1) * pageBytes e.size then some (e.addr va) else none
    | none => none).getD 0

/-- Whether n bytes of the source are poisoned, or meet an error when read. -/
def State.dmaBad (s : State) (t : Nat) (d : DmaSt) (g n : Nat) : Bool :=
  let ue (a : Nat) : Bool := s.poisoned a n || (units a n).any fun u => s.latentUe.contains u.1
  if d.srcLocal then ue (lmBase t + d.srcAt)
  else if s.near g then
    ue (s.home (gLocal g)) || (linesOf (s.home (gLocal g)) n).any fun l => match tget s.curData l with | some (_, p) => p | none => false
  else (blocksOf g n).any fun b => match tget s.extGot b with | some (_, p, _) => p | none => false

/-- Where a channel stands once m bytes have moved. -/
def DmaSt.moved (d : DmaSt) (m : Nat) : DmaSt :=
  let d := { d with left := d.left - m, waits := false }
  if d.off + m < d.rowBytes then { d with off := d.off + m } else { d with off := 0, row := d.row + 1 }

/-- A block whose bytes have all moved and been acknowledged gives its translations back (R99). -/
def State.dmaFree (s : State) (t n : Nat) : State :=
  match tget (s.tile t).dma n with
  | some d => if d.left = 0 ∧ d.unacked = 0 then ((d.held.foldl State.tlbDrop s).setDma t n { d with held := [] }).tlbRefRead (t / 32) else s
  | none => s

/-- A hole met by a channel (Table 1-6). -/
def State.dmaHole (s : State) (t n code g va : Nat) : State := (s.hole ⟨.tile, t⟩ code g).kill t 6 3 n (BitVec.ofNat 64 va)

/-- Source bytes read. -/
def State.dmaRead (s : State) (t n : Nat) (d : DmaSt) (g m : Nat) : List Byte × Bool × State :=
  if d.srcLocal then
    let s := (s.lmMeetAt t d.srcAt m).served t (12 + n)
    (s.lmRead t d.srcAt m, s.lmBad t d.srcAt m, s)
  else s.gRead ⟨.tile, t⟩ g m d.tc

/-- Bytes for an input port: a flit is sent when it is full, and the last of the descriptor with last set; bytes past the end of the data are not
stated (log entry 3). -/
def State.dmaFlit (s : State) (t n : Nat) (d : DmaSt) (bs : List Byte) (bad : Bool) : State :=
  let b := d.buf ++ bs
  let d' := d.moved bs.length
  let fin := d'.row = d.rows
  if b.length < 64 ∧ ¬ fin then (s.setDma t n { d' with buf := b, bufBad := d.bufBad || bad })
  else
    let pad := 64 - b.length
    let x := b ++ (s.freeBytes 64).take pad
    let s := if pad = 0 then s else { s with freeCtr := s.freeCtr + 64 }
    (s.setDma t n { d' with buf := [], bufBad := false }).arrive t d.port ⟨BitVec.ofNat 512 (leNat x), decide fin, d.bufBad || bad⟩

/-- Bytes left to the end of the page an address lies in; a local address has no pages. -/
def DmaSt.rest (d : DmaSt) (loc : Bool) (va : Nat) : Nat := if loc then d.left else 0x10000 - va % 0x10000

/-- The bytes left of the block in the source page in progress. -/
def DmaSt.big (d : DmaSt) : Nat := min d.left (d.rest d.srcLocal d.srcAt)

/-- The length of the next piece: bytes of one source page, one destination page, and one poison mark. -/
def State.dmaLen (s : State) (t : Nat) (d : DmaSt) : Nat :=
  let g := s.dmaG d d.srcAt
  let u := if d.srcLocal then 16 else if s.near g then 128 else 64
  let k := if d.toPort then min d.big (64 - d.buf.length) else min d.big (d.rest d.dstLocal d.dstAt)
  if s.dmaBad t d g k then min k (u - d.srcAt % u) else k

/-- A piece of n bytes that a regulator holds, counted once where it is the class-0 bucket (R378). -/
def State.dmaHeld (s : State) (t n : Nat) (d : DmaSt) (a k : Nat) : State :=
  (s.regCount (.other ⟨.tile, t⟩) a d.tc k d.waits).setDma t n { d with waits := true }

/-- Where the next piece's source is not to be had yet, or not at all: the state in which the channel waits or has ended. -/
def State.dmaSource (s : State) (t n : Nat) (d : DmaSt) : Option State :=
  let m : Master := ⟨.tile, t⟩
  let g := s.dmaG d d.srcAt
  let k := s.dmaLen t d
  if d.srcLocal then none
  else if s.gHole g k then some (s.dmaHole t n 0 g d.srcAt)
  else if !s.gReady m g k then some (s.gAsk m g d.big d.tc)
  else if s.gErr g k != 0 then some (s.dmaHole t n 0 g d.srcAt)
  else if !s.regOpen (.other m) (s.home (gLocal g)) d.tc k && s.near g then some (s.dmaHeld t n d (s.home (gLocal g)) k)
  else none

/-- The next piece to an input port, for which a full flit or the last one takes a credit. -/
def State.dmaToPort (s : State) (t n : Nat) (d : DmaSt) : State × Bool :=
  let k := s.dmaLen t d
  let full := d.buf.length + k = 64 ∨ (d.moved k).row = d.rows
  if full ∧ s.fget (R.tileSinStat t d.port) 12 0 = 0 then (s, false)
  else
    let (bs, bad, s) := s.dmaRead t n d (s.dmaG d d.srcAt) k
    ((s.dmaFlit t n d bs bad).dmaFree t n, true)

/-- The next piece to local memory. -/
def State.dmaToLm (s : State) (t n : Nat) (d : DmaSt) : State × Bool :=
  let k := s.dmaLen t d
  let (bs, bad, s) := s.dmaRead t n d (s.dmaG d d.srcAt) k
  ((((s.lmWrite t d.dstAt bs bad).served t (12 + n)).setDma t n (d.moved k)).dmaFree t n, true)

/-- Writes of a channel sent: w more are to be acknowledged. -/
def State.dmaSent (s : State) (t n w : Nat) : State :=
  match tget (s.tile t).dma n with
  | some d => (s.setDma t n { d with unacked := d.unacked + w }).dmaFree t n
  | none => s

/-- The next piece to a global address. -/
def State.dmaToMem (s : State) (t n : Nat) (d : DmaSt) : State × Bool :=
  let m : Master := ⟨.tile, t⟩
  let k := s.dmaLen t d
  let h := s.dmaG d d.dstAt
  if s.gHole h k || (s.isOwn h && s.libHit (s.home (gLocal h)) k) then (s.dmaHole t n 1 h d.dstAt, false)
  else if !s.gRoom h k then (s, false)
  else if s.near h && !s.regOpen (.other m) (s.home (gLocal h)) d.tc k then (s.dmaHeld t n d (s.home (gLocal h)) k, false)
  else
    let (bs, bad, s) := s.dmaRead t n d (s.dmaG d d.srcAt) k
    let r := (s.setDma t n (d.moved k)).gWrite m n h d.tc bs bad
    (r.1.dmaSent t n r.2, true)

/-- The next piece of the block in progress moved. The Bool says whether the channel can go on. -/
def State.dmaPiece (s : State) (t n : Nat) (d : DmaSt) : State × Bool :=
  match s.dmaSource t n d with
  | some s => (s, false)
  | none => if d.toPort then s.dmaToPort t n d else if d.dstLocal then s.dmaToLm t n d else s.dmaToMem t n d

/-- Pieces moved while the channel can go on; the argument is fuel. -/
def State.dmaMove (s : State) (t n : Nat) : Nat → State
  | 0 => s
  | f + 1 =>
    match tget (s.tile t).dma n with
    | none => s
    | some d =>
      if d.left = 0 then s
      else match s.dmaPiece t n d with
        | (s, true) => s.dmaMove t n f
        | (s, false) => s

/-- DMA_TRANSFER_BLOCK: the block in progress goes on, or the next one of an enabled channel begins once the one before it has been
acknowledged. -/
def State.dmaBlock (s : State) (t n : Nat) : State :=
  match tget (s.tile t).dma n with
  | none => s
  | some d =>
    if d.left ≠ 0 then s.dmaMove t n (d.left / 16 + 4)
    else if d.row = d.rows ∨ d.unacked ≠ 0 ∨ !s.dressRuns t ∨ !s.bget (R.tileDmaCtrl t n) 31 then s
    else (s.dmaStart t n d).dmaMove t n 0x1004
def execDmaTransferBlock (t n : Nat) (s : State) : Outc := run (t < 2176 && n < 4) (s.dmaBlock t n).accPump

/-- DMA_DESCRIPTOR_COMPLETE (R93): head moves on, and the descriptor's object is signalled (R292). -/
def State.dmaComplete (s : State) (t n : Nat) : State :=
  match tget (s.tile t).dma n with
  | none => s
  | some d =>
    if d.row = d.rows ∧ d.left = 0 ∧ d.unacked = 0 then
      let s := (d.held.foldl State.tlbDrop s).modTile t fun x => { x with dma := tdel x.dma n }
      let s := s.set (R.tileDmaHead t n) (BitVec.ofNat 64 (((s.get (R.tileDmaHead t n)).toNat + 1) % s.dmaCount t n))
      if bit d.ctl 50 then s.signal (fld d.ctl 63 51) else s
    else s
def execDmaDescriptorComplete (t n : Nat) (s : State) : Outc := run (t < 2176 && n < 4) (s.dmaComplete t n)

end Sys2Proof.Machine
end

