-- ==== Sys2Proof/Machine/SvcCore.lean ====
section
/-! DEFINITION. What the service cores do to the hub (R363 to R366): sync operations, interrupt reads, and uncached accesses. What a core executes
beside these, from its private range, is its own (log entry 28). -/

namespace Sys2Proof.Machine

/-- Whether a core executes. -/
def State.coreRuns (s : State) (c : Nat) : Bool := s.powered && s.bget (R.svcStatus c) 31

/-- A command of a core: one that waits in FWAIT has taken an interrupt, which drops its waiter (R365). -/
def coreCmd (c : Nat) (s : State) (eff : State → State) : Outc :=
  run (c < 16) (if s.coreRuns c then eff (s.modCore c fun x => { x with wait := none }) else s)

/-- The illegal-instruction exception (R365). -/
def State.coreIll (s : State) (c : Nat) : State := s.modCore c fun x => x.trap 2 0

/-- FSIG: after every earlier store of the core has been acknowledged. -/
def execFsig (core : Nat) (rs1 rs2 : W64) (s : State) : Outc :=
  coreCmd core s fun s =>
    if 8191 < rs1.toNat then s.coreIll core
    else if (s.core core).stores = 0 then s.syncAdd rs1.toNat rs2 false
    else s.modCore core fun x => { x with sigq := x.sigq ++ [(rs1.toNat, rs2)] }

/-- FWAIT: goes on at once with the count where it is there, else waits (R288). -/
def execFwait (core rd : Nat) (rs1 rs2 : W64) (s : State) : Outc :=
  coreCmd core s fun s =>
    if 8191 < rs1.toNat then s.coreIll core
    else
      let c := s.get (R.syncCount rs1.toNat)
      if rs2.toNat ≤ c.toNat then s.modCore core fun x => x.setX rd c
      else s.modCore core fun x => { x with wait := some (rs1.toNat, rs2, rd) }

/-- Machine interrupt-pending bit 16 of a core: set while its queue holds an entry. -/
def State.coreIrq (s : State) (c : Nat) : Bool := !(tgetD s.svcIrq c []).isEmpty

/-- FIRQ_READ: the oldest entry, or 0 (R366). -/
def State.firqPop (s : State) (c rd : Nat) : State :=
  match tgetD s.svcIrq c [] with
  | [] => s.modCore c fun x => x.setX rd 0
  | v :: r => ({ s with svcIrq := tset s.svcIrq c [] r }.fset (R.svcStatus c) 6 0 r.length).modCore c fun x => x.setX rd v
def execFirqRead (core rd : Nat) (s : State) : Outc := coreCmd core s fun s => s.firqPop core rd

/-- The global address of a service-core physical address; none for one that R363 forbids. -/
def State.coreG (s : State) (c : Nat) (pa : W64) : Option Nat :=
  if nbits pa.toNat 63 56 ≠ 0 ∨ nbits pa.toNat 54 46 ≠ 0 then none
  else if bit pa 55 then some ((s.core c).fgdev % 2 ^ 18 * 2 ^ 46 + nbits pa.toNat 45 0)
  else some (s.gOwn (nbits pa.toNat 45 0))

/-- Whether bytes of this device lie in the private range. -/
def State.inPrivate (s : State) (g n : Nat) : Bool :=
  s.isOwn g && decide (s.svc.base ≤ gLocal g) && decide (gLocal g + n ≤ s.svc.base + s.svc.size)

/-- An access of a core: one that R363 or the rule on LR and SC forbids traps; one to the private range reaches the core's own caches, and what a
load finds there is not the hub's to say (log entry 36); the others are uncached (R364). -/
def State.coreAccess (s : State) (c rd : Nat) (pa : W64) (n : Nat) (op : AccessOp) (lrsc : Bool) : State :=
  let cause := if accCode op = 0 then 5 else 7
  match s.coreG c pa with
  | none => s.modCore c fun x => x.trap cause pa
  | some g =>
    if s.inPrivate g n then
      if accWrites op && !lrsc then s else s.drew.modCore c fun x => x.setX (rd % 32) s.free
    else if lrsc then s.modCore c fun x => x.trap cause pa
    else
      let s := if accWrites op then s.modCore c fun x => { x with stores := x.stores + 1 } else s
      s.access ⟨.core, c⟩ (.core c rd) g n ((s.core c).ftcls % 4) op false
def execSvcCoreAccess (core rd : Nat) (pa : W64) (n : Nat) (op : AccessOp) (lrsc : Bool) (s : State) : Outc :=
  coreCmd core s fun s => (s.coreAccess core rd pa (if accWrites op then (accBytes op).length else n) op lrsc).accPump

end Sys2Proof.Machine
end

