-- ==== Sys2Proof/Machine/TksRx.lean ====
section
/-! DEFINITION. Requests and responses arriving on Tukosen (R308, R311, R314 to R316, R320), and the actions of notifiers (R290). -/

namespace Sys2Proof.Machine

/-! ### Requests and responses -/

/-- A command that is the arrival of a request: the frame accepted by the link or not, performed, and its cells returned (R317, R318). -/
def tksReqCmd (p : Nat) (f : Frame) (op : Nat) (s : State) : Outc :=
  if f.op ≠ op ∨ f.resp ∨ f.dst ≠ s.ownDev then .refused .illFormed
  else run (p < 8) (match s.tksTake p f with
    | none => s.tksDrop p f
    | some s => (s.reqIn p f).accPump)
/-- PUT. -/
def execPutOp (port : Nat) (f : Frame) (s : State) : Outc := tksReqCmd port f 0x01 s
/-- GET. -/
def execGetOp (port : Nat) (f : Frame) (s : State) : Outc := tksReqCmd port f 0x02 s
/-- ATOMIC. -/
def execTksAtomic (port : Nat) (f : Frame) (s : State) : Outc := tksReqCmd port f 0x03 s
/-- SYNC. -/
def execTksSync (port : Nat) (f : Frame) (s : State) : Outc := tksReqCmd port f 0x04 s
/-- RED. -/
def execRed (port : Nat) (f : Frame) (s : State) : Outc := tksReqCmd port f 0x05 s
/-- SETT_GRANT. -/
def execSettGrant (port : Nat) (f : Frame) (s : State) : Outc := tksReqCmd port f 0x08 s
/-- SETT_RETURN. -/
def execSettReturn (port : Nat) (f : Frame) (s : State) : Outc := tksReqCmd port f 0x09 s
/-- SETT_READ. -/
def execSettRead (port : Nat) (f : Frame) (s : State) : Outc := tksReqCmd port f 0x0A s
/-- SETT_WRITE. -/
def execSettWrite (port : Nat) (f : Frame) (s : State) : Outc := tksReqCmd port f 0x0B s
/-- MSG. -/
def execMsg (port : Nat) (f : Frame) (s : State) : Outc := tksReqCmd port f 0x10 s
/-- ECHO. -/
def execEcho (port : Nat) (f : Frame) (s : State) : Outc := tksReqCmd port f 0x3E s

/-- A response at its source (R316, R320): busy, unreachable and exhausted ones leave the request to its next attempt. -/
def State.respIn (s : State) (f : Frame) : State :=
  match tget s.tksReq f.reqid.toNat with
  | none => s
  | some q =>
    if q.ended ∨ q.f.dst ≠ f.src ∨ q.f.op ≠ f.op then s
    else if f.status = 0 ∨ f.status = 2 ∨ f.status = 6 then s.tksEnd f.reqid.toNat f.status f else s
/-- TKS_RESPONSE. -/
def execTksResponse (port : Nat) (f : Frame) (s : State) : Outc :=
  if !f.resp ∨ f.dst ≠ s.ownDev then .refused .illFormed
  else run (port < 8) (match s.tksTake port f with
    | none => s.tksDrop port f
    | some s =>
      let s := s.oweCells (some (cellsOf port f))
      if !respOk f then s.bump (R.tksMalformed port) 32 1
      else if s.bget R.secTenStatus 31 then s else (s.respIn f).cohTail)
/-- TKS_FORWARD. -/
def execTksForward (port : Nat) (f : Frame) (s : State) : Outc :=
  if f.dst = s.ownDev then .refused .illFormed
  else run (port < 8) (match s.tksTake port f with
    | none => s.tksDrop port f
    | some s => if !frameOk f then (s.bump (R.tksMalformed port) 32 1).oweCells (some (cellsOf port f)) else s.tksForward port f)

/-! ### Notifier actions (R290, Table 11-2) -/

/-- An action dropped: the object's nfail set, and counted at its home. -/
def State.nfail (s : State) (obj : Nat) : State := (s.bset (R.syncStatus obj) 30 true).bump (R.syncUnitNfail (syncHalf obj)) 32 1

/-- Whether an address belongs to a fenced site or to the fenced host (R255, R341). -/
def State.fencedAt (s : State) (g : Nat) : Bool := s.isOwn g && (match region (gLocal g) with | .site n => s.fenced n | .host => s.fenced 8 | _ => false)

/-- A write of 8 bytes by the home of an object. -/
def State.notifyWr (s : State) (x : NAct) (v : W64) : State :=
  if s.fencedAt x.arg.toNat then s.nfail x.obj
  else s.access ⟨.syncHome, syncHalf x.obj⟩ (.notifier x.obj) x.arg.toNat 8 x.tclass (.write (leBytes 8 v.toNat)) false

/-- The oldest action on its way performed. -/
def State.notifyDo (s : State) (x : NAct) : State :=
  match x.kind with
  | 1 => if s.bget R.cxlStatus 31 && s.bget R.cxlStatus 28 && !s.fenced 8 then s.msix (x.target % 2048) else s.nfail x.obj
  | 2 => s.notifyWr x x.count
  | 3 => s.notifyWr x 1
  | 4 => s.svcPush (x.target % 16) 0 x.obj
  | _ => s
/-- NOTIFIER_ACTION. -/
def execNotifierAction (s : State) : Outc :=
  .next (match s.nq with
    | [] => s
    | x :: r => ({ s with nq := r }.notifyDo x).cohTail)

end Sys2Proof.Machine
end

