-- ==== Sys2Proof/Machine/Svc.lean ====
section
/-! DEFINITION. The service complex (chapter 16): its firmware and queues, egress, and the Flivon serving profile. -/

namespace Sys2Proof.Machine

/-! ### Firmware (R367 to R369) -/

def State.coresRun (s : State) : List Nat := (List.range 16).filter fun c => s.bget (R.svcStatus c) 31

/-- SVC_FW_LOAD. -/
def State.svcLoad (s : State) (g : W64) (size : Nat) : AxR :=
  if !s.coresRun.isEmpty ∨ s.svc.size = 0 then refuse s dState
  else
  let bad := s.imgBad g size
  s.withImage g size fun s img => match img with
  | none => refuse s dBadHeader
  | some img =>
    let (b, e) := s.imgVerify img 0x46435653 size 1
    let off := imgU img 0x14 4
    if e = dBadHeader ∨ !svcReserved img ∨ off % 4096 ≠ 0 ∨ s.svc.size < off + (b - 0x100) ∨ s.svc.size ≤ imgU img 0x18 4 then refuse s dBadHeader
    else if e ≠ 0 then refuse s e
    else
      let s := (s.engWrite ⟨.steward, 0⟩ (2 ^ 40) (s.svc.base + off) 1 ((img.drop 0x100).take (b - 0x100)) bad).1
      let d := BitVec.ofNat 512 (imgU img 0x30 64)
      let s := { s with svc := { s.svc with loaded := true, fwId := BitVec.ofNat 64 (imgU img 0x20 8), digest := d, entry := imgU img 0x18 4 } }
      .done s.measCommit 0 (p64 (imgU img 0x20 8) ++ leBytes 64 d.toNat)
def execSvcFwLoad (q : Req) (image : W64) (size : Nat) (s : State) : Outc :=
  run (mbxOk q) (axotte s q 0x0B01 fun s => s.svcLoad image size)

/-- A core started at an address: a0 its number, a1 the argument, a2 the private base. -/
def State.coreStart (s : State) (pc : W64) (c : Nat) : State :=
  let x : SCore := { pc := pc }
  let x := ((x.setX 10 (BitVec.ofNat 64 c)).setX 11 s.svc.arg).setX 12 (BitVec.ofNat 64 s.svc.base)
  (s.modCore c fun _ => x).bset (R.svcStatus c) 31 true

/-- SVC_START: the private range, and the cores of a mask at their entries; the range of a loaded image is kept, and
nothing the firmware held before is resumed (R369). -/
def State.svcStart (s : State) (base size : Nat) (arg : W64) (cores : List (Nat × Nat)) : AxR :=
  if base % 0x10000 ≠ 0 ∨ size % 0x10000 ≠ 0 ∨ size < 0x4000000 ∨ !s.hbmBacked base ∨ !s.hbmBacked (base + size - 1)
      ∨ (base < s.store.rBase + s.store.rLen ∧ s.store.rBase < base + size) then invalid s
  else if !s.coresRun.isEmpty ∨ (s.svc.loaded ∧ (s.svc.base ≠ base ∨ s.svc.size ≠ size)) then refuse s dState
  else if !s.domUp 89 then refuse s dPowerState
  else
    let s := { s with svc := { s.svc with base := base, size := size, arg := arg, going := false, step := 0, ents := [], waitQ := [], rspQ := [] } }
    .done (cores.foldl (fun (s : State) (c : Nat × Nat) => s.coreStart (BitVec.ofNat 64 (base + c.2)) c.1) s) 0 []
def execSvcStart (q : Req) (base size : Nat) (arg : W64) (s : State) : Outc :=
  run (mbxOk q) (axotte s q 0x0B02 fun s => s.svcStart base size arg ((List.range 16).map fun c => (c, s.svc.entry)))
def execSvcStartExpert (q : Req) (base size : Nat) (arg : W64) (mask : Nat) (entries : List Nat) (s : State) : Outc :=
  run (mbxOk q) (axotte s q 0x8B02 fun s =>
    if 2 ^ 16 ≤ mask ∨ entries.length ≠ 16 ∨ entries.any (size ≤ ·) then invalid s
    else s.svcStart base size arg (((List.range 16).filter fun c => nbit mask c).map fun c => (c, entries.getD c 0)))

/-- SVC_STOP: the mask of the cores halted. -/
def execSvcStop (q : Req) (s : State) : Outc :=
  run (mbxOk q) (axotte s q 0x0B03 fun s => .done s.svcHalt 0 (p32 (s.coresRun.foldl (fun n c => n + 2 ^ c) 0)))

/-! ### Queues (R370 to R372) -/

/-- The word of an ingress queue of slots at a base; none where the arguments break Table 16-10. -/
def iqWord (base slots obj code : Nat) : Option W64 :=
  let k := log2n slots
  if slots = 2 ^ k ∧ 4 ≤ k ∧ k ≤ 16 ∧ obj < 8192 ∧ code ≤ 4 ∧ base < 2 ^ 46 ∧ base % (slots * 256 * 2 ^ code) = 0 ∧ base % 4096 = 0 then
    some (BitVec.ofNat 64 (2 ^ 63 + code * 2 ^ 60 + (k - 4) * 2 ^ 56 + obj * 2 ^ 43 + base / 4096))
  else none

/-- A ring's configuration, where its tail equals its head. -/
def State.iqSet (s : State) (q : Nat) (v : W64) : Option State :=
  if s.get (R.svcIqTail q) = s.get (R.svcIqHead q) ∧ tgetD s.svc.inq q [] = [] then some (s.set (R.svcIqCfg q) v) else none
def State.eqSet (s : State) (e : Nat) (v : W64) : Option State :=
  if s.get (R.svcEqTail e) = s.get (R.svcEqHead e) then some (s.set (R.svcEqCfg e) (v &&& 0x8F000003FFFFFFFF)) else none

/-- SVC_QUEUE_SET. -/
def State.queueSet (s : State) (queue base slots obj code : Nat) (egress : List (Nat × W64)) : AxR :=
  match iqWord base slots obj code with
  | none => invalid s
  | some v =>
    if 256 ≤ queue ∨ egress.any (fun e => decide (16 ≤ e.1) || decide (12 < fld e.2 59 56)) then invalid s
    else match (s.iqSet queue v).bind fun s => egress.foldlM (fun (s : State) (e : Nat × W64) => s.eqSet e.1 e.2) s with
      | some t => .done t 0 []
      | none => refuse s dState
def execSvcQueueSet (q : Req) (queue base slots obj : Nat) (s : State) : Outc :=
  run (mbxOk q) (axotte s q 0x0B04 fun s => s.queueSet queue base slots obj 4 [])
def execSvcQueueSetExpert (q : Req) (queue base slots obj slotCode : Nat) (egress : List (Nat × W64)) (s : State) : Outc :=
  run (mbxOk q) (axotte s q 0x8B04 fun s => s.queueSet queue base slots obj slotCode egress)

/-- SVC_STATUS: each core's status, fw_id, and the entries each ingress and egress queue holds. -/
def execSvcStatus (q : Req) (s : State) : Outc :=
  run (mbxOk q) (axotte s q 0x0B05 fun s =>
    let lev (t h : Reg) : List Byte := p32 (((s.get t).toNat + 2 ^ 32 - (s.get h).toNat) % 2 ^ 32)
    .done s 0 (((List.range 16).flatMap fun c => p32 (s.get (R.svcStatus c)).toNat) ++ p64 s.svc.fwId.toNat
      ++ ((List.range 256).flatMap fun q => lev (R.svcIqTail q) (R.svcIqHead q)) ++ (List.range 16).flatMap fun e => lev (R.svcEqTail e) (R.svcEqHead e)))

/-- EGRESS_TAIL_WRITE. -/
def execEgressTailWrite (e : Nat) (v : W32) (s : State) : Outc :=
  run (e < 16) (if s.powered && s.blockOn (R.svcEqTail e).addr then s.set (R.svcEqTail e) (v.setWidth 64) else s)

/-- An egress descriptor's fields (Table 16-4), from its 32 bytes. -/
structure EgDesc where
  src : Nat
  len : Nat
  queue : Nat
  tc : Nat
  dst : Nat
  bad : Bool
def egDesc (d : List Byte) : EgDesc :=
  let w8 := imgU d 8 2
  let b11 := imgU d 11 1
  let w12 := imgU d 12 4
  { src := imgU d 0 8, len := w8 % 8192, queue := imgU d 10 1, tc := b11 % 4, dst := w12 % 2 ^ 18
    bad := w8 / 8192 != 0 || b11 / 4 % 32 != 0 || w12 / 2 ^ 18 != 0 || imgU d 16 2 / 8192 != 0 || imgU d 18 2 / 16 % 2048 != 0 || !imgZero d 20 12
      || decide (4096 < w8 % 8192) }

/-- A MSG sent: to this device's own queue it is delivered at once, where a slot is free (R370). -/
def State.msgOut (s : State) (e i : Nat) (d : EgDesc) (bs : List Byte) (poison : Bool) : State :=
  let x := e * 2 ^ 32 + i
  let sent (s : State) : State := { s with svc := { s.svc with sent := tset s.svc.sent e 0 ((i + 1) % 2 ^ 32) } }
  if d.dst = s.ownDev then
    match s.msgIn d.queue ⟨.egress x, bs, s.ownDev, 0, poison, 0⟩ with
    | .bad => (sent s).egressDone e i 2
    | .full t => t
    | .taken t => sent t
  else match s.tksAsk (.egress x) (s.reqFrame d.dst d.tc 0x10 0 0 bs.length (BitVec.ofNat 64 d.queue) 0 bs poison) with
    | .sent _ t => sent t
    | .stall => s
    | .noRoute => (sent (s.hole svcHub 1 (d.dst * 2 ^ 46 + d.queue))).egressDone e i 2

/-- A descriptor's outcome without a MSG: the queue's next descriptor is due. -/
def State.egressSkip (s : State) (e i st : Nat) : State :=
  { s with svc := { s.svc with sent := tset s.svc.sent e 0 ((i + 1) % 2 ^ 32) } }.egressDone e i st

/-- A descriptor read: its payload read once it is there, and the MSG sent. -/
def State.egressGo (s : State) (e i : Nat) (d : EgDesc) (bad : Bool) : State :=
  if d.bad ∨ bad then s.egressSkip e i 2
  else if d.len = 0 then s.msgOut e i d [] false
  else if s.gHole d.src d.len then (s.hole svcHub 0 d.src).egressSkip e i 2
  else if !s.gReady svcHub d.src d.len then s.gAsk svcHub d.src d.len d.tc
  else if s.gErr d.src d.len ≠ 0 then (s.hole svcHub 0 d.src).egressSkip e i 2
  else
    let r := s.gRead svcHub d.src d.len d.tc
    r.2.2.msgOut e i d r.1 r.2.1

/-- EGRESS_SEND: the next descriptor submitted is read, then its payload, and the MSG leaves (R372). -/
def State.egressSend (s : State) (e : Nat) : State :=
  let i := tgetD s.svc.sent e 0
  let a := s.gOwn (s.eqAddr e i)
  if !s.powered || !s.bget (R.svcEqCfg e) 63 || i == (s.get (R.svcEqTail e)).toNat then s
  else if s.gHole a 32 then s.hole svcHub 0 a
  else if !s.gReady svcHub a 32 then s.gAsk svcHub a 32 1
  else
    let r := s.gRead svcHub a 32 1
    r.2.2.egressGo e i (egDesc r.1) r.2.1
def execEgressSend (e : Nat) (s : State) : Outc := run (e < 16) (s.egressSend e).cohTail

/-! ### The serving profile (R373 to R375) -/

/-- n bytes of the manifest at an offset (Table 16-5). -/
def State.man (s : State) (o n : Nat) : Nat := leNat (s.read (s.home (gLocal s.svc.arg.toNat)) (o + n) |>.drop o)

/-- Whether the profile runs: the loaded firmware executes on core 0, and its argument is a manifest. -/
def State.serving (s : State) : Bool :=
  s.coreRuns 0 && s.svc.loaded && s.isOwn s.svc.arg.toNat && s.man 0 4 == 0x5453464E && s.man 4 2 == 1

/-- Responses sent in order, as far as there is room for them (R320, R371); the first argument is fuel. -/
def State.svPumpGo (s : State) : Nat → State
  | 0 => s
  | n + 1 =>
    match s.svc.rspQ with
    | [] => s
    | (dev, queue, tc, bs) :: r =>
      let t := { s with svc := { s.svc with rspQ := r } }
      if dev = s.ownDev then
        match t.msgIn queue ⟨.noone, bs, s.ownDev, 0, false, 0⟩ with
        | .taken t => t.svPumpGo n
        | .full t => { t with svc := { t.svc with rspQ := s.svc.rspQ } }
        | .bad => t.svPumpGo n
      else match t.tksAsk .noone (s.reqFrame dev tc 0x10 0 0 bs.length (BitVec.ofNat 64 queue) 0 bs false) with
        | .sent _ t => t.svPumpGo n
        | .stall => s
        | .noRoute => (t.hole svcHub 1 (dev * 2 ^ 46 + queue)).svPumpGo n
def State.svPump (s : State) : State := s.svPumpGo s.svc.rspQ.length

/-- A response for a request's reply queue (Table 16-6). -/
def State.svReply (s : State) (r : SvReq) (status first : Nat) (toks : List W32) : State :=
  let bs := leBytes 8 r.id.toNat ++ leBytes 1 status ++ [0] ++ leBytes 2 toks.length ++ leBytes 4 first ++ toks.flatMap fun t => leBytes 4 t.toNat
  { s with svc := { s.svc with rspQ := s.svc.rspQ ++ [(r.replyDev, r.replyQueue, r.tc % 4, bs)] } }.svPump

/-- A command that the profile rings in a host mailbox of its own, 12: it arrives as a command of its own (log entry 37). -/
def State.svCmd (s : State) (cmd : Nat) (args : List Nat) : State := s.emit (.command 12 cmd args)

/-- A request admitted to an entry opens its sequence and has the first page of every group appended; the sequence's IDs follow the manifest's first. -/
def State.svOpen (s : State) (seq : Nat) : State :=
  (s.svCmd 0x8501 [seq, s.man 44 2 % 4096, s.man 48 4, s.man 52 4, s.man 56 4 % 16, s.man 60 4, 0, s.man 47 1]).svCmd 0x0504 [seq, 0, s.man 48 4]

/-- What the positions of a step that fill pages cause (step 5 of R373): the pages committed up to the position reached, and a page more for every group. -/
def State.svPages (s : State) (seq old new : Nat) : State :=
  let ppp := max 1 (s.man 60 4)
  let s := if old < new then s.svCmd 0x0505 [seq, new, 0xFFFF] else s
  (List.range (new / ppp - old / ppp)).foldl (fun s _ => s.svCmd 0x0504 [seq, 0, s.man 48 4]) s

/-- Pages of a size that the tiers of a policy class have room for: from the append tier on; the first argument is fuel. -/
def State.tierRoom (s : State) (c : ClassPol) (size : Nat) : Nat → Option Nat → Nat
  | 0, _ => 0
  | _, none => 0
  | f + 1, some t => (s.tierTotal t - (s.tierUsed t).length) / unitsIn t (cdiv size 4096) + s.tierRoom c size f (c.next.getD t none)

/-- Whether there are free units for a request's pages in every group (R374). The 16 bytes of `open` hold groups, row_elems, wfmt and ppp as four 32-bit
fields (log entry 37). -/
def State.svRoom (s : State) (r : SvReq) : Bool :=
  let groups := s.man 48 4
  let ppp := max 1 (s.man 60 4)
  let size := pageSize (s.man 56 4 % 16) (s.man 52 4) ppp
  let c := tgetD s.policy.cls (s.man 47 1) {}
  decide (groups * cdiv (r.prompt.length + r.maxNew) ppp ≤ s.tierRoom c size 4 (some c.append))

/-- SERVING_ADMISSION: a malformed request is answered 5; one with room takes the lowest free entry; another waits. -/
def State.svAdmit (s : State) (r : SvReq) : State :=
  if !s.serving then s
  else if r.prompt.isEmpty ∨ 1024 < r.topK ∨ r.maxNew = 0 ∨ 4 ≤ r.tc then s.svReply r 5 0 []
  else
    let rest := s.svc.waitQ.filter fun x : SvReq => x.id != r.id
    match (List.range (s.man 40 2)).find? fun i => (tget s.svc.ents i).isNone with
    | none => { s with svc := { s.svc with waitQ := rest ++ [r] } }
    | some i =>
      if s.svRoom r then
        { s with svc := { s.svc with waitQ := rest, ents := tput s.svc.ents i { r := r, seq := (s.man 36 4 + i) % 2 ^ 24 } } }.svOpen ((s.man 36 4 + i) % 2 ^ 24)
      else { s with svc := { s.svc with waitQ := rest ++ [r] } }
def execServingAdmission (r : SvReq) (s : State) : Outc := .next (s.svAdmit r).accPump

/-- SERVING_ADMISSION_TIMEOUT: a request that still waits is answered 3. -/
def execServingAdmissionTimeout (id : W64) (s : State) : Outc :=
  .next (match s.svc.waitQ.find? fun x : SvReq => x.id == id with
    | some r => if s.serving then ({ s with svc := { s.svc with waitQ := s.svc.waitQ.filter fun x : SvReq => x.id != id } }.svReply r 3 0 []).accPump else s
    | none => s)

/-- Positions of an entry's next step, and its 16 bytes in the step table (R373). -/
def SvEnt.count (x : SvEnt) (chunk : Nat) : Nat := if x.pos < x.r.prompt.length then min (max 1 chunk) (x.r.prompt.length - x.pos) else 1
def SvEnt.bytes (x : SvEnt) (chunk : Nat) : List Byte :=
  leBytes 4 (2 ^ 31 + x.seq) ++ leBytes 4 x.pos ++ leBytes 4 (x.count chunk)
    ++ leBytes 4 (if x.pos < x.r.prompt.length then x.pos else x.last.toNat)

/-- Steps 1 and 2 of R373. -/
def State.svBegin (s : State) : State :=
  let t := s.man 16 8
  let s := s.svc.ents.foldl (fun (s : State) (e : Nat × SvEnt) =>
    (s.gWrite svcHub (2 ^ 40) (t + 16 * e.1) 1 (e.2.bytes (s.man 42 2)) false).1) s
  { s with svc := { s.svc with step := s.svc.step + 1, going := true } }.syncAdd (s.man 64 2 % 8192) 1 false

/-- The index of the largest of some FP32 values, the lowest on a tie. -/
def argmax (vs : List Nat) : Nat :=
  ((vs.zipIdx).foldl (fun (b : Nat × Nat) (e : Nat × Nat) => if (decode 0 b.1).lt (decode 0 e.1) then e else b) (vs.headD 0, 0)).2
/-- Logits with their tokens in descending order, ties by lower index. -/
def putDesc (e : Nat × Nat) : List (Nat × Nat) → List (Nat × Nat)
  | [] => [e]
  | x :: r => if (decode 0 x.1).lt (decode 0 e.1) then e :: x :: r else x :: putDesc e r
def sortDesc (vs : List Nat) : List (Nat × Nat) := vs.zipIdx.foldl (fun l e => putDesc e l) []

/-- The draw of a step (R375): the 24 bits of u, for step n of a request with a seed. -/
def drawU (seed : W64) (n : Nat) : Nat :=
  let z := seed + BitVec.ofNat 64 (n + 1) * 0x9E3779B97F4A7C15
  let z := (z ^^^ (z >>> 30)) * 0xBF58476D1CE4E5B9
  let z := (z ^^^ (z >>> 27)) * 0x94D049BB133111EB
  let z := z ^^^ (z >>> 31)
  (z >>> 40).toNat

/-- The token of step n sampled from an entry's logits (R375): the largest for T = 0, the lowest index on a tie; else one of the top_k largest, which depends
on their values, T, top_p and u alone: the FP32 roundings of the softmax are not the manual's to fix, so which one is a free result of these (log entry 37). -/
def sample (r : SvReq) (n : Nat) (vs : List Nat) : W32 :=
  if r.temp.toNat % 2 ^ 31 = 0 then BitVec.ofNat 32 (argmax vs)
  else
    let kept := (sortDesc vs).take (if r.topK = 0 then vs.length else r.topK)
    let x := Config.freeResult (375 :: r.temp.toNat :: r.topP.toNat :: drawU r.seed n :: kept.map (·.1)) 0
    BitVec.ofNat 32 ((kept.getD (x.toNat % kept.length) (0, 0)).2)

/-- One entry after a step: its positions are done; past its prompt a token has been sampled. It sends its tokens when it has 64 or is finished, at max_new
or a stop token (R374). -/
def State.svEntry (s : State) (i : Nat) (x : SvEnt) (vs : List Nat) : State :=
  let n := x.r.prompt.length
  let s := s.svPages x.seq x.pos (x.pos + x.count (s.man 42 2))
  let x := { x with pos := x.pos + x.count (s.man 42 2) }
  let put (s : State) (x : SvEnt) : State := { s with svc := { s.svc with ents := tput s.svc.ents i x } }
  if x.pos < n then put s x
  else
    let tok := sample x.r x.gen vs
    let x := { x with gen := x.gen + 1, last := tok, toks := x.toks ++ [tok] }
    let first := n + x.gen - x.toks.length
    let stop := (List.range 8).any fun k => s.man (72 + 4 * k) 4 == tok.toNat && tok.toNat != 0xFFFFFFFF
    if stop ∨ x.r.maxNew ≤ x.gen then
      ({ s with svc := { s.svc with ents := tdel s.svc.ents i } }.svReply x.r (if stop then 2 else 1) first x.toks).svCmd 0x0502 [x.seq, 0xFFFF]
    else if 64 ≤ x.toks.length then (put s { x with toks := [] }).svReply x.r 0 first x.toks
    else put s x

/-- Steps 3 to 5: the logits of every entry read once step_done has reached the step's number. -/
def State.svEnd (s : State) : State :=
  let v := s.man 32 4
  let g := s.man 24 8
  let at' (i : Nat) : Nat := g + 4 * v * i
  if (s.get (R.syncCount (s.man 66 2 % 8192))).toNat < s.svc.step then s
  else if s.svc.ents.any fun e => s.gHole (at' e.1) (4 * v) then { s with svc := { s.svc with going := false } }.hole svcHub 0 g
  else match s.svc.ents.filter fun e => !s.gReady svcHub (at' e.1) (4 * v) with
    | [] =>
      let s := s.svc.ents.foldl (fun (s : State) (e : Nat × SvEnt) =>
        let (bs, _, s) := s.gRead svcHub (at' e.1) (4 * v) 1
        s.svEntry e.1 e.2 ((wordsOf v bs).map (·.toNat))) s
      { s with svc := { s.svc with going := false } }
    | ws => ws.foldl (fun (s : State) (e : Nat × SvEnt) => s.gAsk svcHub (at' e.1) (4 * v) 1) s

/-- The step dressing of a killed context unloaded, loaded and activated again (Table 16-7); the commands carry its image and context, and no handle yet. -/
def State.svReload (s : State) : State :=
  ((s.svCmd 0x0405 []).svCmd 0x0401 [s.man 8 8, s.man 44 2 % 4096]).svCmd 0x0402 []

/-- SERVING_STEP: a step begun, or ended once the dressing has signalled it; a killed context ends every request with status 4 (Table 16-7). -/
def State.svStep (s : State) : State :=
  if !s.serving || s.svc.ents.isEmpty then s
  else if s.bget (R.xltCtx (s.man 44 2 % 4096)) 62 then
    (s.svc.ents.foldl (fun (s : State) (e : Nat × SvEnt) => s.svReply e.2.r 4 (e.2.r.prompt.length + e.2.gen - e.2.toks.length) e.2.toks)
      { s with svc := { s.svc with ents := [], going := false } }).svReload
  else if s.svc.going then s.svEnd else s.svBegin
def execServingStep (s : State) : Outc := .next s.svPump.svStep.cohTail

end Sys2Proof.Machine
end

