-- ==== Sys2Proof/Machine/Dispatch.lean ====
section
/-! DEFINITION. The meaning of each command. -/

namespace Sys2Proof.Machine

def exec (i : Instr) (s : State) : Host.Outcome State Fault Refusal :=
  match i with
  | .powerOn vin mated perstN modRstN straps => Sys2Proof.Machine.execPowerOn vin mated perstN modRstN straps s
  | .moduleReset perst lowUs => Sys2Proof.Machine.execModuleReset perst lowUs s
  | .powerDown cause => Sys2Proof.Machine.execPowerDown cause s
  | .overcurrentTrip iin => Sys2Proof.Machine.execOvercurrentTrip iin s
  | .overvoltageDisconnect vin us => Sys2Proof.Machine.execOvervoltageDisconnect vin us s
  | .supplySample vin iin => Sys2Proof.Machine.execSupplySample vin iin s
  | .supplyWarningExit aboveUs durUs => Sys2Proof.Machine.execSupplyWarningExit aboveUs durUs s
  | .holdupMeasure us => Sys2Proof.Machine.execHoldupMeasure us s
  | .rootPllLockLoss => Sys2Proof.Machine.execRootPllLockLoss s
  | .hubResetStart => Sys2Proof.Machine.execHubResetStart s
  | .regionResetComplete dom => Sys2Proof.Machine.execRegionResetComplete dom s
  | .stepGoWrite v => Sys2Proof.Machine.execStepGoWrite v s
  | .bootStepComplete n r => Sys2Proof.Machine.execBootStepComplete n r s
  | .bootStepTimeout n => Sys2Proof.Machine.execBootStepTimeout n s
  | .bupStepGo q => Sys2Proof.Machine.execBupStepGo q s
  | .bupStepGoExpert q mask => Sys2Proof.Machine.execBupStepGoExpert q mask s
  | .bupStatus q => Sys2Proof.Machine.execBupStatus q s
  | .bupDegradedAck q word => Sys2Proof.Machine.execBupDegradedAck q word s
  | .bupIdRead q => Sys2Proof.Machine.execBupIdRead q s
  | .rstHub q => Sys2Proof.Machine.execRstHub q s
  | .rstRegion q dom => Sys2Proof.Machine.execRstRegion q dom s
  | .rstRegionExpert q dom hold => Sys2Proof.Machine.execRstRegionExpert q dom hold s
  | .siteStatus q site => Sys2Proof.Machine.execSiteStatus q site s
  | .siteStatusExpert q site module => Sys2Proof.Machine.execSiteStatusExpert q site module s
  | .siteReset q site => Sys2Proof.Machine.execSiteReset q site s
  | .siteResetExpert q site cycle scrub => Sys2Proof.Machine.execSiteResetExpert q site cycle scrub s
  | .pwrCapSet q watts => Sys2Proof.Machine.execPwrCapSet q watts s
  | .pwrCapSetExpert q hubW siteW => Sys2Proof.Machine.execPwrCapSetExpert q hubW siteW s
  | .pwrDomainStatus q first count => Sys2Proof.Machine.execPwrDomainStatus q first count s
  | .pwrThrottleSet q ceil => Sys2Proof.Machine.execPwrThrottleSet q ceil s
  | .pwrThrottleSetExpert q ceils tLim => Sys2Proof.Machine.execPwrThrottleSetExpert q ceils tLim s
  | .pwrTokenAudit q => Sys2Proof.Machine.execPwrTokenAudit q s
  | .ageStatus q => Sys2Proof.Machine.execAgeStatus q s
  | .ageReplan q => Sys2Proof.Machine.execAgeReplan q s
  | .ageReplanExpert q period guard => Sys2Proof.Machine.execAgeReplanExpert q period guard s
  | .thmStatus q => Sys2Proof.Machine.execThmStatus q s
  | .pwrStateSet q target save => Sys2Proof.Machine.execPwrStateSet q target save s
  | .pwrStateSetExpert q target save quiesceMs wakeOff => Sys2Proof.Machine.execPwrStateSetExpert q target save quiesceMs wakeOff s
  | .pwrStateQuiesceTimeout => Sys2Proof.Machine.execPwrStateQuiesceTimeout s
  | .sleepExit byPin lowUs stacksOk => Sys2Proof.Machine.execSleepExit byPin lowUs stacksOk s
  | .sitePwrSet q site watts => Sys2Proof.Machine.execSitePwrSet q site watts s
  | .sitePwrSetExpert q site grant => Sys2Proof.Machine.execSitePwrSetExpert q site grant s
  | .memSsConfig q k => Sys2Proof.Machine.execMemSsConfig q k s
  | .memSsConfigExpert q north south => Sys2Proof.Machine.execMemSsConfigExpert q north south s
  | .memSsFlush q => Sys2Proof.Machine.execMemSsFlush q s
  | .memSsFlushExpert q base len inval => Sys2Proof.Machine.execMemSsFlushExpert q base len inval s
  | .memHbmStatus q => Sys2Proof.Machine.execMemHbmStatus q s
  | .memHbmStatusExpert q stack chan => Sys2Proof.Machine.execMemHbmStatusExpert q stack chan s
  | .memScrubSet q => Sys2Proof.Machine.execMemScrubSet q s
  | .memScrubSetExpert q hbmHours ssHours => Sys2Proof.Machine.execMemScrubSetExpert q hbmHours ssHours s
  | .memErrRead q first count => Sys2Proof.Machine.execMemErrRead q first count s
  | .memDirProbe q addr => Sys2Proof.Machine.execMemDirProbe q addr s
  | .memHostGrant q hostBase size => Sys2Proof.Machine.execMemHostGrant q hostBase size s
  | .memHostGrantExpert q hostBase size tier window => Sys2Proof.Machine.execMemHostGrantExpert q hostBase size tier window s
  | .memHostRevoke q window => Sys2Proof.Machine.execMemHostRevoke q window s
  | .memHostStatus q => Sys2Proof.Machine.execMemHostStatus q s
  | .regPartSet q part first last rate => Sys2Proof.Machine.execRegPartSet q part first last rate s
  | .regPartSetExpert q part first last rateN rateS burst share qlim => Sys2Proof.Machine.execRegPartSetExpert q part first last rateN rateS burst share qlim s
  | .regClassSet q w1 w2 w3 => Sys2Proof.Machine.execRegClassSet q w1 w2 w3 s
  | .regClassSetExpert q w1 w2 w3 hi lo step => Sys2Proof.Machine.execRegClassSetExpert q w1 w2 w3 hi lo step s
  | .regStatus q => Sys2Proof.Machine.execRegStatus q s
  | .regSsShare q part eighths => Sys2Proof.Machine.execRegSsShare q part eighths s
  | .regSsShareExpert q ways => Sys2Proof.Machine.execRegSsShareExpert q ways s
  | .fabDrsLoad q image size ctx => Sys2Proof.Machine.execFabDrsLoad q image size ctx s
  | .fabDrsLoadExpert q image size ctx lbase sbase swap oversub => Sys2Proof.Machine.execFabDrsLoadExpert q image size ctx lbase sbase swap oversub s
  | .fabDrsActivate q h obj => Sys2Proof.Machine.execFabDrsActivate q h obj s
  | .fabDrsActivateExpert q h obj hold => Sys2Proof.Machine.execFabDrsActivateExpert q h obj hold s
  | .fabDrsDeactivate q h => Sys2Proof.Machine.execFabDrsDeactivate q h s
  | .fabDrsDeactivateExpert q h drainMs => Sys2Proof.Machine.execFabDrsDeactivateExpert q h drainMs s
  | .drsDrainTimeout h => Sys2Proof.Machine.execDrsDrainTimeout h s
  | .drsStopPhase h => Sys2Proof.Machine.execDrsStopPhase h s
  | .sunboundTimeout h site => Sys2Proof.Machine.execSunboundTimeout h site s
  | .fabDrsSwap q a b => Sys2Proof.Machine.execFabDrsSwap q a b s
  | .fabDrsSwapExpert q a b drainMs => Sys2Proof.Machine.execFabDrsSwapExpert q a b drainMs s
  | .fabDrsUnload q h => Sys2Proof.Machine.execFabDrsUnload q h s
  | .fabDrsStatus q h => Sys2Proof.Machine.execFabDrsStatus q h s
  | .fabMapRead q first count => Sys2Proof.Machine.execFabMapRead q first count s
  | .sgrantTimeout h site => Sys2Proof.Machine.execSgrantTimeout h site s
  | .fabSyncReserve q count => Sys2Proof.Machine.execFabSyncReserve q count s
  | .fabSyncReserveExpert q first count => Sys2Proof.Machine.execFabSyncReserveExpert q first count s
  | .fabSyncRelease q first count => Sys2Proof.Machine.execFabSyncRelease q first count s
  | .fabSyncAudit q half => Sys2Proof.Machine.execFabSyncAudit q half s
  | .fabCreditAudit q h => Sys2Proof.Machine.execFabCreditAudit q h s
  | .diagLinkAudit q kind idx => Sys2Proof.Machine.execDiagLinkAudit q kind idx s
  | .meshCreditIdleCheck bench link pool found => Sys2Proof.Machine.execMeshCreditIdleCheck bench link pool found s
  | .ucieCreditIdleCheck tukosen unit pool found => Sys2Proof.Machine.execUcieCreditIdleCheck tukosen unit pool found s
  | .ctxSeqOpen q seq ctx groups rowElems wfmt ppp window => Sys2Proof.Machine.execCtxSeqOpen q seq ctx groups rowElems wfmt ppp window s
  | .ctxSeqOpenExpert q seq ctx groups rowElems wfmt ppp window policy kinds => Sys2Proof.Machine.execCtxSeqOpenExpert q seq ctx groups rowElems wfmt ppp window policy kinds s
  | .ctxSeqClose q seq obj => Sys2Proof.Machine.execCtxSeqClose q seq obj s
  | .seqCloseFinish seq => Sys2Proof.Machine.execSeqCloseFinish seq s
  | .ctxSeqQuery q seq => Sys2Proof.Machine.execCtxSeqQuery q seq s
  | .ctxPageAppend q seq gFirst gCount => Sys2Proof.Machine.execCtxPageAppend q seq gFirst gCount s
  | .ctxAppendTimeout mbx => Sys2Proof.Machine.execCtxAppendTimeout mbx s
  | .ctxPageCommit q seq len obj => Sys2Proof.Machine.execCtxPageCommit q seq len obj s
  | .ctxPageMove q seq group page tier => Sys2Proof.Machine.execCtxPageMove q seq group page tier s
  | .ctxPageMoveExpert q seq group page tier fmt pin unpin => Sys2Proof.Machine.execCtxPageMoveExpert q seq group page tier fmt pin unpin s
  | .ctxHoistAttach q h => Sys2Proof.Machine.execCtxHoistAttach q h s
  | .ctxHoistAttachExpert q h tag hoist lane => Sys2Proof.Machine.execCtxHoistAttachExpert q h tag hoist lane s
  | .ctxHoistDetach q h => Sys2Proof.Machine.execCtxHoistDetach q h s
  | .ctxPolicySet q high low => Sys2Proof.Machine.execCtxPolicySet q high low s
  | .ctxPolicySetExpert q cls high low share append next tfmt => Sys2Proof.Machine.execCtxPolicySetExpert q cls high low share append next tfmt s
  | .ctxTierAdd q tier src => Sys2Proof.Machine.execCtxTierAdd q tier src s
  | .ctxTierRemove q tier src => Sys2Proof.Machine.execCtxTierRemove q tier src s
  | .ctxExportConfig q base len => Sys2Proof.Machine.execCtxExportConfig q base len s
  | .ctxAudit q => Sys2Proof.Machine.execCtxAudit q s
  | .ctxEpochStatus q => Sys2Proof.Machine.execCtxEpochStatus q s
  | .ctxStoreInit q base len n0 d => Sys2Proof.Machine.execCtxStoreInit q base len n0 d s
  | .ctxStoreInitExpert q base len n0 d c t0 => Sys2Proof.Machine.execCtxStoreInitExpert q base len n0 d c t0 s
  | .pageDemotion tier => Sys2Proof.Machine.execPageDemotion tier s
  | .pagePromotion desc tier => Sys2Proof.Machine.execPagePromotion desc tier s
  | .pageMoveStart desc hoist => Sys2Proof.Machine.execPageMoveStart desc hoist s
  | .pageMoveDescriptorRewrite desc => Sys2Proof.Machine.execPageMoveDescriptorRewrite desc s
  | .pageMoveSourceFree desc => Sys2Proof.Machine.execPageMoveSourceFree desc s
  | .epochReencryptPass desc => Sys2Proof.Machine.execEpochReencryptPass desc s
  | .oldEpochRetire => Sys2Proof.Machine.execOldEpochRetire s
  | .laneTailWrite n k v => Sys2Proof.Machine.execLaneTailWrite n k v s
  | .hoistRingPrefetch n k => Sys2Proof.Machine.execHoistRingPrefetch n k s
  | .gatherDescriptorExecute n k => Sys2Proof.Machine.execGatherDescriptorExecute n k s
  | .gatherDescriptorComplete n k => Sys2Proof.Machine.execGatherDescriptorComplete n k s
  | .peerTierTimeout n k => Sys2Proof.Machine.execPeerTierTimeout n k s
  | .ssPatrolRead addr => Sys2Proof.Machine.execSsPatrolRead addr s
  | .hbmPatrol addr => Sys2Proof.Machine.execHbmPatrol addr s
  | .ssPowerupInvalidate half => Sys2Proof.Machine.execSsPowerupInvalidate half s
  | .ssInvalidateComplete half => Sys2Proof.Machine.execSsInvalidateComplete half s
  | .ssThermalSample half => Sys2Proof.Machine.execSsThermalSample half s
  | .hbmTempRead stack temp => Sys2Proof.Machine.execHbmTempRead stack temp s
  | .slicePrefetch addr byHoist => Sys2Proof.Machine.execSlicePrefetch addr byHoist s
  | .hbmFillReturn addr ns => Sys2Proof.Machine.execHbmFillReturn addr ns s
  | .hbmForcedTurn stack => Sys2Proof.Machine.execHbmForcedTurn stack s
  | .xltCtxSet q ctx base len => Sys2Proof.Machine.execXltCtxSet q ctx base len s
  | .xltCtxSetExpert q ctx root => Sys2Proof.Machine.execXltCtxSetExpert q ctx root s
  | .xltCtxClear q ctx obj => Sys2Proof.Machine.execXltCtxClear q ctx obj s
  | .xltUnmap q ctx va len obj => Sys2Proof.Machine.execXltUnmap q ctx va len obj s
  | .xltUnmapExpert q ctx va len obj all => Sys2Proof.Machine.execXltUnmapExpert q ctx va len obj all s
  | .xltUnmapStatus q slot => Sys2Proof.Machine.execXltUnmapStatus q slot s
  | .xltMap q ctx va len target w nc => Sys2Proof.Machine.execXltMap q ctx va len target w nc s
  | .xltMapExpert q ctx va len target w nc => Sys2Proof.Machine.execXltMapExpert q ctx va len target w nc s
  | .xltAudit q => Sys2Proof.Machine.execXltAudit q s
  | .xltInvGo k => Sys2Proof.Machine.execXltInvGo k s
  | .unmapPhase1Done k => Sys2Proof.Machine.execUnmapPhase1Done k s
  | .unmapComplete k => Sys2Proof.Machine.execUnmapComplete k s
  | .walkRequest m lane ctx va write => Sys2Proof.Machine.execWalkRequest m lane ctx va write s
  | .walkComplete half => Sys2Proof.Machine.execWalkComplete half s
  | .tlbPinRetry bench ctx va => Sys2Proof.Machine.execTlbPinRetry bench ctx va s
  | .mnop t b => Sys2Proof.Machine.execMnop t b s
  | .mma t b => Sys2Proof.Machine.execMma t b s
  | .mclr t b => Sys2Proof.Machine.execMclr t b s
  | .matrixGranule t mismatch => Sys2Proof.Machine.execMatrixGranule t mismatch s
  | .operandBufferFill t opB => Sys2Proof.Machine.execOperandBufferFill t opB s
  | .vnop t b => Sys2Proof.Machine.execVnop t b s
  | .vadd t b => Sys2Proof.Machine.execVadd t b s
  | .vsub t b => Sys2Proof.Machine.execVsub t b s
  | .vmul t b => Sys2Proof.Machine.execVmul t b s
  | .vfma t b => Sys2Proof.Machine.execVfma t b s
  | .vmin t b => Sys2Proof.Machine.execVmin t b s
  | .vmax t b => Sys2Proof.Machine.execVmax t b s
  | .vcgt t b => Sys2Proof.Machine.execVcgt t b s
  | .vceq t b => Sys2Proof.Machine.execVceq t b s
  | .vsel t b => Sys2Proof.Machine.execVsel t b s
  | .viadd t b => Sys2Proof.Machine.execViadd t b s
  | .visub t b => Sys2Proof.Machine.execVisub t b s
  | .vimul t b => Sys2Proof.Machine.execVimul t b s
  | .vand t b => Sys2Proof.Machine.execVand t b s
  | .vor t b => Sys2Proof.Machine.execVor t b s
  | .vxor t b => Sys2Proof.Machine.execVxor t b s
  | .vshl t b => Sys2Proof.Machine.execVshl t b s
  | .vshr t b => Sys2Proof.Machine.execVshr t b s
  | .vsra t b => Sys2Proof.Machine.execVsra t b s
  | .vexp2 t b => Sys2Proof.Machine.execVexp2 t b s
  | .vlog2 t b => Sys2Proof.Machine.execVlog2 t b s
  | .vrcp t b => Sys2Proof.Machine.execVrcp t b s
  | .vrsqrt t b => Sys2Proof.Machine.execVrsqrt t b s
  | .vrsum t b => Sys2Proof.Machine.execVrsum t b s
  | .vrmax t b => Sys2Proof.Machine.execVrmax t b s
  | .vmov t b => Sys2Proof.Machine.execVmov t b s
  | .vitof t b => Sys2Proof.Machine.execVitof t b s
  | .vftoi t b => Sys2Proof.Machine.execVftoi t b s
  | .vcvtd t b => Sys2Proof.Machine.execVcvtd t b s
  | .vcvtu t b => Sys2Proof.Machine.execVcvtu t b s
  | .vld t b => Sys2Proof.Machine.execVld t b s
  | .vst t b => Sys2Proof.Machine.execVst t b s
  | .vbc t b => Sys2Proof.Machine.execVbc t b s
  | .vget t b => Sys2Proof.Machine.execVget t b s
  | .vput t b => Sys2Proof.Machine.execVput t b s
  | .pull t b => Sys2Proof.Machine.execPull t b s
  | .push t b => Sys2Proof.Machine.execPush t b s
  | .vawr t b => Sys2Proof.Machine.execVawr t b s
  | .vald t b => Sys2Proof.Machine.execVald t b s
  | .vaadd t b => Sys2Proof.Machine.execVaadd t b s
  | .varsc t b => Sys2Proof.Machine.execVarsc t b s
  | .vafin t b => Sys2Proof.Machine.execVafin t b s
  | .vamax t b => Sys2Proof.Machine.execVamax t b s
  | .vsmu t b => Sys2Proof.Machine.execVsmu t b s
  | .vsmg t b => Sys2Proof.Machine.execVsmg t b s
  | .nop t b => Sys2Proof.Machine.execNop t b s
  | .aluAdd t b => Sys2Proof.Machine.execAluAdd t b s
  | .aluSub t b => Sys2Proof.Machine.execAluSub t b s
  | .aluAnd t b => Sys2Proof.Machine.execAluAnd t b s
  | .aluOr t b => Sys2Proof.Machine.execAluOr t b s
  | .aluXor t b => Sys2Proof.Machine.execAluXor t b s
  | .aluShl t b => Sys2Proof.Machine.execAluShl t b s
  | .aluShr t b => Sys2Proof.Machine.execAluShr t b s
  | .aluSra t b => Sys2Proof.Machine.execAluSra t b s
  | .aluMul t b => Sys2Proof.Machine.execAluMul t b s
  | .aluSlt t b => Sys2Proof.Machine.execAluSlt t b s
  | .aluSltu t b => Sys2Proof.Machine.execAluSltu t b s
  | .aluMin t b => Sys2Proof.Machine.execAluMin t b s
  | .aluMax t b => Sys2Proof.Machine.execAluMax t b s
  | .aluMov t b => Sys2Proof.Machine.execAluMov t b s
  | .aluiAdd t b => Sys2Proof.Machine.execAluiAdd t b s
  | .aluiSub t b => Sys2Proof.Machine.execAluiSub t b s
  | .aluiAnd t b => Sys2Proof.Machine.execAluiAnd t b s
  | .aluiOr t b => Sys2Proof.Machine.execAluiOr t b s
  | .aluiXor t b => Sys2Proof.Machine.execAluiXor t b s
  | .aluiShl t b => Sys2Proof.Machine.execAluiShl t b s
  | .aluiShr t b => Sys2Proof.Machine.execAluiShr t b s
  | .aluiSra t b => Sys2Proof.Machine.execAluiSra t b s
  | .aluiMul t b => Sys2Proof.Machine.execAluiMul t b s
  | .aluiSlt t b => Sys2Proof.Machine.execAluiSlt t b s
  | .aluiSltu t b => Sys2Proof.Machine.execAluiSltu t b s
  | .aluiMin t b => Sys2Proof.Machine.execAluiMin t b s
  | .aluiMax t b => Sys2Proof.Machine.execAluiMax t b s
  | .aluiMov t b => Sys2Proof.Machine.execAluiMov t b s
  | .lil t b => Sys2Proof.Machine.execLil t b s
  | .lis t b => Sys2Proof.Machine.execLis t b s
  | .addi t b => Sys2Proof.Machine.execAddi t b s
  | .ld t b => Sys2Proof.Machine.execLd t b s
  | .st t b => Sys2Proof.Machine.execSt t b s
  | .gld t b => Sys2Proof.Machine.execGld t b s
  | .gst t b => Sys2Proof.Machine.execGst t b s
  | .brz t b => Sys2Proof.Machine.execBrz t b s
  | .brnz t b => Sys2Proof.Machine.execBrnz t b s
  | .loopOp t b => Sys2Proof.Machine.execLoopOp t b s
  | .loopi t b => Sys2Proof.Machine.execLoopi t b s
  | .jmp t b => Sys2Proof.Machine.execJmp t b s
  | .sig t b => Sys2Proof.Machine.execSig t b s
  | .sigi t b => Sys2Proof.Machine.execSigi t b s
  | .waitOp t b => Sys2Proof.Machine.execWaitOp t b s
  | .waitRelease t => Sys2Proof.Machine.execWaitRelease t s
  | .rel t b => Sys2Proof.Machine.execRel t b s
  | .fence t b => Sys2Proof.Machine.execFence t b s
  | .trr t b => Sys2Proof.Machine.execTrr t b s
  | .trw t b => Sys2Proof.Machine.execTrw t b s
  | .cinv t b => Sys2Proof.Machine.execCinv t b s
  | .endOp t b => Sys2Proof.Machine.execEndOp t b s
  | .contextKill t cause unit detail addr => Sys2Proof.Machine.execContextKill t cause unit detail addr s
  | .lmRequestAged t requester refused => Sys2Proof.Machine.execLmRequestAged t requester refused s
  | .lmExternalAccess m addr n op => Sys2Proof.Machine.execLmExternalAccess m addr n op s
  | .tileCacheFill t line => Sys2Proof.Machine.execTileCacheFill t line s
  | .streamFlitArrival t port f => Sys2Proof.Machine.execStreamFlitArrival t port f s
  | .streamCreditReturn t port n => Sys2Proof.Machine.execStreamCreditReturn t port n s
  | .dmaDescriptorExecute t n => Sys2Proof.Machine.execDmaDescriptorExecute t n s
  | .dmaTransferBlock t n => Sys2Proof.Machine.execDmaTransferBlock t n s
  | .dmaDescriptorComplete t n => Sys2Proof.Machine.execDmaDescriptorComplete t n s
  | .dmaTailWrite t n v => Sys2Proof.Machine.execDmaTailWrite t n v s
  | .dmaCtrlWrite t n v => Sys2Proof.Machine.execDmaCtrlWrite t n v s
  | .seqStart t v => Sys2Proof.Machine.execSeqStart t v s
  | .arithCtrlWrite t v => Sys2Proof.Machine.execArithCtrlWrite t v s
  | .srSeedWrite t v => Sys2Proof.Machine.execSrSeedWrite t v s
  | .registerWrite m addr width v => Sys2Proof.Machine.execRegisterWrite m addr width v s
  | .benchInvalidation bench line writer => Sys2Proof.Machine.execBenchInvalidation bench line writer s
  | .rdShared a line tag tc => Sys2Proof.Machine.execRdShared a line tag tc s
  | .rdUnique a line tag tc => Sys2Proof.Machine.execRdUnique a line tag tc s
  | .upgrade a line tag tc => Sys2Proof.Machine.execUpgrade a line tag tc s
  | .rdNoAlloc a line tag tc => Sys2Proof.Machine.execRdNoAlloc a line tag tc s
  | .wrFull a line tag tc data poison => Sys2Proof.Machine.execWrFull a line tag tc data poison s
  | .wrPart a line tag tc mask data poison => Sys2Proof.Machine.execWrPart a line tag tc mask data poison s
  | .atomicOp a addr tag tc aop size operand compare => Sys2Proof.Machine.execAtomicOp a addr tag tc aop size operand compare s
  | .evictClean a line tag => Sys2Proof.Machine.execEvictClean a line tag s
  | .evictDirty a line tag data poison => Sys2Proof.Machine.execEvictDirty a line tag data poison s
  | .snpInv site line tag target => Sys2Proof.Machine.execSnpInv site line tag target s
  | .snpShare site line tag target => Sys2Proof.Machine.execSnpShare site line tag target s
  | .snpCur site line tag target => Sys2Proof.Machine.execSnpCur site line tag target s
  | .rspI a line => Sys2Proof.Machine.execRspI a line s
  | .rspS a line => Sys2Proof.Machine.execRspS a line s
  | .rspFwd a line => Sys2Proof.Machine.execRspFwd a line s
  | .cmp site line tag => Sys2Proof.Machine.execCmp site line tag s
  | .cmpE a line tag => Sys2Proof.Machine.execCmpE a line tag s
  | .rspErr a line tag reason => Sys2Proof.Machine.execRspErr a line tag reason s
  | .datC a line tag data poison => Sys2Proof.Machine.execDatC a line tag data poison s
  | .datS a line tag data poison => Sys2Proof.Machine.execDatS a line tag data poison s
  | .datF a line tag data poison => Sys2Proof.Machine.execDatF a line tag data poison s
  | .datWb a line data poison => Sys2Proof.Machine.execDatWb a line data poison s
  | .datCur a line data poison => Sys2Proof.Machine.execDatCur a line data poison s
  | .datWr a line tag mask data poison => Sys2Proof.Machine.execDatWr a line tag mask data poison s
  | .lineQueueResume line => Sys2Proof.Machine.execLineQueueResume line s
  | .snoopTimeout a => Sys2Proof.Machine.execSnoopTimeout a s
  | .dirProbeGo v => Sys2Proof.Machine.execDirProbeGo v s
  | .ucieFlit site module f => Sys2Proof.Machine.execUcieFlit site module f s
  | .ucieNak site module ack => Sys2Proof.Machine.execUcieNak site module ack s
  | .ucieAckFlit site module ack => Sys2Proof.Machine.execUcieAckFlit site module ack s
  | .ucieAckTimer site module => Sys2Proof.Machine.execUcieAckTimer site module s
  | .ucieModuleRetrain site module => Sys2Proof.Machine.execUcieModuleRetrain site module s
  | .ucieRetrainTimeout site module => Sys2Proof.Machine.execUcieRetrainTimeout site module s
  | .sflit site stream f => Sys2Proof.Machine.execSflit site stream f s
  | .scredit site stream n => Sys2Proof.Machine.execScredit site stream n s
  | .sgrant site stream n => Sys2Proof.Machine.execSgrant site stream n s
  | .sunbound site stream n => Sys2Proof.Machine.execSunbound site stream n s
  | .idRsp site w v => Sys2Proof.Machine.execIdRsp site w v s
  | .siteMods site mask => Sys2Proof.Machine.execSiteMods site mask s
  | .pwrReq site vcore power => Sys2Proof.Machine.execPwrReq site vcore power s
  | .pwrAck site gseq => Sys2Proof.Machine.execPwrAck site gseq s
  | .therm site temp => Sys2Proof.Machine.execTherm site temp s
  | .thermTimeout site ms => Sys2Proof.Machine.execThermTimeout site ms s
  | .scrubAck site ok => Sys2Proof.Machine.execScrubAck site ok s
  | .scrubTimeout site => Sys2Proof.Machine.execScrubTimeout site s
  | .chipErr site code => Sys2Proof.Machine.execChipErr site code s
  | .sitePowerAverage site avg => Sys2Proof.Machine.execSitePowerAverage site avg s
  | .siteOverpowerRecheck site avg => Sys2Proof.Machine.execSiteOverpowerRecheck site avg s
  | .syncCountWrite obj v => Sys2Proof.Machine.execSyncCountWrite obj v s
  | .syncAdd obj v => Sys2Proof.Machine.execSyncAdd obj v s
  | .syncTake m obj => Sys2Proof.Machine.execSyncTake m obj s
  | .syncExchange m obj off aop size operand compare => Sys2Proof.Machine.execSyncExchange m obj off aop size operand compare s
  | .notifierAction => Sys2Proof.Machine.execNotifierAction s
  | .notifierActionWrite obj k v => Sys2Proof.Machine.execNotifierActionWrite obj k v s
  | .notifierThreshWrite obj k v => Sys2Proof.Machine.execNotifierThreshWrite obj k v s
  | .putOp port f => Sys2Proof.Machine.execPutOp port f s
  | .getOp port f => Sys2Proof.Machine.execGetOp port f s
  | .tksAtomic port f => Sys2Proof.Machine.execTksAtomic port f s
  | .tksSync port f => Sys2Proof.Machine.execTksSync port f s
  | .red port f => Sys2Proof.Machine.execRed port f s
  | .settGrant port f => Sys2Proof.Machine.execSettGrant port f s
  | .settReturn port f => Sys2Proof.Machine.execSettReturn port f s
  | .settRead port f => Sys2Proof.Machine.execSettRead port f s
  | .settWrite port f => Sys2Proof.Machine.execSettWrite port f s
  | .msg port f => Sys2Proof.Machine.execMsg port f s
  | .echo port f => Sys2Proof.Machine.execEcho port f s
  | .tksResponse port f => Sys2Proof.Machine.execTksResponse port f s
  | .tksForward port f => Sys2Proof.Machine.execTksForward port f s
  | .tksTransitDiscard port => Sys2Proof.Machine.execTksTransitDiscard port s
  | .nak port lack => Sys2Proof.Machine.execNak port lack s
  | .tksAckCreditFrame port lack cr0 cr1 => Sys2Proof.Machine.execTksAckCreditFrame port lack cr0 cr1 s
  | .hello port dev part nbrPort => Sys2Proof.Machine.execHello port dev part nbrPort s
  | .tksAckTimer port => Sys2Proof.Machine.execTksAckTimer port s
  | .tksPortRetrain port => Sys2Proof.Machine.execTksPortRetrain port s
  | .tksRetrainTimeout port => Sys2Proof.Machine.execTksRetrainTimeout port s
  | .tksRequestResend reqid => Sys2Proof.Machine.execTksRequestResend reqid s
  | .tksRequestFail reqid => Sys2Proof.Machine.execTksRequestFail reqid s
  | .tksBusyRetry reqid => Sys2Proof.Machine.execTksBusyRetry reqid s
  | .tksMemoExpiry src reqid => Sys2Proof.Machine.execTksMemoExpiry src reqid s
  | .tksPortStatus q port => Sys2Proof.Machine.execTksPortStatus q port s
  | .tksPortStatusExpert q port lane => Sys2Proof.Machine.execTksPortStatusExpert q port lane s
  | .tksPortReset q port => Sys2Proof.Machine.execTksPortReset q port s
  | .tksPortResetExpert q port hold => Sys2Proof.Machine.execTksPortResetExpert q port hold s
  | .tksRouteProbe q dev => Sys2Proof.Machine.execTksRouteProbe q dev s
  | .tksPing q dev tc count => Sys2Proof.Machine.execTksPing q dev tc count s
  | .tksCreditSet q port => Sys2Proof.Machine.execTksCreditSet q port s
  | .tksCreditSetExpert q port grants => Sys2Proof.Machine.execTksCreditSetExpert q port grants s
  | .memRd hpa metaV tag => Sys2Proof.Machine.execMemRd hpa metaV tag s
  | .memRdData hpa tag => Sys2Proof.Machine.execMemRdData hpa tag s
  | .memWr hpa metaI tag data poison => Sys2Proof.Machine.execMemWr hpa metaI tag data poison s
  | .memWrPtl hpa tag mask data poison => Sys2Proof.Machine.execMemWrPtl hpa tag mask data poison s
  | .memClnEvct hpa tag => Sys2Proof.Machine.execMemClnEvct hpa tag s
  | .memInv hpa tag => Sys2Proof.Machine.execMemInv hpa tag s
  | .biRsp hpa shared => Sys2Proof.Machine.execBiRsp hpa shared s
  | .biConflict hpa => Sys2Proof.Machine.execBiConflict hpa s
  | .h2dSnoop hpa tag => Sys2Proof.Machine.execH2dSnoop hpa tag s
  | .cxlIoMemAccess bar off n op => Sys2Proof.Machine.execCxlIoMemAccess bar off n op s
  | .cxlAtomicOp bar off => Sys2Proof.Machine.execCxlAtomicOp bar off s
  | .cxlD2hResponse id data poison => Sys2Proof.Machine.execCxlD2hResponse id data poison s
  | .cacheWritebackInvalidate => Sys2Proof.Machine.execCacheWritebackInvalidate s
  | .hdmDecoderCommit base size ways => Sys2Proof.Machine.execHdmDecoderCommit base size ways s
  | .msixUnmask vec => Sys2Proof.Machine.execMsixUnmask vec s
  | .flr => Sys2Proof.Machine.execFlr s
  | .cxlLinkUp width rate => Sys2Proof.Machine.execCxlLinkUp width rate s
  | .cxlLinkDown refLost => Sys2Proof.Machine.execCxlLinkDown refLost s
  | .hostWindowWrite k v => Sys2Proof.Machine.execHostWindowWrite k v s
  | .mailboxDoorbell m v => Sys2Proof.Machine.execMailboxDoorbell m v s
  | .axotteMgmtMessage session cmd flags len tag seq => Sys2Proof.Machine.execAxotteMgmtMessage session cmd flags len tag seq s
  | .mgmtSessionEnd session => Sys2Proof.Machine.execMgmtSessionEnd session s
  | .lockstepMismatch sinceRestartUs => Sys2Proof.Machine.execLockstepMismatch sinceRestartUs s
  | .stewardRestartComplete => Sys2Proof.Machine.execStewardRestartComplete s
  | .fsig core rs1 rs2 => Sys2Proof.Machine.execFsig core rs1 rs2 s
  | .fwait core rd rs1 rs2 => Sys2Proof.Machine.execFwait core rd rs1 rs2 s
  | .firqRead core rd => Sys2Proof.Machine.execFirqRead core rd s
  | .svcCoreAccess core rd pa n op lrsc => Sys2Proof.Machine.execSvcCoreAccess core rd pa n op lrsc s
  | .svcFwLoad q image size => Sys2Proof.Machine.execSvcFwLoad q image size s
  | .svcStart q base size arg => Sys2Proof.Machine.execSvcStart q base size arg s
  | .svcStartExpert q base size arg mask entries => Sys2Proof.Machine.execSvcStartExpert q base size arg mask entries s
  | .svcStop q => Sys2Proof.Machine.execSvcStop q s
  | .svcQueueSet q queue base slots obj => Sys2Proof.Machine.execSvcQueueSet q queue base slots obj s
  | .svcQueueSetExpert q queue base slots obj slotCode egress => Sys2Proof.Machine.execSvcQueueSetExpert q queue base slots obj slotCode egress s
  | .svcStatus q => Sys2Proof.Machine.execSvcStatus q s
  | .egressTailWrite e v => Sys2Proof.Machine.execEgressTailWrite e v s
  | .egressSend e => Sys2Proof.Machine.execEgressSend e s
  | .servingStep => Sys2Proof.Machine.execServingStep s
  | .servingAdmission r => Sys2Proof.Machine.execServingAdmission r s
  | .servingAdmissionTimeout id => Sys2Proof.Machine.execServingAdmissionTimeout id s
  | .regWindowUpdate half level demand => Sys2Proof.Machine.execRegWindowUpdate half level demand s
  | .benchPoolDivide demand => Sys2Proof.Machine.execBenchPoolDivide demand s
  | .benchGovernor bench staticTok dynTok => Sys2Proof.Machine.execBenchGovernor bench staticTok dynTok s
  | .estimatorCalibration hubMw => Sys2Proof.Machine.execEstimatorCalibration hubMw s
  | .benchThermalGovernor bench sinceRaiseMs => Sys2Proof.Machine.execBenchThermalGovernor bench sinceRaiseMs s
  | .sensorDiverge bench ms => Sys2Proof.Machine.execSensorDiverge bench ms s
  | .gradientCheck a b mvA mvB => Sys2Proof.Machine.execGradientCheck a b mvA mvB s
  | .gradientEscalate a b mvA mvB => Sys2Proof.Machine.execGradientEscalate a b mvA mvB s
  | .ageMonitorRead dom slack => Sys2Proof.Machine.execAgeMonitorRead dom slack s
  | .serviceHourTick => Sys2Proof.Machine.execServiceHourTick s
  | .replanLoweringVerify => Sys2Proof.Machine.execReplanLoweringVerify s
  | .telemetryRecord => Sys2Proof.Machine.execTelemetryRecord s
  | .telRead q mask => Sys2Proof.Machine.execTelRead q mask s
  | .telStreamSet q ring k period => Sys2Proof.Machine.execTelStreamSet q ring k period s
  | .telStreamSetExpert q ring k period mask tc => Sys2Proof.Machine.execTelStreamSetExpert q ring k period mask tc s
  | .benchIdle bench us => Sys2Proof.Machine.execBenchIdle bench us s
  | .prbRead q first count => Sys2Proof.Machine.execPrbRead q first count s
  | .prbWrite q first vals => Sys2Proof.Machine.execPrbWrite q first vals s
  | .prbWear q => Sys2Proof.Machine.execPrbWear q s
  | .prbRwpWrite w v => Sys2Proof.Machine.execPrbRwpWrite w v s
  | .prbWriteComplete => Sys2Proof.Machine.execPrbWriteComplete s
  | .diagLogRead q first count => Sys2Proof.Machine.execDiagLogRead q first count s
  | .diagBistRun q kind unit => Sys2Proof.Machine.execDiagBistRun q kind unit s
  | .diagBistRunExpert q kind unit bg elems lo hi patterns seed stop => Sys2Proof.Machine.execDiagBistRunExpert q kind unit bg elems lo hi patterns seed stop s
  | .diagBistComplete run fails => Sys2Proof.Machine.execDiagBistComplete run fails s
  | .diagBistResult q run => Sys2Proof.Machine.execDiagBistResult q run s
  | .diagSafetyStatus q => Sys2Proof.Machine.execDiagSafetyStatus q s
  | .diagFaultInject q code => Sys2Proof.Machine.execDiagFaultInject q code s
  | .diagFaultInjectExpert q code unit => Sys2Proof.Machine.execDiagFaultInjectExpert q code unit s
  | .benchSensorRead bench t0 t1 => Sys2Proof.Machine.execBenchSensorRead bench t0 t1 s
  | .sensorRefreshTimeout bench sensor => Sys2Proof.Machine.execSensorRefreshTimeout bench sensor s
  | .benchCoolExit bench belowMs => Sys2Proof.Machine.execBenchCoolExit bench belowMs s
  | .flowOkSample level => Sys2Proof.Machine.execFlowOkSample level s
  | .datapathRetest t pass => Sys2Proof.Machine.execDatapathRetest t pass s
  | .onlineBistRound round fails => Sys2Proof.Machine.execOnlineBistRound round fails s
  | .watchdogExpiry kind unit idx ms => Sys2Proof.Machine.execWatchdogExpiry kind unit idx ms s
  | .heartbeatTick => Sys2Proof.Machine.execHeartbeatTick s
  | .coolLeak level => Sys2Proof.Machine.execCoolLeak level s
  | .coolantThermistorRead inlet outlet => Sys2Proof.Machine.execCoolantThermistorRead inlet outlet s
  | .secHandover q => Sys2Proof.Machine.execSecHandover q s
  | .secHandoverExpert q cycle drop part => Sys2Proof.Machine.execSecHandoverExpert q cycle drop part s
  | .secLcTransition q target serial token => Sys2Proof.Machine.execSecLcTransition q target serial token s
  | .lcBurnSupplyTimeout => Sys2Proof.Machine.execLcBurnSupplyTimeout s
  | .secKeyProvision q slot salt => Sys2Proof.Machine.execSecKeyProvision q slot salt s
  | .secEpochRotate q => Sys2Proof.Machine.execSecEpochRotate q s
  | .secTrustSet q item prov => Sys2Proof.Machine.execSecTrustSet q item prov s
  | .secDeviceSet q dev => Sys2Proof.Machine.execSecDeviceSet q dev s
  | .secRouteWrite q table first entries => Sys2Proof.Machine.execSecRouteWrite q table first entries s
  | .secFwUpdate q image size => Sys2Proof.Machine.execSecFwUpdate q image size s
  | .secFwUpdateExpert q image size now => Sys2Proof.Machine.execSecFwUpdateExpert q image size now s
  | .secDebugOpen q token => Sys2Proof.Machine.execSecDebugOpen q token s
  | .secLibraryLoad q image size => Sys2Proof.Machine.execSecLibraryLoad q image size s
  | .secLibraryLoadExpert q image size base => Sys2Proof.Machine.execSecLibraryLoadExpert q image size base s
  | .secPartitionSet q tagv => Sys2Proof.Machine.execSecPartitionSet q tagv s
  | .secStatus q => Sys2Proof.Machine.execSecStatus q s
  | .getVersion port => Sys2Proof.Machine.execGetVersion port s
  | .getCapabilities port => Sys2Proof.Machine.execGetCapabilities port s
  | .negotiateAlgorithms port offered => Sys2Proof.Machine.execNegotiateAlgorithms port offered s
  | .getDigests port => Sys2Proof.Machine.execGetDigests port s
  | .getCertificate port slot off len => Sys2Proof.Machine.execGetCertificate port slot off len s
  | .challenge port slot => Sys2Proof.Machine.execChallenge port slot s
  | .getMeasurements port index slot signed => Sys2Proof.Machine.execGetMeasurements port index slot signed s
  | .measurementHoldTimeout port => Sys2Proof.Machine.execMeasurementHoldTimeout port s
  | .chunkSend port handle last data => Sys2Proof.Machine.execChunkSend port handle last data s
  | .chunkGet port handle idx => Sys2Proof.Machine.execChunkGet port handle idx s
  | .keyExchange port session => Sys2Proof.Machine.execKeyExchange port session s
  | .finish port session rootDigest ok => Sys2Proof.Machine.execFinish port session rootDigest ok s
  | .heartbeat port session => Sys2Proof.Machine.execHeartbeat port session s
  | .keyUpdate port session op => Sys2Proof.Machine.execKeyUpdate port session op s
  | .getEncapsulatedRequest port session => Sys2Proof.Machine.execGetEncapsulatedRequest port session s
  | .deliverEncapsulatedResponse port session chain => Sys2Proof.Machine.execDeliverEncapsulatedResponse port session chain s
  | .endSession port session => Sys2Proof.Machine.execEndSession port session s
  | .getCsr port session slot => Sys2Proof.Machine.execGetCsr port session slot s
  | .setCertificate port session slot chain => Sys2Proof.Machine.execSetCertificate port session slot chain s
  | .spdmUnsupportedRequest port code => Sys2Proof.Machine.execSpdmUnsupportedRequest port code s
  | .moduleResetRelease perst straps => Sys2Proof.Machine.execModuleResetRelease perst straps s
  | .hubResetComplete => Sys2Proof.Machine.execHubResetComplete s
  | .configurationRequest write reg v => Sys2Proof.Machine.execConfigurationRequest write reg v s
  | .tksDiscardedFrame port f => Sys2Proof.Machine.execTksDiscardedFrame port f s
  | .tksRetrainComplete port => Sys2Proof.Machine.execTksRetrainComplete port s
  | .ucieRetrainComplete site module => Sys2Proof.Machine.execUcieRetrainComplete site module s
  | .ucieSidebandFailure site module => Sys2Proof.Machine.execUcieSidebandFailure site module s
  | .replanRestart => Sys2Proof.Machine.execReplanRestart s
  | .bistRoundRestart => Sys2Proof.Machine.execBistRoundRestart s

end Sys2Proof.Machine
end

