-- ==== Sys2Proof/Machine/Tick.lean ====
section
/-! DEFINITION. What an idle step does: one TCLK of the timestamp counter. -/

namespace Sys2Proof.Machine

/-- One TCLK (R17, R19): the local timestamp counter advances while the root PLL is locked; it wraps at 2^64 (log entry 1). -/
def State.tick (s : State) : State :=
  if s.bget R.hubClkStatus 0 then s.set R.hubTimeCount (s.get R.hubTimeCount + 1) else s

end Sys2Proof.Machine
end

