-- ==== Sys2Proof/WellFormed.lean ====
section
/-! DEFINITION. Which commands are well formed: they name units that the module has, and their operands agree with the row they
belong to. -/

namespace Sys2Proof

open Sys2Proof.Machine

/-- A physical tile (chapter 5: 2,176 of them). -/
def tileOk (t : Nat) : Bool := decide (t < 2176)

/-- A bundle whose control slot holds an opcode (Table 4-1). -/
def ctlOk (t : Nat) (b : W64) (op : Nat) : Bool := tileOk t && cOp b == op

/-- A bundle whose control slot holds a scalar operation and its function (Tables 4-10 and 4-11). -/
def aluOk (t : Nat) (b : W64) (op funct : Nat) : Bool := tileOk t && (cOp b == op && nbits (cSlot b) 14 11 == funct)

/-- A bundle whose vector slot holds an opcode (Table 4-1). -/
def vecOk (t : Nat) (b : W64) (op : Nat) : Bool := tileOk t && vOp b == op

/-- A service core (R362). -/
def coreOk (core : Nat) : Bool := decide (core < 16)

/-- A request frame of an operation at a port (Table 13-4). -/
def reqFrameOk (port : Nat) (f : Frame) (op : Nat) : Bool := f.op == op && !f.resp && decide (port < 8)

/-- Whether a command is well formed. -/
def Instr.wf : Instr → Bool
  | .powerOn _ _ _ _ _ => true
  | .moduleReset _ _ => true
  | .powerDown _ => true
  | .overcurrentTrip _ => true
  | .overvoltageDisconnect _ _ => true
  | .supplySample _ _ => true
  | .supplyWarningExit _ _ => true
  | .holdupMeasure _ => true
  | .rootPllLockLoss => true
  | .hubResetStart => true
  | .regionResetComplete dom => decide (dom < 96)
  | .stepGoWrite _ => true
  | .bootStepComplete n _ => decide (1 ≤ n) && decide (n ≤ 10)
  | .bootStepTimeout n => decide (1 ≤ n) && decide (n ≤ 10)
  | .bupStepGo q => mbxOk q
  | .bupStepGoExpert q _ => mbxOk q
  | .bupStatus q => mbxOk q
  | .bupDegradedAck q _ => mbxOk q
  | .bupIdRead q => mbxOk q
  | .rstHub q => mbxOk q
  | .rstRegion q _ => mbxOk q
  | .rstRegionExpert q _ _ => mbxOk q
  | .siteStatus q _ => mbxOk q
  | .siteStatusExpert q _ _ => mbxOk q
  | .siteReset q _ => mbxOk q
  | .siteResetExpert q _ _ _ => mbxOk q
  | .pwrCapSet q _ => mbxOk q
  | .pwrCapSetExpert q _ _ => mbxOk q
  | .pwrDomainStatus q _ _ => mbxOk q
  | .pwrThrottleSet q _ => mbxOk q
  | .pwrThrottleSetExpert q _ _ => mbxOk q
  | .pwrTokenAudit q => mbxOk q
  | .ageStatus q => mbxOk q
  | .ageReplan q => mbxOk q
  | .ageReplanExpert q _ _ => mbxOk q
  | .thmStatus q => mbxOk q
  | .pwrStateSet q _ _ => mbxOk q
  | .pwrStateSetExpert q _ _ _ _ => mbxOk q
  | .pwrStateQuiesceTimeout => true
  | .sleepExit _ _ _ => true
  | .sitePwrSet q _ _ => mbxOk q
  | .sitePwrSetExpert q _ _ => mbxOk q
  | .memSsConfig q _ => mbxOk q
  | .memSsConfigExpert q _ _ => mbxOk q
  | .memSsFlush q => mbxOk q
  | .memSsFlushExpert q _ _ _ => mbxOk q
  | .memHbmStatus q => mbxOk q
  | .memHbmStatusExpert q _ _ => mbxOk q
  | .memScrubSet q => mbxOk q
  | .memScrubSetExpert q _ _ => mbxOk q
  | .memErrRead q _ _ => mbxOk q
  | .memDirProbe q _ => mbxOk q
  | .memHostGrant q _ _ => mbxOk q
  | .memHostGrantExpert q _ _ _ _ => mbxOk q
  | .memHostRevoke q _ => mbxOk q
  | .memHostStatus q => mbxOk q
  | .regPartSet q _ _ _ _ => mbxOk q
  | .regPartSetExpert q _ _ _ _ _ _ _ _ => mbxOk q
  | .regClassSet q _ _ _ => mbxOk q
  | .regClassSetExpert q _ _ _ _ _ _ => mbxOk q
  | .regStatus q => mbxOk q
  | .regSsShare q _ _ => mbxOk q
  | .regSsShareExpert q _ => mbxOk q
  | .fabDrsLoad q _ _ _ => mbxOk q
  | .fabDrsLoadExpert q _ _ _ _ _ _ _ => mbxOk q
  | .fabDrsActivate q _ _ => mbxOk q
  | .fabDrsActivateExpert q _ _ _ => mbxOk q
  | .fabDrsDeactivate q _ => mbxOk q
  | .fabDrsDeactivateExpert q _ _ => mbxOk q
  | .drsDrainTimeout h => decide (h < 64)
  | .drsStopPhase h => decide (h < 64)
  | .sunboundTimeout h site => decide (h < 64) && decide (site < 8)
  | .fabDrsSwap q _ _ => mbxOk q
  | .fabDrsSwapExpert q _ _ _ => mbxOk q
  | .fabDrsUnload q _ => mbxOk q
  | .fabDrsStatus q _ => mbxOk q
  | .fabMapRead q _ _ => mbxOk q
  | .sgrantTimeout h site => decide (h < 64) && decide (site < 8)
  | .fabSyncReserve q _ => mbxOk q
  | .fabSyncReserveExpert q _ _ => mbxOk q
  | .fabSyncRelease q _ _ => mbxOk q
  | .fabSyncAudit q _ => mbxOk q
  | .fabCreditAudit q _ => mbxOk q
  | .diagLinkAudit q _ _ => mbxOk q
  | .meshCreditIdleCheck bench link pool _ => decide (bench < 68) && decide (link < 6) && linkReal bench link && decide (pool < meshPools)
  | .ucieCreditIdleCheck tukosen unit pool _ => unit < (if tukosen then 8 else 96) && pool < (if tukosen then 16 else 11)
  | .ctxSeqOpen q _ _ _ _ _ _ _ => mbxOk q
  | .ctxSeqOpenExpert q _ _ _ _ _ _ _ _ _ => mbxOk q
  | .ctxSeqClose q _ _ => mbxOk q
  | .seqCloseFinish _ => true
  | .ctxSeqQuery q _ => mbxOk q
  | .ctxPageAppend q _ _ _ => mbxOk q
  | .ctxAppendTimeout mbx => decide (mbx < 28)
  | .ctxPageCommit q _ _ _ => mbxOk q
  | .ctxPageMove q _ _ _ _ => mbxOk q
  | .ctxPageMoveExpert q _ _ _ _ _ _ _ => mbxOk q
  | .ctxHoistAttach q _ => mbxOk q
  | .ctxHoistAttachExpert q _ _ _ _ => mbxOk q
  | .ctxHoistDetach q _ => mbxOk q
  | .ctxPolicySet q _ _ => mbxOk q
  | .ctxPolicySetExpert q _ _ _ _ _ _ _ => mbxOk q
  | .ctxTierAdd q _ _ => mbxOk q
  | .ctxTierRemove q _ _ => mbxOk q
  | .ctxExportConfig q _ _ => mbxOk q
  | .ctxAudit q => mbxOk q
  | .ctxEpochStatus q => mbxOk q
  | .ctxStoreInit q _ _ _ _ => mbxOk q
  | .ctxStoreInitExpert q _ _ _ _ _ _ => mbxOk q
  | .pageDemotion tier => decide (tier < 4)
  | .pagePromotion _ tier => decide (tier < 4)
  | .pageMoveStart _ hoist => decide (hoist < 64)
  | .pageMoveDescriptorRewrite _ => true
  | .pageMoveSourceFree _ => true
  | .epochReencryptPass _ => true
  | .oldEpochRetire => true
  | .laneTailWrite n k _ => decide (n < 64) && decide (k < 8)
  | .hoistRingPrefetch n k => decide (n < 64) && decide (k < 8)
  | .gatherDescriptorExecute n k => decide (n < 64) && decide (k < 8)
  | .gatherDescriptorComplete n k => decide (n < 64) && decide (k < 8)
  | .peerTierTimeout n k => decide (n < 64) && decide (k < 8)
  | .ssPatrolRead _ => true
  | .hbmPatrol _ => true
  | .ssPowerupInvalidate half => decide (half < 2)
  | .ssInvalidateComplete half => decide (half < 2)
  | .ssThermalSample half => decide (half < 2)
  | .hbmTempRead stack _ => decide (stack < 6)
  | .slicePrefetch _ _ => true
  | .hbmFillReturn _ _ => true
  | .hbmForcedTurn stack => decide (stack < 6)
  | .xltCtxSet q _ _ _ => mbxOk q
  | .xltCtxSetExpert q _ _ => mbxOk q
  | .xltCtxClear q _ _ => mbxOk q
  | .xltUnmap q _ _ _ _ => mbxOk q
  | .xltUnmapExpert q _ _ _ _ _ => mbxOk q
  | .xltUnmapStatus q _ => mbxOk q
  | .xltMap q _ _ _ _ _ _ => mbxOk q
  | .xltMapExpert q _ _ _ _ _ _ => mbxOk q
  | .xltAudit q => mbxOk q
  | .xltInvGo k => decide (k < 16)
  | .unmapPhase1Done k => decide (k < 16)
  | .unmapComplete k => decide (k < 16)
  | .walkRequest m _ ctx _ _ => masterOk m && (m.cls == .tile || m.cls == .hoist) && ctx < 4096
  | .walkComplete half => decide (half < 2)
  | .tlbPinRetry bench _ _ => decide (bench < 68)
  | .mnop t b => tileOk t && mOp b != 1 && mOp b != 2
  | .mma t b => tileOk t && mOp b == 1
  | .mclr t b => tileOk t && mOp b == 2
  | .matrixGranule t _ => decide (t < 2176)
  | .operandBufferFill t _ => decide (t < 2176)
  | .vnop t b => vecOk t b 0
  | .vadd t b => vecOk t b 1
  | .vsub t b => vecOk t b 2
  | .vmul t b => vecOk t b 3
  | .vfma t b => vecOk t b 4
  | .vmin t b => vecOk t b 5
  | .vmax t b => vecOk t b 6
  | .vcgt t b => vecOk t b 7
  | .vceq t b => vecOk t b 8
  | .vsel t b => vecOk t b 9
  | .viadd t b => vecOk t b 0xA
  | .visub t b => vecOk t b 0xB
  | .vimul t b => vecOk t b 0xC
  | .vand t b => vecOk t b 0xD
  | .vor t b => vecOk t b 0xE
  | .vxor t b => vecOk t b 0xF
  | .vshl t b => vecOk t b 0x10
  | .vshr t b => vecOk t b 0x11
  | .vsra t b => vecOk t b 0x12
  | .vexp2 t b => vecOk t b 0x14
  | .vlog2 t b => vecOk t b 0x15
  | .vrcp t b => vecOk t b 0x16
  | .vrsqrt t b => vecOk t b 0x17
  | .vrsum t b => vecOk t b 0x18
  | .vrmax t b => vecOk t b 0x19
  | .vmov t b => vecOk t b 0x1A
  | .vitof t b => vecOk t b 0x1B
  | .vftoi t b => vecOk t b 0x1C
  | .vcvtd t b => vecOk t b 0x1D
  | .vcvtu t b => vecOk t b 0x1E
  | .vld t b => vecOk t b 0x20
  | .vst t b => vecOk t b 0x21
  | .vbc t b => vecOk t b 0x22
  | .vget t b => vecOk t b 0x23
  | .vput t b => vecOk t b 0x24
  | .pull t b => vecOk t b 0x25
  | .push t b => vecOk t b 0x26
  | .vawr t b => vecOk t b 0x28
  | .vald t b => vecOk t b 0x29
  | .vaadd t b => vecOk t b 0x2A
  | .varsc t b => vecOk t b 0x2B
  | .vafin t b => vecOk t b 0x2C
  | .vamax t b => vecOk t b 0x2D
  | .vsmu t b => vecOk t b 0x2E
  | .vsmg t b => vecOk t b 0x2F
  | .nop t b => ctlOk t b 0x00
  | .aluAdd t b => aluOk t b 1 0x0
  | .aluSub t b => aluOk t b 1 0x1
  | .aluAnd t b => aluOk t b 1 0x2
  | .aluOr t b => aluOk t b 1 0x3
  | .aluXor t b => aluOk t b 1 0x4
  | .aluShl t b => aluOk t b 1 0x5
  | .aluShr t b => aluOk t b 1 0x6
  | .aluSra t b => aluOk t b 1 0x7
  | .aluMul t b => aluOk t b 1 0x8
  | .aluSlt t b => aluOk t b 1 0x9
  | .aluSltu t b => aluOk t b 1 0xA
  | .aluMin t b => aluOk t b 1 0xB
  | .aluMax t b => aluOk t b 1 0xC
  | .aluMov t b => aluOk t b 1 0xD
  | .aluiAdd t b => aluOk t b 2 0x0
  | .aluiSub t b => aluOk t b 2 0x1
  | .aluiAnd t b => aluOk t b 2 0x2
  | .aluiOr t b => aluOk t b 2 0x3
  | .aluiXor t b => aluOk t b 2 0x4
  | .aluiShl t b => aluOk t b 2 0x5
  | .aluiShr t b => aluOk t b 2 0x6
  | .aluiSra t b => aluOk t b 2 0x7
  | .aluiMul t b => aluOk t b 2 0x8
  | .aluiSlt t b => aluOk t b 2 0x9
  | .aluiSltu t b => aluOk t b 2 0xA
  | .aluiMin t b => aluOk t b 2 0xB
  | .aluiMax t b => aluOk t b 2 0xC
  | .aluiMov t b => aluOk t b 2 0xD
  | .lil t b => ctlOk t b 0x03
  | .lis t b => ctlOk t b 0x04
  | .addi t b => ctlOk t b 0x05
  | .ld t b => ctlOk t b 0x06
  | .st t b => ctlOk t b 0x07
  | .gld t b => ctlOk t b 0x08
  | .gst t b => ctlOk t b 0x09
  | .brz t b => ctlOk t b 0x0A
  | .brnz t b => ctlOk t b 0x0B
  | .loopOp t b => ctlOk t b 0x0C
  | .loopi t b => ctlOk t b 0x0D
  | .jmp t b => ctlOk t b 0x0E
  | .sig t b => ctlOk t b 0x0F
  | .sigi t b => ctlOk t b 0x10
  | .waitOp t b => ctlOk t b 0x11
  | .waitRelease t => decide (t < 2176)
  | .rel t b => ctlOk t b 0x12
  | .fence t b => ctlOk t b 0x13
  | .trr t b => ctlOk t b 0x14
  | .trw t b => ctlOk t b 0x15
  | .cinv t b => ctlOk t b 0x16
  | .endOp t b => ctlOk t b 0x17
  | .contextKill t _ _ _ _ => decide (t < 2176)
  | .lmRequestAged t requester _ => decide (t < 2176) && decide (requester < 17)
  | .lmExternalAccess m addr _ _ => masterOk m && (region addr == .lmLogical || region addr == .lmPhysical)
  | .tileCacheFill t _ => decide (t < 2176)
  | .streamFlitArrival t port _ => decide (t < 2176) && decide (port < 4)
  | .streamCreditReturn t port _ => decide (t < 2176) && decide (port < 4)
  | .dmaDescriptorExecute t n => decide (t < 2176) && decide (n < 4)
  | .dmaTransferBlock t n => decide (t < 2176) && decide (n < 4)
  | .dmaDescriptorComplete t n => decide (t < 2176) && decide (n < 4)
  | .dmaTailWrite t n _ => decide (t < 2176) && decide (n < 4)
  | .dmaCtrlWrite t n _ => decide (t < 2176) && decide (n < 4)
  | .seqStart t _ => decide (t < 2176)
  | .arithCtrlWrite t _ => decide (t < 2176)
  | .srSeedWrite t _ => decide (t < 2176)
  | .registerWrite m addr _ _ => masterOk m && region addr.toNat == .regs
  | .benchInvalidation bench _ _ => decide (bench < 68)
  | .rdShared a _ _ _ => agentOk a
  | .rdUnique a _ _ _ => agentOk a
  | .upgrade a _ _ _ => agentOk a
  | .rdNoAlloc a _ _ _ => agentOk a
  | .wrFull a _ _ _ _ _ => agentOk a
  | .wrPart a _ _ _ _ _ _ => agentOk a
  | .atomicOp a _ _ _ _ _ _ _ => agentOk a
  | .evictClean a _ _ => agentOk a
  | .evictDirty a _ _ _ _ => agentOk a
  | .snpInv site line _ target => snpOk site line target
  | .snpShare site line _ target => snpOk site line target
  | .snpCur site line _ target => snpOk site line target
  | .rspI a _ => agentOk a
  | .rspS a _ => agentOk a
  | .rspFwd a _ => agentOk a
  | .cmp site line _ => decide (site < 8) && region (128 * line) == .site site
  | .cmpE a _ _ => agentOk a
  | .rspErr a _ _ _ => agentOk a
  | .datC a _ _ _ _ => agentOk a
  | .datS a _ _ _ _ => agentOk a
  | .datF a _ _ _ _ => agentOk a
  | .datWb a _ _ _ => agentOk a
  | .datCur a _ _ _ => agentOk a
  | .datWr a _ _ _ _ _ => agentOk a
  | .lineQueueResume _ => true
  | .snoopTimeout a => agentOk a
  | .dirProbeGo _ => true
  | .ucieFlit site module _ => decide (site < 8) && decide (module < 12)
  | .ucieNak site module _ => decide (site < 8) && decide (module < 12)
  | .ucieAckFlit site module _ => decide (site < 8) && decide (module < 12)
  | .ucieAckTimer site module => decide (site < 8) && decide (module < 12)
  | .ucieModuleRetrain site module => decide (site < 8) && decide (module < 12)
  | .ucieRetrainTimeout site module => decide (site < 8) && decide (module < 12)
  | .sflit site _ _ => decide (site < 8)
  | .scredit site _ _ => decide (site < 8)
  | .sgrant site _ _ => decide (site < 8)
  | .sunbound site _ n => decide (site < 8) && decide (n < 8192)
  | .idRsp site _ _ => decide (site < 8)
  | .siteMods site _ => decide (site < 8)
  | .pwrReq site _ _ => decide (site < 8)
  | .pwrAck site _ => decide (site < 8)
  | .therm site _ => decide (site < 8)
  | .thermTimeout site _ => decide (site < 8)
  | .scrubAck site _ => decide (site < 8)
  | .scrubTimeout site => decide (site < 8)
  | .chipErr site _ => decide (site < 8)
  | .sitePowerAverage site _ => decide (site < 8)
  | .siteOverpowerRecheck site _ => decide (site < 8)
  | .syncCountWrite obj _ => syncOk obj
  | .syncAdd obj _ => syncOk obj
  | .syncTake m obj => syncOk obj && masterOk m
  | .syncExchange m obj _ _ _ _ _ => syncOk obj && masterOk m
  | .notifierAction => true
  | .notifierActionWrite obj k _ => syncOk obj && decide (k < 2)
  | .notifierThreshWrite obj k _ => syncOk obj && decide (k < 2)
  | .putOp port f => reqFrameOk port f 0x01
  | .getOp port f => reqFrameOk port f 0x02
  | .tksAtomic port f => reqFrameOk port f 0x03
  | .tksSync port f => reqFrameOk port f 0x04
  | .red port f => reqFrameOk port f 0x05
  | .settGrant port f => reqFrameOk port f 0x08
  | .settReturn port f => reqFrameOk port f 0x09
  | .settRead port f => reqFrameOk port f 0x0A
  | .settWrite port f => reqFrameOk port f 0x0B
  | .msg port f => reqFrameOk port f 0x10
  | .echo port f => reqFrameOk port f 0x3E
  | .tksResponse port f => f.resp && decide (port < 8)
  | .tksForward port _ => decide (port < 8)
  | .tksTransitDiscard port => decide (port < 8)
  | .nak port _ => decide (port < 8)
  | .tksAckCreditFrame port _ _ _ => decide (port < 8)
  | .hello port _ _ _ => decide (port < 8)
  | .tksAckTimer port => decide (port < 8)
  | .tksPortRetrain port => decide (port < 8)
  | .tksRetrainTimeout port => decide (port < 8)
  | .tksRequestResend _ => true
  | .tksRequestFail _ => true
  | .tksBusyRetry _ => true
  | .tksMemoExpiry _ _ => true
  | .tksPortStatus q _ => mbxOk q
  | .tksPortStatusExpert q _ _ => mbxOk q
  | .tksPortReset q _ => mbxOk q
  | .tksPortResetExpert q _ _ => mbxOk q
  | .tksRouteProbe q _ => mbxOk q
  | .tksPing q _ _ _ => mbxOk q
  | .tksCreditSet q _ => mbxOk q
  | .tksCreditSetExpert q _ _ => mbxOk q
  | .memRd _ _ _ => true
  | .memRdData _ _ => true
  | .memWr _ _ _ _ _ => true
  | .memWrPtl _ _ _ _ _ => true
  | .memClnEvct _ _ => true
  | .memInv _ _ => true
  | .biRsp _ _ => true
  | .biConflict _ => true
  | .h2dSnoop _ _ => true
  | .cxlIoMemAccess _ _ _ _ => true
  | .cxlAtomicOp _ _ => true
  | .cxlD2hResponse _ _ _ => true
  | .cacheWritebackInvalidate => true
  | .hdmDecoderCommit _ _ _ => true
  | .msixUnmask vec => decide (vec < 2048)
  | .flr => true
  | .cxlLinkUp _ _ => true
  | .cxlLinkDown _ => true
  | .hostWindowWrite k _ => decide (k < 64)
  | .mailboxDoorbell m _ => decide (m < 28)
  | .axotteMgmtMessage _ _ _ _ _ _ => true
  | .mgmtSessionEnd _ => true
  | .lockstepMismatch _ => true
  | .stewardRestartComplete => true
  | .fsig core _ _ => coreOk core
  | .fwait core _ _ _ => coreOk core
  | .firqRead core _ => coreOk core
  | .svcCoreAccess core _ _ _ _ _ => coreOk core
  | .svcFwLoad q _ _ => mbxOk q
  | .svcStart q _ _ _ => mbxOk q
  | .svcStartExpert q _ _ _ _ _ => mbxOk q
  | .svcStop q => mbxOk q
  | .svcQueueSet q _ _ _ _ => mbxOk q
  | .svcQueueSetExpert q _ _ _ _ _ _ => mbxOk q
  | .svcStatus q => mbxOk q
  | .egressTailWrite e _ => decide (e < 16)
  | .egressSend e => decide (e < 16)
  | .servingStep => true
  | .servingAdmission _ => true
  | .servingAdmissionTimeout _ => true
  | .regWindowUpdate half _ _ => decide (half < 2)
  | .benchPoolDivide _ => true
  | .benchGovernor bench _ _ => decide (bench < 68)
  | .estimatorCalibration _ => true
  | .benchThermalGovernor bench _ => decide (bench < 68)
  | .sensorDiverge bench _ => decide (bench < 68)
  | .gradientCheck a b _ _ => adjacent a b
  | .gradientEscalate a b _ _ => adjacent a b
  | .ageMonitorRead dom _ => decide (dom < 96)
  | .serviceHourTick => true
  | .replanLoweringVerify => true
  | .telemetryRecord => true
  | .telRead q _ => mbxOk q
  | .telStreamSet q _ _ _ => mbxOk q
  | .telStreamSetExpert q _ _ _ _ _ => mbxOk q
  | .benchIdle bench _ => decide (bench < 68)
  | .prbRead q _ _ => mbxOk q
  | .prbWrite q _ _ => mbxOk q
  | .prbWear q => mbxOk q
  | .prbRwpWrite w _ => decide (w < 1024)
  | .prbWriteComplete => true
  | .diagLogRead q _ _ => mbxOk q
  | .diagBistRun q _ _ => mbxOk q
  | .diagBistRunExpert q _ _ _ _ _ _ _ _ _ => mbxOk q
  | .diagBistComplete _ _ => true
  | .diagBistResult q _ => mbxOk q
  | .diagSafetyStatus q => mbxOk q
  | .diagFaultInject q _ => mbxOk q
  | .diagFaultInjectExpert q _ _ => mbxOk q
  | .benchSensorRead bench _ _ => decide (bench < 68)
  | .sensorRefreshTimeout bench sensor => decide (bench < 68) && decide (sensor < 2)
  | .benchCoolExit bench _ => decide (bench < 68)
  | .flowOkSample _ => true
  | .datapathRetest t _ => decide (t < 2176)
  | .onlineBistRound round _ => decide (round < 9)
  | .watchdogExpiry kind unit idx _ => decide (kind < 4) && unit < ([2176, 2176, 64, 68].getD kind 0) && decide (idx < 8)
  | .heartbeatTick => true
  | .coolLeak _ => true
  | .coolantThermistorRead _ _ => true
  | .secHandover q => mbxOk q
  | .secHandoverExpert q _ _ _ => mbxOk q
  | .secLcTransition q _ _ _ => mbxOk q
  | .lcBurnSupplyTimeout => true
  | .secKeyProvision q _ _ => mbxOk q
  | .secEpochRotate q => mbxOk q
  | .secTrustSet q _ _ => mbxOk q
  | .secDeviceSet q _ => mbxOk q
  | .secRouteWrite q _ _ _ => mbxOk q
  | .secFwUpdate q _ _ => mbxOk q
  | .secFwUpdateExpert q _ _ _ => mbxOk q
  | .secDebugOpen q _ => mbxOk q
  | .secLibraryLoad q _ _ => mbxOk q
  | .secLibraryLoadExpert q _ _ _ => mbxOk q
  | .secPartitionSet q _ => mbxOk q
  | .secStatus q => mbxOk q
  | .getVersion port => decide (port < 2)
  | .getCapabilities port => decide (port < 2)
  | .negotiateAlgorithms port _ => decide (port < 2)
  | .getDigests port => decide (port < 2)
  | .getCertificate port _ _ _ => decide (port < 2)
  | .challenge port _ => decide (port < 2)
  | .getMeasurements port _ _ _ => decide (port < 2)
  | .measurementHoldTimeout port => decide (port < 2)
  | .chunkSend port _ _ _ => decide (port < 2)
  | .chunkGet port _ _ => decide (port < 2)
  | .keyExchange port _ => decide (port < 2)
  | .finish port _ _ _ => decide (port < 2)
  | .heartbeat port _ => decide (port < 2)
  | .keyUpdate port _ _ => decide (port < 2)
  | .getEncapsulatedRequest port _ => decide (port < 2)
  | .deliverEncapsulatedResponse port _ _ => decide (port < 2)
  | .endSession port _ => decide (port < 2)
  | .getCsr port _ _ => decide (port < 2)
  | .setCertificate port _ _ _ => decide (port < 2)
  | .spdmUnsupportedRequest port _ => decide (port < 2)
  | .moduleResetRelease _ _ => true
  | .hubResetComplete => true
  | .configurationRequest _ reg _ => decide (reg < 1024)
  | .tksDiscardedFrame port _ => decide (port < 8)
  | .tksRetrainComplete port => decide (port < 8)
  | .ucieRetrainComplete site module => decide (site < 8) && decide (module < 12)
  | .ucieSidebandFailure site module => decide (site < 8) && decide (module < 12)
  | .replanRestart => true
  | .bistRoundRestart => true

/-- Whether a command fits a state: a frame is one for this device, and one to forward is not (R310, R311). Every other command fits
every state. -/
def Instr.fits (s : State) : Instr → Bool
  | .powerOn _ _ _ _ _ => true
  | .moduleReset _ _ => true
  | .powerDown _ => true
  | .overcurrentTrip _ => true
  | .overvoltageDisconnect _ _ => true
  | .supplySample _ _ => true
  | .supplyWarningExit _ _ => true
  | .holdupMeasure _ => true
  | .rootPllLockLoss => true
  | .hubResetStart => true
  | .regionResetComplete _ => true
  | .stepGoWrite _ => true
  | .bootStepComplete _ _ => true
  | .bootStepTimeout _ => true
  | .bupStepGo _ => true
  | .bupStepGoExpert _ _ => true
  | .bupStatus _ => true
  | .bupDegradedAck _ _ => true
  | .bupIdRead _ => true
  | .rstHub _ => true
  | .rstRegion _ _ => true
  | .rstRegionExpert _ _ _ => true
  | .siteStatus _ _ => true
  | .siteStatusExpert _ _ _ => true
  | .siteReset _ _ => true
  | .siteResetExpert _ _ _ _ => true
  | .pwrCapSet _ _ => true
  | .pwrCapSetExpert _ _ _ => true
  | .pwrDomainStatus _ _ _ => true
  | .pwrThrottleSet _ _ => true
  | .pwrThrottleSetExpert _ _ _ => true
  | .pwrTokenAudit _ => true
  | .ageStatus _ => true
  | .ageReplan _ => true
  | .ageReplanExpert _ _ _ => true
  | .thmStatus _ => true
  | .pwrStateSet _ _ _ => true
  | .pwrStateSetExpert _ _ _ _ _ => true
  | .pwrStateQuiesceTimeout => true
  | .sleepExit _ _ _ => true
  | .sitePwrSet _ _ _ => true
  | .sitePwrSetExpert _ _ _ => true
  | .memSsConfig _ _ => true
  | .memSsConfigExpert _ _ _ => true
  | .memSsFlush _ => true
  | .memSsFlushExpert _ _ _ _ => true
  | .memHbmStatus _ => true
  | .memHbmStatusExpert _ _ _ => true
  | .memScrubSet _ => true
  | .memScrubSetExpert _ _ _ => true
  | .memErrRead _ _ _ => true
  | .memDirProbe _ _ => true
  | .memHostGrant _ _ _ => true
  | .memHostGrantExpert _ _ _ _ _ => true
  | .memHostRevoke _ _ => true
  | .memHostStatus _ => true
  | .regPartSet _ _ _ _ _ => true
  | .regPartSetExpert _ _ _ _ _ _ _ _ _ => true
  | .regClassSet _ _ _ _ => true
  | .regClassSetExpert _ _ _ _ _ _ _ => true
  | .regStatus _ => true
  | .regSsShare _ _ _ => true
  | .regSsShareExpert _ _ => true
  | .fabDrsLoad _ _ _ _ => true
  | .fabDrsLoadExpert _ _ _ _ _ _ _ _ => true
  | .fabDrsActivate _ _ _ => true
  | .fabDrsActivateExpert _ _ _ _ => true
  | .fabDrsDeactivate _ _ => true
  | .fabDrsDeactivateExpert _ _ _ => true
  | .drsDrainTimeout _ => true
  | .drsStopPhase _ => true
  | .sunboundTimeout _ _ => true
  | .fabDrsSwap _ _ _ => true
  | .fabDrsSwapExpert _ _ _ _ => true
  | .fabDrsUnload _ _ => true
  | .fabDrsStatus _ _ => true
  | .fabMapRead _ _ _ => true
  | .sgrantTimeout _ _ => true
  | .fabSyncReserve _ _ => true
  | .fabSyncReserveExpert _ _ _ => true
  | .fabSyncRelease _ _ _ => true
  | .fabSyncAudit _ _ => true
  | .fabCreditAudit _ _ => true
  | .diagLinkAudit _ _ _ => true
  | .meshCreditIdleCheck _ _ _ _ => true
  | .ucieCreditIdleCheck _ _ _ _ => true
  | .ctxSeqOpen _ _ _ _ _ _ _ _ => true
  | .ctxSeqOpenExpert _ _ _ _ _ _ _ _ _ _ => true
  | .ctxSeqClose _ _ _ => true
  | .seqCloseFinish _ => true
  | .ctxSeqQuery _ _ => true
  | .ctxPageAppend _ _ _ _ => true
  | .ctxAppendTimeout _ => true
  | .ctxPageCommit _ _ _ _ => true
  | .ctxPageMove _ _ _ _ _ => true
  | .ctxPageMoveExpert _ _ _ _ _ _ _ _ => true
  | .ctxHoistAttach _ _ => true
  | .ctxHoistAttachExpert _ _ _ _ _ => true
  | .ctxHoistDetach _ _ => true
  | .ctxPolicySet _ _ _ => true
  | .ctxPolicySetExpert _ _ _ _ _ _ _ _ => true
  | .ctxTierAdd _ _ _ => true
  | .ctxTierRemove _ _ _ => true
  | .ctxExportConfig _ _ _ => true
  | .ctxAudit _ => true
  | .ctxEpochStatus _ => true
  | .ctxStoreInit _ _ _ _ _ => true
  | .ctxStoreInitExpert _ _ _ _ _ _ _ => true
  | .pageDemotion _ => true
  | .pagePromotion _ _ => true
  | .pageMoveStart _ _ => true
  | .pageMoveDescriptorRewrite _ => true
  | .pageMoveSourceFree _ => true
  | .epochReencryptPass _ => true
  | .oldEpochRetire => true
  | .laneTailWrite _ _ _ => true
  | .hoistRingPrefetch _ _ => true
  | .gatherDescriptorExecute _ _ => true
  | .gatherDescriptorComplete _ _ => true
  | .peerTierTimeout _ _ => true
  | .ssPatrolRead _ => true
  | .hbmPatrol _ => true
  | .ssPowerupInvalidate _ => true
  | .ssInvalidateComplete _ => true
  | .ssThermalSample _ => true
  | .hbmTempRead _ _ => true
  | .slicePrefetch _ _ => true
  | .hbmFillReturn _ _ => true
  | .hbmForcedTurn _ => true
  | .xltCtxSet _ _ _ _ => true
  | .xltCtxSetExpert _ _ _ => true
  | .xltCtxClear _ _ _ => true
  | .xltUnmap _ _ _ _ _ => true
  | .xltUnmapExpert _ _ _ _ _ _ => true
  | .xltUnmapStatus _ _ => true
  | .xltMap _ _ _ _ _ _ _ => true
  | .xltMapExpert _ _ _ _ _ _ _ => true
  | .xltAudit _ => true
  | .xltInvGo _ => true
  | .unmapPhase1Done _ => true
  | .unmapComplete _ => true
  | .walkRequest _ _ _ _ _ => true
  | .walkComplete _ => true
  | .tlbPinRetry _ _ _ => true
  | .mnop _ _ => true
  | .mma _ _ => true
  | .mclr _ _ => true
  | .matrixGranule _ _ => true
  | .operandBufferFill _ _ => true
  | .vnop _ _ => true
  | .vadd _ _ => true
  | .vsub _ _ => true
  | .vmul _ _ => true
  | .vfma _ _ => true
  | .vmin _ _ => true
  | .vmax _ _ => true
  | .vcgt _ _ => true
  | .vceq _ _ => true
  | .vsel _ _ => true
  | .viadd _ _ => true
  | .visub _ _ => true
  | .vimul _ _ => true
  | .vand _ _ => true
  | .vor _ _ => true
  | .vxor _ _ => true
  | .vshl _ _ => true
  | .vshr _ _ => true
  | .vsra _ _ => true
  | .vexp2 _ _ => true
  | .vlog2 _ _ => true
  | .vrcp _ _ => true
  | .vrsqrt _ _ => true
  | .vrsum _ _ => true
  | .vrmax _ _ => true
  | .vmov _ _ => true
  | .vitof _ _ => true
  | .vftoi _ _ => true
  | .vcvtd _ _ => true
  | .vcvtu _ _ => true
  | .vld _ _ => true
  | .vst _ _ => true
  | .vbc _ _ => true
  | .vget _ _ => true
  | .vput _ _ => true
  | .pull _ _ => true
  | .push _ _ => true
  | .vawr _ _ => true
  | .vald _ _ => true
  | .vaadd _ _ => true
  | .varsc _ _ => true
  | .vafin _ _ => true
  | .vamax _ _ => true
  | .vsmu _ _ => true
  | .vsmg _ _ => true
  | .nop _ _ => true
  | .aluAdd _ _ => true
  | .aluSub _ _ => true
  | .aluAnd _ _ => true
  | .aluOr _ _ => true
  | .aluXor _ _ => true
  | .aluShl _ _ => true
  | .aluShr _ _ => true
  | .aluSra _ _ => true
  | .aluMul _ _ => true
  | .aluSlt _ _ => true
  | .aluSltu _ _ => true
  | .aluMin _ _ => true
  | .aluMax _ _ => true
  | .aluMov _ _ => true
  | .aluiAdd _ _ => true
  | .aluiSub _ _ => true
  | .aluiAnd _ _ => true
  | .aluiOr _ _ => true
  | .aluiXor _ _ => true
  | .aluiShl _ _ => true
  | .aluiShr _ _ => true
  | .aluiSra _ _ => true
  | .aluiMul _ _ => true
  | .aluiSlt _ _ => true
  | .aluiSltu _ _ => true
  | .aluiMin _ _ => true
  | .aluiMax _ _ => true
  | .aluiMov _ _ => true
  | .lil _ _ => true
  | .lis _ _ => true
  | .addi _ _ => true
  | .ld _ _ => true
  | .st _ _ => true
  | .gld _ _ => true
  | .gst _ _ => true
  | .brz _ _ => true
  | .brnz _ _ => true
  | .loopOp _ _ => true
  | .loopi _ _ => true
  | .jmp _ _ => true
  | .sig _ _ => true
  | .sigi _ _ => true
  | .waitOp _ _ => true
  | .waitRelease _ => true
  | .rel _ _ => true
  | .fence _ _ => true
  | .trr _ _ => true
  | .trw _ _ => true
  | .cinv _ _ => true
  | .endOp _ _ => true
  | .contextKill _ _ _ _ _ => true
  | .lmRequestAged _ _ _ => true
  | .lmExternalAccess _ _ _ _ => true
  | .tileCacheFill _ _ => true
  | .streamFlitArrival _ _ _ => true
  | .streamCreditReturn _ _ _ => true
  | .dmaDescriptorExecute _ _ => true
  | .dmaTransferBlock _ _ => true
  | .dmaDescriptorComplete _ _ => true
  | .dmaTailWrite _ _ _ => true
  | .dmaCtrlWrite _ _ _ => true
  | .seqStart _ _ => true
  | .arithCtrlWrite _ _ => true
  | .srSeedWrite _ _ => true
  | .registerWrite _ _ _ _ => true
  | .benchInvalidation _ _ _ => true
  | .rdShared _ _ _ _ => true
  | .rdUnique _ _ _ _ => true
  | .upgrade _ _ _ _ => true
  | .rdNoAlloc _ _ _ _ => true
  | .wrFull _ _ _ _ _ _ => true
  | .wrPart _ _ _ _ _ _ _ => true
  | .atomicOp _ _ _ _ _ _ _ _ => true
  | .evictClean _ _ _ => true
  | .evictDirty _ _ _ _ _ => true
  | .snpInv _ _ _ _ => true
  | .snpShare _ _ _ _ => true
  | .snpCur _ _ _ _ => true
  | .rspI _ _ => true
  | .rspS _ _ => true
  | .rspFwd _ _ => true
  | .cmp _ _ _ => true
  | .cmpE _ _ _ => true
  | .rspErr _ _ _ _ => true
  | .datC _ _ _ _ _ => true
  | .datS _ _ _ _ _ => true
  | .datF _ _ _ _ _ => true
  | .datWb _ _ _ _ => true
  | .datCur _ _ _ _ => true
  | .datWr _ _ _ _ _ _ => true
  | .lineQueueResume _ => true
  | .snoopTimeout _ => true
  | .dirProbeGo _ => true
  | .ucieFlit _ _ _ => true
  | .ucieNak _ _ _ => true
  | .ucieAckFlit _ _ _ => true
  | .ucieAckTimer _ _ => true
  | .ucieModuleRetrain _ _ => true
  | .ucieRetrainTimeout _ _ => true
  | .sflit _ _ _ => true
  | .scredit _ _ _ => true
  | .sgrant _ _ _ => true
  | .sunbound _ _ _ => true
  | .idRsp _ _ _ => true
  | .siteMods _ _ => true
  | .pwrReq _ _ _ => true
  | .pwrAck _ _ => true
  | .therm _ _ => true
  | .thermTimeout _ _ => true
  | .scrubAck _ _ => true
  | .scrubTimeout _ => true
  | .chipErr _ _ => true
  | .sitePowerAverage _ _ => true
  | .siteOverpowerRecheck _ _ => true
  | .syncCountWrite _ _ => true
  | .syncAdd _ _ => true
  | .syncTake _ _ => true
  | .syncExchange _ _ _ _ _ _ _ => true
  | .notifierAction => true
  | .notifierActionWrite _ _ _ => true
  | .notifierThreshWrite _ _ _ => true
  | .putOp _ f => f.dst == s.ownDev
  | .getOp _ f => f.dst == s.ownDev
  | .tksAtomic _ f => f.dst == s.ownDev
  | .tksSync _ f => f.dst == s.ownDev
  | .red _ f => f.dst == s.ownDev
  | .settGrant _ f => f.dst == s.ownDev
  | .settReturn _ f => f.dst == s.ownDev
  | .settRead _ f => f.dst == s.ownDev
  | .settWrite _ f => f.dst == s.ownDev
  | .msg _ f => f.dst == s.ownDev
  | .echo _ f => f.dst == s.ownDev
  | .tksResponse _ f => f.dst == s.ownDev
  | .tksForward _ f => f.dst != s.ownDev
  | .tksTransitDiscard _ => true
  | .nak _ _ => true
  | .tksAckCreditFrame _ _ _ _ => true
  | .hello _ _ _ _ => true
  | .tksAckTimer _ => true
  | .tksPortRetrain _ => true
  | .tksRetrainTimeout _ => true
  | .tksRequestResend _ => true
  | .tksRequestFail _ => true
  | .tksBusyRetry _ => true
  | .tksMemoExpiry _ _ => true
  | .tksPortStatus _ _ => true
  | .tksPortStatusExpert _ _ _ => true
  | .tksPortReset _ _ => true
  | .tksPortResetExpert _ _ _ => true
  | .tksRouteProbe _ _ => true
  | .tksPing _ _ _ _ => true
  | .tksCreditSet _ _ => true
  | .tksCreditSetExpert _ _ _ => true
  | .memRd _ _ _ => true
  | .memRdData _ _ => true
  | .memWr _ _ _ _ _ => true
  | .memWrPtl _ _ _ _ _ => true
  | .memClnEvct _ _ => true
  | .memInv _ _ => true
  | .biRsp _ _ => true
  | .biConflict _ => true
  | .h2dSnoop _ _ => true
  | .cxlIoMemAccess _ _ _ _ => true
  | .cxlAtomicOp _ _ => true
  | .cxlD2hResponse _ _ _ => true
  | .cacheWritebackInvalidate => true
  | .hdmDecoderCommit _ _ _ => true
  | .msixUnmask _ => true
  | .flr => true
  | .cxlLinkUp _ _ => true
  | .cxlLinkDown _ => true
  | .hostWindowWrite _ _ => true
  | .mailboxDoorbell _ _ => true
  | .axotteMgmtMessage _ _ _ _ _ _ => true
  | .mgmtSessionEnd _ => true
  | .lockstepMismatch _ => true
  | .stewardRestartComplete => true
  | .fsig _ _ _ => true
  | .fwait _ _ _ _ => true
  | .firqRead _ _ => true
  | .svcCoreAccess _ _ _ _ _ _ => true
  | .svcFwLoad _ _ _ => true
  | .svcStart _ _ _ _ => true
  | .svcStartExpert _ _ _ _ _ _ => true
  | .svcStop _ => true
  | .svcQueueSet _ _ _ _ _ => true
  | .svcQueueSetExpert _ _ _ _ _ _ _ => true
  | .svcStatus _ => true
  | .egressTailWrite _ _ => true
  | .egressSend _ => true
  | .servingStep => true
  | .servingAdmission _ => true
  | .servingAdmissionTimeout _ => true
  | .regWindowUpdate _ _ _ => true
  | .benchPoolDivide _ => true
  | .benchGovernor _ _ _ => true
  | .estimatorCalibration _ => true
  | .benchThermalGovernor _ _ => true
  | .sensorDiverge _ _ => true
  | .gradientCheck _ _ _ _ => true
  | .gradientEscalate _ _ _ _ => true
  | .ageMonitorRead _ _ => true
  | .serviceHourTick => true
  | .replanLoweringVerify => true
  | .telemetryRecord => true
  | .telRead _ _ => true
  | .telStreamSet _ _ _ _ => true
  | .telStreamSetExpert _ _ _ _ _ _ => true
  | .benchIdle _ _ => true
  | .prbRead _ _ _ => true
  | .prbWrite _ _ _ => true
  | .prbWear _ => true
  | .prbRwpWrite _ _ => true
  | .prbWriteComplete => true
  | .diagLogRead _ _ _ => true
  | .diagBistRun _ _ _ => true
  | .diagBistRunExpert _ _ _ _ _ _ _ _ _ _ => true
  | .diagBistComplete _ _ => true
  | .diagBistResult _ _ => true
  | .diagSafetyStatus _ => true
  | .diagFaultInject _ _ => true
  | .diagFaultInjectExpert _ _ _ => true
  | .benchSensorRead _ _ _ => true
  | .sensorRefreshTimeout _ _ => true
  | .benchCoolExit _ _ => true
  | .flowOkSample _ => true
  | .datapathRetest _ _ => true
  | .onlineBistRound _ _ => true
  | .watchdogExpiry _ _ _ _ => true
  | .heartbeatTick => true
  | .coolLeak _ => true
  | .coolantThermistorRead _ _ => true
  | .secHandover _ => true
  | .secHandoverExpert _ _ _ _ => true
  | .secLcTransition _ _ _ _ => true
  | .lcBurnSupplyTimeout => true
  | .secKeyProvision _ _ _ => true
  | .secEpochRotate _ => true
  | .secTrustSet _ _ _ => true
  | .secDeviceSet _ _ => true
  | .secRouteWrite _ _ _ _ => true
  | .secFwUpdate _ _ _ => true
  | .secFwUpdateExpert _ _ _ _ => true
  | .secDebugOpen _ _ => true
  | .secLibraryLoad _ _ _ => true
  | .secLibraryLoadExpert _ _ _ _ => true
  | .secPartitionSet _ _ => true
  | .secStatus _ => true
  | .getVersion _ => true
  | .getCapabilities _ => true
  | .negotiateAlgorithms _ _ => true
  | .getDigests _ => true
  | .getCertificate _ _ _ _ => true
  | .challenge _ _ => true
  | .getMeasurements _ _ _ _ => true
  | .measurementHoldTimeout _ => true
  | .chunkSend _ _ _ _ => true
  | .chunkGet _ _ _ => true
  | .keyExchange _ _ => true
  | .finish _ _ _ _ => true
  | .heartbeat _ _ => true
  | .keyUpdate _ _ _ => true
  | .getEncapsulatedRequest _ _ => true
  | .deliverEncapsulatedResponse _ _ _ => true
  | .endSession _ _ => true
  | .getCsr _ _ _ => true
  | .setCertificate _ _ _ _ => true
  | .spdmUnsupportedRequest _ _ => true
  | .moduleResetRelease _ _ => true
  | .hubResetComplete => true
  | .configurationRequest _ _ _ => true
  | .tksDiscardedFrame _ _ => true
  | .tksRetrainComplete _ => true
  | .ucieRetrainComplete _ _ => true
  | .ucieSidebandFailure _ _ => true
  | .replanRestart => true
  | .bistRoundRestart => true

end Sys2Proof
end

