-- ==== Sys2Proof/Safety.lean ====
section
/-! DEFINITION. The terms of the claims: a step that goes on, when a request is taken and what its answer is, when a slot of a bundle is due. -/

namespace Sys2Proof

open Sys2Proof.Machine

/-- A step that goes on: neither a fault nor a refusal. -/
def Machine.State.safe (s : State) : Prop := ∃ t, step s = .next t

namespace Spec

/-! ### Axotte commands (chapter 15) -/

/-- The request and the command ID of an Axotte command (Table 15-13); none for the other commands. -/
def axCmd : Instr → Option (Req × Nat)
  | .bupStepGo q => some (q, 0x0101)
  | .bupStepGoExpert q _ => some (q, 0x8101)
  | .bupStatus q => some (q, 0x0102)
  | .bupDegradedAck q _ => some (q, 0x8103)
  | .bupIdRead q => some (q, 0x0104)
  | .rstHub q => some (q, 0x0110)
  | .rstRegion q _ => some (q, 0x0111)
  | .rstRegionExpert q _ _ => some (q, 0x8111)
  | .siteStatus q _ => some (q, 0x0120)
  | .siteStatusExpert q _ _ => some (q, 0x8120)
  | .siteReset q _ => some (q, 0x0121)
  | .siteResetExpert q _ _ _ => some (q, 0x8121)
  | .pwrCapSet q _ => some (q, 0x0201)
  | .pwrCapSetExpert q _ _ => some (q, 0x8201)
  | .pwrDomainStatus q _ _ => some (q, 0x0202)
  | .pwrThrottleSet q _ => some (q, 0x0203)
  | .pwrThrottleSetExpert q _ _ => some (q, 0x8203)
  | .pwrTokenAudit q => some (q, 0x0210)
  | .ageStatus q => some (q, 0x0230)
  | .ageReplan q => some (q, 0x0231)
  | .ageReplanExpert q _ _ => some (q, 0x8231)
  | .thmStatus q => some (q, 0x0240)
  | .pwrStateSet q _ _ => some (q, 0x0204)
  | .pwrStateSetExpert q _ _ _ _ => some (q, 0x8204)
  | .sitePwrSet q _ _ => some (q, 0x0220)
  | .sitePwrSetExpert q _ _ => some (q, 0x8220)
  | .memSsConfig q _ => some (q, 0x0301)
  | .memSsConfigExpert q _ _ => some (q, 0x8301)
  | .memSsFlush q => some (q, 0x0302)
  | .memSsFlushExpert q _ _ _ => some (q, 0x8302)
  | .memHbmStatus q => some (q, 0x0303)
  | .memHbmStatusExpert q _ _ => some (q, 0x8303)
  | .memScrubSet q => some (q, 0x0304)
  | .memScrubSetExpert q _ _ => some (q, 0x8304)
  | .memErrRead q _ _ => some (q, 0x0305)
  | .memDirProbe q _ => some (q, 0x0306)
  | .memHostGrant q _ _ => some (q, 0x0310)
  | .memHostGrantExpert q _ _ _ _ => some (q, 0x8310)
  | .memHostRevoke q _ => some (q, 0x0311)
  | .memHostStatus q => some (q, 0x0312)
  | .regPartSet q _ _ _ _ => some (q, 0x0320)
  | .regPartSetExpert q _ _ _ _ _ _ _ _ => some (q, 0x8320)
  | .regClassSet q _ _ _ => some (q, 0x0321)
  | .regClassSetExpert q _ _ _ _ _ _ => some (q, 0x8321)
  | .regStatus q => some (q, 0x0322)
  | .regSsShare q _ _ => some (q, 0x0323)
  | .regSsShareExpert q _ => some (q, 0x8323)
  | .fabDrsLoad q _ _ _ => some (q, 0x0401)
  | .fabDrsLoadExpert q _ _ _ _ _ _ _ => some (q, 0x8401)
  | .fabDrsActivate q _ _ => some (q, 0x0402)
  | .fabDrsActivateExpert q _ _ _ => some (q, 0x8402)
  | .fabDrsDeactivate q _ => some (q, 0x0403)
  | .fabDrsDeactivateExpert q _ _ => some (q, 0x8403)
  | .fabDrsSwap q _ _ => some (q, 0x0404)
  | .fabDrsSwapExpert q _ _ _ => some (q, 0x8404)
  | .fabDrsUnload q _ => some (q, 0x0405)
  | .fabDrsStatus q _ => some (q, 0x0406)
  | .fabMapRead q _ _ => some (q, 0x0407)
  | .fabSyncReserve q _ => some (q, 0x0408)
  | .fabSyncReserveExpert q _ _ => some (q, 0x8408)
  | .fabSyncRelease q _ _ => some (q, 0x0409)
  | .fabSyncAudit q _ => some (q, 0x040A)
  | .fabCreditAudit q _ => some (q, 0x040B)
  | .diagLinkAudit q _ _ => some (q, 0x0810)
  | .ctxSeqOpen q _ _ _ _ _ _ _ => some (q, 0x0501)
  | .ctxSeqOpenExpert q _ _ _ _ _ _ _ _ _ => some (q, 0x8501)
  | .ctxSeqClose q _ _ => some (q, 0x0502)
  | .ctxSeqQuery q _ => some (q, 0x0503)
  | .ctxPageAppend q _ _ _ => some (q, 0x0504)
  | .ctxPageCommit q _ _ _ => some (q, 0x0505)
  | .ctxPageMove q _ _ _ _ => some (q, 0x0506)
  | .ctxPageMoveExpert q _ _ _ _ _ _ _ => some (q, 0x8506)
  | .ctxHoistAttach q _ => some (q, 0x0507)
  | .ctxHoistAttachExpert q _ _ _ _ => some (q, 0x8507)
  | .ctxHoistDetach q _ => some (q, 0x0508)
  | .ctxPolicySet q _ _ => some (q, 0x0509)
  | .ctxPolicySetExpert q _ _ _ _ _ _ _ => some (q, 0x8509)
  | .ctxTierAdd q _ _ => some (q, 0x050A)
  | .ctxTierRemove q _ _ => some (q, 0x050B)
  | .ctxExportConfig q _ _ => some (q, 0x050C)
  | .ctxAudit q => some (q, 0x050D)
  | .ctxEpochStatus q => some (q, 0x050E)
  | .ctxStoreInit q _ _ _ _ => some (q, 0x0510)
  | .ctxStoreInitExpert q _ _ _ _ _ _ => some (q, 0x8510)
  | .xltCtxSet q _ _ _ => some (q, 0x0C01)
  | .xltCtxSetExpert q _ _ => some (q, 0x8C01)
  | .xltCtxClear q _ _ => some (q, 0x0C02)
  | .xltUnmap q _ _ _ _ => some (q, 0x0C03)
  | .xltUnmapExpert q _ _ _ _ _ => some (q, 0x8C03)
  | .xltUnmapStatus q _ => some (q, 0x0C04)
  | .xltMap q _ _ _ _ _ _ => some (q, 0x0C05)
  | .xltMapExpert q _ _ _ _ _ _ => some (q, 0x8C05)
  | .xltAudit q => some (q, 0x0C06)
  | .tksPortStatus q _ => some (q, 0x0601)
  | .tksPortStatusExpert q _ _ => some (q, 0x8601)
  | .tksPortReset q _ => some (q, 0x0602)
  | .tksPortResetExpert q _ _ => some (q, 0x8602)
  | .tksRouteProbe q _ => some (q, 0x0603)
  | .tksPing q _ _ _ => some (q, 0x0604)
  | .tksCreditSet q _ => some (q, 0x0605)
  | .tksCreditSetExpert q _ _ => some (q, 0x8605)
  | .svcFwLoad q _ _ => some (q, 0x0B01)
  | .svcStart q _ _ _ => some (q, 0x0B02)
  | .svcStartExpert q _ _ _ _ _ => some (q, 0x8B02)
  | .svcStop q => some (q, 0x0B03)
  | .svcQueueSet q _ _ _ _ => some (q, 0x0B04)
  | .svcQueueSetExpert q _ _ _ _ _ _ => some (q, 0x8B04)
  | .svcStatus q => some (q, 0x0B05)
  | .telRead q _ => some (q, 0x0901)
  | .telStreamSet q _ _ _ => some (q, 0x0902)
  | .telStreamSetExpert q _ _ _ _ _ => some (q, 0x8902)
  | .prbRead q _ _ => some (q, 0x0A01)
  | .prbWrite q _ _ => some (q, 0x0A02)
  | .prbWear q => some (q, 0x0A03)
  | .diagLogRead q _ _ => some (q, 0x0803)
  | .diagBistRun q _ _ => some (q, 0x0801)
  | .diagBistRunExpert q _ _ _ _ _ _ _ _ _ => some (q, 0x8801)
  | .diagBistResult q _ => some (q, 0x0802)
  | .diagSafetyStatus q => some (q, 0x0804)
  | .diagFaultInject q _ => some (q, 0x0805)
  | .diagFaultInjectExpert q _ _ => some (q, 0x8805)
  | .secHandover q => some (q, 0x0701)
  | .secHandoverExpert q _ _ _ => some (q, 0x8701)
  | .secLcTransition q _ _ _ => some (q, 0x0702)
  | .secKeyProvision q _ _ => some (q, 0x0703)
  | .secEpochRotate q => some (q, 0x0704)
  | .secTrustSet q _ _ => some (q, 0x0705)
  | .secDeviceSet q _ => some (q, 0x0706)
  | .secRouteWrite q _ _ _ => some (q, 0x0707)
  | .secFwUpdate q _ _ => some (q, 0x0708)
  | .secFwUpdateExpert q _ _ _ => some (q, 0x8708)
  | .secDebugOpen q _ => some (q, 0x0709)
  | .secLibraryLoad q _ _ => some (q, 0x070A)
  | .secLibraryLoadExpert q _ _ _ => some (q, 0x870A)
  | .secPartitionSet q _ => some (q, 0x070B)
  | .secStatus q => some (q, 0x070C)
  | _ => none

/-- The header of a request (R348). -/
def hdr (q : Req) (cmd : Nat) : Hdr := ⟨cmd, q.tag, q.seq, q.notify⟩

/-- Mailbox state (Table 15-11): 0 idle, 1 posted, 2 executing, 3 done. -/
abbrev mbxState (s : State) (m : Nat) : Nat := s.fget (R.mbxStatus m) 31 30

/-- The device takes a command: powered, awake and not going to sleep, its steward running (Table 15-9); Ready, unless the group is one of those that
R400 accepts before; and, outside the management mailboxes, no handover executing or ended early (R468, R470). -/
abbrev Up (s : State) (q : Req) (cmd : Nat) : Prop :=
  s.powered = true ∧ s.asleep = false ∧ s.drowsing = false ∧ s.bget R.stwStatus 31 = true
    ∧ (s.fget R.stwBootStatus 31 29 = 3 ∨ axGroup cmd ∈ [1, 7, 8, 9, 10])
    ∧ (24 ≤ q.mbx ∨ s.bget R.secTenStatus 31 = false ∧ s.bget R.secTenStatus 30 = false)

/-- The mailbox of a request takes it (R350, R351, R354): it exists, is idle or done or holds this very request posted, and the request is no
duplicate. -/
abbrev Open (s : State) (q : Req) (cmd : Nat) : Prop :=
  q.mbx < 28 ∧ (mbxState s q.mbx = 0 ∨ mbxState s q.mbx = 3 ∨ ((s.box q.mbx).cur = some (hdr q cmd) ∧ (s.box q.mbx).begun = false))
    ∧ ((s.box q.mbx).last.any fun l => l.same (hdr q cmd)) = false

/-- A request is taken and meets its command's own checks: the device takes it, the mailbox takes it, and its group is open to it (Table 15-2). -/
abbrev Takes (s : State) (q : Req) (cmd : Nat) : Prop := Up s q cmd ∧ Open s q cmd ∧ (axGroup cmd = 7 → 24 ≤ q.mbx)

/-- The state in which a request executes: its header copied, its mailbox executing (R350, R351). -/
def begun (s : State) (q : Req) (cmd : Nat) : State :=
  (s.setBox q.mbx { (s.box q.mbx) with cur := some (hdr q cmd), begun := true }).fset (R.mbxStatus q.mbx) 31 30 2

/-- A request is taken, and u is the state in which it executes. -/
abbrev Begins (s : State) (q : Req) (cmd : Nat) (u : State) : Prop := Takes s q cmd ∧ u = begun s q cmd

/-- A command ended DONE from state t (R353). -/
def done (t : State) (q : Req) (cmd detail : Nat) (payload : List Byte) : Outc := .next (t.axEnd q.mbx (hdr q cmd) 0 detail payload)
/-- A command ended REFUSED from state t, with a detail code. -/
def refused (t : State) (q : Req) (cmd detail : Nat) : Outc := .next (t.axEnd q.mbx (hdr q cmd) 4 detail [])

/-- The bytes of an image at a global address, held by the steward, and the state that has taken them up (log entry 133); an address no byte of which backs it. -/
abbrev ImageAt (u : State) (g : W64) (n : Nat) (img : List Byte) (v : State) : Prop :=
  u.imgHole g.toNat n = false ∧ u.imgReady g.toNat n = true ∧ u.imgBytes g n = some img ∧ v = if u.near g.toNat then u else u.farUsed g.toNat n
abbrev ImageHole (u : State) (g : W64) (n : Nat) (v : State) : Prop := u.imgHole g.toNat n = true ∧ v = u.hole steward 0 g.toNat
/-- A request that waits at its mailbox while the bytes of its image are fetched. -/
def imageAwaited (u : State) (q : Req) (g : W64) (n : Nat) : Outc :=
  let v := u.farAsk g.toNat n 0
  .next (v.setBox q.mbx { v.box q.mbx with begun := false })

/-- A command that waits in mailbox m until the bring-up steps of a mask are done or failed (R392). -/
def awaiting (t : State) (m mask : Nat) : State := { t with boot := { t.boot with await := tput t.boot.await m mask } }

/-- A command that writes words of the persistent block (R440 to R443): refused for the first worn word; in a supply warning kept for later, DEFERRED, while 32
fit; else its writes stand in line and its answer waits for them. -/
def persists (t : State) (q : Req) (cmd : Nat) (ws : List (Nat × W32)) (fin : PEnd) : Outc :=
  let xs := ws.map fun p : Nat × W32 => PWrite.mk p.1 p.2 (some (q.mbx, q.tag, q.seq)) false
  match ws.find? (fun p : Nat × W32 => t.worn p.1) with
  | some p => refused (t.log' 0 2 1 [p.1]) q cmd dWorn
  | none =>
    if t.bget R.pwrSupplyStatus 31 = false then .next (t.prbJob q.mbx xs fin)
    else if 32 < t.prb.deferred.length + xs.length then refused t q cmd dSupplyLow
    else .next (({ t with prb := { t.prb with deferred := t.prb.deferred ++ xs } }.prbShow).axEnd q.mbx (hdr q cmd) 7 0 [])

/-- The state in which a handover has done steps 1 and 2 of Table 22-1 and begun its site resets; with no site to reset it goes on to its end. -/
def handed (u : State) (m : Nat) (cycle drop : Bool) (part : Option Nat) : State :=
  let ns := (List.range 8).filter fun n => u.populated n && (u.site n).ph != .off
  let h : Handover := { mbx := m, cycle := cycle, drop := drop, part := part, sites := ns, epoch := u.curEpoch, runs := u.tierRuns 3 }
  let a := { u.handAborts m with sec := { (u.handAborts m).sec with hand := some h } }
  let b := a.set R.secTenStatus (setFld (setFld (a.get R.secTenStatus) 31 31 1) 29 27 3)
  let c := b.handOne.handTwo (u.bget R.secLibStatus 62 && u.bget R.secLibStatus 63 && !drop)
  let z := ns.foldl (fun x n => x.handReset cycle n) c
  if ns.isEmpty then z.handEnd h else z

/-- What bring-up step n does (Table 18-1), before its bit in step_done is set; none where no step has the number. -/
def stepEffect (s : State) (n : Nat) (r : StepRes) : Option State :=
  match n with
  | 1 => some (s.set R.hubClkStatus (setFld (s.get R.hubClkStatus) 1 0 1))
  | 2 => some s.fuseLoad
  | 3 => some s.powerLoad
  | 4 => some ({ s with ssInv := [] }.bset R.hubMemStatus 31 true)
  | 5 => some (s.memLoad r.stackRes)
  | 6 => some { s with boot := { s.boot with badLanes := r.badLanes } }
  | 7 => some s
  | 8 => some (s.bistLoad r)
  | 9 => some s.mapStep
  | 10 => some ((s.resetRegs regSetting .hub).fset R.stwBootStatus 31 29 3)
  | _ => none

/-! ### Slots of a bundle (chapter 4) -/

/-- The state in which the bundle at tile t's pc has been fetched: where local memory gives it, latent errors of its word met (R79) and the fetch served. -/
def fetched (s : State) (t : Nat) : State := if s.fetchesLm t (s.pc t) then (s.lmMeetAt t (8 * s.pc t) 8).served t 2 else s

/-- Slot k of bundle b (0 matrix, 1 vector, 2 control) is due at tile t: the tile runs, and either the bundle is open and this is its next slot, or it
is the first of the bundle fetched, and the bundle is neither poisoned nor illegal and does not stall (R101 to R104). -/
abbrev Due (s : State) (t : Nat) (b : W64) (k : Nat) : Prop :=
  s.running t = true ∧
    match (s.tile t).bundle with
    | some o => nextSlot o b k = true
    | none =>
      firstSlot b k = true ∧ s.fetchB t (s.pc t) = b ∧ (s.fetchesLm t (s.pc t) && (fetched s t).lmBad t (8 * (fetched s t).pc t) 8) = false ∧
        bundleCheck b = none ∧ (fetched s t).stallCode t b = 0

/-- The state in which slot k executes: its bundle fetched and open. -/
def opened (s : State) (t : Nat) (b : W64) (k : Nat) : State :=
  match (s.tile t).bundle with
  | some _ => s
  | none => (fetched s t).openB t b k

/-! ### The scalar and the vector functions (Tables 4-5 and 4-7) -/

/-- An ALU or ALUI row: its tile, bundle and funct code, and whether the second operand is the immediate. -/
def aluRow : Instr → Option (Nat × W64 × Nat × Bool)
  | .aluAdd t b => some (t, b, 0, false)
  | .aluiAdd t b => some (t, b, 0, true)
  | .aluSub t b => some (t, b, 1, false)
  | .aluiSub t b => some (t, b, 1, true)
  | .aluAnd t b => some (t, b, 2, false)
  | .aluiAnd t b => some (t, b, 2, true)
  | .aluOr t b => some (t, b, 3, false)
  | .aluiOr t b => some (t, b, 3, true)
  | .aluXor t b => some (t, b, 4, false)
  | .aluiXor t b => some (t, b, 4, true)
  | .aluShl t b => some (t, b, 5, false)
  | .aluiShl t b => some (t, b, 5, true)
  | .aluShr t b => some (t, b, 6, false)
  | .aluiShr t b => some (t, b, 6, true)
  | .aluSra t b => some (t, b, 7, false)
  | .aluiSra t b => some (t, b, 7, true)
  | .aluMul t b => some (t, b, 8, false)
  | .aluiMul t b => some (t, b, 8, true)
  | .aluSlt t b => some (t, b, 9, false)
  | .aluiSlt t b => some (t, b, 9, true)
  | .aluSltu t b => some (t, b, 10, false)
  | .aluiSltu t b => some (t, b, 10, true)
  | .aluMin t b => some (t, b, 11, false)
  | .aluiMin t b => some (t, b, 11, true)
  | .aluMax t b => some (t, b, 12, false)
  | .aluiMax t b => some (t, b, 12, true)
  | .aluMov t b => some (t, b, 13, false)
  | .aluiMov t b => some (t, b, 13, true)
  | _ => none

/-- A scalar function (R120), by funct code: arithmetic modulo 2^32, shifts modulo 32. -/
def aluVal (funct : Nat) (x y : W32) : W32 :=
  match funct with
  | 0 => BitVec.ofNat 32 (x.toNat + y.toNat)
  | 1 => BitVec.ofInt 32 ((x.toNat : Int) - y.toNat)
  | 2 => x &&& y
  | 3 => x ||| y
  | 4 => x ^^^ y
  | 5 => BitVec.ofNat 32 (x.toNat * 2 ^ (y.toNat % 32))
  | 6 => BitVec.ofNat 32 (x.toNat / 2 ^ (y.toNat % 32))
  | 7 => BitVec.ofInt 32 (x.toInt / (2 ^ (y.toNat % 32) : Nat))
  | 8 => BitVec.ofNat 32 (x.toNat * y.toNat)
  | 9 => if x.toInt < y.toInt then 1 else 0
  | 10 => if x.toNat < y.toNat then 1 else 0
  | 11 => if x.toInt < y.toInt then x else y
  | 12 => if x.toInt < y.toInt then y else x
  | _ => y

/-- A vector row that works lane by lane: its tile, bundle and opcode. -/
def laneRow : Instr → Option (Nat × W64 × Nat)
  | .vadd t b => some (t, b, 0x01)
  | .vsub t b => some (t, b, 0x02)
  | .vmul t b => some (t, b, 0x03)
  | .vfma t b => some (t, b, 0x04)
  | .vmin t b => some (t, b, 0x05)
  | .vmax t b => some (t, b, 0x06)
  | .vcgt t b => some (t, b, 0x07)
  | .vceq t b => some (t, b, 0x08)
  | .vsel t b => some (t, b, 0x09)
  | .viadd t b => some (t, b, 0x0A)
  | .visub t b => some (t, b, 0x0B)
  | .vimul t b => some (t, b, 0x0C)
  | .vand t b => some (t, b, 0x0D)
  | .vor t b => some (t, b, 0x0E)
  | .vxor t b => some (t, b, 0x0F)
  | .vshl t b => some (t, b, 0x10)
  | .vshr t b => some (t, b, 0x11)
  | .vsra t b => some (t, b, 0x12)
  | .vexp2 t b => some (t, b, 0x14)
  | .vlog2 t b => some (t, b, 0x15)
  | .vrcp t b => some (t, b, 0x16)
  | .vrsqrt t b => some (t, b, 0x17)
  | .vmov t b => some (t, b, 0x1A)
  | .vitof t b => some (t, b, 0x1B)
  | .vftoi t b => some (t, b, 0x1C)
  | _ => none

/-- A lane's result and flags (Table 4-5, R113): the codes of va, vb and vd; FP32 under ftz and a rounding mode, INT32 modulo 2^32. -/
def laneVal (op : Nat) (ftz : Bool) (mode x y d : Nat) : Nat × Nat :=
  match op with
  | 0x01 => fAdd ftz mode x y
  | 0x02 => fSub ftz mode x y
  | 0x03 => fMul ftz mode x y
  | 0x04 => fFma ftz mode x y d
  | 0x05 => (fMin (ftzIn ftz x) (ftzIn ftz y), 0)
  | 0x06 => (fMax (ftzIn ftz x) (ftzIn ftz y), 0)
  | 0x07 => (if fGt (ftzIn ftz x) (ftzIn ftz y) then 0xFFFFFFFF else 0, 0)
  | 0x08 => (if fEq (ftzIn ftz x) (ftzIn ftz y) then 0xFFFFFFFF else 0, 0)
  | 0x09 => (if d ≠ 0 then x else y, 0)
  | 0x0A => ((x + y) % 2 ^ 32, 0)
  | 0x0B => ((x + 2 ^ 32 - y) % 2 ^ 32, 0)
  | 0x0C => (x * y % 2 ^ 32, 0)
  | 0x0D => (x &&& y, 0)
  | 0x0E => (x ||| y, 0)
  | 0x0F => (x ^^^ y, 0)
  | 0x10 => (x * 2 ^ (y % 32) % 2 ^ 32, 0)
  | 0x11 => (x / 2 ^ (y % 32), 0)
  | 0x12 => (((BitVec.ofNat 32 x).sshiftRight (y % 32)).toNat, 0)
  | 0x14 => trans ftz 0 x
  | 0x15 => trans ftz 1 x
  | 0x16 => trans ftz 2 x
  | 0x17 => trans ftz 3 x
  | 0x1A => (x, 0)
  | 0x1B => itof mode x
  | 0x1C => ftoi ftz mode x
  | _ => (0, 0)

end Spec

end Sys2Proof
end

