-- ==== Sys2Proof/Certificates/Slice0/Obligations.lean ====
section
/-! DEFINITION. The statements. -/

open Sys2Proof Sys2Proof.Machine Sys2Proof.Spec

/-- The step (log entry 1): the command at the front of the queue is executed on the state with the rest of the queue; an empty queue idles for one TCLK. -/
def Obligations.StepRunsFront : Prop :=
  (∀ (s : State) (c : Instr) (cs : List Instr), s.pending = c :: cs → step s = exec c { s with pending := cs })
  ∧ (∀ s : State, s.pending = [] → s.bget R.hubClkStatus 0 = true →
      ∃ t, step s = .next t ∧ (t.get R.hubTimeCount).toNat = ((s.get R.hubTimeCount).toNat + 1) % 2 ^ 64
        ∧ (∀ r : Reg, r.addr ≠ R.hubTimeCount.addr → t.get r = s.get r) ∧ { t with regs := s.regs } = s)
  ∧ (∀ s : State, s.pending = [] → s.bget R.hubClkStatus 0 = false → step s = .next s)

/-- The machine right after reset: no command waits, no memory byte is listed, every register of the window holds the reset value of its field map, no module is
powered (the reset values that the manual leaves open are log entries 6 and 7). -/
def Obligations.ResetState : Prop :=
  State.reset.pending = [] ∧ State.reset.powered = false ∧ State.reset.mem.wf = true ∧ risingFrom none State.reset.regs = true
  ∧ (∀ r : Reg, State.reset.get r = BitVec.ofNat 64 r.rst)
  ∧ (∀ a, mget State.reset.mem a = memDefault) ∧ (∀ t r, State.reset.sr t r = 0) ∧ (∀ t r l, State.reset.vr t r l = 0) ∧ (∀ t k r c, State.reset.acc t k r c = 0)
  ∧ State.reset.log = [] ∧ (∀ m, State.reset.fget (R.mbxStatus m) 31 30 = 0)
  ∧ (State.reset.get R.hubIdStepping).toNat = 0xB0 ∧ (State.reset.get R.hubIdAssembly).toNat = 3
  ∧ (∀ b, (State.reset.get (R.pwrBenchCeil b)).toNat = 16) ∧ (∀ r, State.reset.fget (R.regPartC0 r) 47 32 = 64)

/-- A command goes on exactly when it is well formed and fits the state: neither ordinary data nor a mode ends a run. -/
def Obligations.WellFormedAnswers : Prop :=
  ∀ (i : Instr) (s : State), (∃ t, exec i s = .next t) ↔ (i.wf = true ∧ i.fits s = true)

/-- A command takes nothing from the queue of waiting commands and adds nothing to it: the step leaves the rest of the queue. -/
def Obligations.QueueUntouched : Prop :=
  ∀ (s t : State), step s = .next t → t.pending = s.pending.tail

/-- Every step keeps the canonical form of the memory and of the register file: addresses strictly rising, no byte of memory listed at the value an unlisted
byte reads as. -/
def Obligations.KeepsCanonicalForm : Prop :=
  ∀ (s t : State), s.mem.wf = true → risingFrom none s.regs = true → step s = .next t → t.mem.wf = true ∧ risingFrom none t.regs = true

/-- The life of every Axotte request before its command's own checks (R350, R351, R354, R434, R468, R470, Tables 15-2, 15-8, 15-9): what ignores it, leaves it
posted, answers it as a duplicate, or refuses it. -/
def Obligations.RequestGate : Prop :=
  ∀ (i : Instr) (q : Req) (cmd : Nat) (s : State), axCmd i = some (q, cmd) → q.mbx < 28 →
    (s.powered = false → exec i s = .next s)
    ∧ (s.powered = true → s.asleep = true → q.mbx < 24 → exec i s = .next s)
    ∧ (s.powered = true → s.asleep = false → s.drowsing = false →
      (((mbxState s q.mbx = 1 ∨ mbxState s q.mbx = 2) ∧ ((s.box q.mbx).cur ≠ some (hdr q cmd) ∨ (s.box q.mbx).begun = true)) →
        exec i s = .next (s.bset (R.mbxStatus q.mbx) 29 true))
      ∧ ((mbxState s q.mbx = 0 ∨ mbxState s q.mbx = 3) →
        (s.bget R.stwStatus 31 = false → exec i s = .next ((s.setBox q.mbx { (s.box q.mbx) with cur := some (hdr q cmd), begun := false }).fset
            (R.mbxStatus q.mbx) 31 30 1))
        ∧ (s.bget R.stwStatus 31 = true →
          (∀ l, (s.box q.mbx).last = some l → l.cmd = cmd → l.tag = q.tag → l.seq = q.seq →
            ∃ t, exec i s = .next t ∧ t.mem = s.mem ∧ mbxState t q.mbx = 3 ∧ t.bget (R.mbxStatus q.mbx) 28 = true
              ∧ (q.notify = false → q.mbx < 24 → t.out = s.out ∧ ∀ r : Reg, r.addr ≠ (R.mbxStatus q.mbx).addr → r.addr ≠ (R.mbxCount q.mbx).addr → t.get r = s.get r))
          ∧ (((s.box q.mbx).last.any fun l => l.same (hdr q cmd)) = false →
            (axGroup cmd = 7 → q.mbx < 24 → exec i s = .next ((begun s q cmd).axEnd q.mbx (hdr q cmd) 5 0 []))
            ∧ ((axGroup cmd ≠ 7 ∨ 24 ≤ q.mbx) →
              (s.bget R.secTenStatus 31 = true → q.mbx < 24 → exec i s = refused (begun s q cmd) q cmd 0x0E)
              ∧ (s.bget R.secTenStatus 31 = false → s.bget R.secTenStatus 30 = true → q.mbx < 24 → axGroup cmd ∉ [1, 8] →
                exec i s = refused (begun s q cmd) q cmd 0x16)
              ∧ (s.bget R.secTenStatus 31 = false → s.bget R.secTenStatus 30 = false → s.fget R.stwBootStatus 31 29 ≠ 3 →
                axGroup cmd ∉ [1, 7, 8, 9, 10] → exec i s = refused (begun s q cmd) q cmd 0x16))))))
    ∧ (s.powered = true → s.asleep = true → s.drowsing = false → 24 ≤ q.mbx → (mbxState s q.mbx = 0 ∨ mbxState s q.mbx = 3) → s.bget R.stwStatus 31 = true →
      ((s.box q.mbx).last.any fun l => l.same (hdr q cmd)) = false → s.fget R.stwBootStatus 31 29 = 3 →
      axGroup cmd ∉ [1, 7, 8, 9, 10] → cmd % 0x8000 ≠ 0x204 → exec i s = refused (begun s q cmd) q cmd 0x15)

/-- A response (R349, R353, Tables 15-5 and 15-10): the header and the payload in the response window and nothing else in memory; the mailbox done, with its
status and sequence number, counted; no completion where the request asked for none. -/
def Obligations.ResponseForm : Prop :=
  ∀ (s : State) (m st d us : Nat) (h : Hdr) (p : List Byte), m < 24 → h.notify = false → (s.box m).flr = false → p.length % 4 = 0 → p.length ≤ 4080 →
    let t := s.axEndR m h st d us p
    let w := mbxBase m + 0x1000
    mread t.mem w 2 = leBytes 2 h.cmd ∧ mread t.mem (w + 2) 1 = leBytes 1 st ∧ mread t.mem (w + 3) 1 = leBytes 1 d
    ∧ mread t.mem (w + 4) 2 = leBytes 2 p.length ∧ mread t.mem (w + 6) 2 = leBytes 2 (min us 65535)
    ∧ mread t.mem (w + 8) 4 = leBytes 4 h.tag.toNat ∧ mread t.mem (w + 12) 4 = leBytes 4 h.seq.toNat ∧ mread t.mem (w + 16) p.length = p
    ∧ (∀ a, a < w ∨ w + 16 + p.length ≤ a → mget t.mem a = mget s.mem a)
    ∧ mbxState t m = 3 ∧ t.fget (R.mbxStatus m) 23 16 = st % 256 ∧ t.fget (R.mbxStatus m) 15 0 = h.seq.toNat % 65536 ∧ t.bget (R.mbxStatus m) 28 = false
    ∧ t.bget (R.mbxStatus m) 29 = s.bget (R.mbxStatus m) 29
    ∧ (t.get (R.mbxCount m)).toNat = min (2 ^ 32 - 1) ((s.get (R.mbxCount m)).toNat + 1)
    ∧ (∀ r : Reg, r.addr ≠ (R.mbxStatus m).addr → r.addr ≠ (R.mbxCount m).addr → t.get r = s.get r)
    ∧ (t.box m).last = some h ∧ (t.box m).cur = none ∧ (∀ n, n ≠ m → t.box n = s.box n)
    ∧ t.out = s.out ∧ t.pending = s.pending ∧ { t with mem := s.mem, regs := s.regs, mbx := s.mbx } = s

/-- The access codes of Table 0-5 and reserved bits (R8, R9), bit by bit: what a read of a register word returns and clears, and what a write leaves in it. -/
def Obligations.AccessCodes : Prop :=
  (∀ (s : State) (d : RegDesc) (a i : Nat) (m : W64), i < 64 → m.getLsbD i = true →
    let has (acc : Acc) : Prop := ∃ f ∈ d.flds, f.acc = acc ∧ f.lo ≤ i ∧ i ≤ f.hi
    (∀ f ∈ d.flds, f.lo ≤ f.hi ∧ f.hi < 64) →
    let r := s.regRd d a m
    ((has .rw ∨ has .ro ∨ has .w1c ∨ has .w1s ∨ has .rc) → r.1.getLsbD i = (s.regVal d a).getLsbD i)
    ∧ ((∀ f ∈ d.flds, f.lo ≤ i → i ≤ f.hi → f.acc = .wo) → r.1.getLsbD i = false)
    ∧ (has .rc → (tgetD r.2.regs a (BitVec.ofNat 64 d.rst)).getLsbD i = false)
    ∧ ((∀ f ∈ d.flds, f.acc ≠ .rc) → r.2 = s))
  ∧ (∀ (s : State) (d : RegDesc) (a i : Nat) (m v : W64), i < 64 → m.getLsbD i = true →
    let has (acc : Acc) : Prop := ∃ f ∈ d.flds, f.acc = acc ∧ f.lo ≤ i ∧ i ≤ f.hi
    (∀ f ∈ d.flds, f.lo ≤ f.hi ∧ f.hi < 64) →
    let old := tgetD s.regs a (BitVec.ofNat 64 d.rst)
    let new := tgetD (s.regPut d a m v).regs a (BitVec.ofNat 64 d.rst)
    (has .rw → new.getLsbD i = v.getLsbD i)
    ∧ (¬ has .rw → has .w1c → new.getLsbD i = (old.getLsbD i && !v.getLsbD i))
    ∧ (¬ has .rw → ¬ has .w1c → new.getLsbD i = old.getLsbD i)
    ∧ (∀ b, b ≠ a → tget (s.regPut d a m v).regs b = tget s.regs b) ∧ (s.regPut d a m v).mem = s.mem)
  ∧ (∀ (s : State) a n, (n = 4 ∨ n = 8) → a % n = 0 → mgmtOnly a = true → (s.regRead a n).1 = 0
    ∧ s.regWrite a n 0 = s.bump R.hubMapMgmtRefused 32 1 ∧ ∀ v, s.regWrite a n v = s.regWrite a n 0)

/-- What a scalar or lane-by-lane vector command leaves unchanged where its bundle is not the last index (past it the context is killed, R104): all memory, every other
tile, every scalar, vector and accumulator register but its destination, every register outside the tile's block, the log and the messages handed out. -/
def Obligations.ComputeFrame : Prop :=
  ∀ (i : Instr) (t : Nat) (b : W64) (s v : State), t < 2176 → exec i s = .next v →
    (∀ f imm, aluRow i = some (t, b, f, imm) → Due s t b 2 → s.pc t < 0xFFFF → (∀ n ∈ (s.tile t).loopOrd, n < 4) → (∀ o, (s.tile t).bundle = some o → o.vget = none) →
      (∀ r, r ≠ nbits (cSlot b) 10 6 → v.sr t r = s.sr t r) ∧ (∀ r l, v.vr t r l = s.vr t r l) ∧ (∀ k r c, v.acc t k r c = s.acc t k r c)
      ∧ (∀ a, mget v.mem a = mget s.mem a) ∧ (∀ q, q ≠ t → v.tile q = s.tile q) ∧ v.log = s.log ∧ v.out = s.out
      ∧ ∀ r : Reg, (r.addr < 0x3FF100000000 + 0x100000 * t ∨ 0x3FF100000000 + 0x100000 * (t + 1) ≤ r.addr) → v.get r = s.get r)
    ∧ (∀ op, laneRow i = some (t, b, op) → Due s t b 1 →
      (∀ r, v.sr t r = s.sr t r) ∧ (∀ r l, r ≠ nbits (vSlot b) 17 13 → l < 64 → v.vr t r l = s.vr t r l) ∧ (∀ k r c, v.acc t k r c = s.acc t k r c)
      ∧ (∀ a, mget v.mem a = mget s.mem a) ∧ (∀ q, q ≠ t → v.tile q = s.tile q) ∧ v.log = s.log ∧ v.out = s.out
      ∧ ∀ r : Reg, (r.addr < 0x3FF100000000 + 0x100000 * t ∨ 0x3FF100000000 + 0x100000 * (t + 1) ≤ r.addr) → v.get r = s.get r)

/-- R65: s0 reads as 0 and ignores writes; every other scalar, vector and accumulator register holds the last value written to it, and no write reaches another. -/
def Obligations.RegisterFile : Prop :=
  (∀ (s : State) t, s.sr t 0 = 0 ∧ ∀ v, s.setSr t 0 v = s)
  ∧ (∀ (s : State) t r v, r ≠ 0 → (s.setSr t r v).sr t r = v ∧ (∀ q p, (q ≠ t ∨ p ≠ r) → (s.setSr t r v).sr q p = s.sr q p)
      ∧ (∀ q p l, (s.setSr t r v).vr q p l = s.vr q p l) ∧ (∀ q k i j, (s.setSr t r v).acc q k i j = s.acc q k i j) ∧ (s.setSr t r v).regs = s.regs
      ∧ (s.setSr t r v).mem = s.mem)
  ∧ (∀ (s : State) t r (vs : List W32), (∀ l, l < 64 → (s.setVrow t r vs).vr t r l = vs.getD l 0)
      ∧ (∀ q p l, l < 64 → (q ≠ t ∨ p ≠ r) → (s.setVrow t r vs).vr q p l = s.vr q p l) ∧ (∀ q p, (s.setVrow t r vs).sr q p = s.sr q p)
      ∧ (∀ q k i j, (s.setVrow t r vs).acc q k i j = s.acc q k i j) ∧ (s.setVrow t r vs).mem = s.mem)
  ∧ (∀ (s : State) t k (vs : List W32), (∀ i j, i < 32 → j < 32 → (s.setAcc t k vs).acc t k i j = vs.getD (32 * i + j) 0)
      ∧ (∀ q p i j, i < 32 → j < 32 → (q ≠ t ∨ p ≠ k) → (s.setAcc t k vs).acc q p i j = s.acc q p i j) ∧ (∀ q p, (s.setAcc t k vs).sr q p = s.sr q p)
      ∧ (∀ q p l, (s.setAcc t k vs).vr q p l = s.vr q p l) ∧ (s.setAcc t k vs).mem = s.mem)

/-- R28: what a hole access records, and that a later one leaves the first record and sets overflow; a register access that hits no block is one. -/
def Obligations.HoleRecord : Prop :=
  (∀ (s : State) (m : Master) (k g : Nat), k < 4 → g < 2 ^ 64 → m.idx < 4096 → s.bget R.hubMapHoleInfo 31 = false →
    let t := s.hole m k g
    (t.get R.hubMapHoleAddr).toNat = g ∧ t.bget R.hubMapHoleInfo 31 = true ∧ t.bget R.hubMapHoleInfo 30 = s.bget R.hubMapHoleInfo 30 ∧ t.fget R.hubMapHoleInfo 17 16 = k
    ∧ t.fget R.hubMapHoleInfo 15 12 = classCode m.cls ∧ t.fget R.hubMapHoleInfo 11 0 = m.idx ∧ t.mem = s.mem
    ∧ ∀ r : Reg, r.addr ≠ R.hubMapHoleAddr.addr → r.addr ≠ R.hubMapHoleInfo.addr → t.get r = s.get r)
  ∧ (∀ (s : State) (m : Master) (k g : Nat), s.bget R.hubMapHoleInfo 31 = true →
    let t := s.hole m k g
    t.get R.hubMapHoleAddr = s.get R.hubMapHoleAddr ∧ t.bget R.hubMapHoleInfo 31 = true ∧ t.bget R.hubMapHoleInfo 30 = true
    ∧ t.fget R.hubMapHoleInfo 29 0 = s.fget R.hubMapHoleInfo 29 0 ∧ t.mem = s.mem ∧ ∀ r : Reg, r.addr ≠ R.hubMapHoleInfo.addr → t.get r = s.get r)
  ∧ (∀ (s : State) (m : Master) (a v : W64) (n : Nat), s.powered = true → masterOk m = true → region a.toNat = .regs → regOk a.toNat n = false →
      let u := s.hole m 1 (s.gOwn a.toNat)
      ((m.cls = .tukosen ∨ m.cls = .walker ∨ m.cls = .steward ∨ m.cls = .syncHome ∨ m.cls = .hoist) → exec (.registerWrite m a n v) s = .next u)
      ∧ (m.cls = .host → exec (.registerWrite m a n v) s = .next u.ur)
      ∧ (m.cls = .core → exec (.registerWrite m a n v) s = .next (u.modCore m.idx fun x => x.trap 7 (BitVec.ofNat 64 (s.gOwn a.toNat))))
      ∧ (m.cls = .tile → (u.dressOf m.idx).isSome = true →
        exec (.registerWrite m a n v) s = .next (u.kill m.idx 6 2 0 (BitVec.ofNat 64 (s.gOwn a.toNat)))))

/-- R81: a context kill leaves the contents of local memory, and of every other memory but the response windows of the mailboxes, unchanged. -/
def Obligations.KillKeepsMemory : Prop :=
  (∀ (s : State) (t cause unit detail : Nat) (x : W64) (a : Nat), a < 0x3FF001000000 → mget (s.kill t cause unit detail x).mem a = mget s.mem a)
  ∧ (∀ (s : State) (t cause unit detail : Nat) (x : W64) (q k : Nat), q < 2176 → k < 0x80000 →
      mget (s.kill t cause unit detail x).mem (lmBase q + k) = mget s.mem (lmBase q + k))

/-- Bring-up (R20, R390, R392, R394, R396, R397, R400, R416, R429, R451, R499): what commands end with, and what steps and events of power do, in the cases stated. -/
def Obligations.BringUp : Prop :=
  ((∀ s q u, Begins s q 0x0102 u → exec (.bupStatus q) s = done u q 0x0102 0
    (p32 (u.get R.stwBootStepGo).toNat ++ (p32 (u.get R.stwBootStepDone).toNat ++ p32 (u.get R.stwBootStepFail).toNat) ++ p32 (u.get R.stwBootStatus).toNat
      ++ p32 (u.get R.stwBootShort).toNat ++ p64 (u.get R.stwBootDisagree).toNat ++ (List.range 10).flatMap fun i => p32 (u.get (R.stwBootTime (i + 1))).toNat))
  ∧ (∀ s q u, Begins s q 0x0104 u → u.bget R.stwBootStepDone 2 = true → exec (.bupIdRead q) s = done u q 0x0104 0 u.idReadout)
  ∧ (∀ s q u, Begins s q 0x0104 u → u.bget R.stwBootStepDone 2 = false → exec (.bupIdRead q) s = refused u q 0x0104 0x16)
  ∧ (∀ s q w u, Begins s q 0x8103 u → u.fget R.stwBootStatus 31 29 = 2 → w.toNat = (u.get R.stwBootShort).toNat →
      exec (.bupDegradedAck q w) s = done (u.bset R.stwBootStatus 27 true) q 0x8103 0 [])
  ∧ (∀ s q w u, Begins s q 0x8103 u → u.fget R.stwBootStatus 31 29 = 2 → w.toNat ≠ (u.get R.stwBootShort).toNat →
      exec (.bupDegradedAck q w) s = refused u q 0x8103 0x22)
  ∧ (∀ s q w u, Begins s q 0x8103 u → u.fget R.stwBootStatus 31 29 ≠ 2 → exec (.bupDegradedAck q w) s = refused u q 0x8103 0x0E)
  ∧ (∀ s q u n, Begins s q 0x0101 u → n ∈ [1, 2, 3, 4, 9, 10] → (∀ k, 1 ≤ k → k < n → u.stepGone k = true) → u.stepGone n = false → u.stepStop n = none →
      exec (.bupStepGo q) s = if (u.stepRelease n).stepsOver (2 ^ n) then done (u.stepRelease n) q 0x0101 0 (u.stepRelease n).stepWords
        else .next (awaiting (u.stepRelease n) q.mbx (2 ^ n)))
  ∧ (∀ s q u n, Begins s q 0x8101 u → 1 ≤ n → n ≤ 10 → u.stepGone n = false → u.stepStop n = none →
      exec (.bupStepGoExpert q (2 ^ n)) s = if (u.stepRelease n).stepsOver (2 ^ n) then done (u.stepRelease n) q 0x8101 0 (u.stepRelease n).stepWords
        else .next (awaiting (u.stepRelease n) q.mbx (2 ^ n)))
  ∧ (∀ s q u n, Begins s q 0x8101 u → 1 ≤ n → n ≤ 10 → u.stepGone n = false → u.stepStop n = some 0x20 →
      exec (.bupStepGoExpert q (2 ^ n)) s = refused u q 0x8101 0x20))
  ∧
  ((∀ (s : State) n, 1 ≤ n → n ≤ 10 → s.powered = true → s.bget R.stwStatus 31 = true → s.stepGone n = false → s.stepStop n = none →
      exec (.stepGoWrite (BitVec.ofNat 32 (2 ^ n))) s = .next (s.stepRelease n))
  ∧ (∀ (s : State) n, 1 ≤ n → n ≤ 10 → s.powered = true → s.bget R.stwStatus 31 = true → s.stepGone n = false → s.stepStop n = some 0x20 →
      exec (.stepGoWrite (BitVec.ofNat 32 (2 ^ n))) s = .next (s.bset R.stwBootStatus 28 true))
  ∧ (∀ (s : State) n r, 1 ≤ n → n ≤ 10 → s.powered = true → s.bget R.stwStatus 31 = true → s.rst.hub = false → s.stepGone n = true →
      s.stepDoneB n = false → s.stepFailed n = false →
      (n = 2 → r.obNorth = s.get (R.hubIdOb 0) ∧ r.obSouth = s.get (R.hubIdOb 1)) → (n = 6 → s.sitesSettled = true) → (n = 7 → s.portsSettled = true) →
      ∃ u, stepEffect s n r = some u ∧
        exec (.bootStepComplete n r) s = .next (if n = 10 then (u.stepDone n r.durUs).measDone else u.stepDone n r.durUs))
  ∧ (∀ (s : State) r, s.powered = true → s.bget R.stwStatus 31 = true → s.rst.hub = false → s.stepGone 2 = true →
      s.stepDoneB 2 = false → s.stepFailed 2 = false → ¬(r.obNorth = s.get (R.hubIdOb 0) ∧ r.obSouth = s.get (R.hubIdOb 1)) →
      exec (.bootStepComplete 2 r) s = .next (s.stepFail 2))
  ∧ (∀ (s : State) n, n ∈ [1, 2, 3, 4, 9, 10] → s.powered = true → s.stepGone n = true → s.stepDoneB n = false → s.stepFailed n = false →
      exec (.bootStepTimeout n) s = .next (((((s.bset R.stwBootStepFail n true).fset R.stwBootStatus 31 29 4).log' 0 1 3 [n]).msix 3).stepAnswer))
  ∧ (∀ (s : State) vin straps, s.powered = false → 4600 ≤ vin →
      exec (.powerOn vin true true true straps) s = .next (State.stewardBoot (State.keepRails (State.set
        { s with powered := true, rst := { perst := false, modRst := false }, modReset := false } R.stwLogBoot (s.get R.stwLogBoot + 1))) straps))
  ∧ (∀ (s : State) p us, s.powered = true → 100 ≤ us → s.modReset = false → s.sec.burn = none →
      exec (.moduleReset p us) s = .next (State.set (State.moduleResetGo
        { s with rst := { s.rst with perst := s.rst.perst || p, modRst := s.rst.modRst || !p } }) R.stwLogBoot
          (s.get R.stwLogBoot + 1)))
  ∧ (∀ (s : State) p straps, s.powered = true → s.modReset = true → (if p then s.rst.modRst else s.rst.perst) = false →
      exec (.moduleResetRelease p straps) s = .next (State.stewardBoot
        { s with rst := { s.rst with perst := s.rst.perst && !p, modRst := s.rst.modRst && p }, modReset := false } straps))
  ∧ (∀ (s : State) c, s.powered = true → exec (.powerDown c) s = .next (State.powerOff (s.log' 0 3 8
      [match c with | .below40 => 0 | .overcurrent => 1 | .overvoltage => 2 | .j1Break => 3])))
  ∧ (∀ (s : State) i, s.powered = true → 8000 < i → exec (.overcurrentTrip i) s = .next (s.log' 0 3 9 [i]).powerOff)
  ∧ (∀ (s : State) v us, s.powered = true → 5800 < v → 100 ≤ us → exec (.overvoltageDisconnect v us) s = .next (s.log' 0 3 10 [v]).powerOff)
  ∧ (∀ (s : State), s.powered = true → s.asleep = false → s.modReset = false → s.bget R.hubClkStatus 0 = true →
      exec .rootPllLockLoss s = .next ((s.hubResetGo.log' 0 0 5 []).bset R.hubClkStatus 17 true))
  ∧ (∀ (s : State), s.rst.sched = true → exec .hubResetStart s = .next s.hubResetGo)
  ∧ (∀ (s : State), s.rst.hub = true →
      exec .hubResetComplete s = .next (State.abortAll (State.bset { s with rst := { s.rst with hub := false } } R.cohHostStatus 31 false)))
  ∧ (∀ (s : State) us, s.powered = true → 2000 ≤ us →
      exec (.holdupMeasure us) s = .next ((s.set R.pwrSupplyHoldup (BitVec.ofNat 64 (min us 65535))).bset R.pwrSupplyStatus 29 true))
  ∧ (∀ (s : State) us, s.powered = true → us < 2000 →
      exec (.holdupMeasure us) s = .next (((s.set R.pwrSupplyHoldup (BitVec.ofNat 64 us)).bset R.pwrSupplyStatus 29 false).log' 1 3 7 [us])))

/-- Resets and power states (R429, R431, R433 to R438): what commands and events do where the conditions stated are met. -/
def Obligations.ResetsAndPowerStates : Prop :=
  (∀ s q u, Begins s q 0x0110 u → u.sec.burn = none → u.bget R.safStatus 31 = true → u.resetting q.mbx = false →
      exec (.rstHub q) s = done { u with rst := { u.rst with sched := true } } q 0x0110 0 [])
  ∧ (∀ s q u, Begins s q 0x0110 u → u.sec.burn = none → u.bget R.safStatus 31 = false → exec (.rstHub q) s = refused u q 0x0110 0x0E)
  ∧ (∀ s q d u, Begins s q 0x0111 u → d < 96 → domFixed d = false → ¬(76 ≤ d ∧ d < 84) → u.resetting q.mbx = false → (d < 68 → u.fget R.stwPstate 31 30 ≠ 1) →
      d ∉ u.rst.held → u.bget (R.pwrDomStatus d) 31 = true → (68 ≤ d → d < 70 → u.ssJob = none) →
      exec (.rstRegion q d) s = .next (u.regionGo d (some q.mbx) false))
  ∧ (∀ s q d u, Begins s q 0x0111 u → d < 96 → domFixed d = true → exec (.rstRegion q d) s = refused u q 0x0111 0x23)
  ∧ (∀ s q d u, Begins s q 0x8111 u → d < 96 → domFixed d = false → ¬(76 ≤ d ∧ d < 84) → u.resetting q.mbx = false → (d < 68 → u.fget R.stwPstate 31 30 ≠ 1) →
      d ∉ u.rst.held → u.bget (R.pwrDomStatus d) 31 = true → (68 ≤ d → d < 70 → u.ssJob = none) →
      exec (.rstRegionExpert q d true) s = .next (u.regionGo d (some q.mbx) true))
  ∧ (∀ s q d u, Begins s q 0x8111 u → d < 96 → domFixed d = false → ¬(76 ≤ d ∧ d < 84) → u.resetting q.mbx = false → (d < 68 → u.fget R.stwPstate 31 30 ≠ 1) →
      d ∈ u.rst.held → exec (.rstRegionExpert q d false) s = done (u.regionRelease d) q 0x8111 0 [])
  ∧ (∀ (s : State) d m, d < 96 → tget s.rst.region d = some (some m, false) → 70 ≤ d →
      exec (.regionResetComplete d) s =
        .next (((State.regionOut { s with rst := { s.rst with region := tdel s.rst.region d } } d).axFinish m 0 0 []).heldFlush))
  ∧ (∀ (s : State) d m, d < 68 → tget s.rst.region d = some (some m, false) →
      exec (.regionResetComplete d) s =
        .next ((((State.bistDrop { s with rst := { s.rst with region := tdel s.rst.region d } } d).regionOut d).axFinish m 0 0 []).heldFlush))
  ∧ (∀ s q save u, Begins s q 0x0204 u → u.resetting q.mbx = false → u.drowseOk = true →
      exec (.pwrStateSet q .drowse save) s =
        .next (((State.tilesDown { u with rst := { u.rst with change := none } } (List.range 68)).fset R.stwPstate 31 30 1).axFinish q.mbx 0 0 (p32 1)))
  ∧ (∀ s q save u, Begins s q 0x0204 u → u.resetting q.mbx = false →
      exec (.pwrStateSet q .active save) s =
        .next (((State.tilesUp { u with rst := { u.rst with change := none } }).fset R.stwPstate 31 30 0).axFinish q.mbx 0 0 (p32 0)))
  ∧ (∀ s q save u, Begins s q 0x0204 u → u.resetting q.mbx = false → save % 0x100000 = 0 → u.hbmBacked save = true → u.hbmBacked (save + 0xFFFFF) = true →
      u.bget R.safStatus 30 = false → u.sleepOk = true → u.ssJob = none →
      exec (.pwrStateSet q .sleep save) s = .next (State.sleepGo { u with rst := { u.rst with change := some ⟨q.mbx, .sleep, save, false, false⟩ } }
        ⟨q.mbx, .sleep, save, false, false⟩))
  ∧ (∀ s q save ms w u, Begins s q 0x8204 u → 1 ≤ ms → ms ≤ 1000 → u.resetting q.mbx = false → u.drowseOk = true →
      exec (.pwrStateSetExpert q .drowse save ms w) s =
        .next (((State.tilesDown { u with rst := { u.rst with change := none } } (List.range 68)).fset R.stwPstate 31 30 1).axFinish q.mbx 0 0 (p32 1)))
  ∧ (∀ (s : State) c, s.rst.change = some c → c.going = false → s.asleep = false → s.changeOk c = false →
      exec .pwrStateQuiesceTimeout s = .next (State.axFinish { s with rst := { s.rst with change := none } } c.mbx 4 0x0E []))
  ∧ (∀ (s : State) c, s.rst.change = some c → c.going = false → s.asleep = false → s.changeOk c = true →
      exec .pwrStateQuiesceTimeout s = .next (s.changeGo c))
  ∧ (∀ (s : State) us v ok, s.asleep = true → 10 ≤ us → s.bget R.stwPstate 29 = true → s.rst.save = some v → s.rst.change = none →
      ((List.range 6).any fun t => s.get (R.hbmChmap t) != 0 && !ok.getLsbD t) = false →
      exec (.sleepExit true us ok) s =
        .next ((State.restore (State.wakeRails { s with rst := { s.rst with save := none, change := none } }) v).fset R.stwPstate 31 30 0))
  ∧ (∀ (s : State) us ok, s.asleep = true → 10 ≤ us → s.bget R.stwPstate 29 = true →
      ((List.range 6).any fun t => s.get (R.hbmChmap t) != 0 && !ok.getLsbD t) = true →
      exec (.sleepExit true us ok) s = .next (State.hubResetGo { s with rst := { s.rst with save := none } }))
  ∧ (∀ (s : State) b us, b < 68 → 10 ≤ us → s.tilesOn b = true → s.benchBusy b = false →
      exec (.benchIdle b us) s = .next { s with rst := { s.rst with idle := sIns s.rst.idle b } })

/-- The 52 V input, the connectors' sensors, caps and tokens (R2, R303, R410, R413 to R416, R476, R497). -/
def Obligations.SupplyAndCaps : Prop :=
  ((∀ (s : State) v i, s.powered = true → 4600 ≤ v → v ≤ 5700 → s.bget R.pwrSupplyStatus 31 = false →
      let t := (s.fset R.pwrSupplyStatus 15 0 v).set R.pwrSupplyIin (BitVec.ofNat 64 (i % 65536))
      exec (.supplySample v i) s = .next { (State.bset { t with pwr := { t.pwr with highSeen := false } } R.pwrSupplyStatus 28 false) with
        pwr := { t.pwr with highSeen := false, lowSeen := false } })
  ∧ (∀ (s : State) v i, s.powered = true → v < 4400 → s.bget R.pwrSupplyStatus 31 = false →
      let t := (s.fset R.pwrSupplyStatus 15 0 v).set R.pwrSupplyIin (BitVec.ofNat 64 (i % 65536))
      ∃ u : State, u.pwr = { s.pwr with highSeen := false, lowSeen := true } ∧ u.regs = (t.bset R.pwrSupplyStatus 28 false).regs ∧
        exec (.supplySample v i) s = .next (u.warnEnter v))
  ∧ (∀ (s : State) a d, s.powered = true → s.bget R.pwrSupplyStatus 31 = true → 1000 ≤ a →
      exec (.supplyWarningExit a d) s =
        .next (((((s.bset R.pwrSupplyStatus 31 false).bset R.pwrSupplyStatus 30 false).supplyUse).prbRetry.log' 1 3 11 [d]).burnAgain))
  ∧ (∀ (s : State) a d, a < 1000 → exec (.supplyWarningExit a d) s = .next s)
  ∧ (∀ (s : State) b, s.sec.burn = some b → b.done = 0 → s.bget R.pwrSupplyStatus 31 = true →
      exec .lcBurnSupplyTimeout s = .next (State.axFinish { s with sec := { s.sec with burn := none } } b.mbx 4 0x13 []))
  ∧ (∀ (s : State), s.powered = true → exec (.coolLeak true) s = .next (s.bset R.hubAuxStatus 31 false))
  ∧ (∀ (s : State), s.powered = true → s.bget R.hubAuxStatus 31 = false →
      exec (.coolLeak false) s = .next (((s.bset R.hubAuxStatus 31 true).bset R.hubAuxStatus 30 true).log' 0 0 3 []))
  ∧ (∀ (s : State) a b, s.powered = true → a ≤ 40 →
      exec (.coolantThermistorRead a b) s = .next { ((s.fset R.hubAuxStatus 7 0 a).fset R.hubAuxStatus 15 8 b) with pwr := { s.pwr with hotInlet := false } })
  ∧ (∀ (s : State) a b, s.powered = true → 40 < a → s.pwr.hotInlet = false →
      exec (.coolantThermistorRead a b) s = .next { (((s.fset R.hubAuxStatus 7 0 a).fset R.hubAuxStatus 15 8 b).log' 1 0 4 [a]) with
        pwr := { s.pwr with hotInlet := true } }))
  ∧
  ((∀ s q h w u, Begins s q 0x8201 u → h ≤ u.fusedHub → w ≤ u.fusedSite → u.minHub ≤ h →
      exec (.pwrCapSetExpert q h w) s = done (u.capsUse h w) q 0x8201 0 (p32 h ++ p32 w))
  ∧ (∀ s q h w u, Begins s q 0x8201 u → (u.fusedHub < h ∨ u.fusedSite < w) → exec (.pwrCapSetExpert q h w) s = refused u q 0x8201 0x14)
  ∧ (∀ s q w u, Begins s q 0x0201 u → w ≤ u.fusedModule → 0 < u.fusedModule → u.minHub ≤ u.fusedHub * w / u.fusedModule →
      exec (.pwrCapSet q w) s = done (u.capsUse (u.fusedHub * w / u.fusedModule) (u.fusedSite * w / u.fusedModule)) q 0x0201 0
        (p32 (u.fusedHub * w / u.fusedModule) ++ p32 (u.fusedSite * w / u.fusedModule)))
  ∧ (∀ s q w u, Begins s q 0x0201 u → u.fusedModule < w → exec (.pwrCapSet q w) s = refused u q 0x0201 0x14)
  ∧ (∀ s q u, Begins s q 0x0210 u →
      (∀ p, p < 2 → u.countUe 6 p = false ∧ u.domSum p + u.freeTok p = u.fget (R.pwrPool p) 63 48 + u.fget (R.pwrPool p) 15 0) →
      exec (.pwrTokenAudit q) s = done u q 0x0210 0
        ((List.range 2).flatMap (fun p => p64 (u.get (R.pwrPool p)).toNat) ++ (List.range 96).flatMap fun d => p16 (u.held d))))

/-- Power, duty, temperature and gradient control (R408, R409, R411, R412, R417 to R419): what commands and events do, in the cases stated. -/
def Obligations.PowerAndThermalControl : Prop :=
  (∀ s q f n u, Begins s q 0x0202 u → 1 ≤ n → f + n ≤ 96 → exec (.pwrDomainStatus q f n) s = done u q 0x0202 0
      ((List.range n).flatMap fun i => p32 (u.get (R.pwrDomStatus (f + i))).toNat))
  ∧ (∀ s q c u, Begins s q 0x0203 u → 1 ≤ c → c ≤ 16 → exec (.pwrThrottleSet q c) s = done (u.setCeils (List.replicate 68 c)) q 0x0203 0 [])
  ∧ (∀ s q c u, Begins s q 0x0203 u → 16 < c → exec (.pwrThrottleSet q c) s = .next (u.axEnd q.mbx (hdr q 0x0203) 2 0 []))
  ∧ (∀ s q cs l u, Begins s q 0x8203 u → cs.length = 68 → (∀ c ∈ cs, 1 ≤ c ∧ c ≤ 16) → 70 ≤ l → l ≤ 100 →
      exec (.pwrThrottleSetExpert q cs l) s = done ((u.setCeils cs).fset R.pwrThermCfg 7 0 l) q 0x8203 0 [])
  ∧ (∀ s q u, Begins s q 0x0240 u → exec (.thmStatus q) s = done u q 0x0240 0
      ((List.range 68).flatMap (fun b => p32 (u.get (R.pwrBenchTemp b)).toNat) ++ (List.range 6).flatMap (fun t => leBytes 1 (u.fget (R.hbmStatus t) 15 8))
        ++ (List.range 8).flatMap (fun n => leBytes 1 (u.fget (R.sitePwr n) 7 0)) ++ leBytes 2 (u.fget R.hubMemStatus 29 26)))
  ∧ (∀ (s : State) d, s.bget R.safStatus 29 = true → exec (.benchPoolDivide d) s = .next (s.tokenCheck 0))
  ∧ (∀ (s : State) d b, s.bget R.safStatus 29 = false → (List.range 68).filter s.tilesOn = [b] → s.bistBenches.contains b = false → d.getD b 0 ≠ 0 →
      let fixed := ((List.range 96).filter fun d => decide (68 ≤ d) && poolOf d == 0).foldl (fun n d => n + s.held d) 0
      exec (.benchPoolDivide d) s = .next ((s.grantBench b (s.benchFloor + (s.fget (R.pwrPool 0) 63 48 - fixed - s.benchFloor))).tokenCheck 0))
  ∧ (∀ (s : State) b st dy, b < 68 → s.tilesOn b = true →
      let v := State.setDuty { s with pwr := { s.pwr with gov := tset s.pwr.gov b 0 (fitDuty (s.fget (R.pwrBenchDuty b) 31 21) st dy) } } b
      exec (.benchGovernor b st dy) s = .next ((if s.fget (R.pwrBenchDuty b) 31 21 < v.held b then v.hold b (s.fget (R.pwrBenchDuty b) 31 21) else v).tokenCheck 0))
  ∧ (∀ (s : State) mw, 103 * 125 * s.fget (R.pwrPool 0) 63 48 < 100 * mw →
      exec (.estimatorCalibration mw) s = .next (State.log' { s with pwr := { s.pwr with calib := s.pwr.calib + 1 } } 1 3 1 [mw]))
  ∧ (∀ (s : State) mw, 100 * mw ≤ 103 * 125 * s.fget (R.pwrPool 0) 63 48 → exec (.estimatorCalibration mw) s = .next s)
  ∧ (∀ (s : State) b ms, b < 68 → s.domUp b = true → s.fget R.pwrThermCfg 7 0 < s.benchTemp b →
      exec (.benchThermalGovernor b ms) s =
        .next (State.setDuty { s with pwr := { s.pwr with therm := tset s.pwr.therm b 16 (tgetD s.pwr.therm b 16 - 1) } } b))
  ∧ (∀ (s : State) b ms, b < 68 → s.domUp b = true → s.benchTemp b + 2 < s.fget R.pwrThermCfg 7 0 → tgetD s.pwr.therm b 16 < 16 → 1 ≤ ms →
      exec (.benchThermalGovernor b ms) s =
        .next (State.setDuty { s with pwr := { s.pwr with therm := tset s.pwr.therm b 16 (tgetD s.pwr.therm b 16 + 1) } } b))
  ∧ (∀ (s : State) b ms, b < 68 → 10 ≤ ms → s.bget (R.pwrBenchTemp b) 16 = false →
      5 < gap (s.fget (R.pwrBenchTemp b) 7 0) (s.fget (R.pwrBenchTemp b) 15 8) →
      exec (.sensorDiverge b ms) s = .next ((s.bset (R.pwrBenchTemp b) 16 true).log' 1 3 2 [b]))
  ∧ (∀ (s : State) a b x y, adjacent a b = true → s.domUp a = true → s.domUp b = true →
      exec (.gradientCheck a b x y) s = .next ((s.gradOne a b x y 0).gradOne a b x y 1))
  ∧ (∀ (s : State) a b x y, tget s.pwr.pairs (2 * (68 * min a b + max a b)) = none → 25 < gap (s.benchTemp a) (s.benchTemp b) →
      4 < tgetD s.pwr.grad (2 * (68 * min a b + max a b)) 16 →
      s.gradOne a b x y 0 = s.gradSet (2 * (68 * min a b + max a b)) (if s.benchTemp a < s.benchTemp b then b else a) 4 1)
  ∧ (∀ (s : State) a b x y h, tget s.pwr.pairs (2 * (68 * min a b + max a b)) = some h → gap (s.benchTemp a) (s.benchTemp b) ≤ 22 → gap x y ≤ 60 →
      s.tclkMs ≤ s.since (tgetD s.pwr.gradAt (2 * (68 * min a b + max a b)) 0) → tgetD s.pwr.grad (2 * (68 * min a b + max a b)) 16 < 15 →
      s.gradOne a b x y 0 = s.gradSet (2 * (68 * min a b + max a b)) h (tgetD s.pwr.grad (2 * (68 * min a b + max a b)) 16 + 1) 1)
  ∧ (∀ (s : State) a b x y, adjacent a b = true → s.domUp a = true → s.domUp b = true →
      exec (.gradientEscalate a b x y) s = .next ((s.gradEsc a b x y 0).gradEsc a b x y 1))
  ∧ (∀ (s : State) a b x y h, tget s.pwr.pairs (2 * (68 * min a b + max a b)) = some h → 25 < gap (s.benchTemp a) (s.benchTemp b) →
      s.tclkMs ≤ s.since (tgetD s.pwr.gradAt (2 * (68 * min a b + max a b)) 0) → tgetD s.pwr.grad (2 * (68 * min a b + max a b)) 16 ≠ 0 →
      s.gradEsc a b x y 0 = s.gradSet (2 * (68 * min a b + max a b)) h 0 0)

/-- Ageing, re-plans and telemetry (R421 to R428): what commands and events do, in the cases stated. -/
def Obligations.AgeingAndTelemetry : Prop :=
  (∀ s q u c, Begins s q 0x0230 u → u.pwr.copy = some c → exec (.ageStatus q) s = done u q 0x0230 0
      (p32 (u.get R.agePlanStatus).toNat ++ u.prbBytes (planBase c) 100 ++ (List.range 96).flatMap fun d => leBytes 2 (u.fget (R.ageMon d) 15 0)))
  ∧ (∀ s q u, Begins s q 0x0231 u → u.pwr.replan = none → u.pwr.replanHeld = none → u.pwr.commitAt = none → u.bget R.pwrSupplyStatus 31 = false →
      exec (.ageReplan q) s = .next (u.replanGo (some q.mbx)))
  ∧ (∀ s q u, Begins s q 0x0231 u → u.pwr.replan = none → u.pwr.replanHeld = none → u.pwr.commitAt = none → u.bget R.pwrSupplyStatus 31 = true →
      exec (.ageReplan q) s = .next (State.axEnd { u with pwr := { u.pwr with replanHeld := some ⟨none, [], [], []⟩ } } q.mbx (hdr q 0x0231) 7 0 []))
  ∧ (∀ s q u r, Begins s q 0x0231 u → u.pwr.replan = some r → exec (.ageReplan q) s = .next (u.axEnd q.mbx (hdr q 0x0231) 3 0 []))
  ∧ (∀ s q p g u, Begins s q 0x8231 u → 24 ≤ p → p ≤ 2160 → 10 ≤ g → g ≤ 100 → u.pwr.replan = none → u.pwr.replanHeld = none → u.pwr.commitAt = none →
      u.bget R.pwrSupplyStatus 31 = false → exec (.ageReplanExpert q p g) s = .next ((u.set R.ageCfg (BitVec.ofNat 64 (p * 65536 + g))).replanGo (some q.mbx)))
  ∧ (∀ (s : State) r, s.pwr.replanHeld = some r → s.bget R.pwrSupplyStatus 31 = false → s.pwr.replan = none →
      exec .replanRestart s = .next (State.replanGo { s with pwr := { s.pwr with replanHeld := none } } r.mbx))
  ∧ (∀ (s : State) r, s.pwr.replan = some r → r.low ≠ [] →
      let bad := r.low.filter fun d => !(s.pwr.seen.contains d
        && decide ((s.fget R.ageCfg 15 0 : Int) ≤ (BitVec.ofNat 16 (s.fget (R.ageMon d) 15 0)).toInt))
      let back (t : Tbl PlanE) : Tbl PlanE := bad.foldl (fun t d => tput t d (tgetD r.old d ⟨0, 0, 0⟩)) t
      exec .replanLoweringVerify s = .next ((s.planUse (back s.pwr.plan)).planCommit { r with new := back r.new }))
  ∧ (∀ (s : State) d x, d < 96 → s.domUp d = true → d ∉ s.pwr.seen → tget s.pwr.slackRec d = none →
      exec (.ageMonitorRead d x) s = .next (State.fset { s with pwr := { s.pwr with seen := sIns s.pwr.seen d, slackRec := tput s.pwr.slackRec d x.toNat } }
        (R.ageMon d) 15 0 x.toNat))
  ∧ (∀ (s : State) d x, d < 96 → s.domUp d = true → d ∈ s.pwr.seen → tget s.pwr.slackRec d = none →
      exec (.ageMonitorRead d x) s = .next (State.fset { s with pwr := { s.pwr with seen := sIns s.pwr.seen d, slackRec := tput s.pwr.slackRec d x.toNat } }
        (R.ageMon d) 15 0 (if (BitVec.ofNat 16 (s.fget (R.ageMon d) 15 0)).toInt ≤ x.toInt then BitVec.ofNat 16 (s.fget (R.ageMon d) 15 0) else x).toNat))
  ∧ (∀ (s : State), s.powered = true → (s.pwr.replan.isSome = true ∨ s.bget R.pwrSupplyStatus 31 = true) →
      let h := max (s.get R.ageHours).toNat s.hoursKept + 1
      exec .serviceHourTick s = .next ((s.set R.ageHours (BitVec.ofNat 64 (h % 2 ^ 32))).prbJob 101
        [PWrite.mk (0x1F0 + h % 8) (BitVec.ofNat 32 h) none false] .plain))
  ∧ (∀ s q m u, Begins s q 0x0901 u → m < 1024 → nbit m 4 = false → exec (.telRead q m) s = done u q 0x0901 0 (u.telRecord m 0))
  ∧ (∀ s q m u, Begins s q 0x0901 u → m < 1024 → nbit m 4 = true →
      exec (.telRead q m) s = done { u with freeCtr := u.freeCtr + 192 } q 0x0901 0 (u.telRecord m 0))
  ∧ (∀ s q g k p u, Begins s q 0x0902 u → 1 ≤ p → p ≤ 10000 → 4 ≤ k → k ≤ 16 →
      exec (.telStreamSet q g k p) s = done { u with pwr := { u.pwr with tel := some ⟨g, k, p, 0x3FF, 3, 0, 0⟩ } } q 0x0902 0 [])
  ∧ (∀ s q g k u, Begins s q 0x0902 u → exec (.telStreamSet q g k 0) s = done { u with pwr := { u.pwr with tel := none } } q 0x0902 0 [])
  ∧ (∀ s q g k p m c u, Begins s q 0x8902 u → 1 ≤ p → p ≤ 10000 → 4 ≤ k → k ≤ 16 → m < 1024 → c ≤ 3 →
      exec (.telStreamSetExpert q g k p m c) s = done { u with pwr := { u.pwr with tel := some ⟨g, k, p, m, c, 0, 0⟩ } } q 0x8902 0 [])
  ∧ (∀ (s : State) t, s.pwr.tel = some t →
      let bs := s.telRecord t.mask t.seq
      let g := (t.ring.toNat + t.slot * bs.length) % 2 ^ 64
      s.gHole g bs.length = false → (s.isOwn g && s.libHit (gLocal g) bs.length) = false → s.gRoom g bs.length = true →
      let w := ((s.telDrew t.mask).gWrite ⟨.steward, 0⟩ (2 ^ 41) g t.tc bs false).1
      exec .telemetryRecord s = .next { w with pwr := { w.pwr with
        tel := some { t with seq := (t.seq + 1) % 2 ^ 32, slot := (t.slot + 1) % 2 ^ t.k }, slackRec := [] } })

/-- The persistent register block and the event log (R439 to R444): what commands and events do, in the cases stated. -/
def Obligations.PersistentBlockAndLog : Prop :=
  (∀ s q f n u, Begins s q 0x0A01 u → 1 ≤ n → n ≤ 1020 → f + n ≤ 1024 → exec (.prbRead q f n) s = done u q 0x0A01 0 ((List.range n).flatMap fun i =>
      p32 (if q.mbx < 24 ∧ 0x10 ≤ f + i ∧ f + i < 0x80 then 0 else (u.get (R.prbWord (f + i))).toNat % 2 ^ 32)))
  ∧ (∀ s q f vs u, Begins s q 0x0A02 u → 1 ≤ vs.length → vs.length ≤ 64 → 0x80 ≤ f → f + vs.length ≤ 0x100 → u.bget R.pwrSupplyStatus 31 = false →
      (∀ w, f ≤ w → w < f + vs.length → u.worn w = false) →
      exec (.prbWrite q f vs) s = .next (u.prbJob q.mbx ((vs.zipIdx.map fun p : W32 × Nat => (f + p.2, p.1)).map fun p : Nat × W32 =>
        PWrite.mk p.1 p.2 (some (q.mbx, q.tag, q.seq)) false) (.words f vs.length)))
  ∧ (∀ s q f vs u, Begins s q 0x0A02 u → 1 ≤ vs.length → vs.length ≤ 64 → (f < 0x80 ∨ 0x100 < f + vs.length) →
      exec (.prbWrite q f vs) s = refused u q 0x0A02 0x21)
  ∧ (∀ s q u, Begins s q 0x0A03 u → exec (.prbWear q) s = done u q 0x0A03 0
      ((List.range 16).flatMap (fun p => p32 (u.get (R.prbWear p)).toNat) ++ p32 (u.get R.prbStatus).toNat))
  ∧ (∀ (s : State) w v, 0x80 ≤ w → w < 0x100 → s.bget R.pwrSupplyStatus 31 = false → s.worn w = false →
      exec (.prbRwpWrite w v) s = .next (State.prbShow { s with prb := { s.prb with q := s.prb.q ++ [PWrite.mk w v none false] } }))
  ∧ (∀ (s : State) w v, 0x80 ≤ w → w < 0x100 → s.bget R.pwrSupplyStatus 31 = true →
      exec (.prbRwpWrite w v) s = .next ((s.bset R.prbStatus 29 true).bump R.prbDropped 32 1))
  ∧ (∀ (s : State) w v, 0x80 ≤ w → w < 0x100 → s.bget R.pwrSupplyStatus 31 = false → s.worn w = true →
      exec (.prbRwpWrite w v) s = .next (((s.bset R.prbStatus 30 true).bump R.prbDropped 32 1).log' 0 2 1 [w]))
  ∧ (∀ (s : State) p r, s.prb.q = p :: r → s.prb.run = true →
      let t := (State.prbWord1 { s with prb := { s.prb with q := r, run := false } } p).prbFeed
      exec .prbWriteComplete s = .next ((t.prb.jobs.map fun e : Nat × PJob => e.1).foldl State.prbJobEnd t))
  ∧ (∀ s q f n u, Begins s q 0x0803 u → 1 ≤ n → n ≤ 127 → exec (.diagLogRead q f n) s = done u q 0x0803 0 (((u.log.reverse.filter fun e =>
      decide (e.seq ≤ f) && (decide (24 ≤ q.mbx) || e.tenancy == (u.get R.stwLogTenancy).toNat)).take n).flatMap logBytes))

/-- Bandwidth and capacity regulation (R376, R379, R381, R382, R386): what commands and events do, in the cases stated. -/
def Obligations.Regulation : Prop :=
  (∀ s q p a b r u, Begins s q 0x0320 u → p < 16 → a ≤ b → b < 150 → r < 65536 → (u.setRates p r r).bget R.regStatus 63 = false →
      exec (.regPartSet q p a b r) s = done ((u.setRates p r r).setSrcs p a b) q 0x0320 0 [])
  ∧ (∀ s q p a b r u, Begins s q 0x0320 u → p < 16 → a ≤ b → b < 150 → r < 65536 → (u.setRates p r r).bget R.regStatus 63 = true →
      exec (.regPartSet q p a b r) s = refused u q 0x0320 0x20)
  ∧ (∀ s q p a b rn rs bu sh ql u, Begins s q 0x8320 u → p < 16 → a ≤ b → b < 150 → rn < 65536 → rs < 65536 → 1 ≤ bu → bu < 65536 → 1 ≤ sh → sh < 256 →
      ql < 0x400 → (u.setRates p rn rs).bget R.regStatus 63 = false →
      exec (.regPartSetExpert q p a b rn rs bu sh ql) s = done (((((u.setRates p rn rs).setSrcs p a b).fset (R.regPartC0 p) 47 32 bu).fset
        (R.regPartShare p) 7 0 sh).fset (R.regPartQ p) 9 0 ql) q 0x8320 0 [])
  ∧ (∀ s q a b c u, Begins s q 0x0321 u → 1 ≤ a → a < 256 → 1 ≤ b → b < 256 → 1 ≤ c → c < 256 →
      exec (.regClassSet q a b c) s = done (u.set R.regClassW (BitVec.ofNat 64 (c * 65536 + b * 256 + a))) q 0x0321 0 [])
  ∧ (∀ s q a b c hi lo st u, Begins s q 0x8321 u → 1 ≤ a → a < 256 → 1 ≤ b → b < 256 → 1 ≤ c → c < 256 → lo < hi → hi < 16 → 1 ≤ st → st < 256 →
      exec (.regClassSetExpert q a b c hi lo st) s = done ((u.set R.regClassW (BitVec.ofNat 64 (c * 65536 + b * 256 + a))).set R.regCongCfg
        (BitVec.ofNat 64 (hi * 4096 + lo * 256 + st))) q 0x8321 0 [])
  ∧ (∀ s q u, Begins s q 0x0322 u → ∃ p, exec (.regStatus q) s = done u q 0x0322 0 (p64 (u.get R.regStatus).toNat ++ p))
  ∧ (∀ s q p e u, Begins s q 0x0323 u → p < 16 → e ≤ 8 → exec (.regSsShare q p e) s = done (u.fset (R.regPartSs p) 6 0 (8 * e)) q 0x0323 0 [])
  ∧ (∀ s q ws u, Begins s q 0x8323 u → ws.length = 16 → (∀ w ∈ ws, w ≤ 64) →
      exec (.regSsShareExpert q ws) s = done ((List.range 16).foldl (fun s p => s.fset (R.regPartSs p) 6 0 (ws.getD p 0)) u) q 0x8323 0 [])
  ∧ (∀ (s : State) lv d, s.fget R.regCongCfg 15 12 ≤ lv →
      exec (.regWindowUpdate 0 lv d) s = .next (State.winOpen ((State.fset { s with regDemand := tput s.regDemand 0 ((d.filter fun d => decide (d < 600) && d % 4 != 0).foldl sIns []) } R.regStatus 15 0
        (max (64 * s.fget R.hubMemStatus 23 16 / 16) (s.fget R.regStatus 15 0 - s.fget R.regStatus 15 0 / 8))).fset R.regStatus 35 32 (min 15 lv)) 0).regPump)
  ∧ (∀ (s : State) lv d, lv < s.fget R.regCongCfg 15 12 → lv ≤ s.fget R.regCongCfg 11 8 →
      exec (.regWindowUpdate 1 lv d) s = .next (State.winOpen ((State.fset { s with regDemand := tput s.regDemand 1 ((d.filter fun d => decide (d < 600) && d % 4 != 0).foldl sIns []) } R.regStatus 31 16
        (min (64 * s.fget R.hubMemStatus 15 8)
          (s.fget R.regStatus 31 16 + 64 * s.fget R.hubMemStatus 15 8 * s.fget R.regCongCfg 7 0 / 256))).fset R.regStatus 39 36 (min 15 lv)) 1).regPump)

/-- The scalar unit (R65, R120): each of the 28 functions writes its result to sd and closes its bundle. -/
def Obligations.ScalarUnit : Prop :=
  ∀ (i : Instr) (t : Nat) (b : W64) (f : Nat) (imm : Bool) (s : State), aluRow i = some (t, b, f, imm) → t < 2176 →
    cOp b = (if imm then 2 else 1) → nbits (cSlot b) 14 11 = f → Due s t b 2 →
    let u := opened s t b 2
    let d := nbits (cSlot b) 10 6
    let y := if imm then BitVec.ofNat 32 (nbits (cSlot b) 5 1) else u.sr t (nbits (cSlot b) 5 1)
    exec i s = .next ((u.setSr t d (aluVal f (u.sr t d) y)).next t)

/-- Constants, local loads and stores, branches, loops, signals, waits, releases, fences and the tile's own registers: the effect of each control slot. -/
def Obligations.ControlSlot : Prop :=
  (∀ (s : State) t b, t < 2176 → cOp b = 0x00 → Due s t b 2 → exec (.nop t b) s = .next ((opened s t b 2).next t))
  ∧ (∀ (s : State) t b, t < 2176 → cOp b = 0x03 → Due s t b 2 → exec (.lil t b) s =
      .next (((opened s t b 2).setSr t (nbits (cSlot b) 14 10) (BitVec.ofInt 32 (sext 10 (nbits (cSlot b) 9 0)))).next t))
  ∧ (∀ (s : State) t b, t < 2176 → cOp b = 0x04 → Due s t b 2 → exec (.lis t b) s =
      .next (((opened s t b 2).setSr t (nbits (cSlot b) 14 10)
        (BitVec.ofNat 32 (((opened s t b 2).sr t (nbits (cSlot b) 14 10)).toNat * 1024 + nbits (cSlot b) 9 0))).next t))
  ∧ (∀ (s : State) t b, t < 2176 → cOp b = 0x05 → Due s t b 2 → exec (.addi t b) s =
      .next (((opened s t b 2).setSr t (nbits (cSlot b) 14 10)
        (BitVec.ofInt 32 (((opened s t b 2).sr t (nbits (cSlot b) 14 10)).toNat + sext 10 (nbits (cSlot b) 9 0)))).next t))
  ∧ (∀ (s : State) t b, t < 2176 → cOp b = 0x06 → Due s t b 2 →
      let u := opened s t b 2
      let a := ((u.sr t (nbits (cSlot b) 9 5)).toNat + 4 * nbits (cSlot b) 4 0) % 0x80000
      let v := (u.lmMeetAt t a 4).served t 2
      a % 4 = 0 → v.lmBad t a 4 = false →
      exec (.ld t b) s = .next ((v.setSr t (nbits (cSlot b) 14 10) (BitVec.ofNat 32 (leNat (v.lmRead t a 4)))).next t))
  ∧ (∀ (s : State) t b, t < 2176 → cOp b = 0x07 → Due s t b 2 →
      let u := opened s t b 2
      let a := ((u.sr t (nbits (cSlot b) 9 5)).toNat + 4 * nbits (cSlot b) 4 0) % 0x80000
      a % 4 = 0 → exec (.st t b) s = .next (((u.seqStore t a (leBytes 4 (u.sr t (nbits (cSlot b) 14 10)).toNat) false).served t 2).next t))
  ∧ (∀ (s : State) t b k e g ck l, t < 2176 → cOp b = 0x08 → Due s t b 2 →
      let u := opened s t b 2
      let va := u.gva t (cSlot b)
      let w := u.lookupDone t 0 va false
      let a := gLocal g
      va % 4 = 0 → u.lookup t va false = .hit k e g → w.isOwn g = true → region a = .hbm → w.accHole a 4 .read = false → isLm (w.home a) = false →
      w.allocates g e.nc = true → w.cacheFind t a = some (ck, l) → l.perr = false →
      exec (.gld t b) s = .next ((((w.modTile t fun x => { x with cache := tput x.cache ck { l with used := true } }).bump (R.tileCacheHit t) 32 1).setSr t
        (nbits (cSlot b) 14 10) (BitVec.ofNat 32 (l.data.toNat / 2 ^ (8 * (a % 128))))).next t))
  ∧ (∀ (s : State) t b k e g, t < 2176 → cOp b = 0x09 → Due s t b 2 →
      let u := opened s t b 2
      let va := u.gva t (cSlot b)
      let w := u.lookupDone t 0 va true
      let a := gLocal g
      let v := w.sr t (nbits (cSlot b) 14 10)
      va % 4 = 0 → u.lookup t va true = .hit k e g → w.isOwn g = true → region a = .hbm →
      w.accHole a 4 (.write (leBytes 4 v.toNat)) = false → isLm (w.home a) = false →
      exec (.gst t b) s = .next (((w.cacheStore t a v).missPut t k
        { line := lineOf a, cached := false, store := true, sd := 0, off := a % 128, tlb := none, req := none, va := va, data := v }).next t))
  ∧ (∀ (s : State) t b, t < 2176 → cOp b = 0x0A → Due s t b 2 → exec (.brz t b) s = .next
      (if (opened s t b 2).sr t (nbits (cSlot b) 14 10) = 0 then (opened s t b 2).branch t (sext 10 (nbits (cSlot b) 9 0)) else (opened s t b 2).next t))
  ∧ (∀ (s : State) t b, t < 2176 → cOp b = 0x0B → Due s t b 2 → exec (.brnz t b) s = .next
      (if (opened s t b 2).sr t (nbits (cSlot b) 14 10) ≠ 0 then (opened s t b 2).branch t (sext 10 (nbits (cSlot b) 9 0)) else (opened s t b 2).next t))
  ∧ (∀ (s : State) t b, t < 2176 → cOp b = 0x0E → Due s t b 2 →
      exec (.jmp t b) s = .next ((opened s t b 2).branch t (sext 15 (nbits (cSlot b) 14 0))))
  ∧ (∀ (s : State) t b, t < 2176 → cOp b = 0x0C → Due s t b 2 →
      let u := opened s t b 2
      let lv := nbits (cSlot b) 14 13
      let n := nbits (cSlot b) 7 3 + 1
      let c := (u.sr t (nbits (cSlot b) 12 8)).toNat
      u.loopBad t lv n = false → exec (.loopOp t b) s = .next (if c = 0 then u.fall t (u.pc t + n) else
        State.finishB ((((u.set (R.tileSeqLoop t lv) (BitVec.ofNat 64 c)).set (R.tileSeqLoopb t lv)
          (BitVec.ofNat 64 ((u.pc t + n) % 65536 * 65536 + (u.pc t + 1) % 65536))).bset (R.tileSeqStatus t) (16 + lv) true).modTile t
            fun x => { x with loopOrd := lv :: x.loopOrd }) t (u.pc t + 1)))
  ∧ (∀ (s : State) t b, t < 2176 → cOp b = 0x0D → Due s t b 2 →
      let u := opened s t b 2
      let lv := nbits (cSlot b) 14 13
      let n := nbits (cSlot b) 4 0 + 1
      u.loopBad t lv n = false → exec (.loopi t b) s = .next (
        State.finishB ((((u.set (R.tileSeqLoop t lv) (BitVec.ofNat 64 (nbits (cSlot b) 12 5 + 1))).set (R.tileSeqLoopb t lv)
          (BitVec.ofNat 64 ((u.pc t + n) % 65536 * 65536 + (u.pc t + 1) % 65536))).bset (R.tileSeqStatus t) (16 + lv) true).modTile t
            fun x => { x with loopOrd := lv :: x.loopOrd }) t (u.pc t + 1)))
  ∧ (∀ (s : State) t b, t < 2176 → cOp b = 0x0F → Due s t b 2 →
      let u := opened s t b 2
      let o := (u.sr t (nbits (cSlot b) 14 10)).toNat
      let w := u.modTile t fun x => { x with sigq := x.sigq ++ [(o, BitVec.ofNat 64 (u.sr t (nbits (cSlot b) 9 5)).toNat,
        ((u.tile t).misses.filter (fun e => e.2.store && !e.2.dead)).map (·.1))] }
      o ≤ 8191 → exec (.sig t b) s = .next ((w.sigFlush t (w.tile t).sigq.length).next t))
  ∧ (∀ (s : State) t b, t < 2176 → cOp b = 0x10 → Due s t b 2 →
      let u := opened s t b 2
      let w := u.modTile t fun x => { x with sigq := x.sigq ++ [(nbits (cSlot b) 14 2, BitVec.ofNat 64 (nbits (cSlot b) 1 0 + 1),
        ((u.tile t).misses.filter (fun e => e.2.store && !e.2.dead)).map (·.1))] }
      exec (.sigi t b) s = .next ((w.sigFlush t (w.tile t).sigq.length).next t))
  ∧ (∀ (s : State) t b, t < 2176 → cOp b = 0x11 → Due s t b 2 → exec (.waitOp t b) s = .next ((opened s t b 2).next t))
  ∧ (∀ (s : State) t b k d, t < 2176 → cOp b = 0x12 → Due s t b 2 →
      let u := opened s t b 2
      let p := nbits (cSlot b) 14 13
      let n := nbits (cSlot b) 12 0
      u.bget (R.tileSinCfg t p) 31 = true → u.bget (R.tileSinCfg t p) 30 = true → n ≤ u.fget (R.tileSinStat t p) 28 16 → u.countUe 4 (4 * t + p) = false →
      u.dressOf t = some (k, d) →
      exec (.rel t b) s = .next (State.next ((u.set (R.tileSinStat t p)
        (setFld (setFld (u.get (R.tileSinStat t p)) 28 16 (u.fget (R.tileSinStat t p) 28 16 - n)) 12 0 (u.fget (R.tileSinStat t p) 12 0 + n))).creditBack d
          (tgetD (u.tile t).sinSrc p 0) n) t))
  ∧ (∀ (s : State) t b, t < 2176 → cOp b = 0x13 → Due s t b 2 → exec (.fence t b) s = .next ((opened s t b 2).next t))
  ∧ (∀ (s : State) t b, t < 2176 → cOp b = 0x14 → Due s t b 2 →
      let r := (opened s t b 2).regRead (0x3FF100000000 + 0x100000 * t + 8 * nbits (cSlot b) 9 0) 4
      exec (.trr t b) s = .next ((r.2.setSr t (nbits (cSlot b) 14 10) (BitVec.ofNat 32 r.1)).next t))
  ∧ (∀ (s : State) t b, t < 2176 → cOp b = 0x15 → Due s t b 2 → exec (.trw t b) s = .next (((opened s t b 2).regWrite
      (0x3FF100000000 + 0x100000 * t + 8 * nbits (cSlot b) 9 0) 4 ((opened s t b 2).sr t (nbits (cSlot b) 14 10)).toNat).next t))
  ∧ (∀ (s : State) t b, t < 2176 → cOp b = 0x16 → Due s t b 2 →
      exec (.cinv t b) s = .next (((opened s t b 2).modTile t fun x => { x with cache := [] }).next t))
  ∧ (∀ (s : State) t b, t < 2176 → cOp b = 0x17 → Due s t b 2 → ∃ w, exec (.endOp t b) s = .next w ∧ w.running t = false
      ∧ w.bget (R.tileSeqStatus t) 30 = true ∧ w.fget (R.tileSeqStatus t) 27 24 = 0 ∧ w.pc t = ((opened s t b 2).pc t + 1) % 65536)

/-- The next bundle (R104, R105, R123 to R125): on by one, a taken branch counted from its own bundle, or a loop's body once more until its count is done. -/
def Obligations.BundleSequence : Prop :=
  (∀ (s : State) (t : Nat), (s.tile t).loopOrd = [] → s.pc t < 0xFFFF →
    let u := s.next t
    u.pc t = s.pc t + 1 ∧ u.fget (R.tileSeqStatus t) 27 24 = 0 ∧ u.bget (R.tileSeqStatus t) 31 = s.bget (R.tileSeqStatus t) 31
      ∧ u.fget (R.tileSeqStatus t) 19 16 = s.fget (R.tileSeqStatus t) 19 16
      ∧ (u.get (R.tileSeqIssued t)).toNat = min (2 ^ 32 - 1) ((s.get (R.tileSeqIssued t)).toNat + 1)
      ∧ (u.tile t).bundle = none ∧ u.mem = s.mem ∧ ∀ q, q ≠ t → u.tile q = s.tile q)
  ∧
  (∀ (s : State) (t : Nat) (off : Int), (s.tile t).loopOrd = [] →
    (0 ≤ (s.pc t : Int) + off → (s.pc t : Int) + off ≤ 0xFFFF → ((s.branch t off).pc t : Int) = s.pc t + off)
    ∧ (((s.pc t : Int) + off < 0 ∨ 0xFFFF < (s.pc t : Int) + off) →
      s.branch t off = State.kill (s.modTile t fun x => { x with codeOld := [], loopBuf := [] }) t 9 2 0 (BitVec.ofNat 64 (8 * s.pc t))))
  ∧
  (∀ (s : State) (t n : Nat) (ns : List Nat), t < 2176 → n < 4 → (s.tile t).loopOrd = n :: ns → s.loopLast t n = s.pc t →
    (1 < (s.get (R.tileSeqLoop t n)).toNat → (s.get (R.tileSeqLoop t n)).toNat < 2 ^ 32 →
      (s.next t).pc t = s.loopFirst t n ∧ ((s.next t).get (R.tileSeqLoop t n)).toNat = (s.get (R.tileSeqLoop t n)).toNat - 1)
    ∧ ((s.get (R.tileSeqLoop t n)).toNat ≤ 1 → ns = [] → s.pc t < 0xFFFF →
      (s.next t).pc t = s.pc t + 1 ∧ (s.next t).bget (R.tileSeqStatus t) (16 + n) = false))

/-- The vector engine lane by lane (R53, R54, R65, R113): each V3 row writes to every lane of vd its function of the lanes of va, vb and vd, and nothing else. -/
def Obligations.VectorLanes : Prop :=
  (∀ (i : Instr) (t : Nat) (b : W64) (op : Nat) (s : State), laneRow i = some (t, b, op) → t < 2176 → vOp b = op → Due s t b 1 →
    let u := opened s t b 1
    let v := vSlot b
    let r (l : Nat) : Nat × Nat := laneVal op (u.ftz t) (u.vmode t v) (u.vr t (nbits v 12 8) l).toNat (u.vr t (nbits v 7 3) l).toNat
      (u.vr t (nbits v 17 13) l).toNat
    exec i s = .next (u.slotRun t 1 fun u => (u.setVrow t (nbits v 17 13) ((List.range 64).map fun l => BitVec.ofNat 32 (r l).1)).flagV t
      ((List.range 64).foldl (fun f l => f ||| (r l).2) 0)))
  ∧
  (∀ (s : State) (t r : Nat) (vs : List W32), t < 2176 → vs.length = 64 →
    (∀ l, l < 64 → (s.setVrow t r vs).vr t r l = vs.getD l 0)
    ∧ (∀ q l, q ≠ r → l < 64 → (s.setVrow t r vs).vr t q l = s.vr t q l)
    ∧ (∀ a i j, (s.setVrow t r vs).acc t a i j = s.acc t a i j) ∧ (∀ k, (s.setVrow t r vs).sr t k = s.sr t k)
    ∧ (∀ q, q ≠ t → (s.setVrow t r vs).tile q = s.tile q) ∧ (s.setVrow t r vs).regs = s.regs ∧ (s.setVrow t r vs).mem = s.mem)

/-- Vector reductions, conversions, local memory, broadcasts and streams (R113 to R116): the effect of each vector slot. -/
def Obligations.VectorSlot : Prop :=
  (∀ (s : State) t b, t < 2176 → vOp b = 0x00 → Due s t b 1 → exec (.vnop t b) s = .next ((opened s t b 1).slotRun t 1 id))
  ∧ (∀ (s : State) t b, t < 2176 → vOp b = 0x18 → Due s t b 1 →
      let u := opened s t b 1
      let r := treeSum (u.ftz t) 6 ((u.vrow t (nbits (vSlot b) 12 8)).map (·.toNat))
      exec (.vrsum t b) s = .next (u.slotRun t 1 fun u => (u.setVrow t (nbits (vSlot b) 17 13) (List.replicate 64 (BitVec.ofNat 32 r.1))).flagV t r.2))
  ∧ (∀ (s : State) t b, t < 2176 → vOp b = 0x19 → Due s t b 1 →
      let u := opened s t b 1
      let r := maxAll (u.ftz t) ((u.vrow t (nbits (vSlot b) 12 8)).map (·.toNat))
      exec (.vrmax t b) s = .next (u.slotRun t 1 fun u => u.setVrow t (nbits (vSlot b) 17 13) (List.replicate 64 (BitVec.ofNat 32 r))))
  ∧ (∀ (s : State) t b, t < 2176 → vOp b = 0x1D → Due s t b 1 → nbits (vSlot b) 7 4 = 0xA → (opened s t b 1).rmode t (vSlot b % 8) = 0 →
      let u := opened s t b 1
      let c (l : Nat) : Nat × Nat := toInt 8 0 0 (numOfInt (sext 32 (u.vr t (nbits (vSlot b) 12 8) l).toNat))
      exec (.vcvtd t b) s = .next (u.slotRun t 1 fun u =>
        (u.setVrow t (nbits (vSlot b) 17 13) (wordsOf 64 (packBytes 8 ((List.range 64).map fun l => (c l).1)))).flagV t
          ((List.range 64).foldl (fun f l => f ||| (c l).2) 0)))
  ∧ (∀ (s : State) t b, t < 2176 → vOp b = 0x1E → Due s t b 1 → nbits (vSlot b) 7 4 ≤ 4 →
      let u := opened s t b 1
      let v := vSlot b
      let w := fmtBits (nbits v 7 4)
      exec (.vcvtu t b) s = .next (u.slotRun t 1 fun u => u.setVrow t (nbits v 17 13)
        ((unpackBits w 64 (leNat (((u.vbytes t (nbits v 12 8)).drop (8 * w * nbits v 3 2)).take (8 * w)))).map fun c =>
          BitVec.ofNat 32 (toFp32 0 (decode (nbits v 7 4) c)).1)))
  ∧ (∀ (s : State) t b, t < 2176 → vOp b = 0x20 → Due s t b 1 →
      let u := opened s t b 1
      let a := (u.sr t (nbits (vSlot b) 12 8)).toNat + 16 * nbits (vSlot b) 7 0
      let w := (u.lmMeetAt t a 256).served t 2
      (u.sr t (nbits (vSlot b) 12 8)).toNat % 16 = 0 → w.lmBad t a 256 = false →
      exec (.vld t b) s = .next (u.slotRun t 1 fun _ => w.setVrow t (nbits (vSlot b) 17 13) (wordsOf 64 (w.lmRead t a 256))))
  ∧ (∀ (s : State) t b, t < 2176 → vOp b = 0x21 → Due s t b 1 →
      let u := opened s t b 1
      let a := (u.sr t (nbits (vSlot b) 12 8)).toNat + 16 * nbits (vSlot b) 7 0
      (u.sr t (nbits (vSlot b) 12 8)).toNat % 16 = 0 →
      exec (.vst t b) s = .next (u.slotRun t 1 fun u => (u.seqStore t a (bytesOf (u.vrow t (nbits (vSlot b) 17 13))) false).served t 2))
  ∧ (∀ (s : State) t b, t < 2176 → vOp b = 0x22 → Due s t b 1 → exec (.vbc t b) s = .next ((opened s t b 1).slotRun t 1 fun u =>
      u.setVrow t (nbits (vSlot b) 17 13) (List.replicate 64 (u.sr t (nbits (vSlot b) 12 8)))))
  ∧ (∀ (s : State) t b, t < 2176 → vOp b = 0x23 → Due s t b 1 → exec (.vget t b) s = .next ((opened s t b 1).slotRun t 1 fun u =>
      u.modTile t fun y => { y with bundle := y.bundle.map fun o =>
        { o with vget := some (nbits (vSlot b) 17 13, u.vr t (nbits (vSlot b) 12 8) (nbits (vSlot b) 7 2)) } }))
  ∧ (∀ (s : State) t b, t < 2176 → vOp b = 0x24 → Due s t b 1 → exec (.vput t b) s = .next ((opened s t b 1).slotRun t 1 fun u =>
      u.setVrow t (nbits (vSlot b) 17 13) ((u.vrow t (nbits (vSlot b) 17 13)).set (nbits (vSlot b) 7 2) (u.sr t (nbits (vSlot b) 12 8)))))
  ∧ (∀ (s : State) t b, t < 2176 → vOp b = 0x25 → Due s t b 1 →
      let u := opened s t b 1
      let p := nbits (vSlot b) 12 11
      let n := nbits (vSlot b) 10 9 + 1
      u.popOk t p = true → u.countUe 4 (4 * t + p) = false → flitsBad ((u.fifo t p).take n) = false → exec (.pull t b) s = .next (u.slotRun t 1 fun u =>
        (u.popFlits t p n).setVrow t (nbits (vSlot b) 17 13) (wordsOf 64 (flitBytes ((u.fifo t p).take n)))))
  ∧ (∀ (s : State) t b, t < 2176 → vOp b = 0x26 → Due s t b 1 →
      let u := opened s t b 1
      let p := nbits (vSlot b) 12 11
      u.bget (R.tileSoutStat t p) 31 = true → exec (.push t b) s = .next (u.slotRun t 1 fun u =>
        (u.sendFlits t p (cutFlits (nbit (vSlot b) 8) false (nbits (vSlot b) 10 9 + 1) (bytesOf (u.vrow t (nbits (vSlot b) 17 13))))).served t (8 + p)))

/-- Accumulators and softmax (R55 to R57, R117 to R119): the effect of each row on an accumulator that carries no poison. -/
def Obligations.AccumulatorSlot : Prop :=
  (∀ (s : State) t b, t < 2176 → vOp b = 0x28 → Due s t b 1 →
      let u := opened s t b 1
      let v := vSlot b
      let a := nbits v 17 16
      let f := nbits v 10 7
      let w := u.sr t (nbits v 15 11)
      let r := u.woConv t a f (u.rmode t (nbits v 6 4))
      nbit v 3 = false → u.accBad t a = false → u.accParity t a = false → u.vawrCheck t v = 0 →
      let x := ((r.2.flagV t r.1.2.2).woRows t w (4 * fmtBits f) false 32 0 (packBytes (fmtBits f) r.1.1)).served t 3
      exec (.vawr t b) s = .next (u.slotRun t 1 fun _ =>
        if fmtScaled f then x.seqStore t (woBase w + 32 * woStride w) (packBytes (if f = 8 then 16 else 8) r.1.2.1) false else x))
  ∧ (∀ (s : State) t b, t < 2176 → vOp b = 0x29 → Due s t b 1 →
      let u := opened s t b 1
      let v := vSlot b
      let a := nbits v 17 16
      let w := u.sr t (nbits v 15 11)
      let at' (r : Nat) := woBase w + r * woStride w
      let x := ((List.range 32).foldl (fun s r => s.lmMeetAt t (at' r) 128) u).served t 3
      nbit w.toNat 31 = false → nbit w.toNat 15 = false → ((List.range 32).any fun r => x.lmBad t (at' r) 128) = false →
      exec (.vald t b) s = .next (u.slotRun t 1 fun _ =>
        ((x.setAcc t a ((List.range 32).flatMap fun r => wordsOf 32 (x.lmRead t (at' r) 128))).setTag t a (nbit v 10)).setAccBad t a false))
  ∧ (∀ (s : State) t b, t < 2176 → vOp b = 0x2A → Due s t b 1 →
      let u := opened s t b 1
      let d := nbits (vSlot b) 17 16
      let a := nbits (vSlot b) 15 14
      u.accIsInt t d = false → u.accIsInt t a = false → u.accBad t d = false → u.accBad t a = false →
      u.accParity t d = false → u.accParity t a = false → exec (.vaadd t b) s = .next (u.slotRun t 1 fun u => u.accOut t d ((List.range 1024).map fun i =>
        fAdd (u.ftz t) 0 (u.acc t d (i / 32) (i % 32)).toNat (u.acc t a (i / 32) (i % 32)).toNat) false false))
  ∧ (∀ (s : State) t b, t < 2176 → vOp b = 0x2B → Due s t b 1 →
      let u := opened s t b 1
      let a := nbits (vSlot b) 17 16
      u.accIsInt t a = false → u.accBad t a = false → u.accParity t a = false →
      exec (.varsc t b) s = .next (u.slotRun t 1 fun u => u.accOut t a ((List.range 1024).map fun i =>
        if (u.vr t (nbits (vSlot b) 15 11) (i / 32)).toNat = 0x3F800000 then ((u.acc t a (i / 32) (i % 32)).toNat, 0)
        else fMul (u.ftz t) 0 (u.acc t a (i / 32) (i % 32)).toNat (u.vr t (nbits (vSlot b) 15 11) (i / 32)).toNat) false false))
  ∧ (∀ (s : State) t b, t < 2176 → vOp b = 0x2C → Due s t b 1 →
      let u := opened s t b 1
      let a := nbits (vSlot b) 17 16
      u.accIsInt t a = false → u.accBad t a = false → u.accParity t a = false →
      exec (.vafin t b) s = .next (u.slotRun t 1 fun u => u.accOut t a ((List.range 32).flatMap fun r =>
        finRow (u.ftz t) (u.vr t (nbits (vSlot b) 15 11) r).toNat ((u.accRow t a r).map (·.toNat))) false false))
  ∧ (∀ (s : State) t b, t < 2176 → vOp b = 0x2D → Due s t b 1 →
      let u := opened s t b 1
      let a := nbits (vSlot b) 12 11
      let w (u : State) : State := u.setVrow t (nbits (vSlot b) 17 13)
        ((List.range 32).map fun r => BitVec.ofNat 32 (maxAll (u.ftz t) ((u.accRow t a r).map (·.toNat))))
      u.accIsInt t a = false →
        (u.accBad t a = false → u.accParity t a = false → exec (.vamax t b) s = .next (u.slotRun t 1 w))
        ∧ (u.accParity t a = true → exec (.vamax t b) s = .next (u.slotRun t 1 fun u => (w u).dpFault t a 1 ((w u).bAddr t))))
  ∧ (∀ (s : State) t b, t < 2176 → vOp b = 0x2E → Due s t b 1 →
      let u := opened s t b 1
      let v := vSlot b
      let a := nbits v 2 1
      let row (r : Nat) : SmRow := smRow (u.ftz t) (u.vr t (nbits v 17 13) r).toNat (u.vr t (nbits v 12 8) r).toNat ((u.accRow t a r).map (·.toNat))
      u.accIsInt t a = false → u.accBad t a = false → u.accParity t a = false → nbits v 17 13 ≠ nbits v 12 8 → nbits v 17 13 ≠ nbits v 7 3 → nbits v 12 8 ≠ nbits v 7 3 →
      exec (.vsmu t b) s = .next (u.slotRun t 1 fun u =>
        ((((u.setAcc t a (((List.range 32).flatMap fun r => (row r).ps).map (BitVec.ofNat 32 ·))).setHalf t (nbits v 7 3)
          ((List.range 32).map fun r => (row r).alpha)).setHalf t (nbits v 12 8) ((List.range 32).map fun r => (row r).l)).setHalf t (nbits v 17 13)
          ((List.range 32).map fun r => (row r).m)).flagV t ((List.range 32).foldl (fun f r => f ||| (row r).fl) 0)))
  ∧ (∀ (s : State) t b, t < 2176 → vOp b = 0x2F → Due s t b 1 →
      let u := opened s t b 1
      let v := vSlot b
      let vp := nbits v 7 3
      let row (r : Nat) := mergeRow (u.ftz t) (u.vr t (nbits v 17 13) r).toNat (u.vr t (nbits v 12 8) r).toNat (u.vr t vp r).toNat (u.vr t (vp + 1) r).toNat
      nbits v 17 13 ≠ nbits v 12 8 → nbits v 17 13 ≠ vp → nbits v 12 8 ≠ vp → nbits v 17 13 ≠ vp + 1 → nbits v 12 8 ≠ vp + 1 →
      exec (.vsmg t b) s = .next (u.slotRun t 1 fun u =>
        ((((u.setHalf t (vp + 1) ((List.range 32).map fun r => (row r).2.2.2.1)).setHalf t vp ((List.range 32).map fun r => (row r).2.2.1)).setHalf t
          (nbits v 12 8) ((List.range 32).map fun r => (row r).2.1)).setHalf t (nbits v 17 13) ((List.range 32).map fun r => (row r).1)).flagV t
            ((List.range 32).foldl (fun f r => f ||| (row r).2.2.2.2) 0)))

/-- The matrix slot and the matrix engine (R67, R108 to R112, R501): what is queued, what a granule adds, and how the operand buffers fill. -/
def Obligations.MatrixEngine : Prop :=
  (∀ (s : State) t b, t < 2176 → mSlot b = 0 → Due s t b 0 → exec (.mnop t b) s = .next ((opened s t b 0).slotRun t 0 id))
  ∧ (∀ (s : State) t b, t < 2176 → mOp b = 1 → Due s t b 0 →
      let u := opened s t b 0
      let m := mSlot b
      let a := nbits m 16 15
      let dA := u.pair t (2 * nbits m 13 10)
      let dB := u.pair t (2 * nbits m 9 6)
      let k := (u.sr t (nbits m 5 1)).toNat
      1 ≤ k → k ≤ 0xFFFE0 → k % 32 = 0 → dFmt dA < 13 → dFmt dB < 13 → descClean dA = true → descClean dB = true → pairOk (dFmt dA) (dFmt dB) = true →
      (nbit m 14 = true ∨ u.accIsInt t a = pairInt (dFmt dA)) →
      exec (.mma t b) s = .next (u.slotRun t 0 fun u =>
        let w := u.modTile t fun x => { x with queue := x.queue ++
          [{ mclr := false, acc := a, clr := nbit m 14, int := pairInt (dFmt dA), dA := dA, dB := dB, total := k / 32, wrap := u.intWrap t, addr := u.bAddr t }] }
        if nbit m 14 then w.setTag t a (pairInt (dFmt dA)) else w))
  ∧ (∀ (s : State) t b, t < 2176 → mOp b = 2 → Due s t b 0 →
      let u := opened s t b 0
      let a := nbits (mSlot b) 16 15
      exec (.mclr t b) s = .next (u.slotRun t 0 fun u => (u.modTile t fun x => { x with queue := x.queue ++
        [{ mclr := true, acc := a, clr := true, int := nbit (mSlot b) 14, dA := 0, dB := 0, total := 0 }] }).setTag t a (nbit (mSlot b) 14)))
  ∧ (∀ (s : State) t o q, t < 2176 → (s.tile t).queue = o :: q → o.mclr = true →
      ∀ errs dup, exec (.matrixGranule t ⟨errs, dup⟩) s = .next (((s.setAcc t o.acc []).setAccBad t o.acc false).modTile t fun x => { x with queue := q }))
  ∧ (∀ (s : State) t o q ga gb ta tb errs dup, t < 2176 → (s.tile t).queue = o :: q → o.mclr = false → (s.tile t).bufA = ga :: ta → (s.tile t).bufB = gb :: tb →
      o.done < o.fillA → o.done < o.fillB → ga.poison = false → gb.poison = false → (o.clr = false ∨ o.done ≠ 0) →
      let ra := granRows (dFmt o.dA) ga
      let rb := granRows (dFmt o.dB) gb
      let r := s.granule t o ra rb errs
      let fault := o.fault || s.granFails t o ra rb errs dup
      let v := (s.setAcc t o.acc r.1).flag t r.2
      (o.done + 1 ≠ o.total → exec (.matrixGranule t ⟨errs, dup⟩) s = .next (v.modTile t fun x =>
        { x with bufA := ta, bufB := tb, queue := { o with done := o.done + 1, fault := fault } :: q }))
      ∧ (o.done + 1 = o.total → s.accBad t o.acc = false → fault = false → exec (.matrixGranule t ⟨errs, dup⟩) s = .next (v.modTile t fun x =>
        { x with bufA := ta, bufB := tb, queue := q }))
      ∧ (o.done + 1 = o.total → fault = true → exec (.matrixGranule t ⟨errs, dup⟩) s = .next (State.dpFault (v.modTile t fun x =>
        { x with bufA := ta, bufB := tb, queue := q }) t o.acc 0 o.addr)))
  ∧ (∀ (s : State) t o q f bs, t < 2176 → (s.tile t).queue = o :: q → o.mclr = false → o.fillA < o.total → (s.tile t).bufA.length < 2 →
      dFmt o.dA = f → fmtScaled f = false → dEport o.dA = none → bs = ((s.granMeet t o.dA o.fillA).served t 0).granLm t o.dA o.fillA →
      exec (.operandBufferFill t false) s = .next (((s.granMeet t o.dA o.fillA).served t 0).modTile t fun x => { x with
        bufA := x.bufA ++ [⟨bs.1, [], bs.2⟩], queue := { o with fillA := o.fillA + 1, halfA := [] } :: q }))

/-- Slots out of turn, and bundles that kill (R94, R102, R103): a stopped tile and a slot out of its turn do nothing; an illegal bundle stops the tile. -/
def Obligations.SlotOrder : Prop :=
  (∀ (s : State) t b k eff, s.running t = false → s.slot t b k eff = s)
  ∧ (∀ (s : State) t b k eff o, s.running t = true → (s.tile t).bundle = some o → nextSlot o b k = false → s.slot t b k eff = s)
  ∧ (∀ (s : State) t b k eff, (s.tile t).bundle = none → s.fetchB t (s.pc t) ≠ b → s.slot t b k eff = s)
  ∧ (∀ (s : State) t b k eff c n d, s.running t = true → (s.tile t).bundle = none → firstSlot b k = true → s.fetchB t (s.pc t) = b →
      (s.fetchesLm t (s.pc t) && (fetched s t).lmBad t (8 * (fetched s t).pc t) 8) = false → bundleCheck b = some (c, n, d) →
      s.slot t b k eff = (fetched s t).slotKill t c n d)
  ∧ (∀ (s : State) t b k eff, s.running t = true → (s.tile t).bundle = none → firstSlot b k = true → s.fetchB t (s.pc t) = b →
      s.fetchesLm t (s.pc t) = true → (fetched s t).lmBad t (8 * (fetched s t).pc t) 8 = true → s.slot t b k eff = (fetched s t).slotKill t 8 6 0)

/-- Streams, fills and kills (R68, R81, R82, R86, R87, R90, R94, R95, R246): what an arriving flit, credit or line does, and a context kill. -/
def Obligations.TileArrivalsAndKills : Prop :=
  ((∀ (s : State) t l a, t < 2176 → (s.ans.find? fun x => x.a == .tile t && x.line == 128 * l && x.k == .datS) = some a →
      exec (.tileCacheFill t l) s = .next ({ s with ans := s.ans.erase a }.fillDone t a.tag a.data a.poison a.copy))
  ∧ (∀ (s : State) t p f r, t < 2176 → p < 4 → tgetD s.flight (4 * t + p) [] = f :: r → s.seamHolds t (tget (s.tile t).sinSrc p) = false →
      t / 32 ∉ s.rtrPar → s.countUe 4 (4 * t + p) = false → s.bget (R.tileSinCfg t p) 31 = true →
      0 < s.fget (R.tileSinStat t p) 12 0 → s.bget (R.tileSinCfg t p) 30 = false → f.poison = false →
      exec (.streamFlitArrival t p f) s = .next
        ((State.fset (State.fset { s with flight := tset s.flight (4 * t + p) [] r } (R.tileSinStat t p) 28 16 (s.fget (R.tileSinStat t p) 28 16 + 1))
          (R.tileSinStat t p) 12 0 ((State.fset { s with flight := tset s.flight (4 * t + p) [] r } (R.tileSinStat t p) 28 16
            (s.fget (R.tileSinStat t p) 28 16 + 1)).fget (R.tileSinStat t p) 12 0 - 1)).modTile t
              fun x => { x with sin := tset x.sin p [] (tgetD x.sin p [] ++ [f]) }))
  ∧ (∀ (s : State) t p f g r, t < 2176 → p < 4 → tgetD s.flight (4 * t + p) [] = g :: r → f ≠ g → exec (.streamFlitArrival t p f) s = .next s)
  ∧ (∀ (s : State) t p n, t < 2176 → p < 4 → 1 ≤ n → n ≤ tgetD s.credFly (4 * t + p) 0 → s.bget (R.tileSoutStat t p) 31 = true → (s.tile t).wout = none →
      s.seamHolds t (tget (s.tile t).soutDst p) = false →
      exec (.streamCreditReturn t p n) s = .next
        (State.fset { s with credFly := tset s.credFly (4 * t + p) 0 (tgetD s.credFly (4 * t + p) 0 - n) } (R.tileSoutStat t p) 12 0
          (s.fget (R.tileSoutStat t p) 12 0 + n))))
  ∧
  ((∀ (s : State) t c n d a, t < 2176 → (s.dressOf t).isSome = true →
      exec (.contextKill t c n d a) s = .next ((s.recordKill t c n d a).killCtx (s.ctxOf t) (some t)))
  ∧ (∀ (s : State) t c n d a, s.bget (R.tileErrStatus t) 31 = true → s.recordKill t c n d a = s.bset (R.tileErrStatus t) 30 true)
  ∧ (∀ (s : State) t c n d a, s.bget (R.tileErrStatus t) 31 = false → c < 256 → n < 16 → d < 256 →
      let u := s.recordKill t c n d a
      u.bget (R.tileErrStatus t) 31 = true ∧ u.fget (R.tileErrStatus t) 23 16 = c ∧ u.fget (R.tileErrStatus t) 11 8 = n
        ∧ u.fget (R.tileErrStatus t) 7 0 = d ∧ u.get (R.tileErrAddr t) = a)
  ∧ (∀ (s : State) d t, (s.killTile d t).tile t = { misses := (s.tile t).misses.map fun (e : Nat × Miss) => (e.1, { e.2 with dead := true }), dmaDead := (s.tile t).deadBlocks, dpFaults := (s.tile t).dpFaults, dpInjected := (s.tile t).dpInjected })
  ∧ (∀ (s : State) ctx o, (∀ a, a < 0x3FF001000000 → mget (s.killCtx ctx o).mem a = mget s.mem a) ∧ (s.killCtx ctx o).pending = s.pending))

/-- Tile DMA (R91 to R93, R99): a descriptor is read and checked, its blocks move, and its completion frees the ring and signals its object. -/
def Obligations.TileDma : Prop :=
  (∀ (s : State) t n, t < 2176 → n < 4 → s.dressRuns t = true → s.bget (R.tileDmaCtrl t n) 31 = true → tget (s.tile t).dma n = none →
      s.get (R.tileDmaHead t n) ≠ s.get (R.tileDmaTail t n) →
      let o := fld (s.get (R.tileDmaCtrl t n)) 18 5 * 32 + 32 * (s.get (R.tileDmaHead t n)).toNat
      let u := (s.lmMeetAt t o 32).served t (12 + n)
      let w (i : Nat) : W64 := BitVec.ofNat 64 (leNat (u.lmRead t (o + 8 * i) 8))
      let d : DmaSt := { src := w 0, dst := w 1, strides := w 2, ctl := w 3 }
      u.lmBad t o 32 = false →
      (d.invalid (u.dmaBound t n d.port) = false →
        exec (.dmaDescriptorExecute t n) s = .next (u.modTile t fun x => { x with dma := tput x.dma n d }))
      ∧ (d.invalid (u.dmaBound t n d.port) = true → exec (.dmaDescriptorExecute t n) s = .next (u.kill t 0xD 3 n (BitVec.ofNat 64 o))))
  ∧ (∀ (s : State) t n d, t < 2176 → n < 4 → tget (s.tile t).dma n = some d → d.left ≠ 0 →
      exec (.dmaTransferBlock t n) s = .next (s.dmaMove t n (d.left / 16 + 4)).accPump)
  ∧ (∀ (s : State) t n d, t < 2176 → n < 4 → d.left ≠ 0 → d.srcLocal = true → d.dstLocal = true → d.toPort = false →
      let k := s.dmaLen t d
      let u := (s.lmMeetAt t d.srcAt k).served t (12 + n)
      s.dmaPiece t n d = ((((u.lmWrite t d.dstAt (u.lmRead t d.srcAt k) (u.lmBad t d.srcAt k)).served t (12 + n)).setDma t n (d.moved k)).dmaFree t n, true))
  ∧ (∀ (s : State) t n d, t < 2176 → n < 4 → tget (s.tile t).dma n = some d → d.row = d.rows → d.left = 0 → d.unacked = 0 → d.held = [] →
      bit d.ctl 50 = true → fld d.ctl 63 51 < 8192 →
      let u := s.modTile t fun x => { x with dma := tdel x.dma n }
      exec (.dmaDescriptorComplete t n) s = .next ((u.set (R.tileDmaHead t n)
        (BitVec.ofNat 64 (((s.get (R.tileDmaHead t n)).toNat + 1) % 2 ^ (4 + s.fget (R.tileDmaCtrl t n) 26 24)))).syncAdd (fld d.ctl 63 51) 1 false))

/-- Writes of a tile's acting registers, requests that age, and accesses from outside (R24, R44, R48, R64, R77 to R80, R93, R131). -/
def Obligations.TileRegisters : Prop :=
  (∀ (s : State) t r n, t < 2176 → r < 17 → 8 ≤ n → r ∉ (s.tile t).aged →
      exec (.lmRequestAged t r n) s = .next (s.modTile t fun x => { x with aged := x.aged ++ [r] }))
  ∧ (∀ (s : State) t n v, t < 2176 → n < 4 → nbits v.toNat 10 0 < 2 ^ (4 + s.fget (R.tileDmaCtrl t n) 26 24) →
      exec (.dmaTailWrite t n v) s = .next (s.set (R.tileDmaTail t n) (BitVec.ofNat 64 (nbits v.toNat 10 0))))
  ∧ (∀ (s : State) t n v, t < 2176 → n < 4 → 2 ^ (4 + s.fget (R.tileDmaCtrl t n) 26 24) ≤ nbits v.toNat 10 0 → exec (.dmaTailWrite t n v) s = .next s)
  ∧ (∀ (s : State) t n v, t < 2176 → n < 4 → nbits v.toNat 18 5 % 2 ^ (4 + nbits v.toNat 26 24) = 0 → s.bget (R.tileDmaCtrl t n) 31 = false →
      exec (.dmaCtrlWrite t n v) s = .next (s.set (R.tileDmaCtrl t n)
        (BitVec.ofNat 64 (nbits v.toNat 31 31 * 2 ^ 31 + nbits v.toNat 26 24 * 2 ^ 24 + nbits v.toNat 18 5 * 32))))
  ∧ (∀ (s : State) t n v, t < 2176 → n < 4 → nbits v.toNat 18 5 % 2 ^ (4 + nbits v.toNat 26 24) ≠ 0 → exec (.dmaCtrlWrite t n v) s = .next s)
  ∧ (∀ (s : State) t v k d, t < 2176 → s.dressOf t = some (k, d) → d.st = .active → s.running t = false → nbit v.toNat 0 = true →
      exec (.seqStart t v) s = .next ((s.modTile t fun x => { x with bundle := none, released := false, loopOrd := [], loopBuf := [], codeOld := [] }).set (R.tileSeqStatus t)
        (BitVec.ofNat 64 (2 ^ 31 + s.fget (R.tileSeqPc t) 15 0))))
  ∧ (∀ (s : State) t v, t < 2176 → v.toNat % 8 ≤ 4 → exec (.arithCtrlWrite t v) s = .next (s.set (R.tileArithCtrl t)
      (BitVec.ofNat 64 (nbits v.toNat 8 5 * 32 + v.toNat % 8))))
  ∧ (∀ (s : State) t v, t < 2176 → 4 < v.toNat % 8 → exec (.arithCtrlWrite t v) s = .next (s.set (R.tileArithCtrl t)
      (BitVec.ofNat 64 (nbits v.toNat 8 5 * 32 + s.fget (R.tileArithCtrl t) 2 0))))
  ∧ (∀ (s : State) t v, t < 2176 → exec (.srSeedWrite t v) s = .next
      ((s.modTile t fun x => if x.bundle.isSome then { x with reseed := true } else { x with gen := [] }).set (R.tileArithSrSeed t) (BitVec.ofNat 64 v.toNat)))
  ∧ (∀ (s : State) m a w v, masterOk m = true → region a.toNat = .regs → s.powered = true → regOk a.toNat w = true →
      exec (.registerWrite m a w v) s = .next (s.regWrite a.toNat w (v.toNat % 2 ^ (8 * w))))
  ∧ (∀ (s : State) m a n, masterOk m = true → (region a = .lmLogical ∨ region a = .lmPhysical) → s.powered = true → s.rangeBacked a n = true →
      let t := lmTile (s.home a)
      let o := lmOff (s.home a)
      let u := ((s.routerRead (t / 32)).served t 16).lmMeetAt t o n
      exec (.lmExternalAccess m a n .read) s = .next (u.emit (.bytes m (u.lmRead t o n) (u.lmBad t o n))))
  ∧ (∀ (s : State) m a n bs, masterOk m = true → (region a = .lmLogical ∨ region a = .lmPhysical) → s.powered = true → s.rangeBacked a bs.length = true →
      exec (.lmExternalAccess m a n (.write bs)) s = .next (((s.routerRead (lmTile (s.home a) / 32)).served (lmTile (s.home a)) 16).lmWrite (lmTile (s.home a)) (lmOff (s.home a)) bs false))

/-- Sync objects (R283 to R289, R295): adds modulo 2^64, exchanges, takes, notifiers, releases and the ownership commands. -/
def Obligations.SyncObjects : Prop :=
  (∀ (s : State) o v, o < 8192 → exec (.syncCountWrite o v) s = .next (((s.syncTally o true).set (R.syncCount o) v).syncAfter o))
  ∧ (∀ (s : State) o (v : W64), o < 8192 → (s.get (R.syncCount o)).toNat + v.toNat < 2 ^ 64 → exec (.syncAdd o v) s = .next
      (((s.syncTally o true).set (R.syncCount o) (BitVec.ofNat 64 ((s.get (R.syncCount o)).toNat + v.toNat))).syncAfter o))
  ∧ (∀ (s : State) o (v : W64), o < 8192 → 2 ^ 64 ≤ (s.get (R.syncCount o)).toNat + v.toNat → exec (.syncAdd o v) s = .next
      ((((s.bset (R.syncStatus o) 31 true).syncTally o true).set (R.syncCount o)
        (BitVec.ofNat 64 ((s.get (R.syncCount o)).toNat + v.toNat - 2 ^ 64))).syncAfter o))
  ∧ (∀ (s : State) m o, o < 8192 → masterOk m = true → m.cls ≠ .tile → exec (.syncTake m o) s = .next
      ((((s.syncTally o false).set (R.syncCount o) 0).syncAfter o).emit (.data m (s.get (R.syncCount o)))))
  ∧ (∀ (s : State) m o a x c, o < 8192 → masterOk m = true → 1 ≤ a → a ≤ 10 → exec (.syncExchange m o 0 a 8 x c) s = .next
      ((((s.syncTally o true).set (R.syncCount o) (BitVec.ofNat 64 (atomicVal a 8 (s.get (R.syncCount o)).toNat x.toNat c.toNat))).syncAfter o).emit
        (.data m (s.get (R.syncCount o)))))
  ∧ (∀ (s : State) m o f a n x c, o < 8192 → masterOk m = true → (f ≠ 0 ∨ n ≠ 8 ∨ a = 0 ∨ 10 < a) →
      exec (.syncExchange m o f a n x c) s = .next (s.holeBy m 2 (s.gOwn ((R.syncCount o).addr + f))))
  ∧ (∀ (s : State) o k v, o < 8192 → k < 2 → 5 ≤ fld v 63 60 → exec (.notifierActionWrite o k v) s = .next s)
  ∧ (∀ (s : State) o k v, o < 8192 → k < 2 → fld v 63 60 < 5 → s.fget (R.syncAction o k) 63 60 ≠ 0 →
      exec (.notifierActionWrite o k v) s = .next (s.set (R.syncAction o k) (setFld v 44 32 0)))
  ∧ (∀ (s : State) o k v, o < 8192 → k < 2 → fld v 63 60 < 5 → s.fget (R.syncAction o k) 63 60 = 0 → fld v 63 60 ≠ 0 →
      exec (.notifierActionWrite o k v) s = .next ((s.set (R.syncAction o k) (setFld v 44 32 0)).fire o k))
  ∧ (∀ (s : State) o k v, o < 8192 → k < 2 → exec (.notifierThreshWrite o k v) s = .next (s.set (R.syncThresh o k) v))
  ∧ (∀ (s : State) t, t < 2176 → t ∈ s.updates → s.running t = true →
      exec (.waitRelease t) s = .next (State.modTile { s with updates := s.updates.erase t } t fun x => { x with released := true }))
  ∧ (∀ s q n u f, Begins s q 0x0408 u → 1 ≤ n → n ≤ 1024 → u.freeRun n = some f → exec (.fabSyncReserve q n) s =
      done (u.syncClaim f n 2 q.mbx) q 0x0408 0 (p16 f ++ p16 n))
  ∧ (∀ s q f n u, Begins s q 0x8408 u → 1 ≤ n → n ≤ 1024 → f + n ≤ 8192 → u.syncRun f n 0 = true → exec (.fabSyncReserveExpert q f n) s =
      done (u.syncClaim f n 2 q.mbx) q 0x8408 0 (p16 f ++ p16 n))
  ∧ (∀ s q f n u, Begins s q 0x0409 u → 1 ≤ n → f + n ≤ 8192 → u.syncRun f n 2 = true → exec (.fabSyncRelease q f n) s =
      done (u.syncClaim f n 0 0) q 0x0409 0 [])

/-- What follows an operation on a count (R288, R289), and a claimed run of objects (R295): counts 0, notifiers disarmed, owner and handle. -/
def Obligations.SyncReleaseAndClaim : Prop :=
  (∀ (s : State) (o t : Nat) (w : Waiter), o < 8192 → tget s.waiters t = some w → s.waiters.Pairwise (fun a b => a.1 < b.1) →
    let u := s.syncAfter o
    (w.obj = o → w.thresh ≤ (s.get (R.syncCount o)).toNat → tget u.waiters t = none ∧ t ∈ u.updates)
    ∧ ((w.obj ≠ o ∨ (s.get (R.syncCount o)).toNat < w.thresh) → tget u.waiters t = some w)
    ∧ (u.get (R.syncCount o) = s.get (R.syncCount o)) ∧ u.mem = s.mem)
  ∧
  (∀ (s : State) (f n owner handle i : Nat), f + n ≤ 8192 → owner < 4 → handle < 64 → i < n →
    let u := s.syncClaim f n owner handle
    u.get (R.syncCount (f + i)) = 0 ∧ u.fget (R.syncAction (f + i) 0) 63 60 = 0 ∧ u.fget (R.syncAction (f + i) 1) 63 60 = 0
      ∧ u.fget (R.syncStatus (f + i)) 29 28 = owner ∧ u.fget (R.syncStatus (f + i)) 27 22 = handle
      ∧ ∀ o, o < 8192 → (o < f ∨ f + n ≤ o) → u.get (R.syncCount o) = s.get (R.syncCount o) ∧ u.get (R.syncStatus o) = s.get (R.syncStatus o))

/-- Requests of a chiplet at a home of the hub, and answers at their requesters (R249 to R252, R254, R256, R259, R266). -/
def Obligations.RequestsAndAnswers : Prop :=
  (∀ (s : State) (n l tag tc : Nat), n < 8 → l < 2 ^ 39 → s.powered = true → s.bget (R.siteStatus n) 31 = true → s.fenced n = false →
    s.homed (128 * l) = true →
    let r (k : ReqK) : CReq := { k := k, a := .site n, line := 128 * l, tag := tag, tc := tc }
    exec (.rdShared (.site n) l tag tc) s = .next (s.regOne (r .rdShared, false)).cohTail
    ∧ exec (.rdUnique (.site n) l tag tc) s = .next (s.regOne (r .rdUnique, false)).cohTail
    ∧ exec (.upgrade (.site n) l tag tc) s = .next (s.regOne (r .upgrade, false)).cohTail
    ∧ exec (.rdNoAlloc (.site n) l tag tc) s = .next (s.regOne (r .rdNoAlloc, false)).cohTail
    ∧ exec (.evictClean (.site n) l tag) s = .next (s.cohReq { k := .evictClean, a := .site n, line := 128 * l, tag := tag }).cohTail
    ∧ (∀ d p, exec (.evictDirty (.site n) l tag d p) s =
        .next (s.cohReq { k := .evictDirty, a := .site n, line := 128 * l, tag := tag, data := d, poison := p }).cohTail)
    ∧ (s.libHit (128 * l) 128 = false →
      (∀ d p, exec (.wrFull (.site n) l tag tc d p) s =
        .next (s.regOne ({ r .wrFull with mask := BitVec.allOnes 128, data := d, poison := p }, false)).cohTail)
      ∧ (∀ m d p, exec (.wrPart (.site n) l tag tc m d p) s = .next (s.regOne ({ r .wrPart with mask := m, data := d, poison := p }, false)).cohTail)
      ∧ (∀ o a z x c, o < 128 → 1 ≤ a → a ≤ 10 → (z = 4 ∨ z = 8) → o + z ≤ 128 → exec (.atomicOp (.site n) (128 * l + o) tag tc a z x c) s =
          .next (s.regOne ({ r .atomic with aop := a, size := z, off := o, operand := x, compare := c }, false)).cohTail)))
  ∧
  (∀ (s : State) (r : CReq) b, (∀ x ∈ s.regQ, x.1.a ≠ r.a ∨ x.1.tc ≠ r.tc) → s.regOpen r.a r.line r.tc r.bytes = true →
    s.regOne (r, b) = (s.regSpend r.a r.line r.tc r.bytes).cohReq r)
  ∧
  ((∀ (s : State) n l tag x u, n < 8 → (s.ansTake (.site n) l tag .datC = some (x, u) → ∀ d p, exec (.datC (.site n) l tag d p) s = .next (u.ansGive x).accPump)
      ∧ (s.ansTake (.site n) l tag .cmpE = some (x, u) → exec (.cmpE (.site n) l tag) s = .next (u.ansGive x).accPump)
      ∧ (s.ansTake (.site n) l tag .rspErr = some (x, u) → ∀ w, w < 16 → exec (.rspErr (.site n) l tag w) s = .next (u.ansGive x).accPump)
      ∧ (s.ansTake (.site n) l tag .datF = some (x, u) → ∀ d p, exec (.datF (.site n) l tag d p) s = .next (u.ansGive x).accPump))
  ∧ (∀ (s : State) t l tag x u d p, t < 2176 → s.ansTake (.tile t) l tag .datS = some (x, u) → x.a = .tile t → x.k = .datS →
      exec (.datS (.tile t) l tag d p) s = .next (u.fillDone t x.tag x.data x.poison x.copy).accPump)
  ∧ (∀ (s : State) n l tag e, n < 8 → region (128 * l) = .site n → s.extFind l tag = some e → (∀ m k, e.2.why ≠ .site m k) →
      exec (.cmp n l tag) s = .next (s.extEnd e.1 [] false 0).accPump))

/-- The directory (R251, R255, Table 9-4): the entry and the answer each request leaves where no copy is elsewhere; and what a fence does. -/
def Obligations.Directory : Prop :=
  (∀ (s : State) (r : CReq) (l : Nat), r.line = 128 * l → r.void = false → (tget s.lines l).isSome = true →
    let u := s.cohEnd { r := r }
    (r.k = .rdUnique → ∀ n, r.a = .site n → u.dirOf l = { owner := some n } ∧ ∃ x ∈ u.ans, x.a = r.a ∧ x.tag = r.tag ∧ x.k = .datC)
    ∧ (r.k = .upgrade → ∀ n, r.a = .site n → u.dirOf l = { owner := some n } ∧ ∃ x ∈ u.ans, x.a = r.a ∧ x.tag = r.tag ∧ x.k = .cmpE)
    ∧ (r.k = .rdShared → ∀ n, r.a = .site n → (s.dirOf l).held = false → u.dirOf l = { owner := some n } ∧ ∃ x ∈ u.ans, x.a = r.a ∧ x.tag = r.tag ∧ x.k = .datC)
    ∧ (r.k = .rdShared → ∀ n, r.a = .site n → (s.dirOf l).held = true → r.fwd = true →
        (u.dirOf l).fwd = some n ∧ (u.dirOf l).owner = none ∧ n ∈ (u.dirOf l).site ∧ ∃ x ∈ u.ans, x.a = r.a ∧ x.tag = r.tag ∧ x.k = .datF)
    ∧ (r.k = .rdShared → ∀ t, r.a = .tile t → t / 32 ∈ (u.dirOf l).bench ∧ (u.dirOf l).owner = none ∧
        ∃ x ∈ u.ans, x.a = r.a ∧ x.tag = r.tag ∧ x.k = .datS)
    ∧ (r.k = .rdNoAlloc → ∀ n, r.a = .site n → region (128 * l) ≠ .scratch → u.dirOf l = s.dirOf l ∧
        ∃ x ∈ u.ans, x.a = r.a ∧ x.tag = r.tag ∧ x.k = .datS))
  ∧
  ((∀ (s : State) n, n < 8 → s.txn = [] → (s.fence n).fenced n = true ∧ (∀ e ∈ s.lines, e.2.dir.owner = some n → 128 * e.1 ∈ (s.fence n).poison)
    ∧ (∀ x ∈ s.poison, x ∈ (s.fence n).poison) ∧ (s.fence n).mem = s.mem)
  ∧ (∀ (s : State) (r : CReq) n, r.a = .site n → s.fenced n = true →
      s.cohReq r = { s with ans := s.ans ++ [⟨.site n, r.line, r.tag, .rspErr, 0, false, 1, false, r.tc,
        if r.k = .atomic then 64 else 128⟩] })
  ∧ (∀ (s : State) l kind tag n, s.fenced n = true → (s.snoop l kind tag [n]).2 = [] ∧ (((s.snoop l kind tag [n]).1.dirOf l).owner ≠ some n)))

/-- Answers to snoops, fences, invalidations and queues (R245, R249, R251, R255, R257): what the messages do where they are awaited. -/
def Obligations.SnoopAnswers : Prop :=
  (∀ (s : State) a l k t, agentOk a = true → (∀ m, region (128 * l) ≠ .site m) → s.awaits a l = some (k, t) →
      exec (.rspI a l) s = .next (((s.modLine l fun x => { x with dir := x.dir.without k }).cohWait { t with agents := sDel t.agents k }).cohTail)
      ∧ (t.r.k = .rdNoAlloc → exec (.rspS a l) s = .next ((s.cohWait { t with agents := sDel t.agents k }).cohTail))
      ∧ (t.r.k = .rdShared → (s.dirOf l).fwd = some k → exec (.rspFwd a l) s =
          .next (((s.modLine l fun x => { x with dir := { x.dir with fwd := none } }).cohWait { t with agents := sDel t.agents k, fwdDone := true }).cohTail))
      ∧ (∀ d p, t.r.k = .rdNoAlloc → exec (.datCur a l d p) s = .next ((s.cohWait { t with agents := sDel t.agents k, cur := some (d, p) }).cohTail))
      ∧ (∀ d p, t.r.k = .rdUnique → exec (.datWb a l d p) s =
          .next ((s.write (128 * l) (leBytes 128 d.toNat) p).modLine l fun x => { x with dirty := region (128 * l) == .hbm })))
  ∧ (∀ (s : State) n l tag, n < 8 → region (128 * l) = .site n → s.powered = true → s.bget (R.siteStatus n) 31 = true → s.siteCoherent n (128 * l) = true →
      exec (.snpInv n l tag none) s = .next (State.snpInvDone { s with binv := s.binv ++ ((List.range 68).filter fun b => !s.benchDown b).map fun b => (b, l), snpInv := s.snpInv ++ [(n, l, tag)] } l)
      ∧ exec (.snpShare n l tag none) s = .next (s.toHome n l tag 10 [] false)
      ∧ exec (.snpCur n l tag none) s = .next (s.toHome n l tag 10 [] false))
  ∧ (∀ (s : State) n l tag, (∀ x ∈ s.binv, x.2 ≠ l) → s.snpInv = [(n, l, tag)] → s.snpInvDone l = State.toHome { s with snpInv := [] } n l tag 9 [] false)
  ∧ (∀ (s : State) b l w t, b < 68 → tget s.txn l = some t → b ∈ t.benches → w = s.invWriter b l → t.r.keepBench = [] →
      let u := ((List.range 32).filter fun i => w != some (32 * b + i)).foldl (fun s i => s.tileInv l (32 * b + i)) s
      exec (.benchInvalidation b l w) s = .next ((((u.modLine l fun x => { x with dir := { x.dir with bench := sDel x.dir.bench b } }).cohWait
        { t with benches := sDel t.benches b }).snpInvDone l).cohTail))
  ∧ (∀ (s : State) l r q, tgetD s.lineQ l [] = r :: q → tget s.txn l = none → s.homeReady r.line = true → s.seamHeld r.a r.line = false →
      exec (.lineQueueResume l) s = .next ((State.cohTake { s with lineQ := tset s.lineQ l [] q } r).cohTail))
  ∧ (∀ (s : State) n, n < 8 → (s.txn.any fun e => e.2.agents.contains n) = true →
      exec (.snoopTimeout (.site n)) s = .next ((((s.fset (R.cohSiteStatus n) 15 0 (satInc 16 (s.fget (R.cohSiteStatus n) 15 0) 1)).log' 1 12 2 [n]).fence n).cohTail))
  ∧ (∀ (s : State) n l tag m d p, n < 8 → exec (.datWr (.site n) l tag m d p) s = .next { s with
      txn := s.txn.map fun e : Nat × Txn => (e.1, { e.2 with r := e.2.r.withData (.site n) l tag m d p })
      lineQ := s.lineQ.map fun e : Nat × List CReq => (e.1, e.2.map fun r : CReq => r.withData (.site n) l tag m d p) })

/-- The UCIe link of a site (R264, R267 to R269): which flits are accepted, what they acknowledge, and how replay, retraining and timers go. -/
def Obligations.UcieLink : Prop :=
  ∀ (s : State) (n m : Nat), n < 8 → m < 12 →
    let k := 12 * n + m
    (∀ f, s.mst n m = 5 → (f.crcOk = false ∨ f.seq ≠ ((s.mod k).rxSeq + 1) % 4096) → (s.mod k).nakSent = false → exec (.ucieFlit n m f) s = .next
      (((s.bump (R.siteModCrcErr (k / 12) (k % 12)) 32 1).modMod k fun x => { x with nakSent := true }).emit (.ucie (k / 12) (k % 12) 1 0 (s.mod k).rxSeq [])))
    ∧ (∀ f, s.mst n m = 5 → (f.crcOk = false ∨ f.seq ≠ ((s.mod k).rxSeq + 1) % 4096) → (s.mod k).nakSent = true →
      exec (.ucieFlit n m f) s = .next (s.bump (R.siteModCrcErr (k / 12) (k % 12)) 32 1))
    ∧ (∀ f, s.mst n m = 5 → f.crcOk = true → f.seq = ((s.mod k).rxSeq + 1) % 4096 →
      let u := s.modMod k fun x => { (x.acked f.ack) with rxSeq := f.seq, nakSent := false, toAck := x.toAck + 1 }
      let c := u.modCret k f.cret
      let g := flitMsgs f.units (c.1.mod k).rest
      let v := c.1.modMod k fun x => { x with rest := g.2.1, owe := g.1.foldl (fun o p => tset o p 0 (tgetD o p 0 + 1)) x.owe }
      u.countUe 2 k = false → c.2 = none → g.2.2 = false → ((v.modPump k).mod k).toAck < 32 → exec (.ucieFlit n m f) s = .next (v.modPump k))
    ∧ (∀ a, s.mst n m = 5 →
      let u := s.modMod k fun x => x.acked a
      let q := (a + 1) % 4096
      let v := u.modMod k fun x => { x with nakSeq := q, nakRun := if x.nakSeq = q then x.nakRun + 1 else 1 }
      exec (.ucieNak n m a) s = .next ((v.modReplay k).bump (R.siteModReplay n m) 32 (v.mod k).replay.length))
    ∧ (∀ a, s.mst n m = 5 → exec (.ucieAckFlit n m a) s = .next ((s.modMod k fun x => x.acked a).modPump k))
    ∧ (s.mst n m = 5 → s.modOwes k = false → (s.mod k).toAck ≠ 0 → exec (.ucieAckTimer n m) s = .next
      ((s.modMod k fun x => { x with toAck := 0 }).emit (.ucie (k / 12) (k % 12) 2 0 (s.mod k).rxSeq [])))
    ∧ (s.mst n m = 5 → (8 ≤ (s.mod k).nakRun ∨ (s.mod k).replay ≠ []) → exec (.ucieModuleRetrain n m) s = .next
      (((s.modMod k fun x => { x with nakRun := 0 }).fset (R.siteModStatus n m) 24 21 6).bump (R.siteModRetrain n m) 32 1))
    ∧ (s.mst n m = 6 → exec (.ucieRetrainComplete n m) s = .next (((s.fset (R.siteModStatus n m) 24 21 5).modReplay k).modPump k))
    ∧ (s.mst n m = 6 → exec (.ucieRetrainTimeout n m) s = .next ((s.log' 1 12 11 [n, m]).siteReset n false false none))
    ∧ (let u := s.modSite n fun x => { x with sideDown := sIns x.sideDown m, side := ((List.range 12).find? fun i => !(sIns x.sideDown m).contains i).getD x.side }
      ((s.site n).ph ≠ .idents → exec (.ucieSidebandFailure n m) s = .next u)
      ∧ ((u.site n).ph = .idents → (u.site n).sideMask = 0 → exec (.ucieSidebandFailure n m) s = .next (u.siteHold n dState 12 false)))

/-- Site commands (R271, R275, R279, R282): status, reset and power ceiling, and what a site's own mailbox is refused. -/
def Obligations.SiteCommands : Prop :=
  (∀ s q n u, Begins s q 0x0120 u → n < 8 → (q.mbx < 16 ∨ 24 ≤ q.mbx ∨ q.mbx = 16 + n) →
      exec (.siteStatus q n) s = done u q 0x0120 0 (p32 (u.get (R.siteStatus n)).toNat ++ p64 (u.get (R.sitePwr n)).toNat))
  ∧ (∀ s q n m u, Begins s q 0x8120 u → n < 8 → (q.mbx < 16 ∨ 24 ≤ q.mbx ∨ q.mbx = 16 + n) → m < 12 →
      ∃ r, r.length = 64 ∧ exec (.siteStatusExpert q n m) s = done { u with freeCtr := u.freeCtr + 64 } q 0x8120 0 (r ++ (List.range 11).flatMap fun p =>
        p16 (tgetD (u.mod (12 * n + m)).cred p 0) ++ p16 (hubGrant p - tgetD (u.mod (12 * n + m)).owe p 0)))
  ∧ (∀ s q n u, Begins s q 0x0120 u → 16 ≤ q.mbx → q.mbx < 24 → q.mbx ≠ 16 + n → exec (.siteStatus q n) s = .next (u.axEnd q.mbx (hdr q 0x0120) 2 0 []))
  ∧ (∀ s q n u, Begins s q 0x0121 u → n < 8 → (q.mbx < 16 ∨ 24 ≤ q.mbx ∨ q.mbx = 16 + n) → u.populated n = true → (u.site n).ph = .up →
      u.rst.held.contains (76 + n) = false → exec (.siteReset q n) s = .next (u.siteReset n false false (some q.mbx)))
  ∧ (∀ s q n c r u, Begins s q 0x8121 u → n < 8 → (q.mbx < 16 ∨ 24 ≤ q.mbx ∨ q.mbx = 16 + n) → u.populated n = true → (u.site n).ph = .held →
      u.rst.held.contains (76 + n) = false → exec (.siteResetExpert q n c r) s = .next (u.siteReset n c r (some q.mbx)))
  ∧ (∀ s q n w u, Begins s q 0x0220 u → n < 8 → (q.mbx < 16 ∨ 24 ≤ q.mbx ∨ q.mbx = 16 + n) → w ≤ 175 → (u.site n).exact = false →
      let v := (((u.modSite n fun x => { x with ceil := some (8 * w) }).siteBase n (u.fget (R.sitePwr n) 33 23)).siteRegrant n).tokenCheck 1
      exec (.sitePwrSet q n w) s = done v q 0x0220 0 (p32 (v.fget (R.sitePwr n) 22 12)))
  ∧ (∀ s q n w u, Begins s q 0x0220 u → 175 < w → exec (.sitePwrSet q n w) s = .next (u.axEnd q.mbx (hdr q 0x0220) 2 0 []))
  ∧ (∀ s q n g u, Begins s q 0x8220 u → n < 8 → (q.mbx < 16 ∨ 24 ≤ q.mbx ∨ q.mbx = 16 + n) → g ≤ u.siteMax n → g ≤ u.held (76 + n) + u.freeTok 1 →
      let v := ((u.modSite n fun x => { x with exact := true, base := g }).siteRegrant n).tokenCheck 1
      exec (.sitePwrSetExpert q n g) s = done v q 0x8220 0 (p32 (v.fget (R.sitePwr n) 22 12)))

/-- Bring-up, power and temperature of a site (R271 to R281): what sideband messages, averages and timeouts do, in the cases stated. -/
def Obligations.SiteEvents : Prop :=
  ∀ (s : State) (n : Nat), n < 8 →
    (∀ w v, (s.site n).ph = .idents → w ≤ 8 →
      let u := ((s.siteHeard n).set (R.siteId n w) (BitVec.ofNat 64 v.toNat)).modSite n fun x => { x with words := sIns x.words w }
      ((u.site n).words.length < 9 → exec (.idRsp n w v) s = .next u)
      ∧ (9 ≤ (u.site n).words.length → u.idw n 0 23 16 = u.siteType n → u.siteSerial n = (tgetD u.fuse.siteSerial n 1).toNat → u.idRanges n = true →
        let x := (u.fset (R.sitePwr n) 63 56 (u.idw n 8 31 22)).fset (R.sitePwr n) 44 34 (u.idw n 8 21 11)
        exec (.idRsp n w v) s = .next (((x.fset (R.sitePwr n) 33 23 (u.idw n 8 10 0)).modsAll n 3).modSite n fun x => { x with ph := .training }))
      ∧ (9 ≤ (u.site n).words.length → u.idw n 0 23 16 ≠ u.siteType n →
        exec (.idRsp n w v) s = .next ((u.bset (R.siteStatus n) 28 true).siteHold n dSiteMismatch 3 true)))
    ∧ (∀ k spares, (s.site n).ph = .training → k = (List.range 12).foldl (fun k m => if s.bget (R.siteModStatus n m) 30 then k + 2 ^ m else k) 0 → k ≠ 0 →
      let u := (List.range 12).foldl (fun s m => if nbit k m then s.modSpares n m (spares.getD m 0) else s.set (R.siteModStatus n m) (BitVec.ofNat 64 (7 * 2 ^ 21)))
        (s.emit (.sideband n sbSiteMods k))
      let v := (u.fset (R.siteStatus n) 11 0 k).modSite n fun x => { x with ph := .ack }
      exec (.siteMods n ⟨k, spares⟩) s = .next (((v.siteBase n (min (v.idw n 8 10 0) v.siteShare)).siteGrant n).tokenCheck 1))
    ∧ (∀ v p, s.sitePowered n = true → (s.site n).exact = false → s.bget R.safStatus 29 = false → 110 ≤ v → v ≤ 210 →
      exec (.pwrReq n v p) s = .next (((((s.fset (R.sitePwr n) 33 23 p).fset (R.sitePwr n) 63 56 v).siteBase n p).siteGrant n).tokenCheck 1))
    ∧ (∀ q i, (s.site n).sent.findIdx? (fun p : Nat × Nat => p.1 == q) = some i →
      let rest := (s.site n).sent.drop i
      let u := ((s.modSite n fun x => { x with sent := rest.drop 1 }).hold (76 + n) (rest.foldl (fun m p => max m p.2) 0)).tokenCheck 1
      exec (.pwrAck n q) s = .next (if (u.site n).ph = .ack then u.siteUp n else u))
    ∧ (∀ t, s.siteRailsOn n = true → s.idw n 7 23 16 ≠ 0 → t < s.idw n 7 23 16 → exec (.therm n t) s = .next ((s.fset (R.sitePwr n) 7 0 t).siteHot n 0))
    ∧ (∀ t, s.siteRailsOn n = true → s.idw n 7 23 16 ≠ 0 → s.idw n 7 23 16 < t → t < s.idw n 7 23 16 + 5 → exec (.therm n t) s = .next ((s.fset (R.sitePwr n) 7 0 t).siteHot n 1))
    ∧ (∀ t, s.siteRailsOn n = true → s.idw n 7 23 16 ≠ 0 → s.idw n 7 23 16 + 5 ≤ t →
      exec (.therm n t) s = .next (((s.fset (R.sitePwr n) 7 0 t).log' 1 12 7 [n, t]).siteCut n))
    ∧ (∀ ms, s.siteRailsOn n = true → s.idw n 7 23 16 ≠ 0 → 10 ≤ ms → ms < 100 → exec (.thermTimeout n ms) s = .next (s.siteHot n 1))
    ∧ (∀ ms, s.siteRailsOn n = true → s.idw n 7 23 16 ≠ 0 → 100 ≤ ms → exec (.thermTimeout n ms) s = .next ((s.log' 1 12 7 [n, 0]).siteCut n))
    ∧ ((s.site n).ph = .scrubbing → exec (.scrubAck n true) s = .next (((s.siteHeard n).bset (R.siteStatus n) 29 false).siteIdent n))
    ∧ ((s.site n).ph = .scrubbing → exec (.scrubTimeout n) s = .next ((s.bset (R.siteStatus n) 29 true).siteHold n dState 6 false))
    ∧ (∀ c, exec (.chipErr n c) s = .next (s.log' 1 12 8 [n, c]))
    ∧ (∀ a, s.siteRailsOn n = true → s.bget R.safStatus 29 = false → 1400 < a →
      exec (.sitePowerAverage n a) s = .next (((s.fset (R.sitePwr n) 55 45 a).log' 1 12 9 [n, a]).siteCut n))
    ∧ (∀ a, s.siteRailsOn n = true → s.bget R.safStatus 29 = false → (s.site n).gseq ≠ 0 → a ≤ 1400 → s.fget (R.sitePwr n) 22 12 < a → exec (.sitePowerAverage n a) s = .next
      ((((s.fset (R.sitePwr n) 55 45 a).modSite n fun x => { x with overAvg := true }).siteGrant n).log' 1 12 9 [n, a]))
    ∧ (∀ a, s.siteRailsOn n = true → (s.site n).overAvg = true → s.fget (R.sitePwr n) 22 12 < a →
      exec (.siteOverpowerRecheck n a) s = .next ((s.log' 1 12 9 [n, a]).siteCut n))
    ∧ (∀ a, s.siteRailsOn n = true → (s.site n).overAvg = true → a ≤ s.fget (R.sitePwr n) 22 12 →
      exec (.siteOverpowerRecheck n a) s = .next (s.modSite n fun x => { x with overAvg := false }))

/-- The state store and HBM (R194, R195, R202 to R208, R214 to R217, Tables 9-8, 9-9): what commands and events do, refuse and answer, in the cases stated. -/
def Obligations.MemoryUnits : Prop :=
  ((∀ s q k u, Begins s q 0x0301 u → (k = 0 ∨ 8 < k) → exec (.memSsConfig q k) s = .next (u.axEnd q.mbx (hdr q 0x0301) 2 0 []))
  ∧ (∀ s q n m u, Begins s q 0x8301 u → (n % 2 = 0 ∨ m % 2 = 0) → exec (.memSsConfigExpert q n m) s = .next (u.axEnd q.mbx (hdr q 0x8301) 2 0 []))
  ∧ (∀ s q n m u, Begins s q 0x8301 u → n % 2 = 1 → m % 2 = 1 → n < 256 → m < 256 → u.t0Meets (lost n (u.maskOf 0)) (lost m (u.maskOf 1)) = true →
      exec (.memSsConfigExpert q n m) s = refused u q 0x8301 dState)
  ∧ (∀ s q n m i cmd u, ((i = .memSsConfigExpert q n m ∧ cmd = 0x8301) ∨ ∃ k, 1 ≤ k ∧ k ≤ 8 ∧ n = 2 ^ k - 1 ∧ m = n ∧ i = .memSsConfig q k ∧ cmd = 0x0301) →
      Begins s q cmd u → n % 2 = 1 → m % 2 = 1 → n < 256 → m < 256 → u.t0Meets (lost n (u.maskOf 0)) (lost m (u.maskOf 1)) = false → u.ssJob = none →
      let on := u.maskOf 0
      let os := u.maskOf 1
      let rec' := u.hbmLines fun e => nbit (if u.homeSlice (128 * e.1) < 128 then lost on n else lost os m) (e.2.way / 8)
        && !nbit (u.fget (R.ssCfg (u.homeSlice (128 * e.1))) 15 8) (e.2.way / 8)
      let pur := (u.lines.filter fun e => region (128 * e.1) == .scratch
        && nbit (if scrSlice (128 * e.1) < 128 then lost n on else lost m os) (scrGran (128 * e.1))).map (·.1)
      exec i s = .next (u.jobStart { mbx := some q.mbx, masks := some (n, m) } rec' pur))
  ∧ (∀ s q u, Begins s q 0x0302 u → u.ssJob = none →
      let d := u.hbmLines (·.2.dirty)
      exec (.memSsFlush q) s
        = if d.all fun l => u.stackReady (128 * l) then done (d.foldl State.cleanLine u) q 0x0302 0 (p32 d.length)
          else .next { u with ssJob := some { mbx := some q.mbx, clean := d, written := d.length } }.jobClean)
  ∧ (∀ s q b l i u, Begins s q 0x8302 u → b % 128 = 0 → l % 128 = 0 → l ≠ 0 → u.hbmBacked b = true → u.hbmBacked (b + l - 1) = true → u.ssJob = none →
      let f (e : Nat × Line) : Bool := decide (b ≤ 128 * e.1) && decide (128 * e.1 < b + l)
      let d := u.hbmLines fun e => f e && e.2.dirty
      exec (.memSsFlushExpert q b l i) s
        = if i then .next (u.jobStart { mbx := some q.mbx } (u.hbmLines f) [])
          else if d.all fun l => u.stackReady (128 * l) then done (d.foldl State.cleanLine u) q 0x8302 0 (p32 d.length)
          else .next { u with ssJob := some { mbx := some q.mbx, clean := d, written := d.length } }.jobClean)
  ∧ (∀ s q b l i c u, ((i = .memSsFlush q ∧ c = 0x0302) ∨ (i = .memSsFlushExpert q b l false ∧ c = 0x8302 ∧ b % 128 = 0 ∧ l % 128 = 0 ∧ l ≠ 0 ∧ u.hbmBacked b = true ∧ u.hbmBacked (b + l - 1) = true)) →
      Begins s q c u → u.ssJob ≠ none → exec i s = .next (u.axEnd q.mbx (hdr q c) 3 0 []))
  ∧ (∀ s q u, Begins s q 0x0303 u → exec (.memHbmStatus q) s
      = done u q 0x0303 0 ((List.range 6).flatMap fun t => p32 (u.get (R.hbmStatus t)).toNat ++ p32 (u.get (R.hbmChmap t)).toNat))
  ∧ (∀ s q t c u, Begins s q 0x8303 u → t < 6 → c < 32 →
      ∃ r, r.length = 64 ∧ exec (.memHbmStatusExpert q t c) s = done { u with freeCtr := u.freeCtr + 64 } q 0x8303 0 r)
  ∧ (∀ s q u, Begins s q 0x0304 u → exec (.memScrubSet q) s = done { u with hbmPatrolH := 24, ssPatrolH := 1 } q 0x0304 0 [])
  ∧ (∀ s q h p u, Begins s q 0x8304 u → 1 ≤ h → h ≤ 168 → 1 ≤ p → p ≤ 24 →
      exec (.memScrubSetExpert q h p) s = done { u with hbmPatrolH := h, ssPatrolH := p } q 0x8304 0 [])
  ∧ (∀ s q f c u, Begins s q 0x0305 u → 1 ≤ c → c ≤ 64 → exec (.memErrRead q f c) s
      = done u q 0x0305 0 (((u.memErr.drop f).take c).flatMap fun e => p32 e.unit ++ p32 e.kind ++ p64 e.addr ++ p64 e.time.toNat))
  ∧ (∀ s q a u, Begins s q 0x0306 u → a < 2 ^ 46 →
      exec (.memDirProbe q a) s = done u q 0x0306 0 (p64 (u.probe (a / 128 * 128)).1 ++ p64 (u.probe (a / 128 * 128)).2)))
  ∧
  (∀ s : State,
    (∀ a, (tget s.lines (a / 128) ≠ none ∨ s.scrBacked a = true) → exec (.ssPatrolRead a) s = .next (s.meetLine a))
    ∧ (∀ a, s.hbmBacked a = true → tget s.lines (a / 128) = none → s.stackReady a = true → exec (.hbmPatrol a) s = .next ((s.hbmReq a false).meetLine a))
    ∧ (∀ a, s.stackReady a = false → exec (.hbmPatrol a) s = .next s)
    ∧ (∀ h, h < 2 → exec (.ssPowerupInvalidate h) s = .next (({ s with ssInv := sIns s.ssInv h }.ssDrop h).bset R.hubMemStatus 31 false))
    ∧ (∀ h, s.ssInv = [h] → s.powered = true → h < 2 → exec (.ssInvalidateComplete h) s = .next ({ s with ssInv := [] }.bset R.hubMemStatus 31 true))
    ∧ (∀ h, h < 2 →
      let hi := if h = 0 then 29 else 27
      let c := s.fget R.hubMemStatus hi (hi - 1)
      let t := s.halfTemp h
      let n := if 102 < t ∨ (c = 2 ∧ 100 ≤ t) then 2 else if 95 < t ∨ (1 ≤ c ∧ 93 ≤ t) then 1 else 0
      exec (.ssThermalSample h) s = .next (if n = c then s else (s.fset R.hubMemStatus hi (hi - 1) n).log' 1 15 2 [h, n]).jobEnd)
    ∧ (∀ t v, t < 6 →
      let c := s.fget (R.hbmStatus t) 27 26
      let n := if 95 ≤ v ∨ (c = 2 ∧ 93 ≤ v) then 2 else if 93 ≤ v ∨ (1 ≤ c ∧ 91 ≤ v) then 1 else 0
      let w := setFld (setFld (s.get (R.hbmStatus t)) 15 8 v) 27 26 n
      let u := s.set (R.hbmStatus t) (if fld w 29 28 = 2 then w else setFld w 29 28 (if 85 < v then 1 else 0))
      exec (.hbmTempRead t v) s = .next (if n = 2 ∧ c ≠ 2 then u.log' 0 16 2 [t, v] else u).jobEnd)
    ∧ (∀ t, t < 6 → s.bget (R.hbmStatus t) 31 = true →
      (∀ k b, s.hbmBus.find? (fun e => e.1 / 64 == t && decide (0 < e.2.2.2)) = some (k, b) → exec (.hbmForcedTurn t) s = .next (s.hbmTurn k b))
      ∧ (s.hbmBus.find? (fun e => e.1 / 64 == t && decide (0 < e.2.2.2)) = none → exec (.hbmForcedTurn t) s = .next (s.bump (R.hbmTurn t) 64 1)))
    ∧ (∀ t, t < 6 → s.bget (R.hbmStatus t) 31 = false → exec (.hbmForcedTurn t) s = .next s)
    ∧ (∀ a b, s.hbmBacked a = true → tget s.lines (a / 128) = none → s.inSide (a / 128) = false → s.lineBusy (a / 128) = false → s.stackReady a = true →
      (if b then s.hoistNext a else s.streamAt (a / 128)) = true →
      (if s.halfOf a = 0 then s.fget R.regStatus 35 32 else s.fget R.regStatus 39 36) ≤ s.fget R.regCongCfg 11 8 →
      let u := (s.hbmReq a false).meetLine (128 * (a / 128))
      exec (.slicePrefetch a b) s = .next (if u.poison.contains (128 * (a / 128)) then u else u.sidePut (a / 128)))
    ∧ (∀ a n t, s.hbmBacked (a / 128 * 128) = true → s.stackReady (a / 128 * 128) = true → tget s.txn (a / 128 * 128 / 128) = some t → t.fill = true → t.r.tc ≠ 0 →
      let b := a / 128 * 128
      let l := b / 128
      let p := s.partOf t.r.a
      let bare := t.r.k.reads && decide (p < 16) && s.fget (R.regPartSs p) 6 0 == 0 && (agentNo t.r.a).isNone
      let m := if bare then (s, true) else s.ssRoom l p
      let v := (m.1.hbmReq b false).meetLine b
      let w := { v with txn := tdel v.txn l }
      exec (.hbmFillReturn a n) s
        = .next (if m.2 then (if bare then (w.countBytes t.r.a b t.r.tc 128).answer t.r .datS (w.lineData b) (w.poison.contains b) false 0
            else (w.ssInsert l t.r.fillAge p false).cohGo t.r) else m.1).jobEnd)
    ∧ (∀ a n, s.stackReady (a / 128 * 128) = false → exec (.hbmFillReturn a n) s = .next s.jobEnd)
    ∧ (∀ v, bit v 63 = true →
      let u := s.fset R.cohDirProbeCtl 45 7 (fld v 45 7)
      let p := s.fset R.cohDirProbeCtl 45 7 (fld v 45 7) |>.probe (fld v 45 7 * 128)
      exec (.dirProbeGo v) s = .next (((u.set R.cohDirProbeRes (BitVec.ofNat 64 p.1)).set R.cohDirProbeBench (BitVec.ofNat 64 p.2)).fset R.cohDirProbeCtl 62 62 1)))

/-- The commands on dressings (R147 to R155, Tables 5-5 to 5-9): what they do, what a handle turns away, and the map that is read. -/
def Obligations.DressingCommands : Prop :=
  (∀ s q g z c lb sb w o i cmd (p : LoadOpt) u, ((i = .fabDrsLoad q g z c ∧ cmd = 0x0401 ∧ p = {})
        ∨ (i = .fabDrsLoadExpert q g z c lb sb w o ∧ cmd = 0x8401 ∧ (w = 0xFF ∨ w < 64) ∧ p = { base := some (lb, sb), swap := if w = 0xFF then none else some w, oversub := o })) →
      Begins s q cmd u → c < 4096 →
      (∀ v, ImageHole u g z v → exec i s = refused v q cmd dBadHeader)
      ∧ (u.imgHole g.toNat z = false → u.imgReady g.toNat z = false → exec i s = imageAwaited u q g z)
      ∧ (∀ img v, ImageAt u g z img v →
        (imgHeadOk img = false → exec i s = refused v q cmd dBadHeader)))
  ∧ (∀ s q g z c w o u lb sb, Begins s q 0x8401 u → 64 ≤ w → w ≠ 0xFF → exec (.fabDrsLoadExpert q g z c lb sb w o) s = .next (u.axEnd q.mbx (hdr q 0x8401) 2 0 []))
  ∧ (∀ s q h x hold d i cmd u, ((i = .fabDrsActivate q h x ∧ cmd = 0x0402 ∧ hold = false) ∨ (i = .fabDrsActivateExpert q h x hold ∧ cmd = 0x8402)) →
      Begins s q cmd u → (x < 8192 ∨ x = 0xFFFF) → h < 64 → tget u.dress h = some d → d.mbx = none → u.fget R.stwPstate 31 30 ≠ 1 →
      (d.st ≠ .loaded → exec i s = refused (u.putD h { d with last := dState, mbx := none }) q cmd dState)
      ∧ (d.st = .loaded → u.bget (R.xltCtx d.ctx) 63 = false → exec i s = refused (u.putD h { d with last := dContextDead, mbx := none }) q cmd dContextDead)
      ∧ (∀ img v, d.st = .loaded → u.bget (R.xltCtx d.ctx) 63 = true → (u.tilesOf d).any u.isolated.contains = false → u.tilesHeld h d = false →
        ImageAt u (BitVec.ofNat 64 d.image) d.size img v →
        let gs := (imgSegs img).getD []
        ((imgDigestOk img (imgU img 0x10 4) && BitVec.ofNat 512 (imgU img 0x30 64) == d.digest) = false →
          exec i s = refused ((v.freeSegs d (segPlaces gs)).putD h { d with last := dDigest, mbx := none }) q cmd dDigest)
        ∧ (imgDigestOk img (imgU img 0x10 4) = true → BitVec.ofNat 512 (imgU img 0x30 64) = d.digest → (∀ y, y ∈ d.streams → y.siteEp = none) →
          let st := ((recsOf img (imgSects img) 3).filter (fun r => nbit (imgU r 28 1) 0)).map fun r => imgU r 0 2
          let e := { v.keepUndo d with st := .activating, mbx := some q.mbx, obj := x, hold := hold, phase := 5, await := [], handed := [], starts := st, segs := segPlaces gs, freed := [] }
          let w := { v with rst := { v.rst with idle := v.rst.idle.filter fun b => !((v.tilesOf e).map (· / 32)).contains b } }
          let y := ((w.copySegs e gs).putD h e).presets e img
          exec i s = done ((d.streams.foldl (fun s x => s.bindStream e x) y).actFinish h e) q cmd 0 [])))
  ∧ (∀ s q h d u, Begins s q 0x0403 u → h < 64 → tget u.dress h = some d → d.mbx = none → d.st = .active → exec (.fabDrsDeactivate q h) s
      = .next (u.putD h { d with st := .deactivating, mbx := some q.mbx, phase := 0, swapTo := none, unload := false }))
  ∧ (∀ s q h n d u, Begins s q 0x8403 u → n ≤ 10000 → h < 64 → tget u.dress h = some d → d.mbx = none → d.st = .active → exec (.fabDrsDeactivateExpert q h n) s
      = .next (u.putD h { d with st := .deactivating, mbx := some q.mbx, phase := if n = 0 then 1 else 0, swapTo := none, unload := false }))
  ∧ (∀ s q a b n d e i cmd u, ((i = .fabDrsSwap q a b ∧ cmd = 0x0404 ∧ n = 100) ∨ (i = .fabDrsSwapExpert q a b n ∧ cmd = 0x8404)) → Begins s q cmd u → n ≤ 10000 → a < 64 → b < 64 →
      tget u.dress a = some d → tget u.dress b = some e → d.mbx = none → e.mbx = none →
      exec i s = if d.st = .active ∧ e.st = .loaded ∧ e.target = some a
        then .next ((u.putD a { d with st := .deactivating, mbx := some q.mbx, phase := if n = 0 then 1 else 0, swapTo := some b, unload := false }).putD b { e with mbx := some q.mbx })
        else refused u q cmd dState)
  ∧ (∀ s q h d u, Begins s q 0x0405 u → h < 64 → tget u.dress h = some d → d.mbx = none → exec (.fabDrsUnload q h) s = match d.st with
      | .loaded => done (u.drsRelease h d) q 0x0405 0 []
      | .active => .next (u.putD h { d with st := .deactivating, mbx := some q.mbx, phase := 0, swapTo := none, unload := true })
      | .dead => .next (u.stopUnbind h { d with mbx := some q.mbx, unload := true })
      | _ => refused u q 0x0405 dState)
  ∧ (∀ s q h d i cmd u, ((i = .fabDrsActivate q h 0xFFFF ∧ cmd = 0x0402) ∨ (i = .fabDrsDeactivate q h ∧ cmd = 0x0403) ∨ (i = .fabDrsUnload q h ∧ cmd = 0x0405)) → Begins s q cmd u →
      (h < 64 → tget u.dress h = some d → d.mbx.isSome = true → exec i s = .next (u.axEnd q.mbx (hdr q cmd) 3 0 []))
      ∧ (h < 64 → tget u.dress h = none → exec i s = refused u q cmd dBadHandle)
      ∧ (64 ≤ h → exec i s = .next (u.axEnd q.mbx (hdr q cmd) 2 0 [])))
  ∧ (∀ s q h d u, Begins s q 0x0406 u → h < 64 → tget u.dress h = some d → exec (.fabDrsStatus q h) s
      = done u q 0x0406 0 (p16 d.st.code ++ p16 d.ctx ++ leBytes 8 d.dressId.toNat ++ p16 d.lbase ++ p16 d.sbase ++ p16 d.n ++ p16 d.syncs ++ p16 d.last))
  ∧ (∀ s q f n u, Begins s q 0x0407 u → 1 ≤ n → n ≤ 512 → f + n ≤ 2048 → exec (.fabMapRead q f n) s
      = done u q 0x0407 0 ((List.range n).flatMap fun i => p32 (match u.ptile (f + i) with | some p => 2 ^ 31 + p | none => 0)))

/-- Stop phases and the stream messages of sites (R153, R278, Table 5-8): what events do to a dressing, in the cases stated. -/
def Obligations.DressingEvents : Prop :=
  ∀ (s : State) (h : Nat) (d : Dressing), h < 64 → tget s.dress h = some d →
    (d.st = .deactivating → d.phase = 0 → exec (.drsDrainTimeout h) s = .next (s.putD h { d with phase := 1 }))
    ∧ (∀ e, d.st = .deactivating → (d.phase = 1 ∨ (d.phase = 0 ∧ s.allEnded d = true)) → (∀ p, p ∈ s.tilesOf d → (s.tile p).bundle = none) → tget (s.detachAll h).dress h = some e →
      exec (.drsStopPhase h) s = .next ((((s.detachAll h).tilesOf e).foldl State.haltTile (s.detachAll h)).stopTiles h
          { e with unended := ((s.tilesOf d).filter fun p => !s.bget (R.tileSeqStatus p) 30).length, phase := 2 }))
    ∧ (d.st = .deactivating → d.phase = 2 → exec (.drsStopPhase h) s = .next (s.stopTiles h d))
    ∧ (d.st = .deactivating → d.phase = 4 → exec (.drsStopPhase h) s = .next (s.stopEnd h d))
    ∧ (d.st ≠ .deactivating → exec (.drsStopPhase h) s = .next s ∧ exec (.drsDrainTimeout h) s = .next s)
    ∧ (∀ n x k w, n < 8 → k ≤ 4096 →
      let c := decide (1 ≤ k)
      let y := epKey c (n * 65536 + x)
      s.siteStream n x c (Dressing.awaits .activating 5 y) = some (h, d, w) →
      let u := if c then s.fset (R.tileSoutStat (s.dtile d (nbits w.prod 10 0)) (nbits w.prod 17 16)) 12 0 k else s
      let e := { d with await := sDel d.await y, streams := if c then d.streams.map (DStream.granted w.cons k) else d.streams }
      exec (.sgrant n x k) s = .next (if e.await = [] then (match d.mbx with | some m => (u.actFinish h e).axFinish m 0 0 [] | none => u.actFinish h e) else u.putD h e))
    ∧ (∀ n m, n < 8 → d.st = .activating → d.await.any (fun k => epSite k == n) = true → d.mbx = some m →
      exec (.sgrantTimeout h n) s = .next (((s.sendUnbinds d).actUndo h d dSiteNoGrant).axFinish m 4 dSiteNoGrant []))
    ∧ (∀ n x w f, n < 8 → s.siteStream n x false (fun _ => true) = some (h, d, w) →
      exec (.sflit n x f) s = .next (s.arrive (s.dtile d (nbits w.cons 10 0)) (nbits w.cons 17 16) f))
    ∧ (∀ n x w c, n < 8 → s.siteStream n x true (fun _ => true) = some (h, d, w) →
      exec (.scredit n x c) s = .next (s.creditIn (s.dtile d (nbits w.prod 10 0)) (nbits w.prod 17 16) c))
    ∧ (∀ n x w c k, n < 8 → k < 8192 → s.unboundOf n x = some (h, d, w, c) →
      let e := { d with await := sDel d.await (epKey c (n * 65536 + x)), handed := tput d.handed (epKey c (n * 65536 + x)) k }
      exec (.sunbound n x k) s = .next (if e.await = [] then s.stopEnd h e else s.putD h e))
    ∧ (∀ n, n < 8 → d.phase = 3 → d.await.any (fun k => epSite k == n) = true →
      let late := d.await.filter fun k => epSite k == n
      let held := (d.streams.filter fun x => match x.siteEp with | some (c, e) => !c && late.contains (epKey c e) | none => false).foldl
        (fun n x => n + s.fget (R.tileSinStat (s.dtile d (nbits x.cons 10 0)) (nbits x.cons 17 16)) 12 0) 0
      let u := { s with siteHeld := tset s.siteHeld n 0 (tgetD s.siteHeld n 0 + held) }.log' 1 12 1 [n, h]
      let e := { d with await := d.await.filter fun k => epSite k != n }
      exec (.sunboundTimeout h n) s = .next (if e.await = [] then u.stopEnd h e else u.putD h e))

/-- Self-test in service and the audits (R300 to R303, R403 to R405, R447, R454 to R456, Table 12-4): what commands and checks do, in the cases stated. -/
def Obligations.SelfTestsAndAudits : Prop :=
  (∀ s q k n u i cmd stop, Begins s q cmd u → bistUnitOk k n = true →
      ((i = .diagBistRun q k n ∧ cmd = 0x0801 ∧ stop = false)
        ∨ (∃ bg es lo hi ps sd, i = .diagBistRunExpert q k n bg es lo hi ps sd stop ∧ cmd = 0x8801 ∧ 1 ≤ bg ∧ bg ≤ 15 ∧ es.length ≤ 8 ∧ (∀ e, e ∈ es → nbits e.toNat 11 8 = 0)
          ∧ lo ≤ hi ∧ hi ≤ 0x7FFF ∧ 1 ≤ ps ∧ ps ≤ 2 ^ 20)) →
      u.fget R.stwPstate 31 30 ≠ 1 → (u.bootState = 2 ∨ u.bootState = 3) →
      (u.bistFree k n = false → exec i s = refused u q cmd dState)
      ∧ (u.bistFree k n = true → u.bist.online ≠ [] → exec i s = .next (u.axEnd q.mbx (hdr q cmd) 3 0 []))
      ∧ (u.bistFree k n = true → u.bist.online = [] → u.bistTaken k n = true → exec i s = .next (u.drew.axEndR q.mbx (hdr q cmd) 3 0 (u.free.toNat % 65536) []))
      ∧ (u.bistFree k n = true → u.bist.online = [] → u.bistTaken k n = false → (∀ b, bistBench k n = some b → u.bistBenches.length < 8 ∨ u.bistBenches.contains b = true) →
        exec i s = .next { u with bist := { u.bist with next := u.bist.next + 1, active := tput u.bist.active u.bist.next ⟨k, n, bistBench k n, some q.mbx, stop⟩ } }))
  ∧ (∀ s r a fails, tget s.bist.active r = some a → a.kind ≤ 3 → a.stop = false →
      let u := ({ s with bist := { s.bist with active := tdel s.bist.active r } }.bistKeep r fails).zero (lmBase a.unit) 0x80000
      let v := if fails = [] then u else u.bistFail a.unit
      exec (.diagBistComplete r fails) s = .next (match a.mbx with | some m => v.benchesNext.axFinish m 0 0 (p32 r) | none => v.benchesNext))
  ∧ (∀ s q r e u, Begins s q 0x0802 u → u.bist.done.find? (fun e => e.1 == r) = some e → exec (.diagBistResult q r) s
      = done u q 0x0802 0 (p16 (b2n e.2.2) ++ p16 e.2.1.length ++ e.2.1.flatMap fun x => leBytes 32 x.toNat))
  ∧ (∀ s r fails, r < 9 → (s.bootState = 2 ∨ s.bootState = 3) → s.bget R.stwStatus 31 = true → s.asleep = false → exec (.onlineBistRound r fails) s
      = .next (if s.bist.online = [] then ((List.range 68).foldl (fun s b => s.fset (R.safObist b) 15 0 (satInc 16 (s.fget (R.safObist b) 15 0) 1)) s).roundGo r
          else s.roundEnd fails))
  ∧ (∀ s, s.bist.stopped = true → s.bget R.pwrSupplyStatus 31 = false → exec .bistRoundRestart s = .next (s.roundGo (s.fget R.safStatus 19 16)))
  ∧ (∀ s t p, t < 2176 → nbit (tgetD s.saf.why t 0) 0 = true → s.reservedBy t = none → exec (.datapathRetest t p) s
      = .next (if p = false then s.bistFail t else if (s.tile t).dpFaults = 1 ∧ (s.tile t).dpInjected = false then s.isoClear t 0 else s))
  ∧ (∀ s q u, Begins s q 0x040A u → exec (.fabSyncAudit q 0xFF) s = done ((u.syncCheck 0).syncCheck 1) q 0x040A 0 (u.syncAudit 0 ++ u.syncAudit 1))
  ∧ (∀ s q h u, Begins s q 0x040A u → h < 2 → exec (.fabSyncAudit q h) s = done (u.syncCheck h) q 0x040A 0 (u.syncAudit h))
  ∧ (∀ s q h d u, Begins s q 0x040B u → h < 64 → tget u.dress h = some d → d.mbx = none → exec (.fabCreditAudit q h) s
      = done (d.streams.foldl (fun s x => s.creditCheck h d x) u) q 0x040B 0
          (d.streams.flatMap fun x => p16 (u.creditSums h d x).1 ++ p16 (u.creditSums h d x).2.1 ++ p16 (u.creditSums h d x).2.2.1 ++ p16 (u.creditSums h d x).2.2.2))
  ∧ (∀ s q i u, Begins s q 0x0810 u → i < 96 → exec (.diagLinkAudit q 1 i) s = done u q 0x0810 0 ((List.range 11).flatMap fun p =>
      p16 (u.chipGrant (i / 12) p) ++ p16 (tgetD (u.mod i).cred p 0) ++ p16 (b2n (u.modIdle i p))))
  ∧ (∀ s q i u, Begins s q 0x0810 u → i < 8 → exec (.diagLinkAudit q 2 i) s = done u q 0x0810 0 ((List.range 16).flatMap fun p =>
      p16 (tgetD (u.port i).cap p 0) ++ p16 (tgetD (u.port i).cells p 0) ++ p16 (b2n (u.portIdle i p))))
  ∧ (∀ s q i u, Begins s q 0x0810 u → i < 408 → linkReal (i / 6) (i % 6) = true → exec (.diagLinkAudit q 0 i) s = done u q 0x0810 0 ((List.range 18).flatMap fun p =>
      p16 (Config.meshGrant p) ++ p16 (u.meshCred (i / 6) (i % 6) p) ++ p16 1))
  ∧ (∀ s b l p f, b < 68 → l < 6 → linkReal b l = true → p < 18 →
      (s.countUe 1 (6 * b + l) = true → exec (.meshCreditIdleCheck b l p f) s = .next ((s.countMet 1 (6 * b + l)).meshAct b l))
      ∧ (s.countUe 1 (6 * b + l) = false →
        let u := { s with meshHeld := tset s.meshHeld (32 * (6 * b + l) + p) (Config.meshGrant p) f }
        exec (.meshCreditIdleCheck b l p f) s = .next (if f = Config.meshGrant p then u
          else (u.breach 1 (6 * b + l) ((Config.meshGrant p : Int) - f) false).regionGo (if linkSeam b l then 92 else (linkTo b l).getD b) none false)))
  ∧ (∀ s n p f, n < 96 → p < 11 →
      (s.countUe 2 n = true → exec (.ucieCreditIdleCheck false n p f) s = .next ((s.countMet 2 n).ucieReset (n / 12)))
      ∧ (s.countUe 2 n = false → s.modUp (n / 12) (n % 12) = true → exec (.ucieCreditIdleCheck false n p f) s = .next (if f = s.chipGrant (n / 12) p then s
          else s.ucieBreach (n / 12) (n % 12) ((s.chipGrant (n / 12) p : Int) - f))))
  ∧ (∀ s n p f, n < 8 → p < 16 →
      (s.countUe 3 n = true → exec (.ucieCreditIdleCheck true n p f) s = .next ((s.countMet 3 n).portReset n))
      ∧ (s.countUe 3 n = false → s.portUp n = true → exec (.ucieCreditIdleCheck true n p f) s = .next (if f = tgetD (s.port n).cap p 0 then s
          else (s.breach 3 n (((tgetD (s.port n).cap p 0 : Nat) : Int) - f) false).portReset n)))

/-- Sequences and pages (R158 to R161, R168, R169, R174): what commands of the context store do to the store, in the cases stated. -/
def Obligations.StoreCommands : Prop :=
  (∀ s q b l n d c t0 i cmd u, Begins s q cmd u → ((i = .ctxStoreInit q b l n d ∧ cmd = 0x0510 ∧ c = d / 512 + 2 ^ n / 128 ∧ t0 = []) ∨ (i = .ctxStoreInitExpert q b l n d c t0 ∧ cmd = 0x8510)) →
      (u.storeInit = true → exec i s = refused u q cmd dState)
      ∧ (u.storeInit = false → u.initOk b l n d t0 = true → t0.eraseDups.length = t0.length →
        let b1 := b + up64K (2 ^ n * 64)
        let b2 := b1 + up64K (d * 32)
        let b3 := b2 + up64K (c * 4096)
        (b + l < b3 → exec i s = .next (u.axEnd q.mbx (hdr q cmd) 2 0 []))
        ∧ (b3 ≤ b + l →
          let v := u.zero b (b3 - b)
          let w := ((v.set R.ctxSeqBase (BitVec.ofNat 64 b)).set R.ctxDescBase (BitVec.ofNat 64 b1)).set R.ctxDescCount (BitVec.ofNat 64 d)
          let x := { w.bset R.ctxStoreStatus 31 true with keyCtr := u.keyCtr + 1 }
          exec i s = done (x.modStore fun _ => { rBase := b, rLen := l, cap := 2 ^ n, chunkBase := b2, chunks := c, descFree := d, curKey := u.keyCtr + 1, pools := (if t0 = [] then [] else [(0, t0.map fun g => (16 * g, 16))]) ++ [(1, [(b3 / 0x10000, (b + l - b3) / 0x10000)])] })
            q cmd 0 (p64 b ++ p64 b1 ++ p64 b2 ++ p64 ((b + l - b3) / 0x10000)))))
  ∧ (∀ s q e c g r f p w k x i cmd u, Begins s q cmd u → u.storeInit = true →
      ((i = .ctxSeqOpen q e c g r f p w ∧ cmd = 0x0501 ∧ k = 0) ∨ (i = .ctxSeqOpenExpert q e c g r f p w k x ∧ cmd = 0x8501)) →
      (openOk c g r f p w.toNat k = false → exec i s = .next (u.axEnd q.mbx (hdr q cmd) 2 0 []))
      ∧ (openOk c g r f p w.toNat k = true →
        (∀ ks v, ((cmd = 0x0501 ∧ v = u ∧ ks = (List.range g).map (· % 2)) ∨ (cmd = 0x8501 ∧ ∃ bs, ImageAt u x g bs v ∧ ks = bs.map (·.toNat))) →
          exec i s = .next (axTakeUp q.mbx (hdr q cmd) (v.seqOpen e c g r f p w.toNat k ks)))
        ∧ (∀ v, cmd = 0x8501 → ImageHole u x g v → exec i s = refused v q cmd dHole)
        ∧ (cmd = 0x8501 → u.imgHole x.toNat g = false → u.imgReady x.toNat g = false → exec i s = imageAwaited u q x g)))
  ∧ (∀ (u : State) e c g r f p w k ks, e < u.store.cap → c < 4096 → seqOk g r f p = true → w % 0x10000 = 0 → w + 0x10000 * g ≤ 2 ^ 55 → (∀ y, y ∈ ks → y < 3) → u.seqState e = 0 →
      ∀ gt (v : State), u.takeChunks (cdiv (16 * g) 4096) = some (gt, v) →
      let a := v.seqAddr e
      let x := (v.put8 a (2 ^ 56 + k * 2 ^ 52 + c * 2 ^ 40 + g * 2 ^ 27 + f * 2 ^ 23)).put8 (a + 8) (r * 2 ^ 48 + p * 2 ^ 32)
      let y := (((x.put8 (a + 16) 0).put8 (a + 24) w).put8 (a + 32) gt).put8 (a + 40) 0
      u.seqOpen e c g r f p w k ks = .done ((List.range g).foldl (fun s j =>
        ((s.put8 (gt + 16 * j) (ks.getD j 0)).put4 (gt + 16 * j + 8) 0).put4 (gt + 16 * j + 12) 0xFFFFFFFF) y) 0 [])
  ∧ (∀ s q e x u i cmd, Begins s q cmd u → (x < 8192 ∨ x = 0xFFFF) → (u.storeInit = false ∨ u.seqState e ≠ 1) →
      ((i = .ctxSeqClose q e x ∧ cmd = 0x0502) ∨ (i = .ctxSeqQuery q e ∧ cmd = 0x0503) ∨ (∃ a b, i = .ctxPageAppend q e a b ∧ b ≠ 0 ∧ cmd = 0x0504)
        ∨ (∃ l, i = .ctxPageCommit q e l x ∧ cmd = 0x0505) ∨ (∃ g k t, i = .ctxPageMove q e g k t ∧ t < 4 ∧ cmd = 0x0506)) → exec i s = refused u q cmd dState)
  ∧ (∀ s q e x u, Begins s q 0x0502 u → (x < 8192 ∨ x = 0xFFFF) → u.storeInit = true → u.seqState e = 1 →
      let v := u.put8 (u.seqAddr e) (u.seqW e 0 % 2 ^ 56 + 2 * 2 ^ 56)
      exec (.ctxSeqClose q e x) s = done { v with store := { v.store with closing := tput v.store.closing e x } } q 0x0502 0 [])
  ∧ (∀ s e x, tget s.store.closing e = some x → s.closeWaits e = false → s.unzeroed e = [] →
      let cs := (List.range (s.seqGroups e)).flatMap (fun g => s.chain (s.grpPages e g / 1022 + 1) (s.grpChunk e g))
        ++ (List.range (cdiv (16 * s.seqGroups e) 4096)).map (fun i => s.seqGtab e + 4096 * i)
      let u := ((s.seqDescs e).foldl State.freePage s).giveChunks cs
      let v := u.zero (u.seqAddr e) 64
      exec (.seqCloseFinish e) s = .next ({ v with store := { v.store with closing := tdel v.store.closing e } }.signal x).appendRetry)
  ∧ (∀ s q e u, Begins s q 0x0503 u → u.storeInit = true → u.seqState e = 1 → exec (.ctxSeqQuery q e) s
      = done u q 0x0503 0 (u.read (u.seqAddr e) 64 ++ [0, 1, 2, 3].flatMap fun t => p32 ((u.seqDescs e).filter fun i => (u.pd i).tier == t).length))
  ∧ (∀ s q e a n u, Begins s q 0x0504 u → u.storeInit = true → u.seqState e = 1 → n ≠ 0 → a + n ≤ u.seqGroups e → u.store.broken = false → u.store.appends = [] →
      ((∃ i, i < n ∧ u.grpOpen e (a + i) ≠ 0xFFFFFFFF) → exec (.ctxPageAppend q e a n) s = refused u q 0x0504 dState)
      ∧ ((∀ i, i < n → u.grpOpen e (a + i) = 0xFFFFFFFF) →
        exec (.ctxPageAppend q e a n) s = .next ({ u with store := { u.store with appends := [⟨q.mbx, e, a, n, none⟩] } }.appendTry ⟨q.mbx, e, a, n, none⟩)))
  ∧ (∀ (u : State) (w : AppendW) ds (v : State), w.descs = none → u.appendAll w.seq ((List.range w.gCount).map (· + w.gFirst)) = .inr (ds, v) → v.store.appends = [w] →
      (∀ i, i < w.gCount → v.slotUnmaps (v.seqCtx w.seq) (v.seqWin w.seq + 0x10000 * (w.gFirst + i)) = false) →
      ∃ t : State, u.appendTry w = t.axFinish w.mbx 0 0 (ds.flatMap p32) ∧ t.store.appends = [] ∧ t.mem = v.mem)
  ∧ (∀ s m w, m < 28 → s.store.appends.find? (fun w => w.mbx == m) = some w → w.descs = none → exec (.ctxAppendTimeout m) s
      = .next ({ s with store := { s.store with appends := s.store.appends.filter (fun x => x.mbx != m) } }.axFinish m 4 dNoSpace []))
  ∧ (∀ s q e l x u, Begins s q 0x0505 u → (x < 8192 ∨ x = 0xFFFF) → u.storeInit = true → u.seqState e = 1 →
      ((l < u.seqLen e ∨ u.commitMax e < l) → exec (.ctxPageCommit q e l x) s = .next (u.axEnd q.mbx (hdr q 0x0505) 2 0 []))
      ∧ (u.seqLen e ≤ l → l ≤ u.commitMax e →
        let v := u.put8 (u.seqAddr e + 16) (l * 2 ^ 24)
        let r := (v.openPages e).foldl (fun a p => let b := a.1.commitPage e l u.store.nextCommit p; (b.1, a.2 + b.2)) (v, 0)
        let y := { r.1 with store := { r.1.store with nextCommit := u.store.nextCommit + 1 } }
        exec (.ctxPageCommit q e l x) s = if r.2 = 0 then done (y.signal x) q 0x0505 0 (p32 0)
          else done ({ y with store := { y.store with commits := tput y.store.commits u.store.nextCommit x } }.sealPump y.store.unmapQ.length) q 0x0505 0 (p32 r.2)))
  ∧ (∀ s q e g k t i u, Begins s q 0x0506 u → u.storeInit = true → u.seqState e = 1 → t < 4 → u.pageNamed e g k = some i → exec (.ctxPageMove q e g k t) s
      = if u.movable i = true ∧ t ≠ (u.pd i).tier then done (u.choose i t (if t < (u.pd i).tier then (u.pd i).fmt else u.fmtIn (u.pd i) t)) q 0x0506 0 []
        else refused u q 0x0506 dState)
  ∧ (∀ s q e g k t f p un i u, Begins s q 0x8506 u → u.storeInit = true → u.seqState e = 1 → t < 4 → f < 10 → (p && un) = false → u.pageNamed e g k = some i → u.movable i = true →
      (t ≠ (u.pd i).tier ∨ f ≠ (u.pd i).fmt) → (f = (u.pd i).fmt ∨ (fmtBits f < fmtBits (u.pd i).fmt ∧ (u.pd i).kind ≠ 2)) →
      exec (.ctxPageMoveExpert q e g k t f p un) s = done ((if p || un then u.setPd i { u.pd i with pinned := p } else u).choose i t f) q 0x8506 0 [])
  ∧ (∀ s q e g k p i u, Begins s q 0x8506 u → u.storeInit = true → u.seqState e = 1 → u.pageNamed e g k = some i → (u.pd i).tier < 4 → (u.pd i).fmt < 10 →
      u.pdOk i = true → tget u.store.moves i = none →
      exec (.ctxPageMoveExpert q e g k (u.pd i).tier (u.pd i).fmt p (!p)) s = done (u.setPd i { u.pd i with pinned := p }) q 0x8506 0 [])

/-- Lanes, policy, tiers, the export pool and the audits of the store (R161, R165, R166, R183, R184, R189, Table 6-6). -/
def Obligations.StoreSettings : Prop :=
  (∀ s q h d u, Begins s q 0x0507 u → u.storeInit = true → h < 64 → tget u.dress h = some d → d.mbx = none →
      exec (.ctxHoistAttach q h) s = if d.st = .active ∧ u.openTags h d ≠ []
        then (match u.attachAll h (u.openTags h d) with | .inl (e, p) => .next (u.axEnd q.mbx (hdr q 0x0507) 4 e p) | .inr (p, v) => done v q 0x0507 0 p)
        else refused u q 0x0507 dState)
  ∧ (∀ s q h g n k d x u, Begins s q 0x8507 u → u.storeInit = true → h < 64 → tget u.dress h = some d → d.mbx = none → n < 64 → k < 8 → d.st = .active →
      d.streams.find? (fun x => nbits x.prod 31 28 == 4 && nbits x.prod 15 0 == g) = some x → u.tagBound h g = false → tget u.lanes (8 * n + k) = none →
      exec (.ctxHoistAttachExpert q h g n k) s = match u.attach1 h n k x with
        | .inl (e, p) => .next (u.axEnd q.mbx (hdr q 0x8507) 4 e p)
        | .inr v => done v q 0x8507 0 (p16 g ++ p16 n ++ p16 k ++ p16 0))
  ∧ (∀ s q h d u, Begins s q 0x0508 u → u.storeInit = true → h < 64 → tget u.dress h = some d → d.mbx = none → exec (.ctxHoistDetach q h) s = done (u.detachAll h) q 0x0508 0 [])
  ∧ (∀ s q hi lo u, Begins s q 0x0509 u → u.storeInit = true → marksOk hi lo = true →
      exec (.ctxPolicySet q hi lo) s = done { u with policy := { high := hi, low := lo, share := 2, cls := tput u.policy.cls 0 {} } } q 0x0509 0 [])
  ∧ (∀ s q c hi lo sh a nx tf u, Begins s q 0x8509 u → u.storeInit = true → marksOk hi lo = true → c < 16 → sh ≤ 8 → a < 2 → nx.length = 4 → tf.length = 4 →
      ([0, 1, 2, 3].zip nx).all nextOk = true → (∀ f, f ∈ tf → f ≤ 9) →
      exec (.ctxPolicySetExpert q c hi lo sh a nx tf) s = done { u with policy := { high := hi, low := lo, share := sh, cls := tput u.policy.cls c { append := a, next := nx.map (fun x => if x = 15 then none else some x), tfmt := tf.map some } } } q 0x8509 0 [])
  ∧ (∀ s q b n u, Begins s q 0x050A u → u.storeInit = true → b % 4096 = 0 → n % 4096 = 0 → n ≠ 0 → 0x100000000000 ≤ b →
      let o := b - 0x100000000000
      (u.hostCovers 65 o (o + n) = false → exec (.ctxTierAdd q 2 (.range b n)) s = refused (u.hole steward 0 (u.gOwn (0x100000000000 + u.hostEnd 65 o (o + n)))) q 0x050A dHole)
      ∧ (u.hostCovers 65 o (o + n) = true → runMeets (u.tierRuns 2) (o / 4096) (n / 4096) = false →
        exec (.ctxTierAdd q 2 (.range b n)) s = done (u.addRun 2 (o / 4096) (n / 4096)).appendRetry q 0x050A 0 (p64 (n / 4096))))
  ∧ (∀ s q d n u, Begins s q 0x050A u → u.storeInit = true → n ≠ 0 → n < 2 ^ 32 → d < 2 ^ 18 → d ≠ u.ownDev →
      exec (.ctxTierAdd q 3 (.peer d n)) s = match u.tksAsk (.grant q.mbx n) (u.reqFrame d 3 0x08 0 0 0 0 (BitVec.ofNat 64 n) [] false) with
        | .sent _ v => .next v | .stall => .next (u.axEnd q.mbx (hdr q 0x050A) 3 0 []) | .noRoute => refused (u.hole steward 1 (d * 2 ^ 46)) q 0x050A dHole)
  ∧ (∀ s q b n u, Begins s q 0x050B u → u.storeInit = true → u.store.broken = false → 0x100000000000 ≤ b → b % 4096 = 0 → n % 4096 = 0 → n ≠ 0 →
      let k := (b - 0x100000000000) / 4096
      runMeets (u.tierRuns 2) k (n / 4096) = true → exec (.ctxTierRemove q 2 (.range b n)) s
        = if u.runUsed 2 k (n / 4096) = true then .next (u.axEnd q.mbx (hdr q 0x050B) 3 0 []) else done (u.cutRun 2 k (n / 4096)) q 0x050B 0 [])
  ∧ (∀ s q d n u, Begins s q 0x050B u → d < 2 ^ 18 → u.storeInit = true → u.store.broken = false →
      let rs := (u.tierRuns 3).filter fun r => t3Dev r.1 == d
      (rs = [] → exec (.ctxTierRemove q 3 (.peer d n)) s = .next (u.axEnd q.mbx (hdr q 0x050B) 2 0 []))
      ∧ (rs ≠ [] → (rs.any fun r => u.runUsed 3 r.1 r.2) = true → exec (.ctxTierRemove q 3 (.peer d n)) s = .next (u.axEnd q.mbx (hdr q 0x050B) 3 0 []))
      ∧ (rs ≠ [] → (rs.any fun r => u.runUsed 3 r.1 r.2) = false → (u.tksOn = false ∨ u.route d = none) →
        exec (.ctxTierRemove q 3 (.peer d n)) s = refused (u.hole steward 1 (d * 2 ^ 46)) q 0x050B dHole)
      ∧ (rs ≠ [] → (rs.any fun r => u.runUsed 3 r.1 r.2) = false → u.tksOn = true → u.route d ≠ none →
        let v := u.tksTrim
        v.tksOut + rs.length ≤ 16384 → v.reqAge (v.tksFloor d) + rs.length < 32768 →
        exec (.ctxTierRemove q 3 (.peer d n)) s = .next (rs.foldl (fun s r => (s.tksSend (.giveBack q.mbx) (s.reqFrame d 3 0x09 0 0 0 (BitVec.ofNat 64 (t3Sett r.1)) (BitVec.ofNat 64 r.2) [] false)).getD s)
          (rs.foldl (fun s r => s.cutRun 3 r.1 r.2) v))))
  ∧ (∀ s q b n u, Begins s q 0x050C u → u.storeInit = true → n ≠ 0 → b % 4096 = 0 → n % 4096 = 0 → u.hbmBacked b = true → u.hbmBacked (b + n - 1) = true →
      (b + n ≤ u.store.rBase ∨ u.store.rBase + u.store.rLen ≤ b) → (u.expo.len = 0 ∨ u.expo.granted = []) →
      exec (.ctxExportConfig q b n) s = done { u with expo := { base := b, len := n } } q 0x050C 0 (p32 (n / 4096)))
  ∧ (∀ s q b u, Begins s q 0x050C u → u.storeInit = true → exec (.ctxExportConfig q b 0) s
      = if u.expo.granted = [] then done { u with expo := {} } q 0x050C 0 (p32 0) else .next (u.axEnd q.mbx (hdr q 0x050C) 3 0 []))
  ∧ (∀ s q u, Begins s q 0x050D u → u.storeInit = true → exec (.ctxAudit q) s = done u.ctxCheck q 0x050D 0
      (p32 (u.get R.ctxDescCount).toNat ++ ([0, 1, 2, 3].flatMap fun t =>
          p64 (u.tierTotal t) ++ p64 (u.tierUsed t).length ++ p64 (u.tierTotal t - (u.tierUsed t).length) ++ p64 (u.store.descUsed.filter fun i => (u.pd i).tier == t).length)
        ++ p64 (u.epochPages u.curEpoch) ++ p64 (if u.oldLive then u.epochPages u.oldEpoch else 0) ++ p32 u.store.moves.length))
  ∧ (∀ s q u, Begins s q 0x050E u → u.storeInit = true → exec (.ctxEpochStatus q) s = done u q 0x050E 0
      (p32 (u.curEpoch + 256 * u.oldEpoch + 65536 * b2n u.oldLive) ++ p64 (u.epochPages u.curEpoch) ++ p64 (if u.oldLive then u.epochPages u.oldEpoch else 0)))

/-- Page moves and gathers (R171 to R174, R181, R184 to R187, R230, Table 6-7): what steps of a move and of a lane do, in the cases stated. -/
def Obligations.MovesAndGathers : Prop :=
  (∀ s i h v, h < 64 → tget s.store.moves i = some v → v.phase = .chosen →
      let n := unitsIn v.tier (s.pageSetts (s.pd i) v.fmt)
      exec (.pageMoveStart i h) s = .next (match s.takeUnits v.tier n with
        | some (a, t) => t.moveGo i h { v with unit := a, count := n }
        | none => if v.tier = (s.pd i).tier ∧ v.fmt = (s.pd i).fmt then s else s.abandon i h false))
  ∧ (∀ s i v, tget s.store.moves i = some v → v.phase = .writing → v.unacked = 0 → v.out = [] → exec (.pageMoveDescriptorRewrite i) s
      = .next (if s.pdOk i = false then s.abandon i v.hoist true
        else (((s.epochOut (s.pd i).tier (s.pd i).epoch).epochIn v.tier v.epoch).setPd i
          { s.pd i with loc := locOf v.tier v.unit, tier := v.tier, fmt := v.fmt, epoch := v.epoch, size := s.pageSetts (s.pd i) v.fmt - 1, lossy := v.lossy, dataCrc := v.crc }).setMove i
            { v with phase := .rewritten }))
  ∧ (∀ s i v, tget s.store.moves i = some v → v.phase = .rewritten → exec (.pageMoveSourceFree i) s
      = .next (if s.pageRead i (some (v.srcTier, v.srcUnit)) = true then s
        else (((s.giveUnits v.srcTier v.srcUnit v.srcCount).dropMove i).bump (R.ctxMoved v.hoist) 32 1).appendRetry))
  ∧ (∀ s t, t < 4 → s.storeInit = true → exec (.pageDemotion t) s
      = .next (if s.policy.high.getD t 14 * s.tierTotal t < 16 * s.tierUse t then s.demoteGo t s.store.descUsed.length else s))
  ∧ (∀ (s : State) t n, 16 * s.tierUse t ≤ s.policy.low.getD t 12 * s.tierTotal t → s.demoteGo t n = s)
  ∧ (∀ s i t, t < 4 → s.store.promote.contains i = true → s.movable i = true → (s.pd i).pinned = false → t < (s.pd i).tier →
      16 * s.tierUse t < s.policy.low.getD t 12 * s.tierTotal t → exec (.pagePromotion i t) s
      = .next ({ s with store := { s.store with promote := sDel s.store.promote i } }.choose i t (s.pd i).fmt))
  ∧ (∀ s i, s.oldLive = true → s.movable i = true → 2 ≤ (s.pd i).tier → (s.pd i).epoch = s.oldEpoch →
      exec (.epochReencryptPass i) s = .next (s.choose i (s.pd i).tier (s.pd i).fmt))
  ∧ (∀ s, s.oldLive = true → s.epochPages s.oldEpoch = 0 → s.store.epochBad = false →
      (s.store.moves.any fun m => m.2.phase == .writing && decide (2 ≤ m.2.tier) && m.2.epoch == s.oldEpoch) = false →
      let v := s.epochCheck s.oldEpoch
      exec .oldEpochRetire s = .next (if v.store.epochBad then v
        else ({ v with store := { v.store with oldKey := 0 } }.bset R.ctxStoreStatus 30 false).log' 1 17 1 [s.oldEpoch]))
  ∧ (∀ s, (s.oldLive = false ∨ s.epochPages s.oldEpoch ≠ 0 ∨ s.store.epochBad = true) → exec .oldEpochRetire s = .next s)
  ∧ (∀ s n k v l, n < 64 → k < 8 → tget s.lanes (8 * n + k) = some l →
      let u := s.set (R.ctxLaneTail n k) (BitVec.ofNat 64 (nbits v.toNat 11 0))
      exec (.laneTailWrite n k v) s = .next (if u.ringSize n k ≤ nbits v.toNat 11 0 then u.hoistKill n k 8 (BitVec.ofNat 64 (u.ringVa n k (nbits v.toNat 11 0))) else u))
  ∧ (∀ s n k l, n < 64 → k < 8 → tget s.lanes (8 * n + k) = some l →
      laneTr l (s.ringVa n k (s.ringHead n k)) = none →
      exec (.hoistRingPrefetch n k) s = .next (s.askWalk (hoist n) k l.ctx (s.ringVa n k (s.ringHead n k)) false true))
  ∧ (∀ s n k l, n < 64 → k < 8 → tget s.lanes (8 * n + k) = some l → s.bget (R.ctxLaneCfg n k) 62 = false → s.bget R.safStatus 29 = false →
      (∀ g, l.cur = some g → g.made = true → exec (.gatherDescriptorExecute n k) s = .next ((s.lanePush n g.elane).lanePush n g.slane))
      ∧ (∀ g, l.cur = some g → g.made = false → exec (.gatherDescriptorExecute n k) s = .next (s.gatherGo n k g))
      ∧ (l.cur = none → s.ringHead n k = s.ringTail n k → exec (.gatherDescriptorExecute n k) s = .next s)
      ∧ (∀ a, l.cur = none → l.rd = none → s.ringHead n k ≠ s.ringTail n k → s.storeInit = true → laneFind l (s.ringVa n k (s.ringHead n k)) = some a →
        let va := s.ringVa n k (s.ringHead n k)
        (s.gHole a 32 = true → exec (.gatherDescriptorExecute n k) s
          = .next (((s.laneGive n k).hole (hoist n) 0 a).hoistKill n k (if s.isOwn a then 5 else 7) (BitVec.ofNat 64 va)))
        ∧ (s.gHole a 32 = false → s.gReady (hoist n) a 32 = false → exec (.gatherDescriptorExecute n k) s = .next ((s.laneHold n k va a).gAsk (hoist n) a 32 0))
        ∧ (s.gHole a 32 = false → s.gReady (hoist n) a 32 = true → s.gErr a 32 = 0 →
          let r := s.gRead (hoist n) a 32 0
          let u := r.2.2.laneGive n k
          let w := (List.range 4).map fun i => BitVec.ofNat 64 (leNat ((r.1.drop (8 * i)).take 8))
          exec (.gatherDescriptorExecute n k) s = .next (if r.2.1 then u.hoistKill n k 6 (BitVec.ofNat 64 va) else
            let g : Gather := { words := w }
            let c := u.gatherCheck n l g
            let ps := u.gatherPages g
            if c ≠ 0 then u.hoistKill n k c (if c = 2 then BitVec.ofNat 64 va else 0)
            else ({ u with store := { u.store with age := agesOff u.store.age ps } }.setGather n k (some { g with pages := ps })).gatherGo n k { g with pages := ps }))))
  ∧ (∀ s n k l g, n < 64 → k < 8 → tget s.lanes (8 * n + k) = some l → l.cur = some g → g.made = true → g.eflits = [] → g.sflits = [] → s.flight = [] →
      (∀ c a, g.ending = some (c, a) → exec (.gatherDescriptorComplete n k) s = .next (s.hoistKill n k c a))
      ∧ (g.ending = none → g.promote = false →
        let u := s.setGather n k none
        let v := u.set (R.ctxLaneHead n k) (BitVec.ofNat 64 ((u.ringHead n k + 1) % u.ringSize n k))
        exec (.gatherDescriptorComplete n k) s = .next (if bit (gW g 2) 18 then v.syncAdd (fld (gW g 2) 31 19) 1 false else v)))
  ∧ (∀ s n k l g x xs, n < 64 → k < 8 → tget s.lanes (8 * n + k) = some l → l.cur = some g → g.want = x :: xs →
      exec (.peerTierTimeout n k) s = .next ((s.poisonPage (x / 16)).hoistKill n k 7 (BitVec.ofNat 64 (x / 16))))

/-- Contexts, maps and unmaps (R233 to R236, R239, R241): what translation commands do, refuse and answer, in the cases stated. -/
def Obligations.TranslationCommands : Prop :=
  (∀ s q c b l u, Begins s q 0x0C01 u → c < 4096 → b % 0x10000 = 0 → l % 0x10000 = 0 → 0x30000 ≤ l →
      (u.bget (R.xltCtx c) 63 = true ∨ u.bget (R.xltCtx c) 62 = true → exec (.xltCtxSet q c b l) s = refused u q 0x0C01 dState)
      ∧ (u.bget (R.xltCtx c) 63 = false → u.bget (R.xltCtx c) 62 = false → u.hbmBacked b = true → u.hbmBacked (b + l - 1) = true → exec (.xltCtxSet q c b l) s
        = done (({ u with pools := tput u.pools c ⟨b, l, b + 0x10000⟩ }.zero b 0x10000).set (R.xltCtx c) (BitVec.ofNat 64 (2 ^ 63 + 2 ^ 61 + b))) q 0x0C01 0 (p64 b)))
  ∧ (∀ s q c r u, Begins s q 0x8C01 u → c < 4096 → r % 0x10000 = 0 → u.bget (R.xltCtx c) 63 = false → u.bget (R.xltCtx c) 62 = false →
      exec (.xltCtxSetExpert q c r) s = if u.tableBacked r = true then done (u.set (R.xltCtx c) (BitVec.ofNat 64 (2 ^ 63 + r))) q 0x8C01 0 (p64 r) else refused u q 0x8C01 dNoTable)
  ∧ (∀ s q c x u, Begins s q 0x0C02 u → c < 4096 → (x < 8192 ∨ x = 0xFFFF) →
      (u.ctxHeld c = true → exec (.xltCtxClear q c x) s = refused u q 0x0C02 dState)
      ∧ (u.ctxHeld c = false → u.freeSlot = none → exec (.xltCtxClear q c x) s = .next (u.axEnd q.mbx (hdr q 0x0C02) 3 0 []))
      ∧ (∀ k, u.ctxHeld c = false → u.freeSlot = some k →
        exec (.xltCtxClear q c x) s = .next (u.slotGo k c 0 0 0xFFFF true { clear := some q.mbx, clearObj := x })))
  ∧ (∀ s q c v l x u, Begins s q 0x0C03 u → c < 4096 → vaOk v.toNat l = true → (x < 8192 ∨ x = 0xFFFF) → u.ctxFree c = false → u.partLeaf (u.root c) v.toNat l = false →
      (∀ k, u.freeSlot = some k → exec (.xltUnmap q c v l x) s = done ((u.unmapRange (u.root c) v.toNat (v.toNat + l) (l / 0x10000) v.toNat l).slotGo k c
        (u.runRange (u.root c) v.toNat l).1 (u.runRange (u.root c) v.toNat l).2 x false {}) q 0x0C03 0 (p32 k))
      ∧ (u.freeSlot = none → exec (.xltUnmap q c v l x) s = .next (u.axEnd q.mbx (hdr q 0x0C03) 3 0 [])))
  ∧ (∀ s q c v l x a k u, Begins s q 0x8C03 u → c < 4096 → (a = true ∨ vaOk v.toNat l = true) → (x < 8192 ∨ x = 0xFFFF) → u.ctxFree c = false → u.freeSlot = some k →
      exec (.xltUnmapExpert q c v l x a) s = done (u.slotGo k c v.toNat l x a {}) q 0x8C03 0 (p32 k))
  ∧ (∀ s q k u, Begins s q 0x0C04 u → k < 16 → exec (.xltUnmapStatus q k) s = done u q 0x0C04 0
      (p32 (if u.bget (R.xltInvCtl k) 30 = false then 0 else if u.bget (R.xltInvCtl k) 29 then 2 else 1) ++ p32 (u.invRefs k)))
  ∧ (∀ s q c v l g w nc e i cmd u, ((i = .xltMap q c v l g w nc ∧ cmd = 0x0C05 ∧ e = false) ∨ (i = .xltMapExpert q c v l g w nc ∧ cmd = 0x8C05 ∧ e = true)) → Begins s q cmd u →
      c < 4096 → vaOk v.toNat l = true → g.toNat % 0x10000 = 0 → g.toNat + l ≤ 2 ^ 64 →
      (u.bget (R.xltCtx c) 62 = true → exec i s = refused u q cmd dContextDead)
      ∧ (u.bget (R.xltCtx c) 62 = false → u.bget (R.xltCtx c) 63 = true → (∃ j, j < l / 0x10000 ∧ u.mapped (u.root c) (v.toNat + 0x10000 * j) = true) → exec i s = refused u q cmd dState)
      ∧ (u.bget (R.xltCtx c) 62 = false → u.bget (R.xltCtx c) 63 = true → (∀ j, j < l / 0x10000 → u.mapped (u.root c) (v.toNat + 0x10000 * j) = false) →
        let r := u.mapRange c (u.root c) (u.bget (R.xltCtx c) 61) e w nc (l / 0x10000) v.toNat g.toNat l
        exec i s = if r.2 = 0 then done r.1 q cmd 0 [] else refused u q cmd r.2))
  ∧ (∀ s q u, Begins s q 0x0C06 u → let v := u.laneSettle
      exec (.xltAudit q) s = done v.xltCheck q 0x0C06 0
        (((List.range 68).flatMap fun b => p32 (v.tlbSum b) ++ p32 (v.tlbHeld b)) ++ ((List.range 64).flatMap fun h => p32 (v.laneSum h) ++ p32 (v.laneReads h))))
  ∧ (∀ u : State, u.laneSettle = u → u.conUe = [] → (∀ b, b < 68 → u.tlbSum b = u.tlbHeld b) → (∀ h, h < 64 → u.laneSum h = u.laneReads h) → u.xltCheck = u)

/-- The steps of an unmap, walks, and pinned ways (R100, R228, R236): what events do, in the cases stated, to slots, walks and translations. -/
def Obligations.TranslationEvents : Prop :=
  ∀ s : State,
    (∀ k, k < 16 → (s.bget (R.xltInvCtl k) 30 = true ∨ (s.bget (R.xltInvCtl k) 28 = false ∧ (s.get (R.xltInvLen k)).toNat % 0x10000 ≠ 0)) → exec (.xltInvGo k) s = .next s)
    ∧ (∀ k, k < 16 → s.bget (R.xltInvCtl k) 30 = false → (s.bget (R.xltInvCtl k) 28 = true ∨ ((s.get (R.xltInvLen k)).toNat % 0x10000 = 0 ∧ (s.get (R.xltInvLen k)).toNat ≠ 0)) →
      exec (.xltInvGo k) s = .next ({ s with inv := tput s.inv k {} }.set (R.xltInvCtl k) (setFld (setFld (s.get (R.xltInvCtl k)) 30 30 1) 29 29 0)))
    ∧ (∀ k, k < 16 → s.bget (R.xltInvCtl k) 30 = true → s.bget (R.xltInvCtl k) 29 = false → exec (.unmapPhase1Done k) s = .next (s.invStep3 k))
    ∧ (∀ k, k < 16 → s.bget (R.xltInvCtl k) 29 = true → exec (.unmapPhase1Done k) s = .next s)
    ∧ (∀ k r, k < 16 → tget s.inv k = some r → r.commit = none → let w := s.laneSettle
      (w.bget (R.xltInvCtl k) 29 = false ∨ w.invRefs k ≠ 0) → exec (.unmapComplete k) s = .next w)
    ∧ (∀ k r, k < 16 → tget s.inv k = some r → let w := s.laneSettle
      tget w.inv k = some r → w.bget (R.xltInvCtl k) 29 = true → w.invRefs k = 0 → w.tlb.any (fun e => e.2.retiring.contains k) = false →
      let c := w.get (R.xltInvCtl k)
      let u := { w with inv := tdel w.inv k }.bset (R.xltInvCtl k) 30 false
      let v := if bit c 27 then u.signal (fld c 26 14) else u
      (r.commit = none → exec (.unmapComplete k) s = .next (match r.clear with
        | none => v
        | some m => (({ v with pools := tdel v.pools (fld c 11 0) }.set (R.xltCtx (fld c 11 0)) 0).signal r.clearObj).axFinish m 0 0 []))
      ∧ (∀ d, r.commit = some d → r.clear = none → exec (.unmapComplete k) s = .next (if (tget v.inv k).isNone then v.sealDone d else v)))
    ∧ (∀ m l c v w, masterOk m = true → (m.cls = .tile ∨ m.cls = .hoist) → c < 4096 → exec (.walkRequest m l c v w) s
      = .next (if (s.walkAsked m l c v.toNat w || !s.walkRoom m l) = true then s else { s with walkQ := s.walkQ ++ [⟨walkHalf m, m, l, c, v.toNat, w, false⟩] }))
    ∧ (∀ h, h < 2 → s.walkQ.find? (fun r => r.half == h) = none → exec (.walkComplete h) s = .next s)
    ∧ (∀ h r rs, h < 2 → s.walkQ.filter (fun r => r.half == h && (s.walking h).contains (r.ctx, r.va / 0x10000)) = rs →
      (rs.find? (fun r => (s.walkWaits h r.ctx r.va).isNone) = some r →
        let same (x : WalkReq) : Bool := x.half == h && x.ctx == r.ctx && x.va / 0x10000 == r.va / 0x10000
        let w := { s with walkQ := s.walkQ.filter (fun x => !same x) }.walk h r.ctx r.va
        exec (.walkComplete h) s = .next ((s.walkQ.filter same).foldl (fun z x => z.walkServe x w.1) w.2))
      ∧ (∀ a, rs.find? (fun r => (s.walkWaits h r.ctx r.va).isNone) = none → rs.head? = some r → s.walkWaits h r.ctx r.va = some a →
        exec (.walkComplete h) s = .next (s.engAsk (walker h) a 8 0)))
    ∧ (∀ b c v, b < 68 →
      let p (r : WalkReq) : Bool := r.m.idx / 32 == b && r.ctx == c && r.va / 0x10000 == v.toNat / 0x10000
      exec (.tlbPinRetry b c v) s = .next ({ s with walkQ := s.walkQ ++ s.pinWait.filter p, pinWait := s.pinWait.filter fun r => !p r }.bump
        (R.benchTlbPinWait b) 32 (s.pinWait.filter p).length))

/-- Host requests over CXL.mem and the answers of the host (R332 to R336, Table 14-4): the coherence request each becomes, and holes. -/
def Obligations.HostMemoryRequests : Prop :=
  ∀ s : State, s.powered = true → s.hostUp = true →
    (∀ p t d i w (r : CReq), s.hdmDpa p = some d → s.homed d = true → region d = .hbm →
      ((i = .memRd p 3 t ∧ w = 0 ∧ r = { k := .rdShared, a := .host, line := 0 })
        ∨ (i = .memRd p 2 t ∧ w = 0 ∧ r = { k := .rdUnique, a := .host, line := 0 })
        ∨ (i = .memRd p 0 t ∧ w = 0 ∧ r = { k := .rdNoAlloc, a := .host, line := 0 })
        ∨ (i = .memRdData p t ∧ w = 0 ∧ r = { k := .rdNoAlloc, a := .host, line := 0 })
        ∨ (i = .memClnEvct p t ∧ w = 0 ∧ r = { k := .evictClean, a := .host, line := 0 })
        ∨ (i = .memInv p t ∧ w = 1 ∧ r = { k := .upgrade, a := .host, line := 0 })
        ∨ (∃ m v b, i = .memWrPtl p t m v b ∧ w = 0 ∧ s.libHit d 64 = false ∧ r = { k := .wrPart, a := .host, line := 0, mask := halfMask d m, data := halfData d v, poison := b })
        ∨ (∃ v b, i = .memWr p true t v b ∧ w = 0 ∧ s.libHit d 64 = false ∧ s.awaits .host (d / 128) = none ∧ (s.dirOf (d / 128)).owner = some 8
          ∧ r = { k := .evictDirty, a := .host, line := 0, mask := halfMask d (BitVec.allOnes 64), data := halfData d v, poison := b })
        ∨ (∃ v b, i = .memWr p false t v b ∧ w = 0 ∧ s.libHit d 64 = false ∧ s.awaits .host (d / 128) = none
          ∧ r = { k := .wrPart, a := .host, line := 0, mask := halfMask d (BitVec.allOnes 64), data := halfData d v, poison := b })) →
      let x := { r with line := lineOf d, tag := t, tc := s.fget R.cxlCtrl 5 4 }
      let u := { s with cfg := { s.cfg with hostTag := tput s.cfg.hostTag t (2 * p + w) } }
      exec i s = .next (if r.k = .evictClean ∨ r.k = .evictDirty then u.cohReq x else u.regOne (x, false)).cohTail)
    ∧ (∀ p t m i, s.hdmDpa p = none → (i = .memRd p m t ∨ i = .memRdData p t) →
      ∃ b : List Byte, exec i s = .next ({ s.hole ⟨.host, 0⟩ 0 p with freeCtr := (s.hole ⟨.host, 0⟩ 0 p).freeCtr + 64 }.emit (.memData p t 0 b true)).cohTail)
    ∧ (∀ p t m v b i, s.hdmDpa p = none → (i = .memWrPtl p t m v b ∨ i = .memWr p true t v b) → exec i s = .next ((s.hole ⟨.host, 0⟩ 1 p).emit (.memCmp p t 0)).cohTail)
    ∧ (∀ p t d v b i, s.hdmDpa p = some d → (s.awaits .host (d / 128)).isSome = true → exec (.memWr p i t v b) s = .next ((s.hostWb d v b).emit (.memCmp p t 0)).cohTail)
    ∧ (∀ p d, s.hdmDpa p = some d → exec (.biRsp p true) s = .next (s.rspS .host (d / 128)).cohTail ∧ exec (.biRsp p false) s = .next (s.rspI .host (d / 128)).cohTail
        ∧ exec (.biConflict p) s = .next (s.emit (.biConflictAck p)))
    ∧ (∀ p t, exec (.h2dSnoop p t) s = .next (s.emit (.h2dRsp p t)))
    ∧ (∀ i v b x, tget s.ext i = some x → x.site = none → exec (.cxlD2hResponse i v b) s = .next (s.extEnd i ((leBytes 64 v.toNat).drop (x.addr % 64)) b 0).cohTail)
    ∧ exec .cacheWritebackInvalidate s = .next { s with cfg := { s.cfg with cacheInv := true } }

/-- The host port (R326, R327, R329, R330, R332, R335, R337, R339 to R341, Tables 14-6 and 14-7): accesses, interrupts, link, reset, windows. -/
def Obligations.HostPort : Prop :=
  (∀ s : State, s.powered = true → s.hostUp = true →
    (∀ b o n op, accCode op ≠ 2 → exec (.cxlIoMemAccess b o n op) s = .next (let k := if accWrites op then (accBytes op).length else n
      (if b = 0 ∧ o + k ≤ 0x20000 then s.bar0 o k op
        else if b = 2 ∧ o + k ≤ 2 ^ 36 then s.access ⟨.host, 0⟩ (.host 0) (s.gOwn (0x3FF000000000 + o)) k (s.fget R.cxlCtrl 3 2) op false
        else if b = 4 ∧ o + k ≤ 2 ^ 40 then s.bar4 o k op
        else s.ur).accPump))
    ∧ (∀ b o, exec (.cxlAtomicOp b o) s = .next ({ s with cfg := { s.cfg with regs := tset s.cfg.regs 0x41 0 (tgetD s.cfg.regs 0x41 0 ||| 0x100000) } }.emit (.cplIo 1 [] false)))
    ∧ (∀ a n w, exec (.hdmDecoderCommit a n w) s
      = .next (if w = 1 ∧ a % 2 ^ 28 = 0 ∧ s.bget R.cxlStatus 29 = true ∧ n ≤ (s.get R.hubMapHbmTop).toNat + 1
          then { s with cfg := { s.cfg with hdm := some (a, n), hdmErr := false } } else { s with cfg := { s.cfg with hdm := none, hdmErr := true } }))
    ∧ (∀ v, v < 2048 → s.msixPend.contains v = true → s.msixFnMask = false → s.bget R.cxlStatus 28 = true → exec (.msixUnmask v) s
      = .next ({ s with cfg := { s.cfg with msixTab := tset s.cfg.msixTab (4 * v + 3) 1 0 }, msixOpen := sIns s.msixOpen v, msixPend := sDel s.msixPend v }.emit (.msix v)))
    ∧ exec .flr s = .next (let u := { s with cfg := { s.cfg with regs := s.cfg.regs.filter fun e => rangeReg e.1, msixTab := [], doeIn := [], doeOut := [], doeErr := false }, msixOpen := [], msixFnMask := false, msixPend := [] }
        let v := (List.range 16).foldl State.mbxFlr (u.resetRegs (fun a => inBlk 0x3FF000A00000 0x100000 a) .flr)
        v.fset R.cxlStatus 3 0 (min 15 (v.fget R.cxlStatus 3 0 + 1)))
    ∧ (∀ r v, r < 1024 → s.bget R.stwStatus 31 = false → exec (.configurationRequest true r v) s = .next (s.emit (.cfgCpl 2 0)))
    ∧ (∀ r v, r < 1024 → s.bget R.stwStatus 31 = true → exec (.configurationRequest false r v) s = .next (s.emit (.cfgCpl 0 (s.cfgRd r)))
        ∧ exec (.configurationRequest true r v) s = .next ((s.cfgWr r v).emit (.cfgCpl 0 0)))
    ∧ (∀ b, exec (.cxlLinkDown b) s = .next (let w := if b then s.bset R.hubClkStatus 16 false else s
        let c := w.get R.cxlStatus
        if w.hostUp = true then
          let u := ((w.set R.cxlStatus (setFld (setFld (setFld c 31 30 1) 12 8 0) 7 4 0)).log' 1 10 1 [8]).fence 8
          (((u.ext.filter fun e : Nat × ExtReq => e.2.site.isNone).map fun e : Nat × ExtReq => e.1).foldl (fun (s : State) i => s.extEnd i [] false 2) u).cohTail
        else w.cohTail)))
  ∧ (∀ (s : State) w r, s.powered = true → s.asleep = false → s.modReset = false → s.bget (R.pwrDomStatus 88) 31 = true → 1 ≤ w → w ≤ 16 → 1 ≤ r → r ≤ 6 → exec (.cxlLinkUp w r) s
      = .next ((((s.bset R.hubClkStatus 16 true).bset R.cxlStatus 31 true).fset R.cxlStatus 12 8 w).fset R.cxlStatus 7 4 r))
  ∧ (∀ s k v, k < 64 → exec (.hostWindowWrite k v) s = .next (if bit v 63 = true ∧ s.htBad k (fld v 43 21) (s.fget (R.cxlHtSize k) 43 21) = true then s
      else s.set (R.cxlHtTier k) (BitVec.ofNat 64 (b2n (bit v 63) * 2 ^ 63 + fld v 43 21 * 2 ^ 21))))
  ∧ (∀ s q b n k t u, Begins s q 0x0310 u → htArgs b n = true → (List.range 64).find? (fun k => !u.bget (R.cxlHtTier k) 63) = some k → u.htFree k n = some t →
      exec (.memHostGrant q b n) s = done (u.htGrant k b n (t * 2 ^ 21)) q 0x0310 0 (p32 k ++ p64 (t * 2 ^ 21)))
  ∧ (∀ s q b n u, Begins s q 0x0310 u → htArgs b n = true → (∀ k, k < 64 → u.bget (R.cxlHtTier k) 63 = true) → exec (.memHostGrant q b n) s = refused u q 0x0310 dNoSpace)
  ∧ (∀ s q b n t k u, Begins s q 0x8310 u → htArgs b n = true → k < 64 → t % 2 ^ 21 = 0 → t + n ≤ 2 ^ 44 →
      exec (.memHostGrantExpert q b n t k) s = if u.bget (R.cxlHtTier k) 63 = true then refused u q 0x8310 dState
        else if u.htBad k (t / 2 ^ 21) (n / 2 ^ 21) = true then .next (u.axEnd q.mbx (hdr q 0x8310) 2 0 [])
        else done (u.htGrant k b n t) q 0x8310 0 (p32 k ++ p64 t))
  ∧ (∀ s q k u, Begins s q 0x0311 u → k < 64 → exec (.memHostRevoke q k) s
      = if u.bget (R.cxlHtTier k) 63 = true then done (u.bset (R.cxlHtTier k) 63 false) q 0x0311 0 [] else refused u q 0x0311 dState)
  ∧ (∀ s q u, Begins s q 0x0312 u → exec (.memHostStatus q) s = done u q 0x0312 0 (p32 (u.get R.cxlStatus).toNat ++
      ((List.range 64).filter fun k => u.bget (R.cxlHtTier k) 63).flatMap fun k =>
        p32 k ++ p64 (u.fget (R.cxlHtTier k) 43 21 * 2 ^ 21) ++ p64 (u.get (R.cxlHtHost k)).toNat ++ p64 (u.get (R.cxlHtSize k)).toNat))

/-- Requests arriving on Tukosen (R308, R311, R314, R315, R320, R321, Table 13-5): what operations do, in the cases stated, when the link accepts its frame. -/
def Obligations.TukosenRequests : Prop :=
  (∀ (s : State) p (f : Frame) u i op, p < 8 → f.op = op → f.resp = false → f.dst = s.ownDev → s.tksTake p f = some u → u.bget R.secTenStatus 31 = false →
      ((i = .putOp p f ∧ op = 0x01) ∨ (i = .getOp p f ∧ op = 0x02) ∨ (i = .tksAtomic p f ∧ op = 0x03) ∨ (i = .tksSync p f ∧ op = 0x04) ∨ (i = .red p f ∧ op = 0x05)
        ∨ (i = .settGrant p f ∧ op = 0x08) ∨ (i = .settReturn p f ∧ op = 0x09) ∨ (i = .settRead p f ∧ op = 0x0A) ∨ (i = .settWrite p f ∧ op = 0x0B)
        ∨ (i = .msg p f ∧ op = 0x10) ∨ (i = .echo p f ∧ op = 0x3E)) →
      (reqOk f = false → exec i s = .next (((u.bump (R.tksMalformed p) 32 1).oweCells (some (cellsOf p f))).accPump))
      ∧ (reqOk f = true →
      let v := State.memoCount { u with memo := u.memo.filter fun e : MemoE => !memoOld f e }
      let own (g : Nat) := v.settsOf f.src g 1
      let a := f.addr.toNat
      let n := f.aux.toNat
      let busy := op != 0x3E && (v.flowBusy f || v.ingQ.any fun e => sameFlow f e.2.1)
      (busy = true → exec i s = .next { v with ingQ := v.ingQ ++ [(p, f, false)] }.accPump)
      ∧ (busy = false → v.reqShut p f = true → exec i s = .next { v.reqHeld p f false with ingQ := (v.reqHeld p f false).ingQ ++ [(p, f, true)] }.accPump)
      ∧ (∀ e, busy = false → v.reqShut p f = false → v.memo.find? (fun e : MemoE => e.src == f.src && e.reqid == f.reqid) = some e →
        exec i s = .next (((v.bump R.tksE2eDup 32 1).tksSendResp f e.status e.addr e.aux [] false).oweCells (some (cellsOf p f))).accPump)
      ∧ (busy = false → v.reqShut p f = false → v.memo.find? (fun e : MemoE => e.src == f.src && e.reqid == f.reqid) = none → opMemo op = true → v.memoFull = true →
        exec i s = .next (((v.bump R.tksE2eBusy 32 1).tksSendResp f 3 a 0 [] false).oweCells (some (cellsOf p f))).accPump)
      ∧ (busy = false → v.reqShut p f = false → v.memo.find? (fun e : MemoE => e.src == f.src && e.reqid == f.reqid) = none → (opMemo op = false ∨ v.memoFull = false) →
        exec i s = .next ((match op with
          | 0x01 => v.access ⟨.tukosen, p⟩ (.ingress p f) (v.gOwn a) f.len f.tc (.write f.payload) f.poison
          | 0x02 => v.access ⟨.tukosen, p⟩ (.ingress p f) (v.gOwn a) f.len f.tc .read f.poison
          | 0x03 => v.access ⟨.tukosen, p⟩ (.ingress p f) (v.gOwn a) f.len f.tc (.atomic f.aop f.aux (BitVec.ofNat 64 (leNat f.payload))) f.poison
          | 0x04 => if (syncPage a).isNone then v.ingressHole p f (if f.aop = 0xF then 0 else if f.aop = 0 then 1 else 2)
            else v.access ⟨.tukosen, p⟩ (.ingress p f) (v.gOwn a) 8 f.tc (match f.aop with
              | 0 => .write (leBytes 8 n) | 0xF => .read | k => .atomic k f.aux (BitVec.ofNat 64 (leNat f.payload))) f.poison
          | 0x05 => v.redDo p f
          | 0x08 => match findRun [(0, v.expo.len / 4096)] (v.expo.granted.map fun e : Nat × Nat => e.1) n with
            | some k => if n = 0 ∨ v.expo.len / 4096 < n then v.tksRespond f 6 0 0 [] false
              else { v with expo := { v.expo with granted := (List.range n).foldl (fun t j => tput t (k + j) f.src) v.expo.granted } }.tksRespond f 0 k (BitVec.ofNat 64 n) [] false
            | none => v.tksRespond f 6 0 0 [] false
          | 0x09 => if v.settsOf f.src a n = true
            then { v with expo := { v.expo with granted := v.expo.granted.filter fun e => !(decide (a ≤ e.1) && decide (e.1 < a + n)) } }.tksRespond f 0 a 0 [] false
            else v.tksRespond f 6 a 0 [] false
          | 0x0A => if own a then v.access ⟨.tukosen, p⟩ (.ingress p f) (v.gOwn (v.expo.base + 4096 * a)) 4096 f.tc .read f.poison else v.tksRespond f 6 a 0 [] false
          | 0x0B => if own a then v.access ⟨.tukosen, p⟩ (.ingress p f) (v.gOwn (v.expo.base + 4096 * a)) 4096 f.tc (.write f.payload) f.poison else v.tksRespond f 6 a 0 [] false
          | 0x10 => match v.msgIn a ⟨.ingress p f, f.payload, f.src, f.reqid, f.poison, 0⟩ with
            | .bad => v.tksRespond f 2 a 0 [] false | .full t => t | .taken t => t
          | _ => v.tksRespond f 0 a 0 [] false).oweCells (some (cellsOf p f))).accPump)))
  ∧ (∀ (s : State) p (f : Frame), p < 8 → f.resp = true → f.dst = s.ownDev → s.tksTake p f = none → exec (.tksResponse p f) s = .next (s.tksDrop p f))
  ∧ (∀ (s : State) p (f : Frame) u, p < 8 → f.resp = true → f.dst = s.ownDev → s.tksTake p f = some u → let v := u.oweCells (some (cellsOf p f))
      (respOk f = false → exec (.tksResponse p f) s = .next (v.bump (R.tksMalformed p) 32 1))
      ∧ (∀ q, respOk f = true → v.bget R.secTenStatus 31 = false → tget v.tksReq f.reqid.toNat = some q → q.ended = false → q.f.dst = f.src → q.f.op = f.op →
        exec (.tksResponse p f) s = .next (if f.status = 0 ∨ f.status = 2 ∨ f.status = 6 then v.tksEnd f.reqid.toNat f.status f else v).cohTail))
  ∧ (∀ (s : State) p (f : Frame) u, p < 8 → f.dst ≠ s.ownDev → s.tksTake p f = some u → u.bget R.secTenStatus 31 = false →
      exec (.tksForward p f) s = .next (if frameOk f = false then (u.bump (R.tksMalformed p) 32 1).oweCells (some (cellsOf p f))
        else if f.hops = 0 then (if f.resp then u else u.tksSendResp f 5 f.addr.toNat 0 [] false).oweCells (some (cellsOf p f))
        else match u.route f.dst with
          | some r => u.sendVia r { f with hops := f.hops - 1 } (some (cellsOf p f))
          | none => (if f.resp then u else u.tksSendResp f 4 f.addr.toNat 0 [] false).oweCells (some (cellsOf p f))))
  ∧ (∀ s : State, s.nq = [] → exec .notifierAction s = .next s)
  ∧ (∀ (s : State) x r, s.nq = x :: r → let t := { s with nq := r }
      exec .notifierAction s = .next (match x.kind with
        | 1 => if s.bget R.cxlStatus 31 = true ∧ s.bget R.cxlStatus 28 = true ∧ s.fenced 8 = false then t.msix (x.target % 2048) else (t.bset (R.syncStatus x.obj) 30 true).bump (R.syncUnitNfail (syncHalf x.obj)) 32 1
        | 2 => t.notifyWr x x.count
        | 3 => t.notifyWr x 1
        | 4 => t.svcPush (x.target % 16) 0 x.obj
        | _ => t).cohTail)

/-- The Tukosen link (R305, R309, R313, R317 to R319, Table 13-2): which frames are accepted, what they acknowledge, and how a port comes up. -/
def Obligations.TukosenLink : Prop :=
  ∀ (s : State) (p : Nat), p < 8 → s.tksOn = true →
    (∀ f, s.portLive p = true → f.part = s.fget R.tksDevPart 15 0 → f.lseq = ((s.port p).rxSeq + 1) % 65536 →
      let u := ((s.modPort p fun x => { x with rxSeq := f.lseq, nakSent := false, toAck := x.toAck + 1 }).bump (R.tksRx p) 64 1).portAck p f.lack f.cr0 f.cr1
      s.tksTake p f = some (if 32 ≤ (u.port p).toAck then u.sendAck p else u))
    ∧ (∀ f, (f.part ≠ s.fget R.tksDevPart 15 0 ∨ f.lseq ≠ ((s.port p).rxSeq + 1) % 65536) → s.tksTake p f = none)
    ∧ (∀ d q n, s.pst p = psHello →
      let u := (s.fset (R.tksStatus p) 20 18 n).fset (R.tksStatus p) 17 0 d
      u.tksOn = true → u.pst p = psHello → (u.port p).greeted = false → exec (.hello p d q n) s
        = .next (if q ≠ u.fget R.tksDevPart 15 0 then u.setPst p psIsolated else (u.modPort p fun x => { x with greeted := true }).grantSend p))
    ∧ (∀ l c0 c1, s.portLive p = true → exec (.tksAckCreditFrame p l c0 c1) s = .next ((((s.modPort p fun x => x.acked l).portCredit p c0).portCredit p c1).pump p))
    ∧ (∀ l, s.portLive p = true →
      let u := s.modPort p fun x => x.acked l
      let x := u.port p
      let q := (l + 1) % 65536
      let v := u.setPort p { x with nakSeq := q, nakRun := if x.nakSeq = q then x.nakRun + 1 else 1 }
      exec (.nak p l) s = .next ((x.replay.foldl (fun s f => s.emit (.frame p { f with lack := x.rxSeq })) v).bump (R.tksReplay p) 32 x.replay.length))
    ∧ (s.portLive p = true → exec (.tksAckTimer p) s = .next (s.sendAck p))
    ∧ (s.pst p = psUp → (8 ≤ (s.port p).nakRun ∨ (s.port p).replay ≠ []) → exec (.tksPortRetrain p) s
      = .next ((((s.modPort p fun x => { x with nakRun := 0 }).setPst p psRetrain).bump (R.tksRetrain p) 32 1).bset (R.tksStatus p) 27 false))
    ∧ (s.pst p = psRetrain → (s.port p).greeted = false → exec (.tksRetrainComplete p) s = .next (s.portLocked p))
    ∧ (s.pst p = psRetrain → (s.port p).greeted = true → exec (.tksRetrainComplete p) s = .next (let u := (s.setPst p psUp).bset (R.tksStatus p) 27 true
        (((u.port p).replay.foldl (fun s f => s.emit (.frame p f)) u).pump p)))
    ∧ (s.pst p = psTraining → exec (.tksRetrainComplete p) s = .next (((s.bset (R.tksStatus p) 27 true).setPst p psHello).helloSend p))
    ∧ (s.pst p = psRetrain → exec (.tksRetrainTimeout p) s = .next (s.portReset p))
    ∧ ((s.pst p = psTraining ∨ s.pst p = psHello) → exec (.tksRetrainTimeout p) s = .next (s.setPst p psDown))
    ∧ (∀ b, s.pst p = psUp → exec (.tksDiscardedFrame p (.fcs b)) s = .next (s.bump (R.tksFcs p) 32 1))
    ∧ (∀ g, s.pst p = psUp → s.tksTake p g = none → exec (.tksDiscardedFrame p (.malformed g)) s = .next (s.tksDrop p g))
    ∧ (∀ g u, s.pst p = psUp → s.tksTake p g = some u → exec (.tksDiscardedFrame p (.malformed g)) s
      = .next ((u.bump (R.tksMalformed p) 32 1).oweCells (some (cellsOf p g))))
    ∧ (s.pst p = psUp → exec (.tksDiscardedFrame p .foreignAddr) s = .next (s.bump (R.tksDropDa p) 32 1))
    ∧ (∀ q, s.pst p = psUp → q ≠ ((s.port p).rxSeq + 1) % 65536 → s.portLive p = true → exec (.tksDiscardedFrame p (.wrongSeq q)) s
      = .next (if (s.port p).nakSent = true then s else (s.modPort p fun x => { x with nakSent := true }).emit (.linkFrame p 1 (s.port p).rxSeq (0, 0) (0, 0))))
    ∧ (∀ i e, (s.port p).queue.findIdx? (fun e => e.back.isSome) = some i → (s.port p).queue[i]? = some e →
      exec (.tksTransitDiscard p) s = .next (((s.modPort p fun x => { x with queue := x.queue.eraseIdx i }).oweCells e.back).bump (R.tksDropHeld p) 32 1))

/-- Resends, failures, the memo and the port commands (R310, R318 to R321, Table 13-9): what timers and commands do, in the cases stated. -/
def Obligations.TukosenCommands : Prop :=
  (∀ (s : State) (r : W32) q v, tget s.tksReq r.toNat = some q → q.ended = false → s.route q.f.dst = some v →
      let u := s.bump R.tksE2eResend 32 1
      exec (.tksBusyRetry r) s = .next (s.sendVia v { q.f with floor := s.tksFloor q.f.dst % 65536 } none)
      ∧ exec (.tksRequestResend r) s = .next (u.sendVia v { q.f with floor := u.tksFloor q.f.dst % 65536 } none))
  ∧ (∀ (s : State) (r : W32) q, tget s.tksReq r.toNat = some q → exec (.tksRequestFail r) s = .next (s.tksEnd r.toNat 7 q.f))
  ∧ (∀ (s : State) n r, exec (.tksMemoExpiry n r) s = .next (State.memoCount { s with memo := s.memo.filter fun e : MemoE => !(e.src == n && e.reqid == r) }))
  ∧ (∀ s q p u, Begins s q 0x0601 u → p < 8 → exec (.tksPortStatus q p) s = done u q 0x0601 0
      (p32 (u.get (R.tksStatus p)).toNat ++ p64 (u.get (R.tksTx p)).toNat ++ p64 (u.get (R.tksRx p)).toNat
        ++ p32 (u.get (R.tksReplay p)).toNat ++ p32 (u.get (R.tksRetrain p)).toNat ++ p64 (u.get (R.tksFecCorr p)).toNat
        ++ ([R.tksFecUncorr p, R.tksFcs p, R.tksDropDa p, R.tksDropForeign p, R.tksDropHeld p, R.tksMalformed p].flatMap fun r => p32 (u.get r).toNat)))
  ∧ (∀ s q p l u, Begins s q 0x8601 u → p < 8 → l < 8 → ∃ r, r.length = 128 ∧ exec (.tksPortStatusExpert q p l) s = done { u with freeCtr := u.freeCtr + 128 } q 0x8601 0 r)
  ∧ (∀ s q p u, Begins s q 0x0602 u → p < 8 → exec (.tksPortReset q p) s = done ((u.modPort p fun x => { x with hold := false }).portReset p) q 0x0602 0 [])
  ∧ (∀ s q p h u, Begins s q 0x8602 u → p < 8 → exec (.tksPortResetExpert q p h) s = done ((u.modPort p fun x => { x with hold := h }).portReset p) q 0x8602 0 [])
  ∧ (∀ s q d u, Begins s q 0x0603 u → d < 2 ^ 18 → exec (.tksRouteProbe q d) s = done u q 0x0603 0 (match u.route d with
      | some r => [BitVec.ofNat 8 r.1, if r.2.2 then 1 else 0, 1, 0] | none => [0, 0, 0, 0]))
  ∧ (∀ s q d t n u, Begins s q 0x0604 u → d < 2 ^ 18 → d ≠ u.ownDev → t < 4 → 1 ≤ n → n ≤ 256 →
      ((u.tksOn = false ∨ u.route d = none) → exec (.tksPing q d t n) s = refused (u.hole ⟨.steward, 0⟩ 0 (d * 2 ^ 46)) q 0x0604 dHole)
      ∧ (u.tksOn = true → (u.route d).isSome = true → 16384 < u.tksOut + n → exec (.tksPing q d t n) s = .next (u.setBox q.mbx { u.box q.mbx with begun := false }))
      ∧ (u.tksOn = true → (u.route d).isSome = true → u.tksOut + n ≤ 16384 → u.tksTrim.reqAge (u.tksTrim.tksFloor d) + n ≤ 32768 → exec (.tksPing q d t n) s
        = .next ((List.range n).foldl (fun s i => (s.tksSend (.ping q.mbx i) (s.reqFrame d t 0x3E 0 0 0 0 0 [] false)).getD s) { u with pings := tput u.pings q.mbx (PingW.mk n []) })))
  ∧ (∀ s q p u, Begins s q 0x0605 u → p < 8 → exec (.tksCreditSet q p) s = done ((u.modPort p fun x => { x with grants := none }).portReset p) q 0x0605 0 [])
  ∧ (∀ s q p g u, Begins s q 0x8605 u → p < 8 → g.length = 16 →
      ((8192 < g.foldl (· + ·) 0 ∨ ∃ x, x ∈ g ∧ x < 17) → exec (.tksCreditSetExpert q p g) s = .next (u.axEnd q.mbx (hdr q 0x8605) 2 0 []))
      ∧ (g.foldl (· + ·) 0 ≤ 8192 → (∀ x, x ∈ g → 17 ≤ x) →
        exec (.tksCreditSetExpert q p g) s = done ((u.modPort p fun x => { x with grants := some g }).portReset p) q 0x8605 0 []))

/-- Doorbells, management sessions and attestation (R350 to R352, R359, R360, R483, R484, R487, Table 22-7): what messages do, in the cases stated. -/
def Obligations.ManagementMessages : Prop :=
  (∀ (s : State) m (v : W32), m < 24 → v.getLsbD 0 = true → s.powered = true → s.asleep = false → s.drowsing = false → s.bget R.stwStatus 31 = true →
      let b := mbxBase m
      let h : Hdr := ⟨s.word b 2, BitVec.ofNat 32 (s.word (b + 8) 4), BitVec.ofNat 32 (s.word (b + 12) 4), nbit (s.word (b + 2) 2) 0⟩
      let u := (s.setBox m { (s.box m) with cur := some h, begun := false }).fset (R.mbxStatus m) 31 30 1
      let c := headerCheck m h.cmd (s.word (b + 2) 2) (s.word (b + 4) 2) (s.word (b + 6) 2)
      ((mbxState s m = 1 ∨ mbxState s m = 2) → exec (.mailboxDoorbell m v) s = .next (s.bset (R.mbxStatus m) 29 true))
      ∧ (mbxState s m ≠ 1 → mbxState s m ≠ 2 → u.bget R.stwStatus 31 = true → (∀ l, (u.box m).last = some l → l.same h = false) →
        exec (.mailboxDoorbell m v) s = .next (if c ≠ 0 then u.axEnd m h c 0 [] else u)))
  ∧ (∀ (s : State) m v, m < 28 → v.getLsbD 0 = false → exec (.mailboxDoorbell m v) s = .next s)
  ∧ (∀ (s : State) n c f l t q, s.powered = true →
      (s.sessOk n (c % 65536) = false → exec (.axotteMgmtMessage n c f l t q) s = .next (s.bump R.mbxMgmtRejected 32 1))
      ∧ (∀ m, s.sessOk n (c % 65536) = true → s.sessBox n = some m → exec (.axotteMgmtMessage n c f l t q) s
        = .next ((if (s.box m).session = some n then s else s.setBox m { session := some n }).post m ⟨c % 65536, t, q, nbit f 0⟩ f l 0))
      ∧ (s.sessOk n (c % 65536) = true → s.sessBox n = none →
        exec (.axotteMgmtMessage n c f l t q) s = .next (s.emit (.mgmt n ⟨c % 65536, t, q, nbit f 0⟩ 3 0 []))))
  ∧ (∀ (s : State) n, (∀ m, (s.box m).session ≠ some n) → exec (.mgmtSessionEnd n) s = .next { s with sec := { s.sec with sess := tdel s.sec.sess n } })
  ∧ (∀ (s : State) p, p < 2 → s.powered = true → s.bget R.stwStatus 31 = true →
      let c := tgetD s.sec.conns p {}
      let no (e : List Byte) : Outc := .next (s.spdm p 0x7F e)
      exec (.getVersion p) s = .next ((s.modConn p fun _ => { stage := 1 }).spdm p 0x04 [0, 1, 0, 0x13])
      ∧ (∀ k, exec (.spdmUnsupportedRequest p k) s = no (0x07 :: leBytes 1 k))
      ∧ (c.stage = 0 → exec (.getCapabilities p) s = no [0x04, 0])
      ∧ (c.stage < 3 → ∀ i, (i = .getDigests p ∨ (∃ a b d, i = .getCertificate p a b d) ∨ (∃ a, i = .challenge p a) ∨ (∃ a b d, i = .getMeasurements p a b d)
          ∨ (∃ a, i = .keyExchange p a) ∨ (∃ a, i = .heartbeat p a)) → exec i s = no [0x04, 0])
      ∧ (1 ≤ c.stage → exec (.getCapabilities p) s = .next ((s.modConn p fun c => { c with stage := max c.stage 2 }).spdm p 0x61 [0, 0]))
      ∧ (∀ a, 2 ≤ c.stage → exec (.negotiateAlgorithms p a) s = if a % 16 = 15 then .next ((s.modConn p fun c => { c with stage := 3 }).spdm p 0x63 [0, 0, 15]) else no [0x01, 0])
      ∧ (c.stage = 3 →
        (let ns := [0, 1, 2, 3].filter fun k => (s.chainOf k).isSome;
          exec (.getDigests p) s = .next (s.spdm p 0x01 (leBytes 1 (ns.foldl (fun n k => n + 2 ^ k) 0) ++ ns.flatMap fun k => leBytes 64 (shake256 ((s.chainOf k).getD [])).toNat)))
        ∧ (∀ a b l x, s.chainOf a = some x → b ≤ x.length → let y := (x.drop b).take l;
          exec (.getCertificate p a b l) s = .next (s.spdm p 0x02 (leBytes 1 a ++ [0] ++ p16 y.length ++ p16 (x.length - b - y.length) ++ y)))
        ∧ (∀ a x, s.chainOf a = some x → s.slotSigns a = true → ∃ r : List Byte, r.length = 32 ∧ exec (.challenge p a) s
          = .next ({ s with freeCtr := s.freeCtr + 32 }.spdm p 0x03 (leBytes 1 a ++ leBytes 64 (shake256 x).toNat ++ r ++ Config.spdmSign a (leBytes 1 a ++ leBytes 64 (shake256 x).toNat ++ r))))
        ∧ (∀ a, s.slotSigns a = false → exec (.challenge p a) s = no [0x01, 0])
        ∧ (∀ i a g, (g = true → s.slotSigns a = true) → exec (.getMeasurements p i a g) s
          = .next (if s.transitional = true then { s with sec := { s.sec with held := s.sec.held ++ [⟨p, i, a, g⟩] } } else s.measAnswer ⟨p, i, a, g⟩ false))
        ∧ (∀ h l d, let y := match c.chunk with | some (k, bs) => if k = h then bs else [] | none => []
          exec (.chunkSend p h l d) s = .next ((s.modConn p fun c => { c with chunk := if l then none else some (h, y ++ d) }).spdm p 0x05 (leBytes 1 h)))
        ∧ (∀ h i, let y := (c.big.drop (4000 * i)).take 4000;
          exec (.chunkGet p h i) s = if y = [] then no [0x01, 0]
            else .next (s.spdm p 0x06 (leBytes 1 h ++ p16 i ++ p32 y.length ++ [BitVec.ofNat 8 (b2n (decide (c.big.length ≤ 4000 * (i + 1))))] ++ y)))
        ∧ (∀ n, s.slotSigns 0 = true → tget s.sec.sess n = none → ∃ r : List Byte, r.length = 96 ∧ exec (.keyExchange p n) s
          = .next ({ s with freeCtr := s.freeCtr + 96, sec := { s.sec with sess := tput s.sec.sess n { port := p } } }.spdm p 0x64
              (p32 n ++ [1] ++ r ++ Config.spdmSign 0 (p32 n ++ [1] ++ r))))
        ∧ (∀ n x d, tget s.sec.sess n = some x → x.port = p → x.ready = false →
          exec (.finish p n d false) s = .next ((s.sessEnd n).spdm p 0x7F [0x06, 0])
          ∧ exec (.finish p n d true) s = .next ({ s with sec := { s.sec with sess := tput s.sec.sess n { x with ready := true, shown := x.shown || d != 0, auth := (x.shown || d != 0) && s.anchored d } } }.spdm p 0x65 []))
        ∧ (∀ n, tget s.sec.sess n = none → exec (.getEncapsulatedRequest p n) s = no [0x02, 0] ∧ exec (.heartbeat p n) s = no [0x02, 0])
        ∧ (∀ n x l, tget s.sec.sess n = some x → exec (.getEncapsulatedRequest p n) s = .next (s.spdm p 0x6A [1, 0x82])
          ∧ exec (.deliverEncapsulatedResponse p n l) s
            = .next ({ s with sec := { s.sec with sess := tput s.sec.sess n { x with shown := x.shown || !l.isEmpty } } }.spdm p 0x6B [1]))
        ∧ (∀ n x, tget s.sec.sess n = some x → x.port = p → x.ready = true →
          exec (.heartbeat p n) s = .next (s.spdm p 0x68 [])
          ∧ (∀ o, 1 ≤ o → o ≤ 3 → exec (.keyUpdate p n o) s = .next (s.spdm p 0x69 (leBytes 1 o)))
          ∧ exec (.endSession p n) s = .next ((s.sessEnd n).spdm p 0x6C [])
          ∧ (∀ a k, tget s.sec.keys a = some k → s.slotSigns a = true →
            exec (.getCsr p n a) s = .next (s.spdm p 0x6D (leBytes 64 k.toNat ++ Config.spdmSign a (leBytes 64 k.toNat))))
          ∧ (∀ a l, 1 ≤ a → a ≤ 3 → l.length ≤ 65536 → exec (.setCertificate p n a l) s = if x.auth = true
            then .next ({ s with sec := { s.sec with chains := tput s.sec.chains a l } }.spdm p 0x6E (leBytes 1 a)) else no [0x01, 0]))))
  ∧ (∀ (s : State) p, p < 2 → exec (.measurementHoldTimeout p) s = .next ((s.sec.held.filter fun h : Held => h.port == p).foldl (fun s h => s.measAnswer h true)
      { s with sec := { s.sec with held := s.sec.held.filter fun h : Held => h.port != p } }))

/-- Security commands (R466 to R492): what they require, change, refuse and answer, in the cases stated. -/
def Obligations.SecurityCommands : Prop :=
  (∀ s q i cmd c d p u, ((i = .secHandover q ∧ cmd = 0x0701 ∧ c = false ∧ d = false ∧ p = none) ∨ (i = .secHandoverExpert q c d p ∧ cmd = 0x8701)) → Begins s q cmd u →
      ((∃ t, p = some t ∧ 0x10000 ≤ t) → exec i s = .next (u.axEnd q.mbx (hdr q cmd) 2 0 []))
      ∧ ((∀ t, p = some t → t < 0x10000) →
        (u.fget R.stwPstate 31 30 ≠ 0 → exec i s = refused u q cmd dPowerState)
        ∧ (u.fget R.stwPstate 31 30 = 0 → (u.sec.burn.isSome ∨ u.sec.fwNow = true ∨ u.sec.hand.isSome ∨ u.runs q.mbx [0x0708, 0x8708, 0x070A, 0x870A] = true) → exec i s = .next (u.axEnd q.mbx (hdr q cmd) 3 0 []))
        ∧ (u.fget R.stwPstate 31 30 = 0 → u.sec.burn = none → u.sec.fwNow = false → u.sec.hand = none → u.runs q.mbx [0x0708, 0x8708, 0x070A, 0x870A] = false → exec i s = .next (handed u q.mbx c d p))))
  ∧ (∀ s q t n k u, Begins s q 0x0702 u →
      (t > 3 ∨ n ≠ u.get R.hubIdModule → exec (.secLcTransition q t n k) s = .next (u.axEnd q.mbx (hdr q 0x0702) 2 0 []))
      ∧ (t ≤ 3 → n = u.get R.hubIdModule → u.bget R.secLcStatus 25 = false → u.sec.burn = none → u.sec.hand = none →
        (lcBits (u.fget R.secLcStatus 31 29) t = none → exec (.secLcTransition q t n k) s = refused u q 0x0702 dState)
        ∧ (∀ bs, lcBits (u.fget R.secLcStatus 31 29) t = some bs → u.fget R.secLcStatus 31 29 ≠ 0 → exec (.secLcTransition q t n k) s
          = if u.burnOk then .next { u with sec := { u.sec with burn := some { mbx := q.mbx, target := t, bits := bs } } } else refused u q 0x0702 dSupplyLow)
        ∧ (∀ bs, lcBits (u.fget R.secLcStatus 31 29) t = some bs → u.fget R.secLcStatus 31 29 = 0 →
          (∀ v, ImageHole u k 29824 v → exec (.secLcTransition q t n k) s = refused v q 0x0702 dSigInvalid)
          ∧ (u.imgHole k.toNat 29824 = false → u.imgReady k.toNat 29824 = false → exec (.secLcTransition q t n k) s = imageAwaited u q k 29824)
          ∧ (∀ img v, ImageAt u k 29824 img v → exec (.secLcTransition q t n k) s
            = if (match v.tokenScope img with | some c => nbit c 4 | none => false) = false then refused v q 0x0702 dSigInvalid
              else if v.burnOk then .next { v with sec := { v.sec with burn := some { mbx := q.mbx, target := t, bits := bs } } } else refused v q 0x0702 dSupplyLow))))
  ∧ (∀ s q k x u, Begins s q 0x0703 u → exec (.secKeyProvision q k x) s
      = if k = 0 ∨ 3 < k then .next (u.axEnd q.mbx (hdr q 0x0703) 2 0 []) else if u.fget R.secLcStatus 31 29 ≠ 1 then refused u q 0x0703 dState
        else done { u with sec := { u.sec with keys := tput u.sec.keys k (Config.deriveKey k x) } } q 0x0703 0 (leBytes 64 (Config.deriveKey k x).toNat))
  ∧ (∀ s q u, Begins s q 0x0704 u → u.sec.hand = none →
      ((u.oldLive = true ∨ u.store.epochBad = true) → exec (.secEpochRotate q) s = refused u q 0x0704 dState)
      ∧ (u.oldLive = false → u.store.epochBad = false →
        let n := (u.curEpoch + 1) % 256
        let v := { u with keyCtr := u.keyCtr + 1, store := { u.store with curKey := u.keyCtr, oldKey := if u.storeInit then u.store.curKey else 0 } }
        let w := v.fset R.ctxStoreStatus 23 16 n
        exec (.secEpochRotate q) s = done (if u.storeInit then (w.fset R.ctxStoreStatus 15 8 u.curEpoch).bset R.ctxStoreStatus 30 true else w).measDone q 0x0704 0 (p32 n)))
  ∧ (∀ s q d u, Begins s q 0x0706 u → exec (.secDeviceSet q d) s
      = if 2 ^ 18 ≤ d then .next (u.axEnd q.mbx (hdr q 0x0706) 2 0 []) else if u.tenantLeft then refused u q 0x0706 dState
        else persists u q 0x0706 [(0, BitVec.ofNat 32 (2 ^ 31 + d))] .plain)
  ∧ (∀ s q d u, Begins s q 0x070B u → exec (.secPartitionSet q d) s
      = if 2 ^ 16 ≤ d then .next (u.axEnd q.mbx (hdr q 0x070B) 2 0 []) else if u.tenantLeft then refused u q 0x070B dState
        else persists u q 0x070B [(1, BitVec.ofNat 32 d)] .measured)
  ∧ (∀ s q k u, Begins s q 0x0709 u →
      (u.fget R.secLcStatus 31 29 = 1 → exec (.secDebugOpen q k) s = refused ((u.set R.secDbgNonce u.free).drew) q 0x0709 dState)
      ∧ (u.fget R.secLcStatus 31 29 ≠ 1 →
        (∀ v, ImageHole u k 29824 v → exec (.secDebugOpen q k) s = refused ((v.set R.secDbgNonce v.free).drew) q 0x0709 dSigInvalid)
        ∧ (u.imgHole k.toNat 29824 = false → u.imgReady k.toNat 29824 = false → exec (.secDebugOpen q k) s = imageAwaited u q k 29824)
        ∧ (∀ img v, ImageAt u k 29824 img v → let t := (v.set R.secDbgNonce v.free).drew
          exec (.secDebugOpen q k) s = match v.tokenScope img with
            | none => refused t q 0x0709 dSigInvalid
            | some c => let w := { t with sec := { t.sec with scopes := t.sec.scopes ||| c } }
              done (w.bset R.secLcStatus 23 (w.sec.scopes != 0)).measDone q 0x0709 0 (p32 w.sec.scopes))))
  ∧ (∀ s q u, Begins s q 0x070C u → exec (.secStatus q) s = done u q 0x070C 0 (p32 (u.get R.secLcStatus).toNat ++ p32 (u.get R.secTenStatus).toNat
      ++ p32 (u.get R.secFwStatus).toNat ++ p64 (u.get R.secLibStatus).toNat ++ p64 (u.get R.secDbgNonce).toNat))

/-- Images, trust items and routing entries (R472, R481 to R484, R487): an image that fails is refused with the detail of its first failure, one that
verifies takes effect. -/
def Obligations.SecurityImages : Prop :=
  (∀ s q g n now i cmd u, ((i = .secFwUpdate q g n ∧ cmd = 0x0708 ∧ now = false) ∨ (i = .secFwUpdateExpert q g n now ∧ cmd = 0x8708 ∧ s.sec.fwNow = false)) → Begins s q cmd u →
      (∀ v, ImageHole u g n v → exec i s = refused v q cmd dBadHeader)
      ∧ (u.imgHole g.toNat n = false → u.imgReady g.toNat n = false → exec i s = imageAwaited u q g n)
      ∧ (∀ img v, ImageAt u g n img v →
        (imgHeader img 0x46564C46 n = none → exec i s = refused v q cmd dBadHeader)
        ∧ (∀ b, imgHeader img 0x46564C46 n = some b → (svcReserved img = false ∨ 255 < imgU img 0x14 4) → exec i s = refused v q cmd dBadHeader)
        ∧ (∀ b, imgHeader img 0x46564C46 n = some b → svcReserved img = true → imgU img 0x14 4 ≤ 255 → imgDigestOk img b = false → exec i s = refused v q cmd dDigest)
        ∧ (∀ b, imgHeader img 0x46564C46 n = some b → svcReserved img = true → imgU img 0x14 4 ≤ 255 → imgDigestOk img b = true →
          imgU img 0x14 4 < v.fget R.secFwStatus 23 16 → exec i s = refused v q cmd dSigInvalid)))
  ∧ (∀ s q g n i cmd base u, ((i = .secLibraryLoad q g n ∧ cmd = 0x070A ∧ base = none) ∨ (∃ b, i = .secLibraryLoadExpert q g n b ∧ cmd = 0x870A ∧ base = some b)) → Begins s q cmd u →
      u.sec.hand = none →
      (∀ v, ImageHole u g n v → exec i s = refused v q cmd dBadHeader)
      ∧ (u.imgHole g.toNat n = false → u.imgReady g.toNat n = false → exec i s = imageAwaited u q g n)
      ∧ (∀ img v, ImageAt u g n img v →
        ((svcReserved img = false ∨ imgZero img 0x14 8 = false) → exec i s = refused v q cmd dBadHeader)
        ∧ (svcReserved img = true → imgZero img 0x14 8 = true → (v.imgVerify img 0x5242494C n 2).2 ≠ 0 → exec i s = refused v q cmd (v.imgVerify img 0x5242494C n 2).2)))
  ∧ (∀ s q it pr u, Begins s q 0x0705 u →
      let v := u.bset R.secLcStatus 22 pr
      let auth := match (v.box q.mbx).session with | some n => (tgetD v.sec.sess n { port := 0 }).auth | none => true
      let first := match it with | .anchor _ => pr && v.anchor == 0 | _ => false
      (trustWords it = none → exec (.secTrustSet q it pr) s = .next (v.axEnd q.mbx (hdr q 0x0705) 2 0 []))
      ∧ (∀ ws, trustWords it = some ws → auth = false → first = false → exec (.secTrustSet q it pr) s = .next (v.axEnd q.mbx (hdr q 0x0705) 5 0 []))
      ∧ (∀ ws, trustWords it = some ws → (auth = true ∨ first = true) → exec (.secTrustSet q it pr) s = persists v q 0x0705 ws .plain))
  ∧ (∀ s q t f es u, Begins s q 0x0707 u → t ≤ 1 → es ≠ [] → f + es.length ≤ 512 → (∀ e, e ∈ es → nbits e.toNat 11 7 = 0 ∧ nbit e.toNat 3 = false) →
      exec (.secRouteWrite q t f es) s = persists u q 0x0707 (u.routeWords (if t = 0 then 0x200 else 0x300) f es) (.entries es.length))

/-- Safe states, sensors, coolant, the watchdog and fault injection (R345, R446 to R453, R458, R465): each condition and its reaction. -/
def Obligations.SafetyReactions : Prop :=
  (∀ s : State,
    (∀ n, s.powered = true → s.bget R.stwStatus 31 = true → exec (.lockstepMismatch n) s = .next (s.lockstep n false))
    ∧ (∀ n, (s.powered = false ∨ s.bget R.stwStatus 31 = false) → exec (.lockstepMismatch n) s = .next s)
    ∧ exec .stewardRestartComplete s = .next (if s.powered && s.bget R.stwStatus 30 then s.restarted else s)
    ∧ (s.powered = true → s.bget R.stwStatus 31 = true → exec .heartbeatTick s
        = .next ((s.set R.safHeartbeat (BitVec.ofNat 64 (((s.get R.safHeartbeat).toNat + 1) % 2 ^ 32))).changePoll).burnTick.duePump)
    ∧ (∀ b x y, b < 68 → s.domUp b = true → exec (.benchSensorRead b x y) s = .next ((s.sensor b 0 x).sensor b 1 y))
    ∧ (∀ b x y, b < 68 → s.domUp b = false → exec (.benchSensorRead b x y) s = .next s)
    ∧ (∀ b i t, (t < -20 ∨ 150 < t) → s.sensor b i t = (s.fset (R.pwrBenchTemp b) (8 * i + 7) (8 * i) (min 255 t.toNat)).benchCool b 9 i false)
    ∧ (∀ b i t, 105 ≤ t → t ≤ 150 → tgetD s.saf.hotRun (2 * b + i) 0 = 4 →
        let u := s.fset (R.pwrBenchTemp b) (8 * i + 7) (8 * i) (min 255 t.toNat)
        s.sensor b i t = { u with saf := { u.saf with hotRun := tset u.saf.hotRun (2 * b + i) 0 5 } }.benchCool b 3 i false)
    ∧ (∀ b i t, -20 ≤ t → t < 105 →
        let u := s.fset (R.pwrBenchTemp b) (8 * i + 7) (8 * i) (min 255 t.toNat)
        s.sensor b i t = { u with saf := { u.saf with hotRun := tset u.saf.hotRun (2 * b + i) 0 0 } })
    ∧ (∀ b i, b < 68 → i < 2 → exec (.sensorRefreshTimeout b i) s = .next (if s.domUp b then s.benchCool b 9 i false else s))
    ∧ (∀ b m, b < 68 → exec (.benchCoolExit b m) s = .next (if s.saf.cool.contains b = true ∧ s.saf.latched.contains b = false ∧ 1000 ≤ m
        ∧ s.fget (R.pwrBenchTemp b) 7 0 < 90 ∧ s.fget (R.pwrBenchTemp b) 15 8 < 90 then s.coolExit b else s))
    ∧ (s.stepDoneB 3 = false → ∀ l, exec (.flowOkSample l) s = .next s)
    ∧ (s.stepDoneB 3 = true → exec (.flowOkSample true) s = .next ({ s with saf := { s.saf with flowLow := 0 } }.bset R.safStatus 31 true))
    ∧ (s.stepDoneB 3 = true → s.saf.flowLow = 49 → s.bget R.safStatus 30 = false → let u := { s with saf := { s.saf with flowLow := 50 } }.bset R.safStatus 31 false
        exec (.flowOkSample false) s = .next (if s.bget R.safStatus 29 then u.armAt 93 4 0 else (u.detect 4 93 0 false).deviceCool))
    ∧ (∀ t i m, t < 2176 → i < 8 → s.seqStuck t = true → s.wdogRuns (t / 32) m = true → exec (.watchdogExpiry 0 t i m) s
        = .next ((s.detect 8 (t / 32) (t % 32) false).kill t 0x0F 2 0 0))
    ∧ (∀ t i m, t < 2176 → i < 8 → (tget (s.tile t).dma i).isSome → s.wdogRuns (t / 32) m = true → exec (.watchdogExpiry 1 t i m) s
        = .next ((s.detect 8 (t / 32) (t % 32) false).kill t 0x0F 3 i 0))
    ∧ (∀ n i m l, n < 64 → i < 8 → tget s.lanes (8 * n + i) = some l → s.ringHead n i ≠ s.ringTail n i → s.wdogRuns (l.ptile / 32) m = true →
        exec (.watchdogExpiry 2 n i m) s = .next ((s.detect 8 (90 + n / 32) (8 * n % 256 + i) false).killCtx l.ctx none))
    ∧ (∀ b i m, b < 68 → i < 8 → s.wdogRuns b m = true → exec (.watchdogExpiry 3 b i m) s = .next ((s.detect 8 b i false).regionGo b none false))
    ∧ (∀ k u i m, k < 3 → u < [2176, 2176, 64].getD k 0 → i < 8 →
        (if k = 0 then s.seqStuck u = false ∨ s.wdogRuns (u / 32) m = false else if k = 1 then tget (s.tile u).dma i = none ∨ s.wdogRuns (u / 32) m = false
          else tget s.lanes (8 * u + i) = none) → exec (.watchdogExpiry k u i m) s = .next s))
  ∧
  ((∀ s q u, Begins s q 0x0804 u → exec (.diagSafetyStatus q) s
      = done u q 0x0804 0 (p32 (u.get R.safStatus).toNat ++ p32 (u.get R.safHeartbeat).toNat ++ p32 (u.get R.safRecStatus).toNat ++ p64 (u.get R.safRecTime).toNat
        ++ (List.range 68).flatMap (fun b => p32 (u.get (R.safObist b)).toNat)
        ++ p32 (u.get R.safCntDatapath).toNat ++ p32 (u.get R.safCntTemp).toNat ++ p32 (u.get R.safCntWdog).toNat ++ p32 (u.get R.safCntObistFail).toNat
        ++ p32 (u.get R.safCntParity).toNat))
  ∧ (∀ s q c i cmd o u, ((i = .diagFaultInject q c ∧ cmd = 0x0805 ∧ o = none) ∨ (∃ n, i = .diagFaultInjectExpert q c n ∧ cmd = 0x8805 ∧ o = some n)) → Begins s q cmd u →
      (c = 2 → 24 ≤ q.mbx → exec i s = .next (u.lockstep 10000000 true))
      ∧ ((c = 2 ∧ q.mbx < 24) ∨ c ∉ [2, 3, 5, 6, 7, 8] → exec i s = .next (u.axEnd q.mbx (hdr q cmd) 2 0 []))
      ∧ (∀ x, x < 2176 → (c = 5 ∨ c = 6 ∨ c = 7) → u.injTile x = true → (o = some x ∨ (o = none ∧ ∀ y, y < x → u.injTile y = false)) →
        exec i s = done ({ u with freeCtr := u.freeCtr + 8 }.inject c x) q cmd 0 (p32 1 ++ u.freeBytes 8))
      ∧ (∀ x, x < 68 → c = 3 → u.injBench x = true → (o = some x ∨ (o = none ∧ ∀ y, y < x → u.injBench y = false)) →
        exec i s = done ({ u with freeCtr := u.freeCtr + 8 }.inject 3 x) q cmd 0 (p32 1 ++ u.freeBytes 8))
      ∧ (∀ x y, x < 2176 → y < 2176 → x ≠ y → c = 8 → u.injTile x = true → u.injTile y = true → (o = some x ∨ (o = none ∧ ∀ z, z < x → u.injTile z = false)) →
        exec i s = done ({ u with freeCtr := u.freeCtr + 8 }.inject 8 x) q cmd 0 (p32 1 ++ u.freeBytes 8))
      ∧ ((c = 5 ∨ c = 6 ∨ c = 7 ∨ c = 8) → (∀ n, o = some n → n < 2176) → (∀ x, u.injTile x = false) → exec i s = refused u q cmd dState)))

/-- Service-core operations (R363 to R366): FSIG, FWAIT, interrupt reads and uncached accesses; none has an effect on a core that does not execute. -/
def Obligations.ServiceCores : Prop :=
  ∀ (s : State) (c : Nat), c < 16 →
    let u := s.modCore c fun x => { x with wait := none }
    (∀ i, ((∃ a b, i = .fsig c a b) ∨ (∃ r a b, i = .fwait c r a b) ∨ (∃ r, i = .firqRead c r) ∨ (∃ r p n o l, i = .svcCoreAccess c r p n o l)) →
      s.coreRuns c = false → exec i s = .next s)
    ∧ (s.coreRuns c = true →
      (∀ a b, 8191 < a.toNat → exec (.fsig c a b) s = .next (u.modCore c fun x => x.trap 2 0))
      ∧ (∀ a b, a.toNat ≤ 8191 → (u.core c).stores = 0 → exec (.fsig c a b) s = .next (u.syncAdd a.toNat b false))
      ∧ (∀ a b, a.toNat ≤ 8191 → (u.core c).stores ≠ 0 → exec (.fsig c a b) s = .next (u.modCore c fun x => { x with sigq := x.sigq ++ [(a.toNat, b)] }))
      ∧ (∀ r a b, 8191 < a.toNat → exec (.fwait c r a b) s = .next (u.modCore c fun x => x.trap 2 0))
      ∧ (∀ r a b, a.toNat ≤ 8191 → b.toNat ≤ (u.get (R.syncCount a.toNat)).toNat → exec (.fwait c r a b) s = .next (u.modCore c fun x => x.setX r (u.get (R.syncCount a.toNat))))
      ∧ (∀ r a b, a.toNat ≤ 8191 → (u.get (R.syncCount a.toNat)).toNat < b.toNat → exec (.fwait c r a b) s
        = .next (u.modCore c fun x => { x with wait := some (a.toNat, b, r) }))
      ∧ (∀ r, tgetD u.svcIrq c [] = [] → exec (.firqRead c r) s = .next (u.modCore c fun x => x.setX r 0))
      ∧ (∀ r v l, tgetD u.svcIrq c [] = v :: l → exec (.firqRead c r) s
        = .next (({ u with svcIrq := tset u.svcIrq c [] l }.fset (R.svcStatus c) 6 0 l.length).modCore c fun x => x.setX r v))
      ∧ (∀ r p n o l, u.coreG c p = none → exec (.svcCoreAccess c r p n o l) s = .next (u.modCore c fun x => x.trap (if accCode o = 0 then 5 else 7) p).accPump)
      ∧ (∀ r p n o g, let w := if accWrites o then (accBytes o).length else n
        u.coreG c p = some g → u.inPrivate g w = false →
        exec (.svcCoreAccess c r p n o true) s = .next (u.modCore c fun x => x.trap (if accCode o = 0 then 5 else 7) p).accPump
        ∧ (accWrites o = false → exec (.svcCoreAccess c r p n o false) s = .next (u.access ⟨.core, c⟩ (.core c r) g w ((u.core c).ftcls % 4) o false).accPump)
        ∧ (accWrites o = true → exec (.svcCoreAccess c r p n o false) s = .next (((u.modCore c fun x => { x with stores := x.stores + 1 }).access ⟨.core, c⟩ (.core c r) g w
          (((u.modCore c fun x => { x with stores := x.stores + 1 }).core c).ftcls % 4) o false).accPump)))
      ∧ (∀ r p n o g l, u.coreG c p = some g → u.inPrivate g (if accWrites o then (accBytes o).length else n) = true →
        (accWrites o = true → l = false → exec (.svcCoreAccess c r p n o l) s = .next u.accPump)
        ∧ ((accWrites o = false ∨ l = true) → exec (.svcCoreAccess c r p n o l) s = .next (u.drew.modCore c fun x => x.setX (r % 32) u.free).accPump)))

/-- Service commands (R367 to R371): firmware load, start, stop, queues and status. -/
def Obligations.ServiceCommands : Prop :=
  (∀ s q g n u, Begins s q 0x0B01 u →
      ((u.coresRun ≠ [] ∨ u.svc.size = 0) → exec (.svcFwLoad q g n) s = refused u q 0x0B01 dState)
      ∧ (u.coresRun = [] → u.svc.size ≠ 0 →
        (∀ v, ImageHole u g n v → exec (.svcFwLoad q g n) s = refused v q 0x0B01 dBadHeader)
        ∧ (u.imgHole g.toNat n = false → u.imgReady g.toNat n = false → exec (.svcFwLoad q g n) s = imageAwaited u q g n)
        ∧ (∀ img v, ImageAt u g n img v →
          let b := (v.imgVerify img 0x46435653 n 1).1
          let e := (v.imgVerify img 0x46435653 n 1).2
          let off := imgU img 0x14 4
          ((e = dBadHeader ∨ svcReserved img = false ∨ off % 4096 ≠ 0 ∨ v.svc.size < off + (b - 0x100) ∨ v.svc.size ≤ imgU img 0x18 4) →
            exec (.svcFwLoad q g n) s = refused v q 0x0B01 dBadHeader)
          ∧ (e ≠ dBadHeader → svcReserved img = true → off % 4096 = 0 → off + (b - 0x100) ≤ v.svc.size → imgU img 0x18 4 < v.svc.size → e ≠ 0 →
            exec (.svcFwLoad q g n) s = refused v q 0x0B01 e))))
  ∧ (∀ s q i cmd b n a cs u, ((i = .svcStart q b n a ∧ cmd = 0x0B02 ∧ cs = (List.range 16).map fun c => (c, u.svc.entry))
        ∨ (∃ m es, i = .svcStartExpert q b n a m es ∧ cmd = 0x8B02 ∧ m < 2 ^ 16 ∧ es.length = 16 ∧ (∀ e, e ∈ es → e < n)
          ∧ cs = ((List.range 16).filter fun c => nbit m c).map fun c => (c, es.getD c 0))) → Begins s q cmd u →
      ((b % 0x10000 ≠ 0 ∨ n % 0x10000 ≠ 0 ∨ n < 0x4000000 ∨ u.hbmBacked b = false ∨ u.hbmBacked (b + n - 1) = false ∨ (b < u.store.rBase + u.store.rLen ∧ u.store.rBase < b + n)) →
        exec i s = .next (u.axEnd q.mbx (hdr q cmd) 2 0 []))
      ∧ (b % 0x10000 = 0 → n % 0x10000 = 0 → 0x4000000 ≤ n → u.hbmBacked b = true → u.hbmBacked (b + n - 1) = true → (u.store.rBase + u.store.rLen ≤ b ∨ b + n ≤ u.store.rBase) →
        ((u.coresRun ≠ [] ∨ (u.svc.loaded = true ∧ (u.svc.base ≠ b ∨ u.svc.size ≠ n))) → exec i s = refused u q cmd dState)
        ∧ (u.coresRun = [] → (u.svc.loaded = true → u.svc.base = b ∧ u.svc.size = n) →
          let t := { u with svc := { u.svc with base := b, size := n, arg := a, going := false, step := 0, ents := [], waitQ := [], rspQ := [] } }
          exec i s = if u.domUp 89 then done (cs.foldl (fun (x : State) (c : Nat × Nat) => x.coreStart (BitVec.ofNat 64 (b + c.2)) c.1) t) q cmd 0 [] else refused u q cmd dPowerState)))
  ∧ (∀ s q u, Begins s q 0x0B03 u → exec (.svcStop q) s = done u.svcHalt q 0x0B03 0 (p32 (u.coresRun.foldl (fun n c => n + 2 ^ c) 0)))
  ∧ (∀ s q i cmd k b n o w es u, ((i = .svcQueueSet q k b n o ∧ cmd = 0x0B04 ∧ w = 4 ∧ es = []) ∨ (i = .svcQueueSetExpert q k b n o w es ∧ cmd = 0x8B04)) → Begins s q cmd u →
      (iqWord b n o w = none → exec i s = .next (u.axEnd q.mbx (hdr q cmd) 2 0 []))
      ∧ (∀ v, iqWord b n o w = some v → k < 256 → (∀ e, e ∈ es → e.1 < 16 ∧ fld e.2 59 56 ≤ 12) →
        exec i s = (match (u.iqSet k v).bind fun t => es.foldlM (fun (x : State) (e : Nat × W64) => x.eqSet e.1 e.2) t with
          | some t => done t q cmd 0 [] | none => refused u q cmd dState)))
  ∧ (∀ s q u, Begins s q 0x0B05 u → exec (.svcStatus q) s =
      let lev (t h : Reg) : List Byte := p32 (((u.get t).toNat + 2 ^ 32 - (u.get h).toNat) % 2 ^ 32)
      done u q 0x0B05 0 (((List.range 16).flatMap fun c => p32 (u.get (R.svcStatus c)).toNat) ++ p64 u.svc.fwId.toNat
        ++ ((List.range 256).flatMap fun k => lev (R.svcIqTail k) (R.svcIqHead k)) ++ (List.range 16).flatMap fun e => lev (R.svcEqTail e) (R.svcEqHead e)))

/-- Egress and the serving profile (R372 to R375): when a descriptor leaves, when a request is admitted, waits or is answered, and what begins a step. -/
def Obligations.EgressAndServing : Prop :=
  ∀ s : State,
    (∀ e v, e < 16 → s.powered = true → s.blockOn (R.svcEqTail e).addr = true → exec (.egressTailWrite e v) s = .next (s.set (R.svcEqTail e) (v.setWidth 64)))
    ∧ (∀ e, e < 16 → (s.powered = false ∨ s.bget (R.svcEqCfg e) 63 = false ∨ tgetD s.svc.sent e 0 = (s.get (R.svcEqTail e)).toNat) → exec (.egressSend e) s = .next s.cohTail)
    ∧ (∀ e i, e < 16 → s.powered = true → s.bget (R.svcEqCfg e) 63 = true → i = tgetD s.svc.sent e 0 → i ≠ (s.get (R.svcEqTail e)).toNat →
      let a := s.gOwn (s.eqAddr e i)
      (s.gHole a 32 = true → exec (.egressSend e) s = .next (s.hole svcHub 0 a).cohTail)
      ∧ (s.gHole a 32 = false → s.gReady svcHub a 32 = false → exec (.egressSend e) s = .next (s.gAsk svcHub a 32 1).cohTail)
      ∧ (s.gHole a 32 = false → s.gReady svcHub a 32 = true → let r := s.gRead svcHub a 32 1
        exec (.egressSend e) s = .next (r.2.2.egressGo e i (egDesc r.1) r.2.1).cohTail))
    ∧ (∀ r, s.serving = false → exec (.servingAdmission r) s = .next s.accPump)
    ∧ (∀ r : SvReq, s.serving = true → (r.prompt = [] ∨ 1024 < r.topK ∨ r.maxNew = 0 ∨ 4 ≤ r.tc) → exec (.servingAdmission r) s = .next (s.svReply r 5 0 []).accPump)
    ∧ (∀ r : SvReq, s.serving = true → r.prompt ≠ [] → r.topK ≤ 1024 → r.maxNew ≠ 0 → r.tc < 4 →
      let rest := s.svc.waitQ.filter fun x : SvReq => x.id != r.id
      let put := { s with svc := { s.svc with waitQ := rest ++ [r] } }
      ((∀ i, i < s.man 40 2 → (tget s.svc.ents i).isSome) → exec (.servingAdmission r) s = .next put.accPump)
      ∧ (∀ i, i < s.man 40 2 → tget s.svc.ents i = none → (∀ j, j < i → (tget s.svc.ents j).isSome) → exec (.servingAdmission r) s = .next (if s.svRoom r then
          { s with svc := { s.svc with waitQ := rest, ents := tput s.svc.ents i { r := r, seq := (s.man 36 4 + i) % 2 ^ 24 } } }.svOpen ((s.man 36 4 + i) % 2 ^ 24) else put).accPump))
    ∧ (∀ id, s.svc.waitQ.find? (fun x : SvReq => x.id == id) = none → exec (.servingAdmissionTimeout id) s = .next s)
    ∧ (∀ id r, s.svc.waitQ.find? (fun x : SvReq => x.id == id) = some r → s.serving = true → exec (.servingAdmissionTimeout id) s
      = .next ({ s with svc := { s.svc with waitQ := s.svc.waitQ.filter fun x : SvReq => x.id != id } }.svReply r 3 0 []).accPump)
    ∧ (let w := s.svPump
      ((w.serving = false ∨ w.svc.ents = []) → exec .servingStep s = .next w.cohTail)
      ∧ (w.serving = true → w.svc.ents ≠ [] → w.bget (R.xltCtx (w.man 44 2 % 4096)) 62 = true → exec .servingStep s
        = .next ((w.svc.ents.foldl (fun (x : State) (e : Nat × SvEnt) => x.svReply e.2.r 4 (e.2.r.prompt.length + e.2.gen - e.2.toks.length) e.2.toks)
          { w with svc := { w.svc with ents := [], going := false } }).svReload).cohTail)
      ∧ (w.serving = true → w.svc.ents ≠ [] → w.bget (R.xltCtx (w.man 44 2 % 4096)) 62 = false →
        (w.svc.going = false →
          let u := w.svc.ents.foldl (fun (x : State) (e : Nat × SvEnt) => (x.gWrite svcHub (2 ^ 40) (w.man 16 8 + 16 * e.1) 1 (e.2.bytes (x.man 42 2)) false).1) w
          let v := { u with svc := { u.svc with step := u.svc.step + 1, going := true } }
          exec .servingStep s = .next (v.syncAdd (v.man 64 2 % 8192) 1 false).cohTail)
        ∧ (w.svc.going = true → (w.get (R.syncCount (w.man 66 2 % 8192))).toNat < w.svc.step → exec .servingStep s = .next w.cohTail)))

/-- Commands that read an image or a token (R147 to R150, R367, R472, R481, R484) and the claims, releases and wake-ups of sync objects (R288, R295): for every state in which the
device takes the command and holds the bytes, and all operands in range, the command completes, and the next state is the one given: its effect where every check passes,
else the refusal of the first check that fails. -/
def Obligations.ImageAndClaimCommandsComplete : Prop :=
  (∀ s q g z c lb sb w o i cmd (p : LoadOpt) u img v, ((i = .fabDrsLoad q g z c ∧ cmd = 0x0401 ∧ p = {})
        ∨ (i = .fabDrsLoadExpert q g z c lb sb w o ∧ cmd = 0x8401 ∧ (w = 0xFF ∨ w < 64) ∧ p = { base := some (lb, sb), swap := if w = 0xFF then none else some w, oversub := o })) →
      Begins s q cmd u → c < 4096 → ImageAt u g z img v →
      let no := refused v q cmd
      let n := imgU img 0x14 2
      let claim := (recsOf img (imgSects img) 1).headD []
      let m := imgU claim 0 2
      let r := match p.base with | some (b, _) => (b, v.placeCheck b n p.swap) | none => v.placeBase n (imgU img 0x16 1)
      let xs := (imgStreams img).map (v.routed r.1)
      exec i s
        = if imgHeadOk img = false then no dBadHeader
          else if (v.imgVerify img 0x54555242 z 0).2 ≠ 0 then no (v.imgVerify img 0x54555242 z 0).2
          else if imgRecordsOk img (v.imgVerify img 0x54555242 z 0).1 = false then no dMalformed
          else if v.bget (R.xltCtx c) 63 = false then no dContextDead
          else match (List.range 64).find? (fun h => (tget v.dress h).isNone) with
            | none => no dNoHandle
            | some h =>
              if (List.range 8).any (fun k => imgU claim (4 + k) 1 != 0 && imgU claim (4 + k) 1 != v.siteType k) then no dSiteMismatch
              else if r.2 ≠ 0 then no r.2
              else match (match p.base with | some (_, b) => if v.syncRun b m 0 then some b else none | none => v.freeRun m) with
                | none => no dSyncExhausted
                | some b =>
                  if relocsOk img = false then no dMalformed
                  else match routeFull v.allStreams xs, linkOver v.allStreams xs (if p.oversub then 255 else 64) with
                    | some e, _ => .next (v.axEnd q.mbx (hdr q cmd) 4 dRouteFull (p16 e ++ p16 0))
                    | none, some e => .next (v.axEnd q.mbx (hdr q cmd) 4 dLinkOversub (p16 e.1 ++ p16 (linkCode e.2)))
                    | none, none =>
                      let d : Dressing := { ctx := c, image := g.toNat, size := z, digest := BitVec.ofNat 512 (imgU img 0x30 64), dressId := BitVec.ofNat 64 (imgU img 0x20 8), n := n,
                                            lbase := r.1, sbase := b, syncs := m, streams := xs, target := p.swap.filter fun a => (tget v.dress a).isSome, oversub := p.oversub }
                      let x := (List.range m).foldl (fun s i => (s.fset (R.syncStatus (b + i)) 29 28 1).fset (R.syncStatus (b + i)) 27 22 h) v
                      let y := { x with dress := tput x.dress h d }
                      done ({ y with bist := { y.bist with online := y.bist.online.filter fun t => !(y.tilesOf d).contains t } }.measCommit) q cmd 0 (p16 h ++ p16 r.1 ++ p16 b))
  ∧ (∀ s q g n u img v, Begins s q 0x0B01 u → u.coresRun = [] → u.svc.size ≠ 0 → ImageAt u g n img v →
      let no := refused v q 0x0B01
      let e := (v.imgVerify img 0x46435653 n 1).2
      let body := (v.imgVerify img 0x46435653 n 1).1 - 0x100
      let d := BitVec.ofNat 512 (imgU img 0x30 64)
      let t := (v.engWrite ⟨.steward, 0⟩ (2 ^ 40) (v.svc.base + imgU img 0x14 4) 1 ((img.drop 0x100).take body) (u.imgBad g n)).1
      exec (.svcFwLoad q g n) s
        = if e = dBadHeader ∨ svcReserved img = false ∨ imgU img 0x14 4 % 4096 ≠ 0 ∨ v.svc.size < imgU img 0x14 4 + body ∨ v.svc.size ≤ imgU img 0x18 4 then no dBadHeader
          else if e ≠ 0 then no e
          else done ({ t with svc := { t.svc with loaded := true, fwId := BitVec.ofNat 64 (imgU img 0x20 8), digest := d, entry := imgU img 0x18 4 } }).measCommit
            q 0x0B01 0 (p64 (imgU img 0x20 8) ++ leBytes 64 d.toNat))
  ∧ (∀ s q g n now i cmd u img v, ((i = .secFwUpdate q g n ∧ cmd = 0x0708 ∧ now = false) ∨ (i = .secFwUpdateExpert q g n now ∧ cmd = 0x8708 ∧ s.sec.fwNow = false)) → Begins s q cmd u →
      ImageAt u g n img v →
      let no := refused v q cmd
      let svn := imgU img 0x14 4
      let k := 1 - v.fget R.secFwStatus 30 30
      let d := BitVec.ofNat 512 (imgU img 0x30 64)
      let x := { v.sec with fwDigest := tput v.sec.fwDigest k d, fwVer := tput v.sec.fwVer k (imgU img 0x18 4 % 2 ^ 24), pendDigest := some d, fwNow := now || v.sec.fwNow }
      let t := { v with sec := x }.set R.secFwStatus (setFld (setFld (v.get R.secFwStatus) 31 31 1) 7 0 svn)
      let w := t.axEnd q.mbx (hdr q cmd) 0 0 (p32 (t.fwVersion k))
      exec i s = match imgHeader img 0x46564C46 n with
        | none => no dBadHeader
        | some b =>
          if svcReserved img = false ∨ 255 < svn then no dBadHeader
          else if imgDigestOk img b = false then no dDigest
          else if imgSigOk img b (Config.flivonKey 0) = false ∨ svn < v.fget R.secFwStatus 23 16 then no dSigInvalid
          else .next (if now then w.lockstep 10000000 false else w))
  ∧ (∀ s q k u img v, Begins s q 0x0709 u → u.fget R.secLcStatus 31 29 ≠ 1 → ImageAt u k 29824 img v →
      let t := (v.set R.secDbgNonce v.free).drew
      exec (.secDebugOpen q k) s = match v.tokenScope img with
        | none => refused t q 0x0709 dSigInvalid
        | some c => let w := { t with sec := { t.sec with scopes := t.sec.scopes ||| c } }
          done (w.bset R.secLcStatus 23 (w.sec.scopes != 0)).measDone q 0x0709 0 (p32 w.sec.scopes))
  ∧ (∀ s q g n i cmd base u img v, ((i = .secLibraryLoad q g n ∧ cmd = 0x070A ∧ base = none) ∨ (∃ b, i = .secLibraryLoadExpert q g n b ∧ cmd = 0x870A ∧ base = some b)) →
      Begins s q cmd u → u.sec.hand = none → ImageAt u g n img v →
      let no := refused v q cmd
      let e := (v.imgVerify img 0x5242494C n 2).2
      let body := (v.imgVerify img 0x5242494C n 2).1 - 0x100
      let w := cdiv body (2 ^ 21) * 2 ^ 21
      let top := (v.get R.hubMapHbmTop).toNat + 1
      let d := BitVec.ofNat 512 (imgU img 0x30 64)
      exec i s = if (svcReserved img && imgZero img 0x14 8) = false then no dBadHeader
        else if e ≠ 0 then no e
        else if (match base with | some b => decide (b % 2 ^ 21 ≠ 0 ∨ top < b + w) | none => false) then .next (v.axEnd q.mbx (hdr q cmd) 2 0 [])
        else match (match base with
            | some b => if (barHit v.libBars b w).isSome then none else some b
            | none => if top < w then none else libPlace v.libBars w 256 ((top - w) / 2 ^ 21 * 2 ^ 21)) with
          | none => no dState
          | some b =>
            if w = 0 then no dBadHeader
            else
              let t := { v with sec := { v.sec with libDigest := d } }.write b ((img.drop 0x100).take body) false
              done ((t.set R.secLibStatus (BitVec.ofNat 64 (2 ^ 63 + b2n (t.bget R.secLibStatus 62) * 2 ^ 62 + w / 2 ^ 21 * 2 ^ 46 + b))).bset R.safStatus 28 false).measDone
                q cmd 0 (p64 b ++ p64 w ++ leBytes 64 d.toNat))
  ∧ (∀ s q n u, Begins s q 0x0408 u → 1 ≤ n → n ≤ 1024 → exec (.fabSyncReserve q n) s = match u.freeRun n with
      | none => refused u q 0x0408 dSyncExhausted | some f => done (u.syncClaim f n 2 q.mbx) q 0x0408 0 (p16 f ++ p16 n))
  ∧ (∀ s q f n u, Begins s q 0x8408 u → 1 ≤ n → n ≤ 1024 → f + n ≤ 8192 → exec (.fabSyncReserveExpert q f n) s
      = if u.syncRun f n 0 then done (u.syncClaim f n 2 q.mbx) q 0x8408 0 (p16 f ++ p16 n) else refused u q 0x8408 dSyncExhausted)
  ∧ (∀ s q f n u, Begins s q 0x0409 u → 1 ≤ n → f + n ≤ 8192 → exec (.fabSyncRelease q f n) s
      = if u.syncRun f n 2 then done (u.syncClaim f n 0 0) q 0x0409 0 [] else refused u q 0x0409 dState)
  ∧ (∀ (s : State) t, t < 2176 → s.updates.contains t = true → exec (.waitRelease t) s
      = .next (if s.running t then State.modTile { s with updates := s.updates.erase t } t fun x => { x with released := true } else { s with updates := s.updates.erase t }))
end

