-- ==== Sys2Proof/Laws/Memory.lean ====
section
/-! SUPPORT. Tables and the memory: every operation keeps the canonical form; a read after a write. -/

namespace Sys2Proof.Machine

section
variable {α : Type}

/-- A key above a bound, where there is one. -/
def aboveB (b : Option Nat) (k : Nat) : Prop := ∀ x, b = some x → x < k

theorem aboveB_none (k : Nat) : aboveB none k := by intro x e; cases e

theorem risingFrom_cons {b : Option Nat} {k : Nat} {v : α} {r : Tbl α} :
    risingFrom b ((k, v) :: r) = true ↔ aboveB b k ∧ risingFrom (some k) r = true := by
  cases b with
  | none => simp [risingFrom, aboveB]
  | some b => simp [risingFrom, aboveB]

theorem risingFrom_lower {b c : Option Nat} {t : Tbl α} (h : risingFrom c t = true) (hc : ∀ k, aboveB c k → aboveB b k) :
    risingFrom b t = true := by
  cases t with
  | nil => cases b <;> rfl
  | cons e r => obtain ⟨k, v⟩ := e; rw [risingFrom_cons] at h ⊢; exact ⟨hc k h.1, h.2⟩

theorem risingFrom_tput {b : Option Nat} {t : Tbl α} {k : Nat} {v : α} (h : risingFrom b t = true) (hk : aboveB b k) :
    risingFrom b (tput t k v) = true := by
  induction t generalizing b with
  | nil => simpa [tput, risingFrom_cons] using ⟨hk, by rfl⟩
  | cons e r ih =>
    obtain ⟨j, w⟩ := e
    rw [risingFrom_cons] at h
    simp only [tput]
    split
    · rename_i hlt
      rw [risingFrom_cons, risingFrom_cons]
      exact ⟨hk, fun x e => by cases e; exact hlt, h.2⟩
    · split
      · rename_i _ he
        subst he; rw [risingFrom_cons]; exact ⟨hk, h.2⟩
      · rename_i hn hne
        rw [risingFrom_cons]
        exact ⟨h.1, ih h.2 fun x e => by cases e; omega⟩

theorem risingFrom_filterMap {b : Option Nat} {t : Tbl α} {f : Nat × α → Option (Nat × α)} (hf : ∀ e e', f e = some e' → e'.1 = e.1)
    (h : risingFrom b t = true) : risingFrom b (t.filterMap f) = true := by
  induction t generalizing b with
  | nil => cases b <;> rfl
  | cons e r ih =>
    obtain ⟨k, v⟩ := e
    rw [risingFrom_cons] at h
    rw [List.filterMap_cons]
    split
    · exact ih (risingFrom_lower h.2 fun j hj x e => by
        have h1 := h.1 x e
        have h2 := hj k rfl
        omega)
    · rename_i e' he
      obtain ⟨k', v'⟩ := e'
      have hkk : k' = k := hf _ _ he
      subst hkk
      rw [risingFrom_cons]
      exact ⟨h.1, ih h.2⟩

theorem risingFrom_filter {b : Option Nat} {t : Tbl α} {f : Nat × α → Bool} (h : risingFrom b t = true) :
    risingFrom b (t.filter f) = true := by
  rw [← List.filterMap_eq_filter]
  refine risingFrom_filterMap ?_ h
  intro e e' he
  simp only [Option.guard] at he
  split at he
  · cases he; rfl
  · cases he

theorem risingFrom_tset [DecidableEq α] {t : Tbl α} {k : Nat} {d v : α} (h : risingFrom none t = true) :
    risingFrom none (tset t k d v) = true := by
  unfold tset
  split
  · exact risingFrom_filter h
  · exact risingFrom_tput h (aboveB_none k)

theorem mem_tput {t : Tbl α} {k : Nat} {v : α} {e : Nat × α} (h : e ∈ tput t k v) : e ∈ t ∨ e = (k, v) := by
  induction t with
  | nil => simp only [tput, List.mem_singleton] at h; exact .inr h
  | cons x r ih =>
    obtain ⟨j, w⟩ := x
    simp only [tput] at h
    split at h
    · rcases List.mem_cons.1 h with h | h
      · exact .inr h
      · exact .inl h
    · split at h
      · rcases List.mem_cons.1 h with h | h
        · exact .inr h
        · exact .inl (List.mem_cons_of_mem _ h)
      · rcases List.mem_cons.1 h with h | h
        · exact .inl (by rw [h]; exact List.mem_cons_self)
        · rcases ih h with h | h
          · exact .inl (List.mem_cons_of_mem _ h)
          · exact .inr h

end

/-! ### The memory keeps its canonical form -/

theorem wf_iff {m : Memory} : m.wf = true ↔ risingFrom none m = true ∧ ∀ e ∈ m, e.2 ≠ memDefault := by
  simp [Memory.wf]

theorem wf_filter {m : Memory} {f : Host.Cell → Bool} (h : m.wf = true) : Memory.wf (m.filter f) = true := by
  rw [wf_iff] at h ⊢
  exact ⟨risingFrom_filter h.1, fun e he => h.2 e (List.mem_filter.1 he).1⟩

theorem wf_mset {m : Memory} {a : Nat} {b : Byte} (h : m.wf = true) : Memory.wf (mset m a b) = true := by
  unfold mset
  by_cases hb : b = memDefault
  · simp only [tset, hb, if_true]; exact wf_filter h
  · rw [wf_iff] at h ⊢
    refine ⟨risingFrom_tset h.1, ?_⟩
    intro e he
    simp only [tset, hb, if_false] at he
    rcases mem_tput he with he | he
    · exact h.2 e he
    · rw [he]; exact hb

theorem wf_mwrite {m : Memory} {a : Nat} {bs : List Byte} (h : m.wf = true) : Memory.wf (mwrite m a bs) = true := by
  induction bs generalizing m a with
  | nil => exact h
  | cons b bs ih => exact ih (wf_mset h)

theorem wf_mzero {m : Memory} {a n : Nat} (h : m.wf = true) : Memory.wf (mzero m a n) = true := wf_filter h

/-! ### Reads after writes -/

theorem tget_tdel {α : Type} {t : Tbl α} {k j : Nat} : tget (tdel t k) j = if j = k then none else tget t j := by
  induction t with
  | nil => simp [tdel, tget]
  | cons e r ih =>
    obtain ⟨i, v⟩ := e
    simp only [tdel, List.filter_cons] at ih ⊢
    by_cases hi : i = k
    · subst hi
      by_cases hj : j = i
      · subst hj; simpa using ih
      · have : ¬ i = j := fun h => hj h.symm
        simp [ih, tget, hj, this]
    · by_cases hj : i = j
      · subst hj; simp [hi, tget]
      · simp [hi, tget, hj, ih]

theorem tget_below {α : Type} {t : Tbl α} {b j : Nat} (h : risingFrom (some b) t = true) (hj : j ≤ b) : tget t j = none := by
  induction t generalizing b with
  | nil => rfl
  | cons e r ih =>
    obtain ⟨i, v⟩ := e
    rw [risingFrom_cons] at h
    have hb := h.1 b rfl
    have : ¬ i = j := by omega
    simp only [tget, this, if_false]
    exact ih h.2 (by omega)

theorem tget_tput {α : Type} {t : Tbl α} {k j : Nat} {v : α} : tget (tput t k v) j = if j = k then some v else tget t j := by
  induction t with
  | nil =>
    simp only [tput, tget]
    by_cases h : k = j
    · simp [h]
    · have : ¬ j = k := fun e => h e.symm
      simp [h, this]
  | cons e r ih =>
    obtain ⟨i, w⟩ := e
    simp only [tput]
    by_cases h1 : k < i
    · simp only [h1, if_true, tget]
      by_cases h : k = j
      · simp [h]
      · have : ¬ j = k := fun e => h e.symm
        simp [h, this]
    · by_cases h2 : i = k
      · subst h2
        simp only [h1, if_false, if_true, tget]
        by_cases h : i = j
        · simp [h]
        · have : ¬ j = i := fun e => h e.symm
          simp [h, this]
      · simp only [h1, h2, if_false, tget]
        by_cases h : i = j
        · subst h; simp [h2]
        · simp only [h, if_false, ih]

theorem tgetD_tset {α : Type} [DecidableEq α] {t : Tbl α} {k j : Nat} {d v : α} :
    tgetD (tset t k d v) j d = if j = k then v else tgetD t j d := by
  unfold tset tgetD
  by_cases hv : v = d
  · simp only [hv, if_true, tget_tdel]
    split <;> simp
  · simp only [hv, if_false, tget_tput]
    split <;> simp

theorem mget_mset {m : Memory} {a j : Nat} {b : Byte} : mget (mset m a b) j = if j = a then b else mget m j := tgetD_tset

theorem mget_mwrite_off {m : Memory} {a j : Nat} {bs : List Byte} (h : j < a ∨ a + bs.length ≤ j) : mget (mwrite m a bs) j = mget m j := by
  induction bs generalizing m a with
  | nil => rfl
  | cons b bs ih =>
    rw [List.length_cons] at h
    rw [mwrite, ih (by omega), mget_mset]
    have : ¬ j = a := by omega
    simp [this]

theorem mget_mwrite_on {m : Memory} {a i : Nat} {bs : List Byte} (h : i < bs.length) : mget (mwrite m a bs) (a + i) = bs[i] := by
  induction bs generalizing m a i with
  | nil => simp at h
  | cons b bs ih =>
    rw [mwrite]
    cases i with
    | zero => rw [mget_mwrite_off (by omega), mget_mset]; simp
    | succ i =>
      have := ih (m := mset m a b) (a := a + 1) (i := i) (by simpa using h)
      rw [show a + (i + 1) = a + 1 + i by omega, this]; rfl

theorem mread_length {m : Memory} {a n : Nat} : (mread m a n).length = n := by
  induction n generalizing a with
  | zero => rfl
  | succ n ih => simp [mread, ih]

theorem mread_mwrite_off {m : Memory} {a b n : Nat} {bs : List Byte} (h : b + n ≤ a ∨ a + bs.length ≤ b) :
    mread (mwrite m a bs) b n = mread m b n := by
  induction n generalizing b with
  | zero => rfl
  | succ n ih =>
    simp only [mread]
    rw [mget_mwrite_off (by omega), ih (by omega)]

theorem mread_mwrite_on {m : Memory} {a : Nat} {bs : List Byte} : mread (mwrite m a bs) a bs.length = bs := by
  induction bs generalizing m a with
  | nil => rfl
  | cons b bs ih =>
    simp only [List.length_cons, mread, mwrite]
    rw [ih, mget_mwrite_off (by omega), mget_mset]
    simp

end Sys2Proof.Machine
end

