-- ==== Sys2Proof/Laws/State.lean ====
section
/-! SUPPORT. What each update of the state leaves alone, field by field; the laws of registers and of bit fields. -/

namespace Sys2Proof.Machine

/-! ### Bit fields -/

theorem fld_lt {v : W64} {hi lo : Nat} : fld v hi lo < 2 ^ (hi + 1 - lo) := Nat.mod_lt _ (Nat.two_pow_pos _)

/-- The number a word with a field set stands for. -/
theorem setFld_toNat {v : W64} {hi lo x : Nat} (h : hi < 64) (hl : lo ≤ hi) :
    (setFld v hi lo x).toNat = v.toNat % 2 ^ lo + (x % 2 ^ (hi + 1 - lo)) * 2 ^ lo + v.toNat / 2 ^ (hi + 1) * 2 ^ (hi + 1) := by
  have hv := v.isLt
  have e : 2 ^ (hi + 1) = 2 ^ (hi + 1 - lo) * 2 ^ lo := by rw [← Nat.pow_add]; congr 1; omega
  have h1 : v.toNat / 2 ^ (hi + 1) = v.toNat / 2 ^ lo / 2 ^ (hi + 1 - lo) := by
    rw [e, Nat.mul_comm, Nat.div_div_eq_div_mul]
  have d0 := Nat.div_add_mod v.toNat (2 ^ lo)
  have d1 := Nat.div_add_mod (v.toNat / 2 ^ lo) (2 ^ (hi + 1 - lo))
  have hx : x % 2 ^ (hi + 1 - lo) < 2 ^ (hi + 1 - lo) := Nat.mod_lt _ (Nat.two_pow_pos _)
  have hr : v.toNat % 2 ^ lo < 2 ^ lo := Nat.mod_lt _ (Nat.two_pow_pos _)
  have e64 : (2 : Nat) ^ 64 = 2 ^ (63 - hi) * 2 ^ (hi + 1) := by rw [← Nat.pow_add]; congr 1; omega
  have hq : v.toNat / 2 ^ (hi + 1) < 2 ^ (63 - hi) := by
    rw [Nat.div_lt_iff_lt_mul (Nat.two_pow_pos _), ← e64]; exact hv
  unfold setFld fld nbits
  rw [BitVec.toNat_ofNat]
  generalize hA : 2 ^ lo = A at *
  generalize hB : 2 ^ (hi + 1 - lo) = B at *
  generalize hQ : v.toNat / 2 ^ (hi + 1) = Q at *
  generalize hM : v.toNat / A = M at *
  generalize hF : M % B = F at *
  generalize hX : x % B = X at *
  generalize hR : v.toNat % A = r at *
  have key : v.toNat = r + F * A + Q * (B * A) := by
    rw [← h1] at d1
    calc v.toNat = A * M + r := d0.symm
      _ = A * (B * Q + F) + r := by rw [d1]
      _ = r + F * A + Q * (B * A) := by ring
  rw [key, e]
  have e2 : r + F * A + Q * (B * A) - F * A + X * A = r + X * A + Q * (B * A) := by omega
  rw [e2, Nat.mod_eq_of_lt]
  have g1 : r + X * A < B * A := by
    have : X * A + A ≤ B * A := by rw [← Nat.succ_mul]; exact Nat.mul_le_mul_right _ hx
    omega
  have g2 : Q * (B * A) + B * A ≤ 2 ^ (63 - hi) * (B * A) := by rw [← Nat.succ_mul]; exact Nat.mul_le_mul_right _ hq
  rw [e] at e64
  omega

/-- A field of a word in which it has been set. -/
theorem fld_setFld {v : W64} {hi lo x : Nat} (h : hi < 64) (hl : lo ≤ hi) : fld (setFld v hi lo x) hi lo = x % 2 ^ (hi + 1 - lo) := by
  have e : 2 ^ (hi + 1) = 2 ^ (hi + 1 - lo) * 2 ^ lo := by rw [← Nat.pow_add]; congr 1; omega
  unfold fld nbits
  rw [setFld_toNat h hl]
  have hr : v.toNat % 2 ^ lo < 2 ^ lo := Nat.mod_lt _ (Nat.two_pow_pos _)
  rw [e, show v.toNat % 2 ^ lo + x % 2 ^ (hi + 1 - lo) * 2 ^ lo + v.toNat / (2 ^ (hi + 1 - lo) * 2 ^ lo) * (2 ^ (hi + 1 - lo) * 2 ^ lo)
    = v.toNat % 2 ^ lo + 2 ^ lo * (x % 2 ^ (hi + 1 - lo) + 2 ^ (hi + 1 - lo) * (v.toNat / (2 ^ (hi + 1 - lo) * 2 ^ lo))) by ring]
  rw [Nat.add_mul_div_left _ _ (Nat.two_pow_pos _), Nat.div_eq_of_lt hr, Nat.zero_add, Nat.add_mul_mod_self_left, Nat.mod_mod]

/-- A field below, or above, one that has been set. -/
theorem fld_setFld_off {v : W64} {hi lo x i j : Nat} (h : hi < 64) (hl : lo ≤ hi) (hj : j ≤ i) (ho : i < lo ∨ hi < j) :
    fld (setFld v hi lo x) i j = fld v i j := by
  apply Nat.eq_of_testBit_eq
  intro k
  unfold fld nbits
  simp only [Nat.testBit_mod_two_pow, Nat.testBit_div_two_pow]
  by_cases hk : k < i + 1 - j
  · simp only [hk, decide_true, Bool.true_and]
    rw [setFld_toNat h hl]
    have hr : v.toNat % 2 ^ lo < 2 ^ lo := Nat.mod_lt _ (Nat.two_pow_pos _)
    have hx : x % 2 ^ (hi + 1 - lo) < 2 ^ (hi + 1 - lo) := Nat.mod_lt _ (Nat.two_pow_pos _)
    have e : 2 ^ (hi + 1) = 2 ^ (hi + 1 - lo) * 2 ^ lo := by rw [← Nat.pow_add]; congr 1; omega
    rcases ho with ho | ho
    · rw [e, show v.toNat % 2 ^ lo + x % 2 ^ (hi + 1 - lo) * 2 ^ lo + v.toNat / (2 ^ (hi + 1 - lo) * 2 ^ lo) * (2 ^ (hi + 1 - lo) * 2 ^ lo)
        = 2 ^ lo * (x % 2 ^ (hi + 1 - lo) + 2 ^ (hi + 1 - lo) * (v.toNat / (2 ^ (hi + 1 - lo) * 2 ^ lo))) + v.toNat % 2 ^ lo by ring]
      rw [Nat.testBit_two_pow_mul_add _ hr]
      have : k + j < lo := by omega
      simp [this]
    · have hs : v.toNat % 2 ^ lo + x % 2 ^ (hi + 1 - lo) * 2 ^ lo < 2 ^ (hi + 1) := by
        rw [e]
        have : x % 2 ^ (hi + 1 - lo) * 2 ^ lo + 2 ^ lo ≤ 2 ^ (hi + 1 - lo) * 2 ^ lo := by rw [← Nat.succ_mul]; exact Nat.mul_le_mul_right _ hx
        omega
      rw [Nat.add_comm, Nat.mul_comm (v.toNat / _), Nat.testBit_two_pow_mul_add _ hs]
      have : ¬ k + j < hi + 1 := by omega
      simp only [this, if_false]
      rw [Nat.testBit_div_two_pow]
      congr 1; omega
  · simp [hk]

/-! ### Registers -/

@[simp] theorem get_set_self (s : State) (r : Reg) (v : W64) : (s.set r v).get r = v := by
  unfold State.get State.set
  simp [tgetD_tset]

theorem get_set_off {s : State} {r x : Reg} {v : W64} (h : x.addr ≠ r.addr) : (s.set r v).get x = s.get x := by
  unfold State.get State.set tgetD tset
  split
  · simp [tget_tdel, h]
  · simp [tget_tput, h]

/-- The value of a register after another has been set. -/
theorem get_set {s : State} {r x : Reg} {v : W64} (h : x.addr = r.addr → x.rst = r.rst) :
    (s.set r v).get x = if x.addr = r.addr then v else s.get x := by
  by_cases e : x.addr = r.addr
  · have : x = r := by cases x; cases r; simp_all
    subst this; simp
  · simp [e, get_set_off e]

theorem fget_set_off {s : State} {r x : Reg} {v : W64} {hi lo : Nat} (h : x.addr ≠ r.addr) : (s.set r v).fget x hi lo = s.fget x hi lo := by
  unfold State.fget; rw [get_set_off h]
theorem bget_set_off {s : State} {r x : Reg} {v : W64} {i : Nat} (h : x.addr ≠ r.addr) : (s.set r v).bget x i = s.bget x i := by
  unfold State.bget; rw [fget_set_off h]

theorem fget_fset {s : State} {r : Reg} {hi lo x : Nat} (h : hi < 64) (hl : lo ≤ hi) : (s.fset r hi lo x).fget r hi lo = x % 2 ^ (hi + 1 - lo) := by
  unfold State.fset State.fget; rw [get_set_self, fld_setFld h hl]
theorem fget_fset_off {s : State} {r : Reg} {hi lo x i j : Nat} (h : hi < 64) (hl : lo ≤ hi) (hj : j ≤ i) (ho : i < lo ∨ hi < j) :
    (s.fset r hi lo x).fget r i j = s.fget r i j := by
  unfold State.fset State.fget; rw [get_set_self, fld_setFld_off h hl hj ho]
theorem fget_fset_other {s : State} {r y : Reg} {hi lo x i j : Nat} (h : y.addr ≠ r.addr) : (s.fset r hi lo x).fget y i j = s.fget y i j := by
  unfold State.fset; exact fget_set_off h
theorem bget_fset_other {s : State} {r y : Reg} {hi lo x i : Nat} (h : y.addr ≠ r.addr) : (s.fset r hi lo x).bget y i = s.bget y i := by
  unfold State.bget; rw [fget_fset_other h]
theorem get_fset_other {s : State} {r y : Reg} {hi lo x : Nat} (h : y.addr ≠ r.addr) : (s.fset r hi lo x).get y = s.get y := by
  unfold State.fset; exact get_set_off h

/-! ### Updates, field by field -/

@[simp] theorem set_powered (s : State) (r : Reg) (v : W64) : (s.set r v).powered = s.powered := (rfl)
@[simp] theorem set_modReset (s : State) (r : Reg) (v : W64) : (s.set r v).modReset = s.modReset := (rfl)
@[simp] theorem set_asleep (s : State) (r : Reg) (v : W64) : (s.set r v).asleep = s.asleep := (rfl)
@[simp] theorem set_pending (s : State) (r : Reg) (v : W64) : (s.set r v).pending = s.pending := (rfl)
@[simp] theorem set_mem (s : State) (r : Reg) (v : W64) : (s.set r v).mem = s.mem := (rfl)
@[simp] theorem set_poison (s : State) (r : Reg) (v : W64) : (s.set r v).poison = s.poison := (rfl)
@[simp] theorem set_latentUe (s : State) (r : Reg) (v : W64) : (s.set r v).latentUe = s.latentUe := (rfl)
@[simp] theorem set_latentCe (s : State) (r : Reg) (v : W64) : (s.set r v).latentCe = s.latentCe := (rfl)
@[simp] theorem set_freeCtr (s : State) (r : Reg) (v : W64) : (s.set r v).freeCtr = s.freeCtr := (rfl)
@[simp] theorem set_tiles (s : State) (r : Reg) (v : W64) : (s.set r v).tiles = s.tiles := (rfl)
@[simp] theorem set_l2p (s : State) (r : Reg) (v : W64) : (s.set r v).l2p = s.l2p := (rfl)
@[simp] theorem set_isolated (s : State) (r : Reg) (v : W64) : (s.set r v).isolated = s.isolated := (rfl)
@[simp] theorem set_flight (s : State) (r : Reg) (v : W64) : (s.set r v).flight = s.flight := (rfl)
@[simp] theorem set_credFly (s : State) (r : Reg) (v : W64) : (s.set r v).credFly = s.credFly := (rfl)
@[simp] theorem set_deadCred (s : State) (r : Reg) (v : W64) : (s.set r v).deadCred = s.deadCred := (rfl)
@[simp] theorem set_dress (s : State) (r : Reg) (v : W64) : (s.set r v).dress = s.dress := (rfl)
@[simp] theorem set_siteHeld (s : State) (r : Reg) (v : W64) : (s.set r v).siteHeld = s.siteHeld := (rfl)
@[simp] theorem set_tlb (s : State) (r : Reg) (v : W64) : (s.set r v).tlb = s.tlb := (rfl)
@[simp] theorem set_walkQ (s : State) (r : Reg) (v : W64) : (s.set r v).walkQ = s.walkQ := (rfl)
@[simp] theorem set_pinWait (s : State) (r : Reg) (v : W64) : (s.set r v).pinWait = s.pinWait := (rfl)
@[simp] theorem set_wcache (s : State) (r : Reg) (v : W64) : (s.set r v).wcache = s.wcache := (rfl)
@[simp] theorem set_inv (s : State) (r : Reg) (v : W64) : (s.set r v).inv = s.inv := (rfl)
@[simp] theorem set_pools (s : State) (r : Reg) (v : W64) : (s.set r v).pools = s.pools := (rfl)
@[simp] theorem set_waiters (s : State) (r : Reg) (v : W64) : (s.set r v).waiters = s.waiters := (rfl)
@[simp] theorem set_updates (s : State) (r : Reg) (v : W64) : (s.set r v).updates = s.updates := (rfl)
@[simp] theorem set_nq (s : State) (r : Reg) (v : W64) : (s.set r v).nq = s.nq := (rfl)
@[simp] theorem set_syncCnt (s : State) (r : Reg) (v : W64) : (s.set r v).syncCnt = s.syncCnt := (rfl)
@[simp] theorem set_meshHeld (s : State) (r : Reg) (v : W64) : (s.set r v).meshHeld = s.meshHeld := (rfl)
@[simp] theorem set_conUe (s : State) (r : Reg) (v : W64) : (s.set r v).conUe = s.conUe := (rfl)
@[simp] theorem set_rtrPar (s : State) (r : Reg) (v : W64) : (s.set r v).rtrPar = s.rtrPar := (rfl)
@[simp] theorem set_mbx (s : State) (r : Reg) (v : W64) : (s.set r v).mbx = s.mbx := (rfl)
@[simp] theorem set_log (s : State) (r : Reg) (v : W64) : (s.set r v).log = s.log := (rfl)
@[simp] theorem set_out (s : State) (r : Reg) (v : W64) : (s.set r v).out = s.out := (rfl)
@[simp] theorem set_lanes (s : State) (r : Reg) (v : W64) : (s.set r v).lanes = s.lanes := (rfl)
@[simp] theorem set_store (s : State) (r : Reg) (v : W64) : (s.set r v).store = s.store := (rfl)
@[simp] theorem set_policy (s : State) (r : Reg) (v : W64) : (s.set r v).policy = s.policy := (rfl)
@[simp] theorem set_expo (s : State) (r : Reg) (v : W64) : (s.set r v).expo = s.expo := (rfl)
@[simp] theorem set_keyCtr (s : State) (r : Reg) (v : W64) : (s.set r v).keyCtr = s.keyCtr := (rfl)
@[simp] theorem set_lines (s : State) (r : Reg) (v : W64) : (s.set r v).lines = s.lines := (rfl)
@[simp] theorem set_txn (s : State) (r : Reg) (v : W64) : (s.set r v).txn = s.txn := (rfl)
@[simp] theorem set_lineQ (s : State) (r : Reg) (v : W64) : (s.set r v).lineQ = s.lineQ := (rfl)
@[simp] theorem set_ans (s : State) (r : Reg) (v : W64) : (s.set r v).ans = s.ans := (rfl)
@[simp] theorem set_binv (s : State) (r : Reg) (v : W64) : (s.set r v).binv = s.binv := (rfl)
@[simp] theorem set_fills (s : State) (r : Reg) (v : W64) : (s.set r v).fills = s.fills := (rfl)
@[simp] theorem set_curData (s : State) (r : Reg) (v : W64) : (s.set r v).curData = s.curData := (rfl)
@[simp] theorem set_sideBuf (s : State) (r : Reg) (v : W64) : (s.set r v).sideBuf = s.sideBuf := (rfl)
@[simp] theorem set_missed (s : State) (r : Reg) (v : W64) : (s.set r v).missed = s.missed := (rfl)
@[simp] theorem set_ssJob (s : State) (r : Reg) (v : W64) : (s.set r v).ssJob = s.ssJob := (rfl)
@[simp] theorem set_memErr (s : State) (r : Reg) (v : W64) : (s.set r v).memErr = s.memErr := (rfl)
@[simp] theorem set_hbmPatrolH (s : State) (r : Reg) (v : W64) : (s.set r v).hbmPatrolH = s.hbmPatrolH := (rfl)
@[simp] theorem set_ssPatrolH (s : State) (r : Reg) (v : W64) : (s.set r v).ssPatrolH = s.ssPatrolH := (rfl)
@[simp] theorem set_ssInv (s : State) (r : Reg) (v : W64) : (s.set r v).ssInv = s.ssInv := (rfl)
@[simp] theorem set_regDemand (s : State) (r : Reg) (v : W64) : (s.set r v).regDemand = s.regDemand := (rfl)
@[simp] theorem set_regLim (s : State) (r : Reg) (v : W64) : (s.set r v).regLim = s.regLim := (rfl)
@[simp] theorem set_regSpent (s : State) (r : Reg) (v : W64) : (s.set r v).regSpent = s.regSpent := (rfl)
@[simp] theorem set_regBucket (s : State) (r : Reg) (v : W64) : (s.set r v).regBucket = s.regBucket := (rfl)
@[simp] theorem set_regC0 (s : State) (r : Reg) (v : W64) : (s.set r v).regC0 = s.regC0 := (rfl)
@[simp] theorem set_regW (s : State) (r : Reg) (v : W64) : (s.set r v).regW = s.regW := (rfl)
@[simp] theorem set_regQ (s : State) (r : Reg) (v : W64) : (s.set r v).regQ = s.regQ := (rfl)
@[simp] theorem set_hbmBus (s : State) (r : Reg) (v : W64) : (s.set r v).hbmBus = s.hbmBus := (rfl)
@[simp] theorem set_tagUe (s : State) (r : Reg) (v : W64) : (s.set r v).tagUe = s.tagUe := (rfl)
@[simp] theorem set_snpInv (s : State) (r : Reg) (v : W64) : (s.set r v).snpInv = s.snpInv := (rfl)
@[simp] theorem set_ports (s : State) (r : Reg) (v : W64) : (s.set r v).ports = s.ports := (rfl)
@[simp] theorem set_tksReq (s : State) (r : Reg) (v : W64) : (s.set r v).tksReq = s.tksReq := (rfl)
@[simp] theorem set_tksNext (s : State) (r : Reg) (v : W64) : (s.set r v).tksNext = s.tksNext := (rfl)
@[simp] theorem set_memo (s : State) (r : Reg) (v : W64) : (s.set r v).memo = s.memo := (rfl)
@[simp] theorem set_ingQ (s : State) (r : Reg) (v : W64) : (s.set r v).ingQ = s.ingQ := (rfl)
@[simp] theorem set_mods (s : State) (r : Reg) (v : W64) : (s.set r v).mods = s.mods := (rfl)
@[simp] theorem set_ext (s : State) (r : Reg) (v : W64) : (s.set r v).ext = s.ext := (rfl)
@[simp] theorem set_extNext (s : State) (r : Reg) (v : W64) : (s.set r v).extNext = s.extNext := (rfl)
@[simp] theorem set_extGot (s : State) (r : Reg) (v : W64) : (s.set r v).extGot = s.extGot := (rfl)
@[simp] theorem set_accs (s : State) (r : Reg) (v : W64) : (s.set r v).accs = s.accs := (rfl)
@[simp] theorem set_accNext (s : State) (r : Reg) (v : W64) : (s.set r v).accNext = s.accNext := (rfl)
@[simp] theorem set_pings (s : State) (r : Reg) (v : W64) : (s.set r v).pings = s.pings := (rfl)
@[simp] theorem set_msixOpen (s : State) (r : Reg) (v : W64) : (s.set r v).msixOpen = s.msixOpen := (rfl)
@[simp] theorem set_msixFnMask (s : State) (r : Reg) (v : W64) : (s.set r v).msixFnMask = s.msixFnMask := (rfl)
@[simp] theorem set_msixPend (s : State) (r : Reg) (v : W64) : (s.set r v).msixPend = s.msixPend := (rfl)
@[simp] theorem set_svcIrq (s : State) (r : Reg) (v : W64) : (s.set r v).svcIrq = s.svcIrq := (rfl)
@[simp] theorem set_fuse (s : State) (r : Reg) (v : W64) : (s.set r v).fuse = s.fuse := (rfl)
@[simp] theorem set_boot (s : State) (r : Reg) (v : W64) : (s.set r v).boot = s.boot := (rfl)
@[simp] theorem set_bist (s : State) (r : Reg) (v : W64) : (s.set r v).bist = s.bist := (rfl)
@[simp] theorem set_pwr (s : State) (r : Reg) (v : W64) : (s.set r v).pwr = s.pwr := (rfl)
@[simp] theorem set_sites (s : State) (r : Reg) (v : W64) : (s.set r v).sites = s.sites := (rfl)
@[simp] theorem set_prb (s : State) (r : Reg) (v : W64) : (s.set r v).prb = s.prb := (rfl)
@[simp] theorem set_rst (s : State) (r : Reg) (v : W64) : (s.set r v).rst = s.rst := (rfl)
@[simp] theorem set_saf (s : State) (r : Reg) (v : W64) : (s.set r v).saf = s.saf := (rfl)
@[simp] theorem set_sec (s : State) (r : Reg) (v : W64) : (s.set r v).sec = s.sec := (rfl)
@[simp] theorem set_cfg (s : State) (r : Reg) (v : W64) : (s.set r v).cfg = s.cfg := (rfl)
@[simp] theorem set_svc (s : State) (r : Reg) (v : W64) : (s.set r v).svc = s.svc := (rfl)

@[simp] theorem setBox_powered (s : State) (m : Nat) (b : Mbx) : (s.setBox m b).powered = s.powered := (rfl)
@[simp] theorem setBox_modReset (s : State) (m : Nat) (b : Mbx) : (s.setBox m b).modReset = s.modReset := (rfl)
@[simp] theorem setBox_asleep (s : State) (m : Nat) (b : Mbx) : (s.setBox m b).asleep = s.asleep := (rfl)
@[simp] theorem setBox_pending (s : State) (m : Nat) (b : Mbx) : (s.setBox m b).pending = s.pending := (rfl)
@[simp] theorem setBox_regs (s : State) (m : Nat) (b : Mbx) : (s.setBox m b).regs = s.regs := (rfl)
@[simp] theorem setBox_mem (s : State) (m : Nat) (b : Mbx) : (s.setBox m b).mem = s.mem := (rfl)
@[simp] theorem setBox_poison (s : State) (m : Nat) (b : Mbx) : (s.setBox m b).poison = s.poison := (rfl)
@[simp] theorem setBox_latentUe (s : State) (m : Nat) (b : Mbx) : (s.setBox m b).latentUe = s.latentUe := (rfl)
@[simp] theorem setBox_latentCe (s : State) (m : Nat) (b : Mbx) : (s.setBox m b).latentCe = s.latentCe := (rfl)
@[simp] theorem setBox_freeCtr (s : State) (m : Nat) (b : Mbx) : (s.setBox m b).freeCtr = s.freeCtr := (rfl)
@[simp] theorem setBox_tiles (s : State) (m : Nat) (b : Mbx) : (s.setBox m b).tiles = s.tiles := (rfl)
@[simp] theorem setBox_l2p (s : State) (m : Nat) (b : Mbx) : (s.setBox m b).l2p = s.l2p := (rfl)
@[simp] theorem setBox_isolated (s : State) (m : Nat) (b : Mbx) : (s.setBox m b).isolated = s.isolated := (rfl)
@[simp] theorem setBox_flight (s : State) (m : Nat) (b : Mbx) : (s.setBox m b).flight = s.flight := (rfl)
@[simp] theorem setBox_credFly (s : State) (m : Nat) (b : Mbx) : (s.setBox m b).credFly = s.credFly := (rfl)
@[simp] theorem setBox_deadCred (s : State) (m : Nat) (b : Mbx) : (s.setBox m b).deadCred = s.deadCred := (rfl)
@[simp] theorem setBox_dress (s : State) (m : Nat) (b : Mbx) : (s.setBox m b).dress = s.dress := (rfl)
@[simp] theorem setBox_siteHeld (s : State) (m : Nat) (b : Mbx) : (s.setBox m b).siteHeld = s.siteHeld := (rfl)
@[simp] theorem setBox_tlb (s : State) (m : Nat) (b : Mbx) : (s.setBox m b).tlb = s.tlb := (rfl)
@[simp] theorem setBox_walkQ (s : State) (m : Nat) (b : Mbx) : (s.setBox m b).walkQ = s.walkQ := (rfl)
@[simp] theorem setBox_pinWait (s : State) (m : Nat) (b : Mbx) : (s.setBox m b).pinWait = s.pinWait := (rfl)
@[simp] theorem setBox_wcache (s : State) (m : Nat) (b : Mbx) : (s.setBox m b).wcache = s.wcache := (rfl)
@[simp] theorem setBox_inv (s : State) (m : Nat) (b : Mbx) : (s.setBox m b).inv = s.inv := (rfl)
@[simp] theorem setBox_pools (s : State) (m : Nat) (b : Mbx) : (s.setBox m b).pools = s.pools := (rfl)
@[simp] theorem setBox_waiters (s : State) (m : Nat) (b : Mbx) : (s.setBox m b).waiters = s.waiters := (rfl)
@[simp] theorem setBox_updates (s : State) (m : Nat) (b : Mbx) : (s.setBox m b).updates = s.updates := (rfl)
@[simp] theorem setBox_nq (s : State) (m : Nat) (b : Mbx) : (s.setBox m b).nq = s.nq := (rfl)
@[simp] theorem setBox_syncCnt (s : State) (m : Nat) (b : Mbx) : (s.setBox m b).syncCnt = s.syncCnt := (rfl)
@[simp] theorem setBox_meshHeld (s : State) (m : Nat) (b : Mbx) : (s.setBox m b).meshHeld = s.meshHeld := (rfl)
@[simp] theorem setBox_conUe (s : State) (m : Nat) (b : Mbx) : (s.setBox m b).conUe = s.conUe := (rfl)
@[simp] theorem setBox_rtrPar (s : State) (m : Nat) (b : Mbx) : (s.setBox m b).rtrPar = s.rtrPar := (rfl)
@[simp] theorem setBox_log (s : State) (m : Nat) (b : Mbx) : (s.setBox m b).log = s.log := (rfl)
@[simp] theorem setBox_out (s : State) (m : Nat) (b : Mbx) : (s.setBox m b).out = s.out := (rfl)
@[simp] theorem setBox_lanes (s : State) (m : Nat) (b : Mbx) : (s.setBox m b).lanes = s.lanes := (rfl)
@[simp] theorem setBox_store (s : State) (m : Nat) (b : Mbx) : (s.setBox m b).store = s.store := (rfl)
@[simp] theorem setBox_policy (s : State) (m : Nat) (b : Mbx) : (s.setBox m b).policy = s.policy := (rfl)
@[simp] theorem setBox_expo (s : State) (m : Nat) (b : Mbx) : (s.setBox m b).expo = s.expo := (rfl)
@[simp] theorem setBox_keyCtr (s : State) (m : Nat) (b : Mbx) : (s.setBox m b).keyCtr = s.keyCtr := (rfl)
@[simp] theorem setBox_lines (s : State) (m : Nat) (b : Mbx) : (s.setBox m b).lines = s.lines := (rfl)
@[simp] theorem setBox_txn (s : State) (m : Nat) (b : Mbx) : (s.setBox m b).txn = s.txn := (rfl)
@[simp] theorem setBox_lineQ (s : State) (m : Nat) (b : Mbx) : (s.setBox m b).lineQ = s.lineQ := (rfl)
@[simp] theorem setBox_ans (s : State) (m : Nat) (b : Mbx) : (s.setBox m b).ans = s.ans := (rfl)
@[simp] theorem setBox_binv (s : State) (m : Nat) (b : Mbx) : (s.setBox m b).binv = s.binv := (rfl)
@[simp] theorem setBox_fills (s : State) (m : Nat) (b : Mbx) : (s.setBox m b).fills = s.fills := (rfl)
@[simp] theorem setBox_curData (s : State) (m : Nat) (b : Mbx) : (s.setBox m b).curData = s.curData := (rfl)
@[simp] theorem setBox_sideBuf (s : State) (m : Nat) (b : Mbx) : (s.setBox m b).sideBuf = s.sideBuf := (rfl)
@[simp] theorem setBox_missed (s : State) (m : Nat) (b : Mbx) : (s.setBox m b).missed = s.missed := (rfl)
@[simp] theorem setBox_ssJob (s : State) (m : Nat) (b : Mbx) : (s.setBox m b).ssJob = s.ssJob := (rfl)
@[simp] theorem setBox_memErr (s : State) (m : Nat) (b : Mbx) : (s.setBox m b).memErr = s.memErr := (rfl)
@[simp] theorem setBox_hbmPatrolH (s : State) (m : Nat) (b : Mbx) : (s.setBox m b).hbmPatrolH = s.hbmPatrolH := (rfl)
@[simp] theorem setBox_ssPatrolH (s : State) (m : Nat) (b : Mbx) : (s.setBox m b).ssPatrolH = s.ssPatrolH := (rfl)
@[simp] theorem setBox_ssInv (s : State) (m : Nat) (b : Mbx) : (s.setBox m b).ssInv = s.ssInv := (rfl)
@[simp] theorem setBox_regDemand (s : State) (m : Nat) (b : Mbx) : (s.setBox m b).regDemand = s.regDemand := (rfl)
@[simp] theorem setBox_regLim (s : State) (m : Nat) (b : Mbx) : (s.setBox m b).regLim = s.regLim := (rfl)
@[simp] theorem setBox_regSpent (s : State) (m : Nat) (b : Mbx) : (s.setBox m b).regSpent = s.regSpent := (rfl)
@[simp] theorem setBox_regBucket (s : State) (m : Nat) (b : Mbx) : (s.setBox m b).regBucket = s.regBucket := (rfl)
@[simp] theorem setBox_regC0 (s : State) (m : Nat) (b : Mbx) : (s.setBox m b).regC0 = s.regC0 := (rfl)
@[simp] theorem setBox_regW (s : State) (m : Nat) (b : Mbx) : (s.setBox m b).regW = s.regW := (rfl)
@[simp] theorem setBox_regQ (s : State) (m : Nat) (b : Mbx) : (s.setBox m b).regQ = s.regQ := (rfl)
@[simp] theorem setBox_hbmBus (s : State) (m : Nat) (b : Mbx) : (s.setBox m b).hbmBus = s.hbmBus := (rfl)
@[simp] theorem setBox_tagUe (s : State) (m : Nat) (b : Mbx) : (s.setBox m b).tagUe = s.tagUe := (rfl)
@[simp] theorem setBox_snpInv (s : State) (m : Nat) (b : Mbx) : (s.setBox m b).snpInv = s.snpInv := (rfl)
@[simp] theorem setBox_ports (s : State) (m : Nat) (b : Mbx) : (s.setBox m b).ports = s.ports := (rfl)
@[simp] theorem setBox_tksReq (s : State) (m : Nat) (b : Mbx) : (s.setBox m b).tksReq = s.tksReq := (rfl)
@[simp] theorem setBox_tksNext (s : State) (m : Nat) (b : Mbx) : (s.setBox m b).tksNext = s.tksNext := (rfl)
@[simp] theorem setBox_memo (s : State) (m : Nat) (b : Mbx) : (s.setBox m b).memo = s.memo := (rfl)
@[simp] theorem setBox_ingQ (s : State) (m : Nat) (b : Mbx) : (s.setBox m b).ingQ = s.ingQ := (rfl)
@[simp] theorem setBox_mods (s : State) (m : Nat) (b : Mbx) : (s.setBox m b).mods = s.mods := (rfl)
@[simp] theorem setBox_ext (s : State) (m : Nat) (b : Mbx) : (s.setBox m b).ext = s.ext := (rfl)
@[simp] theorem setBox_extNext (s : State) (m : Nat) (b : Mbx) : (s.setBox m b).extNext = s.extNext := (rfl)
@[simp] theorem setBox_extGot (s : State) (m : Nat) (b : Mbx) : (s.setBox m b).extGot = s.extGot := (rfl)
@[simp] theorem setBox_accs (s : State) (m : Nat) (b : Mbx) : (s.setBox m b).accs = s.accs := (rfl)
@[simp] theorem setBox_accNext (s : State) (m : Nat) (b : Mbx) : (s.setBox m b).accNext = s.accNext := (rfl)
@[simp] theorem setBox_pings (s : State) (m : Nat) (b : Mbx) : (s.setBox m b).pings = s.pings := (rfl)
@[simp] theorem setBox_msixOpen (s : State) (m : Nat) (b : Mbx) : (s.setBox m b).msixOpen = s.msixOpen := (rfl)
@[simp] theorem setBox_msixFnMask (s : State) (m : Nat) (b : Mbx) : (s.setBox m b).msixFnMask = s.msixFnMask := (rfl)
@[simp] theorem setBox_msixPend (s : State) (m : Nat) (b : Mbx) : (s.setBox m b).msixPend = s.msixPend := (rfl)
@[simp] theorem setBox_svcIrq (s : State) (m : Nat) (b : Mbx) : (s.setBox m b).svcIrq = s.svcIrq := (rfl)
@[simp] theorem setBox_fuse (s : State) (m : Nat) (b : Mbx) : (s.setBox m b).fuse = s.fuse := (rfl)
@[simp] theorem setBox_boot (s : State) (m : Nat) (b : Mbx) : (s.setBox m b).boot = s.boot := (rfl)
@[simp] theorem setBox_bist (s : State) (m : Nat) (b : Mbx) : (s.setBox m b).bist = s.bist := (rfl)
@[simp] theorem setBox_pwr (s : State) (m : Nat) (b : Mbx) : (s.setBox m b).pwr = s.pwr := (rfl)
@[simp] theorem setBox_sites (s : State) (m : Nat) (b : Mbx) : (s.setBox m b).sites = s.sites := (rfl)
@[simp] theorem setBox_prb (s : State) (m : Nat) (b : Mbx) : (s.setBox m b).prb = s.prb := (rfl)
@[simp] theorem setBox_rst (s : State) (m : Nat) (b : Mbx) : (s.setBox m b).rst = s.rst := (rfl)
@[simp] theorem setBox_saf (s : State) (m : Nat) (b : Mbx) : (s.setBox m b).saf = s.saf := (rfl)
@[simp] theorem setBox_sec (s : State) (m : Nat) (b : Mbx) : (s.setBox m b).sec = s.sec := (rfl)
@[simp] theorem setBox_cfg (s : State) (m : Nat) (b : Mbx) : (s.setBox m b).cfg = s.cfg := (rfl)
@[simp] theorem setBox_svc (s : State) (m : Nat) (b : Mbx) : (s.setBox m b).svc = s.svc := (rfl)
@[simp] theorem setBox_get (s : State) (m : Nat) (b : Mbx) (r : Reg) : (s.setBox m b).get r = s.get r := (rfl)

@[simp] theorem setTile_powered (s : State) (t : Nat) (x : Tile) : (s.setTile t x).powered = s.powered := (rfl)
@[simp] theorem setTile_modReset (s : State) (t : Nat) (x : Tile) : (s.setTile t x).modReset = s.modReset := (rfl)
@[simp] theorem setTile_asleep (s : State) (t : Nat) (x : Tile) : (s.setTile t x).asleep = s.asleep := (rfl)
@[simp] theorem setTile_pending (s : State) (t : Nat) (x : Tile) : (s.setTile t x).pending = s.pending := (rfl)
@[simp] theorem setTile_regs (s : State) (t : Nat) (x : Tile) : (s.setTile t x).regs = s.regs := (rfl)
@[simp] theorem setTile_mem (s : State) (t : Nat) (x : Tile) : (s.setTile t x).mem = s.mem := (rfl)
@[simp] theorem setTile_poison (s : State) (t : Nat) (x : Tile) : (s.setTile t x).poison = s.poison := (rfl)
@[simp] theorem setTile_latentUe (s : State) (t : Nat) (x : Tile) : (s.setTile t x).latentUe = s.latentUe := (rfl)
@[simp] theorem setTile_latentCe (s : State) (t : Nat) (x : Tile) : (s.setTile t x).latentCe = s.latentCe := (rfl)
@[simp] theorem setTile_freeCtr (s : State) (t : Nat) (x : Tile) : (s.setTile t x).freeCtr = s.freeCtr := (rfl)
@[simp] theorem setTile_l2p (s : State) (t : Nat) (x : Tile) : (s.setTile t x).l2p = s.l2p := (rfl)
@[simp] theorem setTile_isolated (s : State) (t : Nat) (x : Tile) : (s.setTile t x).isolated = s.isolated := (rfl)
@[simp] theorem setTile_flight (s : State) (t : Nat) (x : Tile) : (s.setTile t x).flight = s.flight := (rfl)
@[simp] theorem setTile_credFly (s : State) (t : Nat) (x : Tile) : (s.setTile t x).credFly = s.credFly := (rfl)
@[simp] theorem setTile_deadCred (s : State) (t : Nat) (x : Tile) : (s.setTile t x).deadCred = s.deadCred := (rfl)
@[simp] theorem setTile_dress (s : State) (t : Nat) (x : Tile) : (s.setTile t x).dress = s.dress := (rfl)
@[simp] theorem setTile_siteHeld (s : State) (t : Nat) (x : Tile) : (s.setTile t x).siteHeld = s.siteHeld := (rfl)
@[simp] theorem setTile_tlb (s : State) (t : Nat) (x : Tile) : (s.setTile t x).tlb = s.tlb := (rfl)
@[simp] theorem setTile_walkQ (s : State) (t : Nat) (x : Tile) : (s.setTile t x).walkQ = s.walkQ := (rfl)
@[simp] theorem setTile_pinWait (s : State) (t : Nat) (x : Tile) : (s.setTile t x).pinWait = s.pinWait := (rfl)
@[simp] theorem setTile_wcache (s : State) (t : Nat) (x : Tile) : (s.setTile t x).wcache = s.wcache := (rfl)
@[simp] theorem setTile_inv (s : State) (t : Nat) (x : Tile) : (s.setTile t x).inv = s.inv := (rfl)
@[simp] theorem setTile_pools (s : State) (t : Nat) (x : Tile) : (s.setTile t x).pools = s.pools := (rfl)
@[simp] theorem setTile_waiters (s : State) (t : Nat) (x : Tile) : (s.setTile t x).waiters = s.waiters := (rfl)
@[simp] theorem setTile_updates (s : State) (t : Nat) (x : Tile) : (s.setTile t x).updates = s.updates := (rfl)
@[simp] theorem setTile_nq (s : State) (t : Nat) (x : Tile) : (s.setTile t x).nq = s.nq := (rfl)
@[simp] theorem setTile_syncCnt (s : State) (t : Nat) (x : Tile) : (s.setTile t x).syncCnt = s.syncCnt := (rfl)
@[simp] theorem setTile_meshHeld (s : State) (t : Nat) (x : Tile) : (s.setTile t x).meshHeld = s.meshHeld := (rfl)
@[simp] theorem setTile_conUe (s : State) (t : Nat) (x : Tile) : (s.setTile t x).conUe = s.conUe := (rfl)
@[simp] theorem setTile_rtrPar (s : State) (t : Nat) (x : Tile) : (s.setTile t x).rtrPar = s.rtrPar := (rfl)
@[simp] theorem setTile_mbx (s : State) (t : Nat) (x : Tile) : (s.setTile t x).mbx = s.mbx := (rfl)
@[simp] theorem setTile_log (s : State) (t : Nat) (x : Tile) : (s.setTile t x).log = s.log := (rfl)
@[simp] theorem setTile_out (s : State) (t : Nat) (x : Tile) : (s.setTile t x).out = s.out := (rfl)
@[simp] theorem setTile_lanes (s : State) (t : Nat) (x : Tile) : (s.setTile t x).lanes = s.lanes := (rfl)
@[simp] theorem setTile_store (s : State) (t : Nat) (x : Tile) : (s.setTile t x).store = s.store := (rfl)
@[simp] theorem setTile_policy (s : State) (t : Nat) (x : Tile) : (s.setTile t x).policy = s.policy := (rfl)
@[simp] theorem setTile_expo (s : State) (t : Nat) (x : Tile) : (s.setTile t x).expo = s.expo := (rfl)
@[simp] theorem setTile_keyCtr (s : State) (t : Nat) (x : Tile) : (s.setTile t x).keyCtr = s.keyCtr := (rfl)
@[simp] theorem setTile_lines (s : State) (t : Nat) (x : Tile) : (s.setTile t x).lines = s.lines := (rfl)
@[simp] theorem setTile_txn (s : State) (t : Nat) (x : Tile) : (s.setTile t x).txn = s.txn := (rfl)
@[simp] theorem setTile_lineQ (s : State) (t : Nat) (x : Tile) : (s.setTile t x).lineQ = s.lineQ := (rfl)
@[simp] theorem setTile_ans (s : State) (t : Nat) (x : Tile) : (s.setTile t x).ans = s.ans := (rfl)
@[simp] theorem setTile_binv (s : State) (t : Nat) (x : Tile) : (s.setTile t x).binv = s.binv := (rfl)
@[simp] theorem setTile_fills (s : State) (t : Nat) (x : Tile) : (s.setTile t x).fills = s.fills := (rfl)
@[simp] theorem setTile_curData (s : State) (t : Nat) (x : Tile) : (s.setTile t x).curData = s.curData := (rfl)
@[simp] theorem setTile_sideBuf (s : State) (t : Nat) (x : Tile) : (s.setTile t x).sideBuf = s.sideBuf := (rfl)
@[simp] theorem setTile_missed (s : State) (t : Nat) (x : Tile) : (s.setTile t x).missed = s.missed := (rfl)
@[simp] theorem setTile_ssJob (s : State) (t : Nat) (x : Tile) : (s.setTile t x).ssJob = s.ssJob := (rfl)
@[simp] theorem setTile_memErr (s : State) (t : Nat) (x : Tile) : (s.setTile t x).memErr = s.memErr := (rfl)
@[simp] theorem setTile_hbmPatrolH (s : State) (t : Nat) (x : Tile) : (s.setTile t x).hbmPatrolH = s.hbmPatrolH := (rfl)
@[simp] theorem setTile_ssPatrolH (s : State) (t : Nat) (x : Tile) : (s.setTile t x).ssPatrolH = s.ssPatrolH := (rfl)
@[simp] theorem setTile_ssInv (s : State) (t : Nat) (x : Tile) : (s.setTile t x).ssInv = s.ssInv := (rfl)
@[simp] theorem setTile_regDemand (s : State) (t : Nat) (x : Tile) : (s.setTile t x).regDemand = s.regDemand := (rfl)
@[simp] theorem setTile_regLim (s : State) (t : Nat) (x : Tile) : (s.setTile t x).regLim = s.regLim := (rfl)
@[simp] theorem setTile_regSpent (s : State) (t : Nat) (x : Tile) : (s.setTile t x).regSpent = s.regSpent := (rfl)
@[simp] theorem setTile_regBucket (s : State) (t : Nat) (x : Tile) : (s.setTile t x).regBucket = s.regBucket := (rfl)
@[simp] theorem setTile_regC0 (s : State) (t : Nat) (x : Tile) : (s.setTile t x).regC0 = s.regC0 := (rfl)
@[simp] theorem setTile_regW (s : State) (t : Nat) (x : Tile) : (s.setTile t x).regW = s.regW := (rfl)
@[simp] theorem setTile_regQ (s : State) (t : Nat) (x : Tile) : (s.setTile t x).regQ = s.regQ := (rfl)
@[simp] theorem setTile_hbmBus (s : State) (t : Nat) (x : Tile) : (s.setTile t x).hbmBus = s.hbmBus := (rfl)
@[simp] theorem setTile_tagUe (s : State) (t : Nat) (x : Tile) : (s.setTile t x).tagUe = s.tagUe := (rfl)
@[simp] theorem setTile_snpInv (s : State) (t : Nat) (x : Tile) : (s.setTile t x).snpInv = s.snpInv := (rfl)
@[simp] theorem setTile_ports (s : State) (t : Nat) (x : Tile) : (s.setTile t x).ports = s.ports := (rfl)
@[simp] theorem setTile_tksReq (s : State) (t : Nat) (x : Tile) : (s.setTile t x).tksReq = s.tksReq := (rfl)
@[simp] theorem setTile_tksNext (s : State) (t : Nat) (x : Tile) : (s.setTile t x).tksNext = s.tksNext := (rfl)
@[simp] theorem setTile_memo (s : State) (t : Nat) (x : Tile) : (s.setTile t x).memo = s.memo := (rfl)
@[simp] theorem setTile_ingQ (s : State) (t : Nat) (x : Tile) : (s.setTile t x).ingQ = s.ingQ := (rfl)
@[simp] theorem setTile_mods (s : State) (t : Nat) (x : Tile) : (s.setTile t x).mods = s.mods := (rfl)
@[simp] theorem setTile_ext (s : State) (t : Nat) (x : Tile) : (s.setTile t x).ext = s.ext := (rfl)
@[simp] theorem setTile_extNext (s : State) (t : Nat) (x : Tile) : (s.setTile t x).extNext = s.extNext := (rfl)
@[simp] theorem setTile_extGot (s : State) (t : Nat) (x : Tile) : (s.setTile t x).extGot = s.extGot := (rfl)
@[simp] theorem setTile_accs (s : State) (t : Nat) (x : Tile) : (s.setTile t x).accs = s.accs := (rfl)
@[simp] theorem setTile_accNext (s : State) (t : Nat) (x : Tile) : (s.setTile t x).accNext = s.accNext := (rfl)
@[simp] theorem setTile_pings (s : State) (t : Nat) (x : Tile) : (s.setTile t x).pings = s.pings := (rfl)
@[simp] theorem setTile_msixOpen (s : State) (t : Nat) (x : Tile) : (s.setTile t x).msixOpen = s.msixOpen := (rfl)
@[simp] theorem setTile_msixFnMask (s : State) (t : Nat) (x : Tile) : (s.setTile t x).msixFnMask = s.msixFnMask := (rfl)
@[simp] theorem setTile_msixPend (s : State) (t : Nat) (x : Tile) : (s.setTile t x).msixPend = s.msixPend := (rfl)
@[simp] theorem setTile_svcIrq (s : State) (t : Nat) (x : Tile) : (s.setTile t x).svcIrq = s.svcIrq := (rfl)
@[simp] theorem setTile_fuse (s : State) (t : Nat) (x : Tile) : (s.setTile t x).fuse = s.fuse := (rfl)
@[simp] theorem setTile_boot (s : State) (t : Nat) (x : Tile) : (s.setTile t x).boot = s.boot := (rfl)
@[simp] theorem setTile_bist (s : State) (t : Nat) (x : Tile) : (s.setTile t x).bist = s.bist := (rfl)
@[simp] theorem setTile_pwr (s : State) (t : Nat) (x : Tile) : (s.setTile t x).pwr = s.pwr := (rfl)
@[simp] theorem setTile_sites (s : State) (t : Nat) (x : Tile) : (s.setTile t x).sites = s.sites := (rfl)
@[simp] theorem setTile_prb (s : State) (t : Nat) (x : Tile) : (s.setTile t x).prb = s.prb := (rfl)
@[simp] theorem setTile_rst (s : State) (t : Nat) (x : Tile) : (s.setTile t x).rst = s.rst := (rfl)
@[simp] theorem setTile_saf (s : State) (t : Nat) (x : Tile) : (s.setTile t x).saf = s.saf := (rfl)
@[simp] theorem setTile_sec (s : State) (t : Nat) (x : Tile) : (s.setTile t x).sec = s.sec := (rfl)
@[simp] theorem setTile_cfg (s : State) (t : Nat) (x : Tile) : (s.setTile t x).cfg = s.cfg := (rfl)
@[simp] theorem setTile_svc (s : State) (t : Nat) (x : Tile) : (s.setTile t x).svc = s.svc := (rfl)
@[simp] theorem setTile_get (s : State) (t : Nat) (x : Tile) (r : Reg) : (s.setTile t x).get r = s.get r := (rfl)

@[simp] theorem emit_powered (s : State) (o : Out) : (s.emit o).powered = s.powered := (rfl)
@[simp] theorem emit_modReset (s : State) (o : Out) : (s.emit o).modReset = s.modReset := (rfl)
@[simp] theorem emit_asleep (s : State) (o : Out) : (s.emit o).asleep = s.asleep := (rfl)
@[simp] theorem emit_pending (s : State) (o : Out) : (s.emit o).pending = s.pending := (rfl)
@[simp] theorem emit_regs (s : State) (o : Out) : (s.emit o).regs = s.regs := (rfl)
@[simp] theorem emit_mem (s : State) (o : Out) : (s.emit o).mem = s.mem := (rfl)
@[simp] theorem emit_poison (s : State) (o : Out) : (s.emit o).poison = s.poison := (rfl)
@[simp] theorem emit_latentUe (s : State) (o : Out) : (s.emit o).latentUe = s.latentUe := (rfl)
@[simp] theorem emit_latentCe (s : State) (o : Out) : (s.emit o).latentCe = s.latentCe := (rfl)
@[simp] theorem emit_freeCtr (s : State) (o : Out) : (s.emit o).freeCtr = s.freeCtr := (rfl)
@[simp] theorem emit_tiles (s : State) (o : Out) : (s.emit o).tiles = s.tiles := (rfl)
@[simp] theorem emit_l2p (s : State) (o : Out) : (s.emit o).l2p = s.l2p := (rfl)
@[simp] theorem emit_isolated (s : State) (o : Out) : (s.emit o).isolated = s.isolated := (rfl)
@[simp] theorem emit_flight (s : State) (o : Out) : (s.emit o).flight = s.flight := (rfl)
@[simp] theorem emit_credFly (s : State) (o : Out) : (s.emit o).credFly = s.credFly := (rfl)
@[simp] theorem emit_deadCred (s : State) (o : Out) : (s.emit o).deadCred = s.deadCred := (rfl)
@[simp] theorem emit_dress (s : State) (o : Out) : (s.emit o).dress = s.dress := (rfl)
@[simp] theorem emit_siteHeld (s : State) (o : Out) : (s.emit o).siteHeld = s.siteHeld := (rfl)
@[simp] theorem emit_tlb (s : State) (o : Out) : (s.emit o).tlb = s.tlb := (rfl)
@[simp] theorem emit_walkQ (s : State) (o : Out) : (s.emit o).walkQ = s.walkQ := (rfl)
@[simp] theorem emit_pinWait (s : State) (o : Out) : (s.emit o).pinWait = s.pinWait := (rfl)
@[simp] theorem emit_wcache (s : State) (o : Out) : (s.emit o).wcache = s.wcache := (rfl)
@[simp] theorem emit_inv (s : State) (o : Out) : (s.emit o).inv = s.inv := (rfl)
@[simp] theorem emit_pools (s : State) (o : Out) : (s.emit o).pools = s.pools := (rfl)
@[simp] theorem emit_waiters (s : State) (o : Out) : (s.emit o).waiters = s.waiters := (rfl)
@[simp] theorem emit_updates (s : State) (o : Out) : (s.emit o).updates = s.updates := (rfl)
@[simp] theorem emit_nq (s : State) (o : Out) : (s.emit o).nq = s.nq := (rfl)
@[simp] theorem emit_syncCnt (s : State) (o : Out) : (s.emit o).syncCnt = s.syncCnt := (rfl)
@[simp] theorem emit_meshHeld (s : State) (o : Out) : (s.emit o).meshHeld = s.meshHeld := (rfl)
@[simp] theorem emit_conUe (s : State) (o : Out) : (s.emit o).conUe = s.conUe := (rfl)
@[simp] theorem emit_rtrPar (s : State) (o : Out) : (s.emit o).rtrPar = s.rtrPar := (rfl)
@[simp] theorem emit_mbx (s : State) (o : Out) : (s.emit o).mbx = s.mbx := (rfl)
@[simp] theorem emit_log (s : State) (o : Out) : (s.emit o).log = s.log := (rfl)
@[simp] theorem emit_lanes (s : State) (o : Out) : (s.emit o).lanes = s.lanes := (rfl)
@[simp] theorem emit_store (s : State) (o : Out) : (s.emit o).store = s.store := (rfl)
@[simp] theorem emit_policy (s : State) (o : Out) : (s.emit o).policy = s.policy := (rfl)
@[simp] theorem emit_expo (s : State) (o : Out) : (s.emit o).expo = s.expo := (rfl)
@[simp] theorem emit_keyCtr (s : State) (o : Out) : (s.emit o).keyCtr = s.keyCtr := (rfl)
@[simp] theorem emit_lines (s : State) (o : Out) : (s.emit o).lines = s.lines := (rfl)
@[simp] theorem emit_txn (s : State) (o : Out) : (s.emit o).txn = s.txn := (rfl)
@[simp] theorem emit_lineQ (s : State) (o : Out) : (s.emit o).lineQ = s.lineQ := (rfl)
@[simp] theorem emit_ans (s : State) (o : Out) : (s.emit o).ans = s.ans := (rfl)
@[simp] theorem emit_binv (s : State) (o : Out) : (s.emit o).binv = s.binv := (rfl)
@[simp] theorem emit_fills (s : State) (o : Out) : (s.emit o).fills = s.fills := (rfl)
@[simp] theorem emit_curData (s : State) (o : Out) : (s.emit o).curData = s.curData := (rfl)
@[simp] theorem emit_sideBuf (s : State) (o : Out) : (s.emit o).sideBuf = s.sideBuf := (rfl)
@[simp] theorem emit_missed (s : State) (o : Out) : (s.emit o).missed = s.missed := (rfl)
@[simp] theorem emit_ssJob (s : State) (o : Out) : (s.emit o).ssJob = s.ssJob := (rfl)
@[simp] theorem emit_memErr (s : State) (o : Out) : (s.emit o).memErr = s.memErr := (rfl)
@[simp] theorem emit_hbmPatrolH (s : State) (o : Out) : (s.emit o).hbmPatrolH = s.hbmPatrolH := (rfl)
@[simp] theorem emit_ssPatrolH (s : State) (o : Out) : (s.emit o).ssPatrolH = s.ssPatrolH := (rfl)
@[simp] theorem emit_ssInv (s : State) (o : Out) : (s.emit o).ssInv = s.ssInv := (rfl)
@[simp] theorem emit_regDemand (s : State) (o : Out) : (s.emit o).regDemand = s.regDemand := (rfl)
@[simp] theorem emit_regLim (s : State) (o : Out) : (s.emit o).regLim = s.regLim := (rfl)
@[simp] theorem emit_regSpent (s : State) (o : Out) : (s.emit o).regSpent = s.regSpent := (rfl)
@[simp] theorem emit_regBucket (s : State) (o : Out) : (s.emit o).regBucket = s.regBucket := (rfl)
@[simp] theorem emit_regC0 (s : State) (o : Out) : (s.emit o).regC0 = s.regC0 := (rfl)
@[simp] theorem emit_regW (s : State) (o : Out) : (s.emit o).regW = s.regW := (rfl)
@[simp] theorem emit_regQ (s : State) (o : Out) : (s.emit o).regQ = s.regQ := (rfl)
@[simp] theorem emit_hbmBus (s : State) (o : Out) : (s.emit o).hbmBus = s.hbmBus := (rfl)
@[simp] theorem emit_tagUe (s : State) (o : Out) : (s.emit o).tagUe = s.tagUe := (rfl)
@[simp] theorem emit_snpInv (s : State) (o : Out) : (s.emit o).snpInv = s.snpInv := (rfl)
@[simp] theorem emit_ports (s : State) (o : Out) : (s.emit o).ports = s.ports := (rfl)
@[simp] theorem emit_tksReq (s : State) (o : Out) : (s.emit o).tksReq = s.tksReq := (rfl)
@[simp] theorem emit_tksNext (s : State) (o : Out) : (s.emit o).tksNext = s.tksNext := (rfl)
@[simp] theorem emit_memo (s : State) (o : Out) : (s.emit o).memo = s.memo := (rfl)
@[simp] theorem emit_ingQ (s : State) (o : Out) : (s.emit o).ingQ = s.ingQ := (rfl)
@[simp] theorem emit_mods (s : State) (o : Out) : (s.emit o).mods = s.mods := (rfl)
@[simp] theorem emit_ext (s : State) (o : Out) : (s.emit o).ext = s.ext := (rfl)
@[simp] theorem emit_extNext (s : State) (o : Out) : (s.emit o).extNext = s.extNext := (rfl)
@[simp] theorem emit_extGot (s : State) (o : Out) : (s.emit o).extGot = s.extGot := (rfl)
@[simp] theorem emit_accs (s : State) (o : Out) : (s.emit o).accs = s.accs := (rfl)
@[simp] theorem emit_accNext (s : State) (o : Out) : (s.emit o).accNext = s.accNext := (rfl)
@[simp] theorem emit_pings (s : State) (o : Out) : (s.emit o).pings = s.pings := (rfl)
@[simp] theorem emit_msixOpen (s : State) (o : Out) : (s.emit o).msixOpen = s.msixOpen := (rfl)
@[simp] theorem emit_msixFnMask (s : State) (o : Out) : (s.emit o).msixFnMask = s.msixFnMask := (rfl)
@[simp] theorem emit_msixPend (s : State) (o : Out) : (s.emit o).msixPend = s.msixPend := (rfl)
@[simp] theorem emit_svcIrq (s : State) (o : Out) : (s.emit o).svcIrq = s.svcIrq := (rfl)
@[simp] theorem emit_fuse (s : State) (o : Out) : (s.emit o).fuse = s.fuse := (rfl)
@[simp] theorem emit_boot (s : State) (o : Out) : (s.emit o).boot = s.boot := (rfl)
@[simp] theorem emit_bist (s : State) (o : Out) : (s.emit o).bist = s.bist := (rfl)
@[simp] theorem emit_pwr (s : State) (o : Out) : (s.emit o).pwr = s.pwr := (rfl)
@[simp] theorem emit_sites (s : State) (o : Out) : (s.emit o).sites = s.sites := (rfl)
@[simp] theorem emit_prb (s : State) (o : Out) : (s.emit o).prb = s.prb := (rfl)
@[simp] theorem emit_rst (s : State) (o : Out) : (s.emit o).rst = s.rst := (rfl)
@[simp] theorem emit_saf (s : State) (o : Out) : (s.emit o).saf = s.saf := (rfl)
@[simp] theorem emit_sec (s : State) (o : Out) : (s.emit o).sec = s.sec := (rfl)
@[simp] theorem emit_cfg (s : State) (o : Out) : (s.emit o).cfg = s.cfg := (rfl)
@[simp] theorem emit_svc (s : State) (o : Out) : (s.emit o).svc = s.svc := (rfl)
@[simp] theorem emit_get (s : State) (o : Out) (r : Reg) : (s.emit o).get r = s.get r := (rfl)

@[simp] theorem drew_powered (s : State) : (s.drew).powered = s.powered := (rfl)
@[simp] theorem drew_modReset (s : State) : (s.drew).modReset = s.modReset := (rfl)
@[simp] theorem drew_asleep (s : State) : (s.drew).asleep = s.asleep := (rfl)
@[simp] theorem drew_pending (s : State) : (s.drew).pending = s.pending := (rfl)
@[simp] theorem drew_regs (s : State) : (s.drew).regs = s.regs := (rfl)
@[simp] theorem drew_mem (s : State) : (s.drew).mem = s.mem := (rfl)
@[simp] theorem drew_poison (s : State) : (s.drew).poison = s.poison := (rfl)
@[simp] theorem drew_latentUe (s : State) : (s.drew).latentUe = s.latentUe := (rfl)
@[simp] theorem drew_latentCe (s : State) : (s.drew).latentCe = s.latentCe := (rfl)
@[simp] theorem drew_tiles (s : State) : (s.drew).tiles = s.tiles := (rfl)
@[simp] theorem drew_l2p (s : State) : (s.drew).l2p = s.l2p := (rfl)
@[simp] theorem drew_isolated (s : State) : (s.drew).isolated = s.isolated := (rfl)
@[simp] theorem drew_flight (s : State) : (s.drew).flight = s.flight := (rfl)
@[simp] theorem drew_credFly (s : State) : (s.drew).credFly = s.credFly := (rfl)
@[simp] theorem drew_deadCred (s : State) : (s.drew).deadCred = s.deadCred := (rfl)
@[simp] theorem drew_dress (s : State) : (s.drew).dress = s.dress := (rfl)
@[simp] theorem drew_siteHeld (s : State) : (s.drew).siteHeld = s.siteHeld := (rfl)
@[simp] theorem drew_tlb (s : State) : (s.drew).tlb = s.tlb := (rfl)
@[simp] theorem drew_walkQ (s : State) : (s.drew).walkQ = s.walkQ := (rfl)
@[simp] theorem drew_pinWait (s : State) : (s.drew).pinWait = s.pinWait := (rfl)
@[simp] theorem drew_wcache (s : State) : (s.drew).wcache = s.wcache := (rfl)
@[simp] theorem drew_inv (s : State) : (s.drew).inv = s.inv := (rfl)
@[simp] theorem drew_pools (s : State) : (s.drew).pools = s.pools := (rfl)
@[simp] theorem drew_waiters (s : State) : (s.drew).waiters = s.waiters := (rfl)
@[simp] theorem drew_updates (s : State) : (s.drew).updates = s.updates := (rfl)
@[simp] theorem drew_nq (s : State) : (s.drew).nq = s.nq := (rfl)
@[simp] theorem drew_syncCnt (s : State) : (s.drew).syncCnt = s.syncCnt := (rfl)
@[simp] theorem drew_meshHeld (s : State) : (s.drew).meshHeld = s.meshHeld := (rfl)
@[simp] theorem drew_conUe (s : State) : (s.drew).conUe = s.conUe := (rfl)
@[simp] theorem drew_rtrPar (s : State) : (s.drew).rtrPar = s.rtrPar := (rfl)
@[simp] theorem drew_mbx (s : State) : (s.drew).mbx = s.mbx := (rfl)
@[simp] theorem drew_log (s : State) : (s.drew).log = s.log := (rfl)
@[simp] theorem drew_out (s : State) : (s.drew).out = s.out := (rfl)
@[simp] theorem drew_lanes (s : State) : (s.drew).lanes = s.lanes := (rfl)
@[simp] theorem drew_store (s : State) : (s.drew).store = s.store := (rfl)
@[simp] theorem drew_policy (s : State) : (s.drew).policy = s.policy := (rfl)
@[simp] theorem drew_expo (s : State) : (s.drew).expo = s.expo := (rfl)
@[simp] theorem drew_keyCtr (s : State) : (s.drew).keyCtr = s.keyCtr := (rfl)
@[simp] theorem drew_lines (s : State) : (s.drew).lines = s.lines := (rfl)
@[simp] theorem drew_txn (s : State) : (s.drew).txn = s.txn := (rfl)
@[simp] theorem drew_lineQ (s : State) : (s.drew).lineQ = s.lineQ := (rfl)
@[simp] theorem drew_ans (s : State) : (s.drew).ans = s.ans := (rfl)
@[simp] theorem drew_binv (s : State) : (s.drew).binv = s.binv := (rfl)
@[simp] theorem drew_fills (s : State) : (s.drew).fills = s.fills := (rfl)
@[simp] theorem drew_curData (s : State) : (s.drew).curData = s.curData := (rfl)
@[simp] theorem drew_sideBuf (s : State) : (s.drew).sideBuf = s.sideBuf := (rfl)
@[simp] theorem drew_missed (s : State) : (s.drew).missed = s.missed := (rfl)
@[simp] theorem drew_ssJob (s : State) : (s.drew).ssJob = s.ssJob := (rfl)
@[simp] theorem drew_memErr (s : State) : (s.drew).memErr = s.memErr := (rfl)
@[simp] theorem drew_hbmPatrolH (s : State) : (s.drew).hbmPatrolH = s.hbmPatrolH := (rfl)
@[simp] theorem drew_ssPatrolH (s : State) : (s.drew).ssPatrolH = s.ssPatrolH := (rfl)
@[simp] theorem drew_ssInv (s : State) : (s.drew).ssInv = s.ssInv := (rfl)
@[simp] theorem drew_regDemand (s : State) : (s.drew).regDemand = s.regDemand := (rfl)
@[simp] theorem drew_regLim (s : State) : (s.drew).regLim = s.regLim := (rfl)
@[simp] theorem drew_regSpent (s : State) : (s.drew).regSpent = s.regSpent := (rfl)
@[simp] theorem drew_regBucket (s : State) : (s.drew).regBucket = s.regBucket := (rfl)
@[simp] theorem drew_regC0 (s : State) : (s.drew).regC0 = s.regC0 := (rfl)
@[simp] theorem drew_regW (s : State) : (s.drew).regW = s.regW := (rfl)
@[simp] theorem drew_regQ (s : State) : (s.drew).regQ = s.regQ := (rfl)
@[simp] theorem drew_hbmBus (s : State) : (s.drew).hbmBus = s.hbmBus := (rfl)
@[simp] theorem drew_tagUe (s : State) : (s.drew).tagUe = s.tagUe := (rfl)
@[simp] theorem drew_snpInv (s : State) : (s.drew).snpInv = s.snpInv := (rfl)
@[simp] theorem drew_ports (s : State) : (s.drew).ports = s.ports := (rfl)
@[simp] theorem drew_tksReq (s : State) : (s.drew).tksReq = s.tksReq := (rfl)
@[simp] theorem drew_tksNext (s : State) : (s.drew).tksNext = s.tksNext := (rfl)
@[simp] theorem drew_memo (s : State) : (s.drew).memo = s.memo := (rfl)
@[simp] theorem drew_ingQ (s : State) : (s.drew).ingQ = s.ingQ := (rfl)
@[simp] theorem drew_mods (s : State) : (s.drew).mods = s.mods := (rfl)
@[simp] theorem drew_ext (s : State) : (s.drew).ext = s.ext := (rfl)
@[simp] theorem drew_extNext (s : State) : (s.drew).extNext = s.extNext := (rfl)
@[simp] theorem drew_extGot (s : State) : (s.drew).extGot = s.extGot := (rfl)
@[simp] theorem drew_accs (s : State) : (s.drew).accs = s.accs := (rfl)
@[simp] theorem drew_accNext (s : State) : (s.drew).accNext = s.accNext := (rfl)
@[simp] theorem drew_pings (s : State) : (s.drew).pings = s.pings := (rfl)
@[simp] theorem drew_msixOpen (s : State) : (s.drew).msixOpen = s.msixOpen := (rfl)
@[simp] theorem drew_msixFnMask (s : State) : (s.drew).msixFnMask = s.msixFnMask := (rfl)
@[simp] theorem drew_msixPend (s : State) : (s.drew).msixPend = s.msixPend := (rfl)
@[simp] theorem drew_svcIrq (s : State) : (s.drew).svcIrq = s.svcIrq := (rfl)
@[simp] theorem drew_fuse (s : State) : (s.drew).fuse = s.fuse := (rfl)
@[simp] theorem drew_boot (s : State) : (s.drew).boot = s.boot := (rfl)
@[simp] theorem drew_bist (s : State) : (s.drew).bist = s.bist := (rfl)
@[simp] theorem drew_pwr (s : State) : (s.drew).pwr = s.pwr := (rfl)
@[simp] theorem drew_sites (s : State) : (s.drew).sites = s.sites := (rfl)
@[simp] theorem drew_prb (s : State) : (s.drew).prb = s.prb := (rfl)
@[simp] theorem drew_rst (s : State) : (s.drew).rst = s.rst := (rfl)
@[simp] theorem drew_saf (s : State) : (s.drew).saf = s.saf := (rfl)
@[simp] theorem drew_sec (s : State) : (s.drew).sec = s.sec := (rfl)
@[simp] theorem drew_cfg (s : State) : (s.drew).cfg = s.cfg := (rfl)
@[simp] theorem drew_svc (s : State) : (s.drew).svc = s.svc := (rfl)
@[simp] theorem drew_get (s : State)  (r : Reg) : (s.drew).get r = s.get r := (rfl)

@[simp] theorem setBox_fget (s : State) (m : Nat) (b : Mbx) (r : Reg) (hi lo : Nat) : (s.setBox m b).fget r hi lo = s.fget r hi lo := (rfl)
@[simp] theorem setBox_bget (s : State) (m : Nat) (b : Mbx) (r : Reg) (i : Nat) : (s.setBox m b).bget r i = s.bget r i := (rfl)
@[simp] theorem setTile_bget (s : State) (t : Nat) (x : Tile) (r : Reg) (i : Nat) : (s.setTile t x).bget r i = s.bget r i := (rfl)
@[simp] theorem setTile_fget (s : State) (t : Nat) (x : Tile) (r : Reg) (hi lo : Nat) : (s.setTile t x).fget r hi lo = s.fget r hi lo := (rfl)

@[simp] theorem box_setBox (s : State) (m : Nat) (b : Mbx) : (s.setBox m b).box m = b := by
  unfold State.box State.setBox; simp [tgetD_tset]
theorem box_setBox_off {s : State} {m n : Nat} {b : Mbx} (h : n ≠ m) : (s.setBox m b).box n = s.box n := by
  unfold State.box State.setBox; simp [tgetD_tset, h]
@[simp] theorem box_set (s : State) (r : Reg) (v : W64) (m : Nat) : (s.set r v).box m = s.box m := (rfl)
@[simp] theorem tile_setTile (s : State) (t : Nat) (x : Tile) : (s.setTile t x).tile t = x := by
  unfold State.tile State.setTile; simp [tgetD_tset]
theorem tile_setTile_off {s : State} {t u : Nat} {x : Tile} (h : u ≠ t) : (s.setTile t x).tile u = s.tile u := by
  unfold State.tile State.setTile; simp [tgetD_tset, h]
@[simp] theorem tile_set (s : State) (r : Reg) (v : W64) (t : Nat) : (s.set r v).tile t = s.tile t := (rfl)

end Sys2Proof.Machine
end

