-- ==== Sys2Proof/Laws/Axotte.lean ====
section
/-! SUPPORT. What the operations shared by the commands do: a request that is taken meets its command's own checks; a slot that is due has its
effect. -/

namespace Sys2Proof.Machine

open Sys2Proof.Spec

theorem mbxStatus_ne {m : Nat} {r : Reg} (h : r.addr < 0x3FF001000000) : r.addr ≠ (R.mbxStatus m).addr := by
  show r.addr ≠ 0x3FF001002008 + 0x10000 * m
  omega

/-- A register below the mailbox block is as it was when a request begins to execute. -/
theorem begun_fget {s : State} {q : Req} {cmd : Nat} {r : Reg} {hi lo : Nat} (h : r.addr < 0x3FF001000000) :
    (begun s q cmd).fget r hi lo = s.fget r hi lo := by
  unfold begun
  rw [fget_fset_other (mbxStatus_ne h), setBox_fget]
theorem begun_bget {s : State} {q : Req} {cmd : Nat} {r : Reg} {i : Nat} (h : r.addr < 0x3FF001000000) : (begun s q cmd).bget r i = s.bget r i := by
  unfold State.bget; rw [begun_fget h]
theorem begun_get {s : State} {q : Req} {cmd : Nat} {r : Reg} (h : r.addr < 0x3FF001000000) : (begun s q cmd).get r = s.get r := by
  unfold begun
  rw [get_fset_other (mbxStatus_ne h), setBox_get]

/-- The gate is open on a device that is Ready, or for an early group, and awake, outside a handover. -/
theorem axGate_up {s : State} {m cmd : Nat} (h2 : s.asleep = false) (h5 : s.fget R.stwBootStatus 31 29 = 3 ∨ axGroup cmd ∈ [1, 7, 8, 9, 10])
    (h6 : 24 ≤ m ∨ s.bget R.secTenStatus 31 = false ∧ s.bget R.secTenStatus 30 = false) : axGate s m cmd = none := by
  unfold axGate
  have e1 : (s.bget R.secTenStatus 31 && decide (m < 24)) = false := by
    rcases h6 with h | ⟨h, _⟩
    · have : ¬ m < 24 := by omega
      simp [this]
    · simp [h]
  have e2 : (s.bget R.secTenStatus 30 && decide (m < 24)) = false := by
    rcases h6 with h | ⟨_, h⟩
    · have : ¬ m < 24 := by omega
      simp [this]
    · simp [h]
  have e3 : (s.fget R.stwBootStatus 31 29 != 3 && !earlyGroup (axGroup cmd)) = false := by
    rcases h5 with h | h
    · simp [h]
    · simp only [List.mem_cons, List.not_mem_nil, or_false] at h
      rcases h with h | h | h | h | h <;> simp [h, earlyGroup]
  simp only [e1, e2, e3, h2, Bool.false_and, Bool.false_eq_true, if_false]

theorem begun_asleep {s : State} {q : Req} {cmd : Nat} : (begun s q cmd).asleep = s.asleep := by simp [begun, State.fset]

theorem secTen_below : R.secTenStatus.addr < 0x3FF001000000 := by decide
theorem stwBoot_below : R.stwBootStatus.addr < 0x3FF001000000 := by decide

/-- Nothing but the command's own checks stands in the way of a request that is taken. -/
theorem axGate_begun {s : State} {q : Req} {cmd : Nat} (h : Up s q cmd) : axGate (begun s q cmd) q.mbx cmd = none := by
  obtain ⟨_, h2, _, _, h5, h6⟩ := h
  refine axGate_up (begun_asleep.trans h2) (h5.imp_left fun h => (begun_fget stwBoot_below).trans h)
    (h6.imp_right fun h => ⟨(begun_bget secTen_below).trans h.1, (begun_bget secTen_below).trans h.2⟩)

theorem axPass_none (s : State) (m : Nat) (h : Hdr) (body : State → AxR) : axPass s m h body none = axTakeUp m h (body s) := rfl
theorem hdr_mk (q : Req) (cmd : Nat) : hdr q cmd = ⟨cmd, q.tag, q.seq, q.notify⟩ := rfl

/-- A request that is taken runs its command's own checks and effect, and ends as they say. -/
theorem axotte_takes {s : State} {q : Req} {cmd : Nat} (body : State → AxR) (h : Takes s q cmd) :
    axotte s q cmd body = axTakeUp q.mbx (hdr q cmd) (body (begun s q cmd)) := by
  obtain ⟨hu, ⟨_, hm, hl⟩, hg⟩ := h
  have gate := axGate_begun (q := q) (cmd := cmd) hu
  obtain ⟨h1, h2, h3, h4, _, _⟩ := hu
  have hov : ¬ ((mbxState s q.mbx = 1 ∨ mbxState s q.mbx = 2) ∧ ((s.box q.mbx).cur ≠ some (hdr q cmd) ∨ (s.box q.mbx).begun = true)) := by
    rintro ⟨a, b⟩
    rcases hm with c | c | ⟨c, d⟩
    · omega
    · omega
    · rcases b with b | b
      · exact b c
      · rw [d] at b; cases b
  have hg7 : ¬ (axGroup cmd = 7 ∧ q.mbx < 24) := by rintro ⟨a, b⟩; have := hg a; omega
  have hz : (!s.powered || (s.asleep && decide (q.mbx < 24)) || (s.drowsing && decide (q.mbx < 16) && (s.box q.mbx).cur != some (hdr q cmd))) = false := by
    rw [h1, h2, h3]; rfl
  have hr : (!(s.bget R.stwStatus 31)) = false := by rw [h4]; rfl
  have hov' : ¬ ((s.fget (R.mbxStatus q.mbx) 31 30 = 1 ∨ s.fget (R.mbxStatus q.mbx) 31 30 = 2) ∧
      ((s.box q.mbx).cur ≠ some (hdr q cmd) ∨ (s.box q.mbx).begun = true)) := hov
  have E : axotte s q cmd body = axPass (begun s q cmd) q.mbx (hdr q cmd) body (axGate (begun s q cmd) q.mbx cmd) := by
    unfold axotte begun
    simp only [← hdr_mk, hz, hl, hr, if_neg hg7, Bool.false_eq_true, if_false]
    exact if_neg hov'
  rw [E, gate, axPass_none]

/-- The same of a command's outcome. -/
theorem run_axotte {s : State} {q : Req} {cmd : Nat} (body : State → AxR) (h : Takes s q cmd) :
    run (mbxOk q) (axotte s q cmd body) = .next (axTakeUp q.mbx (hdr q cmd) (body (begun s q cmd))) := by
  have : mbxOk q = true := by simp [mbxOk, h.2.1.1]
  rw [run, this, axotte_takes body h]; rfl

/-- The same, with the state in which the request executes named. -/
theorem run_begins {s u : State} {q : Req} {cmd : Nat} (body : State → AxR) (h : Begins s q cmd u) :
    run (mbxOk q) (axotte s q cmd body) = .next (axTakeUp q.mbx (hdr q cmd) (body u)) := by
  rw [h.2]; exact run_axotte body h.1

theorem begins_awake {s u : State} {q : Req} {cmd : Nat} (h : Begins s q cmd u) : u.asleep = false := by
  rw [h.2, begun_asleep]; exact h.1.1.2.1

/-- A slot that is due has its effect in the state in which its bundle is open. -/
theorem slot_due {s : State} {t k : Nat} {b : W64} (eff : State → State) (h : Due s t b k) : s.slot t b k eff = (opened s t b k).slotRun t k eff := by
  obtain ⟨hr, hb⟩ := h
  unfold State.slot opened
  cases e : (s.tile t).bundle with
  | some o =>
    simp only [e] at hb
    simp only [hr, hb, Bool.not_true, if_false, if_true, Bool.false_eq_true]
  | none =>
    simp only [e] at hb
    obtain ⟨h1, h2, h3, h4, h5⟩ := hb
    unfold fetched at h3 h5 ⊢
    simp only [hr, h1, h2, h3, h4, h5, bne_self_eq_false, Bool.or_false, Bool.not_true, if_false, Bool.false_eq_true, ne_eq, not_true_eq_false]

end Sys2Proof.Machine
end

