-- ==== Sys2Proof/Laws/Keep.lean ====
section
/-! SUPPORT. What every operation of the model keeps: the queue of waiting commands, and the canonical form of the memory and of
the register file. -/

namespace Sys2Proof.Machine

/-- What is to be kept: a queue, and whether the canonical form is asked for. -/
abbrev Base := List Instr × Prop

/-- The queue is that of p, and where p asks for it the memory and the register file are in canonical form. -/
def KeptF (p : Base) (q : List Instr) (m : Memory) (r : Tbl W64) : Prop :=
  q = p.1 ∧ (p.2 → m.wf = true) ∧ (p.2 → risingFrom none r = true)

/-- The same of a state. -/
def Kept (p : Base) (s : State) : Prop := KeptF p s.pending s.mem s.regs

/-- A property of the value an option holds, if it holds one. -/
def AllO {α : Type} (P : α → Prop) (o : Option α) : Prop := ∀ x, o = some x → P x

/-- A property of the right value of a sum, if it is one. -/
def AllR {α β : Type} (P : β → Prop) (o : Sum α β) : Prop := ∀ x, o = .inr x → P x

/-- What the outcomes of a command's own part keep. -/
def KeptA (p : Base) (x : AxR) : Prop :=
  ∀ s, ((∃ d b, x = .done s d b) ∨ (∃ d e, x = .fail s d e) ∨ (∃ d b, x = .refuse s d b) ∨ x = .wait s ∨ (∃ n, x = .again s n) ∨ x = .hold s) → Kept p s

/-- What a request of this device keeps once it is sent. -/
def KeptK (p : Base) (x : AskR) : Prop := ∀ n s, x = .sent n s → Kept p s

/-- What a MSG taken, or refused by a full queue, keeps. -/
def KeptM (p : Base) (x : MsgR) : Prop := ∀ s, x = .full s ∨ x = .taken s → Kept p s

/-- What the next state of an outcome keeps, where there is one. -/
def KeptX (p : Base) (o : Outc) : Prop := ∀ t, o = .next t → Kept p t

theorem kept_mk {p : Base} {x0 x1 x2 x3 x4 x5 x6 x7 x8 x9 x10 x11 x12 x13 x14 x15 x16 x17 x18 x19 x20 x21 x22 x23 x24 x25 x26 x27 x28 x29 x30 x31 x32 x33 x34 x35 x36 x37 x38 x39 x40 x41 x42 x43 x44 x45 x46 x47 x48 x49 x50 x51 x52 x53 x54 x55 x56 x57 x58 x59 x60 x61 x62 x63 x64 x65 x66 x67 x68 x69 x70 x71 x72 x73 x74 x75 x76 x77 x78 x79 x80 x81 x82 x83 x84 x85 x86 x87 x88 x89} : Kept p (State.mk x0 x1 x2 x3 x4 x5 x6 x7 x8 x9 x10 x11 x12 x13 x14 x15 x16 x17 x18 x19 x20 x21 x22 x23 x24 x25 x26 x27 x28 x29 x30 x31 x32 x33 x34 x35 x36 x37 x38 x39 x40 x41 x42 x43 x44 x45 x46 x47 x48 x49 x50 x51 x52 x53 x54 x55 x56 x57 x58 x59 x60 x61 x62 x63 x64 x65 x66 x67 x68 x69 x70 x71 x72 x73 x74 x75 x76 x77 x78 x79 x80 x81 x82 x83 x84 x85 x86 x87 x88 x89) ↔ KeptF p x3 x5 x4 := ⟨fun h => h, fun h => h⟩
theorem keptF_self {p : Base} {s : State} : KeptF p s.pending s.mem s.regs ↔ Kept p s := ⟨fun h => h, fun h => h⟩
theorem keptF_same {p : Base} {q : List Instr} {m : Memory} {r : Tbl W64} (h : KeptF p q m r) : KeptF p q m r := h
theorem kept_same {p : Base} {s : State} (h : Kept p s) : Kept p s := h

theorem kept_pair {α : Type} {p : Base} {s : State} {x : α} (h : Kept p s) : Kept p (s, x).1 := h
theorem kept_id {p : Base} {s : State} (h : Kept p s) : Kept p (id s) := h

theorem allO_some {α : Type} {P : α → Prop} {x : α} (h : P x) : AllO P (some x) := by
  intro y e; cases e; exact h
theorem allO_none {α : Type} {P : α → Prop} : AllO P none := by
  intro y e; cases e
theorem allO_map {α β : Type} {P : β → Prop} {f : α → β} {o : Option α} (h : ∀ x, P (f x)) : AllO P (o.map f) := by
  intro y e
  cases o with
  | none => cases e
  | some x => cases e; exact h x
theorem allR_inr {α β : Type} {P : β → Prop} {x : β} (h : P x) : AllR P (Sum.inr x : Sum α β) := by
  intro y e; cases e; exact h
theorem allR_inl {α β : Type} {P : β → Prop} {x : α} : AllR P (Sum.inl x : Sum α β) := by
  intro y e; cases e

theorem keptA_done {p : Base} {s : State} {d : Nat} {b : List Byte} (h : Kept p s) : KeptA p (.done s d b) := by
  intro t e
  rcases e with ⟨_, _, e⟩ | ⟨_, _, e⟩ | ⟨_, _, e⟩ | e | ⟨_, e⟩ | e <;> cases e
  exact h
theorem keptA_fail {p : Base} {s : State} {d c : Nat} (h : Kept p s) : KeptA p (.fail s d c) := by
  intro t e
  rcases e with ⟨_, _, e⟩ | ⟨_, _, e⟩ | ⟨_, _, e⟩ | e | ⟨_, e⟩ | e <;> cases e
  exact h
theorem keptA_refuse {p : Base} {s : State} {d : Nat} {b : List Byte} (h : Kept p s) : KeptA p (.refuse s d b) := by
  intro t e
  rcases e with ⟨_, _, e⟩ | ⟨_, _, e⟩ | ⟨_, _, e⟩ | e | ⟨_, e⟩ | e <;> cases e
  exact h
theorem keptA_wait {p : Base} {s : State} (h : Kept p s) : KeptA p (.wait s) := by
  intro t e
  rcases e with ⟨_, _, e⟩ | ⟨_, _, e⟩ | ⟨_, _, e⟩ | e | ⟨_, e⟩ | e <;> cases e
  exact h
theorem keptA_again {p : Base} {s : State} {d : Nat} (h : Kept p s) : KeptA p (.again s d) := by
  intro t e
  rcases e with ⟨_, _, e⟩ | ⟨_, _, e⟩ | ⟨_, _, e⟩ | e | ⟨_, e⟩ | e <;> cases e
  exact h
theorem keptA_hold {p : Base} {s : State} (h : Kept p s) : KeptA p (.hold s) := by
  intro t e
  rcases e with ⟨_, _, e⟩ | ⟨_, _, e⟩ | ⟨_, _, e⟩ | e | ⟨_, e⟩ | e <;> cases e
  exact h
theorem kept_of_done {p : Base} {x : AxR} {s : State} {d : Nat} {b : List Byte} (e : x = .done s d b) (h : KeptA p x) : Kept p s :=
  h s (.inl ⟨d, b, e⟩)
theorem kept_of_fail {p : Base} {x : AxR} {s : State} {d c : Nat} (e : x = .fail s d c) (h : KeptA p x) : Kept p s :=
  h s (.inr (.inl ⟨d, c, e⟩))
theorem kept_of_refuse {p : Base} {x : AxR} {s : State} {d : Nat} {b : List Byte} (e : x = .refuse s d b) (h : KeptA p x) : Kept p s :=
  h s (.inr (.inr (.inl ⟨d, b, e⟩)))
theorem kept_of_wait {p : Base} {x : AxR} {s : State} (e : x = .wait s) (h : KeptA p x) : Kept p s :=
  h s (.inr (.inr (.inr (.inl e))))
theorem kept_of_again {p : Base} {x : AxR} {s : State} {d : Nat} (e : x = .again s d) (h : KeptA p x) : Kept p s :=
  h s (.inr (.inr (.inr (.inr (.inl ⟨d, e⟩)))))
theorem kept_of_hold {p : Base} {x : AxR} {s : State} (e : x = .hold s) (h : KeptA p x) : Kept p s :=
  h s (.inr (.inr (.inr (.inr (.inr e)))))

theorem keptK_sent {p : Base} {n : W32} {s : State} (h : Kept p s) : KeptK p (.sent n s) := by
  intro m t e; cases e; exact h
theorem keptK_stall {p : Base} : KeptK p .stall := by
  intro m t e; cases e
theorem keptK_noRoute {p : Base} : KeptK p .noRoute := by
  intro m t e; cases e
theorem kept_of_sent {p : Base} {x : AskR} {n : W32} {s : State} (e : x = .sent n s) (h : KeptK p x) : Kept p s := h n s e
theorem keptM_full {p : Base} {s : State} (h : Kept p s) : KeptM p (.full s) := by
  intro t e
  rcases e with e | e <;> cases e
  exact h
theorem keptM_taken {p : Base} {s : State} (h : Kept p s) : KeptM p (.taken s) := by
  intro t e
  rcases e with e | e <;> cases e
  exact h
theorem keptM_bad {p : Base} : KeptM p .bad := by
  intro t e
  rcases e with e | e <;> cases e
theorem kept_of_full {p : Base} {x : MsgR} {s : State} (e : x = .full s) (h : KeptM p x) : Kept p s := h s (.inl e)
theorem kept_of_taken {p : Base} {x : MsgR} {s : State} (e : x = .taken s) (h : KeptM p x) : Kept p s := h s (.inr e)

theorem keptX_next {p : Base} {s : State} (h : Kept p s) : KeptX p (.next s) := by
  intro t e; cases e; exact h
theorem keptX_fault {p : Base} {r : Fault} : KeptX p (.fault r) := by
  intro t e; cases e
theorem keptX_refused {p : Base} {r : Refusal} : KeptX p (.refused r) := by
  intro t e; cases e
theorem kept_ite {p : Base} {c : Prop} [Decidable c] {a b : State} (ha : Kept p a) (hb : Kept p b) : Kept p (if c then a else b) := by
  split
  · exact ha
  · exact hb
theorem keptA_ite {p : Base} {c : Prop} [Decidable c] {a b : AxR} (ha : KeptA p a) (hb : KeptA p b) : KeptA p (if c then a else b) := by
  split
  · exact ha
  · exact hb
theorem keptX_ite {p : Base} {c : Prop} [Decidable c] {a b : Outc} (ha : KeptX p a) (hb : KeptX p b) : KeptX p (if c then a else b) := by
  split
  · exact ha
  · exact hb
theorem keptX_run {p : Base} {b : Bool} {s : State} (h : Kept p s) : KeptX p (run b s) := by
  unfold run; split
  · exact keptX_next h
  · exact keptX_fault

theorem kept_of_some {p : Base} {x : Option State} {t : State} (e : x = some t) (h : AllO (Kept p) x) : Kept p t := h t e
theorem kept_of_some2 {α : Type} {p : Base} {x : Option (α × State)} {a : α} {t : State} (e : x = some (a, t))
    (h : AllO (fun y => Kept p y.2) x) : Kept p t := h (a, t) e
theorem kept_of_some1 {α : Type} {p : Base} {x : Option (State × α)} {a : α} {t : State} (e : x = some (t, a))
    (h : AllO (fun y => Kept p y.1) x) : Kept p t := h (t, a) e
theorem kept_of_some3 {α β : Type} {p : Base} {x : Option (α × β × State)} {a : α} {b : β} {t : State} (e : x = some (a, b, t))
    (h : AllO (fun y => Kept p y.2.2) x) : Kept p t := h (a, b, t) e
theorem kept_of_inr {α : Type} {p : Base} {x : Sum α State} {t : State} (e : x = .inr t) (h : AllR (Kept p) x) : Kept p t := h t e
theorem kept_of_inr2 {α β : Type} {p : Base} {x : Sum α (β × State)} {b : β} {t : State} (e : x = .inr (b, t))
    (h : AllR (fun y => Kept p y.2) x) : Kept p t := h (b, t) e
theorem kept_of_fst {α : Type} {p : Base} {x : State × α} {t : State} {a : α} (e : x = (t, a)) (h : Kept p x.1) : Kept p t := by
  rw [e] at h; exact h
theorem kept_of_snd {α : Type} {p : Base} {x : α × State} {t : State} {a : α} (e : x = (a, t)) (h : Kept p x.2) : Kept p t := by
  rw [e] at h; exact h
theorem kept_of_trd {α β : Type} {p : Base} {x : α × β × State} {t : State} {a : α} {b : β} (e : x = (a, b, t)) (h : Kept p x.2.2) :
    Kept p t := by
  rw [e] at h; exact h
theorem kept_of_fth {α β γ : Type} {p : Base} {x : α × β × γ × State} {t : State} {a : α} {b : β} {c : γ} (e : x = (a, b, c, t))
    (h : Kept p x.2.2.2) : Kept p t := by
  rw [e] at h; exact h

theorem keptF_mem {p : Base} {q : List Instr} {m n : Memory} {r : Tbl W64} (h : KeptF p q m r) (hn : m.wf = true → n.wf = true) : KeptF p q n r :=
  ⟨h.1, fun c => hn (h.2.1 c), h.2.2⟩
theorem keptF_regs {p : Base} {q : List Instr} {m : Memory} {r t : Tbl W64} (h : KeptF p q m r)
    (ht : risingFrom none r = true → risingFrom none t = true) : KeptF p q m t := ⟨h.1, h.2.1, fun c => ht (h.2.2 c)⟩

theorem keptF_foldl_tput {p : Base} {q : List Instr} {m : Memory} {r : Tbl W64} {l : List (Nat × W64)} (h : KeptF p q m r) :
    KeptF p q m (l.foldl (fun (t : Tbl W64) (e : Nat × W64) => tput t e.1 e.2) r) := by
  induction l generalizing r with
  | nil => exact h
  | cons a l ih => exact ih (keptF_regs h fun h => risingFrom_tput h (aboveB_none _))
theorem keptF_mwrite {p : Base} {q : List Instr} {m : Memory} {r : Tbl W64} {a : Nat} {bs : List Byte} (h : KeptF p q m r) :
    KeptF p q (mwrite m a bs) r := keptF_mem h wf_mwrite
theorem keptF_mzero {p : Base} {q : List Instr} {m : Memory} {r : Tbl W64} {a n : Nat} (h : KeptF p q m r) : KeptF p q (mzero m a n) r :=
  keptF_mem h wf_mzero
theorem keptF_filter {p : Base} {q : List Instr} {m : Memory} {r : Tbl W64} {f : Host.Cell → Bool} (h : KeptF p q m r) :
    KeptF p q (m.filter f) r := keptF_mem h wf_filter
theorem keptF_tdel {p : Base} {q : List Instr} {m : Memory} {r : Tbl W64} {a : Nat} (h : KeptF p q m r) :
    KeptF p q m (tdel r a) := keptF_regs h risingFrom_filter
theorem keptF_tset {p : Base} {q : List Instr} {m : Memory} {r : Tbl W64} {a : Nat} {d v : W64} (h : KeptF p q m r) :
    KeptF p q m (tset r a d v) := keptF_regs h risingFrom_tset

theorem kept_foldl_fst {p : Base} {α β : Type} {f : State × β → α → State × β} {l : List α} {a : State × β}
    (hf : ∀ a x, Kept p a.1 → Kept p (f a x).1) (h : Kept p a.1) : Kept p (l.foldl f a).1 := by
  induction l generalizing a with
  | nil => exact h
  | cons b l ih => exact ih (hf a b h)
theorem kept_foldl_snd {p : Base} {α β : Type} {f : β × State → α → β × State} {l : List α} {a : β × State}
    (hf : ∀ a x, Kept p a.2 → Kept p (f a x).2) (h : Kept p a.2) : Kept p (l.foldl f a).2 := by
  induction l generalizing a with
  | nil => exact h
  | cons b l ih => exact ih (hf a b h)
theorem kept_foldl_trd {p : Base} {α β γ : Type} {f : β × γ × State → α → β × γ × State} {l : List α} {a : β × γ × State}
    (hf : ∀ a x, Kept p a.2.2 → Kept p (f a x).2.2) (h : Kept p a.2.2) : Kept p (l.foldl f a).2.2 := by
  induction l generalizing a with
  | nil => exact h
  | cons b l ih => exact ih (hf a b h)
theorem kept_foldl_fth {p : Base} {α β γ δ : Type} {f : β × γ × δ × State → α → β × γ × δ × State} {l : List α}
    {a : β × γ × δ × State} (hf : ∀ a x, Kept p a.2.2.2 → Kept p (f a x).2.2.2) (h : Kept p a.2.2.2) : Kept p (l.foldl f a).2.2.2 := by
  induction l generalizing a with
  | nil => exact h
  | cons b l ih => exact ih (hf a b h)
theorem allO_foldl {α β : Type} {P : β → Prop} {f : Option β → α → Option β} {l : List α} {a : Option β}
    (hf : ∀ a x, AllO P a → AllO P (f a x)) (h : AllO P a) : AllO P (l.foldl f a) := by
  induction l generalizing a with
  | nil => exact h
  | cons b l ih => exact ih (hf a b h)
theorem allO_bind {p : Base} {α : Type} {P : α → Prop} {o : Option State} {f : State → Option α} (ho : AllO (Kept p) o)
    (hf : ∀ s, Kept p s → AllO P (f s)) : AllO P (o.bind f) := by
  cases o with
  | none => intro y e; cases e
  | some s => exact hf s (ho s rfl)
theorem allO_foldlM {p : Base} {α : Type} {f : State → α → Option State} {l : List α} {s : State}
    (hf : ∀ s x, Kept p s → AllO (Kept p) (f s x)) (h : Kept p s) : AllO (Kept p) (l.foldlM f s) := by
  induction l generalizing s with
  | nil => exact allO_some h
  | cons a l ih => exact allO_bind (hf s a h) fun t ht => ih ht
theorem kept_getD {p : Base} {o : Option State} {s : State} (ho : AllO (Kept p) o) (h : Kept p s) : Kept p (o.getD s) := by
  cases o with
  | none => exact h
  | some t => exact ho t rfl
theorem kept_foldl {p : Base} {α : Type} {f : State → α → State} {l : List α} {s : State} (hf : ∀ s x, Kept p s → Kept p (f s x))
    (h : Kept p s) : Kept p (l.foldl f s) := by
  induction l generalizing s with
  | nil => exact h
  | cons a l ih => exact ih (hf s a h)

end Sys2Proof.Machine
end

