-- ==== Sys2Proof/Laws/KeepOps.lean ====
section
/-! SUPPORT. What the operations of Machine/Ops.lean keep. -/

namespace Sys2Proof.Machine

theorem kept_run {q0 : Base} (unitExists : Bool) (t : State) (h_t : Kept q0 t) : KeptX q0 (run unitExists t) := by
  unfold run
  repeat' (first | with_reducible assumption | with_reducible apply keptX_ite | with_reducible apply keptX_next | with_reducible exact keptX_fault)

theorem kept_set {q0 : Base} (s : State) (r : Reg) (v : W64) (h_s : Kept q0 s) : Kept q0 (State.set s r v) := by
  unfold State.set
  repeat' (first | with_reducible assumption | with_reducible apply keptF_tset | (with_reducible apply kept_same; simp only [↓kept_mk, ↓keptF_self]) | (with_reducible apply keptF_same; simp only [↓keptF_self]))

theorem kept_fset {q0 : Base} (s : State) (r : Reg) (hi : Nat) (lo : Nat) (x : Nat) (h_s : Kept q0 s) : Kept q0 (State.fset s r hi lo x) := by
  unfold State.fset
  repeat' (first | with_reducible assumption | with_reducible apply kept_set)

theorem kept_bset {q0 : Base} (s : State) (r : Reg) (i : Nat) (b : Bool) (h_s : Kept q0 s) : Kept q0 (State.bset s r i b) := by
  unfold State.bset
  repeat' (first | with_reducible assumption | with_reducible apply kept_fset)

theorem kept_bump {q0 : Base} (s : State) (r : Reg) (w : Nat) (n : Nat) (h_s : Kept q0 s) : Kept q0 (State.bump s r w n) := by
  unfold State.bump
  repeat' (first | with_reducible assumption | with_reducible apply kept_set)

theorem keptF_resetRegs {q0 : Base} {q : List Instr} {m : Memory} {r : Tbl W64} {p : Nat → Bool} {c : RCls} (h : KeptF q0 q m r) :
    KeptF q0 q m (resetRegs p c r) := by
  refine keptF_regs h fun h => risingFrom_filterMap ?_ h
  intro e e' he
  split at he
  · split at he
    · split at he
      · cases he
      · cases he; rfl
    · cases he; rfl
  · cases he; rfl

theorem kept_resetRegs {q0 : Base} {s : State} {p : Nat → Bool} {c : RCls} (h : Kept q0 s) : Kept q0 (s.resetRegs p c) :=
  keptF_resetRegs h

theorem kept_emit {q0 : Base} (s : State) (o : Out) (h_s : Kept q0 s) : Kept q0 (State.emit s o) := by
  unfold State.emit
  repeat' (first | with_reducible assumption | (with_reducible apply kept_same; simp only [↓kept_mk, ↓keptF_self]))

theorem kept_drew {q0 : Base} (s : State) (h_s : Kept q0 s) : Kept q0 (State.drew s) := by
  unfold State.drew
  repeat' (first | with_reducible assumption | (with_reducible apply kept_same; simp only [↓kept_mk, ↓keptF_self]))

theorem kept_msix {q0 : Base} (s : State) (v : Nat) (h_s : Kept q0 s) : Kept q0 (State.msix s v) := by
  unfold State.msix
  repeat' (first | with_reducible assumption | with_reducible apply kept_ite | with_reducible apply kept_emit | (with_reducible apply kept_same; simp only [↓kept_mk, ↓keptF_self]))

theorem kept_log' {q0 : Base} (s : State) (cls : Nat) (src : Nat) (code : Nat) (data : List Nat) (h_s : Kept q0 s) : Kept q0 (State.log' s cls src code data) := by
  unfold State.log'
  repeat' (first | with_reducible assumption | with_reducible apply kept_ite | with_reducible apply keptF_tset | with_reducible apply kept_msix | (with_reducible apply kept_same; simp only [↓kept_mk, ↓keptF_self]) | (with_reducible apply keptF_same; simp only [↓keptF_self]))

theorem kept_setTile {q0 : Base} (s : State) (t : Nat) (x : Tile) (h_s : Kept q0 s) : Kept q0 (State.setTile s t x) := by
  unfold State.setTile
  repeat' (first | with_reducible assumption | (with_reducible apply kept_same; simp only [↓kept_mk, ↓keptF_self]))

theorem kept_modTile {q0 : Base} (s : State) (t : Nat) (f : Tile → Tile) (h_s : Kept q0 s) : Kept q0 (State.modTile s t f) := by
  unfold State.modTile
  repeat' (first | with_reducible assumption | with_reducible apply kept_setTile)

theorem kept_write {q0 : Base} (s : State) (a : Nat) (bs : List Byte) (poison : Bool) (h_s : Kept q0 s) : Kept q0 (State.write s a bs poison) := by
  unfold State.write
  repeat' (first | with_reducible assumption | with_reducible apply keptF_mwrite | (with_reducible apply kept_same; simp only [↓kept_mk, ↓keptF_self]) | (with_reducible apply keptF_same; simp only [↓keptF_self]))

theorem kept_zero {q0 : Base} (s : State) (a : Nat) (n : Nat) (h_s : Kept q0 s) : Kept q0 (State.zero s a n) := by
  unfold State.zero
  repeat' (first | with_reducible assumption | with_reducible apply keptF_mzero | (with_reducible apply kept_same; simp only [↓kept_mk, ↓keptF_self]) | (with_reducible apply keptF_same; simp only [↓keptF_self]))

theorem kept_poisonRange {q0 : Base} (s : State) (a : Nat) (n : Nat) (h_s : Kept q0 s) : Kept q0 (State.poisonRange s a n) := by
  unfold State.poisonRange
  repeat' (first | with_reducible assumption | (with_reducible apply kept_same; simp only [↓kept_mk, ↓keptF_self]))

theorem kept_lmMeet {q0 : Base} (s : State) (t : Nat) (a : Nat) (n : Nat) (h_s : Kept q0 s) : Kept q0 (State.lmMeet s t a n) := by
  unfold State.lmMeet
  repeat' (first | with_reducible assumption | with_reducible apply kept_ite | with_reducible apply kept_bump | (with_reducible apply kept_same; simp only [↓kept_mk, ↓keptF_self]))

theorem kept_record {q0 : Base} (s : State) (r : Reg) (v : Nat) (h_s : Kept q0 s) : Kept q0 (State.record s r v) := by
  unfold State.record
  repeat' (first | with_reducible assumption | with_reducible apply kept_set)

theorem kept_hole {q0 : Base} (s : State) (m : Master) (access : Nat) (gaddr : Nat) (h_s : Kept q0 s) : Kept q0 (State.hole s m access gaddr) := by
  unfold State.hole
  repeat' (first | with_reducible assumption | with_reducible apply kept_ite | with_reducible apply kept_bset | with_reducible apply kept_msix | with_reducible apply kept_record | with_reducible apply kept_set)

theorem kept_detect {q0 : Base} (s : State) (mech : Nat) (domain : Nat) (detail : Nat) (injected : Bool) (h_s : Kept q0 s) : Kept q0 (State.detect s mech domain detail injected) := by
  unfold State.detect
  repeat' (first | with_reducible assumption | with_reducible apply kept_ite | with_reducible apply kept_bset | with_reducible apply kept_bump | with_reducible apply kept_fset | with_reducible apply kept_log' | with_reducible apply kept_msix | with_reducible apply kept_record | with_reducible apply kept_set)

theorem kept_breach {q0 : Base} (s : State) (q : Nat) (unit : Nat) (delta : Int) (ue : Bool) (h_s : Kept q0 s) : Kept q0 (State.breach s q unit delta ue) := by
  unfold State.breach
  repeat' (first | with_reducible assumption | with_reducible apply kept_ite | with_reducible apply kept_bset | with_reducible apply kept_bump | with_reducible apply kept_log' | with_reducible apply kept_msix | with_reducible apply kept_record | with_reducible apply kept_set)

theorem kept_countMet {q0 : Base} (s : State) (q : Nat) (unit : Nat) (h_s : Kept q0 s) : Kept q0 (State.countMet s q unit) := by
  unfold State.countMet
  repeat' (first | with_reducible assumption | with_reducible apply kept_breach | (with_reducible apply kept_same; simp only [↓kept_mk, ↓keptF_self]))

theorem kept_oweReset {q0 : Base} (s : State) (b : Nat) (h_s : Kept q0 s) : Kept q0 (State.oweReset s b) := by
  unfold State.oweReset
  repeat' (first | with_reducible assumption | (with_reducible apply kept_same; simp only [↓kept_mk, ↓keptF_self]))

theorem kept_parityMet {q0 : Base} (s : State) (b : Nat) (h_s : Kept q0 s) : Kept q0 (State.parityMet s b) := by
  unfold State.parityMet
  repeat' (first | with_reducible assumption | with_reducible apply kept_ite | with_reducible apply kept_detect | with_reducible apply kept_oweReset)

theorem kept_routerRead {q0 : Base} (s : State) (b : Nat) (h_s : Kept q0 s) : Kept q0 (State.routerRead s b) := by
  unfold State.routerRead
  repeat' (first | with_reducible assumption | with_reducible apply kept_ite | with_reducible apply kept_parityMet | (with_reducible apply kept_same; simp only [↓kept_mk, ↓keptF_self]))

theorem kept_syncTally {q0 : Base} (s : State) (obj : Nat) (ack : Bool) (h_s : Kept q0 s) : Kept q0 (State.syncTally s obj ack) := by
  unfold State.syncTally
  repeat' (first | with_reducible assumption | with_reducible apply kept_countMet | split | (with_reducible apply kept_same; simp only [↓kept_mk, ↓keptF_self]))

theorem kept_release {q0 : Base} (s : State) (t : Nat) (h_s : Kept q0 s) : Kept q0 (State.release s t) := by
  unfold State.release
  repeat' (first | with_reducible assumption | with_reducible apply kept_fset | split | (with_reducible apply kept_same; simp only [↓kept_mk, ↓keptF_self]))

theorem kept_fire {q0 : Base} (s : State) (obj : Nat) (k : Nat) (h_s : Kept q0 s) : Kept q0 (State.fire s obj k) := by
  unfold State.fire
  repeat' (first | with_reducible assumption | with_reducible apply kept_ite | with_reducible apply kept_fset | with_reducible apply kept_set | (with_reducible apply kept_same; simp only [↓kept_mk, ↓keptF_self]))

theorem kept_syncAfter {q0 : Base} (s : State) (obj : Nat) (h_s : Kept q0 s) : Kept q0 (State.syncAfter s obj) := by
  unfold State.syncAfter
  repeat' (first | with_reducible assumption | with_reducible intro _ | with_reducible apply kept_foldl | with_reducible apply kept_fire | with_reducible apply kept_release | (with_reducible apply kept_same; simp only [↓kept_mk, ↓keptF_self]))

theorem kept_syncSet {q0 : Base} (s : State) (obj : Nat) (v : W64) (ack : Bool) (h_s : Kept q0 s) : Kept q0 (State.syncSet s obj v ack) := by
  unfold State.syncSet
  repeat' (first | with_reducible assumption | with_reducible apply kept_set | with_reducible apply kept_syncAfter | with_reducible apply kept_syncTally)

theorem kept_syncAdd {q0 : Base} (s : State) (obj : Nat) (v : W64) (ack : Bool) (h_s : Kept q0 s) : Kept q0 (State.syncAdd s obj v ack) := by
  unfold State.syncAdd
  repeat' (first | with_reducible assumption | with_reducible apply kept_ite | with_reducible apply kept_bset | with_reducible apply kept_syncSet)

theorem kept_signal {q0 : Base} (s : State) (obj : Nat) (h_s : Kept q0 s) : Kept q0 (State.signal s obj) := by
  unfold State.signal
  repeat' (first | with_reducible assumption | with_reducible apply kept_ite | with_reducible apply kept_syncAdd)

theorem kept_syncClear {q0 : Base} (s : State) (obj : Nat) (owner : Nat) (handle : Nat) (h_s : Kept q0 s) : Kept q0 (State.syncClear s obj owner handle) := by
  unfold State.syncClear
  repeat' (first | with_reducible assumption | with_reducible apply kept_fset | with_reducible apply kept_set)

theorem kept_dropWaiter {q0 : Base} (s : State) (t : Nat) (h_s : Kept q0 s) : Kept q0 (State.dropWaiter s t) := by
  unfold State.dropWaiter
  repeat' (first | with_reducible assumption | with_reducible apply kept_fset | split | (with_reducible apply kept_same; simp only [↓kept_mk, ↓keptF_self]))

theorem kept_tlbHold {q0 : Base} (s : State) (k : Nat) (h_s : Kept q0 s) : Kept q0 (State.tlbHold s k) := by
  unfold State.tlbHold
  repeat' (first | with_reducible assumption | split | (with_reducible apply kept_same; simp only [↓kept_mk, ↓keptF_self]))

theorem kept_tlbDrop {q0 : Base} (s : State) (k : Nat) (h_s : Kept q0 s) : Kept q0 (State.tlbDrop s k) := by
  unfold State.tlbDrop
  repeat' (first | with_reducible assumption | with_reducible apply kept_ite | split | (with_reducible apply kept_same; simp only [↓kept_mk, ↓keptF_self]))

theorem kept_isoSet {q0 : Base} (s : State) (t : Nat) (why : Nat) (h_s : Kept q0 s) : Kept q0 (State.isoSet s t why) := by
  unfold State.isoSet
  repeat' (first | with_reducible assumption | with_reducible apply kept_bset | (with_reducible apply kept_same; simp only [↓kept_mk, ↓keptF_self]))

theorem kept_isoClear {q0 : Base} (s : State) (t : Nat) (why : Nat) (h_s : Kept q0 s) : Kept q0 (State.isoClear s t why) := by
  unfold State.isoClear
  repeat' (first | with_reducible assumption | with_reducible apply kept_ite | with_reducible apply kept_bset | (with_reducible apply kept_same; simp only [↓kept_mk, ↓keptF_self]))

end Sys2Proof.Machine
end

