-- ==== Sys2Proof/Laws/KeepUcieLink.lean ====
section
/-! SUPPORT. What the operations of Machine/UcieLink.lean keep. -/

namespace Sys2Proof.Machine

theorem kept_setMod {q0 : Base} (s : State) (k : Nat) (x : ModSt) (h_s : Kept q0 s) : Kept q0 (State.setMod s k x) := by
  unfold State.setMod
  repeat' (first | with_reducible assumption | (with_reducible apply kept_same; simp only [↓kept_mk, ↓keptF_self]))

theorem kept_modSend {q0 : Base} (s : State) (k : Nat) (h_s : Kept q0 s) : AllO (Kept q0) (State.modSend s k) := by
  unfold State.modSend
  repeat' (first | with_reducible assumption | with_reducible apply allO_some | with_reducible apply allO_none | with_reducible apply kept_emit | with_reducible apply kept_setMod | split | dsimp only)

theorem kept_modPumpGo {q0 : Base} (k : Nat) : ∀ (i0 : Nat) (s : State), Kept q0 s → Kept q0 (State.modPumpGo s k i0) := by
  intro i0
  induction i0 with
  | zero =>
    intros
    unfold State.modPumpGo
    repeat' with_reducible assumption
  | succ n ih =>
    intros
    unfold State.modPumpGo
    repeat' (first | with_reducible assumption | with_reducible apply kept_ite | with_reducible apply kept_modSend | with_reducible apply ih | split | (with_reducible apply kept_of_some; with_reducible assumption))

theorem kept_modPump {q0 : Base} (s : State) (k : Nat) (h_s : Kept q0 s) : Kept q0 (State.modPump s k) := by
  unfold State.modPump
  repeat' (first | with_reducible assumption | with_reducible apply kept_modPumpGo)

theorem kept_siteSend {q0 : Base} (s : State) (n : Nat) (m : Nat) (pool : Nat) (o : Out) (h_s : Kept q0 s) : Kept q0 (State.siteSend s n m pool o) := by
  unfold State.siteSend
  repeat' (first | with_reducible assumption | with_reducible apply kept_ite | with_reducible apply kept_modPump | with_reducible apply kept_setMod)

theorem kept_toAgent {q0 : Base} (s : State) (a : Agent) (line : Nat) (pool : Nat) (o : Out) (h_s : Kept q0 s) : Kept q0 (State.toAgent s a line pool o) := by
  unfold State.toAgent
  repeat' (first | with_reducible assumption | with_reducible apply kept_emit | with_reducible apply kept_siteSend | split)

end Sys2Proof.Machine
end

