-- ==== Sys2Proof/Laws/KeepAxotte.lean ====
section
/-! SUPPORT. What the operations of Machine/Axotte.lean keep. -/

namespace Sys2Proof.Machine

theorem kept_setBox {q0 : Base} (s : State) (m : Nat) (b : Mbx) (h_s : Kept q0 s) : Kept q0 (State.setBox s m b) := by
  unfold State.setBox
  repeat' (first | with_reducible assumption | (with_reducible apply kept_same; simp only [↓kept_mk, ↓keptF_self]))

theorem kept_svcPush {q0 : Base} (s : State) (core : Nat) (source : Nat) (value : Nat) (h_s : Kept q0 s) : Kept q0 (State.svcPush s core source value) := by
  unfold State.svcPush
  repeat' (first | with_reducible assumption | with_reducible apply kept_ite | with_reducible apply kept_bset | with_reducible apply kept_fset | (with_reducible apply kept_same; simp only [↓kept_mk, ↓keptF_self]))

theorem kept_actVec {q0 : Base} (s : State) (m : Nat) (h_s : Kept q0 s) : Kept q0 (State.actVec s m) := by
  unfold State.actVec
  repeat' (first | with_reducible assumption | with_reducible apply kept_emit | with_reducible apply kept_msix | with_reducible apply kept_signal | with_reducible apply kept_svcPush | split | (with_reducible apply kept_same; simp only [↓kept_mk, ↓keptF_self]))

theorem kept_notify {q0 : Base} (s : State) (m : Nat) (h : Hdr) (status : Nat) (detail : Nat) (payload : List Byte) (h_s : Kept q0 s) : Kept q0 (State.notify s m h status detail payload) := by
  unfold State.notify
  repeat' (first | with_reducible assumption | with_reducible apply kept_ite | with_reducible apply kept_actVec | with_reducible apply kept_emit | split)

theorem kept_axEndR {q0 : Base} (s : State) (m : Nat) (h : Hdr) (status : Nat) (detail : Nat) (retry : Nat) (payload : List Byte) (h_s : Kept q0 s) : Kept q0 (State.axEndR s m h status detail retry payload) := by
  unfold State.axEndR
  repeat' (first | with_reducible assumption | with_reducible apply kept_ite | with_reducible apply keptF_mwrite | with_reducible apply kept_bump | with_reducible apply kept_notify | with_reducible apply kept_set | with_reducible apply kept_setBox | (with_reducible apply kept_same; simp only [↓kept_mk, ↓keptF_self]) | (with_reducible apply keptF_same; simp only [↓keptF_self]))

theorem kept_axEnd {q0 : Base} (s : State) (m : Nat) (h : Hdr) (status : Nat) (detail : Nat) (payload : List Byte) (h_s : Kept q0 s) : Kept q0 (State.axEnd s m h status detail payload) := by
  unfold State.axEnd
  repeat' (first | with_reducible assumption | with_reducible apply kept_axEndR)

theorem kept_axDup {q0 : Base} (s : State) (m : Nat) (h : Hdr) (h_s : Kept q0 s) : Kept q0 (State.axDup s m h) := by
  unfold State.axDup
  repeat' (first | with_reducible assumption | with_reducible apply kept_bump | with_reducible apply kept_notify | with_reducible apply kept_set | with_reducible apply kept_setBox)

theorem kept_axFinish {q0 : Base} (s : State) (m : Nat) (status : Nat) (detail : Nat) (payload : List Byte) (h_s : Kept q0 s) : Kept q0 (State.axFinish s m status detail payload) := by
  unfold State.axFinish
  repeat' (first | with_reducible assumption | with_reducible apply kept_axEnd | split)

theorem kept_axTakeUp {q0 : Base} (m : Nat) (h : Hdr) (x : AxR) (h_x : KeptA q0 x) : Kept q0 (axTakeUp m h x) := by
  cases x with
  | done s d p => exact kept_axEnd _ _ _ _ _ _ (kept_of_done rfl h_x)
  | fail s st d => exact kept_axEnd _ _ _ _ _ _ (kept_of_fail rfl h_x)
  | refuse s d p => exact kept_axEnd _ _ _ _ _ _ (kept_of_refuse rfl h_x)
  | wait s => exact kept_of_wait rfl h_x
  | again s n => exact kept_axEndR _ _ _ _ _ _ _ (kept_of_again rfl h_x)
  | hold s => exact kept_setBox _ _ _ (kept_of_hold rfl h_x)

theorem kept_axPass {q0 : Base} (s : State) (m : Nat) (h : Hdr) (body : State → AxR) (g : Option (Nat × Nat)) (h_s : Kept q0 s)
    (h_body : ∀ s, Kept q0 s → KeptA q0 (body s)) : Kept q0 (axPass s m h body g) := by
  cases g with
  | none => exact kept_axTakeUp _ _ _ (h_body _ h_s)
  | some x => exact kept_axEnd _ _ _ _ _ _ h_s

theorem kept_axotte {q0 : Base} (s : State) (q : Req) (cmd : Nat) (body : State → AxR) (h_s : Kept q0 s) (h_body : ∀ s, Kept q0 s → KeptA q0 (body s)) : Kept q0 (axotte s q cmd body) := by
  unfold axotte
  repeat' (first | with_reducible assumption | with_reducible apply kept_ite | with_reducible apply kept_axDup | with_reducible apply kept_axEnd | with_reducible apply kept_axPass | with_reducible apply kept_bset | with_reducible apply kept_fset | with_reducible apply kept_setBox)

theorem kept_refuse {q0 : Base} (s : State) (d : Nat) (h_s : Kept q0 s) : KeptA q0 (refuse s d) := by
  unfold refuse
  repeat' (first | with_reducible assumption | with_reducible apply keptA_fail)

theorem kept_invalid {q0 : Base} (s : State) (h_s : Kept q0 s) : KeptA q0 (invalid s) := by
  unfold invalid
  repeat' (first | with_reducible assumption | with_reducible apply keptA_fail)

theorem kept_busy {q0 : Base} (s : State) (h_s : Kept q0 s) : KeptA q0 (busy s) := by
  unfold busy
  repeat' (first | with_reducible assumption | with_reducible apply keptA_fail)

end Sys2Proof.Machine
end

