-- ==== Sys2Proof/Laws/KeepKill.lean ====
section
/-! SUPPORT. What the operations of Machine/Kill.lean keep. -/

namespace Sys2Proof.Machine

theorem kept_recordKill {q0 : Base} (s : State) (t : Nat) (cause : Nat) (unit : Nat) (detail : Nat) (addr : W64) (h_s : Kept q0 s) : Kept q0 (State.recordKill s t cause unit detail addr) := by
  unfold State.recordKill
  repeat' (first | with_reducible assumption | with_reducible apply kept_ite | with_reducible apply kept_bset | with_reducible apply kept_fset | with_reducible apply kept_set)

theorem kept_laneSend {q0 : Base} (s : State) (n : Nat) (l : Lane) (fs : List Flit) (h_s : Kept q0 s) : Kept q0 (State.laneSend s n l fs) := by
  unfold State.laneSend
  repeat' (first | with_reducible assumption | with_reducible apply kept_ite | with_reducible apply kept_bump | (with_reducible apply kept_same; simp only [↓kept_mk, ↓keptF_self]))

theorem kept_lanePushFrom {q0 : Base} (s : State) (n : Nat) (j : Nat) (k : Nat) (h_s : Kept q0 s) : Kept q0 (State.lanePushFrom s n j k) := by
  unfold State.lanePushFrom
  repeat' (first | with_reducible assumption | with_reducible apply kept_ite | with_reducible apply kept_laneSend | split | (with_reducible apply kept_same; simp only [↓kept_mk, ↓keptF_self]))

theorem kept_lanePush {q0 : Base} (s : State) (n : Nat) (j : Nat) (h_s : Kept q0 s) : Kept q0 (State.lanePush s n j) := by
  unfold State.lanePush
  repeat' (first | with_reducible assumption | with_reducible intro _ | with_reducible apply kept_foldl | with_reducible apply kept_lanePushFrom)

theorem kept_creditBack {q0 : Base} (s : State) (d : Dressing) (prod : Nat) (n : Nat) (h_s : Kept q0 s) : Kept q0 (State.creditBack s d prod n) := by
  unfold State.creditBack
  repeat' (first | with_reducible assumption | with_reducible apply kept_ite | with_reducible apply kept_lanePush | with_reducible apply kept_siteSend | split | (with_reducible apply kept_same; simp only [↓kept_mk, ↓keptF_self]))

theorem kept_flushIn {q0 : Base} (s : State) (d : Dressing) (t : Nat) (p : Nat) (h_s : Kept q0 s) : Kept q0 (State.flushIn s d t p) := by
  unfold State.flushIn
  repeat' (first | with_reducible assumption | with_reducible apply kept_creditBack | with_reducible apply kept_fset | with_reducible apply kept_modTile | split)

theorem kept_keepCred {q0 : Base} (s : State) (t : Nat) (p : Nat) (h_s : Kept q0 s) : Kept q0 (State.keepCred s t p) := by
  unfold State.keepCred
  repeat' (first | with_reducible assumption | with_reducible apply kept_ite | (with_reducible apply kept_same; simp only [↓kept_mk, ↓keptF_self]))

theorem kept_dropIdle {q0 : Base} (s : State) (t : Nat) (h_s : Kept q0 s) : Kept q0 (State.dropIdle s t) := by
  unfold State.dropIdle
  repeat' (first | with_reducible assumption | with_reducible intro _ | with_reducible apply kept_foldl | with_reducible apply kept_tlbDrop)

theorem kept_killTile {q0 : Base} (s : State) (d : Dressing) (t : Nat) (h_s : Kept q0 s) : Kept q0 (State.killTile s d t) := by
  unfold State.killTile
  repeat' (first | with_reducible assumption | with_reducible intro _ | with_reducible apply kept_foldl | with_reducible apply kept_dropIdle | with_reducible apply kept_dropWaiter | with_reducible apply kept_flushIn | with_reducible apply kept_keepCred | with_reducible apply kept_resetRegs | with_reducible apply kept_setTile | (with_reducible apply kept_same; simp only [↓kept_mk, ↓keptF_self]))

theorem kept_killLane {q0 : Base} (s : State) (k : Nat) (h_s : Kept q0 s) : Kept q0 (State.killLane s k) := by
  unfold State.killLane
  repeat' (first | with_reducible assumption | with_reducible apply kept_bset | split | (with_reducible apply kept_same; simp only [↓kept_mk, ↓keptF_self]))

theorem kept_killMbx {q0 : Base} (s : State) (d : Dressing) (h_s : Kept q0 s) : Kept q0 (State.killMbx s d) := by
  unfold State.killMbx
  repeat' (first | with_reducible assumption | with_reducible apply kept_axFinish | split | (with_reducible apply kept_same; simp only [↓kept_mk, ↓keptF_self]))

theorem kept_killDressing {q0 : Base} (s : State) (origin : Option Nat) (h : Nat) (d : Dressing) (h_s : Kept q0 s) : Kept q0 (State.killDressing s origin h d) := by
  unfold State.killDressing
  repeat' (first | with_reducible assumption | with_reducible intro _ | with_reducible apply kept_foldl | with_reducible apply kept_killMbx | with_reducible apply kept_killTile | with_reducible apply kept_recordKill | split | (with_reducible apply kept_same; simp only [↓kept_mk, ↓keptF_self]))

theorem kept_killCtx {q0 : Base} (s : State) (ctx : Nat) (origin : Option Nat) (h_s : Kept q0 s) : Kept q0 (State.killCtx s ctx origin) := by
  unfold State.killCtx
  repeat' (first | with_reducible assumption | with_reducible intro _ | with_reducible apply kept_foldl | with_reducible apply kept_ite | with_reducible apply kept_bset | with_reducible apply kept_killDressing | with_reducible apply kept_killLane | with_reducible apply kept_log')

theorem kept_kill {q0 : Base} (s : State) (t : Nat) (cause : Nat) (unit : Nat) (detail : Nat) (addr : W64) (h_s : Kept q0 s) : Kept q0 (State.kill s t cause unit detail addr) := by
  unfold State.kill
  repeat' (first | with_reducible assumption | with_reducible apply kept_killCtx | with_reducible apply kept_recordKill)

theorem kept_killTilesOf {q0 : Base} (s : State) (ts : List Nat) (h_s : Kept q0 s) : Kept q0 (State.killTilesOf s ts) := by
  unfold State.killTilesOf
  repeat' (first | with_reducible assumption | with_reducible intro _ | with_reducible apply kept_foldl | with_reducible apply kept_killCtx)

end Sys2Proof.Machine
end

