-- ==== Sys2Proof/Laws/KeepMeas.lean ====
section
/-! SUPPORT. What the operations of Machine/Meas.lean keep. -/

namespace Sys2Proof.Machine

theorem kept_measCommit {q0 : Base} (s : State) (h_s : Kept q0 s) : Kept q0 (State.measCommit s) := by
  unfold State.measCommit
  repeat' (first | with_reducible assumption | (with_reducible apply kept_same; simp only [↓kept_mk, ↓keptF_self]))

theorem kept_libFail {q0 : Base} (s : State) (h_s : Kept q0 s) : Kept q0 (State.libFail s) := by
  unfold State.libFail
  repeat' (first | with_reducible assumption | with_reducible apply kept_bset | with_reducible apply kept_measCommit)

end Sys2Proof.Machine
end

