-- ==== Sys2Proof/Laws/KeepTksLink.lean ====
section
/-! SUPPORT. What the operations of Machine/TksLink.lean keep. -/

namespace Sys2Proof.Machine

theorem kept_setPort {q0 : Base} (s : State) (p : Nat) (x : PortSt) (h_s : Kept q0 s) : Kept q0 (State.setPort s p x) := by
  unfold State.setPort
  repeat' (first | with_reducible assumption | (with_reducible apply kept_same; simp only [↓kept_mk, ↓keptF_self]))

theorem kept_modPort {q0 : Base} (s : State) (p : Nat) (f : PortSt → PortSt) (h_s : Kept q0 s) : Kept q0 (State.modPort s p f) := by
  unfold State.modPort
  repeat' (first | with_reducible assumption | with_reducible apply kept_setPort)

theorem kept_oweCells {q0 : Base} (s : State) (b : Option (Nat × Nat × Nat)) (h_s : Kept q0 s) : Kept q0 (State.oweCells s b) := by
  unfold State.oweCells
  repeat' (first | with_reducible assumption | with_reducible apply kept_modPort | split)

theorem kept_sendOne {q0 : Base} (s : State) (p : Nat) (i : Nat) (e : TxE) (h_s : Kept q0 s) : Kept q0 (State.sendOne s p i e) := by
  unfold State.sendOne
  repeat' (first | with_reducible assumption | with_reducible apply kept_bump | with_reducible apply kept_emit | with_reducible apply kept_oweCells | with_reducible apply kept_setPort)

theorem kept_pumpGo {q0 : Base} (p : Nat) : ∀ (i0 : Nat) (s : State), Kept q0 s → Kept q0 (State.pumpGo s p i0) := by
  intro i0
  induction i0 with
  | zero =>
    intros
    unfold State.pumpGo
    repeat' with_reducible assumption
  | succ n ih =>
    intros
    unfold State.pumpGo
    repeat' (first | with_reducible assumption | with_reducible apply kept_ite | with_reducible apply kept_modPort | with_reducible apply kept_sendOne | with_reducible apply ih | split)

theorem kept_pump {q0 : Base} (s : State) (p : Nat) (h_s : Kept q0 s) : Kept q0 (State.pump s p) := by
  unfold State.pump
  repeat' (first | with_reducible assumption | with_reducible apply kept_pumpGo)

theorem kept_portPut {q0 : Base} (s : State) (p : Nat) (e : TxE) (h_s : Kept q0 s) : Kept q0 (State.portPut s p e) := by
  unfold State.portPut
  repeat' (first | with_reducible assumption | with_reducible apply kept_modPort | with_reducible apply kept_pump)

theorem kept_tksTrim {q0 : Base} (s : State) (h_s : Kept q0 s) : Kept q0 (State.tksTrim s) := by
  unfold State.tksTrim
  repeat' (first | with_reducible assumption | (with_reducible apply kept_same; simp only [↓kept_mk, ↓keptF_self]))

theorem kept_sendVia {q0 : Base} (s : State) (r : Nat × Bool × Bool) (f : Frame) (back : Option (Nat × Nat × Nat)) (h_s : Kept q0 s) : Kept q0 (State.sendVia s r f back) := by
  unfold State.sendVia
  repeat' (first | with_reducible assumption | with_reducible apply kept_portPut)

theorem kept_tksAsk {q0 : Base} (s : State) (why : Purp) (f : Frame) (h_s : Kept q0 s) : KeptK q0 (State.tksAsk s why f) := by
  unfold State.tksAsk
  repeat' (first | with_reducible assumption | with_reducible apply keptK_sent | with_reducible exact keptK_stall | with_reducible exact keptK_noRoute | with_reducible apply kept_sendVia | with_reducible apply kept_tksTrim | split | (with_reducible apply kept_same; simp only [↓kept_mk, ↓keptF_self]) | dsimp only)

theorem kept_tksSend {q0 : Base} (s : State) (why : Purp) (f : Frame) (h_s : Kept q0 s) : AllO (Kept q0) (State.tksSend s why f) := by
  unfold State.tksSend
  repeat' (first | with_reducible assumption | with_reducible apply allO_some | with_reducible apply allO_none | with_reducible apply kept_tksAsk | split | (with_reducible apply kept_of_sent; with_reducible assumption))

theorem kept_setPst {q0 : Base} (s : State) (p : Nat) (k : Nat) (h_s : Kept q0 s) : Kept q0 (State.setPst s p k) := by
  unfold State.setPst
  repeat' (first | with_reducible assumption | with_reducible apply kept_bset | with_reducible apply kept_fset)

theorem kept_helloSend {q0 : Base} (s : State) (p : Nat) (h_s : Kept q0 s) : Kept q0 (State.helloSend s p) := by
  unfold State.helloSend
  repeat' (first | with_reducible assumption | with_reducible apply kept_emit)

theorem kept_portLocked {q0 : Base} (s : State) (p : Nat) (h_s : Kept q0 s) : Kept q0 (State.portLocked s p) := by
  unfold State.portLocked
  repeat' (first | with_reducible assumption | with_reducible apply kept_bset | with_reducible apply kept_helloSend | with_reducible apply kept_setPst)

theorem kept_portsRejoin {q0 : Base} (s : State) (h_s : Kept q0 s) : Kept q0 (State.portsRejoin s) := by
  unfold State.portsRejoin
  repeat' (first | with_reducible assumption | with_reducible intro _ | with_reducible apply kept_foldl | with_reducible apply kept_ite | with_reducible apply kept_modPort | with_reducible apply kept_portLocked)

end Sys2Proof.Machine
end

