-- ==== Sys2Proof/Laws/KeepXlt.lean ====
section
/-! SUPPORT. What the operations of Machine/Xlt.lean keep. -/

namespace Sys2Proof.Machine

theorem kept_wcInstall {q0 : Base} (s : State) (half : Nat) (ctx : Nat) (lvl : Nat) (va : Nat) (table : Nat) (h_s : Kept q0 s) : Kept q0 (State.wcInstall s half ctx lvl va table) := by
  unfold State.wcInstall
  repeat' (first | with_reducible assumption | split | (with_reducible apply kept_same; simp only [↓kept_mk, ↓keptF_self]))

theorem kept_tlbInstall {q0 : Base} (s : State) (bench : Nat) (ctx : Nat) (va : Nat) (size : Nat) (frame : Nat) (w : Bool) (nc : Bool) (h_s : Kept q0 s) : AllO (Kept q0) (State.tlbInstall s bench ctx va size frame w nc) := by
  unfold State.tlbInstall
  repeat' (first | with_reducible assumption | with_reducible apply allO_some | with_reducible apply allO_none | split | (with_reducible apply kept_same; simp only [↓kept_mk, ↓keptF_self]) | dsimp only)

theorem kept_askWalk {q0 : Base} (s : State) (m : Master) (lane : Nat) (ctx : Nat) (va : Nat) (write : Bool) (prefetch : Bool) (h_s : Kept q0 s) : Kept q0 (State.askWalk s m lane ctx va write prefetch) := by
  unfold State.askWalk
  repeat' (first | with_reducible assumption | with_reducible apply kept_ite | (with_reducible apply kept_same; simp only [↓kept_mk, ↓keptF_self]))

theorem kept_recordFault {q0 : Base} (s : State) (kind : Nat) (level : Nat) (m : Master) (lane : Nat) (ctx : Nat) (va : Nat) (h_s : Kept q0 s) : Kept q0 (State.recordFault s kind level m lane ctx va) := by
  unfold State.recordFault
  repeat' (first | with_reducible assumption | with_reducible apply kept_ite | with_reducible apply kept_bset | with_reducible apply kept_drew | with_reducible apply kept_msix | with_reducible apply kept_record | with_reducible apply kept_set)

theorem kept_hoistKill {q0 : Base} (s : State) (n : Nat) (k : Nat) (cause : Nat) (addr : W64) (h_s : Kept q0 s) : Kept q0 (State.hoistKill s n k cause addr) := by
  unfold State.hoistKill
  repeat' (first | with_reducible assumption | with_reducible apply kept_ite | with_reducible apply kept_bset | with_reducible apply kept_killCtx | with_reducible apply kept_record | with_reducible apply kept_set | split)

theorem kept_xltFault {q0 : Base} (s : State) (kind : Nat) (level : Nat) (m : Master) (lane : Nat) (ctx : Nat) (va : Nat) (h_s : Kept q0 s) : Kept q0 (State.xltFault s kind level m lane ctx va) := by
  unfold State.xltFault
  repeat' (first | with_reducible assumption | with_reducible apply kept_ite | with_reducible apply kept_hoistKill | with_reducible apply kept_kill | with_reducible apply kept_recordFault)

theorem kept_lookupDone {q0 : Base} (s : State) (t : Nat) (lane : Nat) (va : Nat) (write : Bool) (h_s : Kept q0 s) : Kept q0 (State.lookupDone s t lane va write) := by
  unfold State.lookupDone
  repeat' (first | with_reducible assumption | with_reducible apply kept_ite | with_reducible apply kept_askWalk | with_reducible apply kept_bump | with_reducible apply kept_parityMet | with_reducible apply kept_xltFault | split | (with_reducible apply kept_same; simp only [↓kept_mk, ↓keptF_self]))

theorem kept_tlbBreach {q0 : Base} (s : State) (b : Nat) (delta : Int) (h_s : Kept q0 s) : Kept q0 (State.tlbBreach s b delta) := by
  unfold State.tlbBreach
  repeat' (first | with_reducible assumption | with_reducible intro _ | with_reducible apply kept_foldl | with_reducible apply kept_breach | with_reducible apply kept_killCtx)

theorem kept_laneBreach {q0 : Base} (s : State) (h : Nat) (delta : Int) (h_s : Kept q0 s) : Kept q0 (State.laneBreach s h delta) := by
  unfold State.laneBreach
  repeat' (first | with_reducible assumption | with_reducible intro _ | with_reducible apply kept_foldl | with_reducible apply kept_breach | with_reducible apply kept_killCtx)

theorem kept_tlbRefRead {q0 : Base} (s : State) (b : Nat) (h_s : Kept q0 s) : Kept q0 (State.tlbRefRead s b) := by
  unfold State.tlbRefRead
  repeat' (first | with_reducible assumption | with_reducible intro _ | with_reducible apply kept_foldl | with_reducible apply kept_ite | with_reducible apply kept_countMet | with_reducible apply kept_killCtx)

theorem kept_laneRefRead {q0 : Base} (s : State) (h : Nat) (h_s : Kept q0 s) : Kept q0 (State.laneRefRead s h) := by
  unfold State.laneRefRead
  repeat' (first | with_reducible assumption | with_reducible intro _ | with_reducible apply kept_foldl | with_reducible apply kept_ite | with_reducible apply kept_countMet | with_reducible apply kept_killCtx)

theorem kept_invStep3 {q0 : Base} (s : State) (k : Nat) (h_s : Kept q0 s) : Kept q0 (State.invStep3 s k) := by
  unfold State.invStep3
  repeat' (first | with_reducible assumption | with_reducible apply kept_bset | with_reducible apply kept_bump | (with_reducible apply kept_same; simp only [↓kept_mk, ↓keptF_self]))

theorem kept_invGo {q0 : Base} (s : State) (k : Nat) (r : InvRec) (h_s : Kept q0 s) : Kept q0 (State.invGo s k r) := by
  unfold State.invGo
  repeat' (first | with_reducible assumption | with_reducible apply kept_ite | with_reducible apply kept_set | (with_reducible apply kept_same; simp only [↓kept_mk, ↓keptF_self]))

theorem kept_invFinish {q0 : Base} (s : State) (k : Nat) (h_s : Kept q0 s) : Kept q0 (State.invFinish s k) := by
  unfold State.invFinish
  repeat' (first | with_reducible assumption | with_reducible apply kept_ite | with_reducible apply kept_axFinish | with_reducible apply kept_bset | with_reducible apply kept_set | with_reducible apply kept_signal | split | (with_reducible apply kept_same; simp only [↓kept_mk, ↓keptF_self]))

theorem kept_newTable {q0 : Base} (s : State) (ctx : Nat) (h_s : Kept q0 s) : AllO (fun x => Kept q0 x.2) (State.newTable s ctx) := by
  unfold State.newTable
  repeat' (first | with_reducible assumption | with_reducible apply allO_some | with_reducible apply allO_none | with_reducible apply kept_zero | split | (with_reducible apply kept_same; simp only [↓kept_mk, ↓keptF_self]))

theorem kept_needTable {q0 : Base} (ctx : Nat) (root : Nat) (va : Nat) : ∀ (i0 : Nat) (s : State), Kept q0 s → AllO (fun x => Kept q0 x.2) (State.needTable s ctx root va i0) := by
  intro i0
  induction i0 with
  | zero =>
    intros
    unfold State.needTable
    repeat' (first | with_reducible assumption | with_reducible apply allO_some)
  | succ n ih =>
    intros
    unfold State.needTable
    repeat' (first | with_reducible assumption | with_reducible apply allO_some | with_reducible apply allO_none | with_reducible apply kept_newTable | with_reducible apply kept_write | with_reducible apply ih | split | (with_reducible apply kept_of_some2; with_reducible assumption) | dsimp only)

theorem kept_mapRange {q0 : Base} (ctx : Nat) (root : Nat) (pooled : Bool) (expert : Bool) (w : Bool) (nc : Bool) : ∀ (i0 : Nat) (i1 : Nat) (i2 : Nat) (i3 : Nat) (s : State), Kept q0 s → Kept q0 (State.mapRange s ctx root pooled expert w nc i0 i1 i2 i3).1 := by
  intro i0
  induction i0 with
  | zero =>
    intros
    unfold State.mapRange
    repeat' with_reducible assumption
  | succ n ih =>
    intros
    unfold State.mapRange
    repeat' (first | with_reducible assumption | with_reducible intro _ | with_reducible apply kept_foldl | with_reducible apply allO_map | with_reducible apply kept_ite | with_reducible apply kept_needTable | with_reducible apply kept_write | with_reducible apply ih | cases ‹_ + 1 = Nat.succ _› | split | (with_reducible apply kept_of_some2; with_reducible assumption) | (with_reducible apply kept_same; simp only [↓kept_mk, ↓keptF_self]))

theorem kept_unmapPage {q0 : Base} (s : State) (root : Nat) (va : Nat) (h_s : Kept q0 s) : Kept q0 (State.unmapPage s root va) := by
  unfold State.unmapPage
  repeat' (first | with_reducible assumption | with_reducible intro _ | with_reducible apply kept_foldl | with_reducible apply kept_ite | with_reducible apply kept_write | split)

theorem kept_unmapLeaf {q0 : Base} (s : State) (root : Nat) (va : Nat) (h_s : Kept q0 s) : Kept q0 (State.unmapLeaf s root va) := by
  unfold State.unmapLeaf
  repeat' (first | with_reducible assumption | with_reducible apply kept_ite | with_reducible apply kept_write | split)

theorem kept_unmapRange {q0 : Base} (root : Nat) (lo : Nat) (hi : Nat) : ∀ (i0 : Nat) (i1 : Nat) (i2 : Nat) (s : State), Kept q0 s → Kept q0 (State.unmapRange s root lo hi i0 i1 i2) := by
  intro i0
  induction i0 with
  | zero =>
    intros
    unfold State.unmapRange
    repeat' with_reducible assumption
  | succ n ih =>
    intros
    unfold State.unmapRange
    repeat' (first | with_reducible assumption | with_reducible apply kept_ite | with_reducible apply kept_unmapLeaf | with_reducible apply kept_unmapPage | with_reducible apply kept_write | with_reducible apply ih | cases ‹_ + 1 = Nat.succ _› | split)

end Sys2Proof.Machine
end

