-- ==== Sys2Proof/Laws/KeepOperands.lean ====
section
/-! SUPPORT. What the operations of Machine/Operands.lean keep. -/

namespace Sys2Proof.Machine

theorem kept_setSr {q0 : Base} (s : State) (t : Nat) (r : Nat) (v : W32) (h_s : Kept q0 s) : Kept q0 (State.setSr s t r v) := by
  unfold State.setSr
  repeat' (first | with_reducible assumption | with_reducible apply kept_ite | with_reducible apply kept_modTile)

theorem kept_setVrow {q0 : Base} (s : State) (t : Nat) (r : Nat) (vs : List W32) (h_s : Kept q0 s) : Kept q0 (State.setVrow s t r vs) := by
  unfold State.setVrow
  repeat' (first | with_reducible assumption | with_reducible apply kept_modTile)

theorem kept_setAcc {q0 : Base} (s : State) (t : Nat) (a : Nat) (vs : List W32) (h_s : Kept q0 s) : Kept q0 (State.setAcc s t a vs) := by
  unfold State.setAcc
  repeat' (first | with_reducible assumption | with_reducible apply kept_modTile)

theorem kept_setTag {q0 : Base} (s : State) (t : Nat) (a : Nat) (int : Bool) (h_s : Kept q0 s) : Kept q0 (State.setTag s t a int) := by
  unfold State.setTag
  repeat' (first | with_reducible assumption | with_reducible apply kept_modTile)

theorem kept_setAccBad {q0 : Base} (s : State) (t : Nat) (a : Nat) (p : Bool) (h_s : Kept q0 s) : Kept q0 (State.setAccBad s t a p) := by
  unfold State.setAccBad
  repeat' (first | with_reducible assumption | with_reducible apply kept_modTile)

theorem kept_lmMeetAt {q0 : Base} (s : State) (t : Nat) (off : Nat) (n : Nat) (h_s : Kept q0 s) : Kept q0 (State.lmMeetAt s t off n) := by
  unfold State.lmMeetAt
  repeat' (first | with_reducible assumption | with_reducible apply kept_ite | with_reducible apply kept_lmMeet)

theorem kept_lmWriteFlat {q0 : Base} (s : State) (t : Nat) (a : Nat) (bs : List Byte) (poison : Bool) (h_s : Kept q0 s) : Kept q0 (State.lmWriteFlat s t a bs poison) := by
  unfold State.lmWriteFlat
  repeat' (first | with_reducible assumption | with_reducible intro _ | with_reducible apply kept_foldl | with_reducible apply kept_lmMeet | with_reducible apply kept_write)

theorem kept_lmWrite {q0 : Base} (s : State) (t : Nat) (off : Nat) (bs : List Byte) (poison : Bool) (h_s : Kept q0 s) : Kept q0 (State.lmWrite s t off bs poison) := by
  unfold State.lmWrite
  repeat' (first | with_reducible assumption | with_reducible apply kept_ite | with_reducible apply kept_lmWriteFlat)

theorem kept_served {q0 : Base} (s : State) (t : Nat) (r : Nat) (h_s : Kept q0 s) : Kept q0 (State.served s t r) := by
  unfold State.served
  repeat' (first | with_reducible assumption | with_reducible apply kept_modTile)

theorem kept_codeKeep {q0 : Base} (s : State) (t : Nat) (off : Nat) (n : Nat) (h_s : Kept q0 s) : Kept q0 (State.codeKeep s t off n) := by
  unfold State.codeKeep
  repeat' (first | with_reducible assumption | with_reducible apply kept_modTile)

theorem kept_seqStore {q0 : Base} (s : State) (t : Nat) (off : Nat) (bs : List Byte) (poison : Bool) (h_s : Kept q0 s) : Kept q0 (State.seqStore s t off bs poison) := by
  unfold State.seqStore
  repeat' (first | with_reducible assumption | with_reducible apply kept_codeKeep | with_reducible apply kept_lmWrite)

end Sys2Proof.Machine
end

