-- ==== Sys2Proof/Laws/KeepFlags.lean ====
section
/-! SUPPORT. What the operations of Machine/Flags.lean keep. -/

namespace Sys2Proof.Machine

theorem kept_flag {q0 : Base} (s : State) (t : Nat) (f : Nat) (h_s : Kept q0 s) : Kept q0 (State.flag s t f) := by
  unfold State.flag
  repeat' (first | with_reducible assumption | with_reducible apply kept_ite | with_reducible apply kept_set)

theorem kept_flagV {q0 : Base} (s : State) (t : Nat) (f : Nat) (h_s : Kept q0 s) : Kept q0 (State.flagV s t f) := by
  unfold State.flagV
  repeat' (first | with_reducible assumption | with_reducible apply kept_flag | with_reducible apply kept_modTile)

theorem kept_draws {q0 : Base} (t : Nat) (f : Nat) (mode : Nat) : ∀ (i0 : List Nat) (s : State), Kept q0 s → Kept q0 (State.draws s t f mode i0).2 := by
  intro i0
  induction i0 with
  | nil =>
    intros
    unfold State.draws
    repeat' with_reducible assumption
  | cons a l ih =>
    intros
    unfold State.draws
    repeat' (first | with_reducible assumption | with_reducible apply kept_modTile | with_reducible apply ih | split)

end Sys2Proof.Machine
end

