-- ==== Sys2Proof/Laws/KeepIssue.lean ====
section
/-! SUPPORT. What the operations of Machine/Issue.lean keep. -/

namespace Sys2Proof.Machine

theorem kept_slotKill {q0 : Base} (s : State) (t : Nat) (cause : Nat) (unit : Nat) (detail : Nat) (h_s : Kept q0 s) : Kept q0 (State.slotKill s t cause unit detail) := by
  unfold State.slotKill
  repeat' (first | with_reducible assumption | with_reducible apply kept_kill)

theorem kept_waitReg {q0 : Base} (s : State) (t : Nat) (obj : Nat) (thresh : Nat) (h_s : Kept q0 s) : Kept q0 (State.waitReg s t obj thresh) := by
  unfold State.waitReg
  repeat' (first | with_reducible assumption | with_reducible apply kept_ite | with_reducible apply kept_fset | with_reducible apply kept_release | (with_reducible apply kept_same; simp only [↓kept_mk, ↓keptF_self]))

theorem kept_stallDo {q0 : Base} (s : State) (t : Nat) (b : W64) (k : Nat) (h_s : Kept q0 s) : Kept q0 (State.stallDo s t b k) := by
  unfold State.stallDo
  repeat' (first | with_reducible assumption | with_reducible apply kept_ite | with_reducible apply kept_bump | with_reducible apply kept_fset | with_reducible apply kept_lookupDone | with_reducible apply kept_waitReg | split)

theorem kept_slotRun {q0 : Base} (s : State) (t : Nat) (n : Nat) (eff : State → State) (h_s : Kept q0 s) (h_eff : ∀ s, Kept q0 s → Kept q0 (eff s)) : Kept q0 (State.slotRun s t n eff) := by
  unfold State.slotRun
  repeat' (first | with_reducible assumption | with_reducible apply kept_ite | with_reducible apply kept_modTile | with_reducible apply h_eff)

theorem kept_openB {q0 : Base} (s : State) (t : Nat) (b : W64) (n : Nat) (h_s : Kept q0 s) : Kept q0 (State.openB s t b n) := by
  unfold State.openB
  repeat' (first | with_reducible assumption | with_reducible apply kept_modTile)

theorem kept_slot {q0 : Base} (s : State) (t : Nat) (b : W64) (n : Nat) (eff : State → State) (h_s : Kept q0 s) (h_eff : ∀ s, Kept q0 s → Kept q0 (eff s)) : Kept q0 (State.slot s t b n eff) := by
  unfold State.slot
  repeat' (first | with_reducible assumption | with_reducible apply kept_ite | with_reducible apply kept_lmMeetAt | with_reducible apply kept_openB | with_reducible apply kept_served | with_reducible apply kept_slotKill | with_reducible apply kept_slotRun | with_reducible apply kept_stallDo | split)

theorem kept_loopEnd {q0 : Base} (s : State) (t : Nat) (n : Nat) (h_s : Kept q0 s) : Kept q0 (State.loopEnd s t n) := by
  unfold State.loopEnd
  repeat' (first | with_reducible assumption | with_reducible apply kept_bset | with_reducible apply kept_modTile | with_reducible apply kept_set)

theorem kept_after {q0 : Base} (t : Nat) (p : Nat) : ∀ (i0 : List Nat) (s : State), Kept q0 s → Kept q0 (State.after s t p i0).1 := by
  intro i0
  induction i0 with
  | nil =>
    intros
    unfold State.after
    repeat' with_reducible assumption
  | cons a l ih =>
    intros
    unfold State.after
    repeat' (first | with_reducible assumption | with_reducible apply kept_loopEnd | with_reducible apply kept_set | with_reducible apply ih | split | (with_reducible apply kept_same; simp only [↓kept_mk, ↓keptF_self]))

theorem kept_leaveLoops {q0 : Base} (s : State) (t : Nat) (p : Nat) (h_s : Kept q0 s) : Kept q0 (State.leaveLoops s t p) := by
  unfold State.leaveLoops
  repeat' (first | with_reducible assumption | with_reducible intro _ | with_reducible apply kept_foldl | with_reducible apply kept_loopEnd)

theorem kept_closeB {q0 : Base} (s : State) (t : Nat) (h_s : Kept q0 s) : Kept q0 (State.closeB s t) := by
  unfold State.closeB
  repeat' (first | with_reducible assumption | with_reducible apply kept_modTile | with_reducible apply kept_setSr | split)

theorem kept_finishB {q0 : Base} (s : State) (t : Nat) (next : Int) (h_s : Kept q0 s) : Kept q0 (State.finishB s t next) := by
  unfold State.finishB
  repeat' (first | with_reducible assumption | with_reducible apply kept_ite | with_reducible apply kept_bump | with_reducible apply kept_closeB | with_reducible apply kept_set | with_reducible apply kept_slotKill)

theorem kept_fall {q0 : Base} (s : State) (t : Nat) (p : Nat) (h_s : Kept q0 s) : Kept q0 (State.fall s t p) := by
  unfold State.fall
  repeat' (first | with_reducible assumption | with_reducible apply kept_after | with_reducible apply kept_finishB)

theorem kept_next {q0 : Base} (s : State) (t : Nat) (h_s : Kept q0 s) : Kept q0 (State.next s t) := by
  unfold State.next
  repeat' (first | with_reducible assumption | with_reducible apply kept_fall)

theorem kept_branch {q0 : Base} (s : State) (t : Nat) (off : Int) (h_s : Kept q0 s) : Kept q0 (State.branch s t off) := by
  unfold State.branch
  repeat' (first | with_reducible assumption | with_reducible apply kept_finishB | with_reducible apply kept_leaveLoops | with_reducible apply kept_modTile)

end Sys2Proof.Machine
end

