-- ==== Sys2Proof/Laws/KeepMatrix.lean ====
section
/-! SUPPORT. What the operations of Machine/Matrix.lean keep. -/

namespace Sys2Proof.Machine

theorem kept_slotCmd {q0 : Base} (t : Nat) (fits : Bool) (next : State) (h_next : Kept q0 next) : KeptX q0 (slotCmd t fits next) := by
  unfold slotCmd
  repeat' (first | with_reducible assumption | with_reducible apply keptX_ite | with_reducible apply keptX_next | with_reducible exact keptX_fault | with_reducible exact keptX_refused)

theorem kept_popFlits {q0 : Base} (s : State) (t : Nat) (p : Nat) (n : Nat) (h_s : Kept q0 s) : Kept q0 (State.popFlits s t p n) := by
  unfold State.popFlits
  repeat' (first | with_reducible assumption | with_reducible apply kept_creditBack | with_reducible apply kept_modTile | with_reducible apply kept_set | split)

theorem kept_portMet {q0 : Base} (s : State) (t : Nat) (p : Nat) (h_s : Kept q0 s) : Kept q0 (State.portMet s t p) := by
  unfold State.portMet
  repeat' (first | with_reducible assumption | with_reducible apply kept_ite | with_reducible apply kept_countMet | with_reducible apply kept_killCtx)

theorem kept_mmaDo {q0 : Base} (s : State) (t : Nat) (m : Nat) (h_s : Kept q0 s) : Kept q0 (State.mmaDo s t m) := by
  unfold State.mmaDo
  repeat' (first | with_reducible assumption | with_reducible apply kept_ite | with_reducible apply kept_modTile | with_reducible apply kept_setTag | with_reducible apply kept_slotKill)

theorem kept_mclrDo {q0 : Base} (s : State) (t : Nat) (m : Nat) (h_s : Kept q0 s) : Kept q0 (State.mclrDo s t m) := by
  unfold State.mclrDo
  repeat' (first | with_reducible assumption | with_reducible apply kept_modTile | with_reducible apply kept_setTag)

theorem kept_execMnop {q0 : Base} (t : Nat) (b : W64) (s : State) (h_s : Kept q0 s) : KeptX q0 (execMnop t b s) := by
  unfold execMnop
  repeat' (first | with_reducible assumption | with_reducible intro _ | with_reducible apply kept_id | with_reducible apply kept_slot | with_reducible apply kept_slotCmd)

theorem kept_execMma {q0 : Base} (t : Nat) (b : W64) (s : State) (h_s : Kept q0 s) : KeptX q0 (execMma t b s) := by
  unfold execMma
  repeat' (first | with_reducible assumption | with_reducible intro _ | with_reducible apply kept_mmaDo | with_reducible apply kept_slot | with_reducible apply kept_slotCmd)

theorem kept_execMclr {q0 : Base} (t : Nat) (b : W64) (s : State) (h_s : Kept q0 s) : KeptX q0 (execMclr t b s) := by
  unfold execMclr
  repeat' (first | with_reducible assumption | with_reducible intro _ | with_reducible apply kept_mclrDo | with_reducible apply kept_slot | with_reducible apply kept_slotCmd)

theorem kept_granMeet {q0 : Base} (s : State) (t : Nat) (d : W64) (g : Nat) (h_s : Kept q0 s) : Kept q0 (State.granMeet s t d g) := by
  unfold State.granMeet
  repeat' (first | with_reducible assumption | with_reducible intro _ | with_reducible apply kept_foldl | with_reducible apply kept_ite | with_reducible apply kept_lmMeetAt)

theorem kept_fillOne {q0 : Base} (s : State) (t : Nat) (opB : Bool) (d : W64) (g : Nat) (half : List Nat) (h_s : Kept q0 s) : AllO (fun x => Kept q0 x.2) (State.fillOne s t opB d g half) := by
  unfold State.fillOne
  repeat' (first | with_reducible assumption | with_reducible apply allO_some | with_reducible apply allO_none | with_reducible apply kept_ite | with_reducible apply kept_granMeet | with_reducible apply kept_popFlits | with_reducible apply kept_served | split | (with_reducible apply kept_of_some3; with_reducible assumption) | dsimp only)

theorem kept_bufFill {q0 : Base} (s : State) (t : Nat) (opB : Bool) (h_s : Kept q0 s) : Kept q0 (State.bufFill s t opB) := by
  unfold State.bufFill
  repeat' (first | with_reducible assumption | with_reducible apply kept_ite | with_reducible apply kept_fillOne | with_reducible apply kept_kill | with_reducible apply kept_modTile | with_reducible apply kept_portMet | split | (with_reducible apply kept_of_some2; with_reducible assumption) | (with_reducible apply kept_same; simp only [↓kept_mk, ↓keptF_self]))

theorem kept_execOperandBufferFill {q0 : Base} (t : Nat) (opB : Bool) (s : State) (h_s : Kept q0 s) : KeptX q0 (execOperandBufferFill t opB s) := by
  unfold execOperandBufferFill
  repeat' (first | with_reducible assumption | with_reducible apply keptX_run | with_reducible apply kept_bufFill)

theorem kept_dpFault {q0 : Base} (s : State) (t : Nat) (a : Nat) (unit : Nat) (addr : W64) (h_s : Kept q0 s) : Kept q0 (State.dpFault s t a unit addr) := by
  unfold State.dpFault
  repeat' (first | with_reducible assumption | with_reducible apply kept_bset | with_reducible apply kept_detect | with_reducible apply kept_isoSet | with_reducible apply kept_kill | with_reducible apply kept_modTile | with_reducible apply kept_setAccBad)

theorem kept_matStep {q0 : Base} (s : State) (t : Nat) (errs : List (Nat × Int)) (dup : Bool) (h_s : Kept q0 s) : Kept q0 (State.matStep s t errs dup) := by
  unfold State.matStep
  repeat' (first | with_reducible assumption | with_reducible apply kept_ite | with_reducible apply kept_dpFault | with_reducible apply kept_flag | with_reducible apply kept_kill | with_reducible apply kept_modTile | with_reducible apply kept_setAcc | with_reducible apply kept_setAccBad | split | (with_reducible apply kept_same; simp only [↓kept_mk, ↓keptF_self]))

theorem kept_execMatrixGranule {q0 : Base} (t : Nat) (mismatch : DpFaults) (s : State) (h_s : Kept q0 s) : KeptX q0 (execMatrixGranule t mismatch s) := by
  unfold execMatrixGranule
  repeat' (first | with_reducible assumption | with_reducible apply keptX_run | with_reducible apply kept_matStep)

end Sys2Proof.Machine
end

