-- ==== Sys2Proof/Laws/KeepVector.lean ====
section
/-! SUPPORT. What the operations of Machine/Vector.lean keep. -/

namespace Sys2Proof.Machine

theorem kept_vecCmd {q0 : Base} (t : Nat) (b : W64) (op : Nat) (s : State) (eff : State → State) (h_s : Kept q0 s) (h_eff : ∀ s, Kept q0 s → Kept q0 (eff s)) : KeptX q0 (vecCmd t b op s eff) := by
  unfold vecCmd
  repeat' (first | with_reducible assumption | with_reducible apply kept_slot | with_reducible apply kept_slotCmd)

theorem kept_lanes3 {q0 : Base} (s : State) (t : Nat) (v : Nat) (f : Nat → Nat → Nat → Nat × Nat) (h_s : Kept q0 s) : Kept q0 (State.lanes3 s t v f) := by
  unfold State.lanes3
  repeat' (first | with_reducible assumption | with_reducible apply kept_flagV | with_reducible apply kept_setVrow)

theorem kept_lanesI {q0 : Base} (s : State) (t : Nat) (v : Nat) (f : Nat → Nat → Nat → Nat) (h_s : Kept q0 s) : Kept q0 (State.lanesI s t v f) := by
  unfold State.lanesI
  repeat' (first | with_reducible assumption | with_reducible apply kept_lanes3)

theorem kept_splat {q0 : Base} (s : State) (t : Nat) (d : Nat) (r : Nat × Nat) (h_s : Kept q0 s) : Kept q0 (State.splat s t d r) := by
  unfold State.splat
  repeat' (first | with_reducible assumption | with_reducible apply kept_flagV | with_reducible apply kept_setVrow)

theorem kept_execVnop {q0 : Base} (t : Nat) (b : W64) (s : State) (h_s : Kept q0 s) : KeptX q0 (execVnop t b s) := by
  unfold execVnop
  repeat' (first | with_reducible assumption | with_reducible intro _ | with_reducible apply kept_id | with_reducible apply kept_vecCmd)

theorem kept_execVadd {q0 : Base} (t : Nat) (b : W64) (s : State) (h_s : Kept q0 s) : KeptX q0 (execVadd t b s) := by
  unfold execVadd
  repeat' (first | with_reducible assumption | with_reducible intro _ | with_reducible apply kept_lanes3 | with_reducible apply kept_vecCmd)

theorem kept_execVsub {q0 : Base} (t : Nat) (b : W64) (s : State) (h_s : Kept q0 s) : KeptX q0 (execVsub t b s) := by
  unfold execVsub
  repeat' (first | with_reducible assumption | with_reducible intro _ | with_reducible apply kept_lanes3 | with_reducible apply kept_vecCmd)

theorem kept_execVmul {q0 : Base} (t : Nat) (b : W64) (s : State) (h_s : Kept q0 s) : KeptX q0 (execVmul t b s) := by
  unfold execVmul
  repeat' (first | with_reducible assumption | with_reducible intro _ | with_reducible apply kept_lanes3 | with_reducible apply kept_vecCmd)

theorem kept_execVfma {q0 : Base} (t : Nat) (b : W64) (s : State) (h_s : Kept q0 s) : KeptX q0 (execVfma t b s) := by
  unfold execVfma
  repeat' (first | with_reducible assumption | with_reducible intro _ | with_reducible apply kept_lanes3 | with_reducible apply kept_vecCmd)

theorem kept_execVmin {q0 : Base} (t : Nat) (b : W64) (s : State) (h_s : Kept q0 s) : KeptX q0 (execVmin t b s) := by
  unfold execVmin
  repeat' (first | with_reducible assumption | with_reducible intro _ | with_reducible apply kept_lanesI | with_reducible apply kept_vecCmd)

theorem kept_execVmax {q0 : Base} (t : Nat) (b : W64) (s : State) (h_s : Kept q0 s) : KeptX q0 (execVmax t b s) := by
  unfold execVmax
  repeat' (first | with_reducible assumption | with_reducible intro _ | with_reducible apply kept_lanesI | with_reducible apply kept_vecCmd)

theorem kept_execVcgt {q0 : Base} (t : Nat) (b : W64) (s : State) (h_s : Kept q0 s) : KeptX q0 (execVcgt t b s) := by
  unfold execVcgt
  repeat' (first | with_reducible assumption | with_reducible intro _ | with_reducible apply kept_lanesI | with_reducible apply kept_vecCmd)

theorem kept_execVceq {q0 : Base} (t : Nat) (b : W64) (s : State) (h_s : Kept q0 s) : KeptX q0 (execVceq t b s) := by
  unfold execVceq
  repeat' (first | with_reducible assumption | with_reducible intro _ | with_reducible apply kept_lanesI | with_reducible apply kept_vecCmd)

theorem kept_execVsel {q0 : Base} (t : Nat) (b : W64) (s : State) (h_s : Kept q0 s) : KeptX q0 (execVsel t b s) := by
  unfold execVsel
  repeat' (first | with_reducible assumption | with_reducible intro _ | with_reducible apply kept_lanesI | with_reducible apply kept_vecCmd)

theorem kept_execViadd {q0 : Base} (t : Nat) (b : W64) (s : State) (h_s : Kept q0 s) : KeptX q0 (execViadd t b s) := by
  unfold execViadd
  repeat' (first | with_reducible assumption | with_reducible intro _ | with_reducible apply kept_lanesI | with_reducible apply kept_vecCmd)

theorem kept_execVisub {q0 : Base} (t : Nat) (b : W64) (s : State) (h_s : Kept q0 s) : KeptX q0 (execVisub t b s) := by
  unfold execVisub
  repeat' (first | with_reducible assumption | with_reducible intro _ | with_reducible apply kept_lanesI | with_reducible apply kept_vecCmd)

theorem kept_execVimul {q0 : Base} (t : Nat) (b : W64) (s : State) (h_s : Kept q0 s) : KeptX q0 (execVimul t b s) := by
  unfold execVimul
  repeat' (first | with_reducible assumption | with_reducible intro _ | with_reducible apply kept_lanesI | with_reducible apply kept_vecCmd)

theorem kept_execVand {q0 : Base} (t : Nat) (b : W64) (s : State) (h_s : Kept q0 s) : KeptX q0 (execVand t b s) := by
  unfold execVand
  repeat' (first | with_reducible assumption | with_reducible intro _ | with_reducible apply kept_lanesI | with_reducible apply kept_vecCmd)

theorem kept_execVor {q0 : Base} (t : Nat) (b : W64) (s : State) (h_s : Kept q0 s) : KeptX q0 (execVor t b s) := by
  unfold execVor
  repeat' (first | with_reducible assumption | with_reducible intro _ | with_reducible apply kept_lanesI | with_reducible apply kept_vecCmd)

theorem kept_execVxor {q0 : Base} (t : Nat) (b : W64) (s : State) (h_s : Kept q0 s) : KeptX q0 (execVxor t b s) := by
  unfold execVxor
  repeat' (first | with_reducible assumption | with_reducible intro _ | with_reducible apply kept_lanesI | with_reducible apply kept_vecCmd)

theorem kept_execVshl {q0 : Base} (t : Nat) (b : W64) (s : State) (h_s : Kept q0 s) : KeptX q0 (execVshl t b s) := by
  unfold execVshl
  repeat' (first | with_reducible assumption | with_reducible intro _ | with_reducible apply kept_lanesI | with_reducible apply kept_vecCmd)

theorem kept_execVshr {q0 : Base} (t : Nat) (b : W64) (s : State) (h_s : Kept q0 s) : KeptX q0 (execVshr t b s) := by
  unfold execVshr
  repeat' (first | with_reducible assumption | with_reducible intro _ | with_reducible apply kept_lanesI | with_reducible apply kept_vecCmd)

theorem kept_execVsra {q0 : Base} (t : Nat) (b : W64) (s : State) (h_s : Kept q0 s) : KeptX q0 (execVsra t b s) := by
  unfold execVsra
  repeat' (first | with_reducible assumption | with_reducible intro _ | with_reducible apply kept_lanesI | with_reducible apply kept_vecCmd)

theorem kept_execVexp2 {q0 : Base} (t : Nat) (b : W64) (s : State) (h_s : Kept q0 s) : KeptX q0 (execVexp2 t b s) := by
  unfold execVexp2
  repeat' (first | with_reducible assumption | with_reducible intro _ | with_reducible apply kept_lanes3 | with_reducible apply kept_vecCmd)

theorem kept_execVlog2 {q0 : Base} (t : Nat) (b : W64) (s : State) (h_s : Kept q0 s) : KeptX q0 (execVlog2 t b s) := by
  unfold execVlog2
  repeat' (first | with_reducible assumption | with_reducible intro _ | with_reducible apply kept_lanes3 | with_reducible apply kept_vecCmd)

theorem kept_execVrcp {q0 : Base} (t : Nat) (b : W64) (s : State) (h_s : Kept q0 s) : KeptX q0 (execVrcp t b s) := by
  unfold execVrcp
  repeat' (first | with_reducible assumption | with_reducible intro _ | with_reducible apply kept_lanes3 | with_reducible apply kept_vecCmd)

theorem kept_execVrsqrt {q0 : Base} (t : Nat) (b : W64) (s : State) (h_s : Kept q0 s) : KeptX q0 (execVrsqrt t b s) := by
  unfold execVrsqrt
  repeat' (first | with_reducible assumption | with_reducible intro _ | with_reducible apply kept_lanes3 | with_reducible apply kept_vecCmd)

theorem kept_execVrsum {q0 : Base} (t : Nat) (b : W64) (s : State) (h_s : Kept q0 s) : KeptX q0 (execVrsum t b s) := by
  unfold execVrsum
  repeat' (first | with_reducible assumption | with_reducible intro _ | with_reducible apply kept_splat | with_reducible apply kept_vecCmd)

theorem kept_execVrmax {q0 : Base} (t : Nat) (b : W64) (s : State) (h_s : Kept q0 s) : KeptX q0 (execVrmax t b s) := by
  unfold execVrmax
  repeat' (first | with_reducible assumption | with_reducible intro _ | with_reducible apply kept_splat | with_reducible apply kept_vecCmd)

theorem kept_execVmov {q0 : Base} (t : Nat) (b : W64) (s : State) (h_s : Kept q0 s) : KeptX q0 (execVmov t b s) := by
  unfold execVmov
  repeat' (first | with_reducible assumption | with_reducible intro _ | with_reducible apply kept_lanesI | with_reducible apply kept_vecCmd)

theorem kept_execVitof {q0 : Base} (t : Nat) (b : W64) (s : State) (h_s : Kept q0 s) : KeptX q0 (execVitof t b s) := by
  unfold execVitof
  repeat' (first | with_reducible assumption | with_reducible intro _ | with_reducible apply kept_lanes3 | with_reducible apply kept_vecCmd)

theorem kept_execVftoi {q0 : Base} (t : Nat) (b : W64) (s : State) (h_s : Kept q0 s) : KeptX q0 (execVftoi t b s) := by
  unfold execVftoi
  repeat' (first | with_reducible assumption | with_reducible intro _ | with_reducible apply kept_lanes3 | with_reducible apply kept_vecCmd)

theorem kept_cvtd {q0 : Base} (s : State) (t : Nat) (v : Nat) (h_s : Kept q0 s) : Kept q0 (State.cvtd s t v) := by
  unfold State.cvtd
  repeat' (first | with_reducible assumption | with_reducible apply kept_draws | with_reducible apply kept_flagV | with_reducible apply kept_setVrow)

theorem kept_cvtu {q0 : Base} (s : State) (t : Nat) (v : Nat) (h_s : Kept q0 s) : Kept q0 (State.cvtu s t v) := by
  unfold State.cvtu
  repeat' (first | with_reducible assumption | with_reducible apply kept_setVrow)

theorem kept_execVcvtd {q0 : Base} (t : Nat) (b : W64) (s : State) (h_s : Kept q0 s) : KeptX q0 (execVcvtd t b s) := by
  unfold execVcvtd
  repeat' (first | with_reducible assumption | with_reducible intro _ | with_reducible apply kept_cvtd | with_reducible apply kept_vecCmd)

theorem kept_execVcvtu {q0 : Base} (t : Nat) (b : W64) (s : State) (h_s : Kept q0 s) : KeptX q0 (execVcvtu t b s) := by
  unfold execVcvtu
  repeat' (first | with_reducible assumption | with_reducible intro _ | with_reducible apply kept_cvtu | with_reducible apply kept_vecCmd)

theorem kept_vld {q0 : Base} (s : State) (t : Nat) (v : Nat) (h_s : Kept q0 s) : Kept q0 (State.vld s t v) := by
  unfold State.vld
  repeat' (first | with_reducible assumption | with_reducible apply kept_ite | with_reducible apply kept_kill | with_reducible apply kept_lmMeetAt | with_reducible apply kept_served | with_reducible apply kept_setVrow | with_reducible apply kept_slotKill)

theorem kept_vst {q0 : Base} (s : State) (t : Nat) (v : Nat) (h_s : Kept q0 s) : Kept q0 (State.vst s t v) := by
  unfold State.vst
  repeat' (first | with_reducible assumption | with_reducible apply kept_ite | with_reducible apply kept_kill | with_reducible apply kept_seqStore | with_reducible apply kept_served)

theorem kept_latchGet {q0 : Base} (s : State) (t : Nat) (r : Nat) (x : W32) (h_s : Kept q0 s) : Kept q0 (State.latchGet s t r x) := by
  unfold State.latchGet
  repeat' (first | with_reducible assumption | with_reducible apply kept_modTile)

theorem kept_execVld {q0 : Base} (t : Nat) (b : W64) (s : State) (h_s : Kept q0 s) : KeptX q0 (execVld t b s) := by
  unfold execVld
  repeat' (first | with_reducible assumption | with_reducible intro _ | with_reducible apply kept_vecCmd | with_reducible apply kept_vld)

theorem kept_execVst {q0 : Base} (t : Nat) (b : W64) (s : State) (h_s : Kept q0 s) : KeptX q0 (execVst t b s) := by
  unfold execVst
  repeat' (first | with_reducible assumption | with_reducible intro _ | with_reducible apply kept_vecCmd | with_reducible apply kept_vst)

theorem kept_execVbc {q0 : Base} (t : Nat) (b : W64) (s : State) (h_s : Kept q0 s) : KeptX q0 (execVbc t b s) := by
  unfold execVbc
  repeat' (first | with_reducible assumption | with_reducible intro _ | with_reducible apply kept_splat | with_reducible apply kept_vecCmd)

theorem kept_execVget {q0 : Base} (t : Nat) (b : W64) (s : State) (h_s : Kept q0 s) : KeptX q0 (execVget t b s) := by
  unfold execVget
  repeat' (first | with_reducible assumption | with_reducible intro _ | with_reducible apply kept_latchGet | with_reducible apply kept_vecCmd)

theorem kept_execVput {q0 : Base} (t : Nat) (b : W64) (s : State) (h_s : Kept q0 s) : KeptX q0 (execVput t b s) := by
  unfold execVput
  repeat' (first | with_reducible assumption | with_reducible intro _ | with_reducible apply kept_setVrow | with_reducible apply kept_vecCmd)

theorem kept_sendFlits {q0 : Base} (s : State) (t : Nat) (p : Nat) (fs : List Flit) (h_s : Kept q0 s) : Kept q0 (State.sendFlits s t p fs) := by
  unfold State.sendFlits
  repeat' (first | with_reducible assumption | with_reducible intro _ | with_reducible apply kept_foldl | with_reducible apply kept_ite | with_reducible apply kept_fset | with_reducible apply kept_siteSend | split | (with_reducible apply kept_same; simp only [↓kept_mk, ↓keptF_self]))

theorem kept_pull {q0 : Base} (s : State) (t : Nat) (v : Nat) (h_s : Kept q0 s) : Kept q0 (State.pull s t v) := by
  unfold State.pull
  repeat' (first | with_reducible assumption | with_reducible apply kept_ite | with_reducible apply kept_popFlits | with_reducible apply kept_portMet | with_reducible apply kept_setVrow | with_reducible apply kept_slotKill)

theorem kept_push {q0 : Base} (s : State) (t : Nat) (v : Nat) (h_s : Kept q0 s) : Kept q0 (State.push s t v) := by
  unfold State.push
  repeat' (first | with_reducible assumption | with_reducible apply kept_ite | with_reducible apply kept_sendFlits | with_reducible apply kept_served | with_reducible apply kept_slotKill)

theorem kept_execPull {q0 : Base} (t : Nat) (b : W64) (s : State) (h_s : Kept q0 s) : KeptX q0 (execPull t b s) := by
  unfold execPull
  repeat' (first | with_reducible assumption | with_reducible intro _ | with_reducible apply kept_pull | with_reducible apply kept_vecCmd)

theorem kept_execPush {q0 : Base} (t : Nat) (b : W64) (s : State) (h_s : Kept q0 s) : KeptX q0 (execPush t b s) := by
  unfold execPush
  repeat' (first | with_reducible assumption | with_reducible intro _ | with_reducible apply kept_push | with_reducible apply kept_vecCmd)

theorem kept_accEnd {q0 : Base} (s : State) (t : Nat) (a : Nat) (par : Bool) (bad : Bool) (h_s : Kept q0 s) : Kept q0 (State.accEnd s t a par bad) := by
  unfold State.accEnd
  repeat' (first | with_reducible assumption | with_reducible apply kept_ite | with_reducible apply kept_dpFault | with_reducible apply kept_slotKill)

theorem kept_woConv {q0 : Base} (s : State) (t : Nat) (a : Nat) (f : Nat) (mode : Nat) (h_s : Kept q0 s) : Kept q0 (State.woConv s t a f mode).2 := by
  unfold State.woConv
  repeat' (first | with_reducible assumption | with_reducible apply kept_draws)

theorem kept_woPush {q0 : Base} (s : State) (t : Nat) (h_s : Kept q0 s) : Kept q0 (State.woPush s t) := by
  unfold State.woPush
  repeat' (first | with_reducible assumption | with_reducible apply kept_ite | with_reducible apply kept_bump | with_reducible apply kept_kill | with_reducible apply kept_modTile | with_reducible apply kept_sendFlits | split)

theorem kept_woRows {q0 : Base} (t : Nat) (w : W32) (n : Nat) (poison : Bool) : ∀ (i0 : Nat) (i1 : Nat) (i2 : List Byte) (s : State), Kept q0 s → Kept q0 (State.woRows s t w n poison i0 i1 i2) := by
  intro i0
  induction i0 with
  | zero =>
    intros
    unfold State.woRows
    repeat' with_reducible assumption
  | succ n ih =>
    intros
    unfold State.woRows
    repeat' (first | with_reducible assumption | with_reducible apply kept_seqStore | with_reducible apply ih)

theorem kept_vawr {q0 : Base} (s : State) (t : Nat) (v : Nat) (h_s : Kept q0 s) : Kept q0 (State.vawr s t v) := by
  unfold State.vawr
  repeat' (first | with_reducible assumption | with_reducible apply kept_ite | with_reducible apply kept_accEnd | with_reducible apply kept_dpFault | with_reducible apply kept_flagV | with_reducible apply kept_modTile | with_reducible apply kept_seqStore | with_reducible apply kept_served | with_reducible apply kept_slotKill | with_reducible apply kept_woConv | with_reducible apply kept_woPush | with_reducible apply kept_woRows)

theorem kept_vald {q0 : Base} (s : State) (t : Nat) (v : Nat) (h_s : Kept q0 s) : Kept q0 (State.vald s t v) := by
  unfold State.vald
  repeat' (first | with_reducible assumption | with_reducible intro _ | with_reducible apply kept_foldl | with_reducible apply kept_ite | with_reducible apply kept_lmMeetAt | with_reducible apply kept_served | with_reducible apply kept_setAcc | with_reducible apply kept_setAccBad | with_reducible apply kept_setTag | with_reducible apply kept_slotKill)

theorem kept_accOut {q0 : Base} (s : State) (t : Nat) (a : Nat) (rs : List (Nat × Nat)) (par : Bool) (bad : Bool) (h_s : Kept q0 s) : Kept q0 (State.accOut s t a rs par bad) := by
  unfold State.accOut
  repeat' (first | with_reducible assumption | with_reducible apply kept_ite | with_reducible apply kept_accEnd | with_reducible apply kept_flagV | with_reducible apply kept_setAcc | with_reducible apply kept_setAccBad)

theorem kept_vaadd {q0 : Base} (s : State) (t : Nat) (v : Nat) (h_s : Kept q0 s) : Kept q0 (State.vaadd s t v) := by
  unfold State.vaadd
  repeat' (first | with_reducible assumption | with_reducible apply kept_ite | with_reducible apply kept_accOut | with_reducible apply kept_slotKill)

theorem kept_varsc {q0 : Base} (s : State) (t : Nat) (v : Nat) (h_s : Kept q0 s) : Kept q0 (State.varsc s t v) := by
  unfold State.varsc
  repeat' (first | with_reducible assumption | with_reducible apply kept_ite | with_reducible apply kept_accOut | with_reducible apply kept_slotKill)

theorem kept_vafin {q0 : Base} (s : State) (t : Nat) (v : Nat) (h_s : Kept q0 s) : Kept q0 (State.vafin s t v) := by
  unfold State.vafin
  repeat' (first | with_reducible assumption | with_reducible apply kept_ite | with_reducible apply kept_accOut | with_reducible apply kept_slotKill)

theorem kept_setHalf {q0 : Base} (s : State) (t : Nat) (r : Nat) (vs : List Nat) (h_s : Kept q0 s) : Kept q0 (State.setHalf s t r vs) := by
  unfold State.setHalf
  repeat' (first | with_reducible assumption | with_reducible apply kept_setVrow)

theorem kept_vamax {q0 : Base} (s : State) (t : Nat) (v : Nat) (h_s : Kept q0 s) : Kept q0 (State.vamax s t v) := by
  unfold State.vamax
  repeat' (first | with_reducible assumption | with_reducible apply kept_ite | with_reducible apply kept_accEnd | with_reducible apply kept_setHalf | with_reducible apply kept_slotKill)

theorem kept_setHalves {q0 : Base} (t : Nat) (key : List Nat) : ∀ (i0 : List (Nat × List Nat)) (s : State), Kept q0 s → Kept q0 (State.setHalves s t key i0) := by
  intro i0
  induction i0 with
  | nil =>
    intros
    unfold State.setHalves
    repeat' with_reducible assumption
  | cons a l ih =>
    intros
    unfold State.setHalves
    repeat' (first | with_reducible assumption | with_reducible apply kept_ite | with_reducible apply kept_setHalf | with_reducible apply ih)

theorem kept_vsmu {q0 : Base} (s : State) (t : Nat) (v : Nat) (h_s : Kept q0 s) : Kept q0 (State.vsmu s t v) := by
  unfold State.vsmu
  repeat' (first | with_reducible assumption | with_reducible apply kept_ite | with_reducible apply kept_accEnd | with_reducible apply kept_flagV | with_reducible apply kept_setAcc | with_reducible apply kept_setHalves | with_reducible apply kept_slotKill)

theorem kept_vsmg {q0 : Base} (s : State) (t : Nat) (v : Nat) (h_s : Kept q0 s) : Kept q0 (State.vsmg s t v) := by
  unfold State.vsmg
  repeat' (first | with_reducible assumption | with_reducible apply kept_flagV | with_reducible apply kept_setHalves)

theorem kept_execVawr {q0 : Base} (t : Nat) (b : W64) (s : State) (h_s : Kept q0 s) : KeptX q0 (execVawr t b s) := by
  unfold execVawr
  repeat' (first | with_reducible assumption | with_reducible intro _ | with_reducible apply kept_vawr | with_reducible apply kept_vecCmd)

theorem kept_execVald {q0 : Base} (t : Nat) (b : W64) (s : State) (h_s : Kept q0 s) : KeptX q0 (execVald t b s) := by
  unfold execVald
  repeat' (first | with_reducible assumption | with_reducible intro _ | with_reducible apply kept_vald | with_reducible apply kept_vecCmd)

theorem kept_execVaadd {q0 : Base} (t : Nat) (b : W64) (s : State) (h_s : Kept q0 s) : KeptX q0 (execVaadd t b s) := by
  unfold execVaadd
  repeat' (first | with_reducible assumption | with_reducible intro _ | with_reducible apply kept_vaadd | with_reducible apply kept_vecCmd)

theorem kept_execVarsc {q0 : Base} (t : Nat) (b : W64) (s : State) (h_s : Kept q0 s) : KeptX q0 (execVarsc t b s) := by
  unfold execVarsc
  repeat' (first | with_reducible assumption | with_reducible intro _ | with_reducible apply kept_varsc | with_reducible apply kept_vecCmd)

theorem kept_execVafin {q0 : Base} (t : Nat) (b : W64) (s : State) (h_s : Kept q0 s) : KeptX q0 (execVafin t b s) := by
  unfold execVafin
  repeat' (first | with_reducible assumption | with_reducible intro _ | with_reducible apply kept_vafin | with_reducible apply kept_vecCmd)

theorem kept_execVamax {q0 : Base} (t : Nat) (b : W64) (s : State) (h_s : Kept q0 s) : KeptX q0 (execVamax t b s) := by
  unfold execVamax
  repeat' (first | with_reducible assumption | with_reducible intro _ | with_reducible apply kept_vamax | with_reducible apply kept_vecCmd)

theorem kept_execVsmu {q0 : Base} (t : Nat) (b : W64) (s : State) (h_s : Kept q0 s) : KeptX q0 (execVsmu t b s) := by
  unfold execVsmu
  repeat' (first | with_reducible assumption | with_reducible intro _ | with_reducible apply kept_vecCmd | with_reducible apply kept_vsmu)

theorem kept_execVsmg {q0 : Base} (t : Nat) (b : W64) (s : State) (h_s : Kept q0 s) : KeptX q0 (execVsmg t b s) := by
  unfold execVsmg
  repeat' (first | with_reducible assumption | with_reducible intro _ | with_reducible apply kept_vecCmd | with_reducible apply kept_vsmg)

end Sys2Proof.Machine
end

