-- ==== Sys2Proof/Laws/KeepStream.lean ====
section
/-! SUPPORT. What the operations of Machine/Stream.lean keep. -/

namespace Sys2Proof.Machine

theorem kept_execLmRequestAged {q0 : Base} (t : Nat) (requester : Nat) (refused : Nat) (s : State) (h_s : Kept q0 s) : KeptX q0 (execLmRequestAged t requester refused s) := by
  unfold execLmRequestAged
  repeat' (first | with_reducible assumption | with_reducible apply keptX_run | with_reducible apply kept_ite | with_reducible apply kept_modTile)

theorem kept_landRing {q0 : Base} (s : State) (t : Nat) (p : Nat) (f : Flit) (h_s : Kept q0 s) : Kept q0 (State.landRing s t p f) := by
  unfold State.landRing
  repeat' (first | with_reducible assumption | with_reducible apply kept_fset | with_reducible apply kept_lmWrite | with_reducible apply kept_served)

theorem kept_acceptFlit {q0 : Base} (s : State) (t : Nat) (p : Nat) (f : Flit) (h_s : Kept q0 s) : Kept q0 (State.acceptFlit s t p f) := by
  unfold State.acceptFlit
  repeat' (first | with_reducible assumption | with_reducible apply kept_ite | with_reducible apply kept_bset | with_reducible apply kept_fset | with_reducible apply kept_landRing | with_reducible apply kept_modTile)

theorem kept_dropFlit {q0 : Base} (s : State) (t : Nat) (p : Nat) (h_s : Kept q0 s) : Kept q0 (State.dropFlit s t p) := by
  unfold State.dropFlit
  repeat' (first | with_reducible assumption | with_reducible apply kept_creditBack | split | (with_reducible apply kept_same; simp only [↓kept_mk, ↓keptF_self]))

theorem kept_arrive {q0 : Base} (s : State) (t : Nat) (p : Nat) (f : Flit) (h_s : Kept q0 s) : Kept q0 (State.arrive s t p f) := by
  unfold State.arrive
  repeat' (first | with_reducible assumption | with_reducible apply kept_ite | with_reducible apply kept_acceptFlit | with_reducible apply kept_dropFlit | with_reducible apply kept_portMet | with_reducible apply kept_routerRead)

theorem kept_execStreamFlitArrival {q0 : Base} (t : Nat) (port : Nat) (f : Flit) (s : State) (h_s : Kept q0 s) : KeptX q0 (execStreamFlitArrival t port f s) := by
  unfold execStreamFlitArrival
  repeat' (first | with_reducible assumption | with_reducible apply keptX_run | with_reducible apply kept_ite | with_reducible apply kept_arrive | split | (with_reducible apply kept_same; simp only [↓kept_mk, ↓keptF_self]))

theorem kept_creditIn {q0 : Base} (s : State) (t : Nat) (p : Nat) (n : Nat) (h_s : Kept q0 s) : Kept q0 (State.creditIn s t p n) := by
  unfold State.creditIn
  repeat' (first | with_reducible assumption | with_reducible apply kept_ite | with_reducible apply kept_fset | with_reducible apply kept_woPush | split | (with_reducible apply kept_same; simp only [↓kept_mk, ↓keptF_self]))

theorem kept_execStreamCreditReturn {q0 : Base} (t : Nat) (port : Nat) (n : Nat) (s : State) (h_s : Kept q0 s) : KeptX q0 (execStreamCreditReturn t port n s) := by
  unfold execStreamCreditReturn
  repeat' (first | with_reducible assumption | with_reducible apply keptX_run | with_reducible apply kept_ite | with_reducible apply kept_creditIn | (with_reducible apply kept_same; simp only [↓kept_mk, ↓keptF_self]))

theorem kept_execContextKill {q0 : Base} (t : Nat) (cause : Nat) (unit : Nat) (detail : Nat) (addr : W64) (s : State) (h_s : Kept q0 s) : KeptX q0 (execContextKill t cause unit detail addr s) := by
  unfold execContextKill
  repeat' (first | with_reducible assumption | with_reducible apply keptX_run | with_reducible apply kept_ite | with_reducible apply kept_kill)

theorem kept_seqGo {q0 : Base} (s : State) (t : Nat) (h_s : Kept q0 s) : Kept q0 (State.seqGo s t) := by
  unfold State.seqGo
  repeat' (first | with_reducible assumption | with_reducible apply kept_ite | with_reducible apply kept_modTile | with_reducible apply kept_set | split)

theorem kept_seqCtrl {q0 : Base} (s : State) (t : Nat) (v : W32) (h_s : Kept q0 s) : Kept q0 (State.seqCtrl s t v) := by
  unfold State.seqCtrl
  repeat' (first | with_reducible assumption | with_reducible apply kept_ite | with_reducible apply kept_seqGo)

theorem kept_execSeqStart {q0 : Base} (t : Nat) (v : W32) (s : State) (h_s : Kept q0 s) : KeptX q0 (execSeqStart t v s) := by
  unfold execSeqStart
  repeat' (first | with_reducible assumption | with_reducible apply keptX_run | with_reducible apply kept_seqCtrl)

theorem kept_arithWr {q0 : Base} (s : State) (t : Nat) (v : W32) (h_s : Kept q0 s) : Kept q0 (State.arithWr s t v) := by
  unfold State.arithWr
  repeat' (first | with_reducible assumption | with_reducible apply kept_set)

theorem kept_execArithCtrlWrite {q0 : Base} (t : Nat) (v : W32) (s : State) (h_s : Kept q0 s) : KeptX q0 (execArithCtrlWrite t v s) := by
  unfold execArithCtrlWrite
  repeat' (first | with_reducible assumption | with_reducible apply keptX_run | with_reducible apply kept_arithWr)

theorem kept_seedWr {q0 : Base} (s : State) (t : Nat) (v : W32) (h_s : Kept q0 s) : Kept q0 (State.seedWr s t v) := by
  unfold State.seedWr
  repeat' (first | with_reducible assumption | with_reducible apply kept_modTile | with_reducible apply kept_set)

theorem kept_execSrSeedWrite {q0 : Base} (t : Nat) (v : W32) (s : State) (h_s : Kept q0 s) : KeptX q0 (execSrSeedWrite t v s) := by
  unfold execSrSeedWrite
  repeat' (first | with_reducible assumption | with_reducible apply keptX_run | with_reducible apply kept_seedWr)

theorem kept_dmaTailWr {q0 : Base} (s : State) (t : Nat) (n : Nat) (v : W32) (h_s : Kept q0 s) : Kept q0 (State.dmaTailWr s t n v) := by
  unfold State.dmaTailWr
  repeat' (first | with_reducible assumption | with_reducible apply kept_ite | with_reducible apply kept_set)

theorem kept_execDmaTailWrite {q0 : Base} (t : Nat) (n : Nat) (v : W32) (s : State) (h_s : Kept q0 s) : KeptX q0 (execDmaTailWrite t n v s) := by
  unfold execDmaTailWrite
  repeat' (first | with_reducible assumption | with_reducible apply keptX_run | with_reducible apply kept_dmaTailWr)

theorem kept_dmaCtrlWr {q0 : Base} (s : State) (t : Nat) (n : Nat) (v : W32) (h_s : Kept q0 s) : Kept q0 (State.dmaCtrlWr s t n v) := by
  unfold State.dmaCtrlWr
  repeat' (first | with_reducible assumption | with_reducible apply kept_ite | with_reducible apply kept_set)

theorem kept_execDmaCtrlWrite {q0 : Base} (t : Nat) (n : Nat) (v : W32) (s : State) (h_s : Kept q0 s) : KeptX q0 (execDmaCtrlWrite t n v s) := by
  unfold execDmaCtrlWrite
  repeat' (first | with_reducible assumption | with_reducible apply keptX_run | with_reducible apply kept_dmaCtrlWr)

end Sys2Proof.Machine
end

