-- ==== Sys2Proof/Laws/KeepSync.lean ====
section
/-! SUPPORT. What the operations of Machine/Sync.lean keep. -/

namespace Sys2Proof.Machine

theorem kept_actionWr {q0 : Base} (s : State) (obj : Nat) (k : Nat) (v : W64) (h_s : Kept q0 s) : Kept q0 (State.actionWr s obj k v) := by
  unfold State.actionWr
  repeat' (first | with_reducible assumption | with_reducible apply kept_ite | with_reducible apply kept_fire | with_reducible apply kept_set)

theorem kept_threshWr {q0 : Base} (s : State) (obj : Nat) (k : Nat) (v : W64) (h_s : Kept q0 s) : Kept q0 (State.threshWr s obj k v) := by
  unfold State.threshWr
  repeat' (first | with_reducible assumption | with_reducible apply kept_set)

theorem kept_syncTakeRd {q0 : Base} (s : State) (obj : Nat) (h_s : Kept q0 s) : Kept q0 (State.syncTakeRd s obj).2 := by
  unfold State.syncTakeRd
  repeat' (first | with_reducible assumption | with_reducible apply kept_syncSet)

theorem kept_syncAtomic {q0 : Base} (s : State) (obj : Nat) (aop : Nat) (operand : W64) (compare : W64) (h_s : Kept q0 s) : Kept q0 (State.syncAtomic s obj aop operand compare).2 := by
  unfold State.syncAtomic
  repeat' (first | with_reducible assumption | with_reducible apply kept_syncSet)

theorem kept_syncPageWr {q0 : Base} (s : State) (obj : Nat) (off : Nat) (n : Nat) (v : Nat) (h_s : Kept q0 s) : Kept q0 (State.syncPageWr s obj off n v) := by
  unfold State.syncPageWr
  repeat' (first | with_reducible assumption | with_reducible apply kept_ite | with_reducible apply kept_actionWr | with_reducible apply kept_set | with_reducible apply kept_syncAdd | with_reducible apply kept_syncSet | with_reducible apply kept_threshWr)

theorem kept_syncPageRd {q0 : Base} (s : State) (obj : Nat) (off : Nat) (n : Nat) (h_s : Kept q0 s) : Kept q0 (State.syncPageRd s obj off n).2 := by
  unfold State.syncPageRd
  repeat' (first | with_reducible assumption | with_reducible apply kept_syncAfter | with_reducible apply kept_syncTakeRd | with_reducible apply kept_syncTally | split)

theorem kept_execSyncCountWrite {q0 : Base} (obj : Nat) (v : W64) (s : State) (h_s : Kept q0 s) : KeptX q0 (execSyncCountWrite obj v s) := by
  unfold execSyncCountWrite
  repeat' (first | with_reducible assumption | with_reducible apply keptX_run | with_reducible apply kept_syncSet)

theorem kept_execSyncAdd {q0 : Base} (obj : Nat) (v : W64) (s : State) (h_s : Kept q0 s) : KeptX q0 (execSyncAdd obj v s) := by
  unfold execSyncAdd
  repeat' (first | with_reducible assumption | with_reducible apply keptX_run | with_reducible apply kept_syncAdd)

theorem kept_execSyncTake {q0 : Base} (m : Master) (obj : Nat) (s : State) (h_s : Kept q0 s) : KeptX q0 (execSyncTake m obj s) := by
  unfold execSyncTake
  repeat' (first | with_reducible assumption | with_reducible apply keptX_run | with_reducible apply kept_ite | with_reducible apply kept_emit | with_reducible apply kept_syncTakeRd)

theorem kept_execNotifierActionWrite {q0 : Base} (obj : Nat) (k : Nat) (v : W64) (s : State) (h_s : Kept q0 s) : KeptX q0 (execNotifierActionWrite obj k v s) := by
  unfold execNotifierActionWrite
  repeat' (first | with_reducible assumption | with_reducible apply keptX_run | with_reducible apply kept_actionWr)

theorem kept_execNotifierThreshWrite {q0 : Base} (obj : Nat) (k : Nat) (v : W64) (s : State) (h_s : Kept q0 s) : KeptX q0 (execNotifierThreshWrite obj k v s) := by
  unfold execNotifierThreshWrite
  repeat' (first | with_reducible assumption | with_reducible apply keptX_run | with_reducible apply kept_threshWr)

theorem kept_waitRelease {q0 : Base} (s : State) (t : Nat) (h_s : Kept q0 s) : Kept q0 (State.waitRelease s t) := by
  unfold State.waitRelease
  repeat' (first | with_reducible assumption | with_reducible apply kept_ite | with_reducible apply kept_modTile | (with_reducible apply kept_same; simp only [↓kept_mk, ↓keptF_self]))

theorem kept_execWaitRelease {q0 : Base} (t : Nat) (s : State) (h_s : Kept q0 s) : KeptX q0 (execWaitRelease t s) := by
  unfold execWaitRelease
  repeat' (first | with_reducible assumption | with_reducible apply keptX_run | with_reducible apply kept_waitRelease)

theorem kept_syncClaim {q0 : Base} (s : State) (first : Nat) (n : Nat) (owner : Nat) (handle : Nat) (h_s : Kept q0 s) : Kept q0 (State.syncClaim s first n owner handle) := by
  unfold State.syncClaim
  repeat' (first | with_reducible assumption | with_reducible intro _ | with_reducible apply kept_foldl | with_reducible apply kept_syncClear)

theorem kept_execFabSyncReserve {q0 : Base} (q : Req) (count : Nat) (s : State) (h_s : Kept q0 s) : KeptX q0 (execFabSyncReserve q count s) := by
  unfold execFabSyncReserve
  repeat' (first | with_reducible assumption | with_reducible intro _ | with_reducible apply keptA_done | with_reducible apply keptX_run | with_reducible apply keptA_ite | with_reducible apply kept_axotte | with_reducible apply kept_invalid | with_reducible apply kept_refuse | with_reducible apply kept_syncClaim | split)

theorem kept_execFabSyncReserveExpert {q0 : Base} (q : Req) (first : Nat) (count : Nat) (s : State) (h_s : Kept q0 s) : KeptX q0 (execFabSyncReserveExpert q first count s) := by
  unfold execFabSyncReserveExpert
  repeat' (first | with_reducible assumption | with_reducible intro _ | with_reducible apply keptA_done | with_reducible apply keptX_run | with_reducible apply keptA_ite | with_reducible apply kept_axotte | with_reducible apply kept_invalid | with_reducible apply kept_refuse | with_reducible apply kept_syncClaim)

theorem kept_execFabSyncRelease {q0 : Base} (q : Req) (first : Nat) (count : Nat) (s : State) (h_s : Kept q0 s) : KeptX q0 (execFabSyncRelease q first count s) := by
  unfold execFabSyncRelease
  repeat' (first | with_reducible assumption | with_reducible intro _ | with_reducible apply keptA_done | with_reducible apply keptX_run | with_reducible apply keptA_ite | with_reducible apply kept_axotte | with_reducible apply kept_invalid | with_reducible apply kept_refuse | with_reducible apply kept_syncClaim)

end Sys2Proof.Machine
end

