-- ==== Sys2Proof/Laws/KeepFar.lean ====
section
/-! SUPPORT. What the operations of Machine/Far.lean keep. -/

namespace Sys2Proof.Machine

theorem kept_hostAsk {q0 : Base} (s : State) (why : Purp) (k : ReqK) (a : Nat) (n : Nat) (bs : List Byte) (h_s : Kept q0 s) : Kept q0 (State.hostAsk s why k a n bs) := by
  unfold State.hostAsk
  repeat' (first | with_reducible assumption | with_reducible apply kept_emit | (with_reducible apply kept_same; simp only [↓kept_mk, ↓keptF_self]))

theorem kept_siteAsk {q0 : Base} (s : State) (why : Purp) (k : ReqK) (a : Nat) (n : Nat) (tc : Nat) (bs : List Byte) (poison : Bool) (aop : Nat) (size : Nat) (h_s : Kept q0 s) : Kept q0 (State.siteAsk s why k a n tc bs poison aop size) := by
  unfold State.siteAsk
  repeat' (first | with_reducible assumption | with_reducible apply kept_ite | with_reducible apply kept_siteSend | split | (with_reducible apply kept_same; simp only [↓kept_mk, ↓keptF_self]))

theorem kept_farAsk {q0 : Base} (s : State) (g : Nat) (n : Nat) (tc : Nat) (h_s : Kept q0 s) : Kept q0 (State.farAsk s g n tc) := by
  unfold State.farAsk
  repeat' (first | with_reducible assumption | with_reducible intro _ | with_reducible apply kept_foldl | with_reducible apply kept_ite | with_reducible apply kept_hostAsk | with_reducible apply kept_siteAsk | with_reducible apply kept_tksAsk | split | (with_reducible apply kept_of_sent; with_reducible assumption) | (with_reducible apply kept_same; simp only [↓kept_mk, ↓keptF_self]))

theorem kept_gGot {q0 : Base} (s : State) (g : Nat) (n : Nat) (data : List Byte) (poison : Bool) (err : Nat) (h_s : Kept q0 s) : Kept q0 (State.gGot s g n data poison err) := by
  unfold State.gGot
  repeat' (first | with_reducible assumption | (with_reducible apply kept_same; simp only [↓kept_mk, ↓keptF_self]))

theorem kept_farUsed {q0 : Base} (s : State) (g : Nat) (n : Nat) (h_s : Kept q0 s) : Kept q0 (State.farUsed s g n) := by
  unfold State.farUsed
  repeat' (first | with_reducible assumption | (with_reducible apply kept_same; simp only [↓kept_mk, ↓keptF_self]))

theorem kept_withImage {q0 : Base} (s : State) (g : W64) (n : Nat) (f : State → Option (List Byte) → AxR) (h_s : Kept q0 s) (h_f : ∀ s x, Kept q0 s → KeptA q0 (f s x)) : KeptA q0 (State.withImage s g n f) := by
  unfold State.withImage
  repeat' (first | with_reducible assumption | with_reducible apply keptA_hold | with_reducible apply kept_ite | with_reducible apply keptA_ite | with_reducible apply kept_farAsk | with_reducible apply kept_farUsed | with_reducible apply kept_hole | with_reducible apply h_f)

end Sys2Proof.Machine
end

