-- ==== Sys2Proof/Laws/KeepFabric.lean ====
section
/-! SUPPORT. What the operations of Machine/Fabric.lean keep. -/

namespace Sys2Proof.Machine

theorem kept_drsLoad {q0 : Base} (s : State) (g : W64) (size : Nat) (ctx : Nat) (o : LoadOpt) (h_s : Kept q0 s) : KeptA q0 (State.drsLoad s g size ctx o) := by
  unfold State.drsLoad
  repeat' (first | with_reducible assumption | with_reducible intro _ | with_reducible apply kept_foldl | with_reducible apply keptA_done | with_reducible apply keptA_refuse | with_reducible apply keptA_ite | with_reducible apply kept_fset | with_reducible apply kept_measCommit | with_reducible apply kept_refuse | with_reducible apply kept_withImage | split | (with_reducible apply kept_same; simp only [↓kept_mk, ↓keptF_self]) | dsimp only)

theorem kept_execFabDrsLoad {q0 : Base} (q : Req) (image : W64) (size : Nat) (ctx : Nat) (s : State) (h_s : Kept q0 s) : KeptX q0 (execFabDrsLoad q image size ctx s) := by
  unfold execFabDrsLoad
  repeat' (first | with_reducible assumption | with_reducible intro _ | with_reducible apply keptX_run | with_reducible apply keptA_ite | with_reducible apply kept_axotte | with_reducible apply kept_drsLoad | with_reducible apply kept_invalid)

theorem kept_execFabDrsLoadExpert {q0 : Base} (q : Req) (image : W64) (size : Nat) (ctx : Nat) (lbase : Nat) (sbase : Nat) (swap : Nat) (oversub : Bool) (s : State) (h_s : Kept q0 s) : KeptX q0 (execFabDrsLoadExpert q image size ctx lbase sbase swap oversub s) := by
  unfold execFabDrsLoadExpert
  repeat' (first | with_reducible assumption | with_reducible intro _ | with_reducible apply keptX_run | with_reducible apply keptA_ite | with_reducible apply kept_axotte | with_reducible apply kept_drsLoad | with_reducible apply kept_invalid)

theorem kept_putD {q0 : Base} (s : State) (h : Nat) (d : Dressing) (h_s : Kept q0 s) : Kept q0 (State.putD s h d) := by
  unfold State.putD
  repeat' (first | with_reducible assumption | (with_reducible apply kept_same; simp only [↓kept_mk, ↓keptF_self]))

theorem kept_copySegs {q0 : Base} (s : State) (d : Dressing) (gs : List Seg) (h_s : Kept q0 s) : Kept q0 (State.copySegs s d gs) := by
  unfold State.copySegs
  repeat' (first | with_reducible assumption | with_reducible intro _ | with_reducible apply kept_foldl | with_reducible apply kept_lmWrite)

theorem kept_freeSegs {q0 : Base} (s : State) (d : Dressing) (gs : List (Nat × Nat × Nat)) (h_s : Kept q0 s) : Kept q0 (State.freeSegs s d gs) := by
  unfold State.freeSegs
  repeat' (first | with_reducible assumption | with_reducible intro _ | with_reducible apply kept_foldl | with_reducible apply kept_lmWrite | (with_reducible apply kept_same; simp only [↓kept_mk, ↓keptF_self]))

theorem kept_presetTile {q0 : Base} (s : State) (p : Nat) (r : List Byte) (h_s : Kept q0 s) : Kept q0 (State.presetTile s p r) := by
  unfold State.presetTile
  repeat' (first | with_reducible assumption | with_reducible intro _ | with_reducible apply kept_foldl | with_reducible apply kept_arithWr | with_reducible apply kept_seedWr | with_reducible apply kept_set)

theorem kept_presets {q0 : Base} (s : State) (d : Dressing) (img : List Byte) (h_s : Kept q0 s) : Kept q0 (State.presets s d img) := by
  unfold State.presets
  repeat' (first | with_reducible assumption | with_reducible intro _ | with_reducible apply kept_foldl | with_reducible apply kept_lmWrite | with_reducible apply kept_presetTile | with_reducible apply kept_set | with_reducible apply kept_setSr | with_reducible apply kept_syncSet)

theorem kept_undoPresets {q0 : Base} (s : State) (d : Dressing) (h_s : Kept q0 s) : Kept q0 (State.undoPresets s d) := by
  unfold State.undoPresets
  repeat' (first | with_reducible assumption | with_reducible intro _ | with_reducible apply kept_foldl | with_reducible apply kept_modTile | with_reducible apply kept_set | with_reducible apply kept_syncSet)

theorem kept_bindStream {q0 : Base} (s : State) (d : Dressing) (x : DStream) (h_s : Kept q0 s) : Kept q0 (State.bindStream s d x) := by
  unfold State.bindStream
  repeat' (first | with_reducible assumption | with_reducible apply kept_ite | with_reducible apply kept_modTile | with_reducible apply kept_set)

theorem kept_unbindTile {q0 : Base} (s : State) (q : Nat) (h_s : Kept q0 s) : Kept q0 (State.unbindTile s q) := by
  unfold State.unbindTile
  repeat' (first | with_reducible assumption | with_reducible intro _ | with_reducible apply kept_foldl | with_reducible apply kept_modTile | with_reducible apply kept_set | (with_reducible apply kept_same; simp only [↓kept_mk, ↓keptF_self]))

theorem kept_sendUnbinds {q0 : Base} (s : State) (d : Dressing) (h_s : Kept q0 s) : Kept q0 (State.sendUnbinds s d) := by
  unfold State.sendUnbinds
  repeat' (first | with_reducible assumption | with_reducible intro _ | with_reducible apply kept_foldl | with_reducible apply kept_siteSend | split)

theorem kept_actFinish {q0 : Base} (s : State) (h : Nat) (d : Dressing) (h_s : Kept q0 s) : Kept q0 (State.actFinish s h d) := by
  unfold State.actFinish
  repeat' (first | with_reducible assumption | with_reducible intro _ | with_reducible apply kept_foldl | with_reducible apply kept_ite | with_reducible apply kept_putD | with_reducible apply kept_seqGo | with_reducible apply kept_signal)

theorem kept_actUndo {q0 : Base} (s : State) (h : Nat) (d : Dressing) (e : Nat) (h_s : Kept q0 s) : Kept q0 (State.actUndo s h d e) := by
  unfold State.actUndo
  repeat' (first | with_reducible assumption | with_reducible intro _ | with_reducible apply kept_foldl | with_reducible apply kept_freeSegs | with_reducible apply kept_putD | with_reducible apply kept_unbindTile | with_reducible apply kept_undoPresets)

theorem kept_activate {q0 : Base} (s : State) (h : Nat) (m : Nat) (obj : Nat) (hold : Bool) (d : Dressing) (h_s : Kept q0 s) : KeptA q0 (State.activate s h m obj hold d) := by
  unfold State.activate
  repeat' (first | with_reducible assumption | with_reducible intro _ | with_reducible apply kept_foldl | with_reducible apply keptA_done | with_reducible apply keptA_wait | with_reducible apply keptA_ite | with_reducible apply kept_actFinish | with_reducible apply kept_bindStream | with_reducible apply kept_copySegs | with_reducible apply kept_freeSegs | with_reducible apply kept_presets | with_reducible apply kept_putD | with_reducible apply kept_refuse | with_reducible apply kept_siteSend | with_reducible apply kept_withImage | split | (with_reducible apply kept_same; simp only [↓kept_mk, ↓keptF_self]))

theorem kept_onHandle {q0 : Base} (s : State) (h : Nat) (f : Dressing → AxR) (h_s : Kept q0 s) (h_f : ∀ d, KeptA q0 (f d)) : KeptA q0 (onHandle s h f) := by
  unfold onHandle
  repeat' (first | with_reducible assumption | with_reducible apply keptA_ite | with_reducible apply kept_busy | with_reducible apply kept_invalid | with_reducible apply kept_refuse | with_reducible apply h_f | split)

theorem kept_execFabDrsActivate {q0 : Base} (q : Req) (h : Nat) (obj : Nat) (s : State) (h_s : Kept q0 s) : KeptX q0 (execFabDrsActivate q h obj s) := by
  unfold execFabDrsActivate
  repeat' (first | with_reducible assumption | with_reducible intro _ | with_reducible apply keptX_run | with_reducible apply keptA_ite | with_reducible apply kept_activate | with_reducible apply kept_axotte | with_reducible apply kept_invalid | with_reducible apply kept_onHandle)

theorem kept_execFabDrsActivateExpert {q0 : Base} (q : Req) (h : Nat) (obj : Nat) (hold : Bool) (s : State) (h_s : Kept q0 s) : KeptX q0 (execFabDrsActivateExpert q h obj hold s) := by
  unfold execFabDrsActivateExpert
  repeat' (first | with_reducible assumption | with_reducible intro _ | with_reducible apply keptX_run | with_reducible apply keptA_ite | with_reducible apply kept_activate | with_reducible apply kept_axotte | with_reducible apply kept_invalid | with_reducible apply kept_onHandle)

theorem kept_AxR_finish {q0 : Base} (m : Nat) (x : AxR) (h : KeptA q0 x) : Kept q0 (AxR.finish m x) := by
  cases x with
  | done s d p => exact kept_axFinish _ _ _ _ _ (kept_of_done rfl h)
  | fail s st d => exact kept_axFinish _ _ _ _ _ (kept_of_fail rfl h)
  | refuse s d p => exact kept_axFinish _ _ _ _ _ (kept_of_refuse rfl h)
  | wait s => exact kept_of_wait rfl h
  | again s n => exact kept_axFinish _ _ _ _ _ (kept_of_again rfl h)
  | hold s => exact kept_of_hold rfl h

theorem kept_sgrant {q0 : Base} (s : State) (site : Nat) (stream : Nat) (n : Nat) (h_s : Kept q0 s) : Kept q0 (State.sgrant s site stream n) := by
  unfold State.sgrant
  repeat' (first | with_reducible assumption | with_reducible apply kept_ite | with_reducible apply kept_actFinish | with_reducible apply kept_axFinish | with_reducible apply kept_fset | with_reducible apply kept_putD | split | (with_reducible apply kept_same; simp only [↓kept_mk, ↓keptF_self]))

theorem kept_execSgrant {q0 : Base} (site : Nat) (stream : Nat) (n : Nat) (s : State) (h_s : Kept q0 s) : KeptX q0 (execSgrant site stream n s) := by
  unfold execSgrant
  repeat' (first | with_reducible assumption | with_reducible apply keptX_run | with_reducible apply kept_sgrant)

theorem kept_sgrantTimeout {q0 : Base} (s : State) (h : Nat) (site : Nat) (h_s : Kept q0 s) : Kept q0 (State.sgrantTimeout s h site) := by
  unfold State.sgrantTimeout
  repeat' (first | with_reducible assumption | with_reducible apply kept_ite | with_reducible apply kept_actUndo | with_reducible apply kept_axFinish | with_reducible apply kept_sendUnbinds | split)

theorem kept_execSgrantTimeout {q0 : Base} (h : Nat) (site : Nat) (s : State) (h_s : Kept q0 s) : KeptX q0 (execSgrantTimeout h site s) := by
  unfold execSgrantTimeout
  repeat' (first | with_reducible assumption | with_reducible apply keptX_run | with_reducible apply kept_sgrantTimeout)

theorem kept_execSflit {q0 : Base} (site : Nat) (stream : Nat) (f : Flit) (s : State) (h_s : Kept q0 s) : KeptX q0 (execSflit site stream f s) := by
  unfold execSflit
  repeat' (first | with_reducible assumption | with_reducible apply keptX_run | with_reducible apply kept_arrive | split)

theorem kept_execScredit {q0 : Base} (site : Nat) (stream : Nat) (n : Nat) (s : State) (h_s : Kept q0 s) : KeptX q0 (execScredit site stream n s) := by
  unfold execScredit
  repeat' (first | with_reducible assumption | with_reducible apply keptX_run | with_reducible apply kept_creditIn | split)

theorem kept_matDrain {q0 : Base} (t : Nat) : ∀ (i0 : Nat) (s : State), Kept q0 s → Kept q0 (State.matDrain s t i0) := by
  intro i0
  induction i0 with
  | zero =>
    intros
    unfold State.matDrain
    repeat' with_reducible assumption
  | succ n ih =>
    intros
    unfold State.matDrain
    repeat' (first | with_reducible assumption | with_reducible apply kept_bufFill | with_reducible apply kept_matStep | with_reducible apply ih)

theorem kept_haltTile {q0 : Base} (s : State) (t : Nat) (h_s : Kept q0 s) : Kept q0 (State.haltTile s t) := by
  unfold State.haltTile
  repeat' (first | with_reducible assumption | with_reducible intro _ | with_reducible apply kept_foldl | with_reducible apply kept_bset | with_reducible apply kept_dropWaiter | with_reducible apply kept_matDrain | with_reducible apply kept_modTile | with_reducible apply kept_set | (with_reducible apply kept_same; simp only [↓kept_mk, ↓keptF_self]))

theorem kept_stopTile {q0 : Base} (s : State) (t : Nat) (h_s : Kept q0 s) : Kept q0 (State.stopTile s t) := by
  unfold State.stopTile
  repeat' (first | with_reducible assumption | with_reducible intro _ | with_reducible apply kept_foldl | with_reducible apply kept_modTile | with_reducible apply kept_tlbDrop)

theorem kept_landAll {q0 : Base} (s : State) (t : Nat) (p : Nat) (h_s : Kept q0 s) : Kept q0 (State.landAll s t p) := by
  unfold State.landAll
  repeat' (first | with_reducible assumption | with_reducible intro _ | with_reducible apply kept_foldl | with_reducible apply kept_arrive | (with_reducible apply kept_same; simp only [↓kept_mk, ↓keptF_self]))

theorem kept_laneDetach {q0 : Base} (s : State) (k : Nat) (h_s : Kept q0 s) : Kept q0 (State.laneDetach s k) := by
  unfold State.laneDetach
  repeat' (first | with_reducible assumption | with_reducible apply kept_landAll | with_reducible apply kept_set | split | (with_reducible apply kept_same; simp only [↓kept_mk, ↓keptF_self]))

theorem kept_detachAll {q0 : Base} (s : State) (h : Nat) (h_s : Kept q0 s) : Kept q0 (State.detachAll s h) := by
  unfold State.detachAll
  repeat' (first | with_reducible assumption | with_reducible intro _ | with_reducible apply kept_foldl | with_reducible apply kept_laneDetach | with_reducible apply kept_putD | split | (with_reducible apply kept_same; simp only [↓kept_mk, ↓keptF_self]))

theorem kept_drsRelease {q0 : Base} (s : State) (h : Nat) (d : Dressing) (h_s : Kept q0 s) : Kept q0 (State.drsRelease s h d) := by
  unfold State.drsRelease
  repeat' (first | with_reducible assumption | with_reducible apply kept_detachAll | with_reducible apply kept_measCommit | with_reducible apply kept_syncClaim | (with_reducible apply kept_same; simp only [↓kept_mk, ↓keptF_self]))

theorem kept_creditsBack {q0 : Base} (s : State) (d : Dressing) (h_s : Kept q0 s) : Kept q0 (State.creditsBack s d).1 := by
  unfold State.creditsBack
  repeat' (first | with_reducible assumption | with_reducible intro _ | with_reducible apply kept_foldl_fst | with_reducible apply kept_breach | split)

theorem kept_stopDone {q0 : Base} (s : State) (h : Nat) (d : Dressing) (h_s : Kept q0 s) : Kept q0 (State.stopDone s h d) := by
  unfold State.stopDone
  repeat' (first | with_reducible assumption | with_reducible apply kept_ite | with_reducible apply kept_activate | with_reducible apply kept_axFinish | with_reducible apply kept_drsRelease | with_reducible apply kept_AxR_finish | with_reducible apply kept_putD | split)

theorem kept_stopEnd {q0 : Base} (s : State) (h : Nat) (d : Dressing) (h_s : Kept q0 s) : Kept q0 (State.stopEnd s h d) := by
  unfold State.stopEnd
  repeat' (first | with_reducible assumption | with_reducible intro _ | with_reducible apply kept_foldl | with_reducible apply kept_ite | with_reducible apply kept_creditsBack | with_reducible apply kept_farAsk | with_reducible apply kept_killCtx | with_reducible apply kept_putD | with_reducible apply kept_stopDone | with_reducible apply kept_unbindTile | split)

theorem kept_stopUnbind {q0 : Base} (s : State) (h : Nat) (d : Dressing) (h_s : Kept q0 s) : Kept q0 (State.stopUnbind s h d) := by
  unfold State.stopUnbind
  repeat' (first | with_reducible assumption | with_reducible apply kept_ite | with_reducible apply kept_putD | with_reducible apply kept_sendUnbinds | with_reducible apply kept_stopEnd)

theorem kept_stopTiles {q0 : Base} (s : State) (h : Nat) (d : Dressing) (h_s : Kept q0 s) : Kept q0 (State.stopTiles s h d) := by
  unfold State.stopTiles
  repeat' (first | with_reducible assumption | with_reducible intro _ | with_reducible apply kept_foldl | with_reducible apply kept_ite | with_reducible apply kept_putD | with_reducible apply kept_stopTile | with_reducible apply kept_stopUnbind)

theorem kept_stopPhase {q0 : Base} (s : State) (h : Nat) (h_s : Kept q0 s) : Kept q0 (State.stopPhase s h) := by
  unfold State.stopPhase
  repeat' (first | with_reducible assumption | with_reducible intro _ | with_reducible apply kept_foldl | with_reducible apply kept_ite | with_reducible apply kept_detachAll | with_reducible apply kept_haltTile | with_reducible apply kept_stopEnd | with_reducible apply kept_stopTiles | split | (with_reducible apply kept_same; simp only [↓kept_mk, ↓keptF_self]))

theorem kept_execDrsStopPhase {q0 : Base} (h : Nat) (s : State) (h_s : Kept q0 s) : KeptX q0 (execDrsStopPhase h s) := by
  unfold execDrsStopPhase
  repeat' (first | with_reducible assumption | with_reducible apply keptX_run | with_reducible apply kept_stopPhase)

theorem kept_execDrsDrainTimeout {q0 : Base} (h : Nat) (s : State) (h_s : Kept q0 s) : KeptX q0 (execDrsDrainTimeout h s) := by
  unfold execDrsDrainTimeout
  repeat' (first | with_reducible assumption | with_reducible apply keptX_run | with_reducible apply kept_ite | with_reducible apply kept_putD | split)

theorem kept_sunbound {q0 : Base} (s : State) (site : Nat) (stream : Nat) (n : Nat) (h_s : Kept q0 s) : Kept q0 (State.sunbound s site stream n) := by
  unfold State.sunbound
  repeat' (first | with_reducible assumption | with_reducible apply kept_ite | with_reducible apply kept_putD | with_reducible apply kept_stopEnd | split)

theorem kept_execSunbound {q0 : Base} (site : Nat) (stream : Nat) (n : Nat) (s : State) (h_s : Kept q0 s) : KeptX q0 (execSunbound site stream n s) := by
  unfold execSunbound
  repeat' (first | with_reducible assumption | with_reducible apply keptX_run | with_reducible apply kept_sunbound)

theorem kept_sunboundTimeout {q0 : Base} (s : State) (h : Nat) (site : Nat) (h_s : Kept q0 s) : Kept q0 (State.sunboundTimeout s h site) := by
  unfold State.sunboundTimeout
  repeat' (first | with_reducible assumption | with_reducible apply kept_ite | with_reducible apply kept_log' | with_reducible apply kept_putD | with_reducible apply kept_stopEnd | split | (with_reducible apply kept_same; simp only [↓kept_mk, ↓keptF_self]))

theorem kept_execSunboundTimeout {q0 : Base} (h : Nat) (site : Nat) (s : State) (h_s : Kept q0 s) : KeptX q0 (execSunboundTimeout h site s) := by
  unfold execSunboundTimeout
  repeat' (first | with_reducible assumption | with_reducible apply keptX_run | with_reducible apply kept_sunboundTimeout)

theorem kept_deactivate {q0 : Base} (s : State) (h : Nat) (m : Nat) (drain : Nat) (d : Dressing) (swap : Option Nat) (unload : Bool) (h_s : Kept q0 s) : Kept q0 (State.deactivate s h m drain d swap unload) := by
  unfold State.deactivate
  repeat' (first | with_reducible assumption | with_reducible apply kept_putD)

theorem kept_drsDeact {q0 : Base} (s : State) (m : Nat) (h : Nat) (drain : Nat) (h_s : Kept q0 s) : KeptA q0 (State.drsDeact s m h drain) := by
  unfold State.drsDeact
  repeat' (first | with_reducible assumption | with_reducible intro _ | with_reducible apply keptA_wait | with_reducible apply keptA_ite | with_reducible apply kept_deactivate | with_reducible apply kept_invalid | with_reducible apply kept_onHandle | with_reducible apply kept_refuse)

theorem kept_execFabDrsDeactivate {q0 : Base} (q : Req) (h : Nat) (s : State) (h_s : Kept q0 s) : KeptX q0 (execFabDrsDeactivate q h s) := by
  unfold execFabDrsDeactivate
  repeat' (first | with_reducible assumption | with_reducible intro _ | with_reducible apply keptX_run | with_reducible apply kept_axotte | with_reducible apply kept_drsDeact)

theorem kept_execFabDrsDeactivateExpert {q0 : Base} (q : Req) (h : Nat) (drainMs : Nat) (s : State) (h_s : Kept q0 s) : KeptX q0 (execFabDrsDeactivateExpert q h drainMs s) := by
  unfold execFabDrsDeactivateExpert
  repeat' (first | with_reducible assumption | with_reducible intro _ | with_reducible apply keptX_run | with_reducible apply kept_axotte | with_reducible apply kept_drsDeact)

theorem kept_drsSwap {q0 : Base} (s : State) (m : Nat) (a : Nat) (b : Nat) (drain : Nat) (h_s : Kept q0 s) : KeptA q0 (State.drsSwap s m a b drain) := by
  unfold State.drsSwap
  repeat' (first | with_reducible assumption | with_reducible intro _ | with_reducible apply keptA_wait | with_reducible apply keptA_ite | with_reducible apply kept_deactivate | with_reducible apply kept_invalid | with_reducible apply kept_onHandle | with_reducible apply kept_putD | with_reducible apply kept_refuse)

theorem kept_execFabDrsSwap {q0 : Base} (q : Req) (a : Nat) (b : Nat) (s : State) (h_s : Kept q0 s) : KeptX q0 (execFabDrsSwap q a b s) := by
  unfold execFabDrsSwap
  repeat' (first | with_reducible assumption | with_reducible intro _ | with_reducible apply keptX_run | with_reducible apply kept_axotte | with_reducible apply kept_drsSwap)

theorem kept_execFabDrsSwapExpert {q0 : Base} (q : Req) (a : Nat) (b : Nat) (drainMs : Nat) (s : State) (h_s : Kept q0 s) : KeptX q0 (execFabDrsSwapExpert q a b drainMs s) := by
  unfold execFabDrsSwapExpert
  repeat' (first | with_reducible assumption | with_reducible intro _ | with_reducible apply keptX_run | with_reducible apply kept_axotte | with_reducible apply kept_drsSwap)

theorem kept_drsUnload {q0 : Base} (s : State) (m : Nat) (h : Nat) (h_s : Kept q0 s) : KeptA q0 (State.drsUnload s m h) := by
  unfold State.drsUnload
  repeat' (first | with_reducible assumption | with_reducible intro _ | with_reducible apply keptA_done | with_reducible apply keptA_wait | with_reducible apply kept_deactivate | with_reducible apply kept_drsRelease | with_reducible apply kept_onHandle | with_reducible apply kept_refuse | with_reducible apply kept_stopUnbind | split)

theorem kept_execFabDrsUnload {q0 : Base} (q : Req) (h : Nat) (s : State) (h_s : Kept q0 s) : KeptX q0 (execFabDrsUnload q h s) := by
  unfold execFabDrsUnload
  repeat' (first | with_reducible assumption | with_reducible intro _ | with_reducible apply keptX_run | with_reducible apply kept_axotte | with_reducible apply kept_drsUnload)

theorem kept_execFabDrsStatus {q0 : Base} (q : Req) (h : Nat) (s : State) (h_s : Kept q0 s) : KeptX q0 (execFabDrsStatus q h s) := by
  unfold execFabDrsStatus
  repeat' (first | with_reducible assumption | with_reducible intro _ | with_reducible apply keptA_done | with_reducible apply keptX_run | with_reducible apply keptA_ite | with_reducible apply kept_axotte | with_reducible apply kept_invalid | with_reducible apply kept_refuse | split)

theorem kept_execFabMapRead {q0 : Base} (q : Req) (first : Nat) (count : Nat) (s : State) (h_s : Kept q0 s) : KeptX q0 (execFabMapRead q first count s) := by
  unfold execFabMapRead
  repeat' (first | with_reducible assumption | with_reducible intro _ | with_reducible apply keptA_done | with_reducible apply keptX_run | with_reducible apply keptA_ite | with_reducible apply kept_axotte | with_reducible apply kept_invalid)

end Sys2Proof.Machine
end

