-- ==== Sys2Proof/Laws/KeepMem.lean ====
section
/-! SUPPORT. What the operations of Machine/Mem.lean keep. -/

namespace Sys2Proof.Machine

theorem kept_missEnd {q0 : Base} (s : State) (t : Nat) (k : Nat) (h_s : Kept q0 s) : Kept q0 (State.missEnd s t k) := by
  unfold State.missEnd
  repeat' (first | with_reducible assumption | with_reducible apply kept_modTile | with_reducible apply kept_tlbDrop | with_reducible apply kept_tlbRefRead | split)

theorem kept_loadDone {q0 : Base} (s : State) (t : Nat) (k : Nat) (v : W32) (poison : Bool) (h_s : Kept q0 s) : Kept q0 (State.loadDone s t k v poison) := by
  unfold State.loadDone
  repeat' (first | with_reducible assumption | with_reducible apply kept_ite | with_reducible apply kept_kill | with_reducible apply kept_missEnd | with_reducible apply kept_setSr | split)

theorem kept_fillDone {q0 : Base} (s : State) (t : Nat) (k : Nat) (data : BitVec 1024) (poison : Bool) (copy : Bool) (h_s : Kept q0 s) : Kept q0 (State.fillDone s t k data poison copy) := by
  unfold State.fillDone
  repeat' (first | with_reducible assumption | with_reducible apply kept_ite | with_reducible apply kept_loadDone | with_reducible apply kept_modTile | split)

theorem kept_sigFlush {q0 : Base} (t : Nat) : ∀ (i0 : Nat) (s : State), Kept q0 s → Kept q0 (State.sigFlush s t i0) := by
  intro i0
  induction i0 with
  | zero =>
    intros
    unfold State.sigFlush
    repeat' with_reducible assumption
  | succ n ih =>
    intros
    unfold State.sigFlush
    repeat' (first | with_reducible assumption | with_reducible apply kept_modTile | with_reducible apply kept_syncAdd | with_reducible apply ih | split)

theorem kept_storeDone {q0 : Base} (s : State) (t : Nat) (k : Nat) (h_s : Kept q0 s) : Kept q0 (State.storeDone s t k) := by
  unfold State.storeDone
  repeat' (first | with_reducible assumption | with_reducible apply kept_missEnd | with_reducible apply kept_modTile | with_reducible apply kept_sigFlush)

theorem kept_missHole {q0 : Base} (s : State) (t : Nat) (k : Nat) (gaddr : Nat) (h_s : Kept q0 s) : Kept q0 (State.missHole s t k gaddr) := by
  unfold State.missHole
  repeat' (first | with_reducible assumption | with_reducible apply kept_ite | with_reducible apply kept_hole | with_reducible apply kept_kill | with_reducible apply kept_missEnd | split)

theorem kept_deadAck {q0 : Base} (s : State) (t : Nat) (n : Nat) (d : Nat × List Nat) (h_s : Kept q0 s) : Kept q0 (State.deadAck s t n d) := by
  unfold State.deadAck
  repeat' (first | with_reducible assumption | with_reducible intro _ | with_reducible apply kept_foldl | with_reducible apply kept_ite | with_reducible apply kept_modTile | with_reducible apply kept_tlbDrop | with_reducible apply kept_tlbRefRead)

theorem kept_engAck {q0 : Base} (s : State) (m : Master) (tag : Nat) (h_s : Kept q0 s) : Kept q0 (State.engAck s m tag) := by
  unfold State.engAck
  repeat' (first | with_reducible assumption | with_reducible intro _ | with_reducible apply kept_foldl | with_reducible apply kept_ite | with_reducible apply kept_deadAck | with_reducible apply kept_modTile | with_reducible apply kept_tlbDrop | with_reducible apply kept_tlbRefRead | split | (with_reducible apply kept_same; simp only [↓kept_mk, ↓keptF_self]))

theorem kept_countBytes {q0 : Base} (s : State) (a : Agent) (addr : Nat) (tc : Nat) (n : Nat) (h_s : Kept q0 s) : Kept q0 (State.countBytes s a addr tc n) := by
  unfold State.countBytes
  repeat' (first | with_reducible assumption | with_reducible apply kept_ite | with_reducible apply kept_bump)

theorem kept_regSpend {q0 : Base} (s : State) (ag : Agent) (a : Nat) (tc : Nat) (n : Nat) (h_s : Kept q0 s) : Kept q0 (State.regSpend s ag a tc n) := by
  unfold State.regSpend
  repeat' (first | with_reducible assumption | with_reducible apply kept_ite | (with_reducible apply kept_same; simp only [↓kept_mk, ↓keptF_self]))

theorem kept_regCount {q0 : Base} (s : State) (ag : Agent) (a : Nat) (tc : Nat) (n : Nat) (counted : Bool) (h_s : Kept q0 s) : Kept q0 (State.regCount s ag a tc n counted) := by
  unfold State.regCount
  repeat' (first | with_reducible assumption | with_reducible apply kept_ite | with_reducible apply kept_bump)

theorem kept_ageUp {q0 : Base} (s : State) (ls : List (Nat × Line)) (d : Nat) (h_s : Kept q0 s) : Kept q0 (State.ageUp s ls d) := by
  unfold State.ageUp
  repeat' (first | with_reducible assumption | (with_reducible apply kept_same; simp only [↓kept_mk, ↓keptF_self]))

theorem kept_modLine {q0 : Base} (s : State) (l : Nat) (f : Line → Line) (h_s : Kept q0 s) : Kept q0 (State.modLine s l f) := by
  unfold State.modLine
  repeat' (first | with_reducible assumption | split | (with_reducible apply kept_same; simp only [↓kept_mk, ↓keptF_self]))

theorem kept_hbmTurn {q0 : Base} (s : State) (k : Nat) (b : Bool × Nat × Nat) (h_s : Kept q0 s) : Kept q0 (State.hbmTurn s k b) := by
  unfold State.hbmTurn
  repeat' (first | with_reducible assumption | with_reducible apply kept_bump | (with_reducible apply kept_same; simp only [↓kept_mk, ↓keptF_self]))

theorem kept_hbmReq {q0 : Base} (s : State) (a : Nat) (wr : Bool) (h_s : Kept q0 s) : Kept q0 (State.hbmReq s a wr) := by
  unfold State.hbmReq
  repeat' (first | with_reducible assumption | with_reducible apply kept_ite | with_reducible apply kept_hbmTurn | split | (with_reducible apply kept_same; simp only [↓kept_mk, ↓keptF_self]))

theorem kept_memErrAdd {q0 : Base} (s : State) (unit : Nat) (addr : Nat) (kind : Nat) (h_s : Kept q0 s) : Kept q0 (State.memErrAdd s unit addr kind) := by
  unfold State.memErrAdd
  repeat' (first | with_reducible assumption | with_reducible apply kept_ite | with_reducible apply kept_log' | (with_reducible apply kept_same; simp only [↓kept_mk, ↓keptF_self]))

theorem kept_meetLine {q0 : Base} (s : State) (a : Nat) (h_s : Kept q0 s) : Kept q0 (State.meetLine s a) := by
  unfold State.meetLine
  repeat' (first | with_reducible assumption | with_reducible apply kept_ite | with_reducible apply kept_bump | with_reducible apply kept_libFail | with_reducible apply kept_memErrAdd | split | (with_reducible apply kept_same; simp only [↓kept_mk, ↓keptF_self]))

theorem kept_meetGo {q0 : Base}  : ∀ (i0 : Nat) (i1 : Nat) (i2 : Nat) (s : State), Kept q0 s → Kept q0 (State.meetGo s i0 i1 i2) := by
  intro i0
  induction i0 with
  | zero =>
    intros
    unfold State.meetGo
    repeat' with_reducible assumption
  | succ n ih =>
    intros
    unfold State.meetGo
    repeat' (first | with_reducible assumption | with_reducible apply kept_ite | with_reducible apply kept_meetLine | with_reducible apply ih)

theorem kept_meet {q0 : Base} (s : State) (a : Nat) (n : Nat) (h_s : Kept q0 s) : Kept q0 (State.meet s a n) := by
  unfold State.meet
  repeat' (first | with_reducible assumption | with_reducible apply kept_ite | with_reducible apply kept_meetGo)

theorem kept_tagMeet {q0 : Base} (s : State) (a : Nat) (h_s : Kept q0 s) : Kept q0 (State.tagMeet s a) := by
  unfold State.tagMeet
  repeat' (first | with_reducible assumption | with_reducible apply kept_ite | with_reducible apply kept_log' | (with_reducible apply kept_same; simp only [↓kept_mk, ↓keptF_self]))

theorem kept_sideDrop {q0 : Base} (s : State) (l : Nat) (h_s : Kept q0 s) : Kept q0 (State.sideDrop s l) := by
  unfold State.sideDrop
  repeat' (first | with_reducible assumption | (with_reducible apply kept_same; simp only [↓kept_mk, ↓keptF_self]))

theorem kept_sideLose {q0 : Base} (s : State) (l : Nat) (h_s : Kept q0 s) : Kept q0 (State.sideLose s l) := by
  unfold State.sideLose
  repeat' (first | with_reducible assumption | with_reducible apply kept_ite | with_reducible apply kept_bump | with_reducible apply kept_sideDrop)

theorem kept_sidePut {q0 : Base} (s : State) (l : Nat) (h_s : Kept q0 s) : Kept q0 (State.sidePut s l) := by
  unfold State.sidePut
  repeat' (first | with_reducible assumption | with_reducible apply kept_ite | with_reducible apply kept_bump | (with_reducible apply kept_same; simp only [↓kept_mk, ↓keptF_self]))

theorem kept_ssMeet {q0 : Base} (s : State) (l : Nat) (h_s : Kept q0 s) : Kept q0 (State.ssMeet s l) := by
  unfold State.ssMeet
  repeat' (first | with_reducible assumption | with_reducible apply kept_ite | with_reducible apply kept_sideLose | with_reducible apply kept_tagMeet | (with_reducible apply kept_same; simp only [↓kept_mk, ↓keptF_self]))

end Sys2Proof.Machine
end

