-- ==== Sys2Proof/Laws/KeepCoh.lean ====
section
/-! SUPPORT. What the operations of Machine/Coh.lean keep. -/

namespace Sys2Proof.Machine

theorem kept_snoop {q0 : Base} (s : State) (l : Nat) (kind : Nat) (tag : Nat) (ks : List Nat) (h_s : Kept q0 s) : Kept q0 (State.snoop s l kind tag ks).1 := by
  unfold State.snoop
  repeat' (first | with_reducible assumption | with_reducible intro _ | with_reducible apply kept_foldl | with_reducible apply kept_ite | with_reducible apply kept_bump | with_reducible apply kept_modLine | with_reducible apply kept_toAgent | (with_reducible apply kept_same; simp only [↓kept_mk, ↓keptF_self]))

theorem kept_invBenches {q0 : Base} (s : State) (l : Nat) (bs : List Nat) (h_s : Kept q0 s) : Kept q0 (State.invBenches s l bs).1 := by
  unfold State.invBenches
  repeat' (first | with_reducible assumption | with_reducible apply kept_ite | with_reducible apply kept_bump | with_reducible apply kept_modLine)

theorem kept_recallStart {q0 : Base} (s : State) (k : ReqK) (l : Nat) (h_s : Kept q0 s) : Kept q0 (State.recallStart s k l).1 := by
  unfold State.recallStart
  repeat' (first | with_reducible assumption | with_reducible apply kept_invBenches | with_reducible apply kept_snoop)

theorem kept_lineOut {q0 : Base} (s : State) (l : Nat) (h_s : Kept q0 s) : Kept q0 (State.lineOut s l) := by
  unfold State.lineOut
  repeat' (first | with_reducible assumption | with_reducible apply kept_hbmReq | split | (with_reducible apply kept_same; simp only [↓kept_mk, ↓keptF_self]))

theorem kept_ssEvict {q0 : Base} (s : State) (l : Nat) (h_s : Kept q0 s) : Kept q0 (State.ssEvict s l) := by
  unfold State.ssEvict
  repeat' (first | with_reducible assumption | with_reducible apply kept_ite | with_reducible apply kept_bump | with_reducible apply kept_lineOut | with_reducible apply kept_recallStart | (with_reducible apply kept_same; simp only [↓kept_mk, ↓keptF_self]))

theorem kept_ssRoom {q0 : Base} (s : State) (l : Nat) (part : Nat) (h_s : Kept q0 s) : Kept q0 (State.ssRoom s l part).1 := by
  unfold State.ssRoom
  repeat' (first | with_reducible assumption | with_reducible apply kept_ageUp | with_reducible apply kept_ssEvict | split)

theorem kept_ssInsert {q0 : Base} (s : State) (l : Nat) (age : Nat) (part : Nat) (dirty : Bool) (h_s : Kept q0 s) : Kept q0 (State.ssInsert s l age part dirty) := by
  unfold State.ssInsert
  repeat' (first | with_reducible assumption | (with_reducible apply kept_same; simp only [↓kept_mk, ↓keptF_self]))

theorem kept_answer {q0 : Base} (s : State) (r : CReq) (k : AnsK) (data : BitVec 1024) (poison : Bool) (copy : Bool) (reason : Nat) (h_s : Kept q0 s) : Kept q0 (State.answer s r k data poison copy reason) := by
  unfold State.answer
  repeat' (first | with_reducible assumption | with_reducible apply kept_ite | split | (with_reducible apply kept_same; simp only [↓kept_mk, ↓keptF_self]))

theorem kept_answerCmp {q0 : Base} (s : State) (r : CReq) (h_s : Kept q0 s) : Kept q0 (State.answerCmp s r) := by
  unfold State.answerCmp
  repeat' (first | with_reducible assumption | with_reducible apply kept_emit | with_reducible apply kept_engAck | with_reducible apply kept_storeDone | with_reducible apply kept_toAgent | split | (with_reducible apply kept_same; simp only [↓kept_mk, ↓keptF_self]))

theorem kept_lineWrite {q0 : Base} (s : State) (a : Nat) (mask : BitVec 128) (data : BitVec 1024) (poison : Bool) (h_s : Kept q0 s) : Kept q0 (State.lineWrite s a mask data poison) := by
  unfold State.lineWrite
  repeat' (first | with_reducible assumption | with_reducible apply kept_ite | with_reducible apply kept_meetLine | with_reducible apply kept_modLine | with_reducible apply kept_write)

theorem kept_wbWrite {q0 : Base} (s : State) (l : Nat) (data : BitVec 1024) (poison : Bool) (h_s : Kept q0 s) : Kept q0 (State.wbWrite s l data poison) := by
  unfold State.wbWrite
  repeat' (first | with_reducible assumption | with_reducible apply kept_modLine | with_reducible apply kept_write)

theorem kept_lineTidy {q0 : Base} (s : State) (l : Nat) (h_s : Kept q0 s) : Kept q0 (State.lineTidy s l) := by
  unfold State.lineTidy
  repeat' (first | with_reducible assumption | with_reducible apply kept_ite | with_reducible apply kept_lineOut)

theorem kept_jobNext {q0 : Base} (s : State) (l : Nat) (written : Nat) (h_s : Kept q0 s) : Kept q0 (State.jobNext s l written) := by
  unfold State.jobNext
  repeat' (first | with_reducible assumption | with_reducible apply kept_ite | split | (with_reducible apply kept_same; simp only [↓kept_mk, ↓keptF_self]))

theorem kept_cohEnd {q0 : Base} (s : State) (t : Txn) (h_s : Kept q0 s) : Kept q0 (State.cohEnd s t) := by
  unfold State.cohEnd
  extract_lets r l s1 s2 d data bad setDir n s3 s4 old new m s5 w
  have h1 : Kept q0 s1 := h_s
  clear_value s1
  have h2 : Kept q0 s2 := by
    dsimp only [s2]
    split <;> first | exact h1 | exact kept_meetLine _ _ h1
  clear_value s2
  have hd : ∀ s x, Kept q0 s → Kept q0 (setDir s x) := fun s x h => kept_modLine _ _ _ h
  have h3 : Kept q0 s3 := by
    dsimp only [s3]
    split <;> first | exact h2 | exact kept_countBytes _ _ _ _ _ h2
  have h4 : Kept q0 s4 := by
    dsimp only [s4]
    split <;> exact kept_lineWrite _ _ _ _ _ h3
  have h5 : Kept q0 s5 := kept_lineWrite _ _ _ _ _ h3
  clear_value s5 s4 s3 setDir data bad d n l
  repeat' (first | with_reducible assumption | with_reducible apply kept_ite | with_reducible apply kept_answer | with_reducible apply kept_answerCmp | with_reducible apply kept_bump | with_reducible apply kept_jobNext | with_reducible apply kept_lineOut | with_reducible apply kept_lineTidy | with_reducible apply kept_lineWrite | with_reducible apply hd | split)

theorem kept_cohWait {q0 : Base} (s : State) (t : Txn) (h_s : Kept q0 s) : Kept q0 (State.cohWait s t) := by
  unfold State.cohWait
  repeat' (first | with_reducible assumption | with_reducible apply kept_ite | with_reducible apply kept_cohEnd | (with_reducible apply kept_same; simp only [↓kept_mk, ↓keptF_self]))

theorem kept_invOthers {q0 : Base} (s : State) (r : CReq) (h_s : Kept q0 s) : Kept q0 (State.invOthers s r) := by
  unfold State.invOthers
  repeat' (first | with_reducible assumption | with_reducible apply kept_cohWait | with_reducible apply kept_invBenches | with_reducible apply kept_snoop)

theorem kept_cohEvict {q0 : Base} (s : State) (r : CReq) (h_s : Kept q0 s) : Kept q0 (State.cohEvict s r) := by
  unfold State.cohEvict
  repeat' (first | with_reducible assumption | with_reducible apply kept_ite | with_reducible apply kept_answerCmp | with_reducible apply kept_bump | with_reducible apply kept_lineTidy | with_reducible apply kept_lineWrite | with_reducible apply kept_modLine | with_reducible apply kept_wbWrite | split)

theorem kept_cohGo {q0 : Base} (s : State) (r : CReq) (h_s : Kept q0 s) : Kept q0 (State.cohGo s r) := by
  unfold State.cohGo
  repeat' (first | with_reducible assumption | with_reducible apply kept_ite | with_reducible apply kept_cohEnd | with_reducible apply kept_cohEvict | with_reducible apply kept_cohWait | with_reducible apply kept_invOthers | with_reducible apply kept_snoop | split)

theorem kept_lineHold {q0 : Base} (s : State) (r : CReq) (h_s : Kept q0 s) : Kept q0 (State.lineHold s r) := by
  unfold State.lineHold
  repeat' (first | with_reducible assumption | (with_reducible apply kept_same; simp only [↓kept_mk, ↓keptF_self]))

theorem kept_ssMissed {q0 : Base} (s : State) (l : Nat) (h_s : Kept q0 s) : Kept q0 (State.ssMissed s l) := by
  unfold State.ssMissed
  repeat' (first | with_reducible assumption | with_reducible apply kept_bump | (with_reducible apply kept_same; simp only [↓kept_mk, ↓keptF_self]))

theorem kept_cohTake {q0 : Base} (s : State) (r : CReq) (h_s : Kept q0 s) : Kept q0 (State.cohTake s r) := by
  unfold State.cohTake
  repeat' (first | with_reducible assumption | with_reducible apply kept_ite | with_reducible apply kept_bump | with_reducible apply kept_cohEvict | with_reducible apply kept_cohGo | with_reducible apply kept_cohWait | with_reducible apply kept_jobNext | with_reducible apply kept_lineHold | with_reducible apply kept_modLine | with_reducible apply kept_recallStart | with_reducible apply kept_sideDrop | with_reducible apply kept_sideLose | with_reducible apply kept_ssInsert | with_reducible apply kept_ssMeet | with_reducible apply kept_ssMissed | with_reducible apply kept_ssRoom | split | (with_reducible apply kept_of_fst; with_reducible assumption) | (with_reducible apply kept_same; simp only [↓kept_mk, ↓keptF_self]))

theorem kept_cohReq {q0 : Base} (s : State) (r : CReq) (h_s : Kept q0 s) : Kept q0 (State.cohReq s r) := by
  unfold State.cohReq
  repeat' (first | with_reducible assumption | with_reducible apply kept_ite | with_reducible apply kept_answer | with_reducible apply kept_cohTake | split | (with_reducible apply kept_same; simp only [↓kept_mk, ↓keptF_self]))

theorem kept_lineResume {q0 : Base} (s : State) (l : Nat) (h_s : Kept q0 s) : Kept q0 (State.lineResume s l) := by
  unfold State.lineResume
  repeat' (first | with_reducible assumption | with_reducible apply kept_ite | with_reducible apply kept_cohTake | split | (with_reducible apply kept_same; simp only [↓kept_mk, ↓keptF_self]))

theorem kept_rspI {q0 : Base} (s : State) (a : Agent) (l : Nat) (h_s : Kept q0 s) : Kept q0 (State.rspI s a l) := by
  unfold State.rspI
  repeat' (first | with_reducible assumption | with_reducible apply kept_cohWait | with_reducible apply kept_modLine | split)

theorem kept_rspS {q0 : Base} (s : State) (a : Agent) (l : Nat) (h_s : Kept q0 s) : Kept q0 (State.rspS s a l) := by
  unfold State.rspS
  repeat' (first | with_reducible assumption | with_reducible apply kept_ite | with_reducible apply kept_cohWait | with_reducible apply kept_modLine | split)

theorem kept_rspFwd {q0 : Base} (s : State) (a : Agent) (l : Nat) (h_s : Kept q0 s) : Kept q0 (State.rspFwd s a l) := by
  unfold State.rspFwd
  repeat' (first | with_reducible assumption | with_reducible apply kept_ite | with_reducible apply kept_cohWait | with_reducible apply kept_modLine | split)

theorem kept_datWb {q0 : Base} (s : State) (a : Agent) (l : Nat) (data : BitVec 1024) (poison : Bool) (h_s : Kept q0 s) : Kept q0 (State.datWb s a l data poison) := by
  unfold State.datWb
  repeat' (first | with_reducible assumption | with_reducible apply kept_ite | with_reducible apply kept_wbWrite | split)

theorem kept_datCur {q0 : Base} (s : State) (a : Agent) (l : Nat) (data : BitVec 1024) (poison : Bool) (h_s : Kept q0 s) : Kept q0 (State.datCur s a l data poison) := by
  unfold State.datCur
  repeat' (first | with_reducible assumption | with_reducible apply kept_ite | with_reducible apply kept_cohWait | split)

theorem kept_tileInv {q0 : Base} (s : State) (l : Nat) (t : Nat) (h_s : Kept q0 s) : Kept q0 (State.tileInv s l t) := by
  unfold State.tileInv
  repeat' (first | with_reducible assumption | with_reducible apply kept_modTile)

theorem kept_benchInv {q0 : Base} (s : State) (b : Nat) (l : Nat) (writer : Option Nat) (h_s : Kept q0 s) : Kept q0 (State.benchInv s b l writer) := by
  unfold State.benchInv
  repeat' (first | with_reducible assumption | with_reducible intro _ | with_reducible apply kept_foldl | with_reducible apply kept_ite | with_reducible apply kept_cohWait | with_reducible apply kept_modLine | with_reducible apply kept_tileInv | split | (with_reducible apply kept_same; simp only [↓kept_mk, ↓keptF_self]))

theorem kept_fenceTxn {q0 : Base} (s : State) (k : Nat) (l : Nat) (h_s : Kept q0 s) : Kept q0 (State.fenceTxn s k l) := by
  unfold State.fenceTxn
  repeat' (first | with_reducible assumption | with_reducible apply kept_ite | with_reducible apply kept_cohWait | with_reducible apply kept_modLine | split)

theorem kept_refuseAll {q0 : Base} (s : State) (k : Nat) (h_s : Kept q0 s) : Kept q0 (State.refuseAll s k) := by
  unfold State.refuseAll
  repeat' (first | with_reducible assumption | with_reducible intro _ | with_reducible apply kept_foldl | with_reducible apply kept_answer | (with_reducible apply kept_same; simp only [↓kept_mk, ↓keptF_self]))

theorem kept_poisonSet {q0 : Base} (s : State) (l : List Nat) (h_s : Kept q0 s) : Kept q0 { s with poison := l } := h_s

theorem kept_tilesSet {q0 : Base} (s : State) (l : Tbl Tile) (h_s : Kept q0 s) : Kept q0 { s with tiles := l } := h_s

theorem kept_fence {q0 : Base} (s : State) (k : Nat) (h_s : Kept q0 s) : Kept q0 (State.fence s k) := by
  unfold State.fence
  extract_lets s1 s2 owned s3
  have h2 : Kept q0 s2 := kept_bset _ _ _ _ (kept_tilesSet _ _ h_s)
  clear_value s2
  exact kept_foldl (fun s l h => kept_fenceTxn _ _ _ h) (kept_refuseAll _ _ (kept_poisonSet _ _ h2))

theorem kept_sweep {q0 : Base} (s : State) (k : Nat) (h_s : Kept q0 s) : Kept q0 (State.sweep s k) := by
  unfold State.sweep
  repeat' (first | with_reducible assumption | (with_reducible apply kept_same; simp only [↓kept_mk, ↓keptF_self]))

theorem kept_snoopTimeout {q0 : Base} (s : State) (a : Agent) (h_s : Kept q0 s) : Kept q0 (State.snoopTimeout s a) := by
  unfold State.snoopTimeout
  repeat' (first | with_reducible assumption | with_reducible apply kept_ite | with_reducible apply kept_fence | with_reducible apply kept_fset | with_reducible apply kept_log' | split)

theorem kept_engAsk {q0 : Base} (s : State) (m : Master) (a : Nat) (n : Nat) (tc : Nat) (h_s : Kept q0 s) : Kept q0 (State.engAsk s m a n tc) := by
  unfold State.engAsk
  repeat' (first | with_reducible assumption | with_reducible intro _ | with_reducible apply kept_foldl | with_reducible apply kept_ite | with_reducible apply kept_cohReq)

theorem kept_ssTouch {q0 : Base} (s : State) (ag : Agent) (l : Nat) (tc : Nat) (n : Nat) (age : Nat) (wr : Bool) (h_s : Kept q0 s) : Kept q0 (State.ssTouch s ag l tc n age wr) := by
  unfold State.ssTouch
  repeat' (first | with_reducible assumption | with_reducible apply kept_ite | with_reducible apply kept_bump | with_reducible apply kept_countBytes | with_reducible apply kept_modLine | with_reducible apply kept_regSpend | with_reducible apply kept_sideDrop | with_reducible apply kept_sideLose | with_reducible apply kept_ssInsert | with_reducible apply kept_ssMeet | with_reducible apply kept_ssMissed | with_reducible apply kept_ssRoom | split | (with_reducible apply kept_of_fst; with_reducible assumption) | (with_reducible apply kept_same; simp only [↓kept_mk, ↓keptF_self]))

theorem kept_engReadAt {q0 : Base} (s : State) (m : Master) (a : Nat) (n : Nat) (tc : Nat) (age : Nat) (h_s : Kept q0 s) : Kept q0 (State.engReadAt s m a n tc age).2.2 := by
  unfold State.engReadAt
  repeat' (first | with_reducible assumption | with_reducible intro _ | with_reducible apply kept_foldl | with_reducible apply kept_meet | with_reducible apply kept_ssTouch | split | (with_reducible apply kept_same; simp only [↓kept_mk, ↓keptF_self]))

theorem kept_engRead {q0 : Base} (s : State) (m : Master) (a : Nat) (n : Nat) (tc : Nat) (h_s : Kept q0 s) : Kept q0 (State.engRead s m a n tc).2.2 := by
  unfold State.engRead
  repeat' (first | with_reducible assumption | with_reducible apply kept_engReadAt)

theorem kept_engWrite1 {q0 : Base} (s : State) (m : Master) (tag : Nat) (l : Nat) (o : Nat) (tc : Nat) (bs : List Byte) (poison : Bool) (h_s : Kept q0 s) : Kept q0 (State.engWrite1 s m tag l o tc bs poison).1 := by
  unfold State.engWrite1
  repeat' (first | with_reducible assumption | with_reducible apply kept_ite | with_reducible apply kept_cohReq | with_reducible apply kept_meetLine | with_reducible apply kept_regSpend | with_reducible apply kept_ssRoom | with_reducible apply kept_ssTouch | with_reducible apply kept_write | split | (with_reducible apply kept_same; simp only [↓kept_mk, ↓keptF_self]))

theorem kept_engWriteGo {q0 : Base} (m : Master) (tag : Nat) (tc : Nat) (poison : Bool) : ∀ (i0 : Nat) (i1 : Nat) (i2 : List Byte) (s : State), Kept q0 s → Kept q0 (State.engWriteGo s m tag tc poison i0 i1 i2).1 := by
  intro i0
  induction i0 with
  | zero =>
    intros
    unfold State.engWriteGo
    repeat' with_reducible assumption
  | succ n ih =>
    intros
    unfold State.engWriteGo
    repeat' (first | with_reducible assumption | with_reducible apply kept_engWrite1 | with_reducible apply ih | cases ‹_ + 1 = Nat.succ _› | split)

theorem kept_engWrite {q0 : Base} (s : State) (m : Master) (tag : Nat) (a : Nat) (tc : Nat) (bs : List Byte) (poison : Bool) (h_s : Kept q0 s) : Kept q0 (State.engWrite s m tag a tc bs poison).1 := by
  unfold State.engWrite
  repeat' (first | with_reducible assumption | with_reducible apply kept_engWriteGo | with_reducible apply kept_write | split)

theorem kept_regOne {q0 : Base} (s : State) (e : CReq × Bool) (h_s : Kept q0 s) : Kept q0 (State.regOne s e) := by
  unfold State.regOne
  repeat' (first | with_reducible assumption | with_reducible apply kept_ite | with_reducible apply kept_cohReq | with_reducible apply kept_regCount | with_reducible apply kept_regSpend | (with_reducible apply kept_same; simp only [↓kept_mk, ↓keptF_self]))

theorem kept_regPump {q0 : Base} (s : State) (h_s : Kept q0 s) : Kept q0 (State.regPump s) := by
  unfold State.regPump
  repeat' (first | with_reducible assumption | with_reducible intro _ | with_reducible apply kept_foldl | with_reducible apply kept_regOne | (with_reducible apply kept_same; simp only [↓kept_mk, ↓keptF_self]))

theorem kept_toHome {q0 : Base} (s : State) (m : Nat) (l : Nat) (tag : Nat) (kind : Nat) (data : List Byte) (poison : Bool) (h_s : Kept q0 s) : Kept q0 (State.toHome s m l tag kind data poison) := by
  unfold State.toHome
  repeat' (first | with_reducible assumption | with_reducible apply kept_toAgent)

theorem kept_snpInvDone {q0 : Base} (s : State) (l : Nat) (h_s : Kept q0 s) : Kept q0 (State.snpInvDone s l) := by
  unfold State.snpInvDone
  repeat' (first | with_reducible assumption | with_reducible intro _ | with_reducible apply kept_foldl | with_reducible apply kept_ite | with_reducible apply kept_toHome | (with_reducible apply kept_same; simp only [↓kept_mk, ↓keptF_self]))

end Sys2Proof.Machine
end

