-- ==== Sys2Proof/Laws/KeepWalk.lean ====
section
/-! SUPPORT. What the operations of Machine/Walk.lean keep. -/

namespace Sys2Proof.Machine

theorem kept_walkFrom {q0 : Base} (half : Nat) (va : Nat) : ∀ (i0 : Nat) (i1 : Nat) (s : State), Kept q0 s → Kept q0 (State.walkFrom s half va i0 i1).2.2 := by
  intro i0
  induction i0 with
  | zero =>
    intros
    unfold State.walkFrom
    repeat' (first | with_reducible assumption | with_reducible apply kept_engReadAt | with_reducible apply kept_hole | split | (with_reducible apply kept_same; simp only [↓kept_mk, ↓keptF_self]))
  | succ n ih =>
    intros
    unfold State.walkFrom
    repeat' (first | with_reducible assumption | with_reducible apply kept_engReadAt | with_reducible apply kept_hole | with_reducible apply ih | split | (with_reducible apply kept_same; simp only [↓kept_mk, ↓keptF_self]))

theorem kept_walkStart {q0 : Base} (s : State) (half : Nat) (ctx : Nat) (va : Nat) (h_s : Kept q0 s) : Kept q0 (State.walkStart s half ctx va).2.2 := by
  unfold State.walkStart
  repeat' (first | with_reducible assumption | with_reducible apply kept_bump | split | (with_reducible apply kept_same; simp only [↓kept_mk, ↓keptF_self]))

theorem kept_walk {q0 : Base} (s : State) (half : Nat) (ctx : Nat) (va : Nat) (h_s : Kept q0 s) : Kept q0 (State.walk s half ctx va).2 := by
  unfold State.walk
  repeat' (first | with_reducible assumption | with_reducible intro _ | with_reducible apply kept_foldl | with_reducible apply kept_bump | with_reducible apply kept_walkFrom | with_reducible apply kept_walkStart | with_reducible apply kept_wcInstall | split)

theorem kept_walkServe {q0 : Base} (s : State) (r : WalkReq) (a : WalkR) (h_s : Kept q0 s) : Kept q0 (State.walkServe s r a) := by
  unfold State.walkServe
  repeat' (first | with_reducible assumption | with_reducible apply kept_ite | with_reducible apply kept_tlbInstall | with_reducible apply kept_xltFault | split | (with_reducible apply kept_of_some; with_reducible assumption) | (with_reducible apply kept_same; simp only [↓kept_mk, ↓keptF_self]))

theorem kept_walkComplete {q0 : Base} (s : State) (half : Nat) (h_s : Kept q0 s) : Kept q0 (State.walkComplete s half) := by
  unfold State.walkComplete
  repeat' (first | with_reducible assumption | with_reducible intro _ | with_reducible apply kept_foldl | with_reducible apply kept_engAsk | with_reducible apply kept_walk | with_reducible apply kept_walkServe | split | (with_reducible apply kept_same; simp only [↓kept_mk, ↓keptF_self]))

end Sys2Proof.Machine
end

