-- ==== Sys2Proof/Laws/KeepExt.lean ====
section
/-! SUPPORT. What the operations of Machine/Ext.lean keep. -/

namespace Sys2Proof.Machine

theorem kept_gAsk {q0 : Base} (s : State) (m : Master) (g : Nat) (n : Nat) (tc : Nat) (h_s : Kept q0 s) : Kept q0 (State.gAsk s m g n tc) := by
  unfold State.gAsk
  repeat' (first | with_reducible assumption | with_reducible apply kept_ite | with_reducible apply kept_engAsk | with_reducible apply kept_farAsk)

theorem kept_gRead {q0 : Base} (s : State) (m : Master) (g : Nat) (n : Nat) (tc : Nat) (h_s : Kept q0 s) : Kept q0 (State.gRead s m g n tc).2.2 := by
  unfold State.gRead
  repeat' (first | with_reducible assumption | with_reducible apply kept_engRead | split | (with_reducible apply kept_same; simp only [↓kept_mk, ↓keptF_self]))

theorem kept_gWrite {q0 : Base} (s : State) (m : Master) (tag : Nat) (g : Nat) (tc : Nat) (bs : List Byte) (poison : Bool) (h_s : Kept q0 s) : Kept q0 (State.gWrite s m tag g tc bs poison).1 := by
  unfold State.gWrite
  repeat' (first | with_reducible assumption | with_reducible intro _ | with_reducible apply kept_foldl | with_reducible apply kept_getD | with_reducible apply kept_engWrite | with_reducible apply kept_hostAsk | with_reducible apply kept_siteAsk | with_reducible apply kept_tksSend | split)

end Sys2Proof.Machine
end

