-- ==== Sys2Proof/Laws/KeepMemCmd.lean ====
section
/-! SUPPORT. What the operations of Machine/MemCmd.lean keep. -/

namespace Sys2Proof.Machine

theorem kept_setMask {q0 : Base} (s : State) (half : Nat) (m : Nat) (h_s : Kept q0 s) : Kept q0 (State.setMask s half m) := by
  unfold State.setMask
  repeat' (first | with_reducible assumption | with_reducible intro _ | with_reducible apply kept_foldl | with_reducible apply kept_fset)

theorem kept_clearGrans {q0 : Base} (s : State) (half : Nat) (m : Nat) (h_s : Kept q0 s) : Kept q0 (State.clearGrans s half m) := by
  unfold State.clearGrans
  repeat' (first | with_reducible assumption | with_reducible intro _ | with_reducible apply kept_foldl | with_reducible apply kept_ite | with_reducible apply kept_zero)

theorem kept_loseLine {q0 : Base} (s : State) (l : Nat) (h_s : Kept q0 s) : Kept q0 (State.loseLine s l) := by
  unfold State.loseLine
  repeat' (first | with_reducible assumption | with_reducible apply kept_write | (with_reducible apply kept_same; simp only [↓kept_mk, ↓keptF_self]))

theorem kept_ssDrop {q0 : Base} (s : State) (half : Nat) (h_s : Kept q0 s) : Kept q0 (State.ssDrop s half) := by
  unfold State.ssDrop
  repeat' (first | with_reducible assumption | with_reducible intro _ | with_reducible apply kept_foldl | with_reducible apply kept_loseLine | with_reducible apply kept_zero | (with_reducible apply kept_same; simp only [↓kept_mk, ↓keptF_self]))

theorem kept_cleanLine {q0 : Base} (s : State) (l : Nat) (h_s : Kept q0 s) : Kept q0 (State.cleanLine s l) := by
  unfold State.cleanLine
  repeat' (first | with_reducible assumption | with_reducible apply kept_hbmReq | with_reducible apply kept_modLine)

theorem kept_jobClean {q0 : Base} (s : State) (h_s : Kept q0 s) : Kept q0 (State.jobClean s) := by
  unfold State.jobClean
  repeat' (first | with_reducible assumption | with_reducible intro _ | with_reducible apply kept_foldl | with_reducible apply kept_cleanLine | split | (with_reducible apply kept_same; simp only [↓kept_mk, ↓keptF_self]))

theorem kept_jobEnd {q0 : Base} (s : State) (h_s : Kept q0 s) : Kept q0 (State.jobEnd s) := by
  unfold State.jobEnd
  repeat' (first | with_reducible assumption | with_reducible apply kept_ite | with_reducible apply kept_axFinish | with_reducible apply kept_bset | with_reducible apply kept_clearGrans | with_reducible apply kept_jobClean | with_reducible apply kept_setMask | with_reducible apply kept_ssDrop | split | (with_reducible apply kept_same; simp only [↓kept_mk, ↓keptF_self]))

theorem kept_jobStart {q0 : Base} (s : State) (j : SsJob) (recalls : List Nat) (purge : List Nat) (h_s : Kept q0 s) : Kept q0 (State.jobStart s j recalls purge) := by
  unfold State.jobStart
  repeat' (first | with_reducible assumption | with_reducible intro _ | with_reducible apply kept_foldl | with_reducible apply kept_cohReq | with_reducible apply kept_jobEnd | (with_reducible apply kept_same; simp only [↓kept_mk, ↓keptF_self]))

theorem kept_ssConfig {q0 : Base} (s : State) (m : Nat) (mn : Nat) (ms : Nat) (h_s : Kept q0 s) : KeptA q0 (State.ssConfig s m mn ms) := by
  unfold State.ssConfig
  repeat' (first | with_reducible assumption | with_reducible apply keptA_wait | with_reducible apply keptA_ite | with_reducible apply kept_busy | with_reducible apply kept_invalid | with_reducible apply kept_jobStart | with_reducible apply kept_refuse)

theorem kept_execMemSsConfig {q0 : Base} (q : Req) (k : Nat) (s : State) (h_s : Kept q0 s) : KeptX q0 (execMemSsConfig q k s) := by
  unfold execMemSsConfig
  repeat' (first | with_reducible assumption | with_reducible intro _ | with_reducible apply keptX_run | with_reducible apply keptA_ite | with_reducible apply kept_axotte | with_reducible apply kept_invalid | with_reducible apply kept_ssConfig)

theorem kept_execMemSsConfigExpert {q0 : Base} (q : Req) (north : Nat) (south : Nat) (s : State) (h_s : Kept q0 s) : KeptX q0 (execMemSsConfigExpert q north south s) := by
  unfold execMemSsConfigExpert
  repeat' (first | with_reducible assumption | with_reducible intro _ | with_reducible apply keptX_run | with_reducible apply kept_axotte | with_reducible apply kept_ssConfig)

theorem kept_flushLines {q0 : Base} (s : State) (m : Nat) (ls : List Nat) (h_s : Kept q0 s) : KeptA q0 (State.flushLines s m ls) := by
  unfold State.flushLines
  repeat' (first | with_reducible assumption | with_reducible intro _ | with_reducible apply kept_foldl | with_reducible apply keptA_done | with_reducible apply keptA_wait | with_reducible apply keptA_ite | with_reducible apply kept_busy | with_reducible apply kept_cleanLine | with_reducible apply kept_jobClean | (with_reducible apply kept_same; simp only [↓kept_mk, ↓keptF_self]))

theorem kept_execMemSsFlush {q0 : Base} (q : Req) (s : State) (h_s : Kept q0 s) : KeptX q0 (execMemSsFlush q s) := by
  unfold execMemSsFlush
  repeat' (first | with_reducible assumption | with_reducible intro _ | with_reducible apply keptX_run | with_reducible apply kept_axotte | with_reducible apply kept_flushLines)

theorem kept_execMemSsFlushExpert {q0 : Base} (q : Req) (base : Nat) (len : Nat) (inval : Bool) (s : State) (h_s : Kept q0 s) : KeptX q0 (execMemSsFlushExpert q base len inval s) := by
  unfold execMemSsFlushExpert
  repeat' (first | with_reducible assumption | with_reducible intro _ | with_reducible apply keptA_wait | with_reducible apply keptX_run | with_reducible apply keptA_ite | with_reducible apply kept_axotte | with_reducible apply kept_busy | with_reducible apply kept_flushLines | with_reducible apply kept_invalid | with_reducible apply kept_jobStart)

theorem kept_execMemHbmStatus {q0 : Base} (q : Req) (s : State) (h_s : Kept q0 s) : KeptX q0 (execMemHbmStatus q s) := by
  unfold execMemHbmStatus
  repeat' (first | with_reducible assumption | with_reducible intro _ | with_reducible apply keptA_done | with_reducible apply keptX_run | with_reducible apply kept_axotte)

theorem kept_execMemHbmStatusExpert {q0 : Base} (q : Req) (stack : Nat) (chan : Nat) (s : State) (h_s : Kept q0 s) : KeptX q0 (execMemHbmStatusExpert q stack chan s) := by
  unfold execMemHbmStatusExpert
  repeat' (first | with_reducible assumption | with_reducible intro _ | with_reducible apply keptA_done | with_reducible apply keptX_run | with_reducible apply keptA_ite | with_reducible apply kept_axotte | with_reducible apply kept_invalid | (with_reducible apply kept_same; simp only [↓kept_mk, ↓keptF_self]))

theorem kept_execMemScrubSet {q0 : Base} (q : Req) (s : State) (h_s : Kept q0 s) : KeptX q0 (execMemScrubSet q s) := by
  unfold execMemScrubSet
  repeat' (first | with_reducible assumption | with_reducible intro _ | with_reducible apply keptA_done | with_reducible apply keptX_run | with_reducible apply kept_axotte | (with_reducible apply kept_same; simp only [↓kept_mk, ↓keptF_self]))

theorem kept_execMemScrubSetExpert {q0 : Base} (q : Req) (hbmHours : Nat) (ssHours : Nat) (s : State) (h_s : Kept q0 s) : KeptX q0 (execMemScrubSetExpert q hbmHours ssHours s) := by
  unfold execMemScrubSetExpert
  repeat' (first | with_reducible assumption | with_reducible intro _ | with_reducible apply keptA_done | with_reducible apply keptX_run | with_reducible apply keptA_ite | with_reducible apply kept_axotte | with_reducible apply kept_invalid | (with_reducible apply kept_same; simp only [↓kept_mk, ↓keptF_self]))

theorem kept_execMemErrRead {q0 : Base} (q : Req) (first : Nat) (count : Nat) (s : State) (h_s : Kept q0 s) : KeptX q0 (execMemErrRead q first count s) := by
  unfold execMemErrRead
  repeat' (first | with_reducible assumption | with_reducible intro _ | with_reducible apply keptA_done | with_reducible apply keptX_run | with_reducible apply keptA_ite | with_reducible apply kept_axotte | with_reducible apply kept_invalid)

theorem kept_execMemDirProbe {q0 : Base} (q : Req) (addr : Nat) (s : State) (h_s : Kept q0 s) : KeptX q0 (execMemDirProbe q addr s) := by
  unfold execMemDirProbe
  repeat' (first | with_reducible assumption | with_reducible intro _ | with_reducible apply keptA_done | with_reducible apply keptX_run | with_reducible apply keptA_ite | with_reducible apply kept_axotte | with_reducible apply kept_invalid)

theorem kept_dirProbeWr {q0 : Base} (s : State) (v : W64) (h_s : Kept q0 s) : Kept q0 (State.dirProbeWr s v) := by
  unfold State.dirProbeWr
  repeat' (first | with_reducible assumption | with_reducible apply kept_ite | with_reducible apply kept_fset | with_reducible apply kept_set)

theorem kept_execDirProbeGo {q0 : Base} (v : W64) (s : State) (h_s : Kept q0 s) : KeptX q0 (execDirProbeGo v s) := by
  unfold execDirProbeGo
  repeat' (first | with_reducible assumption | with_reducible apply keptX_next | with_reducible apply kept_dirProbeWr)

theorem kept_execSsPatrolRead {q0 : Base} (addr : Nat) (s : State) (h_s : Kept q0 s) : KeptX q0 (execSsPatrolRead addr s) := by
  unfold execSsPatrolRead
  repeat' (first | with_reducible assumption | with_reducible apply kept_ite | with_reducible apply keptX_next | with_reducible apply kept_meetLine)

theorem kept_execHbmPatrol {q0 : Base} (addr : Nat) (s : State) (h_s : Kept q0 s) : KeptX q0 (execHbmPatrol addr s) := by
  unfold execHbmPatrol
  repeat' (first | with_reducible assumption | with_reducible apply kept_ite | with_reducible apply keptX_next | with_reducible apply kept_hbmReq | with_reducible apply kept_meetLine)

theorem kept_execSsPowerupInvalidate {q0 : Base} (half : Nat) (s : State) (h_s : Kept q0 s) : KeptX q0 (execSsPowerupInvalidate half s) := by
  unfold execSsPowerupInvalidate
  repeat' (first | with_reducible assumption | with_reducible apply keptX_run | with_reducible apply kept_bset | with_reducible apply kept_ssDrop | (with_reducible apply kept_same; simp only [↓kept_mk, ↓keptF_self]))

theorem kept_execSsInvalidateComplete {q0 : Base} (half : Nat) (s : State) (h_s : Kept q0 s) : KeptX q0 (execSsInvalidateComplete half s) := by
  unfold execSsInvalidateComplete
  repeat' (first | with_reducible assumption | with_reducible apply keptX_run | with_reducible apply kept_ite | with_reducible apply kept_bset | (with_reducible apply kept_same; simp only [↓kept_mk, ↓keptF_self]))

theorem kept_ssThermal {q0 : Base} (s : State) (half : Nat) (h_s : Kept q0 s) : Kept q0 (State.ssThermal s half) := by
  unfold State.ssThermal
  repeat' (first | with_reducible assumption | with_reducible apply kept_ite | with_reducible apply kept_fset | with_reducible apply kept_log')

theorem kept_execSsThermalSample {q0 : Base} (half : Nat) (s : State) (h_s : Kept q0 s) : KeptX q0 (execSsThermalSample half s) := by
  unfold execSsThermalSample
  repeat' (first | with_reducible assumption | with_reducible apply keptX_run | with_reducible apply kept_jobEnd | with_reducible apply kept_ssThermal)

theorem kept_hbmTemp {q0 : Base} (s : State) (t : Nat) (temp : Nat) (h_s : Kept q0 s) : Kept q0 (State.hbmTemp s t temp) := by
  unfold State.hbmTemp
  repeat' (first | with_reducible assumption | with_reducible apply kept_ite | with_reducible apply kept_log' | with_reducible apply kept_set)

theorem kept_execHbmTempRead {q0 : Base} (stack : Nat) (temp : Nat) (s : State) (h_s : Kept q0 s) : KeptX q0 (execHbmTempRead stack temp s) := by
  unfold execHbmTempRead
  repeat' (first | with_reducible assumption | with_reducible apply keptX_run | with_reducible apply kept_hbmTemp | with_reducible apply kept_jobEnd)

theorem kept_forcedTurn {q0 : Base} (s : State) (t : Nat) (h_s : Kept q0 s) : Kept q0 (State.forcedTurn s t) := by
  unfold State.forcedTurn
  repeat' (first | with_reducible assumption | with_reducible apply kept_ite | with_reducible apply kept_bump | with_reducible apply kept_hbmTurn | split)

theorem kept_execHbmForcedTurn {q0 : Base} (stack : Nat) (s : State) (h_s : Kept q0 s) : KeptX q0 (execHbmForcedTurn stack s) := by
  unfold execHbmForcedTurn
  repeat' (first | with_reducible assumption | with_reducible apply keptX_run | with_reducible apply kept_forcedTurn)

theorem kept_prefetch {q0 : Base} (s : State) (a : Nat) (cause : Bool) (h_s : Kept q0 s) : Kept q0 (State.prefetch s a cause) := by
  unfold State.prefetch
  repeat' (first | with_reducible assumption | with_reducible apply kept_ite | with_reducible apply kept_hbmReq | with_reducible apply kept_meetLine | with_reducible apply kept_sidePut)

theorem kept_boundCheck {q0 : Base} (s : State) (ag : Agent) (a : Nat) (path : Nat) (bound : Nat) (ns : Nat) (h_s : Kept q0 s) : Kept q0 (State.boundCheck s ag a path bound ns) := by
  unfold State.boundCheck
  repeat' (first | with_reducible assumption | with_reducible apply kept_ite | with_reducible apply kept_bset | with_reducible apply kept_bump | with_reducible apply kept_msix | with_reducible apply kept_record | with_reducible apply kept_set)

theorem kept_fillReturn {q0 : Base} (s : State) (a : Nat) (ns : Nat) (h_s : Kept q0 s) : Kept q0 (State.fillReturn s a ns) := by
  unfold State.fillReturn
  repeat' (first | with_reducible assumption | with_reducible apply kept_ite | with_reducible apply kept_answer | with_reducible apply kept_boundCheck | with_reducible apply kept_cohGo | with_reducible apply kept_countBytes | with_reducible apply kept_hbmReq | with_reducible apply kept_meetLine | with_reducible apply kept_ssInsert | with_reducible apply kept_ssRoom | split | (with_reducible apply kept_of_fst; with_reducible assumption) | (with_reducible apply kept_same; simp only [↓kept_mk, ↓keptF_self]))

theorem kept_execHbmFillReturn {q0 : Base} (addr : Nat) (ns : Nat) (s : State) (h_s : Kept q0 s) : KeptX q0 (execHbmFillReturn addr ns s) := by
  unfold execHbmFillReturn
  repeat' (first | with_reducible assumption | with_reducible apply keptX_next | with_reducible apply kept_fillReturn | with_reducible apply kept_jobEnd)

end Sys2Proof.Machine
end

