-- ==== Sys2Proof/Laws/KeepRegulate.lean ====
section
/-! SUPPORT. What the operations of Machine/Regulate.lean keep. -/

namespace Sys2Proof.Machine

theorem kept_overcommit {q0 : Base} (s : State) (h_s : Kept q0 s) : Kept q0 (State.overcommit s) := by
  unfold State.overcommit
  repeat' (first | with_reducible assumption | with_reducible apply kept_bset)

theorem kept_setRates {q0 : Base} (s : State) (p : Nat) (rn : Nat) (rs : Nat) (h_s : Kept q0 s) : Kept q0 (State.setRates s p rn rs) := by
  unfold State.setRates
  repeat' (first | with_reducible assumption | with_reducible apply kept_fset | with_reducible apply kept_overcommit)

theorem kept_setSrcs {q0 : Base} (s : State) (p : Nat) (first : Nat) (last : Nat) (h_s : Kept q0 s) : Kept q0 (State.setSrcs s p first last) := by
  unfold State.setSrcs
  repeat' (first | with_reducible assumption | with_reducible intro _ | with_reducible apply kept_foldl | with_reducible apply kept_fset)

theorem kept_partSet {q0 : Base} (s : State) (p : Nat) (first : Nat) (last : Nat) (rn : Nat) (rs : Nat) (more : State → State) (h_s : Kept q0 s) (h_more : ∀ s, Kept q0 s → Kept q0 (more s)) : KeptA q0 (State.partSet s p first last rn rs more) := by
  unfold State.partSet
  repeat' (first | with_reducible assumption | with_reducible apply keptA_done | with_reducible apply keptA_ite | with_reducible apply kept_invalid | with_reducible apply kept_refuse | with_reducible apply kept_setRates | with_reducible apply kept_setSrcs | with_reducible apply h_more)

theorem kept_execRegPartSet {q0 : Base} (q : Req) (part : Nat) (first : Nat) (last : Nat) (rate : Nat) (s : State) (h_s : Kept q0 s) : KeptX q0 (execRegPartSet q part first last rate s) := by
  unfold execRegPartSet
  repeat' (first | with_reducible assumption | with_reducible intro _ | with_reducible apply kept_id | with_reducible apply keptX_run | with_reducible apply kept_axotte | with_reducible apply kept_partSet)

theorem kept_execRegPartSetExpert {q0 : Base} (q : Req) (part : Nat) (first : Nat) (last : Nat) (rateN : Nat) (rateS : Nat) (burst : Nat) (share : Nat) (qlim : Nat) (s : State) (h_s : Kept q0 s) : KeptX q0 (execRegPartSetExpert q part first last rateN rateS burst share qlim s) := by
  unfold execRegPartSetExpert
  repeat' (first | with_reducible assumption | with_reducible intro _ | with_reducible apply keptX_run | with_reducible apply keptA_ite | with_reducible apply kept_axotte | with_reducible apply kept_fset | with_reducible apply kept_invalid | with_reducible apply kept_partSet)

theorem kept_classSet {q0 : Base} (s : State) (w1 : Nat) (w2 : Nat) (w3 : Nat) (h_s : Kept q0 s) : Kept q0 (State.classSet s w1 w2 w3) := by
  unfold State.classSet
  repeat' (first | with_reducible assumption | with_reducible apply kept_set)

theorem kept_execRegClassSet {q0 : Base} (q : Req) (w1 : Nat) (w2 : Nat) (w3 : Nat) (s : State) (h_s : Kept q0 s) : KeptX q0 (execRegClassSet q w1 w2 w3 s) := by
  unfold execRegClassSet
  repeat' (first | with_reducible assumption | with_reducible intro _ | with_reducible apply keptA_done | with_reducible apply keptX_run | with_reducible apply keptA_ite | with_reducible apply kept_axotte | with_reducible apply kept_classSet | with_reducible apply kept_invalid)

theorem kept_execRegClassSetExpert {q0 : Base} (q : Req) (w1 : Nat) (w2 : Nat) (w3 : Nat) (hi : Nat) (lo : Nat) (step : Nat) (s : State) (h_s : Kept q0 s) : KeptX q0 (execRegClassSetExpert q w1 w2 w3 hi lo step s) := by
  unfold execRegClassSetExpert
  repeat' (first | with_reducible assumption | with_reducible intro _ | with_reducible apply keptA_done | with_reducible apply keptX_run | with_reducible apply keptA_ite | with_reducible apply kept_axotte | with_reducible apply kept_classSet | with_reducible apply kept_invalid | with_reducible apply kept_set)

theorem kept_execRegSsShare {q0 : Base} (q : Req) (part : Nat) (eighths : Nat) (s : State) (h_s : Kept q0 s) : KeptX q0 (execRegSsShare q part eighths s) := by
  unfold execRegSsShare
  repeat' (first | with_reducible assumption | with_reducible intro _ | with_reducible apply keptA_done | with_reducible apply keptX_run | with_reducible apply keptA_ite | with_reducible apply kept_axotte | with_reducible apply kept_fset | with_reducible apply kept_invalid)

theorem kept_execRegSsShareExpert {q0 : Base} (q : Req) (ways : List Nat) (s : State) (h_s : Kept q0 s) : KeptX q0 (execRegSsShareExpert q ways s) := by
  unfold execRegSsShareExpert
  repeat' (first | with_reducible assumption | with_reducible intro _ | with_reducible apply kept_foldl | with_reducible apply keptA_done | with_reducible apply keptX_run | with_reducible apply keptA_ite | with_reducible apply kept_axotte | with_reducible apply kept_fset | with_reducible apply kept_invalid)

theorem kept_winOpen {q0 : Base} (s : State) (half : Nat) (h_s : Kept q0 s) : Kept q0 (State.winOpen s half) := by
  unfold State.winOpen
  repeat' (first | with_reducible assumption | (with_reducible apply kept_same; simp only [↓kept_mk, ↓keptF_self]))

theorem kept_execRegStatus {q0 : Base} (q : Req) (s : State) (h_s : Kept q0 s) : KeptX q0 (execRegStatus q s) := by
  unfold execRegStatus
  repeat' (first | with_reducible assumption | with_reducible intro _ | with_reducible apply keptA_done | with_reducible apply keptX_run | with_reducible apply kept_axotte)

theorem kept_regWindow {q0 : Base} (s : State) (half : Nat) (level : Nat) (demand : List Nat) (h_s : Kept q0 s) : Kept q0 (State.regWindow s half level demand) := by
  unfold State.regWindow
  repeat' (first | with_reducible assumption | with_reducible apply kept_ite | with_reducible apply kept_fset | with_reducible apply kept_winOpen | (with_reducible apply kept_same; simp only [↓kept_mk, ↓keptF_self]))

theorem kept_execRegWindowUpdate {q0 : Base} (half : Nat) (level : Nat) (demand : List Nat) (s : State) (h_s : Kept q0 s) : KeptX q0 (execRegWindowUpdate half level demand s) := by
  unfold execRegWindowUpdate
  repeat' (first | with_reducible assumption | with_reducible apply keptX_run | with_reducible apply kept_regPump | with_reducible apply kept_regWindow)

end Sys2Proof.Machine
end

