-- ==== Sys2Proof/Laws/KeepStore.lean ====
section
/-! SUPPORT. What the operations of Machine/Store.lean keep. -/

namespace Sys2Proof.Machine

theorem kept_recount {q0 : Base} (s : State) (h_s : Kept q0 s) : Kept q0 (State.recount s) := by
  unfold State.recount
  repeat' (first | with_reducible assumption | with_reducible intro _ | with_reducible apply kept_foldl | with_reducible apply kept_set)

theorem kept_modStore {q0 : Base} (s : State) (f : Store → Store) (h_s : Kept q0 s) : Kept q0 (State.modStore s f) := by
  unfold State.modStore
  repeat' (first | with_reducible assumption | with_reducible apply kept_recount | (with_reducible apply kept_same; simp only [↓kept_mk, ↓keptF_self]))

theorem kept_tableRead {q0 : Base} (s : State) (t : Nat) (h_s : Kept q0 s) : Kept q0 (State.tableRead s t) := by
  unfold State.tableRead
  repeat' (first | with_reducible assumption | with_reducible apply kept_ite | with_reducible apply kept_countMet | (with_reducible apply kept_same; simp only [↓kept_mk, ↓keptF_self]))

theorem kept_takeUnits {q0 : Base} (s : State) (t : Nat) (n : Nat) (h_s : Kept q0 s) : AllO (fun x => Kept q0 x.2) (State.takeUnits s t n) := by
  unfold State.takeUnits
  repeat' (first | with_reducible assumption | with_reducible apply allO_some | with_reducible apply allO_none | with_reducible apply kept_modStore | with_reducible apply kept_tableRead | split | dsimp only)

theorem kept_giveUnits {q0 : Base} (s : State) (t : Nat) (u : Nat) (n : Nat) (h_s : Kept q0 s) : Kept q0 (State.giveUnits s t u n) := by
  unfold State.giveUnits
  repeat' (first | with_reducible assumption | with_reducible apply kept_modStore)

theorem kept_setPd {q0 : Base} (s : State) (i : Nat) (d : PD) (h_s : Kept q0 s) : Kept q0 (State.setPd s i d) := by
  unfold State.setPd
  repeat' (first | with_reducible assumption | with_reducible apply kept_write)

theorem kept_poisonPage {q0 : Base} (s : State) (i : Nat) (h_s : Kept q0 s) : Kept q0 (State.poisonPage s i) := by
  unfold State.poisonPage
  repeat' (first | with_reducible assumption | with_reducible apply kept_setPd)

theorem kept_put8 {q0 : Base} (s : State) (a : Nat) (v : Nat) (h_s : Kept q0 s) : Kept q0 (State.put8 s a v) := by
  unfold State.put8
  repeat' (first | with_reducible assumption | with_reducible apply kept_write)

theorem kept_put4 {q0 : Base} (s : State) (a : Nat) (v : Nat) (h_s : Kept q0 s) : Kept q0 (State.put4 s a v) := by
  unfold State.put4
  repeat' (first | with_reducible assumption | with_reducible apply kept_write)

theorem kept_takeChunks {q0 : Base} (s : State) (n : Nat) (h_s : Kept q0 s) : AllO (fun x => Kept q0 x.2) (State.takeChunks s n) := by
  unfold State.takeChunks
  repeat' (first | with_reducible assumption | with_reducible apply allO_some | with_reducible apply allO_none | with_reducible apply kept_zero | split | (with_reducible apply kept_same; simp only [↓kept_mk, ↓keptF_self]))

theorem kept_giveChunks {q0 : Base} (s : State) (as : List Nat) (h_s : Kept q0 s) : Kept q0 (State.giveChunks s as) := by
  unfold State.giveChunks
  repeat' (first | with_reducible assumption | (with_reducible apply kept_same; simp only [↓kept_mk, ↓keptF_self]))

theorem kept_takeDesc {q0 : Base} (s : State) (h_s : Kept q0 s) : AllO (fun x => Kept q0 x.2) (State.takeDesc s) := by
  unfold State.takeDesc
  repeat' (first | with_reducible assumption | with_reducible apply allO_some | with_reducible apply allO_none | with_reducible apply kept_modStore | with_reducible apply kept_tableRead | split)

theorem kept_epochIn {q0 : Base} (s : State) (tier : Nat) (e : Nat) (h_s : Kept q0 s) : Kept q0 (State.epochIn s tier e) := by
  unfold State.epochIn
  repeat' (first | with_reducible assumption | with_reducible apply kept_ite | (with_reducible apply kept_same; simp only [↓kept_mk, ↓keptF_self]))

theorem kept_epochOut {q0 : Base} (s : State) (tier : Nat) (e : Nat) (h_s : Kept q0 s) : Kept q0 (State.epochOut s tier e) := by
  unfold State.epochOut
  repeat' (first | with_reducible assumption | with_reducible apply kept_ite | (with_reducible apply kept_same; simp only [↓kept_mk, ↓keptF_self]))

theorem kept_epochCheck {q0 : Base} (s : State) (e : Nat) (h_s : Kept q0 s) : Kept q0 (State.epochCheck s e) := by
  unfold State.epochCheck
  repeat' (first | with_reducible assumption | with_reducible apply kept_ite | with_reducible apply kept_breach | with_reducible apply kept_countMet | (with_reducible apply kept_same; simp only [↓kept_mk, ↓keptF_self]))

theorem kept_storeInitGo {q0 : Base} (s : State) (base : Nat) (len : Nat) (sl : Nat) (d : Nat) (c : Nat) (t0 : List Nat) (h_s : Kept q0 s) : KeptA q0 (State.storeInitGo s base len sl d c t0) := by
  unfold State.storeInitGo
  repeat' (first | with_reducible assumption | with_reducible apply keptA_done | with_reducible apply keptA_ite | with_reducible apply kept_bset | with_reducible apply kept_invalid | with_reducible apply kept_modStore | with_reducible apply kept_refuse | with_reducible apply kept_set | with_reducible apply kept_zero | (with_reducible apply kept_same; simp only [↓kept_mk, ↓keptF_self]))

theorem kept_execCtxStoreInit {q0 : Base} (q : Req) (base : Nat) (len : Nat) (s' : Nat) (d : Nat) (s : State) (h_s : Kept q0 s) : KeptX q0 (execCtxStoreInit q base len s' d s) := by
  unfold execCtxStoreInit
  repeat' (first | with_reducible assumption | with_reducible intro _ | with_reducible apply keptX_run | with_reducible apply kept_axotte | with_reducible apply kept_storeInitGo)

theorem kept_execCtxStoreInitExpert {q0 : Base} (q : Req) (base : Nat) (len : Nat) (s' : Nat) (d : Nat) (c : Nat) (t0 : List Nat) (s : State) (h_s : Kept q0 s) : KeptX q0 (execCtxStoreInitExpert q base len s' d c t0 s) := by
  unfold execCtxStoreInitExpert
  repeat' (first | with_reducible assumption | with_reducible intro _ | with_reducible apply keptX_run | with_reducible apply kept_axotte | with_reducible apply kept_storeInitGo)

theorem kept_onStore {q0 : Base} (s : State) (f : State → AxR) (h_s : Kept q0 s) (h_f : ∀ s, Kept q0 s → KeptA q0 (f s)) : KeptA q0 (onStore s f) := by
  unfold onStore
  repeat' (first | with_reducible assumption | with_reducible apply keptA_ite | with_reducible apply kept_refuse | with_reducible apply h_f)

theorem kept_onSeq {q0 : Base} (s : State) (q : Nat) (f : State → AxR) (h_s : Kept q0 s) (h_f : ∀ s, Kept q0 s → KeptA q0 (f s)) : KeptA q0 (onSeq s q f) := by
  unfold onSeq
  repeat' (first | with_reducible assumption | with_reducible intro _ | with_reducible apply keptA_ite | with_reducible apply kept_onStore | with_reducible apply kept_refuse | with_reducible apply h_f)

theorem kept_seqOpen {q0 : Base} (s : State) (q : Nat) (ctx : Nat) (groups : Nat) (elems : Nat) (wfmt : Nat) (ppp : Nat) (win : Nat) (cls : Nat) (kinds : List Nat) (h_s : Kept q0 s) : KeptA q0 (State.seqOpen s q ctx groups elems wfmt ppp win cls kinds) := by
  unfold State.seqOpen
  repeat' (first | with_reducible assumption | with_reducible intro _ | with_reducible apply kept_foldl | with_reducible apply keptA_done | with_reducible apply keptA_ite | with_reducible apply kept_invalid | with_reducible apply kept_put4 | with_reducible apply kept_put8 | with_reducible apply kept_refuse | with_reducible apply kept_takeChunks | split | (with_reducible apply kept_of_some2; with_reducible assumption))

theorem kept_execCtxSeqOpen {q0 : Base} (q : Req) (seq : Nat) (ctx : Nat) (groups : Nat) (rowElems : Nat) (wfmt : Nat) (ppp : Nat) (window : W64) (s : State) (h_s : Kept q0 s) : KeptX q0 (execCtxSeqOpen q seq ctx groups rowElems wfmt ppp window s) := by
  unfold execCtxSeqOpen
  repeat' (first | with_reducible assumption | with_reducible intro _ | with_reducible apply keptX_run | with_reducible apply keptA_ite | with_reducible apply kept_axotte | with_reducible apply kept_invalid | with_reducible apply kept_onStore | with_reducible apply kept_seqOpen)

theorem kept_execCtxSeqOpenExpert {q0 : Base} (q : Req) (seq : Nat) (ctx : Nat) (groups : Nat) (rowElems : Nat) (wfmt : Nat) (ppp : Nat) (window : W64) (policy : Nat) (kinds : W64) (s : State) (h_s : Kept q0 s) : KeptX q0 (execCtxSeqOpenExpert q seq ctx groups rowElems wfmt ppp window policy kinds s) := by
  unfold execCtxSeqOpenExpert
  repeat' (first | with_reducible assumption | with_reducible intro _ | with_reducible apply keptX_run | with_reducible apply keptA_ite | with_reducible apply kept_axotte | with_reducible apply kept_invalid | with_reducible apply kept_onStore | with_reducible apply kept_refuse | with_reducible apply kept_seqOpen | with_reducible apply kept_withImage | split)

theorem kept_execCtxSeqClose {q0 : Base} (q : Req) (seq : Nat) (obj : Nat) (s : State) (h_s : Kept q0 s) : KeptX q0 (execCtxSeqClose q seq obj s) := by
  unfold execCtxSeqClose
  repeat' (first | with_reducible assumption | with_reducible intro _ | with_reducible apply keptA_done | with_reducible apply keptX_run | with_reducible apply keptA_ite | with_reducible apply kept_axotte | with_reducible apply kept_invalid | with_reducible apply kept_onSeq | with_reducible apply kept_put8 | (with_reducible apply kept_same; simp only [↓kept_mk, ↓keptF_self]))

theorem kept_freePage {q0 : Base} (s : State) (i : Nat) (h_s : Kept q0 s) : Kept q0 (State.freePage s i) := by
  unfold State.freePage
  repeat' (first | with_reducible assumption | with_reducible apply kept_ite | with_reducible apply kept_epochOut | with_reducible apply kept_giveUnits | with_reducible apply kept_modStore | with_reducible apply kept_poisonPage | with_reducible apply kept_zero)

theorem kept_settOut {q0 : Base} (s : State) (i : Nat) (v : MoveSt) (p : Nat × List Byte) (hs : Kept q0 s) : Kept q0 (State.settOut s i v p).1 := by
  unfold State.settOut
  split
  · split
    · rename_i m t e
      exact kept_of_sent e (kept_tksAsk _ _ _ hs)
    · exact hs
  · refine kept_pair ?_
    exact kept_gWrite _ _ _ _ _ _ _ hs

theorem kept_settsOut {q0 : Base} (s : State) (i : Nat) (v : MoveSt) (h_s : Kept q0 s) : Kept q0 (State.settsOut s i v).1 :=
  kept_foldl_fst (fun a p h => kept_settOut _ i _ p h) h_s

theorem kept_zeroPage {q0 : Base} (s : State) (i : Nat) (h_s : Kept q0 s) : Kept q0 (State.zeroPage s i) := by
  unfold State.zeroPage
  repeat' (first | with_reducible assumption | with_reducible apply kept_ite | with_reducible apply kept_settsOut | split | (with_reducible apply kept_same; simp only [↓kept_mk, ↓keptF_self]))

theorem kept_seqFinish {q0 : Base} (s : State) (q : Nat) (h_s : Kept q0 s) : Kept q0 (State.seqFinish s q) := by
  unfold State.seqFinish
  repeat' (first | with_reducible assumption | with_reducible intro _ | with_reducible apply kept_foldl | with_reducible apply kept_ite | with_reducible apply kept_freePage | with_reducible apply kept_giveChunks | with_reducible apply kept_signal | with_reducible apply kept_zero | with_reducible apply kept_zeroPage | split | (with_reducible apply kept_same; simp only [↓kept_mk, ↓keptF_self]))

theorem kept_execCtxSeqQuery {q0 : Base} (q : Req) (seq : Nat) (s : State) (h_s : Kept q0 s) : KeptX q0 (execCtxSeqQuery q seq s) := by
  unfold execCtxSeqQuery
  repeat' (first | with_reducible assumption | with_reducible intro _ | with_reducible apply keptA_done | with_reducible apply keptX_run | with_reducible apply kept_axotte | with_reducible apply kept_onSeq)

theorem kept_takeFrame {q0 : Base} (s : State) (tier : Nat) (h_s : Kept q0 s) : AllO (fun x => Kept q0 x.2.2) (State.takeFrame s tier) := by
  intro y e
  unfold State.takeFrame at e
  split at e
  · rename_i u t he
    cases e
    exact kept_of_some2 he (kept_takeUnits _ _ _ h_s)
  · split at e
    · cases hu : s.takeUnits 1 1 with
      | none => rw [hu] at e; cases e
      | some x => rw [hu] at e; cases e; exact kept_takeUnits _ _ _ h_s x hu
    · cases e

theorem kept_linkPage {q0 : Base} (s : State) (q : Nat) (g : Nat) (i : Nat) (h_s : Kept q0 s) : AllO (Kept q0) (State.linkPage s q g i) := by
  unfold State.linkPage
  repeat' (first | with_reducible assumption | with_reducible apply allO_some | with_reducible apply allO_none | with_reducible apply kept_put4 | with_reducible apply kept_put8 | with_reducible apply kept_takeChunks | split | (with_reducible apply kept_of_some2; with_reducible assumption) | dsimp only)

theorem kept_appendPage {q0 : Base} (s : State) (q : Nat) (g : Nat) (h_s : Kept q0 s) : AllR (fun x => Kept q0 x.2) (State.appendPage s q g) := by
  unfold State.appendPage
  repeat' (first | with_reducible assumption | with_reducible apply allR_inr | with_reducible apply allR_inl | with_reducible apply kept_linkPage | with_reducible apply kept_mapRange | with_reducible apply kept_put8 | with_reducible apply kept_setPd | with_reducible apply kept_takeDesc | with_reducible apply kept_takeFrame | split | (with_reducible apply kept_of_some; with_reducible assumption) | (with_reducible apply kept_of_some2; with_reducible assumption) | (with_reducible apply kept_of_some3; with_reducible assumption) | (with_reducible apply kept_same; simp only [↓kept_mk, ↓keptF_self]) | dsimp only)

theorem kept_appendAll {q0 : Base} (q : Nat) : ∀ (i0 : List Nat) (s : State), Kept q0 s → AllR (fun x => Kept q0 x.2) (State.appendAll s q i0) := by
  intro i0
  induction i0 with
  | nil =>
    intros
    unfold State.appendAll
    repeat' (first | with_reducible assumption | with_reducible apply allR_inr)
  | cons a l ih =>
    intros
    unfold State.appendAll
    repeat' (first | with_reducible assumption | with_reducible apply allR_inr | with_reducible apply allR_inl | with_reducible apply kept_appendPage | with_reducible apply ih | split | (with_reducible apply kept_of_inr2; with_reducible assumption))

theorem kept_appendEnd {q0 : Base} (s : State) (w : AppendW) (h_s : Kept q0 s) : Kept q0 (State.appendEnd s w) := by
  unfold State.appendEnd
  repeat' (first | with_reducible assumption | with_reducible apply kept_ite | with_reducible apply kept_axFinish | split | (with_reducible apply kept_same; simp only [↓kept_mk, ↓keptF_self]))

theorem kept_appendTry {q0 : Base} (s : State) (w : AppendW) (h_s : Kept q0 s) : Kept q0 (State.appendTry s w) := by
  unfold State.appendTry
  repeat' (first | with_reducible assumption | with_reducible apply kept_appendAll | with_reducible apply kept_appendEnd | with_reducible apply kept_axFinish | split | (with_reducible apply kept_of_inr2; with_reducible assumption) | (with_reducible apply kept_same; simp only [↓kept_mk, ↓keptF_self]))

theorem kept_appendRetry {q0 : Base} (s : State) (h_s : Kept q0 s) : Kept q0 (State.appendRetry s) := by
  unfold State.appendRetry
  repeat' (first | with_reducible assumption | with_reducible intro _ | with_reducible apply kept_foldl | with_reducible apply kept_appendTry)

theorem kept_execCtxPageAppend {q0 : Base} (q : Req) (seq : Nat) (gFirst : Nat) (gCount : Nat) (s : State) (h_s : Kept q0 s) : KeptX q0 (execCtxPageAppend q seq gFirst gCount s) := by
  unfold execCtxPageAppend
  repeat' (first | with_reducible assumption | with_reducible intro _ | with_reducible apply keptA_wait | with_reducible apply keptX_run | with_reducible apply keptA_ite | with_reducible apply kept_appendTry | with_reducible apply kept_axotte | with_reducible apply kept_invalid | with_reducible apply kept_onSeq | with_reducible apply kept_refuse | (with_reducible apply kept_same; simp only [↓kept_mk, ↓keptF_self]))

theorem kept_appendTimeout {q0 : Base} (s : State) (m : Nat) (h_s : Kept q0 s) : Kept q0 (State.appendTimeout s m) := by
  unfold State.appendTimeout
  repeat' (first | with_reducible assumption | with_reducible apply kept_axFinish | split | (with_reducible apply kept_same; simp only [↓kept_mk, ↓keptF_self]))

theorem kept_execCtxAppendTimeout {q0 : Base} (mbx : Nat) (s : State) (h_s : Kept q0 s) : KeptX q0 (execCtxAppendTimeout mbx s) := by
  unfold execCtxAppendTimeout
  repeat' (first | with_reducible assumption | with_reducible apply keptX_run | with_reducible apply kept_appendTimeout)

theorem kept_sealGo {q0 : Base} (s : State) (u : SealU) (h_s : Kept q0 s) : AllO (Kept q0) (State.sealGo s u) := by
  unfold State.sealGo
  repeat' (first | with_reducible assumption | with_reducible apply allO_some | with_reducible apply allO_none | with_reducible apply kept_invGo | with_reducible apply kept_set | split)

theorem kept_sealPump {q0 : Base}  : ∀ (i0 : Nat) (s : State), Kept q0 s → Kept q0 (State.sealPump s i0) := by
  intro i0
  induction i0 with
  | zero =>
    intros
    unfold State.sealPump
    repeat' with_reducible assumption
  | succ n ih =>
    intros
    unfold State.sealPump
    repeat' (first | with_reducible assumption | with_reducible apply kept_sealGo | with_reducible apply ih | split | (with_reducible apply kept_of_some; with_reducible assumption) | (with_reducible apply kept_same; simp only [↓kept_mk, ↓keptF_self]))

theorem kept_commitPage {q0 : Base} (s : State) (q : Nat) (len : Nat) (c : Nat) (p : Nat × Nat) (h_s : Kept q0 s) : Kept q0 (State.commitPage s q len c p).1 := by
  unfold State.commitPage
  repeat' (first | with_reducible assumption | with_reducible apply kept_poisonPage | with_reducible apply kept_put4 | with_reducible apply kept_setPd | with_reducible apply kept_unmapPage | split | (with_reducible apply kept_same; simp only [↓kept_mk, ↓keptF_self]))

theorem kept_storeSet {q0 : Base} (s : State) (x : Store) (h_s : Kept q0 s) : Kept q0 { s with store := x } := h_s

theorem kept_commit {q0 : Base} (s : State) (q : Nat) (len : Nat) (obj : Nat) (h_s : Kept q0 s) :
    KeptA q0 (State.commit s q len obj) := by
  unfold State.commit
  split
  · exact kept_invalid _ h_s
  · extract_lets c s1
    have h1 : Kept q0 s1 := kept_put8 _ _ _ h_s
    clear_value s1 c
    split
    rename_i s2 n he
    have h2 : Kept q0 s2 := kept_of_fst he (kept_foldl_fst (fun a x h => kept_commitPage _ _ _ _ _ h) h1)
    extract_lets st3 s3 st4 s4
    have h3 : Kept q0 s3 := kept_storeSet _ _ h2
    clear_value s3
    split
    · exact keptA_done (kept_signal _ _ h3)
    · exact keptA_done (kept_sealPump _ _ (kept_storeSet _ _ h3))

theorem kept_execCtxPageCommit {q0 : Base} (q : Req) (seq : Nat) (len : Nat) (obj : Nat) (s : State) (h_s : Kept q0 s) : KeptX q0 (execCtxPageCommit q seq len obj s) := by
  unfold execCtxPageCommit
  repeat' (first | with_reducible assumption | with_reducible intro _ | with_reducible apply keptX_run | with_reducible apply keptA_ite | with_reducible apply kept_axotte | with_reducible apply kept_commit | with_reducible apply kept_invalid | with_reducible apply kept_onSeq)

theorem kept_sealDone {q0 : Base} (s : State) (c : Nat) (h_s : Kept q0 s) : Kept q0 (State.sealDone s c) := by
  unfold State.sealDone
  repeat' (first | with_reducible assumption | with_reducible apply kept_ite | with_reducible apply kept_appendRetry | with_reducible apply kept_sealPump | with_reducible apply kept_signal | (with_reducible apply kept_same; simp only [↓kept_mk, ↓keptF_self]))

theorem kept_execSeqCloseFinish {q0 : Base} (seq : Nat) (s : State) (h_s : Kept q0 s) : KeptX q0 (execSeqCloseFinish seq s) := by
  unfold execSeqCloseFinish
  repeat' (first | with_reducible assumption | with_reducible apply keptX_next | with_reducible apply kept_appendRetry | with_reducible apply kept_seqFinish)

end Sys2Proof.Machine
end

