-- ==== Sys2Proof/Laws/KeepHoist.lean ====
section
/-! SUPPORT. What the operations of Machine/Hoist.lean keep. -/

namespace Sys2Proof.Machine

theorem kept_pageRaw {q0 : Base} (s : State) (m : Master) (tc : Nat) (i : Nat) (d : PD) (got : Tbl (List Byte)) (h_s : Kept q0 s) : Kept q0 (State.pageRaw s m tc i d got).2.2 := by
  unfold State.pageRaw
  repeat' (first | with_reducible assumption | with_reducible apply kept_gRead | split)

theorem kept_pageHole {q0 : Base} (s : State) (n : Nat) (d : PD) (h_s : Kept q0 s) : Kept q0 (State.pageHole s n d) := by
  unfold State.pageHole
  repeat' (first | with_reducible assumption | with_reducible apply kept_hole)

theorem kept_setMove {q0 : Base} (s : State) (i : Nat) (v : MoveSt) (h_s : Kept q0 s) : Kept q0 (State.setMove s i v) := by
  unfold State.setMove
  repeat' (first | with_reducible assumption | (with_reducible apply kept_same; simp only [↓kept_mk, ↓keptF_self]))

theorem kept_dropMove {q0 : Base} (s : State) (i : Nat) (h_s : Kept q0 s) : Kept q0 (State.dropMove s i) := by
  unfold State.dropMove
  repeat' (first | with_reducible assumption | (with_reducible apply kept_same; simp only [↓kept_mk, ↓keptF_self]))

theorem kept_choose {q0 : Base} (s : State) (i : Nat) (tier : Nat) (fmt : Nat) (h_s : Kept q0 s) : Kept q0 (State.choose s i tier fmt) := by
  unfold State.choose
  repeat' (first | with_reducible assumption | with_reducible apply kept_setMove)

theorem kept_abandon {q0 : Base} (s : State) (i : Nat) (h : Nat) (poison : Bool) (h_s : Kept q0 s) : Kept q0 (State.abandon s i h poison) := by
  unfold State.abandon
  repeat' (first | with_reducible assumption | with_reducible apply kept_ite | with_reducible apply kept_bump | with_reducible apply kept_dropMove | with_reducible apply kept_giveUnits | with_reducible apply kept_poisonPage | split)

theorem kept_moveFailed {q0 : Base} (s : State) (i : Nat) (h : Nat) (h_s : Kept q0 s) : Kept q0 (State.moveFailed s i h) := by
  unfold State.moveFailed
  repeat' (first | with_reducible assumption | with_reducible apply kept_ite | with_reducible apply kept_abandon | with_reducible apply kept_setMove | split)

theorem kept_fillSetts {q0 : Base} (s : State) (bs : List Byte) (n : Nat) (h_s : Kept q0 s) : Kept q0 (State.fillSetts s bs n).2 := by
  unfold State.fillSetts
  repeat' (first | with_reducible assumption | (with_reducible apply kept_same; simp only [↓kept_mk, ↓keptF_self]))

theorem kept_moveWrite {q0 : Base} (s : State) (i h : Nat) (v : MoveSt) (bs : List Byte) (h_s : Kept q0 s) : Kept q0 (State.moveWrite s i h v bs).1 := by
  unfold State.moveWrite
  split
  · exact kept_settsOut _ _ _ h_s
  · refine kept_pair ?_
    exact kept_gWrite _ _ _ _ _ _ _ h_s

theorem kept_moveDo {q0 : Base} (s : State) (i : Nat) (h : Nat) (v : MoveSt) (h_s : Kept q0 s) : Kept q0 (State.moveDo s i h v) := by
  unfold State.moveDo
  repeat' (first | with_reducible assumption | with_reducible apply kept_ite | with_reducible apply kept_abandon | with_reducible apply kept_bump | with_reducible apply kept_fillSetts | with_reducible apply kept_moveWrite | with_reducible apply kept_pageRaw | with_reducible apply kept_setMove | split)

theorem kept_moveAsk {q0 : Base} (s : State) (i : Nat) (d : PD) (v : MoveSt) (h_s : Kept q0 s) : Kept q0 (State.moveAsk s i d v).1 := by
  unfold State.moveAsk
  repeat' (first | with_reducible assumption | with_reducible intro _ | with_reducible apply kept_foldl_fst | with_reducible apply kept_tksAsk | split | (with_reducible apply kept_of_sent; with_reducible assumption))

theorem kept_moveGo {q0 : Base} (s : State) (i : Nat) (h : Nat) (v : MoveSt) (h_s : Kept q0 s) : Kept q0 (State.moveGo s i h v) := by
  unfold State.moveGo
  repeat' (first | with_reducible assumption | with_reducible apply kept_ite | with_reducible apply kept_abandon | with_reducible apply kept_gAsk | with_reducible apply kept_moveAsk | with_reducible apply kept_moveDo | with_reducible apply kept_pageHole | with_reducible apply kept_setMove | split | (with_reducible apply kept_same; simp only [↓kept_mk, ↓keptF_self]))

theorem kept_moveStart {q0 : Base} (s : State) (i : Nat) (h : Nat) (h_s : Kept q0 s) : Kept q0 (State.moveStart s i h) := by
  unfold State.moveStart
  repeat' (first | with_reducible assumption | with_reducible apply kept_ite | with_reducible apply kept_abandon | with_reducible apply kept_moveGo | with_reducible apply kept_setMove | with_reducible apply kept_settsOut | with_reducible apply kept_takeUnits | split | (with_reducible apply kept_of_some2; with_reducible assumption) | (with_reducible apply kept_same; simp only [↓kept_mk, ↓keptF_self]))

theorem kept_execPageMoveStart {q0 : Base} (desc : Nat) (hoist : Nat) (s : State) (h_s : Kept q0 s) : KeptX q0 (execPageMoveStart desc hoist s) := by
  unfold execPageMoveStart
  repeat' (first | with_reducible assumption | with_reducible apply keptX_run | with_reducible apply kept_moveStart)

theorem kept_moveRewrite {q0 : Base} (s : State) (i : Nat) (h_s : Kept q0 s) : Kept q0 (State.moveRewrite s i) := by
  unfold State.moveRewrite
  repeat' (first | with_reducible assumption | with_reducible apply kept_ite | with_reducible apply kept_abandon | with_reducible apply kept_epochIn | with_reducible apply kept_epochOut | with_reducible apply kept_setMove | with_reducible apply kept_setPd | split)

theorem kept_execPageMoveDescriptorRewrite {q0 : Base} (desc : Nat) (s : State) (h_s : Kept q0 s) : KeptX q0 (execPageMoveDescriptorRewrite desc s) := by
  unfold execPageMoveDescriptorRewrite
  repeat' (first | with_reducible assumption | with_reducible apply keptX_next | with_reducible apply kept_moveRewrite)

theorem kept_moveFree {q0 : Base} (s : State) (i : Nat) (h_s : Kept q0 s) : Kept q0 (State.moveFree s i) := by
  unfold State.moveFree
  repeat' (first | with_reducible assumption | with_reducible apply kept_ite | with_reducible apply kept_appendRetry | with_reducible apply kept_bump | with_reducible apply kept_dropMove | with_reducible apply kept_giveUnits | split)

theorem kept_execPageMoveSourceFree {q0 : Base} (desc : Nat) (s : State) (h_s : Kept q0 s) : KeptX q0 (execPageMoveSourceFree desc s) := by
  unfold execPageMoveSourceFree
  repeat' (first | with_reducible assumption | with_reducible apply keptX_next | with_reducible apply kept_moveFree)

theorem kept_demote1 {q0 : Base} (s : State) (t : Nat) (h_s : Kept q0 s) : AllO (Kept q0) (State.demote1 s t) := by
  unfold State.demote1
  repeat' (first | with_reducible assumption | with_reducible apply allO_some | with_reducible apply allO_none | with_reducible apply kept_choose | split | (with_reducible apply kept_same; simp only [↓kept_mk, ↓keptF_self]) | dsimp only)

theorem kept_demoteGo {q0 : Base} (t : Nat) : ∀ (i0 : Nat) (s : State), Kept q0 s → Kept q0 (State.demoteGo s t i0) := by
  intro i0
  induction i0 with
  | zero =>
    intros
    unfold State.demoteGo
    repeat' with_reducible assumption
  | succ n ih =>
    intros
    unfold State.demoteGo
    repeat' (first | with_reducible assumption | with_reducible apply kept_ite | with_reducible apply kept_demote1 | with_reducible apply ih | split | (with_reducible apply kept_of_some; with_reducible assumption))

theorem kept_execPageDemotion {q0 : Base} (tier : Nat) (s : State) (h_s : Kept q0 s) : KeptX q0 (execPageDemotion tier s) := by
  unfold execPageDemotion
  repeat' (first | with_reducible assumption | with_reducible apply keptX_run | with_reducible apply kept_ite | with_reducible apply kept_demoteGo)

theorem kept_promote {q0 : Base} (s : State) (i : Nat) (t : Nat) (h_s : Kept q0 s) : Kept q0 (State.promote s i t) := by
  unfold State.promote
  repeat' (first | with_reducible assumption | with_reducible apply kept_ite | with_reducible apply kept_choose | (with_reducible apply kept_same; simp only [↓kept_mk, ↓keptF_self]))

theorem kept_execPagePromotion {q0 : Base} (desc : Nat) (tier : Nat) (s : State) (h_s : Kept q0 s) : KeptX q0 (execPagePromotion desc tier s) := by
  unfold execPagePromotion
  repeat' (first | with_reducible assumption | with_reducible apply keptX_run | with_reducible apply kept_promote)

theorem kept_reencrypt {q0 : Base} (s : State) (i : Nat) (h_s : Kept q0 s) : Kept q0 (State.reencrypt s i) := by
  unfold State.reencrypt
  repeat' (first | with_reducible assumption | with_reducible apply kept_ite | with_reducible apply kept_choose)

theorem kept_execEpochReencryptPass {q0 : Base} (desc : Nat) (s : State) (h_s : Kept q0 s) : KeptX q0 (execEpochReencryptPass desc s) := by
  unfold execEpochReencryptPass
  repeat' (first | with_reducible assumption | with_reducible apply keptX_next | with_reducible apply kept_reencrypt)

theorem kept_retire {q0 : Base} (s : State) (h_s : Kept q0 s) : Kept q0 (State.retire s) := by
  unfold State.retire
  repeat' (first | with_reducible assumption | with_reducible apply kept_ite | with_reducible apply kept_bset | with_reducible apply kept_epochCheck | with_reducible apply kept_log' | (with_reducible apply kept_same; simp only [↓kept_mk, ↓keptF_self]))

theorem kept_execOldEpochRetire {q0 : Base} (s : State) (h_s : Kept q0 s) : KeptX q0 (execOldEpochRetire s) := by
  unfold execOldEpochRetire
  repeat' (first | with_reducible assumption | with_reducible apply keptX_next | with_reducible apply kept_retire)

theorem kept_setLane {q0 : Base} (s : State) (n : Nat) (k : Nat) (l : Lane) (h_s : Kept q0 s) : Kept q0 (State.setLane s n k l) := by
  unfold State.setLane
  repeat' (first | with_reducible assumption | (with_reducible apply kept_same; simp only [↓kept_mk, ↓keptF_self]))

theorem kept_setGather {q0 : Base} (s : State) (n : Nat) (k : Nat) (g : Option Gather) (h_s : Kept q0 s) : Kept q0 (State.setGather s n k g) := by
  unfold State.setGather
  repeat' (first | with_reducible assumption | with_reducible apply kept_setLane | split)

theorem kept_flitsOf {q0 : Base} (s : State) (bs : List Byte) (w : Nat) (bad : List Bool) (h_s : Kept q0 s) : Kept q0 (State.flitsOf s bs w bad).2 := by
  unfold State.flitsOf
  repeat' (first | with_reducible assumption | (with_reducible apply kept_same; simp only [↓kept_mk, ↓keptF_self]))

theorem kept_operandFlits {q0 : Base} (s : State) (df : Nat) (gs : List (List (List Nat × Nat × Nat) × List Bool)) (h_s : Kept q0 s) : Kept q0 (State.operandFlits s df gs).2.2 := by
  unfold State.operandFlits
  repeat' (first | with_reducible assumption | with_reducible intro _ | with_reducible apply kept_foldl_snd | with_reducible apply kept_flitsOf | split)

theorem kept_gatherFlits {q0 : Base} (s : State) (g : Gather) (ps : List GPage) (h_s : Kept q0 s) : Kept q0 (State.gatherFlits s g ps).2.2.2 := by
  unfold State.gatherFlits
  repeat' (first | with_reducible assumption | with_reducible intro _ | with_reducible apply kept_foldl_fth | with_reducible apply kept_operandFlits)

theorem kept_gatherAsk {q0 : Base} (s : State) (n : Nat) (k : Nat) (g : Gather) (h_s : Kept q0 s) : AllO (fun x => Kept q0 x.1) (State.gatherAsk s n k g) := by
  unfold State.gatherAsk
  repeat' (first | with_reducible assumption | with_reducible intro _ | with_reducible apply allO_foldl | with_reducible apply allO_some | with_reducible apply allO_none | with_reducible apply kept_tksAsk | split | (with_reducible apply kept_of_sent; with_reducible assumption) | (with_reducible apply kept_of_some1 rfl; with_reducible assumption))

theorem kept_gatherMake {q0 : Base} (s : State) (n : Nat) (k : Nat) (g : Gather) (h_s : Kept q0 s) : Kept q0 (State.gatherMake s n k g) := by
  unfold State.gatherMake
  repeat' (first | with_reducible assumption | with_reducible intro _ | with_reducible apply kept_foldl | with_reducible apply kept_foldl_snd | with_reducible apply kept_bump | with_reducible apply kept_gatherFlits | with_reducible apply kept_lanePush | with_reducible apply kept_pageRaw | with_reducible apply kept_poisonPage | with_reducible apply kept_setGather)

theorem kept_gatherGo {q0 : Base} (s : State) (n : Nat) (k : Nat) (g : Gather) (h_s : Kept q0 s) : Kept q0 (State.gatherGo s n k g) := by
  unfold State.gatherGo
  repeat' (first | with_reducible assumption | with_reducible intro _ | with_reducible apply kept_foldl | with_reducible apply kept_ite | with_reducible apply kept_gAsk | with_reducible apply kept_gatherAsk | with_reducible apply kept_gatherMake | with_reducible apply kept_hoistKill | with_reducible apply kept_pageHole | with_reducible apply kept_poisonPage | with_reducible apply kept_regCount | with_reducible apply kept_setGather | split | (with_reducible apply kept_of_some1; with_reducible assumption) | (with_reducible apply kept_same; simp only [↓kept_mk, ↓keptF_self]))

theorem kept_gatherBegin {q0 : Base} (s : State) (n : Nat) (k : Nat) (va : Nat) (l : Lane) (ws : List W64) (h_s : Kept q0 s) : Kept q0 (State.gatherBegin s n k va l ws) := by
  unfold State.gatherBegin
  repeat' (first | with_reducible assumption | with_reducible apply kept_ite | with_reducible apply kept_gatherGo | with_reducible apply kept_hoistKill | with_reducible apply kept_setGather | (with_reducible apply kept_same; simp only [↓kept_mk, ↓keptF_self]))

theorem kept_laneHold {q0 : Base} (s : State) (n : Nat) (k : Nat) (va : Nat) (g : Nat) (h_s : Kept q0 s) : Kept q0 (State.laneHold s n k va g) := by
  unfold State.laneHold
  repeat' (first | with_reducible assumption | with_reducible apply kept_laneRefRead | with_reducible apply kept_setLane | split)

theorem kept_laneGive {q0 : Base} (s : State) (n : Nat) (k : Nat) (h_s : Kept q0 s) : Kept q0 (State.laneGive s n k) := by
  unfold State.laneGive
  repeat' (first | with_reducible assumption | with_reducible apply kept_laneRefRead | with_reducible apply kept_setLane | split)

theorem kept_laneSettle {q0 : Base} (s : State) (h_s : Kept q0 s) : Kept q0 (State.laneSettle s) := by
  unfold State.laneSettle
  repeat' (first | with_reducible assumption | with_reducible intro _ | with_reducible apply kept_foldl | with_reducible apply kept_ite | with_reducible apply kept_farUsed | with_reducible apply kept_laneGive | split)

theorem kept_ringRead {q0 : Base} (s : State) (n : Nat) (k : Nat) (va : Nat) (g : Nat) (l : Lane) (h_s : Kept q0 s) : Kept q0 (State.ringRead s n k va g l) := by
  unfold State.ringRead
  repeat' (first | with_reducible assumption | with_reducible apply kept_ite | with_reducible apply kept_gAsk | with_reducible apply kept_gRead | with_reducible apply kept_gatherBegin | with_reducible apply kept_hoistKill | with_reducible apply kept_hole | with_reducible apply kept_laneGive | with_reducible apply kept_laneHold)

theorem kept_gatherExec {q0 : Base} (s : State) (n : Nat) (k : Nat) (h_s : Kept q0 s) : Kept q0 (State.gatherExec s n k) := by
  unfold State.gatherExec
  repeat' (first | with_reducible assumption | with_reducible apply kept_ite | with_reducible apply kept_askWalk | with_reducible apply kept_gatherGo | with_reducible apply kept_lanePush | with_reducible apply kept_ringRead | split | (with_reducible apply kept_same; simp only [↓kept_mk, ↓keptF_self]))

theorem kept_execGatherDescriptorExecute {q0 : Base} (n : Nat) (k : Nat) (s : State) (h_s : Kept q0 s) : KeptX q0 (execGatherDescriptorExecute n k s) := by
  unfold execGatherDescriptorExecute
  repeat' (first | with_reducible assumption | with_reducible apply keptX_run | with_reducible apply kept_gatherExec)

theorem kept_gatherEnd {q0 : Base} (s : State) (n : Nat) (k : Nat) (h_s : Kept q0 s) : Kept q0 (State.gatherEnd s n k) := by
  unfold State.gatherEnd
  repeat' (first | with_reducible assumption | with_reducible apply kept_ite | with_reducible apply kept_hoistKill | with_reducible apply kept_set | with_reducible apply kept_setGather | with_reducible apply kept_syncAdd | split | (with_reducible apply kept_same; simp only [↓kept_mk, ↓keptF_self]))

theorem kept_execGatherDescriptorComplete {q0 : Base} (n : Nat) (k : Nat) (s : State) (h_s : Kept q0 s) : KeptX q0 (execGatherDescriptorComplete n k s) := by
  unfold execGatherDescriptorComplete
  repeat' (first | with_reducible assumption | with_reducible apply keptX_run | with_reducible apply kept_gatherEnd)

theorem kept_peerTimeout {q0 : Base} (s : State) (n : Nat) (k : Nat) (h_s : Kept q0 s) : Kept q0 (State.peerTimeout s n k) := by
  unfold State.peerTimeout
  repeat' (first | with_reducible assumption | with_reducible apply kept_hoistKill | with_reducible apply kept_poisonPage | split)

theorem kept_execPeerTierTimeout {q0 : Base} (n : Nat) (k : Nat) (s : State) (h_s : Kept q0 s) : KeptX q0 (execPeerTierTimeout n k s) := by
  unfold execPeerTierTimeout
  repeat' (first | with_reducible assumption | with_reducible apply keptX_run | with_reducible apply kept_peerTimeout)

theorem kept_laneTail {q0 : Base} (s : State) (n : Nat) (k : Nat) (v : W32) (h_s : Kept q0 s) : Kept q0 (State.laneTail s n k v) := by
  unfold State.laneTail
  repeat' (first | with_reducible assumption | with_reducible apply kept_ite | with_reducible apply kept_hoistKill | with_reducible apply kept_set | split | (with_reducible apply kept_same; simp only [↓kept_mk, ↓keptF_self]))

theorem kept_execLaneTailWrite {q0 : Base} (n : Nat) (k : Nat) (v : W32) (s : State) (h_s : Kept q0 s) : KeptX q0 (execLaneTailWrite n k v s) := by
  unfold execLaneTailWrite
  repeat' (first | with_reducible assumption | with_reducible apply keptX_run | with_reducible apply kept_laneTail)

theorem kept_ringPrefetch {q0 : Base} (s : State) (n : Nat) (k : Nat) (h_s : Kept q0 s) : Kept q0 (State.ringPrefetch s n k) := by
  unfold State.ringPrefetch
  repeat' (first | with_reducible assumption | with_reducible apply kept_ite | with_reducible apply kept_askWalk | split | (with_reducible apply kept_same; simp only [↓kept_mk, ↓keptF_self]))

theorem kept_execHoistRingPrefetch {q0 : Base} (n : Nat) (k : Nat) (s : State) (h_s : Kept q0 s) : KeptX q0 (execHoistRingPrefetch n k s) := by
  unfold execHoistRingPrefetch
  repeat' (first | with_reducible assumption | with_reducible apply keptX_run | with_reducible apply kept_ringPrefetch)

theorem kept_execSlicePrefetch {q0 : Base} (addr : Nat) (byHoist : Bool) (s : State) (h_s : Kept q0 s) : KeptX q0 (execSlicePrefetch addr byHoist s) := by
  unfold execSlicePrefetch
  repeat' (first | with_reducible assumption | with_reducible apply keptX_next | with_reducible apply kept_prefetch)

end Sys2Proof.Machine
end

