-- ==== Sys2Proof/Laws/KeepCtxCmd.lean ====
section
/-! SUPPORT. What the operations of Machine/CtxCmd.lean keep. -/

namespace Sys2Proof.Machine

theorem kept_execCtxPageMove {q0 : Base} (q : Req) (seq : Nat) (group : Nat) (page : Nat) (tier : Nat) (s : State) (h_s : Kept q0 s) : KeptX q0 (execCtxPageMove q seq group page tier s) := by
  unfold execCtxPageMove
  repeat' (first | with_reducible assumption | with_reducible intro _ | with_reducible apply keptA_done | with_reducible apply keptX_run | with_reducible apply keptA_ite | with_reducible apply kept_axotte | with_reducible apply kept_choose | with_reducible apply kept_invalid | with_reducible apply kept_onSeq | with_reducible apply kept_refuse | split)

theorem kept_execCtxPageMoveExpert {q0 : Base} (q : Req) (seq : Nat) (group : Nat) (page : Nat) (tier : Nat) (fmt : Nat) (pin : Bool) (unpin : Bool) (s : State) (h_s : Kept q0 s) : KeptX q0 (execCtxPageMoveExpert q seq group page tier fmt pin unpin s) := by
  unfold execCtxPageMoveExpert
  repeat' (first | with_reducible assumption | with_reducible intro _ | with_reducible apply keptA_done | with_reducible apply keptX_run | with_reducible apply kept_ite | with_reducible apply keptA_ite | with_reducible apply kept_axotte | with_reducible apply kept_choose | with_reducible apply kept_invalid | with_reducible apply kept_onSeq | with_reducible apply kept_refuse | with_reducible apply kept_setPd | split)

theorem kept_attach1 {q0 : Base} (s : State) (h : Nat) (n : Nat) (k : Nat) (x : DStream) (h_s : Kept q0 s) : AllR (Kept q0) (State.attach1 s h n k x) := by
  unfold State.attach1
  repeat' (first | with_reducible assumption | with_reducible apply allR_inr | with_reducible apply allR_inl | with_reducible apply kept_putD | with_reducible apply kept_set | with_reducible apply kept_setLane | split | dsimp only)

theorem kept_attachAll {q0 : Base} (h : Nat) : ∀ (i0 : List DStream) (s : State), Kept q0 s → AllR (fun x => Kept q0 x.2) (State.attachAll s h i0) := by
  intro i0
  induction i0 with
  | nil =>
    intros
    unfold State.attachAll
    repeat' (first | with_reducible assumption | with_reducible apply allR_inr)
  | cons a l ih =>
    intros
    unfold State.attachAll
    repeat' (first | with_reducible assumption | with_reducible apply allR_inr | with_reducible apply allR_inl | with_reducible apply kept_attach1 | with_reducible apply ih | split | (with_reducible apply kept_of_inr; with_reducible assumption) | (with_reducible apply kept_of_inr2; with_reducible assumption) | dsimp only)

theorem kept_execCtxHoistAttach {q0 : Base} (q : Req) (h : Nat) (s : State) (h_s : Kept q0 s) : KeptX q0 (execCtxHoistAttach q h s) := by
  unfold execCtxHoistAttach
  repeat' (first | with_reducible assumption | with_reducible intro _ | with_reducible apply keptA_done | with_reducible apply keptA_refuse | with_reducible apply keptX_run | with_reducible apply keptA_ite | with_reducible apply kept_attachAll | with_reducible apply kept_axotte | with_reducible apply kept_invalid | with_reducible apply kept_onHandle | with_reducible apply kept_onStore | with_reducible apply kept_refuse | split | (with_reducible apply kept_of_inr2; with_reducible assumption))

theorem kept_execCtxHoistAttachExpert {q0 : Base} (q : Req) (h : Nat) (tag : Nat) (hoist : Nat) (lane : Nat) (s : State) (h_s : Kept q0 s) : KeptX q0 (execCtxHoistAttachExpert q h tag hoist lane s) := by
  unfold execCtxHoistAttachExpert
  repeat' (first | with_reducible assumption | with_reducible intro _ | with_reducible apply keptA_done | with_reducible apply keptA_refuse | with_reducible apply keptX_run | with_reducible apply keptA_ite | with_reducible apply kept_attach1 | with_reducible apply kept_axotte | with_reducible apply kept_invalid | with_reducible apply kept_onHandle | with_reducible apply kept_onStore | with_reducible apply kept_refuse | split | (with_reducible apply kept_of_inr; with_reducible assumption))

theorem kept_execCtxHoistDetach {q0 : Base} (q : Req) (h : Nat) (s : State) (h_s : Kept q0 s) : KeptX q0 (execCtxHoistDetach q h s) := by
  unfold execCtxHoistDetach
  repeat' (first | with_reducible assumption | with_reducible intro _ | with_reducible apply keptA_done | with_reducible apply keptX_run | with_reducible apply keptA_ite | with_reducible apply kept_axotte | with_reducible apply kept_detachAll | with_reducible apply kept_invalid | with_reducible apply kept_onHandle | with_reducible apply kept_onStore)

theorem kept_execCtxPolicySet {q0 : Base} (q : Req) (high : List Nat) (low : List Nat) (s : State) (h_s : Kept q0 s) : KeptX q0 (execCtxPolicySet q high low s) := by
  unfold execCtxPolicySet
  repeat' (first | with_reducible assumption | with_reducible intro _ | with_reducible apply keptA_done | with_reducible apply keptX_run | with_reducible apply keptA_ite | with_reducible apply kept_axotte | with_reducible apply kept_invalid | with_reducible apply kept_onStore | (with_reducible apply kept_same; simp only [↓kept_mk, ↓keptF_self]))

theorem kept_execCtxPolicySetExpert {q0 : Base} (q : Req) (cls : Nat) (high : List Nat) (low : List Nat) (share : Nat) (append : Nat) (next : List Nat) (tfmt : List Nat) (s : State) (h_s : Kept q0 s) : KeptX q0 (execCtxPolicySetExpert q cls high low share append next tfmt s) := by
  unfold execCtxPolicySetExpert
  repeat' (first | with_reducible assumption | with_reducible intro _ | with_reducible apply keptA_done | with_reducible apply keptX_run | with_reducible apply keptA_ite | with_reducible apply kept_axotte | with_reducible apply kept_invalid | with_reducible apply kept_onStore | (with_reducible apply kept_same; simp only [↓kept_mk, ↓keptF_self]))

theorem kept_addRun {q0 : Base} (s : State) (t : Nat) (u : Nat) (n : Nat) (h_s : Kept q0 s) : Kept q0 (State.addRun s t u n) := by
  unfold State.addRun
  repeat' (first | with_reducible assumption | with_reducible apply kept_modStore)

theorem kept_execCtxTierAdd {q0 : Base} (q : Req) (tier : Nat) (src : TierSrc) (s : State) (h_s : Kept q0 s) : KeptX q0 (execCtxTierAdd q tier src s) := by
  unfold execCtxTierAdd
  repeat' (first | with_reducible assumption | with_reducible intro _ | with_reducible apply keptA_done | with_reducible apply keptA_wait | with_reducible apply keptX_run | with_reducible apply keptA_ite | with_reducible apply kept_addRun | with_reducible apply kept_appendRetry | with_reducible apply kept_axotte | with_reducible apply kept_busy | with_reducible apply kept_hole | with_reducible apply kept_invalid | with_reducible apply kept_onStore | with_reducible apply kept_refuse | with_reducible apply kept_tksAsk | split | (with_reducible apply kept_of_sent; with_reducible assumption))

theorem kept_cutRun {q0 : Base} (s : State) (t : Nat) (u : Nat) (n : Nat) (h_s : Kept q0 s) : Kept q0 (State.cutRun s t u n) := by
  unfold State.cutRun
  repeat' (first | with_reducible assumption | with_reducible apply kept_modStore)

theorem kept_execCtxTierRemove {q0 : Base} (q : Req) (tier : Nat) (src : TierSrc) (s : State) (h_s : Kept q0 s) : KeptX q0 (execCtxTierRemove q tier src s) := by
  unfold execCtxTierRemove
  repeat' (first | with_reducible assumption | with_reducible intro _ | with_reducible apply kept_foldl | with_reducible apply kept_getD | with_reducible apply keptA_done | with_reducible apply keptA_wait | with_reducible apply keptX_run | with_reducible apply keptA_ite | with_reducible apply kept_axotte | with_reducible apply kept_busy | with_reducible apply kept_cutRun | with_reducible apply kept_hole | with_reducible apply kept_invalid | with_reducible apply kept_onStore | with_reducible apply kept_refuse | with_reducible apply kept_tksSend | with_reducible apply kept_tksTrim | split)

theorem kept_execCtxExportConfig {q0 : Base} (q : Req) (base : Nat) (len : Nat) (s : State) (h_s : Kept q0 s) : KeptX q0 (execCtxExportConfig q base len s) := by
  unfold execCtxExportConfig
  repeat' (first | with_reducible assumption | with_reducible intro _ | with_reducible apply keptA_done | with_reducible apply keptX_run | with_reducible apply keptA_ite | with_reducible apply kept_axotte | with_reducible apply kept_busy | with_reducible apply kept_invalid | with_reducible apply kept_onStore | (with_reducible apply kept_same; simp only [↓kept_mk, ↓keptF_self]))

theorem kept_storeBreach {q0 : Base} (s : State) (unit : Nat) (delta : Int) (h_s : Kept q0 s) : Kept q0 (State.storeBreach s unit delta) := by
  unfold State.storeBreach
  repeat' (first | with_reducible assumption | with_reducible apply kept_breach | (with_reducible apply kept_same; simp only [↓kept_mk, ↓keptF_self]))

theorem kept_ctxCheck {q0 : Base} (s : State) (h_s : Kept q0 s) : Kept q0 (State.ctxCheck s) := by
  unfold State.ctxCheck
  repeat' (first | with_reducible assumption | with_reducible intro _ | with_reducible apply kept_foldl | with_reducible apply kept_ite | with_reducible apply kept_epochCheck | with_reducible apply kept_storeBreach | with_reducible apply kept_tableRead)

theorem kept_execCtxAudit {q0 : Base} (q : Req) (s : State) (h_s : Kept q0 s) : KeptX q0 (execCtxAudit q s) := by
  unfold execCtxAudit
  repeat' (first | with_reducible assumption | with_reducible intro _ | with_reducible apply keptA_done | with_reducible apply keptX_run | with_reducible apply kept_axotte | with_reducible apply kept_ctxCheck | with_reducible apply kept_onStore)

theorem kept_execCtxEpochStatus {q0 : Base} (q : Req) (s : State) (h_s : Kept q0 s) : KeptX q0 (execCtxEpochStatus q s) := by
  unfold execCtxEpochStatus
  repeat' (first | with_reducible assumption | with_reducible intro _ | with_reducible apply keptA_done | with_reducible apply keptX_run | with_reducible apply kept_axotte | with_reducible apply kept_onStore)

end Sys2Proof.Machine
end

