-- ==== Sys2Proof/Laws/KeepXltCmd.lean ====
section
/-! SUPPORT. What the operations of Machine/XltCmd.lean keep. -/

namespace Sys2Proof.Machine

theorem kept_execXltCtxSet {q0 : Base} (q : Req) (ctx : Nat) (base : Nat) (len : Nat) (s : State) (h_s : Kept q0 s) : KeptX q0 (execXltCtxSet q ctx base len s) := by
  unfold execXltCtxSet
  repeat' (first | with_reducible assumption | with_reducible intro _ | with_reducible apply keptA_done | with_reducible apply keptX_run | with_reducible apply keptA_ite | with_reducible apply kept_axotte | with_reducible apply kept_invalid | with_reducible apply kept_refuse | with_reducible apply kept_set | with_reducible apply kept_zero | (with_reducible apply kept_same; simp only [↓kept_mk, ↓keptF_self]))

theorem kept_execXltCtxSetExpert {q0 : Base} (q : Req) (ctx : Nat) (root : Nat) (s : State) (h_s : Kept q0 s) : KeptX q0 (execXltCtxSetExpert q ctx root s) := by
  unfold execXltCtxSetExpert
  repeat' (first | with_reducible assumption | with_reducible intro _ | with_reducible apply keptA_done | with_reducible apply keptX_run | with_reducible apply keptA_ite | with_reducible apply kept_axotte | with_reducible apply kept_invalid | with_reducible apply kept_refuse | with_reducible apply kept_set)

theorem kept_slotGo {q0 : Base} (s : State) (k : Nat) (ctx : Nat) (va : Nat) (len : Nat) (obj : Nat) (all : Bool) (r : InvRec) (h_s : Kept q0 s) : Kept q0 (State.slotGo s k ctx va len obj all r) := by
  unfold State.slotGo
  repeat' (first | with_reducible assumption | with_reducible apply kept_invGo | with_reducible apply kept_set)

theorem kept_execXltCtxClear {q0 : Base} (q : Req) (ctx : Nat) (obj : Nat) (s : State) (h_s : Kept q0 s) : KeptX q0 (execXltCtxClear q ctx obj s) := by
  unfold execXltCtxClear
  repeat' (first | with_reducible assumption | with_reducible intro _ | with_reducible apply keptA_wait | with_reducible apply keptX_run | with_reducible apply keptA_ite | with_reducible apply kept_axotte | with_reducible apply kept_busy | with_reducible apply kept_invalid | with_reducible apply kept_refuse | with_reducible apply kept_slotGo | split)

theorem kept_execXltUnmap {q0 : Base} (q : Req) (ctx : Nat) (va : W64) (len : Nat) (obj : Nat) (s : State) (h_s : Kept q0 s) : KeptX q0 (execXltUnmap q ctx va len obj s) := by
  unfold execXltUnmap
  repeat' (first | with_reducible assumption | with_reducible intro _ | with_reducible apply keptA_done | with_reducible apply keptX_run | with_reducible apply keptA_ite | with_reducible apply kept_axotte | with_reducible apply kept_busy | with_reducible apply kept_invalid | with_reducible apply kept_refuse | with_reducible apply kept_slotGo | with_reducible apply kept_unmapRange | split)

theorem kept_execXltUnmapExpert {q0 : Base} (q : Req) (ctx : Nat) (va : W64) (len : Nat) (obj : Nat) (all : Bool) (s : State) (h_s : Kept q0 s) : KeptX q0 (execXltUnmapExpert q ctx va len obj all s) := by
  unfold execXltUnmapExpert
  repeat' (first | with_reducible assumption | with_reducible intro _ | with_reducible apply keptA_done | with_reducible apply keptX_run | with_reducible apply keptA_ite | with_reducible apply kept_axotte | with_reducible apply kept_busy | with_reducible apply kept_invalid | with_reducible apply kept_refuse | with_reducible apply kept_slotGo | split)

theorem kept_execXltUnmapStatus {q0 : Base} (q : Req) (slot : Nat) (s : State) (h_s : Kept q0 s) : KeptX q0 (execXltUnmapStatus q slot s) := by
  unfold execXltUnmapStatus
  repeat' (first | with_reducible assumption | with_reducible intro _ | with_reducible apply keptA_done | with_reducible apply keptX_run | with_reducible apply keptA_ite | with_reducible apply kept_axotte | with_reducible apply kept_invalid)

theorem kept_xltMap {q0 : Base} (s : State) (ctx : Nat) (va : Nat) (len : Nat) (g : Nat) (w : Bool) (nc : Bool) (expert : Bool) (h_s : Kept q0 s) : KeptA q0 (State.xltMap s ctx va len g w nc expert) := by
  unfold State.xltMap
  repeat' (first | with_reducible assumption | with_reducible apply keptA_done | with_reducible apply keptA_ite | with_reducible apply kept_invalid | with_reducible apply kept_mapRange | with_reducible apply kept_refuse)

theorem kept_execXltMap {q0 : Base} (q : Req) (ctx : Nat) (va : W64) (len : Nat) (target : W64) (w : Bool) (nc : Bool) (s : State) (h_s : Kept q0 s) : KeptX q0 (execXltMap q ctx va len target w nc s) := by
  unfold execXltMap
  repeat' (first | with_reducible assumption | with_reducible intro _ | with_reducible apply keptX_run | with_reducible apply kept_axotte | with_reducible apply kept_xltMap)

theorem kept_execXltMapExpert {q0 : Base} (q : Req) (ctx : Nat) (va : W64) (len : Nat) (target : W64) (w : Bool) (nc : Bool) (s : State) (h_s : Kept q0 s) : KeptX q0 (execXltMapExpert q ctx va len target w nc s) := by
  unfold execXltMapExpert
  repeat' (first | with_reducible assumption | with_reducible intro _ | with_reducible apply keptX_run | with_reducible apply kept_axotte | with_reducible apply kept_xltMap)

theorem kept_xltCheck {q0 : Base} (s : State) (h_s : Kept q0 s) : Kept q0 (State.xltCheck s) := by
  unfold State.xltCheck
  repeat' (first | with_reducible assumption | with_reducible intro _ | with_reducible apply kept_foldl | with_reducible apply kept_ite | with_reducible apply kept_laneBreach | with_reducible apply kept_laneRefRead | with_reducible apply kept_laneSettle | with_reducible apply kept_tlbBreach | with_reducible apply kept_tlbRefRead)

theorem kept_execXltAudit {q0 : Base} (q : Req) (s : State) (h_s : Kept q0 s) : KeptX q0 (execXltAudit q s) := by
  unfold execXltAudit
  repeat' (first | with_reducible assumption | with_reducible intro _ | with_reducible apply keptA_done | with_reducible apply keptX_run | with_reducible apply kept_axotte | with_reducible apply kept_laneSettle | with_reducible apply kept_xltCheck)

theorem kept_execXltInvGo {q0 : Base} (k : Nat) (s : State) (h_s : Kept q0 s) : KeptX q0 (execXltInvGo k s) := by
  unfold execXltInvGo
  repeat' (first | with_reducible assumption | with_reducible apply keptX_run | with_reducible apply kept_invGo)

theorem kept_execUnmapPhase1Done {q0 : Base} (k : Nat) (s : State) (h_s : Kept q0 s) : KeptX q0 (execUnmapPhase1Done k s) := by
  unfold execUnmapPhase1Done
  repeat' (first | with_reducible assumption | with_reducible apply keptX_run | with_reducible apply kept_ite | with_reducible apply kept_invStep3)

theorem kept_unmapDone {q0 : Base} (s : State) (k : Nat) (h_s : Kept q0 s) : Kept q0 (State.unmapDone s k) := by
  unfold State.unmapDone
  repeat' (first | with_reducible assumption | with_reducible apply kept_ite | with_reducible apply kept_invFinish | with_reducible apply kept_laneSettle | with_reducible apply kept_sealDone | split | (with_reducible apply kept_same; simp only [↓kept_mk, ↓keptF_self]))

theorem kept_execUnmapComplete {q0 : Base} (k : Nat) (s : State) (h_s : Kept q0 s) : KeptX q0 (execUnmapComplete k s) := by
  unfold execUnmapComplete
  repeat' (first | with_reducible assumption | with_reducible apply keptX_run | with_reducible apply kept_unmapDone)

theorem kept_execWalkRequest {q0 : Base} (m : Master) (lane : Nat) (ctx : Nat) (va : W64) (write : Bool) (s : State) (h_s : Kept q0 s) : KeptX q0 (execWalkRequest m lane ctx va write s) := by
  unfold execWalkRequest
  repeat' (first | with_reducible assumption | with_reducible apply keptX_run | with_reducible apply kept_askWalk)

theorem kept_execWalkComplete {q0 : Base} (half : Nat) (s : State) (h_s : Kept q0 s) : KeptX q0 (execWalkComplete half s) := by
  unfold execWalkComplete
  repeat' (first | with_reducible assumption | with_reducible apply keptX_run | with_reducible apply kept_walkComplete)

theorem kept_pinRetry {q0 : Base} (s : State) (b : Nat) (ctx : Nat) (va : Nat) (h_s : Kept q0 s) : Kept q0 (State.pinRetry s b ctx va) := by
  unfold State.pinRetry
  repeat' (first | with_reducible assumption | with_reducible apply kept_bump | (with_reducible apply kept_same; simp only [↓kept_mk, ↓keptF_self]))

theorem kept_execTlbPinRetry {q0 : Base} (bench : Nat) (ctx : Nat) (va : W64) (s : State) (h_s : Kept q0 s) : KeptX q0 (execTlbPinRetry bench ctx va s) := by
  unfold execTlbPinRetry
  repeat' (first | with_reducible assumption | with_reducible apply keptX_run | with_reducible apply kept_pinRetry)

end Sys2Proof.Machine
end

