-- ==== Sys2Proof/Laws/KeepPower.lean ====
section
/-! SUPPORT. What the operations of Machine/Power.lean keep. -/

namespace Sys2Proof.Machine

theorem kept_poolSet {q0 : Base} (s : State) (p : Nat) (cap : Nat) (held : Nat) (h_s : Kept q0 s) : Kept q0 (State.poolSet s p cap held) := by
  unfold State.poolSet
  repeat' (first | with_reducible assumption | with_reducible apply kept_set)

theorem kept_hold {q0 : Base} (s : State) (d : Nat) (n : Nat) (h_s : Kept q0 s) : Kept q0 (State.hold s d n) := by
  unfold State.hold
  repeat' (first | with_reducible assumption | with_reducible apply kept_fset | with_reducible apply kept_poolSet)

theorem kept_domOn {q0 : Base} (s : State) (d : Nat) (h_s : Kept q0 s) : Kept q0 (State.domOn s d) := by
  unfold State.domOn
  repeat' (first | with_reducible assumption | with_reducible apply kept_ite | with_reducible apply kept_bset | with_reducible apply kept_fset | with_reducible apply kept_hold)

theorem kept_domOff {q0 : Base} (s : State) (d : Nat) (h_s : Kept q0 s) : Kept q0 (State.domOff s d) := by
  unfold State.domOff
  repeat' (first | with_reducible assumption | with_reducible apply kept_bset | with_reducible apply kept_hold)

theorem kept_setDuty {q0 : Base} (s : State) (b : Nat) (h_s : Kept q0 s) : Kept q0 (State.setDuty s b) := by
  unfold State.setDuty
  repeat' (first | with_reducible assumption | with_reducible apply kept_ite | with_reducible apply kept_fset | with_reducible apply kept_set)

theorem kept_dutyAll {q0 : Base} (s : State) (h_s : Kept q0 s) : Kept q0 (State.dutyAll s) := by
  unfold State.dutyAll
  repeat' (first | with_reducible assumption | with_reducible intro _ | with_reducible apply kept_foldl | with_reducible apply kept_setDuty)

theorem kept_grantBench {q0 : Base} (s : State) (b : Nat) (n : Nat) (h_s : Kept q0 s) : Kept q0 (State.grantBench s b n) := by
  unfold State.grantBench
  repeat' (first | with_reducible assumption | with_reducible apply kept_ite | with_reducible apply kept_fset | with_reducible apply kept_hold)

theorem kept_divide {q0 : Base} (s : State) (demand : List Nat) (h_s : Kept q0 s) : Kept q0 (State.divide s demand) := by
  unfold State.divide
  repeat' (first | with_reducible assumption | with_reducible intro _ | with_reducible apply kept_foldl | with_reducible apply kept_ite | with_reducible apply kept_grantBench)

theorem kept_governor {q0 : Base} (s : State) (b : Nat) (st : Nat) (dyn : Nat) (h_s : Kept q0 s) : Kept q0 (State.governor s b st dyn) := by
  unfold State.governor
  repeat' (first | with_reducible assumption | with_reducible apply kept_ite | with_reducible apply kept_hold | with_reducible apply kept_setDuty | (with_reducible apply kept_same; simp only [↓kept_mk, ↓keptF_self]))

theorem kept_execEstimatorCalibration {q0 : Base} (hubMw : Nat) (s : State) (h_s : Kept q0 s) : KeptX q0 (execEstimatorCalibration hubMw s) := by
  unfold execEstimatorCalibration
  repeat' (first | with_reducible assumption | with_reducible apply kept_ite | with_reducible apply keptX_next | with_reducible apply kept_log' | (with_reducible apply kept_same; simp only [↓kept_mk, ↓keptF_self]))

theorem kept_thermGov {q0 : Base} (s : State) (b : Nat) (sinceMs : Nat) (h_s : Kept q0 s) : Kept q0 (State.thermGov s b sinceMs) := by
  unfold State.thermGov
  repeat' (first | with_reducible assumption | with_reducible apply kept_ite | with_reducible apply kept_setDuty | (with_reducible apply kept_same; simp only [↓kept_mk, ↓keptF_self]))

theorem kept_execBenchThermalGovernor {q0 : Base} (bench : Nat) (sinceRaiseMs : Nat) (s : State) (h_s : Kept q0 s) : KeptX q0 (execBenchThermalGovernor bench sinceRaiseMs s) := by
  unfold execBenchThermalGovernor
  repeat' (first | with_reducible assumption | with_reducible apply keptX_run | with_reducible apply kept_thermGov)

theorem kept_execSensorDiverge {q0 : Base} (bench : Nat) (ms : Nat) (s : State) (h_s : Kept q0 s) : KeptX q0 (execSensorDiverge bench ms s) := by
  unfold execSensorDiverge
  repeat' (first | with_reducible assumption | with_reducible apply keptX_run | with_reducible apply kept_ite | with_reducible apply kept_bset | with_reducible apply kept_log')

theorem kept_gradSet {q0 : Base} (s : State) (k : Nat) (b : Nat) (v : Nat) (cls : Nat) (h_s : Kept q0 s) : Kept q0 (State.gradSet s k b v cls) := by
  unfold State.gradSet
  repeat' (first | with_reducible assumption | with_reducible apply kept_bump | with_reducible apply kept_log' | with_reducible apply kept_setDuty | (with_reducible apply kept_same; simp only [↓kept_mk, ↓keptF_self]))

theorem kept_gradOne {q0 : Base} (s : State) (a : Nat) (b : Nat) (mvA : Nat) (mvB : Nat) (kind : Nat) (h_s : Kept q0 s) : Kept q0 (State.gradOne s a b mvA mvB kind) := by
  unfold State.gradOne
  repeat' (first | with_reducible assumption | with_reducible apply kept_ite | with_reducible apply kept_gradSet | with_reducible apply kept_setDuty | split | (with_reducible apply kept_same; simp only [↓kept_mk, ↓keptF_self]))

theorem kept_execGradientCheck {q0 : Base} (a : Nat) (b : Nat) (mvA : Nat) (mvB : Nat) (s : State) (h_s : Kept q0 s) : KeptX q0 (execGradientCheck a b mvA mvB s) := by
  unfold execGradientCheck
  repeat' (first | with_reducible assumption | with_reducible apply keptX_run | with_reducible apply kept_ite | with_reducible apply kept_gradOne)

theorem kept_gradEsc {q0 : Base} (s : State) (a : Nat) (b : Nat) (mvA : Nat) (mvB : Nat) (kind : Nat) (h_s : Kept q0 s) : Kept q0 (State.gradEsc s a b mvA mvB kind) := by
  unfold State.gradEsc
  repeat' (first | with_reducible assumption | with_reducible apply kept_ite | with_reducible apply kept_gradSet | split | (with_reducible apply kept_same; simp only [↓kept_mk, ↓keptF_self]))

theorem kept_execGradientEscalate {q0 : Base} (a : Nat) (b : Nat) (mvA : Nat) (mvB : Nat) (s : State) (h_s : Kept q0 s) : KeptX q0 (execGradientEscalate a b mvA mvB s) := by
  unfold execGradientEscalate
  repeat' (first | with_reducible assumption | with_reducible apply keptX_run | with_reducible apply kept_ite | with_reducible apply kept_gradEsc)

theorem kept_execPwrDomainStatus {q0 : Base} (q : Req) (first : Nat) (count : Nat) (s : State) (h_s : Kept q0 s) : KeptX q0 (execPwrDomainStatus q first count s) := by
  unfold execPwrDomainStatus
  repeat' (first | with_reducible assumption | with_reducible intro _ | with_reducible apply keptA_done | with_reducible apply keptX_run | with_reducible apply keptA_ite | with_reducible apply kept_axotte | with_reducible apply kept_invalid)

theorem kept_setCeils {q0 : Base} (s : State) (cs : List Nat) (h_s : Kept q0 s) : Kept q0 (State.setCeils s cs) := by
  unfold State.setCeils
  repeat' (first | with_reducible assumption | with_reducible intro _ | with_reducible apply kept_foldl | with_reducible apply kept_dutyAll | with_reducible apply kept_fset)

theorem kept_execPwrThrottleSet {q0 : Base} (q : Req) (ceil : Nat) (s : State) (h_s : Kept q0 s) : KeptX q0 (execPwrThrottleSet q ceil s) := by
  unfold execPwrThrottleSet
  repeat' (first | with_reducible assumption | with_reducible intro _ | with_reducible apply keptA_done | with_reducible apply keptX_run | with_reducible apply keptA_ite | with_reducible apply kept_axotte | with_reducible apply kept_invalid | with_reducible apply kept_setCeils)

theorem kept_execPwrThrottleSetExpert {q0 : Base} (q : Req) (ceils : List Nat) (tLim : Nat) (s : State) (h_s : Kept q0 s) : KeptX q0 (execPwrThrottleSetExpert q ceils tLim s) := by
  unfold execPwrThrottleSetExpert
  repeat' (first | with_reducible assumption | with_reducible intro _ | with_reducible apply keptA_done | with_reducible apply keptX_run | with_reducible apply keptA_ite | with_reducible apply kept_axotte | with_reducible apply kept_fset | with_reducible apply kept_invalid | with_reducible apply kept_setCeils)

theorem kept_execThmStatus {q0 : Base} (q : Req) (s : State) (h_s : Kept q0 s) : KeptX q0 (execThmStatus q s) := by
  unfold execThmStatus
  repeat' (first | with_reducible assumption | with_reducible intro _ | with_reducible apply keptA_done | with_reducible apply keptX_run | with_reducible apply kept_axotte)

end Sys2Proof.Machine
end

