-- ==== Sys2Proof/Laws/KeepPrb.lean ====
section
/-! SUPPORT. What the operations of Machine/Prb.lean keep. -/

namespace Sys2Proof.Machine

theorem kept_prbShow {q0 : Base} (s : State) (h_s : Kept q0 s) : Kept q0 (State.prbShow s) := by
  unfold State.prbShow
  repeat' (first | with_reducible assumption | with_reducible apply kept_bset | with_reducible apply kept_set | (with_reducible apply kept_same; simp only [↓kept_mk, ↓keptF_self]))

theorem kept_prbMirror {q0 : Base} (s : State) (w : Nat) (v : W32) (h_s : Kept q0 s) : Kept q0 (State.prbMirror s w v) := by
  unfold State.prbMirror
  repeat' (first | with_reducible assumption | with_reducible apply kept_ite | with_reducible apply kept_bset | with_reducible apply kept_portsRejoin | with_reducible apply kept_set)

theorem kept_prbFeedOne {q0 : Base} (s : State) (k : Nat) (h_s : Kept q0 s) : Kept q0 (State.prbFeedOne s k) := by
  unfold State.prbFeedOne
  repeat' (first | with_reducible assumption | split | (with_reducible apply kept_same; simp only [↓kept_mk, ↓keptF_self]))

theorem kept_prbFeed {q0 : Base} (s : State) (h_s : Kept q0 s) : Kept q0 (State.prbFeed s) := by
  unfold State.prbFeed
  repeat' (first | with_reducible assumption | with_reducible intro _ | with_reducible apply kept_foldl | with_reducible apply kept_ite | with_reducible apply kept_prbFeedOne | with_reducible apply kept_prbShow)

theorem kept_prbJob {q0 : Base} (s : State) (k : Nat) (ws : List PWrite) (fin : PEnd) (h_s : Kept q0 s) : Kept q0 (State.prbJob s k ws fin) := by
  unfold State.prbJob
  repeat' (first | with_reducible assumption | with_reducible apply kept_prbFeed | split | (with_reducible apply kept_same; simp only [↓kept_mk, ↓keptF_self]))

theorem kept_prbCmd {q0 : Base} (s : State) (q : Req) (ws : List (Nat × W32)) (fin : PEnd) (h_s : Kept q0 s) : KeptA q0 (State.prbCmd s q ws fin) := by
  unfold State.prbCmd
  repeat' (first | with_reducible assumption | with_reducible apply keptA_fail | with_reducible apply keptA_wait | with_reducible apply keptA_ite | with_reducible apply kept_log' | with_reducible apply kept_prbJob | with_reducible apply kept_prbShow | with_reducible apply kept_refuse | split | (with_reducible apply kept_same; simp only [↓kept_mk, ↓keptF_self]))

theorem kept_prbWord1 {q0 : Base} (s : State) (p : PWrite) (h_s : Kept q0 s) : Kept q0 (State.prbWord1 s p) := by
  unfold State.prbWord1
  repeat' (first | with_reducible assumption | with_reducible apply kept_ite | with_reducible apply kept_fset | with_reducible apply kept_log' | with_reducible apply kept_measCommit | with_reducible apply kept_prbMirror | with_reducible apply kept_set | (with_reducible apply kept_same; simp only [↓kept_mk, ↓keptF_self]))

theorem kept_rwpWrite {q0 : Base} (s : State) (w : Nat) (v : W32) (h_s : Kept q0 s) : Kept q0 (State.rwpWrite s w v) := by
  unfold State.rwpWrite
  repeat' (first | with_reducible assumption | with_reducible apply kept_ite | with_reducible apply kept_bset | with_reducible apply kept_bump | with_reducible apply kept_log' | with_reducible apply kept_prbShow | (with_reducible apply kept_same; simp only [↓kept_mk, ↓keptF_self]))

theorem kept_execPrbRwpWrite {q0 : Base} (w : Nat) (v : W32) (s : State) (h_s : Kept q0 s) : KeptX q0 (execPrbRwpWrite w v s) := by
  unfold execPrbRwpWrite
  repeat' (first | with_reducible assumption | with_reducible apply keptX_run | with_reducible apply kept_rwpWrite)

theorem kept_execPrbRead {q0 : Base} (q : Req) (first : Nat) (count : Nat) (s : State) (h_s : Kept q0 s) : KeptX q0 (execPrbRead q first count s) := by
  unfold execPrbRead
  repeat' (first | with_reducible assumption | with_reducible intro _ | with_reducible apply keptA_done | with_reducible apply keptX_run | with_reducible apply keptA_ite | with_reducible apply kept_axotte | with_reducible apply kept_invalid)

theorem kept_execPrbWrite {q0 : Base} (q : Req) (first : Nat) (vals : List W32) (s : State) (h_s : Kept q0 s) : KeptX q0 (execPrbWrite q first vals s) := by
  unfold execPrbWrite
  repeat' (first | with_reducible assumption | with_reducible intro _ | with_reducible apply keptX_run | with_reducible apply keptA_ite | with_reducible apply kept_axotte | with_reducible apply kept_invalid | with_reducible apply kept_prbCmd | with_reducible apply kept_refuse)

theorem kept_execPrbWear {q0 : Base} (q : Req) (s : State) (h_s : Kept q0 s) : KeptX q0 (execPrbWear q s) := by
  unfold execPrbWear
  repeat' (first | with_reducible assumption | with_reducible intro _ | with_reducible apply keptA_done | with_reducible apply keptX_run | with_reducible apply kept_axotte)

theorem kept_execDiagLogRead {q0 : Base} (q : Req) (first : Nat) (count : Nat) (s : State) (h_s : Kept q0 s) : KeptX q0 (execDiagLogRead q first count s) := by
  unfold execDiagLogRead
  repeat' (first | with_reducible assumption | with_reducible intro _ | with_reducible apply keptA_done | with_reducible apply keptX_run | with_reducible apply keptA_ite | with_reducible apply kept_axotte | with_reducible apply kept_invalid)

end Sys2Proof.Machine
end

