-- ==== Sys2Proof/Laws/KeepAge.lean ====
section
/-! SUPPORT. What the operations of Machine/Age.lean keep. -/

namespace Sys2Proof.Machine

theorem kept_planShow {q0 : Base} (s : State) (seq : Nat) (h_s : Kept q0 s) : Kept q0 (State.planShow s seq) := by
  unfold State.planShow
  repeat' (first | with_reducible assumption | with_reducible apply kept_dutyAll | with_reducible apply kept_set | (with_reducible apply kept_same; simp only [↓kept_mk, ↓keptF_self]))

theorem kept_planTake {q0 : Base} (s : State) (c : Nat) (h_s : Kept q0 s) : Kept q0 (State.planTake s c) := by
  unfold State.planTake
  repeat' (first | with_reducible assumption | (with_reducible apply kept_same; simp only [↓kept_mk, ↓keptF_self]))

theorem kept_planFirst {q0 : Base} (s : State) (h_s : Kept q0 s) : Kept q0 (State.planFirst s) := by
  unfold State.planFirst
  repeat' (first | with_reducible assumption | (with_reducible apply kept_same; simp only [↓kept_mk, ↓keptF_self]))

theorem kept_planLoad {q0 : Base} (s : State) (h_s : Kept q0 s) : Kept q0 (State.planLoad s) := by
  rw [State.planLoad]
  repeat' (first | with_reducible assumption | with_reducible apply kept_log' | with_reducible apply kept_planFirst | with_reducible apply kept_planShow | with_reducible apply kept_planTake | with_reducible apply kept_set | split)

theorem kept_monitor {q0 : Base} (s : State) (d : Nat) (x : BitVec 16) (h_s : Kept q0 s) : Kept q0 (State.monitor s d x) := by
  unfold State.monitor
  repeat' (first | with_reducible assumption | with_reducible apply kept_ite | with_reducible apply kept_fset | split | (with_reducible apply kept_same; simp only [↓kept_mk, ↓keptF_self]))

theorem kept_execAgeMonitorRead {q0 : Base} (dom : Nat) (slack : BitVec 16) (s : State) (h_s : Kept q0 s) : KeptX q0 (execAgeMonitorRead dom slack s) := by
  unfold execAgeMonitorRead
  repeat' (first | with_reducible assumption | with_reducible apply keptX_run | with_reducible apply kept_monitor)

theorem kept_planUse {q0 : Base} (s : State) (p : Tbl PlanE) (h_s : Kept q0 s) : Kept q0 (State.planUse s p) := by
  unfold State.planUse
  repeat' (first | with_reducible assumption | with_reducible intro _ | with_reducible apply kept_foldl | with_reducible apply kept_ite | with_reducible apply kept_fset | (with_reducible apply kept_same; simp only [↓kept_mk, ↓keptF_self]))

theorem kept_planCommit {q0 : Base} (s : State) (r : Replan) (h_s : Kept q0 s) : Kept q0 (State.planCommit s r) := by
  unfold State.planCommit
  repeat' (first | with_reducible assumption | with_reducible apply kept_prbJob | (with_reducible apply kept_same; simp only [↓kept_mk, ↓keptF_self]))

theorem kept_replanGo {q0 : Base} (s : State) (mbx : Option Nat) (h_s : Kept q0 s) : Kept q0 (State.replanGo s mbx) := by
  unfold State.replanGo
  repeat' (first | with_reducible assumption | with_reducible apply kept_ite | with_reducible apply kept_bset | with_reducible apply kept_planCommit | with_reducible apply kept_planUse | (with_reducible apply kept_same; simp only [↓kept_mk, ↓keptF_self]))

theorem kept_replanVerify {q0 : Base} (s : State) (h_s : Kept q0 s) : Kept q0 (State.replanVerify s) := by
  unfold State.replanVerify
  repeat' (first | with_reducible assumption | with_reducible apply kept_ite | with_reducible apply kept_planCommit | with_reducible apply kept_planUse | split)

theorem kept_execReplanLoweringVerify {q0 : Base} (s : State) (h_s : Kept q0 s) : KeptX q0 (execReplanLoweringVerify s) := by
  unfold execReplanLoweringVerify
  repeat' (first | with_reducible assumption | with_reducible apply keptX_next | with_reducible apply kept_replanVerify)

theorem kept_planDone {q0 : Base} (s : State) (h_s : Kept q0 s) : Kept q0 (State.planDone s) := by
  unfold State.planDone
  repeat' (first | with_reducible assumption | with_reducible intro _ | with_reducible apply kept_foldl | with_reducible apply kept_axFinish | with_reducible apply kept_bset | with_reducible apply kept_log' | with_reducible apply kept_measCommit | with_reducible apply kept_planShow | with_reducible apply kept_planUse | split | (with_reducible apply kept_same; simp only [↓kept_mk, ↓keptF_self]))

theorem kept_replanStop {q0 : Base} (s : State) (h_s : Kept q0 s) : Kept q0 (State.replanStop s) := by
  unfold State.replanStop
  repeat' (first | with_reducible assumption | with_reducible apply kept_bset | with_reducible apply kept_planUse | with_reducible apply kept_prbShow | split | (with_reducible apply kept_same; simp only [↓kept_mk, ↓keptF_self]))

theorem kept_execReplanRestart {q0 : Base} (s : State) (h_s : Kept q0 s) : KeptX q0 (execReplanRestart s) := by
  unfold execReplanRestart
  repeat' (first | with_reducible assumption | with_reducible apply kept_ite | with_reducible apply keptX_next | with_reducible apply kept_replanGo | split | (with_reducible apply kept_same; simp only [↓kept_mk, ↓keptF_self]))

theorem kept_replanAsk {q0 : Base} (s : State) (m : Nat) (cfg : Option Nat) (h_s : Kept q0 s) : KeptA q0 (State.replanAsk s m cfg) := by
  unfold State.replanAsk
  repeat' (first | with_reducible assumption | with_reducible apply keptA_fail | with_reducible apply keptA_wait | with_reducible apply keptA_again | with_reducible apply keptA_ite | with_reducible apply kept_busy | with_reducible apply kept_replanGo | with_reducible apply kept_set | split | (with_reducible apply kept_same; simp only [↓kept_mk, ↓keptF_self]))

theorem kept_execAgeReplan {q0 : Base} (q : Req) (s : State) (h_s : Kept q0 s) : KeptX q0 (execAgeReplan q s) := by
  unfold execAgeReplan
  repeat' (first | with_reducible assumption | with_reducible intro _ | with_reducible apply keptX_run | with_reducible apply kept_axotte | with_reducible apply kept_replanAsk)

theorem kept_execAgeReplanExpert {q0 : Base} (q : Req) (period : Nat) (guard : Nat) (s : State) (h_s : Kept q0 s) : KeptX q0 (execAgeReplanExpert q period guard s) := by
  unfold execAgeReplanExpert
  repeat' (first | with_reducible assumption | with_reducible intro _ | with_reducible apply keptX_run | with_reducible apply keptA_ite | with_reducible apply kept_axotte | with_reducible apply kept_invalid | with_reducible apply kept_replanAsk)

theorem kept_execAgeStatus {q0 : Base} (q : Req) (s : State) (h_s : Kept q0 s) : KeptX q0 (execAgeStatus q s) := by
  unfold execAgeStatus
  repeat' (first | with_reducible assumption | with_reducible intro _ | with_reducible apply keptA_done | with_reducible apply keptX_run | with_reducible apply kept_axotte)

theorem kept_hourTick {q0 : Base} (s : State) (h_s : Kept q0 s) : Kept q0 (State.hourTick s) := by
  unfold State.hourTick
  repeat' (first | with_reducible assumption | with_reducible apply kept_ite | with_reducible apply kept_prbJob | with_reducible apply kept_replanGo | with_reducible apply kept_set)

theorem kept_execServiceHourTick {q0 : Base} (s : State) (h_s : Kept q0 s) : KeptX q0 (execServiceHourTick s) := by
  unfold execServiceHourTick
  repeat' (first | with_reducible assumption | with_reducible apply kept_ite | with_reducible apply keptX_next | with_reducible apply kept_hourTick)

theorem kept_prbJobEnd {q0 : Base} (s : State) (k : Nat) (h_s : Kept q0 s) : Kept q0 (State.prbJobEnd s k) := by
  unfold State.prbJobEnd
  repeat' (first | with_reducible assumption | with_reducible apply kept_ite | with_reducible apply kept_axFinish | with_reducible apply kept_measCommit | with_reducible apply kept_planDone | split | (with_reducible apply kept_same; simp only [↓kept_mk, ↓keptF_self]))

theorem kept_prbComplete {q0 : Base} (s : State) (h_s : Kept q0 s) : Kept q0 (State.prbComplete s) := by
  unfold State.prbComplete
  repeat' (first | with_reducible assumption | with_reducible intro _ | with_reducible apply kept_foldl | with_reducible apply kept_ite | with_reducible apply kept_prbFeed | with_reducible apply kept_prbJobEnd | with_reducible apply kept_prbWord1 | split | (with_reducible apply kept_same; simp only [↓kept_mk, ↓keptF_self]))

theorem kept_execPrbWriteComplete {q0 : Base} (s : State) (h_s : Kept q0 s) : KeptX q0 (execPrbWriteComplete s) := by
  unfold execPrbWriteComplete
  repeat' (first | with_reducible assumption | with_reducible apply keptX_next | with_reducible apply kept_prbComplete)

theorem kept_prbRetry {q0 : Base} (s : State) (h_s : Kept q0 s) : Kept q0 (State.prbRetry s) := by
  unfold State.prbRetry
  repeat' (first | with_reducible assumption | with_reducible apply kept_prbJob | (with_reducible apply kept_same; simp only [↓kept_mk, ↓keptF_self]))

theorem kept_telDrew {q0 : Base} (s : State) (mask : Nat) (h_s : Kept q0 s) : Kept q0 (State.telDrew s mask) := by
  unfold State.telDrew
  repeat' (first | with_reducible assumption | with_reducible apply kept_ite | (with_reducible apply kept_same; simp only [↓kept_mk, ↓keptF_self]))

theorem kept_execTelRead {q0 : Base} (q : Req) (mask : Nat) (s : State) (h_s : Kept q0 s) : KeptX q0 (execTelRead q mask s) := by
  unfold execTelRead
  repeat' (first | with_reducible assumption | with_reducible intro _ | with_reducible apply keptA_done | with_reducible apply keptX_run | with_reducible apply keptA_ite | with_reducible apply kept_axotte | with_reducible apply kept_invalid | with_reducible apply kept_telDrew)

theorem kept_telSet {q0 : Base} (s : State) (ring : W64) (k : Nat) (period : Nat) (mask : Nat) (tc : Nat) (h_s : Kept q0 s) : KeptA q0 (State.telSet s ring k period mask tc) := by
  unfold State.telSet
  repeat' (first | with_reducible assumption | with_reducible apply keptA_done | with_reducible apply keptA_ite | with_reducible apply kept_invalid | (with_reducible apply kept_same; simp only [↓kept_mk, ↓keptF_self]))

theorem kept_execTelStreamSet {q0 : Base} (q : Req) (ring : W64) (k : Nat) (period : Nat) (s : State) (h_s : Kept q0 s) : KeptX q0 (execTelStreamSet q ring k period s) := by
  unfold execTelStreamSet
  repeat' (first | with_reducible assumption | with_reducible intro _ | with_reducible apply keptX_run | with_reducible apply kept_axotte | with_reducible apply kept_telSet)

theorem kept_execTelStreamSetExpert {q0 : Base} (q : Req) (ring : W64) (k : Nat) (period : Nat) (mask : Nat) (tc : Nat) (s : State) (h_s : Kept q0 s) : KeptX q0 (execTelStreamSetExpert q ring k period mask tc s) := by
  unfold execTelStreamSetExpert
  repeat' (first | with_reducible assumption | with_reducible intro _ | with_reducible apply keptX_run | with_reducible apply kept_axotte | with_reducible apply kept_telSet)

theorem kept_telGo {q0 : Base} (s : State) (h_s : Kept q0 s) : Kept q0 (State.telGo s) := by
  unfold State.telGo
  repeat' (first | with_reducible assumption | with_reducible apply kept_ite | with_reducible apply kept_gWrite | with_reducible apply kept_hole | with_reducible apply kept_log' | with_reducible apply kept_telDrew | split | (with_reducible apply kept_same; simp only [↓kept_mk, ↓keptF_self]))

theorem kept_execTelemetryRecord {q0 : Base} (s : State) (h_s : Kept q0 s) : KeptX q0 (execTelemetryRecord s) := by
  unfold execTelemetryRecord
  repeat' (first | with_reducible assumption | with_reducible apply keptX_next | with_reducible apply kept_telGo)

end Sys2Proof.Machine
end

