-- ==== Sys2Proof/Laws/KeepReply.lean ====
section
/-! SUPPORT. What the operations of Machine/Reply.lean keep. -/

namespace Sys2Proof.Machine

theorem kept_memoCount {q0 : Base} (s : State) (h_s : Kept q0 s) : Kept q0 (State.memoCount s) := by
  unfold State.memoCount
  repeat' (first | with_reducible assumption | with_reducible apply kept_set)

theorem kept_tksSendResp {q0 : Base} (s : State) (f : Frame) (status : Nat) (addr : Nat) (aux : W64) (bs : List Byte) (poison : Bool) (h_s : Kept q0 s) : Kept q0 (State.tksSendResp s f status addr aux bs poison) := by
  unfold State.tksSendResp
  repeat' (first | with_reducible assumption | with_reducible apply kept_sendVia | split)

theorem kept_tksRespond {q0 : Base} (s : State) (f : Frame) (status : Nat) (addr : Nat) (aux : W64) (bs : List Byte) (poison : Bool) (h_s : Kept q0 s) : Kept q0 (State.tksRespond s f status addr aux bs poison) := by
  unfold State.tksRespond
  repeat' (first | with_reducible assumption | with_reducible apply kept_ite | with_reducible apply kept_memoCount | with_reducible apply kept_tksSendResp | (with_reducible apply kept_same; simp only [↓kept_mk, ↓keptF_self]))

theorem kept_egressHead {q0 : Base} (e : Nat) : ∀ (i0 : Nat) (s : State), Kept q0 s → Kept q0 (State.egressHead s e i0) := by
  intro i0
  induction i0 with
  | zero =>
    intros
    unfold State.egressHead
    repeat' with_reducible assumption
  | succ n ih =>
    intros
    unfold State.egressHead
    repeat' (first | with_reducible assumption | with_reducible apply kept_ite | with_reducible apply kept_set | with_reducible apply ih | (with_reducible apply kept_same; simp only [↓kept_mk, ↓keptF_self]))

theorem kept_egressDone {q0 : Base} (s : State) (e : Nat) (i : Nat) (status : Nat) (h_s : Kept q0 s) : Kept q0 (State.egressDone s e i status) := by
  unfold State.egressDone
  repeat' (first | with_reducible assumption | with_reducible apply kept_ite | with_reducible apply kept_egressHead | with_reducible apply kept_engWrite | with_reducible apply kept_syncAdd | (with_reducible apply kept_same; simp only [↓kept_mk, ↓keptF_self]))

theorem kept_ur {q0 : Base} (s : State) (h_s : Kept q0 s) : Kept q0 (State.ur s) := by
  unfold State.ur
  repeat' (first | with_reducible assumption | with_reducible apply kept_emit | (with_reducible apply kept_same; simp only [↓kept_mk, ↓keptF_self]))

theorem kept_engFail {q0 : Base} (s : State) (m : Master) (tag : Nat) (g : Nat) (wr : Bool) (h_s : Kept q0 s) : Kept q0 (State.engFail s m tag g wr) := by
  unfold State.engFail
  repeat' (first | with_reducible assumption | with_reducible apply kept_ite | with_reducible apply kept_deadAck | with_reducible apply kept_hole | with_reducible apply kept_kill | with_reducible apply kept_log' | with_reducible apply kept_moveFailed | split | (with_reducible apply kept_same; simp only [↓kept_mk, ↓keptF_self]))

theorem kept_modCore {q0 : Base} (s : State) (c : Nat) (f : SCore → SCore) (h_s : Kept q0 s) : Kept q0 (State.modCore s c f) := by
  unfold State.modCore
  repeat' (first | with_reducible assumption | (with_reducible apply kept_same; simp only [↓kept_mk, ↓keptF_self]))

theorem kept_coreStored {q0 : Base} (s : State) (c : Nat) (h_s : Kept q0 s) : Kept q0 (State.coreStored s c) := by
  unfold State.coreStored
  repeat' (first | with_reducible assumption | with_reducible intro _ | with_reducible apply kept_foldl | with_reducible apply kept_ite | with_reducible apply kept_modCore | with_reducible apply kept_syncAdd)

theorem kept_gatherGot {q0 : Base} (s : State) (n : Nat) (k : Nat) (k16 : Nat) (r : Rep) (h_s : Kept q0 s) : Kept q0 (State.gatherGot s n k k16 r) := by
  unfold State.gatherGot
  repeat' (first | with_reducible assumption | with_reducible apply kept_ite | with_reducible apply kept_hoistKill | with_reducible apply kept_poisonPage | with_reducible apply kept_setGather | split)

theorem kept_moveGot {q0 : Base} (s : State) (i : Nat) (k : Nat) (r : Rep) (h_s : Kept q0 s) : Kept q0 (State.moveGot s i k r) := by
  unfold State.moveGot
  repeat' (first | with_reducible assumption | with_reducible apply kept_ite | with_reducible apply kept_abandon | with_reducible apply kept_setMove | split)

theorem kept_moveAcked {q0 : Base} (s : State) (i : Nat) (r : Rep) (h_s : Kept q0 s) : Kept q0 (State.moveAcked s i r) := by
  unfold State.moveAcked
  repeat' (first | with_reducible assumption | with_reducible apply kept_ite | with_reducible apply kept_moveFailed | with_reducible apply kept_setMove | split)

theorem kept_granted {q0 : Base} (s : State) (m : Nat) (n : Nat) (dev : Nat) (r : Rep) (h_s : Kept q0 s) : Kept q0 (State.granted s m n dev r) := by
  unfold State.granted
  repeat' (first | with_reducible assumption | with_reducible apply kept_getD | with_reducible apply kept_ite | with_reducible apply kept_addRun | with_reducible apply kept_appendRetry | with_reducible apply kept_axFinish | with_reducible apply kept_tksSend)

theorem kept_pinged {q0 : Base} (s : State) (m : Nat) (i : Nat) (rtt : Nat) (r : Rep) (h_s : Kept q0 s) : Kept q0 (State.pinged s m i rtt r) := by
  unfold State.pinged
  repeat' (first | with_reducible assumption | with_reducible apply kept_ite | with_reducible apply kept_axFinish | split | (with_reducible apply kept_same; simp only [↓kept_mk, ↓keptF_self]))

theorem kept_msgGot {q0 : Base} (s : State) (q : Nat) (err : Nat) (h_s : Kept q0 s) : Kept q0 (State.msgGot s q err) := by
  unfold State.msgGot
  repeat' (first | with_reducible assumption | (with_reducible apply kept_same; simp only [↓kept_mk, ↓keptF_self]))

theorem kept_reply {q0 : Base} (s : State) (why : Purp) (id : W32) (age : Nat) (r : Rep) (h_s : Kept q0 s) : Kept q0 (State.reply s why id age r) := by
  unfold State.reply
  repeat' (first | with_reducible assumption | with_reducible apply kept_ite | with_reducible apply kept_axFinish | with_reducible apply kept_bset | with_reducible apply kept_bump | with_reducible apply kept_coreStored | with_reducible apply kept_egressDone | with_reducible apply kept_emit | with_reducible apply kept_engAck | with_reducible apply kept_engFail | with_reducible apply kept_fillDone | with_reducible apply kept_gGot | with_reducible apply kept_gatherGot | with_reducible apply kept_granted | with_reducible apply kept_hole | with_reducible apply kept_loadDone | with_reducible apply kept_missHole | with_reducible apply kept_modCore | with_reducible apply kept_moveAcked | with_reducible apply kept_moveGot | with_reducible apply kept_msgGot | with_reducible apply kept_pinged | with_reducible apply kept_storeDone | with_reducible apply kept_tksRespond | with_reducible apply kept_toAgent | with_reducible apply kept_ur | split | (with_reducible apply kept_same; simp only [↓kept_mk, ↓keptF_self]))

theorem kept_extEnd {q0 : Base} (s : State) (id : Nat) (bs : List Byte) (poison : Bool) (err : Nat) (h_s : Kept q0 s) : Kept q0 (State.extEnd s id bs poison err) := by
  unfold State.extEnd
  repeat' (first | with_reducible assumption | with_reducible apply kept_ite | with_reducible apply keptF_mwrite | with_reducible apply kept_reply | split | (with_reducible apply kept_same; simp only [↓kept_mk, ↓keptF_self]) | (with_reducible apply keptF_same; simp only [↓keptF_self]))

theorem kept_accDone {q0 : Base} (s : State) (k : Nat) (x : AccW) (bs : List Byte) (poison : Bool) (err : Nat) (h_s : Kept q0 s) : Kept q0 (State.accDone s k x bs poison err) := by
  unfold State.accDone
  repeat' (first | with_reducible assumption | with_reducible apply kept_reply | (with_reducible apply kept_same; simp only [↓kept_mk, ↓keptF_self]))

theorem kept_accEnds {q0 : Base} (s : State) (h_s : Kept q0 s) : Kept q0 (State.accEnds s) := by
  unfold State.accEnds
  repeat' (first | with_reducible assumption | with_reducible intro _ | with_reducible apply kept_foldl | with_reducible apply kept_accDone)

theorem kept_tksErr {q0 : Base} (s : State) (f : Frame) (st : Nat) (h_s : Kept q0 s) : Kept q0 (State.tksErr s f st) := by
  unfold State.tksErr
  repeat' (first | with_reducible assumption | with_reducible apply kept_ite | with_reducible apply kept_bset | with_reducible apply kept_msix | with_reducible apply kept_record | with_reducible apply kept_set)

theorem kept_tksEnd {q0 : Base} (s : State) (id : Nat) (st : Nat) (r : Frame) (h_s : Kept q0 s) : Kept q0 (State.tksEnd s id st r) := by
  unfold State.tksEnd
  repeat' (first | with_reducible assumption | with_reducible apply kept_ite | with_reducible apply kept_bump | with_reducible apply kept_reply | with_reducible apply kept_tksErr | split | (with_reducible apply kept_same; simp only [↓kept_mk, ↓keptF_self]))

end Sys2Proof.Machine
end

