-- ==== Sys2Proof/Laws/KeepPort.lean ====
section
/-! SUPPORT. What the operations of Machine/Port.lean keep. -/

namespace Sys2Proof.Machine

theorem kept_portStart {q0 : Base} (s : State) (p : Nat) (h_s : Kept q0 s) : Kept q0 (State.portStart s p) := by
  unfold State.portStart
  repeat' (first | with_reducible assumption | with_reducible apply kept_ite | with_reducible apply kept_bset | with_reducible apply kept_setPst)

theorem kept_dropReceived {q0 : Base} (s : State) (p : Nat) (h_s : Kept q0 s) : Kept q0 (State.dropReceived s p) := by
  unfold State.dropReceived
  repeat' (first | with_reducible assumption | with_reducible intro _ | with_reducible apply kept_foldl | with_reducible apply kept_modPort | (with_reducible apply kept_same; simp only [↓kept_mk, ↓keptF_self]))

theorem kept_portReset {q0 : Base} (s : State) (p : Nat) (h_s : Kept q0 s) : Kept q0 (State.portReset s p) := by
  unfold State.portReset
  repeat' (first | with_reducible assumption | with_reducible apply kept_dropReceived | with_reducible apply kept_portStart | with_reducible apply kept_resetRegs | with_reducible apply kept_set | with_reducible apply kept_setPort)

theorem kept_grantSend {q0 : Base} (s : State) (p : Nat) (h_s : Kept q0 s) : Kept q0 (State.grantSend s p) := by
  unfold State.grantSend
  repeat' (first | with_reducible assumption | with_reducible intro _ | with_reducible apply kept_foldl | with_reducible apply kept_emit | with_reducible apply kept_fset)

theorem kept_hello {q0 : Base} (s : State) (p : Nat) (dev : Nat) (part : Nat) (nbr : Nat) (h_s : Kept q0 s) : Kept q0 (State.hello s p dev part nbr) := by
  unfold State.hello
  repeat' (first | with_reducible assumption | with_reducible apply kept_ite | with_reducible apply kept_fset | with_reducible apply kept_grantSend | with_reducible apply kept_modPort | with_reducible apply kept_portLocked | with_reducible apply kept_setPst)

theorem kept_execHello {q0 : Base} (port : Nat) (dev : Nat) (part : Nat) (nbrPort : Nat) (s : State) (h_s : Kept q0 s) : KeptX q0 (execHello port dev part nbrPort s) := by
  unfold execHello
  repeat' (first | with_reducible assumption | with_reducible apply keptX_run | with_reducible apply kept_hello)

theorem kept_portCredit {q0 : Base} (s : State) (p : Nat) (c : Nat × Nat) (h_s : Kept q0 s) : Kept q0 (State.portCredit s p c) := by
  unfold State.portCredit
  repeat' (first | with_reducible assumption | with_reducible apply kept_ite | with_reducible apply kept_breach | with_reducible apply kept_countMet | with_reducible apply kept_modPort | with_reducible apply kept_portReset | with_reducible apply kept_pump | with_reducible apply kept_setPst)

theorem kept_portAck {q0 : Base} (s : State) (p : Nat) (lack : Nat) (c0 : Nat × Nat) (c1 : Nat × Nat) (h_s : Kept q0 s) : Kept q0 (State.portAck s p lack c0 c1) := by
  unfold State.portAck
  repeat' (first | with_reducible assumption | with_reducible apply kept_modPort | with_reducible apply kept_portCredit | with_reducible apply kept_pump)

theorem kept_sendAck {q0 : Base} (s : State) (p : Nat) (h_s : Kept q0 s) : Kept q0 (State.sendAck s p) := by
  unfold State.sendAck
  repeat' (first | with_reducible assumption | with_reducible apply kept_ite | with_reducible apply kept_emit | with_reducible apply kept_setPort)

theorem kept_sendNak {q0 : Base} (s : State) (p : Nat) (h_s : Kept q0 s) : Kept q0 (State.sendNak s p) := by
  unfold State.sendNak
  repeat' (first | with_reducible assumption | with_reducible apply kept_ite | with_reducible apply kept_emit | with_reducible apply kept_modPort)

theorem kept_tksTake {q0 : Base} (s : State) (p : Nat) (f : Frame) (h_s : Kept q0 s) : AllO (Kept q0) (State.tksTake s p f) := by
  unfold State.tksTake
  repeat' (first | with_reducible assumption | with_reducible apply allO_some | with_reducible apply allO_none | with_reducible apply kept_ite | with_reducible apply kept_bump | with_reducible apply kept_modPort | with_reducible apply kept_portAck | with_reducible apply kept_sendAck | split)

theorem kept_tksDrop {q0 : Base} (s : State) (p : Nat) (f : Frame) (h_s : Kept q0 s) : Kept q0 (State.tksDrop s p f) := by
  unfold State.tksDrop
  repeat' (first | with_reducible assumption | with_reducible apply kept_ite | with_reducible apply kept_bump | with_reducible apply kept_sendNak)

theorem kept_badForm {q0 : Base} (s : State) (p : Nat) (f : Frame) (h_s : Kept q0 s) : Kept q0 (State.badForm s p f) := by
  unfold State.badForm
  repeat' (first | with_reducible assumption | with_reducible apply kept_bump | with_reducible apply kept_oweCells | with_reducible apply kept_tksDrop | with_reducible apply kept_tksTake | split | (with_reducible apply kept_of_some; with_reducible assumption))

theorem kept_badFrame {q0 : Base} (s : State) (p : Nat) (b : BadFrame) (h_s : Kept q0 s) : Kept q0 (State.badFrame s p b) := by
  unfold State.badFrame
  repeat' (first | with_reducible assumption | with_reducible apply kept_ite | with_reducible apply kept_badForm | with_reducible apply kept_bump | with_reducible apply kept_sendNak | split)

theorem kept_execTksDiscardedFrame {q0 : Base} (port : Nat) (f : BadFrame) (s : State) (h_s : Kept q0 s) : KeptX q0 (execTksDiscardedFrame port f s) := by
  unfold execTksDiscardedFrame
  repeat' (first | with_reducible assumption | with_reducible apply keptX_run | with_reducible apply kept_badFrame)

theorem kept_nakIn {q0 : Base} (s : State) (p : Nat) (lack : Nat) (h_s : Kept q0 s) : Kept q0 (State.nakIn s p lack) := by
  unfold State.nakIn
  repeat' (first | with_reducible assumption | with_reducible intro _ | with_reducible apply kept_foldl | with_reducible apply kept_ite | with_reducible apply kept_bump | with_reducible apply kept_emit | with_reducible apply kept_modPort | with_reducible apply kept_setPort)

theorem kept_execNak {q0 : Base} (port : Nat) (lack : Nat) (s : State) (h_s : Kept q0 s) : KeptX q0 (execNak port lack s) := by
  unfold execNak
  repeat' (first | with_reducible assumption | with_reducible apply keptX_run | with_reducible apply kept_nakIn)

theorem kept_execTksAckCreditFrame {q0 : Base} (port : Nat) (lack : Nat) (cr0 : Nat × Nat) (cr1 : Nat × Nat) (s : State) (h_s : Kept q0 s) : KeptX q0 (execTksAckCreditFrame port lack cr0 cr1 s) := by
  unfold execTksAckCreditFrame
  repeat' (first | with_reducible assumption | with_reducible apply keptX_run | with_reducible apply kept_ite | with_reducible apply kept_portAck)

theorem kept_execTksAckTimer {q0 : Base} (port : Nat) (s : State) (h_s : Kept q0 s) : KeptX q0 (execTksAckTimer port s) := by
  unfold execTksAckTimer
  repeat' (first | with_reducible assumption | with_reducible apply keptX_run | with_reducible apply kept_ite | with_reducible apply kept_sendAck)

theorem kept_execTksPortRetrain {q0 : Base} (port : Nat) (s : State) (h_s : Kept q0 s) : KeptX q0 (execTksPortRetrain port s) := by
  unfold execTksPortRetrain
  repeat' (first | with_reducible assumption | with_reducible apply keptX_run | with_reducible apply kept_ite | with_reducible apply kept_bset | with_reducible apply kept_bump | with_reducible apply kept_modPort | with_reducible apply kept_setPst)

theorem kept_retrained {q0 : Base} (s : State) (p : Nat) (h_s : Kept q0 s) : Kept q0 (State.retrained s p) := by
  unfold State.retrained
  repeat' (first | with_reducible assumption | with_reducible intro _ | with_reducible apply kept_foldl | with_reducible apply kept_ite | with_reducible apply kept_bset | with_reducible apply kept_emit | with_reducible apply kept_portLocked | with_reducible apply kept_pump | with_reducible apply kept_setPst)

theorem kept_execTksRetrainComplete {q0 : Base} (port : Nat) (s : State) (h_s : Kept q0 s) : KeptX q0 (execTksRetrainComplete port s) := by
  unfold execTksRetrainComplete
  repeat' (first | with_reducible assumption | with_reducible apply keptX_run | with_reducible apply kept_ite | with_reducible apply kept_portLocked | with_reducible apply kept_retrained)

theorem kept_execTksRetrainTimeout {q0 : Base} (port : Nat) (s : State) (h_s : Kept q0 s) : KeptX q0 (execTksRetrainTimeout port s) := by
  unfold execTksRetrainTimeout
  repeat' (first | with_reducible assumption | with_reducible apply keptX_run | with_reducible apply kept_ite | with_reducible apply kept_portReset | with_reducible apply kept_setPst)

theorem kept_tksForward {q0 : Base} (s : State) (p : Nat) (f : Frame) (h_s : Kept q0 s) : Kept q0 (State.tksForward s p f) := by
  unfold State.tksForward
  repeat' (first | with_reducible assumption | with_reducible apply kept_ite | with_reducible apply kept_oweCells | with_reducible apply kept_sendVia | with_reducible apply kept_tksSendResp | split)

theorem kept_transitDrop {q0 : Base} (s : State) (p : Nat) (h_s : Kept q0 s) : Kept q0 (State.transitDrop s p) := by
  unfold State.transitDrop
  repeat' (first | with_reducible assumption | with_reducible apply kept_bump | with_reducible apply kept_modPort | with_reducible apply kept_oweCells | split)

theorem kept_execTksTransitDiscard {q0 : Base} (port : Nat) (s : State) (h_s : Kept q0 s) : KeptX q0 (execTksTransitDiscard port s) := by
  unfold execTksTransitDiscard
  repeat' (first | with_reducible assumption | with_reducible apply keptX_run | with_reducible apply kept_transitDrop)

theorem kept_tksAgain {q0 : Base} (s : State) (id : Nat) (count : Bool) (h_s : Kept q0 s) : Kept q0 (State.tksAgain s id count) := by
  unfold State.tksAgain
  repeat' (first | with_reducible assumption | with_reducible apply kept_ite | with_reducible apply kept_bump | with_reducible apply kept_sendVia | split)

theorem kept_execTksRequestResend {q0 : Base} (reqid : W32) (s : State) (h_s : Kept q0 s) : KeptX q0 (execTksRequestResend reqid s) := by
  unfold execTksRequestResend
  repeat' (first | with_reducible assumption | with_reducible apply keptX_next | with_reducible apply kept_tksAgain)

theorem kept_execTksRequestFail {q0 : Base} (reqid : W32) (s : State) (h_s : Kept q0 s) : KeptX q0 (execTksRequestFail reqid s) := by
  unfold execTksRequestFail
  repeat' (first | with_reducible assumption | with_reducible apply keptX_next | with_reducible apply kept_tksEnd | split)

theorem kept_execTksBusyRetry {q0 : Base} (reqid : W32) (s : State) (h_s : Kept q0 s) : KeptX q0 (execTksBusyRetry reqid s) := by
  unfold execTksBusyRetry
  repeat' (first | with_reducible assumption | with_reducible apply keptX_next | with_reducible apply kept_tksAgain)

theorem kept_execTksMemoExpiry {q0 : Base} (src : Nat) (reqid : W32) (s : State) (h_s : Kept q0 s) : KeptX q0 (execTksMemoExpiry src reqid s) := by
  unfold execTksMemoExpiry
  repeat' (first | with_reducible assumption | with_reducible apply keptX_next | with_reducible apply kept_memoCount | (with_reducible apply kept_same; simp only [↓kept_mk, ↓keptF_self]))

theorem kept_execTksPortStatus {q0 : Base} (q : Req) (port : Nat) (s : State) (h_s : Kept q0 s) : KeptX q0 (execTksPortStatus q port s) := by
  unfold execTksPortStatus
  repeat' (first | with_reducible assumption | with_reducible intro _ | with_reducible apply keptA_done | with_reducible apply keptX_run | with_reducible apply keptA_ite | with_reducible apply kept_axotte | with_reducible apply kept_invalid)

theorem kept_execTksPortStatusExpert {q0 : Base} (q : Req) (port : Nat) (lane : Nat) (s : State) (h_s : Kept q0 s) : KeptX q0 (execTksPortStatusExpert q port lane s) := by
  unfold execTksPortStatusExpert
  repeat' (first | with_reducible assumption | with_reducible intro _ | with_reducible apply keptA_done | with_reducible apply keptX_run | with_reducible apply keptA_ite | with_reducible apply kept_axotte | with_reducible apply kept_invalid | (with_reducible apply kept_same; simp only [↓kept_mk, ↓keptF_self]))

theorem kept_execTksPortReset {q0 : Base} (q : Req) (port : Nat) (s : State) (h_s : Kept q0 s) : KeptX q0 (execTksPortReset q port s) := by
  unfold execTksPortReset
  repeat' (first | with_reducible assumption | with_reducible intro _ | with_reducible apply keptA_done | with_reducible apply keptX_run | with_reducible apply keptA_ite | with_reducible apply kept_axotte | with_reducible apply kept_invalid | with_reducible apply kept_modPort | with_reducible apply kept_portReset)

theorem kept_execTksPortResetExpert {q0 : Base} (q : Req) (port : Nat) (hold : Bool) (s : State) (h_s : Kept q0 s) : KeptX q0 (execTksPortResetExpert q port hold s) := by
  unfold execTksPortResetExpert
  repeat' (first | with_reducible assumption | with_reducible intro _ | with_reducible apply keptA_done | with_reducible apply keptX_run | with_reducible apply keptA_ite | with_reducible apply kept_axotte | with_reducible apply kept_invalid | with_reducible apply kept_modPort | with_reducible apply kept_portReset)

theorem kept_execTksRouteProbe {q0 : Base} (q : Req) (dev : Nat) (s : State) (h_s : Kept q0 s) : KeptX q0 (execTksRouteProbe q dev s) := by
  unfold execTksRouteProbe
  repeat' (first | with_reducible assumption | with_reducible intro _ | with_reducible apply keptA_done | with_reducible apply keptX_run | with_reducible apply keptA_ite | with_reducible apply kept_axotte | with_reducible apply kept_invalid)

theorem kept_pingGo {q0 : Base} (s : State) (m : Nat) (dev : Nat) (tc : Nat) (n : Nat) (h_s : Kept q0 s) : KeptA q0 (State.pingGo s m dev tc n) := by
  unfold State.pingGo
  repeat' (first | with_reducible assumption | with_reducible intro _ | with_reducible apply kept_foldl | with_reducible apply kept_getD | with_reducible apply keptA_wait | with_reducible apply keptA_hold | with_reducible apply keptA_ite | with_reducible apply kept_hole | with_reducible apply kept_refuse | with_reducible apply kept_tksSend | (with_reducible apply kept_same; simp only [↓kept_mk, ↓keptF_self]))

theorem kept_execTksPing {q0 : Base} (q : Req) (dev : Nat) (tc : Nat) (count : Nat) (s : State) (h_s : Kept q0 s) : KeptX q0 (execTksPing q dev tc count s) := by
  unfold execTksPing
  repeat' (first | with_reducible assumption | with_reducible intro _ | with_reducible apply keptX_run | with_reducible apply keptA_ite | with_reducible apply kept_axotte | with_reducible apply kept_invalid | with_reducible apply kept_pingGo)

theorem kept_execTksCreditSet {q0 : Base} (q : Req) (port : Nat) (s : State) (h_s : Kept q0 s) : KeptX q0 (execTksCreditSet q port s) := by
  unfold execTksCreditSet
  repeat' (first | with_reducible assumption | with_reducible intro _ | with_reducible apply keptA_done | with_reducible apply keptX_run | with_reducible apply keptA_ite | with_reducible apply kept_axotte | with_reducible apply kept_invalid | with_reducible apply kept_modPort | with_reducible apply kept_portReset)

theorem kept_execTksCreditSetExpert {q0 : Base} (q : Req) (port : Nat) (grants : List Nat) (s : State) (h_s : Kept q0 s) : KeptX q0 (execTksCreditSetExpert q port grants s) := by
  unfold execTksCreditSetExpert
  repeat' (first | with_reducible assumption | with_reducible intro _ | with_reducible apply keptA_done | with_reducible apply keptX_run | with_reducible apply keptA_ite | with_reducible apply kept_axotte | with_reducible apply kept_invalid | with_reducible apply kept_modPort | with_reducible apply kept_portReset)

end Sys2Proof.Machine
end

