-- ==== Sys2Proof/Laws/KeepAttest.lean ====
section
/-! SUPPORT. What the operations of Machine/Attest.lean keep. -/

namespace Sys2Proof.Machine

theorem kept_spdm {q0 : Base} (s : State) (port : Nat) (code : Nat) (payload : List Byte) (h_s : Kept q0 s) : Kept q0 (State.spdm s port code payload) := by
  unfold State.spdm
  repeat' (first | with_reducible assumption | with_reducible apply kept_ite | with_reducible apply kept_emit | (with_reducible apply kept_same; simp only [↓kept_mk, ↓keptF_self]))

theorem kept_measAnswer {q0 : Base} (s : State) (h : Held) (trans : Bool) (h_s : Kept q0 s) : Kept q0 (State.measAnswer s h trans) := by
  unfold State.measAnswer
  repeat' (first | with_reducible assumption | with_reducible apply kept_ite | with_reducible apply kept_spdm)

theorem kept_heldFlush {q0 : Base} (s : State) (h_s : Kept q0 s) : Kept q0 (State.heldFlush s) := by
  unfold State.heldFlush
  repeat' (first | with_reducible assumption | with_reducible intro _ | with_reducible apply kept_foldl | with_reducible apply kept_ite | with_reducible apply kept_measAnswer | (with_reducible apply kept_same; simp only [↓kept_mk, ↓keptF_self]))

theorem kept_measDone {q0 : Base} (s : State) (h_s : Kept q0 s) : Kept q0 (State.measDone s) := by
  unfold State.measDone
  repeat' (first | with_reducible assumption | with_reducible apply kept_heldFlush | with_reducible apply kept_measCommit)

theorem kept_handFour {q0 : Base} (s : State) (h : Handover) (h_s : Kept q0 s) : Kept q0 (State.handFour s h) := by
  unfold State.handFour
  repeat' (first | with_reducible assumption | with_reducible intro _ | with_reducible apply kept_foldl | with_reducible apply kept_getD | with_reducible apply kept_bset | with_reducible apply kept_fset | with_reducible apply kept_prbJob | with_reducible apply kept_prbMirror | with_reducible apply kept_tksSend | split | (with_reducible apply kept_same; simp only [↓kept_mk, ↓keptF_self]))

theorem kept_handFive {q0 : Base} (s : State) (h : Handover) (h_s : Kept q0 s) : Kept q0 (State.handFive s h) := by
  unfold State.handFive
  repeat' (first | with_reducible assumption | with_reducible apply kept_axFinish | with_reducible apply kept_log' | with_reducible apply kept_measDone | with_reducible apply kept_set | (with_reducible apply kept_same; simp only [↓kept_mk, ↓keptF_self]))

theorem kept_handEnd {q0 : Base} (s : State) (h : Handover) (h_s : Kept q0 s) : Kept q0 (State.handEnd s h) := by
  unfold State.handEnd
  repeat' (first | with_reducible assumption | with_reducible apply kept_handFive | with_reducible apply kept_handFour)

theorem kept_handSite {q0 : Base} (s : State) (n : Nat) (h_s : Kept q0 s) : Kept q0 (State.handSite s n) := by
  unfold State.handSite
  repeat' (first | with_reducible assumption | with_reducible apply kept_ite | with_reducible apply kept_handEnd | split | (with_reducible apply kept_same; simp only [↓kept_mk, ↓keptF_self]))

end Sys2Proof.Machine
end

