-- ==== Sys2Proof/Laws/KeepSite.lean ====
section
/-! SUPPORT. What the operations of Machine/Site.lean keep. -/

namespace Sys2Proof.Machine

theorem kept_modSite {q0 : Base} (s : State) (n : Nat) (f : SiteSt → SiteSt) (h_s : Kept q0 s) : Kept q0 (State.modSite s n f) := by
  unfold State.modSite
  repeat' (first | with_reducible assumption | (with_reducible apply kept_same; simp only [↓kept_mk, ↓keptF_self]))

theorem kept_siteGrant {q0 : Base} (s : State) (n : Nat) (h_s : Kept q0 s) : Kept q0 (State.siteGrant s n) := by
  unfold State.siteGrant
  repeat' (first | with_reducible assumption | with_reducible apply kept_ite | with_reducible apply kept_emit | with_reducible apply kept_fset | with_reducible apply kept_hold | with_reducible apply kept_modSite)

theorem kept_siteRegrant {q0 : Base} (s : State) (n : Nat) (h_s : Kept q0 s) : Kept q0 (State.siteRegrant s n) := by
  unfold State.siteRegrant
  repeat' (first | with_reducible assumption | with_reducible apply kept_ite | with_reducible apply kept_siteGrant)

theorem kept_sitesRegrant {q0 : Base} (s : State) (h_s : Kept q0 s) : Kept q0 (State.sitesRegrant s) := by
  unfold State.sitesRegrant
  repeat' (first | with_reducible assumption | with_reducible intro _ | with_reducible apply kept_foldl | with_reducible apply kept_siteRegrant)

theorem kept_supplyUse {q0 : Base} (s : State) (h_s : Kept q0 s) : Kept q0 (State.supplyUse s) := by
  unfold State.supplyUse
  repeat' (first | with_reducible assumption | with_reducible apply kept_dutyAll | with_reducible apply kept_sitesRegrant)

theorem kept_tokenRebuild {q0 : Base} (s : State) (p : Nat) (h_s : Kept q0 s) : Kept q0 (State.tokenRebuild s p) := by
  unfold State.tokenRebuild
  repeat' (first | with_reducible assumption | with_reducible apply kept_poolSet | with_reducible apply kept_supplyUse | (with_reducible apply kept_same; simp only [↓kept_mk, ↓keptF_self]))

theorem kept_tokenCheck {q0 : Base} (s : State) (p : Nat) (h_s : Kept q0 s) : Kept q0 (State.tokenCheck s p) := by
  unfold State.tokenCheck
  repeat' (first | with_reducible assumption | with_reducible apply kept_ite | with_reducible apply kept_breach | with_reducible apply kept_countMet | with_reducible apply kept_tokenRebuild)

theorem kept_siteBase {q0 : Base} (s : State) (n : Nat) (want : Nat) (h_s : Kept q0 s) : Kept q0 (State.siteBase s n want) := by
  unfold State.siteBase
  repeat' (first | with_reducible assumption | with_reducible apply kept_modSite)

theorem kept_pwrReq {q0 : Base} (s : State) (n : Nat) (vcore : Nat) (power : Nat) (h_s : Kept q0 s) : Kept q0 (State.pwrReq s n vcore power) := by
  unfold State.pwrReq
  repeat' (first | with_reducible assumption | with_reducible apply kept_ite | with_reducible apply kept_fset | with_reducible apply kept_siteBase | with_reducible apply kept_siteGrant | with_reducible apply kept_tokenCheck)

theorem kept_execPwrReq {q0 : Base} (site : Nat) (vcore : Nat) (power : Nat) (s : State) (h_s : Kept q0 s) : KeptX q0 (execPwrReq site vcore power s) := by
  unfold execPwrReq
  repeat' (first | with_reducible assumption | with_reducible apply keptX_run | with_reducible apply kept_pwrReq)

theorem kept_siteSettled {q0 : Base} (s : State) (n : Nat) (detail : Nat) (h_s : Kept q0 s) : Kept q0 (State.siteSettled s n detail) := by
  unfold State.siteSettled
  repeat' (first | with_reducible assumption | with_reducible apply kept_axFinish | with_reducible apply kept_handSite | with_reducible apply kept_measDone | with_reducible apply kept_modSite | split)

theorem kept_siteHold {q0 : Base} (s : State) (n : Nat) (detail : Nat) (code : Nat) (railsOff : Bool) (h_s : Kept q0 s) : Kept q0 (State.siteHold s n detail code railsOff) := by
  unfold State.siteHold
  repeat' (first | with_reducible assumption | with_reducible apply kept_ite | with_reducible apply kept_bset | with_reducible apply kept_domOff | with_reducible apply kept_fset | with_reducible apply kept_log' | with_reducible apply kept_modSite | with_reducible apply kept_siteSettled)

theorem kept_modsAll {q0 : Base} (s : State) (n : Nat) (k : Nat) (h_s : Kept q0 s) : Kept q0 (State.modsAll s n k) := by
  unfold State.modsAll
  repeat' (first | with_reducible assumption | with_reducible intro _ | with_reducible apply kept_foldl | with_reducible apply kept_set)

theorem kept_siteIdent {q0 : Base} (s : State) (n : Nat) (h_s : Kept q0 s) : Kept q0 (State.siteIdent s n) := by
  unfold State.siteIdent
  repeat' (first | with_reducible assumption | with_reducible apply kept_bset | with_reducible apply kept_emit | with_reducible apply kept_modSite | with_reducible apply kept_modsAll)

theorem kept_siteRails {q0 : Base} (s : State) (n : Nat) (h_s : Kept q0 s) : Kept q0 (State.siteRails s n) := by
  unfold State.siteRails
  repeat' (first | with_reducible assumption | with_reducible apply kept_domOn | with_reducible apply kept_fset)

theorem kept_siteStart {q0 : Base} (s : State) (n : Nat) (h_s : Kept q0 s) : Kept q0 (State.siteStart s n) := by
  unfold State.siteStart
  repeat' (first | with_reducible assumption | with_reducible apply kept_ite | with_reducible apply kept_bset | with_reducible apply kept_modSite | with_reducible apply kept_siteIdent | with_reducible apply kept_siteRails)

theorem kept_siteFence {q0 : Base} (s : State) (n : Nat) (h_s : Kept q0 s) : Kept q0 (State.siteFence s n) := by
  unfold State.siteFence
  repeat' (first | with_reducible assumption | with_reducible intro _ | with_reducible apply kept_foldl | with_reducible apply kept_accEnds | with_reducible apply kept_extEnd | with_reducible apply kept_fence | with_reducible apply kept_sweep | (with_reducible apply kept_same; simp only [↓kept_mk, ↓keptF_self]))

theorem kept_siteReset {q0 : Base} (s : State) (n : Nat) (cycle : Bool) (scrub : Bool) (mbx : Option Nat) (h_s : Kept q0 s) : Kept q0 (State.siteReset s n cycle scrub mbx) := by
  unfold State.siteReset
  repeat' (first | with_reducible assumption | with_reducible intro _ | with_reducible apply kept_foldl | with_reducible apply kept_ite | with_reducible apply kept_bset | with_reducible apply kept_domOff | with_reducible apply kept_emit | with_reducible apply kept_fset | with_reducible apply kept_killCtx | with_reducible apply kept_modSite | with_reducible apply kept_resetRegs | with_reducible apply kept_set | with_reducible apply kept_siteFence | with_reducible apply kept_siteIdent | with_reducible apply kept_siteRails | split | (with_reducible apply kept_same; simp only [↓kept_mk, ↓keptF_self]))

theorem kept_siteCut {q0 : Base} (s : State) (n : Nat) (h_s : Kept q0 s) : Kept q0 (State.siteCut s n) := by
  unfold State.siteCut
  repeat' (first | with_reducible assumption | with_reducible apply kept_fset | with_reducible apply kept_modSite | with_reducible apply kept_siteReset)

theorem kept_siteHeard {q0 : Base} (s : State) (n : Nat) (h_s : Kept q0 s) : Kept q0 (State.siteHeard s n) := by
  unfold State.siteHeard
  repeat' (first | with_reducible assumption | with_reducible apply kept_ite | with_reducible apply kept_fset)

theorem kept_idRsp {q0 : Base} (s : State) (n : Nat) (w : Nat) (v : W32) (h_s : Kept q0 s) : Kept q0 (State.idRsp s n w v) := by
  unfold State.idRsp
  repeat' (first | with_reducible assumption | with_reducible apply kept_ite | with_reducible apply kept_bset | with_reducible apply kept_fset | with_reducible apply kept_modSite | with_reducible apply kept_modsAll | with_reducible apply kept_set | with_reducible apply kept_siteHeard | with_reducible apply kept_siteHold)

theorem kept_execIdRsp {q0 : Base} (site : Nat) (w : Nat) (v : W32) (s : State) (h_s : Kept q0 s) : KeptX q0 (execIdRsp site w v s) := by
  unfold execIdRsp
  repeat' (first | with_reducible assumption | with_reducible apply keptX_run | with_reducible apply kept_idRsp)

theorem kept_modSpares {q0 : Base} (s : State) (n : Nat) (m : Nat) (v : Nat) (h_s : Kept q0 s) : Kept q0 (State.modSpares s n m v) := by
  unfold State.modSpares
  repeat' (first | with_reducible assumption | with_reducible apply kept_ite | with_reducible apply kept_set)

theorem kept_siteModsIn {q0 : Base} (s : State) (n : Nat) (mask : Nat) (spares : List Nat) (h_s : Kept q0 s) : Kept q0 (State.siteModsIn s n mask spares) := by
  unfold State.siteModsIn
  repeat' (first | with_reducible assumption | with_reducible intro _ | with_reducible apply kept_foldl | with_reducible apply kept_ite | with_reducible apply kept_emit | with_reducible apply kept_fset | with_reducible apply kept_modSite | with_reducible apply kept_modSpares | with_reducible apply kept_set | with_reducible apply kept_siteBase | with_reducible apply kept_siteGrant | with_reducible apply kept_siteHold | with_reducible apply kept_tokenCheck)

theorem kept_execSiteMods {q0 : Base} (site : Nat) (mask : ModEcho) (s : State) (h_s : Kept q0 s) : KeptX q0 (execSiteMods site mask s) := by
  unfold execSiteMods
  repeat' (first | with_reducible assumption | with_reducible apply keptX_run | with_reducible apply kept_siteModsIn)

theorem kept_siteUp {q0 : Base} (s : State) (n : Nat) (h_s : Kept q0 s) : Kept q0 (State.siteUp s n) := by
  unfold State.siteUp
  repeat' (first | with_reducible assumption | with_reducible apply kept_bset | with_reducible apply kept_modSite | with_reducible apply kept_siteSettled)

theorem kept_pwrAckIn {q0 : Base} (s : State) (n : Nat) (q : Nat) (h_s : Kept q0 s) : Kept q0 (State.pwrAckIn s n q) := by
  unfold State.pwrAckIn
  repeat' (first | with_reducible assumption | with_reducible apply kept_ite | with_reducible apply kept_hold | with_reducible apply kept_modSite | with_reducible apply kept_siteUp | with_reducible apply kept_tokenCheck | split)

theorem kept_execPwrAck {q0 : Base} (site : Nat) (gseq : Nat) (s : State) (h_s : Kept q0 s) : KeptX q0 (execPwrAck site gseq s) := by
  unfold execPwrAck
  repeat' (first | with_reducible assumption | with_reducible apply keptX_run | with_reducible apply kept_pwrAckIn)

theorem kept_scrubAckIn {q0 : Base} (s : State) (n : Nat) (ok : Bool) (h_s : Kept q0 s) : Kept q0 (State.scrubAckIn s n ok) := by
  unfold State.scrubAckIn
  repeat' (first | with_reducible assumption | with_reducible apply kept_ite | with_reducible apply kept_bset | with_reducible apply kept_log' | with_reducible apply kept_siteHeard | with_reducible apply kept_siteIdent)

theorem kept_execScrubAck {q0 : Base} (site : Nat) (ok : Bool) (s : State) (h_s : Kept q0 s) : KeptX q0 (execScrubAck site ok s) := by
  unfold execScrubAck
  repeat' (first | with_reducible assumption | with_reducible apply keptX_run | with_reducible apply kept_scrubAckIn)

theorem kept_execScrubTimeout {q0 : Base} (site : Nat) (s : State) (h_s : Kept q0 s) : KeptX q0 (execScrubTimeout site s) := by
  unfold execScrubTimeout
  repeat' (first | with_reducible assumption | with_reducible apply keptX_run | with_reducible apply kept_ite | with_reducible apply kept_bset | with_reducible apply kept_siteHold)

theorem kept_siteHot {q0 : Base} (s : State) (n : Nat) (hot : Nat) (h_s : Kept q0 s) : Kept q0 (State.siteHot s n hot) := by
  unfold State.siteHot
  repeat' (first | with_reducible assumption | with_reducible apply kept_modSite | with_reducible apply kept_siteRegrant | with_reducible apply kept_tokenCheck)

theorem kept_thermIn {q0 : Base} (s : State) (n : Nat) (temp : Nat) (h_s : Kept q0 s) : Kept q0 (State.thermIn s n temp) := by
  unfold State.thermIn
  repeat' (first | with_reducible assumption | with_reducible apply kept_ite | with_reducible apply kept_fset | with_reducible apply kept_log' | with_reducible apply kept_siteCut | with_reducible apply kept_siteHot)

theorem kept_execTherm {q0 : Base} (site : Nat) (temp : Nat) (s : State) (h_s : Kept q0 s) : KeptX q0 (execTherm site temp s) := by
  unfold execTherm
  repeat' (first | with_reducible assumption | with_reducible apply keptX_run | with_reducible apply kept_thermIn)

theorem kept_execThermTimeout {q0 : Base} (site : Nat) (ms : Nat) (s : State) (h_s : Kept q0 s) : KeptX q0 (execThermTimeout site ms s) := by
  unfold execThermTimeout
  repeat' (first | with_reducible assumption | with_reducible apply keptX_run | with_reducible apply kept_ite | with_reducible apply kept_log' | with_reducible apply kept_siteCut | with_reducible apply kept_siteHot)

theorem kept_execChipErr {q0 : Base} (site : Nat) (code : Nat) (s : State) (h_s : Kept q0 s) : KeptX q0 (execChipErr site code s) := by
  unfold execChipErr
  repeat' (first | with_reducible assumption | with_reducible apply keptX_run | with_reducible apply kept_log')

theorem kept_siteAvg {q0 : Base} (s : State) (n : Nat) (avg : Nat) (h_s : Kept q0 s) : Kept q0 (State.siteAvg s n avg) := by
  unfold State.siteAvg
  repeat' (first | with_reducible assumption | with_reducible apply kept_ite | with_reducible apply kept_fset | with_reducible apply kept_log' | with_reducible apply kept_modSite | with_reducible apply kept_siteCut | with_reducible apply kept_siteGrant)

theorem kept_execSitePowerAverage {q0 : Base} (site : Nat) (avg : Nat) (s : State) (h_s : Kept q0 s) : KeptX q0 (execSitePowerAverage site avg s) := by
  unfold execSitePowerAverage
  repeat' (first | with_reducible assumption | with_reducible apply keptX_run | with_reducible apply kept_siteAvg)

theorem kept_execSiteOverpowerRecheck {q0 : Base} (site : Nat) (avg : Nat) (s : State) (h_s : Kept q0 s) : KeptX q0 (execSiteOverpowerRecheck site avg s) := by
  unfold execSiteOverpowerRecheck
  repeat' (first | with_reducible assumption | with_reducible apply keptX_run | with_reducible apply kept_ite | with_reducible apply kept_log' | with_reducible apply kept_modSite | with_reducible apply kept_siteCut)

theorem kept_modMod {q0 : Base} (s : State) (k : Nat) (f : ModSt → ModSt) (h_s : Kept q0 s) : Kept q0 (State.modMod s k f) := by
  unfold State.modMod
  repeat' (first | with_reducible assumption | with_reducible apply kept_setMod)

theorem kept_modAckOnly {q0 : Base} (s : State) (k : Nat) (h_s : Kept q0 s) : Kept q0 (State.modAckOnly s k) := by
  unfold State.modAckOnly
  repeat' (first | with_reducible assumption | with_reducible apply kept_ite | with_reducible apply kept_emit | with_reducible apply kept_modMod)

theorem kept_modNull {q0 : Base} (s : State) (k : Nat) (h_s : Kept q0 s) : Kept q0 (State.modNull s k) := by
  unfold State.modNull
  repeat' (first | with_reducible assumption | with_reducible apply kept_ite | with_reducible apply kept_emit | with_reducible apply kept_modAckOnly | with_reducible apply kept_setMod)

theorem kept_modAck {q0 : Base} (s : State) (k : Nat) (h_s : Kept q0 s) : Kept q0 (State.modAck s k) := by
  unfold State.modAck
  repeat' (first | with_reducible assumption | with_reducible apply kept_ite | with_reducible apply kept_modAckOnly | with_reducible apply kept_modNull)

theorem kept_modNak {q0 : Base} (s : State) (k : Nat) (h_s : Kept q0 s) : Kept q0 (State.modNak s k) := by
  unfold State.modNak
  repeat' (first | with_reducible assumption | with_reducible apply kept_ite | with_reducible apply kept_bump | with_reducible apply kept_emit | with_reducible apply kept_modMod)

theorem kept_ucieReset {q0 : Base} (s : State) (n : Nat) (h_s : Kept q0 s) : Kept q0 (State.ucieReset s n) := by
  unfold State.ucieReset
  repeat' (first | with_reducible assumption | with_reducible apply kept_modSite | with_reducible apply kept_siteReset)

theorem kept_ucieBreach {q0 : Base} (s : State) (n : Nat) (m : Nat) (delta : Int) (h_s : Kept q0 s) : Kept q0 (State.ucieBreach s n m delta) := by
  unfold State.ucieBreach
  repeat' (first | with_reducible assumption | with_reducible apply kept_breach | with_reducible apply kept_ucieReset)

theorem kept_modCret {q0 : Base} (s : State) (k : Nat) (cret : List Nat) (h_s : Kept q0 s) : Kept q0 (State.modCret s k cret).1 := by
  unfold State.modCret
  repeat' (first | with_reducible assumption | with_reducible intro _ | with_reducible apply kept_foldl_fst | with_reducible apply kept_modMod | split | (with_reducible apply kept_same; simp only [↓kept_mk, ↓keptF_self]))

theorem kept_modEnable {q0 : Base} (s : State) (n : Nat) (m : Nat) (h_s : Kept q0 s) : Kept q0 (State.modEnable s n m) := by
  unfold State.modEnable
  repeat' (first | with_reducible assumption | with_reducible apply kept_modMod | with_reducible apply kept_modNull | with_reducible apply kept_set)

theorem kept_ucieIn {q0 : Base} (s : State) (n : Nat) (m : Nat) (f : UFlit) (h_s : Kept q0 s) : Kept q0 (State.ucieIn s n m f) := by
  unfold State.ucieIn
  repeat' (first | with_reducible assumption | with_reducible apply kept_ite | with_reducible apply kept_countMet | with_reducible apply kept_fence | with_reducible apply kept_log' | with_reducible apply kept_modAck | with_reducible apply kept_modCret | with_reducible apply kept_modEnable | with_reducible apply kept_modMod | with_reducible apply kept_modNak | with_reducible apply kept_modPump | with_reducible apply kept_ucieBreach | with_reducible apply kept_ucieReset | split)

theorem kept_execUcieFlit {q0 : Base} (site : Nat) (module : Nat) (f : UFlit) (s : State) (h_s : Kept q0 s) : KeptX q0 (execUcieFlit site module f s) := by
  unfold execUcieFlit
  repeat' (first | with_reducible assumption | with_reducible apply keptX_run | with_reducible apply kept_ucieIn)

theorem kept_modReplay {q0 : Base} (s : State) (k : Nat) (h_s : Kept q0 s) : Kept q0 (State.modReplay s k) := by
  unfold State.modReplay
  repeat' (first | with_reducible assumption | with_reducible intro _ | with_reducible apply kept_foldl | with_reducible apply kept_emit)

theorem kept_ucieNakIn {q0 : Base} (s : State) (n : Nat) (m : Nat) (ack : Nat) (h_s : Kept q0 s) : Kept q0 (State.ucieNakIn s n m ack) := by
  unfold State.ucieNakIn
  repeat' (first | with_reducible assumption | with_reducible apply kept_ite | with_reducible apply kept_bump | with_reducible apply kept_modMod | with_reducible apply kept_modReplay)

theorem kept_execUcieNak {q0 : Base} (site : Nat) (module : Nat) (ack : Nat) (s : State) (h_s : Kept q0 s) : KeptX q0 (execUcieNak site module ack s) := by
  unfold execUcieNak
  repeat' (first | with_reducible assumption | with_reducible apply keptX_run | with_reducible apply kept_ucieNakIn)

theorem kept_execUcieAckFlit {q0 : Base} (site : Nat) (module : Nat) (ack : Nat) (s : State) (h_s : Kept q0 s) : KeptX q0 (execUcieAckFlit site module ack s) := by
  unfold execUcieAckFlit
  repeat' (first | with_reducible assumption | with_reducible apply keptX_run | with_reducible apply kept_ite | with_reducible apply kept_modMod | with_reducible apply kept_modPump)

theorem kept_execUcieAckTimer {q0 : Base} (site : Nat) (module : Nat) (s : State) (h_s : Kept q0 s) : KeptX q0 (execUcieAckTimer site module s) := by
  unfold execUcieAckTimer
  repeat' (first | with_reducible assumption | with_reducible apply keptX_run | with_reducible apply kept_ite | with_reducible apply kept_modAck)

theorem kept_execUcieModuleRetrain {q0 : Base} (site : Nat) (module : Nat) (s : State) (h_s : Kept q0 s) : KeptX q0 (execUcieModuleRetrain site module s) := by
  unfold execUcieModuleRetrain
  repeat' (first | with_reducible assumption | with_reducible apply keptX_run | with_reducible apply kept_ite | with_reducible apply kept_bump | with_reducible apply kept_fset | with_reducible apply kept_modMod)

theorem kept_execUcieRetrainComplete {q0 : Base} (site : Nat) (module : Nat) (s : State) (h_s : Kept q0 s) : KeptX q0 (execUcieRetrainComplete site module s) := by
  unfold execUcieRetrainComplete
  repeat' (first | with_reducible assumption | with_reducible apply keptX_run | with_reducible apply kept_ite | with_reducible apply kept_fset | with_reducible apply kept_modPump | with_reducible apply kept_modReplay)

theorem kept_execUcieRetrainTimeout {q0 : Base} (site : Nat) (module : Nat) (s : State) (h_s : Kept q0 s) : KeptX q0 (execUcieRetrainTimeout site module s) := by
  unfold execUcieRetrainTimeout
  repeat' (first | with_reducible assumption | with_reducible apply keptX_run | with_reducible apply kept_ite | with_reducible apply kept_log' | with_reducible apply kept_siteReset)

theorem kept_sideFail {q0 : Base} (s : State) (n : Nat) (m : Nat) (h_s : Kept q0 s) : Kept q0 (State.sideFail s n m) := by
  unfold State.sideFail
  repeat' (first | with_reducible assumption | with_reducible apply kept_ite | with_reducible apply kept_modSite | with_reducible apply kept_siteHold)

theorem kept_execUcieSidebandFailure {q0 : Base} (site : Nat) (module : Nat) (s : State) (h_s : Kept q0 s) : KeptX q0 (execUcieSidebandFailure site module s) := by
  unfold execUcieSidebandFailure
  repeat' (first | with_reducible assumption | with_reducible apply keptX_run | with_reducible apply kept_sideFail)

theorem kept_onSite {q0 : Base} (s : State) (q : Req) (n : Nat) (f : State → AxR) (h_s : Kept q0 s) (h_f : ∀ s, Kept q0 s → KeptA q0 (f s)) : KeptA q0 (onSite s q n f) := by
  unfold onSite
  repeat' (first | with_reducible assumption | with_reducible apply keptA_ite | with_reducible apply kept_invalid | with_reducible apply h_f)

theorem kept_execSiteStatus {q0 : Base} (q : Req) (site : Nat) (s : State) (h_s : Kept q0 s) : KeptX q0 (execSiteStatus q site s) := by
  unfold execSiteStatus
  repeat' (first | with_reducible assumption | with_reducible intro _ | with_reducible apply keptA_done | with_reducible apply keptX_run | with_reducible apply kept_axotte | with_reducible apply kept_onSite)

theorem kept_execSiteStatusExpert {q0 : Base} (q : Req) (site : Nat) (module : Nat) (s : State) (h_s : Kept q0 s) : KeptX q0 (execSiteStatusExpert q site module s) := by
  unfold execSiteStatusExpert
  repeat' (first | with_reducible assumption | with_reducible intro _ | with_reducible apply keptA_done | with_reducible apply keptX_run | with_reducible apply keptA_ite | with_reducible apply kept_axotte | with_reducible apply kept_invalid | with_reducible apply kept_onSite | (with_reducible apply kept_same; simp only [↓kept_mk, ↓keptF_self]))

theorem kept_siteResetCmd {q0 : Base} (s : State) (m : Nat) (n : Nat) (cycle : Bool) (scrub : Bool) (h_s : Kept q0 s) : KeptA q0 (State.siteResetCmd s m n cycle scrub) := by
  unfold State.siteResetCmd
  repeat' (first | with_reducible assumption | with_reducible apply keptA_wait | with_reducible apply keptA_ite | with_reducible apply kept_busy | with_reducible apply kept_refuse | with_reducible apply kept_siteReset)

theorem kept_execSiteReset {q0 : Base} (q : Req) (site : Nat) (s : State) (h_s : Kept q0 s) : KeptX q0 (execSiteReset q site s) := by
  unfold execSiteReset
  repeat' (first | with_reducible assumption | with_reducible intro _ | with_reducible apply keptX_run | with_reducible apply kept_axotte | with_reducible apply kept_onSite | with_reducible apply kept_siteResetCmd)

theorem kept_execSiteResetExpert {q0 : Base} (q : Req) (site : Nat) (cycle : Bool) (scrub : Bool) (s : State) (h_s : Kept q0 s) : KeptX q0 (execSiteResetExpert q site cycle scrub s) := by
  unfold execSiteResetExpert
  repeat' (first | with_reducible assumption | with_reducible intro _ | with_reducible apply keptX_run | with_reducible apply kept_axotte | with_reducible apply kept_onSite | with_reducible apply kept_siteResetCmd)

theorem kept_execSitePwrSet {q0 : Base} (q : Req) (site : Nat) (watts : Nat) (s : State) (h_s : Kept q0 s) : KeptX q0 (execSitePwrSet q site watts s) := by
  unfold execSitePwrSet
  repeat' (first | with_reducible assumption | with_reducible intro _ | with_reducible apply keptA_done | with_reducible apply keptX_run | with_reducible apply kept_ite | with_reducible apply keptA_ite | with_reducible apply kept_axotte | with_reducible apply kept_invalid | with_reducible apply kept_modSite | with_reducible apply kept_onSite | with_reducible apply kept_siteBase | with_reducible apply kept_siteRegrant | with_reducible apply kept_tokenCheck)

theorem kept_execSitePwrSetExpert {q0 : Base} (q : Req) (site : Nat) (grant : Nat) (s : State) (h_s : Kept q0 s) : KeptX q0 (execSitePwrSetExpert q site grant s) := by
  unfold execSitePwrSetExpert
  repeat' (first | with_reducible assumption | with_reducible intro _ | with_reducible apply keptA_done | with_reducible apply keptX_run | with_reducible apply keptA_ite | with_reducible apply kept_axotte | with_reducible apply kept_busy | with_reducible apply kept_invalid | with_reducible apply kept_modSite | with_reducible apply kept_onSite | with_reducible apply kept_siteRegrant | with_reducible apply kept_tokenCheck)

end Sys2Proof.Machine
end

