-- ==== Sys2Proof/Laws/KeepSupply.lean ====
section
/-! SUPPORT. What the operations of Machine/Supply.lean keep. -/

namespace Sys2Proof.Machine

theorem kept_warnEnter {q0 : Base} (s : State) (vin : Nat) (h_s : Kept q0 s) : Kept q0 (State.warnEnter s vin) := by
  unfold State.warnEnter
  repeat' (first | with_reducible assumption | with_reducible apply kept_bset | with_reducible apply kept_bump | with_reducible apply kept_log' | with_reducible apply kept_prbShow | with_reducible apply kept_replanStop | with_reducible apply kept_supplyUse | (with_reducible apply kept_same; simp only [↓kept_mk, ↓keptF_self]))

theorem kept_supply {q0 : Base} (s : State) (vin : Nat) (iin : Nat) (h_s : Kept q0 s) : Kept q0 (State.supply s vin iin) := by
  unfold State.supply
  repeat' (first | with_reducible assumption | with_reducible apply kept_ite | with_reducible apply kept_bset | with_reducible apply kept_fset | with_reducible apply kept_log' | with_reducible apply kept_set | with_reducible apply kept_warnEnter | split | (with_reducible apply kept_same; simp only [↓kept_mk, ↓keptF_self]))

theorem kept_execSupplySample {q0 : Base} (vin : Nat) (iin : Nat) (s : State) (h_s : Kept q0 s) : KeptX q0 (execSupplySample vin iin s) := by
  unfold execSupplySample
  repeat' (first | with_reducible assumption | with_reducible apply kept_ite | with_reducible apply keptX_next | with_reducible apply kept_supply)

theorem kept_holdup {q0 : Base} (s : State) (us : Nat) (h_s : Kept q0 s) : Kept q0 (State.holdup s us) := by
  unfold State.holdup
  repeat' (first | with_reducible assumption | with_reducible apply kept_ite | with_reducible apply kept_bset | with_reducible apply kept_log' | with_reducible apply kept_set)

theorem kept_execHoldupMeasure {q0 : Base} (us : Nat) (s : State) (h_s : Kept q0 s) : KeptX q0 (execHoldupMeasure us s) := by
  unfold execHoldupMeasure
  repeat' (first | with_reducible assumption | with_reducible apply kept_ite | with_reducible apply keptX_next | with_reducible apply kept_holdup)

theorem kept_coolLeak {q0 : Base} (s : State) (level : Bool) (h_s : Kept q0 s) : Kept q0 (State.coolLeak s level) := by
  unfold State.coolLeak
  repeat' (first | with_reducible assumption | with_reducible apply kept_ite | with_reducible apply kept_bset | with_reducible apply kept_log')

theorem kept_execCoolLeak {q0 : Base} (level : Bool) (s : State) (h_s : Kept q0 s) : KeptX q0 (execCoolLeak level s) := by
  unfold execCoolLeak
  repeat' (first | with_reducible assumption | with_reducible apply kept_ite | with_reducible apply keptX_next | with_reducible apply kept_coolLeak)

theorem kept_coolant {q0 : Base} (s : State) (inlet : Nat) (outlet : Nat) (h_s : Kept q0 s) : Kept q0 (State.coolant s inlet outlet) := by
  unfold State.coolant
  repeat' (first | with_reducible assumption | with_reducible apply kept_ite | with_reducible apply kept_fset | with_reducible apply kept_log' | (with_reducible apply kept_same; simp only [↓kept_mk, ↓keptF_self]))

theorem kept_execCoolantThermistorRead {q0 : Base} (inlet : Nat) (outlet : Nat) (s : State) (h_s : Kept q0 s) : KeptX q0 (execCoolantThermistorRead inlet outlet s) := by
  unfold execCoolantThermistorRead
  repeat' (first | with_reducible assumption | with_reducible apply kept_ite | with_reducible apply keptX_next | with_reducible apply kept_coolant)

theorem kept_capsUse {q0 : Base} (s : State) (hubW : Nat) (siteW : Nat) (h_s : Kept q0 s) : Kept q0 (State.capsUse s hubW siteW) := by
  unfold State.capsUse
  repeat' (first | with_reducible assumption | with_reducible intro _ | with_reducible apply kept_foldl | with_reducible apply kept_modSite | with_reducible apply kept_poolSet | with_reducible apply kept_sitesRegrant | with_reducible apply kept_tokenCheck)

theorem kept_capsSet {q0 : Base} (s : State) (hubW : Nat) (siteW : Nat) (h_s : Kept q0 s) : KeptA q0 (State.capsSet s hubW siteW) := by
  unfold State.capsSet
  repeat' (first | with_reducible assumption | with_reducible apply keptA_done | with_reducible apply keptA_ite | with_reducible apply kept_capsUse | with_reducible apply kept_refuse)

theorem kept_execPwrCapSet {q0 : Base} (q : Req) (watts : Nat) (s : State) (h_s : Kept q0 s) : KeptX q0 (execPwrCapSet q watts s) := by
  unfold execPwrCapSet
  repeat' (first | with_reducible assumption | with_reducible intro _ | with_reducible apply keptX_run | with_reducible apply keptA_ite | with_reducible apply kept_axotte | with_reducible apply kept_capsSet | with_reducible apply kept_refuse)

theorem kept_execPwrCapSetExpert {q0 : Base} (q : Req) (hubW : Nat) (siteW : Nat) (s : State) (h_s : Kept q0 s) : KeptX q0 (execPwrCapSetExpert q hubW siteW s) := by
  unfold execPwrCapSetExpert
  repeat' (first | with_reducible assumption | with_reducible intro _ | with_reducible apply keptX_run | with_reducible apply kept_axotte | with_reducible apply kept_capsSet)

theorem kept_execBenchPoolDivide {q0 : Base} (demand : List Nat) (s : State) (h_s : Kept q0 s) : KeptX q0 (execBenchPoolDivide demand s) := by
  unfold execBenchPoolDivide
  repeat' (first | with_reducible assumption | with_reducible apply keptX_next | with_reducible apply kept_divide | with_reducible apply kept_tokenCheck)

theorem kept_execBenchGovernor {q0 : Base} (bench : Nat) (staticTok : Nat) (dynTok : Nat) (s : State) (h_s : Kept q0 s) : KeptX q0 (execBenchGovernor bench staticTok dynTok s) := by
  unfold execBenchGovernor
  repeat' (first | with_reducible assumption | with_reducible apply keptX_run | with_reducible apply kept_governor | with_reducible apply kept_tokenCheck)

theorem kept_execPwrTokenAudit {q0 : Base} (q : Req) (s : State) (h_s : Kept q0 s) : KeptX q0 (execPwrTokenAudit q s) := by
  unfold execPwrTokenAudit
  repeat' (first | with_reducible assumption | with_reducible intro _ | with_reducible apply keptA_done | with_reducible apply keptX_run | with_reducible apply kept_axotte | with_reducible apply kept_tokenCheck)

theorem kept_execBenchIdle {q0 : Base} (bench : Nat) (us : Nat) (s : State) (h_s : Kept q0 s) : KeptX q0 (execBenchIdle bench us s) := by
  unfold execBenchIdle
  repeat' (first | with_reducible assumption | with_reducible apply keptX_run | with_reducible apply kept_ite | (with_reducible apply kept_same; simp only [↓kept_mk, ↓keptF_self]))

end Sys2Proof.Machine
end

