-- ==== Sys2Proof/Laws/KeepReset.lean ====
section
/-! SUPPORT. What the operations of Machine/Reset.lean keep. -/

namespace Sys2Proof.Machine

theorem kept_svcHalt {q0 : Base} (s : State) (h_s : Kept q0 s) : Kept q0 (State.svcHalt s) := by
  unfold State.svcHalt
  repeat' (first | with_reducible assumption | with_reducible intro _ | with_reducible apply kept_foldl | with_reducible apply kept_bset | (with_reducible apply kept_same; simp only [↓kept_mk, ↓keptF_self]))

theorem kept_memKeep {q0 : Base} (s : State) (p : Nat → Bool) (h_s : Kept q0 s) : Kept q0 (State.memKeep s p) := by
  unfold State.memKeep
  repeat' (first | with_reducible assumption | with_reducible apply keptF_filter | (with_reducible apply kept_same; simp only [↓kept_mk, ↓keptF_self]) | (with_reducible apply keptF_same; simp only [↓keptF_self]))

theorem kept_planeDrop {q0 : Base} (s : State) (h_s : Kept q0 s) : Kept q0 (State.planeDrop s) := by
  unfold State.planeDrop
  repeat' (first | with_reducible assumption | (with_reducible apply kept_same; simp only [↓kept_mk, ↓keptF_self]))

theorem kept_mbxKeep {q0 : Base} (s : State) (h_s : Kept q0 s) : Kept q0 (State.mbxKeep s) := by
  unfold State.mbxKeep
  repeat' (first | with_reducible assumption | with_reducible intro _ | with_reducible apply kept_foldl | with_reducible apply kept_fset | split)

theorem kept_handFail {q0 : Base} (s : State) (status : Nat) (h_s : Kept q0 s) : Kept q0 (State.handFail s status) := by
  unfold State.handFail
  repeat' (first | with_reducible assumption | with_reducible apply kept_axFinish | with_reducible apply kept_bset | split | (with_reducible apply kept_same; simp only [↓kept_mk, ↓keptF_self]))

theorem kept_keepRails {q0 : Base} (s : State) (h_s : Kept q0 s) : Kept q0 (State.keepRails s) := by
  unfold State.keepRails
  repeat' (first | with_reducible assumption | with_reducible intro _ | with_reducible apply kept_foldl | with_reducible apply kept_bset | with_reducible apply kept_fset | with_reducible apply kept_poolSet)

theorem kept_hubResetGo {q0 : Base} (s : State) (h_s : Kept q0 s) : Kept q0 (State.hubResetGo s) := by
  unfold State.hubResetGo
  repeat' (first | with_reducible assumption | with_reducible apply kept_bset | with_reducible apply kept_fset | with_reducible apply kept_keepRails | with_reducible apply kept_mbxKeep | with_reducible apply kept_memKeep | with_reducible apply kept_planeDrop | with_reducible apply kept_prbShow | with_reducible apply kept_resetRegs | split | (with_reducible apply kept_same; simp only [↓kept_mk, ↓keptF_self]))

theorem kept_execHubResetStart {q0 : Base} (s : State) (h_s : Kept q0 s) : KeptX q0 (execHubResetStart s) := by
  unfold execHubResetStart
  repeat' (first | with_reducible assumption | with_reducible apply kept_ite | with_reducible apply keptX_next | with_reducible apply kept_hubResetGo)

theorem kept_abortAll {q0 : Base} (s : State) (h_s : Kept q0 s) : Kept q0 (State.abortAll s) := by
  unfold State.abortAll
  repeat' (first | with_reducible assumption | with_reducible intro _ | with_reducible apply kept_foldl | with_reducible apply kept_ite | with_reducible apply kept_axFinish)

theorem kept_execHubResetComplete {q0 : Base} (s : State) (h_s : Kept q0 s) : KeptX q0 (execHubResetComplete s) := by
  unfold execHubResetComplete
  repeat' (first | with_reducible assumption | with_reducible apply kept_ite | with_reducible apply keptX_next | with_reducible apply kept_abortAll | with_reducible apply kept_bset | (with_reducible apply kept_same; simp only [↓kept_mk, ↓keptF_self]))

theorem kept_lockLoss {q0 : Base} (s : State) (h_s : Kept q0 s) : Kept q0 (State.lockLoss s) := by
  unfold State.lockLoss
  repeat' (first | with_reducible assumption | with_reducible apply kept_ite | with_reducible apply kept_bset | with_reducible apply kept_hubResetGo | with_reducible apply kept_log')

theorem kept_execRootPllLockLoss {q0 : Base} (s : State) (h_s : Kept q0 s) : KeptX q0 (execRootPllLockLoss s) := by
  unfold execRootPllLockLoss
  repeat' (first | with_reducible assumption | with_reducible apply keptX_next | with_reducible apply kept_lockLoss)

theorem kept_execRstHub {q0 : Base} (q : Req) (s : State) (h_s : Kept q0 s) : KeptX q0 (execRstHub q s) := by
  unfold execRstHub
  repeat' (first | with_reducible assumption | with_reducible intro _ | with_reducible apply keptA_done | with_reducible apply keptX_run | with_reducible apply keptA_ite | with_reducible apply kept_axotte | with_reducible apply kept_busy | with_reducible apply kept_refuse | (with_reducible apply kept_same; simp only [↓kept_mk, ↓keptF_self]))

theorem kept_fwActivate {q0 : Base} (s : State) (h_s : Kept q0 s) : Kept q0 (State.fwActivate s) := by
  unfold State.fwActivate
  repeat' (first | with_reducible assumption | with_reducible apply kept_ite | with_reducible apply kept_bset | with_reducible apply kept_fset | with_reducible apply kept_measDone | with_reducible apply kept_set | split | (with_reducible apply kept_same; simp only [↓kept_mk, ↓keptF_self]))

theorem kept_stewardBoot {q0 : Base} (s : State) (straps : BitVec 8) (h_s : Kept q0 s) : Kept q0 (State.stewardBoot s straps) := by
  unfold State.stewardBoot
  repeat' (first | with_reducible assumption | with_reducible apply kept_drew | with_reducible apply kept_fwActivate | with_reducible apply kept_set)

theorem kept_moduleResetGo {q0 : Base} (s : State) (h_s : Kept q0 s) : Kept q0 (State.moduleResetGo s) := by
  unfold State.moduleResetGo
  repeat' (first | with_reducible assumption | with_reducible intro _ | with_reducible apply kept_foldl | with_reducible apply kept_fset | with_reducible apply kept_hubResetGo | with_reducible apply kept_prbShow | with_reducible apply kept_resetRegs | with_reducible apply kept_set | (with_reducible apply kept_same; simp only [↓kept_mk, ↓keptF_self]))

theorem kept_moduleReset {q0 : Base} (s : State) (perst : Bool) (lowUs : Nat) (h_s : Kept q0 s) : Kept q0 (State.moduleReset s perst lowUs) := by
  unfold State.moduleReset
  repeat' (first | with_reducible assumption | with_reducible apply kept_ite | with_reducible apply kept_moduleResetGo | with_reducible apply kept_set | (with_reducible apply kept_same; simp only [↓kept_mk, ↓keptF_self]))

theorem kept_execModuleReset {q0 : Base} (perst : Bool) (lowUs : Nat) (s : State) (h_s : Kept q0 s) : KeptX q0 (execModuleReset perst lowUs s) := by
  unfold execModuleReset
  repeat' (first | with_reducible assumption | with_reducible apply keptX_next | with_reducible apply kept_moduleReset)

theorem kept_moduleRelease {q0 : Base} (s : State) (perst : Bool) (straps : BitVec 8) (h_s : Kept q0 s) : Kept q0 (State.moduleRelease s perst straps) := by
  unfold State.moduleRelease
  repeat' (first | with_reducible assumption | with_reducible apply kept_ite | with_reducible apply kept_stewardBoot | (with_reducible apply kept_same; simp only [↓kept_mk, ↓keptF_self]))

theorem kept_execModuleResetRelease {q0 : Base} (perst : Bool) (straps : BitVec 8) (s : State) (h_s : Kept q0 s) : KeptX q0 (execModuleResetRelease perst straps s) := by
  unfold execModuleResetRelease
  repeat' (first | with_reducible assumption | with_reducible apply keptX_next | with_reducible apply kept_moduleRelease)

theorem kept_powerOff {q0 : Base} (s : State) (h_s : Kept q0 s) : Kept q0 (State.powerOff s) := by
  unfold State.powerOff
  repeat' (first | with_reducible assumption | with_reducible intro _ | with_reducible apply kept_foldl | with_reducible apply kept_memKeep | with_reducible apply kept_moduleResetGo | with_reducible apply kept_resetRegs | with_reducible apply kept_set | (with_reducible apply kept_same; simp only [↓kept_mk, ↓keptF_self]))

theorem kept_powerDown {q0 : Base} (s : State) (code : Nat) (data : List Nat) (h_s : Kept q0 s) : Kept q0 (State.powerDown s code data) := by
  unfold State.powerDown
  repeat' (first | with_reducible assumption | with_reducible apply kept_ite | with_reducible apply kept_log' | with_reducible apply kept_powerOff)

theorem kept_execPowerDown {q0 : Base} (cause : PdCause) (s : State) (h_s : Kept q0 s) : KeptX q0 (execPowerDown cause s) := by
  unfold execPowerDown
  repeat' (first | with_reducible assumption | with_reducible apply keptX_next | with_reducible apply kept_powerDown)

theorem kept_execOvercurrentTrip {q0 : Base} (iin : Nat) (s : State) (h_s : Kept q0 s) : KeptX q0 (execOvercurrentTrip iin s) := by
  unfold execOvercurrentTrip
  repeat' (first | with_reducible assumption | with_reducible apply kept_ite | with_reducible apply keptX_next | with_reducible apply kept_powerDown)

theorem kept_execOvervoltageDisconnect {q0 : Base} (vin : Nat) (us : Nat) (s : State) (h_s : Kept q0 s) : KeptX q0 (execOvervoltageDisconnect vin us s) := by
  unfold execOvervoltageDisconnect
  repeat' (first | with_reducible assumption | with_reducible apply kept_ite | with_reducible apply keptX_next | with_reducible apply kept_powerDown)

theorem kept_powerOn {q0 : Base} (s : State) (vin : Nat) (mated : Bool) (perstN : Bool) (modRstN : Bool) (straps : BitVec 8) (h_s : Kept q0 s) : Kept q0 (State.powerOn s vin mated perstN modRstN straps) := by
  unfold State.powerOn
  repeat' (first | with_reducible assumption | with_reducible apply kept_ite | with_reducible apply kept_keepRails | with_reducible apply kept_set | with_reducible apply kept_stewardBoot | (with_reducible apply kept_same; simp only [↓kept_mk, ↓keptF_self]))

theorem kept_execPowerOn {q0 : Base} (vin : Nat) (mated : Bool) (perstN : Bool) (modRstN : Bool) (straps : BitVec 8) (s : State) (h_s : Kept q0 s) : KeptX q0 (execPowerOn vin mated perstN modRstN straps s) := by
  unfold execPowerOn
  repeat' (first | with_reducible assumption | with_reducible apply keptX_next | with_reducible apply kept_powerOn)

theorem kept_burnRefuse {q0 : Base} (s : State) (b : Burn) (h_s : Kept q0 s) : Kept q0 (State.burnRefuse s b) := by
  unfold State.burnRefuse
  repeat' (first | with_reducible assumption | with_reducible apply kept_axFinish | (with_reducible apply kept_same; simp only [↓kept_mk, ↓keptF_self]))

theorem kept_burnOn {q0 : Base} (s : State) (b : Burn) (h_s : Kept q0 s) : Kept q0 (State.burnOn s b) := by
  unfold State.burnOn
  repeat' (first | with_reducible assumption | with_reducible apply kept_ite | with_reducible apply kept_axFinish | with_reducible apply kept_bset | with_reducible apply kept_fset | with_reducible apply kept_measDone | with_reducible apply kept_moduleResetGo | with_reducible apply kept_set | (with_reducible apply kept_same; simp only [↓kept_mk, ↓keptF_self]))

theorem kept_burnTick {q0 : Base} (s : State) (h_s : Kept q0 s) : Kept q0 (State.burnTick s) := by
  unfold State.burnTick
  repeat' (first | with_reducible assumption | with_reducible apply kept_ite | with_reducible apply kept_burnOn | split)

theorem kept_execLcBurnSupplyTimeout {q0 : Base} (s : State) (h_s : Kept q0 s) : KeptX q0 (execLcBurnSupplyTimeout s) := by
  unfold execLcBurnSupplyTimeout
  repeat' (first | with_reducible assumption | with_reducible apply kept_ite | with_reducible apply keptX_next | with_reducible apply kept_burnRefuse | split)

theorem kept_burnAgain {q0 : Base} (s : State) (h_s : Kept q0 s) : Kept q0 (State.burnAgain s) := by
  unfold State.burnAgain
  repeat' (first | with_reducible assumption | with_reducible apply kept_ite | with_reducible apply kept_burnOn | with_reducible apply kept_burnRefuse | split)

theorem kept_warnExit {q0 : Base} (s : State) (durUs : Nat) (h_s : Kept q0 s) : Kept q0 (State.warnExit s durUs) := by
  unfold State.warnExit
  repeat' (first | with_reducible assumption | with_reducible apply kept_bset | with_reducible apply kept_burnAgain | with_reducible apply kept_log' | with_reducible apply kept_prbRetry | with_reducible apply kept_supplyUse)

theorem kept_execSupplyWarningExit {q0 : Base} (aboveUs : Nat) (durUs : Nat) (s : State) (h_s : Kept q0 s) : KeptX q0 (execSupplyWarningExit aboveUs durUs s) := by
  unfold execSupplyWarningExit
  repeat' (first | with_reducible assumption | with_reducible apply kept_ite | with_reducible apply keptX_next | with_reducible apply kept_warnExit)

end Sys2Proof.Machine
end

