-- ==== Sys2Proof/Laws/KeepRegion.lean ====
section
/-! SUPPORT. What the operations of Machine/Region.lean keep. -/

namespace Sys2Proof.Machine

theorem kept_tileDrop {q0 : Base} (s : State) (t : Nat) (h_s : Kept q0 s) : Kept q0 (State.tileDrop s t) := by
  unfold State.tileDrop
  repeat' (first | with_reducible assumption | with_reducible apply kept_setTile)

theorem kept_meshFull {q0 : Base} (s : State) (b : Nat) (h_s : Kept q0 s) : Kept q0 (State.meshFull s b) := by
  unfold State.meshFull
  repeat' (first | with_reducible assumption | (with_reducible apply kept_same; simp only [↓kept_mk, ↓keptF_self]))

theorem kept_benchDrop {q0 : Base} (s : State) (b : Nat) (h_s : Kept q0 s) : Kept q0 (State.benchDrop s b) := by
  unfold State.benchDrop
  repeat' (first | with_reducible assumption | with_reducible intro _ | with_reducible apply kept_foldl | with_reducible apply kept_killTilesOf | with_reducible apply kept_meshFull | with_reducible apply kept_resetRegs | with_reducible apply kept_snpInvDone | with_reducible apply kept_tileDrop | with_reducible apply kept_zero | (with_reducible apply kept_same; simp only [↓kept_mk, ↓keptF_self]))

theorem kept_benchAnswers {q0 : Base} (s : State) (b : Nat) (h_s : Kept q0 s) : Kept q0 (State.benchAnswers s b) := by
  unfold State.benchAnswers
  repeat' (first | with_reducible assumption | with_reducible intro _ | with_reducible apply kept_foldl | with_reducible apply kept_benchInv)

theorem kept_regionDrop {q0 : Base} (s : State) (d : Nat) (h_s : Kept q0 s) : Kept q0 (State.regionDrop s d) := by
  unfold State.regionDrop
  repeat' (first | with_reducible assumption | with_reducible intro _ | with_reducible apply kept_foldl | with_reducible apply kept_ite | with_reducible apply kept_benchAnswers | with_reducible apply kept_benchDrop | with_reducible apply kept_jobStart | with_reducible apply kept_killCtx | with_reducible apply kept_laneDetach | with_reducible apply kept_portReset | with_reducible apply kept_resetRegs | with_reducible apply kept_svcHalt | (with_reducible apply kept_same; simp only [↓kept_mk, ↓keptF_self]))

theorem kept_regionGo {q0 : Base} (s : State) (d : Nat) (mbx : Option Nat) (hold : Bool) (h_s : Kept q0 s) : Kept q0 (State.regionGo s d mbx hold) := by
  unfold State.regionGo
  repeat' (first | with_reducible assumption | with_reducible apply kept_bset | with_reducible apply kept_regionDrop | split | (with_reducible apply kept_same; simp only [↓kept_mk, ↓keptF_self]))

theorem kept_duePump {q0 : Base} (s : State) (h_s : Kept q0 s) : Kept q0 (State.duePump s) := by
  unfold State.duePump
  repeat' (first | with_reducible assumption | with_reducible intro _ | with_reducible apply kept_foldl | with_reducible apply kept_regionGo | (with_reducible apply kept_same; simp only [↓kept_mk, ↓keptF_self]))

theorem kept_regionOut {q0 : Base} (s : State) (d : Nat) (h_s : Kept q0 s) : Kept q0 (State.regionOut s d) := by
  unfold State.regionOut
  repeat' (first | with_reducible assumption | with_reducible apply kept_ite | with_reducible apply kept_bset | with_reducible apply kept_portStart | with_reducible apply kept_setDuty)

theorem kept_bistDrop {q0 : Base} (s : State) (b : Nat) (h_s : Kept q0 s) : Kept q0 (State.bistDrop s b) := by
  unfold State.bistDrop
  repeat' (first | with_reducible assumption | with_reducible intro _ | with_reducible apply kept_foldl | with_reducible apply kept_axFinish | (with_reducible apply kept_same; simp only [↓kept_mk, ↓keptF_self]))

theorem kept_regionDone {q0 : Base} (s : State) (d : Nat) (h_s : Kept q0 s) : Kept q0 (State.regionDone s d) := by
  unfold State.regionDone
  repeat' (first | with_reducible assumption | with_reducible intro _ | with_reducible apply kept_foldl | with_reducible apply kept_ite | with_reducible apply kept_axFinish | with_reducible apply kept_bistDrop | with_reducible apply kept_bset | with_reducible apply kept_fset | with_reducible apply kept_heldFlush | with_reducible apply kept_isoSet | with_reducible apply kept_regionOut | with_reducible apply kept_resetRegs | split | (with_reducible apply kept_same; simp only [↓kept_mk, ↓keptF_self]))

theorem kept_execRegionResetComplete {q0 : Base} (dom : Nat) (s : State) (h_s : Kept q0 s) : KeptX q0 (execRegionResetComplete dom s) := by
  unfold execRegionResetComplete
  repeat' (first | with_reducible assumption | with_reducible apply keptX_run | with_reducible apply kept_regionDone)

theorem kept_regionRelease {q0 : Base} (s : State) (d : Nat) (h_s : Kept q0 s) : Kept q0 (State.regionRelease s d) := by
  unfold State.regionRelease
  repeat' (first | with_reducible assumption | with_reducible intro _ | with_reducible apply kept_foldl | with_reducible apply kept_ite | with_reducible apply kept_heldFlush | with_reducible apply kept_isoClear | with_reducible apply kept_regionOut | (with_reducible apply kept_same; simp only [↓kept_mk, ↓keptF_self]))

theorem kept_rstRegion {q0 : Base} (s : State) (m : Nat) (d : Nat) (hold : Bool) (rel : Bool) (h_s : Kept q0 s) : KeptA q0 (State.rstRegion s m d hold rel) := by
  unfold State.rstRegion
  repeat' (first | with_reducible assumption | with_reducible apply keptA_done | with_reducible apply keptA_wait | with_reducible apply kept_ite | with_reducible apply keptA_ite | with_reducible apply kept_busy | with_reducible apply kept_invalid | with_reducible apply kept_refuse | with_reducible apply kept_regionGo | with_reducible apply kept_regionRelease | with_reducible apply kept_siteHold | with_reducible apply kept_siteResetCmd | split | (with_reducible apply kept_of_wait; with_reducible assumption) | (with_reducible apply kept_same; simp only [↓kept_mk, ↓keptF_self]))

theorem kept_execRstRegion {q0 : Base} (q : Req) (dom : Nat) (s : State) (h_s : Kept q0 s) : KeptX q0 (execRstRegion q dom s) := by
  unfold execRstRegion
  repeat' (first | with_reducible assumption | with_reducible intro _ | with_reducible apply keptX_run | with_reducible apply kept_axotte | with_reducible apply kept_rstRegion)

theorem kept_execRstRegionExpert {q0 : Base} (q : Req) (dom : Nat) (hold : Bool) (s : State) (h_s : Kept q0 s) : KeptX q0 (execRstRegionExpert q dom hold s) := by
  unfold execRstRegionExpert
  repeat' (first | with_reducible assumption | with_reducible intro _ | with_reducible apply keptX_run | with_reducible apply kept_axotte | with_reducible apply kept_rstRegion)

theorem kept_tilesDown {q0 : Base} (s : State) (bs : List Nat) (h_s : Kept q0 s) : Kept q0 (State.tilesDown s bs) := by
  unfold State.tilesDown
  repeat' (first | with_reducible assumption | with_reducible intro _ | with_reducible apply kept_foldl | with_reducible apply kept_fset | with_reducible apply kept_hold | with_reducible apply kept_resetRegs | with_reducible apply kept_tileDrop | with_reducible apply kept_zero | (with_reducible apply kept_same; simp only [↓kept_mk, ↓keptF_self]))

theorem kept_tilesUp {q0 : Base} (s : State) (h_s : Kept q0 s) : Kept q0 (State.tilesUp s) := by
  unfold State.tilesUp
  repeat' (first | with_reducible assumption | (with_reducible apply kept_same; simp only [↓kept_mk, ↓keptF_self]))

theorem kept_sleepDown {q0 : Base} (s : State) (h_s : Kept q0 s) : Kept q0 (State.sleepDown s) := by
  unfold State.sleepDown
  repeat' (first | with_reducible assumption | with_reducible intro _ | with_reducible apply kept_foldl | with_reducible apply kept_axFinish | with_reducible apply kept_bset | with_reducible apply kept_domOff | with_reducible apply kept_fset | with_reducible apply kept_memKeep | with_reducible apply kept_planeDrop | with_reducible apply kept_resetRegs | with_reducible apply kept_set | with_reducible apply kept_write | split | (with_reducible apply kept_same; simp only [↓kept_mk, ↓keptF_self]))

theorem kept_sleepGo {q0 : Base} (s : State) (c : PChange) (h_s : Kept q0 s) : Kept q0 (State.sleepGo s c) := by
  unfold State.sleepGo
  repeat' (first | with_reducible assumption | with_reducible intro _ | with_reducible apply kept_foldl | with_reducible apply kept_ite | with_reducible apply kept_emit | with_reducible apply kept_fset | with_reducible apply kept_jobStart | with_reducible apply kept_sleepDown | with_reducible apply kept_svcHalt | (with_reducible apply kept_same; simp only [↓kept_mk, ↓keptF_self]))

theorem kept_changeGo {q0 : Base} (s : State) (c : PChange) (h_s : Kept q0 s) : Kept q0 (State.changeGo s c) := by
  unfold State.changeGo
  repeat' (first | with_reducible assumption | with_reducible apply kept_axFinish | with_reducible apply kept_fset | with_reducible apply kept_sleepGo | with_reducible apply kept_tilesDown | with_reducible apply kept_tilesUp | split | (with_reducible apply kept_same; simp only [↓kept_mk, ↓keptF_self]))

theorem kept_changePoll {q0 : Base} (s : State) (h_s : Kept q0 s) : Kept q0 (State.changePoll s) := by
  unfold State.changePoll
  repeat' (first | with_reducible assumption | with_reducible apply kept_ite | with_reducible apply kept_changeGo | with_reducible apply kept_sleepDown | split)

theorem kept_pwrState {q0 : Base} (s : State) (m : Nat) (target : PState) (save : Nat) (wakeOff : Bool) (h_s : Kept q0 s) : KeptA q0 (State.pwrState s m target save wakeOff) := by
  unfold State.pwrState
  repeat' (first | with_reducible assumption | with_reducible apply keptA_wait | with_reducible apply keptA_ite | with_reducible apply kept_busy | with_reducible apply kept_changePoll | with_reducible apply kept_fset | with_reducible apply kept_invalid | with_reducible apply kept_refuse | (with_reducible apply kept_same; simp only [↓kept_mk, ↓keptF_self]))

theorem kept_execPwrStateSet {q0 : Base} (q : Req) (target : PState) (save : Nat) (s : State) (h_s : Kept q0 s) : KeptX q0 (execPwrStateSet q target save s) := by
  unfold execPwrStateSet
  repeat' (first | with_reducible assumption | with_reducible intro _ | with_reducible apply keptX_run | with_reducible apply kept_axotte | with_reducible apply kept_pwrState)

theorem kept_execPwrStateSetExpert {q0 : Base} (q : Req) (target : PState) (save : Nat) (quiesceMs : Nat) (wakeOff : Bool) (s : State) (h_s : Kept q0 s) : KeptX q0 (execPwrStateSetExpert q target save quiesceMs wakeOff s) := by
  unfold execPwrStateSetExpert
  repeat' (first | with_reducible assumption | with_reducible intro _ | with_reducible apply keptX_run | with_reducible apply keptA_ite | with_reducible apply kept_axotte | with_reducible apply kept_invalid | with_reducible apply kept_pwrState)

theorem kept_quiesceEnd {q0 : Base} (s : State) (h_s : Kept q0 s) : Kept q0 (State.quiesceEnd s) := by
  unfold State.quiesceEnd
  repeat' (first | with_reducible assumption | with_reducible apply kept_ite | with_reducible apply kept_axFinish | with_reducible apply kept_changeGo | split | (with_reducible apply kept_same; simp only [↓kept_mk, ↓keptF_self]))

theorem kept_execPwrStateQuiesceTimeout {q0 : Base} (s : State) (h_s : Kept q0 s) : KeptX q0 (execPwrStateQuiesceTimeout s) := by
  unfold execPwrStateQuiesceTimeout
  repeat' (first | with_reducible assumption | with_reducible apply keptX_next | with_reducible apply kept_quiesceEnd)

theorem kept_wakeRails {q0 : Base} (s : State) (h_s : Kept q0 s) : Kept q0 (State.wakeRails s) := by
  unfold State.wakeRails
  repeat' (first | with_reducible assumption | with_reducible intro _ | with_reducible apply kept_foldl | with_reducible apply kept_ite | with_reducible apply kept_bset | with_reducible apply kept_domOn | with_reducible apply kept_dutyAll | with_reducible apply kept_fset | with_reducible apply kept_portStart | with_reducible apply kept_set | with_reducible apply kept_siteStart | (with_reducible apply kept_same; simp only [↓kept_mk, ↓keptF_self]))

theorem kept_restore {q0 : Base} (s : State) (v : SleepSv) (h_s : Kept q0 s) : Kept q0 (State.restore s v) := by
  unfold State.restore
  repeat' (first | with_reducible assumption | with_reducible intro _ | with_reducible apply kept_foldl | with_reducible apply kept_ite | with_reducible apply keptF_tdel | with_reducible apply keptF_foldl_tput | with_reducible apply kept_bset | with_reducible apply kept_capsUse | with_reducible apply kept_log' | with_reducible apply kept_set | with_reducible apply kept_setMask | (with_reducible apply kept_same; simp only [↓kept_mk, ↓keptF_self]) | (with_reducible apply keptF_same; simp only [↓keptF_self]))

theorem kept_sleepExit {q0 : Base} (s : State) (byPin : Bool) (lowUs : Nat) (ok : BitVec 6) (h_s : Kept q0 s) : Kept q0 (State.sleepExit s byPin lowUs ok) := by
  unfold State.sleepExit
  repeat' (first | with_reducible assumption | with_reducible apply kept_ite | with_reducible apply kept_axFinish | with_reducible apply kept_fset | with_reducible apply kept_hubResetGo | with_reducible apply kept_restore | with_reducible apply kept_wakeRails | split | (with_reducible apply kept_same; simp only [↓kept_mk, ↓keptF_self]))

theorem kept_execSleepExit {q0 : Base} (byPin : Bool) (lowUs : Nat) (stacksOk : BitVec 6) (s : State) (h_s : Kept q0 s) : KeptX q0 (execSleepExit byPin lowUs stacksOk s) := by
  unfold execSleepExit
  repeat' (first | with_reducible assumption | with_reducible apply keptX_next | with_reducible apply kept_sleepExit)

end Sys2Proof.Machine
end

