-- ==== Sys2Proof/Laws/KeepBoot.lean ====
section
/-! SUPPORT. What the operations of Machine/Boot.lean keep. -/

namespace Sys2Proof.Machine

theorem kept_stepRelease {q0 : Base} (s : State) (n : Nat) (h_s : Kept q0 s) : Kept q0 (State.stepRelease s n) := by
  unfold State.stepRelease
  repeat' (first | with_reducible assumption | with_reducible intro _ | with_reducible apply kept_foldl | with_reducible apply kept_ite | with_reducible apply kept_bset | with_reducible apply kept_fset | with_reducible apply kept_portStart | with_reducible apply kept_siteStart)

theorem kept_stepGoWr {q0 : Base} (s : State) (v : W32) (h_s : Kept q0 s) : Kept q0 (State.stepGoWr s v) := by
  unfold State.stepGoWr
  repeat' (first | with_reducible assumption | with_reducible intro _ | with_reducible apply kept_foldl | with_reducible apply kept_ite | with_reducible apply kept_bset | with_reducible apply kept_stepRelease | split)

theorem kept_execStepGoWrite {q0 : Base} (v : W32) (s : State) (h_s : Kept q0 s) : KeptX q0 (execStepGoWrite v s) := by
  unfold execStepGoWrite
  repeat' (first | with_reducible assumption | with_reducible apply kept_ite | with_reducible apply keptX_next | with_reducible apply kept_stepGoWr)

theorem kept_stepAnswer {q0 : Base} (s : State) (h_s : Kept q0 s) : Kept q0 (State.stepAnswer s) := by
  unfold State.stepAnswer
  repeat' (first | with_reducible assumption | with_reducible intro _ | with_reducible apply kept_foldl | with_reducible apply kept_axFinish | (with_reducible apply kept_same; simp only [↓kept_mk, ↓keptF_self]))

theorem kept_stepGoCmd {q0 : Base} (s : State) (m : Nat) (mask : Nat) (h_s : Kept q0 s) : KeptA q0 (State.stepGoCmd s m mask) := by
  unfold State.stepGoCmd
  repeat' (first | with_reducible assumption | with_reducible intro _ | with_reducible apply kept_foldl | with_reducible apply keptA_done | with_reducible apply keptA_wait | with_reducible apply keptA_ite | with_reducible apply kept_refuse | with_reducible apply kept_stepRelease | split | (with_reducible apply kept_same; simp only [↓kept_mk, ↓keptF_self]) | dsimp only)

theorem kept_execBupStepGo {q0 : Base} (q : Req) (s : State) (h_s : Kept q0 s) : KeptX q0 (execBupStepGo q s) := by
  unfold execBupStepGo
  repeat' (first | with_reducible assumption | with_reducible intro _ | with_reducible apply keptX_run | with_reducible apply kept_axotte | with_reducible apply kept_stepGoCmd)

theorem kept_execBupStepGoExpert {q0 : Base} (q : Req) (mask : Nat) (s : State) (h_s : Kept q0 s) : KeptX q0 (execBupStepGoExpert q mask s) := by
  unfold execBupStepGoExpert
  repeat' (first | with_reducible assumption | with_reducible intro _ | with_reducible apply keptX_run | with_reducible apply keptA_ite | with_reducible apply kept_axotte | with_reducible apply kept_invalid | with_reducible apply kept_stepGoCmd)

theorem kept_stepDone {q0 : Base} (s : State) (n : Nat) (us : Nat) (h_s : Kept q0 s) : Kept q0 (State.stepDone s n us) := by
  unfold State.stepDone
  repeat' (first | with_reducible assumption | with_reducible apply kept_bset | with_reducible apply kept_msix | with_reducible apply kept_set | with_reducible apply kept_stepAnswer)

theorem kept_stepFail {q0 : Base} (s : State) (n : Nat) (h_s : Kept q0 s) : Kept q0 (State.stepFail s n) := by
  unfold State.stepFail
  repeat' (first | with_reducible assumption | with_reducible apply kept_bset | with_reducible apply kept_fset | with_reducible apply kept_log' | with_reducible apply kept_msix | with_reducible apply kept_stepAnswer)

theorem kept_prbErase {q0 : Base} (s : State) (first : Nat) (n : Nat) (h_s : Kept q0 s) : Kept q0 (State.prbErase s first n) := by
  unfold State.prbErase
  repeat' (first | with_reducible assumption | with_reducible intro _ | with_reducible apply kept_foldl | with_reducible apply kept_set)

theorem kept_scrapWipe {q0 : Base} (s : State) (h_s : Kept q0 s) : Kept q0 (State.scrapWipe s) := by
  unfold State.scrapWipe
  repeat' (first | with_reducible assumption | with_reducible apply kept_prbErase | with_reducible apply kept_resetRegs | (with_reducible apply kept_same; simp only [↓kept_mk, ↓keptF_self]))

theorem kept_lcLoad {q0 : Base} (s : State) (h_s : Kept q0 s) : Kept q0 (State.lcLoad s) := by
  unfold State.lcLoad
  repeat' (first | with_reducible assumption | with_reducible apply kept_ite | with_reducible apply kept_bset | with_reducible apply kept_fset | with_reducible apply kept_prbErase | with_reducible apply kept_scrapWipe | with_reducible apply kept_set | (with_reducible apply kept_same; simp only [↓kept_mk, ↓keptF_self]))

theorem kept_fuseLoad {q0 : Base} (s : State) (h_s : Kept q0 s) : Kept q0 (State.fuseLoad s) := by
  unfold State.fuseLoad
  repeat' (first | with_reducible assumption | with_reducible intro _ | with_reducible apply kept_foldl | with_reducible apply kept_ite | with_reducible apply kept_bset | with_reducible apply kept_fset | with_reducible apply kept_lcLoad | with_reducible apply kept_planLoad | with_reducible apply kept_prbMirror)

theorem kept_powerLoad {q0 : Base} (s : State) (h_s : Kept q0 s) : Kept q0 (State.powerLoad s) := by
  unfold State.powerLoad
  repeat' (first | with_reducible assumption | with_reducible intro _ | with_reducible apply kept_foldl | with_reducible apply kept_ite | with_reducible apply kept_domOn | with_reducible apply kept_dutyAll | with_reducible apply kept_fset | with_reducible apply kept_poolSet)

theorem kept_stackLoad {q0 : Base} (s : State) (r : StackRes) (h_s : Kept q0 s) : Kept q0 (State.stackLoad s r) := by
  unfold State.stackLoad
  repeat' (first | with_reducible assumption | with_reducible apply kept_ite | with_reducible apply kept_bset | with_reducible apply kept_log' | with_reducible apply kept_set | (with_reducible apply kept_same; simp only [↓kept_mk, ↓keptF_self]))

theorem kept_memLoad {q0 : Base} (s : State) (rs : List StackRes) (h_s : Kept q0 s) : Kept q0 (State.memLoad s rs) := by
  unfold State.memLoad
  repeat' (first | with_reducible assumption | with_reducible intro _ | with_reducible apply kept_foldl | with_reducible apply kept_set | with_reducible apply kept_stackLoad)

theorem kept_bistLoad {q0 : Base} (s : State) (r : StepRes) (h_s : Kept q0 s) : Kept q0 (State.bistLoad s r) := by
  unfold State.bistLoad
  repeat' (first | with_reducible assumption | with_reducible intro _ | with_reducible apply kept_foldl | with_reducible apply kept_log' | (with_reducible apply kept_same; simp only [↓kept_mk, ↓keptF_self]))

theorem kept_colsLoad {q0 : Base} (s : State) (h_s : Kept q0 s) : Kept q0 (State.colsLoad s) := by
  unfold State.colsLoad
  repeat' (first | with_reducible assumption | with_reducible intro _ | with_reducible apply kept_foldl | with_reducible apply kept_ite | with_reducible apply kept_set)

theorem kept_mapLoad {q0 : Base} (s : State) (h_s : Kept q0 s) : Kept q0 (State.mapLoad s) := by
  unfold State.mapLoad
  repeat' (first | with_reducible assumption | with_reducible intro _ | with_reducible apply kept_foldl | with_reducible apply kept_set | (with_reducible apply kept_same; simp only [↓kept_mk, ↓keptF_self]))

theorem kept_mapStep {q0 : Base} (s : State) (h_s : Kept q0 s) : Kept q0 (State.mapStep s) := by
  unfold State.mapStep
  repeat' (first | with_reducible assumption | with_reducible apply kept_ite | with_reducible apply kept_colsLoad | with_reducible apply kept_fset | with_reducible apply kept_log' | with_reducible apply kept_mapLoad | with_reducible apply kept_msix | with_reducible apply kept_set)

theorem kept_readyStep {q0 : Base} (s : State) (us : Nat) (h_s : Kept q0 s) : Kept q0 (State.readyStep s us) := by
  unfold State.readyStep
  repeat' (first | with_reducible assumption | with_reducible apply kept_fset | with_reducible apply kept_measDone | with_reducible apply kept_resetRegs | with_reducible apply kept_stepDone)

theorem kept_stepComplete {q0 : Base} (s : State) (n : Nat) (r : StepRes) (h_s : Kept q0 s) : Kept q0 (State.stepComplete s n r) := by
  unfold State.stepComplete
  repeat' (first | with_reducible assumption | with_reducible apply kept_ite | with_reducible apply kept_bistLoad | with_reducible apply kept_bset | with_reducible apply kept_fuseLoad | with_reducible apply kept_mapStep | with_reducible apply kept_memLoad | with_reducible apply kept_powerLoad | with_reducible apply kept_readyStep | with_reducible apply kept_set | with_reducible apply kept_stepDone | with_reducible apply kept_stepFail | split | (with_reducible apply kept_same; simp only [↓kept_mk, ↓keptF_self]))

theorem kept_execBootStepComplete {q0 : Base} (n : Nat) (r : StepRes) (s : State) (h_s : Kept q0 s) : KeptX q0 (execBootStepComplete n r s) := by
  unfold execBootStepComplete
  repeat' (first | with_reducible assumption | with_reducible apply keptX_run | with_reducible apply kept_stepComplete)

theorem kept_sitesLate {q0 : Base} (s : State) (h_s : Kept q0 s) : Kept q0 (State.sitesLate s) := by
  unfold State.sitesLate
  repeat' (first | with_reducible assumption | with_reducible intro _ | with_reducible apply kept_foldl | with_reducible apply kept_ite | with_reducible apply kept_siteHold)

theorem kept_portsLate {q0 : Base} (s : State) (h_s : Kept q0 s) : Kept q0 (State.portsLate s) := by
  unfold State.portsLate
  repeat' (first | with_reducible assumption | with_reducible intro _ | with_reducible apply kept_foldl | with_reducible apply kept_ite | with_reducible apply kept_setPst)

theorem kept_stepLate {q0 : Base} (s : State) (n : Nat) (h_s : Kept q0 s) : Kept q0 (State.stepLate s n) := by
  unfold State.stepLate
  repeat' (first | with_reducible assumption | with_reducible apply kept_ite | with_reducible apply kept_portsLate | with_reducible apply kept_sitesLate | with_reducible apply kept_stepFail)

theorem kept_execBootStepTimeout {q0 : Base} (n : Nat) (s : State) (h_s : Kept q0 s) : KeptX q0 (execBootStepTimeout n s) := by
  unfold execBootStepTimeout
  repeat' (first | with_reducible assumption | with_reducible apply keptX_run | with_reducible apply kept_stepLate)

theorem kept_execBupStatus {q0 : Base} (q : Req) (s : State) (h_s : Kept q0 s) : KeptX q0 (execBupStatus q s) := by
  unfold execBupStatus
  repeat' (first | with_reducible assumption | with_reducible intro _ | with_reducible apply keptA_done | with_reducible apply keptX_run | with_reducible apply kept_axotte)

theorem kept_execBupDegradedAck {q0 : Base} (q : Req) (word : W32) (s : State) (h_s : Kept q0 s) : KeptX q0 (execBupDegradedAck q word s) := by
  unfold execBupDegradedAck
  repeat' (first | with_reducible assumption | with_reducible intro _ | with_reducible apply keptA_done | with_reducible apply keptX_run | with_reducible apply keptA_ite | with_reducible apply kept_axotte | with_reducible apply kept_bset | with_reducible apply kept_refuse)

theorem kept_execBupIdRead {q0 : Base} (q : Req) (s : State) (h_s : Kept q0 s) : KeptX q0 (execBupIdRead q s) := by
  unfold execBupIdRead
  repeat' (first | with_reducible assumption | with_reducible intro _ | with_reducible apply keptA_done | with_reducible apply keptX_run | with_reducible apply keptA_ite | with_reducible apply kept_axotte | with_reducible apply kept_refuse)

end Sys2Proof.Machine
end

