-- ==== Sys2Proof/Laws/KeepBist.lean ====
section
/-! SUPPORT. What the operations of Machine/Bist.lean keep. -/

namespace Sys2Proof.Machine

theorem kept_bistRun {q0 : Base} (s : State) (m : Nat) (kind : Nat) (unit : Nat) (stop : Bool) (h_s : Kept q0 s) : KeptA q0 (State.bistRun s m kind unit stop) := by
  unfold State.bistRun
  repeat' (first | with_reducible assumption | with_reducible apply keptA_wait | with_reducible apply keptA_again | with_reducible apply keptA_ite | with_reducible apply kept_busy | with_reducible apply kept_drew | with_reducible apply kept_refuse | (with_reducible apply kept_same; simp only [↓kept_mk, ↓keptF_self]))

theorem kept_execDiagBistRun {q0 : Base} (q : Req) (kind : Nat) (unit : Nat) (s : State) (h_s : Kept q0 s) : KeptX q0 (execDiagBistRun q kind unit s) := by
  unfold execDiagBistRun
  repeat' (first | with_reducible assumption | with_reducible intro _ | with_reducible apply keptX_run | with_reducible apply keptA_ite | with_reducible apply kept_axotte | with_reducible apply kept_bistRun | with_reducible apply kept_invalid)

theorem kept_execDiagBistRunExpert {q0 : Base} (q : Req) (kind : Nat) (unit : Nat) (bg : Nat) (elems : List (BitVec 16)) (lo : Nat) (hi : Nat) (patterns : Nat) (seed : W32) (stop : Bool) (s : State) (h_s : Kept q0 s) : KeptX q0 (execDiagBistRunExpert q kind unit bg elems lo hi patterns seed stop s) := by
  unfold execDiagBistRunExpert
  repeat' (first | with_reducible assumption | with_reducible intro _ | with_reducible apply keptX_run | with_reducible apply keptA_ite | with_reducible apply kept_axotte | with_reducible apply kept_bistRun | with_reducible apply kept_invalid)

theorem kept_bistFail {q0 : Base} (s : State) (t : Nat) (h_s : Kept q0 s) : Kept q0 (State.bistFail s t) := by
  unfold State.bistFail
  repeat' (first | with_reducible assumption | with_reducible apply kept_bset | with_reducible apply kept_bump | with_reducible apply kept_detect | with_reducible apply kept_isoSet | with_reducible apply kept_killTilesOf)

theorem kept_bistKeep {q0 : Base} (s : State) (n : Nat) (rs : List (BitVec 256)) (h_s : Kept q0 s) : Kept q0 (State.bistKeep s n rs) := by
  unfold State.bistKeep
  repeat' (first | with_reducible assumption | (with_reducible apply kept_same; simp only [↓kept_mk, ↓keptF_self]))

theorem kept_execDiagBistResult {q0 : Base} (q : Req) (run' : Nat) (s : State) (h_s : Kept q0 s) : KeptX q0 (execDiagBistResult q run' s) := by
  unfold execDiagBistResult
  repeat' (first | with_reducible assumption | with_reducible intro _ | with_reducible apply keptA_done | with_reducible apply keptX_run | with_reducible apply kept_axotte | with_reducible apply kept_invalid | split)

theorem kept_benchesGo {q0 : Base} (s : State) (want : List Nat) (h_s : Kept q0 s) : Kept q0 (State.benchesGo s want) := by
  unfold State.benchesGo
  repeat' (first | with_reducible assumption | with_reducible intro _ | with_reducible apply kept_foldl | with_reducible apply kept_bset | (with_reducible apply kept_same; simp only [↓kept_mk, ↓keptF_self]))

theorem kept_benchesNext {q0 : Base} (s : State) (h_s : Kept q0 s) : Kept q0 (State.benchesNext s) := by
  unfold State.benchesNext
  repeat' (first | with_reducible assumption | with_reducible apply kept_ite | with_reducible apply kept_benchesGo)

theorem kept_bistEnd {q0 : Base} (s : State) (n : Nat) (fails : List (BitVec 256)) (h_s : Kept q0 s) : Kept q0 (State.bistEnd s n fails) := by
  unfold State.bistEnd
  repeat' (first | with_reducible assumption | with_reducible intro _ | with_reducible apply kept_foldl | with_reducible apply kept_axFinish | with_reducible apply kept_benchesNext | with_reducible apply kept_bistFail | with_reducible apply kept_bistKeep | with_reducible apply kept_log' | with_reducible apply kept_zero | split | (with_reducible apply kept_same; simp only [↓kept_mk, ↓keptF_self]))

theorem kept_execDiagBistComplete {q0 : Base} (run' : Nat) (fails : List (BitVec 256)) (s : State) (h_s : Kept q0 s) : KeptX q0 (execDiagBistComplete run' fails s) := by
  unfold execDiagBistComplete
  repeat' (first | with_reducible assumption | with_reducible apply keptX_next | with_reducible apply kept_bistEnd)

theorem kept_roundGo {q0 : Base} (s : State) (r : Nat) (h_s : Kept q0 s) : Kept q0 (State.roundGo s r) := by
  unfold State.roundGo
  repeat' (first | with_reducible assumption | with_reducible apply kept_ite | with_reducible apply kept_benchesGo | with_reducible apply kept_fset | (with_reducible apply kept_same; simp only [↓kept_mk, ↓keptF_self]))

theorem kept_roundEnd {q0 : Base} (s : State) (fails : List Nat) (h_s : Kept q0 s) : Kept q0 (State.roundEnd s fails) := by
  unfold State.roundEnd
  repeat' (first | with_reducible assumption | with_reducible intro _ | with_reducible apply kept_foldl | with_reducible apply kept_benchesNext | with_reducible apply kept_bistFail | with_reducible apply kept_bset | with_reducible apply kept_fset | with_reducible apply kept_zero | (with_reducible apply kept_same; simp only [↓kept_mk, ↓keptF_self]))

theorem kept_onlineRound {q0 : Base} (s : State) (r : Nat) (fails : List Nat) (h_s : Kept q0 s) : Kept q0 (State.onlineRound s r fails) := by
  unfold State.onlineRound
  repeat' (first | with_reducible assumption | with_reducible intro _ | with_reducible apply kept_foldl | with_reducible apply kept_ite | with_reducible apply kept_fset | with_reducible apply kept_roundEnd | with_reducible apply kept_roundGo)

theorem kept_execOnlineBistRound {q0 : Base} (round : Nat) (fails : List Nat) (s : State) (h_s : Kept q0 s) : KeptX q0 (execOnlineBistRound round fails s) := by
  unfold execOnlineBistRound
  repeat' (first | with_reducible assumption | with_reducible apply keptX_run | with_reducible apply kept_onlineRound)

theorem kept_execBistRoundRestart {q0 : Base} (s : State) (h_s : Kept q0 s) : KeptX q0 (execBistRoundRestart s) := by
  unfold execBistRoundRestart
  repeat' (first | with_reducible assumption | with_reducible apply kept_ite | with_reducible apply keptX_next | with_reducible apply kept_roundGo)

theorem kept_retest {q0 : Base} (s : State) (t : Nat) (pass : Bool) (h_s : Kept q0 s) : Kept q0 (State.retest s t pass) := by
  unfold State.retest
  repeat' (first | with_reducible assumption | with_reducible apply kept_ite | with_reducible apply kept_bistFail | with_reducible apply kept_isoClear)

theorem kept_execDatapathRetest {q0 : Base} (t : Nat) (pass : Bool) (s : State) (h_s : Kept q0 s) : KeptX q0 (execDatapathRetest t pass s) := by
  unfold execDatapathRetest
  repeat' (first | with_reducible assumption | with_reducible apply keptX_run | with_reducible apply kept_retest)

theorem kept_syncCheck {q0 : Base} (s : State) (h : Nat) (h_s : Kept q0 s) : Kept q0 (State.syncCheck s h) := by
  unfold State.syncCheck
  repeat' (first | with_reducible assumption | with_reducible apply kept_ite | with_reducible apply kept_breach | with_reducible apply kept_countMet)

theorem kept_execFabSyncAudit {q0 : Base} (q : Req) (half : Nat) (s : State) (h_s : Kept q0 s) : KeptX q0 (execFabSyncAudit q half s) := by
  unfold execFabSyncAudit
  repeat' (first | with_reducible assumption | with_reducible intro _ | with_reducible apply keptA_done | with_reducible apply keptX_run | with_reducible apply keptA_ite | with_reducible apply kept_axotte | with_reducible apply kept_invalid | with_reducible apply kept_syncCheck)

theorem kept_creditCheck {q0 : Base} (s : State) (h : Nat) (d : Dressing) (x : DStream) (h_s : Kept q0 s) : Kept q0 (State.creditCheck s h d x) := by
  unfold State.creditCheck
  repeat' (first | with_reducible assumption | with_reducible apply kept_ite | with_reducible apply kept_breach | with_reducible apply kept_countMet | with_reducible apply kept_killCtx)

theorem kept_execFabCreditAudit {q0 : Base} (q : Req) (h : Nat) (s : State) (h_s : Kept q0 s) : KeptX q0 (execFabCreditAudit q h s) := by
  unfold execFabCreditAudit
  repeat' (first | with_reducible assumption | with_reducible intro _ | with_reducible apply kept_foldl | with_reducible apply keptA_done | with_reducible apply keptX_run | with_reducible apply kept_axotte | with_reducible apply kept_creditCheck | with_reducible apply kept_onHandle)

theorem kept_meshAct {q0 : Base} (s : State) (b : Nat) (l : Nat) (h_s : Kept q0 s) : Kept q0 (State.meshAct s b l) := by
  unfold State.meshAct
  repeat' (first | with_reducible assumption | with_reducible apply kept_ite | with_reducible apply kept_regionGo)

theorem kept_meshCheck {q0 : Base} (s : State) (b : Nat) (l : Nat) (pool : Nat) (found : Nat) (h_s : Kept q0 s) : Kept q0 (State.meshCheck s b l pool found) := by
  unfold State.meshCheck
  repeat' (first | with_reducible assumption | with_reducible apply kept_ite | with_reducible apply kept_breach | with_reducible apply kept_countMet | with_reducible apply kept_meshAct | (with_reducible apply kept_same; simp only [↓kept_mk, ↓keptF_self]))

theorem kept_execMeshCreditIdleCheck {q0 : Base} (bench : Nat) (link : Nat) (pool : Nat) (found : Nat) (s : State) (h_s : Kept q0 s) : KeptX q0 (execMeshCreditIdleCheck bench link pool found s) := by
  unfold execMeshCreditIdleCheck
  repeat' (first | with_reducible assumption | with_reducible apply keptX_run | with_reducible apply kept_meshCheck)

theorem kept_linkCheck {q0 : Base} (s : State) (tukosen : Bool) (unit : Nat) (pool : Nat) (found : Nat) (h_s : Kept q0 s) : Kept q0 (State.linkCheck s tukosen unit pool found) := by
  unfold State.linkCheck
  repeat' (first | with_reducible assumption | with_reducible apply kept_ite | with_reducible apply kept_breach | with_reducible apply kept_countMet | with_reducible apply kept_portReset | with_reducible apply kept_ucieBreach | with_reducible apply kept_ucieReset)

theorem kept_execUcieCreditIdleCheck {q0 : Base} (tukosen : Bool) (unit : Nat) (pool : Nat) (found : Nat) (s : State) (h_s : Kept q0 s) : KeptX q0 (execUcieCreditIdleCheck tukosen unit pool found s) := by
  unfold execUcieCreditIdleCheck
  repeat' (first | with_reducible assumption | with_reducible apply keptX_run | with_reducible apply kept_linkCheck)

theorem kept_execDiagLinkAudit {q0 : Base} (q : Req) (kind : Nat) (idx : Nat) (s : State) (h_s : Kept q0 s) : KeptX q0 (execDiagLinkAudit q kind idx s) := by
  unfold execDiagLinkAudit
  repeat' (first | with_reducible assumption | with_reducible intro _ | with_reducible apply keptA_done | with_reducible apply keptX_run | with_reducible apply keptA_ite | with_reducible apply kept_axotte | with_reducible apply kept_invalid)

end Sys2Proof.Machine
end

