-- ==== Sys2Proof/Laws/KeepSaf.lean ====
section
/-! SUPPORT. What the operations of Machine/Saf.lean keep. -/

namespace Sys2Proof.Machine

theorem kept_coolGo {q0 : Base} (s : State) (b : Nat) (mech : Nat) (sensor : Nat) (injected : Bool) (h_s : Kept q0 s) : Kept q0 (State.coolGo s b mech sensor injected) := by
  unfold State.coolGo
  repeat' (first | with_reducible assumption | with_reducible intro _ | with_reducible apply kept_foldl | with_reducible apply kept_ite | with_reducible apply kept_detect | with_reducible apply kept_isoSet | with_reducible apply kept_killTilesOf | with_reducible apply kept_setDuty | with_reducible apply kept_tilesDown | split | (with_reducible apply kept_same; simp only [↓kept_mk, ↓keptF_self]))

theorem kept_armAt {q0 : Base} (s : State) (d : Nat) (mech : Nat) (sensor : Nat) (h_s : Kept q0 s) : Kept q0 (State.armAt s d mech sensor) := by
  unfold State.armAt
  repeat' (first | with_reducible assumption | with_reducible apply kept_ite | (with_reducible apply kept_same; simp only [↓kept_mk, ↓keptF_self]))

theorem kept_benchCool {q0 : Base} (s : State) (b : Nat) (mech : Nat) (sensor : Nat) (injected : Bool) (h_s : Kept q0 s) : Kept q0 (State.benchCool s b mech sensor injected) := by
  unfold State.benchCool
  repeat' (first | with_reducible assumption | with_reducible apply kept_ite | with_reducible apply kept_armAt | with_reducible apply kept_coolGo | with_reducible apply kept_setDuty | (with_reducible apply kept_same; simp only [↓kept_mk, ↓keptF_self]))

theorem kept_coolExit {q0 : Base} (s : State) (b : Nat) (h_s : Kept q0 s) : Kept q0 (State.coolExit s b) := by
  unfold State.coolExit
  repeat' (first | with_reducible assumption | with_reducible intro _ | with_reducible apply kept_foldl | with_reducible apply kept_isoClear | with_reducible apply kept_setDuty | split | (with_reducible apply kept_same; simp only [↓kept_mk, ↓keptF_self]))

theorem kept_execBenchCoolExit {q0 : Base} (bench : Nat) (belowMs : Nat) (s : State) (h_s : Kept q0 s) : KeptX q0 (execBenchCoolExit bench belowMs s) := by
  unfold execBenchCoolExit
  repeat' (first | with_reducible assumption | with_reducible apply keptX_run | with_reducible apply kept_ite | with_reducible apply kept_coolExit)

theorem kept_sensor {q0 : Base} (s : State) (b : Nat) (i : Nat) (t : Int) (h_s : Kept q0 s) : Kept q0 (State.sensor s b i t) := by
  unfold State.sensor
  repeat' (first | with_reducible assumption | with_reducible apply kept_ite | with_reducible apply kept_benchCool | with_reducible apply kept_fset | split | (with_reducible apply kept_same; simp only [↓kept_mk, ↓keptF_self]))

theorem kept_execBenchSensorRead {q0 : Base} (bench : Nat) (t0 : Int) (t1 : Int) (s : State) (h_s : Kept q0 s) : KeptX q0 (execBenchSensorRead bench t0 t1 s) := by
  unfold execBenchSensorRead
  repeat' (first | with_reducible assumption | with_reducible apply keptX_run | with_reducible apply kept_ite | with_reducible apply kept_sensor)

theorem kept_execSensorRefreshTimeout {q0 : Base} (bench : Nat) (sensor : Nat) (s : State) (h_s : Kept q0 s) : KeptX q0 (execSensorRefreshTimeout bench sensor s) := by
  unfold execSensorRefreshTimeout
  repeat' (first | with_reducible assumption | with_reducible apply keptX_run | with_reducible apply kept_ite | with_reducible apply kept_benchCool)

theorem kept_deviceCool {q0 : Base} (s : State) (h_s : Kept q0 s) : Kept q0 (State.deviceCool s) := by
  unfold State.deviceCool
  repeat' (first | with_reducible assumption | with_reducible intro _ | with_reducible apply kept_foldl | with_reducible apply kept_ite | with_reducible apply kept_axFinish | with_reducible apply kept_bset | with_reducible apply kept_domOff | with_reducible apply kept_fset | with_reducible apply kept_killCtx | with_reducible apply kept_modSite | with_reducible apply kept_portReset | with_reducible apply kept_siteFence | with_reducible apply kept_svcHalt | with_reducible apply kept_tilesDown | split | (with_reducible apply kept_same; simp only [↓kept_mk, ↓keptF_self]))

theorem kept_flow {q0 : Base} (s : State) (level : Bool) (h_s : Kept q0 s) : Kept q0 (State.flow s level) := by
  unfold State.flow
  repeat' (first | with_reducible assumption | with_reducible apply kept_ite | with_reducible apply kept_armAt | with_reducible apply kept_bset | with_reducible apply kept_detect | with_reducible apply kept_deviceCool | split | (with_reducible apply kept_same; simp only [↓kept_mk, ↓keptF_self]))

theorem kept_execFlowOkSample {q0 : Base} (level : Bool) (s : State) (h_s : Kept q0 s) : KeptX q0 (execFlowOkSample level s) := by
  unfold execFlowOkSample
  repeat' (first | with_reducible assumption | with_reducible apply keptX_next | with_reducible apply kept_flow)

theorem kept_forgetCmds {q0 : Base} (s : State) (p : Nat → Bool) (h_s : Kept q0 s) : Kept q0 (State.forgetCmds s p) := by
  unfold State.forgetCmds
  repeat' (first | with_reducible assumption | split | (with_reducible apply kept_same; simp only [↓kept_mk, ↓keptF_self]))

theorem kept_lockstep {q0 : Base} (s : State) (sinceUs : Nat) (injected : Bool) (h_s : Kept q0 s) : Kept q0 (State.lockstep s sinceUs injected) := by
  unfold State.lockstep
  repeat' (first | with_reducible assumption | with_reducible intro _ | with_reducible apply kept_foldl | with_reducible apply kept_bset | with_reducible apply kept_dutyAll | with_reducible apply kept_stepFail | (with_reducible apply kept_same; simp only [↓kept_mk, ↓keptF_self]))

theorem kept_execLockstepMismatch {q0 : Base} (sinceRestartUs : Nat) (s : State) (h_s : Kept q0 s) : KeptX q0 (execLockstepMismatch sinceRestartUs s) := by
  unfold execLockstepMismatch
  repeat' (first | with_reducible assumption | with_reducible apply kept_ite | with_reducible apply keptX_next | with_reducible apply kept_lockstep)

theorem kept_armedGo {q0 : Base} (s : State) (h_s : Kept q0 s) : Kept q0 (State.armedGo s) := by
  unfold State.armedGo
  repeat' (first | with_reducible assumption | with_reducible intro _ | with_reducible apply kept_foldl | with_reducible apply kept_ite | with_reducible apply kept_coolGo | with_reducible apply kept_detect | with_reducible apply kept_deviceCool | (with_reducible apply kept_same; simp only [↓kept_mk, ↓keptF_self]))

theorem kept_restarted {q0 : Base} (s : State) (h_s : Kept q0 s) : Kept q0 (State.restarted s) := by
  unfold State.restarted
  repeat' (first | with_reducible assumption | with_reducible intro _ | with_reducible apply kept_foldl | with_reducible apply kept_ite | with_reducible apply kept_armedGo | with_reducible apply kept_axFinish | with_reducible apply kept_bset | with_reducible apply kept_bump | with_reducible apply kept_detect | with_reducible apply kept_dutyAll | with_reducible apply kept_forgetCmds | with_reducible apply kept_fwActivate | with_reducible apply kept_handFail | with_reducible apply kept_heldFlush | with_reducible apply kept_lanePush | split | (with_reducible apply kept_same; simp only [↓kept_mk, ↓keptF_self]))

theorem kept_execStewardRestartComplete {q0 : Base} (s : State) (h_s : Kept q0 s) : KeptX q0 (execStewardRestartComplete s) := by
  unfold execStewardRestartComplete
  repeat' (first | with_reducible assumption | with_reducible apply kept_ite | with_reducible apply keptX_next | with_reducible apply kept_restarted)

theorem kept_execHeartbeatTick {q0 : Base} (s : State) (h_s : Kept q0 s) : KeptX q0 (execHeartbeatTick s) := by
  unfold execHeartbeatTick
  repeat' (first | with_reducible assumption | with_reducible apply kept_ite | with_reducible apply keptX_next | with_reducible apply kept_burnTick | with_reducible apply kept_changePoll | with_reducible apply kept_duePump | with_reducible apply kept_set)

theorem kept_watchdog {q0 : Base} (s : State) (kind : Nat) (unit : Nat) (idx : Nat) (ms : Nat) (h_s : Kept q0 s) : Kept q0 (State.watchdog s kind unit idx ms) := by
  unfold State.watchdog
  repeat' (first | with_reducible assumption | with_reducible apply kept_ite | with_reducible apply kept_detect | with_reducible apply kept_kill | with_reducible apply kept_killCtx | with_reducible apply kept_regionGo | split)

theorem kept_execWatchdogExpiry {q0 : Base} (kind : Nat) (unit : Nat) (idx : Nat) (ms : Nat) (s : State) (h_s : Kept q0 s) : KeptX q0 (execWatchdogExpiry kind unit idx ms s) := by
  unfold execWatchdogExpiry
  repeat' (first | with_reducible assumption | with_reducible apply keptX_run | with_reducible apply kept_watchdog)

theorem kept_execDiagSafetyStatus {q0 : Base} (q : Req) (s : State) (h_s : Kept q0 s) : KeptX q0 (execDiagSafetyStatus q s) := by
  unfold execDiagSafetyStatus
  repeat' (first | with_reducible assumption | with_reducible intro _ | with_reducible apply keptA_done | with_reducible apply keptX_run | with_reducible apply kept_axotte)

theorem kept_inject {q0 : Base} (s : State) (code : Nat) (u : Nat) (h_s : Kept q0 s) : Kept q0 (State.inject s code u) := by
  unfold State.inject
  repeat' (first | with_reducible assumption | with_reducible apply kept_benchCool | with_reducible apply kept_bset | with_reducible apply kept_coolExit | with_reducible apply kept_detect | with_reducible apply kept_isoClear | with_reducible apply kept_isoSet | with_reducible apply kept_lmMeet | with_reducible apply kept_log' | with_reducible apply kept_modTile | split | (with_reducible apply kept_same; simp only [↓kept_mk, ↓keptF_self]))

theorem kept_injectCmd {q0 : Base} (s : State) (m : Nat) (code : Nat) (unit : Option Nat) (h_s : Kept q0 s) : KeptA q0 (State.injectCmd s m code unit) := by
  unfold State.injectCmd
  repeat' (first | with_reducible assumption | with_reducible apply keptA_done | with_reducible apply keptA_wait | with_reducible apply keptA_ite | with_reducible apply kept_inject | with_reducible apply kept_invalid | with_reducible apply kept_lockstep | with_reducible apply kept_refuse | split | (with_reducible apply kept_same; simp only [↓kept_mk, ↓keptF_self]))

theorem kept_execDiagFaultInject {q0 : Base} (q : Req) (code : Nat) (s : State) (h_s : Kept q0 s) : KeptX q0 (execDiagFaultInject q code s) := by
  unfold execDiagFaultInject
  repeat' (first | with_reducible assumption | with_reducible intro _ | with_reducible apply keptX_run | with_reducible apply kept_axotte | with_reducible apply kept_injectCmd)

theorem kept_execDiagFaultInjectExpert {q0 : Base} (q : Req) (code : Nat) (unit : Nat) (s : State) (h_s : Kept q0 s) : KeptX q0 (execDiagFaultInjectExpert q code unit s) := by
  unfold execDiagFaultInjectExpert
  repeat' (first | with_reducible assumption | with_reducible intro _ | with_reducible apply keptX_run | with_reducible apply kept_axotte | with_reducible apply kept_injectCmd)

end Sys2Proof.Machine
end

