-- ==== Sys2Proof/Laws/KeepSec.lean ====
section
/-! SUPPORT. What the operations of Machine/Sec.lean keep. -/

namespace Sys2Proof.Machine

theorem kept_handAborts {q0 : Base} (s : State) (own : Nat) (h_s : Kept q0 s) : Kept q0 (State.handAborts s own) := by
  unfold State.handAborts
  repeat' (first | with_reducible assumption | with_reducible intro _ | with_reducible apply kept_foldl | with_reducible apply kept_axFinish | with_reducible apply kept_forgetCmds)

theorem kept_handOne {q0 : Base} (s : State) (h_s : Kept q0 s) : Kept q0 (State.handOne s) := by
  unfold State.handOne
  repeat' (first | with_reducible assumption | with_reducible intro _ | with_reducible apply kept_foldl | with_reducible apply kept_drsRelease | with_reducible apply kept_killCtx | with_reducible apply kept_laneDetach | with_reducible apply kept_svcHalt | split | (with_reducible apply kept_same; simp only [↓kept_mk, ↓keptF_self]))

theorem kept_tenDrop {q0 : Base} (s : State) (h_s : Kept q0 s) : Kept q0 (State.tenDrop s) := by
  unfold State.tenDrop
  repeat' (first | with_reducible assumption | with_reducible intro _ | with_reducible apply kept_foldl | with_reducible apply kept_tileDrop | (with_reducible apply kept_same; simp only [↓kept_mk, ↓keptF_self]))

theorem kept_handTwo {q0 : Base} (s : State) (keepLib : Bool) (h_s : Kept q0 s) : Kept q0 (State.handTwo s keepLib) := by
  unfold State.handTwo
  repeat' (first | with_reducible assumption | with_reducible apply kept_bset | with_reducible apply kept_memKeep | with_reducible apply kept_resetRegs | with_reducible apply kept_tenDrop | split | (with_reducible apply kept_same; simp only [↓kept_mk, ↓keptF_self]))

theorem kept_handReset {q0 : Base} (s : State) (cycle : Bool) (n : Nat) (h_s : Kept q0 s) : Kept q0 (State.handReset s cycle n) := by
  unfold State.handReset
  repeat' (first | with_reducible assumption | with_reducible apply kept_ite | with_reducible apply kept_modSite | with_reducible apply kept_siteReset)

theorem kept_handover {q0 : Base} (s : State) (m : Nat) (cycle : Bool) (drop : Bool) (part : Option Nat) (h_s : Kept q0 s) : KeptA q0 (State.handover s m cycle drop part) := by
  unfold State.handover
  repeat' (first | with_reducible assumption | with_reducible intro _ | with_reducible apply kept_foldl | with_reducible apply keptA_wait | with_reducible apply kept_ite | with_reducible apply keptA_ite | with_reducible apply kept_busy | with_reducible apply kept_handAborts | with_reducible apply kept_handEnd | with_reducible apply kept_handOne | with_reducible apply kept_handReset | with_reducible apply kept_handTwo | with_reducible apply kept_refuse | with_reducible apply kept_set | (with_reducible apply kept_same; simp only [↓kept_mk, ↓keptF_self]))

theorem kept_execSecHandover {q0 : Base} (q : Req) (s : State) (h_s : Kept q0 s) : KeptX q0 (execSecHandover q s) := by
  unfold execSecHandover
  repeat' (first | with_reducible assumption | with_reducible intro _ | with_reducible apply keptX_run | with_reducible apply kept_axotte | with_reducible apply kept_handover)

theorem kept_execSecHandoverExpert {q0 : Base} (q : Req) (cycle : Bool) (drop : Bool) (part : Option Nat) (s : State) (h_s : Kept q0 s) : KeptX q0 (execSecHandoverExpert q cycle drop part s) := by
  unfold execSecHandoverExpert
  repeat' (first | with_reducible assumption | with_reducible intro _ | with_reducible apply keptX_run | with_reducible apply keptA_ite | with_reducible apply kept_axotte | with_reducible apply kept_handover | with_reducible apply kept_invalid | split)

theorem kept_libPut {q0 : Base} (s : State) (img : List Byte) (body : Nat) (n : Nat) (x : Option Nat) (h_s : Kept q0 s) :
    KeptA q0 (State.libPut s img body n x) := by
  unfold State.libPut
  repeat' (first | with_reducible assumption | with_reducible apply keptA_done | with_reducible apply keptA_ite | with_reducible apply kept_bset | with_reducible apply kept_measDone | with_reducible apply kept_refuse | with_reducible apply kept_set | with_reducible apply kept_write | split | (with_reducible apply kept_same; simp only [↓kept_mk, ↓keptF_self]))

theorem kept_libLoad {q0 : Base} (s : State) (g : W64) (size : Nat) (base : Option Nat) (h_s : Kept q0 s) : KeptA q0 (State.libLoad s g size base) := by
  unfold State.libLoad
  repeat' (first | with_reducible assumption | with_reducible intro _ | with_reducible apply keptA_ite | with_reducible apply kept_busy | with_reducible apply kept_invalid | with_reducible apply kept_libPut | with_reducible apply kept_refuse | with_reducible apply kept_withImage | split)

theorem kept_execSecLibraryLoad {q0 : Base} (q : Req) (image : W64) (size : Nat) (s : State) (h_s : Kept q0 s) : KeptX q0 (execSecLibraryLoad q image size s) := by
  unfold execSecLibraryLoad
  repeat' (first | with_reducible assumption | with_reducible intro _ | with_reducible apply keptX_run | with_reducible apply kept_axotte | with_reducible apply kept_libLoad)

theorem kept_execSecLibraryLoadExpert {q0 : Base} (q : Req) (image : W64) (size : Nat) (base : Nat) (s : State) (h_s : Kept q0 s) : KeptX q0 (execSecLibraryLoadExpert q image size base s) := by
  unfold execSecLibraryLoadExpert
  repeat' (first | with_reducible assumption | with_reducible intro _ | with_reducible apply keptX_run | with_reducible apply kept_axotte | with_reducible apply kept_libLoad)

theorem kept_execSecDeviceSet {q0 : Base} (q : Req) (dev : Nat) (s : State) (h_s : Kept q0 s) : KeptX q0 (execSecDeviceSet q dev s) := by
  unfold execSecDeviceSet
  repeat' (first | with_reducible assumption | with_reducible intro _ | with_reducible apply keptX_run | with_reducible apply keptA_ite | with_reducible apply kept_axotte | with_reducible apply kept_invalid | with_reducible apply kept_prbCmd | with_reducible apply kept_refuse)

theorem kept_execSecPartitionSet {q0 : Base} (q : Req) (tagv : Nat) (s : State) (h_s : Kept q0 s) : KeptX q0 (execSecPartitionSet q tagv s) := by
  unfold execSecPartitionSet
  repeat' (first | with_reducible assumption | with_reducible intro _ | with_reducible apply keptX_run | with_reducible apply keptA_ite | with_reducible apply kept_axotte | with_reducible apply kept_invalid | with_reducible apply kept_prbCmd | with_reducible apply kept_refuse)

theorem kept_execSecRouteWrite {q0 : Base} (q : Req) (table : Nat) (first : Nat) (entries : List (BitVec 16)) (s : State) (h_s : Kept q0 s) : KeptX q0 (execSecRouteWrite q table first entries s) := by
  unfold execSecRouteWrite
  repeat' (first | with_reducible assumption | with_reducible intro _ | with_reducible apply keptX_run | with_reducible apply keptA_ite | with_reducible apply kept_axotte | with_reducible apply kept_invalid | with_reducible apply kept_prbCmd)

theorem kept_newNonce {q0 : Base} (s : State) (h_s : Kept q0 s) : Kept q0 (State.newNonce s) := by
  unfold State.newNonce
  repeat' (first | with_reducible assumption | with_reducible apply kept_drew | with_reducible apply kept_set)

theorem kept_execSecDebugOpen {q0 : Base} (q : Req) (token : W64) (s : State) (h_s : Kept q0 s) : KeptX q0 (execSecDebugOpen q token s) := by
  unfold execSecDebugOpen
  repeat' (first | with_reducible assumption | with_reducible intro _ | with_reducible apply keptA_done | with_reducible apply keptX_run | with_reducible apply keptA_ite | with_reducible apply kept_axotte | with_reducible apply kept_bset | with_reducible apply kept_measDone | with_reducible apply kept_newNonce | with_reducible apply kept_refuse | with_reducible apply kept_withImage | split | (with_reducible apply kept_same; simp only [↓kept_mk, ↓keptF_self]))

theorem kept_execSecLcTransition {q0 : Base} (q : Req) (target : Nat) (serial : W64) (token : W64) (s : State) (h_s : Kept q0 s) : KeptX q0 (execSecLcTransition q target serial token s) := by
  unfold execSecLcTransition
  repeat' (first | with_reducible assumption | with_reducible intro _ | with_reducible apply keptA_wait | with_reducible apply keptX_run | with_reducible apply keptA_ite | with_reducible apply kept_axotte | with_reducible apply kept_busy | with_reducible apply kept_invalid | with_reducible apply kept_refuse | with_reducible apply kept_withImage | split | (with_reducible apply kept_same; simp only [↓kept_mk, ↓keptF_self]))

theorem kept_execSecKeyProvision {q0 : Base} (q : Req) (slot : Nat) (salt : BitVec 256) (s : State) (h_s : Kept q0 s) : KeptX q0 (execSecKeyProvision q slot salt s) := by
  unfold execSecKeyProvision
  repeat' (first | with_reducible assumption | with_reducible intro _ | with_reducible apply keptA_done | with_reducible apply keptX_run | with_reducible apply keptA_ite | with_reducible apply kept_axotte | with_reducible apply kept_invalid | with_reducible apply kept_refuse | (with_reducible apply kept_same; simp only [↓kept_mk, ↓keptF_self]))

theorem kept_rotate {q0 : Base} (s : State) (h_s : Kept q0 s) : KeptA q0 (State.rotate s) := by
  unfold State.rotate
  repeat' (first | with_reducible assumption | with_reducible apply keptA_done | with_reducible apply kept_ite | with_reducible apply keptA_ite | with_reducible apply kept_bset | with_reducible apply kept_busy | with_reducible apply kept_fset | with_reducible apply kept_measDone | with_reducible apply kept_refuse | split | (with_reducible apply kept_same; simp only [↓kept_mk, ↓keptF_self]))

theorem kept_execSecEpochRotate {q0 : Base} (q : Req) (s : State) (h_s : Kept q0 s) : KeptX q0 (execSecEpochRotate q s) := by
  unfold execSecEpochRotate
  repeat' (first | with_reducible assumption | with_reducible intro _ | with_reducible apply keptX_run | with_reducible apply kept_axotte | with_reducible apply kept_rotate)

theorem kept_execSecTrustSet {q0 : Base} (q : Req) (item : TrustItem) (prov : Bool) (s : State) (h_s : Kept q0 s) : KeptX q0 (execSecTrustSet q item prov s) := by
  unfold execSecTrustSet
  repeat' (first | with_reducible assumption | with_reducible intro _ | with_reducible apply keptA_fail | with_reducible apply keptX_run | with_reducible apply keptA_ite | with_reducible apply kept_axotte | with_reducible apply kept_bset | with_reducible apply kept_invalid | with_reducible apply kept_prbCmd | split)

theorem kept_fwUpdate {q0 : Base} (s : State) (g : W64) (size : Nat) (now : Bool) (h_s : Kept q0 s) : KeptA q0 (State.fwUpdate s g size now) := by
  unfold State.fwUpdate
  repeat' (first | with_reducible assumption | with_reducible intro _ | with_reducible apply keptA_done | with_reducible apply keptA_ite | with_reducible apply kept_refuse | with_reducible apply kept_set | with_reducible apply kept_withImage | split | (with_reducible apply kept_same; simp only [↓kept_mk, ↓keptF_self]))

theorem kept_execSecFwUpdate {q0 : Base} (q : Req) (image : W64) (size : Nat) (s : State) (h_s : Kept q0 s) : KeptX q0 (execSecFwUpdate q image size s) := by
  unfold execSecFwUpdate
  repeat' (first | with_reducible assumption | with_reducible intro _ | with_reducible apply keptX_run | with_reducible apply kept_axotte | with_reducible apply kept_fwUpdate)

theorem kept_execSecFwUpdateExpert {q0 : Base} (q : Req) (image : W64) (size : Nat) (now : Bool) (s : State) (h_s : Kept q0 s) : KeptX q0 (execSecFwUpdateExpert q image size now s) := by
  unfold execSecFwUpdateExpert
  repeat' (first | with_reducible assumption | with_reducible intro _ | with_reducible apply keptX_run | with_reducible apply kept_ite | with_reducible apply kept_axotte | with_reducible apply kept_fwUpdate | with_reducible apply kept_lockstep)

theorem kept_execSecStatus {q0 : Base} (q : Req) (s : State) (h_s : Kept q0 s) : KeptX q0 (execSecStatus q s) := by
  unfold execSecStatus
  repeat' (first | with_reducible assumption | with_reducible intro _ | with_reducible apply keptA_done | with_reducible apply keptX_run | with_reducible apply kept_axotte)

end Sys2Proof.Machine
end

