-- ==== Sys2Proof/Laws/KeepMgmt.lean ====
section
/-! SUPPORT. What the operations of Machine/Mgmt.lean keep. -/

namespace Sys2Proof.Machine

theorem kept_post {q0 : Base} (s : State) (m : Nat) (h : Hdr) (flags : Nat) (len : Nat) (rsv : Nat) (h_s : Kept q0 s) : Kept q0 (State.post s m h flags len rsv) := by
  unfold State.post
  repeat' (first | with_reducible assumption | with_reducible apply kept_ite | with_reducible apply kept_axDup | with_reducible apply kept_axEnd | with_reducible apply kept_bset | with_reducible apply kept_fset | with_reducible apply kept_setBox)

theorem kept_doorbell {q0 : Base} (s : State) (m : Nat) (v : W32) (h_s : Kept q0 s) : Kept q0 (State.doorbell s m v) := by
  unfold State.doorbell
  repeat' (first | with_reducible assumption | with_reducible apply kept_ite | with_reducible apply kept_post)

theorem kept_execMailboxDoorbell {q0 : Base} (m : Nat) (v : W32) (s : State) (h_s : Kept q0 s) : KeptX q0 (execMailboxDoorbell m v s) := by
  unfold execMailboxDoorbell
  repeat' (first | with_reducible assumption | with_reducible apply keptX_run | with_reducible apply kept_doorbell)

theorem kept_mgmtMsg {q0 : Base} (s : State) (n : Nat) (cmd : Nat) (flags : Nat) (len : Nat) (tag : W32) (seq : W32) (h_s : Kept q0 s) : Kept q0 (State.mgmtMsg s n cmd flags len tag seq) := by
  unfold State.mgmtMsg
  repeat' (first | with_reducible assumption | with_reducible apply kept_ite | with_reducible apply kept_bump | with_reducible apply kept_emit | with_reducible apply kept_post | with_reducible apply kept_setBox | split)

theorem kept_execAxotteMgmtMessage {q0 : Base} (session : Nat) (cmd : Nat) (flags : Nat) (len : Nat) (tag : W32) (seq : W32) (s : State) (h_s : Kept q0 s) : KeptX q0 (execAxotteMgmtMessage session cmd flags len tag seq s) := by
  unfold execAxotteMgmtMessage
  repeat' (first | with_reducible assumption | with_reducible apply keptX_next | with_reducible apply kept_mgmtMsg)

theorem kept_sessEnd {q0 : Base} (s : State) (n : Nat) (h_s : Kept q0 s) : Kept q0 (State.sessEnd s n) := by
  unfold State.sessEnd
  repeat' (first | with_reducible assumption | with_reducible intro _ | with_reducible apply kept_foldl | with_reducible apply kept_ite | with_reducible apply kept_setBox | (with_reducible apply kept_same; simp only [↓kept_mk, ↓keptF_self]))

theorem kept_execMgmtSessionEnd {q0 : Base} (session : Nat) (s : State) (h_s : Kept q0 s) : KeptX q0 (execMgmtSessionEnd session s) := by
  unfold execMgmtSessionEnd
  repeat' (first | with_reducible assumption | with_reducible apply keptX_next | with_reducible apply kept_sessEnd)

theorem kept_onSpdm {q0 : Base} (s : State) (port : Nat) (need : Nat) (f : State → State) (h_s : Kept q0 s) (h_f : ∀ s, Kept q0 s → Kept q0 (f s)) : Kept q0 (State.onSpdm s port need f) := by
  unfold State.onSpdm
  repeat' (first | with_reducible assumption | with_reducible apply kept_ite | with_reducible apply kept_spdm | with_reducible apply h_f)

theorem kept_modConn {q0 : Base} (s : State) (port : Nat) (f : Conn → Conn) (h_s : Kept q0 s) : Kept q0 (State.modConn s port f) := by
  unfold State.modConn
  repeat' (first | with_reducible assumption | (with_reducible apply kept_same; simp only [↓kept_mk, ↓keptF_self]))

theorem kept_onSess {q0 : Base} (s : State) (port : Nat) (n : Nat) (f : State → Sess → State) (h_s : Kept q0 s) (h_f : ∀ s x, Kept q0 s → Kept q0 (f s x)) : Kept q0 (State.onSess s port n f) := by
  unfold State.onSess
  repeat' (first | with_reducible assumption | with_reducible intro _ | with_reducible apply kept_ite | with_reducible apply kept_onSpdm | with_reducible apply kept_spdm | with_reducible apply h_f | split)

theorem kept_execGetVersion {q0 : Base} (port : Nat) (s : State) (h_s : Kept q0 s) : KeptX q0 (execGetVersion port s) := by
  unfold execGetVersion
  repeat' (first | with_reducible assumption | with_reducible intro _ | with_reducible apply keptX_run | with_reducible apply kept_modConn | with_reducible apply kept_onSpdm | with_reducible apply kept_spdm)

theorem kept_execGetCapabilities {q0 : Base} (port : Nat) (s : State) (h_s : Kept q0 s) : KeptX q0 (execGetCapabilities port s) := by
  unfold execGetCapabilities
  repeat' (first | with_reducible assumption | with_reducible intro _ | with_reducible apply keptX_run | with_reducible apply kept_modConn | with_reducible apply kept_onSpdm | with_reducible apply kept_spdm)

theorem kept_execNegotiateAlgorithms {q0 : Base} (port : Nat) (offered : Nat) (s : State) (h_s : Kept q0 s) : KeptX q0 (execNegotiateAlgorithms port offered s) := by
  unfold execNegotiateAlgorithms
  repeat' (first | with_reducible assumption | with_reducible intro _ | with_reducible apply keptX_run | with_reducible apply kept_ite | with_reducible apply kept_modConn | with_reducible apply kept_onSpdm | with_reducible apply kept_spdm)

theorem kept_execGetDigests {q0 : Base} (port : Nat) (s : State) (h_s : Kept q0 s) : KeptX q0 (execGetDigests port s) := by
  unfold execGetDigests
  repeat' (first | with_reducible assumption | with_reducible intro _ | with_reducible apply keptX_run | with_reducible apply kept_onSpdm | with_reducible apply kept_spdm)

theorem kept_execGetCertificate {q0 : Base} (port : Nat) (slot : Nat) (off : Nat) (len : Nat) (s : State) (h_s : Kept q0 s) : KeptX q0 (execGetCertificate port slot off len s) := by
  unfold execGetCertificate
  repeat' (first | with_reducible assumption | with_reducible intro _ | with_reducible apply keptX_run | with_reducible apply kept_ite | with_reducible apply kept_onSpdm | with_reducible apply kept_spdm | split)

theorem kept_execChallenge {q0 : Base} (port : Nat) (slot : Nat) (s : State) (h_s : Kept q0 s) : KeptX q0 (execChallenge port slot s) := by
  unfold execChallenge
  repeat' (first | with_reducible assumption | with_reducible intro _ | with_reducible apply keptX_run | with_reducible apply kept_ite | with_reducible apply kept_onSpdm | with_reducible apply kept_spdm | split | (with_reducible apply kept_same; simp only [↓kept_mk, ↓keptF_self]))

theorem kept_execGetMeasurements {q0 : Base} (port : Nat) (index : Nat) (slot : Nat) (signed : Bool) (s : State) (h_s : Kept q0 s) : KeptX q0 (execGetMeasurements port index slot signed s) := by
  unfold execGetMeasurements
  repeat' (first | with_reducible assumption | with_reducible intro _ | with_reducible apply keptX_run | with_reducible apply kept_ite | with_reducible apply kept_measAnswer | with_reducible apply kept_onSpdm | with_reducible apply kept_spdm | (with_reducible apply kept_same; simp only [↓kept_mk, ↓keptF_self]))

theorem kept_execMeasurementHoldTimeout {q0 : Base} (port : Nat) (s : State) (h_s : Kept q0 s) : KeptX q0 (execMeasurementHoldTimeout port s) := by
  unfold execMeasurementHoldTimeout
  repeat' (first | with_reducible assumption | with_reducible intro _ | with_reducible apply kept_foldl | with_reducible apply keptX_run | with_reducible apply kept_measAnswer | (with_reducible apply kept_same; simp only [↓kept_mk, ↓keptF_self]))

theorem kept_execChunkSend {q0 : Base} (port : Nat) (handle : Nat) (last : Bool) (data : List Byte) (s : State) (h_s : Kept q0 s) : KeptX q0 (execChunkSend port handle last data s) := by
  unfold execChunkSend
  repeat' (first | with_reducible assumption | with_reducible intro _ | with_reducible apply keptX_run | with_reducible apply kept_modConn | with_reducible apply kept_onSpdm | with_reducible apply kept_spdm)

theorem kept_execChunkGet {q0 : Base} (port : Nat) (handle : Nat) (idx : Nat) (s : State) (h_s : Kept q0 s) : KeptX q0 (execChunkGet port handle idx s) := by
  unfold execChunkGet
  repeat' (first | with_reducible assumption | with_reducible intro _ | with_reducible apply keptX_run | with_reducible apply kept_ite | with_reducible apply kept_onSpdm | with_reducible apply kept_spdm)

theorem kept_execKeyExchange {q0 : Base} (port : Nat) (session : Nat) (s : State) (h_s : Kept q0 s) : KeptX q0 (execKeyExchange port session s) := by
  unfold execKeyExchange
  repeat' (first | with_reducible assumption | with_reducible intro _ | with_reducible apply keptX_run | with_reducible apply kept_ite | with_reducible apply kept_onSpdm | with_reducible apply kept_spdm | (with_reducible apply kept_same; simp only [↓kept_mk, ↓keptF_self]))

theorem kept_execFinish {q0 : Base} (port : Nat) (session : Nat) (rootDigest : BitVec 512) (ok : Bool) (s : State) (h_s : Kept q0 s) : KeptX q0 (execFinish port session rootDigest ok s) := by
  unfold execFinish
  repeat' (first | with_reducible assumption | with_reducible intro _ | with_reducible apply keptX_run | with_reducible apply kept_ite | with_reducible apply kept_onSpdm | with_reducible apply kept_sessEnd | with_reducible apply kept_spdm | split | (with_reducible apply kept_same; simp only [↓kept_mk, ↓keptF_self]))

theorem kept_execHeartbeat {q0 : Base} (port : Nat) (session : Nat) (s : State) (h_s : Kept q0 s) : KeptX q0 (execHeartbeat port session s) := by
  unfold execHeartbeat
  repeat' (first | with_reducible assumption | with_reducible intro _ | with_reducible apply keptX_run | with_reducible apply kept_onSess | with_reducible apply kept_spdm)

theorem kept_execKeyUpdate {q0 : Base} (port : Nat) (session : Nat) (op : Nat) (s : State) (h_s : Kept q0 s) : KeptX q0 (execKeyUpdate port session op s) := by
  unfold execKeyUpdate
  repeat' (first | with_reducible assumption | with_reducible intro _ | with_reducible apply keptX_run | with_reducible apply kept_ite | with_reducible apply kept_onSess | with_reducible apply kept_spdm)

theorem kept_execGetEncapsulatedRequest {q0 : Base} (port : Nat) (session : Nat) (s : State) (h_s : Kept q0 s) : KeptX q0 (execGetEncapsulatedRequest port session s) := by
  unfold execGetEncapsulatedRequest
  repeat' (first | with_reducible assumption | with_reducible intro _ | with_reducible apply keptX_run | with_reducible apply kept_ite | with_reducible apply kept_onSpdm | with_reducible apply kept_spdm)

theorem kept_execDeliverEncapsulatedResponse {q0 : Base} (port : Nat) (session : Nat) (chain : List Byte) (s : State) (h_s : Kept q0 s) : KeptX q0 (execDeliverEncapsulatedResponse port session chain s) := by
  unfold execDeliverEncapsulatedResponse
  repeat' (first | with_reducible assumption | with_reducible intro _ | with_reducible apply keptX_run | with_reducible apply kept_onSpdm | with_reducible apply kept_spdm | split | (with_reducible apply kept_same; simp only [↓kept_mk, ↓keptF_self]))

theorem kept_execEndSession {q0 : Base} (port : Nat) (session : Nat) (s : State) (h_s : Kept q0 s) : KeptX q0 (execEndSession port session s) := by
  unfold execEndSession
  repeat' (first | with_reducible assumption | with_reducible intro _ | with_reducible apply keptX_run | with_reducible apply kept_onSess | with_reducible apply kept_sessEnd | with_reducible apply kept_spdm)

theorem kept_execGetCsr {q0 : Base} (port : Nat) (session : Nat) (slot : Nat) (s : State) (h_s : Kept q0 s) : KeptX q0 (execGetCsr port session slot s) := by
  unfold execGetCsr
  repeat' (first | with_reducible assumption | with_reducible intro _ | with_reducible apply keptX_run | with_reducible apply kept_ite | with_reducible apply kept_onSess | with_reducible apply kept_spdm | split)

theorem kept_execSetCertificate {q0 : Base} (port : Nat) (session : Nat) (slot : Nat) (chain : List Byte) (s : State) (h_s : Kept q0 s) : KeptX q0 (execSetCertificate port session slot chain s) := by
  unfold execSetCertificate
  repeat' (first | with_reducible assumption | with_reducible intro _ | with_reducible apply keptX_run | with_reducible apply kept_ite | with_reducible apply kept_onSess | with_reducible apply kept_spdm | (with_reducible apply kept_same; simp only [↓kept_mk, ↓keptF_self]))

theorem kept_execSpdmUnsupportedRequest {q0 : Base} (port : Nat) (code : Nat) (s : State) (h_s : Kept q0 s) : KeptX q0 (execSpdmUnsupportedRequest port code s) := by
  unfold execSpdmUnsupportedRequest
  repeat' (first | with_reducible assumption | with_reducible intro _ | with_reducible apply keptX_run | with_reducible apply kept_onSpdm | with_reducible apply kept_spdm)

end Sys2Proof.Machine
end

