-- ==== Sys2Proof/Laws/KeepRegWindow.lean ====
section
/-! SUPPORT. What the operations of Machine/RegWindow.lean keep. -/

namespace Sys2Proof.Machine

theorem kept_regRd {q0 : Base} (s : State) (d : RegDesc) (a : Nat) (m : W64) (h_s : Kept q0 s) : Kept q0 (State.regRd s d a m).2 := by
  unfold State.regRd
  repeat' (first | with_reducible assumption | with_reducible apply kept_ite | with_reducible apply keptF_tset | (with_reducible apply kept_same; simp only [↓kept_mk, ↓keptF_self]) | (with_reducible apply keptF_same; simp only [↓keptF_self]))

theorem kept_rd32 {q0 : Base} (s : State) (a : Nat) (h_s : Kept q0 s) : Kept q0 (State.rd32 s a).2 := by
  unfold State.rd32
  repeat' (first | with_reducible assumption | with_reducible apply kept_regRd | split)

theorem kept_rdReg {q0 : Base} (s : State) (a : Nat) (n : Nat) (h_s : Kept q0 s) : Kept q0 (State.rdReg s a n).2 := by
  unfold State.rdReg
  repeat' (first | with_reducible assumption | with_reducible apply kept_rd32 | with_reducible apply kept_regRd | split)

theorem kept_mgmtRefuse {q0 : Base} (s : State) (h_s : Kept q0 s) : Kept q0 (State.mgmtRefuse s) := by
  unfold State.mgmtRefuse
  repeat' (first | with_reducible assumption | with_reducible apply kept_bump)

theorem kept_regRead {q0 : Base} (s : State) (a : Nat) (n : Nat) (h_s : Kept q0 s) : Kept q0 (State.regRead s a n).2 := by
  unfold State.regRead
  repeat' (first | with_reducible assumption | with_reducible apply kept_mgmtRefuse | with_reducible apply kept_rdReg | with_reducible apply kept_syncPageRd | split)

theorem kept_regPut {q0 : Base} (s : State) (d : RegDesc) (a : Nat) (m : W64) (v : W64) (h_s : Kept q0 s) : Kept q0 (State.regPut s d a m v) := by
  unfold State.regPut
  repeat' (first | with_reducible assumption | with_reducible apply keptF_tset | (with_reducible apply kept_same; simp only [↓kept_mk, ↓keptF_self]) | (with_reducible apply keptF_same; simp only [↓keptF_self]))

theorem kept_hostWindow {q0 : Base} (s : State) (k : Nat) (v : W64) (h_s : Kept q0 s) : Kept q0 (State.hostWindow s k v) := by
  unfold State.hostWindow
  repeat' (first | with_reducible assumption | with_reducible apply kept_ite | with_reducible apply kept_set)

theorem kept_execHostWindowWrite {q0 : Base} (k : Nat) (v : W64) (s : State) (h_s : Kept q0 s) : KeptX q0 (execHostWindowWrite k v s) := by
  unfold execHostWindowWrite
  repeat' (first | with_reducible assumption | with_reducible apply keptX_run | with_reducible apply kept_hostWindow)

theorem kept_regBlkWr {q0 : Base} (s : State) (d : RegDesc) (a : Nat) (m : W64) (v : W64) (h_s : Kept q0 s) : Kept q0 (State.regBlkWr s d a m v) := by
  unfold State.regBlkWr
  repeat' (first | with_reducible assumption | with_reducible apply keptF_tset | with_reducible apply kept_overcommit | split | (with_reducible apply kept_same; simp only [↓kept_mk, ↓keptF_self]) | (with_reducible apply keptF_same; simp only [↓keptF_self]))

theorem kept_invWr {q0 : Base} (s : State) (k : Nat) (d : RegDesc) (a : Nat) (m : W64) (v : W64) (h_s : Kept q0 s) : Kept q0 (State.invWr s k d a m v) := by
  unfold State.invWr
  repeat' (first | with_reducible assumption | with_reducible apply kept_ite | with_reducible apply kept_invGo | with_reducible apply kept_regPut)

theorem kept_mbxWr {q0 : Base} (s : State) (k : Nat) (d : RegDesc) (a : Nat) (m : W64) (v : W64) (h_s : Kept q0 s) : Kept q0 (State.mbxWr s k d a m v) := by
  unfold State.mbxWr
  repeat' (first | with_reducible assumption | with_reducible apply kept_ite | with_reducible apply kept_doorbell | with_reducible apply kept_regPut)

theorem kept_tileRegWr {q0 : Base} (s : State) (t : Nat) (o : Nat) (d : RegDesc) (a : Nat) (m : W64) (v : W64) (h_s : Kept q0 s) : Kept q0 (State.tileRegWr s t o d a m v) := by
  unfold State.tileRegWr
  repeat' (first | with_reducible assumption | with_reducible apply kept_ite | with_reducible apply kept_arithWr | with_reducible apply kept_dmaCtrlWr | with_reducible apply kept_dmaTailWr | with_reducible apply kept_regPut | with_reducible apply kept_seedWr | with_reducible apply kept_seqCtrl | split)

theorem kept_svcRegWr {q0 : Base} (s : State) (d : RegDesc) (a : Nat) (m : W64) (v : W64) (h_s : Kept q0 s) : Kept q0 (State.svcRegWr s d a m v) := by
  unfold State.svcRegWr
  repeat' (first | with_reducible assumption | with_reducible apply kept_ite | with_reducible apply kept_regPut | split)

theorem kept_cxlRegWr {q0 : Base} (s : State) (d : RegDesc) (a : Nat) (m : W64) (v : W64) (h_s : Kept q0 s) : Kept q0 (State.cxlRegWr s d a m v) := by
  unfold State.cxlRegWr
  repeat' (first | with_reducible assumption | with_reducible apply kept_ite | with_reducible apply kept_hostWindow | with_reducible apply kept_regPut | split)

theorem kept_regWr1 {q0 : Base} (s : State) (d : RegDesc) (a : Nat) (m : W64) (v : W64) (h_s : Kept q0 s) : Kept q0 (State.regWr1 s d a m v) := by
  unfold State.regWr1
  repeat' (first | with_reducible assumption | with_reducible apply kept_ite | with_reducible apply kept_cxlRegWr | with_reducible apply kept_dirProbeWr | with_reducible apply kept_invWr | with_reducible apply kept_laneTail | with_reducible apply kept_mbxWr | with_reducible apply kept_regBlkWr | with_reducible apply kept_regPut | with_reducible apply kept_ringPrefetch | with_reducible apply kept_rwpWrite | with_reducible apply kept_set | with_reducible apply kept_setDuty | with_reducible apply kept_stepGoWr | with_reducible apply kept_svcRegWr | with_reducible apply kept_tileRegWr | split)

theorem kept_wr32 {q0 : Base} (s : State) (a : Nat) (v : Nat) (h_s : Kept q0 s) : Kept q0 (State.wr32 s a v) := by
  unfold State.wr32
  repeat' (first | with_reducible assumption | with_reducible apply kept_ite | with_reducible apply kept_regWr1 | split)

theorem kept_wrReg {q0 : Base} (s : State) (a : Nat) (n : Nat) (v : Nat) (h_s : Kept q0 s) : Kept q0 (State.wrReg s a n v) := by
  unfold State.wrReg
  repeat' (first | with_reducible assumption | with_reducible apply kept_ite | with_reducible apply kept_regWr1 | with_reducible apply kept_wr32 | split)

theorem kept_regWrite {q0 : Base} (s : State) (a : Nat) (n : Nat) (v : Nat) (h_s : Kept q0 s) : Kept q0 (State.regWrite s a n v) := by
  unfold State.regWrite
  repeat' (first | with_reducible assumption | with_reducible apply kept_ite | with_reducible apply keptF_mwrite | with_reducible apply kept_mgmtRefuse | with_reducible apply kept_syncPageWr | with_reducible apply kept_wrReg | split | (with_reducible apply kept_same; simp only [↓kept_mk, ↓keptF_self]) | (with_reducible apply keptF_same; simp only [↓keptF_self]))

end Sys2Proof.Machine
end

