-- ==== Sys2Proof/Laws/KeepAccess.lean ====
section
/-! SUPPORT. What the operations of Machine/Access.lean keep. -/

namespace Sys2Proof.Machine

theorem kept_lmAccess {q0 : Base} (s : State) (a : Nat) (n : Nat) (op : AccessOp) (poison : Bool) (h_s : Kept q0 s) : Kept q0 (State.lmAccess s a n op poison).2.2 := by
  unfold State.lmAccess
  repeat' (first | with_reducible assumption | with_reducible apply kept_lmMeetAt | with_reducible apply kept_lmWrite | with_reducible apply kept_routerRead | with_reducible apply kept_served | split)

theorem kept_regAccess {q0 : Base} (s : State) (a : Nat) (n : Nat) (op : AccessOp) (h_s : Kept q0 s) : AllO (fun x => Kept q0 x.2) (State.regAccess s a n op) := by
  unfold State.regAccess
  repeat' (first | with_reducible assumption | with_reducible apply allO_some | with_reducible apply allO_none | with_reducible apply kept_regRead | with_reducible apply kept_regWrite | with_reducible apply kept_syncAtomic | split)

theorem kept_accSend {q0 : Base} (s : State) (k : Nat) (x : AccW) (h_s : Kept q0 s) : Kept q0 (State.accSend s k x) := by
  unfold State.accSend
  repeat' (first | with_reducible assumption | with_reducible apply kept_accDone | with_reducible apply kept_tksAsk | split | (with_reducible apply kept_of_sent; with_reducible assumption) | (with_reducible apply kept_same; simp only [↓kept_mk, ↓keptF_self]))

theorem kept_accWrite {q0 : Base} (s : State) (k : Nat) (x : AccW) (h_s : Kept q0 s) : Kept q0 (State.accWrite s k x) := by
  unfold State.accWrite
  repeat' (first | with_reducible assumption | with_reducible apply kept_ite | with_reducible apply kept_accDone | with_reducible apply kept_gWrite | (with_reducible apply kept_same; simp only [↓kept_mk, ↓keptF_self]))

theorem kept_accAtomic {q0 : Base} (s : State) (k : Nat) (x : AccW) (aop : Nat) (v : W64) (c : W64) (h_s : Kept q0 s) : Kept q0 (State.accAtomic s k x aop v c) := by
  unfold State.accAtomic
  repeat' (first | with_reducible assumption | with_reducible apply kept_cohReq | with_reducible apply kept_siteAsk | split | (with_reducible apply kept_same; simp only [↓kept_mk, ↓keptF_self]))

theorem kept_accTry {q0 : Base} (s : State) (k : Nat) (h_s : Kept q0 s) : Kept q0 (State.accTry s k) := by
  unfold State.accTry
  repeat' (first | with_reducible assumption | with_reducible apply kept_ite | with_reducible apply kept_accAtomic | with_reducible apply kept_accDone | with_reducible apply kept_accSend | with_reducible apply kept_accWrite | with_reducible apply kept_gAsk | with_reducible apply kept_gRead | with_reducible apply kept_regCount | split | (with_reducible apply kept_same; simp only [↓kept_mk, ↓keptF_self]))

theorem kept_portRead {q0 : Base} (s : State) (m : Master) (g : Nat) (h_s : Kept q0 s) : Kept q0 (State.portRead s m g) := by
  unfold State.portRead
  repeat' (first | with_reducible assumption | with_reducible apply kept_routerRead | split)

theorem kept_access {q0 : Base} (s : State) (m : Master) (why : Purp) (g : Nat) (n : Nat) (tc : Nat) (op : AccessOp) (poison : Bool) (h_s : Kept q0 s) : Kept q0 (State.access s m why g n tc op poison) := by
  unfold State.access
  repeat' (first | with_reducible assumption | with_reducible apply kept_ite | with_reducible apply kept_accTry | with_reducible apply kept_lmAccess | with_reducible apply kept_portRead | with_reducible apply kept_regAccess | with_reducible apply kept_reply | split | (with_reducible apply kept_of_some2; with_reducible assumption) | (with_reducible apply kept_same; simp only [↓kept_mk, ↓keptF_self]))

theorem kept_msgStep {q0 : Base} (s : State) (q : Nat) (h_s : Kept q0 s) : AllO (Kept q0) (State.msgStep s q) := by
  unfold State.msgStep
  repeat' (first | with_reducible assumption | with_reducible apply allO_some | with_reducible apply allO_none | with_reducible apply kept_access | with_reducible apply kept_reply | with_reducible apply kept_set | with_reducible apply kept_syncAdd | split | (with_reducible apply kept_same; simp only [↓kept_mk, ↓keptF_self]))

theorem kept_msgGo {q0 : Base} (q : Nat) : ∀ (i0 : Nat) (s : State), Kept q0 s → Kept q0 (State.msgGo s q i0) := by
  intro i0
  induction i0 with
  | zero =>
    intros
    unfold State.msgGo
    repeat' with_reducible assumption
  | succ n ih =>
    intros
    unfold State.msgGo
    repeat' (first | with_reducible assumption | with_reducible apply kept_msgStep | with_reducible apply ih | split | (with_reducible apply kept_of_some; with_reducible assumption))

theorem kept_msgPump {q0 : Base} (s : State) (h_s : Kept q0 s) : Kept q0 (State.msgPump s) := by
  unfold State.msgPump
  repeat' (first | with_reducible assumption | with_reducible intro _ | with_reducible apply kept_foldl | with_reducible apply kept_msgGo)

theorem kept_msgIn {q0 : Base} (s : State) (q : Nat) (m : MsgW) (h_s : Kept q0 s) : KeptM q0 (State.msgIn s q m) := by
  unfold State.msgIn
  repeat' (first | with_reducible assumption | with_reducible apply keptM_full | with_reducible apply keptM_taken | with_reducible exact keptM_bad | with_reducible apply kept_bump | with_reducible apply kept_msgGo | split | (with_reducible apply kept_same; simp only [↓kept_mk, ↓keptF_self]) | dsimp only)

theorem kept_holeBy {q0 : Base} (s : State) (m : Master) (code : Nat) (g : Nat) (h_s : Kept q0 s) : Kept q0 (State.holeBy s m code g) := by
  unfold State.holeBy
  repeat' (first | with_reducible assumption | with_reducible apply kept_ite | with_reducible apply kept_hole | with_reducible apply kept_kill | with_reducible apply kept_modCore | with_reducible apply kept_toAgent | with_reducible apply kept_ur | split)

theorem kept_registerWrite {q0 : Base} (s : State) (m : Master) (a : Nat) (n : Nat) (v : W64) (h_s : Kept q0 s) : Kept q0 (State.registerWrite s m a n v) := by
  unfold State.registerWrite
  repeat' (first | with_reducible assumption | with_reducible apply kept_ite | with_reducible apply kept_holeBy | with_reducible apply kept_regWrite)

theorem kept_execRegisterWrite {q0 : Base} (m : Master) (addr : W64) (width : Nat) (v : W64) (s : State) (h_s : Kept q0 s) : KeptX q0 (execRegisterWrite m addr width v s) := by
  unfold execRegisterWrite
  repeat' (first | with_reducible assumption | with_reducible apply keptX_run | with_reducible apply kept_registerWrite)

theorem kept_lmExternal {q0 : Base} (s : State) (m : Master) (a : Nat) (n : Nat) (op : AccessOp) (h_s : Kept q0 s) : Kept q0 (State.lmExternal s m a n op) := by
  unfold State.lmExternal
  repeat' (first | with_reducible assumption | with_reducible apply kept_ite | with_reducible apply kept_emit | with_reducible apply kept_holeBy | with_reducible apply kept_lmAccess)

theorem kept_execLmExternalAccess {q0 : Base} (m : Master) (addr : Nat) (n : Nat) (op : AccessOp) (s : State) (h_s : Kept q0 s) : KeptX q0 (execLmExternalAccess m addr n op s) := by
  unfold execLmExternalAccess
  repeat' (first | with_reducible assumption | with_reducible apply keptX_run | with_reducible apply kept_lmExternal | split)

theorem kept_execSyncExchange {q0 : Base} (m : Master) (obj : Nat) (off : Nat) (aop : Nat) (size : Nat) (operand : W64) (compare : W64) (s : State) (h_s : Kept q0 s) : KeptX q0 (execSyncExchange m obj off aop size operand compare s) := by
  unfold execSyncExchange
  repeat' (first | with_reducible assumption | with_reducible apply keptX_run | with_reducible apply kept_ite | with_reducible apply kept_emit | with_reducible apply kept_holeBy | with_reducible apply kept_syncAtomic)

end Sys2Proof.Machine
end

