-- ==== Sys2Proof/Laws/KeepIngress.lean ====
section
/-! SUPPORT. What the operations of Machine/Ingress.lean keep. -/

namespace Sys2Proof.Machine

theorem kept_ingress {q0 : Base} (s : State) (p : Nat) (f : Frame) (a : Nat) (n : Nat) (op : AccessOp) (h_s : Kept q0 s) : Kept q0 (State.ingress s p f a n op) := by
  unfold State.ingress
  repeat' (first | with_reducible assumption | with_reducible apply kept_access)

theorem kept_ingressHole {q0 : Base} (s : State) (p : Nat) (f : Frame) (code : Nat) (h_s : Kept q0 s) : Kept q0 (State.ingressHole s p f code) := by
  unfold State.ingressHole
  repeat' (first | with_reducible assumption | with_reducible apply kept_hole | with_reducible apply kept_tksRespond)

theorem kept_tksSyncDo {q0 : Base} (s : State) (p : Nat) (f : Frame) (h_s : Kept q0 s) : Kept q0 (State.tksSyncDo s p f) := by
  unfold State.tksSyncDo
  repeat' (first | with_reducible assumption | with_reducible apply kept_ingress | with_reducible apply kept_ingressHole | split | (with_reducible apply kept_same; simp only [↓kept_mk, ↓keptF_self]))

theorem kept_redDo {q0 : Base} (s : State) (p : Nat) (f : Frame) (h_s : Kept q0 s) : Kept q0 (State.redDo s p f) := by
  unfold State.redDo
  repeat' (first | with_reducible assumption | with_reducible intro _ | with_reducible apply kept_foldl | with_reducible apply kept_ite | with_reducible apply kept_accTry | with_reducible apply kept_cohReq | with_reducible apply kept_ingressHole | with_reducible apply kept_regSpend | (with_reducible apply kept_same; simp only [↓kept_mk, ↓keptF_self]))

theorem kept_settGrantDo {q0 : Base} (s : State) (f : Frame) (h_s : Kept q0 s) : Kept q0 (State.settGrantDo s f) := by
  unfold State.settGrantDo
  repeat' (first | with_reducible assumption | with_reducible apply kept_ite | with_reducible apply kept_tksRespond | split | (with_reducible apply kept_same; simp only [↓kept_mk, ↓keptF_self]))

theorem kept_settReturnDo {q0 : Base} (s : State) (f : Frame) (h_s : Kept q0 s) : Kept q0 (State.settReturnDo s f) := by
  unfold State.settReturnDo
  repeat' (first | with_reducible assumption | with_reducible apply kept_ite | with_reducible apply kept_tksRespond | (with_reducible apply kept_same; simp only [↓kept_mk, ↓keptF_self]))

theorem kept_settAccess {q0 : Base} (s : State) (p : Nat) (f : Frame) (op : AccessOp) (h_s : Kept q0 s) : Kept q0 (State.settAccess s p f op) := by
  unfold State.settAccess
  repeat' (first | with_reducible assumption | with_reducible apply kept_ite | with_reducible apply kept_ingress | with_reducible apply kept_tksRespond)

theorem kept_msgDo {q0 : Base} (s : State) (p : Nat) (f : Frame) (h_s : Kept q0 s) : Kept q0 (State.msgDo s p f) := by
  unfold State.msgDo
  repeat' (first | with_reducible assumption | with_reducible apply kept_msgIn | with_reducible apply kept_tksRespond | split | (with_reducible apply kept_of_full; with_reducible assumption) | (with_reducible apply kept_of_taken; with_reducible assumption))

theorem kept_reqDo {q0 : Base} (s : State) (p : Nat) (f : Frame) (h_s : Kept q0 s) : Kept q0 (State.reqDo s p f) := by
  unfold State.reqDo
  repeat' (first | with_reducible assumption | with_reducible apply kept_ingress | with_reducible apply kept_msgDo | with_reducible apply kept_redDo | with_reducible apply kept_settAccess | with_reducible apply kept_settGrantDo | with_reducible apply kept_settReturnDo | with_reducible apply kept_tksRespond | with_reducible apply kept_tksSyncDo | split)

theorem kept_reqHeld {q0 : Base} (s : State) (p : Nat) (f : Frame) (counted : Bool) (h_s : Kept q0 s) : Kept q0 (State.reqHeld s p f counted) := by
  unfold State.reqHeld
  repeat' (first | with_reducible assumption | with_reducible apply kept_ite | with_reducible apply kept_regCount | split)

theorem kept_reqGo {q0 : Base} (s : State) (p : Nat) (f : Frame) (h_s : Kept q0 s) : Kept q0 (State.reqGo s p f) := by
  unfold State.reqGo
  repeat' (first | with_reducible assumption | with_reducible apply kept_ite | with_reducible apply kept_bump | with_reducible apply kept_oweCells | with_reducible apply kept_reqDo | with_reducible apply kept_tksSendResp | split)

theorem kept_reqIn {q0 : Base} (s : State) (p : Nat) (f : Frame) (h_s : Kept q0 s) : Kept q0 (State.reqIn s p f) := by
  unfold State.reqIn
  repeat' (first | with_reducible assumption | with_reducible apply kept_ite | with_reducible apply kept_bump | with_reducible apply kept_memoCount | with_reducible apply kept_oweCells | with_reducible apply kept_reqGo | with_reducible apply kept_reqHeld | (with_reducible apply kept_same; simp only [↓kept_mk, ↓keptF_self]))

theorem kept_ingGo {q0 : Base}  : ∀ (i0 : Nat) (s : State), Kept q0 s → Kept q0 (State.ingGo s i0) := by
  intro i0
  induction i0 with
  | zero =>
    intros
    unfold State.ingGo
    repeat' with_reducible assumption
  | succ n ih =>
    intros
    unfold State.ingGo
    repeat' (first | with_reducible assumption | with_reducible intro _ | with_reducible apply kept_foldl | with_reducible apply kept_reqGo | with_reducible apply kept_reqHeld | with_reducible apply ih | split | (with_reducible apply kept_same; simp only [↓kept_mk, ↓keptF_self]))

theorem kept_accPump {q0 : Base} (s : State) (h_s : Kept q0 s) : Kept q0 (State.accPump s) := by
  unfold State.accPump
  repeat' (first | with_reducible assumption | with_reducible intro _ | with_reducible apply kept_foldl | with_reducible apply kept_accTry | with_reducible apply kept_duePump | with_reducible apply kept_ingGo | with_reducible apply kept_msgPump)

end Sys2Proof.Machine
end

