-- ==== Sys2Proof/Laws/KeepControl.lean ====
section
/-! SUPPORT. What the operations of Machine/Control.lean keep. -/

namespace Sys2Proof.Machine

theorem kept_ctlCmd {q0 : Base} (t : Nat) (b : W64) (op : Nat) (s : State) (eff : State → State) (h_s : Kept q0 s) (h_eff : ∀ s, Kept q0 s → Kept q0 (eff s)) : KeptX q0 (ctlCmd t b op s eff) := by
  unfold ctlCmd
  repeat' (first | with_reducible assumption | with_reducible apply kept_slot | with_reducible apply kept_slotCmd)

theorem kept_aluCmd {q0 : Base} (t : Nat) (b : W64) (op : Nat) (funct : Nat) (s : State) (eff : State → State) (h_s : Kept q0 s) (h_eff : ∀ s, Kept q0 s → Kept q0 (eff s)) : KeptX q0 (aluCmd t b op funct s eff) := by
  unfold aluCmd
  repeat' (first | with_reducible assumption | with_reducible apply kept_slot | with_reducible apply kept_slotCmd)

theorem kept_alu {q0 : Base} (s : State) (t : Nat) (c : Nat) (funct : Nat) (h_s : Kept q0 s) : Kept q0 (State.alu s t c funct) := by
  unfold State.alu
  repeat' (first | with_reducible assumption | with_reducible apply kept_next | with_reducible apply kept_setSr)

theorem kept_alui {q0 : Base} (s : State) (t : Nat) (c : Nat) (funct : Nat) (h_s : Kept q0 s) : Kept q0 (State.alui s t c funct) := by
  unfold State.alui
  repeat' (first | with_reducible assumption | with_reducible apply kept_next | with_reducible apply kept_setSr)

theorem kept_execNop {q0 : Base} (t : Nat) (b : W64) (s : State) (h_s : Kept q0 s) : KeptX q0 (execNop t b s) := by
  unfold execNop
  repeat' (first | with_reducible assumption | with_reducible intro _ | with_reducible apply kept_ctlCmd | with_reducible apply kept_next)

theorem kept_execAluAdd {q0 : Base} (t : Nat) (b : W64) (s : State) (h_s : Kept q0 s) : KeptX q0 (execAluAdd t b s) := by
  unfold execAluAdd
  repeat' (first | with_reducible assumption | with_reducible intro _ | with_reducible apply kept_alu | with_reducible apply kept_aluCmd)

theorem kept_execAluSub {q0 : Base} (t : Nat) (b : W64) (s : State) (h_s : Kept q0 s) : KeptX q0 (execAluSub t b s) := by
  unfold execAluSub
  repeat' (first | with_reducible assumption | with_reducible intro _ | with_reducible apply kept_alu | with_reducible apply kept_aluCmd)

theorem kept_execAluAnd {q0 : Base} (t : Nat) (b : W64) (s : State) (h_s : Kept q0 s) : KeptX q0 (execAluAnd t b s) := by
  unfold execAluAnd
  repeat' (first | with_reducible assumption | with_reducible intro _ | with_reducible apply kept_alu | with_reducible apply kept_aluCmd)

theorem kept_execAluOr {q0 : Base} (t : Nat) (b : W64) (s : State) (h_s : Kept q0 s) : KeptX q0 (execAluOr t b s) := by
  unfold execAluOr
  repeat' (first | with_reducible assumption | with_reducible intro _ | with_reducible apply kept_alu | with_reducible apply kept_aluCmd)

theorem kept_execAluXor {q0 : Base} (t : Nat) (b : W64) (s : State) (h_s : Kept q0 s) : KeptX q0 (execAluXor t b s) := by
  unfold execAluXor
  repeat' (first | with_reducible assumption | with_reducible intro _ | with_reducible apply kept_alu | with_reducible apply kept_aluCmd)

theorem kept_execAluShl {q0 : Base} (t : Nat) (b : W64) (s : State) (h_s : Kept q0 s) : KeptX q0 (execAluShl t b s) := by
  unfold execAluShl
  repeat' (first | with_reducible assumption | with_reducible intro _ | with_reducible apply kept_alu | with_reducible apply kept_aluCmd)

theorem kept_execAluShr {q0 : Base} (t : Nat) (b : W64) (s : State) (h_s : Kept q0 s) : KeptX q0 (execAluShr t b s) := by
  unfold execAluShr
  repeat' (first | with_reducible assumption | with_reducible intro _ | with_reducible apply kept_alu | with_reducible apply kept_aluCmd)

theorem kept_execAluSra {q0 : Base} (t : Nat) (b : W64) (s : State) (h_s : Kept q0 s) : KeptX q0 (execAluSra t b s) := by
  unfold execAluSra
  repeat' (first | with_reducible assumption | with_reducible intro _ | with_reducible apply kept_alu | with_reducible apply kept_aluCmd)

theorem kept_execAluMul {q0 : Base} (t : Nat) (b : W64) (s : State) (h_s : Kept q0 s) : KeptX q0 (execAluMul t b s) := by
  unfold execAluMul
  repeat' (first | with_reducible assumption | with_reducible intro _ | with_reducible apply kept_alu | with_reducible apply kept_aluCmd)

theorem kept_execAluSlt {q0 : Base} (t : Nat) (b : W64) (s : State) (h_s : Kept q0 s) : KeptX q0 (execAluSlt t b s) := by
  unfold execAluSlt
  repeat' (first | with_reducible assumption | with_reducible intro _ | with_reducible apply kept_alu | with_reducible apply kept_aluCmd)

theorem kept_execAluSltu {q0 : Base} (t : Nat) (b : W64) (s : State) (h_s : Kept q0 s) : KeptX q0 (execAluSltu t b s) := by
  unfold execAluSltu
  repeat' (first | with_reducible assumption | with_reducible intro _ | with_reducible apply kept_alu | with_reducible apply kept_aluCmd)

theorem kept_execAluMin {q0 : Base} (t : Nat) (b : W64) (s : State) (h_s : Kept q0 s) : KeptX q0 (execAluMin t b s) := by
  unfold execAluMin
  repeat' (first | with_reducible assumption | with_reducible intro _ | with_reducible apply kept_alu | with_reducible apply kept_aluCmd)

theorem kept_execAluMax {q0 : Base} (t : Nat) (b : W64) (s : State) (h_s : Kept q0 s) : KeptX q0 (execAluMax t b s) := by
  unfold execAluMax
  repeat' (first | with_reducible assumption | with_reducible intro _ | with_reducible apply kept_alu | with_reducible apply kept_aluCmd)

theorem kept_execAluMov {q0 : Base} (t : Nat) (b : W64) (s : State) (h_s : Kept q0 s) : KeptX q0 (execAluMov t b s) := by
  unfold execAluMov
  repeat' (first | with_reducible assumption | with_reducible intro _ | with_reducible apply kept_alu | with_reducible apply kept_aluCmd)

theorem kept_execAluiAdd {q0 : Base} (t : Nat) (b : W64) (s : State) (h_s : Kept q0 s) : KeptX q0 (execAluiAdd t b s) := by
  unfold execAluiAdd
  repeat' (first | with_reducible assumption | with_reducible intro _ | with_reducible apply kept_aluCmd | with_reducible apply kept_alui)

theorem kept_execAluiSub {q0 : Base} (t : Nat) (b : W64) (s : State) (h_s : Kept q0 s) : KeptX q0 (execAluiSub t b s) := by
  unfold execAluiSub
  repeat' (first | with_reducible assumption | with_reducible intro _ | with_reducible apply kept_aluCmd | with_reducible apply kept_alui)

theorem kept_execAluiAnd {q0 : Base} (t : Nat) (b : W64) (s : State) (h_s : Kept q0 s) : KeptX q0 (execAluiAnd t b s) := by
  unfold execAluiAnd
  repeat' (first | with_reducible assumption | with_reducible intro _ | with_reducible apply kept_aluCmd | with_reducible apply kept_alui)

theorem kept_execAluiOr {q0 : Base} (t : Nat) (b : W64) (s : State) (h_s : Kept q0 s) : KeptX q0 (execAluiOr t b s) := by
  unfold execAluiOr
  repeat' (first | with_reducible assumption | with_reducible intro _ | with_reducible apply kept_aluCmd | with_reducible apply kept_alui)

theorem kept_execAluiXor {q0 : Base} (t : Nat) (b : W64) (s : State) (h_s : Kept q0 s) : KeptX q0 (execAluiXor t b s) := by
  unfold execAluiXor
  repeat' (first | with_reducible assumption | with_reducible intro _ | with_reducible apply kept_aluCmd | with_reducible apply kept_alui)

theorem kept_execAluiShl {q0 : Base} (t : Nat) (b : W64) (s : State) (h_s : Kept q0 s) : KeptX q0 (execAluiShl t b s) := by
  unfold execAluiShl
  repeat' (first | with_reducible assumption | with_reducible intro _ | with_reducible apply kept_aluCmd | with_reducible apply kept_alui)

theorem kept_execAluiShr {q0 : Base} (t : Nat) (b : W64) (s : State) (h_s : Kept q0 s) : KeptX q0 (execAluiShr t b s) := by
  unfold execAluiShr
  repeat' (first | with_reducible assumption | with_reducible intro _ | with_reducible apply kept_aluCmd | with_reducible apply kept_alui)

theorem kept_execAluiSra {q0 : Base} (t : Nat) (b : W64) (s : State) (h_s : Kept q0 s) : KeptX q0 (execAluiSra t b s) := by
  unfold execAluiSra
  repeat' (first | with_reducible assumption | with_reducible intro _ | with_reducible apply kept_aluCmd | with_reducible apply kept_alui)

theorem kept_execAluiMul {q0 : Base} (t : Nat) (b : W64) (s : State) (h_s : Kept q0 s) : KeptX q0 (execAluiMul t b s) := by
  unfold execAluiMul
  repeat' (first | with_reducible assumption | with_reducible intro _ | with_reducible apply kept_aluCmd | with_reducible apply kept_alui)

theorem kept_execAluiSlt {q0 : Base} (t : Nat) (b : W64) (s : State) (h_s : Kept q0 s) : KeptX q0 (execAluiSlt t b s) := by
  unfold execAluiSlt
  repeat' (first | with_reducible assumption | with_reducible intro _ | with_reducible apply kept_aluCmd | with_reducible apply kept_alui)

theorem kept_execAluiSltu {q0 : Base} (t : Nat) (b : W64) (s : State) (h_s : Kept q0 s) : KeptX q0 (execAluiSltu t b s) := by
  unfold execAluiSltu
  repeat' (first | with_reducible assumption | with_reducible intro _ | with_reducible apply kept_aluCmd | with_reducible apply kept_alui)

theorem kept_execAluiMin {q0 : Base} (t : Nat) (b : W64) (s : State) (h_s : Kept q0 s) : KeptX q0 (execAluiMin t b s) := by
  unfold execAluiMin
  repeat' (first | with_reducible assumption | with_reducible intro _ | with_reducible apply kept_aluCmd | with_reducible apply kept_alui)

theorem kept_execAluiMax {q0 : Base} (t : Nat) (b : W64) (s : State) (h_s : Kept q0 s) : KeptX q0 (execAluiMax t b s) := by
  unfold execAluiMax
  repeat' (first | with_reducible assumption | with_reducible intro _ | with_reducible apply kept_aluCmd | with_reducible apply kept_alui)

theorem kept_execAluiMov {q0 : Base} (t : Nat) (b : W64) (s : State) (h_s : Kept q0 s) : KeptX q0 (execAluiMov t b s) := by
  unfold execAluiMov
  repeat' (first | with_reducible assumption | with_reducible intro _ | with_reducible apply kept_aluCmd | with_reducible apply kept_alui)

theorem kept_execLil {q0 : Base} (t : Nat) (b : W64) (s : State) (h_s : Kept q0 s) : KeptX q0 (execLil t b s) := by
  unfold execLil
  repeat' (first | with_reducible assumption | with_reducible intro _ | with_reducible apply kept_ctlCmd | with_reducible apply kept_next | with_reducible apply kept_setSr)

theorem kept_execLis {q0 : Base} (t : Nat) (b : W64) (s : State) (h_s : Kept q0 s) : KeptX q0 (execLis t b s) := by
  unfold execLis
  repeat' (first | with_reducible assumption | with_reducible intro _ | with_reducible apply kept_ctlCmd | with_reducible apply kept_next | with_reducible apply kept_setSr)

theorem kept_execAddi {q0 : Base} (t : Nat) (b : W64) (s : State) (h_s : Kept q0 s) : KeptX q0 (execAddi t b s) := by
  unfold execAddi
  repeat' (first | with_reducible assumption | with_reducible intro _ | with_reducible apply kept_ctlCmd | with_reducible apply kept_next | with_reducible apply kept_setSr)

theorem kept_ldDo {q0 : Base} (s : State) (t : Nat) (c : Nat) (h_s : Kept q0 s) : Kept q0 (State.ldDo s t c) := by
  unfold State.ldDo
  repeat' (first | with_reducible assumption | with_reducible apply kept_ite | with_reducible apply kept_kill | with_reducible apply kept_lmMeetAt | with_reducible apply kept_next | with_reducible apply kept_served | with_reducible apply kept_setSr)

theorem kept_execLd {q0 : Base} (t : Nat) (b : W64) (s : State) (h_s : Kept q0 s) : KeptX q0 (execLd t b s) := by
  unfold execLd
  repeat' (first | with_reducible assumption | with_reducible intro _ | with_reducible apply kept_ctlCmd | with_reducible apply kept_ldDo)

theorem kept_stDo {q0 : Base} (s : State) (t : Nat) (c : Nat) (h_s : Kept q0 s) : Kept q0 (State.stDo s t c) := by
  unfold State.stDo
  repeat' (first | with_reducible assumption | with_reducible apply kept_ite | with_reducible apply kept_kill | with_reducible apply kept_next | with_reducible apply kept_seqStore | with_reducible apply kept_served)

theorem kept_execSt {q0 : Base} (t : Nat) (b : W64) (s : State) (h_s : Kept q0 s) : KeptX q0 (execSt t b s) := by
  unfold execSt
  repeat' (first | with_reducible assumption | with_reducible intro _ | with_reducible apply kept_ctlCmd | with_reducible apply kept_stDo)

theorem kept_missPut {q0 : Base} (s : State) (t : Nat) (key : Nat) (m : Miss) (h_s : Kept q0 s) : Kept q0 (State.missPut s t key m) := by
  unfold State.missPut
  repeat' (first | with_reducible assumption | with_reducible apply kept_modTile | with_reducible apply kept_tlbHold | with_reducible apply kept_tlbRefRead)

theorem kept_gHoleKill {q0 : Base} (s : State) (t : Nat) (va : Nat) (code : Nat) (g : Nat) (h_s : Kept q0 s) : Kept q0 (State.gHoleKill s t va code g) := by
  unfold State.gHoleKill
  repeat' (first | with_reducible assumption | with_reducible apply kept_hole | with_reducible apply kept_kill)

theorem kept_tileAskOut {q0 : Base} (s : State) (t : Nat) (key : Nat) (va : Nat) (g : Nat) (m : Miss) (h_s : Kept q0 s) : Kept q0 (State.tileAskOut s t key va g m) := by
  unfold State.tileAskOut
  repeat' (first | with_reducible assumption | with_reducible apply kept_ite | with_reducible apply kept_gHoleKill | with_reducible apply kept_hostAsk | with_reducible apply kept_missPut | with_reducible apply kept_tksAsk | split | (with_reducible apply kept_of_sent; with_reducible assumption))

theorem kept_cacheLoad {q0 : Base} (s : State) (t : Nat) (a : Nat) (h_s : Kept q0 s) : Kept q0 (State.cacheLoad s t a).2 := by
  unfold State.cacheLoad
  repeat' (first | with_reducible assumption | with_reducible apply kept_bump | with_reducible apply kept_modTile | split)

theorem kept_gldAt {q0 : Base} (s : State) (t : Nat) (sd : Nat) (va : Nat) (key : Nat) (g : Nat) (nc : Bool) (h_s : Kept q0 s) : Kept q0 (State.gldAt s t sd va key g nc) := by
  unfold State.gldAt
  repeat' (first | with_reducible assumption | with_reducible apply kept_ite | with_reducible apply kept_bump | with_reducible apply kept_cacheLoad | with_reducible apply kept_gHoleKill | with_reducible apply kept_kill | with_reducible apply kept_lmAccess | with_reducible apply kept_missPut | with_reducible apply kept_next | with_reducible apply kept_regAccess | with_reducible apply kept_setSr | with_reducible apply kept_tileAskOut | split | (with_reducible apply kept_of_snd; with_reducible assumption) | (with_reducible apply kept_of_some2; with_reducible assumption))

theorem kept_cacheStore {q0 : Base} (s : State) (t : Nat) (a : Nat) (v : W32) (h_s : Kept q0 s) : Kept q0 (State.cacheStore s t a v) := by
  unfold State.cacheStore
  repeat' (first | with_reducible assumption | with_reducible apply kept_modTile)

theorem kept_gstAt {q0 : Base} (s : State) (t : Nat) (va : Nat) (key : Nat) (g : Nat) (v : W32) (h_s : Kept q0 s) : Kept q0 (State.gstAt s t va key g v) := by
  unfold State.gstAt
  repeat' (first | with_reducible assumption | with_reducible apply kept_ite | with_reducible apply kept_cacheStore | with_reducible apply kept_gHoleKill | with_reducible apply kept_lmAccess | with_reducible apply kept_missPut | with_reducible apply kept_next | with_reducible apply kept_regAccess | with_reducible apply kept_tileAskOut | split | (with_reducible apply kept_of_some2; with_reducible assumption))

theorem kept_gAccess {q0 : Base} (s : State) (t : Nat) (c : Nat) (store : Bool) (h_s : Kept q0 s) : Kept q0 (State.gAccess s t c store) := by
  unfold State.gAccess
  repeat' (first | with_reducible assumption | with_reducible apply kept_ite | with_reducible apply kept_gldAt | with_reducible apply kept_gstAt | with_reducible apply kept_kill | with_reducible apply kept_lookupDone | split)

theorem kept_execGld {q0 : Base} (t : Nat) (b : W64) (s : State) (h_s : Kept q0 s) : KeptX q0 (execGld t b s) := by
  unfold execGld
  repeat' (first | with_reducible assumption | with_reducible intro _ | with_reducible apply kept_ctlCmd | with_reducible apply kept_gAccess)

theorem kept_execGst {q0 : Base} (t : Nat) (b : W64) (s : State) (h_s : Kept q0 s) : KeptX q0 (execGst t b s) := by
  unfold execGst
  repeat' (first | with_reducible assumption | with_reducible intro _ | with_reducible apply kept_ctlCmd | with_reducible apply kept_gAccess)

theorem kept_execBrz {q0 : Base} (t : Nat) (b : W64) (s : State) (h_s : Kept q0 s) : KeptX q0 (execBrz t b s) := by
  unfold execBrz
  repeat' (first | with_reducible assumption | with_reducible intro _ | with_reducible apply kept_ite | with_reducible apply kept_branch | with_reducible apply kept_ctlCmd | with_reducible apply kept_next)

theorem kept_execBrnz {q0 : Base} (t : Nat) (b : W64) (s : State) (h_s : Kept q0 s) : KeptX q0 (execBrnz t b s) := by
  unfold execBrnz
  repeat' (first | with_reducible assumption | with_reducible intro _ | with_reducible apply kept_ite | with_reducible apply kept_branch | with_reducible apply kept_ctlCmd | with_reducible apply kept_next)

theorem kept_execJmp {q0 : Base} (t : Nat) (b : W64) (s : State) (h_s : Kept q0 s) : KeptX q0 (execJmp t b s) := by
  unfold execJmp
  repeat' (first | with_reducible assumption | with_reducible intro _ | with_reducible apply kept_branch | with_reducible apply kept_ctlCmd)

theorem kept_loopGo {q0 : Base} (s : State) (t : Nat) (lvl : Nat) (count : Nat) (n : Nat) (h_s : Kept q0 s) : Kept q0 (State.loopGo s t lvl count n) := by
  unfold State.loopGo
  repeat' (first | with_reducible assumption | with_reducible apply kept_ite | with_reducible apply kept_bset | with_reducible apply kept_fall | with_reducible apply kept_finishB | with_reducible apply kept_modTile | with_reducible apply kept_set | with_reducible apply kept_slotKill)

theorem kept_execLoopOp {q0 : Base} (t : Nat) (b : W64) (s : State) (h_s : Kept q0 s) : KeptX q0 (execLoopOp t b s) := by
  unfold execLoopOp
  repeat' (first | with_reducible assumption | with_reducible intro _ | with_reducible apply kept_ctlCmd | with_reducible apply kept_loopGo)

theorem kept_execLoopi {q0 : Base} (t : Nat) (b : W64) (s : State) (h_s : Kept q0 s) : KeptX q0 (execLoopi t b s) := by
  unfold execLoopi
  repeat' (first | with_reducible assumption | with_reducible intro _ | with_reducible apply kept_ctlCmd | with_reducible apply kept_loopGo)

theorem kept_sigDo {q0 : Base} (s : State) (t : Nat) (obj : Nat) (v : W64) (h_s : Kept q0 s) : Kept q0 (State.sigDo s t obj v) := by
  unfold State.sigDo
  repeat' (first | with_reducible assumption | with_reducible apply kept_ite | with_reducible apply kept_modTile | with_reducible apply kept_next | with_reducible apply kept_sigFlush | with_reducible apply kept_slotKill)

theorem kept_execSig {q0 : Base} (t : Nat) (b : W64) (s : State) (h_s : Kept q0 s) : KeptX q0 (execSig t b s) := by
  unfold execSig
  repeat' (first | with_reducible assumption | with_reducible intro _ | with_reducible apply kept_ctlCmd | with_reducible apply kept_sigDo)

theorem kept_execSigi {q0 : Base} (t : Nat) (b : W64) (s : State) (h_s : Kept q0 s) : KeptX q0 (execSigi t b s) := by
  unfold execSigi
  repeat' (first | with_reducible assumption | with_reducible intro _ | with_reducible apply kept_ctlCmd | with_reducible apply kept_sigDo)

theorem kept_execWaitOp {q0 : Base} (t : Nat) (b : W64) (s : State) (h_s : Kept q0 s) : KeptX q0 (execWaitOp t b s) := by
  unfold execWaitOp
  repeat' (first | with_reducible assumption | with_reducible intro _ | with_reducible apply kept_ctlCmd | with_reducible apply kept_next)

theorem kept_relDo {q0 : Base} (s : State) (t : Nat) (p : Nat) (n : Nat) (h_s : Kept q0 s) : Kept q0 (State.relDo s t p n) := by
  unfold State.relDo
  repeat' (first | with_reducible assumption | with_reducible apply kept_ite | with_reducible apply kept_creditBack | with_reducible apply kept_next | with_reducible apply kept_portMet | with_reducible apply kept_set | with_reducible apply kept_slotKill | split)

theorem kept_execRel {q0 : Base} (t : Nat) (b : W64) (s : State) (h_s : Kept q0 s) : KeptX q0 (execRel t b s) := by
  unfold execRel
  repeat' (first | with_reducible assumption | with_reducible intro _ | with_reducible apply kept_ctlCmd | with_reducible apply kept_relDo)

theorem kept_execFence {q0 : Base} (t : Nat) (b : W64) (s : State) (h_s : Kept q0 s) : KeptX q0 (execFence t b s) := by
  unfold execFence
  repeat' (first | with_reducible assumption | with_reducible intro _ | with_reducible apply kept_ctlCmd | with_reducible apply kept_next)

theorem kept_execTrr {q0 : Base} (t : Nat) (b : W64) (s : State) (h_s : Kept q0 s) : KeptX q0 (execTrr t b s) := by
  unfold execTrr
  repeat' (first | with_reducible assumption | with_reducible intro _ | with_reducible apply kept_ctlCmd | with_reducible apply kept_next | with_reducible apply kept_regRead | with_reducible apply kept_setSr)

theorem kept_execTrw {q0 : Base} (t : Nat) (b : W64) (s : State) (h_s : Kept q0 s) : KeptX q0 (execTrw t b s) := by
  unfold execTrw
  repeat' (first | with_reducible assumption | with_reducible intro _ | with_reducible apply kept_ctlCmd | with_reducible apply kept_next | with_reducible apply kept_regWrite)

theorem kept_execCinv {q0 : Base} (t : Nat) (b : W64) (s : State) (h_s : Kept q0 s) : KeptX q0 (execCinv t b s) := by
  unfold execCinv
  repeat' (first | with_reducible assumption | with_reducible intro _ | with_reducible apply kept_ctlCmd | with_reducible apply kept_modTile | with_reducible apply kept_next)

theorem kept_endDo {q0 : Base} (s : State) (t : Nat) (h_s : Kept q0 s) : Kept q0 (State.endDo s t) := by
  unfold State.endDo
  repeat' (first | with_reducible assumption | with_reducible apply kept_bump | with_reducible apply kept_closeB | with_reducible apply kept_set)

theorem kept_execEndOp {q0 : Base} (t : Nat) (b : W64) (s : State) (h_s : Kept q0 s) : KeptX q0 (execEndOp t b s) := by
  unfold execEndOp
  repeat' (first | with_reducible assumption | with_reducible intro _ | with_reducible apply kept_ctlCmd | with_reducible apply kept_endDo)

theorem kept_tileFill {q0 : Base} (s : State) (t : Nat) (l : Nat) (h_s : Kept q0 s) : Kept q0 (State.tileFill s t l) := by
  unfold State.tileFill
  repeat' (first | with_reducible assumption | with_reducible apply kept_fillDone | split | (with_reducible apply kept_same; simp only [↓kept_mk, ↓keptF_self]))

theorem kept_execTileCacheFill {q0 : Base} (t : Nat) (line : Nat) (s : State) (h_s : Kept q0 s) : KeptX q0 (execTileCacheFill t line s) := by
  unfold execTileCacheFill
  repeat' (first | with_reducible assumption | with_reducible apply keptX_run | with_reducible apply kept_tileFill)

end Sys2Proof.Machine
end

