-- ==== Sys2Proof/Laws/KeepCohCmd.lean ====
section
/-! SUPPORT. What the operations of Machine/CohCmd.lean keep. -/

namespace Sys2Proof.Machine

theorem kept_cohTail {q0 : Base} (s : State) (h_s : Kept q0 s) : Kept q0 (State.cohTail s) := by
  unfold State.cohTail
  repeat' (first | with_reducible assumption | with_reducible apply kept_accPump | with_reducible apply kept_jobEnd | with_reducible apply kept_regPump)

theorem kept_tileReq {q0 : Base} (s : State) (t : Nat) (l : Nat) (k : Nat) (tc : Nat) (rk : ReqK) (p : Miss → Bool) (h_s : Kept q0 s) : Kept q0 (State.tileReq s t l k tc rk p) := by
  unfold State.tileReq
  repeat' (first | with_reducible assumption | with_reducible apply kept_ite | with_reducible apply kept_cohReq | with_reducible apply kept_missHole | with_reducible apply kept_modTile | with_reducible apply kept_regCount | with_reducible apply kept_regSpend | with_reducible apply kept_routerRead | with_reducible apply kept_siteAsk | split | (with_reducible apply kept_same; simp only [↓kept_mk, ↓keptF_self]))

theorem kept_siteErr {q0 : Base} (s : State) (n : Nat) (r : CReq) (reason : Nat) (h_s : Kept q0 s) : Kept q0 (State.siteErr s n r reason) := by
  unfold State.siteErr
  repeat' (first | with_reducible assumption | with_reducible apply kept_toAgent)

theorem kept_siteHole {q0 : Base} (s : State) (n : Nat) (r : CReq) (code : Nat) (g : Nat) (reason : Nat) (h_s : Kept q0 s) : Kept q0 (State.siteHole s n r code g reason) := by
  unfold State.siteHole
  repeat' (first | with_reducible assumption | with_reducible apply kept_hole | with_reducible apply kept_siteErr)

theorem kept_siteWrite {q0 : Base} (s : State) (n : Nat) (r : CReq) (g : Nat) (h_s : Kept q0 s) : Kept q0 (State.siteWrite s n r g) := by
  unfold State.siteWrite
  repeat' (first | with_reducible assumption | with_reducible intro _ | with_reducible apply kept_foldl | with_reducible apply kept_accTry | with_reducible apply kept_access | (with_reducible apply kept_same; simp only [↓kept_mk, ↓keptF_self]))

theorem kept_sitePass {q0 : Base} (s : State) (n : Nat) (m : Nat) (r : CReq) (h_s : Kept q0 s) : Kept q0 (State.sitePass s n m r) := by
  unfold State.sitePass
  repeat' (first | with_reducible assumption | with_reducible apply kept_ite | with_reducible apply kept_siteSend | split | (with_reducible apply kept_same; simp only [↓kept_mk, ↓keptF_self]))

theorem kept_siteFar {q0 : Base} (s : State) (n : Nat) (r : CReq) (g : Nat) (h_s : Kept q0 s) : Kept q0 (State.siteFar s n r g) := by
  unfold State.siteFar
  repeat' (first | with_reducible assumption | with_reducible apply kept_ite | with_reducible apply kept_access | with_reducible apply kept_siteHole | with_reducible apply kept_sitePass | with_reducible apply kept_siteWrite | with_reducible apply kept_toAgent | split)

theorem kept_siteReq {q0 : Base} (s : State) (n : Nat) (l : Nat) (r : CReq) (h_s : Kept q0 s) : Kept q0 (State.siteReq s n l r) := by
  unfold State.siteReq
  repeat' (first | with_reducible assumption | with_reducible apply kept_ite | with_reducible apply kept_cohReq | with_reducible apply kept_fence | with_reducible apply kept_log' | with_reducible apply kept_regOne | with_reducible apply kept_siteErr | with_reducible apply kept_siteFar | with_reducible apply kept_siteHole | split)

theorem kept_hostReq {q0 : Base} (s : State) (l : Nat) (r : CReq) (h_s : Kept q0 s) : Kept q0 (State.hostReq s l r) := by
  unfold State.hostReq
  repeat' (first | with_reducible assumption | with_reducible apply kept_ite | with_reducible apply kept_regOne)

theorem kept_request {q0 : Base} (s : State) (a : Agent) (l : Nat) (r : CReq) (p : Miss → Bool) (h_s : Kept q0 s) : Kept q0 (State.request s a l r p) := by
  unfold State.request
  repeat' (first | with_reducible assumption | with_reducible apply kept_ite | with_reducible apply kept_hostReq | with_reducible apply kept_siteReq | with_reducible apply kept_tileReq | split)

theorem kept_execRdShared {q0 : Base} (a : Agent) (line : Nat) (tag : Nat) (tc : Nat) (s : State) (h_s : Kept q0 s) : KeptX q0 (execRdShared a line tag tc s) := by
  unfold execRdShared
  repeat' (first | with_reducible assumption | with_reducible apply keptX_run | with_reducible apply kept_cohTail | with_reducible apply kept_request)

theorem kept_execRdUnique {q0 : Base} (a : Agent) (line : Nat) (tag : Nat) (tc : Nat) (s : State) (h_s : Kept q0 s) : KeptX q0 (execRdUnique a line tag tc s) := by
  unfold execRdUnique
  repeat' (first | with_reducible assumption | with_reducible apply keptX_run | with_reducible apply kept_cohTail | with_reducible apply kept_request)

theorem kept_execUpgrade {q0 : Base} (a : Agent) (line : Nat) (tag : Nat) (tc : Nat) (s : State) (h_s : Kept q0 s) : KeptX q0 (execUpgrade a line tag tc s) := by
  unfold execUpgrade
  repeat' (first | with_reducible assumption | with_reducible apply keptX_run | with_reducible apply kept_cohTail | with_reducible apply kept_request)

theorem kept_execRdNoAlloc {q0 : Base} (a : Agent) (line : Nat) (tag : Nat) (tc : Nat) (s : State) (h_s : Kept q0 s) : KeptX q0 (execRdNoAlloc a line tag tc s) := by
  unfold execRdNoAlloc
  repeat' (first | with_reducible assumption | with_reducible apply keptX_run | with_reducible apply kept_cohTail | with_reducible apply kept_request)

theorem kept_execWrFull {q0 : Base} (a : Agent) (line : Nat) (tag : Nat) (tc : Nat) (data : BitVec 1024) (poison : Bool) (s : State) (h_s : Kept q0 s) : KeptX q0 (execWrFull a line tag tc data poison s) := by
  unfold execWrFull
  repeat' (first | with_reducible assumption | with_reducible apply keptX_run | with_reducible apply kept_cohTail | with_reducible apply kept_request)

theorem kept_execWrPart {q0 : Base} (a : Agent) (line : Nat) (tag : Nat) (tc : Nat) (mask : BitVec 128) (data : BitVec 1024) (poison : Bool) (s : State) (h_s : Kept q0 s) : KeptX q0 (execWrPart a line tag tc mask data poison s) := by
  unfold execWrPart
  repeat' (first | with_reducible assumption | with_reducible apply keptX_run | with_reducible apply kept_cohTail | with_reducible apply kept_request)

theorem kept_execAtomicOp {q0 : Base} (a : Agent) (addr : Nat) (tag : Nat) (tc : Nat) (aop : Nat) (size : Nat) (operand : W64) (compare : W64) (s : State) (h_s : Kept q0 s) : KeptX q0 (execAtomicOp a addr tag tc aop size operand compare s) := by
  unfold execAtomicOp
  repeat' (first | with_reducible assumption | with_reducible apply keptX_run | with_reducible apply kept_cohTail | with_reducible apply kept_request)

theorem kept_execEvictClean {q0 : Base} (a : Agent) (line : Nat) (tag : Nat) (s : State) (h_s : Kept q0 s) : KeptX q0 (execEvictClean a line tag s) := by
  unfold execEvictClean
  repeat' (first | with_reducible assumption | with_reducible apply keptX_run | with_reducible apply kept_cohTail | with_reducible apply kept_request)

theorem kept_execEvictDirty {q0 : Base} (a : Agent) (line : Nat) (tag : Nat) (data : BitVec 1024) (poison : Bool) (s : State) (h_s : Kept q0 s) : KeptX q0 (execEvictDirty a line tag data poison s) := by
  unfold execEvictDirty
  repeat' (first | with_reducible assumption | with_reducible apply keptX_run | with_reducible apply kept_cohTail | with_reducible apply kept_request)

theorem kept_execDatWr {q0 : Base} (a : Agent) (line : Nat) (tag : Nat) (mask : BitVec 128) (data : BitVec 1024) (poison : Bool) (s : State) (h_s : Kept q0 s) : KeptX q0 (execDatWr a line tag mask data poison s) := by
  unfold execDatWr
  repeat' (first | with_reducible assumption | with_reducible apply keptX_run | (with_reducible apply kept_same; simp only [↓kept_mk, ↓keptF_self]))

theorem kept_chipSnoop {q0 : Base} (s : State) (m : Nat) (l : Nat) (tag : Nat) (kind : Nat) (target : Option Nat) (h_s : Kept q0 s) : Kept q0 (State.chipSnoop s m l tag kind target) := by
  unfold State.chipSnoop
  repeat' (first | with_reducible assumption | with_reducible apply kept_ite | with_reducible apply kept_snpInvDone | with_reducible apply kept_toAgent | with_reducible apply kept_toHome | split | (with_reducible apply kept_same; simp only [↓kept_mk, ↓keptF_self]))

theorem kept_execSnpInv {q0 : Base} (site : Nat) (line : Nat) (tag : Nat) (target : Option Nat) (s : State) (h_s : Kept q0 s) : KeptX q0 (execSnpInv site line tag target s) := by
  unfold execSnpInv
  repeat' (first | with_reducible assumption | with_reducible apply keptX_run | with_reducible apply kept_chipSnoop)

theorem kept_execSnpShare {q0 : Base} (site : Nat) (line : Nat) (tag : Nat) (target : Option Nat) (s : State) (h_s : Kept q0 s) : KeptX q0 (execSnpShare site line tag target s) := by
  unfold execSnpShare
  repeat' (first | with_reducible assumption | with_reducible apply keptX_run | with_reducible apply kept_chipSnoop)

theorem kept_execSnpCur {q0 : Base} (site : Nat) (line : Nat) (tag : Nat) (target : Option Nat) (s : State) (h_s : Kept q0 s) : KeptX q0 (execSnpCur site line tag target s) := by
  unfold execSnpCur
  repeat' (first | with_reducible assumption | with_reducible apply keptX_run | with_reducible apply kept_chipSnoop)

theorem kept_snpAns {q0 : Base} (s : State) (a : Agent) (l : Nat) (kind : Nat) (data : List Byte) (poison : Bool) (here : State → State) (h_s : Kept q0 s) (h_here : ∀ s, Kept q0 s → Kept q0 (here s)) : Kept q0 (State.snpAns s a l kind data poison here) := by
  unfold State.snpAns
  repeat' (first | with_reducible assumption | with_reducible apply kept_toHome | with_reducible apply h_here | split)

theorem kept_execRspI {q0 : Base} (a : Agent) (line : Nat) (s : State) (h_s : Kept q0 s) : KeptX q0 (execRspI a line s) := by
  unfold execRspI
  repeat' (first | with_reducible assumption | with_reducible intro _ | with_reducible apply keptX_run | with_reducible apply kept_cohTail | with_reducible apply kept_rspI | with_reducible apply kept_snpAns)

theorem kept_execRspS {q0 : Base} (a : Agent) (line : Nat) (s : State) (h_s : Kept q0 s) : KeptX q0 (execRspS a line s) := by
  unfold execRspS
  repeat' (first | with_reducible assumption | with_reducible intro _ | with_reducible apply keptX_run | with_reducible apply kept_cohTail | with_reducible apply kept_rspS | with_reducible apply kept_snpAns)

theorem kept_execRspFwd {q0 : Base} (a : Agent) (line : Nat) (s : State) (h_s : Kept q0 s) : KeptX q0 (execRspFwd a line s) := by
  unfold execRspFwd
  repeat' (first | with_reducible assumption | with_reducible intro _ | with_reducible apply keptX_run | with_reducible apply kept_cohTail | with_reducible apply kept_rspFwd | with_reducible apply kept_snpAns)

theorem kept_execDatWb {q0 : Base} (a : Agent) (line : Nat) (data : BitVec 1024) (poison : Bool) (s : State) (h_s : Kept q0 s) : KeptX q0 (execDatWb a line data poison s) := by
  unfold execDatWb
  repeat' (first | with_reducible assumption | with_reducible intro _ | with_reducible apply keptX_run | with_reducible apply kept_datWb | with_reducible apply kept_snpAns)

theorem kept_execDatCur {q0 : Base} (a : Agent) (line : Nat) (data : BitVec 1024) (poison : Bool) (s : State) (h_s : Kept q0 s) : KeptX q0 (execDatCur a line data poison s) := by
  unfold execDatCur
  repeat' (first | with_reducible assumption | with_reducible intro _ | with_reducible apply keptX_run | with_reducible apply kept_cohTail | with_reducible apply kept_datCur | with_reducible apply kept_snpAns)

theorem kept_execBenchInvalidation {q0 : Base} (bench : Nat) (line : Nat) (writer : Option Nat) (s : State) (h_s : Kept q0 s) : KeptX q0 (execBenchInvalidation bench line writer s) := by
  unfold execBenchInvalidation
  repeat' (first | with_reducible assumption | with_reducible apply keptX_run | with_reducible apply kept_ite | with_reducible apply kept_benchInv | with_reducible apply kept_cohTail | with_reducible apply kept_snpInvDone)

theorem kept_execLineQueueResume {q0 : Base} (line : Nat) (s : State) (h_s : Kept q0 s) : KeptX q0 (execLineQueueResume line s) := by
  unfold execLineQueueResume
  repeat' (first | with_reducible assumption | with_reducible apply keptX_next | with_reducible apply kept_cohTail | with_reducible apply kept_lineResume)

theorem kept_execSnoopTimeout {q0 : Base} (a : Agent) (s : State) (h_s : Kept q0 s) : KeptX q0 (execSnoopTimeout a s) := by
  unfold execSnoopTimeout
  repeat' (first | with_reducible assumption | with_reducible apply keptX_run | with_reducible apply kept_cohTail | with_reducible apply kept_snoopTimeout)

theorem kept_ansTake {q0 : Base} (s : State) (a : Agent) (l : Nat) (tag : Nat) (k : AnsK) (h_s : Kept q0 s) : AllO (fun x => Kept q0 x.2) (State.ansTake s a l tag k) := by
  unfold State.ansTake
  repeat' (first | with_reducible assumption | with_reducible apply allO_some | with_reducible apply allO_none | split | (with_reducible apply kept_same; simp only [↓kept_mk, ↓keptF_self]))

theorem kept_ansGive {q0 : Base} (s : State) (x : Ans) (h_s : Kept q0 s) : Kept q0 (State.ansGive s x) := by
  unfold State.ansGive
  repeat' (first | with_reducible assumption | with_reducible apply kept_ite | with_reducible apply kept_emit | with_reducible apply kept_fillDone | with_reducible apply kept_toAgent | split | (with_reducible apply kept_same; simp only [↓kept_mk, ↓keptF_self]))

theorem kept_chipAns {q0 : Base} (s : State) (e : Nat × ExtReq) (kind : Nat) (data : BitVec 1024) (poison : Bool) (h_s : Kept q0 s) : Kept q0 (State.chipAns s e kind data poison) := by
  unfold State.chipAns
  repeat' (first | with_reducible assumption | with_reducible apply keptF_mwrite | with_reducible apply kept_extEnd | with_reducible apply kept_toAgent | split | (with_reducible apply kept_same; simp only [↓kept_mk, ↓keptF_self]) | (with_reducible apply keptF_same; simp only [↓keptF_self]))

theorem kept_ansIn {q0 : Base} (s : State) (a : Agent) (l : Nat) (tag : Nat) (k : AnsK) (data : BitVec 1024) (poison : Bool) (h_s : Kept q0 s) : Kept q0 (State.ansIn s a l tag k data poison) := by
  unfold State.ansIn
  repeat' (first | with_reducible assumption | with_reducible apply kept_ansGive | with_reducible apply kept_ansTake | with_reducible apply kept_chipAns | split | (with_reducible apply kept_of_some2; with_reducible assumption))

theorem kept_execDatC {q0 : Base} (a : Agent) (line : Nat) (tag : Nat) (data : BitVec 1024) (poison : Bool) (s : State) (h_s : Kept q0 s) : KeptX q0 (execDatC a line tag data poison s) := by
  unfold execDatC
  repeat' (first | with_reducible assumption | with_reducible apply keptX_run | with_reducible apply kept_accPump | with_reducible apply kept_ansIn)

theorem kept_execDatS {q0 : Base} (a : Agent) (line : Nat) (tag : Nat) (data : BitVec 1024) (poison : Bool) (s : State) (h_s : Kept q0 s) : KeptX q0 (execDatS a line tag data poison s) := by
  unfold execDatS
  repeat' (first | with_reducible assumption | with_reducible apply keptX_run | with_reducible apply kept_accPump | with_reducible apply kept_ansIn)

theorem kept_execCmpE {q0 : Base} (a : Agent) (line : Nat) (tag : Nat) (s : State) (h_s : Kept q0 s) : KeptX q0 (execCmpE a line tag s) := by
  unfold execCmpE
  repeat' (first | with_reducible assumption | with_reducible apply keptX_run | with_reducible apply kept_accPump | with_reducible apply kept_ansIn)

theorem kept_datFIn {q0 : Base} (s : State) (a : Agent) (l : Nat) (tag : Nat) (data : BitVec 1024) (poison : Bool) (h_s : Kept q0 s) : Kept q0 (State.datFIn s a l tag data poison) := by
  unfold State.datFIn
  repeat' (first | with_reducible assumption | with_reducible apply kept_ite | with_reducible apply kept_ansIn | with_reducible apply kept_toAgent | split)

theorem kept_execDatF {q0 : Base} (a : Agent) (line : Nat) (tag : Nat) (data : BitVec 1024) (poison : Bool) (s : State) (h_s : Kept q0 s) : KeptX q0 (execDatF a line tag data poison s) := by
  unfold execDatF
  repeat' (first | with_reducible assumption | with_reducible apply keptX_run | with_reducible apply kept_accPump | with_reducible apply kept_datFIn)

theorem kept_cmpIn {q0 : Base} (s : State) (l : Nat) (tag : Nat) (h_s : Kept q0 s) : Kept q0 (State.cmpIn s l tag) := by
  unfold State.cmpIn
  repeat' (first | with_reducible assumption | with_reducible apply kept_chipAns | split)

theorem kept_execCmp {q0 : Base} (site : Nat) (line : Nat) (tag : Nat) (s : State) (h_s : Kept q0 s) : KeptX q0 (execCmp site line tag s) := by
  unfold execCmp
  repeat' (first | with_reducible assumption | with_reducible apply keptX_run | with_reducible apply kept_accPump | with_reducible apply kept_cmpIn)

theorem kept_rspErrIn {q0 : Base} (s : State) (a : Agent) (l : Nat) (tag : Nat) (h_s : Kept q0 s) : Kept q0 (State.rspErrIn s a l tag) := by
  unfold State.rspErrIn
  repeat' (first | with_reducible assumption | with_reducible apply kept_ansGive | with_reducible apply kept_ansTake | with_reducible apply kept_extEnd | split | (with_reducible apply kept_of_some2; with_reducible assumption))

theorem kept_execRspErr {q0 : Base} (a : Agent) (line : Nat) (tag : Nat) (reason : Nat) (s : State) (h_s : Kept q0 s) : KeptX q0 (execRspErr a line tag reason s) := by
  unfold execRspErr
  repeat' (first | with_reducible assumption | with_reducible apply keptX_run | with_reducible apply kept_ite | with_reducible apply kept_accPump | with_reducible apply kept_rspErrIn)

end Sys2Proof.Machine
end

