-- ==== Sys2Proof/Laws/KeepDma.lean ====
section
/-! SUPPORT. What the operations of Machine/Dma.lean keep. -/

namespace Sys2Proof.Machine

theorem kept_setDma {q0 : Base} (s : State) (t : Nat) (n : Nat) (d : DmaSt) (h_s : Kept q0 s) : Kept q0 (State.setDma s t n d) := by
  unfold State.setDma
  repeat' (first | with_reducible assumption | with_reducible apply kept_modTile)

theorem kept_dmaFetch {q0 : Base} (s : State) (t : Nat) (n : Nat) (h_s : Kept q0 s) : Kept q0 (State.dmaFetch s t n) := by
  unfold State.dmaFetch
  repeat' (first | with_reducible assumption | with_reducible apply kept_ite | with_reducible apply kept_kill | with_reducible apply kept_lmMeetAt | with_reducible apply kept_served | with_reducible apply kept_setDma)

theorem kept_execDmaDescriptorExecute {q0 : Base} (t : Nat) (n : Nat) (s : State) (h_s : Kept q0 s) : KeptX q0 (execDmaDescriptorExecute t n s) := by
  unfold execDmaDescriptorExecute
  repeat' (first | with_reducible assumption | with_reducible apply keptX_run | with_reducible apply kept_ite | with_reducible apply kept_dmaFetch)

theorem kept_dmaStart {q0 : Base} (s : State) (t : Nat) (n : Nat) (d : DmaSt) (h_s : Kept q0 s) : Kept q0 (State.dmaStart s t n d) := by
  unfold State.dmaStart
  repeat' (first | with_reducible assumption | with_reducible intro _ | with_reducible apply kept_foldl | with_reducible apply kept_ite | with_reducible apply kept_lookupDone | with_reducible apply kept_setDma | with_reducible apply kept_tlbHold | with_reducible apply kept_tlbRefRead | split | (with_reducible apply kept_same; simp only [↓kept_mk, ↓keptF_self]))

theorem kept_dmaFree {q0 : Base} (s : State) (t : Nat) (n : Nat) (h_s : Kept q0 s) : Kept q0 (State.dmaFree s t n) := by
  unfold State.dmaFree
  repeat' (first | with_reducible assumption | with_reducible intro _ | with_reducible apply kept_foldl | with_reducible apply kept_ite | with_reducible apply kept_setDma | with_reducible apply kept_tlbDrop | with_reducible apply kept_tlbRefRead | split)

theorem kept_dmaHole {q0 : Base} (s : State) (t : Nat) (n : Nat) (code : Nat) (g : Nat) (va : Nat) (h_s : Kept q0 s) : Kept q0 (State.dmaHole s t n code g va) := by
  unfold State.dmaHole
  repeat' (first | with_reducible assumption | with_reducible apply kept_hole | with_reducible apply kept_kill)

theorem kept_dmaRead {q0 : Base} (s : State) (t : Nat) (n : Nat) (d : DmaSt) (g : Nat) (m : Nat) (h_s : Kept q0 s) : Kept q0 (State.dmaRead s t n d g m).2.2 := by
  unfold State.dmaRead
  repeat' (first | with_reducible assumption | with_reducible apply kept_gRead | with_reducible apply kept_lmMeetAt | with_reducible apply kept_served | split)

theorem kept_dmaFlit {q0 : Base} (s : State) (t : Nat) (n : Nat) (d : DmaSt) (bs : List Byte) (bad : Bool) (h_s : Kept q0 s) : Kept q0 (State.dmaFlit s t n d bs bad) := by
  unfold State.dmaFlit
  repeat' (first | with_reducible assumption | with_reducible apply kept_ite | with_reducible apply kept_arrive | with_reducible apply kept_setDma | (with_reducible apply kept_same; simp only [↓kept_mk, ↓keptF_self]))

theorem kept_dmaHeld {q0 : Base} (s : State) (t : Nat) (n : Nat) (d : DmaSt) (a : Nat) (k : Nat) (h_s : Kept q0 s) : Kept q0 (State.dmaHeld s t n d a k) := by
  unfold State.dmaHeld
  repeat' (first | with_reducible assumption | with_reducible apply kept_regCount | with_reducible apply kept_setDma)

theorem kept_dmaSource {q0 : Base} (s : State) (t : Nat) (n : Nat) (d : DmaSt) (h_s : Kept q0 s) : AllO (Kept q0) (State.dmaSource s t n d) := by
  unfold State.dmaSource
  repeat' (first | with_reducible assumption | with_reducible apply allO_some | with_reducible apply allO_none | with_reducible apply kept_dmaHeld | with_reducible apply kept_dmaHole | with_reducible apply kept_gAsk | split | dsimp only)

theorem kept_dmaToPort {q0 : Base} (s : State) (t : Nat) (n : Nat) (d : DmaSt) (h_s : Kept q0 s) : Kept q0 (State.dmaToPort s t n d).1 := by
  unfold State.dmaToPort
  repeat' (first | with_reducible assumption | with_reducible apply kept_dmaFlit | with_reducible apply kept_dmaFree | with_reducible apply kept_dmaRead | split | (with_reducible apply kept_same; simp only [↓kept_mk, ↓keptF_self]))

theorem kept_dmaToLm {q0 : Base} (s : State) (t : Nat) (n : Nat) (d : DmaSt) (h_s : Kept q0 s) : Kept q0 (State.dmaToLm s t n d).1 := by
  unfold State.dmaToLm
  repeat' (first | with_reducible assumption | with_reducible apply kept_dmaFree | with_reducible apply kept_dmaRead | with_reducible apply kept_lmWrite | with_reducible apply kept_served | with_reducible apply kept_setDma)

theorem kept_dmaSent {q0 : Base} (s : State) (t : Nat) (n : Nat) (w : Nat) (h_s : Kept q0 s) : Kept q0 (State.dmaSent s t n w) := by
  unfold State.dmaSent
  repeat' (first | with_reducible assumption | with_reducible apply kept_dmaFree | with_reducible apply kept_setDma | split)

theorem kept_dmaToMem {q0 : Base} (s : State) (t : Nat) (n : Nat) (d : DmaSt) (h_s : Kept q0 s) : Kept q0 (State.dmaToMem s t n d).1 := by
  unfold State.dmaToMem
  repeat' (first | with_reducible assumption | with_reducible apply kept_dmaHeld | with_reducible apply kept_dmaHole | with_reducible apply kept_dmaRead | with_reducible apply kept_dmaSent | with_reducible apply kept_gWrite | with_reducible apply kept_setDma | split | (with_reducible apply kept_same; simp only [↓kept_mk, ↓keptF_self]))

theorem kept_dmaPiece {q0 : Base} (s : State) (t : Nat) (n : Nat) (d : DmaSt) (h_s : Kept q0 s) : Kept q0 (State.dmaPiece s t n d).1 := by
  unfold State.dmaPiece
  repeat' (first | with_reducible assumption | with_reducible apply kept_dmaSource | with_reducible apply kept_dmaToLm | with_reducible apply kept_dmaToMem | with_reducible apply kept_dmaToPort | split | (with_reducible apply kept_of_some; with_reducible assumption))

theorem kept_dmaMove {q0 : Base} (t : Nat) (n : Nat) : ∀ (i0 : Nat) (s : State), Kept q0 s → Kept q0 (State.dmaMove s t n i0) := by
  intro i0
  induction i0 with
  | zero =>
    intros
    unfold State.dmaMove
    repeat' with_reducible assumption
  | succ n ih =>
    intros
    unfold State.dmaMove
    repeat' (first | with_reducible assumption | with_reducible apply kept_ite | with_reducible apply kept_dmaPiece | with_reducible apply ih | split | (with_reducible apply kept_of_fst; with_reducible assumption))

theorem kept_dmaBlock {q0 : Base} (s : State) (t : Nat) (n : Nat) (h_s : Kept q0 s) : Kept q0 (State.dmaBlock s t n) := by
  unfold State.dmaBlock
  repeat' (first | with_reducible assumption | with_reducible apply kept_ite | with_reducible apply kept_dmaMove | with_reducible apply kept_dmaStart | split)

theorem kept_execDmaTransferBlock {q0 : Base} (t : Nat) (n : Nat) (s : State) (h_s : Kept q0 s) : KeptX q0 (execDmaTransferBlock t n s) := by
  unfold execDmaTransferBlock
  repeat' (first | with_reducible assumption | with_reducible apply keptX_run | with_reducible apply kept_accPump | with_reducible apply kept_dmaBlock)

theorem kept_dmaComplete {q0 : Base} (s : State) (t : Nat) (n : Nat) (h_s : Kept q0 s) : Kept q0 (State.dmaComplete s t n) := by
  unfold State.dmaComplete
  repeat' (first | with_reducible assumption | with_reducible intro _ | with_reducible apply kept_foldl | with_reducible apply kept_ite | with_reducible apply kept_modTile | with_reducible apply kept_set | with_reducible apply kept_signal | with_reducible apply kept_tlbDrop | split)

theorem kept_execDmaDescriptorComplete {q0 : Base} (t : Nat) (n : Nat) (s : State) (h_s : Kept q0 s) : KeptX q0 (execDmaDescriptorComplete t n s) := by
  unfold execDmaDescriptorComplete
  repeat' (first | with_reducible assumption | with_reducible apply keptX_run | with_reducible apply kept_dmaComplete)

end Sys2Proof.Machine
end

