-- ==== Sys2Proof/Laws/KeepTksRx.lean ====
section
/-! SUPPORT. What the operations of Machine/TksRx.lean keep. -/

namespace Sys2Proof.Machine

theorem kept_tksReqCmd {q0 : Base} (p : Nat) (f : Frame) (op : Nat) (s : State) (h_s : Kept q0 s) : KeptX q0 (tksReqCmd p f op s) := by
  unfold tksReqCmd
  repeat' (first | with_reducible assumption | with_reducible apply keptX_run | with_reducible apply keptX_ite | with_reducible exact keptX_refused | with_reducible apply kept_accPump | with_reducible apply kept_reqIn | with_reducible apply kept_tksDrop | with_reducible apply kept_tksTake | split | (with_reducible apply kept_of_some; with_reducible assumption))

theorem kept_execPutOp {q0 : Base} (port : Nat) (f : Frame) (s : State) (h_s : Kept q0 s) : KeptX q0 (execPutOp port f s) := by
  unfold execPutOp
  repeat' (first | with_reducible assumption | with_reducible apply kept_tksReqCmd)

theorem kept_execGetOp {q0 : Base} (port : Nat) (f : Frame) (s : State) (h_s : Kept q0 s) : KeptX q0 (execGetOp port f s) := by
  unfold execGetOp
  repeat' (first | with_reducible assumption | with_reducible apply kept_tksReqCmd)

theorem kept_execTksAtomic {q0 : Base} (port : Nat) (f : Frame) (s : State) (h_s : Kept q0 s) : KeptX q0 (execTksAtomic port f s) := by
  unfold execTksAtomic
  repeat' (first | with_reducible assumption | with_reducible apply kept_tksReqCmd)

theorem kept_execTksSync {q0 : Base} (port : Nat) (f : Frame) (s : State) (h_s : Kept q0 s) : KeptX q0 (execTksSync port f s) := by
  unfold execTksSync
  repeat' (first | with_reducible assumption | with_reducible apply kept_tksReqCmd)

theorem kept_execRed {q0 : Base} (port : Nat) (f : Frame) (s : State) (h_s : Kept q0 s) : KeptX q0 (execRed port f s) := by
  unfold execRed
  repeat' (first | with_reducible assumption | with_reducible apply kept_tksReqCmd)

theorem kept_execSettGrant {q0 : Base} (port : Nat) (f : Frame) (s : State) (h_s : Kept q0 s) : KeptX q0 (execSettGrant port f s) := by
  unfold execSettGrant
  repeat' (first | with_reducible assumption | with_reducible apply kept_tksReqCmd)

theorem kept_execSettReturn {q0 : Base} (port : Nat) (f : Frame) (s : State) (h_s : Kept q0 s) : KeptX q0 (execSettReturn port f s) := by
  unfold execSettReturn
  repeat' (first | with_reducible assumption | with_reducible apply kept_tksReqCmd)

theorem kept_execSettRead {q0 : Base} (port : Nat) (f : Frame) (s : State) (h_s : Kept q0 s) : KeptX q0 (execSettRead port f s) := by
  unfold execSettRead
  repeat' (first | with_reducible assumption | with_reducible apply kept_tksReqCmd)

theorem kept_execSettWrite {q0 : Base} (port : Nat) (f : Frame) (s : State) (h_s : Kept q0 s) : KeptX q0 (execSettWrite port f s) := by
  unfold execSettWrite
  repeat' (first | with_reducible assumption | with_reducible apply kept_tksReqCmd)

theorem kept_execMsg {q0 : Base} (port : Nat) (f : Frame) (s : State) (h_s : Kept q0 s) : KeptX q0 (execMsg port f s) := by
  unfold execMsg
  repeat' (first | with_reducible assumption | with_reducible apply kept_tksReqCmd)

theorem kept_execEcho {q0 : Base} (port : Nat) (f : Frame) (s : State) (h_s : Kept q0 s) : KeptX q0 (execEcho port f s) := by
  unfold execEcho
  repeat' (first | with_reducible assumption | with_reducible apply kept_tksReqCmd)

theorem kept_respIn {q0 : Base} (s : State) (f : Frame) (h_s : Kept q0 s) : Kept q0 (State.respIn s f) := by
  unfold State.respIn
  repeat' (first | with_reducible assumption | with_reducible apply kept_ite | with_reducible apply kept_tksEnd | split)

theorem kept_execTksResponse {q0 : Base} (port : Nat) (f : Frame) (s : State) (h_s : Kept q0 s) : KeptX q0 (execTksResponse port f s) := by
  unfold execTksResponse
  repeat' (first | with_reducible assumption | with_reducible apply keptX_run | with_reducible apply keptX_ite | with_reducible apply kept_ite | with_reducible exact keptX_refused | with_reducible apply kept_bump | with_reducible apply kept_cohTail | with_reducible apply kept_oweCells | with_reducible apply kept_respIn | with_reducible apply kept_tksDrop | with_reducible apply kept_tksTake | split | (with_reducible apply kept_of_some; with_reducible assumption))

theorem kept_execTksForward {q0 : Base} (port : Nat) (f : Frame) (s : State) (h_s : Kept q0 s) : KeptX q0 (execTksForward port f s) := by
  unfold execTksForward
  repeat' (first | with_reducible assumption | with_reducible apply keptX_run | with_reducible apply keptX_ite | with_reducible apply kept_ite | with_reducible exact keptX_refused | with_reducible apply kept_bump | with_reducible apply kept_oweCells | with_reducible apply kept_tksDrop | with_reducible apply kept_tksForward | with_reducible apply kept_tksTake | split | (with_reducible apply kept_of_some; with_reducible assumption))

theorem kept_nfail {q0 : Base} (s : State) (obj : Nat) (h_s : Kept q0 s) : Kept q0 (State.nfail s obj) := by
  unfold State.nfail
  repeat' (first | with_reducible assumption | with_reducible apply kept_bset | with_reducible apply kept_bump)

theorem kept_notifyWr {q0 : Base} (s : State) (x : NAct) (v : W64) (h_s : Kept q0 s) : Kept q0 (State.notifyWr s x v) := by
  unfold State.notifyWr
  repeat' (first | with_reducible assumption | with_reducible apply kept_ite | with_reducible apply kept_access | with_reducible apply kept_nfail)

theorem kept_notifyDo {q0 : Base} (s : State) (x : NAct) (h_s : Kept q0 s) : Kept q0 (State.notifyDo s x) := by
  unfold State.notifyDo
  repeat' (first | with_reducible assumption | with_reducible apply kept_ite | with_reducible apply kept_msix | with_reducible apply kept_nfail | with_reducible apply kept_notifyWr | with_reducible apply kept_svcPush | split)

theorem kept_execNotifierAction {q0 : Base} (s : State) (h_s : Kept q0 s) : KeptX q0 (execNotifierAction s) := by
  unfold execNotifierAction
  repeat' (first | with_reducible assumption | with_reducible apply keptX_next | with_reducible apply kept_cohTail | with_reducible apply kept_notifyDo | split | (with_reducible apply kept_same; simp only [↓kept_mk, ↓keptF_self]))

end Sys2Proof.Machine
end

