-- ==== Sys2Proof/Laws/KeepCxlRx.lean ====
section
/-! SUPPORT. What the operations of Machine/CxlRx.lean keep. -/

namespace Sys2Proof.Machine

theorem kept_memHole {q0 : Base} (s : State) (hpa : Nat) (tag : Nat) (wr : Bool) (h_s : Kept q0 s) : Kept q0 (State.memHole s hpa tag wr) := by
  unfold State.memHole
  repeat' (first | with_reducible assumption | with_reducible apply kept_ite | with_reducible apply kept_emit | with_reducible apply kept_hole | split | (with_reducible apply kept_same; simp only [↓kept_mk, ↓keptF_self]))

theorem kept_memReq {q0 : Base} (s : State) (hpa : Nat) (tag : Nat) (inv : Nat) (wr : Bool) (r : Nat → CReq) (h_s : Kept q0 s) : Kept q0 (State.memReq s hpa tag inv wr r) := by
  unfold State.memReq
  repeat' (first | with_reducible assumption | with_reducible apply kept_ite | with_reducible apply kept_cohReq | with_reducible apply kept_memHole | with_reducible apply kept_regOne | split | (with_reducible apply kept_same; simp only [↓kept_mk, ↓keptF_self]))

theorem kept_execMemRd {q0 : Base} (hpa : Nat) (metaV : Nat) (tag : Nat) (s : State) (h_s : Kept q0 s) : KeptX q0 (execMemRd hpa metaV tag s) := by
  unfold execMemRd
  repeat' (first | with_reducible assumption | with_reducible apply keptX_next | with_reducible apply kept_cohTail | with_reducible apply kept_memReq)

theorem kept_execMemRdData {q0 : Base} (hpa : Nat) (tag : Nat) (s : State) (h_s : Kept q0 s) : KeptX q0 (execMemRdData hpa tag s) := by
  unfold execMemRdData
  repeat' (first | with_reducible assumption | with_reducible apply keptX_next | with_reducible apply kept_cohTail | with_reducible apply kept_memReq)

theorem kept_hostWb {q0 : Base} (s : State) (d : Nat) (data : BitVec 512) (poison : Bool) (h_s : Kept q0 s) : Kept q0 (State.hostWb s d data poison) := by
  unfold State.hostWb
  repeat' (first | with_reducible assumption | with_reducible apply kept_ite | with_reducible apply kept_datWb | split | (with_reducible apply kept_same; simp only [↓kept_mk, ↓keptF_self]))

theorem kept_memWr {q0 : Base} (s : State) (hpa : Nat) (metaI : Bool) (tag : Nat) (data : BitVec 512) (poison : Bool) (h_s : Kept q0 s) : Kept q0 (State.memWr s hpa metaI tag data poison) := by
  unfold State.memWr
  repeat' (first | with_reducible assumption | with_reducible apply kept_ite | with_reducible apply kept_emit | with_reducible apply kept_hostWb | with_reducible apply kept_memReq | split)

theorem kept_execMemWr {q0 : Base} (hpa : Nat) (metaI : Bool) (tag : Nat) (data : BitVec 512) (poison : Bool) (s : State) (h_s : Kept q0 s) : KeptX q0 (execMemWr hpa metaI tag data poison s) := by
  unfold execMemWr
  repeat' (first | with_reducible assumption | with_reducible apply keptX_next | with_reducible apply kept_cohTail | with_reducible apply kept_memWr)

theorem kept_execMemWrPtl {q0 : Base} (hpa : Nat) (tag : Nat) (mask : BitVec 64) (data : BitVec 512) (poison : Bool) (s : State) (h_s : Kept q0 s) : KeptX q0 (execMemWrPtl hpa tag mask data poison s) := by
  unfold execMemWrPtl
  repeat' (first | with_reducible assumption | with_reducible apply keptX_next | with_reducible apply kept_cohTail | with_reducible apply kept_memReq)

theorem kept_execMemClnEvct {q0 : Base} (hpa : Nat) (tag : Nat) (s : State) (h_s : Kept q0 s) : KeptX q0 (execMemClnEvct hpa tag s) := by
  unfold execMemClnEvct
  repeat' (first | with_reducible assumption | with_reducible apply keptX_next | with_reducible apply kept_cohTail | with_reducible apply kept_memReq)

theorem kept_execMemInv {q0 : Base} (hpa : Nat) (tag : Nat) (s : State) (h_s : Kept q0 s) : KeptX q0 (execMemInv hpa tag s) := by
  unfold execMemInv
  repeat' (first | with_reducible assumption | with_reducible apply keptX_next | with_reducible apply kept_cohTail | with_reducible apply kept_memReq)

theorem kept_execBiRsp {q0 : Base} (hpa : Nat) (shared : Bool) (s : State) (h_s : Kept q0 s) : KeptX q0 (execBiRsp hpa shared s) := by
  unfold execBiRsp
  repeat' (first | with_reducible assumption | with_reducible apply kept_ite | with_reducible apply keptX_next | with_reducible apply kept_cohTail | with_reducible apply kept_rspI | with_reducible apply kept_rspS | split)

theorem kept_execBiConflict {q0 : Base} (hpa : Nat) (s : State) (h_s : Kept q0 s) : KeptX q0 (execBiConflict hpa s) := by
  unfold execBiConflict
  repeat' (first | with_reducible assumption | with_reducible apply kept_ite | with_reducible apply keptX_next | with_reducible apply kept_emit)

theorem kept_execH2dSnoop {q0 : Base} (hpa : Nat) (tag : Nat) (s : State) (h_s : Kept q0 s) : KeptX q0 (execH2dSnoop hpa tag s) := by
  unfold execH2dSnoop
  repeat' (first | with_reducible assumption | with_reducible apply kept_ite | with_reducible apply keptX_next | with_reducible apply kept_emit)

theorem kept_d2hRsp {q0 : Base} (s : State) (id : Nat) (data : BitVec 512) (poison : Bool) (h_s : Kept q0 s) : Kept q0 (State.d2hRsp s id data poison) := by
  unfold State.d2hRsp
  repeat' (first | with_reducible assumption | with_reducible apply kept_ite | with_reducible apply kept_extEnd | split)

theorem kept_execCxlD2hResponse {q0 : Base} (id : Nat) (data : BitVec 512) (poison : Bool) (s : State) (h_s : Kept q0 s) : KeptX q0 (execCxlD2hResponse id data poison s) := by
  unfold execCxlD2hResponse
  repeat' (first | with_reducible assumption | with_reducible apply kept_ite | with_reducible apply keptX_next | with_reducible apply kept_cohTail | with_reducible apply kept_d2hRsp)

theorem kept_execCacheWritebackInvalidate {q0 : Base} (s : State) (h_s : Kept q0 s) : KeptX q0 (execCacheWritebackInvalidate s) := by
  unfold execCacheWritebackInvalidate
  repeat' (first | with_reducible assumption | with_reducible apply kept_ite | with_reducible apply keptX_next | (with_reducible apply kept_same; simp only [↓kept_mk, ↓keptF_self]))

theorem kept_msixUnmaskDo {q0 : Base} (s : State) (v : Nat) (h_s : Kept q0 s) : Kept q0 (State.msixUnmaskDo s v) := by
  unfold State.msixUnmaskDo
  repeat' (first | with_reducible assumption | with_reducible apply kept_ite | with_reducible apply kept_emit | (with_reducible apply kept_same; simp only [↓kept_mk, ↓keptF_self]))

theorem kept_msixWr {q0 : Base} (s : State) (i : Nat) (v : W32) (h_s : Kept q0 s) : Kept q0 (State.msixWr s i v) := by
  unfold State.msixWr
  repeat' (first | with_reducible assumption | with_reducible apply kept_ite | with_reducible apply kept_msixUnmaskDo | split | (with_reducible apply kept_same; simp only [↓kept_mk, ↓keptF_self]))

theorem kept_hdmCommit {q0 : Base} (s : State) (base : Nat) (size : Nat) (ways : Nat) (h_s : Kept q0 s) : Kept q0 (State.hdmCommit s base size ways) := by
  unfold State.hdmCommit
  repeat' (first | with_reducible assumption | with_reducible apply kept_ite | (with_reducible apply kept_same; simp only [↓kept_mk, ↓keptF_self]))

theorem kept_compWr {q0 : Base} (s : State) (o : Nat) (v : W32) (h_s : Kept q0 s) : Kept q0 (State.compWr s o v) := by
  unfold State.compWr
  repeat' (first | with_reducible assumption | with_reducible apply kept_ite | with_reducible apply kept_hdmCommit | split | (with_reducible apply kept_same; simp only [↓kept_mk, ↓keptF_self]))

theorem kept_bar0 {q0 : Base} (s : State) (o : Nat) (n : Nat) (op : AccessOp) (h_s : Kept q0 s) : Kept q0 (State.bar0 s o n op) := by
  unfold State.bar0
  repeat' (first | with_reducible assumption | with_reducible apply kept_ite | with_reducible apply kept_compWr | with_reducible apply kept_drew | with_reducible apply kept_emit | with_reducible apply kept_msixWr | with_reducible apply kept_ur | split)

theorem kept_bar4 {q0 : Base} (s : State) (o : Nat) (n : Nat) (op : AccessOp) (h_s : Kept q0 s) : Kept q0 (State.bar4 s o n op) := by
  unfold State.bar4
  repeat' (first | with_reducible assumption | with_reducible apply kept_ite | with_reducible apply kept_access | with_reducible apply kept_hole | with_reducible apply kept_ur)

theorem kept_ioAccess {q0 : Base} (s : State) (bar : Nat) (off : Nat) (n : Nat) (op : AccessOp) (h_s : Kept q0 s) : Kept q0 (State.ioAccess s bar off n op) := by
  unfold State.ioAccess
  repeat' (first | with_reducible assumption | with_reducible apply kept_ite | with_reducible apply kept_access | with_reducible apply kept_bar0 | with_reducible apply kept_bar4 | with_reducible apply kept_ur)

theorem kept_execCxlIoMemAccess {q0 : Base} (bar : Nat) (off : Nat) (n : Nat) (op : AccessOp) (s : State) (h_s : Kept q0 s) : KeptX q0 (execCxlIoMemAccess bar off n op s) := by
  unfold execCxlIoMemAccess
  repeat' (first | with_reducible assumption | with_reducible apply kept_ite | with_reducible apply keptX_next | with_reducible apply kept_accPump | with_reducible apply kept_ioAccess)

theorem kept_execCxlAtomicOp {q0 : Base} (_bar : Nat) (_off : Nat) (s : State) (h_s : Kept q0 s) : KeptX q0 (execCxlAtomicOp _bar _off s) := by
  unfold execCxlAtomicOp
  repeat' (first | with_reducible assumption | with_reducible apply kept_ite | with_reducible apply keptX_next | with_reducible apply kept_ur)

theorem kept_execHdmDecoderCommit {q0 : Base} (base : Nat) (size : Nat) (ways : Nat) (s : State) (h_s : Kept q0 s) : KeptX q0 (execHdmDecoderCommit base size ways s) := by
  unfold execHdmDecoderCommit
  repeat' (first | with_reducible assumption | with_reducible apply kept_ite | with_reducible apply keptX_next | with_reducible apply kept_hdmCommit)

theorem kept_execMsixUnmask {q0 : Base} (vec : Nat) (s : State) (h_s : Kept q0 s) : KeptX q0 (execMsixUnmask vec s) := by
  unfold execMsixUnmask
  repeat' (first | with_reducible assumption | with_reducible apply keptX_run | with_reducible apply kept_ite | with_reducible apply kept_msixWr)

theorem kept_mbxFlr {q0 : Base} (s : State) (m : Nat) (h_s : Kept q0 s) : Kept q0 (State.mbxFlr s m) := by
  unfold State.mbxFlr
  repeat' (first | with_reducible assumption | with_reducible apply kept_set | with_reducible apply kept_setBox | split)

theorem kept_flr {q0 : Base} (s : State) (h_s : Kept q0 s) : Kept q0 (State.flr s) := by
  unfold State.flr
  repeat' (first | with_reducible assumption | with_reducible intro _ | with_reducible apply kept_foldl | with_reducible apply kept_fset | with_reducible apply kept_mbxFlr | with_reducible apply kept_resetRegs | (with_reducible apply kept_same; simp only [↓kept_mk, ↓keptF_self]))

theorem kept_execFlr {q0 : Base} (s : State) (h_s : Kept q0 s) : KeptX q0 (execFlr s) := by
  unfold execFlr
  repeat' (first | with_reducible assumption | with_reducible apply kept_ite | with_reducible apply keptX_next | with_reducible apply kept_flr)

theorem kept_execCxlLinkUp {q0 : Base} (width : Nat) (rate : Nat) (s : State) (h_s : Kept q0 s) : KeptX q0 (execCxlLinkUp width rate s) := by
  unfold execCxlLinkUp
  repeat' (first | with_reducible assumption | with_reducible apply kept_ite | with_reducible apply keptX_next | with_reducible apply kept_bset | with_reducible apply kept_fset)

theorem kept_linkDown {q0 : Base} (s : State) (refLost : Bool) (h_s : Kept q0 s) : Kept q0 (State.linkDown s refLost) := by
  unfold State.linkDown
  repeat' (first | with_reducible assumption | with_reducible intro _ | with_reducible apply kept_foldl | with_reducible apply kept_ite | with_reducible apply kept_bset | with_reducible apply kept_extEnd | with_reducible apply kept_fence | with_reducible apply kept_log' | with_reducible apply kept_set)

theorem kept_execCxlLinkDown {q0 : Base} (refLost : Bool) (s : State) (h_s : Kept q0 s) : KeptX q0 (execCxlLinkDown refLost s) := by
  unfold execCxlLinkDown
  repeat' (first | with_reducible assumption | with_reducible apply kept_ite | with_reducible apply keptX_next | with_reducible apply kept_cohTail | with_reducible apply kept_linkDown)

theorem kept_doeGo {q0 : Base} (s : State) (h_s : Kept q0 s) : Kept q0 (State.doeGo s) := by
  unfold State.doeGo
  repeat' (first | with_reducible assumption | with_reducible apply kept_ite | split | (with_reducible apply kept_same; simp only [↓kept_mk, ↓keptF_self]))

theorem kept_cfgWr {q0 : Base} (s : State) (r : Nat) (v : W32) (h_s : Kept q0 s) : Kept q0 (State.cfgWr s r v) := by
  unfold State.cfgWr
  repeat' (first | with_reducible assumption | with_reducible intro _ | with_reducible apply kept_foldl | with_reducible apply kept_ite | with_reducible apply kept_bset | with_reducible apply kept_doeGo | with_reducible apply kept_flr | with_reducible apply kept_msixUnmaskDo | split | (with_reducible apply kept_same; simp only [↓kept_mk, ↓keptF_self]))

theorem kept_cfgReq {q0 : Base} (s : State) (write : Bool) (reg : Nat) (v : W32) (h_s : Kept q0 s) : Kept q0 (State.cfgReq s write reg v) := by
  unfold State.cfgReq
  repeat' (first | with_reducible assumption | with_reducible apply kept_ite | with_reducible apply kept_cfgWr | with_reducible apply kept_emit)

theorem kept_execConfigurationRequest {q0 : Base} (write : Bool) (reg : Nat) (v : W32) (s : State) (h_s : Kept q0 s) : KeptX q0 (execConfigurationRequest write reg v s) := by
  unfold execConfigurationRequest
  repeat' (first | with_reducible assumption | with_reducible apply keptX_run | with_reducible apply kept_ite | with_reducible apply kept_cfgReq)

theorem kept_htGrant {q0 : Base} (s : State) (k : Nat) (base : Nat) (size : Nat) (tier : Nat) (h_s : Kept q0 s) : Kept q0 (State.htGrant s k base size tier) := by
  unfold State.htGrant
  repeat' (first | with_reducible assumption | with_reducible apply kept_set)

theorem kept_execMemHostGrant {q0 : Base} (q : Req) (hostBase : Nat) (size : Nat) (s : State) (h_s : Kept q0 s) : KeptX q0 (execMemHostGrant q hostBase size s) := by
  unfold execMemHostGrant
  repeat' (first | with_reducible assumption | with_reducible intro _ | with_reducible apply keptA_done | with_reducible apply keptX_run | with_reducible apply keptA_ite | with_reducible apply kept_axotte | with_reducible apply kept_htGrant | with_reducible apply kept_invalid | with_reducible apply kept_refuse | split)

theorem kept_execMemHostGrantExpert {q0 : Base} (q : Req) (hostBase : Nat) (size : Nat) (tier : Nat) (window : Nat) (s : State) (h_s : Kept q0 s) : KeptX q0 (execMemHostGrantExpert q hostBase size tier window s) := by
  unfold execMemHostGrantExpert
  repeat' (first | with_reducible assumption | with_reducible intro _ | with_reducible apply keptA_done | with_reducible apply keptX_run | with_reducible apply keptA_ite | with_reducible apply kept_axotte | with_reducible apply kept_htGrant | with_reducible apply kept_invalid | with_reducible apply kept_refuse)

theorem kept_execMemHostRevoke {q0 : Base} (q : Req) (window : Nat) (s : State) (h_s : Kept q0 s) : KeptX q0 (execMemHostRevoke q window s) := by
  unfold execMemHostRevoke
  repeat' (first | with_reducible assumption | with_reducible intro _ | with_reducible apply keptA_done | with_reducible apply keptX_run | with_reducible apply keptA_ite | with_reducible apply kept_axotte | with_reducible apply kept_bset | with_reducible apply kept_invalid | with_reducible apply kept_refuse)

theorem kept_execMemHostStatus {q0 : Base} (q : Req) (s : State) (h_s : Kept q0 s) : KeptX q0 (execMemHostStatus q s) := by
  unfold execMemHostStatus
  repeat' (first | with_reducible assumption | with_reducible intro _ | with_reducible apply keptA_done | with_reducible apply keptX_run | with_reducible apply kept_axotte)

end Sys2Proof.Machine
end

