-- ==== Sys2Proof/Laws/KeepSvcCore.lean ====
section
/-! SUPPORT. What the operations of Machine/SvcCore.lean keep. -/

namespace Sys2Proof.Machine

theorem kept_coreCmd {q0 : Base} (c : Nat) (s : State) (eff : State → State) (h_s : Kept q0 s) (h_eff : ∀ s, Kept q0 s → Kept q0 (eff s)) : KeptX q0 (coreCmd c s eff) := by
  unfold coreCmd
  repeat' (first | with_reducible assumption | with_reducible apply keptX_run | with_reducible apply kept_ite | with_reducible apply kept_modCore | with_reducible apply h_eff)

theorem kept_coreIll {q0 : Base} (s : State) (c : Nat) (h_s : Kept q0 s) : Kept q0 (State.coreIll s c) := by
  unfold State.coreIll
  repeat' (first | with_reducible assumption | with_reducible apply kept_modCore)

theorem kept_execFsig {q0 : Base} (core : Nat) (rs1 : W64) (rs2 : W64) (s : State) (h_s : Kept q0 s) : KeptX q0 (execFsig core rs1 rs2 s) := by
  unfold execFsig
  repeat' (first | with_reducible assumption | with_reducible intro _ | with_reducible apply kept_ite | with_reducible apply kept_coreCmd | with_reducible apply kept_coreIll | with_reducible apply kept_modCore | with_reducible apply kept_syncAdd)

theorem kept_execFwait {q0 : Base} (core : Nat) (rd : Nat) (rs1 : W64) (rs2 : W64) (s : State) (h_s : Kept q0 s) : KeptX q0 (execFwait core rd rs1 rs2 s) := by
  unfold execFwait
  repeat' (first | with_reducible assumption | with_reducible intro _ | with_reducible apply kept_ite | with_reducible apply kept_coreCmd | with_reducible apply kept_coreIll | with_reducible apply kept_modCore)

theorem kept_firqPop {q0 : Base} (s : State) (c : Nat) (rd : Nat) (h_s : Kept q0 s) : Kept q0 (State.firqPop s c rd) := by
  unfold State.firqPop
  repeat' (first | with_reducible assumption | with_reducible apply kept_fset | with_reducible apply kept_modCore | split | (with_reducible apply kept_same; simp only [↓kept_mk, ↓keptF_self]))

theorem kept_execFirqRead {q0 : Base} (core : Nat) (rd : Nat) (s : State) (h_s : Kept q0 s) : KeptX q0 (execFirqRead core rd s) := by
  unfold execFirqRead
  repeat' (first | with_reducible assumption | with_reducible intro _ | with_reducible apply kept_coreCmd | with_reducible apply kept_firqPop)

theorem kept_coreAccess {q0 : Base} (s : State) (c : Nat) (rd : Nat) (pa : W64) (n : Nat) (op : AccessOp) (lrsc : Bool) (h_s : Kept q0 s) : Kept q0 (State.coreAccess s c rd pa n op lrsc) := by
  unfold State.coreAccess
  repeat' (first | with_reducible assumption | with_reducible apply kept_ite | with_reducible apply kept_access | with_reducible apply kept_drew | with_reducible apply kept_modCore | split)

theorem kept_execSvcCoreAccess {q0 : Base} (core : Nat) (rd : Nat) (pa : W64) (n : Nat) (op : AccessOp) (lrsc : Bool) (s : State) (h_s : Kept q0 s) : KeptX q0 (execSvcCoreAccess core rd pa n op lrsc s) := by
  unfold execSvcCoreAccess
  repeat' (first | with_reducible assumption | with_reducible intro _ | with_reducible apply kept_accPump | with_reducible apply kept_coreAccess | with_reducible apply kept_coreCmd)

end Sys2Proof.Machine
end

