-- ==== Sys2Proof/Laws/KeepSvc.lean ====
section
/-! SUPPORT. What the operations of Machine/Svc.lean keep. -/

namespace Sys2Proof.Machine

theorem kept_svcLoad {q0 : Base} (s : State) (g : W64) (size : Nat) (h_s : Kept q0 s) : KeptA q0 (State.svcLoad s g size) := by
  unfold State.svcLoad
  repeat' (first | with_reducible assumption | with_reducible intro _ | with_reducible apply keptA_done | with_reducible apply keptA_ite | with_reducible apply kept_engWrite | with_reducible apply kept_measCommit | with_reducible apply kept_refuse | with_reducible apply kept_withImage | split | (with_reducible apply kept_same; simp only [↓kept_mk, ↓keptF_self]))

theorem kept_execSvcFwLoad {q0 : Base} (q : Req) (image : W64) (size : Nat) (s : State) (h_s : Kept q0 s) : KeptX q0 (execSvcFwLoad q image size s) := by
  unfold execSvcFwLoad
  repeat' (first | with_reducible assumption | with_reducible intro _ | with_reducible apply keptX_run | with_reducible apply kept_axotte | with_reducible apply kept_svcLoad)

theorem kept_coreStart {q0 : Base} (s : State) (pc : W64) (c : Nat) (h_s : Kept q0 s) : Kept q0 (State.coreStart s pc c) := by
  unfold State.coreStart
  repeat' (first | with_reducible assumption | with_reducible apply kept_bset | with_reducible apply kept_modCore)

theorem kept_svcStart {q0 : Base} (s : State) (base : Nat) (size : Nat) (arg : W64) (cores : List (Nat × Nat)) (h_s : Kept q0 s) : KeptA q0 (State.svcStart s base size arg cores) := by
  unfold State.svcStart
  repeat' (first | with_reducible assumption | with_reducible intro _ | with_reducible apply kept_foldl | with_reducible apply keptA_done | with_reducible apply keptA_ite | with_reducible apply kept_coreStart | with_reducible apply kept_invalid | with_reducible apply kept_refuse | (with_reducible apply kept_same; simp only [↓kept_mk, ↓keptF_self]))

theorem kept_execSvcStart {q0 : Base} (q : Req) (base : Nat) (size : Nat) (arg : W64) (s : State) (h_s : Kept q0 s) : KeptX q0 (execSvcStart q base size arg s) := by
  unfold execSvcStart
  repeat' (first | with_reducible assumption | with_reducible intro _ | with_reducible apply keptX_run | with_reducible apply kept_axotte | with_reducible apply kept_svcStart)

theorem kept_execSvcStartExpert {q0 : Base} (q : Req) (base : Nat) (size : Nat) (arg : W64) (mask : Nat) (entries : List Nat) (s : State) (h_s : Kept q0 s) : KeptX q0 (execSvcStartExpert q base size arg mask entries s) := by
  unfold execSvcStartExpert
  repeat' (first | with_reducible assumption | with_reducible intro _ | with_reducible apply keptX_run | with_reducible apply keptA_ite | with_reducible apply kept_axotte | with_reducible apply kept_invalid | with_reducible apply kept_svcStart)

theorem kept_execSvcStop {q0 : Base} (q : Req) (s : State) (h_s : Kept q0 s) : KeptX q0 (execSvcStop q s) := by
  unfold execSvcStop
  repeat' (first | with_reducible assumption | with_reducible intro _ | with_reducible apply keptA_done | with_reducible apply keptX_run | with_reducible apply kept_axotte | with_reducible apply kept_svcHalt)

theorem kept_iqSet {q0 : Base} (s : State) (q : Nat) (v : W64) (h_s : Kept q0 s) : AllO (Kept q0) (State.iqSet s q v) := by
  unfold State.iqSet
  repeat' (first | with_reducible assumption | with_reducible apply allO_some | with_reducible apply allO_none | with_reducible apply kept_set | split)

theorem kept_eqSet {q0 : Base} (s : State) (e : Nat) (v : W64) (h_s : Kept q0 s) : AllO (Kept q0) (State.eqSet s e v) := by
  unfold State.eqSet
  repeat' (first | with_reducible assumption | with_reducible apply allO_some | with_reducible apply allO_none | with_reducible apply kept_set | split)

theorem kept_queueSet {q0 : Base} (s : State) (queue : Nat) (base : Nat) (slots : Nat) (obj : Nat) (code : Nat) (egress : List (Nat × W64)) (h_s : Kept q0 s) : KeptA q0 (State.queueSet s queue base slots obj code egress) := by
  unfold State.queueSet
  repeat' (first | with_reducible assumption | with_reducible intro _ | with_reducible apply allO_bind | with_reducible apply allO_foldlM | with_reducible apply keptA_done | with_reducible apply keptA_ite | with_reducible apply kept_eqSet | with_reducible apply kept_invalid | with_reducible apply kept_iqSet | with_reducible apply kept_refuse | split | (with_reducible apply kept_of_some; with_reducible assumption))

theorem kept_execSvcQueueSet {q0 : Base} (q : Req) (queue : Nat) (base : Nat) (slots : Nat) (obj : Nat) (s : State) (h_s : Kept q0 s) : KeptX q0 (execSvcQueueSet q queue base slots obj s) := by
  unfold execSvcQueueSet
  repeat' (first | with_reducible assumption | with_reducible intro _ | with_reducible apply keptX_run | with_reducible apply kept_axotte | with_reducible apply kept_queueSet)

theorem kept_execSvcQueueSetExpert {q0 : Base} (q : Req) (queue : Nat) (base : Nat) (slots : Nat) (obj : Nat) (slotCode : Nat) (egress : List (Nat × W64)) (s : State) (h_s : Kept q0 s) : KeptX q0 (execSvcQueueSetExpert q queue base slots obj slotCode egress s) := by
  unfold execSvcQueueSetExpert
  repeat' (first | with_reducible assumption | with_reducible intro _ | with_reducible apply keptX_run | with_reducible apply kept_axotte | with_reducible apply kept_queueSet)

theorem kept_execSvcStatus {q0 : Base} (q : Req) (s : State) (h_s : Kept q0 s) : KeptX q0 (execSvcStatus q s) := by
  unfold execSvcStatus
  repeat' (first | with_reducible assumption | with_reducible intro _ | with_reducible apply keptA_done | with_reducible apply keptX_run | with_reducible apply kept_axotte)

theorem kept_execEgressTailWrite {q0 : Base} (e : Nat) (v : W32) (s : State) (h_s : Kept q0 s) : KeptX q0 (execEgressTailWrite e v s) := by
  unfold execEgressTailWrite
  repeat' (first | with_reducible assumption | with_reducible apply keptX_run | with_reducible apply kept_ite | with_reducible apply kept_set)

theorem kept_msgOut {q0 : Base} (s : State) (e : Nat) (i : Nat) (d : EgDesc) (bs : List Byte) (poison : Bool) (h_s : Kept q0 s) : Kept q0 (State.msgOut s e i d bs poison) := by
  unfold State.msgOut
  repeat' (first | with_reducible assumption | with_reducible apply kept_ite | with_reducible apply kept_egressDone | with_reducible apply kept_hole | with_reducible apply kept_msgIn | with_reducible apply kept_tksAsk | split | (with_reducible apply kept_of_sent; with_reducible assumption) | (with_reducible apply kept_of_full; with_reducible assumption) | (with_reducible apply kept_of_taken; with_reducible assumption) | (with_reducible apply kept_same; simp only [↓kept_mk, ↓keptF_self]))

theorem kept_egressSkip {q0 : Base} (s : State) (e : Nat) (i : Nat) (st : Nat) (h_s : Kept q0 s) : Kept q0 (State.egressSkip s e i st) := by
  unfold State.egressSkip
  repeat' (first | with_reducible assumption | with_reducible apply kept_egressDone | (with_reducible apply kept_same; simp only [↓kept_mk, ↓keptF_self]))

theorem kept_egressGo {q0 : Base} (s : State) (e : Nat) (i : Nat) (d : EgDesc) (bad : Bool) (h_s : Kept q0 s) : Kept q0 (State.egressGo s e i d bad) := by
  unfold State.egressGo
  repeat' (first | with_reducible assumption | with_reducible apply kept_ite | with_reducible apply kept_egressSkip | with_reducible apply kept_gAsk | with_reducible apply kept_gRead | with_reducible apply kept_hole | with_reducible apply kept_msgOut)

theorem kept_egressSend {q0 : Base} (s : State) (e : Nat) (h_s : Kept q0 s) : Kept q0 (State.egressSend s e) := by
  unfold State.egressSend
  repeat' (first | with_reducible assumption | with_reducible apply kept_ite | with_reducible apply kept_egressGo | with_reducible apply kept_gAsk | with_reducible apply kept_gRead | with_reducible apply kept_hole)

theorem kept_execEgressSend {q0 : Base} (e : Nat) (s : State) (h_s : Kept q0 s) : KeptX q0 (execEgressSend e s) := by
  unfold execEgressSend
  repeat' (first | with_reducible assumption | with_reducible apply keptX_run | with_reducible apply kept_cohTail | with_reducible apply kept_egressSend)

theorem kept_svPumpGo {q0 : Base}  : ∀ (i0 : Nat) (s : State), Kept q0 s → Kept q0 (State.svPumpGo s i0) := by
  intro i0
  induction i0 with
  | zero =>
    intros
    unfold State.svPumpGo
    repeat' with_reducible assumption
  | succ n ih =>
    intros
    unfold State.svPumpGo
    repeat' (first | with_reducible assumption | with_reducible apply kept_ite | with_reducible apply kept_hole | with_reducible apply kept_msgIn | with_reducible apply kept_tksAsk | with_reducible apply ih | split | (with_reducible apply kept_of_sent; with_reducible assumption) | (with_reducible apply kept_of_full; with_reducible assumption) | (with_reducible apply kept_of_taken; with_reducible assumption) | (with_reducible apply kept_same; simp only [↓kept_mk, ↓keptF_self]))

theorem kept_svPump {q0 : Base} (s : State) (h_s : Kept q0 s) : Kept q0 (State.svPump s) := by
  unfold State.svPump
  repeat' (first | with_reducible assumption | with_reducible apply kept_svPumpGo)

theorem kept_svReply {q0 : Base} (s : State) (r : SvReq) (status : Nat) (first : Nat) (toks : List W32) (h_s : Kept q0 s) : Kept q0 (State.svReply s r status first toks) := by
  unfold State.svReply
  repeat' (first | with_reducible assumption | with_reducible apply kept_svPump | (with_reducible apply kept_same; simp only [↓kept_mk, ↓keptF_self]))

theorem kept_svCmd {q0 : Base} (s : State) (cmd : Nat) (args : List Nat) (h_s : Kept q0 s) : Kept q0 (State.svCmd s cmd args) := by
  unfold State.svCmd
  repeat' (first | with_reducible assumption | with_reducible apply kept_emit)

theorem kept_svOpen {q0 : Base} (s : State) (seq : Nat) (h_s : Kept q0 s) : Kept q0 (State.svOpen s seq) := by
  unfold State.svOpen
  repeat' (first | with_reducible assumption | with_reducible apply kept_svCmd)

theorem kept_svPages {q0 : Base} (s : State) (seq : Nat) (old : Nat) (new : Nat) (h_s : Kept q0 s) : Kept q0 (State.svPages s seq old new) := by
  unfold State.svPages
  repeat' (first | with_reducible assumption | with_reducible intro _ | with_reducible apply kept_foldl | with_reducible apply kept_ite | with_reducible apply kept_svCmd)

theorem kept_svAdmit {q0 : Base} (s : State) (r : SvReq) (h_s : Kept q0 s) : Kept q0 (State.svAdmit s r) := by
  unfold State.svAdmit
  repeat' (first | with_reducible assumption | with_reducible apply kept_ite | with_reducible apply kept_svOpen | with_reducible apply kept_svReply | split | (with_reducible apply kept_same; simp only [↓kept_mk, ↓keptF_self]))

theorem kept_execServingAdmission {q0 : Base} (r : SvReq) (s : State) (h_s : Kept q0 s) : KeptX q0 (execServingAdmission r s) := by
  unfold execServingAdmission
  repeat' (first | with_reducible assumption | with_reducible apply keptX_next | with_reducible apply kept_accPump | with_reducible apply kept_svAdmit)

theorem kept_execServingAdmissionTimeout {q0 : Base} (id : W64) (s : State) (h_s : Kept q0 s) : KeptX q0 (execServingAdmissionTimeout id s) := by
  unfold execServingAdmissionTimeout
  repeat' (first | with_reducible assumption | with_reducible apply kept_ite | with_reducible apply keptX_next | with_reducible apply kept_accPump | with_reducible apply kept_svReply | split | (with_reducible apply kept_same; simp only [↓kept_mk, ↓keptF_self]))

theorem kept_svBegin {q0 : Base} (s : State) (h_s : Kept q0 s) : Kept q0 (State.svBegin s) := by
  unfold State.svBegin
  repeat' (first | with_reducible assumption | with_reducible intro _ | with_reducible apply kept_foldl | with_reducible apply kept_gWrite | with_reducible apply kept_syncAdd | (with_reducible apply kept_same; simp only [↓kept_mk, ↓keptF_self]))

theorem kept_svEntry {q0 : Base} (s : State) (i : Nat) (x : SvEnt) (vs : List Nat) (h_s : Kept q0 s) : Kept q0 (State.svEntry s i x vs) := by
  unfold State.svEntry
  repeat' (first | with_reducible assumption | with_reducible apply kept_ite | with_reducible apply kept_svCmd | with_reducible apply kept_svPages | with_reducible apply kept_svReply | (with_reducible apply kept_same; simp only [↓kept_mk, ↓keptF_self]))

theorem kept_svEnd {q0 : Base} (s : State) (h_s : Kept q0 s) : Kept q0 (State.svEnd s) := by
  unfold State.svEnd
  repeat' (first | with_reducible assumption | with_reducible intro _ | with_reducible apply kept_foldl | with_reducible apply kept_ite | with_reducible apply kept_gAsk | with_reducible apply kept_gRead | with_reducible apply kept_hole | with_reducible apply kept_svEntry | split | (with_reducible apply kept_same; simp only [↓kept_mk, ↓keptF_self]))

theorem kept_svReload {q0 : Base} (s : State) (h_s : Kept q0 s) : Kept q0 (State.svReload s) := by
  unfold State.svReload
  repeat' (first | with_reducible assumption | with_reducible apply kept_svCmd)

theorem kept_svStep {q0 : Base} (s : State) (h_s : Kept q0 s) : Kept q0 (State.svStep s) := by
  unfold State.svStep
  repeat' (first | with_reducible assumption | with_reducible intro _ | with_reducible apply kept_foldl | with_reducible apply kept_ite | with_reducible apply kept_svBegin | with_reducible apply kept_svEnd | with_reducible apply kept_svReload | with_reducible apply kept_svReply | (with_reducible apply kept_same; simp only [↓kept_mk, ↓keptF_self]))

theorem kept_execServingStep {q0 : Base} (s : State) (h_s : Kept q0 s) : KeptX q0 (execServingStep s) := by
  unfold execServingStep
  repeat' (first | with_reducible assumption | with_reducible apply keptX_next | with_reducible apply kept_cohTail | with_reducible apply kept_svPump | with_reducible apply kept_svStep)

end Sys2Proof.Machine
end

