-- ==== Sys2Proof/Laws/KeepTick.lean ====
section
/-! SUPPORT. What the operations of Machine/Tick.lean keep. -/

namespace Sys2Proof.Machine

theorem kept_tick {q0 : Base} (s : State) (h_s : Kept q0 s) : Kept q0 (State.tick s) := by
  unfold State.tick
  repeat' (first | with_reducible assumption | with_reducible apply kept_ite | with_reducible apply kept_set)

end Sys2Proof.Machine
end

