-- ==== Sys2Proof/Machine/Mctp.lean ====
section
/-! DEFINITION. The management port's bytes (R358): MCTP packets on Ethernet, their reassembly, and Axotte messages. The packet header is that of DSP0236
(PRESUMED, log entry 34). -/

namespace Sys2Proof.Machine

/-- The longest message that the hub reassembles, and the transmission units of its ports (R358). -/
abbrev mctpMax : Nat := 4120
def mctpUnitOk (ethernet : Bool) (unit : Nat) : Bool := if ethernet then decide (64 ≤ unit) && decide (unit ≤ 1024) else unit == 64

/-- The header of an MCTP packet: version 1, destination and source endpoint, first and last flag, sequence, tag owner, tag. -/
def mctpHead (dst src : Nat) (som eom : Bool) (seq : Nat) (owner : Bool) (tag : Nat) : List Byte :=
  leBytes 1 1 ++ leBytes 1 dst ++ leBytes 1 src ++ leBytes 1 (128 * b2n som + 64 * b2n eom + 16 * (seq % 4) + 8 * b2n owner + tag % 8)

/-- A message cut into packets of at most one transmission unit; the first argument is fuel, `first` marks the packet that starts it. -/
def mctpCut (dst src unit tag : Nat) (owner : Bool) : Nat → Bool → Nat → List Byte → List (List Byte)
  | 0, _, _, _ => []
  | n + 1, first, seq, bs =>
    if bs.length ≤ unit then [mctpHead dst src first true seq owner tag ++ bs]
    else (mctpHead dst src first false seq owner tag ++ bs.take unit) :: mctpCut dst src unit tag owner n false (seq + 1) (bs.drop unit)

/-- One packet taken into a message under reassembly: the message so far and the next sequence number, or none; what is complete. A packet of another version,
out of sequence, or that takes the message past its limit drops it. -/
def mctpTake (old : Option (List Byte × Nat)) (pkt : List Byte) : Option (List Byte × Nat) × Option (List Byte) :=
  let f := leNat ((pkt.drop 3).take 1)
  let body := pkt.drop 4
  let start := if nbit f 7 then some ([], nbits f 5 4) else old
  match start with
  | none => (none, none)
  | some (bs, seq) =>
    if pkt.length < 4 ∨ leNat (pkt.take 1) % 16 ≠ 1 ∨ nbits f 5 4 ≠ seq % 4 ∨ mctpMax < bs.length + body.length then (none, none)
    else if nbit f 6 then (none, some (bs ++ body))
    else (some (bs ++ body, seq + 1), none)

/-- The frame of the Ethernet port that carries one packet. -/
def mctpFrame (da sa : Nat) (pkt : List Byte) : List Byte := beBytes 6 da ++ beBytes 6 sa ++ beBytes 2 0x88B6 ++ pkt

/-- An Axotte message: type 0x7F, Flivon's enterprise number, the header of Table 15-4 or 15-5 and the payload, as in a mailbox window. -/
def axMessage (window : List Byte) : List Byte := leBytes 1 0x7F ++ beBytes 4 Config.flivonIana.toNat ++ window

/-- The request that an Axotte message holds: its header (Table 15-4), and flags, length and the reserved bytes, which its checks need; none for another
message. -/
def readAxMessage (msg : List Byte) : Option (Hdr × Nat × Nat × Nat) :=
  let w := msg.drop 5
  if leNat (msg.take 1) ≠ 0x7F ∨ beNat ((msg.drop 1).take 4) ≠ Config.flivonIana.toNat ∨ msg.length < 21 then none
  else
    let u (o n : Nat) : Nat := leNat ((w.drop o).take n)
    some (⟨u 0 2, BitVec.ofNat 32 (u 8 4), BitVec.ofNat 32 (u 12 4), nbit (u 2 2) 0⟩, u 2 2, u 4 2, u 6 2)

/-- The Axotte message that answers a command on its session (R360). -/
def mgmtBytes : Out → Option (List Byte)
  | .mgmt _ h status detail payload => some (axMessage (respBytes h status detail 0 payload))
  | _ => none

end Sys2Proof.Machine
end

