-- ==== Sys2Proof/Tests/Slice0.lean ====
section
/-! SUPPORT. Tests: an ill-formed command for each check, the manual's worked examples, and for each statement of the obligations concrete states and
operands that meet the hypotheses of each of its clauses (`witness_`). `Begins s q cmd u` is written as `Takes s q cmd` with `begun s q cmd` for u. -/

namespace Sys2Proof.Tests

open Sys2Proof Sys2Proof.Machine Sys2Proof.Spec

set_option maxRecDepth 100000
set_option Elab.async false

/-! ### States and operands -/

/-- A device that is Ready, and a request of a management mailbox. -/
def dev : State := { (((State.reset.bset R.stwStatus 31 true).fset R.stwBootStatus 31 29 3).set R.stwBootStepDone 0x7FE) with powered := true }
def q0 : Req := ⟨24, 1, 1, false⟩
def qh : Req := ⟨0, 1, 1, false⟩
/-- A bundle of three slots. -/
def bun (m v c : Nat) : W64 := BitVec.ofNat 64 (m * 2 ^ 44 + v * 2 ^ 20 + c)
/-- A control slot and a vector slot: opcode and operand bits. -/
def bc (op x : Nat) : W64 := bun 0 0 (op * 2 ^ 15 + x)
def bv (op x : Nat) : W64 := bun 0 (op * 2 ^ 18 + x) 0
/-- Tile 2175 runs at bundle 0. -/
def tl : State := dev.bset (R.tileSeqStatus 2175) 31 true
/-- An HBM of 4 GiB behind the device. -/
def hbm : State := ((dev.bset R.hubMemStatus 31 true).bset R.hubMemStatus 30 true).set R.hubMapHbmTop 0xFFFFFFFF
/-- A state whose tile t holds bundle b in its loop buffer, at the place it fetches next. -/
def lb (s : State) (t : Nat) (b : W64) : State := s.modTile t fun x => { x with loopBuf := [(s.pc t, b)] }
def dueB (s : State) (t : Nat) (b : W64) (k : Nat) : Bool :=
  s.running t && (match (s.tile t).bundle with
    | some o => nextSlot o b k
    | none => firstSlot b k && (s.fetchB t (s.pc t) == b) && !(s.fetchesLm t (s.pc t) && (fetched s t).lmBad t (8 * (fetched s t).pc t) 8)
      && (bundleCheck b).isNone && ((fetched s t).stallCode t b == 0))
theorem due {s : State} {t : Nat} {b : W64} {k : Nat} (h : dueB s t b k = true) : Due s t b k := by
  unfold dueB at h
  rw [Bool.and_eq_true] at h
  refine ⟨h.1, ?_⟩
  have h2 := h.2
  clear h
  generalize (s.tile t).bundle = x at h2 ⊢
  cases x with
  | some o => exact h2
  | none =>
    simp only [Bool.and_eq_true, Bool.not_eq_true', Option.isNone_iff_eq_none, beq_iff_eq] at h2
    exact ⟨h2.1.1.1.1, h2.1.1.1.2, h2.1.1.2, h2.1.2, h2.2⟩
def dsc : RegDesc := ⟨0, [], true, [⟨63, 63, .rc, .hub, 0, false⟩, ⟨62, 62, .wo, .hub, 0, false⟩, ⟨61, 61, .w1c, .hub, 0, false⟩, ⟨60, 60, .w1s, .hub, 0, false⟩,
  ⟨31, 16, .ro, .hub, 0, false⟩, ⟨15, 0, .rw, .hub, 0, false⟩]⟩
def dscP : RegDesc := ⟨0, [], true, [⟨15, 0, .rw, .hub, 0, false⟩]⟩
def rp : Replan := { mbx := none, low := [3] }
def sr0 : StepRes := ⟨1, 1, 1, [], [], [], [], 0, []⟩
def lpS (n : Nat) : State := (State.set (tl.modTile 2175 fun x => { x with loopOrd := [3] }) (R.tileSeqLoop 2175 3) (BitVec.ofNat 64 n))
def dr : Dressing := { st := .active, ctx := 5, image := 0, size := 0, digest := 0, dressId := 0, n := 1, lbase := 0, sbase := 0, syncs := 0 }
/-- The tile runs in an active dressing of context 5, over an HBM of 4 GiB, with a page, a cached line and an operand stream. -/
def te : TlbEnt := { ctx := 5, vpn := 0, size := 0, frame := 0, w := true, nc := false }
def cl : CLine := ⟨0, false, 0, false⟩
def tx : State := ((hbm.bset (R.tileSeqStatus 2175) 31 true).set (R.tileSinCfg 2175 3) 0xC0000000).set (R.tileSinStat 2175 3) 0x10000000
def td : State := { tx with l2p := [2175], dress := [(63, dr)], tlb := [(256 * 67, te)], tiles := [(2175, { cache := [(0, cl)] })] }
def ln (d : Dir) : State := { hbm with lines := [(1, { dir := d })] }
def rq (k : ReqK) (a : Agent) : CReq := { k := k, a := a, line := 128 }
def stP : DStream := { prod := 0x50000000 + 7 * 65536 + 9, cons := 0x20000000, ring := false, ringSize := 0, ringBase := 0, order := 0, rate := 1 }
def stB : DStream := { prod := 0x10000000, cons := 0x60000000 + 7 * 65536 + 9, ring := false, ringSize := 0, ringBase := 0, order := 0, rate := 1 }
/-- The serving profile runs on core 0 with a manifest at 0x1000, of one batch entry. -/
def sv : State := State.write { hbm.bset (R.svcStatus 0) 31 true with svc := { hbm.svc with loaded := true, arg := 0x1000 } } 0x1000
  (leBytes 4 0x5453464E ++ leBytes 2 1 ++ List.replicate 34 0 ++ leBytes 2 1 ++ leBytes 2 0 ++ leBytes 2 5 ++ List.replicate 20 0 ++ leBytes 2 9) false
def rqS : SvReq := ⟨1, 0, 0, 3, 1024, 1, 0, 0, [7], 0⟩
def svE : State := { sv with svc := { sv.svc with ents := [(0, { r := rqS, seq := 0 })] } }
def hp : State := { hbm.bset R.cxlStatus 31 true with cfg := { hbm.cfg with hdm := some (0x100000000, 0x100000000) } }
def mg : State := { dev with sec := { dev.sec with sess := [(5, ⟨1, true, true, true⟩)], conns := [(1, { stage := 3 })], keys := [(3, 1)], chains := [(3, [1, 2])] } }
def mo (clr : Bool) : MOp := { mclr := clr, acc := 0, clr := false, int := false, dA := 0x10000000, dB := 0x10000000, total := 2 }
def gr : Granule := ⟨[], [], false⟩
def mq (o : MOp) : State := tl.modTile 2175 fun x => { x with queue := [o], bufA := [gr], bufB := [gr] }
/-- Descriptors of FP32-class operands (format 1) in s2/s3 and s4/s5, and 32 in s1. -/
def mm : State := tl.modTile 2175 fun x => { x with sreg := [(1, 32), (2, 0x10000000), (4, 0x10000000)] }
def hf : State := { hbm with txn := [(1, { r := { rq .rdShared (.tile 2175) with tc := 3 }, fill := true })] }
def mv (p : MPhase) : MoveSt := { tier := 1, fmt := 0, srcTier := 0, srcUnit := 0, srcCount := 1, phase := p }
def ms (p : MPhase) : State := { hbm with store := { hbm.store with moves := [(7, mv p)] } }
/-- The context store is initialised: a sequence 1023 of context 5 with two groups, one page in group 0 with descriptor 7, in tier 2. -/
def pg : PD := { loc := 3, posStart := 0, posCount := 1, seq := 1023, group := 0, kind := 0, tier := 2, fmt := 1, wfmt := 1, size := 0, opened := false }
def st0 : State := State.setPd (State.write (State.write (State.write (State.write { (((hbm.bset R.ctxStoreStatus 31 true).set R.ctxSeqBase 0x100000).set
    R.ctxDescBase 0x200000).set R.ctxDescCount 65536 with
      store := { rBase := 0x100000, rLen := 0x500000, cap := 1024, chunkBase := 0x300000, chunks := 16, chunkUsed := [0, 1], descUsed := [7],
                 pools := [(1, [(0x60, 16)]), (2, [(0, 16)])], used := [(2, [3])] } }
    (0x100000 + 64 * 1023) (leBytes 8 (1 * 2 ^ 56 + 5 * 2 ^ 40 + 2 * 2 ^ 27 + 1 * 2 ^ 23) ++ leBytes 8 (64 * 2 ^ 48 + 16 * 2 ^ 32) ++ leBytes 8 (8 * 2 ^ 24)
      ++ leBytes 8 0x10000 ++ leBytes 8 0x301000 ++ leBytes 8 1) false)
    0x301000 (leBytes 8 (0x300 * 2 ^ 12) ++ leBytes 4 1 ++ leBytes 4 0xFFFFFFFF) false) 0x301010 (leBytes 8 0 ++ leBytes 4 0 ++ leBytes 4 0xFFFFFFFF) false)
    0x300000 (leBytes 4 7) false) 7 pg
def st0e : State := (st0.bset R.ctxStoreStatus 30 true).fset R.ctxStoreStatus 15 8 0
def la : Lane := { handle := 63, ctx := 5, tag := 9, ptile := 2175, port := 3 }
def ga (m : Bool) : Gather := { words := [0, 0, 0, 0], made := m }
def lst (l : Lane) : State := { st0 with lanes := [(511, l)] }
def tra : LaneTr := ⟨0, 0, 0x800000, 0, []⟩
def bx (q : Req) (m : Mbx) (k : Nat) (s : State) : State := (s.setBox q.mbx m).fset (R.mbxStatus q.mbx) 31 30 k
def su : State := { (hbm.bset (R.siteStatus 7) 31 true) with ans := [⟨.site 7, 128, 9, .datC, 0, false, 0, false, 0, 128⟩, ⟨.site 7, 128, 9, .cmpE, 0, false, 0, false, 0, 128⟩,
  ⟨.site 7, 128, 9, .rspErr, 0, false, 0, false, 0, 128⟩, ⟨.site 7, 128, 9, .datF, 0, false, 0, false, 0, 128⟩, ⟨.tile 2175, 128, 9, .datS, 0, false, 0, false, 0, 128⟩] }
def chg (t : PState) : PChange := { mbx := 24, target := t, save := 0, wakeOff := false }
def chS (t : PState) (s : State) : State := { s with rst := { s.rst with change := some (chg t) } }
def svd : SleepSv := { base := 0, digest := 0, regs := [], sync := [], store := {}, policy := dev.policy, expo := dev.expo, pools := [] }
def dmS : DmaSt := { src := 0, dst := 0, strides := 0, ctl := 0 }
def mg2 : State := { dev with mbx := [(24, { session := some 5 })], sec := { dev.sec with sess := [(5, ⟨1, true, false, false⟩)] } }
def bdn : State := { dev with bist := { dev.bist with done := [(1, [1], false)] } }
def co (x : SCore) : State := { hbm.bset (R.svcStatus 15) 31 true with svc := { hbm.svc with cores := [(15, x)], base := 0x100000, size := 0x4000000 } }
def sp (n : Nat) (p : SitePh) : State := dev.modSite n fun x => { x with ph := p }
def idS (w : List Nat) : State := ((((((sp 6 .idents).modSite 6 fun x => { x with words := w }).set (R.siteId 6 0) 0x01420000).set (R.siteId 6 2) 1).set (R.siteId 6 4) 20).set
  (R.siteId 6 6) 0x04100804).set (R.siteId 6 7) 0x00460008
def id8 : State := idS [0, 1, 2, 3, 4, 5, 6, 7]
def wd8 : W32 := BitVec.ofNat 32 (110 * 2 ^ 22 + 100 * 2 ^ 11)
def idGot (s : State) (n w : Nat) (v : W32) : State := ((s.siteHeard n).set (R.siteId n w) (BitVec.ofNat 64 v.toNat)).modSite n fun x => { x with words := sIns x.words w }
def heard (s : State) (n w : Nat) (v : W32) : SiteSt := (idGot s n w v).site n
def txn (k : ReqK) (fwd : Option Nat) : State := { hbm with lines := [(1, { dir := { fwd := fwd } })], txn := [(1, { r := rq k (.tile 2175), agents := [7] })] }
def apW : AppendW := { mbx := 24, seq := 1023, gFirst := 0, gCount := 1 }
def apS : State := { st0.set (R.xltCtx 5) (2 ^ 63 + 2 ^ 61 + 0x400000) with pools := [(5, ⟨0x400000, 0x40000, 0x410000⟩)], store := { st0.store with appends := [apW] } }
def apV : State := match apS.appendAll 1023 [0] with | .inr r => r.2 | .inl _ => State.reset
def stH : DStream := { prod := 0x40000009, cons := 0x10000000, ring := false, ringSize := 0, ringBase := 0, order := 0, rate := 1 }
def dm (c : Nat) : State := ((State.write td (lmBase 2175) (leBytes 8 0 ++ leBytes 8 0x7FFF0 ++ leBytes 8 0 ++ leBytes 8 c) false).bset (R.tileDmaCtrl 2175 3) 31 true).set (R.tileDmaTail 2175 3) 1
def dLM : DmaSt := { src := 0, dst := 0x7FFF0, strides := 0, ctl := BitVec.ofNat 64 (2 ^ 50 + 8191 * 2 ^ 51 + 2 ^ 47 + 2 ^ 46 + 1 * 2 ^ 24 + 16) }
/-- A context whose root table's first line a site owns: a walk waits for it. -/
def walkS : State := { hbm.set (R.xltCtx 5) (2 ^ 63 + 0x400000) with lines := [(0x8000, { dir := { owner := some 7 } })], walkQ := [⟨1, ⟨.tile, 2175⟩, 0, 5, 0, false, false⟩] }
def fr (op : Nat) (resp : Bool) (dst : Nat) : Frame := ⟨0, 0, 0, 1, (0, 0), (0, 0), op, 0, dst, 6, 1, resp, false, 0, 7, 0, 0, 16, 0, 0, 0, []⟩
def pt : State := (((dev.set R.tksDevId (2 ^ 31 + 5)).set R.tksDevPart 1).fset (R.tksStatus 7) 30 28 psUp).bset (R.tksStatus 7) 31 true
def tq (dst : Nat) : TReq := ⟨fr 2 false dst, .noone, 0, false⟩
/-- Device 6 is routed to port 7. -/
def rt6 : State := pt.set (R.tksRtMem 6) (2 ^ 15 + 7 * 16)
def tk (s : State) (f : Frame) : State := (s.tksTake 7 f).getD State.reset
def mE : MemoE := { src := 6, reqid := 7, status := 0, aux := 0, at0 := 0 }
def mV (s : State) (f : Frame) : State := State.memoCount { tk s f with memo := (tk s f).memo.filter fun e => !memoOld f e }
def f9 : Frame := { fr 1 false 5 with payload := List.replicate 16 0 }
def pm (n : Nat) : State := { pt with memo := List.replicate n { mE with src := 5 } }
def uc (x : ModSt) (k : Nat) : State := { dev.fset (R.siteModStatus 7 11) 24 21 k with mods := [(95, x)] }
/-- The SHAKE256 digest of no bytes (FIPS 202), least significant byte first, and an image whose signed part is empty, with that digest. -/
def empDig : BitVec 512 := BitVec.ofNat 512 (leNat [0x46, 0xb9, 0xdd, 0x2b, 0x0b, 0xa8, 0x8d, 0x13, 0x23, 0x3b, 0x3f, 0xeb, 0x74, 0x3e, 0xeb, 0x24, 0x3f, 0xcd,
  0x52, 0xea, 0x62, 0xb8, 0x1b, 0x82, 0xb5, 0x0c, 0x27, 0x64, 0x6e, 0xd5, 0x76, 0x2f, 0xd7, 0x5d, 0xc4, 0xdd, 0xd8, 0xc0, 0xf2, 0x00, 0xcb, 0x05, 0x01,
  0x9d, 0x67, 0xb5, 0x92, 0xf6, 0xfc, 0x82, 0x1c, 0x49, 0x47, 0x9a, 0xb4, 0x86, 0x40, 0x29, 0x2e, 0xac, 0xb3, 0xb7, 0xc4, 0xbe])
def empImg : List Byte := List.replicate 48 0 ++ leBytes 64 empDig.toNat ++ List.replicate 144 0
/-- A loaded dressing of context 5 whose image of 256 bytes stands at 0x1000 with a digest. -/
def ldd (g : BitVec 512) : Dressing := { dr with st := .loaded, image := 0x1000, size := 256, digest := g }
def dact (d : Dressing) : State := { State.write (hbm.set (R.xltCtx 5) (2 ^ 63)) 0x1030 (leBytes 64 d.digest.toNat) false with dress := [(63, d)] }
/-- A firmware image with an empty signed part and a security version, and a device that holds it at 0x1000. -/
def fwHd (svn : Nat) (g : BitVec 512) (magic : Nat := 0x46564C46) : List Byte := leBytes 4 magic ++ leBytes 2 1 ++ leBytes 2 0x100 ++ leBytes 8 30056 ++ leBytes 4 256
  ++ leBytes 4 svn ++ List.replicate 24 0 ++ leBytes 64 g.toNat
def fwS (svn : Nat) (g : BitVec 512) (mn : Nat) : State := (State.write hbm 0x1000 (fwHd svn g) false).fset R.secFwStatus 23 16 mn
/-- An image in this device's own memory is read at once. -/
theorem imageAt {u : State} {g : W64} {n : Nat} (h : u.imgHole g.toNat n = false) (k : u.near g.toNat = true) :
    ImageAt u g n (u.read (u.home (gLocal g.toNat)) n) u :=
  ⟨h, by simp [State.imgReady, k], by simp [State.imgBytes, h, k], by simp [k]⟩
def lanR (l : Lane) : State := { (rt6.bset R.ctxStoreStatus 31 true) with lanes := [(511, l)] }
def wk1 : WalkReq := ⟨1, ⟨.tile, 2175⟩, 0, 5, 0, false, false⟩
/-- A walk of a context that is not enabled: it ends in a fault. -/
def wkN : State := { hbm with walkQ := [wk1] }
/-- A service firmware image stands at 0x1000 of a device that has its space. -/
def svS : State := { State.write hbm 0x1000 (fwHd 0 0 1178818131) false with svc := { hbm.svc with size := 0x4000000, base := 0x100000 } }
/-- A device with an HBM and a Tukosen port that is up, whose class-0 bucket is empty. -/
def shutP : State := ((((hbm.set R.tksDevId (2 ^ 31 + 5)).set R.tksDevPart 1).fset (R.tksStatus 7) 30 28 psUp).bset (R.tksStatus 7) 31 true).set (R.regPartC0 0) 0

/-! ### Ill-formed commands: one for each check of WellFormed, refused by it -/

theorem test_wf_tile : (Instr.waitRelease 2176).wf = false := by decide
theorem test_wf_matrix_slot : (Instr.mma 2175 0).wf = false := by decide
theorem test_wf_vector_slot : (Instr.vadd 2175 0).wf = false := by decide
theorem test_wf_control_slot : (Instr.jmp 2175 (bc 1 0)).wf = false := by decide
theorem test_wf_scalar_function : (Instr.aluSub 2175 (bc 1 0)).wf = false := by decide
theorem test_wf_mailbox : (Instr.bupStatus ⟨28, 0, 0, false⟩).wf = false := by decide
theorem test_wf_site : (Instr.scrubTimeout 8).wf = false := by decide
theorem test_wf_module : (Instr.ucieAckTimer 7 12).wf = false := by decide
theorem test_wf_port : (Instr.tksPortRetrain 8).wf = false := by decide
theorem test_wf_frame : (Instr.getOp 7 (fr 1 false 0)).wf = false := by decide
theorem test_wf_bench : (Instr.benchIdle 68 10).wf = false := by decide
theorem test_wf_domain : (Instr.regionResetComplete 96).wf = false := by decide
theorem test_wf_step : (Instr.bootStepTimeout 11).wf = false := by decide
theorem test_wf_slot : (Instr.xltInvGo 16).wf = false := by decide
theorem test_wf_half : (Instr.walkComplete 2).wf = false := by decide
theorem test_wf_core : (Instr.firqRead 16 1).wf = false := by decide
theorem test_wf_object : (Instr.syncAdd 8192 1).wf = false := by decide
theorem test_wf_master : (Instr.registerWrite ⟨.tile, 2176⟩ 0x3FF000000000 8 0).wf = false := by decide
theorem test_wf_agent : (Instr.rspS (.tile 2176) 0).wf = false := by decide
/-- A frame for another device is not a request of this one (Table 13-8). -/
theorem test_fits_frame : (Instr.getOp 7 (fr 2 false 6)).fits pt = false := by decide +kernel
/-- The table gives no row bits: no word spells a command. -/
theorem test_word : decodeTableWord 32 0 = none := rfl

/-! ### The manual's worked examples -/

/-- Chapter 1: physical tile 0x527 (b41.07): its local memory and its register block. -/
theorem test_addresses : lmBase 1319 = 0x010229380000 ∧ (R.tileSeqStatus 1319).addr / 0x100000 = 0x3FF152700000 / 0x100000 := by decide
/-- Chapter 1: the global address of that local memory on device 0xC35. -/
theorem test_global_address : (dev.set R.tksDevId (2 ^ 31 + 0xC35)).gOwn (lmBase 1319) = 0x030D410229380000 := by decide +kernel
/-- The values of chapter 2's first block, as FP32. -/
def exV : List (Machine.Num × Nat) := ([0x40C00000, 0xC0200000, 0x3F800000, 0x3F400000, 0x40400000, 0x00000000, 0xC0800000, 0x3FC00000, 0x3F333333, 0xBE99999A, 0x3D4CCCCD, 0x3EE66666, 0x3E4CCCCD, 0xBF19999A, 0x3DCCCCCD, 0x3E800000, 0x00000000, 0x00000000, 0x00000000, 0x00000000, 0x00000000, 0x00000000, 0x00000000, 0x00000000, 0x00000000, 0x00000000, 0x00000000, 0x00000000, 0x00000000, 0x00000000, 0x00000000, 0x00000000] : List Nat).map fun v => (decode 0 v, 0)
/-- R39: the block's element plane and scale word. -/
theorem test_ssf4_block : packBytes 4 (quantBlock 8 false false 0 exV).1 = [0xC7, 0x22, 0x05, 0x3E, 0xC7, 0x61, 0xE3, 0x42, 0, 0, 0, 0, 0, 0, 0, 0]
    ∧ (quantBlock 8 false false 0 exV).2.1 = 0x0C7F := by decide +kernel
def exE : List (Machine.Num × Nat) := ([0x3F666666, 0x3E99999A] ++ List.replicate 30 0 : List Nat).map fun v => (decode 0 v, 0)
/-- R40: rule 0 saturates 0.9 and flags it; rule 1 does not. -/
theorem test_e4m3_block : (quantBlock 3 false true 0 exE).1.take 2 = [0x7E, 0x72] ∧ (quantBlock 3 false true 0 exE).2.1 = 0x76 ∧ (quantBlock 3 false true 0 exE).2.2 ≠ 0
    ∧ (quantBlock 3 true true 0 exE).1.take 2 = [0x76, 0x6A] ∧ (quantBlock 3 true true 0 exE).2 = (0x77, 0) := by decide +kernel
/-- R46, R48: 1.3 to BF16 under stochastic rounding in lane 3 of logical tile 5, and to nearest even. -/
theorem test_stochastic : lcgDraw (lcg 323) = 0x5C7A ∧ (convElem 1 false 4 0x5C7A (decode 0 0x3FA66666)).1 = 0x3FA7
    ∧ (convElem 1 false 0 0 (decode 0 0x3FA66666)).1 = 0x3FA6 := by decide +kernel
/-- Chapter 7's module: hbm1 channel 9 mapped out. -/
def exH : State := ((((hbm.set (R.hbmChmap 0) 0xFFFFFFFF).set (R.hbmChmap 1) 0xFFFFFDFF).set (R.hbmChmap 2) 0xFFFFFFFF).set R.hubMapHbmSplit 0x0023A0000000).set
  R.hubMapHbmTop 0x00479FFFFFFF
/-- R192, R211: where the line at 0x12345680 is stored, and its home. -/
theorem test_line_home : exH.stackOf 0x12345680 = (1, 12, 3214976) ∧ exH.homeSlice 0x12345680 = 108 ∧ setOf 0x12345680 = 209 := by decide +kernel
/-- R220 to R223: the walk of chapter 8, with its run check. -/
def exX : State := (((hbm.set (R.xltCtx 28) (2 ^ 63 + 0x100000)).write 0x100240 (leBytes 8 0x120001) false).write 0x12D158 (leBytes 8 0x140001) false).write
  0x143C48 (leBytes 8 0x4A09000D) false
theorem test_walk : (exX.walk 0 28 0x123456789ABCD).1 = .page 1 0x4A000000 true false := by decide +kernel
/-- Chapter 16: the configuration word of queue 3. -/
theorem test_queue_word : iqWord 0x40000000 1024 1100 2 = some 0xA622600000040000 := by decide +kernel
/-- R351 to R353: chapter 15's request through mailbox 5, on a device whose objects are all free: the response in the window, and the mailbox's status. -/
theorem test_mailbox : (match exec (.fabSyncReserve ⟨5, 0x17, 0x102, true⟩ 16) dev with
      | .next t => decide (t.get (R.mbxStatus 5) = 0xC0000102) && decide (t.read (0x3FF001050000 + 0x1000) 20
          = leBytes 8 0x0000000400000408 ++ leBytes 4 0x17 ++ leBytes 4 0x102 ++ leBytes 2 0 ++ leBytes 2 16)
      | _ => false) = true := by decide +kernel
/-- R354: the same command, tag and sequence again reserves nothing. -/
theorem test_mailbox_again : (match exec (.fabSyncReserve ⟨5, 0x17, 0x102, true⟩ 16) dev with
      | .next t => (match exec (.fabSyncReserve ⟨5, 0x17, 0x102, true⟩ 16) t with
        | .next u => decide (u.syncOwner 16 = 0) && decide (u.syncOwner 15 = 2)
        | _ => false)
      | _ => false) = true := by decide +kernel
/-- FIPS 202's digest of no bytes. -/
theorem test_shake256 : shake256 [] = empDig := by decide +kernel
/-- Chapter 13's request: SYNC of the value 1 to object 3000 of device 0xC36. -/
def exF : Frame := { fr 4 false 0xC36 with src := 0xC35, hops := 32, reqid := 0x17, len := 0, floor := 0, addr := 0x3FF010BB8008, aux := 1 }
/-- R307, Tables 13-3 and 13-4: its transport header, the length of its frame, and that it is read as it was formed. -/
theorem test_frame : transHead { exF with tc := 0 } = (0x10030D80C3580000 * 2 ^ 64 + 0x0000170000000000) * 2 ^ 128 + 0x3FF010BB8008 * 2 ^ 64 + 1
    ∧ (ethBytes 0 0 (frameBody exF)).length = 66 ∧ readFrame (frameBody exF) = some exF := by decide +kernel
/-- Chapter 10: the unit of site3's RdShared, and the module it goes to while module 7 is down. -/
theorem test_site_unit : unitHead (BitVec.ofNat 128 (0x22005A0000000000 * 2 ^ 64 + 0x12345680)) = (some (some 0), 0)
    ∧ (dev.fset (R.siteStatus 3) 11 0 0xF7F).modSel 3 0x12345680 = 6 := by decide +kernel
/-- Chapter 17: what an allowance of 4,116 GB/s entitles the shares 48 and 16 to. -/
def exG : State := (((({ dev with regDemand := [(0, [4 * 17 + 1, 4 * 140 + 2, 4 * 140 + 3])] }.set (R.regSrc 17) 2).set (R.regSrc 140) 3).set (R.regPartShare 2) 48).set
  (R.regPartShare 3) 16).set R.regStatus 4116
theorem test_portion : exG.entitled 0 2 = 3087 ∧ exG.entitled 0 3 = 1029 := by decide +kernel

/-! ### Witnesses -/

theorem witness_StepRunsFront :
    (({ dev with pending := [.coolLeak false, .waitRelease 0] } : State).pending = .coolLeak false :: [.waitRelease 0])
    ∧ (∃ (s : State), s.pending = [] ∧ s.bget R.hubClkStatus 0 = true)
    ∧ (∃ (s : State), s.pending = [] ∧ s.bget R.hubClkStatus 0 = false) :=
  ⟨by decide +kernel,
    ⟨dev.bset R.hubClkStatus 0 true, by decide +kernel⟩,
    ⟨State.reset, by decide +kernel⟩⟩

theorem witness_QueueUntouched :
    (∃ t, step dev = .next t) :=
  ⟨_, rfl⟩

theorem witness_KeepsCanonicalForm :
    (dev.mem.wf = true ∧ risingFrom none dev.regs = true ∧ ∃ t, step dev = .next t) :=
  ⟨by decide +kernel, by decide +kernel, _, rfl⟩

theorem witness_RequestGate :
    (∃ (i : Instr) (q : Req) (s : State), axCmd i = some (q, 0x0110) ∧ q.mbx < 28 ∧ s.powered = false)
    ∧ (∃ (i : Instr) (q : Req) (s : State), axCmd i = some (q, 0x0110) ∧ q.mbx < 28 ∧ s.powered = true ∧ s.asleep = true ∧ q.mbx < 24)
    ∧ (∃ (i : Instr) (q : Req) (s : State), axCmd i = some (q, 0x0110) ∧ q.mbx < 28 ∧ s.powered = true ∧ s.asleep = false ∧ s.drowsing = false ∧ ((mbxState s q.mbx
      = 1 ∨ mbxState s q.mbx = 2) ∧ ((s.box q.mbx).cur ≠ some (hdr q 0x0110) ∨ (s.box q.mbx).begun = true)))
    ∧ (∃ (i : Instr) (q : Req) (s : State), axCmd i = some (q, 0x0110) ∧ q.mbx < 28 ∧ s.powered = true ∧ s.asleep = false ∧ s.drowsing = false ∧ (mbxState s q.mbx =
      0 ∨ mbxState s q.mbx = 3) ∧ s.bget R.stwStatus 31 = false)
    ∧ (∃ (i : Instr) (q : Req) (s : State) (l : Hdr), axCmd i = some (q, 0x0110) ∧ q.mbx < 28 ∧ s.powered = true ∧ s.asleep = false ∧ s.drowsing = false ∧ (mbxState
      s q.mbx = 0 ∨ mbxState s q.mbx = 3) ∧ s.bget R.stwStatus 31 = true ∧ (s.box q.mbx).last = some l ∧ l.cmd = 0x0110 ∧ l.tag = q.tag ∧ l.seq = q.seq)
    ∧ (∃ (i : Instr) (q : Req) (s : State), axCmd i = some (q, 0x0701) ∧ q.mbx < 28 ∧ s.powered = true ∧ s.asleep = false ∧ s.drowsing = false ∧ (mbxState s q.mbx =
      0 ∨ mbxState s q.mbx = 3) ∧ s.bget R.stwStatus 31 = true ∧ Option.any (fun l ↦ l.same (hdr q 0x0701)) (s.box q.mbx).last = false ∧ axGroup 0x0701 = 7 ∧
      q.mbx < 24)
    ∧ (∃ (i : Instr) (q : Req) (s : State), axCmd i = some (q, 0x0110) ∧ q.mbx < 28 ∧ s.powered = true ∧ s.asleep = false ∧ s.drowsing = false ∧ (mbxState s q.mbx =
      0 ∨ mbxState s q.mbx = 3) ∧ s.bget R.stwStatus 31 = true ∧ Option.any (fun l ↦ l.same (hdr q 0x0110)) (s.box q.mbx).last = false ∧ (axGroup 0x0110 ≠ 7 ∨
      24 ≤ q.mbx) ∧ s.bget R.secTenStatus 31 = true ∧ q.mbx < 24)
    ∧ (∃ (i : Instr) (q : Req) (s : State), axCmd i = some (q, 0x050D) ∧ q.mbx < 28 ∧ s.powered = true ∧ s.asleep = false ∧ s.drowsing = false ∧ (mbxState s q.mbx =
      0 ∨ mbxState s q.mbx = 3) ∧ s.bget R.stwStatus 31 = true ∧ Option.any (fun l ↦ l.same (hdr q 0x050D)) (s.box q.mbx).last = false ∧ (axGroup 0x050D ≠ 7 ∨
      24 ≤ q.mbx) ∧ s.bget R.secTenStatus 31 = false ∧ s.bget R.secTenStatus 30 = true ∧ q.mbx < 24 ∧ axGroup 0x050D ∉ [1, 8])
    ∧ (∃ (i : Instr) (q : Req) (s : State), axCmd i = some (q, 0x050D) ∧ q.mbx < 28 ∧ s.powered = true ∧ s.asleep = false ∧ s.drowsing = false ∧ (mbxState s q.mbx =
      0 ∨ mbxState s q.mbx = 3) ∧ s.bget R.stwStatus 31 = true ∧ Option.any (fun l ↦ l.same (hdr q 0x050D)) (s.box q.mbx).last = false ∧ (axGroup 0x050D ≠ 7 ∨
      24 ≤ q.mbx) ∧ s.bget R.secTenStatus 31 = false ∧ s.bget R.secTenStatus 30 = false ∧ s.fget R.stwBootStatus 31 29 ≠ 3 ∧ axGroup 0x050D ∉ [1, 7, 8, 9,
      10])
    ∧ (∃ (i : Instr) (q : Req) (s : State), axCmd i = some (q, 0x050D) ∧ q.mbx < 28 ∧ s.powered = true ∧ s.asleep = true ∧ s.drowsing = false ∧ 24 ≤ q.mbx ∧
      (mbxState s q.mbx = 0 ∨ mbxState s q.mbx = 3) ∧ s.bget R.stwStatus 31 = true ∧ Option.any (fun l ↦ l.same (hdr q 0x050D)) (s.box q.mbx).last = false ∧
      s.fget R.stwBootStatus 31 29 = 3 ∧ axGroup 0x050D ∉ [1, 7, 8, 9, 10] ∧ 0x050D % 32768 ≠ 516) :=
  ⟨⟨.rstHub q0, q0, State.reset, by decide +kernel⟩,
    ⟨.rstHub qh, qh, { dev with asleep := true }, by decide +kernel⟩,
    ⟨.rstHub q0, q0, bx q0 { cur := some (hdr q0 0x0110), begun := true } 2 dev, by decide +kernel⟩,
    ⟨.rstHub q0, q0, dev.bset R.stwStatus 31 false, by decide +kernel⟩,
    ⟨.rstHub q0, q0, bx q0 { last := some (hdr q0 0x0110) } 3 dev, hdr q0 0x0110, by decide +kernel⟩,
    ⟨.secHandover qh, qh, dev, by decide +kernel⟩,
    ⟨.rstHub qh, qh, dev.bset R.secTenStatus 31 true, by decide +kernel⟩,
    ⟨.ctxAudit qh, qh, dev.bset R.secTenStatus 30 true, by decide +kernel⟩,
    ⟨.ctxAudit q0, q0, dev.fset R.stwBootStatus 31 29 2, by decide +kernel⟩,
    ⟨.ctxAudit q0, q0, { dev with asleep := true }, by decide +kernel⟩⟩

theorem witness_ResponseForm :
    (∃ (s : State) (m : Nat) (h : Hdr) (p : List Byte) (a : Nat), m < 24 ∧ h.notify = false ∧ (s.box m).flr = false ∧ p.length % 4 = 0 ∧ p.length ≤ 4080 ∧ (a
      < (mbxBase m + 4096 : Nat) ∨ (mbxBase m + 4096 : Nat) + 16 + p.length ≤ a))
    ∧ (∃ (s : State) (m : Nat) (h : Hdr) (p : List Byte) (r : Reg), m < 24 ∧ h.notify = false ∧ (s.box m).flr = false ∧ p.length % 4 = 0 ∧ p.length ≤ 4080 ∧ r.addr
      ≠ (R.mbxStatus m).addr ∧ r.addr ≠ (R.mbxCount m).addr)
    ∧ (∃ (s : State) (m : Nat) (h : Hdr) (p : List Byte) (n : Nat), m < 24 ∧ h.notify = false ∧ (s.box m).flr = false ∧ p.length % 4 = 0 ∧ p.length ≤ 4080 ∧ n ≠ m) :=
  ⟨⟨dev, 23, hdr ⟨23, 1, 1, false⟩ 0x0101, List.replicate 4080 0, 0, by decide +kernel⟩,
    ⟨dev, 23, hdr ⟨23, 1, 1, false⟩ 0x0101, List.replicate 4080 0, R.hubIdModule, by decide +kernel⟩,
    ⟨dev, 23, hdr ⟨23, 1, 1, false⟩ 0x0101, List.replicate 4080 0, 24, by decide +kernel⟩⟩

theorem witness_AccessCodes :
    ((0 < 64 ∧ (1#64).getLsbD 0 = true) ∧ (∀ f ∈ dsc.flds, f.lo ≤ f.hi ∧ f.hi < 64) ∧ (∃ f ∈ dsc.flds, f.acc = Acc.rw ∧ f.lo ≤ 15 ∧ 15 ≤ f.hi) ∧ (∃ f ∈
      dsc.flds, f.acc = Acc.ro ∧ f.lo ≤ 16 ∧ 16 ≤ f.hi) ∧ (∃ f ∈ dsc.flds, f.acc = Acc.w1c ∧ f.lo ≤ 61 ∧ 61 ≤ f.hi) ∧ (∃ f ∈ dsc.flds, f.acc = Acc.w1s ∧ f.lo
      ≤ 60 ∧ 60 ≤ f.hi) ∧ (∃ f ∈ dsc.flds, f.acc = Acc.rc ∧ f.lo ≤ 63 ∧ 63 ≤ f.hi))
    ∧ (62 < 64 ∧ (BitVec.allOnes 64).getLsbD 62 = true ∧ (∀ f ∈ dsc.flds, f.lo ≤ 62 → 62 ≤ f.hi → f.acc = .wo) ∧ (∀ f ∈ dsc.flds, f.lo ≤ 32 → 32 ≤ f.hi → f.acc =
      .wo))
    ∧ (∃ f ∈ dsc.flds, f.acc = .rc ∧ f.lo ≤ 63 ∧ 63 ≤ f.hi)
    ∧ ((∀ f ∈ dscP.flds, f.lo ≤ f.hi ∧ f.hi < 64) ∧ ∀ f ∈ dscP.flds, f.acc ≠ .rc)
    ∧ (∃ f ∈ dsc.flds, f.acc = .rw ∧ f.lo ≤ 15 ∧ 15 ≤ f.hi)
    ∧ (¬ (∃ f ∈ dsc.flds, f.acc = Acc.rw ∧ f.lo ≤ 61 ∧ 61 ≤ f.hi) ∧ (∃ f ∈ dsc.flds, f.acc = Acc.w1c ∧ f.lo ≤ 61 ∧ 61 ≤ f.hi))
    ∧ (¬ (∃ f ∈ dsc.flds, f.acc = Acc.rw ∧ f.lo ≤ 16 ∧ 16 ≤ f.hi) ∧ ¬ (∃ f ∈ dsc.flds, f.acc = Acc.w1c ∧ f.lo ≤ 16 ∧ 16 ≤ f.hi))
    ∧ (8 ≠ 0)
    ∧ (∃ (a n : Nat), (n = 4 ∨ n = 8) ∧ a % n = 0 ∧ mgmtOnly a = true) :=
  ⟨by decide +kernel,
    by decide +kernel,
    by decide +kernel,
    by decide +kernel,
    by decide +kernel,
    by decide +kernel,
    by decide +kernel,
    by decide +kernel,
    ⟨0x3FF000600000, 8, by decide +kernel⟩⟩

theorem witness_ComputeFrame :
    (Due (lb tl 2175 (bc 1 (1 * 2 ^ 6))) 2175 (bc 1 (1 * 2 ^ 6)) 2 ∧ 1 ≠ nbits (cSlot (bc 1 0)) 10 6 ∧ aluRow (.aluAdd 2175 (bc 1 (1 * 2 ^ 6))) = some (2175,
      (bc 1 (1 * 2 ^ 6)), 0, false) ∧ tl.pc 2175 < 65535 ∧ (∀ n ∈ (tl.tile 2175).loopOrd, n < 4) ∧ (tl.tile 2175).bundle = none)
    ∧ (∃ v, exec (.aluAdd 2175 (bc 1 (1 * 2 ^ 6))) tl = .next v)
    ∧ (Due (lb tl 2175 (bv 1 (1 * 2 ^ 13))) 2175 (bv 1 (1 * 2 ^ 13)) 1 ∧ laneRow (.vadd 2175 (bv 1 (1 * 2 ^ 13))) = some (2175, (bv 1 (1 * 2 ^ 13)), 1))
    ∧ (∃ v, exec (.vadd 2175 (bv 1 (1 * 2 ^ 13))) tl = .next v) :=
  ⟨⟨due (by decide +kernel), by decide +kernel⟩,
    ⟨_, rfl⟩,
    ⟨due (by decide +kernel), by decide +kernel⟩,
    ⟨_, rfl⟩⟩

theorem witness_RegisterFile :
    (∃ (t r q p : Nat), r ≠ 0 ∧ (q ≠ t ∨ p ≠ r))
    ∧ (∃ (t r q p l : Nat), l < 64 ∧ (q ≠ t ∨ p ≠ r))
    ∧ (∃ (t k q p i j : Nat), i < 32 ∧ j < 32 ∧ (q ≠ t ∨ p ≠ k)) :=
  ⟨⟨2175, 31, 0, 31, by decide +kernel⟩,
    ⟨2175, 31, 2175, 30, 63, by decide +kernel⟩,
    ⟨2175, 3, 2175, 2, 31, 31, by decide +kernel⟩⟩

theorem witness_HoleRecord :
    (∃ (s : State) (m : Master) (k g : Nat) (r : Reg), k < 4 ∧ g < 2 ^ 64 ∧ m.idx < 4096 ∧ s.bget R.hubMapHoleInfo 31 = false ∧ r.addr ≠ R.hubMapHoleAddr.addr
      ∧ r.addr ≠ R.hubMapHoleInfo.addr)
    ∧ (∃ (s : State) (r : Reg), s.bget R.hubMapHoleInfo 31 = true ∧ r.addr ≠ R.hubMapHoleInfo.addr)
    ∧ (∃ (s : State) (m : Master) (a : W64) (n : Nat), s.powered = true ∧ masterOk m = true ∧ region (BitVec.toNat a) = Region.regs ∧ regOk (BitVec.toNat a) n =
      false ∧ (m.cls = MClass.tukosen ∨ m.cls = MClass.walker ∨ m.cls = MClass.steward ∨ m.cls = MClass.syncHome ∨ m.cls = MClass.hoist))
    ∧ (∃ (s : State) (m : Master) (a : W64) (n : Nat), s.powered = true ∧ masterOk m = true ∧ region (BitVec.toNat a) = Region.regs ∧ regOk (BitVec.toNat a) n =
      false ∧ m.cls = MClass.host)
    ∧ (∃ (s : State) (m : Master) (a : W64) (n : Nat), s.powered = true ∧ masterOk m = true ∧ region (BitVec.toNat a) = Region.regs ∧ regOk (BitVec.toNat a) n =
      false ∧ m.cls = MClass.core)
    ∧ (∃ (s : State) (m : Master) (a : W64) (n : Nat), s.powered = true ∧ masterOk m = true ∧ region (BitVec.toNat a) = Region.regs ∧ regOk (BitVec.toNat a) n =
      false ∧ m.cls = MClass.tile ∧ ((s.hole m 1 (s.gOwn (BitVec.toNat a)) : State).dressOf m.idx).isSome = true) :=
  ⟨⟨dev, ⟨.tile, 2175⟩, 2, 2 ^ 64 - 1, R.hubMapMgmtRefused, by decide +kernel⟩,
    ⟨dev.bset R.hubMapHoleInfo 31 true, R.hubMapHoleAddr, by decide +kernel⟩,
    ⟨dev, ⟨.tukosen, 7⟩, 0x3FF000000001, 4, by decide +kernel⟩,
    ⟨dev, ⟨.host, 0⟩, 0x3FF000000001, 4, by decide +kernel⟩,
    ⟨dev, ⟨.core, 15⟩, 0x3FF000000001, 4, by decide +kernel⟩,
    ⟨td, ⟨.tile, 2175⟩, 0x3FF000000001, 4, by decide +kernel⟩⟩

theorem witness_KillKeepsMemory :
    (0 < 0x3FF001000000)
    ∧ (2175 < 2176 ∧ 0x7FFFF < 0x80000) :=
  ⟨by decide +kernel,
    by decide +kernel⟩

theorem witness_BringUp :
    Takes dev q0 0x0102
    ∧ (∃ (s : State) (q : Req), Takes s q 0x0104 ∧ (begun s q 0x0104).bget R.stwBootStepDone 2 = true)
    ∧ (∃ (s : State) (q : Req), Takes s q 0x0104 ∧ (begun s q 0x0104).bget R.stwBootStepDone 2 = false)
    ∧ (∃ (s : State) (q : Req) (w : W32), Takes s q 0x8103 ∧ (begun s q 0x8103).fget R.stwBootStatus 31 29 = 2 ∧ BitVec.toNat w = BitVec.toNat ((begun s q
      0x8103).get R.stwBootShort))
    ∧ (∃ (s : State) (q : Req) (w : W32), Takes s q 0x8103 ∧ (begun s q 0x8103).fget R.stwBootStatus 31 29 = 2 ∧ BitVec.toNat w ≠ BitVec.toNat ((begun s q
      0x8103).get R.stwBootShort))
    ∧ (∃ (s : State) (q : Req), Takes s q 0x8103 ∧ (begun s q 0x8103).fget R.stwBootStatus 31 29 ≠ 2)
    ∧ (Takes (dev.set R.stwBootStepGo 0) q0 0x0101 ∧ 1 ∈ [1, 2, 3, 4, 9, 10] ∧ (∀ k < 1, 1 ≤ k → (begun dev q0 0x0101).stepGone k = true) ∧ (begun dev q0
      0x0101).stepGone 1 = false ∧ (begun dev q0 0x0101).stepStop 1 = none)
    ∧ (∃ (s : State) (q : Req) (n : Nat), Takes s q 0x8101 ∧ 1 ≤ n ∧ n ≤ 10 ∧ (begun s q 0x8101).stepGone n = false ∧ (begun s q 0x8101).stepStop n = none)
    ∧ (∃ (s : State) (q : Req) (n : Nat), Takes s q 0x8101 ∧ 1 ≤ n ∧ n ≤ 10 ∧ (begun s q 0x8101).stepGone n = false ∧ (begun s q 0x8101).stepStop n = some 32)
    ∧ (∃ (s : State) (n : Nat), 1 ≤ n ∧ n ≤ 10 ∧ s.powered = true ∧ s.bget R.stwStatus 31 = true ∧ s.stepGone n = false ∧ s.stepStop n = none)
    ∧ (∃ (s : State) (n : Nat), 1 ≤ n ∧ n ≤ 10 ∧ s.powered = true ∧ s.bget R.stwStatus 31 = true ∧ s.stepGone n = false ∧ s.stepStop n = some 32)
    ∧ (∃ (s : State) (n : Nat) (r : StepRes), 1 ≤ n ∧ n ≤ 10 ∧ s.powered = true ∧ s.bget R.stwStatus 31 = true ∧ s.rst.hub = false ∧ s.stepGone n = true ∧
      s.stepDoneB n = false ∧ s.stepFailed n = false ∧ (n = 2 → r.obNorth = s.get (R.hubIdOb 0) ∧ r.obSouth = s.get (R.hubIdOb 1)) ∧ (n = 6 → s.sitesSettled =
      true) ∧ (n = 7 → s.portsSettled = true))
    ∧ (∃ (s : State) (r : StepRes), s.powered = true ∧ s.bget R.stwStatus 31 = true ∧ s.rst.hub = false ∧ s.stepGone 2 = true ∧ s.stepDoneB 2 = false ∧ s.stepFailed
      2 = false ∧ ¬(r.obNorth = s.get (R.hubIdOb 0) ∧ r.obSouth = s.get (R.hubIdOb 1)))
    ∧ (∃ (s : State) (n : Nat), n ∈ [1, 2, 3, 4, 9, 10] ∧ s.powered = true ∧ s.stepGone n = true ∧ s.stepDoneB n = false ∧ s.stepFailed n = false)
    ∧ (∃ (s : State) (vin : Nat), s.powered = false ∧ 4600 ≤ vin)
    ∧ (∃ (s : State) (us : Nat), s.powered = true ∧ 100 ≤ us ∧ s.modReset = false ∧ s.sec.burn = none)
    ∧ (∃ (s : State) (p : Bool), s.powered = true ∧ s.modReset = true ∧ (if p = true then s.rst.modRst else s.rst.perst) = false)
    ∧ (∃ (s : State) (i : Nat), s.powered = true ∧ 8000 < i)
    ∧ (∃ (s : State) (v us : Nat), s.powered = true ∧ 5800 < v ∧ 100 ≤ us)
    ∧ (∃ (s : State), s.powered = true ∧ s.asleep = false ∧ s.modReset = false ∧ s.bget R.hubClkStatus 0 = true)
    ∧ (∃ (s : State), s.rst.sched = true)
    ∧ (∃ (s : State), s.rst.hub = true)
    ∧ (∃ (s : State) (us : Nat), s.powered = true ∧ 2000 ≤ us)
    ∧ (∃ (s : State) (us : Nat), s.powered = true ∧ us < 2000) :=
  ⟨by decide +kernel,
    ⟨dev, q0, by decide +kernel⟩,
    ⟨dev.set R.stwBootStepDone 0, q0, by decide +kernel⟩,
    ⟨dev.fset R.stwBootStatus 31 29 2, q0, 0, by decide +kernel⟩,
    ⟨dev.fset R.stwBootStatus 31 29 2, q0, 1, by decide +kernel⟩,
    ⟨dev, q0, by decide +kernel⟩,
    by decide +kernel,
    ⟨dev, q0, 10, by decide +kernel⟩,
    ⟨dev.set R.stwBootStepDone 0, q0, 10, by decide +kernel⟩,
    ⟨dev, 10, by decide +kernel⟩,
    ⟨dev.set R.stwBootStepDone 0, 2, by decide +kernel⟩,
    ⟨(dev.set R.stwBootStepGo 0x400).set R.stwBootStepDone 0, 10, sr0, by decide +kernel⟩,
    ⟨(dev.set R.stwBootStepGo 0x4).set R.stwBootStepDone 0, ⟨1, 2, 1, [], [], [], [], 0, []⟩, by decide +kernel⟩,
    ⟨(dev.set R.stwBootStepGo 0x2).set R.stwBootStepDone 0, 1, by decide +kernel⟩,
    ⟨State.reset, 4600, by decide +kernel⟩,
    ⟨dev, 100, by decide +kernel⟩,
    ⟨{ dev with modReset := true }, false, by decide +kernel⟩,
    ⟨dev, 8001, by decide +kernel⟩,
    ⟨dev, 5801, 100, by decide +kernel⟩,
    ⟨dev.bset R.hubClkStatus 0 true, by decide +kernel⟩,
    ⟨{ dev with rst := { dev.rst with sched := true } }, by decide +kernel⟩,
    ⟨{ dev with rst := { dev.rst with hub := true } }, by decide +kernel⟩,
    ⟨dev, 2000, by decide +kernel⟩,
    ⟨dev, 1999, by decide +kernel⟩⟩

theorem witness_ResetsAndPowerStates :
    (∃ (s : State) (q : Req), Takes s q 0x0110 ∧ (begun s q 0x0110).sec.burn = none ∧ (begun s q 0x0110).bget R.safStatus 31 = true ∧ (begun s q
      0x0110).resetting q.mbx = false)
    ∧ (∃ (s : State) (q : Req), Takes s q 0x0110 ∧ (begun s q 0x0110).sec.burn = none ∧ (begun s q 0x0110).bget R.safStatus 31 = false)
    ∧ (∃ (s : State) (q : Req) (d : Nat), Takes s q 0x0111 ∧ d < 96 ∧ domFixed d = false ∧ ¬(76 ≤ d ∧ d < 84) ∧ (begun s q 0x0111).resetting q.mbx = false ∧ (d < 68
      → (begun s q 0x0111).fget R.stwPstate 31 30 ≠ 1) ∧ d ∉ (begun s q 0x0111).rst.held ∧ (begun s q 0x0111).bget (R.pwrDomStatus d) 31 = true ∧ (68 ≤ d → d
      < 70 → (begun s q 0x0111).ssJob = none))
    ∧ (∃ (s : State) (q : Req) (d : Nat), Takes s q 0x0111 ∧ d < 96 ∧ domFixed d = true)
    ∧ (∃ (s : State) (q : Req) (d : Nat), Takes s q 0x8111 ∧ d < 96 ∧ domFixed d = false ∧ ¬(76 ≤ d ∧ d < 84) ∧ (begun s q 0x8111).resetting q.mbx = false ∧ (d < 68
      → (begun s q 0x8111).fget R.stwPstate 31 30 ≠ 1) ∧ d ∉ (begun s q 0x8111).rst.held ∧ (begun s q 0x8111).bget (R.pwrDomStatus d) 31 = true ∧ (68 ≤ d → d
      < 70 → (begun s q 0x8111).ssJob = none))
    ∧ (∃ (s : State) (q : Req) (d : Nat), Takes s q 0x8111 ∧ d < 96 ∧ domFixed d = false ∧ ¬(76 ≤ d ∧ d < 84) ∧ (begun s q 0x8111).resetting q.mbx = false ∧ (d < 68
      → (begun s q 0x8111).fget R.stwPstate 31 30 ≠ 1) ∧ d ∈ (begun s q 0x8111).rst.held)
    ∧ (∃ (s : State) (d m : Nat), d < 96 ∧ tget s.rst.region d = some (some m, false) ∧ 70 ≤ d)
    ∧ (∃ (s : State) (d m : Nat), d < 68 ∧ tget s.rst.region d = some (some m, false))
    ∧ (∃ (s : State) (q : Req), Takes s q 0x0204 ∧ (begun s q 0x0204).resetting q.mbx = false ∧ (begun s q 0x0204).drowseOk = true)
    ∧ (∃ (s : State) (q : Req) (save : Nat), Takes s q 0x0204 ∧ (begun s q 0x0204).resetting q.mbx = false ∧ save % 1048576 = 0 ∧ (begun s q 0x0204).hbmBacked save
      = true ∧ (begun s q 0x0204).hbmBacked (save + 1048575) = true ∧ (begun s q 0x0204).bget R.safStatus 30 = false ∧ (begun s q 0x0204).sleepOk = true ∧
      (begun s q 0x0204).ssJob = none)
    ∧ (∃ (s : State) (q : Req) (ms : Nat), Takes s q 0x8204 ∧ 1 ≤ ms ∧ ms ≤ 1000 ∧ (begun s q 0x8204).resetting q.mbx = false ∧ (begun s q 0x8204).drowseOk = true)
    ∧ (∃ (s : State) (c : PChange), s.rst.change = some c ∧ c.going = false ∧ s.asleep = false ∧ s.changeOk c = false)
    ∧ (∃ (s : State) (c : PChange), s.rst.change = some c ∧ c.going = false ∧ s.asleep = false ∧ s.changeOk c = true)
    ∧ (∃ (s : State) (us : Nat) (v : SleepSv) (ok : BitVec 6), s.asleep = true ∧ 10 ≤ us ∧ s.bget R.stwPstate 29 = true ∧ s.rst.save = some v ∧ s.rst.change = none
      ∧ ((List.range 6).any fun t ↦ s.get (R.hbmChmap t) != 0 && !ok.getLsbD t) = false)
    ∧ (∃ (s : State) (us : Nat) (ok : BitVec 6), s.asleep = true ∧ 10 ≤ us ∧ s.bget R.stwPstate 29 = true ∧ ((List.range 6).any fun t ↦ s.get (R.hbmChmap t) != 0 &&
      !ok.getLsbD t) = true)
    ∧ (∃ (s : State) (b us : Nat), b < 68 ∧ 10 ≤ us ∧ s.tilesOn b = true ∧ s.benchBusy b = false) :=
  ⟨⟨dev.bset R.safStatus 31 true, q0, by decide +kernel⟩,
    ⟨dev, q0, by decide +kernel⟩,
    ⟨dev.bset (R.pwrDomStatus 67) 31 true, q0, 67, by decide +kernel⟩,
    ⟨dev, q0, 95, by decide +kernel⟩,
    ⟨dev.bset (R.pwrDomStatus 69) 31 true, q0, 69, by decide +kernel⟩,
    ⟨{ dev with rst := { dev.rst with held := [67] } }, q0, 67, by decide +kernel⟩,
    ⟨{ dev with rst := { dev.rst with region := [(95, (some 24, false))] } }, 95, 24, by decide +kernel⟩,
    ⟨{ dev with rst := { dev.rst with region := [(67, (some 0, false))] } }, 67, 0, by decide +kernel⟩,
    ⟨dev, q0, by decide +kernel⟩,
    ⟨hbm, q0, 0x100000, by decide +kernel⟩,
    ⟨dev, q0, 1000, by decide +kernel⟩,
    ⟨chS .drowse { dev with dress := [(63, dr)] }, chg .drowse, by decide +kernel⟩,
    ⟨chS .drowse dev, chg .drowse, by decide +kernel⟩,
    ⟨{ dev.bset R.stwPstate 29 true with asleep := true, rst := { dev.rst with save := some svd } }, 10, svd, 0, by decide +kernel⟩,
    ⟨{ (dev.bset R.stwPstate 29 true).set (R.hbmChmap 5) 1 with asleep := true }, 10, 0, by decide +kernel⟩,
    ⟨dev.bset (R.pwrDomStatus 67) 31 true, 67, 10, by decide +kernel⟩⟩

theorem witness_SupplyAndCaps :
    (∃ (s : State) (v : Nat), s.powered = true ∧ 4600 ≤ v ∧ v ≤ 5700 ∧ s.bget R.pwrSupplyStatus 31 = false)
    ∧ (∃ (s : State) (v : Nat), s.powered = true ∧ v < 4400 ∧ s.bget R.pwrSupplyStatus 31 = false)
    ∧ (∃ (s : State) (a : Nat), s.powered = true ∧ s.bget R.pwrSupplyStatus 31 = true ∧ 1000 ≤ a)
    ∧ (∃ (a : Nat), a < 1000)
    ∧ (∃ (s : State) (b : Burn), s.sec.burn = some b ∧ b.done = 0 ∧ s.bget R.pwrSupplyStatus 31 = true)
    ∧ (∃ (s : State), s.powered = true ∧ s.bget R.hubAuxStatus 31 = false)
    ∧ (∃ (s : State) (a : Nat), s.powered = true ∧ a ≤ 40)
    ∧ (∃ (s : State) (a : Nat), s.powered = true ∧ 40 < a ∧ s.pwr.hotInlet = false)
    ∧ (∃ (s : State) (q : Req) (h w : Nat), Takes s q 0x8201 ∧ h ≤ (begun s q 0x8201).fusedHub ∧ w ≤ (begun s q 0x8201).fusedSite ∧ (begun s q 0x8201).minHub ≤ h)
    ∧ (∃ (s : State) (q : Req) (h w : Nat), Takes s q 0x8201 ∧ ((begun s q 0x8201).fusedHub < h ∨ (begun s q 0x8201).fusedSite < w))
    ∧ (∃ (s : State) (q : Req) (w : Nat), Takes s q 0x0201 ∧ w ≤ (begun s q 0x0201).fusedModule ∧ 0 < (begun s q 0x0201).fusedModule ∧ (begun s q 0x0201).minHub ≤
      (begun s q 0x0201).fusedHub * w / (begun s q 0x0201).fusedModule)
    ∧ (∃ (s : State) (q : Req) (w : Nat), Takes s q 0x0201 ∧ (begun s q 0x0201).fusedModule < w)
    ∧ (∃ (s : State) (q : Req), Takes s q 0x0210 ∧ (∀ p < 2, (begun s q 0x0210).countUe 6 p = false ∧ (begun s q 0x0210).domSum p + (begun s q 0x0210).freeTok p =
      (begun s q 0x0210).fget (R.pwrPool p) 63 48 + (begun s q 0x0210).fget (R.pwrPool p) 15 0)) :=
  ⟨⟨dev, 5700, by decide +kernel⟩,
    ⟨dev, 4399, by decide +kernel⟩,
    ⟨dev.bset R.pwrSupplyStatus 31 true, 1000, by decide +kernel⟩,
    ⟨999, by decide +kernel⟩,
    ⟨{ dev.bset R.pwrSupplyStatus 31 true with sec := { dev.sec with burn := some ⟨24, 2, [], 0⟩ } }, ⟨24, 2, [], 0⟩, by decide +kernel⟩,
    ⟨dev, by decide +kernel⟩,
    ⟨dev, 40, by decide +kernel⟩,
    ⟨dev, 41, by decide +kernel⟩,
    ⟨dev, q0, dev.fusedHub, 0, by decide +kernel⟩,
    ⟨dev, q0, dev.fusedHub + 1, 0, by decide +kernel⟩,
    ⟨dev, q0, dev.fusedModule, by decide +kernel⟩,
    ⟨dev, q0, dev.fusedModule + 1, by decide +kernel⟩,
    ⟨dev, q0, by decide +kernel⟩⟩

theorem witness_PowerAndThermalControl :
    (∃ (s : State) (q : Req) (f n : Nat), Takes s q 0x0202 ∧ 1 ≤ n ∧ f + n ≤ 96)
    ∧ (∃ (s : State) (q : Req) (c : Nat), Takes s q 0x0203 ∧ 1 ≤ c ∧ c ≤ 16)
    ∧ (∃ (s : State) (q : Req) (c : Nat), Takes s q 0x0203 ∧ 16 < c)
    ∧ (∃ (s : State) (q : Req) (cs : List Nat) (l : Nat), Takes s q 0x8203 ∧ cs.length = 68 ∧ (∀ c ∈ cs, 1 ≤ c ∧ c ≤ 16) ∧ 70 ≤ l ∧ l ≤ 100)
    ∧ Takes dev q0 0x0240
    ∧ (∃ (s : State), s.bget R.safStatus 29 = true)
    ∧ (∃ (s : State) (d : List Nat) (b : Nat), s.bget R.safStatus 29 = false ∧ List.filter s.tilesOn (List.range 68) = [b] ∧ s.bistBenches.contains b = false ∧
      d.getD b 0 ≠ 0)
    ∧ (∃ (s : State) (b : Nat), b < 68 ∧ s.tilesOn b = true)
    ∧ (∃ (s : State) (mw : Nat), 103 * 125 * s.fget (R.pwrPool 0) 63 48 < 100 * mw)
    ∧ (∃ (s : State) (mw : Nat), 100 * mw ≤ 103 * 125 * s.fget (R.pwrPool 0) 63 48)
    ∧ (∃ (s : State) (b : Nat), b < 68 ∧ s.domUp b = true ∧ s.fget R.pwrThermCfg 7 0 < s.benchTemp b)
    ∧ (∃ (s : State) (b ms : Nat), b < 68 ∧ s.domUp b = true ∧ s.benchTemp b + 2 < s.fget R.pwrThermCfg 7 0 ∧ tgetD s.pwr.therm b 16 < 16 ∧ 1 ≤ ms)
    ∧ (∃ (s : State) (b ms : Nat), b < 68 ∧ 10 ≤ ms ∧ s.bget (R.pwrBenchTemp b) 16 = false ∧ 5 < gap (s.fget (R.pwrBenchTemp b) 7 0) (s.fget (R.pwrBenchTemp b) 15
      8))
    ∧ (∃ (s : State) (a b : Nat), adjacent a b = true ∧ s.domUp a = true ∧ s.domUp b = true)
    ∧ (∃ (s : State) (a b : Nat), tget s.pwr.pairs (2 * (68 * min a b + max a b)) = none ∧ 25 < gap (s.benchTemp a) (s.benchTemp b) ∧ 4 < tgetD s.pwr.grad (2 * (68
      * min a b + max a b)) 16)
    ∧ (∃ (s : State) (a b x y h : Nat), tget s.pwr.pairs (2 * (68 * min a b + max a b)) = some h ∧ gap (s.benchTemp a) (s.benchTemp b) ≤ 22 ∧ gap x y ≤ 60 ∧
      s.tclkMs ≤ s.since (tgetD s.pwr.gradAt (2 * (68 * min a b + max a b)) 0) ∧ tgetD s.pwr.grad (2 * (68 * min a b + max a b)) 16 < 15)
    ∧ (∃ (s : State) (a b h : Nat), tget s.pwr.pairs (2 * (68 * min a b + max a b)) = some h ∧ 25 < gap (s.benchTemp a) (s.benchTemp b) ∧ s.tclkMs ≤ s.since (tgetD
      s.pwr.gradAt (2 * (68 * min a b + max a b)) 0) ∧ tgetD s.pwr.grad (2 * (68 * min a b + max a b)) 16 ≠ 0) :=
  ⟨⟨dev, q0, 0, 96, by decide +kernel⟩,
    ⟨dev, q0, 16, by decide +kernel⟩,
    ⟨dev, q0, 17, by decide +kernel⟩,
    ⟨dev, q0, List.replicate 68 16, 100, by decide +kernel⟩,
    by decide +kernel,
    ⟨dev.bset R.safStatus 29 true, by decide +kernel⟩,
    ⟨dev.bset (R.pwrDomStatus 67) 31 true, List.replicate 68 1, 67, by decide +kernel⟩,
    ⟨dev.bset (R.pwrDomStatus 67) 31 true, 67, by decide +kernel⟩,
    ⟨dev, 1000, by decide +kernel⟩,
    ⟨dev, 0, by decide +kernel⟩,
    ⟨(dev.bset (R.pwrDomStatus 67) 31 true).set (R.pwrBenchTemp 67) 0x6B6B, 67, by decide +kernel⟩,
    ⟨{ dev.bset (R.pwrDomStatus 67) 31 true with pwr := { dev.pwr with therm := [(67, 15)] } }, 67, 1, by decide +kernel⟩,
    ⟨dev.set (R.pwrBenchTemp 67) 0x0600, 67, 10, by decide +kernel⟩,
    ⟨(dev.bset (R.pwrDomStatus 67) 31 true).bset (R.pwrDomStatus 66) 31 true, 66, 67, by decide +kernel⟩,
    ⟨dev.set (R.pwrBenchTemp 67) 0x6060, 66, 67, by decide +kernel⟩,
    ⟨(State.set { dev with pwr := { dev.pwr with pairs := [(9110, 67)], grad := [(9110, 14)] } } (R.pwrBenchTemp 67) 0x1616).set R.hubTimeCount 60000, 66, 67,
      0, 0, 67, by decide +kernel⟩,
    ⟨(State.set { dev with pwr := { dev.pwr with pairs := [(2 * (68 * 66 + 67), 67)] } } (R.pwrBenchTemp 67) 0x6060).set R.hubTimeCount 60000, 66, 67, 67,
      by decide +kernel⟩⟩

theorem witness_AgeingAndTelemetry :
    (∃ (s : State) (q : Req) (c : Nat), Takes s q 0x0230 ∧ (begun s q 0x0230).pwr.copy = some c)
    ∧ (∃ (s : State) (q : Req), Takes s q 0x0231 ∧ (begun s q 0x0231).pwr.replan = none ∧ (begun s q 0x0231).pwr.replanHeld = none ∧ (begun s q 0x0231).pwr.commitAt
      = none ∧ (begun s q 0x0231).bget R.pwrSupplyStatus 31 = false)
    ∧ (∃ (s : State) (q : Req), Takes s q 0x0231 ∧ (begun s q 0x0231).pwr.replan = none ∧ (begun s q 0x0231).pwr.replanHeld = none ∧ (begun s q 0x0231).pwr.commitAt
      = none ∧ (begun s q 0x0231).bget R.pwrSupplyStatus 31 = true)
    ∧ (∃ (s : State) (q : Req) (r : Replan), Takes s q 0x0231 ∧ (begun s q 0x0231).pwr.replan = some r)
    ∧ (∃ (s : State) (q : Req) (p g : Nat), Takes s q 0x8231 ∧ 24 ≤ p ∧ p ≤ 2160 ∧ 10 ≤ g ∧ g ≤ 100 ∧ (begun s q 0x8231).pwr.replan = none ∧ (begun s q
      0x8231).pwr.replanHeld = none ∧ (begun s q 0x8231).pwr.commitAt = none ∧ (begun s q 0x8231).bget R.pwrSupplyStatus 31 = false)
    ∧ (∃ (s : State) (r : Replan), s.pwr.replanHeld = some r ∧ s.bget R.pwrSupplyStatus 31 = false ∧ s.pwr.replan = none)
    ∧ (∃ (s : State) (r : Replan), s.pwr.replan = some r ∧ r.low ≠ [])
    ∧ (∃ (s : State) (d : Nat), d < 96 ∧ s.domUp d = true ∧ d ∉ s.pwr.seen ∧ tget s.pwr.slackRec d = none)
    ∧ (∃ (s : State) (d : Nat), d < 96 ∧ s.domUp d = true ∧ d ∈ s.pwr.seen ∧ tget s.pwr.slackRec d = none)
    ∧ (∃ (s : State), s.powered = true ∧ (s.pwr.replan.isSome = true ∨ s.bget R.pwrSupplyStatus 31 = true))
    ∧ (∃ (s : State) (q : Req) (m : Nat), Takes s q 0x0901 ∧ m < 1024 ∧ nbit m 4 = false)
    ∧ (∃ (s : State) (q : Req) (m : Nat), Takes s q 0x0901 ∧ m < 1024 ∧ nbit m 4 = true)
    ∧ (∃ (s : State) (q : Req) (k p : Nat), Takes s q 0x0902 ∧ 1 ≤ p ∧ p ≤ 10000 ∧ 4 ≤ k ∧ k ≤ 16)
    ∧ (∃ (s : State) (q : Req) (k p m c : Nat), Takes s q 0x8902 ∧ 1 ≤ p ∧ p ≤ 10000 ∧ 4 ≤ k ∧ k ≤ 16 ∧ m < 1024 ∧ c ≤ 3)
    ∧ (∃ (s : State) (t : TelSt), s.pwr.tel = some t ∧ s.gHole ((BitVec.toNat t.ring + t.slot * (s.telRecord t.mask t.seq : List Byte).length) % 2 ^ 64 : Nat)
      (s.telRecord t.mask t.seq : List Byte).length = false ∧ (s.isOwn ((BitVec.toNat t.ring + t.slot * (s.telRecord t.mask t.seq : List Byte).length) % 2 ^
      64 : Nat) && s.libHit (gLocal ((BitVec.toNat t.ring + t.slot * (s.telRecord t.mask t.seq : List Byte).length) % 2 ^ 64 : Nat)) (s.telRecord t.mask t.seq :
      List Byte).length) = false ∧ s.gRoom ((BitVec.toNat t.ring + t.slot * (s.telRecord t.mask t.seq : List Byte).length) % 2 ^ 64 : Nat) (s.telRecord t.mask
      t.seq : List Byte).length = true) :=
  ⟨⟨{ dev with pwr := { dev.pwr with copy := some 1 } }, q0, 1, by decide +kernel⟩,
    ⟨dev, q0, by decide +kernel⟩,
    ⟨dev.bset R.pwrSupplyStatus 31 true, q0, by decide +kernel⟩,
    ⟨{ dev with pwr := { dev.pwr with replan := some rp } }, q0, rp, by decide +kernel⟩,
    ⟨dev, q0, 24, 10, by decide +kernel⟩,
    ⟨{ dev with pwr := { dev.pwr with replanHeld := some rp } }, rp, by decide +kernel⟩,
    ⟨{ dev with pwr := { dev.pwr with replan := some rp } }, rp, by decide +kernel⟩,
    ⟨dev.bset (R.pwrDomStatus 95) 31 true, 95, by decide +kernel⟩,
    ⟨(State.bset { dev with pwr := { dev.pwr with seen := [95] } } (R.pwrDomStatus 95) 31 true), 95, by decide +kernel⟩,
    ⟨dev.bset R.pwrSupplyStatus 31 true, by decide +kernel⟩,
    ⟨dev, q0, 1007, by decide +kernel⟩,
    ⟨dev, q0, 1023, by decide +kernel⟩,
    ⟨dev, q0, 4, 10000, by decide +kernel⟩,
    ⟨dev, q0, 16, 1, 1023, 3, by decide +kernel⟩,
    ⟨{ hbm with pwr := { hbm.pwr with tel := some ⟨0, 4, 1, 1, 0, 0, 0⟩ } }, ⟨0, 4, 1, 1, 0, 0, 0⟩, by decide +kernel⟩⟩

theorem witness_PersistentBlockAndLog :
    (∃ (s : State) (q : Req) (f n : Nat), Takes s q 0x0A01 ∧ 1 ≤ n ∧ n ≤ 1020 ∧ f + n ≤ 1024)
    ∧ (Takes dev q0 0x0A02 ∧ (List.replicate 64 (0 : W32)).length = 64 ∧ 192 + 64 ≤ 256 ∧ dev.bget R.pwrSupplyStatus 31 = false ∧ ∀ w < 256, (begun dev q0
      0x0A02).worn w = false)
    ∧ (∃ (s : State) (q : Req) (f : Nat) (vs : List W32), Takes s q 0x0A02 ∧ 1 ≤ vs.length ∧ vs.length ≤ 64 ∧ (f < 128 ∨ 256 < f + vs.length))
    ∧ Takes dev q0 0x0A03
    ∧ (∃ (s : State) (w : Nat), 128 ≤ w ∧ w < 256 ∧ s.bget R.pwrSupplyStatus 31 = false ∧ s.worn w = false)
    ∧ (∃ (s : State) (w : Nat), 128 ≤ w ∧ w < 256 ∧ s.bget R.pwrSupplyStatus 31 = true)
    ∧ (∃ (s : State) (w : Nat), 128 ≤ w ∧ w < 256 ∧ s.bget R.pwrSupplyStatus 31 = false ∧ s.worn w = true)
    ∧ (∃ (s : State) (p : PWrite) (r : List PWrite), s.prb.q = p :: r ∧ s.prb.run = true)
    ∧ (∃ (s : State) (q : Req) (n : Nat), Takes s q 0x0803 ∧ 1 ≤ n ∧ n ≤ 127) :=
  ⟨⟨dev, q0, 4, 1020, by decide +kernel⟩,
    by decide +kernel,
    ⟨dev, q0, 256, [0], by decide +kernel⟩,
    by decide +kernel,
    ⟨dev, 255, by decide +kernel⟩,
    ⟨dev.bset R.pwrSupplyStatus 31 true, 128, by decide +kernel⟩,
    ⟨{ dev with prb := { dev.prb with count := [(255, 100000)] } }, 255, by decide +kernel⟩,
    ⟨{ dev with prb := { dev.prb with q := [⟨255, 0, none, false⟩], run := true } }, ⟨255, 0, none, false⟩, [], by decide +kernel⟩,
    ⟨dev, q0, 127, by decide +kernel⟩⟩

theorem witness_Regulation :
    (∃ (s : State) (q : Req) (p a b r : Nat), Takes s q 0x0320 ∧ p < 16 ∧ a ≤ b ∧ b < 150 ∧ r < 65536 ∧ ((begun s q 0x0320).setRates p r r).bget R.regStatus
      63 = false)
    ∧ (∃ (s : State) (q : Req) (p a b r : Nat), Takes s q 0x0320 ∧ p < 16 ∧ a ≤ b ∧ b < 150 ∧ r < 65536 ∧ ((begun s q 0x0320).setRates p r r).bget R.regStatus 63 =
      true)
    ∧ (∃ (s : State) (q : Req) (p a b rn rs bu sh ql : Nat), Takes s q 0x8320 ∧ p < 16 ∧ a ≤ b ∧ b < 150 ∧ rn < 65536 ∧ rs < 65536 ∧ 1 ≤ bu ∧ bu < 65536 ∧ 1 ≤ sh ∧
      sh < 256 ∧ ql < 1024 ∧ ((begun s q 0x8320).setRates p rn rs).bget R.regStatus 63 = false)
    ∧ (∃ (s : State) (q : Req) (a b c : Nat), Takes s q 0x0321 ∧ 1 ≤ a ∧ a < 256 ∧ 1 ≤ b ∧ b < 256 ∧ 1 ≤ c ∧ c < 256)
    ∧ (∃ (s : State) (q : Req) (a b c hi lo st : Nat), Takes s q 0x8321 ∧ 1 ≤ a ∧ a < 256 ∧ 1 ≤ b ∧ b < 256 ∧ 1 ≤ c ∧ c < 256 ∧ lo < hi ∧ hi < 16 ∧ 1 ≤ st ∧ st <
      256)
    ∧ Takes dev q0 0x0322
    ∧ (∃ (s : State) (q : Req) (p e : Nat), Takes s q 0x0323 ∧ p < 16 ∧ e ≤ 8)
    ∧ (∃ (s : State) (q : Req) (ws : List Nat), Takes s q 0x8323 ∧ ws.length = 16 ∧ (∀ w ∈ ws, w ≤ 64))
    ∧ (∃ (s : State) (lv : Nat), s.fget R.regCongCfg 15 12 ≤ lv)
    ∧ (∃ (s : State) (lv : Nat), lv < s.fget R.regCongCfg 15 12 ∧ lv ≤ s.fget R.regCongCfg 11 8) :=
  ⟨⟨dev, q0, 15, 149, 149, 1, by decide +kernel⟩,
    ⟨dev, q0, 15, 149, 149, 65535, by decide +kernel⟩,
    ⟨dev, q0, 15, 149, 149, 1, 1, 65535, 255, 1023, by decide +kernel⟩,
    ⟨dev, q0, 255, 1, 255, by decide +kernel⟩,
    ⟨dev, q0, 255, 1, 255, 15, 14, 255, by decide +kernel⟩,
    by decide +kernel,
    ⟨dev, q0, 15, 8, by decide +kernel⟩,
    ⟨dev, q0, List.replicate 16 64, by decide +kernel⟩,
    ⟨dev, 15, by decide +kernel⟩,
    ⟨dev, 0, by decide +kernel⟩⟩

theorem witness_ScalarUnit :
    (∃ (i : Instr) (t : Nat) (b : W64) (f : Nat) (imm : Bool) (s : State), Due s t b 2 ∧ aluRow i = some (t, b, f, imm) ∧ t < 2176 ∧ (cOp b = if imm = true
      then 2 else 1) ∧ nbits (cSlot b) 14 11 = f) :=
  ⟨Instr.aluMov 2175 (bc 1 (13 * 2 ^ 11)), 2175, bc 1 (13 * 2 ^ 11), 13, false, lb tl 2175 (bc 1 (13 * 2 ^ 11)), due (by decide +kernel), by decide +kernel⟩

theorem witness_ControlSlot :
    (∃ (s : State) (t : Nat) (b : W64), Due s t b 2 ∧ t < 2176 ∧ cOp b = 0)
    ∧ (∃ (s : State) (t : Nat) (b : W64), Due s t b 2 ∧ t < 2176 ∧ cOp b = 3)
    ∧ (∃ (s : State) (t : Nat) (b : W64), Due s t b 2 ∧ t < 2176 ∧ cOp b = 4)
    ∧ (∃ (s : State) (t : Nat) (b : W64), Due s t b 2 ∧ t < 2176 ∧ cOp b = 5)
    ∧ (∃ (s : State) (t : Nat) (b : W64), Due s t b 2 ∧ t < 2176 ∧ cOp b = 6 ∧ ((BitVec.toNat ((opened s t b 2 : State).sr t (nbits (cSlot b) 9 5)) + 4 *
      nbits (cSlot b) 4 0) % 524288 : Nat) % 4 = 0 ∧ (((opened s t b 2 : State).lmMeetAt t ((BitVec.toNat ((opened s t b 2 : State).sr t (nbits
      (cSlot b) 9 5)) + 4 * nbits (cSlot b) 4 0) % 524288 : Nat) 4).served t 2 : State).lmBad t ((BitVec.toNat ((opened s t b 2 : State).sr t
      (nbits (cSlot b) 9 5)) + 4 * nbits (cSlot b) 4 0) % 524288 : Nat) 4 = false)
    ∧ (∃ (s : State) (t : Nat) (b : W64), Due s t b 2 ∧ t < 2176 ∧ cOp b = 7 ∧ ((BitVec.toNat ((opened s t b 2 : State).sr t (nbits (cSlot b) 9 5)) + 4 *
      nbits (cSlot b) 4 0) % 524288 : Nat) % 4 = 0)
    ∧ (∃ (s : State) (t : Nat) (b : W64) (k : Nat) (e : TlbEnt) (g ck : Nat) (l : CLine), Due s t b 2 ∧ t < 2176 ∧ cOp b = 8 ∧ ((opened s t b 2 : State).gva
      t (cSlot b) : Nat) % 4 = 0 ∧ (opened s t b 2 : State).lookup t ((opened s t b 2 : State).gva t (cSlot b) : Nat) false = XlR.hit k e g ∧
      ((opened s t b 2 : State).lookupDone t 0 ((opened s t b 2 : State).gva t (cSlot b) : Nat) false : State).isOwn g = true ∧ region
      (gLocal g : Nat) = Region.hbm ∧ ((opened s t b 2 : State).lookupDone t 0 ((opened s t b 2 : State).gva t (cSlot b) : Nat) false :
      State).accHole (gLocal g : Nat) 4 AccessOp.read = false ∧ isLm (((opened s t b 2 : State).lookupDone t 0 ((opened s t b 2 :
      State).gva t (cSlot b) : Nat) false : State).home (gLocal g : Nat)) = false ∧ ((opened s t b 2 : State).lookupDone t 0 ((opened s t
      b 2 : State).gva t (cSlot b) : Nat) false : State).allocates g e.nc = true ∧ ((opened s t b 2 : State).lookupDone t 0 ((opened s t
      b 2 : State).gva t (cSlot b) : Nat) false : State).cacheFind t (gLocal g : Nat) = some (ck, l) ∧ l.perr = false)
    ∧ (∃ (s : State) (t : Nat) (b : W64) (k : Nat) (e : TlbEnt) (g : Nat), Due s t b 2 ∧ t < 2176 ∧ cOp b = 9 ∧ ((opened s t b 2 : State).gva t (cSlot b) :
      Nat) % 4 = 0 ∧ (opened s t b 2 : State).lookup t ((opened s t b 2 : State).gva t (cSlot b) : Nat) true = XlR.hit k e g ∧ ((opened s t b 2 :
      State).lookupDone t 0 ((opened s t b 2 : State).gva t (cSlot b) : Nat) true : State).isOwn g = true ∧ region (gLocal g : Nat) =
      Region.hbm ∧ ((opened s t b 2 : State).lookupDone t 0 ((opened s t b 2 : State).gva t (cSlot b) : Nat) true : State).accHole
      (gLocal g : Nat) 4 (AccessOp.write (leBytes 4 (BitVec.toNat (((opened s t b 2 : State).lookupDone t 0 ((opened s t b 2 : State).gva t
      (cSlot b) : Nat) true : State).sr t (nbits (cSlot b) 14 10) : W32)))) = false ∧ isLm (((opened s t b 2 : State).lookupDone t 0 ((opened s
      t b 2 : State).gva t (cSlot b) : Nat) true : State).home (gLocal g : Nat)) = false)
    ∧ (∃ (s : State) (t : Nat) (b : W64), Due s t b 2 ∧ t < 2176 ∧ cOp b = 10)
    ∧ (∃ (s : State) (t : Nat) (b : W64), Due s t b 2 ∧ t < 2176 ∧ cOp b = 11)
    ∧ (∃ (s : State) (t : Nat) (b : W64), Due s t b 2 ∧ t < 2176 ∧ cOp b = 14)
    ∧ (∃ (s : State) (t : Nat) (b : W64), Due s t b 2 ∧ t < 2176 ∧ cOp b = 12 ∧ (opened s t b 2 : State).loopBad t (nbits (cSlot b) 14 13 : Nat) (nbits (cSlot
      b) 7 3 + 1 : Nat) = false)
    ∧ (∃ (s : State) (t : Nat) (b : W64), Due s t b 2 ∧ t < 2176 ∧ cOp b = 13 ∧ (opened s t b 2 : State).loopBad t (nbits (cSlot b) 14 13 : Nat) (nbits (cSlot
      b) 4 0 + 1 : Nat) = false)
    ∧ (∃ (s : State) (t : Nat) (b : W64), Due s t b 2 ∧ t < 2176 ∧ cOp b = 15 ∧ (BitVec.toNat ((opened s t b 2 : State).sr t (nbits (cSlot b) 14 10)) : Nat) ≤
      8191)
    ∧ (∃ (s : State) (t : Nat) (b : W64), Due s t b 2 ∧ t < 2176 ∧ cOp b = 16)
    ∧ (∃ (s : State) (t : Nat) (b : W64), Due s t b 2 ∧ t < 2176 ∧ cOp b = 17)
    ∧ (∃ (s : State) (t : Nat) (b : W64) (k : Nat) (d : Dressing), Due s t b 2 ∧ t < 2176 ∧ cOp b = 18 ∧ (opened s t b 2 : State).bget (R.tileSinCfg t
      (nbits (cSlot b) 14 13 : Nat)) 31 = true ∧ (opened s t b 2 : State).bget (R.tileSinCfg t (nbits (cSlot b) 14 13 : Nat)) 30 = true ∧ (nbits (cSlot b)
      12 0 : Nat) ≤ (opened s t b 2 : State).fget (R.tileSinStat t (nbits (cSlot b) 14 13 : Nat)) 28 16 ∧ (opened s t b 2 : State).countUe 4 (4 *
      t + (nbits (cSlot b) 14 13 : Nat)) = false ∧ (opened s t b 2 : State).dressOf t = some (k, d))
    ∧ (∃ (s : State) (t : Nat) (b : W64), Due s t b 2 ∧ t < 2176 ∧ cOp b = 19)
    ∧ (∃ (s : State) (t : Nat) (b : W64), Due s t b 2 ∧ t < 2176 ∧ cOp b = 20)
    ∧ (∃ (s : State) (t : Nat) (b : W64), Due s t b 2 ∧ t < 2176 ∧ cOp b = 21)
    ∧ (∃ (s : State) (t : Nat) (b : W64), Due s t b 2 ∧ t < 2176 ∧ cOp b = 22)
    ∧ (∃ (s : State) (t : Nat) (b : W64), Due s t b 2 ∧ t < 2176 ∧ cOp b = 23) :=
  ⟨⟨lb tl 2175 (bc 0 0), 2175, bc 0 0, due (by decide +kernel), by decide +kernel⟩,
    ⟨lb tl 2175 (bc 3 0), 2175, bc 3 0, due (by decide +kernel), by decide +kernel⟩,
    ⟨lb tl 2175 (bc 4 0), 2175, bc 4 0, due (by decide +kernel), by decide +kernel⟩,
    ⟨lb tl 2175 (bc 5 0), 2175, bc 5 0, due (by decide +kernel), by decide +kernel⟩,
    ⟨lb tl 2175 (bc 6 0), 2175, bc 6 0, due (by decide +kernel), by decide +kernel⟩,
    ⟨lb tl 2175 (bc 7 0), 2175, bc 7 0, due (by decide +kernel), by decide +kernel⟩,
    ⟨lb td 2175 (bc 8 0), 2175, bc 8 0, 256 * 67, te, 0, 0, cl, due (by decide +kernel), by decide +kernel⟩,
    ⟨lb td 2175 (bc 9 0), 2175, bc 9 0, 256 * 67, te, 0, due (by decide +kernel), by decide +kernel⟩,
    ⟨lb tl 2175 (bc 10 0), 2175, bc 10 0, due (by decide +kernel), by decide +kernel⟩,
    ⟨lb tl 2175 (bc 11 0), 2175, bc 11 0, due (by decide +kernel), by decide +kernel⟩,
    ⟨lb tl 2175 (bc 14 0), 2175, bc 14 0, due (by decide +kernel), by decide +kernel⟩,
    ⟨lb tl 2175 (bc 12 0), 2175, bc 12 0, due (by decide +kernel), by decide +kernel⟩,
    ⟨lb tl 2175 (bc 13 0), 2175, bc 13 0, due (by decide +kernel), by decide +kernel⟩,
    ⟨lb tl 2175 (bc 15 0), 2175, bc 15 0, due (by decide +kernel), by decide +kernel⟩,
    ⟨lb tl 2175 (bc 16 0), 2175, bc 16 0, due (by decide +kernel), by decide +kernel⟩,
    ⟨lb (td.modTile 2175 fun x => { x with released := true }) 2175 (bc 17 0), 2175, bc 17 0, due (by decide +kernel), by decide +kernel⟩,
    ⟨lb td 2175 (bc 18 (3 * 2 ^ 13 + 4096)), 2175, bc 18 (3 * 2 ^ 13 + 4096), 63, dr, due (by decide +kernel), by decide +kernel⟩,
    ⟨lb tl 2175 (bc 19 0), 2175, bc 19 0, due (by decide +kernel), by decide +kernel⟩,
    ⟨lb tl 2175 (bc 20 0), 2175, bc 20 0, due (by decide +kernel), by decide +kernel⟩,
    ⟨lb tl 2175 (bc 21 0), 2175, bc 21 0, due (by decide +kernel), by decide +kernel⟩,
    ⟨lb tl 2175 (bc 22 0), 2175, bc 22 0, due (by decide +kernel), by decide +kernel⟩,
    ⟨lb tl 2175 (bc 23 0), 2175, bc 23 0, due (by decide +kernel), by decide +kernel⟩⟩

theorem witness_BundleSequence :
    (∃ (s : State) (t q : Nat), (s.tile t).loopOrd = [] ∧ s.pc t < 65535 ∧ q ≠ t)
    ∧ ((dev.tile 0).loopOrd = [] ∧ (0 : Int) ≤ (dev.pc 0 : Int) + 65535 ∧ (dev.pc 0 : Int) + 65535 ≤ 65535)
    ∧ ((dev.pc 0 : Int) + (-1) < 0 ∧ (65535 : Int) < (dev.pc 0 : Int) + 65536)
    ∧ (∃ (s : State) (t n : Nat) (ns : List Nat), t < 2176 ∧ n < 4 ∧ (s.tile t).loopOrd = n :: ns ∧ s.loopLast t n = s.pc t ∧ 1 < BitVec.toNat (s.get (R.tileSeqLoop
      t n)) ∧ BitVec.toNat (s.get (R.tileSeqLoop t n)) < 2 ^ 32)
    ∧ (∃ (s : State) (t n : Nat) (ns : List Nat), t < 2176 ∧ n < 4 ∧ (s.tile t).loopOrd = n :: ns ∧ s.loopLast t n = s.pc t ∧ BitVec.toNat (s.get (R.tileSeqLoop t
      n)) ≤ 1 ∧ ns = [] ∧ s.pc t < 65535) :=
  ⟨⟨dev, 2175, 0, by decide +kernel⟩,
    by decide +kernel,
    by decide +kernel,
    ⟨lpS 0xFFFFFFFF, 2175, 3, [], by decide +kernel⟩,
    ⟨lpS 1, 2175, 3, [], by decide +kernel⟩⟩

theorem witness_VectorLanes :
    (∃ (i : Instr) (t : Nat) (b : W64) (op : Nat) (s : State), Due s t b 1 ∧ laneRow i = some (t, b, op) ∧ t < 2176 ∧ vOp b = op)
    ∧ (∃ (t r : Nat) (vs : List W32) (q l : Nat), t < 2176 ∧ vs.length = 64 ∧ q ≠ r ∧ l < 64)
    ∧ (∃ (t : Nat) (vs : List W32) (q : Nat), t < 2176 ∧ vs.length = 64 ∧ q ≠ t) :=
  ⟨⟨Instr.vadd 2175 (bv 1 0), 2175, bv 1 0, 1, lb tl 2175 (bv 1 0), due (by decide +kernel), by decide +kernel⟩,
    ⟨2175, 31, List.replicate 64 0, 30, 63, by decide +kernel⟩,
    ⟨2175, List.replicate 64 0, 0, by decide +kernel⟩⟩

theorem witness_VectorSlot :
    (∃ (s : State) (t : Nat) (b : W64), Due s t b 1 ∧ t < 2176 ∧ vOp b = 0)
    ∧ (∃ (s : State) (t : Nat) (b : W64), Due s t b 1 ∧ t < 2176 ∧ vOp b = 24)
    ∧ (∃ (s : State) (t : Nat) (b : W64), Due s t b 1 ∧ t < 2176 ∧ vOp b = 25)
    ∧ (∃ (s : State) (t : Nat) (b : W64), Due s t b 1 ∧ t < 2176 ∧ vOp b = 29 ∧ nbits (vSlot b) 7 4 = 10 ∧ (opened s t b 1).rmode t (vSlot b % 8) = 0)
    ∧ (∃ (s : State) (t : Nat) (b : W64), Due s t b 1 ∧ t < 2176 ∧ vOp b = 30 ∧ nbits (vSlot b) 7 4 ≤ 4)
    ∧ (∃ (s : State) (t : Nat) (b : W64), Due s t b 1 ∧ t < 2176 ∧ vOp b = 32 ∧ BitVec.toNat ((opened s t b 1 : State).sr t (nbits (vSlot b) 12 8)) % 16 = 0
      ∧ (((opened s t b 1 : State).lmMeetAt t (BitVec.toNat ((opened s t b 1 : State).sr t (nbits (vSlot b) 12 8)) + 16 * nbits (vSlot b) 7 0
      : Nat) 256).served t 2 : State).lmBad t (BitVec.toNat ((opened s t b 1 : State).sr t (nbits (vSlot b) 12 8)) + 16 * nbits (vSlot b) 7 0 :
      Nat) 256 = false)
    ∧ (∃ (s : State) (t : Nat) (b : W64), Due s t b 1 ∧ t < 2176 ∧ vOp b = 33 ∧ BitVec.toNat ((opened s t b 1 : State).sr t (nbits (vSlot b) 12 8)) % 16 =
      0)
    ∧ (∃ (s : State) (t : Nat) (b : W64), Due s t b 1 ∧ t < 2176 ∧ vOp b = 34)
    ∧ (∃ (s : State) (t : Nat) (b : W64), Due s t b 1 ∧ t < 2176 ∧ vOp b = 35)
    ∧ (∃ (s : State) (t : Nat) (b : W64), Due s t b 1 ∧ t < 2176 ∧ vOp b = 36)
    ∧ (∃ (s : State) (t : Nat) (b : W64), Due s t b 1 ∧ t < 2176 ∧ vOp b = 37 ∧ (opened s t b 1 : State).popOk t (nbits (vSlot b) 12 11 : Nat) = true ∧
      (opened s t b 1 : State).countUe 4 (4 * t + (nbits (vSlot b) 12 11 : Nat)) = false ∧ flitsBad (List.take (nbits (vSlot b) 10 9 + 1 : Nat) ((opened s
      t b 1 : State).fifo t (nbits (vSlot b) 12 11 : Nat))) = false)
    ∧ (∃ (s : State) (t : Nat) (b : W64), Due s t b 1 ∧ t < 2176 ∧ vOp b = 38 ∧ (opened s t b 1 : State).bget (R.tileSoutStat t (nbits (vSlot b) 12 11 : Nat))
      31 = true) :=
  ⟨⟨lb tl 2175 (bv 0 0), 2175, bv 0 0, due (by decide +kernel), by decide +kernel⟩,
    ⟨lb tl 2175 (bv 24 0), 2175, bv 24 0, due (by decide +kernel), by decide +kernel⟩,
    ⟨lb tl 2175 (bv 25 0), 2175, bv 25 0, due (by decide +kernel), by decide +kernel⟩,
    ⟨lb tl 2175 (bv 29 (10 * 2 ^ 4)), 2175, bv 29 (10 * 2 ^ 4), due (by decide +kernel), by decide +kernel⟩,
    ⟨lb tl 2175 (bv 30 (4 * 2 ^ 4)), 2175, bv 30 (4 * 2 ^ 4), due (by decide +kernel), by decide +kernel⟩,
    ⟨lb tl 2175 (bv 32 255), 2175, bv 32 255, due (by decide +kernel), by decide +kernel⟩,
    ⟨lb tl 2175 (bv 33 255), 2175, bv 33 255, due (by decide +kernel), by decide +kernel⟩,
    ⟨lb tl 2175 (bv 34 0), 2175, bv 34 0, due (by decide +kernel), by decide +kernel⟩,
    ⟨lb tl 2175 (bv 35 0), 2175, bv 35 0, due (by decide +kernel), by decide +kernel⟩,
    ⟨lb tl 2175 (bv 36 0), 2175, bv 36 0, due (by decide +kernel), by decide +kernel⟩,
    ⟨lb ((tl.bset (R.tileSinCfg 2175 3) 31 true).modTile 2175 fun x => { x with sin := [(3, [⟨1, false, false⟩])] }) 2175 (bv 37 (3 * 2 ^ 11)), 2175, bv 37 (3 *
      2 ^ 11), due (by decide +kernel), by decide +kernel⟩,
    ⟨lb ((tl.bset (R.tileSoutStat 2175 3) 31 true).fset (R.tileSoutStat 2175 3) 12 0 1) 2175 (bv 38 (3 * 2 ^ 11)), 2175, bv 38 (3 * 2 ^ 11), due
      (by decide +kernel), by decide +kernel⟩⟩

theorem witness_AccumulatorSlot :
    (∃ (s : State) (t : Nat) (b : W64), Due s t b 1 ∧ t < 2176 ∧ vOp b = 40 ∧ nbit (vSlot b : Nat) 3 = false ∧ (opened s t b 1 : State).accBad t (nbits
      (vSlot b : Nat) 17 16 : Nat) = false ∧ (opened s t b 1 : State).accParity t (nbits (vSlot b : Nat) 17 16 : Nat) = false ∧ (opened s t b 1 :
      State).vawrCheck t (vSlot b : Nat) = 0)
    ∧ (∃ (s : State) (t : Nat) (b : W64), Due s t b 1 ∧ t < 2176 ∧ vOp b = 41 ∧ nbit (BitVec.toNat ((opened s t b 1 : State).sr t (nbits (vSlot b : Nat) 15
      11) : W32)) 31 = false ∧ nbit (BitVec.toNat ((opened s t b 1 : State).sr t (nbits (vSlot b : Nat) 15 11) : W32)) 15 = false ∧ (((List.range
      32).any fun r ↦ ((List.foldl (fun z r ↦ z.lmMeetAt t ((fun r ↦ woBase ((opened s t b 1 : State).sr t (nbits (vSlot b : Nat) 15 11) : W32) + r *
      woStride ((opened s t b 1 : State).sr t (nbits (vSlot b : Nat) 15 11) : W32) : Nat → Nat) r) 128) (opened s t b 1 : State) (List.range
      32)).served t 3 : State).lmBad t ((fun r ↦ woBase ((opened s t b 1 : State).sr t (nbits (vSlot b : Nat) 15 11) : W32) + r * woStride
      ((opened s t b 1 : State).sr t (nbits (vSlot b : Nat) 15 11) : W32) : Nat → Nat) r) 128) = false))
    ∧ (∃ (s : State) (t : Nat) (b : W64), Due s t b 1 ∧ t < 2176 ∧ vOp b = 42 ∧ (opened s t b 1 : State).accIsInt t (nbits (vSlot b) 17 16 : Nat) = false ∧
      (opened s t b 1 : State).accIsInt t (nbits (vSlot b) 15 14 : Nat) = false ∧ (opened s t b 1 : State).accBad t (nbits (vSlot b) 17 16 : Nat)
      = false ∧ (opened s t b 1 : State).accBad t (nbits (vSlot b) 15 14 : Nat) = false ∧ (opened s t b 1 : State).accParity t (nbits (vSlot b)
      17 16 : Nat) = false ∧ (opened s t b 1 : State).accParity t (nbits (vSlot b) 15 14 : Nat) = false)
    ∧ (∃ (s : State) (t : Nat) (b : W64), Due s t b 1 ∧ t < 2176 ∧ vOp b = 43 ∧ (opened s t b 1 : State).accIsInt t (nbits (vSlot b) 17 16 : Nat) = false ∧
      (opened s t b 1 : State).accBad t (nbits (vSlot b) 17 16 : Nat) = false ∧ (opened s t b 1 : State).accParity t (nbits (vSlot b) 17 16 : Nat)
      = false)
    ∧ (∃ (s : State) (t : Nat) (b : W64), Due s t b 1 ∧ t < 2176 ∧ vOp b = 44 ∧ (opened s t b 1 : State).accIsInt t (nbits (vSlot b) 17 16 : Nat) = false ∧
      (opened s t b 1 : State).accBad t (nbits (vSlot b) 17 16 : Nat) = false ∧ (opened s t b 1 : State).accParity t (nbits (vSlot b) 17 16 : Nat)
      = false)
    ∧ (∃ (s : State) (t : Nat) (b : W64), Due s t b 1 ∧ t < 2176 ∧ vOp b = 45 ∧ (opened s t b 1 : State).accIsInt t (nbits (vSlot b) 12 11 : Nat) = false ∧
      (opened s t b 1 : State).accBad t (nbits (vSlot b) 12 11 : Nat) = false ∧ (opened s t b 1 : State).accParity t (nbits (vSlot b) 12 11 : Nat)
      = false)
    ∧ (∃ (s : State) (t : Nat) (b : W64), Due s t b 1 ∧ t < 2176 ∧ vOp b = 45 ∧ (opened s t b 1 : State).accIsInt t (nbits (vSlot b) 12 11 : Nat) = false ∧
      (opened s t b 1 : State).accParity t (nbits (vSlot b) 12 11 : Nat) = true)
    ∧ (∃ (s : State) (t : Nat) (b : W64), Due s t b 1 ∧ t < 2176 ∧ vOp b = 46 ∧ (opened s t b 1 : State).accIsInt t (nbits (vSlot b : Nat) 2 1 : Nat) = false ∧
      (opened s t b 1 : State).accBad t (nbits (vSlot b : Nat) 2 1 : Nat) = false ∧ (opened s t b 1 : State).accParity t (nbits (vSlot b : Nat) 2 1
      : Nat) = false ∧ nbits (vSlot b : Nat) 17 13 ≠ nbits (vSlot b : Nat) 12 8 ∧ nbits (vSlot b : Nat) 17 13 ≠ nbits (vSlot b : Nat) 7 3 ∧ nbits (vSlot b : Nat) 12 8 ≠
      nbits (vSlot b : Nat) 7 3)
    ∧ (∃ (s : State) (t : Nat) (b : W64), Due s t b 1 ∧ t < 2176 ∧ vOp b = 47 ∧ nbits (vSlot b : Nat) 17 13 ≠ nbits (vSlot b : Nat) 12 8 ∧ nbits (vSlot b : Nat) 17 13 ≠
      (nbits (vSlot b : Nat) 7 3 : Nat) ∧ nbits (vSlot b : Nat) 12 8 ≠ (nbits (vSlot b : Nat) 7 3 : Nat) ∧ nbits (vSlot b : Nat) 17 13 ≠ (nbits (vSlot b : Nat) 7 3 : Nat) + 1
      ∧ nbits (vSlot b : Nat) 12 8 ≠ (nbits (vSlot b : Nat) 7 3 : Nat) + 1) :=
  ⟨⟨lb tl 2175 (bv 40 0), 2175, bv 40 0, due (by decide +kernel), by decide +kernel⟩,
    ⟨lb tl 2175 (bv 41 0), 2175, bv 41 0, due (by decide +kernel), by decide +kernel⟩,
    ⟨lb tl 2175 (bv 42 0), 2175, bv 42 0, due (by decide +kernel), by decide +kernel⟩,
    ⟨lb tl 2175 (bv 43 0), 2175, bv 43 0, due (by decide +kernel), by decide +kernel⟩,
    ⟨lb tl 2175 (bv 44 0), 2175, bv 44 0, due (by decide +kernel), by decide +kernel⟩,
    ⟨lb tl 2175 (bv 45 0), 2175, bv 45 0, due (by decide +kernel), by decide +kernel⟩,
    ⟨lb (tl.modTile 2175 fun x => { x with accPar := [0] }) 2175 (bv 45 0), 2175, bv 45 0, due (by decide +kernel), by decide +kernel⟩,
    ⟨lb tl 2175 (bv 46 (1 * 2 ^ 13 + 2 * 2 ^ 8 + 3 * 2 ^ 3)), 2175, bv 46 (1 * 2 ^ 13 + 2 * 2 ^ 8 + 3 * 2 ^ 3), due (by decide +kernel), by decide +kernel⟩,
    ⟨lb tl 2175 (bv 47 (1 * 2 ^ 13 + 2 * 2 ^ 8 + 4 * 2 ^ 3)), 2175, bv 47 (1 * 2 ^ 13 + 2 * 2 ^ 8 + 4 * 2 ^ 3), due (by decide +kernel), by decide +kernel⟩⟩

theorem witness_MatrixEngine :
    (∃ (s : State) (t : Nat) (b : W64), Due s t b 0 ∧ t < 2176 ∧ mSlot b = 0)
    ∧ (∃ (s : State) (t : Nat) (b : W64), Due s t b 0 ∧ t < 2176 ∧ mOp b = 1 ∧ 1 ≤ (BitVec.toNat ((opened s t b 0 : State).sr t (nbits (mSlot b : Nat) 5 1)))
      ∧ (BitVec.toNat ((opened s t b 0 : State).sr t (nbits (mSlot b : Nat) 5 1))) ≤ 1048544 ∧ (BitVec.toNat ((opened s t b 0 : State).sr t
      (nbits (mSlot b : Nat) 5 1))) % 32 = 0 ∧ dFmt ((opened s t b 0 : State).pair t (2 * nbits (mSlot b : Nat) 13 10) : W64) < 13 ∧ dFmt ((opened s t b 0
      : State).pair t (2 * nbits (mSlot b : Nat) 9 6) : W64) < 13 ∧ descClean ((opened s t b 0 : State).pair t (2 * nbits (mSlot b : Nat) 13 10) :
      W64) = true ∧ descClean ((opened s t b 0 : State).pair t (2 * nbits (mSlot b : Nat) 9 6) : W64) = true ∧ pairOk (dFmt ((opened s t b 0 :
      State).pair t (2 * nbits (mSlot b : Nat) 13 10) : W64)) (dFmt ((opened s t b 0 : State).pair t (2 * nbits (mSlot b : Nat) 9 6) : W64)) =
      true ∧ (nbit (mSlot b : Nat) 14 = true ∨ (opened s t b 0 : State).accIsInt t (nbits (mSlot b : Nat) 16 15 : Nat) = pairInt (dFmt ((opened s t b 0 :
      State).pair t (2 * nbits (mSlot b : Nat) 13 10) : W64))))
    ∧ (∃ (s : State) (t : Nat) (b : W64), Due s t b 0 ∧ t < 2176 ∧ mOp b = 2)
    ∧ (∃ (s : State) (t : Nat) (o : MOp) (q : List MOp), t < 2176 ∧ (s.tile t).queue = o :: q ∧ o.mclr = true)
    ∧ (∃ (s : State) (t : Nat) (o : MOp) (q : List MOp) (ga gb : Granule) (ta tb : List Granule), t < 2176 ∧ (s.tile t).queue = o :: q ∧ o.mclr = false ∧ (s.tile
      t).bufA = ga :: ta ∧ (s.tile t).bufB = gb :: tb ∧ o.done < o.fillA ∧ o.done < o.fillB ∧ ga.poison = false ∧ gb.poison = false ∧ (o.clr = false ∨ o.done
      ≠ 0) ∧ o.done + 1 ≠ o.total)
    ∧ (∃ (s : State) (t : Nat) (o : MOp) (q : List MOp) (ga gb : Granule) (ta tb : List Granule) (errs : List (Nat × Int)) (dup : Bool), t < 2176 ∧ (s.tile t).queue
      = o :: q ∧ o.mclr = false ∧ (s.tile t).bufA = ga :: ta ∧ (s.tile t).bufB = gb :: tb ∧ o.done < o.fillA ∧ o.done < o.fillB ∧ ga.poison = false ∧
      gb.poison = false ∧ (o.clr = false ∨ o.done ≠ 0) ∧ o.done + 1 = o.total ∧ s.accBad t o.acc = false ∧ (o.fault || s.granFails t o (granRows (dFmt o.dA)
      ga : List (List Machine.Num)) (granRows (dFmt o.dB) gb : List (List Machine.Num)) errs dup : Bool) = false)
    ∧ (∃ (s : State) (t : Nat) (o : MOp) (q : List MOp) (ga gb : Granule) (ta tb : List Granule) (errs : List (Nat × Int)) (dup : Bool), t < 2176 ∧ (s.tile t).queue
      = o :: q ∧ o.mclr = false ∧ (s.tile t).bufA = ga :: ta ∧ (s.tile t).bufB = gb :: tb ∧ o.done < o.fillA ∧ o.done < o.fillB ∧ ga.poison = false ∧
      gb.poison = false ∧ (o.clr = false ∨ o.done ≠ 0) ∧ o.done + 1 = o.total ∧ (o.fault || s.granFails t o (granRows (dFmt o.dA) ga : List (List
      Machine.Num)) (granRows (dFmt o.dB) gb : List (List Machine.Num)) errs dup : Bool) = true)
    ∧ (((mq (mo false)).tile 2175).queue = [mo false] ∧ (mo false).fillA < (mo false).total ∧ ((mq (mo false)).tile 2175).bufA.length < 2 ∧ dFmt (mo false).dA = 1 ∧
      fmtScaled 1 = false ∧ dEport (mo false).dA = none) :=
  ⟨⟨lb tl 2175 0, 2175, 0, due (by decide +kernel), by decide +kernel⟩,
    ⟨lb mm 2175 (bun (1 * 2 ^ 17 + 1 * 2 ^ 10 + 2 * 2 ^ 6 + 1 * 2) 0 0), 2175, bun (1 * 2 ^ 17 + 1 * 2 ^ 10 + 2 * 2 ^ 6 + 1 * 2) 0 0, due (by decide +kernel),
      by decide +kernel⟩,
    ⟨lb tl 2175 (bun (2 * 2 ^ 17) 0 0), 2175, bun (2 * 2 ^ 17) 0 0, due (by decide +kernel), by decide +kernel⟩,
    ⟨mq (mo true), 2175, mo true, [], by decide +kernel⟩,
    ⟨mq { mo false with fillA := 1, fillB := 1 }, 2175, { mo false with fillA := 1, fillB := 1 }, [], gr, gr, [], [], by decide +kernel⟩,
    ⟨mq { mo false with fillA := 2, fillB := 2, done := 1 }, 2175, { mo false with fillA := 2, fillB := 2, done := 1 }, [], gr, gr, [], [], [], false,
      by decide +kernel⟩,
    ⟨mq { mo false with fillA := 2, fillB := 2, done := 1, fault := true }, 2175, { mo false with fillA := 2, fillB := 2, done := 1, fault := true }, [], gr,
      gr, [], [], [], false, by decide +kernel⟩,
    by decide +kernel⟩

theorem witness_SlotOrder :
    (dev.running 2175 = false)
    ∧ ((tl.modTile 2175 fun x => { x with bundle := some { b := 0, slots := 2 } }).running 2175 = true ∧ nextSlot { b := 0, slots := 2 } 0 0 = false)
    ∧ (∃ (s : State) (t : Nat) (b : W64), (s.tile t).bundle = none ∧ s.fetchB t (s.pc t) ≠ b)
    ∧ ((lb tl 2175 (bc 31 0)).running 2175 = true ∧ ((lb tl 2175 (bc 31 0)).tile 2175).bundle = none ∧ firstSlot (bc 31 0) 2 = true ∧ (lb tl 2175 (bc 31 0)).fetchB
      2175 ((lb tl 2175 (bc 31 0)).pc 2175) = bc 31 0 ∧ (lb tl 2175 (bc 31 0)).fetchesLm 2175 ((lb tl 2175 (bc 31 0)).pc 2175) = false ∧ (bundleCheck (bc 31
      0)).isSome = true)
    ∧ (∃ (s : State) (t : Nat) (b : W64) (k : Nat), s.running t = true ∧ (s.tile t).bundle = none ∧ firstSlot b k = true ∧ s.fetchB t (s.pc t) = b ∧ s.fetchesLm t
      (s.pc t) = true ∧ (fetched s t).lmBad t (8 * (fetched s t).pc t) 8 = true) :=
  ⟨by decide +kernel,
    by decide +kernel,
    ⟨tl, 2175, 1, by decide +kernel⟩,
    by decide +kernel,
    ⟨{ tl with poison := (units (lmBase 2175) 8).map (·.1) }, 2175, 0, 2, by decide +kernel⟩⟩

theorem witness_TileArrivalsAndKills :
    (∃ (s : State) (t l : Nat) (a : Ans), t < 2176 ∧ List.find? (fun x ↦ x.a == Agent.tile t && x.line == 128 * l && x.k == AnsK.datS) s.ans = some a)
    ∧ (∃ (s : State) (t p : Nat) (f : Flit) (r : List Flit), t < 2176 ∧ p < 4 ∧ tgetD s.flight (4 * t + p) [] = f :: r ∧ s.seamHolds t (tget (s.tile t).sinSrc p) =
      false ∧ t / 32 ∉ s.rtrPar ∧ s.countUe 4 (4 * t + p) = false ∧ s.bget (R.tileSinCfg t p) 31 = true ∧ 0 < s.fget (R.tileSinStat t p) 12 0 ∧ s.bget
      (R.tileSinCfg t p) 30 = false ∧ f.poison = false)
    ∧ (∃ (s : State) (t p : Nat) (f g : Flit) (r : List Flit), t < 2176 ∧ p < 4 ∧ tgetD s.flight (4 * t + p) [] = g :: r ∧ f ≠ g)
    ∧ (∃ (s : State) (t p n : Nat), t < 2176 ∧ p < 4 ∧ 1 ≤ n ∧ n ≤ tgetD s.credFly (4 * t + p) 0 ∧ s.bget (R.tileSoutStat t p) 31 = true ∧ (s.tile t).wout = none ∧
      s.seamHolds t (tget (s.tile t).soutDst p) = false)
    ∧ (∃ (s : State) (t : Nat), t < 2176 ∧ (s.dressOf t).isSome = true)
    ∧ (∃ (s : State) (t : Nat), s.bget (R.tileErrStatus t) 31 = true)
    ∧ (∃ (s : State) (t c n d : Nat), s.bget (R.tileErrStatus t) 31 = false ∧ c < 256 ∧ n < 16 ∧ d < 256)
    ∧ (∃ (a : Nat), a < 70300041478144) :=
  ⟨⟨su, 2175, 1, ⟨.tile 2175, 128, 9, .datS, 0, false, 0, false, 0, 128⟩, by decide +kernel⟩,
    ⟨{ (tl.bset (R.tileSinCfg 2175 3) 31 true).fset (R.tileSinStat 2175 3) 12 0 1 with flight := [(4 * 2175 + 3, [⟨1, false, false⟩])] }, 2175, 3, ⟨1, false,
      false⟩, [], by decide +kernel⟩,
    ⟨{ tl with flight := [(4 * 2175 + 3, [⟨1, false, false⟩])] }, 2175, 3, ⟨2, false, false⟩, ⟨1, false, false⟩, [], by decide +kernel⟩,
    ⟨{ tl.bset (R.tileSoutStat 2175 3) 31 true with credFly := [(4 * 2175 + 3, 16)] }, 2175, 3, 16, by decide +kernel⟩,
    ⟨td, 2175, by decide +kernel⟩,
    ⟨tl.bset (R.tileErrStatus 2175) 31 true, 2175, by decide +kernel⟩,
    ⟨dev, 2175, 255, 15, 255, by decide +kernel⟩,
    ⟨0, by decide +kernel⟩⟩

theorem witness_TileDma :
    (∃ (s : State) (t n : Nat), t < 2176 ∧ n < 4 ∧ s.dressRuns t = true ∧ s.bget (R.tileDmaCtrl t n) 31 = true ∧ tget (s.tile t).dma n = none ∧ s.get
      (R.tileDmaHead t n) ≠ s.get (R.tileDmaTail t n) ∧ ((s.lmMeetAt t (fld (s.get (R.tileDmaCtrl t n)) 18 5 * 32 + 32 * BitVec.toNat (s.get (R.tileDmaHead t
      n)) : Nat) 32).served t (12 + n) : State).lmBad t (fld (s.get (R.tileDmaCtrl t n)) 18 5 * 32 + 32 * BitVec.toNat (s.get (R.tileDmaHead t n)) : Nat)
      32 = false ∧
      (({ src := (fun i ↦ BitVec.ofNat 64 (leNat (((s.lmMeetAt t (fld (s.get (R.tileDmaCtrl t n)) 18 5 * 32 + 32 * BitVec.toNat (s.get (R.tileDmaHead t n)) : Nat) 32).served t (12 + n) : State).lmRead t ((fld (s.get (R.tileDmaCtrl t n)) 18 5 * 32 + 32 * BitVec.toNat (s.get (R.tileDmaHead t n)) : Nat) + 8 * i) 8)) : Nat → W64) 0, dst := (fun i ↦ BitVec.ofNat 64 (leNat (((s.lmMeetAt t (fld (s.get (R.tileDmaCtrl t n)) 18 5 * 32 + 32 * BitVec.toNat (s.get (R.tileDmaHead t n)) : Nat) 32).served t (12 + n) : State).lmRead t ((fld (s.get (R.tileDmaCtrl t n)) 18 5 * 32 + 32 * BitVec.toNat (s.get (R.tileDmaHead t n)) : Nat) + 8 * i) 8)) : Nat → W64) 1, strides := (fun i ↦ BitVec.ofNat 64 (leNat (((s.lmMeetAt t (fld (s.get (R.tileDmaCtrl t n)) 18 5 * 32 + 32 * BitVec.toNat (s.get (R.tileDmaHead t n)) : Nat) 32).served t (12 + n) : State).lmRead t ((fld (s.get (R.tileDmaCtrl t n)) 18 5 * 32 + 32 * BitVec.toNat (s.get (R.tileDmaHead t n)) : Nat) + 8 * i) 8)) : Nat → W64) 2, ctl := (fun i ↦ BitVec.ofNat 64 (leNat (((s.lmMeetAt t (fld (s.get (R.tileDmaCtrl t n)) 18 5 * 32 + 32 * BitVec.toNat (s.get (R.tileDmaHead t n)) : Nat) 32).served t (12 + n) : State).lmRead t ((fld (s.get (R.tileDmaCtrl t n)) 18 5 * 32 + 32 * BitVec.toNat (s.get (R.tileDmaHead t n)) : Nat) + 8 * i) 8)) : Nat → W64) 3 }
      : DmaSt).invalid (((s.lmMeetAt t (fld (s.get (R.tileDmaCtrl t n)) 18 5 * 32 + 32 * BitVec.toNat (s.get (R.tileDmaHead t n)) : Nat) 32).served t (12 + n) :
      State).dmaBound t n
      ({ src := (fun i ↦ BitVec.ofNat 64 (leNat (((s.lmMeetAt t (fld (s.get (R.tileDmaCtrl t n)) 18 5 * 32 + 32 * BitVec.toNat (s.get (R.tileDmaHead t n)) : Nat) 32).served t (12 + n) : State).lmRead t ((fld (s.get (R.tileDmaCtrl t n)) 18 5 * 32 + 32 * BitVec.toNat (s.get (R.tileDmaHead t n)) : Nat) + 8 * i) 8)) : Nat → W64) 0, dst := (fun i ↦ BitVec.ofNat 64 (leNat (((s.lmMeetAt t (fld (s.get (R.tileDmaCtrl t n)) 18 5 * 32 + 32 * BitVec.toNat (s.get (R.tileDmaHead t n)) : Nat) 32).served t (12 + n) : State).lmRead t ((fld (s.get (R.tileDmaCtrl t n)) 18 5 * 32 + 32 * BitVec.toNat (s.get (R.tileDmaHead t n)) : Nat) + 8 * i) 8)) : Nat → W64) 1, strides := (fun i ↦ BitVec.ofNat 64 (leNat (((s.lmMeetAt t (fld (s.get (R.tileDmaCtrl t n)) 18 5 * 32 + 32 * BitVec.toNat (s.get (R.tileDmaHead t n)) : Nat) 32).served t (12 + n) : State).lmRead t ((fld (s.get (R.tileDmaCtrl t n)) 18 5 * 32 + 32 * BitVec.toNat (s.get (R.tileDmaHead t n)) : Nat) + 8 * i) 8)) : Nat → W64) 2, ctl := (fun i ↦ BitVec.ofNat 64 (leNat (((s.lmMeetAt t (fld (s.get (R.tileDmaCtrl t n)) 18 5 * 32 + 32 * BitVec.toNat (s.get (R.tileDmaHead t n)) : Nat) 32).served t (12 + n) : State).lmRead t ((fld (s.get (R.tileDmaCtrl t n)) 18 5 * 32 + 32 * BitVec.toNat (s.get (R.tileDmaHead t n)) : Nat) + 8 * i) 8)) : Nat → W64) 3 }
      : DmaSt).port) = false))
    ∧ (∃ (s : State) (t n : Nat), t < 2176 ∧ n < 4 ∧ s.dressRuns t = true ∧ s.bget (R.tileDmaCtrl t n) 31 = true ∧ tget (s.tile t).dma n = none ∧ s.get
      (R.tileDmaHead t n) ≠ s.get (R.tileDmaTail t n) ∧ ((s.lmMeetAt t (fld (s.get (R.tileDmaCtrl t n)) 18 5 * 32 + 32 * BitVec.toNat (s.get (R.tileDmaHead t
      n)) : Nat) 32).served t (12 + n) : State).lmBad t (fld (s.get (R.tileDmaCtrl t n)) 18 5 * 32 + 32 * BitVec.toNat (s.get (R.tileDmaHead t n)) : Nat)
      32 = false ∧
      (({ src := (fun i ↦ BitVec.ofNat 64 (leNat (((s.lmMeetAt t (fld (s.get (R.tileDmaCtrl t n)) 18 5 * 32 + 32 * BitVec.toNat (s.get (R.tileDmaHead t n)) : Nat) 32).served t (12 + n) : State).lmRead t ((fld (s.get (R.tileDmaCtrl t n)) 18 5 * 32 + 32 * BitVec.toNat (s.get (R.tileDmaHead t n)) : Nat) + 8 * i) 8)) : Nat → W64) 0, dst := (fun i ↦ BitVec.ofNat 64 (leNat (((s.lmMeetAt t (fld (s.get (R.tileDmaCtrl t n)) 18 5 * 32 + 32 * BitVec.toNat (s.get (R.tileDmaHead t n)) : Nat) 32).served t (12 + n) : State).lmRead t ((fld (s.get (R.tileDmaCtrl t n)) 18 5 * 32 + 32 * BitVec.toNat (s.get (R.tileDmaHead t n)) : Nat) + 8 * i) 8)) : Nat → W64) 1, strides := (fun i ↦ BitVec.ofNat 64 (leNat (((s.lmMeetAt t (fld (s.get (R.tileDmaCtrl t n)) 18 5 * 32 + 32 * BitVec.toNat (s.get (R.tileDmaHead t n)) : Nat) 32).served t (12 + n) : State).lmRead t ((fld (s.get (R.tileDmaCtrl t n)) 18 5 * 32 + 32 * BitVec.toNat (s.get (R.tileDmaHead t n)) : Nat) + 8 * i) 8)) : Nat → W64) 2, ctl := (fun i ↦ BitVec.ofNat 64 (leNat (((s.lmMeetAt t (fld (s.get (R.tileDmaCtrl t n)) 18 5 * 32 + 32 * BitVec.toNat (s.get (R.tileDmaHead t n)) : Nat) 32).served t (12 + n) : State).lmRead t ((fld (s.get (R.tileDmaCtrl t n)) 18 5 * 32 + 32 * BitVec.toNat (s.get (R.tileDmaHead t n)) : Nat) + 8 * i) 8)) : Nat → W64) 3 }
      : DmaSt).invalid (((s.lmMeetAt t (fld (s.get (R.tileDmaCtrl t n)) 18 5 * 32 + 32 * BitVec.toNat (s.get (R.tileDmaHead t n)) : Nat) 32).served t (12 + n) :
      State).dmaBound t n
      ({ src := (fun i ↦ BitVec.ofNat 64 (leNat (((s.lmMeetAt t (fld (s.get (R.tileDmaCtrl t n)) 18 5 * 32 + 32 * BitVec.toNat (s.get (R.tileDmaHead t n)) : Nat) 32).served t (12 + n) : State).lmRead t ((fld (s.get (R.tileDmaCtrl t n)) 18 5 * 32 + 32 * BitVec.toNat (s.get (R.tileDmaHead t n)) : Nat) + 8 * i) 8)) : Nat → W64) 0, dst := (fun i ↦ BitVec.ofNat 64 (leNat (((s.lmMeetAt t (fld (s.get (R.tileDmaCtrl t n)) 18 5 * 32 + 32 * BitVec.toNat (s.get (R.tileDmaHead t n)) : Nat) 32).served t (12 + n) : State).lmRead t ((fld (s.get (R.tileDmaCtrl t n)) 18 5 * 32 + 32 * BitVec.toNat (s.get (R.tileDmaHead t n)) : Nat) + 8 * i) 8)) : Nat → W64) 1, strides := (fun i ↦ BitVec.ofNat 64 (leNat (((s.lmMeetAt t (fld (s.get (R.tileDmaCtrl t n)) 18 5 * 32 + 32 * BitVec.toNat (s.get (R.tileDmaHead t n)) : Nat) 32).served t (12 + n) : State).lmRead t ((fld (s.get (R.tileDmaCtrl t n)) 18 5 * 32 + 32 * BitVec.toNat (s.get (R.tileDmaHead t n)) : Nat) + 8 * i) 8)) : Nat → W64) 2, ctl := (fun i ↦ BitVec.ofNat 64 (leNat (((s.lmMeetAt t (fld (s.get (R.tileDmaCtrl t n)) 18 5 * 32 + 32 * BitVec.toNat (s.get (R.tileDmaHead t n)) : Nat) 32).served t (12 + n) : State).lmRead t ((fld (s.get (R.tileDmaCtrl t n)) 18 5 * 32 + 32 * BitVec.toNat (s.get (R.tileDmaHead t n)) : Nat) + 8 * i) 8)) : Nat → W64) 3 }
      : DmaSt).port) = true))
    ∧ (∃ (s : State) (t n : Nat) (d : DmaSt), t < 2176 ∧ n < 4 ∧ tget (s.tile t).dma n = some d ∧ d.left ≠ 0)
    ∧ (∃ (t n : Nat) (d : DmaSt), t < 2176 ∧ n < 4 ∧ d.left ≠ 0 ∧ d.srcLocal = true ∧ d.dstLocal = true ∧ d.toPort = false)
    ∧ (∃ (s : State) (t n : Nat) (d : DmaSt), t < 2176 ∧ n < 4 ∧ tget (s.tile t).dma n = some d ∧ d.row = d.rows ∧ d.left = 0 ∧ d.unacked = 0 ∧ d.held = [] ∧ bit
      d.ctl 50 = true ∧ fld d.ctl 63 51 < 8192) :=
  ⟨⟨dm (2 ^ 47 + 2 ^ 46 + 1 * 2 ^ 24 + 16), 2175, 3, by decide +kernel⟩,
    ⟨dm (2 ^ 47 + 2 ^ 46 + 1 * 2 ^ 24 + 32), 2175, 3, by decide +kernel⟩,
    ⟨td.modTile 2175 fun x => { x with dma := [(3, { dLM with left := 16 })] }, 2175, 3, { dLM with left := 16 }, by decide +kernel⟩,
    ⟨2175, 3, { dLM with left := 16 }, by decide +kernel⟩,
    ⟨td.modTile 2175 fun x => { x with dma := [(3, { dLM with row := 1, ctl := BitVec.ofNat 64 (2 ^ 50 + 8191 * 2 ^ 51 + 1 * 2 ^ 24 + 16) })] }, 2175, 3,
      { dLM with row := 1, ctl := BitVec.ofNat 64 (2 ^ 50 + 8191 * 2 ^ 51 + 1 * 2 ^ 24 + 16) }, by decide +kernel⟩⟩

theorem witness_TileRegisters :
    (∃ (s : State) (t r n : Nat), t < 2176 ∧ r < 17 ∧ 8 ≤ n ∧ r ∉ (s.tile t).aged)
    ∧ (∃ (s : State) (t n : Nat) (v : W32), t < 2176 ∧ n < 4 ∧ nbits (BitVec.toNat v) 10 0 < 2 ^ (4 + s.fget (R.tileDmaCtrl t n) 26 24))
    ∧ (∃ (s : State) (t n : Nat) (v : W32), t < 2176 ∧ n < 4 ∧ 2 ^ (4 + s.fget (R.tileDmaCtrl t n) 26 24) ≤ nbits (BitVec.toNat v) 10 0)
    ∧ (∃ (s : State) (t n : Nat) (v : W32), t < 2176 ∧ n < 4 ∧ nbits (BitVec.toNat v) 18 5 % 2 ^ (4 + nbits (BitVec.toNat v) 26 24) = 0 ∧ s.bget (R.tileDmaCtrl t n)
      31 = false)
    ∧ (∃ (t n : Nat) (v : W32), t < 2176 ∧ n < 4 ∧ nbits (BitVec.toNat v) 18 5 % 2 ^ (4 + nbits (BitVec.toNat v) 26 24) ≠ 0)
    ∧ (∃ (s : State) (t : Nat) (v : W32) (k : Nat) (d : Dressing), t < 2176 ∧ s.dressOf t = some (k, d) ∧ d.st = DState.active ∧ s.running t = false ∧ nbit
      (BitVec.toNat v) 0 = true)
    ∧ (∃ (t : Nat) (v : W32), t < 2176 ∧ BitVec.toNat v % 8 ≤ 4)
    ∧ (∃ (t : Nat) (v : W32), t < 2176 ∧ 4 < BitVec.toNat v % 8)
    ∧ (∃ (s : State) (m : Master) (a : W64) (w : Nat), masterOk m = true ∧ region (BitVec.toNat a) = Region.regs ∧ s.powered = true ∧ regOk (BitVec.toNat a) w =
      true)
    ∧ (masterOk ⟨.tile, 2175⟩ = true ∧ region (lmBase 2175) = .lmPhysical ∧ td.powered = true ∧ td.rangeBacked (lmBase 2175) 16 = true) :=
  ⟨⟨dev, 2175, 16, 8, by decide +kernel⟩,
    ⟨dev, 2175, 3, 15, by decide +kernel⟩,
    ⟨dev, 2175, 3, 16, by decide +kernel⟩,
    ⟨dev, 2175, 3, 0x81000400, by decide +kernel⟩,
    ⟨2175, 3, 0x81000020, by decide +kernel⟩,
    ⟨td.bset (R.tileSeqStatus 2175) 31 false, 2175, 1, 63, dr, by decide +kernel⟩,
    ⟨2175, 4, by decide +kernel⟩,
    ⟨2175, 5, by decide +kernel⟩,
    ⟨dev, ⟨.tukosen, 0⟩, 0x3FF000000000, 8, by decide +kernel⟩,
    by decide +kernel⟩

theorem witness_SyncObjects :
    (∃ (s : State) (o : Nat) (v : W64), o < 8192 ∧ BitVec.toNat (s.get (R.syncCount o)) + BitVec.toNat v < 2 ^ 64)
    ∧ (∃ (s : State) (o : Nat) (v : W64), o < 8192 ∧ 2 ^ 64 ≤ BitVec.toNat (s.get (R.syncCount o)) + BitVec.toNat v)
    ∧ (∃ (m : Master) (o : Nat), o < 8192 ∧ masterOk m = true ∧ m.cls ≠ MClass.tile)
    ∧ (∃ (m : Master) (o a : Nat), o < 8192 ∧ masterOk m = true ∧ 1 ≤ a ∧ a ≤ 10)
    ∧ (∃ (m : Master) (o f a n : Nat), o < 8192 ∧ masterOk m = true ∧ (f ≠ 0 ∨ n ≠ 8 ∨ a = 0 ∨ 10 < a))
    ∧ (∃ (o k : Nat) (v : W64), o < 8192 ∧ k < 2 ∧ 5 ≤ fld v 63 60)
    ∧ (∃ (s : State) (o k : Nat) (v : W64), o < 8192 ∧ k < 2 ∧ fld v 63 60 < 5 ∧ s.fget (R.syncAction o k) 63 60 ≠ 0)
    ∧ (∃ (s : State) (o k : Nat) (v : W64), o < 8192 ∧ k < 2 ∧ fld v 63 60 < 5 ∧ s.fget (R.syncAction o k) 63 60 = 0 ∧ fld v 63 60 ≠ 0)
    ∧ (∃ (s : State) (t : Nat), t < 2176 ∧ t ∈ s.updates ∧ s.running t = true)
    ∧ (∃ (s : State) (q : Req) (n f : Nat), Takes s q 0x0408 ∧ 1 ≤ n ∧ n ≤ 1024 ∧ (begun s q 0x0408).freeRun n = some f)
    ∧ (∃ (s : State) (q : Req) (f n : Nat), Takes s q 0x8408 ∧ 1 ≤ n ∧ n ≤ 1024 ∧ f + n ≤ 8192 ∧ (begun s q 0x8408).syncRun f n 0 = true)
    ∧ (Takes (dev.fset (R.syncStatus 8191) 29 28 2) q0 0x0409 ∧ (begun (dev.fset (R.syncStatus 8191) 29 28 2) q0 0x0409).syncRun 8191 1 2 = true) :=
  ⟨⟨dev, 8191, 2 ^ 64 - 1, by decide +kernel⟩,
    ⟨dev.set (R.syncCount 8191) 1, 8191, 2 ^ 64 - 1, by decide +kernel⟩,
    ⟨⟨.host, 0⟩, 8191, by decide +kernel⟩,
    ⟨⟨.tukosen, 7⟩, 8191, 10, by decide +kernel⟩,
    ⟨⟨.core, 15⟩, 8191, 0, 11, 8, by decide +kernel⟩,
    ⟨8191, 1, 5 * 2 ^ 60, by decide +kernel⟩,
    ⟨dev.fset (R.syncAction 8191 1) 63 60 1, 8191, 1, 4 * 2 ^ 60, by decide +kernel⟩,
    ⟨dev, 8191, 1, 4 * 2 ^ 60, by decide +kernel⟩,
    ⟨{ tl with updates := [2175] }, 2175, by decide +kernel⟩,
    ⟨dev, q0, 1024, 0, by decide +kernel⟩,
    ⟨dev, q0, 7168, 1024, by decide +kernel⟩,
    by decide +kernel⟩

theorem witness_SyncReleaseAndClaim :
    (∃ (s : State) (o t : Nat) (w : Waiter), o < 8192 ∧ tget s.waiters t = some w ∧ List.Pairwise (fun a b ↦ a.1 < b.1) s.waiters ∧ w.obj = o ∧ w.thresh ≤
      BitVec.toNat (s.get (R.syncCount o)))
    ∧ (∃ (s : State) (o t : Nat) (w : Waiter), o < 8192 ∧ tget s.waiters t = some w ∧ List.Pairwise (fun a b ↦ a.1 < b.1) s.waiters ∧ (w.obj ≠ o ∨ BitVec.toNat
      (s.get (R.syncCount o)) < w.thresh))
    ∧ (∃ (f n owner handle i o : Nat), f + n ≤ 8192 ∧ owner < 4 ∧ handle < 64 ∧ i < n ∧ o < 8192 ∧ (o < f ∨ f + n ≤ o)) :=
  ⟨⟨{ dev.set (R.syncCount 8191) 7 with waiters := [(5, ⟨8191, 7⟩), (6, ⟨8191, 8⟩)] }, 8191, 5, ⟨8191, 7⟩, by decide +kernel⟩,
    ⟨{ dev.set (R.syncCount 8191) 7 with waiters := [(5, ⟨8191, 7⟩), (6, ⟨8191, 8⟩)] }, 8191, 6, ⟨8191, 8⟩, by decide +kernel⟩,
    ⟨8000, 192, 3, 63, 191, 7999, by decide +kernel⟩⟩

theorem witness_RequestsAndAnswers :
    (∃ (s : State) (n l o a z : Nat), n < 8 ∧ l < 2 ^ 39 ∧ s.powered = true ∧ s.bget (R.siteStatus n) 31 = true ∧ s.fenced n = false ∧ s.homed (128 * l) =
      true ∧ s.libHit (128 * l) 128 = false ∧ o < 128 ∧ 1 ≤ a ∧ a ≤ 10 ∧ (z = 4 ∨ z = 8) ∧ o + z ≤ 128)
    ∧ (∃ (s : State) (r : CReq), (∀ x ∈ s.regQ, x.1.a ≠ r.a ∨ x.1.tc ≠ r.tc) ∧ s.regOpen r.a r.line r.tc r.bytes = true)
    ∧ ((su.ansTake (.site 7) 1 9 .datC).map fun x => (x.1.a, x.1.k)) = some (.site 7, .datC)
    ∧ ((su.ansTake (.site 7) 1 9 .cmpE).map fun x => (x.1.a, x.1.k)) = some (.site 7, .cmpE)
    ∧ ((su.ansTake (.site 7) 1 9 .rspErr).map fun x => (x.1.a, x.1.k)) = some (.site 7, .rspErr)
    ∧ ((su.ansTake (.site 7) 1 9 .datF).map fun x => (x.1.a, x.1.k)) = some (.site 7, .datF)
    ∧ ((su.ansTake (.tile 2175) 1 9 .datS).map fun x => (x.1.a, x.1.k)) = some (.tile 2175, .datS)
    ∧ (({ dev with ext := [(9, ⟨some 7, 0x090000000000, 128, .rdNoAlloc, .noone, [], 1⟩)] } : State).extFind (0x090000000000 / 128) 9 = some (9, ⟨some 7,
      0x090000000000, 128, .rdNoAlloc, .noone, [], 1⟩) ∧ region 0x090000000000 = .site 7) :=
  ⟨⟨su, 7, 1, 120, 10, 8, by decide +kernel⟩,
    ⟨hbm, rq .rdShared (.tile 2175), by decide +kernel⟩,
    by decide +kernel,
    by decide +kernel,
    by decide +kernel,
    by decide +kernel,
    by decide +kernel,
    by decide +kernel⟩

theorem witness_Directory :
    (∃ (s : State) (r : CReq) (l n : Nat), r.line = 128 * l ∧ r.void = false ∧ (tget s.lines l).isSome = true ∧ r.k = ReqK.rdUnique ∧ r.a = Agent.site n)
    ∧ (∃ (s : State) (r : CReq) (l n : Nat), r.line = 128 * l ∧ r.void = false ∧ (tget s.lines l).isSome = true ∧ r.k = ReqK.upgrade ∧ r.a = Agent.site n)
    ∧ (∃ (s : State) (r : CReq) (l n : Nat), r.line = 128 * l ∧ r.void = false ∧ (tget s.lines l).isSome = true ∧ r.k = ReqK.rdShared ∧ r.a = Agent.site n ∧
      (s.dirOf l).held = false)
    ∧ (∃ (s : State) (r : CReq) (l n : Nat), r.line = 128 * l ∧ r.void = false ∧ (tget s.lines l).isSome = true ∧ r.k = ReqK.rdShared ∧ r.a = Agent.site n ∧
      (s.dirOf l).held = true ∧ r.fwd = true)
    ∧ (∃ (s : State) (r : CReq) (l t : Nat), r.line = 128 * l ∧ r.void = false ∧ (tget s.lines l).isSome = true ∧ r.k = ReqK.rdShared ∧ r.a = Agent.tile t)
    ∧ (∃ (s : State) (r : CReq) (l n : Nat), r.line = 128 * l ∧ r.void = false ∧ (tget s.lines l).isSome = true ∧ r.k = ReqK.rdNoAlloc ∧ r.a = Agent.site n ∧ region
      (128 * l) ≠ Region.scratch)
    ∧ (∃ (s : State) (n : Nat) (e : Nat × Line), n < 8 ∧ s.txn = [] ∧ e ∈ s.lines ∧ e.2.dir.owner = some n)
    ∧ (∃ (s : State) (n x : Nat), n < 8 ∧ s.txn = [] ∧ x ∈ s.poison)
    ∧ (∃ (s : State) (r : CReq) (n : Nat), r.a = Agent.site n ∧ s.fenced n = true) :=
  ⟨⟨ln {}, rq .rdUnique (.site 7), 1, 7, by decide +kernel⟩,
    ⟨ln {}, rq .upgrade (.site 7), 1, 7, by decide +kernel⟩,
    ⟨ln {}, rq .rdShared (.site 7), 1, 7, by decide +kernel⟩,
    ⟨(ln { site := [1] }).bset R.cohCtrl 31 true, { rq .rdShared (.site 7) with fwd := true }, 1, 7, by decide +kernel⟩,
    ⟨ln {}, rq .rdShared (.tile 2175), 1, 2175, by decide +kernel⟩,
    ⟨ln {}, rq .rdNoAlloc (.site 7), 1, 7, by decide +kernel⟩,
    ⟨ln { owner := some 7 }, 7, (1, { dir := { owner := some 7 } }), by decide +kernel⟩,
    ⟨{ dev with poison := [0] }, 7, 0, by decide +kernel⟩,
    ⟨dev.bset (R.cohSiteStatus 7) 31 true, rq .rdShared (.site 7), 7, by decide +kernel⟩⟩

theorem witness_SnoopAnswers :
    (agentOk (.site 7) = true ∧ region 128 = .hbm ∧ (txn .rdNoAlloc (none)).awaits (.site 7) 1 = some (7, { r := rq .rdNoAlloc (.tile 2175), agents := [7] })
      ∧ ((txn .rdNoAlloc (none)).dirOf 1).fwd = none)
    ∧ (agentOk (.site 7) = true ∧ region 128 = .hbm ∧ (txn .rdShared (some 7)).awaits (.site 7) 1 = some (7, { r := rq .rdShared (.tile 2175), agents := [7] }) ∧
      ((txn .rdShared (some 7)).dirOf 1).fwd = some 7)
    ∧ (agentOk (.site 7) = true ∧ region 128 = .hbm ∧ (txn .rdUnique (none)).awaits (.site 7) 1 = some (7, { r := rq .rdUnique (.tile 2175), agents := [7] }) ∧
      ((txn .rdUnique (none)).dirOf 1).fwd = none)
    ∧ (∃ (s : State) (n l : Nat), n < 8 ∧ region (128 * l) = Region.site n ∧ s.powered = true ∧ s.bget (R.siteStatus n) 31 = true ∧ s.siteCoherent n (128 * l) =
      true)
    ∧ (∃ (s : State) (n l tag : Nat), (∀ x ∈ s.binv, x.2 ≠ l) ∧ s.snpInv = [(n, l, tag)])
    ∧ (∃ (s : State) (b l : Nat) (w : Option Nat) (t : Txn), b < 68 ∧ tget s.txn l = some t ∧ b ∈ t.benches ∧ w = s.invWriter b l ∧ t.r.keepBench = [])
    ∧ (∃ (s : State) (l : Nat) (r : CReq) (q : List CReq), tgetD s.lineQ l [] = r :: q ∧ tget s.txn l = none ∧ s.homeReady r.line = true ∧ s.seamHeld r.a r.line =
      false)
    ∧ (∃ (s : State) (n : Nat), n < 8 ∧ (List.any s.txn fun e ↦ e.2.agents.contains n) = true) :=
  ⟨by decide +kernel,
    by decide +kernel,
    by decide +kernel,
    ⟨(dev.bset (R.siteStatus 6) 31 true).set (R.siteId 6 4) (20 * 2 ^ 8), 6, (0x020000000000 + 6 * 0x010000000000) / 128, by decide +kernel⟩,
    ⟨{ dev with snpInv := [(7, 1, 9)] }, 7, 1, 9, by decide +kernel⟩,
    ⟨{ hbm with txn := [(1, { r := rq .rdUnique (.site 7), benches := [67] })] }, 67, 1, none, { r := rq .rdUnique (.site 7), benches := [67] },
      by decide +kernel⟩,
    ⟨{ hbm with lineQ := [(1, [rq .rdUnique (.tile 2175)])] }, 1, rq .rdUnique (.tile 2175), [], by decide +kernel⟩,
    ⟨txn .rdUnique none, 7, by decide +kernel⟩⟩

theorem witness_UcieLink :
    (∃ (s : State) (n m : Nat) (f : UFlit), n < 8 ∧ m < 12 ∧ s.mst n m = 5 ∧ (f.crcOk = false ∨ f.seq ≠ ((s.mod (12 * n + m)).rxSeq + 1) % 4096) ∧ (s.mod (12
      * n + m)).nakSent = false)
    ∧ (∃ (s : State) (n m : Nat) (f : UFlit), n < 8 ∧ m < 12 ∧ s.mst n m = 5 ∧ (f.crcOk = false ∨ f.seq ≠ ((s.mod (12 * n + m)).rxSeq + 1) % 4096) ∧ (s.mod (12 * n
      + m)).nakSent = true)
    ∧ ((uc {} 5).mst 7 11 = 5 ∧ (0 = ((uc {} 5).mod 95).rxSeq + 1 - 4096) ∧ (let u := (uc {} 5).modMod 95 fun x =>
      { (x.acked 4095) with rxSeq := 0, nakSent := false, toAck := x.toAck + 1 }; u.countUe 2 95 = false ∧ (u.modCret 95 []).2 = none ∧ (flitMsgs []
      ((u.modCret 95 []).1.mod 95).rest).2.2 = false ∧ (((u.modCret 95 []).1.modPump 95).mod 95).toAck < 32))
    ∧ (∃ (s : State) (n m : Nat), n < 8 ∧ m < 12 ∧ s.mst n m = 5 ∧ s.modOwes (12 * n + m) = false ∧ (s.mod (12 * n + m)).toAck ≠ 0)
    ∧ (∃ (s : State) (n m : Nat), n < 8 ∧ m < 12 ∧ s.mst n m = 5 ∧ (8 ≤ (s.mod (12 * n + m)).nakRun ∨ (s.mod (12 * n + m)).replay ≠ []))
    ∧ (∃ (s : State) (n m : Nat), n < 8 ∧ m < 12 ∧ s.mst n m = 6)
    ∧ (∃ (s : State) (n m : Nat), n < 8 ∧ m < 12 ∧ (s.site n).ph ≠ SitePh.idents)
    ∧ (∃ (s : State) (n m : Nat), n < 8 ∧ m < 12 ∧ ((s.modSite n fun x ↦
      { ph := x.ph, cycle := x.cycle, scrub := x.scrub, words := x.words, base := x.base, gseq := x.gseq, sent := x.sent, ceil := x.ceil, exact := x.exact, overAvg := x.overAvg, hot := x.hot, side := (List.find? (fun i ↦ !(sIns x.sideDown m).contains i) (List.range 12)).getD x.side, sideDown := sIns x.sideDown m, mbx := x.mbx, breaches := x.breaches }
      : State).site n).ph = SitePh.idents ∧ ((s.modSite n fun x ↦
      { ph := x.ph, cycle := x.cycle, scrub := x.scrub, words := x.words, base := x.base, gseq := x.gseq, sent := x.sent, ceil := x.ceil, exact := x.exact, overAvg := x.overAvg, hot := x.hot, side := (List.find? (fun i ↦ !(sIns x.sideDown m).contains i) (List.range 12)).getD x.side, sideDown := sIns x.sideDown m, mbx := x.mbx, breaches := x.breaches }
      : State).site n).sideMask = 0) :=
  ⟨⟨uc {} 5, 7, 11, ⟨0, 0, 4095, false, [], []⟩, by decide +kernel⟩,
    ⟨uc { nakSent := true } 5, 7, 11, ⟨0, 1, 4095, true, [], []⟩, by decide +kernel⟩,
    by decide +kernel,
    ⟨uc { toAck := 1 } 5, 7, 11, by decide +kernel⟩,
    ⟨uc { nakRun := 8 } 5, 7, 11, by decide +kernel⟩,
    ⟨uc {} 6, 7, 11, by decide +kernel⟩,
    ⟨dev, 7, 11, by decide +kernel⟩,
    ⟨(sp 6 .idents).modSite 6 fun x => { x with sideDown := List.range 11 }, 6, 11, by decide +kernel⟩⟩

theorem witness_SiteCommands :
    (∃ (s : State) (q : Req) (n : Nat), Takes s q 0x0120 ∧ n < 8 ∧ (q.mbx < 16 ∨ 24 ≤ q.mbx ∨ q.mbx = 16 + n))
    ∧ (∃ (s : State) (q : Req) (n m : Nat), Takes s q 0x8120 ∧ n < 8 ∧ (q.mbx < 16 ∨ 24 ≤ q.mbx ∨ q.mbx = 16 + n) ∧ m < 12)
    ∧ (∃ (s : State) (q : Req) (n : Nat), Takes s q 0x0120 ∧ 16 ≤ q.mbx ∧ q.mbx < 24 ∧ q.mbx ≠ 16 + n)
    ∧ (∃ (s : State) (q : Req) (n : Nat), Takes s q 0x0121 ∧ n < 8 ∧ (q.mbx < 16 ∨ 24 ≤ q.mbx ∨ q.mbx = 16 + n) ∧ (begun s q 0x0121).populated n = true ∧ ((begun s
      q 0x0121).site n).ph = SitePh.up ∧ (begun s q 0x0121).rst.held.contains (76 + n) = false)
    ∧ (∃ (s : State) (q : Req) (n : Nat), Takes s q 0x8121 ∧ n < 8 ∧ (q.mbx < 16 ∨ 24 ≤ q.mbx ∨ q.mbx = 16 + n) ∧ (begun s q 0x8121).populated n = true ∧ ((begun s
      q 0x8121).site n).ph = SitePh.held ∧ (begun s q 0x8121).rst.held.contains (76 + n) = false)
    ∧ (∃ (s : State) (q : Req) (n w : Nat), Takes s q 0x0220 ∧ n < 8 ∧ (q.mbx < 16 ∨ 24 ≤ q.mbx ∨ q.mbx = 16 + n) ∧ w ≤ 175 ∧ ((begun s q 0x0220).site n).exact =
      false)
    ∧ (∃ (s : State) (q : Req) (w : Nat), Takes s q 0x0220 ∧ 175 < w)
    ∧ (Takes (((sp 6 .up).set (R.pwrPool 1) (500 * 2 ^ 48 + 100 * 2 ^ 16)).fset (R.siteId 6 8) 21 11 200) q0 0x8220 ∧ (begun (((sp 6 .up).set (R.pwrPool 1) (500 * 2
      ^ 48 + 100 * 2 ^ 16)).fset (R.siteId 6 8) 21 11 200) q0 0x8220).freeTok 1 = 100 ∧ 60 ≤ (begun (((sp 6 .up).set (R.pwrPool 1) (500 * 2 ^ 48 + 100 * 2 ^
      16)).fset (R.siteId 6 8) 21 11 200) q0 0x8220).siteMax 6) :=
  ⟨⟨dev, ⟨23, 1, 1, false⟩, 7, by decide +kernel⟩,
    ⟨dev, q0, 7, 11, by decide +kernel⟩,
    ⟨dev, ⟨23, 1, 1, false⟩, 0, by decide +kernel⟩,
    ⟨sp 6 .up, q0, 6, by decide +kernel⟩,
    ⟨sp 6 .held, q0, 6, by decide +kernel⟩,
    ⟨dev, q0, 7, 175, by decide +kernel⟩,
    ⟨dev, q0, 176, by decide +kernel⟩,
    by decide +kernel⟩

theorem witness_SiteEvents :
    (((sp 7 .idents).site 7).ph = .idents ∧ (heard (sp 7 .idents) 7 8 0).words.length < 9)
    ∧ ((id8.site 6).ph = .idents ∧ 9 ≤ (heard id8 6 8 wd8).words.length ∧ (idGot id8 6 8 wd8).idw 6 0 23 16 = id8.siteType 6 ∧ (idGot id8 6 8 wd8).siteSerial 6 =
      (tgetD id8.fuse.siteSerial 6 1).toNat ∧ (idGot id8 6 8 wd8).idRanges 6 = true)
    ∧ (((id8.set (R.siteId 6 0) 0x01410000).site 6).ph = .idents ∧ 9 ≤ (heard (id8.set (R.siteId 6 0) 0x01410000) 6 8 0).words.length ∧ (idGot (id8.set (R.siteId 6
      0) 0x01410000) 6 8 0).idw 6 0 23 16 ≠ (idGot (id8.set (R.siteId 6 0) 0x01410000) 6 8 0).siteType 6)
    ∧ ((((sp 6 .training).bset (R.siteModStatus 6 11) 30 true).site 6).ph = .training ∧ (List.range 12).foldl (fun k m => if ((sp 6 .training).bset (R.siteModStatus
      6 11) 30 true).bget (R.siteModStatus 6 m) 30 = true then k + 2 ^ m else k) 0 = 2048)
    ∧ (∃ (s : State) (n v : Nat), n < 8 ∧ s.sitePowered n = true ∧ (s.site n).exact = false ∧ s.bget R.safStatus 29 = false ∧ 110 ≤ v ∧ v ≤ 210)
    ∧ (∃ (s : State) (n q i : Nat), n < 8 ∧ List.findIdx? (fun p ↦ p.1 == q) (s.site n).sent = some i)
    ∧ (∃ (s : State) (n t : Nat), n < 8 ∧ s.siteRailsOn n = true ∧ s.idw n 7 23 16 ≠ 0 ∧ t < s.idw n 7 23 16)
    ∧ (∃ (s : State) (n t : Nat), n < 8 ∧ s.siteRailsOn n = true ∧ s.idw n 7 23 16 ≠ 0 ∧ s.idw n 7 23 16 < t ∧ t < s.idw n 7 23 16 + 5)
    ∧ (∃ (s : State) (n t : Nat), n < 8 ∧ s.siteRailsOn n = true ∧ s.idw n 7 23 16 ≠ 0 ∧ s.idw n 7 23 16 + 5 ≤ t)
    ∧ (∃ (s : State) (n ms : Nat), n < 8 ∧ s.siteRailsOn n = true ∧ s.idw n 7 23 16 ≠ 0 ∧ 10 ≤ ms ∧ ms < 100)
    ∧ (∃ (s : State) (n ms : Nat), n < 8 ∧ s.siteRailsOn n = true ∧ s.idw n 7 23 16 ≠ 0 ∧ 100 ≤ ms)
    ∧ (∃ (s : State) (n : Nat), n < 8 ∧ (s.site n).ph = SitePh.scrubbing)
    ∧ (∃ (s : State) (n a : Nat), n < 8 ∧ s.siteRailsOn n = true ∧ s.bget R.safStatus 29 = false ∧ 1400 < a)
    ∧ (∃ (s : State) (n a : Nat), n < 8 ∧ s.siteRailsOn n = true ∧ s.bget R.safStatus 29 = false ∧ (s.site n).gseq ≠ 0 ∧ a ≤ 1400 ∧ s.fget (R.sitePwr n) 22 12 < a)
    ∧ (∃ (s : State) (n a : Nat), n < 8 ∧ s.siteRailsOn n = true ∧ (s.site n).overAvg = true ∧ s.fget (R.sitePwr n) 22 12 < a)
    ∧ (∃ (s : State) (n a : Nat), n < 8 ∧ s.siteRailsOn n = true ∧ (s.site n).overAvg = true ∧ a ≤ s.fget (R.sitePwr n) 22 12) :=
  ⟨by decide +kernel,
    by decide +kernel,
    by decide +kernel,
    by decide +kernel,
    ⟨sp 6 .up, 6, 210, by decide +kernel⟩,
    ⟨dev.modSite 7 fun x => { x with sent := [(255, 100)] }, 7, 255, 0, by decide +kernel⟩,
    ⟨((sp 6 .up).bset (R.pwrDomStatus 82) 31 true).set (R.siteId 6 7) 0x00640008, 6, 99, by decide +kernel⟩,
    ⟨(dev.bset (R.pwrDomStatus 83) 31 true).set (R.siteId 7 7) (90 * 2 ^ 16), 7, 94, by decide +kernel⟩,
    ⟨((sp 6 .up).bset (R.pwrDomStatus 82) 31 true).set (R.siteId 6 7) 0x00640008, 6, 105, by decide +kernel⟩,
    ⟨(dev.bset (R.pwrDomStatus 83) 31 true).set (R.siteId 7 7) (90 * 2 ^ 16), 7, 99, by decide +kernel⟩,
    ⟨(dev.bset (R.pwrDomStatus 83) 31 true).set (R.siteId 7 7) (90 * 2 ^ 16), 7, 100, by decide +kernel⟩,
    ⟨sp 7 .scrubbing, 7, by decide +kernel⟩,
    ⟨((sp 7 .up).bset (R.pwrDomStatus 83) 31 true), 7, 1401, by decide +kernel⟩,
    ⟨((sp 7 .up).bset (R.pwrDomStatus 83) 31 true).modSite 7 fun x => { x with gseq := 1 }, 7, 1400, by decide +kernel⟩,
    ⟨((sp 7 .up).bset (R.pwrDomStatus 83) 31 true).modSite 7 fun x => { x with overAvg := true }, 7, 1, by decide +kernel⟩,
    ⟨((sp 7 .up).bset (R.pwrDomStatus 83) 31 true).modSite 7 fun x => { x with overAvg := true }, 7, 0, by decide +kernel⟩⟩

theorem witness_MemoryUnits :
    (∃ (s : State) (q : Req) (k : Nat), Takes s q 0x0301 ∧ (k = 0 ∨ 8 < k))
    ∧ (∃ (s : State) (q : Req) (n m : Nat), Takes s q 0x8301 ∧ (n % 2 = 0 ∨ m % 2 = 0))
    ∧ (∃ (s : State) (q : Req) (n m : Nat), Takes s q 0x8301 ∧ n % 2 = 1 ∧ m % 2 = 1 ∧ n < 256 ∧ m < 256 ∧ (begun s q 0x8301).t0Meets (lost n ((begun s q
      0x8301).maskOf 0)) (lost m ((begun s q 0x8301).maskOf 1)) = true)
    ∧ (Takes dev q0 0x8301 ∧ (begun dev q0 0x8301).t0Meets (lost 255 ((begun dev q0 0x8301).maskOf 0)) (lost 1 ((begun dev q0 0x8301).maskOf 1)) = false ∧ dev.ssJob
      = none ∧ 255 % 2 = 1 ∧ 255 < 256)
    ∧ (∃ (s : State) (q : Req), Takes s q 0x0302 ∧ (begun s q 0x0302).ssJob = none)
    ∧ (∃ (s : State) (q : Req) (b l : Nat), Takes s q 0x8302 ∧ b % 128 = 0 ∧ l % 128 = 0 ∧ l ≠ 0 ∧ (begun s q 0x8302).hbmBacked b = true ∧ (begun s q
      0x8302).hbmBacked (b + l - 1) = true ∧ (begun s q 0x8302).ssJob = none)
    ∧ (∃ (s : State) (q : Req) (c : Nat), Takes s q c ∧ (begun s q c).ssJob ≠ none)
    ∧ Takes dev q0 0x0303
    ∧ (∃ (s : State) (q : Req) (t c : Nat), Takes s q 0x8303 ∧ t < 6 ∧ c < 32)
    ∧ Takes dev q0 0x0304
    ∧ (∃ (s : State) (q : Req) (h p : Nat), Takes s q 0x8304 ∧ 1 ≤ h ∧ h ≤ 168 ∧ 1 ≤ p ∧ p ≤ 24)
    ∧ (∃ (s : State) (q : Req) (c : Nat), Takes s q 0x0305 ∧ 1 ≤ c ∧ c ≤ 64)
    ∧ (∃ (s : State) (q : Req) (a : Nat), Takes s q 0x0306 ∧ a < 2 ^ 46)
    ∧ (∃ (s : State) (a : Nat), (tget s.lines (a / 128) ≠ none ∨ s.scrBacked a = true))
    ∧ (∃ (s : State) (a : Nat), s.stackReady a = false)
    ∧ (∃ (s : State) (h : Nat), s.ssInv = [h] ∧ s.powered = true ∧ h < 2)
    ∧ (∃ (s : State) (t k : Nat) (b : Bool × Nat × Nat), t < 6 ∧ s.bget (R.hbmStatus t) 31 = true ∧ List.find? (fun e ↦ e.1 / 64 == t && decide (0 < e.2.2.2))
      s.hbmBus = some (k, b))
    ∧ (∃ (s : State) (t : Nat), t < 6 ∧ s.bget (R.hbmStatus t) 31 = true ∧ List.find? (fun e ↦ e.1 / 64 == t && decide (0 < e.2.2.2)) s.hbmBus = none)
    ∧ (∃ (s : State) (t : Nat), t < 6 ∧ s.bget (R.hbmStatus t) 31 = false)
    ∧ (∃ (s : State) (a : Nat) (b : Bool), s.hbmBacked a = true ∧ tget s.lines (a / 128) = none ∧ s.inSide (a / 128) = false ∧ s.lineBusy (a / 128) = false ∧
      s.stackReady a = true ∧ (if b = true then s.hoistNext a else s.streamAt (a / 128)) = true ∧ (if s.halfOf a = 0 then s.fget R.regStatus 35 32 else s.fget
      R.regStatus 39 36) ≤ s.fget R.regCongCfg 11 8)
    ∧ (∃ (s : State) (a : Nat) (t : Txn), s.hbmBacked (a / 128 * 128) = true ∧ s.stackReady (a / 128 * 128) = true ∧ tget s.txn (a / 128 * 128 / 128) = some t ∧
      t.fill = true ∧ t.r.tc ≠ 0)
    ∧ (∃ (s : State) (a : Nat), s.stackReady (a / 128 * 128) = false)
    ∧ (∃ (v : W64), bit v 63 = true) :=
  ⟨⟨dev, q0, 9, by decide +kernel⟩,
    ⟨dev, q0, 2, 1, by decide +kernel⟩,
    ⟨({ dev with store := { dev.store with pools := [(0, [(16, 16)])] } }).fset (R.ssCfg 0) 31 24 1, q0, 3, 255, by decide +kernel⟩,
    by decide +kernel,
    ⟨dev, q0, by decide +kernel⟩,
    ⟨hbm, q0, 0xFFFFFF80, 128, by decide +kernel⟩,
    ⟨{ dev with ssJob := some { mbx := none } }, q0, 770, by decide +kernel⟩,
    by decide +kernel,
    ⟨dev, q0, 5, 31, by decide +kernel⟩,
    by decide +kernel,
    ⟨dev, q0, 168, 24, by decide +kernel⟩,
    ⟨dev, q0, 64, by decide +kernel⟩,
    ⟨dev, q0, 2 ^ 46 - 1, by decide +kernel⟩,
    ⟨{ hbm with lines := [(1, {})] }, 128, by decide +kernel⟩,
    ⟨dev, 0, by decide +kernel⟩,
    ⟨{ dev with ssInv := [1] }, 1, by decide +kernel⟩,
    ⟨{ dev.bset (R.hbmStatus 5) 31 true with hbmBus := [(320, (true, 0, 1))] }, 5, 320, (true, 0, 1), by decide +kernel⟩,
    ⟨dev.bset (R.hbmStatus 5) 31 true, 5, by decide +kernel⟩,
    ⟨dev, 5, by decide +kernel⟩,
    ⟨{ hbm with missed := [3, 2] }, 512, false, by decide +kernel⟩,
    ⟨hf, 255, { r := { rq .rdShared (.tile 2175) with tc := 3 }, fill := true }, by decide +kernel⟩,
    ⟨dev, 0, by decide +kernel⟩,
    ⟨2 ^ 63, by decide +kernel⟩⟩

theorem witness_DressingCommands :
    (∃ (s : State) (q : Req) (g : W64) (z c : Nat) (v : State), Takes s q 0x0401 ∧ c < 4096 ∧ ImageHole (begun s q 0x0401) g z v)
    ∧ (∃ (s : State) (q : Req) (g : W64) (z c : Nat), Takes s q 0x0401 ∧ c < 4096 ∧ (begun s q 0x0401).imgHole (BitVec.toNat g) z = false ∧ (begun s q
      0x0401).imgReady (BitVec.toNat g) z = false)
    ∧ (∃ (s : State) (q : Req) (g : W64) (z c : Nat) (img : List Byte) (v : State), Takes s q 0x0401 ∧ c < 4096 ∧ ImageAt (begun s q 0x0401) g z img v ∧ imgHeadOk
      img = false)
    ∧ (∃ (s : State) (q : Req) (w : Nat), Takes s q 0x8401 ∧ 64 ≤ w ∧ w ≠ 255)
    ∧ (∃ (s : State) (q : Req) (h x : Nat) (d : Dressing), Takes s q 0x0402 ∧ (x < 8192 ∨ x = 65535) ∧ h < 64 ∧ tget (begun s q 0x0402).dress h = some d ∧ d.mbx =
      none ∧ (begun s q 0x0402).fget R.stwPstate 31 30 ≠ 1 ∧ d.st ≠ DState.loaded)
    ∧ (∃ (s : State) (q : Req) (h x : Nat) (d : Dressing), Takes s q 0x0402 ∧ (x < 8192 ∨ x = 65535) ∧ h < 64 ∧ tget (begun s q 0x0402).dress h = some d ∧ d.mbx =
      none ∧ (begun s q 0x0402).fget R.stwPstate 31 30 ≠ 1 ∧ d.st = DState.loaded ∧ (begun s q 0x0402).bget (R.xltCtx d.ctx) 63 = false)
    ∧ (∃ (s : State) (q : Req) (h x : Nat) (d : Dressing) (img : List Byte) (v : State), Takes s q 0x0402 ∧ (x < 8192 ∨ x = 65535) ∧ h < 64 ∧ tget (begun s q
      0x0402).dress h = some d ∧ d.mbx = none ∧ (begun s q 0x0402).fget R.stwPstate 31 30 ≠ 1 ∧ d.st = DState.loaded ∧ (begun s q 0x0402).bget (R.xltCtx
      d.ctx) 63 = true ∧ ((begun s q 0x0402).tilesOf d).any (begun s q 0x0402).isolated.contains = false ∧ (begun s q 0x0402).tilesHeld h d = false ∧ ImageAt
      (begun s q 0x0402) (BitVec.ofNat 64 d.image) d.size img v ∧ (imgDigestOk img (imgU img 16 4) && BitVec.ofNat 512 (imgU img 48 64) == d.digest) = false)
    ∧ (∃ (s : State) (q : Req) (h x : Nat) (d : Dressing) (img : List Byte) (v : State), Takes s q 0x0402 ∧ (x < 8192 ∨ x = 65535) ∧ h < 64 ∧ tget (begun s q
      0x0402).dress h = some d ∧ d.mbx = none ∧ (begun s q 0x0402).fget R.stwPstate 31 30 ≠ 1 ∧ d.st = DState.loaded ∧ (begun s q 0x0402).bget (R.xltCtx
      d.ctx) 63 = true ∧ ((begun s q 0x0402).tilesOf d).any (begun s q 0x0402).isolated.contains = false ∧ (begun s q 0x0402).tilesHeld h d = false ∧ ImageAt
      (begun s q 0x0402) (BitVec.ofNat 64 d.image) d.size img v ∧ imgDigestOk img (imgU img 16 4) = true ∧ BitVec.ofNat 512 (imgU img 48 64) = d.digest ∧ (∀ y
      ∈ d.streams, y.siteEp = none))
    ∧ (∃ (s : State) (q : Req) (h : Nat) (d : Dressing), Takes s q 0x0403 ∧ h < 64 ∧ tget (begun s q 0x0403).dress h = some d ∧ d.mbx = none ∧ d.st = DState.active)
    ∧ (∃ (s : State) (q : Req) (h n : Nat) (d : Dressing), Takes s q 0x8403 ∧ n ≤ 10000 ∧ h < 64 ∧ tget (begun s q 0x8403).dress h = some d ∧ d.mbx = none ∧ d.st =
      DState.active)
    ∧ (∃ (s : State) (q : Req) (a b n : Nat) (d e : Dressing), Takes s q 0x0404 ∧ n ≤ 10000 ∧ a < 64 ∧ b < 64 ∧ tget (begun s q 0x0404).dress a = some d ∧ tget
      (begun s q 0x0404).dress b = some e ∧ d.mbx = none ∧ e.mbx = none)
    ∧ (∃ (s : State) (q : Req) (h : Nat) (d : Dressing), Takes s q 0x0405 ∧ h < 64 ∧ tget (begun s q 0x0405).dress h = some d ∧ d.mbx = none)
    ∧ (∃ (s : State) (q : Req) (h : Nat) (d : Dressing), Takes s q 0x0405 ∧ h < 64 ∧ tget (begun s q 0x0405).dress h = some d ∧ d.mbx.isSome = true)
    ∧ (∃ (s : State) (q : Req) (h : Nat), Takes s q 0x0405 ∧ h < 64 ∧ tget (begun s q 0x0405).dress h = none)
    ∧ (∃ (s : State) (q : Req) (h : Nat), Takes s q 0x0405 ∧ 64 ≤ h)
    ∧ (∃ (s : State) (q : Req) (h : Nat) (d : Dressing), Takes s q 0x0406 ∧ h < 64 ∧ tget (begun s q 0x0406).dress h = some d)
    ∧ (∃ (s : State) (q : Req) (f n : Nat), Takes s q 0x0407 ∧ 1 ≤ n ∧ n ≤ 512 ∧ f + n ≤ 2048) :=
  ⟨⟨dev, q0, (BitVec.ofNat 64 (6 * 2 ^ 46)), 4096, 0, (begun (dev) q0 0x0401).hole Machine.steward 0 (6 * 2 ^ 46), by decide +kernel⟩,
    ⟨rt6, q0, (BitVec.ofNat 64 (6 * 2 ^ 46)), 4096, 0, by decide +kernel⟩,
    ⟨hbm, q0, 0x1000, 256, 0, List.replicate 256 0, begun hbm q0 0x0401, by decide +kernel⟩,
    ⟨dev, q0, 64, by decide +kernel⟩,
    ⟨{ dev with dress := [(63, { dr with st := .active })] }, q0, 63, 65535, { dr with st := .active }, by decide +kernel⟩,
    ⟨{ dev with dress := [(63, { dr with st := .loaded })] }, q0, 63, 8191, { dr with st := .loaded }, by decide +kernel⟩,
    ⟨dact (ldd 0), q0, 63, 65535, ldd 0, List.replicate 256 0, begun (dact (ldd 0)) q0 0x0402, by decide +kernel⟩,
    ⟨dact (ldd empDig), q0, 63, 65535, ldd empDig, empImg, begun (dact (ldd empDig)) q0 0x0402, by decide +kernel⟩,
    ⟨{ dev with dress := [(63, { dr with st := .active })] }, q0, 63, dr, by decide +kernel⟩,
    ⟨{ dev with dress := [(63, { dr with st := .active })] }, q0, 63, 10000, dr, by decide +kernel⟩,
    ⟨{ dev with dress := [(1, dr), (63, dr)] }, q0, 1, 63, 100, dr, dr, by decide +kernel⟩,
    ⟨{ dev with dress := [(63, { dr with st := .active })] }, q0, 63, dr, by decide +kernel⟩,
    ⟨{ dev with dress := [(63, { dr with st := .active, mbx := some 0 })] }, q0, 63, { dr with mbx := some 0 }, by decide +kernel⟩,
    ⟨dev, q0, 63, by decide +kernel⟩,
    ⟨dev, q0, 64, by decide +kernel⟩,
    ⟨{ dev with dress := [(63, { dr with st := .active })] }, q0, 63, dr, by decide +kernel⟩,
    ⟨dev, q0, 1536, 512, by decide +kernel⟩⟩

theorem witness_DressingEvents :
    (∃ (s : State) (h : Nat) (d : Dressing), h < 64 ∧ tget s.dress h = some d ∧ d.st = DState.deactivating ∧ d.phase = 0)
    ∧ (∃ (s : State) (h : Nat) (d e : Dressing), h < 64 ∧ tget s.dress h = some d ∧ d.st = DState.deactivating ∧ (d.phase = 1 ∨ d.phase = 0 ∧ s.allEnded d = true) ∧
      (∀ p ∈ s.tilesOf d, (s.tile p).bundle = none) ∧ tget (s.detachAll h).dress h = some e)
    ∧ (∃ (s : State) (h : Nat) (d : Dressing), h < 64 ∧ tget s.dress h = some d ∧ d.st = DState.deactivating ∧ d.phase = 2)
    ∧ (∃ (s : State) (h : Nat) (d : Dressing), h < 64 ∧ tget s.dress h = some d ∧ d.st = DState.deactivating ∧ d.phase = 4)
    ∧ (∃ (s : State) (h : Nat) (d : Dressing), h < 64 ∧ tget s.dress h = some d ∧ d.st ≠ DState.deactivating)
    ∧ (∃ (s : State) (h : Nat) (d : Dressing) (n x k : Nat) (w : DStream), h < 64 ∧ tget s.dress h = some d ∧ n < 8 ∧ k ≤ 4096 ∧ s.siteStream n x (decide (1 ≤ k) :
      Bool) (Dressing.awaits DState.activating 5 (epKey (decide (1 ≤ k) : Bool) (n * 65536 + x) : Nat)) = some (h, d, w))
    ∧ (∃ (s : State) (h : Nat) (d : Dressing) (n m : Nat), h < 64 ∧ tget s.dress h = some d ∧ n < 8 ∧ d.st = DState.activating ∧ (d.await.any fun k ↦ epSite k == n)
      = true ∧ d.mbx = some m)
    ∧ (∃ (s : State) (h : Nat) (d : Dressing) (n x : Nat) (w : DStream), h < 64 ∧ tget s.dress h = some d ∧ n < 8 ∧ (s.siteStream n x false fun _ ↦ true) = some (h,
      d, w))
    ∧ (∃ (s : State) (h : Nat) (d : Dressing) (n x : Nat) (w : DStream), h < 64 ∧ tget s.dress h = some d ∧ n < 8 ∧ (s.siteStream n x true fun _ ↦ true) = some (h,
      d, w))
    ∧ (∃ (s : State) (h : Nat) (d : Dressing) (n x : Nat) (w : DStream) (c : Bool) (k : Nat), h < 64 ∧ tget s.dress h = some d ∧ n < 8 ∧ k < 8192 ∧ s.unboundOf n x
      = some (h, d, w, c))
    ∧ (∃ (s : State) (h : Nat) (d : Dressing) (n : Nat), h < 64 ∧ tget s.dress h = some d ∧ n < 8 ∧ d.phase = 3 ∧ (d.await.any fun k ↦ epSite k == n) = true) :=
  ⟨⟨{ dev with dress := [(63, { dr with st := .deactivating })] }, 63, { dr with st := .deactivating }, by decide +kernel⟩,
    ⟨{ dev with dress := [(63, { dr with st := .deactivating, phase := 1 })] }, 63, { dr with st := .deactivating, phase := 1 },
      { dr with st := .deactivating, phase := 1 }, by decide +kernel⟩,
    ⟨{ dev with dress := [(63, { dr with st := .deactivating, phase := 2 })] }, 63, { dr with st := .deactivating, phase := 2 }, by decide +kernel⟩,
    ⟨{ dev with dress := [(63, { dr with st := .deactivating, phase := 4 })] }, 63, { dr with st := .deactivating, phase := 4 }, by decide +kernel⟩,
    ⟨{ dev with dress := [(63, { dr with st := .active })] }, 63, { dr with st := .active }, by decide +kernel⟩,
    ⟨{ dev with dress := [(63, { dr with st := .activating, phase := 5, streams := [stB], await := [epKey true (7 * 65536 + 9)] })] }, 63,
      { dr with st := .activating, phase := 5, streams := [stB], await := [epKey true (7 * 65536 + 9)] }, 7, 9, 1, stB, by decide +kernel⟩,
    ⟨{ dev with dress := [(63, { dr with st := .activating, mbx := some 0, streams := [stP], await := [7 * 65536 + 9] })] }, 63,
      { dr with st := .activating, mbx := some 0, streams := [stP], await := [7 * 65536 + 9] }, 7, 0, by decide +kernel⟩,
    ⟨{ dev with dress := [(63, { dr with st := .active, streams := [stP] })] }, 63, { dr with st := .active, streams := [stP] }, 7, 9, stP, by decide +kernel⟩,
    ⟨{ dev with dress := [(63, { dr with st := .active, streams := [stB] })] }, 63, { dr with st := .active, streams := [stB] }, 7, 9, stB, by decide +kernel⟩,
    ⟨{ dev with dress := [(63, { dr with st := .deactivating, phase := 3, streams := [stB], await := [epKey true (7 * 65536 + 9)] })] }, 63,
      { dr with st := .deactivating, phase := 3, streams := [stB], await := [epKey true (7 * 65536 + 9)] }, 7, 9, stB, true, 1, by decide +kernel⟩,
    ⟨{ dev with dress := [(63, { dr with st := .deactivating, phase := 3, streams := [stP], await := [7 * 65536 + 9] })] }, 63,
      { dr with st := .deactivating, phase := 3, streams := [stP], await := [7 * 65536 + 9] }, 7, by decide +kernel⟩⟩

theorem witness_SelfTestsAndAudits :
    (∃ (s : State) (q : Req) (k n : Nat), Takes s q 0x0801 ∧ bistUnitOk k n = true ∧ (begun s q 0x0801).fget R.stwPstate 31 30 ≠ 1 ∧ ((begun s q
      0x0801).bootState = 2 ∨ (begun s q 0x0801).bootState = 3) ∧ (begun s q 0x0801).bistFree k n = false)
    ∧ (∃ (s : State) (q : Req) (k n : Nat), Takes s q 0x8801 ∧ bistUnitOk k n = true ∧ (begun s q 0x8801).fget R.stwPstate 31 30 ≠ 1 ∧ ((begun s q 0x8801).bootState
      = 2 ∨ (begun s q 0x8801).bootState = 3) ∧ (begun s q 0x8801).bistFree k n = true ∧ (begun s q 0x8801).bist.online ≠ [])
    ∧ (∃ (s : State) (q : Req) (k n : Nat), Takes s q 0x8801 ∧ bistUnitOk k n = true ∧ (begun s q 0x8801).fget R.stwPstate 31 30 ≠ 1 ∧ ((begun s q 0x8801).bootState
      = 2 ∨ (begun s q 0x8801).bootState = 3) ∧ (begun s q 0x8801).bistFree k n = true ∧ (begun s q 0x8801).bist.online = [] ∧ (begun s q 0x8801).bistTaken k
      n = true)
    ∧ (∃ (s : State) (q : Req) (k n : Nat), Takes s q 0x8801 ∧ bistUnitOk k n = true ∧ (begun s q 0x8801).fget R.stwPstate 31 30 ≠ 1 ∧ ((begun s q 0x8801).bootState
      = 2 ∨ (begun s q 0x8801).bootState = 3) ∧ (begun s q 0x8801).bistFree k n = true ∧ (begun s q 0x8801).bist.online = [] ∧ (begun s q 0x8801).bistTaken k
      n = false ∧ (∀ (b : Nat), bistBench k n = some b → (begun s q 0x8801).bistBenches.length < 8 ∨ (begun s q 0x8801).bistBenches.contains b = true))
    ∧ (∃ (s : State) (r : Nat) (a : BistA), tget s.bist.active r = some a ∧ a.kind ≤ 3 ∧ a.stop = false)
    ∧ (Takes bdn q0 0x0802 ∧ (begun bdn q0 0x0802).bist.done.find? (fun e => e.1 == 1) = some (1, [1], false))
    ∧ (∃ (s : State) (r : Nat), r < 9 ∧ (s.bootState = 2 ∨ s.bootState = 3) ∧ s.bget R.stwStatus 31 = true ∧ s.asleep = false)
    ∧ (∃ (s : State), s.bist.stopped = true ∧ s.bget R.pwrSupplyStatus 31 = false)
    ∧ (∃ (s : State) (t : Nat), t < 2176 ∧ nbit (tgetD s.saf.why t 0) 0 = true ∧ s.reservedBy t = none)
    ∧ (∃ (s : State) (q : Req) (h : Nat), Takes s q 0x040A ∧ h < 2)
    ∧ (∃ (s : State) (q : Req) (h : Nat) (d : Dressing), Takes s q 0x040B ∧ h < 64 ∧ tget (begun s q 0x040B).dress h = some d ∧ d.mbx = none)
    ∧ (∃ (s : State) (q : Req) (i : Nat), Takes s q 0x0810 ∧ i < 96)
    ∧ (∃ (s : State) (q : Req) (i : Nat), Takes s q 0x0810 ∧ i < 8)
    ∧ (∃ (s : State) (q : Req) (i : Nat), Takes s q 0x0810 ∧ i < 408 ∧ linkReal (i / 6) (i % 6) = true)
    ∧ (∃ (s : State) (b l p : Nat), b < 68 ∧ l < 6 ∧ linkReal b l = true ∧ p < 18 ∧ s.countUe 1 (6 * b + l) = true)
    ∧ (∃ (s : State) (b l p : Nat), b < 68 ∧ l < 6 ∧ linkReal b l = true ∧ p < 18 ∧ s.countUe 1 (6 * b + l) = false)
    ∧ (∃ (s : State) (n p : Nat), n < 96 ∧ p < 11 ∧ s.countUe 2 n = true)
    ∧ (∃ (s : State) (n p : Nat), n < 96 ∧ p < 11 ∧ s.countUe 2 n = false ∧ s.modUp (n / 12) (n % 12) = true)
    ∧ (∃ (s : State) (n p : Nat), n < 8 ∧ p < 16 ∧ s.countUe 3 n = true)
    ∧ (∃ (s : State) (n p : Nat), n < 8 ∧ p < 16 ∧ s.countUe 3 n = false ∧ s.portUp n = true) :=
  ⟨⟨td, q0, 3, 2175, by decide +kernel⟩,
    ⟨{ dev with bist := { dev.bist with online := [1] } }, q0, 4, 67, by decide +kernel⟩,
    ⟨{ dev with bist := { dev.bist with active := [(1, { kind := 4, unit := 67, bench := none, mbx := none })] } }, q0, 4, 67, by decide +kernel⟩,
    ⟨dev, q0, 4, 67, by decide +kernel⟩,
    ⟨{ dev with bist := { dev.bist with active := [(1, ⟨3, 2175, none, none, false⟩)] } }, 1, ⟨3, 2175, none, none, false⟩, by decide +kernel⟩,
    by decide +kernel,
    ⟨dev, 8, by decide +kernel⟩,
    ⟨{ dev with bist := { dev.bist with stopped := true } }, by decide +kernel⟩,
    ⟨{ dev with saf := { dev.saf with why := [(2175, 1)] } }, 2175, by decide +kernel⟩,
    ⟨dev, q0, 1, by decide +kernel⟩,
    ⟨{ dev with dress := [(63, dr)] }, q0, 63, dr, by decide +kernel⟩,
    ⟨dev, q0, 95, by decide +kernel⟩,
    ⟨dev, q0, 7, by decide +kernel⟩,
    ⟨dev, q0, 407, by decide +kernel⟩,
    ⟨{ dev with conUe := [(1, 407)] }, 67, 5, 17, by decide +kernel⟩,
    ⟨dev, 67, 5, 17, by decide +kernel⟩,
    ⟨{ dev with conUe := [(2, 95)] }, 95, 10, by decide +kernel⟩,
    ⟨(dev.bset (R.siteModStatus 7 11) 30 true).fset (R.siteModStatus 7 11) 24 21 5, 95, 10, by decide +kernel⟩,
    ⟨{ dev with conUe := [(3, 7)] }, 7, 15, by decide +kernel⟩,
    ⟨dev.bset (R.tksStatus 7) 31 true, 7, 15, by decide +kernel⟩⟩

theorem witness_StoreCommands :
    (∃ (s : State) (q : Req), Takes s q 0x0510 ∧ (begun s q 0x0510).storeInit = true)
    ∧ (∃ (s : State) (q : Req) (b l n d c : Nat) (t0 : List Nat), Takes s q 0x8510 ∧ (begun s q 0x8510).storeInit = false ∧ (begun s q 0x8510).initOk b l n d t0 =
      true ∧ t0.eraseDups.length = t0.length ∧ b + l < (((b + up64K (2 ^ n * 64) : Nat) + up64K (d * 32) : Nat) + up64K (c * 4096) : Nat))
    ∧ (∃ (s : State) (q : Req) (b l n d c : Nat) (t0 : List Nat), Takes s q 0x8510 ∧ (begun s q 0x8510).storeInit = false ∧ (begun s q 0x8510).initOk b l n d t0 =
      true ∧ t0.eraseDups.length = t0.length ∧ (((b + up64K (2 ^ n * 64) : Nat) + up64K (d * 32) : Nat) + up64K (c * 4096) : Nat) ≤ b + l)
    ∧ (∃ (s : State) (q : Req) (c g r f p : Nat) (w : W64) (k : Nat), Takes s q 0x0501 ∧ (begun s q 0x0501).storeInit = true ∧ openOk c g r f p (BitVec.toNat w) k =
      false)
    ∧ (Takes st0 q0 0x0501 ∧ (begun st0 q0 0x0501).storeInit = true ∧ openOk 5 1 64 1 32 0 0 = true)
    ∧ (∃ (s : State) (q : Req) (c g r f p : Nat) (w : W64) (k : Nat) (x : W64) (v : State), Takes s q 0x8501 ∧ (begun s q 0x8501).storeInit = true ∧ openOk c g r f
      p (BitVec.toNat w) k = true ∧ 34049 = 34049 ∧ ImageHole (begun s q 0x8501) x g v)
    ∧ (∃ (s : State) (q : Req) (c g r f p : Nat) (w : W64) (k : Nat) (x : W64), Takes s q 0x8501 ∧ (begun s q 0x8501).storeInit = true ∧ openOk c g r f p
      (BitVec.toNat w) k = true ∧ 34049 = 34049 ∧ (begun s q 0x8501).imgHole (BitVec.toNat x) g = false ∧ (begun s q 0x8501).imgReady (BitVec.toNat x) g =
      false)
    ∧ (5 < st0.store.cap ∧ seqOk 4096 64 1 32 = true ∧ st0.seqState 5 = 0 ∧ (st0.takeChunks (cdiv (16 * 1) 4096)).isSome = true)
    ∧ (∃ (s : State) (q : Req) (e x : Nat), Takes s q 0x0503 ∧ (x < 8192 ∨ x = 65535) ∧ ((begun s q 0x0503).storeInit = false ∨ (begun s q 0x0503).seqState e ≠ 1))
    ∧ (∃ (s : State) (q : Req) (e x : Nat), Takes s q 0x0502 ∧ (x < 8192 ∨ x = 65535) ∧ (begun s q 0x0502).storeInit = true ∧ (begun s q 0x0502).seqState e = 1)
    ∧ (∃ (s : State) (e x : Nat), tget s.store.closing e = some x ∧ s.closeWaits e = false ∧ s.unzeroed e = [])
    ∧ (∃ (s : State) (q : Req) (e : Nat), Takes s q 0x0503 ∧ (begun s q 0x0503).storeInit = true ∧ (begun s q 0x0503).seqState e = 1)
    ∧ (∃ (s : State) (q : Req) (e a n : Nat), Takes s q 0x0504 ∧ (begun s q 0x0504).storeInit = true ∧ (begun s q 0x0504).seqState e = 1 ∧ n ≠ 0 ∧ a + n ≤ (begun s
      q 0x0504).seqGroups e ∧ (begun s q 0x0504).store.broken = false ∧ (begun s q 0x0504).store.appends = [] ∧ (∃ i < n, (begun s q 0x0504).grpOpen e (a + i)
      ≠ 4294967295))
    ∧ (∃ (s : State) (q : Req) (e a n : Nat), Takes s q 0x0504 ∧ (begun s q 0x0504).storeInit = true ∧ (begun s q 0x0504).seqState e = 1 ∧ n ≠ 0 ∧ a + n ≤ (begun s
      q 0x0504).seqGroups e ∧ (begun s q 0x0504).store.broken = false ∧ (begun s q 0x0504).store.appends = [] ∧ (∀ i < n, (begun s q 0x0504).grpOpen e (a + i)
      = 4294967295))
    ∧ (apW.descs = none ∧ (match apS.appendAll 1023 [0] with | .inr r => r.1.length == 1 | .inl _ => false) = true ∧ apV.store.appends = [apW] ∧ apV.slotUnmaps
      (apV.seqCtx 1023) (apV.seqWin 1023) = false)
    ∧ (∃ (s : State) (m : Nat) (w : AppendW), m < 28 ∧ List.find? (fun w ↦ w.mbx == m) s.store.appends = some w ∧ w.descs = none)
    ∧ (∃ (s : State) (q : Req) (e l x : Nat), Takes s q 0x0505 ∧ (x < 8192 ∨ x = 65535) ∧ (begun s q 0x0505).storeInit = true ∧ (begun s q 0x0505).seqState e = 1 ∧
      (l < (begun s q 0x0505).seqLen e ∨ (begun s q 0x0505).commitMax e < l))
    ∧ (∃ (s : State) (q : Req) (e l x : Nat), Takes s q 0x0505 ∧ (x < 8192 ∨ x = 65535) ∧ (begun s q 0x0505).storeInit = true ∧ (begun s q 0x0505).seqState e = 1 ∧
      (begun s q 0x0505).seqLen e ≤ l ∧ l ≤ (begun s q 0x0505).commitMax e)
    ∧ (Takes st0 q0 0x0506 ∧ (begun st0 q0 0x0506).storeInit = true ∧ (begun st0 q0 0x0506).seqState 1023 = 1 ∧ ((begun st0 q0 0x0506).pageNamed 1023 0 0).isSome =
      true)
    ∧ (Takes st0 q0 0x8506 ∧ (begun st0 q0 0x8506).pageNamed 1023 0 0 = some 7 ∧ (begun st0 q0 0x8506).movable 7 = true ∧ 3 ≠ ((begun st0 q0 0x8506).pd 7).tier ∧ 1
      = ((begun st0 q0 0x8506).pd 7).fmt)
    ∧ (∃ (s : State) (q : Req) (e g k i : Nat), Takes s q 0x8506 ∧ (begun s q 0x8506).storeInit = true ∧ (begun s q 0x8506).seqState e = 1 ∧ (begun s q
      0x8506).pageNamed e g k = some i ∧ ((begun s q 0x8506).pd i).tier < 4 ∧ ((begun s q 0x8506).pd i).fmt < 10 ∧ (begun s q 0x8506).pdOk i = true ∧ tget
      (begun s q 0x8506).store.moves i = none) :=
  ⟨⟨st0, q0, by decide +kernel⟩,
    ⟨hbm, q0, 0x100000, 0x200000, 10, 65536, 16, [], by decide +kernel⟩,
    ⟨hbm, q0, 0x100000, 0x220000, 10, 65536, 16, [], by decide +kernel⟩,
    ⟨st0, q0, 4096, 4096, 64, 1, 32, 0, 0, by decide +kernel⟩,
    by decide +kernel,
    ⟨dev.bset R.ctxStoreStatus 31 true, q0, 5, 1, 64, 1, 32, 0, 0, (BitVec.ofNat 64 (6 * 2 ^ 46)), (begun (dev.bset R.ctxStoreStatus 31 true) q0 0x8501).hole
      Machine.steward 0 (6 * 2 ^ 46), by decide +kernel⟩,
    ⟨rt6.bset R.ctxStoreStatus 31 true, q0, 5, 1, 64, 1, 32, 0, 0, (BitVec.ofNat 64 (6 * 2 ^ 46)), by decide +kernel⟩,
    by decide +kernel,
    ⟨hbm, q0, 1023, 8191, by decide +kernel⟩,
    ⟨st0, q0, 1023, 8191, by decide +kernel⟩,
    ⟨{ st0 with store := { st0.store with closing := [(1023, 65535)] } }, 1023, 65535, by decide +kernel⟩,
    ⟨st0, q0, 1023, by decide +kernel⟩,
    ⟨st0.write 0x30101C (leBytes 4 7) false, q0, 1023, 0, 2, by decide +kernel⟩,
    ⟨st0, q0, 1023, 0, 2, by decide +kernel⟩,
    by decide +kernel,
    ⟨apS, 24, apW, by decide +kernel⟩,
    ⟨st0, q0, 1023, 7, 65535, by decide +kernel⟩,
    ⟨st0, q0, 1023, 8, 65535, by decide +kernel⟩,
    by decide +kernel,
    by decide +kernel,
    ⟨st0, q0, 1023, 0, 0, 7, by decide +kernel⟩⟩

theorem witness_StoreSettings :
    (∃ (s : State) (q : Req) (h : Nat) (d : Dressing), Takes s q 0x0507 ∧ (begun s q 0x0507).storeInit = true ∧ h < 64 ∧ tget (begun s q 0x0507).dress h =
      some d ∧ d.mbx = none)
    ∧ (Takes { st0 with dress := [(63, { dr with streams := [stH] })] } q0 0x8507 ∧ (dr.mbx = none ∧ dr.st = .active) ∧ [stH].find? (fun x => nbits x.prod 31 28 ==
      4 && nbits x.prod 15 0 == 9) = some stH ∧ (begun { st0 with dress := [(63, { dr with streams := [stH] })] } q0 0x8507).tagBound 63 9 = false ∧ tget
      (begun { st0 with dress := [(63, { dr with streams := [stH] })] } q0 0x8507).lanes 511 = none)
    ∧ (∃ (s : State) (q : Req) (h : Nat) (d : Dressing), Takes s q 0x0508 ∧ (begun s q 0x0508).storeInit = true ∧ h < 64 ∧ tget (begun s q 0x0508).dress h = some d
      ∧ d.mbx = none)
    ∧ (∃ (s : State) (q : Req) (hi lo : List Nat), Takes s q 0x0509 ∧ (begun s q 0x0509).storeInit = true ∧ marksOk hi lo = true)
    ∧ (∃ (s : State) (q : Req) (c : Nat) (hi lo : List Nat) (sh a : Nat) (nx tf : List Nat), Takes s q 0x8509 ∧ (begun s q 0x8509).storeInit = true ∧ marksOk hi lo
      = true ∧ c < 16 ∧ sh ≤ 8 ∧ a < 2 ∧ nx.length = 4 ∧ tf.length = 4 ∧ ([0, 1, 2, 3].zip nx).all nextOk = true ∧ (∀ f ∈ tf, f ≤ 9))
    ∧ (∃ (s : State) (q : Req) (b n : Nat), Takes s q 0x050A ∧ (begun s q 0x050A).storeInit = true ∧ b % 4096 = 0 ∧ n % 4096 = 0 ∧ n ≠ 0 ∧ 17592186044416 ≤ b ∧
      (begun s q 0x050A).hostCovers 65 (b - 17592186044416 : Nat) ((b - 17592186044416 : Nat) + n) = false)
    ∧ (∃ (s : State) (q : Req) (b n : Nat), Takes s q 0x050A ∧ (begun s q 0x050A).storeInit = true ∧ b % 4096 = 0 ∧ n % 4096 = 0 ∧ n ≠ 0 ∧ 17592186044416 ≤ b ∧
      (begun s q 0x050A).hostCovers 65 (b - 17592186044416 : Nat) ((b - 17592186044416 : Nat) + n) = true ∧ runMeets ((begun s q 0x050A).tierRuns 2) ((b -
      17592186044416 : Nat) / 4096) (n / 4096) = false)
    ∧ (∃ (s : State) (q : Req) (d n : Nat), Takes s q 0x050A ∧ (begun s q 0x050A).storeInit = true ∧ n ≠ 0 ∧ n < 2 ^ 32 ∧ d < 2 ^ 18 ∧ d ≠ (begun s q
      0x050A).ownDev)
    ∧ (∃ (s : State) (q : Req) (b n : Nat), Takes s q 0x050B ∧ (begun s q 0x050B).storeInit = true ∧ (begun s q 0x050B).store.broken = false ∧ 17592186044416 ≤ b ∧
      b % 4096 = 0 ∧ n % 4096 = 0 ∧ n ≠ 0 ∧ runMeets ((begun s q 0x050B).tierRuns 2) ((b - 17592186044416) / 4096) (n / 4096) = true)
    ∧ (∃ (s : State) (q : Req) (d : Nat), Takes s q 0x050B ∧ d < 2 ^ 18 ∧ (begun s q 0x050B).storeInit = true ∧ (begun s q 0x050B).store.broken = false ∧
      (List.filter (fun r ↦ t3Dev r.1 == d) ((begun s q 0x050B).tierRuns 3) : List (Nat × Nat)) = [])
    ∧ (∃ (s : State) (q : Req) (d : Nat), Takes s q 0x050B ∧ d < 2 ^ 18 ∧ (begun s q 0x050B).storeInit = true ∧ (begun s q 0x050B).store.broken = false ∧
      (List.filter (fun r ↦ t3Dev r.1 == d) ((begun s q 0x050B).tierRuns 3) : List (Nat × Nat)) ≠ [] ∧ ((List.filter (fun r ↦ t3Dev r.1 == d) ((begun s q
      0x050B).tierRuns 3) : List (Nat × Nat)).any fun r ↦ (begun s q 0x050B).runUsed 3 r.1 r.2) = true)
    ∧ (∃ (s : State) (q : Req) (d : Nat), Takes s q 0x050B ∧ d < 2 ^ 18 ∧ (begun s q 0x050B).storeInit = true ∧ (begun s q 0x050B).store.broken = false ∧
      (List.filter (fun r ↦ t3Dev r.1 == d) ((begun s q 0x050B).tierRuns 3) : List (Nat × Nat)) ≠ [] ∧ ((List.filter (fun r ↦ t3Dev r.1 == d) ((begun s q
      0x050B).tierRuns 3) : List (Nat × Nat)).any fun r ↦ (begun s q 0x050B).runUsed 3 r.1 r.2) = false ∧ ((begun s q 0x050B).tksOn = false ∨ (begun s q
      0x050B).route d = none))
    ∧ (∃ (s : State) (q : Req) (d : Nat), Takes s q 0x050B ∧ d < 2 ^ 18 ∧ (begun s q 0x050B).storeInit = true ∧ (begun s q 0x050B).store.broken = false ∧
      (List.filter (fun r ↦ t3Dev r.1 == d) ((begun s q 0x050B).tierRuns 3) : List (Nat × Nat)) ≠ [] ∧ ((List.filter (fun r ↦ t3Dev r.1 == d) ((begun s q
      0x050B).tierRuns 3) : List (Nat × Nat)).any fun r ↦ (begun s q 0x050B).runUsed 3 r.1 r.2) = false ∧ (begun s q 0x050B).tksOn = true ∧ (begun s q
      0x050B).route d ≠ none ∧ ((begun s q 0x050B).tksTrim : State).tksOut + (List.filter (fun r ↦ t3Dev r.1 == d) ((begun s q 0x050B).tierRuns 3) :
      List (Nat × Nat)).length ≤ 16384 ∧ ((begun s q 0x050B).tksTrim : State).reqAge (((begun s q 0x050B).tksTrim : State).tksFloor d) +
      (List.filter (fun r ↦ t3Dev r.1 == d) ((begun s q 0x050B).tierRuns 3) : List (Nat × Nat)).length < 32768)
    ∧ (∃ (s : State) (q : Req) (b n : Nat), Takes s q 0x050C ∧ (begun s q 0x050C).storeInit = true ∧ n ≠ 0 ∧ b % 4096 = 0 ∧ n % 4096 = 0 ∧ (begun s q
      0x050C).hbmBacked b = true ∧ (begun s q 0x050C).hbmBacked (b + n - 1) = true ∧ (b + n ≤ (begun s q 0x050C).store.rBase ∨ (begun s q 0x050C).store.rBase
      + (begun s q 0x050C).store.rLen ≤ b) ∧ ((begun s q 0x050C).expo.len = 0 ∨ (begun s q 0x050C).expo.granted = []))
    ∧ (∃ (s : State) (q : Req), Takes s q 0x050D ∧ (begun s q 0x050D).storeInit = true)
    ∧ (∃ (s : State) (q : Req), Takes s q 0x050E ∧ (begun s q 0x050E).storeInit = true) :=
  ⟨⟨{ st0 with dress := [(63, dr)] }, q0, 63, dr, by decide +kernel⟩,
    by decide +kernel,
    ⟨{ st0 with dress := [(63, dr)] }, q0, 63, dr, by decide +kernel⟩,
    ⟨st0, q0, [16, 16, 16, 16], [15, 0, 0, 0], by decide +kernel⟩,
    ⟨st0, q0, 15, [16, 16, 16, 16], [15, 0, 0, 0], 8, 1, [1, 2, 3, 15], [0, 9, 0, 0], by decide +kernel⟩,
    ⟨st0, q0, 17592186044416, 4096, by decide +kernel⟩,
    ⟨{ ((st0.bset (R.cxlHtTier 63) 63 true).set (R.cxlHtSize 63) (1 * 2 ^ 21)) with store := { st0.store with pools := [] } }, q0, 17592186044416, 4096,
      by decide +kernel⟩,
    ⟨st0, q0, 2 ^ 18 - 1, 2 ^ 32 - 1, by decide +kernel⟩,
    ⟨st0, q0, 17592186044416, 4096, by decide +kernel⟩,
    ⟨st0, q0, 2 ^ 18 - 1, by decide +kernel⟩,
    ⟨{ st0 with store := { st0.store with pools := [(3, [(2 ^ 32 * 7, 4)])], used := [(3, [2 ^ 32 * 7 + 3])] } }, q0, 7, by decide +kernel⟩,
    ⟨{ st0 with store := { st0.store with pools := [(3, [(2 ^ 32 * 7, 4)])], used := [] } }, q0, 7, by decide +kernel⟩,
    ⟨{ (rt6.bset R.ctxStoreStatus 31 true) with store := { rt6.store with pools := [(3, [(2 ^ 32 * 6, 4)])] } }, q0, 6, by decide +kernel⟩,
    ⟨st0, q0, 0x80000000, 4096, by decide +kernel⟩,
    ⟨st0, q0, by decide +kernel⟩,
    ⟨st0, q0, by decide +kernel⟩⟩

theorem witness_MovesAndGathers :
    (∃ (s : State) (i h : Nat) (v : MoveSt), h < 64 ∧ tget s.store.moves i = some v ∧ v.phase = MPhase.chosen)
    ∧ (∃ (s : State) (i : Nat) (v : MoveSt), tget s.store.moves i = some v ∧ v.phase = MPhase.writing ∧ v.unacked = 0 ∧ v.out = [])
    ∧ (∃ (s : State) (i : Nat) (v : MoveSt), tget s.store.moves i = some v ∧ v.phase = MPhase.rewritten)
    ∧ (∃ (s : State) (t : Nat), t < 4 ∧ s.storeInit = true)
    ∧ (∃ (s : State) (t : Nat), 16 * s.tierUse t ≤ s.policy.low.getD t 12 * s.tierTotal t)
    ∧ (∃ (s : State) (i t : Nat), t < 4 ∧ s.store.promote.contains i = true ∧ s.movable i = true ∧ (s.pd i).pinned = false ∧ t < (s.pd i).tier ∧ 16 * s.tierUse t <
      s.policy.low.getD t 12 * s.tierTotal t)
    ∧ (∃ (s : State) (i : Nat), s.oldLive = true ∧ s.movable i = true ∧ 2 ≤ (s.pd i).tier ∧ (s.pd i).epoch = s.oldEpoch)
    ∧ (∃ (s : State), s.oldLive = true ∧ s.epochPages s.oldEpoch = 0 ∧ s.store.epochBad = false ∧ (List.any s.store.moves fun m ↦ m.2.phase == MPhase.writing &&
      decide (2 ≤ m.2.tier) && m.2.epoch == s.oldEpoch) = false)
    ∧ (∃ (s : State), (s.oldLive = false ∨ s.epochPages s.oldEpoch ≠ 0 ∨ s.store.epochBad = true))
    ∧ (∃ (s : State) (n k : Nat) (l : Lane), n < 64 ∧ k < 8 ∧ tget s.lanes (8 * n + k) = some l ∧ laneTr l (s.ringVa n k (s.ringHead n k)) = none)
    ∧ (∃ (s : State) (n k : Nat) (l : Lane) (g : Gather), n < 64 ∧ k < 8 ∧ tget s.lanes (8 * n + k) = some l ∧ s.bget (R.ctxLaneCfg n k) 62 = false ∧ s.bget
      R.safStatus 29 = false ∧ l.cur = some g ∧ g.made = true)
    ∧ (∃ (s : State) (n k : Nat) (l : Lane) (g : Gather), n < 64 ∧ k < 8 ∧ tget s.lanes (8 * n + k) = some l ∧ s.bget (R.ctxLaneCfg n k) 62 = false ∧ s.bget
      R.safStatus 29 = false ∧ l.cur = some g ∧ g.made = false)
    ∧ (∃ (s : State) (n k : Nat) (l : Lane), n < 64 ∧ k < 8 ∧ tget s.lanes (8 * n + k) = some l ∧ s.bget (R.ctxLaneCfg n k) 62 = false ∧ s.bget R.safStatus 29 =
      false ∧ l.cur = none ∧ s.ringHead n k = s.ringTail n k)
    ∧ (∃ (s : State) (n k : Nat) (l : Lane) (a : Nat), n < 64 ∧ k < 8 ∧ tget s.lanes (8 * n + k) = some l ∧ s.bget (R.ctxLaneCfg n k) 62 = false ∧ s.bget
      R.safStatus 29 = false ∧ l.cur = none ∧ l.rd = none ∧ s.ringHead n k ≠ s.ringTail n k ∧ s.storeInit = true ∧ laneFind l (s.ringVa n k (s.ringHead n k))
      = some a ∧ s.gHole a 32 = true)
    ∧ (∃ (s : State) (n k : Nat) (l : Lane) (a : Nat), n < 64 ∧ k < 8 ∧ tget s.lanes (8 * n + k) = some l ∧ s.bget (R.ctxLaneCfg n k) 62 = false ∧ s.bget
      R.safStatus 29 = false ∧ l.cur = none ∧ l.rd = none ∧ s.ringHead n k ≠ s.ringTail n k ∧ s.storeInit = true ∧ laneFind l (s.ringVa n k (s.ringHead n k))
      = some a ∧ s.gHole a 32 = false ∧ s.gReady (hoist n) a 32 = false)
    ∧ (∃ (s : State) (n k : Nat) (l : Lane) (a : Nat), n < 64 ∧ k < 8 ∧ tget s.lanes (8 * n + k) = some l ∧ s.bget (R.ctxLaneCfg n k) 62 = false ∧ s.bget
      R.safStatus 29 = false ∧ l.cur = none ∧ l.rd = none ∧ s.ringHead n k ≠ s.ringTail n k ∧ s.storeInit = true ∧ laneFind l (s.ringVa n k (s.ringHead n k))
      = some a ∧ s.gHole a 32 = false ∧ s.gReady (hoist n) a 32 = true ∧ s.gErr a 32 = 0)
    ∧ (∃ (s : State) (n k : Nat) (l : Lane) (g : Gather) (c : Nat) (a : W64), n < 64 ∧ k < 8 ∧ tget s.lanes (8 * n + k) = some l ∧ l.cur = some g ∧ g.made = true ∧
      g.eflits = [] ∧ g.sflits = [] ∧ s.flight = [] ∧ g.ending = some (c, a))
    ∧ (∃ (s : State) (n k : Nat) (l : Lane) (g : Gather), n < 64 ∧ k < 8 ∧ tget s.lanes (8 * n + k) = some l ∧ l.cur = some g ∧ g.made = true ∧ g.eflits = [] ∧
      g.sflits = [] ∧ s.flight = [] ∧ g.ending = none ∧ g.promote = false)
    ∧ (∃ (s : State) (n k : Nat) (l : Lane) (g : Gather) (x : Nat) (xs : List Nat), n < 64 ∧ k < 8 ∧ tget s.lanes (8 * n + k) = some l ∧ l.cur = some g ∧ g.want = x
      :: xs) :=
  ⟨⟨ms .chosen, 7, 63, mv .chosen, by decide +kernel⟩,
    ⟨ms .writing, 7, mv .writing, by decide +kernel⟩,
    ⟨ms .rewritten, 7, mv .rewritten, by decide +kernel⟩,
    ⟨st0, 3, by decide +kernel⟩,
    ⟨st0, 2, by decide +kernel⟩,
    ⟨{ st0 with store := { st0.store with promote := [7] } }, 7, 1, by decide +kernel⟩,
    ⟨st0e, 7, by decide +kernel⟩,
    ⟨dev.bset R.ctxStoreStatus 30 true, by decide +kernel⟩,
    ⟨dev, by decide +kernel⟩,
    ⟨{ hbm with lanes := [(511, la)] }, 63, 7, la, by decide +kernel⟩,
    ⟨lst { la with cur := some (ga true) }, 63, 7, { la with cur := some (ga true) }, ga true, by decide +kernel⟩,
    ⟨lst { la with cur := some (ga false) }, 63, 7, { la with cur := some (ga false) }, ga false, by decide +kernel⟩,
    ⟨lst la, 63, 7, la, by decide +kernel⟩,
    ⟨(lst { la with tr := [⟨0, 0, 6 * 2 ^ 46, 0, []⟩] }).set (R.ctxLaneTail 63 7) 1, 63, 7, { la with tr := [⟨0, 0, 6 * 2 ^ 46, 0, []⟩] }, 6 * 2 ^ 46,
      by decide +kernel⟩,
    ⟨(lanR { la with tr := [⟨0, 0, 6 * 2 ^ 46, 0, []⟩] }).set (R.ctxLaneTail 63 7) 1, 63, 7, { la with tr := [⟨0, 0, 6 * 2 ^ 46, 0, []⟩] }, 6 * 2 ^ 46,
      by decide +kernel⟩,
    ⟨(lst { la with tr := [tra] }).set (R.ctxLaneTail 63 7) 1, 63, 7, { la with tr := [tra] }, 0x800000, by decide +kernel⟩,
    ⟨lst { la with cur := some { ga true with ending := some (5, 0) } }, 63, 7, { la with cur := some { ga true with ending := some (5, 0) } },
      { ga true with ending := some (5, 0) }, 5, 0, by decide +kernel⟩,
    ⟨lst { la with cur := some (ga true) }, 63, 7, { la with cur := some (ga true) }, ga true, by decide +kernel⟩,
    ⟨lst { la with cur := some { ga false with want := [112] } }, 63, 7, { la with cur := some { ga false with want := [112] } },
      { ga false with want := [112] }, 112, [], by decide +kernel⟩⟩

theorem witness_TranslationCommands :
    (∃ (s : State) (q : Req) (c b l : Nat), Takes s q 0x0C01 ∧ c < 4096 ∧ b % 65536 = 0 ∧ l % 65536 = 0 ∧ 196608 ≤ l ∧ ((begun s q 0x0C01).bget (R.xltCtx c)
      63 = true ∨ (begun s q 0x0C01).bget (R.xltCtx c) 62 = true))
    ∧ (∃ (s : State) (q : Req) (c b l : Nat), Takes s q 0x0C01 ∧ c < 4096 ∧ b % 65536 = 0 ∧ l % 65536 = 0 ∧ 196608 ≤ l ∧ (begun s q 0x0C01).bget (R.xltCtx c) 63 =
      false ∧ (begun s q 0x0C01).bget (R.xltCtx c) 62 = false ∧ (begun s q 0x0C01).hbmBacked b = true ∧ (begun s q 0x0C01).hbmBacked (b + l - 1) = true)
    ∧ (∃ (s : State) (q : Req) (c r : Nat), Takes s q 0x8C01 ∧ c < 4096 ∧ r % 65536 = 0 ∧ (begun s q 0x8C01).bget (R.xltCtx c) 63 = false ∧ (begun s q 0x8C01).bget
      (R.xltCtx c) 62 = false)
    ∧ (∃ (s : State) (q : Req) (c x : Nat), Takes s q 0x0C02 ∧ c < 4096 ∧ (x < 8192 ∨ x = 65535) ∧ (begun s q 0x0C02).ctxHeld c = true)
    ∧ (∃ (s : State) (q : Req) (c x : Nat), Takes s q 0x0C02 ∧ c < 4096 ∧ (x < 8192 ∨ x = 65535) ∧ (begun s q 0x0C02).ctxHeld c = false ∧ (begun s q
      0x0C02).freeSlot = none)
    ∧ (∃ (s : State) (q : Req) (c x k : Nat), Takes s q 0x0C02 ∧ c < 4096 ∧ (x < 8192 ∨ x = 65535) ∧ (begun s q 0x0C02).ctxHeld c = false ∧ (begun s q
      0x0C02).freeSlot = some k)
    ∧ (∃ (s : State) (q : Req) (c : Nat) (v : W64) (l x k : Nat), Takes s q 0x0C03 ∧ c < 4096 ∧ vaOk (BitVec.toNat v) l = true ∧ (x < 8192 ∨ x = 65535) ∧ (begun s q
      0x0C03).ctxFree c = false ∧ (begun s q 0x0C03).partLeaf ((begun s q 0x0C03).root c) (BitVec.toNat v) l = false ∧ (begun s q 0x0C03).freeSlot = some k)
    ∧ (∃ (s : State) (q : Req) (c : Nat) (v : W64) (l x : Nat), Takes s q 0x0C03 ∧ c < 4096 ∧ vaOk (BitVec.toNat v) l = true ∧ (x < 8192 ∨ x = 65535) ∧ (begun s q
      0x0C03).ctxFree c = false ∧ (begun s q 0x0C03).partLeaf ((begun s q 0x0C03).root c) (BitVec.toNat v) l = false ∧ (begun s q 0x0C03).freeSlot = none)
    ∧ (∃ (s : State) (q : Req) (c : Nat) (v : W64) (l x : Nat) (a : Bool) (k : Nat), Takes s q 0x8C03 ∧ c < 4096 ∧ (a = true ∨ vaOk (BitVec.toNat v) l = true) ∧ (x
      < 8192 ∨ x = 65535) ∧ (begun s q 0x8C03).ctxFree c = false ∧ (begun s q 0x8C03).freeSlot = some k)
    ∧ (∃ (s : State) (q : Req) (k : Nat), Takes s q 0x0C04 ∧ k < 16)
    ∧ (∃ (s : State) (q : Req) (c : Nat) (v : W64) (l : Nat) (g : W64), Takes s q 0x0C05 ∧ c < 4096 ∧ vaOk (BitVec.toNat v) l = true ∧ BitVec.toNat g % 65536 = 0 ∧
      BitVec.toNat g + l ≤ 2 ^ 64 ∧ (begun s q 0x0C05).bget (R.xltCtx c) 62 = true)
    ∧ (∃ (s : State) (q : Req) (c : Nat) (v : W64) (l : Nat) (g : W64), Takes s q 0x0C05 ∧ c < 4096 ∧ vaOk (BitVec.toNat v) l = true ∧ BitVec.toNat g % 65536 = 0 ∧
      BitVec.toNat g + l ≤ 2 ^ 64 ∧ (begun s q 0x0C05).bget (R.xltCtx c) 62 = false ∧ (begun s q 0x0C05).bget (R.xltCtx c) 63 = true ∧ (∃ j < l / 65536,
      (begun s q 0x0C05).mapped ((begun s q 0x0C05).root c) (BitVec.toNat v + 65536 * j) = true))
    ∧ (∃ (s : State) (q : Req) (c : Nat) (v : W64) (l : Nat) (g : W64), Takes s q 0x0C05 ∧ c < 4096 ∧ vaOk (BitVec.toNat v) l = true ∧ BitVec.toNat g % 65536 = 0 ∧
      BitVec.toNat g + l ≤ 2 ^ 64 ∧ (begun s q 0x0C05).bget (R.xltCtx c) 62 = false ∧ (begun s q 0x0C05).bget (R.xltCtx c) 63 = true ∧ (∀ j < l / 65536,
      (begun s q 0x0C05).mapped ((begun s q 0x0C05).root c) (BitVec.toNat v + 65536 * j) = false))
    ∧ Takes dev q0 0x0C06
    ∧ (∃ (u : State), u.laneSettle = u ∧ u.conUe = [] ∧ (∀ b < 68, u.tlbSum b = u.tlbHeld b) ∧ (∀ h < 64, u.laneSum h = u.laneReads h)) :=
  ⟨⟨hbm.bset (R.xltCtx 4095) 63 true, q0, 4095, 0x10000, 196608, by decide +kernel⟩,
    ⟨hbm, q0, 4095, 0x10000, 196608, by decide +kernel⟩,
    ⟨dev, q0, 4095, 0x10000, by decide +kernel⟩,
    ⟨{ dev with dress := [(63, { dr with ctx := 4095 })] }, q0, 4095, 65535, by decide +kernel⟩,
    ⟨(List.range 4).foldl (fun s k => s.bset (R.xltInvCtl (12 + k)) 30 true) dev, q0, 4095, 8191, by decide +kernel⟩,
    ⟨dev, q0, 4095, 8191, 12, by decide +kernel⟩,
    ⟨dev.bset (R.xltCtx 4095) 63 true, q0, 4095, 2 ^ 55 - 65536, 65536, 65535, 12, by decide +kernel⟩,
    ⟨(List.range 4).foldl (fun s k => s.bset (R.xltInvCtl (12 + k)) 30 true) (dev.bset (R.xltCtx 4095) 63 true), q0, 4095, 2 ^ 55 - 65536, 65536, 65535,
      by decide +kernel⟩,
    ⟨dev.bset (R.xltCtx 4095) 63 true, q0, 4095, 2 ^ 55 - 65536, 0, 65535, true, 12, by decide +kernel⟩,
    ⟨dev, q0, 15, by decide +kernel⟩,
    ⟨dev.bset (R.xltCtx 5) 62 true, q0, 5, 2 ^ 55 - 65536, 65536, 0x10000, by decide +kernel⟩,
    ⟨((hbm.set (R.xltCtx 5) (2 ^ 63 + 0x400000)).write 0x400000 (leBytes 8 0x410001) false).write 0x410000 (leBytes 8 0x3) false, q0, 5, 0, 65536, 0x10000,
      by decide +kernel⟩,
    ⟨hbm.set (R.xltCtx 5) (2 ^ 63 + 0x400000), q0, 5, 2 ^ 55 - 65536, 65536, 0x10000, by decide +kernel⟩,
    by decide +kernel,
    ⟨dev, rfl, rfl, by decide +kernel, by decide +kernel⟩⟩

theorem witness_TranslationEvents :
    (∃ (s : State) (k : Nat), k < 16 ∧ (s.bget (R.xltInvCtl k) 30 = true ∨ s.bget (R.xltInvCtl k) 28 = false ∧ BitVec.toNat (s.get (R.xltInvLen k)) % 65536 ≠
      0))
    ∧ (∃ (s : State) (k : Nat), k < 16 ∧ s.bget (R.xltInvCtl k) 30 = false ∧ (s.bget (R.xltInvCtl k) 28 = true ∨ BitVec.toNat (s.get (R.xltInvLen k)) % 65536 = 0 ∧
      BitVec.toNat (s.get (R.xltInvLen k)) ≠ 0))
    ∧ (∃ (s : State) (k : Nat), k < 16 ∧ s.bget (R.xltInvCtl k) 30 = true ∧ s.bget (R.xltInvCtl k) 29 = false)
    ∧ (∃ (s : State) (k : Nat), k < 16 ∧ s.bget (R.xltInvCtl k) 29 = true)
    ∧ (∃ (s : State) (k : Nat) (r : InvRec), k < 16 ∧ tget s.inv k = some r ∧ r.commit = none ∧ ((s.laneSettle : State).bget (R.xltInvCtl k) 29 = false ∨
      (s.laneSettle : State).invRefs k ≠ 0))
    ∧ (∃ (s : State) (k : Nat) (r : InvRec), k < 16 ∧ tget s.inv k = some r ∧ tget (s.laneSettle : State).inv k = some r ∧ (s.laneSettle :
      State).bget (R.xltInvCtl k) 29 = true ∧ (s.laneSettle : State).invRefs k = 0 ∧ (List.any (s.laneSettle : State).tlb fun e ↦
      e.2.retiring.contains k) = false ∧ r.commit = none)
    ∧ (∃ (s : State) (k : Nat) (r : InvRec) (d : Nat), k < 16 ∧ tget s.inv k = some r ∧ tget (s.laneSettle : State).inv k = some r ∧ (s.laneSettle :
      State).bget (R.xltInvCtl k) 29 = true ∧ (s.laneSettle : State).invRefs k = 0 ∧ (List.any (s.laneSettle : State).tlb fun e ↦
      e.2.retiring.contains k) = false ∧ r.commit = some d ∧ r.clear = none)
    ∧ (∃ (m : Master) (c : Nat), masterOk m = true ∧ (m.cls = MClass.tile ∨ m.cls = MClass.hoist) ∧ c < 4096)
    ∧ (∃ (s : State) (h : Nat), h < 2 ∧ List.find? (fun r ↦ r.half == h) s.walkQ = none)
    ∧ (wkN.walkQ.filter (fun r => r.half == 1 && (wkN.walking 1).contains (r.ctx, r.va / 65536)) = [wk1] ∧ (wkN.walkWaits 1 5 0).isNone = true)
    ∧ (walkS.walkQ.filter (fun r => r.half == 1 && (walkS.walking 1).contains (r.ctx, r.va / 65536)) = [wk1] ∧ (walkS.walkWaits 1 5 0).isSome = true)
    ∧ (∃ (b : Nat), b < 68) :=
  ⟨⟨dev.bset (R.xltInvCtl 15) 30 true, 15, by decide +kernel⟩,
    ⟨dev.set (R.xltInvLen 15) 65536, 15, by decide +kernel⟩,
    ⟨dev.bset (R.xltInvCtl 15) 30 true, 15, by decide +kernel⟩,
    ⟨dev.bset (R.xltInvCtl 15) 29 true, 15, by decide +kernel⟩,
    ⟨{ dev with inv := [(15, {})] }, 15, {}, by decide +kernel⟩,
    ⟨({ dev with inv := [(15, {})] }).bset (R.xltInvCtl 15) 29 true, 15, {}, by decide +kernel⟩,
    ⟨({ dev with inv := [(15, { commit := some 7 })] }).bset (R.xltInvCtl 15) 29 true, 15, { commit := some 7 }, 7, by decide +kernel⟩,
    ⟨⟨.hoist, 63⟩, 4095, by decide +kernel⟩,
    ⟨dev, 1, by decide +kernel⟩,
    by decide +kernel,
    by decide +kernel,
    ⟨67, by decide +kernel⟩⟩

theorem witness_HostMemoryRequests :
    (hp.powered = true ∧ hp.hostUp = true ∧ hp.hdmDpa 0x1FFFFFFC0 = some 0xFFFFFFC0 ∧ hp.homed 0xFFFFFFC0 = true ∧ region 0xFFFFFFC0 = .hbm ∧ hp.libHit
      0xFFFFFFC0 64 = false ∧ hp.awaits .host (0xFFFFFFC0 / 128) = none)
    ∧ (∃ (s : State) (p : Nat), s.powered = true ∧ s.hostUp = true ∧ s.hdmDpa p = none)
    ∧ (∃ (s : State) (p d : Nat), s.powered = true ∧ s.hostUp = true ∧ s.hdmDpa p = some d ∧ (s.awaits Agent.host (d / 128)).isSome = true)
    ∧ (∃ (s : State) (i : Nat) (x : ExtReq), s.powered = true ∧ s.hostUp = true ∧ tget s.ext i = some x ∧ x.site = none) :=
  ⟨by decide +kernel,
    ⟨hp, 0, by decide +kernel⟩,
    ⟨{ hp with lines := [(0, {})], txn := [(0, { r := rq .rdUnique (.site 0), agents := [8] })] }, 0x100000000, 0, by decide +kernel⟩,
    ⟨{ hp with ext := [(3, ⟨none, 0, 64, .rdNoAlloc, .noone, [], 1⟩)] }, 3, ⟨none, 0, 64, .rdNoAlloc, .noone, [], 1⟩, by decide +kernel⟩⟩

theorem witness_HostPort :
    (∃ (s : State) (op : AccessOp), s.powered = true ∧ s.hostUp = true ∧ accCode op ≠ 2)
    ∧ (∃ (s : State) (v : Nat), s.powered = true ∧ s.hostUp = true ∧ v < 2048 ∧ s.msixPend.contains v = true ∧ s.msixFnMask = false ∧ s.bget R.cxlStatus 28 = true)
    ∧ (∃ (s : State) (r : Nat), s.powered = true ∧ s.hostUp = true ∧ r < 1024 ∧ s.bget R.stwStatus 31 = false)
    ∧ (∃ (s : State) (r : Nat), s.powered = true ∧ s.hostUp = true ∧ r < 1024 ∧ s.bget R.stwStatus 31 = true)
    ∧ (∃ (s : State) (w r : Nat), s.powered = true ∧ s.asleep = false ∧ s.modReset = false ∧ s.bget (R.pwrDomStatus 88) 31 = true ∧ 1 ≤ w ∧ w ≤ 16 ∧ 1 ≤ r ∧ r ≤ 6)
    ∧ (Takes dev q0 0x0310 ∧ htArgs (2 ^ 52 - 2 ^ 21) (2 ^ 44) = true ∧ (List.range 64).find? (fun k => !(begun dev q0 0x0310).bget (R.cxlHtTier k) 63) = some 0 ∧
      (begun dev q0 0x0310).htFree 0 (2 ^ 44) = some 0)
    ∧ (∃ (s : State) (q : Req) (b n : Nat), Takes s q 0x0310 ∧ htArgs b n = true ∧ (∀ k < 64, (begun s q 0x0310).bget (R.cxlHtTier k) 63 = true))
    ∧ (∃ (s : State) (q : Req) (b n t k : Nat), Takes s q 0x8310 ∧ htArgs b n = true ∧ k < 64 ∧ t % 2 ^ 21 = 0 ∧ t + n ≤ 2 ^ 44)
    ∧ (∃ (s : State) (q : Req) (k : Nat), Takes s q 0x0311 ∧ k < 64)
    ∧ Takes dev q0 0x0312 :=
  ⟨⟨hp, .write [0], by decide +kernel⟩,
    ⟨{ hp.bset R.cxlStatus 28 true with msixPend := [2047] }, 2047, by decide +kernel⟩,
    ⟨hp.bset R.stwStatus 31 false, 1023, by decide +kernel⟩,
    ⟨hp, 1023, by decide +kernel⟩,
    ⟨dev.bset (R.pwrDomStatus 88) 31 true, 16, 6, by decide +kernel⟩,
    by decide +kernel,
    ⟨(List.range 64).foldl (fun s k => s.bset (R.cxlHtTier k) 63 true) dev, q0, 0, 2 ^ 21, by decide +kernel⟩,
    ⟨dev, q0, 0, 2 ^ 21, 2 ^ 44 - 2 ^ 21, 63, by decide +kernel⟩,
    ⟨dev, q0, 63, by decide +kernel⟩,
    by decide +kernel⟩

theorem witness_TukosenRequests :
    ((fr 2 false 5).dst = pt.ownDev ∧ (pt.tksTake 7 { fr 2 false 5 with tc := 4 }).isSome = true ∧ (tk pt { fr 2 false 5 with tc := 4 }).bget R.secTenStatus
      31 = false ∧ reqOk { fr 2 false 5 with tc := 4 } = false)
    ∧ ((fr 2 false 5).dst = ({ pt with ingQ := [(7, fr 2 false 5, false)] }).ownDev ∧ (({ pt with ingQ := [(7, fr 2 false 5, false)] }).tksTake 7 (fr 2 false
      5)).isSome = true ∧ (tk ({ pt with ingQ := [(7, fr 2 false 5, false)] }) (fr 2 false 5)).bget R.secTenStatus 31 = false ∧ reqOk (fr 2 false 5) = true ∧
      ((2 != 62 && ((mV ({ pt with ingQ := [(7, fr 2 false 5, false)] }) (fr 2 false 5)).flowBusy (fr 2 false 5) || (mV
      ({ pt with ingQ := [(7, fr 2 false 5, false)] }) (fr 2 false 5)).ingQ.any fun e => sameFlow (fr 2 false 5) e.2.1)) = true))
    ∧ ((fr 2 false 5).dst = (shutP).ownDev ∧ ((shutP).tksTake 7 (fr 2 false 5)).isSome = true ∧ (tk (shutP) (fr 2 false 5)).bget R.secTenStatus 31 = false ∧ reqOk
      (fr 2 false 5) = true ∧ ((2 != 62 && ((mV shutP (fr 2 false 5)).flowBusy (fr 2 false 5) || (mV shutP (fr 2 false 5)).ingQ.any fun e => sameFlow (fr 2
      false 5) e.2.1)) = false ∧ (mV shutP (fr 2 false 5)).reqShut 7 (fr 2 false 5) = true))
    ∧ ((fr 2 false 5).dst = ({ pt with memo := [mE] }).ownDev ∧ (({ pt with memo := [mE] }).tksTake 7 (fr 2 false 5)).isSome = true ∧ (tk ({ pt with memo := [mE] })
      (fr 2 false 5)).bget R.secTenStatus 31 = false ∧ reqOk (fr 2 false 5) = true ∧ ((2 != 62 && ((mV ({ pt with memo := [mE] }) (fr 2 false 5)).flowBusy (fr
      2 false 5) || (mV ({ pt with memo := [mE] }) (fr 2 false 5)).ingQ.any fun e => sameFlow (fr 2 false 5) e.2.1)) = false ∧ (mV ({ pt with memo := [mE] })
      (fr 2 false 5)).reqShut 7 (fr 2 false 5) = false) ∧ (mV ({ pt with memo := [mE] }) (fr 2 false 5)).memo.find? (fun e => e.src == 6 && e.reqid == 7) =
      some mE)
    ∧ ((f9.dst = (pm 65536).ownDev ∧ ((pm 65536).tksTake 7 f9).isSome = true ∧ (tk (pm 65536) f9).bget R.secTenStatus 31 = false ∧ reqOk f9 = true ∧ ((1 != 62 && ((mV (pm 65536) f9).flowBusy (f9) || (mV (pm 65536) f9).ingQ.any fun e => sameFlow (f9) e.2.1)) = false ∧ (mV (pm 65536) f9).reqShut 7 (f9) = false) ∧ opMemo 1 = true)
      ∧ (mV (pm 65536) f9).memo.find? (fun e => e.src == 6 && e.reqid == 7) = none ∧ (mV (pm 65536) f9).memoFull = true)
    ∧ ((fr 2 false 5).dst = (pt).ownDev ∧ ((pt).tksTake 7 (fr 2 false 5)).isSome = true ∧ (tk (pt) (fr 2 false 5)).bget R.secTenStatus 31 = false ∧ reqOk (fr 2
      false 5) = true ∧ (mV pt (fr 2 false 5)).memo = [] ∧ ((2 != 62 && ((mV pt (fr 2 false 5)).flowBusy (fr 2 false 5) || (mV pt (fr 2 false 5)).ingQ.any fun
      e => sameFlow (fr 2 false 5) e.2.1)) = false ∧ (mV pt (fr 2 false 5)).reqShut 7 (fr 2 false 5) = false))
    ∧ ((fr 2 true 5).dst = pt.ownDev ∧ (pt.tksTake 7 { fr 2 true 5 with lseq := 1 }).isNone = true)
    ∧ ((fr 2 true 5).dst = pt.ownDev ∧ (pt.tksTake 7 { fr 2 true 5 with tc := 4 }).isSome = true ∧ respOk { fr 2 true 5 with tc := 4 } = false)
    ∧ (({ fr 1 true 5 with len := 0 }).dst = ({ pt with tksReq := [(7, { tq 6 with f := fr 1 false 6 })] }).ownDev ∧
      (({ pt with tksReq := [(7, { tq 6 with f := fr 1 false 6 })] }).tksTake 7 { fr 1 true 5 with len := 0 }).isSome = true ∧ respOk
      { fr 1 true 5 with len := 0 } = true ∧ ((tk ({ pt with tksReq := [(7, { tq 6 with f := fr 1 false 6 })] }) { fr 1 true 5 with len := 0 }).oweCells (some
      (cellsOf 7 { fr 1 true 5 with len := 0 }))).bget R.secTenStatus 31 = false ∧ tget ((tk ({ pt with tksReq := [(7, { tq 6 with f := fr 1 false 6 })] })
      { fr 1 true 5 with len := 0 }).oweCells (some (cellsOf 7 { fr 1 true 5 with len := 0 }))).tksReq 7 = some {tq 6 with f := fr 1 false 6} ∧
      ({ fr 1 true 5 with len := 0 }).src = 6)
    ∧ ((fr 2 false 6).dst ≠ rt6.ownDev ∧ (rt6.tksTake 7 (fr 2 false 6)).isSome = true ∧ (tk rt6 (fr 2 false 6)).bget R.secTenStatus 31 = false)
    ∧ (∃ (s : State), s.nq = [])
    ∧ (∃ (s : State) (x : NAct) (r : List NAct), s.nq = x :: r) :=
  ⟨by decide +kernel,
    by decide +kernel,
    by decide +kernel,
    by decide +kernel,
    ⟨by decide +kernel, by
      have h : (mV (pm 65536) f9).memo.find? (fun e => e.src == 6 && e.reqid == 7) = none ∧ ((mV (pm 65536) f9).memo.drop 65535).isEmpty = false := by decide +kernel
      refine ⟨h.1, decide_eq_true ?_⟩
      refine Nat.le_trans (Nat.le_of_not_lt fun g => ?_) (Nat.le_add_right _ _)
      have k := h.2
      rw [List.drop_eq_nil_of_le (by omega)] at k
      cases k⟩,
    by decide +kernel,
    by decide +kernel,
    by decide +kernel,
    by decide +kernel,
    by decide +kernel,
    ⟨dev, by decide +kernel⟩,
    ⟨{ dev with nq := [⟨8191, 0, 0, 0, 0, 0⟩] }, ⟨8191, 0, 0, 0, 0, 0⟩, [], by decide +kernel⟩⟩

theorem witness_TukosenLink :
    (∃ (s : State) (p : Nat) (f : Frame), p < 8 ∧ s.tksOn = true ∧ s.portLive p = true ∧ f.part = s.fget R.tksDevPart 15 0 ∧ f.lseq = ((s.port p).rxSeq + 1) %
      65536)
    ∧ (∃ (s : State) (p : Nat) (f : Frame), p < 8 ∧ s.tksOn = true ∧ (f.part ≠ s.fget R.tksDevPart 15 0 ∨ f.lseq ≠ ((s.port p).rxSeq + 1) % 65536))
    ∧ (∃ (s : State) (p d n : Nat), p < 8 ∧ s.tksOn = true ∧ s.pst p = psHello ∧ ((s.fset (R.tksStatus p) 20 18 n).fset (R.tksStatus p) 17 0 d :
      State).tksOn = true ∧ ((s.fset (R.tksStatus p) 20 18 n).fset (R.tksStatus p) 17 0 d : State).pst p = psHello ∧ (((s.fset (R.tksStatus p)
      20 18 n).fset (R.tksStatus p) 17 0 d : State).port p).greeted = false)
    ∧ (∃ (s : State) (p : Nat), p < 8 ∧ s.tksOn = true ∧ s.pst p = psUp ∧ (8 ≤ (s.port p).nakRun ∨ (s.port p).replay ≠ []))
    ∧ (∃ (s : State) (p : Nat), p < 8 ∧ s.tksOn = true ∧ s.pst p = psRetrain ∧ (s.port p).greeted = false)
    ∧ (∃ (s : State) (p : Nat), p < 8 ∧ s.tksOn = true ∧ s.pst p = psRetrain ∧ (s.port p).greeted = true)
    ∧ (∃ (s : State) (p : Nat), p < 8 ∧ s.tksOn = true ∧ s.pst p = psTraining)
    ∧ (∃ (s : State) (p : Nat), p < 8 ∧ s.tksOn = true ∧ (s.pst p = psTraining ∨ s.pst p = psHello))
    ∧ (∃ (s : State) (p : Nat) (g : Frame), p < 8 ∧ s.tksOn = true ∧ s.pst p = psUp ∧ s.tksTake p g = none)
    ∧ (pt.tksOn = true ∧ pt.pst 7 = psUp ∧ (pt.tksTake 7 (fr 1 false 5)).isSome = true)
    ∧ (∃ (s : State) (p q : Nat), p < 8 ∧ s.tksOn = true ∧ s.pst p = psUp ∧ q ≠ ((s.port p).rxSeq + 1) % 65536 ∧ s.portLive p = true)
    ∧ ((({ (pt.port 7) with queue := [⟨fr 2 false 6, some (7, 0, 1)⟩] } : PortSt).queue.findIdx? (fun e => e.back.isSome)) = some 0 ∧ (pt.modPort 7 fun x =>
      { x with queue := [⟨fr 2 false 6, some (7, 0, 1)⟩] }).tksOn = true ∧ ((pt.modPort 7 fun x => { x with queue := [⟨fr 2 false 6, some (7, 0, 1)⟩] }).port
      7).queue = [⟨fr 2 false 6, some (7, 0, 1)⟩]) :=
  ⟨⟨pt, 7, fr 2 false 5, by decide +kernel⟩,
    ⟨pt, 7, { fr 2 false 5 with lseq := 65535 }, by decide +kernel⟩,
    ⟨(pt.fset (R.tksStatus 7) 30 28 psHello), 7, 6, 0, by decide +kernel⟩,
    ⟨pt.modPort 7 fun x => { x with nakRun := 8 }, 7, by decide +kernel⟩,
    ⟨pt.fset (R.tksStatus 7) 30 28 psRetrain, 7, by decide +kernel⟩,
    ⟨(pt.fset (R.tksStatus 7) 30 28 psRetrain).modPort 7 fun x => { x with greeted := true }, 7, by decide +kernel⟩,
    ⟨pt.fset (R.tksStatus 7) 30 28 psTraining, 7, by decide +kernel⟩,
    ⟨pt.fset (R.tksStatus 7) 30 28 psTraining, 7, by decide +kernel⟩,
    ⟨pt, 7, { fr 1 false 5 with lseq := 9 }, by decide +kernel⟩,
    by decide +kernel,
    ⟨pt, 7, 65535, by decide +kernel⟩,
    by decide +kernel⟩

theorem witness_TukosenCommands :
    (∃ (s : State) (r : W32) (q : TReq) (v : Nat × Bool × Bool), tget s.tksReq (BitVec.toNat r) = some q ∧ q.ended = false ∧ s.route q.f.dst = some v)
    ∧ (∃ (s : State) (q : Req) (p : Nat), Takes s q 0x0601 ∧ p < 8)
    ∧ (∃ (s : State) (q : Req) (p l : Nat), Takes s q 0x8601 ∧ p < 8 ∧ l < 8)
    ∧ (∃ (s : State) (q : Req) (p : Nat), Takes s q 0x0602 ∧ p < 8)
    ∧ (∃ (s : State) (q : Req) (p : Nat), Takes s q 0x8602 ∧ p < 8)
    ∧ (∃ (s : State) (q : Req) (d : Nat), Takes s q 0x0603 ∧ d < 2 ^ 18)
    ∧ (∃ (s : State) (q : Req) (d t n : Nat), Takes s q 0x0604 ∧ d < 2 ^ 18 ∧ d ≠ (begun s q 0x0604).ownDev ∧ t < 4 ∧ 1 ≤ n ∧ n ≤ 256 ∧ ((begun s q 0x0604).tksOn =
      false ∨ (begun s q 0x0604).route d = none))
    ∧ (∃ (s : State) (q : Req) (d t n : Nat), Takes s q 0x0604 ∧ d < 2 ^ 18 ∧ d ≠ (begun s q 0x0604).ownDev ∧ t < 4 ∧ 1 ≤ n ∧ n ≤ 256 ∧ (begun s q 0x0604).tksOn =
      true ∧ ((begun s q 0x0604).route d).isSome = true ∧ 16384 < (begun s q 0x0604).tksOut + n)
    ∧ (∃ (s : State) (q : Req) (d t n : Nat), Takes s q 0x0604 ∧ d < 2 ^ 18 ∧ d ≠ (begun s q 0x0604).ownDev ∧ t < 4 ∧ 1 ≤ n ∧ n ≤ 256 ∧ (begun s q 0x0604).tksOn =
      true ∧ ((begun s q 0x0604).route d).isSome = true ∧ (begun s q 0x0604).tksOut + n ≤ 16384 ∧ (begun s q 0x0604).tksTrim.reqAge ((begun s q
      0x0604).tksTrim.tksFloor d) + n ≤ 32768)
    ∧ (∃ (s : State) (q : Req) (p : Nat), Takes s q 0x0605 ∧ p < 8)
    ∧ (∃ (s : State) (q : Req) (p : Nat) (g : List Nat), Takes s q 0x8605 ∧ p < 8 ∧ g.length = 16 ∧ (8192 < List.foldl (fun x1 x2 ↦ x1 + x2) 0 g ∨ ∃ x ∈ g, x < 17))
    ∧ (∃ (s : State) (q : Req) (p : Nat) (g : List Nat), Takes s q 0x8605 ∧ p < 8 ∧ g.length = 16 ∧ List.foldl (fun x1 x2 ↦ x1 + x2) 0 g ≤ 8192 ∧ (∀ x ∈ g, 17 ≤ x)) :=
  ⟨⟨{ rt6 with tksReq := [(7, tq 6)] }, 7, tq 6, (rt6.route 6).getD (0, false, false), by decide +kernel⟩,
    ⟨dev, q0, 7, by decide +kernel⟩,
    ⟨dev, q0, 7, 7, by decide +kernel⟩,
    ⟨dev, q0, 7, by decide +kernel⟩,
    ⟨dev, q0, 7, by decide +kernel⟩,
    ⟨dev, q0, 2 ^ 18 - 1, by decide +kernel⟩,
    ⟨dev, q0, 2 ^ 18 - 1, 3, 256, by decide +kernel⟩,
    ⟨{ rt6 with tksReq := List.replicate 16129 (0, tq 6) }, q0, 6, 3, 256, by decide +kernel⟩,
    ⟨rt6, q0, 6, 3, 256, by decide +kernel⟩,
    ⟨dev, q0, 7, by decide +kernel⟩,
    ⟨dev, q0, 7, List.replicate 16 16, by decide +kernel⟩,
    ⟨dev, q0, 7, List.replicate 16 512, by decide +kernel⟩⟩

theorem witness_ManagementMessages :
    (∃ (s : State) (m : Nat) (v : W32), m < 24 ∧ BitVec.getLsbD v 0 = true ∧ s.powered = true ∧ s.asleep = false ∧ s.drowsing = false ∧ s.bget R.stwStatus 31
      = true ∧ (mbxState s m = 1 ∨ mbxState s m = 2))
    ∧ (23 < 24 ∧ (1#32).getLsbD 0 = true ∧ dev.powered = true ∧ dev.asleep = false ∧ dev.drowsing = false ∧ dev.bget R.stwStatus 31 = true ∧ mbxState dev 23 ≠ 1 ∧
      mbxState dev 23 ≠ 2 ∧ (dev.box 23).last = none)
    ∧ (∃ (m : Nat) (v : W32), m < 28 ∧ BitVec.getLsbD v 0 = false)
    ∧ (∃ (s : State) (n c : Nat), s.powered = true ∧ s.sessOk n (c % 65536) = false)
    ∧ (∃ (s : State) (n c m : Nat), s.powered = true ∧ s.sessOk n (c % 65536) = true ∧ s.sessBox n = some m)
    ∧ (∃ (s : State) (n c : Nat), s.powered = true ∧ s.sessOk n (c % 65536) = true ∧ s.sessBox n = none)
    ∧ (∀ m, (dev.box m).session ≠ some 5)
    ∧ (∃ (s : State) (p : Nat), p < 2 ∧ s.powered = true ∧ s.bget R.stwStatus 31 = true ∧ (tgetD s.sec.conns p { } : Conn).stage = 0)
    ∧ (dev.powered = true ∧ dev.bget R.stwStatus 31 = true ∧ (tgetD dev.sec.conns 1 {}).stage < 3)
    ∧ (∃ (s : State) (p : Nat), p < 2 ∧ s.powered = true ∧ s.bget R.stwStatus 31 = true ∧ 1 ≤ (tgetD s.sec.conns p { } : Conn).stage)
    ∧ (∃ (s : State) (p : Nat), p < 2 ∧ s.powered = true ∧ s.bget R.stwStatus 31 = true ∧ 2 ≤ (tgetD s.sec.conns p { } : Conn).stage)
    ∧ (∃ (s : State) (p a b : Nat) (x : List Byte), p < 2 ∧ s.powered = true ∧ s.bget R.stwStatus 31 = true ∧ (tgetD s.sec.conns p { } : Conn).stage = 3 ∧ s.chainOf
      a = some x ∧ b ≤ x.length)
    ∧ (∃ (s : State) (p a : Nat) (x : List Byte), p < 2 ∧ s.powered = true ∧ s.bget R.stwStatus 31 = true ∧ (tgetD s.sec.conns p { } : Conn).stage = 3 ∧ s.chainOf a
      = some x ∧ s.slotSigns a = true)
    ∧ (∃ (s : State) (p a : Nat), p < 2 ∧ s.powered = true ∧ s.bget R.stwStatus 31 = true ∧ (tgetD s.sec.conns p { } : Conn).stage = 3 ∧ s.slotSigns a = false)
    ∧ (∃ (s : State) (p a : Nat) (g : Bool), p < 2 ∧ s.powered = true ∧ s.bget R.stwStatus 31 = true ∧ (tgetD s.sec.conns p { } : Conn).stage = 3 ∧ (g = true →
      s.slotSigns a = true))
    ∧ (∃ (s : State) (p n : Nat), p < 2 ∧ s.powered = true ∧ s.bget R.stwStatus 31 = true ∧ (tgetD s.sec.conns p { } : Conn).stage = 3 ∧ s.slotSigns 0 = true ∧ tget
      s.sec.sess n = none)
    ∧ (∃ (s : State) (p n : Nat) (x : Sess), p < 2 ∧ s.powered = true ∧ s.bget R.stwStatus 31 = true ∧ (tgetD s.sec.conns p { } : Conn).stage = 3 ∧ tget s.sec.sess
      n = some x ∧ x.port = p ∧ x.ready = false)
    ∧ (∃ (s : State) (p n : Nat) (x : Sess) (o : Nat), p < 2 ∧ s.powered = true ∧ s.bget R.stwStatus 31 = true ∧ (tgetD s.sec.conns p { } : Conn).stage = 3 ∧ tget
      s.sec.sess n = some x ∧ x.port = p ∧ x.ready = true ∧ 1 ≤ o ∧ o ≤ 3)
    ∧ (∃ (s : State) (p n : Nat) (x : Sess) (a : Nat) (k : BitVec 512), p < 2 ∧ s.powered = true ∧ s.bget R.stwStatus 31 = true ∧ (tgetD s.sec.conns p { } :
      Conn).stage = 3 ∧ tget s.sec.sess n = some x ∧ x.port = p ∧ x.ready = true ∧ tget s.sec.keys a = some k ∧ s.slotSigns a = true)
    ∧ (∃ (s : State) (p n : Nat) (x : Sess) (a : Nat) (l : List Byte), p < 2 ∧ s.powered = true ∧ s.bget R.stwStatus 31 = true ∧ (tgetD s.sec.conns p { } :
      Conn).stage = 3 ∧ tget s.sec.sess n = some x ∧ x.port = p ∧ x.ready = true ∧ 1 ≤ a ∧ a ≤ 3 ∧ l.length ≤ 65536) :=
  ⟨⟨dev.fset (R.mbxStatus 23) 31 30 2, 23, 1, by decide +kernel⟩,
    by decide +kernel,
    ⟨27, 2, by decide +kernel⟩,
    ⟨dev, 5, 0x102, by decide +kernel⟩,
    ⟨{ mg with mbx := [(27, { session := some 5 })] }, 5, 0x102, 27, by decide +kernel⟩,
    ⟨{ mg with mbx := [(24, { session := some 1 }), (25, { session := some 2 }), (26, { session := some 3 }), (27, { session := some 4 })] }, 5, 0x102,
      by decide +kernel⟩,
    (fun _ => by intro h; cases h),
    ⟨dev, 1, by decide +kernel⟩,
    by decide +kernel,
    ⟨mg, 1, by decide +kernel⟩,
    ⟨mg, 1, by decide +kernel⟩,
    ⟨mg, 1, 3, 2, [1, 2], by decide +kernel⟩,
    ⟨mg.fset R.secLcStatus 31 29 1, 1, 3, [1, 2], by decide +kernel⟩,
    ⟨mg, 1, 2, by decide +kernel⟩,
    ⟨mg, 1, 3, false, by decide +kernel⟩,
    ⟨mg, 1, 6, by decide +kernel⟩,
    ⟨{ mg with sec := { mg.sec with sess := [(5, ⟨1, false, true, true⟩)] } }, 1, 5, ⟨1, false, true, true⟩, by decide +kernel⟩,
    ⟨mg, 1, 5, ⟨1, true, true, true⟩, 3, by decide +kernel⟩,
    ⟨mg.fset R.secLcStatus 31 29 1, 1, 5, ⟨1, true, true, true⟩, 3, 1, by decide +kernel⟩,
    ⟨mg, 1, 5, ⟨1, true, true, true⟩, 3, [], by decide +kernel⟩⟩

theorem witness_SecurityCommands :
    (∃ (s : State) (q : Req) (p : Option Nat), Takes s q 0x8701 ∧ (∃ t, p = some t ∧ 65536 ≤ t))
    ∧ (∃ (s : State) (q : Req) (p : Option Nat), Takes s q 0x8701 ∧ (∀ (t : Nat), p = some t → t < 65536) ∧ (begun s q 0x8701).fget R.stwPstate 31 30 ≠ 0)
    ∧ (∃ (s : State) (q : Req) (p : Option Nat), Takes s q 0x8701 ∧ (∀ (t : Nat), p = some t → t < 65536) ∧ (begun s q 0x8701).fget R.stwPstate 31 30 = 0 ∧ ((begun s
      q 0x8701).sec.burn.isSome = true ∨ (begun s q 0x8701).sec.fwNow = true ∨ (begun s q 0x8701).sec.hand.isSome = true ∨ (begun s q 0x8701).runs q.mbx
      [1800, 34568, 1802, 34570] = true))
    ∧ (∃ (s : State) (q : Req) (p : Option Nat), Takes s q 0x8701 ∧ (∀ (t : Nat), p = some t → t < 65536) ∧ (begun s q 0x8701).fget R.stwPstate 31 30 = 0 ∧ (begun s q
      0x8701).sec.burn = none ∧ (begun s q 0x8701).sec.fwNow = false ∧ (begun s q 0x8701).sec.hand = none ∧ (begun s q 0x8701).runs q.mbx [1800, 34568, 1802,
      34570] = false)
    ∧ (∃ (s : State) (q : Req) (t : Nat) (n : W64), Takes s q 0x0702 ∧ (t > 3 ∨ n ≠ (begun s q 0x0702).get R.hubIdModule))
    ∧ (∃ (s : State) (q : Req) (t : Nat) (n : W64), Takes s q 0x0702 ∧ t ≤ 3 ∧ n = (begun s q 0x0702).get R.hubIdModule ∧ (begun s q 0x0702).bget R.secLcStatus 25 =
      false ∧ (begun s q 0x0702).sec.burn = none ∧ (begun s q 0x0702).sec.hand = none ∧ lcBits ((begun s q 0x0702).fget R.secLcStatus 31 29) t = none)
    ∧ (∃ (s : State) (q : Req) (t : Nat) (n : W64) (bs : List Nat), Takes s q 0x0702 ∧ t ≤ 3 ∧ n = (begun s q 0x0702).get R.hubIdModule ∧ (begun s q 0x0702).bget
      R.secLcStatus 25 = false ∧ (begun s q 0x0702).sec.burn = none ∧ (begun s q 0x0702).sec.hand = none ∧ lcBits ((begun s q 0x0702).fget R.secLcStatus 31
      29) t = some bs ∧ (begun s q 0x0702).fget R.secLcStatus 31 29 ≠ 0)
    ∧ (∃ (s : State) (q : Req) (t : Nat) (n k : W64) (bs : List Nat) (v : State), Takes s q 0x0702 ∧ t ≤ 3 ∧ n = (begun s q 0x0702).get R.hubIdModule ∧ (begun s q
      0x0702).bget R.secLcStatus 25 = false ∧ (begun s q 0x0702).sec.burn = none ∧ (begun s q 0x0702).sec.hand = none ∧ lcBits ((begun s q 0x0702).fget
      R.secLcStatus 31 29) t = some bs ∧ (begun s q 0x0702).fget R.secLcStatus 31 29 = 0 ∧ ImageHole (begun s q 0x0702) k 29824 v)
    ∧ (∃ (s : State) (q : Req) (t : Nat) (n k : W64) (bs : List Nat), Takes s q 0x0702 ∧ t ≤ 3 ∧ n = (begun s q 0x0702).get R.hubIdModule ∧ (begun s q 0x0702).bget
      R.secLcStatus 25 = false ∧ (begun s q 0x0702).sec.burn = none ∧ (begun s q 0x0702).sec.hand = none ∧ lcBits ((begun s q 0x0702).fget R.secLcStatus 31
      29) t = some bs ∧ (begun s q 0x0702).fget R.secLcStatus 31 29 = 0 ∧ (begun s q 0x0702).imgHole (BitVec.toNat k) 29824 = false ∧ (begun s q
      0x0702).imgReady (BitVec.toNat k) 29824 = false)
    ∧ (∃ (s : State) (q : Req) (t : Nat) (n k : W64) (bs : List Nat) (img : List Byte) (v : State), Takes s q 0x0702 ∧ t ≤ 3 ∧ n = (begun s q 0x0702).get
      R.hubIdModule ∧ (begun s q 0x0702).bget R.secLcStatus 25 = false ∧ (begun s q 0x0702).sec.burn = none ∧ (begun s q 0x0702).sec.hand = none ∧ lcBits
      ((begun s q 0x0702).fget R.secLcStatus 31 29) t = some bs ∧ (begun s q 0x0702).fget R.secLcStatus 31 29 = 0 ∧ ImageAt (begun s q 0x0702) k 29824 img v)
    ∧ Takes dev q0 0x0703
    ∧ (∃ (s : State) (q : Req), Takes s q 0x0704 ∧ (begun s q 0x0704).sec.hand = none ∧ ((begun s q 0x0704).oldLive = true ∨ (begun s q 0x0704).store.epochBad =
      true))
    ∧ (∃ (s : State) (q : Req), Takes s q 0x0704 ∧ (begun s q 0x0704).sec.hand = none ∧ (begun s q 0x0704).oldLive = false ∧ (begun s q 0x0704).store.epochBad =
      false)
    ∧ Takes dev q0 0x0706
    ∧ Takes dev q0 0x070B
    ∧ (∃ (s : State) (q : Req), Takes s q 0x0709 ∧ (begun s q 0x0709).fget R.secLcStatus 31 29 = 1)
    ∧ (∃ (s : State) (q : Req) (k : W64) (v : State), Takes s q 0x0709 ∧ (begun s q 0x0709).fget R.secLcStatus 31 29 ≠ 1 ∧ ImageHole (begun s q 0x0709) k 29824 v)
    ∧ (∃ (s : State) (q : Req) (k : W64), Takes s q 0x0709 ∧ (begun s q 0x0709).fget R.secLcStatus 31 29 ≠ 1 ∧ (begun s q 0x0709).imgHole (BitVec.toNat k) 29824 =
      false ∧ (begun s q 0x0709).imgReady (BitVec.toNat k) 29824 = false)
    ∧ (∃ (s : State) (q : Req) (k : W64) (img : List Byte) (v : State), Takes s q 0x0709 ∧ (begun s q 0x0709).fget R.secLcStatus 31 29 ≠ 1 ∧ ImageAt (begun s q
      0x0709) k 29824 img v)
    ∧ Takes dev q0 0x070C :=
  ⟨⟨dev, q0, some 65536, by decide +kernel⟩,
    ⟨dev.fset R.stwPstate 31 30 1, q0, none, by decide +kernel⟩,
    ⟨{ dev with sec := { dev.sec with fwNow := true } }, q0, none, by decide +kernel⟩,
    ⟨dev, q0, none, by decide +kernel⟩,
    ⟨dev, q0, 4, 0, by decide +kernel⟩,
    ⟨dev, q0, 1, dev.get R.hubIdModule, by decide +kernel⟩,
    ⟨dev.fset R.secLcStatus 31 29 1, q0, 2, (dev.fset R.secLcStatus 31 29 1).get R.hubIdModule, (lcBits 1 2).getD [], by decide +kernel⟩,
    ⟨dev.fset R.secLcStatus 31 29 0, q0, 1, (dev.fset R.secLcStatus 31 29 0).get R.hubIdModule, (BitVec.ofNat 64 (6 * 2 ^ 46)), [3, 4, 5, 6, 7, 8], (begun
      (dev.fset R.secLcStatus 31 29 0) q0 0x0702).hole Machine.steward 0 (6 * 2 ^ 46), by decide +kernel⟩,
    ⟨(rt6).fset R.secLcStatus 31 29 0, q0, 1, ((rt6).fset R.secLcStatus 31 29 0).get R.hubIdModule, (BitVec.ofNat 64 (6 * 2 ^ 46)), [3, 4, 5, 6, 7, 8],
      by decide +kernel⟩,
    ⟨(hbm).fset R.secLcStatus 31 29 0, q0, 1, ((hbm).fset R.secLcStatus 31 29 0).get R.hubIdModule, 0x1000, [3, 4, 5, 6, 7, 8], (begun (hbm.fset R.secLcStatus
      31 29 0) q0 0x0702).read ((begun (hbm.fset R.secLcStatus 31 29 0) q0 0x0702).home (gLocal 0x1000)) 29824, begun (hbm.fset R.secLcStatus 31 29 0) q0
      0x0702, by decide +kernel, by decide +kernel, by decide +kernel, by decide +kernel, by decide +kernel, by decide +kernel, by decide +kernel,
      by decide +kernel, imageAt (by decide +kernel) (by decide +kernel)⟩,
    by decide +kernel,
    ⟨st0.bset R.ctxStoreStatus 30 true, q0, by decide +kernel⟩,
    ⟨st0, q0, by decide +kernel⟩,
    by decide +kernel,
    by decide +kernel,
    ⟨dev.fset R.secLcStatus 31 29 1, q0, by decide +kernel⟩,
    ⟨dev.fset R.secLcStatus 31 29 0, q0, (BitVec.ofNat 64 (6 * 2 ^ 46)), (begun (dev.fset R.secLcStatus 31 29 0) q0 0x0709).hole Machine.steward 0 (6 * 2 ^ 46),
      by decide +kernel⟩,
    ⟨rt6.fset R.secLcStatus 31 29 0, q0, (BitVec.ofNat 64 (6 * 2 ^ 46)), by decide +kernel⟩,
    ⟨hbm.fset R.secLcStatus 31 29 0, q0, 0x1000, (begun (hbm.fset R.secLcStatus 31 29 0) q0 0x0709).read ((begun (hbm.fset R.secLcStatus 31 29 0) q0
      0x0709).home (gLocal 0x1000)) 29824, begun (hbm.fset R.secLcStatus 31 29 0) q0 0x0709, by decide +kernel, by decide +kernel, imageAt
      (by decide +kernel) (by decide +kernel)⟩,
    by decide +kernel⟩

theorem witness_SecurityImages :
    (∃ (s : State) (q : Req) (g : W64) (n : Nat) (v : State), Takes s q 0x0708 ∧ ImageHole (begun s q 0x0708) g n v)
    ∧ (∃ (s : State) (q : Req) (g : W64) (n : Nat), Takes s q 0x0708 ∧ (begun s q 0x0708).imgHole (BitVec.toNat g) n = false ∧ (begun s q 0x0708).imgReady
      (BitVec.toNat g) n = false)
    ∧ (∃ (s : State) (q : Req) (g : W64) (n : Nat) (img : List Byte) (v : State), Takes s q 0x0708 ∧ ImageAt (begun s q 0x0708) g n img v ∧ imgHeader img 1180060742
      n = none)
    ∧ (∃ (s : State) (q : Req) (g : W64) (n : Nat) (img : List Byte) (v : State) (b : Nat), Takes s q 0x0708 ∧ ImageAt (begun s q 0x0708) g n img v ∧ imgHeader img
      1180060742 n = some b ∧ (svcReserved img = false ∨ 255 < imgU img 20 4))
    ∧ (∃ (s : State) (q : Req) (g : W64) (n : Nat) (img : List Byte) (v : State) (b : Nat), Takes s q 0x0708 ∧ ImageAt (begun s q 0x0708) g n img v ∧ imgHeader img
      1180060742 n = some b ∧ svcReserved img = true ∧ imgU img 20 4 ≤ 255 ∧ imgDigestOk img b = false)
    ∧ (∃ (s : State) (q : Req) (g : W64) (n : Nat) (img : List Byte) (v : State) (b : Nat), Takes s q 0x0708 ∧ ImageAt (begun s q 0x0708) g n img v ∧ imgHeader img
      1180060742 n = some b ∧ svcReserved img = true ∧ imgU img 20 4 ≤ 255 ∧ imgDigestOk img b = true ∧ imgU img 20 4 < v.fget R.secFwStatus 23 16)
    ∧ (∃ (s : State) (q : Req) (g : W64) (n : Nat) (v : State), Takes s q 0x070A ∧ (begun s q 0x070A).sec.hand = none ∧ ImageHole (begun s q 0x070A) g n v)
    ∧ (∃ (s : State) (q : Req) (g : W64) (n : Nat), Takes s q 0x070A ∧ (begun s q 0x070A).sec.hand = none ∧ (begun s q 0x070A).imgHole (BitVec.toNat g) n = false ∧
      (begun s q 0x070A).imgReady (BitVec.toNat g) n = false)
    ∧ (∃ (s : State) (q : Req) (g : W64) (n : Nat) (img : List Byte) (v : State), Takes s q 0x070A ∧ (begun s q 0x070A).sec.hand = none ∧ ImageAt (begun s q 0x070A)
      g n img v ∧ (svcReserved img = false ∨ imgZero img 20 8 = false))
    ∧ (∃ (s : State) (q : Req) (g : W64) (n : Nat) (img : List Byte) (v : State), Takes s q 0x070A ∧ (begun s q 0x070A).sec.hand = none ∧ ImageAt (begun s q 0x070A)
      g n img v ∧ svcReserved img = true ∧ imgZero img 20 8 = true ∧ (v.imgVerify img 1380075852 n 2).2 ≠ 0)
    ∧ (∃ (s : State) (q : Req) (it : TrustItem), Takes s q 0x0705 ∧ trustWords it = none)
    ∧ (Takes mg2 q0 0x0705 ∧ trustWords (.policy 1) = some [(0x74, 1)] ∧ ((begun mg2 q0 0x0705).box 24).session = some 5 ∧ (tgetD (begun mg2 q0 0x0705).sec.sess 5
      { port := 0 }).auth = false)
    ∧ (Takes dev q0 0x0705 ∧ trustWords (.policy 1) = some [(0x74, 1)] ∧ ((begun dev q0 0x0705).box 24).session = none)
    ∧ (Takes dev q0 0x0707 ∧ 511 + [(7 : BitVec 16)].length ≤ 512 ∧ nbits (7 : BitVec 16).toNat 11 7 = 0 ∧ nbit (7 : BitVec 16).toNat 3 = false) :=
  ⟨⟨dev, q0, (BitVec.ofNat 64 (6 * 2 ^ 46)), 256, (begun (dev) q0 0x0708).hole Machine.steward 0 (6 * 2 ^ 46), by decide +kernel⟩,
    ⟨rt6, q0, (BitVec.ofNat 64 (6 * 2 ^ 46)), 256, by decide +kernel⟩,
    ⟨hbm, q0, 0x1000, 256, List.replicate 256 0, begun hbm q0 0x0708, by decide +kernel⟩,
    ⟨fwS 256 0 0, q0, 0x1000, 30056, (begun (fwS 256 0 0) q0 0x0708).read ((begun (fwS 256 0 0) q0 0x0708).home (gLocal 0x1000)) 30056, begun (fwS 256 0 0) q0
      0x0708, 256, by decide +kernel, imageAt (by decide +kernel) (by decide +kernel), by decide +kernel, by decide +kernel⟩,
    ⟨fwS 0 0 0, q0, 0x1000, 30056, (begun (fwS 0 0 0) q0 0x0708).read ((begun (fwS 0 0 0) q0 0x0708).home (gLocal 0x1000)) 30056, begun (fwS 0 0 0) q0 0x0708,
      256, by decide +kernel, imageAt (by decide +kernel) (by decide +kernel), by decide +kernel, by decide +kernel, by decide +kernel, by decide +kernel⟩,
    ⟨fwS 0 empDig 1, q0, 0x1000, 30056, (begun (fwS 0 empDig 1) q0 0x0708).read ((begun (fwS 0 empDig 1) q0 0x0708).home (gLocal 0x1000)) 30056, begun (fwS 0
      empDig 1) q0 0x0708, 256, by decide +kernel, imageAt (by decide +kernel) (by decide +kernel), by decide +kernel, by decide +kernel, by decide +kernel,
      by decide +kernel, by decide +kernel⟩,
    ⟨dev, q0, (BitVec.ofNat 64 (6 * 2 ^ 46)), 256, (begun (dev) q0 0x070A).hole Machine.steward 0 (6 * 2 ^ 46), by decide +kernel⟩,
    ⟨rt6, q0, (BitVec.ofNat 64 (6 * 2 ^ 46)), 256, by decide +kernel⟩,
    ⟨State.write hbm 0x1014 [1] false, q0, 0x1000, 256, List.replicate 20 0 ++ 1 :: List.replicate 235 0, begun (State.write hbm 0x1014 [1] false) q0 0x070A,
      by decide +kernel⟩,
    ⟨hbm, q0, 0x1000, 256, List.replicate 256 0, begun (hbm) q0 0x070A, by decide +kernel⟩,
    ⟨dev, q0, .policy 2, by decide +kernel⟩,
    by decide +kernel,
    by decide +kernel,
    by decide +kernel⟩

theorem witness_SafetyReactions :
    (∃ (s : State), s.powered = true ∧ s.bget R.stwStatus 31 = true)
    ∧ (∃ (s : State), (s.powered = false ∨ s.bget R.stwStatus 31 = false))
    ∧ (∃ (s : State) (b : Nat), b < 68 ∧ s.domUp b = true)
    ∧ (∃ (s : State) (b : Nat), b < 68 ∧ s.domUp b = false)
    ∧ (∃ (t : Int), (t < -20 ∨ 150 < t))
    ∧ (∃ (s : State) (b i : Nat) (t : Int), 105 ≤ t ∧ t ≤ 150 ∧ tgetD s.saf.hotRun (2 * b + i) 0 = 4)
    ∧ (∃ (t : Int), -20 ≤ t ∧ t < 105)
    ∧ (∃ (b i : Nat), b < 68 ∧ i < 2)
    ∧ (∃ (s : State), s.stepDoneB 3 = false)
    ∧ (∃ (s : State), s.stepDoneB 3 = true ∧ s.saf.flowLow = 49 ∧ s.bget R.safStatus 30 = false)
    ∧ (∃ (s : State) (t i m : Nat), t < 2176 ∧ i < 8 ∧ s.seqStuck t = true ∧ s.wdogRuns (t / 32) m = true)
    ∧ (∃ (s : State) (t i m : Nat), t < 2176 ∧ i < 8 ∧ (tget (s.tile t).dma i).isSome = true ∧ s.wdogRuns (t / 32) m = true)
    ∧ (∃ (s : State) (n i m : Nat) (l : Lane), n < 64 ∧ i < 8 ∧ tget s.lanes (8 * n + i) = some l ∧ s.ringHead n i ≠ s.ringTail n i ∧ s.wdogRuns (l.ptile / 32) m =
      true)
    ∧ (∃ (s : State) (b i m : Nat), b < 68 ∧ i < 8 ∧ s.wdogRuns b m = true)
    ∧ (∃ (s : State) (k u i m : Nat), k < 3 ∧ u < [2176, 2176, 64].getD k 0 ∧ i < 8 ∧ (if k = 0 then s.seqStuck u = false ∨ s.wdogRuns (u / 32) m = false else if k
      = 1 then tget (s.tile u).dma i = none ∨ s.wdogRuns (u / 32) m = false else tget s.lanes (8 * u + i) = none))
    ∧ Takes dev q0 0x0804
    ∧ (∃ (s : State) (q : Req) (c : Nat), Takes s q 0x0805 ∧ c = 2 ∧ 24 ≤ q.mbx)
    ∧ (∃ (s : State) (q : Req) (c : Nat), Takes s q 0x0805 ∧ (c = 2 ∧ q.mbx < 24 ∨ c ∉ [2, 3, 5, 6, 7, 8]))
    ∧ (∃ (s : State) (q : Req) (c : Nat) (o : Option Nat) (x : Nat), Takes s q 0x8805 ∧ x < 2176 ∧ (c = 5 ∨ c = 6 ∨ c = 7) ∧ (begun s q 0x8805).injTile x = true ∧
      (o = some x ∨ o = none ∧ ∀ y < x, (begun s q 0x8805).injTile y = false))
    ∧ (∃ (s : State) (q : Req) (c : Nat) (o : Option Nat) (x : Nat), Takes s q 0x0805 ∧ x < 68 ∧ c = 3 ∧ (begun s q 0x0805).injBench x = true ∧ (o = some x ∨ o =
      none ∧ ∀ y < x, (begun s q 0x0805).injBench y = false))
    ∧ (∃ (s : State) (q : Req) (c : Nat) (o : Option Nat) (x y : Nat), Takes s q 0x0805 ∧ x < 2176 ∧ y < 2176 ∧ x ≠ y ∧ c = 8 ∧ (begun s q 0x0805).injTile x = true
      ∧ (begun s q 0x0805).injTile y = true ∧ (o = some x ∨ o = none ∧ ∀ z < x, (begun s q 0x0805).injTile z = false))
    ∧ (Takes dev q0 2053 ∧ (∀ n, none = some n → n < 2176) ∧ ∀ x, (begun dev q0 2053).injTile x = false) :=
  ⟨⟨dev, by decide +kernel⟩,
    ⟨State.reset, by decide +kernel⟩,
    ⟨dev.bset (R.pwrDomStatus 67) 31 true, 67, by decide +kernel⟩,
    ⟨dev, 67, by decide +kernel⟩,
    ⟨-21, by decide +kernel⟩,
    ⟨{ dev with saf := { dev.saf with hotRun := [(135, 4)] } }, 67, 1, 150, by decide +kernel⟩,
    ⟨-20, by decide +kernel⟩,
    ⟨67, 1, by decide +kernel⟩,
    ⟨dev.set R.stwBootStepDone 0, by decide +kernel⟩,
    ⟨{ dev with saf := { dev.saf with flowLow := 49 } }, by decide +kernel⟩,
    ⟨(((dev.bset (R.pwrDomStatus 67) 31 true).fset (R.pwrBenchDuty 67) 20 16 31).bset (R.tileSeqStatus 2175) 31 true).fset (R.tileSeqStatus 2175) 27 24 5, 2175,
      0, 63, by decide +kernel⟩,
    ⟨State.modTile ((((dev.bset (R.pwrDomStatus 67) 31 true).fset (R.pwrBenchDuty 67) 20 16 31).bset (R.tileSeqStatus 2175) 31 true).fset (R.tileSeqStatus 2175)
      27 24 5) 2175 fun x => { x with dma := [(3, dmS)] }, 2175, 3, 63, by decide +kernel⟩,
    ⟨(State.set
      { (((dev.bset (R.pwrDomStatus 67) 31 true).fset (R.pwrBenchDuty 67) 20 16 31).bset (R.tileSeqStatus 2175) 31 true).fset (R.tileSeqStatus 2175) 27 24 5 with lanes := [(511, la)] }
      (R.ctxLaneTail 63 7) 1), 63, 7, 63, la, by decide +kernel⟩,
    ⟨(((dev.bset (R.pwrDomStatus 67) 31 true).fset (R.pwrBenchDuty 67) 20 16 31).bset (R.tileSeqStatus 2175) 31 true).fset (R.tileSeqStatus 2175) 27 24 5, 67,
      7, 63, by decide +kernel⟩,
    ⟨dev, 2, 63, 7, 0, by decide +kernel⟩,
    by decide +kernel,
    ⟨dev, q0, 2, by decide +kernel⟩,
    ⟨dev, qh, 2, by decide +kernel⟩,
    ⟨{ dev.bset (R.pwrDomStatus 67) 31 true with l2p := [2175, 2174] }, q0, 7, some 2175, 2175, by decide +kernel⟩,
    ⟨dev.bset (R.pwrDomStatus 0) 31 true, q0, 3, (none : Option Nat), 0, by decide +kernel⟩,
    ⟨{ dev.bset (R.pwrDomStatus 67) 31 true with l2p := [2175, 2174] }, q0, 8, (none : Option Nat), 2174, 2175, by decide +kernel⟩,
    ⟨by decide +kernel, by simp, fun x => by simp [State.injTile, State.tilesOn, (by decide +kernel : (begun dev q0 2053).l2p = [])]⟩⟩

theorem witness_ServiceCores :
    (dev.coreRuns 15 = false)
    ∧ (∃ (s : State) (c : Nat) (a : W64), c < 16 ∧ s.coreRuns c = true ∧ 8191 < BitVec.toNat a)
    ∧ (∃ (s : State) (c : Nat) (a : W64), c < 16 ∧ s.coreRuns c = true ∧ BitVec.toNat a ≤ 8191 ∧ ((s.modCore c fun x ↦
      { x := x.x, pc := x.pc, mode := x.mode, fgdev := x.fgdev, ftcls := x.ftcls, stores := x.stores, sigq := x.sigq, cause := x.cause, epc := x.epc, tval := x.tval }
      : State).core c).stores = 0)
    ∧ (∃ (s : State) (c : Nat) (a : W64), c < 16 ∧ s.coreRuns c = true ∧ BitVec.toNat a ≤ 8191 ∧ ((s.modCore c fun x ↦
      { x := x.x, pc := x.pc, mode := x.mode, fgdev := x.fgdev, ftcls := x.ftcls, stores := x.stores, sigq := x.sigq, cause := x.cause, epc := x.epc, tval := x.tval }
      : State).core c).stores ≠ 0)
    ∧ (∃ (s : State) (c : Nat) (a b : W64), c < 16 ∧ s.coreRuns c = true ∧ BitVec.toNat a ≤ 8191 ∧ BitVec.toNat b ≤ BitVec.toNat ((s.modCore c fun x ↦
      { x := x.x, pc := x.pc, mode := x.mode, fgdev := x.fgdev, ftcls := x.ftcls, stores := x.stores, sigq := x.sigq, cause := x.cause, epc := x.epc, tval := x.tval }
      : State).get (R.syncCount (BitVec.toNat a))))
    ∧ (∃ (s : State) (c : Nat) (a b : W64), c < 16 ∧ s.coreRuns c = true ∧ BitVec.toNat a ≤ 8191 ∧ BitVec.toNat ((s.modCore c fun x ↦
      { x := x.x, pc := x.pc, mode := x.mode, fgdev := x.fgdev, ftcls := x.ftcls, stores := x.stores, sigq := x.sigq, cause := x.cause, epc := x.epc, tval := x.tval }
      : State).get (R.syncCount (BitVec.toNat a))) < BitVec.toNat b)
    ∧ (∃ (s : State) (c : Nat), c < 16 ∧ s.coreRuns c = true ∧ tgetD (s.modCore c fun x ↦
      { x := x.x, pc := x.pc, mode := x.mode, fgdev := x.fgdev, ftcls := x.ftcls, stores := x.stores, sigq := x.sigq, cause := x.cause, epc := x.epc, tval := x.tval }
      : State).svcIrq c [] = [])
    ∧ (({ co {} with svcIrq := [(15, [7, 8])] } : State).coreRuns 15 = true ∧ tgetD ({ co {} with svcIrq := [(15, [7, 8])] } : State).svcIrq 15 [] = 7 :: [8])
    ∧ (∃ (s : State) (c : Nat) (p : W64), c < 16 ∧ s.coreRuns c = true ∧ (s.modCore c fun x ↦
      { x := x.x, pc := x.pc, mode := x.mode, fgdev := x.fgdev, ftcls := x.ftcls, stores := x.stores, sigq := x.sigq, cause := x.cause, epc := x.epc, tval := x.tval }
      : State).coreG c p = none)
    ∧ (∃ (s : State) (c : Nat) (p : W64) (n : Nat) (o : AccessOp) (g : Nat), c < 16 ∧ s.coreRuns c = true ∧ (s.modCore c fun x ↦
      { x := x.x, pc := x.pc, mode := x.mode, fgdev := x.fgdev, ftcls := x.ftcls, stores := x.stores, sigq := x.sigq, cause := x.cause, epc := x.epc, tval := x.tval }
      : State).coreG c p = some g ∧ (s.modCore c fun x ↦
      { x := x.x, pc := x.pc, mode := x.mode, fgdev := x.fgdev, ftcls := x.ftcls, stores := x.stores, sigq := x.sigq, cause := x.cause, epc := x.epc, tval := x.tval }
      : State).inPrivate g (if accWrites o = true then (accBytes o).length else n : Nat) = false ∧ accWrites o = false)
    ∧ (∃ (s : State) (c : Nat) (p : W64) (n : Nat) (o : AccessOp) (g : Nat), c < 16 ∧ s.coreRuns c = true ∧ (s.modCore c fun x ↦
      { x := x.x, pc := x.pc, mode := x.mode, fgdev := x.fgdev, ftcls := x.ftcls, stores := x.stores, sigq := x.sigq, cause := x.cause, epc := x.epc, tval := x.tval }
      : State).coreG c p = some g ∧ (s.modCore c fun x ↦
      { x := x.x, pc := x.pc, mode := x.mode, fgdev := x.fgdev, ftcls := x.ftcls, stores := x.stores, sigq := x.sigq, cause := x.cause, epc := x.epc, tval := x.tval }
      : State).inPrivate g (if accWrites o = true then (accBytes o).length else n : Nat) = false ∧ accWrites o = true)
    ∧ (∃ (s : State) (c : Nat) (p : W64) (n : Nat) (o : AccessOp) (g : Nat) (l : Bool), c < 16 ∧ s.coreRuns c = true ∧ (s.modCore c fun x ↦
      { x := x.x, pc := x.pc, mode := x.mode, fgdev := x.fgdev, ftcls := x.ftcls, stores := x.stores, sigq := x.sigq, cause := x.cause, epc := x.epc, tval := x.tval }
      : State).coreG c p = some g ∧ (s.modCore c fun x ↦
      { x := x.x, pc := x.pc, mode := x.mode, fgdev := x.fgdev, ftcls := x.ftcls, stores := x.stores, sigq := x.sigq, cause := x.cause, epc := x.epc, tval := x.tval }
      : State).inPrivate g (if accWrites o = true then (accBytes o).length else n) = true ∧ accWrites o = true ∧ l = false)
    ∧ (∃ (s : State) (c : Nat) (p : W64) (n : Nat) (o : AccessOp) (g : Nat) (l : Bool), c < 16 ∧ s.coreRuns c = true ∧ (s.modCore c fun x ↦
      { x := x.x, pc := x.pc, mode := x.mode, fgdev := x.fgdev, ftcls := x.ftcls, stores := x.stores, sigq := x.sigq, cause := x.cause, epc := x.epc, tval := x.tval }
      : State).coreG c p = some g ∧ (s.modCore c fun x ↦
      { x := x.x, pc := x.pc, mode := x.mode, fgdev := x.fgdev, ftcls := x.ftcls, stores := x.stores, sigq := x.sigq, cause := x.cause, epc := x.epc, tval := x.tval }
      : State).inPrivate g (if accWrites o = true then (accBytes o).length else n) = true ∧ (accWrites o = false ∨ l = true)) :=
  ⟨by decide +kernel,
    ⟨co {}, 15, 8192, by decide +kernel⟩,
    ⟨co {}, 15, 8191, by decide +kernel⟩,
    ⟨co { stores := 1 }, 15, 8191, by decide +kernel⟩,
    ⟨co {}, 15, 8191, 0, by decide +kernel⟩,
    ⟨co {}, 15, 8191, 1, by decide +kernel⟩,
    ⟨co {}, 15, by decide +kernel⟩,
    by decide +kernel,
    ⟨co {}, 15, 2 ^ 63, by decide +kernel⟩,
    ⟨co {}, 15, 0x4100000, 8, .read, (co {}).gOwn 0x4100000, by decide +kernel⟩,
    ⟨co {}, 15, 0x4100000, 8, .write [1], (co {}).gOwn 0x4100000, by decide +kernel⟩,
    ⟨co {}, 15, 0x100000, 8, .write [1], (co {}).gOwn 0x100000, false, by decide +kernel⟩,
    ⟨co {}, 15, 0x100000, 8, .read, (co {}).gOwn 0x100000, false, by decide +kernel⟩⟩

theorem witness_ServiceCommands :
    (∃ (s : State) (q : Req), Takes s q 0x0B01 ∧ ((begun s q 0x0B01).coresRun ≠ [] ∨ (begun s q 0x0B01).svc.size = 0))
    ∧ (∃ (s : State) (q : Req) (g : W64) (n : Nat) (v : State), Takes s q 0x0B01 ∧ (begun s q 0x0B01).coresRun = [] ∧ (begun s q 0x0B01).svc.size ≠ 0 ∧ ImageHole
      (begun s q 0x0B01) g n v)
    ∧ (∃ (s : State) (q : Req) (g : W64) (n : Nat), Takes s q 0x0B01 ∧ (begun s q 0x0B01).coresRun = [] ∧ (begun s q 0x0B01).svc.size ≠ 0 ∧ (begun s q
      0x0B01).imgHole (BitVec.toNat g) n = false ∧ (begun s q 0x0B01).imgReady (BitVec.toNat g) n = false)
    ∧ (∃ (s : State) (q : Req) (g : W64) (n : Nat) (img : List Byte) (v : State), Takes s q 0x0B01 ∧ (begun s q 0x0B01).coresRun = [] ∧ (begun s q 0x0B01).svc.size
      ≠ 0 ∧ ImageAt (begun s q 0x0B01) g n img v ∧ (((v.imgVerify img 1178818131 n 1).2 : Nat) = dBadHeader ∨ svcReserved img = false ∨ (imgU img 20 4 : Nat) %
      4096 ≠ 0 ∨ v.svc.size < (imgU img 20 4 : Nat) + (((v.imgVerify img 1178818131 n 1).1 : Nat) - 256) ∨ v.svc.size ≤ imgU img 24 4))
    ∧ (∃ (s : State) (q : Req) (g : W64) (n : Nat) (img : List Byte) (v : State), Takes s q 0x0B01 ∧ (begun s q 0x0B01).coresRun = [] ∧ (begun s q 0x0B01).svc.size
      ≠ 0 ∧ ImageAt (begun s q 0x0B01) g n img v ∧ ((v.imgVerify img 1178818131 n 1).2 : Nat) ≠ dBadHeader ∧ svcReserved img = true ∧ (imgU img 20 4 : Nat) % 4096
      = 0 ∧ (imgU img 20 4 : Nat) + (((v.imgVerify img 1178818131 n 1).1 : Nat) - 256) ≤ v.svc.size ∧ imgU img 24 4 < v.svc.size ∧ ((v.imgVerify img 1178818131 n
      1).2 : Nat) ≠ 0)
    ∧ (∃ (s : State) (q : Req) (b n : Nat), Takes s q 0x0B02 ∧ (b % 65536 ≠ 0 ∨ n % 65536 ≠ 0 ∨ n < 67108864 ∨ (begun s q 0x0B02).hbmBacked b = false ∨ (begun s q
      0x0B02).hbmBacked (b + n - 1) = false ∨ b < (begun s q 0x0B02).store.rBase + (begun s q 0x0B02).store.rLen ∧ (begun s q 0x0B02).store.rBase < b + n))
    ∧ (∃ (s : State) (q : Req) (b n : Nat), Takes s q 0x0B02 ∧ b % 65536 = 0 ∧ n % 65536 = 0 ∧ 67108864 ≤ n ∧ (begun s q 0x0B02).hbmBacked b = true ∧ (begun s q
      0x0B02).hbmBacked (b + n - 1) = true ∧ ((begun s q 0x0B02).store.rBase + (begun s q 0x0B02).store.rLen ≤ b ∨ b + n ≤ (begun s q 0x0B02).store.rBase) ∧
      ((begun s q 0x0B02).coresRun ≠ [] ∨ (begun s q 0x0B02).svc.loaded = true ∧ ((begun s q 0x0B02).svc.base ≠ b ∨ (begun s q 0x0B02).svc.size ≠ n)))
    ∧ (∃ (s : State) (q : Req) (b n : Nat), Takes s q 0x0B02 ∧ b % 65536 = 0 ∧ n % 65536 = 0 ∧ 67108864 ≤ n ∧ (begun s q 0x0B02).hbmBacked b = true ∧ (begun s q
      0x0B02).hbmBacked (b + n - 1) = true ∧ ((begun s q 0x0B02).store.rBase + (begun s q 0x0B02).store.rLen ≤ b ∨ b + n ≤ (begun s q 0x0B02).store.rBase) ∧
      (begun s q 0x0B02).coresRun = [] ∧ ((begun s q 0x0B02).svc.loaded = true → (begun s q 0x0B02).svc.base = b ∧ (begun s q 0x0B02).svc.size = n))
    ∧ Takes dev q0 0x0B03
    ∧ (∃ (s : State) (q : Req) (b n o w : Nat), Takes s q 0x0B04 ∧ iqWord b n o w = none)
    ∧ (∃ (s : State) (q : Req) (k b n o w : Nat) (es : List (Nat × W64)) (v : W64), Takes s q 0x8B04 ∧ iqWord b n o w = some v ∧ k < 256 ∧ (∀ e ∈ es, e.1 < 16 ∧ fld
      e.2 59 56 ≤ 12))
    ∧ Takes dev q0 0x0B05 :=
  ⟨⟨dev, q0, by decide +kernel⟩,
    ⟨{ dev with svc := { dev.svc with size := 0x4000000 } }, q0, (BitVec.ofNat 64 (6 * 2 ^ 46)), 256, (begun
      ({ dev with svc := { dev.svc with size := 0x4000000 } }) q0 0x0B01).hole Machine.steward 0 (6 * 2 ^ 46), by decide +kernel⟩,
    ⟨{ rt6 with svc := { rt6.svc with size := 0x4000000 } }, q0, (BitVec.ofNat 64 (6 * 2 ^ 46)), 256, by decide +kernel⟩,
    ⟨{ hbm with svc := { hbm.svc with size := 0x4000000, base := 0x100000 } }, q0, 0x1000, 256, List.replicate 256 0, begun
      ({ hbm with svc := { hbm.svc with size := 0x4000000, base := 0x100000 } }) q0 0x0B01, by decide +kernel⟩,
    ⟨svS, q0, 0x1000, 30056, (begun svS q0 0x0B01).read ((begun svS q0 0x0B01).home (gLocal 0x1000)) 30056, begun svS q0 0x0B01, by decide +kernel,
      by decide +kernel, by decide +kernel, imageAt (by decide +kernel) (by decide +kernel), by decide +kernel, by decide +kernel, by decide +kernel,
      by decide +kernel, by decide +kernel, by decide +kernel⟩,
    ⟨dev, q0, 1, 0x4000000, by decide +kernel⟩,
    ⟨{ hbm with svc := { hbm.svc with loaded := true } }, q0, 0x100000, 0x4000000, by decide +kernel⟩,
    ⟨hbm, q0, 0x100000, 0x4000000, by decide +kernel⟩,
    by decide +kernel,
    ⟨dev, q0, 0, 8, 0, 4, by decide +kernel⟩,
    ⟨dev, q0, 255, 0x10000, 16, 8191, 4, [(15, 0)], (iqWord 0x10000 16 8191 4).getD 0, by decide +kernel⟩,
    by decide +kernel⟩

theorem witness_EgressAndServing :
    (∃ (s : State) (e : Nat), e < 16 ∧ s.powered = true ∧ s.blockOn (R.svcEqTail e).addr = true)
    ∧ (∃ (s : State) (e : Nat), e < 16 ∧ (s.powered = false ∨ s.bget (R.svcEqCfg e) 63 = false ∨ tgetD s.svc.sent e 0 = BitVec.toNat (s.get (R.svcEqTail e))))
    ∧ (∃ (s : State) (e i : Nat), e < 16 ∧ s.powered = true ∧ s.bget (R.svcEqCfg e) 63 = true ∧ i ≠ BitVec.toNat (s.get (R.svcEqTail e)) ∧ s.gHole (s.gOwn (s.eqAddr
      e i) : Nat) 32 = true)
    ∧ (∃ (s : State) (e i : Nat), e < 16 ∧ s.powered = true ∧ s.bget (R.svcEqCfg e) 63 = true ∧ i ≠ BitVec.toNat (s.get (R.svcEqTail e)) ∧ s.gHole (s.gOwn (s.eqAddr
      e i) : Nat) 32 = false ∧ s.gReady svcHub (s.gOwn (s.eqAddr e i) : Nat) 32 = false)
    ∧ (∃ (s : State) (e i : Nat), e < 16 ∧ s.powered = true ∧ s.bget (R.svcEqCfg e) 63 = true ∧ i ≠ BitVec.toNat (s.get (R.svcEqTail e)) ∧ s.gHole (s.gOwn (s.eqAddr
      e i) : Nat) 32 = false ∧ s.gReady svcHub (s.gOwn (s.eqAddr e i) : Nat) 32 = true)
    ∧ (∃ (s : State), s.serving = false)
    ∧ (∃ (s : State) (r : SvReq), s.serving = true ∧ (r.prompt = [] ∨ 1024 < r.topK ∨ r.maxNew = 0 ∨ 4 ≤ r.tc))
    ∧ (∃ (s : State) (r : SvReq), s.serving = true ∧ r.prompt ≠ [] ∧ r.topK ≤ 1024 ∧ r.maxNew ≠ 0 ∧ r.tc < 4 ∧ (∀ i < s.man 40 2, (tget s.svc.ents i).isSome =
      true))
    ∧ (∃ (s : State) (r : SvReq) (i : Nat), s.serving = true ∧ r.prompt ≠ [] ∧ r.topK ≤ 1024 ∧ r.maxNew ≠ 0 ∧ r.tc < 4 ∧ i < s.man 40 2 ∧ tget s.svc.ents i = none ∧
      (∀ j < i, (tget s.svc.ents j).isSome = true))
    ∧ (∃ (s : State) (id : W64), List.find? (fun x ↦ x.id == id) s.svc.waitQ = none)
    ∧ (∃ (s : State) (id : W64) (r : SvReq), List.find? (fun x ↦ x.id == id) s.svc.waitQ = some r ∧ s.serving = true)
    ∧ (∃ (s : State), ((s.svPump : State).serving = false ∨ (s.svPump : State).svc.ents = []))
    ∧ (∃ (s : State), (s.svPump : State).serving = true ∧ (s.svPump : State).svc.ents ≠ [] ∧ (s.svPump : State).bget (R.xltCtx ((s.svPump :
      State).man 44 2 % 4096)) 62 = true)
    ∧ (∃ (s : State), (s.svPump : State).serving = true ∧ (s.svPump : State).svc.ents ≠ [] ∧ (s.svPump : State).bget (R.xltCtx ((s.svPump :
      State).man 44 2 % 4096)) 62 = false ∧ (s.svPump : State).svc.going = false)
    ∧ (∃ (s : State), (s.svPump : State).serving = true ∧ (s.svPump : State).svc.ents ≠ [] ∧ (s.svPump : State).bget (R.xltCtx ((s.svPump :
      State).man 44 2 % 4096)) 62 = false ∧ (s.svPump : State).svc.going = true ∧ BitVec.toNat ((s.svPump : State).get (R.syncCount
      ((s.svPump : State).man 66 2 % 8192))) < (s.svPump : State).svc.step) :=
  ⟨⟨dev, 15, by decide +kernel⟩,
    ⟨dev, 15, by decide +kernel⟩,
    ⟨(dev.bset (R.svcEqCfg 15) 63 true).set (R.svcEqTail 15) 1, 15, 0, by decide +kernel⟩,
    ⟨((hbm.bset (R.svcEqCfg 15) 63 true).set (R.svcEqTail 15) 1).bset R.hubMemStatus 31 false, 15, 0, by decide +kernel⟩,
    ⟨(hbm.bset (R.svcEqCfg 15) 63 true).set (R.svcEqTail 15) 1, 15, 0, by decide +kernel⟩,
    ⟨dev, by decide +kernel⟩,
    ⟨sv, { rqS with topK := 1025 }, by decide +kernel⟩,
    ⟨svE, rqS, by decide +kernel⟩,
    ⟨sv, rqS, 0, by decide +kernel⟩,
    ⟨sv, 1, by decide +kernel⟩,
    ⟨{ sv with svc := { sv.svc with waitQ := [rqS] } }, 1, rqS, by decide +kernel⟩,
    ⟨dev, by decide +kernel⟩,
    ⟨svE.bset (R.xltCtx 5) 62 true, by decide +kernel⟩,
    ⟨svE, by decide +kernel⟩,
    ⟨{ svE with svc := { svE.svc with going := true, step := 1 } }, by decide +kernel⟩⟩

theorem witness_ImageAndClaimCommandsComplete :
    (∃ (s : State) (q : Req) (g : W64) (z c : Nat) (img : List Byte) (v : State), Takes s q 0x0401 ∧ c < 4096 ∧ ImageAt (begun s q 0x0401) g z img v)
    ∧ (∃ (s : State) (q : Req) (g : W64) (n : Nat) (img : List Byte) (v : State), Takes s q 0x0B01 ∧ (begun s q 0x0B01).coresRun = [] ∧ (begun s q 0x0B01).svc.size
      ≠ 0 ∧ ImageAt (begun s q 0x0B01) g n img v)
    ∧ (∃ (s : State) (q : Req) (g : W64) (n : Nat) (img : List Byte) (v : State), Takes s q 0x0708 ∧ ImageAt (begun s q 0x0708) g n img v)
    ∧ (∃ (s : State) (q : Req) (k : W64) (img : List Byte) (v : State), Takes s q 0x0709 ∧ (begun s q 0x0709).fget R.secLcStatus 31 29 ≠ 1 ∧ ImageAt (begun s q
      0x0709) k 29824 img v)
    ∧ (∃ (s : State) (q : Req) (g : W64) (n : Nat) (img : List Byte) (v : State), Takes s q 0x070A ∧ (begun s q 0x070A).sec.hand = none ∧ ImageAt (begun s q 0x070A)
      g n img v)
    ∧ (∃ (s : State) (q : Req) (n : Nat), Takes s q 0x0408 ∧ 1 ≤ n ∧ n ≤ 1024)
    ∧ (∃ (s : State) (q : Req) (f n : Nat), Takes s q 0x8408 ∧ 1 ≤ n ∧ n ≤ 1024 ∧ f + n ≤ 8192)
    ∧ (∃ (s : State) (q : Req) (f n : Nat), Takes s q 0x0409 ∧ 1 ≤ n ∧ f + n ≤ 8192)
    ∧ (∃ (s : State) (t : Nat), t < 2176 ∧ s.updates.contains t = true) :=
  ⟨⟨hbm, q0, 0x1000, 256, 0, List.replicate 256 0, begun hbm q0 0x0401, by decide +kernel⟩,
    ⟨{ hbm with svc := { hbm.svc with size := 0x4000000 } }, q0, 0x1000, 256, List.replicate 256 0, begun
      ({ hbm with svc := { hbm.svc with size := 0x4000000 } }) q0 0x0B01, by decide +kernel⟩,
    ⟨hbm, q0, 0x1000, 256, List.replicate 256 0, begun hbm q0 0x0708, by decide +kernel⟩,
    ⟨hbm.fset R.secLcStatus 31 29 0, q0, 0x1000, (begun (hbm.fset R.secLcStatus 31 29 0) q0 0x0709).read ((begun (hbm.fset R.secLcStatus 31 29 0) q0
      0x0709).home (gLocal 0x1000)) 29824, begun (hbm.fset R.secLcStatus 31 29 0) q0 0x0709, by decide +kernel, by decide +kernel, imageAt
      (by decide +kernel) (by decide +kernel)⟩,
    ⟨hbm, q0, 0x1000, 256, List.replicate 256 0, begun hbm q0 0x070A, by decide +kernel⟩,
    ⟨dev, q0, 1, by decide +kernel⟩,
    ⟨dev, q0, 8191, 1, by decide +kernel⟩,
    ⟨dev, q0, 8191, 1, by decide +kernel⟩,
    ⟨{ dev with updates := [2175] }, 2175, by decide +kernel⟩⟩

end Sys2Proof.Tests
end

section
/-! The register files of a tile (R65): a read after a write of a scalar, a vector and an accumulator register. The rules of tables come first, then what a change of
one tile's typed state leaves of the others, then one rule for each pair of a read and a write. -/

namespace Sys2Proof.Machine

/-! ### Tables: a read of a joined, of a filtered and of a replaced block of entries -/

/-- The first of two joined tables that lists a key answers for it. -/
theorem tget_append {α : Type} (t u : Tbl α) (k : Nat) : tget (t ++ u) k = (tget t k).or (tget u k) := by
  induction t with
  | nil => simp [tget]
  | cons e r ih =>
    obtain ⟨i, v⟩ := e
    by_cases h : i = k
    · simp [tget, h]
    · simp [tget, h, ih]

/-- A filter that looks at keys only keeps or drops all that is listed under a key. -/
theorem tget_filter_key {α : Type} (p : Nat → Bool) (t : Tbl α) (k : Nat) :
    tget (t.filter fun e => p e.1) k = if p k = true then tget t k else none := by
  induction t with
  | nil => simp [tget]
  | cons e r ih =>
    obtain ⟨i, v⟩ := e
    by_cases hi : i = k
    · subst hi
      cases hp : p i <;> simp [tget, hp, ih]
    · cases hp : p i <;> simp [tget, hi, hp, ih]

/-- The block that `putRow` lists from `base`: a key in the block has its word, unless that is the default d, and no other key is listed. -/
theorem tget_filteredBlock {α : Type} [DecidableEq α] (base n j : Nat) (d : α) (f : Nat → α) :
    tget (((List.range n).map fun i => (base + i, f i)).filter fun e => e.2 != d) j
      = if base ≤ j ∧ j < base + n ∧ f (j - base) ≠ d then some (f (j - base)) else none := by
  induction n with
  | zero => rw [if_neg (by omega)]; rfl
  | succ n ih =>
    rw [List.range_succ, List.map_append, List.filter_append, tget_append, ih]
    by_cases hj : j = base + n
    · subst hj
      by_cases hf : f n = d <;> simp [tget, hf]
    · have hlt : j < base + (n + 1) ↔ j < base + n := by omega
      have hlast : tget (([n].map fun i => (base + i, f i)).filter fun e => e.2 != d) j = none := by
        by_cases hf : f n = d <;> simp [tget, hf, Ne.symm hj]
      simp only [hlast, Option.or_none, hlt]

/-- A read after `putRow`: the word of the list inside the block, the old entry outside. -/
theorem tgetD_putRow (tb : Tbl W32) (base n : Nat) (vs : List W32) (j : Nat) :
    tgetD (putRow tb base n vs) j 0 = if base ≤ j ∧ j < base + n then vs.getD (j - base) 0 else tgetD tb j 0 := by
  unfold tgetD putRow
  rw [tget_append, tget_append, tget_filter_key (fun k => decide (k < base)), tget_filter_key (fun k => decide (base + n ≤ k)),
    tget_filteredBlock base n j 0 fun i => vs.getD i 0]
  by_cases hlow : j < base
  · have hnot : ¬ base ≤ j := by omega
    have hhigh : ¬ base + n ≤ j := by omega
    simp [hlow, hnot, hhigh]
  · by_cases hhigh : base + n ≤ j
    · have hnot : ¬ j < base + n := by omega
      simp [hlow, hhigh, hnot]
    · have hon : base ≤ j ∧ j < base + n := by omega
      simp only [hlow, hhigh, decide_false, Bool.false_eq_true, if_false, Option.none_or, Option.or_none]
      rw [if_pos hon]
      by_cases hz : vs.getD (j - base) 0 = 0
      · rw [if_neg fun h => h.2.2 hz, hz]; rfl
      · rw [if_pos ⟨hon.1, hon.2, hz⟩]; rfl

/-! ### A change of one tile's typed state -/

@[simp] theorem modTile_mem (s : State) (t : Nat) (f : Tile → Tile) : (s.modTile t f).mem = s.mem := (rfl)
@[simp] theorem modTile_regs (s : State) (t : Nat) (f : Tile → Tile) : (s.modTile t f).regs = s.regs := (rfl)

theorem tile_modTile (s : State) (t q : Nat) (f : Tile → Tile) : (s.modTile t f).tile q = if q = t then f (s.tile t) else s.tile q := by
  unfold State.modTile
  split
  next h => subst h; exact tile_setTile ..
  next h => exact tile_setTile_off h

/-- A part of a tile's state that the change keeps reads as before in every tile. -/
theorem modTile_keeps {β : Type} {part : Tile → β} {f : Tile → Tile} (hf : ∀ x, part (f x) = part x) (s : State) (t q : Nat) :
    part ((s.modTile t f).tile q) = part (s.tile q) := by
  rw [tile_modTile]
  split
  next h => subst h; exact hf _
  next => rfl

/-- A change of a tile that keeps its scalar file. -/
theorem sr_modTile {f : Tile → Tile} (hf : ∀ x, (f x).sreg = x.sreg) (s : State) (t q p : Nat) : (s.modTile t f).sr q p = s.sr q p := by
  unfold State.sr; rw [modTile_keeps hf]
/-- A change of a tile that keeps its vector file. -/
theorem vr_modTile {f : Tile → Tile} (hf : ∀ x, (f x).vreg = x.vreg) (s : State) (t q p l : Nat) : (s.modTile t f).vr q p l = s.vr q p l := by
  unfold State.vr; rw [modTile_keeps hf]
/-- A change of a tile that keeps its accumulators. -/
theorem acc_modTile {f : Tile → Tile} (hf : ∀ x, (f x).acc = x.acc) (s : State) (t q k i j : Nat) :
    (s.modTile t f).acc q k i j = s.acc q k i j := by
  unfold State.acc; rw [modTile_keeps hf]

/-! ### Scalar registers -/

@[simp] theorem sr_zero (s : State) (t : Nat) : s.sr t 0 = 0 := by simp [State.sr]
@[simp] theorem setSr_zero (s : State) (t : Nat) (v : W32) : s.setSr t 0 v = s := by simp [State.setSr]

theorem setSr_of_ne_zero (s : State) (t : Nat) {r : Nat} (v : W32) (hr : r ≠ 0) :
    s.setSr t r v = s.modTile t fun x => { x with sreg := tset x.sreg r 0 v } := if_neg hr

theorem sr_setSr (s : State) (t q p : Nat) {r : Nat} (v : W32) (hr : r ≠ 0) :
    (s.setSr t r v).sr q p = if q = t ∧ p = r then v else s.sr q p := by
  rw [setSr_of_ne_zero s t v hr]
  unfold State.sr
  rw [tile_modTile]
  by_cases hq : q = t
  · subst hq
    by_cases hp : p = r
    · subst hp; simp [hr, tgetD_tset]
    · simp [hp, tgetD_tset]
  · simp [hq]

@[simp] theorem vr_setSr (s : State) (t r q p l : Nat) (v : W32) : (s.setSr t r v).vr q p l = s.vr q p l := by
  unfold State.setSr
  split
  next => rfl
  next => exact vr_modTile (fun _ => by rfl) ..
@[simp] theorem acc_setSr (s : State) (t r q k i j : Nat) (v : W32) : (s.setSr t r v).acc q k i j = s.acc q k i j := by
  unfold State.setSr
  split
  next => rfl
  next => exact acc_modTile (fun _ => by rfl) ..
@[simp] theorem setSr_regs (s : State) (t r : Nat) (v : W32) : (s.setSr t r v).regs = s.regs := by
  unfold State.setSr; split <;> simp
@[simp] theorem setSr_mem (s : State) (t r : Nat) (v : W32) : (s.setSr t r v).mem = s.mem := by
  unfold State.setSr; split <;> simp

/-! ### Vector registers -/

/-- The key of lane l of register p lies in the block of register r just where p is r. -/
theorem vr_setVrow (s : State) (t r q p : Nat) {l : Nat} (vs : List W32) (hl : l < 64) :
    (s.setVrow t r vs).vr q p l = if q = t ∧ p = r then vs.getD l 0 else s.vr q p l := by
  unfold State.vr State.setVrow
  rw [tile_modTile]
  by_cases hq : q = t
  · subst hq
    by_cases hp : p = r
    · subst hp
      have hon : 64 * p ≤ 64 * p + l ∧ 64 * p + l < 64 * p + 64 := by omega
      simp only [if_true, tgetD_putRow, if_pos hon, Nat.add_sub_cancel_left, and_self]
    · have hoff : ¬ (64 * r ≤ 64 * p + l ∧ 64 * p + l < 64 * r + 64) := by omega
      simp only [if_true, tgetD_putRow, if_neg hoff, hp, and_false, if_false]
  · simp [hq]

@[simp] theorem sr_setVrow (s : State) (t r q p : Nat) (vs : List W32) : (s.setVrow t r vs).sr q p = s.sr q p :=
  sr_modTile (fun _ => by rfl) ..
@[simp] theorem acc_setVrow (s : State) (t r q k i j : Nat) (vs : List W32) : (s.setVrow t r vs).acc q k i j = s.acc q k i j :=
  acc_modTile (fun _ => by rfl) ..
@[simp] theorem setVrow_mem (s : State) (t r : Nat) (vs : List W32) : (s.setVrow t r vs).mem = s.mem := modTile_mem ..

/-! ### Accumulators -/

/-- The key of an element of accumulator p lies in the block of accumulator k just where p is k. -/
theorem acc_setAcc (s : State) (t k q p : Nat) {i j : Nat} (vs : List W32) (hi : i < 32) (hj : j < 32) :
    (s.setAcc t k vs).acc q p i j = if q = t ∧ p = k then vs.getD (32 * i + j) 0 else s.acc q p i j := by
  unfold State.acc State.setAcc
  rw [tile_modTile]
  by_cases hq : q = t
  · subst hq
    by_cases hp : p = k
    · subst hp
      have hon : 1024 * p ≤ 1024 * p + 32 * i + j ∧ 1024 * p + 32 * i + j < 1024 * p + 1024 := by omega
      have hkey : 1024 * p + 32 * i + j - 1024 * p = 32 * i + j := by omega
      simp only [if_true, tgetD_putRow, if_pos hon, hkey, and_self]
    · have hoff : ¬ (1024 * k ≤ 1024 * p + 32 * i + j ∧ 1024 * p + 32 * i + j < 1024 * k + 1024) := by omega
      simp only [if_true, tgetD_putRow, if_neg hoff, hp, and_false, if_false]
  · simp [hq]

@[simp] theorem sr_setAcc (s : State) (t k q p : Nat) (vs : List W32) : (s.setAcc t k vs).sr q p = s.sr q p :=
  sr_modTile (fun _ => by rfl) ..
@[simp] theorem vr_setAcc (s : State) (t k q p l : Nat) (vs : List W32) : (s.setAcc t k vs).vr q p l = s.vr q p l :=
  vr_modTile (fun _ => by rfl) ..
@[simp] theorem setAcc_mem (s : State) (t k : Nat) (vs : List W32) : (s.setAcc t k vs).mem = s.mem := modTile_mem ..

/-! ### R65 -/

/-- Settles O10: s0 is the case r = 0 of the read and of the write; each other clause is the rule of its register file, at the register written or off it. -/
theorem registerFile : Obligations.RegisterFile := by
  unfold Obligations.RegisterFile
  refine ⟨fun s t => ⟨sr_zero s t, setSr_zero s t⟩, fun s t r v hr => ?scalar, fun s t r vs => ?vector, fun s t k vs => ?accumulator⟩
  case scalar =>
    refine ⟨?_, fun q p hoff => ?_, fun q p l => vr_setSr .., fun q k i j => acc_setSr .., setSr_regs .., setSr_mem ..⟩
    · rw [sr_setSr s t t r v hr, if_pos ⟨rfl, rfl⟩]
    · rw [sr_setSr s t q p v hr, if_neg (by omega)]
  case vector =>
    refine ⟨fun l hl => ?_, fun q p l hl hoff => ?_, fun q p => sr_setVrow .., fun q k i j => acc_setVrow .., setVrow_mem ..⟩
    · rw [vr_setVrow s t r t r vs hl, if_pos ⟨rfl, rfl⟩]
    · rw [vr_setVrow s t r q p vs hl, if_neg (by omega)]
  case accumulator =>
    refine ⟨fun i j hi hj => ?_, fun q p i j hi hj hoff => ?_, fun q p => sr_setAcc .., fun q p l => vr_setAcc .., setAcc_mem ..⟩
    · rw [acc_setAcc s t k t k vs hi hj, if_pos ⟨rfl, rfl⟩]
    · rw [acc_setAcc s t k q p vs hi hj, if_neg (by omega)]

end Sys2Proof.Machine
end

section
/-! Every step: where a command answers, what is kept of the queue and of the canonical form, and what reset leaves. -/

namespace Sys2Proof.Machine

/-! ### Where a command answers -/

/-- The outcome of a command that answers just where it is well formed and fits its state. -/
def Answers (o : Outc) (wf fits : Bool) : Prop := (∃ t, o = .next t) ↔ (wf = true ∧ fits = true)

theorem answers_next (t : State) : Answers (.next t) true true := ⟨fun _ => ⟨rfl, rfl⟩, fun _ => ⟨t, rfl⟩⟩

theorem answers_run (b : Bool) (t : State) : Answers (run b t) b true := by
  cases b <;> simp [Answers, run]

/-- A row refused for an operand or a frame of another row, and otherwise run. -/
theorem answers_refuse_else {c : Prop} [Decidable c] {o : Outc} {ok wf fits : Bool} (ho : Answers o ok true)
    (h : (wf = true ∧ fits = true) ↔ (¬ c ∧ ok = true)) : Answers (if c then .refused .illFormed else o) wf fits := by
  unfold Answers at *
  rw [h]
  split <;> simp_all

theorem answers_slotCmd (t : Nat) (fits : Bool) (n : State) : Answers (slotCmd t fits n) (tileOk t && fits) true := by
  unfold Answers slotCmd tileOk
  by_cases ht : t < 2176
  · cases fits <;> simp [ht, Nat.not_le.2 ht]
  · simp [ht, Nat.not_lt.1 ht]

theorem answers_aluCmd (t : Nat) (b : W64) (op funct : Nat) (s : State) (eff : State → State) :
    Answers (aluCmd t b op funct s eff) (aluOk t b op funct) true := answers_slotCmd ..

theorem answers_mnop (t : Nat) (b : W64) (s : State) : Answers (execMnop t b s) (tileOk t && mOp b != 1 && mOp b != 2) true := by
  rw [Bool.and_assoc]
  exact answers_slotCmd _ _ _

/-- A request frame of its row, for this device. -/
theorem answers_tksReqCmd (p : Nat) (f : Frame) (op : Nat) (s : State) : Answers (tksReqCmd p f op s) (reqFrameOk p f op) (f.dst == s.ownDev) := by
  unfold tksReqCmd reqFrameOk
  refine answers_refuse_else (answers_run ..) ?_
  cases f.resp <;> simp ; tauto

theorem answers_tksResponse (p : Nat) (f : Frame) (s : State) : Answers (execTksResponse p f s) (f.resp && decide (p < 8)) (f.dst == s.ownDev) := by
  unfold execTksResponse
  refine answers_refuse_else (answers_run ..) ?_
  cases f.resp <;> simp ; tauto

theorem answers_tksForward (p : Nat) (f : Frame) (s : State) : Answers (execTksForward p f s) (decide (p < 8)) (f.dst != s.ownDev) := by
  unfold execTksForward
  refine answers_refuse_else (answers_run ..) ?_
  simp [and_comm]

/-- The row of each command decides where it answers. -/
theorem answers_exec (i : Instr) (s : State) : Answers (exec i s) i.wf (i.fits s) := by
  cases i with
  | powerOn | moduleReset | powerDown | overcurrentTrip | overvoltageDisconnect | supplySample | supplyWarningExit | holdupMeasure | rootPllLockLoss | hubResetStart |
    stepGoWrite | pwrStateQuiesceTimeout | sleepExit | seqCloseFinish | pageMoveDescriptorRewrite | pageMoveSourceFree | epochReencryptPass | oldEpochRetire |
    ssPatrolRead | hbmPatrol | slicePrefetch | hbmFillReturn | lineQueueResume | dirProbeGo | notifierAction | tksRequestResend | tksRequestFail | tksBusyRetry |
    tksMemoExpiry | memRd | memRdData | memWr | memWrPtl | memClnEvct | memInv | biRsp | biConflict | h2dSnoop | cxlIoMemAccess | cxlAtomicOp | cxlD2hResponse |
    cacheWritebackInvalidate | hdmDecoderCommit | flr | cxlLinkUp | cxlLinkDown | axotteMgmtMessage | mgmtSessionEnd | lockstepMismatch | stewardRestartComplete |
    servingStep | servingAdmission | servingAdmissionTimeout | benchPoolDivide | estimatorCalibration | serviceHourTick | replanLoweringVerify | telemetryRecord |
    prbWriteComplete | diagBistComplete | flowOkSample | heartbeatTick | coolLeak | coolantThermistorRead | lcBurnSupplyTimeout | moduleResetRelease | hubResetComplete |
    replanRestart | bistRoundRestart =>
    exact answers_next ..
  | regionResetComplete | bootStepComplete | bootStepTimeout | bupStepGo | bupStepGoExpert | bupStatus | bupDegradedAck | bupIdRead | rstHub | rstRegion | rstRegionExpert
    | siteStatus | siteStatusExpert | siteReset | siteResetExpert | pwrCapSet | pwrCapSetExpert | pwrDomainStatus | pwrThrottleSet | pwrThrottleSetExpert | pwrTokenAudit
    | ageStatus | ageReplan | ageReplanExpert | thmStatus | pwrStateSet | pwrStateSetExpert | sitePwrSet | sitePwrSetExpert | memSsConfig | memSsConfigExpert | memSsFlush
    | memSsFlushExpert | memHbmStatus | memHbmStatusExpert | memScrubSet | memScrubSetExpert | memErrRead | memDirProbe | memHostGrant | memHostGrantExpert |
    memHostRevoke | memHostStatus | regPartSet | regPartSetExpert | regClassSet | regClassSetExpert | regStatus | regSsShare | regSsShareExpert | fabDrsLoad |
    fabDrsLoadExpert | fabDrsActivate | fabDrsActivateExpert | fabDrsDeactivate | fabDrsDeactivateExpert | drsDrainTimeout | drsStopPhase | sunboundTimeout | fabDrsSwap |
    fabDrsSwapExpert | fabDrsUnload | fabDrsStatus | fabMapRead | sgrantTimeout | fabSyncReserve | fabSyncReserveExpert | fabSyncRelease | fabSyncAudit | fabCreditAudit |
    diagLinkAudit | meshCreditIdleCheck | ucieCreditIdleCheck | ctxSeqOpen | ctxSeqOpenExpert | ctxSeqClose | ctxSeqQuery | ctxPageAppend | ctxAppendTimeout |
    ctxPageCommit | ctxPageMove | ctxPageMoveExpert | ctxHoistAttach | ctxHoistAttachExpert | ctxHoistDetach | ctxPolicySet | ctxPolicySetExpert | ctxTierAdd |
    ctxTierRemove | ctxExportConfig | ctxAudit | ctxEpochStatus | ctxStoreInit | ctxStoreInitExpert | pageDemotion | pagePromotion | pageMoveStart | laneTailWrite |
    hoistRingPrefetch | gatherDescriptorExecute | gatherDescriptorComplete | peerTierTimeout | ssPowerupInvalidate | ssInvalidateComplete | ssThermalSample | hbmTempRead
    | hbmForcedTurn | xltCtxSet | xltCtxSetExpert | xltCtxClear | xltUnmap | xltUnmapExpert | xltUnmapStatus | xltMap | xltMapExpert | xltAudit | xltInvGo |
    unmapPhase1Done | unmapComplete | walkRequest | walkComplete | tlbPinRetry | matrixGranule | operandBufferFill | waitRelease | contextKill | lmRequestAged |
    lmExternalAccess | tileCacheFill | streamFlitArrival | streamCreditReturn | dmaDescriptorExecute | dmaTransferBlock | dmaDescriptorComplete | dmaTailWrite |
    dmaCtrlWrite | seqStart | arithCtrlWrite | srSeedWrite | registerWrite | benchInvalidation | rdShared | rdUnique | upgrade | rdNoAlloc | wrFull | wrPart | atomicOp |
    evictClean | evictDirty | snpInv | snpShare | snpCur | rspI | rspS | rspFwd | cmp | cmpE | rspErr | datC | datS | datF | datWb | datCur | datWr | snoopTimeout |
    ucieFlit | ucieNak | ucieAckFlit | ucieAckTimer | ucieModuleRetrain | ucieRetrainTimeout | sflit | scredit | sgrant | sunbound | idRsp | siteMods | pwrReq | pwrAck |
    therm | thermTimeout | scrubAck | scrubTimeout | chipErr | sitePowerAverage | siteOverpowerRecheck | syncCountWrite | syncAdd | syncTake | syncExchange |
    notifierActionWrite | notifierThreshWrite | tksTransitDiscard | nak | tksAckCreditFrame | hello | tksAckTimer | tksPortRetrain | tksRetrainTimeout | tksPortStatus |
    tksPortStatusExpert | tksPortReset | tksPortResetExpert | tksRouteProbe | tksPing | tksCreditSet | tksCreditSetExpert | msixUnmask | hostWindowWrite | mailboxDoorbell
    | svcFwLoad | svcStart | svcStartExpert | svcStop | svcQueueSet | svcQueueSetExpert | svcStatus | egressTailWrite | egressSend | regWindowUpdate | benchGovernor |
    benchThermalGovernor | sensorDiverge | gradientCheck | gradientEscalate | ageMonitorRead | telRead | telStreamSet | telStreamSetExpert | benchIdle | prbRead |
    prbWrite | prbWear | prbRwpWrite | diagLogRead | diagBistRun | diagBistRunExpert | diagBistResult | diagSafetyStatus | diagFaultInject | diagFaultInjectExpert |
    benchSensorRead | sensorRefreshTimeout | benchCoolExit | datapathRetest | onlineBistRound | watchdogExpiry | secHandover | secHandoverExpert | secLcTransition |
    secKeyProvision | secEpochRotate | secTrustSet | secDeviceSet | secRouteWrite | secFwUpdate | secFwUpdateExpert | secDebugOpen | secLibraryLoad | secLibraryLoadExpert
    | secPartitionSet | secStatus | getVersion | getCapabilities | negotiateAlgorithms | getDigests | getCertificate | challenge | getMeasurements |
    measurementHoldTimeout | chunkSend | chunkGet | keyExchange | finish | heartbeat | keyUpdate | getEncapsulatedRequest | deliverEncapsulatedResponse | endSession |
    getCsr | setCertificate | spdmUnsupportedRequest | configurationRequest | tksDiscardedFrame | tksRetrainComplete | ucieRetrainComplete | ucieSidebandFailure =>
    exact answers_run ..
  | mnop =>
    exact answers_mnop ..
  | mma =>
    exact answers_slotCmd ..
  | mclr =>
    exact answers_slotCmd ..
  | vnop | vadd | vsub | vmul | vfma | vmin | vmax | vcgt | vceq | vsel | viadd | visub | vimul | vand | vor | vxor | vshl | vshr | vsra | vexp2 | vlog2 | vrcp | vrsqrt |
    vrsum | vrmax | vmov | vitof | vftoi | vcvtd | vcvtu | vld | vst | vbc | vget | vput | pull | push | vawr | vald | vaadd | varsc | vafin | vamax | vsmu | vsmg =>
    exact answers_slotCmd ..
  | nop | lil | lis | addi | ld | st | gld | gst | brz | brnz | loopOp | loopi | jmp | sig | sigi | waitOp | rel | fence | trr | trw | cinv | endOp =>
    exact answers_slotCmd ..
  | aluAdd | aluSub | aluAnd | aluOr | aluXor | aluShl | aluShr | aluSra | aluMul | aluSlt | aluSltu | aluMin | aluMax | aluMov | aluiAdd | aluiSub | aluiAnd | aluiOr |
    aluiXor | aluiShl | aluiShr | aluiSra | aluiMul | aluiSlt | aluiSltu | aluiMin | aluiMax | aluiMov =>
    exact answers_aluCmd ..
  | putOp | getOp | tksAtomic | tksSync | red | settGrant | settReturn | settRead | settWrite | msg | echo =>
    exact answers_tksReqCmd ..
  | tksResponse =>
    exact answers_tksResponse ..
  | tksForward =>
    exact answers_tksForward ..
  | fsig | fwait | firqRead | svcCoreAccess =>
    exact answers_run ..

/-- Settles O3, row by row. -/
theorem wellFormedAnswers : Obligations.WellFormedAnswers := answers_exec

/-! ### What every step keeps -/

/-- Every command keeps the queue and the canonical form. -/
theorem kept_exec {p : Base} (i : Instr) (s : State) (hk : Kept p s) : KeptX p (exec i s) := by
  cases i with
  | powerOn vin mated perstN modRstN straps => exact kept_execPowerOn vin mated perstN modRstN straps s hk
  | moduleReset perst lowUs => exact kept_execModuleReset perst lowUs s hk
  | powerDown cause => exact kept_execPowerDown cause s hk
  | overcurrentTrip iin => exact kept_execOvercurrentTrip iin s hk
  | overvoltageDisconnect vin us => exact kept_execOvervoltageDisconnect vin us s hk
  | supplySample vin iin => exact kept_execSupplySample vin iin s hk
  | supplyWarningExit aboveUs durUs => exact kept_execSupplyWarningExit aboveUs durUs s hk
  | holdupMeasure us => exact kept_execHoldupMeasure us s hk
  | rootPllLockLoss => exact kept_execRootPllLockLoss s hk
  | hubResetStart => exact kept_execHubResetStart s hk
  | regionResetComplete dom => exact kept_execRegionResetComplete dom s hk
  | stepGoWrite v => exact kept_execStepGoWrite v s hk
  | bootStepComplete n r => exact kept_execBootStepComplete n r s hk
  | bootStepTimeout n => exact kept_execBootStepTimeout n s hk
  | bupStepGo q => exact kept_execBupStepGo q s hk
  | bupStepGoExpert q mask => exact kept_execBupStepGoExpert q mask s hk
  | bupStatus q => exact kept_execBupStatus q s hk
  | bupDegradedAck q word => exact kept_execBupDegradedAck q word s hk
  | bupIdRead q => exact kept_execBupIdRead q s hk
  | rstHub q => exact kept_execRstHub q s hk
  | rstRegion q dom => exact kept_execRstRegion q dom s hk
  | rstRegionExpert q dom hold => exact kept_execRstRegionExpert q dom hold s hk
  | siteStatus q site => exact kept_execSiteStatus q site s hk
  | siteStatusExpert q site module => exact kept_execSiteStatusExpert q site module s hk
  | siteReset q site => exact kept_execSiteReset q site s hk
  | siteResetExpert q site cycle scrub => exact kept_execSiteResetExpert q site cycle scrub s hk
  | pwrCapSet q watts => exact kept_execPwrCapSet q watts s hk
  | pwrCapSetExpert q hubW siteW => exact kept_execPwrCapSetExpert q hubW siteW s hk
  | pwrDomainStatus q first count => exact kept_execPwrDomainStatus q first count s hk
  | pwrThrottleSet q ceil => exact kept_execPwrThrottleSet q ceil s hk
  | pwrThrottleSetExpert q ceils tLim => exact kept_execPwrThrottleSetExpert q ceils tLim s hk
  | pwrTokenAudit q => exact kept_execPwrTokenAudit q s hk
  | ageStatus q => exact kept_execAgeStatus q s hk
  | ageReplan q => exact kept_execAgeReplan q s hk
  | ageReplanExpert q period guard => exact kept_execAgeReplanExpert q period guard s hk
  | thmStatus q => exact kept_execThmStatus q s hk
  | pwrStateSet q target save => exact kept_execPwrStateSet q target save s hk
  | pwrStateSetExpert q target save quiesceMs wakeOff => exact kept_execPwrStateSetExpert q target save quiesceMs wakeOff s hk
  | pwrStateQuiesceTimeout => exact kept_execPwrStateQuiesceTimeout s hk
  | sleepExit byPin lowUs stacksOk => exact kept_execSleepExit byPin lowUs stacksOk s hk
  | sitePwrSet q site watts => exact kept_execSitePwrSet q site watts s hk
  | sitePwrSetExpert q site grant => exact kept_execSitePwrSetExpert q site grant s hk
  | memSsConfig q k => exact kept_execMemSsConfig q k s hk
  | memSsConfigExpert q north south => exact kept_execMemSsConfigExpert q north south s hk
  | memSsFlush q => exact kept_execMemSsFlush q s hk
  | memSsFlushExpert q base len inval => exact kept_execMemSsFlushExpert q base len inval s hk
  | memHbmStatus q => exact kept_execMemHbmStatus q s hk
  | memHbmStatusExpert q stack chan => exact kept_execMemHbmStatusExpert q stack chan s hk
  | memScrubSet q => exact kept_execMemScrubSet q s hk
  | memScrubSetExpert q hbmHours ssHours => exact kept_execMemScrubSetExpert q hbmHours ssHours s hk
  | memErrRead q first count => exact kept_execMemErrRead q first count s hk
  | memDirProbe q addr => exact kept_execMemDirProbe q addr s hk
  | memHostGrant q hostBase size => exact kept_execMemHostGrant q hostBase size s hk
  | memHostGrantExpert q hostBase size tier window => exact kept_execMemHostGrantExpert q hostBase size tier window s hk
  | memHostRevoke q window => exact kept_execMemHostRevoke q window s hk
  | memHostStatus q => exact kept_execMemHostStatus q s hk
  | regPartSet q part first last rate => exact kept_execRegPartSet q part first last rate s hk
  | regPartSetExpert q part first last rateN rateS burst share qlim => exact kept_execRegPartSetExpert q part first last rateN rateS burst share qlim s hk
  | regClassSet q w1 w2 w3 => exact kept_execRegClassSet q w1 w2 w3 s hk
  | regClassSetExpert q w1 w2 w3 hi lo step => exact kept_execRegClassSetExpert q w1 w2 w3 hi lo step s hk
  | regStatus q => exact kept_execRegStatus q s hk
  | regSsShare q part eighths => exact kept_execRegSsShare q part eighths s hk
  | regSsShareExpert q ways => exact kept_execRegSsShareExpert q ways s hk
  | fabDrsLoad q image size ctx => exact kept_execFabDrsLoad q image size ctx s hk
  | fabDrsLoadExpert q image size ctx lbase sbase swap oversub => exact kept_execFabDrsLoadExpert q image size ctx lbase sbase swap oversub s hk
  | fabDrsActivate q h obj => exact kept_execFabDrsActivate q h obj s hk
  | fabDrsActivateExpert q h obj hold => exact kept_execFabDrsActivateExpert q h obj hold s hk
  | fabDrsDeactivate q h => exact kept_execFabDrsDeactivate q h s hk
  | fabDrsDeactivateExpert q h drainMs => exact kept_execFabDrsDeactivateExpert q h drainMs s hk
  | drsDrainTimeout h => exact kept_execDrsDrainTimeout h s hk
  | drsStopPhase h => exact kept_execDrsStopPhase h s hk
  | sunboundTimeout h site => exact kept_execSunboundTimeout h site s hk
  | fabDrsSwap q a b => exact kept_execFabDrsSwap q a b s hk
  | fabDrsSwapExpert q a b drainMs => exact kept_execFabDrsSwapExpert q a b drainMs s hk
  | fabDrsUnload q h => exact kept_execFabDrsUnload q h s hk
  | fabDrsStatus q h => exact kept_execFabDrsStatus q h s hk
  | fabMapRead q first count => exact kept_execFabMapRead q first count s hk
  | sgrantTimeout h site => exact kept_execSgrantTimeout h site s hk
  | fabSyncReserve q count => exact kept_execFabSyncReserve q count s hk
  | fabSyncReserveExpert q first count => exact kept_execFabSyncReserveExpert q first count s hk
  | fabSyncRelease q first count => exact kept_execFabSyncRelease q first count s hk
  | fabSyncAudit q half => exact kept_execFabSyncAudit q half s hk
  | fabCreditAudit q h => exact kept_execFabCreditAudit q h s hk
  | diagLinkAudit q kind idx => exact kept_execDiagLinkAudit q kind idx s hk
  | meshCreditIdleCheck bench link pool found => exact kept_execMeshCreditIdleCheck bench link pool found s hk
  | ucieCreditIdleCheck tukosen unit pool found => exact kept_execUcieCreditIdleCheck tukosen unit pool found s hk
  | ctxSeqOpen q seq ctx groups rowElems wfmt ppp window => exact kept_execCtxSeqOpen q seq ctx groups rowElems wfmt ppp window s hk
  | ctxSeqOpenExpert q seq ctx groups rowElems wfmt ppp window policy kinds => exact kept_execCtxSeqOpenExpert q seq ctx groups rowElems wfmt ppp window policy kinds s hk
  | ctxSeqClose q seq obj => exact kept_execCtxSeqClose q seq obj s hk
  | seqCloseFinish seq => exact kept_execSeqCloseFinish seq s hk
  | ctxSeqQuery q seq => exact kept_execCtxSeqQuery q seq s hk
  | ctxPageAppend q seq gFirst gCount => exact kept_execCtxPageAppend q seq gFirst gCount s hk
  | ctxAppendTimeout mbx => exact kept_execCtxAppendTimeout mbx s hk
  | ctxPageCommit q seq len obj => exact kept_execCtxPageCommit q seq len obj s hk
  | ctxPageMove q seq group page tier => exact kept_execCtxPageMove q seq group page tier s hk
  | ctxPageMoveExpert q seq group page tier fmt pin unpin => exact kept_execCtxPageMoveExpert q seq group page tier fmt pin unpin s hk
  | ctxHoistAttach q h => exact kept_execCtxHoistAttach q h s hk
  | ctxHoistAttachExpert q h tag hoist lane => exact kept_execCtxHoistAttachExpert q h tag hoist lane s hk
  | ctxHoistDetach q h => exact kept_execCtxHoistDetach q h s hk
  | ctxPolicySet q high low => exact kept_execCtxPolicySet q high low s hk
  | ctxPolicySetExpert q cls high low share append next tfmt => exact kept_execCtxPolicySetExpert q cls high low share append next tfmt s hk
  | ctxTierAdd q tier src => exact kept_execCtxTierAdd q tier src s hk
  | ctxTierRemove q tier src => exact kept_execCtxTierRemove q tier src s hk
  | ctxExportConfig q base len => exact kept_execCtxExportConfig q base len s hk
  | ctxAudit q => exact kept_execCtxAudit q s hk
  | ctxEpochStatus q => exact kept_execCtxEpochStatus q s hk
  | ctxStoreInit q base len n0 d => exact kept_execCtxStoreInit q base len n0 d s hk
  | ctxStoreInitExpert q base len n0 d c t0 => exact kept_execCtxStoreInitExpert q base len n0 d c t0 s hk
  | pageDemotion tier => exact kept_execPageDemotion tier s hk
  | pagePromotion desc tier => exact kept_execPagePromotion desc tier s hk
  | pageMoveStart desc hoist => exact kept_execPageMoveStart desc hoist s hk
  | pageMoveDescriptorRewrite desc => exact kept_execPageMoveDescriptorRewrite desc s hk
  | pageMoveSourceFree desc => exact kept_execPageMoveSourceFree desc s hk
  | epochReencryptPass desc => exact kept_execEpochReencryptPass desc s hk
  | oldEpochRetire => exact kept_execOldEpochRetire s hk
  | laneTailWrite n k v => exact kept_execLaneTailWrite n k v s hk
  | hoistRingPrefetch n k => exact kept_execHoistRingPrefetch n k s hk
  | gatherDescriptorExecute n k => exact kept_execGatherDescriptorExecute n k s hk
  | gatherDescriptorComplete n k => exact kept_execGatherDescriptorComplete n k s hk
  | peerTierTimeout n k => exact kept_execPeerTierTimeout n k s hk
  | ssPatrolRead addr => exact kept_execSsPatrolRead addr s hk
  | hbmPatrol addr => exact kept_execHbmPatrol addr s hk
  | ssPowerupInvalidate half => exact kept_execSsPowerupInvalidate half s hk
  | ssInvalidateComplete half => exact kept_execSsInvalidateComplete half s hk
  | ssThermalSample half => exact kept_execSsThermalSample half s hk
  | hbmTempRead stack temp => exact kept_execHbmTempRead stack temp s hk
  | slicePrefetch addr byHoist => exact kept_execSlicePrefetch addr byHoist s hk
  | hbmFillReturn addr ns => exact kept_execHbmFillReturn addr ns s hk
  | hbmForcedTurn stack => exact kept_execHbmForcedTurn stack s hk
  | xltCtxSet q ctx base len => exact kept_execXltCtxSet q ctx base len s hk
  | xltCtxSetExpert q ctx root => exact kept_execXltCtxSetExpert q ctx root s hk
  | xltCtxClear q ctx obj => exact kept_execXltCtxClear q ctx obj s hk
  | xltUnmap q ctx va len obj => exact kept_execXltUnmap q ctx va len obj s hk
  | xltUnmapExpert q ctx va len obj all => exact kept_execXltUnmapExpert q ctx va len obj all s hk
  | xltUnmapStatus q slot => exact kept_execXltUnmapStatus q slot s hk
  | xltMap q ctx va len target w nc => exact kept_execXltMap q ctx va len target w nc s hk
  | xltMapExpert q ctx va len target w nc => exact kept_execXltMapExpert q ctx va len target w nc s hk
  | xltAudit q => exact kept_execXltAudit q s hk
  | xltInvGo k => exact kept_execXltInvGo k s hk
  | unmapPhase1Done k => exact kept_execUnmapPhase1Done k s hk
  | unmapComplete k => exact kept_execUnmapComplete k s hk
  | walkRequest m lane ctx va write => exact kept_execWalkRequest m lane ctx va write s hk
  | walkComplete half => exact kept_execWalkComplete half s hk
  | tlbPinRetry bench ctx va => exact kept_execTlbPinRetry bench ctx va s hk
  | mnop t b => exact kept_execMnop t b s hk
  | mma t b => exact kept_execMma t b s hk
  | mclr t b => exact kept_execMclr t b s hk
  | matrixGranule t mismatch => exact kept_execMatrixGranule t mismatch s hk
  | operandBufferFill t opB => exact kept_execOperandBufferFill t opB s hk
  | vnop t b => exact kept_execVnop t b s hk
  | vadd t b => exact kept_execVadd t b s hk
  | vsub t b => exact kept_execVsub t b s hk
  | vmul t b => exact kept_execVmul t b s hk
  | vfma t b => exact kept_execVfma t b s hk
  | vmin t b => exact kept_execVmin t b s hk
  | vmax t b => exact kept_execVmax t b s hk
  | vcgt t b => exact kept_execVcgt t b s hk
  | vceq t b => exact kept_execVceq t b s hk
  | vsel t b => exact kept_execVsel t b s hk
  | viadd t b => exact kept_execViadd t b s hk
  | visub t b => exact kept_execVisub t b s hk
  | vimul t b => exact kept_execVimul t b s hk
  | vand t b => exact kept_execVand t b s hk
  | vor t b => exact kept_execVor t b s hk
  | vxor t b => exact kept_execVxor t b s hk
  | vshl t b => exact kept_execVshl t b s hk
  | vshr t b => exact kept_execVshr t b s hk
  | vsra t b => exact kept_execVsra t b s hk
  | vexp2 t b => exact kept_execVexp2 t b s hk
  | vlog2 t b => exact kept_execVlog2 t b s hk
  | vrcp t b => exact kept_execVrcp t b s hk
  | vrsqrt t b => exact kept_execVrsqrt t b s hk
  | vrsum t b => exact kept_execVrsum t b s hk
  | vrmax t b => exact kept_execVrmax t b s hk
  | vmov t b => exact kept_execVmov t b s hk
  | vitof t b => exact kept_execVitof t b s hk
  | vftoi t b => exact kept_execVftoi t b s hk
  | vcvtd t b => exact kept_execVcvtd t b s hk
  | vcvtu t b => exact kept_execVcvtu t b s hk
  | vld t b => exact kept_execVld t b s hk
  | vst t b => exact kept_execVst t b s hk
  | vbc t b => exact kept_execVbc t b s hk
  | vget t b => exact kept_execVget t b s hk
  | vput t b => exact kept_execVput t b s hk
  | pull t b => exact kept_execPull t b s hk
  | push t b => exact kept_execPush t b s hk
  | vawr t b => exact kept_execVawr t b s hk
  | vald t b => exact kept_execVald t b s hk
  | vaadd t b => exact kept_execVaadd t b s hk
  | varsc t b => exact kept_execVarsc t b s hk
  | vafin t b => exact kept_execVafin t b s hk
  | vamax t b => exact kept_execVamax t b s hk
  | vsmu t b => exact kept_execVsmu t b s hk
  | vsmg t b => exact kept_execVsmg t b s hk
  | nop t b => exact kept_execNop t b s hk
  | aluAdd t b => exact kept_execAluAdd t b s hk
  | aluSub t b => exact kept_execAluSub t b s hk
  | aluAnd t b => exact kept_execAluAnd t b s hk
  | aluOr t b => exact kept_execAluOr t b s hk
  | aluXor t b => exact kept_execAluXor t b s hk
  | aluShl t b => exact kept_execAluShl t b s hk
  | aluShr t b => exact kept_execAluShr t b s hk
  | aluSra t b => exact kept_execAluSra t b s hk
  | aluMul t b => exact kept_execAluMul t b s hk
  | aluSlt t b => exact kept_execAluSlt t b s hk
  | aluSltu t b => exact kept_execAluSltu t b s hk
  | aluMin t b => exact kept_execAluMin t b s hk
  | aluMax t b => exact kept_execAluMax t b s hk
  | aluMov t b => exact kept_execAluMov t b s hk
  | aluiAdd t b => exact kept_execAluiAdd t b s hk
  | aluiSub t b => exact kept_execAluiSub t b s hk
  | aluiAnd t b => exact kept_execAluiAnd t b s hk
  | aluiOr t b => exact kept_execAluiOr t b s hk
  | aluiXor t b => exact kept_execAluiXor t b s hk
  | aluiShl t b => exact kept_execAluiShl t b s hk
  | aluiShr t b => exact kept_execAluiShr t b s hk
  | aluiSra t b => exact kept_execAluiSra t b s hk
  | aluiMul t b => exact kept_execAluiMul t b s hk
  | aluiSlt t b => exact kept_execAluiSlt t b s hk
  | aluiSltu t b => exact kept_execAluiSltu t b s hk
  | aluiMin t b => exact kept_execAluiMin t b s hk
  | aluiMax t b => exact kept_execAluiMax t b s hk
  | aluiMov t b => exact kept_execAluiMov t b s hk
  | lil t b => exact kept_execLil t b s hk
  | lis t b => exact kept_execLis t b s hk
  | addi t b => exact kept_execAddi t b s hk
  | ld t b => exact kept_execLd t b s hk
  | st t b => exact kept_execSt t b s hk
  | gld t b => exact kept_execGld t b s hk
  | gst t b => exact kept_execGst t b s hk
  | brz t b => exact kept_execBrz t b s hk
  | brnz t b => exact kept_execBrnz t b s hk
  | loopOp t b => exact kept_execLoopOp t b s hk
  | loopi t b => exact kept_execLoopi t b s hk
  | jmp t b => exact kept_execJmp t b s hk
  | sig t b => exact kept_execSig t b s hk
  | sigi t b => exact kept_execSigi t b s hk
  | waitOp t b => exact kept_execWaitOp t b s hk
  | waitRelease t => exact kept_execWaitRelease t s hk
  | rel t b => exact kept_execRel t b s hk
  | fence t b => exact kept_execFence t b s hk
  | trr t b => exact kept_execTrr t b s hk
  | trw t b => exact kept_execTrw t b s hk
  | cinv t b => exact kept_execCinv t b s hk
  | endOp t b => exact kept_execEndOp t b s hk
  | contextKill t cause unit detail addr => exact kept_execContextKill t cause unit detail addr s hk
  | lmRequestAged t requester refused => exact kept_execLmRequestAged t requester refused s hk
  | lmExternalAccess m addr n op => exact kept_execLmExternalAccess m addr n op s hk
  | tileCacheFill t line => exact kept_execTileCacheFill t line s hk
  | streamFlitArrival t port f => exact kept_execStreamFlitArrival t port f s hk
  | streamCreditReturn t port n => exact kept_execStreamCreditReturn t port n s hk
  | dmaDescriptorExecute t n => exact kept_execDmaDescriptorExecute t n s hk
  | dmaTransferBlock t n => exact kept_execDmaTransferBlock t n s hk
  | dmaDescriptorComplete t n => exact kept_execDmaDescriptorComplete t n s hk
  | dmaTailWrite t n v => exact kept_execDmaTailWrite t n v s hk
  | dmaCtrlWrite t n v => exact kept_execDmaCtrlWrite t n v s hk
  | seqStart t v => exact kept_execSeqStart t v s hk
  | arithCtrlWrite t v => exact kept_execArithCtrlWrite t v s hk
  | srSeedWrite t v => exact kept_execSrSeedWrite t v s hk
  | registerWrite m addr width v => exact kept_execRegisterWrite m addr width v s hk
  | benchInvalidation bench line writer => exact kept_execBenchInvalidation bench line writer s hk
  | rdShared a line tag tc => exact kept_execRdShared a line tag tc s hk
  | rdUnique a line tag tc => exact kept_execRdUnique a line tag tc s hk
  | upgrade a line tag tc => exact kept_execUpgrade a line tag tc s hk
  | rdNoAlloc a line tag tc => exact kept_execRdNoAlloc a line tag tc s hk
  | wrFull a line tag tc data poison => exact kept_execWrFull a line tag tc data poison s hk
  | wrPart a line tag tc mask data poison => exact kept_execWrPart a line tag tc mask data poison s hk
  | atomicOp a addr tag tc aop size operand compare => exact kept_execAtomicOp a addr tag tc aop size operand compare s hk
  | evictClean a line tag => exact kept_execEvictClean a line tag s hk
  | evictDirty a line tag data poison => exact kept_execEvictDirty a line tag data poison s hk
  | snpInv site line tag target => exact kept_execSnpInv site line tag target s hk
  | snpShare site line tag target => exact kept_execSnpShare site line tag target s hk
  | snpCur site line tag target => exact kept_execSnpCur site line tag target s hk
  | rspI a line => exact kept_execRspI a line s hk
  | rspS a line => exact kept_execRspS a line s hk
  | rspFwd a line => exact kept_execRspFwd a line s hk
  | cmp site line tag => exact kept_execCmp site line tag s hk
  | cmpE a line tag => exact kept_execCmpE a line tag s hk
  | rspErr a line tag reason => exact kept_execRspErr a line tag reason s hk
  | datC a line tag data poison => exact kept_execDatC a line tag data poison s hk
  | datS a line tag data poison => exact kept_execDatS a line tag data poison s hk
  | datF a line tag data poison => exact kept_execDatF a line tag data poison s hk
  | datWb a line data poison => exact kept_execDatWb a line data poison s hk
  | datCur a line data poison => exact kept_execDatCur a line data poison s hk
  | datWr a line tag mask data poison => exact kept_execDatWr a line tag mask data poison s hk
  | lineQueueResume line => exact kept_execLineQueueResume line s hk
  | snoopTimeout a => exact kept_execSnoopTimeout a s hk
  | dirProbeGo v => exact kept_execDirProbeGo v s hk
  | ucieFlit site module f => exact kept_execUcieFlit site module f s hk
  | ucieNak site module ack => exact kept_execUcieNak site module ack s hk
  | ucieAckFlit site module ack => exact kept_execUcieAckFlit site module ack s hk
  | ucieAckTimer site module => exact kept_execUcieAckTimer site module s hk
  | ucieModuleRetrain site module => exact kept_execUcieModuleRetrain site module s hk
  | ucieRetrainTimeout site module => exact kept_execUcieRetrainTimeout site module s hk
  | sflit site stream f => exact kept_execSflit site stream f s hk
  | scredit site stream n => exact kept_execScredit site stream n s hk
  | sgrant site stream n => exact kept_execSgrant site stream n s hk
  | sunbound site stream n => exact kept_execSunbound site stream n s hk
  | idRsp site w v => exact kept_execIdRsp site w v s hk
  | siteMods site mask => exact kept_execSiteMods site mask s hk
  | pwrReq site vcore power => exact kept_execPwrReq site vcore power s hk
  | pwrAck site gseq => exact kept_execPwrAck site gseq s hk
  | therm site temp => exact kept_execTherm site temp s hk
  | thermTimeout site ms => exact kept_execThermTimeout site ms s hk
  | scrubAck site ok => exact kept_execScrubAck site ok s hk
  | scrubTimeout site => exact kept_execScrubTimeout site s hk
  | chipErr site code => exact kept_execChipErr site code s hk
  | sitePowerAverage site avg => exact kept_execSitePowerAverage site avg s hk
  | siteOverpowerRecheck site avg => exact kept_execSiteOverpowerRecheck site avg s hk
  | syncCountWrite obj v => exact kept_execSyncCountWrite obj v s hk
  | syncAdd obj v => exact kept_execSyncAdd obj v s hk
  | syncTake m obj => exact kept_execSyncTake m obj s hk
  | syncExchange m obj off aop size operand compare => exact kept_execSyncExchange m obj off aop size operand compare s hk
  | notifierAction => exact kept_execNotifierAction s hk
  | notifierActionWrite obj k v => exact kept_execNotifierActionWrite obj k v s hk
  | notifierThreshWrite obj k v => exact kept_execNotifierThreshWrite obj k v s hk
  | putOp port f => exact kept_execPutOp port f s hk
  | getOp port f => exact kept_execGetOp port f s hk
  | tksAtomic port f => exact kept_execTksAtomic port f s hk
  | tksSync port f => exact kept_execTksSync port f s hk
  | red port f => exact kept_execRed port f s hk
  | settGrant port f => exact kept_execSettGrant port f s hk
  | settReturn port f => exact kept_execSettReturn port f s hk
  | settRead port f => exact kept_execSettRead port f s hk
  | settWrite port f => exact kept_execSettWrite port f s hk
  | msg port f => exact kept_execMsg port f s hk
  | echo port f => exact kept_execEcho port f s hk
  | tksResponse port f => exact kept_execTksResponse port f s hk
  | tksForward port f => exact kept_execTksForward port f s hk
  | tksTransitDiscard port => exact kept_execTksTransitDiscard port s hk
  | nak port lack => exact kept_execNak port lack s hk
  | tksAckCreditFrame port lack cr0 cr1 => exact kept_execTksAckCreditFrame port lack cr0 cr1 s hk
  | hello port dev part nbrPort => exact kept_execHello port dev part nbrPort s hk
  | tksAckTimer port => exact kept_execTksAckTimer port s hk
  | tksPortRetrain port => exact kept_execTksPortRetrain port s hk
  | tksRetrainTimeout port => exact kept_execTksRetrainTimeout port s hk
  | tksRequestResend reqid => exact kept_execTksRequestResend reqid s hk
  | tksRequestFail reqid => exact kept_execTksRequestFail reqid s hk
  | tksBusyRetry reqid => exact kept_execTksBusyRetry reqid s hk
  | tksMemoExpiry src reqid => exact kept_execTksMemoExpiry src reqid s hk
  | tksPortStatus q port => exact kept_execTksPortStatus q port s hk
  | tksPortStatusExpert q port lane => exact kept_execTksPortStatusExpert q port lane s hk
  | tksPortReset q port => exact kept_execTksPortReset q port s hk
  | tksPortResetExpert q port hold => exact kept_execTksPortResetExpert q port hold s hk
  | tksRouteProbe q dev => exact kept_execTksRouteProbe q dev s hk
  | tksPing q dev tc count => exact kept_execTksPing q dev tc count s hk
  | tksCreditSet q port => exact kept_execTksCreditSet q port s hk
  | tksCreditSetExpert q port grants => exact kept_execTksCreditSetExpert q port grants s hk
  | memRd hpa metaV tag => exact kept_execMemRd hpa metaV tag s hk
  | memRdData hpa tag => exact kept_execMemRdData hpa tag s hk
  | memWr hpa metaI tag data poison => exact kept_execMemWr hpa metaI tag data poison s hk
  | memWrPtl hpa tag mask data poison => exact kept_execMemWrPtl hpa tag mask data poison s hk
  | memClnEvct hpa tag => exact kept_execMemClnEvct hpa tag s hk
  | memInv hpa tag => exact kept_execMemInv hpa tag s hk
  | biRsp hpa shared => exact kept_execBiRsp hpa shared s hk
  | biConflict hpa => exact kept_execBiConflict hpa s hk
  | h2dSnoop hpa tag => exact kept_execH2dSnoop hpa tag s hk
  | cxlIoMemAccess bar off n op => exact kept_execCxlIoMemAccess bar off n op s hk
  | cxlAtomicOp bar off => exact kept_execCxlAtomicOp bar off s hk
  | cxlD2hResponse id data poison => exact kept_execCxlD2hResponse id data poison s hk
  | cacheWritebackInvalidate => exact kept_execCacheWritebackInvalidate s hk
  | hdmDecoderCommit base size ways => exact kept_execHdmDecoderCommit base size ways s hk
  | msixUnmask vec => exact kept_execMsixUnmask vec s hk
  | flr => exact kept_execFlr s hk
  | cxlLinkUp width rate => exact kept_execCxlLinkUp width rate s hk
  | cxlLinkDown refLost => exact kept_execCxlLinkDown refLost s hk
  | hostWindowWrite k v => exact kept_execHostWindowWrite k v s hk
  | mailboxDoorbell m v => exact kept_execMailboxDoorbell m v s hk
  | axotteMgmtMessage session cmd flags len tag seq => exact kept_execAxotteMgmtMessage session cmd flags len tag seq s hk
  | mgmtSessionEnd session => exact kept_execMgmtSessionEnd session s hk
  | lockstepMismatch sinceRestartUs => exact kept_execLockstepMismatch sinceRestartUs s hk
  | stewardRestartComplete => exact kept_execStewardRestartComplete s hk
  | fsig core rs1 rs2 => exact kept_execFsig core rs1 rs2 s hk
  | fwait core rd rs1 rs2 => exact kept_execFwait core rd rs1 rs2 s hk
  | firqRead core rd => exact kept_execFirqRead core rd s hk
  | svcCoreAccess core rd pa n op lrsc => exact kept_execSvcCoreAccess core rd pa n op lrsc s hk
  | svcFwLoad q image size => exact kept_execSvcFwLoad q image size s hk
  | svcStart q base size arg => exact kept_execSvcStart q base size arg s hk
  | svcStartExpert q base size arg mask entries => exact kept_execSvcStartExpert q base size arg mask entries s hk
  | svcStop q => exact kept_execSvcStop q s hk
  | svcQueueSet q queue base slots obj => exact kept_execSvcQueueSet q queue base slots obj s hk
  | svcQueueSetExpert q queue base slots obj slotCode egress => exact kept_execSvcQueueSetExpert q queue base slots obj slotCode egress s hk
  | svcStatus q => exact kept_execSvcStatus q s hk
  | egressTailWrite e v => exact kept_execEgressTailWrite e v s hk
  | egressSend e => exact kept_execEgressSend e s hk
  | servingStep => exact kept_execServingStep s hk
  | servingAdmission r => exact kept_execServingAdmission r s hk
  | servingAdmissionTimeout id => exact kept_execServingAdmissionTimeout id s hk
  | regWindowUpdate half level demand => exact kept_execRegWindowUpdate half level demand s hk
  | benchPoolDivide demand => exact kept_execBenchPoolDivide demand s hk
  | benchGovernor bench staticTok dynTok => exact kept_execBenchGovernor bench staticTok dynTok s hk
  | estimatorCalibration hubMw => exact kept_execEstimatorCalibration hubMw s hk
  | benchThermalGovernor bench sinceRaiseMs => exact kept_execBenchThermalGovernor bench sinceRaiseMs s hk
  | sensorDiverge bench ms => exact kept_execSensorDiverge bench ms s hk
  | gradientCheck a b mvA mvB => exact kept_execGradientCheck a b mvA mvB s hk
  | gradientEscalate a b mvA mvB => exact kept_execGradientEscalate a b mvA mvB s hk
  | ageMonitorRead dom slack => exact kept_execAgeMonitorRead dom slack s hk
  | serviceHourTick => exact kept_execServiceHourTick s hk
  | replanLoweringVerify => exact kept_execReplanLoweringVerify s hk
  | telemetryRecord => exact kept_execTelemetryRecord s hk
  | telRead q mask => exact kept_execTelRead q mask s hk
  | telStreamSet q ring k period => exact kept_execTelStreamSet q ring k period s hk
  | telStreamSetExpert q ring k period mask tc => exact kept_execTelStreamSetExpert q ring k period mask tc s hk
  | benchIdle bench us => exact kept_execBenchIdle bench us s hk
  | prbRead q first count => exact kept_execPrbRead q first count s hk
  | prbWrite q first vals => exact kept_execPrbWrite q first vals s hk
  | prbWear q => exact kept_execPrbWear q s hk
  | prbRwpWrite w v => exact kept_execPrbRwpWrite w v s hk
  | prbWriteComplete => exact kept_execPrbWriteComplete s hk
  | diagLogRead q first count => exact kept_execDiagLogRead q first count s hk
  | diagBistRun q kind unit => exact kept_execDiagBistRun q kind unit s hk
  | diagBistRunExpert q kind unit bg elems lo hi patterns seed stop => exact kept_execDiagBistRunExpert q kind unit bg elems lo hi patterns seed stop s hk
  | diagBistComplete run fails => exact kept_execDiagBistComplete run fails s hk
  | diagBistResult q run => exact kept_execDiagBistResult q run s hk
  | diagSafetyStatus q => exact kept_execDiagSafetyStatus q s hk
  | diagFaultInject q code => exact kept_execDiagFaultInject q code s hk
  | diagFaultInjectExpert q code unit => exact kept_execDiagFaultInjectExpert q code unit s hk
  | benchSensorRead bench t0 t1 => exact kept_execBenchSensorRead bench t0 t1 s hk
  | sensorRefreshTimeout bench sensor => exact kept_execSensorRefreshTimeout bench sensor s hk
  | benchCoolExit bench belowMs => exact kept_execBenchCoolExit bench belowMs s hk
  | flowOkSample level => exact kept_execFlowOkSample level s hk
  | datapathRetest t pass => exact kept_execDatapathRetest t pass s hk
  | onlineBistRound round fails => exact kept_execOnlineBistRound round fails s hk
  | watchdogExpiry kind unit idx ms => exact kept_execWatchdogExpiry kind unit idx ms s hk
  | heartbeatTick => exact kept_execHeartbeatTick s hk
  | coolLeak level => exact kept_execCoolLeak level s hk
  | coolantThermistorRead inlet outlet => exact kept_execCoolantThermistorRead inlet outlet s hk
  | secHandover q => exact kept_execSecHandover q s hk
  | secHandoverExpert q cycle drop part => exact kept_execSecHandoverExpert q cycle drop part s hk
  | secLcTransition q target serial token => exact kept_execSecLcTransition q target serial token s hk
  | lcBurnSupplyTimeout => exact kept_execLcBurnSupplyTimeout s hk
  | secKeyProvision q slot salt => exact kept_execSecKeyProvision q slot salt s hk
  | secEpochRotate q => exact kept_execSecEpochRotate q s hk
  | secTrustSet q item prov => exact kept_execSecTrustSet q item prov s hk
  | secDeviceSet q dev => exact kept_execSecDeviceSet q dev s hk
  | secRouteWrite q table first entries => exact kept_execSecRouteWrite q table first entries s hk
  | secFwUpdate q image size => exact kept_execSecFwUpdate q image size s hk
  | secFwUpdateExpert q image size now => exact kept_execSecFwUpdateExpert q image size now s hk
  | secDebugOpen q token => exact kept_execSecDebugOpen q token s hk
  | secLibraryLoad q image size => exact kept_execSecLibraryLoad q image size s hk
  | secLibraryLoadExpert q image size base => exact kept_execSecLibraryLoadExpert q image size base s hk
  | secPartitionSet q tagv => exact kept_execSecPartitionSet q tagv s hk
  | secStatus q => exact kept_execSecStatus q s hk
  | getVersion port => exact kept_execGetVersion port s hk
  | getCapabilities port => exact kept_execGetCapabilities port s hk
  | negotiateAlgorithms port offered => exact kept_execNegotiateAlgorithms port offered s hk
  | getDigests port => exact kept_execGetDigests port s hk
  | getCertificate port slot off len => exact kept_execGetCertificate port slot off len s hk
  | challenge port slot => exact kept_execChallenge port slot s hk
  | getMeasurements port index slot signed => exact kept_execGetMeasurements port index slot signed s hk
  | measurementHoldTimeout port => exact kept_execMeasurementHoldTimeout port s hk
  | chunkSend port handle last data => exact kept_execChunkSend port handle last data s hk
  | chunkGet port handle idx => exact kept_execChunkGet port handle idx s hk
  | keyExchange port session => exact kept_execKeyExchange port session s hk
  | finish port session rootDigest ok => exact kept_execFinish port session rootDigest ok s hk
  | heartbeat port session => exact kept_execHeartbeat port session s hk
  | keyUpdate port session op => exact kept_execKeyUpdate port session op s hk
  | getEncapsulatedRequest port session => exact kept_execGetEncapsulatedRequest port session s hk
  | deliverEncapsulatedResponse port session chain => exact kept_execDeliverEncapsulatedResponse port session chain s hk
  | endSession port session => exact kept_execEndSession port session s hk
  | getCsr port session slot => exact kept_execGetCsr port session slot s hk
  | setCertificate port session slot chain => exact kept_execSetCertificate port session slot chain s hk
  | spdmUnsupportedRequest port code => exact kept_execSpdmUnsupportedRequest port code s hk
  | moduleResetRelease perst straps => exact kept_execModuleResetRelease perst straps s hk
  | hubResetComplete => exact kept_execHubResetComplete s hk
  | configurationRequest write reg v => exact kept_execConfigurationRequest write reg v s hk
  | tksDiscardedFrame port f => exact kept_execTksDiscardedFrame port f s hk
  | tksRetrainComplete port => exact kept_execTksRetrainComplete port s hk
  | ucieRetrainComplete site module => exact kept_execUcieRetrainComplete site module s hk
  | ucieSidebandFailure site module => exact kept_execUcieSidebandFailure site module s hk
  | replanRestart => exact kept_execReplanRestart s hk
  | bistRoundRestart => exact kept_execBistRoundRestart s hk

/-- So does every step, of the queue without its front. -/
theorem kept_step {p : Base} {s : State} (hq : p.1 = s.pending.tail) (hm : p.2 → s.mem.wf = true) (hr : p.2 → risingFrom none s.regs = true) : KeptX p (step s) := by
  unfold step
  split
  case h_1 c cs e =>
    exact kept_exec c { s with pending := cs } ⟨by rw [hq, e]; rfl, hm, hr⟩
  case h_2 e =>
    exact keptX_next (kept_tick s ⟨by rw [hq, e]; rfl, hm, hr⟩)

/-- Settles O4: what every step keeps, with the canonical form not asked for. -/
theorem queueUntouched : Obligations.QueueUntouched := by
  intro s t e
  exact (kept_step (p := (s.pending.tail, False)) rfl False.elim False.elim t e).1

/-- Settles O5: the same, with the canonical form asked for. -/
theorem keepsCanonicalForm : Obligations.KeepsCanonicalForm := by
  intro s t hm hr e
  obtain ⟨_, hm', hr'⟩ := kept_step (p := (s.pending.tail, True)) rfl (fun _ => hm) (fun _ => hr) t e
  exact ⟨hm' trivial, hr' trivial⟩

/-! ### The step and reset -/

theorem step_cons {s : State} {c : Instr} {cs : List Instr} (h : s.pending = c :: cs) : step s = exec c { s with pending := cs } := by
  simp only [step, h]

theorem step_nil {s : State} (h : s.pending = []) : step s = .next s.tick := by
  simp only [step, h]

/-- Settles O1. -/
theorem stepRunsFront : Obligations.StepRunsFront := by
  unfold Obligations.StepRunsFront
  refine ⟨fun s c cs h => step_cons h, fun s h hp => ?idle, fun s h hp => ?stopped⟩
  case idle =>
    have ht : s.tick = s.set R.hubTimeCount (s.get R.hubTimeCount + 1) := if_pos hp
    refine ⟨s.tick, step_nil h, ?_, fun r hr => ?_, ?_⟩
    · rw [ht, get_set_self, BitVec.toNat_add]; rfl
    · rw [ht, get_set_off hr]
    · rw [ht]; rfl
  case stopped =>
    rw [step_nil h]
    exact congrArg _ (if_neg (by rw [hp]; decide))

/-- Settles O2. -/
theorem resetState : Obligations.ResetState := by
  unfold Obligations.ResetState
  have hget (r : Reg) : State.reset.get r = BitVec.ofNat 64 r.rst := rfl
  have hfget (r : Reg) (hi lo : Nat) : State.reset.fget r hi lo = fld (BitVec.ofNat 64 r.rst) hi lo := rfl
  refine ⟨rfl, rfl, rfl, rfl, hget, fun _ => rfl, fun t r => ?_, fun _ _ _ => rfl, fun _ _ _ _ => rfl, rfl, fun m => ?_, ?_, ?_, fun b => ?_, fun r => ?_⟩
  · unfold State.sr; split <;> rfl
  · rw [hfget, show (R.mbxStatus m).rst = 0 from rfl]; decide
  · rw [hget]; rfl
  · rw [hget]; rfl
  · rw [hget]; rfl
  · rw [hfget, show (R.regPartC0 r).rst = 0x4000800080 from rfl]; decide

end Sys2Proof.Machine
end

section
/-! How a command that is taken ends (chapter 15): one rule for each answer of its own checks. -/

namespace Sys2Proof.Machine

open Sys2Proof.Spec

section
variable {s u : State} {q : Req} {cmd : Nat} {i : Instr} {body : State → AxR}

/-- What a taken command does is what its own checks and effect come to in the state in which it executes. -/
theorem exec_begins (h : Begins s q cmd u) (hx : exec i s = run (mbxOk q) (axotte s q cmd body)) :
    exec i s = .next (axTakeUp q.mbx (hdr q cmd) (body u)) := hx.trans (run_begins body h)

theorem exec_done {t : State} {d : Nat} {p : List Byte} (h : Begins s q cmd u) (hb : body u = .done t d p)
    (hx : exec i s = run (mbxOk q) (axotte s q cmd body)) : exec i s = done t q cmd d p := by
  rw [exec_begins h hx, hb]; rfl

theorem exec_refuse {t : State} {d : Nat} (h : Begins s q cmd u) (hb : body u = refuse t d)
    (hx : exec i s = run (mbxOk q) (axotte s q cmd body)) : exec i s = refused t q cmd d := by
  rw [exec_begins h hx, hb]; rfl

theorem exec_fail {t : State} {st d : Nat} (h : Begins s q cmd u) (hb : body u = .fail t st d)
    (hx : exec i s = run (mbxOk q) (axotte s q cmd body)) : exec i s = .next (t.axEnd q.mbx (hdr q cmd) st d []) := by
  rw [exec_begins h hx, hb]; rfl

theorem exec_refuseWith {t : State} {d : Nat} {p : List Byte} (h : Begins s q cmd u) (hb : body u = .refuse t d p)
    (hx : exec i s = run (mbxOk q) (axotte s q cmd body)) : exec i s = .next (t.axEnd q.mbx (hdr q cmd) 4 d p) := by
  rw [exec_begins h hx, hb]; rfl

theorem exec_wait {t : State} (h : Begins s q cmd u) (hb : body u = .wait t)
    (hx : exec i s = run (mbxOk q) (axotte s q cmd body)) : exec i s = .next t := by
  rw [exec_begins h hx, hb]; rfl

theorem exec_again {t : State} {us : Nat} (h : Begins s q cmd u) (hb : body u = .again t us)
    (hx : exec i s = run (mbxOk q) (axotte s q cmd body)) : exec i s = .next (t.axEndR q.mbx (hdr q cmd) 3 0 us []) := by
  rw [exec_begins h hx, hb]; rfl

theorem exec_hold {t : State} (h : Begins s q cmd u) (hb : body u = .hold t)
    (hx : exec i s = run (mbxOk q) (axotte s q cmd body)) : exec i s = .next (t.setBox q.mbx { t.box q.mbx with begun := false }) := by
  rw [exec_begins h hx, hb]; rfl

end

/-- A row whose unit exists goes on. -/
theorem run_of {b : Bool} {t : State} (h : b = true) : run b t = .next t := by rw [h]; rfl

/-- The same, with the next state by another name. -/
theorem run_eq {b : Bool} {t t' : State} (h : b = true) (e : t = t') : run b t = .next t' := by rw [run_of h, e]

/-! ### Fields of registers -/

theorem bget_fset_off {s : State} {r : Reg} {hi lo x i : Nat} (h : hi < 64) (hl : lo ≤ hi) (ho : i < lo ∨ hi < i) :
    (s.fset r hi lo x).bget r i = s.bget r i := by
  unfold State.bget; rw [fget_fset_off h hl (Nat.le_refl i) ho]

theorem bget_bset {s : State} {r : Reg} {i : Nat} {b : Bool} (h : i < 64) : (s.bset r i b).bget r i = b := by
  unfold State.bget State.bset
  rw [fget_fset h (Nat.le_refl i), Nat.add_sub_cancel_left]
  cases b <;> rfl

theorem bget_bset_off {s : State} {r : Reg} {i j : Nat} {b : Bool} (h : i < 64) (hj : j ≠ i) : (s.bset r i b).bget r j = s.bget r j :=
  bget_fset_off h (Nat.le_refl i) (by omega)

theorem bget_bset_other {s : State} {r y : Reg} {i j : Nat} {b : Bool} (h : y.addr ≠ r.addr) : (s.bset r i b).bget y j = s.bget y j :=
  bget_fset_other h

/-! ### Folds -/

/-- A fold in which one element of the list acts. -/
theorem foldl_only {σ α : Type} {f : σ → α → σ} {l : List α} {a : α} {s : σ} (hn : l.Nodup) (ha : a ∈ l)
    (hid : ∀ x ∈ l, x ≠ a → ∀ t, f t x = t) : l.foldl f s = f s a := by
  have idle {l : List α} {t : σ} (h : ∀ x ∈ l, x ≠ a → ∀ t, f t x = t) (hno : a ∉ l) : l.foldl f t = t := by
    induction l generalizing t with
    | nil => rfl
    | cons b l ih =>
      rw [List.foldl_cons, h b List.mem_cons_self fun e => hno (e ▸ List.mem_cons_self)]
      exact ih (fun x hx => h x (List.mem_cons_of_mem _ hx)) fun hm => hno (List.mem_cons_of_mem _ hm)
  induction l generalizing s with
  | nil => cases ha
  | cons b l ih =>
    obtain ⟨hb, hl⟩ := List.nodup_cons.1 hn
    have htail := fun x hx => hid x (List.mem_cons_of_mem b hx)
    rw [List.foldl_cons]
    by_cases e : b = a
    · subst e; exact idle htail hb
    · rw [hid b List.mem_cons_self e]
      exact ih hl ((List.mem_cons.1 ha).resolve_left fun h => e h.symm) htail

end Sys2Proof.Machine
end

section
/-! Bring-up (chapter 18): what its commands end with, and what its steps and the events of power do. -/

namespace Sys2Proof.Machine

open Sys2Proof.Spec

/-! ### Releasing a step (R392) -/

theorem nbit_two_pow (n k : Nat) : nbit (2 ^ n) k = decide (n = k) := Nat.testBit_two_pow ..

/-- The basic form takes the first step not yet released, where it stands alone. -/
theorem basicSteps_eq {s : State} {n : Nat} (hn : n ∈ [1, 2, 3, 4, 9, 10]) (hlow : ∀ k, 1 ≤ k → k < n → s.stepGone k = true)
    (hgone : s.stepGone n = false) : s.basicSteps = 2 ^ n := by
  have hfind : ((List.range 10).map (· + 1)).find? (fun k => !s.stepGone k) = some n := by
    simp only [List.mem_cons, List.not_mem_nil, or_false] at hn
    rcases hn with rfl | rfl | rfl | rfl | rfl | rfl <;> simp [List.range, List.range.loop, hgone, hlow]
  have hout : ¬ (5 ≤ n ∧ n ≤ 8) := by
    simp only [List.mem_cons, List.not_mem_nil, or_false] at hn
    omega
  simp only [State.basicSteps, hfind, if_neg hout]

theorem newSteps_eq {s : State} {n : Nat} (hn : n ≤ 10) (hgone : s.stepGone n = false) :
    (List.range 11).filter (fun k => nbit (2 ^ n) k && !s.stepGone k) = [n] := by
  have hone : ∀ k ∈ List.range 11, (nbit (2 ^ n) k && !s.stepGone k) = (k == n) := by
    intro k _
    rw [nbit_two_pow]
    by_cases e : n = k
    · subst e; simp [hgone]
    · have e' : ¬ k = n := fun h => e h.symm
      simp [e, e']
  rw [List.filter_congr hone]
  interval_cases n <;> rfl

/-- One step asked for, not yet released: released and awaited, or refused. -/
theorem stepGoCmd_one {s : State} {m n : Nat} (hn : n ≤ 10) (hgone : s.stepGone n = false) :
    s.stepGoCmd m (2 ^ n) = match s.stepStop n with
      | some d => refuse s d
      | none => if (s.stepRelease n).stepsOver (2 ^ n) then .done (s.stepRelease n) 0 (s.stepRelease n).stepWords
        else .wait (awaiting (s.stepRelease n) m (2 ^ n)) := by
  unfold State.stepGoCmd
  simp only [newSteps_eq hn hgone, List.findSome?_cons, List.findSome?_nil]
  cases s.stepStop n <;> rfl

/-- A command whose own part releases one step. -/
theorem exec_stepGo {s u : State} {q : Req} {cmd n : Nat} {i : Instr} {body : State → AxR} (h : Begins s q cmd u)
    (hb : body u = u.stepGoCmd q.mbx (2 ^ n)) (hx : exec i s = run (mbxOk q) (axotte s q cmd body)) (hn : n ≤ 10)
    (hgone : u.stepGone n = false) (hstop : u.stepStop n = none) :
    exec i s = if (u.stepRelease n).stepsOver (2 ^ n) then done (u.stepRelease n) q cmd 0 (u.stepRelease n).stepWords
      else .next (awaiting (u.stepRelease n) q.mbx (2 ^ n)) := by
  rw [exec_begins h hx, hb, stepGoCmd_one hn hgone, hstop]
  dsimp only
  split <;> rfl

/-- The mask of one step is one that the expert form takes. -/
theorem stepMask_ok {n : Nat} (h1 : 1 ≤ n) (hn : n ≤ 10) : ¬ (2 ^ n = 0 ∨ 2 ^ n % 2 = 1 ∨ 2048 ≤ 2 ^ n) := by
  interval_cases n <;> decide

/-- A write of one step's bit acts on that step alone. -/
theorem stepGoWr_one {s : State} {n : Nat} (h1 : 1 ≤ n) (hn : n ≤ 10) (hgone : s.stepGone n = false) :
    s.stepGoWr (BitVec.ofNat 32 (2 ^ n)) = match s.stepStop n with
      | none => s.stepRelease n
      | some d => if d = dState then s else s.bset R.stwBootStatus 28 true := by
  have hv : (BitVec.ofNat 32 (2 ^ n)).toNat = 2 ^ n := by interval_cases n <;> rfl
  unfold State.stepGoWr
  rw [hv, foldl_only (a := n) (by decide) (by interval_cases n <;> decide)]
  · simp only [nbit_two_pow, hgone, decide_true, Bool.not_true, Bool.or_false, Bool.false_eq_true, if_false] <;> cases s.stepStop n <;> rfl
  · intro x _ hx t
    have e : ¬ n = x := fun h => hx h.symm
    simp only [nbit_two_pow, e, decide_false, Bool.not_false, Bool.true_or, if_true]

theorem exec_stepGoWrite {s : State} {v : W32} (hp : s.powered = true) (hr : s.bget R.stwStatus 31 = true) :
    exec (.stepGoWrite v) s = .next (s.stepGoWr v) := congrArg Host.Outcome.next (if_pos (by rw [hp, hr]; rfl))

/-! ### What a step does (Table 18-1) -/

/-- A released step that has met its condition has its effect, its bit in step_done, and after step 10 the measurements. -/
theorem stepComplete_eq {s : State} {n : Nat} {r : StepRes} (h1 : 1 ≤ n) (hn : n ≤ 10) (hp : s.powered = true) (hr : s.bget R.stwStatus 31 = true)
    (hh : s.rst.hub = false) (hg : s.stepGone n = true) (hd : s.stepDoneB n = false) (hf : s.stepFailed n = false)
    (h2 : n = 2 → r.obNorth = s.get (R.hubIdOb 0) ∧ r.obSouth = s.get (R.hubIdOb 1)) (h6 : n = 6 → s.sitesSettled = true)
    (h7 : n = 7 → s.portsSettled = true) :
    ∃ u, stepEffect s n r = some u ∧ s.stepComplete n r = if n = 10 then (u.stepDone n r.durUs).measDone else u.stepDone n r.durUs := by
  have hgo : (!s.powered || !s.bget R.stwStatus 31 || s.rst.hub || !s.stepGone n || s.stepDoneB n || s.stepFailed n) = false := by
    rw [hp, hr, hh, hg, hd, hf]; rfl
  unfold State.stepComplete
  simp only [hgo, Bool.false_eq_true, if_false]
  have hcase : n = 1 ∨ n = 2 ∨ n = 3 ∨ n = 4 ∨ n = 5 ∨ n = 6 ∨ n = 7 ∨ n = 8 ∨ n = 9 ∨ n = 10 := by omega
  rcases hcase with rfl | rfl | rfl | rfl | rfl | rfl | rfl | rfl | rfl | rfl
  case inr.inl => exact ⟨_, rfl, if_pos (h2 rfl)⟩
  case inr.inr.inr.inr.inr.inl => exact ⟨_, rfl, if_pos (h6 rfl)⟩
  case inr.inr.inr.inr.inr.inr.inl => exact ⟨_, rfl, if_pos (h7 rfl)⟩
  all_goals exact ⟨_, rfl, rfl⟩

/-- Step 2 fails where the OB serials found are not those of the fuses. -/
theorem stepComplete_serials {s : State} {r : StepRes} (hp : s.powered = true) (hr : s.bget R.stwStatus 31 = true) (hh : s.rst.hub = false)
    (hg : s.stepGone 2 = true) (hd : s.stepDoneB 2 = false) (hf : s.stepFailed 2 = false)
    (hob : ¬ (r.obNorth = s.get (R.hubIdOb 0) ∧ r.obSouth = s.get (R.hubIdOb 1))) : s.stepComplete 2 r = s.stepFail 2 := by
  have hgo : (!s.powered || !s.bget R.stwStatus 31 || s.rst.hub || !s.stepGone 2 || s.stepDoneB 2 || s.stepFailed 2) = false := by
    rw [hp, hr, hh, hg, hd, hf]; rfl
  unfold State.stepComplete
  simp only [hgo, Bool.false_eq_true, if_false]
  exact if_neg hob

/-- A step that fails at its time: every one but 5 to 8. -/
theorem stepLate_fails {s : State} {n : Nat} (hn : n ∈ [1, 2, 3, 4, 9, 10]) (hp : s.powered = true) (hg : s.stepGone n = true)
    (hd : s.stepDoneB n = false) (hf : s.stepFailed n = false) : s.stepLate n = s.stepFail n := by
  have hgo : (!s.powered || !s.stepGone n || s.stepDoneB n || s.stepFailed n) = false := by rw [hp, hg, hd, hf]; rfl
  simp only [List.mem_cons, List.not_mem_nil, or_false] at hn
  unfold State.stepLate
  rw [if_neg (by rw [hgo]; decide), if_neg (by omega), if_neg (by omega), if_neg (by omega)]

/-! ### Power -/

theorem powerDown_on {s : State} {c : Nat} {ds : List Nat} (hp : s.powered = true) : s.powerDown c ds = (s.log' 0 3 c ds).powerOff := if_pos hp

/-- Settles O13. -/
theorem bringUp : Obligations.BringUp := by
  unfold Obligations.BringUp
  refine ⟨⟨fun s q u h => exec_done h rfl rfl, fun s q u h hd => exec_done h (if_pos hd) rfl, ?_, ?_, ?_, ?_, ?_, ?_, ?_⟩, ?_, ?_, ?_, ?_, ?_, ?_, ?_, ?_, ?_, ?_,
    ?_, ?_, ?_, ?_, ?_, ?_⟩
  · exact fun s q u h hd => exec_refuse h (if_neg (by rw [State.stepDoneB, hd]; decide)) rfl
  · exact fun s q w u h h2 hw => exec_done h ((if_neg (not_not.2 h2)).trans (if_neg (not_not.2 hw))) rfl
  · exact fun s q w u h h2 hw => exec_refuse h ((if_neg (not_not.2 h2)).trans (if_pos hw)) rfl
  · exact fun s q w u h h2 => exec_refuse h (if_pos h2) rfl
  · intro s q u n h hn hlow hgone hstop
    have hle : n ≤ 10 := by simp only [List.mem_cons, List.not_mem_nil, or_false] at hn; omega
    exact exec_stepGo h (congrArg _ (basicSteps_eq hn hlow hgone)) rfl hle hgone hstop
  · exact fun s q u n h h1 hn hgone hstop => exec_stepGo h (if_neg (stepMask_ok h1 hn)) rfl hn hgone hstop
  · intro s q u n h h1 hn hgone hstop
    refine exec_refuse h ((if_neg (stepMask_ok h1 hn)).trans ?_) rfl
    rw [stepGoCmd_one hn hgone, hstop]
  · intro s n h1 hn hp hr hgone hstop
    rw [exec_stepGoWrite hp hr, stepGoWr_one h1 hn hgone, hstop]
  · intro s n h1 hn hp hr hgone hstop
    rw [exec_stepGoWrite hp hr, stepGoWr_one h1 hn hgone, hstop]
    rfl
  · intro s n r h1 hn hp hr hh hg hd hf h2 h6 h7
    obtain ⟨u, hu, e⟩ := stepComplete_eq h1 hn hp hr hh hg hd hf h2 h6 h7
    exact ⟨u, hu, run_eq (by simp [h1, hn]) e⟩
  · exact fun s r hp hr hh hg hd hf hob => run_eq rfl (stepComplete_serials hp hr hh hg hd hf hob)
  · intro s n hn hp hg hd hf
    refine run_eq ?_ (stepLate_fails hn hp hg hd hf)
    simp only [List.mem_cons, List.not_mem_nil, or_false] at hn
    rw [Bool.and_eq_true, decide_eq_true_eq, decide_eq_true_eq]; omega
  · intro s vin straps hp hv
    refine congrArg Host.Outcome.next ?_
    have hgo : (s.powered || !true || decide (vin < 4600)) = false := by simp [hp, hv]
    simp only [State.powerOn, hgo]
    rfl
  · intro s p us hp hus hm hb
    refine congrArg Host.Outcome.next ?_
    have hgo : (!s.powered || decide (us < 100)) = false := by simp [hp, hus]
    simp only [State.moduleReset, hgo, hm, hb]
    rfl
  · intro s p straps hp hm hother
    refine congrArg Host.Outcome.next ?_
    have hgo : (s.powered && s.modReset && !(s.rst.perst && !p) && !(s.rst.modRst && p)) = true := by
      cases p <;> simp_all
    exact if_pos hgo
  · exact fun s c hp => congrArg Host.Outcome.next (powerDown_on hp)
  · exact fun s i hp hi => congrArg Host.Outcome.next ((if_pos hi).trans (powerDown_on hp))
  · exact fun s v us hp hv hus => congrArg Host.Outcome.next ((if_pos ⟨hv, hus⟩).trans (powerDown_on hp))
  · intro s hp ha hm hc
    refine congrArg Host.Outcome.next ?_
    simp [State.lockLoss, hp, ha, hm, hc]
  · exact fun s hs => congrArg Host.Outcome.next (if_pos hs)
  · exact fun s hh => congrArg Host.Outcome.next (if_pos hh)
  · intro s us hp hus
    refine congrArg Host.Outcome.next ((if_pos hp).trans ?_)
    simp [State.holdup, hus]
  · intro s us hp hus
    refine congrArg Host.Outcome.next ((if_pos hp).trans ?_)
    have hmin : min us 65535 = us := by omega
    simp [State.holdup, hus, Nat.not_le.2 hus, hmin]

end Sys2Proof.Machine
end

section
/-! Resets and power states (chapter 20): the region reset, the change of state, the exit of Sleep. -/

namespace Sys2Proof.Machine

open Sys2Proof.Spec

/-! ### Region resets (R431) -/

section
variable {s : State} {m d : Nat} {hold rel : Bool}

/-- What stands before a region reset's own domain: a domain of the module, not a fixed one, on a device that is not resetting, awake, with its tiles on. -/
theorem rstRegion_open (hd : d < 96) (hfix : domFixed d = false) (hr : s.resetting m = false) (ha : s.asleep = false)
    (ht : d < 68 → s.fget R.stwPstate 31 30 ≠ 1) :
    s.rstRegion m d hold rel = if s.rst.held.contains d then
        if !rel then refuse s dState
        else if 76 ≤ d ∧ d < 84 then { s with rst := { s.rst with held := sDel s.rst.held d } }.siteResetCmd m (d - 76) true false
        else .done (s.regionRelease d) 0 []
      else if 76 ≤ d ∧ d < 84 then
        match s.siteResetCmd m (d - 76) true false with
        | .wait s => .wait (if hold then { s with rst := { s.rst with held := sIns s.rst.held d } }.siteHold (d - 76) 0 12 true else s)
        | r => r
      else if !s.bget (R.pwrDomStatus d) 31 then refuse s dPowerState
      else if 68 ≤ d ∧ d < 70 ∧ s.ssJob.isSome then busy s
      else .wait (s.regionGo d (some m) hold) := by
  have hoff : (s.asleep || (decide (d < 68) && s.fget R.stwPstate 31 30 == 1)) = false := by
    rw [ha, Bool.false_or, Bool.and_eq_false_imp]
    intro h
    exact beq_eq_false_iff_ne.2 (ht (of_decide_eq_true h))
  unfold State.rstRegion
  rw [if_neg (by omega), hfix, hr, hoff]
  rfl

/-- A powered domain that no command holds and no site owns begins its reset. -/
theorem rstRegion_goes (hd : d < 96) (hfix : domFixed d = false) (hsite : ¬ (76 ≤ d ∧ d < 84)) (hr : s.resetting m = false) (ha : s.asleep = false)
    (ht : d < 68 → s.fget R.stwPstate 31 30 ≠ 1) (hheld : d ∉ s.rst.held) (hon : s.bget (R.pwrDomStatus d) 31 = true)
    (hjob : 68 ≤ d → d < 70 → s.ssJob = none) : s.rstRegion m d hold rel = .wait (s.regionGo d (some m) hold) := by
  have hno : ¬ (68 ≤ d ∧ d < 70 ∧ s.ssJob.isSome = true) := by
    rintro ⟨h1, h2, h3⟩
    rw [hjob h1 h2] at h3
    cases h3
  rw [rstRegion_open hd hfix hr ha ht, if_neg (by simpa using hheld), if_neg hsite, if_neg (by rw [hon]; decide), if_neg hno]

theorem rstRegion_releases (hd : d < 96) (hfix : domFixed d = false) (hsite : ¬ (76 ≤ d ∧ d < 84)) (hr : s.resetting m = false) (ha : s.asleep = false)
    (ht : d < 68 → s.fget R.stwPstate 31 30 ≠ 1) (hheld : d ∈ s.rst.held) : s.rstRegion m d hold true = .done (s.regionRelease d) 0 [] := by
  rw [rstRegion_open hd hfix hr ha ht, if_pos (by simpa using hheld), if_neg (by decide), if_neg hsite]

theorem rstRegion_fixed (hd : d < 96) (hfix : domFixed d = true) : s.rstRegion m d hold rel = refuse s dDomainFixed := by
  unfold State.rstRegion
  rw [if_neg (by omega), if_pos hfix]

end

/-- The end of the reset of a domain that is neither a bench nor a half of the state store. -/
theorem regionDone_other {s : State} {d m : Nat} (h : tget s.rst.region d = some (some m, false)) (hd : 70 ≤ d) :
    s.regionDone d = ((State.regionOut { s with rst := { s.rst with region := tdel s.rst.region d } } d).axFinish m 0 0 []).heldFlush := by
  have h1 : ¬ d < 68 := by omega
  have h2 : ¬ d < 70 := by omega
  simp only [State.regionDone, h, h1, h2, false_and, and_false, if_false, Bool.false_eq_true]

/-- The end of the reset of a bench. -/
theorem regionDone_bench {s : State} {d m : Nat} (h : tget s.rst.region d = some (some m, false)) (hd : d < 68) :
    s.regionDone d = (((State.bistDrop { s with rst := { s.rst with region := tdel s.rst.region d } } d).regionOut d).axFinish m 0 0 []).heldFlush := by
  have h1 : ¬ 68 ≤ d := by omega
  simp only [State.regionDone, h, h1, hd, false_and, if_true, if_false, Bool.false_eq_true]

/-! ### Changes of state (R434 to R438) -/

/-- A change that has just been asked for of an awake device, and whose conditions are met, is made at once. -/
theorem changePoll_go {s : State} {c : PChange} (hc : s.rst.change = some c) (ha : s.asleep = false) (hg : c.going = false) (ho : s.changeOk c = true) :
    s.changePoll = s.changeGo c := by
  simp only [State.changePoll, hc, ha, hg, ho, Bool.false_eq_true, if_false, if_true]

/-- A change to Drowse or to Active of an awake device. -/
theorem pwrState_light {s : State} {m save : Nat} {target : PState} {w : Bool} (hr : s.resetting m = false) (ha : s.asleep = false) (ht : target ≠ .sleep)
    (ho : s.changeOk { mbx := m, target := target, save := save, wakeOff := w } = true) :
    s.pwrState m target save w = .wait (State.changeGo { s with rst := { s.rst with change := some { mbx := m, target := target, save := save, wakeOff := w } } }
      { mbx := m, target := target, save := save, wakeOff := w }) := by
  unfold State.pwrState
  rw [if_neg (by rw [hr]; decide), if_neg (by rw [ha]; decide), if_neg fun h => ht h.1, if_neg fun h => ht h.1]
  refine congrArg AxR.wait (changePoll_go rfl ha rfl ?_)
  cases target
  all_goals exact ho

/-- A change to Sleep with a save area in HBM and no lockstep fault. -/
theorem pwrState_sleep {s : State} {m save : Nat} {w : Bool} (hr : s.resetting m = false) (ha : s.asleep = false) (h0 : save % 0x100000 = 0)
    (h1 : s.hbmBacked save = true) (h2 : s.hbmBacked (save + 0xFFFFF) = true) (hf : s.bget R.safStatus 30 = false) (ho : s.sleepOk = true) (hj : s.ssJob = none) :
    s.pwrState m .sleep save w = .wait (State.changeGo { s with rst := { s.rst with change := some { mbx := m, target := .sleep, save := save, wakeOff := w } } }
      { mbx := m, target := .sleep, save := save, wakeOff := w }) := by
  have harea : ¬ (PState.sleep = .sleep ∧ (save % 0x100000 ≠ 0 ∨ (!s.hbmBacked save) = true ∨ (!s.hbmBacked (save + 0xFFFFF)) = true)) := by
    simp [h0, h1, h2]
  unfold State.pwrState
  rw [if_neg (by rw [hr]; decide), if_neg (by rw [ha]; decide), if_neg harea, if_neg (by rw [hf]; simp)]
  refine congrArg AxR.wait (changePoll_go rfl ha rfl ?_)
  have hj' : s.ssJob.isNone = true := by rw [hj]; rfl
  exact Bool.and_eq_true_iff.2 ⟨ho, hj'⟩

/-- A change still waiting at its timeout, made where its conditions are now met and refused otherwise. -/
theorem quiesceEnd_eq {s : State} {c : PChange} (hc : s.rst.change = some c) (hg : c.going = false) (ha : s.asleep = false) :
    s.quiesceEnd = if s.changeOk c then s.changeGo c else State.axFinish { s with rst := { s.rst with change := none } } c.mbx 4 0x0E [] := by
  simp only [State.quiesceEnd, hc, hg, ha, Bool.or_self, Bool.false_eq_true, if_false]

/-- Settles O14. -/
theorem resetsAndPowerStates : Obligations.ResetsAndPowerStates := by
  unfold Obligations.ResetsAndPowerStates
  refine ⟨?_, ?_, ?_, ?_, ?_, ?_, ?_, ?_, ?_, ?_, ?_, ?_, ?_, ?_, ?_, ?_, ?_⟩
  · intro s q u h hb hf hr
    refine exec_done h ?_ rfl
    simp only [hb, hf, hr, Option.isSome_none, Bool.not_true, Bool.false_eq_true, if_false]
  · intro s q u h hb hf
    refine exec_refuse h ?_ rfl
    simp only [hb, hf, Option.isSome_none, Bool.not_false, Bool.false_eq_true, if_false, if_true]
  · exact fun s q d u h hd hfix hsite hr ht hheld hon hjob =>
      exec_wait h (rstRegion_goes hd hfix hsite hr (begins_awake h) ht hheld hon hjob) rfl
  · exact fun s q d u h hd hfix => exec_refuse h (rstRegion_fixed hd hfix) rfl
  · exact fun s q d u h hd hfix hsite hr ht hheld hon hjob =>
      exec_wait h (rstRegion_goes hd hfix hsite hr (begins_awake h) ht hheld hon hjob) rfl
  · exact fun s q d u h hd hfix hsite hr ht hheld => exec_done h (rstRegion_releases hd hfix hsite hr (begins_awake h) ht hheld) rfl
  · exact fun s d m hd hm h70 => run_eq (decide_eq_true hd) (regionDone_other hm h70)
  · exact fun s d m hd hm => run_eq (decide_eq_true (by omega)) (regionDone_bench hm hd)
  · exact fun s q save u h hr ho => exec_wait h (pwrState_light (target := .drowse) hr (begins_awake h) (by decide) ho) rfl
  · exact fun s q save u h hr => exec_wait h (pwrState_light hr (begins_awake h) (by decide) rfl) rfl
  · exact fun s q save u h hr h0 h1 h2 hf ho hj => exec_wait h (pwrState_sleep hr (begins_awake h) h0 h1 h2 hf ho hj) rfl
  · exact fun s q save ms w u h h1 h2 hr ho =>
      exec_wait h ((if_neg (by omega)).trans (pwrState_light (target := .drowse) hr (begins_awake h) (by decide) ho)) rfl
  · exact fun s c hc hg ha ho => congrArg Host.Outcome.next ((quiesceEnd_eq hc hg ha).trans (if_neg (by rw [ho]; decide)))
  · exact fun s c hc hg ha ho => congrArg Host.Outcome.next ((quiesceEnd_eq hc hg ha).trans (if_pos ho))
  · intro s us v ok ha hus hw hv hc hok
    refine congrArg Host.Outcome.next ?_
    simp only [State.sleepExit, ha, hus, hw, hok, hv, hc, decide_true, Bool.and_self, Bool.not_true, Bool.or_self, Bool.false_eq_true, if_true, if_false]
  · intro s us ok ha hus hw hok
    refine congrArg Host.Outcome.next ?_
    simp only [State.sleepExit, ha, hus, hw, hok, decide_true, Bool.and_self, Bool.not_true, Bool.or_self, Bool.false_eq_true, if_true, if_false]
  · intro s b us hb hus hon hbusy
    have hgo : 10 ≤ us ∧ s.tilesOn b = true ∧ (!s.benchBusy b) = true := ⟨hus, hon, by rw [hbusy]; rfl⟩
    exact run_eq (decide_eq_true hb) (if_pos hgo)

end Sys2Proof.Machine
end

section
/-! The 52 V input, the connectors' sensors, caps and tokens (chapters 19 and 23). -/

namespace Sys2Proof.Machine

open Sys2Proof.Spec

theorem fset_pwr (s : State) (r : Reg) (hi lo x : Nat) : (s.fset r hi lo x).pwr = s.pwr := set_pwr ..
theorem bset_pwr (s : State) (r : Reg) (i : Nat) (b : Bool) : (s.bset r i b).pwr = s.pwr := set_pwr ..

/-- A sample leaves the warning as it stands. -/
theorem sample_warning {s : State} {v i : Nat} :
    ((s.fset R.pwrSupplyStatus 15 0 v).set R.pwrSupplyIin (BitVec.ofNat 64 (i % 65536))).bget R.pwrSupplyStatus 31 = s.bget R.pwrSupplyStatus 31 := by
  rw [bget_set_off (by decide), bget_fset_off (by decide) (by decide) (by decide)]

/-- A sample at or below 57.0 V with no warning: the marks of a high input go, and what a low one does follows. -/
theorem supply_nothigh {s : State} {v i : Nat} (hv : v ≤ 5700) (hw : s.bget R.pwrSupplyStatus 31 = false) :
    let t := (s.fset R.pwrSupplyStatus 15 0 v).set R.pwrSupplyIin (BitVec.ofNat 64 (i % 65536))
    let u := State.bset { t with pwr := { t.pwr with highSeen := false } } R.pwrSupplyStatus 28 false
    s.supply v i = if v < 4400 then State.warnEnter { u with pwr := { s.pwr with highSeen := false, lowSeen := true } } v
      else if v < 4600 then if s.pwr.lowSeen then u else State.log' { u with pwr := { s.pwr with highSeen := false, lowSeen := true } } 1 3 6 [v]
      else { u with pwr := { t.pwr with highSeen := false, lowSeen := false } } := by
  have h57 : ¬ 5700 < v := by omega
  simp only [State.supply, sample_warning, hw, h57, decide_false, false_and, if_false, Bool.false_eq_true, bset_pwr, fset_pwr, set_pwr]

/-- A sensor reading at an inlet at or below 40 °C; and the first above. -/
theorem coolant_cool {s : State} {a b : Nat} (ha : a ≤ 40) :
    s.coolant a b = { ((s.fset R.hubAuxStatus 7 0 a).fset R.hubAuxStatus 15 8 b) with pwr := { s.pwr with hotInlet := false } } := by
  have h40 : ¬ 40 < a := by omega
  simp only [State.coolant, h40, decide_false, false_and, if_false]
  rfl

theorem coolant_hot {s : State} {a b : Nat} (ha : 40 < a) (hh : s.pwr.hotInlet = false) :
    s.coolant a b = { (((s.fset R.hubAuxStatus 7 0 a).fset R.hubAuxStatus 15 8 b).log' 1 0 4 [a]) with pwr := { s.pwr with hotInlet := true } } := by
  have hgo : 40 < a ∧ (!s.pwr.hotInlet) = true := ⟨ha, by rw [hh]; rfl⟩
  unfold State.coolant
  dsimp only
  rw [if_pos (show 40 < a ∧ (!((s.fset R.hubAuxStatus 7 0 a).fset R.hubAuxStatus 15 8 b).pwr.hotInlet) = true from hgo), decide_eq_true ha]
  rfl

/-- Caps within the fused ones and above the floor are put in force. -/
theorem capsSet_ok {s : State} {h w : Nat} (hh : h ≤ s.fusedHub) (hw : w ≤ s.fusedSite) (hmin : s.minHub ≤ h) :
    s.capsSet h w = .done (s.capsUse h w) 0 (p32 h ++ p32 w) := (if_neg (by omega)).trans (if_neg (by omega))

/-- A share of a cap in the proportion of the module's is at most the cap. -/
theorem share_le {cap w all : Nat} (hw : w ≤ all) (h0 : 0 < all) : cap * w / all ≤ cap :=
  (Nat.div_le_iff_le_mul h0).2 ((Nat.mul_le_mul_left cap hw).trans (by omega))

/-- A pool whose tokens add up passes its check. -/
theorem tokenCheck_ok {s : State} {p : Nat} (hu : s.countUe 6 p = false) (h : s.domSum p + s.freeTok p = s.fget (R.pwrPool p) 63 48 + s.fget (R.pwrPool p) 15 0) :
    s.tokenCheck p = s := by
  simp only [State.tokenCheck, hu, h, Bool.false_eq_true, if_false, if_true]

/-- Settles O15. -/
theorem supplyAndCaps : Obligations.SupplyAndCaps := by
  unfold Obligations.SupplyAndCaps
  refine ⟨⟨?_, ?_, ?_, ?_, ?_, ?_, ?_, ?_, ?_⟩, ?_, ?_, ?_, ?_, ?_⟩
  · intro s v i hp hlo hhi hw
    refine congrArg Host.Outcome.next ((if_pos hp).trans ?_)
    rw [supply_nothigh hhi hw, if_neg (by omega), if_neg (by omega)]
  · intro s v i hp hv hw
    refine ⟨_, ?_, ?_, congrArg Host.Outcome.next ((if_pos hp).trans ((supply_nothigh (by omega) hw).trans (if_pos hv)))⟩
    · rfl
    · rfl
  · intro s a d hp hw ha
    exact congrArg Host.Outcome.next (if_pos (by simp [hp, hw, ha]))
  · intro s a d ha
    exact congrArg Host.Outcome.next (if_neg (by simp; omega))
  · intro s b hb hd hw
    refine congrArg Host.Outcome.next ?_
    simp only [hb, hd, hw, and_self, if_true]
    rfl
  · exact fun s hp => congrArg Host.Outcome.next (if_pos hp)
  · exact fun s hp h => congrArg Host.Outcome.next ((if_pos hp).trans (by simp only [State.coolLeak, h, Bool.false_eq_true, if_false]))
  · exact fun s a b hp ha => congrArg Host.Outcome.next ((if_pos hp).trans (coolant_cool ha))
  · exact fun s a b hp ha hh => congrArg Host.Outcome.next ((if_pos hp).trans (coolant_hot ha hh))
  · exact fun s q h w u hb hh hw hmin => exec_done hb (capsSet_ok hh hw hmin) rfl
  · exact fun s q h w u hb hover => exec_refuse hb (if_pos hover) rfl
  · exact fun s q w u hb hw h0 hmin => exec_done hb ((if_neg (by omega)).trans (capsSet_ok (share_le hw h0) (share_le hw h0) hmin)) rfl
  · exact fun s q w u hb hw => exec_refuse hb (if_pos hw) rfl
  · intro s q u hb hsum
    obtain ⟨hu0, h0⟩ := hsum 0 (by decide)
    obtain ⟨hu1, h1⟩ := hsum 1 (by decide)
    refine exec_done hb ?_ rfl
    rw [tokenCheck_ok hu0 h0, tokenCheck_ok hu1 h1]

end Sys2Proof.Machine
end

section
/-! Power, duty, temperature and gradient control (chapter 19). -/

namespace Sys2Proof.Machine

open Sys2Proof.Spec

/-- The expert form takes a ceiling of 1 to 16 for each bench and a limit of 70 to 100 °C. -/
theorem throttle_args {cs : List Nat} {l : Nat} (hlen : cs.length = 68) (hcs : ∀ c ∈ cs, 1 ≤ c ∧ c ≤ 16) (h70 : 70 ≤ l) (h100 : l ≤ 100) :
    ¬ (cs.length ≠ 68 ∨ (cs.any fun c => c == 0 || decide (16 < c)) = true ∨ l < 70 ∨ 100 < l) := by
  have hany : (cs.any fun c => c == 0 || decide (16 < c)) = false := by
    rw [List.any_eq_false]
    intro c hc
    have := hcs c hc
    simp; omega
  rw [hany]
  simp; omega

/-- The division of the pool where one bench alone is up, outside a test and with a demand: all that is left is its share. -/
theorem divide_one {s : State} {d : List Nat} {b : Nat} (hh : s.bget R.safStatus 29 = false) (hup : (List.range 68).filter s.tilesOn = [b])
    (hb : s.bistBenches.contains b = false) (hd : d.getD b 0 ≠ 0) :
    let fixed := ((List.range 96).filter fun d => decide (68 ≤ d) && poolOf d == 0).foldl (fun n d => n + s.held d) 0
    s.divide d = s.grantBench b (s.benchFloor + (s.fget (R.pwrPool 0) 63 48 - fixed - s.benchFloor)) := by
  intro fixed
  have hbist : [b].filter s.bistBenches.contains = [] := by rw [List.filter_cons_of_neg (by rw [hb]; decide)]; rfl
  have hrest : [b].filter (fun b => !s.bistBenches.contains b) = [b] := by rw [List.filter_cons_of_pos (by rw [hb]; rfl)]; rfl
  have hone (p : Nat → Bool) : [b].filter p ++ [b].filter (fun x => !p x) = [b] := by
    cases h : p b <;> simp [h]
  have hshare (n : Nat) : s.benchFloor + (n - ([] : List Nat).length * s.benchBist - [b].length * s.benchFloor) * d.getD b 0 / d.getD b 0
      = s.benchFloor + (n - s.benchFloor) := by
    rw [Nat.mul_div_cancel _ (Nat.pos_of_ne_zero hd)]
    simp only [List.length_nil, List.length_singleton, Nat.zero_mul, Nat.one_mul, Nat.sub_zero]
  unfold State.divide
  rw [if_neg (by rw [hh]; decide)]
  simp only [hup, hbist, hrest]
  rw [hone]
  rw [List.foldl_cons, List.foldl_nil, List.foldl_cons, List.foldl_nil]
  rw [if_neg (by rw [hb]; decide), Nat.zero_add, if_neg hd, hshare]

/-! ### One condition of a pair of benches (R419): the difference of their temperatures -/

section
variable {s : State} {a b x y h : Nat}

theorem gradOne_throttles (hp : tget s.pwr.pairs (gradKey a b 0) = none) (hd : 25 < gap (s.benchTemp a) (s.benchTemp b))
    (hg : 4 < tgetD s.pwr.grad (gradKey a b 0) 16) :
    s.gradOne a b x y 0 = s.gradSet (gradKey a b 0) (if s.benchTemp a < s.benchTemp b then b else a) 4 1 := by
  have hover : gradMax 0 < s.gradDiff 0 a b x y := hd
  have h4 : ¬ tgetD s.pwr.grad (gradKey a b 0) 16 ≤ 4 := by omega
  simp only [State.gradOne, if_pos hover, if_neg h4, hp]
  rfl

theorem gradOne_releases (hp : tget s.pwr.pairs (gradKey a b 0) = some h) (hd : gap (s.benchTemp a) (s.benchTemp b) ≤ 22) (hv : gap x y ≤ 60)
    (ht : s.tclkMs ≤ s.since (tgetD s.pwr.gradAt (gradKey a b 0) 0)) (hg : tgetD s.pwr.grad (gradKey a b 0) 16 < 15) :
    s.gradOne a b x y 0 = s.gradSet (gradKey a b 0) h (tgetD s.pwr.grad (gradKey a b 0) 16 + 1) 1 := by
  have hback : ¬ gradMax 0 < s.gradDiff 0 a b x y := by
    have : s.gradDiff 0 a b x y ≤ 22 := hd
    have : gradMax 0 = 25 := rfl
    omega
  have hall : s.gradDiff 0 a b x y ≤ 22 ∧ s.gradDiff 1 a b x y ≤ 60 ∧ s.tclkMs ≤ s.since (tgetD s.pwr.gradAt (gradKey a b 0) 0) := ⟨hd, hv, ht⟩
  have hmin : min 16 (tgetD s.pwr.grad (gradKey a b 0) 16 + 1) = tgetD s.pwr.grad (gradKey a b 0) 16 + 1 := by omega
  have h15 : ¬ 15 ≤ tgetD s.pwr.grad (gradKey a b 0) 16 := by omega
  simp only [State.gradOne, if_neg hback, hp, if_pos hall, hmin, if_neg h15]

theorem gradEsc_escalates (hp : tget s.pwr.pairs (gradKey a b 0) = some h) (hd : 25 < gap (s.benchTemp a) (s.benchTemp b))
    (ht : s.tclkMs ≤ s.since (tgetD s.pwr.gradAt (gradKey a b 0) 0)) (hg : tgetD s.pwr.grad (gradKey a b 0) 16 ≠ 0) :
    s.gradEsc a b x y 0 = s.gradSet (gradKey a b 0) h 0 0 := by
  have hall : gradMax 0 < s.gradDiff 0 a b x y ∧ s.tclkMs ≤ s.since (tgetD s.pwr.gradAt (gradKey a b 0) 0) ∧ tgetD s.pwr.grad (gradKey a b 0) 16 ≠ 0 :=
    ⟨hd, ht, hg⟩
  simp only [State.gradEsc, hp, if_pos hall]

/-! ### A bench's thermal limiter (R417) -/

theorem thermGov_hot {ms : Nat} (hu : s.domUp b = true) (ht : s.fget R.pwrThermCfg 7 0 < s.benchTemp b) :
    s.thermGov b ms = State.setDuty { s with pwr := { s.pwr with therm := tset s.pwr.therm b 16 (tgetD s.pwr.therm b 16 - 1) } } b := by
  simp only [State.thermGov, hu, if_pos ht, Bool.not_true, Bool.false_eq_true, if_false]

theorem thermGov_cool {ms : Nat} (hu : s.domUp b = true) (ht : s.benchTemp b + 2 < s.fget R.pwrThermCfg 7 0) (h16 : tgetD s.pwr.therm b 16 < 16) (hms : 1 ≤ ms) :
    s.thermGov b ms = State.setDuty { s with pwr := { s.pwr with therm := tset s.pwr.therm b 16 (tgetD s.pwr.therm b 16 + 1) } } b := by
  have hhot : ¬ s.fget R.pwrThermCfg 7 0 < s.benchTemp b := by omega
  simp only [State.thermGov, hu, if_neg hhot, if_pos (And.intro ht (And.intro h16 hms)), Bool.not_true, Bool.false_eq_true, if_false]

end

/-- Settles O16. -/
theorem powerAndThermalControl : Obligations.PowerAndThermalControl := by
  unfold Obligations.PowerAndThermalControl
  refine ⟨?_, ?_, ?_, ?_, ?_, ?_, ?_, ?_, ?_, ?_, ?_, ?_, ?_, ?_, ?_, ?_, ?_, ?_⟩
  · exact fun s q f n u h h1 hn => exec_done h (if_neg (by omega)) rfl
  · exact fun s q c u h h1 hc => exec_done h (if_neg (by omega)) rfl
  · exact fun s q c u h hc => exec_fail h (if_pos (Or.inr hc)) rfl
  · exact fun s q cs l u h hlen hcs h70 h100 => exec_done h (if_neg (throttle_args hlen hcs h70 h100)) rfl
  · exact fun s q u h => exec_done h rfl rfl
  · exact fun s d hh => congrArg (fun t => Host.Outcome.next (State.tokenCheck t 0)) (if_pos hh)
  · exact fun s d b hh hup hb hd => congrArg (fun t => Host.Outcome.next (State.tokenCheck t 0)) (divide_one hh hup hb hd)
  · intro s b st dy hb hon
    refine run_eq (decide_eq_true hb) (congrArg (fun t => State.tokenCheck t 0) ?_)
    exact if_neg (by rw [hon]; decide)
  · exact fun s mw h => congrArg Host.Outcome.next (if_pos h)
  · exact fun s mw h => congrArg Host.Outcome.next (if_neg (by omega))
  · exact fun s b ms hb hu ht => run_eq (decide_eq_true hb) (thermGov_hot hu ht)
  · exact fun s b ms hb hu ht h16 hms => run_eq (decide_eq_true hb) (thermGov_cool hu ht h16 hms)
  · exact fun s b ms hb hms hd hgap => run_eq (decide_eq_true hb) (if_pos ⟨hgap, hms, by rw [hd]; rfl⟩)
  · exact fun s a b x y hadj ha hb => run_eq hadj (if_pos (by rw [ha, hb]; rfl))
  · exact fun s a b x y hp hd hg => gradOne_throttles hp hd hg
  · exact fun s a b x y h hp hd hv ht hg => gradOne_releases hp hd hv ht hg
  · exact fun s a b x y hadj ha hb => run_eq hadj (if_pos (by rw [ha, hb]; rfl))
  · exact fun s a b x y h hp hd ht hg => gradEsc_escalates hp hd ht hg

end Sys2Proof.Machine
end

section
/-! Ageing, re-plans and telemetry (chapter 19). -/

namespace Sys2Proof.Machine

open Sys2Proof.Spec

/-! ### The persistent block's line of writes: what putting words in line leaves of the power state and of the supply's registers -/

theorem bget_prb {s : State} {p : Prb} {r : Reg} {i : Nat} : State.bget { s with prb := p } r i = s.bget r i := rfl

theorem prbFeedOne_pwr (s : State) (k : Nat) : (s.prbFeedOne k).pwr = s.pwr := by
  unfold State.prbFeedOne; cases tget s.prb.jobs k <;> rfl

theorem prbFeedOne_bget (s : State) (k : Nat) (r : Reg) (i : Nat) : (s.prbFeedOne k).bget r i = s.bget r i := by
  unfold State.prbFeedOne; cases tget s.prb.jobs k <;> rfl

theorem prbFeedAll_pwr (l : List Nat) (s : State) : (l.foldl State.prbFeedOne s).pwr = s.pwr := by
  induction l generalizing s with
  | nil => rfl
  | cons k l ih => rw [List.foldl_cons, ih, prbFeedOne_pwr]

theorem prbFeedAll_bget (l : List Nat) (s : State) (r : Reg) (i : Nat) : (l.foldl State.prbFeedOne s).bget r i = s.bget r i := by
  induction l generalizing s with
  | nil => rfl
  | cons k l ih => rw [List.foldl_cons, ih, prbFeedOne_bget]

theorem prbShow_pwr (s : State) : s.prbShow.pwr = s.pwr := by
  unfold State.prbShow; rw [bset_pwr, set_pwr]

theorem prbShow_warning (s : State) : s.prbShow.bget R.pwrSupplyStatus 31 = s.bget R.pwrSupplyStatus 31 := by
  unfold State.prbShow
  rw [bget_bset_off (by decide) (by decide), bget_set_off (by decide)]
  rfl

theorem prbFeed_pwr (s : State) : s.prbFeed.pwr = s.pwr := by
  unfold State.prbFeed
  rw [prbShow_pwr]
  split
  · rfl
  · exact prbFeedAll_pwr _ s

theorem prbFeed_warning (s : State) : s.prbFeed.bget R.pwrSupplyStatus 31 = s.bget R.pwrSupplyStatus 31 := by
  unfold State.prbFeed
  rw [prbShow_warning]
  split
  · rfl
  · exact prbFeedAll_bget _ s _ _

theorem prbJob_pwr (s : State) (k : Nat) (ws : List PWrite) (fin : PEnd) : (s.prbJob k ws fin).pwr = s.pwr := by
  unfold State.prbJob; rw [prbFeed_pwr]

theorem prbJob_warning (s : State) (k : Nat) (ws : List PWrite) (fin : PEnd) :
    (s.prbJob k ws fin).bget R.pwrSupplyStatus 31 = s.bget R.pwrSupplyStatus 31 := by
  unfold State.prbJob; rw [prbFeed_warning]; rfl

/-! ### Re-plans -/

section
variable {s : State} {m : Nat}

theorem replanAsk_busy {r : Replan} {cfg : Option Nat} (h : s.pwr.replan = some r) : s.replanAsk m cfg = busy s := by
  unfold State.replanAsk
  exact if_pos (Or.inl (by rw [h]; rfl))

/-- Where no re-plan is in progress, none is held and none has committed, one begins, outside a warning. -/
theorem replanAsk_go (hr : s.pwr.replan = none) (hh : s.pwr.replanHeld = none) (hc : s.pwr.commitAt = none) (hw : s.bget R.pwrSupplyStatus 31 = false) :
    s.replanAsk m none = .wait (s.replanGo (some m)) := by
  simp only [State.replanAsk, hr, hh, hc, hw, Option.isSome_none, Bool.false_eq_true, or_self, if_false, Nat.lt_irrefl]

theorem replanAsk_go_cfg {c : Nat} (hr : s.pwr.replan = none) (hh : s.pwr.replanHeld = none) (hc : s.pwr.commitAt = none)
    (hw : s.bget R.pwrSupplyStatus 31 = false) :
    s.replanAsk m (some c) = .wait ((s.set R.ageCfg (BitVec.ofNat 64 c)).replanGo (some m)) := by
  have hw' : (s.set R.ageCfg (BitVec.ofNat 64 c)).bget R.pwrSupplyStatus 31 = false := by rw [bget_set_off (by decide), hw]
  simp only [State.replanAsk, hr, hh, hc, hw', Option.isSome_none, Bool.false_eq_true, or_self, if_false, Nat.lt_irrefl]

theorem replanAsk_deferred (hr : s.pwr.replan = none) (hh : s.pwr.replanHeld = none) (hc : s.pwr.commitAt = none) (hw : s.bget R.pwrSupplyStatus 31 = true) :
    s.replanAsk m none = .fail { s with pwr := { s.pwr with replanHeld := some ⟨none, [], [], []⟩ } } stDeferred 0 := by
  simp only [State.replanAsk, hr, hh, hc, hw, Option.isSome_none, Bool.false_eq_true, or_self, if_false, Nat.lt_irrefl, if_true]

theorem replanVerify_of {r : Replan} (hr : s.pwr.replan = some r) (hl : r.low ≠ []) :
    let bad := r.low.filter fun d => !(s.pwr.seen.contains d
      && decide ((s.fget R.ageCfg 15 0 : Int) ≤ (BitVec.ofNat 16 (s.fget (R.ageMon d) 15 0)).toInt))
    let back (t : Tbl PlanE) : Tbl PlanE := bad.foldl (fun t d => tput t d (tgetD r.old d ⟨0, 0, 0⟩)) t
    s.replanVerify = (s.planUse (back s.pwr.plan)).planCommit { r with new := back r.new } := by
  have he : r.low.isEmpty = false := by rw [List.isEmpty_eq_false_iff]; exact hl
  intro bad back
  simp only [State.replanVerify, hr, he, Bool.false_eq_true, if_false]
  rfl

/-! ### Monitors: the first reading since the last re-plan, and a later one -/

variable {d : Nat} {x : BitVec 16}

theorem monitor_first (hu : s.domUp d = true) (hs : d ∉ s.pwr.seen) (hr : tget s.pwr.slackRec d = none) :
    s.monitor d x = State.fset { s with pwr := { s.pwr with seen := sIns s.pwr.seen d, slackRec := tput s.pwr.slackRec d x.toNat } } (R.ageMon d) 15 0 x.toNat := by
  have hc : s.pwr.seen.contains d = false := by simpa using hs
  simp only [State.monitor, hu, hr, hc, Bool.not_true, Bool.false_eq_true, if_false]

theorem monitor_later (hu : s.domUp d = true) (hs : d ∈ s.pwr.seen) (hr : tget s.pwr.slackRec d = none) :
    s.monitor d x = State.fset { s with pwr := { s.pwr with seen := sIns s.pwr.seen d, slackRec := tput s.pwr.slackRec d x.toNat } } (R.ageMon d) 15 0
      (slackMin (BitVec.ofNat 16 (s.fget (R.ageMon d) 15 0)) x).toNat := by
  have hc : s.pwr.seen.contains d = true := by simpa using hs
  simp only [State.monitor, hu, hr, hc, Bool.not_true, Bool.false_eq_true, if_false, if_true]

end

/-- An hour that ends in a warning, or with a re-plan in progress, begins no re-plan. -/
theorem hourTick_of {s : State} (h : s.pwr.replan.isSome = true ∨ s.bget R.pwrSupplyStatus 31 = true) :
    let h := max (s.get R.ageHours).toNat s.hoursKept + 1
    s.hourTick = (s.set R.ageHours (BitVec.ofNat 64 (h % 2 ^ 32))).prbJob 101 [PWrite.mk (0x1F0 + h % 8) (BitVec.ofNat 32 h) none false] .plain := by
  intro h'
  refine if_neg ?_
  rintro ⟨-, hr, -, -, hw⟩
  rw [prbJob_pwr, set_pwr] at hr
  rw [prbJob_warning, bget_set_off (by decide)] at hw
  rcases h with h | h
  · rw [Option.isSome_iff_ne_none] at h
    exact h (Option.isNone_iff_eq_none.1 hr)
  · rw [h] at hw; exact absurd hw (by decide)

/-! ### Telemetry -/

theorem telSet_of {s : State} {g : W64} {k p m c : Nat} (h1 : 1 ≤ p) (hp : p ≤ 10000) (h4 : 4 ≤ k) (hk : k ≤ 16) (hm : m < 1024) (hc : c ≤ 3) :
    s.telSet g k p m c = .done { s with pwr := { s.pwr with tel := some ⟨g, k, p, m, c, 0, 0⟩ } } 0 [] :=
  (if_neg (by omega)).trans (if_neg (by omega))

/-- A record whose slot is no hole, not in the library, and has room, is written. -/
theorem telGo_sent {s : State} {t : TelSt} (ht : s.pwr.tel = some t) :
    let bs := s.telRecord t.mask t.seq
    let g := (t.ring.toNat + t.slot * bs.length) % 2 ^ 64
    s.gHole g bs.length = false → (s.isOwn g && s.libHit (gLocal g) bs.length) = false → s.gRoom g bs.length = true →
    let w := ((s.telDrew t.mask).gWrite ⟨.steward, 0⟩ (2 ^ 41) g t.tc bs false).1
    s.telGo = { w with pwr := { w.pwr with tel := some { t with seq := (t.seq + 1) % 2 ^ 32, slot := (t.slot + 1) % 2 ^ t.k }, slackRec := [] } } := by
  intro bs g hh hl hr w
  have hh' : (s.gHole g bs.length || (s.isOwn g && s.libHit (gLocal g) bs.length)) = false := by rw [hh, hl]; rfl
  unfold State.telGo
  rw [ht]
  exact (if_neg (by rw [hh']; decide)).trans (if_neg (by rw [hr]; decide))

/-- Settles O17. -/
theorem ageingAndTelemetry : Obligations.AgeingAndTelemetry := by
  unfold Obligations.AgeingAndTelemetry
  refine ⟨?_, ?_, ?_, ?_, ?_, ?_, ?_, ?_, ?_, ?_, ?_, ?_, ?_, ?_, ?_, ?_⟩
  · exact fun s q u c h hc => exec_done h (by simp only [hc]) rfl
  · exact fun s q u h hr hh hc hw => exec_wait h (replanAsk_go hr hh hc hw) rfl
  · exact fun s q u h hr hh hc hw => exec_fail h (replanAsk_deferred hr hh hc hw) rfl
  · exact fun s q u r h hr => exec_fail h (replanAsk_busy hr) rfl
  · exact fun s q p g u h h24 hp h10 hg hr hh hc hw => exec_wait h ((if_neg (by omega)).trans (replanAsk_go_cfg hr hh hc hw)) rfl
  · intro s r hh hw hr
    refine congrArg Host.Outcome.next ?_
    rw [hh]
    exact if_neg (by rw [hw, hr]; decide)
  · exact fun s r hr hl => congrArg Host.Outcome.next (replanVerify_of hr hl)
  · exact fun s d x hd hu hs hr => run_eq (decide_eq_true hd) (monitor_first hu hs hr)
  · exact fun s d x hd hu hs hr => run_eq (decide_eq_true hd) (monitor_later hu hs hr)
  · exact fun s hp h => congrArg Host.Outcome.next ((if_pos hp).trans (hourTick_of h))
  · intro s q m u h hm hb
    refine exec_done h ?_ rfl
    rw [if_neg (by omega), State.telDrew, hb]
    rfl
  · intro s q m u h hm hb
    refine exec_done h ?_ rfl
    rw [if_neg (by omega), State.telDrew, hb]
    rfl
  · exact fun s q g k p u h h1 hp h4 hk => exec_done h (telSet_of h1 hp h4 hk (by decide) (by decide)) rfl
  · exact fun s q g k u h => exec_done h (if_pos rfl) rfl
  · exact fun s q g k p m c u h h1 hp h4 hk hm hc => exec_done h (telSet_of h1 hp h4 hk hm hc) rfl
  · exact fun s t ht hh hl hr => congrArg Host.Outcome.next (telGo_sent ht hh hl hr)

end Sys2Proof.Machine
end

section
/-! The persistent register block and the event log (chapter 20), and bandwidth regulation (chapter 17). -/

namespace Sys2Proof.Machine

open Sys2Proof.Spec

/-! ### Words of the persistent block -/

/-- Words of which none is worn are put in line, outside a warning. -/
theorem prbCmd_queues {s : State} {q : Req} {ws : List (Nat × W32)} {fin : PEnd} (hw : ∀ p ∈ ws, s.worn p.1 = false)
    (hs : s.bget R.pwrSupplyStatus 31 = false) :
    s.prbCmd q ws fin = .wait (s.prbJob q.mbx (ws.map fun p : Nat × W32 => PWrite.mk p.1 p.2 (some (q.mbx, q.tag, q.seq)) false) fin) := by
  have hfind : ws.find? (fun p : Nat × W32 => s.worn p.1) = none := by
    rw [List.find?_eq_none]
    intro p hp
    rw [hw p hp]; decide
  simp only [State.prbCmd, hfind, hs, Bool.false_eq_true, if_false]

/-- The words of a command's values are those from its first on. -/
theorem word_of_zipIdx {vs : List W32} {f : Nat} {p : Nat × W32} (h : p ∈ vs.zipIdx.map fun p : W32 × Nat => (f + p.2, p.1)) :
    f ≤ p.1 ∧ p.1 < f + vs.length := by
  obtain ⟨⟨v, i⟩, hv, rfl⟩ := List.mem_map.1 h
  have := List.mem_zipIdx hv
  dsimp only
  omega

theorem isEmpty_of_pos {α : Type} {l : List α} (h : 1 ≤ l.length) : l.isEmpty = false := by
  cases l with
  | nil => exact absurd h (Nat.not_succ_le_zero 0)
  | cons a l => rfl

section
variable {s : State} {w : Nat} {v : W32}

theorem rwpWrite_queues (hlo : 0x80 ≤ w) (hhi : w < 0x100) (hs : s.bget R.pwrSupplyStatus 31 = false) (hw : s.worn w = false) :
    s.rwpWrite w v = State.prbShow { s with prb := { s.prb with q := s.prb.q ++ [PWrite.mk w v none false] } } :=
  (if_neg (by omega)).trans ((if_neg (by rw [hs]; decide)).trans (if_neg (by rw [hw]; decide)))

theorem rwpWrite_warning (hlo : 0x80 ≤ w) (hhi : w < 0x100) (hs : s.bget R.pwrSupplyStatus 31 = true) :
    s.rwpWrite w v = (s.bset R.prbStatus 29 true).bump R.prbDropped 32 1 := (if_neg (by omega)).trans (if_pos hs)

theorem rwpWrite_worn (hlo : 0x80 ≤ w) (hhi : w < 0x100) (hs : s.bget R.pwrSupplyStatus 31 = false) (hw : s.worn w = true) :
    s.rwpWrite w v = ((s.bset R.prbStatus 30 true).bump R.prbDropped 32 1).log' 0 2 1 [w] :=
  (if_neg (by omega)).trans ((if_neg (by rw [hs]; decide)).trans (if_pos hw))

theorem prbComplete_cons {p : PWrite} {r : List PWrite} (hq : s.prb.q = p :: r) (hr : s.prb.run = true) :
    let t := (State.prbWord1 { s with prb := { s.prb with q := r, run := false } } p).prbFeed
    s.prbComplete = (t.prb.jobs.map fun e : Nat × PJob => e.1).foldl State.prbJobEnd t := by
  simp only [State.prbComplete, hq, hr, Bool.not_true, Bool.false_eq_true, if_false]

end

theorem prbW_toNat (s : State) (n : Nat) : (s.prbW n).toNat = (s.get (R.prbWord n)).toNat % 2 ^ 32 := BitVec.toNat_ofNat ..

/-- Settles O18. -/
theorem persistentBlockAndLog : Obligations.PersistentBlockAndLog := by
  unfold Obligations.PersistentBlockAndLog
  refine ⟨?_, ?_, ?_, ?_, ?_, ?_, ?_, ?_, ?_⟩
  · intro s q f n u h h1 hn hf
    refine exec_done h ?_ rfl
    rw [if_neg (by omega)]
    simp only [prbW_toNat]
  · intro s q f vs u h h1 h64 hlo hhi hs hw
    refine exec_wait h ?_ rfl
    rw [isEmpty_of_pos h1, if_neg (by simp; omega), if_neg (by omega)]
    refine prbCmd_queues (fun p hp => ?_) hs
    obtain ⟨hf, hl⟩ := word_of_zipIdx hp
    exact hw p.1 hf hl
  · intro s q f vs u h h1 h64 hf
    refine exec_refuse h ?_ rfl
    rw [isEmpty_of_pos h1, if_neg (by simp; omega), if_pos hf]
  · exact fun s q u h => exec_done h rfl rfl
  · exact fun s w v hlo hhi hs hw => run_eq (decide_eq_true (by omega)) (rwpWrite_queues hlo hhi hs hw)
  · exact fun s w v hlo hhi hs => run_eq (decide_eq_true (by omega)) (rwpWrite_warning hlo hhi hs)
  · exact fun s w v hlo hhi hs hw => run_eq (decide_eq_true (by omega)) (rwpWrite_worn hlo hhi hs hw)
  · exact fun s p r hq hr => congrArg Host.Outcome.next (prbComplete_cons hq hr)
  · exact fun s q f n u h h1 hn => exec_done h (if_neg (by omega)) rfl

/-! ### Bandwidth regulation -/

section
variable {s : State} {p a b rn rs : Nat} {more : State → State}

theorem partSet_ok (hp : p < 16) (hab : a ≤ b) (hb : b < 150) (hn : rn < 65536) (hs : rs < 65536) (ho : (s.setRates p rn rs).bget R.regStatus 63 = false) :
    s.partSet p a b rn rs more = .done (more ((s.setRates p rn rs).setSrcs p a b)) 0 [] :=
  (if_neg (by omega)).trans (if_neg (by rw [ho]; decide))

theorem partSet_overcommits (hp : p < 16) (hab : a ≤ b) (hb : b < 150) (hn : rn < 65536) (hs : rs < 65536)
    (ho : (s.setRates p rn rs).bget R.regStatus 63 = true) : s.partSet p a b rn rs more = refuse s dOvercommit :=
  (if_neg (by omega)).trans (if_pos ho)

end

theorem byteOk_of {w : Nat} (h1 : 1 ≤ w) (h : w < 256) : byteOk w = true := by simp [byteOk]; omega

theorem ways_ok {ws : List Nat} (hlen : ws.length = 16) (hw : ∀ w ∈ ws, w ≤ 64) :
    ¬ (ws.length ≠ 16 ∨ (ws.any fun w => decide (64 < w)) = true) := by
  have hany : (ws.any fun w => decide (64 < w)) = false := by
    rw [List.any_eq_false]
    intro w h
    have := hw w h
    simp; omega
  rw [hany]
  simp [hlen]

/-- A window of the north half that ends at the high level or above: the allowance falls by an eighth. -/
theorem regWindow_congested {s : State} {lv : Nat} {d : List Nat} (h : s.fget R.regCongCfg 15 12 ≤ lv) :
    s.regWindow 0 lv d = State.winOpen ((State.fset { s with regDemand := tput s.regDemand 0 ((d.filter fun d => decide (d < 600) && d % 4 != 0).foldl sIns []) }
      R.regStatus 15 0 (max (64 * s.fget R.hubMemStatus 23 16 / 16) (s.fget R.regStatus 15 0 - s.fget R.regStatus 15 0 / 8))).fset R.regStatus 35 32 (min 15 lv)) 0 := by
  simp only [State.regWindow, State.allow, if_pos h, if_true]

/-- A window of the south half that ends at the low level or below: the allowance rises by its step. -/
theorem regWindow_free {s : State} {lv : Nat} {d : List Nat} (hh : lv < s.fget R.regCongCfg 15 12) (h : lv ≤ s.fget R.regCongCfg 11 8) :
    s.regWindow 1 lv d = State.winOpen ((State.fset { s with regDemand := tput s.regDemand 1 ((d.filter fun d => decide (d < 600) && d % 4 != 0).foldl sIns []) }
      R.regStatus 31 16 (min (64 * s.fget R.hubMemStatus 15 8)
        (s.fget R.regStatus 31 16 + 64 * s.fget R.hubMemStatus 15 8 * s.fget R.regCongCfg 7 0 / 256))).fset R.regStatus 39 36 (min 15 lv)) 1 := by
  simp only [State.regWindow, State.allow, if_neg (Nat.not_le.2 hh), if_pos h, Nat.one_ne_zero, if_false]

/-- Settles O19. -/
theorem regulation : Obligations.Regulation := by
  unfold Obligations.Regulation
  refine ⟨?_, ?_, ?_, ?_, ?_, ?_, ?_, ?_, ?_, ?_⟩
  · exact fun s q p a b r u h hp hab hb hr ho => exec_done h (partSet_ok hp hab hb hr hr ho) rfl
  · exact fun s q p a b r u h hp hab hb hr ho => exec_refuse h (partSet_overcommits hp hab hb hr hr ho) rfl
  · exact fun s q p a b rn rs bu sh ql u h hp hab hb hn hs h1 hbu h1' hsh hq ho =>
      exec_done h ((if_neg (by omega)).trans (partSet_ok hp hab hb hn hs ho)) rfl
  · intro s q a b c u h ha ha' hb hb' hc hc'
    exact exec_done h (if_pos (by rw [byteOk_of ha ha', byteOk_of hb hb', byteOk_of hc hc']; rfl)) rfl
  · intro s q a b c hi lo st u h ha ha' hb hb' hc hc' hlo hhi hs hs'
    refine exec_done h (if_pos ?_) rfl
    rw [byteOk_of ha ha', byteOk_of hb hb', byteOk_of hc hc', byteOk_of hs hs', decide_eq_true hlo, decide_eq_true hhi]; rfl
  · exact fun s q u h => ⟨_, exec_done h rfl rfl⟩
  · exact fun s q p e u h hp he => exec_done h (if_neg (by omega)) rfl
  · exact fun s q ws u h hlen hw => exec_done h (if_neg (ways_ok hlen hw)) rfl
  · exact fun s lv d h => congrArg (fun t => Host.Outcome.next (State.regPump t)) (regWindow_congested h)
  · exact fun s lv d hh h => congrArg (fun t => Host.Outcome.next (State.regPump t)) (regWindow_free hh h)

end Sys2Proof.Machine
end

section
/-! What leaves all memory as it is: registers, messages, the log, sync objects, lanes and links, and the parts of a context kill. -/

namespace Sys2Proof.Machine

open Sys2Proof.Spec

@[simp] theorem fset_mem (s : State) (r : Reg) (hi lo x : Nat) : (s.fset r hi lo x).mem = s.mem := set_mem ..
@[simp] theorem bset_mem (s : State) (r : Reg) (i : Nat) (b : Bool) : (s.bset r i b).mem = s.mem := set_mem ..
@[simp] theorem bump_mem (s : State) (r : Reg) (w n : Nat) : (s.bump r w n).mem = s.mem := set_mem ..
@[simp] theorem setMod_mem (s : State) (k : Nat) (x : ModSt) : (s.setMod k x).mem = s.mem := rfl
@[simp] theorem resetRegs_mem (s : State) (p : Nat → Bool) (c : RCls) : (s.resetRegs p c).mem = s.mem := rfl

/-- A fold of steps that leave memory. -/
theorem foldl_mem {α : Type} {f : State → α → State} (h : ∀ s x, (f s x).mem = s.mem) (l : List α) (s : State) : (l.foldl f s).mem = s.mem := by
  induction l generalizing s with
  | nil => rfl
  | cons a l ih => rw [List.foldl_cons, ih, h]

/-- Memory after a choice between two states with the same memory. -/
theorem ite_mem {c : Prop} [Decidable c] {s t : State} {m : Memory} (hs : s.mem = m) (ht : t.mem = m) : (if c then s else t).mem = m := by
  split
  · exact hs
  · exact ht

/-! ### Completions: messages, records and sync objects

An observation that a completion leaves as it was reads none of the fields that messages, the log, sync objects and service cores write, and no register
outside the mailbox blocks. -/

/-- A register of the mailbox blocks. -/
def MbxReg (r : Reg) : Prop := 0x3FF001000000 ≤ r.addr ∧ r.addr < 0x3FF002000000

structure Blind {α : Type} (f : State → α) : Prop where
  set : ∀ s r v, ¬ MbxReg r → f (State.set s r v) = f s
  out : ∀ s x, f { s with out := x } = f s
  log : ∀ s x, f { s with log := x } = f s
  msixPend : ∀ s x, f { s with msixPend := x } = f s
  svcIrq : ∀ s x, f { s with svcIrq := x } = f s
  syncCnt : ∀ s x, f { s with syncCnt := x } = f s
  conUe : ∀ s x, f { s with conUe := x } = f s
  waits : ∀ s w u, f { s with waiters := w, updates := u } = f s
  nq : ∀ s x, f { s with nq := x } = f s
  svc : ∀ s x, f { s with svc := x } = f s

theorem notMbx_low {r : Reg} (h : r.addr < 0x3FF001000000) : ¬ MbxReg r := fun hr => by have := hr.1; omega
theorem notMbx_high {r : Reg} (h : 0x3FF002000000 ≤ r.addr) : ¬ MbxReg r := fun hr => by have := hr.2; omega

theorem mem_blind : Blind State.mem := ⟨fun _ _ _ _ => set_mem .., fun _ _ => rfl, fun _ _ => rfl, fun _ _ => rfl, fun _ _ => rfl, fun _ _ => rfl,
  fun _ _ => rfl, fun _ _ _ => rfl, fun _ _ => rfl, fun _ _ => rfl⟩
theorem sec_blind : Blind State.sec := ⟨fun _ _ _ _ => set_sec .., fun _ _ => rfl, fun _ _ => rfl, fun _ _ => rfl, fun _ _ => rfl, fun _ _ => rfl,
  fun _ _ => rfl, fun _ _ _ => rfl, fun _ _ => rfl, fun _ _ => rfl⟩
theorem mbxReg_blind {r : Reg} (hr : MbxReg r) : Blind (State.get · r) := ⟨fun _ _ _ h => get_set_off fun e => h (by unfold MbxReg; rw [← e]; exact hr),
  fun _ _ => rfl, fun _ _ => rfl, fun _ _ => rfl, fun _ _ => rfl, fun _ _ => rfl, fun _ _ => rfl, fun _ _ _ => rfl, fun _ _ => rfl, fun _ _ => rfl⟩

section
variable {α : Type} {f : State → α} (hf : Blind f)
include hf

theorem msix_blind (s : State) (v : Nat) : f (s.msix v) = f s := by
  unfold State.msix
  split
  · rfl
  · split
    · exact hf.msixPend ..
    · exact hf.out ..

theorem log'_blind (s : State) (cls src code : Nat) (data : List Nat) : f (s.log' cls src code data) = f s := by
  have hlog (l : List LogEntry) (v : W64) : f { s with log := l, regs := tset s.regs R.stwLogHead.addr 0 v } = f s :=
    (hf.set { s with log := l } R.stwLogHead v (notMbx_low (by decide))).trans (hf.log ..)
  unfold State.log'
  dsimp only
  split
  · rw [msix_blind hf]; exact hlog ..
  · exact hlog ..

theorem svcPush_blind (s : State) (core source value : Nat) : f (s.svcPush core source value) = f s := by
  unfold State.svcPush
  dsimp only
  split
  · exact (hf.set _ _ _ (notMbx_high (by dsimp only; omega))).trans (hf.svcIrq ..)
  · exact hf.set _ _ _ (notMbx_high (by dsimp only; omega))

theorem breach_blind (s : State) (q unit : Nat) (delta : Int) (ue : Bool) : f (s.breach q unit delta ue) = f s := by
  unfold State.breach
  rw [msix_blind hf, log'_blind hf]
  refine (hf.set _ _ _ (notMbx_low (by decide))).trans ?_
  split
  · exact hf.set _ _ _ (notMbx_low (by decide))
  · rw [msix_blind hf]
    exact (hf.set _ _ _ (notMbx_low (by decide))).trans (hf.set _ _ _ (notMbx_low (by decide)))

theorem syncTally_blind (s : State) (obj : Nat) (ack : Bool) : f (s.syncTally obj ack) = f s := by
  unfold State.syncTally
  dsimp only
  refine (hf.syncCnt ..).trans ?_
  split
  · exact (breach_blind hf ..).trans (hf.conUe ..)
  · rfl

theorem release_blind (s : State) (t : Nat) : f (s.release t) = f s := by
  unfold State.release
  split
  · rfl
  · exact (hf.set _ _ _ (notMbx_high (by dsimp only; omega))).trans (hf.waits ..)

theorem releaseAll_blind (l : List Nat) (s : State) : f (l.foldl State.release s) = f s := by
  induction l generalizing s with
  | nil => rfl
  | cons t l ih => rw [List.foldl_cons, ih, release_blind hf]

theorem fire_blind (s : State) (obj k : Nat) : f (s.fire obj k) = f s := by
  unfold State.fire
  dsimp only
  split
  · rfl
  · split
    · exact (hf.set _ _ _ (notMbx_high (by dsimp only; omega))).trans (hf.nq ..)
    · exact (hf.set _ _ _ (notMbx_high (by dsimp only; omega))).trans (hf.nq ..)

theorem syncAfter_blind (s : State) (obj : Nat) : f (s.syncAfter obj) = f s := by
  unfold State.syncAfter
  rw [fire_blind hf, fire_blind hf, releaseAll_blind hf]
  exact hf.svc ..

theorem syncSet_blind (s : State) (obj : Nat) (v : W64) (ack : Bool) : f (s.syncSet obj v ack) = f s := by
  unfold State.syncSet
  rw [syncAfter_blind hf]
  exact (hf.set _ _ _ (notMbx_high (by dsimp only; omega))).trans (syncTally_blind hf ..)

theorem syncAdd_blind (s : State) (obj : Nat) (v : W64) (ack : Bool) : f (s.syncAdd obj v ack) = f s := by
  unfold State.syncAdd
  rw [syncSet_blind hf]
  split
  · exact hf.set _ _ _ (notMbx_high (by dsimp only; omega))
  · rfl

theorem signal_blind (s : State) (obj : Nat) : f (s.signal obj) = f s := by
  unfold State.signal
  split
  · exact syncAdd_blind hf ..
  · rfl

theorem actVec_blind (s : State) (m : Nat) : f (s.actVec m) = f s := by
  unfold State.actVec
  dsimp only
  split
  · exact msix_blind hf ..
  · exact signal_blind hf ..
  · exact svcPush_blind hf ..
  · split
    · exact hf.out ..
    · rfl
  · rfl

theorem notify_blind (s : State) (m : Nat) (h : Hdr) (st d : Nat) (p : List Byte) : f (s.notify m h st d p) = f s := by
  unfold State.notify
  split
  · split
    · exact hf.out ..
    · rfl
  · split
    · exact actVec_blind hf ..
    · rfl

end

@[simp] theorem log'_mem (s : State) (cls src code : Nat) (data : List Nat) : (s.log' cls src code data).mem = s.mem := log'_blind mem_blind ..
@[simp] theorem notify_mem (s : State) (m : Nat) (h : Hdr) (st d : Nat) (p : List Byte) : (s.notify m h st d p).mem = s.mem := notify_blind mem_blind ..

/-- A command's end writes its response and nothing else in memory. -/
theorem axEndR_mem (s : State) (m : Nat) (h : Hdr) (st d us : Nat) (p : List Byte) :
    (s.axEndR m h st d us p).mem = mwrite s.mem (mbxBase m + 0x1000) (respBytes h st d us ((pad4 p).take 4080)) := by
  unfold State.axEndR
  refine ite_mem ?_ ?_
  · rw [set_mem, setBox_mem, notify_mem, bump_mem, set_mem, setBox_mem]
  · rw [notify_mem, bump_mem, set_mem, setBox_mem]

@[simp] theorem axDup_mem (s : State) (m : Nat) (h : Hdr) : (s.axDup m h).mem = s.mem := by
  unfold State.axDup
  rw [notify_mem, bump_mem, set_mem, setBox_mem]

@[simp] theorem dropWaiter_mem (s : State) (t : Nat) : (s.dropWaiter t).mem = s.mem := by
  unfold State.dropWaiter; split <;> rfl

/-! ### Lanes, links and credits -/

@[simp] theorem tlbDrop_mem (s : State) (k : Nat) : (s.tlbDrop k).mem = s.mem := by
  unfold State.tlbDrop
  split
  · rfl
  · exact ite_mem rfl rfl

@[simp] theorem dropIdle_mem (s : State) (t : Nat) : (s.dropIdle t).mem = s.mem := foldl_mem tlbDrop_mem _ s

@[simp] theorem laneSend_mem (s : State) (n : Nat) (l : Lane) (fs : List Flit) : (s.laneSend n l fs).mem = s.mem := ite_mem rfl rfl

@[simp] theorem lanePushFrom_mem (s : State) (n j k : Nat) : (s.lanePushFrom n j k).mem = s.mem := by
  unfold State.lanePushFrom
  split
  · split
    · rfl
    · refine ite_mem rfl (ite_mem ?_ (ite_mem ?_ rfl)) <;> rw [laneSend_mem]
  · rfl

@[simp] theorem lanePush_mem (s : State) (n j : Nat) : (s.lanePush n j).mem = s.mem := foldl_mem (fun s k => lanePushFrom_mem s n j k) _ s

theorem modSend_mem {s t : State} {k : Nat} (h : s.modSend k = some t) : t.mem = s.mem := by
  unfold State.modSend at h
  dsimp only at h
  split at h
  · cases h
  · split at h
    · cases h
    · split at h
      · cases h
      · cases h; rfl

@[simp] theorem modPumpGo_mem (s : State) (k n : Nat) : (s.modPumpGo k n).mem = s.mem := by
  induction n generalizing s with
  | zero => rfl
  | succ n ih =>
    unfold State.modPumpGo
    refine ite_mem rfl ?_
    split
    · rfl
    · next t h => rw [ih, modSend_mem h]

@[simp] theorem modPump_mem (s : State) (k : Nat) : (s.modPump k).mem = s.mem := modPumpGo_mem ..

@[simp] theorem siteSend_mem (s : State) (n m pool : Nat) (o : Out) : (s.siteSend n m pool o).mem = s.mem := by
  unfold State.siteSend
  refine ite_mem rfl ?_
  rw [modPump_mem, setMod_mem]

@[simp] theorem creditBack_mem (s : State) (d : Dressing) (prod n : Nat) : (s.creditBack d prod n).mem = s.mem := by
  unfold State.creditBack
  refine ite_mem rfl (ite_mem ?_ (ite_mem ?_ (ite_mem (siteSend_mem ..) rfl)))
  · split <;> rfl
  · split
    · exact lanePush_mem ..
    · rfl

/-! ### The parts of a context kill -/

@[simp] theorem recordKill_mem (s : State) (t cause unit detail : Nat) (x : W64) : (s.recordKill t cause unit detail x).mem = s.mem := by
  unfold State.recordKill
  refine ite_mem ?_ ?_
  · rw [bset_mem]
  · rw [fset_mem, set_mem, fset_mem, fset_mem, fset_mem, fset_mem]

@[simp] theorem flushIn_mem (s : State) (d : Dressing) (t p : Nat) : (s.flushIn d t p).mem = s.mem := by
  unfold State.flushIn
  split
  · rfl
  · rw [creditBack_mem, fset_mem, fset_mem, modTile_mem]

@[simp] theorem keepCred_mem (s : State) (t p : Nat) : (s.keepCred t p).mem = s.mem := ite_mem rfl rfl

@[simp] theorem killTile_mem (s : State) (d : Dressing) (t : Nat) : (s.killTile d t).mem = s.mem := by
  unfold State.killTile
  rw [resetRegs_mem, setTile_mem, foldl_mem fun s p => keepCred_mem s t p, foldl_mem fun s p => flushIn_mem s d t p, dropWaiter_mem, dropIdle_mem]

@[simp] theorem killLane_mem (s : State) (k : Nat) : (s.killLane k).mem = s.mem := by
  unfold State.killLane
  split
  · rfl
  · rw [bset_mem]

/-! ### Memory outside the response windows -/

/-- A state whose memory below the mailbox blocks is that of another. -/
def LowKept (m : Memory) (s : State) : Prop := ∀ a, a < 0x3FF001000000 → mget s.mem a = mget m a

section
variable {m : Memory} {s : State}

theorem lowKept_of_mem {t : State} (h : LowKept m s) (e : t.mem = s.mem) : LowKept m t := fun a ha => (congrArg (mget · a) e).trans (h a ha)

theorem lowKept_foldl {α : Type} {f : State → α → State} (h : LowKept m s) (hf : ∀ s x, LowKept m s → LowKept m (f s x)) (l : List α) :
    LowKept m (l.foldl f s) := by
  induction l generalizing s with
  | nil => exact h
  | cons a l ih => exact ih (hf s a h)

theorem lowKept_axEndR {k st d us : Nat} {h : Hdr} {p : List Byte} (hs : LowKept m s) : LowKept m (s.axEndR k h st d us p) := by
  intro a ha
  rw [axEndR_mem, mget_mwrite_off (Or.inl (by unfold mbxBase; omega)), hs a ha]

theorem lowKept_axFinish {k st d : Nat} {p : List Byte} (hs : LowKept m s) : LowKept m (s.axFinish k st d p) := by
  unfold State.axFinish
  split
  · exact lowKept_axEndR hs
  · exact hs

theorem lowKept_killMbx {d : Dressing} (hs : LowKept m s) : LowKept m (s.killMbx d) := by
  unfold State.killMbx
  split
  · exact lowKept_axFinish (lowKept_of_mem hs rfl)
  · exact hs

theorem lowKept_killDressing {o : Option Nat} {h : Nat} {d : Dressing} (hs : LowKept m s) : LowKept m (s.killDressing o h d) := by
  unfold State.killDressing
  refine lowKept_of_mem (lowKept_killMbx (d := d) ?_) rfl
  refine lowKept_foldl ?_ (fun s t hs => lowKept_of_mem hs (killTile_mem s d t)) _
  exact lowKept_foldl hs (fun s t hs => lowKept_of_mem hs (recordKill_mem ..)) _

theorem lowKept_killCtx {c : Nat} {o : Option Nat} (hs : LowKept m s) : LowKept m (s.killCtx c o) := by
  unfold State.killCtx
  refine lowKept_of_mem ?_ (log'_mem ..)
  refine lowKept_of_mem ?_ (ite_mem (by rw [bset_mem, bset_mem]) rfl)
  refine lowKept_foldl ?_ (fun s k hs => lowKept_of_mem hs (killLane_mem s k)) _
  exact lowKept_foldl hs (fun s e hs => lowKept_killDressing hs) _

theorem lowKept_kill {t cause unit detail : Nat} {x : W64} : LowKept s.mem (s.kill t cause unit detail x) :=
  lowKept_killCtx (lowKept_of_mem (fun _ _ => rfl) (recordKill_mem ..))

end

/-- Settles O12. -/
theorem killKeepsMemory : Obligations.KillKeepsMemory := by
  unfold Obligations.KillKeepsMemory
  refine ⟨fun s t cause unit detail x a ha => lowKept_kill a ha, fun s t cause unit detail x q k hq hk => lowKept_kill _ ?_⟩
  unfold lmBase
  omega

end Sys2Proof.Machine
end

section
/-! The life of an Axotte request before its command's own checks, and the form of a response (chapter 15). -/

namespace Sys2Proof.Machine

open Sys2Proof.Spec

theorem mbxReg_status {m : Nat} (h : m < 28) : MbxReg (R.mbxStatus m) := by
  unfold MbxReg; dsimp only; omega

/-- A request that asks for no completion, at a mailbox outside management, raises none. -/
theorem notify_none {s : State} {m st d : Nat} {h : Hdr} {p : List Byte} (hm : m < 24) (hn : h.notify = false) : s.notify m h st d p = s := by
  unfold State.notify
  rw [if_neg (by omega), if_neg (by rw [hn]; decide)]

/-! ### Requests -/

theorem mbxCount_ne {m n : Nat} : (R.mbxStatus m).addr ≠ (R.mbxCount n).addr := by dsimp only; omega

/-- A duplicate's mailbox is done, and its dup bit set. -/
theorem axDup_status {s : State} {m : Nat} {h : Hdr} (hm : m < 28) :
    (s.axDup m h).get (R.mbxStatus m) = setFld (setFld (s.get (R.mbxStatus m)) 31 30 3) 28 28 1 := by
  unfold State.axDup
  refine (notify_blind (mbxReg_blind (mbxReg_status hm)) ..).trans ?_
  exact (get_set_off mbxCount_ne).trans (get_set_self ..)

/-- A duplicate that asks for no completion changes the mailbox's status and count alone. -/
theorem axDup_silent {s : State} {m : Nat} {h : Hdr} (hm : m < 24) (hn : h.notify = false) :
    (s.axDup m h).out = s.out ∧ ∀ r : Reg, r.addr ≠ (R.mbxStatus m).addr → r.addr ≠ (R.mbxCount m).addr → (s.axDup m h).get r = s.get r := by
  unfold State.axDup
  rw [notify_none hm hn]
  exact ⟨by unfold State.bump; rw [set_out, set_out, setBox_out], fun r h1 h2 => (get_set_off h2).trans ((get_set_off h1).trans rfl)⟩

theorem axEndR_sec (s : State) (m : Nat) (h : Hdr) (st d us : Nat) (p : List Byte) : (s.axEndR m h st d us p).sec = s.sec := by
  have hend (t : State) (v : W64) : (((t.set (R.mbxStatus m) v).bump (R.mbxCount m) 32 1).notify m h st d ((pad4 p).take 4080)).sec = t.sec :=
    (notify_blind sec_blind ..).trans ((set_sec ..).trans (set_sec ..))
  unfold State.axEndR
  dsimp only
  split
  · rw [set_sec, setBox_sec, hend, setBox_sec]
  · rw [hend, setBox_sec]

theorem axDup_sec (s : State) (m : Nat) (h : Hdr) : (s.axDup m h).sec = s.sec := by
  unfold State.axDup
  refine (notify_blind sec_blind ..).trans ?_
  exact (set_sec ..).trans ((set_sec ..).trans (setBox_sec ..))

theorem begun_sec {s : State} {q : Req} {cmd : Nat} : (begun s q cmd).sec = s.sec := (set_sec ..).trans (setBox_sec ..)

/-- Every Axotte command is a row of its own mailbox whose checks and effect are its own. A request that does not come to them, and leaves the security state,
does what its mailbox does. -/
theorem exec_axCmd {i : Instr} {q : Req} {cmd : Nat} {s : State} (h : axCmd i = some (q, cmd)) (hm : q.mbx < 28) :
    ∃ body, ∀ t, axotte s q cmd body = t → t.sec = s.sec → exec i s = .next t := by
  have hrun (body : State → AxR) (hx : exec i s = run (mbxOk q) (axotte s q cmd body)) :
      ∃ body, ∀ t, axotte s q cmd body = t → t.sec = s.sec → exec i s = .next t :=
    ⟨body, fun t ht _ => by rw [hx]; exact run_eq (decide_eq_true hm) ht⟩
  cases i
  case secFwUpdateExpert q' image size now =>
    cases h
    refine ⟨fun s => s.fwUpdate image size now, fun t ht hs => run_eq (decide_eq_true hm) ?_⟩
    rw [ht]
    exact if_neg (by rw [hs]; cases s.sec.fwNow <;> decide)
  all_goals cases h
  all_goals exact hrun _ rfl

section
variable {s : State} {q : Req} {cmd : Nat} {body : State → AxR}

theorem axotte_off (hp : s.powered = false) : axotte s q cmd body = s := if_pos (by rw [hp]; rfl)

theorem axotte_asleep (hs : s.asleep = true) (hm : q.mbx < 24) : axotte s q cmd body = s :=
  if_pos (by rw [hs, decide_eq_true hm, Bool.and_self, Bool.or_true, Bool.true_or])

/-- A device that is powered, awake for this mailbox and not on its way to Sleep looks at the request. -/
theorem axotte_seen (hp : s.powered = true) (ha : s.asleep = false ∨ 24 ≤ q.mbx) (hd : s.drowsing = false) :
    ¬ (!s.powered || (s.asleep && decide (q.mbx < 24)) || (s.drowsing && decide (q.mbx < 16) && (s.box q.mbx).cur != some (hdr q cmd))) = true := by
  have hsleep : (s.asleep && decide (q.mbx < 24)) = false := by
    rcases ha with ha | ha
    · rw [ha]; rfl
    · rw [decide_eq_false (by omega), Bool.and_false]
  rw [hp, hsleep, hd]
  exact Bool.false_ne_true

theorem axotte_overrun (hp : s.powered = true) (ha : s.asleep = false ∨ 24 ≤ q.mbx) (hd : s.drowsing = false)
    (ho : (mbxState s q.mbx = 1 ∨ mbxState s q.mbx = 2) ∧ ((s.box q.mbx).cur ≠ some (hdr q cmd) ∨ (s.box q.mbx).begun = true)) :
    axotte s q cmd body = s.bset (R.mbxStatus q.mbx) 29 true :=
  (if_neg (axotte_seen hp ha hd)).trans (if_pos ho)

/-- A mailbox that is idle or done overruns nothing. -/
theorem not_overrun (hst : mbxState s q.mbx = 0 ∨ mbxState s q.mbx = 3) {p : Prop} : ¬ ((mbxState s q.mbx = 1 ∨ mbxState s q.mbx = 2) ∧ p) := by
  rintro ⟨h, -⟩
  omega

theorem axotte_posted (hp : s.powered = true) (ha : s.asleep = false ∨ 24 ≤ q.mbx) (hd : s.drowsing = false)
    (hst : mbxState s q.mbx = 0 ∨ mbxState s q.mbx = 3) (hw : s.bget R.stwStatus 31 = false) :
    axotte s q cmd body = (s.setBox q.mbx { (s.box q.mbx) with cur := some (hdr q cmd), begun := false }).fset (R.mbxStatus q.mbx) 31 30 1 :=
  (if_neg (axotte_seen hp ha hd)).trans ((if_neg (not_overrun hst)).trans (if_pos (by rw [hw]; rfl)))

theorem axotte_dup (hp : s.powered = true) (ha : s.asleep = false ∨ 24 ≤ q.mbx) (hd : s.drowsing = false)
    (hst : mbxState s q.mbx = 0 ∨ mbxState s q.mbx = 3) (hw : s.bget R.stwStatus 31 = true)
    (hdup : ((s.box q.mbx).last.any fun l => l.same (hdr q cmd)) = true) : axotte s q cmd body = s.axDup q.mbx (hdr q cmd) :=
  (if_neg (axotte_seen hp ha hd)).trans ((if_neg (not_overrun hst)).trans ((if_neg (by rw [hw]; decide)).trans (if_pos hdup)))

/-- A request that is no duplicate begins, and meets its group and the gate. -/
theorem axotte_new (hp : s.powered = true) (ha : s.asleep = false ∨ 24 ≤ q.mbx) (hd : s.drowsing = false)
    (hst : mbxState s q.mbx = 0 ∨ mbxState s q.mbx = 3) (hw : s.bget R.stwStatus 31 = true)
    (hdup : ((s.box q.mbx).last.any fun l => l.same (hdr q cmd)) = false) :
    axotte s q cmd body = if axGroup cmd = 7 ∧ q.mbx < 24 then (begun s q cmd).axEnd q.mbx (hdr q cmd) 5 0 []
      else axPass (begun s q cmd) q.mbx (hdr q cmd) body (axGate (begun s q cmd) q.mbx cmd) :=
  (if_neg (axotte_seen hp ha hd)).trans ((if_neg (not_overrun hst)).trans ((if_neg (by rw [hw]; decide)).trans (if_neg fun h => Bool.false_ne_true (hdup.symm.trans h))))

/-! ### The gate of the device (Table 15-8) -/

theorem earlyGroup_iff {g : Nat} : earlyGroup g = true ↔ g ∈ [1, 7, 8, 9, 10] := by
  simp [earlyGroup, or_assoc]

theorem axGate_handover {m : Nat} (h : s.bget R.secTenStatus 31 = true) (hm : m < 24) : axGate s m cmd = some (4, 0x0E) :=
  if_pos (by rw [h, decide_eq_true hm]; rfl)

/-- Outside a handover the gate goes on. -/
theorem axGate_notHandover {m : Nat} (h : s.bget R.secTenStatus 31 = false ∨ 24 ≤ m) : ¬ (s.bget R.secTenStatus 31 && decide (m < 24)) = true := by
  rcases h with h | h
  · rw [h]; exact Bool.false_ne_true
  · rw [decide_eq_false (by omega), Bool.and_false]; exact Bool.false_ne_true

theorem axGate_ended {m : Nat} (h : s.bget R.secTenStatus 31 = false) (he : s.bget R.secTenStatus 30 = true) (hm : m < 24) (hg : axGroup cmd ∉ [1, 8]) :
    axGate s m cmd = some (4, 0x16) := by
  have h1 : axGroup cmd ≠ 1 := fun e => hg (by rw [e]; decide)
  have h8 : axGroup cmd ≠ 8 := fun e => hg (by rw [e]; decide)
  exact (if_neg (axGate_notHandover (Or.inl h))).trans (if_pos (by rw [he, decide_eq_true hm]; simp [h1, h8]))

theorem axGate_notReady {m : Nat} (h : s.bget R.secTenStatus 31 = false) (he : s.bget R.secTenStatus 30 = false) (hb : s.fget R.stwBootStatus 31 29 ≠ 3)
    (hg : axGroup cmd ∉ [1, 7, 8, 9, 10]) : axGate s m cmd = some (4, 0x16) := by
  have hearly : earlyGroup (axGroup cmd) = false := by rw [← Bool.not_eq_true, earlyGroup_iff]; exact hg
  exact (if_neg (axGate_notHandover (Or.inl h))).trans
    ((if_neg (by rw [he]; simp)).trans (if_pos (by rw [hearly]; simpa using hb)))

theorem axGate_sleep {m : Nat} (hm : 24 ≤ m) (hb : s.fget R.stwBootStatus 31 29 = 3) (hs : s.asleep = true) (hg : axGroup cmd ∉ [1, 7, 8, 9, 10])
    (hc : cmd % 0x8000 ≠ 0x204) : axGate s m cmd = some (4, 0x15) := by
  have hkeep : keepCmd m cmd = false := by
    have hearly : earlyGroup (axGroup cmd) = false := by rw [← Bool.not_eq_true, earlyGroup_iff]; exact hg
    have hc' : (cmd % 0x8000 == 0x204) = false := by simpa using hc
    unfold keepCmd
    rw [hc', Bool.and_false, Bool.or_false]
    exact hearly
  have hend : ¬ (s.bget R.secTenStatus 30 && decide (m < 24) && axGroup cmd != 1 && axGroup cmd != 8) = true := by
    rw [decide_eq_false (by omega), Bool.and_false, Bool.false_and, Bool.false_and]; decide
  exact (if_neg (axGate_notHandover (Or.inr hm))).trans
    ((if_neg hend).trans ((if_neg (by rw [hb]; exact Bool.false_ne_true)).trans (if_pos (by rw [hs, hkeep]; rfl))))

end

/-- Settles O6. -/
theorem requestGate : Obligations.RequestGate := by
  unfold Obligations.RequestGate
  intro i q cmd s hi hm
  obtain ⟨body, hgo⟩ := exec_axCmd (s := s) hi hm
  have hend {st d : Nat} : ((begun s q cmd).axEnd q.mbx (hdr q cmd) st d []).sec = s.sec := (axEndR_sec ..).trans begun_sec
  have hgate {st d : Nat} (hg : axGroup cmd ≠ 7 ∨ 24 ≤ q.mbx) (h : axGate (begun s q cmd) q.mbx cmd = some (st, d)) :
      (if axGroup cmd = 7 ∧ q.mbx < 24 then (begun s q cmd).axEnd q.mbx (hdr q cmd) 5 0 []
        else axPass (begun s q cmd) q.mbx (hdr q cmd) body (axGate (begun s q cmd) q.mbx cmd)) = (begun s q cmd).axEnd q.mbx (hdr q cmd) st d [] := by
    rw [if_neg (by omega), h]; rfl
  refine ⟨fun hp => hgo s (axotte_off hp) rfl, fun hp ha hm => hgo s (axotte_asleep ha hm) rfl, fun hp ha hd => ⟨?_, fun hst => ⟨?_, fun hw => ⟨?_, fun hdup => ⟨?_, fun hg => ⟨?_, ?_, ?_⟩⟩⟩⟩⟩,
    fun hp ha hd hm hst hw hdup hb hg hc => ?_⟩
  · exact fun ho => hgo _ (axotte_overrun hp (Or.inl ha) hd ho) (set_sec ..)
  · exact fun hw => hgo _ (axotte_posted hp (Or.inl ha) hd hst hw) ((set_sec ..).trans (setBox_sec ..))
  · intro l hl hcmd htag hseq
    have hdup : ((s.box q.mbx).last.any fun l => l.same (hdr q cmd)) = true := by
      rw [hl]
      simp [Hdr.same, hdr, hcmd, htag, hseq]
    refine ⟨_, hgo _ (axotte_dup hp (Or.inl ha) hd hst hw hdup) (axDup_sec ..), axDup_mem .., ?_, ?_, fun hn hm => axDup_silent hm hn⟩
    · show fld ((s.axDup q.mbx (hdr q cmd)).get (R.mbxStatus q.mbx)) 31 30 = 3
      rw [axDup_status hm, fld_setFld_off (by decide) (by decide) (by decide) (by decide), fld_setFld (by decide) (by decide)]; rfl
    · show (fld ((s.axDup q.mbx (hdr q cmd)).get (R.mbxStatus q.mbx)) 28 28 == 1) = true
      rw [axDup_status hm, fld_setFld (by decide) (by decide)]
      decide
  · exact fun h7 h24 => hgo _ ((axotte_new hp (Or.inl ha) hd hst hw hdup).trans (if_pos ⟨h7, h24⟩)) hend
  · exact fun h h24 => hgo _ ((axotte_new hp (Or.inl ha) hd hst hw hdup).trans (hgate hg (axGate_handover (by rw [begun_bget secTen_below, h]) h24))) hend
  · exact fun h he h24 hn => hgo _ ((axotte_new hp (Or.inl ha) hd hst hw hdup).trans
      (hgate hg (axGate_ended (by rw [begun_bget secTen_below, h]) (by rw [begun_bget secTen_below, he]) h24 hn))) hend
  · exact fun h he hb hn => hgo _ ((axotte_new hp (Or.inl ha) hd hst hw hdup).trans
      (hgate hg (axGate_notReady (by rw [begun_bget secTen_below, h]) (by rw [begun_bget secTen_below, he]) (by rw [begun_fget stwBoot_below]; exact hb) hn))) hend
  · exact hgo _ ((axotte_new hp (Or.inr hm) hd hst hw hdup).trans
      (hgate (Or.inr hm) (axGate_sleep hm (by rw [begun_fget stwBoot_below, hb]) (by rw [begun_asleep, ha]) hg hc))) hend

/-! ### The response -/

theorem leBytes_length (n v : Nat) : (leBytes n v).length = n := by
  induction n generalizing v with
  | zero => rfl
  | succ n ih => rw [leBytes, List.length_cons, ih]

theorem mwrite_append (m : Memory) (a : Nat) (xs ys : List Byte) : mwrite m a (xs ++ ys) = mwrite (mwrite m a xs) (a + xs.length) ys := by
  induction xs generalizing m a with
  | nil => rfl
  | cons x xs ih => rw [List.cons_append, mwrite, ih, mwrite, List.length_cons, Nat.add_assoc, Nat.add_comm 1]

/-- A part of what is written is what is read where it stands. -/
theorem mread_mwrite_slice {m : Memory} {a k n : Nat} {bs : List Byte} (h : k + n ≤ bs.length) : mread (mwrite m a bs) (a + k) n = (bs.drop k).take n := by
  have hsplit : bs = bs.take k ++ ((bs.drop k).take n ++ (bs.drop k).drop n) := by rw [List.take_append_drop, List.take_append_drop]
  have hk : (bs.take k).length = k := by rw [List.length_take]; omega
  have hn : ((bs.drop k).take n).length = n := by rw [List.length_take, List.length_drop]; omega
  calc mread (mwrite m a bs) (a + k) n = mread (mwrite m a (bs.take k ++ ((bs.drop k).take n ++ (bs.drop k).drop n))) (a + k) n := by rw [← hsplit]
    _ = mread (mwrite (mwrite m a (bs.take k)) (a + k) ((bs.drop k).take n)) (a + k) n := by
      rw [mwrite_append, mwrite_append, hk, mread_mwrite_off (Or.inl (by rw [hn]))]
    _ = (bs.drop k).take n := by
      conv_lhs => arg 3; rw [← hn]
      exact mread_mwrite_on

/-- The response's mailbox status: done, not a duplicate, the status and the sequence number. -/
def respStatus (v : W64) (st : Nat) (seq : W32) : W64 := setFld (setFld (setFld (setFld v 31 30 3) 28 28 0) 23 16 st) 15 0 seq.toNat

section
variable {s : State} {m st d us : Nat} {h : Hdr} {p : List Byte}

/-- A payload of whole words that fits the window is written as it stands. -/
theorem payload_whole (h4 : p.length % 4 = 0) (hp : p.length ≤ 4080) : (pad4 p).take 4080 = p := by
  unfold pad4
  rw [h4]
  simpa using hp

theorem respBytes_length : (respBytes h st d us p).length = 16 + p.length := by
  unfold respBytes
  simp only [List.length_append, leBytes_length]

/-- Outside management, where no completion is asked for and no reset of the function is awaited: the response, and the mailbox done and counted. -/
theorem axEndR_quiet (hm : m < 24) (hn : h.notify = false) (hf : (s.box m).flr = false) (h4 : p.length % 4 = 0) (hp : p.length ≤ 4080) :
    s.axEndR m h st d us p = ((State.setBox { s with mem := mwrite s.mem (mbxBase m + 0x1000) (respBytes h st d us p) } m
        { (s.box m) with cur := none, begun := false, last := some h }).set (R.mbxStatus m) (respStatus (s.get (R.mbxStatus m)) st h.seq)).bump
      (R.mbxCount m) 32 1 := by
  unfold State.axEndR
  rw [payload_whole h4 hp]
  dsimp only
  rw [notify_none hm hn]
  refine if_neg ?_
  unfold State.bump
  rw [box_set, box_set, box_setBox]
  exact fun h => Bool.false_ne_true (hf.symm.trans h)

theorem respStatus_state {v : W64} {seq : W32} : fld (respStatus v st seq) 31 30 = 3 := by
  unfold respStatus
  rw [fld_setFld_off (by decide) (by decide) (by decide) (by decide), fld_setFld_off (by decide) (by decide) (by decide) (by decide),
    fld_setFld_off (by decide) (by decide) (by decide) (by decide), fld_setFld (by decide) (by decide)]
  rfl

theorem respStatus_status {v : W64} {seq : W32} : fld (respStatus v st seq) 23 16 = st % 256 := by
  unfold respStatus
  rw [fld_setFld_off (by decide) (by decide) (by decide) (by decide), fld_setFld (by decide) (by decide)]
  rfl

theorem respStatus_seq {v : W64} {seq : W32} : fld (respStatus v st seq) 15 0 = seq.toNat % 65536 := fld_setFld (by decide) (by decide)

theorem respStatus_dup {v : W64} {seq : W32} : fld (respStatus v st seq) 28 28 = 0 := by
  unfold respStatus
  rw [fld_setFld_off (by decide) (by decide) (by decide) (by decide), fld_setFld_off (by decide) (by decide) (by decide) (by decide),
    fld_setFld (by decide) (by decide)]
  rfl

theorem respStatus_overrun {v : W64} {seq : W32} : fld (respStatus v st seq) 29 29 = fld v 29 29 := by
  unfold respStatus
  rw [fld_setFld_off (by decide) (by decide) (by decide) (by decide), fld_setFld_off (by decide) (by decide) (by decide) (by decide),
    fld_setFld_off (by decide) (by decide) (by decide) (by decide), fld_setFld_off (by decide) (by decide) (by decide) (by decide)]

theorem satInc_min {w v : Nat} : satInc w v 1 = min (2 ^ w - 1) (v + 1) := by
  have := Nat.two_pow_pos w
  unfold satInc
  split <;> omega

end

/-- A state with its memory, registers and mailboxes replaced. -/
abbrev replaced (s : State) (m : Memory) (g : Tbl W64) (b : Tbl Mbx) : State := { s with mem := m, regs := g, mbx := b }

theorem replaced_set (s : State) (r : Reg) (v : W64) (m : Memory) (g : Tbl W64) (b : Tbl Mbx) : replaced (s.set r v) m g b = replaced s m g b := rfl
theorem replaced_setBox (s : State) (k : Nat) (x : Mbx) (m : Memory) (g : Tbl W64) (b : Tbl Mbx) : replaced (s.setBox k x) m g b = replaced s m g b := rfl

/-- Settles O7. -/
theorem responseForm : Obligations.ResponseForm := by
  unfold Obligations.ResponseForm
  intro s m st d us h p hm hn hf h4 hp t w
  have ht : t = _ := axEndR_quiet hm hn hf h4 hp
  have hmem : t.mem = mwrite s.mem w (respBytes h st d us p) := by rw [ht, bump_mem, set_mem, setBox_mem]
  have hlen := respBytes_length (h := h) (st := st) (d := d) (us := us) (p := p)
  have hpart (k n : Nat) (hk : k + n ≤ 16 + p.length) : mread t.mem (w + k) n = ((respBytes h st d us p).drop k).take n := by
    rw [hmem]; exact mread_mwrite_slice (by rw [hlen]; exact hk)
  have hst : t.get (R.mbxStatus m) = respStatus (s.get (R.mbxStatus m)) st h.seq := by
    rw [ht]; exact (get_set_off mbxCount_ne).trans (get_set_self ..)
  have hfld (hi lo : Nat) : t.fget (R.mbxStatus m) hi lo = fld (respStatus (s.get (R.mbxStatus m)) st h.seq) hi lo := by
    unfold State.fget; rw [hst]
  refine ⟨hpart 0 2 (by omega), hpart 2 1 (by omega), hpart 3 1 (by omega), hpart 4 2 (by omega), hpart 6 2 (by omega), hpart 8 4 (by omega), hpart 12 4 (by omega),
    ?_, ?_, ?_, ?_, ?_, ?_, ?_, ?_, ?_, ?_, ?_, ?_, ?_, ?_, ?_⟩
  · rw [hpart 16 p.length (Nat.le_refl _)]
    exact List.take_length
  · intro a ha
    rw [hmem, mget_mwrite_off (by omega)]
  · exact (hfld 31 30).trans respStatus_state
  · exact (hfld 23 16).trans respStatus_status
  · exact (hfld 15 0).trans respStatus_seq
  · unfold State.bget
    rw [hfld, respStatus_dup]; rfl
  · unfold State.bget
    rw [hfld, respStatus_overrun]; rfl
  · rw [ht]
    unfold State.bump
    rw [get_set_self, get_set_off mbxCount_ne.symm, setBox_get, BitVec.toNat_ofNat, satInc_min]
    exact Nat.mod_eq_of_lt (by omega)
  · intro r h1 h2
    rw [ht]
    exact (get_set_off h2).trans ((get_set_off h1).trans rfl)
  · rw [ht]
    unfold State.bump
    rw [box_set, box_set, box_setBox]
  · rw [ht]
    unfold State.bump
    rw [box_set, box_set, box_setBox]
  · intro n hnm
    rw [ht]
    unfold State.bump
    rw [box_set, box_set, box_setBox_off hnm]
    rfl
  · rw [ht]
    unfold State.bump
    rw [set_out, set_out, setBox_out]
  · rw [ht]
    unfold State.bump
    rw [set_pending, set_pending, setBox_pending]
  · rw [ht]
    exact (replaced_set ..).trans ((replaced_set ..).trans (replaced_setBox ..))

end Sys2Proof.Machine
end

section
/-! Slots of a bundle and the next bundle (chapter 4): the scalar unit, the lanes of the vector engine, branches and loops. -/

namespace Sys2Proof.Machine

open Sys2Proof.Spec

/-! ### A slot that is due -/

section
variable {s v : State} {t : Nat} {b : W64} {i : Instr} {eff : State → State}

/-- A slot command whose slot is due and whose bundle holds its operation has its effect on the state in which the bundle is open. -/
theorem exec_slot {k : Nat} {fits : Bool} (ht : t < 2176) (hfit : fits = true) (h : Due s t b k) (e : (opened s t b k).slotRun t k eff = v)
    (hx : exec i s = slotCmd t fits (s.slot t b k eff)) : exec i s = .next v := by
  rw [hx, slotCmd, if_neg (by omega), if_pos hfit, slot_due eff h, e]

/-- The control slot is the last of its bundle: its effect is all. -/
theorem slotRun_ctl (u : State) (t : Nat) (eff : State → State) : u.slotRun t 2 eff = eff u := by
  unfold State.slotRun
  exact if_neg fun h => absurd h.1 (by decide)

theorem exec_ctl {op : Nat} (ht : t < 2176) (hop : cOp b = op) (h : Due s t b 2) (e : eff (opened s t b 2) = v) (hx : exec i s = ctlCmd t b op s eff) :
    exec i s = .next v :=
  exec_slot ht (beq_iff_eq.2 hop) h ((slotRun_ctl ..).trans e) hx

theorem exec_vec {op : Nat} (ht : t < 2176) (hop : vOp b = op) (h : Due s t b 1) (e : (opened s t b 1).slotRun t 1 eff = v)
    (hx : exec i s = vecCmd t b op s eff) : exec i s = .next v :=
  exec_slot ht (beq_iff_eq.2 hop) h e hx

end

/-! ### The scalar unit -/

/-- The effect of an ALU or ALUI row: the function of the destination and of the second operand. -/
def aluDo (imm : Bool) (t : Nat) (b : W64) (f : Nat) (u : State) : State :=
  let d := nbits (cSlot b) 10 6
  let y := if imm then BitVec.ofNat 32 (nbits (cSlot b) 5 1) else u.sr t (nbits (cSlot b) 5 1)
  (u.setSr t d (aluFn f (u.sr t d) y)).next t

theorem exec_alu {i : Instr} {t f : Nat} {b : W64} {imm : Bool} (s : State) (h : aluRow i = some (t, b, f, imm)) :
    exec i s = aluCmd t b (if imm then 2 else 1) f s (aluDo imm t b f) := by
  cases i <;> cases h <;> rfl

theorem sub_eq_ofInt (x y : W32) : x - y = BitVec.ofInt 32 ((x.toNat : Int) - y.toNat) := by
  refine BitVec.eq_of_toNat_eq ?_
  rw [BitVec.toNat_sub, BitVec.toNat_ofInt]
  omega

theorem ushiftRight_eq_ofNat (x : W32) (n : Nat) : x >>> n = BitVec.ofNat 32 (x.toNat / 2 ^ n) := by
  refine BitVec.eq_of_toNat_eq ?_
  rw [BitVec.toNat_ushiftRight, Nat.shiftRight_eq_div_pow, BitVec.toNat_ofNat]
  exact (Nat.mod_eq_of_lt (Nat.lt_of_le_of_lt (Nat.div_le_self ..) x.isLt)).symm

/-- The model's functions are those of the table. -/
theorem aluFn_eq (f : Nat) (x y : W32) : aluFn f x y = aluVal f x y := by
  match f with
  | 0 => exact BitVec.eq_of_toNat_eq (by simp [aluFn, aluVal])
  | 1 => exact sub_eq_ofInt x y
  | 2 | 3 | 4 => rfl
  | 5 => exact BitVec.eq_of_toNat_eq (by simp [aluFn, aluVal, Nat.shiftLeft_eq])
  | 6 => exact ushiftRight_eq_ofNat ..
  | 7 => simp [aluFn, aluVal, BitVec.sshiftRight, Int.shiftRight_eq_div_pow]
  | 8 => exact BitVec.eq_of_toNat_eq (by simp [aluFn, aluVal])
  | 9 | 11 | 12 => simp [aluFn, aluVal, BitVec.slt]
  | 10 => simp [aluFn, aluVal, BitVec.ult]
  | _ + 13 => rfl

/-- Settles O20. -/
theorem scalarUnit : Obligations.ScalarUnit := by
  unfold Obligations.ScalarUnit
  intro i t b f imm s hi ht hop hf h
  refine exec_slot ht ?_ h ?_ (exec_alu s hi)
  · rw [hop, hf, beq_self_eq_true, beq_self_eq_true]; rfl
  · rw [slotRun_ctl, aluDo, aluFn_eq]

/-- What a register reads depends on the registers alone. -/
theorem get_of_regs {s t : State} (h : s.regs = t.regs) (r : Reg) : s.get r = t.get r := by
  unfold State.get; rw [h]

/-! ### The close of a bundle -/

section
variable {s : State} {t : Nat}

@[simp] theorem setSr_get (s : State) (t r : Nat) (v : W32) (x : Reg) : (s.setSr t r v).get x = s.get x := get_of_regs (setSr_regs ..) x
@[simp] theorem modTile_get (s : State) (t : Nat) (f : Tile → Tile) (x : Reg) : (s.modTile t f).get x = s.get x := get_of_regs (modTile_regs ..) x

theorem closeB_regs (s : State) (t : Nat) : (s.closeB t).regs = s.regs := by
  unfold State.closeB
  rw [modTile_regs]
  split
  · split
    · exact setSr_regs ..
    · rfl
  · rfl

theorem closeB_mem (s : State) (t : Nat) : (s.closeB t).mem = s.mem := by
  unfold State.closeB
  rw [modTile_mem]
  split
  · split
    · exact setSr_mem ..
    · rfl
  · rfl

theorem closeB_get (s : State) (t : Nat) (r : Reg) : (s.closeB t).get r = s.get r := get_of_regs (closeB_regs s t) r

theorem closeB_bundle (s : State) (t : Nat) : ((s.closeB t).tile t).bundle = none := by
  unfold State.closeB
  rw [tile_modTile, if_pos rfl]

theorem tile_setSr_off {q r : Nat} {v : W32} (h : q ≠ t) : (s.setSr t r v).tile q = s.tile q := by
  unfold State.setSr
  split
  · rfl
  · rw [tile_modTile, if_neg h]

theorem closeB_tile_off {q : Nat} (h : q ≠ t) : (s.closeB t).tile q = s.tile q := by
  unfold State.closeB
  rw [tile_modTile, if_neg h]
  split
  · split
    · exact tile_setSr_off h
    · rfl
  · rfl

/-! ### The next index -/

/-- The sequencer's status after a bundle: no stall, and the next index. -/
def seqNext (v : W64) (n : Nat) : W64 := setFld (setFld v 27 24 0) 15 0 n

theorem seqNext_pc {v : W64} {n : Nat} (h : n < 65536) : fld (seqNext v n) 15 0 = n := by
  unfold seqNext
  rw [fld_setFld (by decide) (by decide)]
  exact Nat.mod_eq_of_lt h

theorem seqNext_stall {v : W64} {n : Nat} : fld (seqNext v n) 27 24 = 0 := by
  unfold seqNext
  rw [fld_setFld_off (by decide) (by decide) (by decide) (by decide), fld_setFld (by decide) (by decide)]
  exact Nat.zero_mod _

/-- The fields of the status other than the stall code and the index stay. -/
theorem seqNext_off {v : W64} {n hi lo : Nat} (hl : lo ≤ hi) (h16 : 16 ≤ lo) (h : hi < 24 ∨ 27 < lo) : fld (seqNext v n) hi lo = fld v hi lo := by
  unfold seqNext
  rw [fld_setFld_off (by decide) (by decide) hl (by omega), fld_setFld_off (by decide) (by decide) hl (by omega)]

theorem seqStatus_ne_issued {t : Nat} : (R.tileSeqStatus t).addr ≠ (R.tileSeqIssued t).addr := by dsimp only; omega

theorem finishB_in {n : Int} (h0 : 0 ≤ n) (h : n ≤ 0xFFFF) :
    s.finishB t n = ((s.closeB t).set (R.tileSeqStatus t) (seqNext (s.get (R.tileSeqStatus t)) n.toNat)).bump (R.tileSeqIssued t) 32 1 := by
  have hgo : ¬ (n < 0 ∨ 0xFFFF < n) := by omega
  simp only [State.finishB, if_neg hgo, closeB_get, seqNext]

theorem finishB_out {n : Int} (h : n < 0 ∨ 0xFFFF < n) : s.finishB t n = s.slotKill t 9 2 0 := if_pos h

theorem finishB_status {n : Int} (h0 : 0 ≤ n) (h : n ≤ 0xFFFF) :
    (s.finishB t n).get (R.tileSeqStatus t) = seqNext (s.get (R.tileSeqStatus t)) n.toNat := by
  rw [finishB_in h0 h]
  exact (get_set_off seqStatus_ne_issued).trans (get_set_self ..)

theorem finishB_pc {n : Int} (h0 : 0 ≤ n) (h : n ≤ 0xFFFF) : ((s.finishB t n).pc t : Int) = n := by
  unfold State.pc State.fget
  rw [finishB_status h0 h, seqNext_pc (by omega)]
  omega

/-- The other registers stay. -/
theorem finishB_get {n : Int} {r : Reg} (h0 : 0 ≤ n) (h : n ≤ 0xFFFF) (h1 : r.addr ≠ (R.tileSeqStatus t).addr) (h2 : r.addr ≠ (R.tileSeqIssued t).addr) :
    (s.finishB t n).get r = s.get r := by
  rw [finishB_in h0 h]
  exact (get_set_off h2).trans ((get_set_off h1).trans (closeB_get ..))

theorem pc_nonneg_succ {p : Nat} (h : p < 0xFFFF) : (0 : Int) ≤ ((p + 1 : Nat) : Int) ∧ ((p + 1 : Nat) : Int) ≤ 0xFFFF := by omega

/-! ### A bundle outside loops, a branch, and a loop's end -/

theorem next_plain (hl : (s.tile t).loopOrd = []) : s.next t = s.finishB t ((s.pc t + 1 : Nat) : Int) := by
  simp only [State.next, State.fall, hl, State.after]

theorem branch_plain {off : Int} (hl : (s.tile t).loopOrd = []) :
    s.branch t off = (s.modTile t fun x => { x with codeOld := [], loopBuf := [] }).finishB t ((s.pc t : Int) + off) := by
  simp only [State.branch, State.leaveLoops, hl, List.filter_nil, List.foldl_nil]

theorem next_loops {n : Nat} {ns : List Nat} (hl : (s.tile t).loopOrd = n :: ns) (hlast : s.loopLast t n = s.pc t)
    (hc : 1 < (s.get (R.tileSeqLoop t n)).toNat) :
    s.next t = (s.set (R.tileSeqLoop t n) (BitVec.ofNat 64 ((s.get (R.tileSeqLoop t n)).toNat - 1))).finishB t (s.loopFirst t n) := by
  simp only [State.next, State.fall, hl, State.after, hlast, hc, ne_eq, not_true_eq_false, if_false, if_true]

theorem next_loopEnds {n : Nat} (hl : (s.tile t).loopOrd = [n]) (hlast : s.loopLast t n = s.pc t) (hc : (s.get (R.tileSeqLoop t n)).toNat ≤ 1) :
    s.next t = (s.loopEnd t n).finishB t ((s.pc t + 1 : Nat) : Int) := by
  have hc' : ¬ 1 < (s.get (R.tileSeqLoop t n)).toNat := by omega
  simp only [State.next, State.fall, hl, State.after, hlast, hc', ne_eq, not_true_eq_false, if_false]

end

/-- Settles O22. -/
theorem bundleSequence : Obligations.BundleSequence := by
  unfold Obligations.BundleSequence
  refine ⟨fun s t hl hp => ?_, fun s t off hl => ⟨fun h0 h => ?_, fun h => ?_⟩, fun s t n ns ht hn hl hlast => ⟨fun h1 h32 => ?_, fun h1 hns hp => ?_⟩⟩
  · obtain ⟨h0, hF⟩ := pc_nonneg_succ hp
    have hst := finishB_status (s := s) (t := t) h0 hF
    intro u
    have hu : u = s.finishB t ((s.pc t + 1 : Nat) : Int) := next_plain hl
    rw [hu]
    refine ⟨Int.ofNat_inj.1 (finishB_pc h0 hF), ?_, ?_, ?_, ?_, ?_, ?_, ?_⟩
    · unfold State.fget; rw [hst, seqNext_stall]
    · unfold State.bget State.fget; rw [hst, seqNext_off (by decide) (by decide) (by decide)]
    · unfold State.fget; rw [hst, seqNext_off (by decide) (by decide) (by decide)]
    · rw [finishB_in h0 hF]
      unfold State.bump
      rw [get_set_self, get_set_off seqStatus_ne_issued.symm, closeB_get, BitVec.toNat_ofNat, satInc_min]
      exact Nat.mod_eq_of_lt (by omega)
    · rw [finishB_in h0 hF]
      unfold State.bump
      rw [tile_set, tile_set, closeB_bundle]
    · rw [finishB_in h0 hF, bump_mem, set_mem, closeB_mem]
    · intro q hq
      rw [finishB_in h0 hF]
      unfold State.bump
      rw [tile_set, tile_set, closeB_tile_off hq]
  · rw [branch_plain hl]
    exact finishB_pc h0 h
  · rw [branch_plain hl]
    exact finishB_out h
  · have hF : s.loopFirst t n < 65536 := fld_lt ..
    rw [next_loops hl hlast h1]
    refine ⟨Int.ofNat_inj.1 (finishB_pc (by omega) (by omega)), ?_⟩
    rw [finishB_get (by omega) (by omega) (by dsimp only; omega) (by dsimp only; omega), get_set_self, BitVec.toNat_ofNat]
    exact Nat.mod_eq_of_lt (by omega)
  · subst hns
    obtain ⟨h0, hF⟩ := pc_nonneg_succ hp
    rw [next_loopEnds hl hlast h1]
    refine ⟨Int.ofNat_inj.1 (finishB_pc h0 hF), ?_⟩
    unfold State.bget State.fget
    rw [finishB_status h0 hF, seqNext_off (Nat.le_refl _) (by omega) (by omega)]
    unfold State.loopEnd
    rw [modTile_get]
    exact bget_bset (by omega)

/-! ### The lanes of the vector engine -/

/-- The lane functions as the rows of the model give them: those of the table, but for the numbers that stand for the same 32 bits. -/
def laneFn (op : Nat) (ftz : Bool) (mode x y d : Nat) : Nat × Nat :=
  match op with
  | 0x07 => (lane1 (fGt (ftzIn ftz x) (ftzIn ftz y)), 0)
  | 0x08 => (lane1 (fEq (ftzIn ftz x) (ftzIn ftz y)), 0)
  | 0x09 => (if d = 0 then y else x, 0)
  | 0x0A => (x + y, 0)
  | 0x0B => (x + (2 ^ 32 - y), 0)
  | 0x0C => (x * y, 0)
  | 0x12 => (sra32 x y, 0)
  | _ => laneVal op ftz mode x y d

theorem exec_lane {i : Instr} {t op : Nat} {b : W64} (s : State) (h : laneRow i = some (t, b, op)) :
    exec i s = vecCmd t b op s fun u => u.lanes3 t (vSlot b) fun x y d => laneFn op (u.ftz t) (u.vmode t (vSlot b)) x y d := by
  cases i <;> cases h <;> rfl

theorem sext_toInt (x : Nat) : sext 32 x = (BitVec.ofNat 32 x).toInt := by
  unfold sext
  rw [BitVec.toInt_eq_toNat_cond, BitVec.toNat_ofNat]
  have : 2 * (x % 2 ^ 32) < 2 ^ 32 ↔ x % 2 ^ 32 < 2 ^ (32 - 1) := by omega
  simp only [this]

theorem sra32_eq (x n : Nat) : BitVec.ofNat 32 (sra32 x n) = (BitVec.ofNat 32 x).sshiftRight (n % 32) := by
  unfold sra32
  rw [sext_toInt, BitVec.sshiftRight, Int.shiftRight_eq_div_pow]
  refine BitVec.eq_of_toNat_eq ?_
  rw [BitVec.toNat_ofInt, BitVec.toNat_ofNat]
  unfold wrap
  omega

/-- A row's function gives the 32 bits and the flags of the table's. -/
theorem laneFn_same (op : Nat) (ftz : Bool) (mode : Nat) {x y : Nat} (d : Nat) (hy : y < 2 ^ 32) :
    BitVec.ofNat 32 (laneFn op ftz mode x y d).1 = BitVec.ofNat 32 (laneVal op ftz mode x y d).1
      ∧ (laneFn op ftz mode x y d).2 = (laneVal op ftz mode x y d).2 := by
  unfold laneFn
  split
  · exact ⟨rfl, rfl⟩
  · exact ⟨rfl, rfl⟩
  · refine ⟨?_, rfl⟩
    simp only [laneVal, ne_eq, ite_not]
  · exact ⟨BitVec.eq_of_toNat_eq (by simp [laneVal]), rfl⟩
  · refine ⟨BitVec.eq_of_toNat_eq ?_, rfl⟩
    simp only [laneVal, BitVec.toNat_ofNat, Nat.mod_mod]
    omega
  · exact ⟨BitVec.eq_of_toNat_eq (by simp [laneVal]), rfl⟩
  · refine ⟨?_, rfl⟩
    rw [sra32_eq]
    simp only [laneVal, BitVec.ofNat_toNat, BitVec.setWidth_eq]
  · exact ⟨rfl, rfl⟩

/-- The lanes of a function, by another that gives every lane the same 32 bits and flags. -/
theorem lanes3_of {u : State} {t v : Nat} {f : Nat → Nat → Nat → Nat × Nat} {r : Nat → Nat × Nat}
    (h : ∀ l, BitVec.ofNat 32 (f (u.ops3 t v l).1 (u.ops3 t v l).2.1 (u.ops3 t v l).2.2).1 = BitVec.ofNat 32 (r l).1
      ∧ (f (u.ops3 t v l).1 (u.ops3 t v l).2.1 (u.ops3 t v l).2.2).2 = (r l).2) :
    u.lanes3 t v f = (u.setVrow t (nbits v 17 13) ((List.range 64).map fun l => BitVec.ofNat 32 (r l).1)).flagV t
      ((List.range 64).foldl (fun f l => f ||| (r l).2) 0) := by
  simp only [State.lanes3, gather, List.map_map, List.foldl_map, Function.comp_def, h]

/-- What a lane-by-lane row does: a function of the table at every lane of vd, and its flags. -/
theorem lanes_eq (u : State) (t op : Nat) (b : W64) :
    let v := vSlot b
    let r (l : Nat) : Nat × Nat := laneVal op (u.ftz t) (u.vmode t v) (u.vr t (nbits v 12 8) l).toNat (u.vr t (nbits v 7 3) l).toNat (u.vr t (nbits v 17 13) l).toNat
    (u.lanes3 t v fun x y d => laneFn op (u.ftz t) (u.vmode t v) x y d)
      = (u.setVrow t (nbits v 17 13) ((List.range 64).map fun l => BitVec.ofNat 32 (r l).1)).flagV t ((List.range 64).foldl (fun f l => f ||| (r l).2) 0) :=
  lanes3_of fun _ => laneFn_same op _ _ _ (BitVec.isLt _)

/-- A slot before the last has its effect on the state alone in which it executes. -/
theorem slotRun_congr {u : State} {t k : Nat} {e f : State → State} (h : e u = f u) : u.slotRun t k e = u.slotRun t k f := by
  unfold State.slotRun; rw [h]

/-- Settles O23. -/
theorem vectorLanes : Obligations.VectorLanes := by
  unfold Obligations.VectorLanes
  refine ⟨fun i t b op s hi ht hop h => ?_, fun s t r vs ht hlen => ⟨fun l hl => ?_, fun q l hq hl => ?_, fun a i j => acc_setVrow .., fun k => sr_setVrow ..,
    fun q hq => ?_, modTile_regs .., setVrow_mem ..⟩⟩
  · exact exec_vec ht hop h (slotRun_congr (lanes_eq (opened s t b 1) t op b)) (exec_lane s hi)
  · rw [vr_setVrow _ _ _ _ _ _ hl, if_pos ⟨rfl, rfl⟩]
  · rw [vr_setVrow _ _ _ _ _ _ hl, if_neg fun h => hq h.2]
  · exact (tile_modTile ..).trans (if_neg hq)

end Sys2Proof.Machine
end

section
/-! What the commands of one tile leave as it was: memory, the other tiles, the log, the messages, the registers outside the tile's block, and
the tile's register files. -/

namespace Sys2Proof.Machine

open Sys2Proof.Spec

/-- A register outside the block of tile t. -/
def OffTile (t : Nat) (r : Reg) : Prop := r.addr < 0x3FF100000000 + 0x100000 * t ∨ 0x3FF100000000 + 0x100000 * (t + 1) ≤ r.addr

/-- What happens in tile t alone: its typed state and the registers of its block may change. -/
structure TileOnly (t : Nat) (s v : State) : Prop where
  mem : v.mem = s.mem
  tile : ∀ q, q ≠ t → v.tile q = s.tile q
  log : v.log = s.log
  out : v.out = s.out
  get : ∀ r, OffTile t r → v.get r = s.get r

/-- A tile's scalar, vector and accumulator registers as they were. -/
structure FilesKept (t : Nat) (s v : State) : Prop where
  sreg : (v.tile t).sreg = (s.tile t).sreg
  vreg : (v.tile t).vreg = (s.tile t).vreg
  acc : (v.tile t).acc = (s.tile t).acc

section
variable {t : Nat} {s u v : State}

theorem TileOnly.refl (t : Nat) (s : State) : TileOnly t s s := ⟨rfl, fun _ _ => rfl, rfl, rfl, fun _ _ => rfl⟩
theorem FilesKept.refl (t : Nat) (s : State) : FilesKept t s s := ⟨rfl, rfl, rfl⟩

theorem TileOnly.trans (h : TileOnly t s u) (h' : TileOnly t u v) : TileOnly t s v :=
  ⟨h'.mem.trans h.mem, fun q hq => (h'.tile q hq).trans (h.tile q hq), h'.log.trans h.log, h'.out.trans h.out, fun r hr => (h'.get r hr).trans (h.get r hr)⟩
theorem FilesKept.trans (h : FilesKept t s u) (h' : FilesKept t u v) : FilesKept t s v :=
  ⟨h'.sreg.trans h.sreg, h'.vreg.trans h.vreg, h'.acc.trans h.acc⟩

theorem FilesKept.sr (h : FilesKept t s v) (r : Nat) : v.sr t r = s.sr t r := by unfold State.sr; rw [h.sreg]
theorem FilesKept.vr (h : FilesKept t s v) (r l : Nat) : v.vr t r l = s.vr t r l := by unfold State.vr; rw [h.vreg]
theorem FilesKept.accs (h : FilesKept t s v) (k r c : Nat) : v.acc t k r c = s.acc t k r c := by unfold State.acc; rw [h.acc]

/-- Both at once: something of the tile that is neither its files nor outside it. -/
def TileInner (t : Nat) (s v : State) : Prop := TileOnly t s v ∧ FilesKept t s v

theorem TileInner.refl (t : Nat) (s : State) : TileInner t s s := ⟨.refl t s, .refl t s⟩
theorem TileInner.trans (h : TileInner t s u) (h' : TileInner t u v) : TileInner t s v := ⟨h.1.trans h'.1, h.2.trans h'.2⟩

/-! ### The parts -/

theorem tileOnly_modTile (s : State) (t : Nat) (f : Tile → Tile) : TileOnly t s (s.modTile t f) :=
  ⟨modTile_mem .., fun _ hq => (tile_modTile ..).trans (if_neg hq), rfl, rfl, fun _ _ => modTile_get ..⟩

theorem tileInner_modTile {f : Tile → Tile} (hf : ∀ x, (f x).sreg = x.sreg ∧ (f x).vreg = x.vreg ∧ (f x).acc = x.acc) (s : State) : TileInner t s (s.modTile t f) :=
  ⟨tileOnly_modTile s t f, modTile_keeps (fun x => (hf x).1) .., modTile_keeps (fun x => (hf x).2.1) .., modTile_keeps (fun x => (hf x).2.2) ..⟩

theorem tileInner_set {r : Reg} {x : W64} (h : ¬ OffTile t r) (s : State) : TileInner t s (s.set r x) :=
  ⟨⟨set_mem .., fun q _ => tile_set .., set_log .., set_out .., fun y hy => get_set_off fun e => h (by unfold OffTile; rw [← e]; exact hy)⟩,
    congrArg Tile.sreg (tile_set ..), congrArg Tile.vreg (tile_set ..), congrArg Tile.acc (tile_set ..)⟩

theorem tileOnly_setSr (s : State) (t r : Nat) (x : W32) : TileOnly t s (s.setSr t r x) := by
  unfold State.setSr
  split
  · exact .refl ..
  · exact tileOnly_modTile ..

/-- A latent error met in the tile's own memory is kept apart from memory itself, and counted in its block. -/
theorem tileInner_lmMeet (s : State) (t a n : Nat) : TileInner t s (s.lmMeet t a n) := by
  unfold State.lmMeet
  dsimp only
  split
  · exact .refl ..
  · refine .trans ?_ (tileInner_set (by unfold OffTile; dsimp only; omega) _)
    refine .trans ?_ (tileInner_set (by unfold OffTile; dsimp only; omega) _)
    exact ⟨⟨rfl, fun _ _ => rfl, rfl, rfl, fun _ _ => rfl⟩, rfl, rfl, rfl⟩

theorem tileInner_lmMeetAt (s : State) (t off n : Nat) : TileInner t s (s.lmMeetAt t off n) := by
  unfold State.lmMeetAt
  dsimp only
  split
  · exact tileInner_lmMeet ..
  · exact (tileInner_lmMeet ..).trans (tileInner_lmMeet ..)

theorem tileInner_served (s : State) (t r : Nat) : TileInner t s (s.served t r) := tileInner_modTile (fun _ => by exact ⟨rfl, rfl, rfl⟩) s

theorem tileInner_opened (s : State) (t : Nat) (b : W64) (k : Nat) : TileInner t s (opened s t b k) := by
  unfold opened
  split
  · exact .refl ..
  · refine .trans ?_ (tileInner_modTile (fun _ => by exact ⟨rfl, rfl, rfl⟩) _)
    unfold fetched
    split
    · exact (tileInner_lmMeetAt ..).trans (tileInner_served ..)
    · exact .refl ..

/-! ### The close of a bundle -/

/-- A bundle with no write of a VGET pending closes without a write of its files. -/
theorem tileInner_closeB (hb : ∀ o, (s.tile t).bundle = some o → o.vget = none) : TileInner t s (s.closeB t) := by
  unfold State.closeB
  refine .trans ?_ (tileInner_modTile (fun _ => by exact ⟨rfl, rfl, rfl⟩) _)
  split
  · next o ho => rw [hb o ho]; exact .refl ..
  · exact .refl ..

theorem tileInner_finishB {n : Int} (h0 : 0 ≤ n) (h : n ≤ 0xFFFF) (hb : ∀ o, (s.tile t).bundle = some o → o.vget = none) : TileInner t s (s.finishB t n) := by
  rw [finishB_in h0 h]
  refine .trans (tileInner_closeB hb) ?_
  exact (tileInner_set (by unfold OffTile; dsimp only; omega) _).trans (tileInner_set (by unfold OffTile; dsimp only; omega) _)

/-- What a loop's count and end leave. -/
theorem tileInner_loopEnd {n : Nat} (hn : n < 4) (s : State) : TileInner t s (s.loopEnd t n) := by
  unfold State.loopEnd
  refine .trans ?_ (tileInner_modTile (fun _ => by exact ⟨rfl, rfl, rfl⟩) _)
  exact (tileInner_set (by unfold OffTile; dsimp only; omega) s).trans (tileInner_set (by unfold OffTile; dsimp only; omega) _)

theorem bundle_loopEnd (s : State) (t n : Nat) : ((s.loopEnd t n).tile t).bundle = (s.tile t).bundle := modTile_keeps (part := Tile.bundle) (fun _ => by rfl) ..

/-- The next index lies within 16 bits; the walk over the loops leaves the tile's files, its open bundle and all outside it. -/
theorem after_inner (t p : Nat) (hp : p < 0xFFFF) (l : List Nat) (s : State) (hl : ∀ n ∈ l, n < 4) :
    TileInner t s (s.after t p l).1 ∧ ((s.after t p l).1.tile t).bundle = (s.tile t).bundle ∧ (s.after t p l).2 ≤ 0xFFFF := by
  induction l generalizing s with
  | nil => exact ⟨.refl .., rfl, hp⟩
  | cons n ns ih =>
    have hns : ∀ m ∈ ns, m < 4 := fun m hm => hl m (List.mem_cons_of_mem _ hm)
    have hn : n < 4 := hl n List.mem_cons_self
    unfold State.after
    dsimp only
    split
    · exact ih s hns
    · split
      · exact ⟨tileInner_set (by unfold OffTile; dsimp only; omega) s, rfl, Nat.le_of_lt_succ fld_lt⟩
      · obtain ⟨h1, h2, h3⟩ := ih (s.loopEnd t n) hns
        exact ⟨(tileInner_loopEnd hn s).trans h1, h2.trans (bundle_loopEnd ..), h3⟩

theorem tileInner_next (hp : s.pc t < 0xFFFF) (hl : ∀ n ∈ (s.tile t).loopOrd, n < 4) (hb : ∀ o, (s.tile t).bundle = some o → o.vget = none) :
    TileInner t s (s.next t) := by
  obtain ⟨h1, h2, h3⟩ := after_inner t (s.pc t) hp (s.tile t).loopOrd s hl
  have h := tileInner_finishB (s := (s.after t (s.pc t) (s.tile t).loopOrd).1) (t := t) (n := (s.after t (s.pc t) (s.tile t).loopOrd).2) (by omega) (by omega)
    fun o ho => hb o (h2.symm.trans ho)
  exact h1.trans h

/-! ### What an open bundle keeps of the tile -/

theorem loopOrd_setSr {r : Nat} {x : W32} : ((s.setSr t r x).tile t).loopOrd = (s.tile t).loopOrd := by
  unfold State.setSr
  split
  · rfl
  · exact modTile_keeps (part := Tile.loopOrd) (fun _ => by rfl) ..

theorem bundle_setSr {r : Nat} {x : W32} : ((s.setSr t r x).tile t).bundle = (s.tile t).bundle := by
  unfold State.setSr
  split
  · rfl
  · exact modTile_keeps (part := Tile.bundle) (fun _ => by rfl) ..

theorem lmMeet_tile (s : State) (t a n q : Nat) : (s.lmMeet t a n).tile q = s.tile q := by
  unfold State.lmMeet
  dsimp only
  split
  · rfl
  · exact (tile_set ..).trans ((tile_set ..).trans rfl)

theorem lmMeetAt_tile (s : State) (t off n q : Nat) : (s.lmMeetAt t off n).tile q = s.tile q := by
  unfold State.lmMeetAt
  dsimp only
  split
  · exact lmMeet_tile ..
  · exact (lmMeet_tile ..).trans (lmMeet_tile ..)

/-- Errors met in a tile's memory leave every register of its block but the two error counts. -/
theorem lmMeet_get {a n : Nat} {r : Reg} (h1 : r.addr ≠ (R.tileLmCe t).addr) (h2 : r.addr ≠ (R.tileLmUe t).addr) : (s.lmMeet t a n).get r = s.get r := by
  unfold State.lmMeet
  dsimp only
  split
  · rfl
  · exact (get_set_off h2).trans ((get_set_off h1).trans rfl)

theorem lmMeetAt_get {off n : Nat} {r : Reg} (h1 : r.addr ≠ (R.tileLmCe t).addr) (h2 : r.addr ≠ (R.tileLmUe t).addr) : (s.lmMeetAt t off n).get r = s.get r := by
  unfold State.lmMeetAt
  dsimp only
  split
  · exact lmMeet_get h1 h2
  · exact (lmMeet_get h1 h2).trans (lmMeet_get h1 h2)

theorem fetched_get {r : Reg} (h1 : r.addr ≠ (R.tileLmCe t).addr) (h2 : r.addr ≠ (R.tileLmUe t).addr) : (fetched s t).get r = s.get r := by
  unfold fetched
  split
  · exact (modTile_get ..).trans (lmMeetAt_get h1 h2)
  · rfl

theorem opened_get {b : W64} {k : Nat} {r : Reg} (h1 : r.addr ≠ (R.tileLmCe t).addr) (h2 : r.addr ≠ (R.tileLmUe t).addr) : (opened s t b k).get r = s.get r := by
  unfold opened
  split
  · rfl
  · exact (modTile_get ..).trans (fetched_get h1 h2)

theorem seqStatus_ne_lm : (R.tileSeqStatus t).addr ≠ (R.tileLmCe t).addr ∧ (R.tileSeqStatus t).addr ≠ (R.tileLmUe t).addr := by
  dsimp only; omega

theorem opened_status {b : W64} {k : Nat} : (opened s t b k).get (R.tileSeqStatus t) = s.get (R.tileSeqStatus t) := opened_get seqStatus_ne_lm.1 seqStatus_ne_lm.2

theorem opened_pc {b : W64} {k : Nat} : (opened s t b k).pc t = s.pc t := by
  unfold State.pc State.fget; rw [opened_status]

theorem fetched_loopOrd : ((fetched s t).tile t).loopOrd = (s.tile t).loopOrd := by
  unfold fetched
  split
  · exact (modTile_keeps (part := Tile.loopOrd) (fun _ => by rfl) ..).trans (congrArg Tile.loopOrd (lmMeetAt_tile ..))
  · rfl

theorem opened_loopOrd {b : W64} {k : Nat} : ((opened s t b k).tile t).loopOrd = (s.tile t).loopOrd := by
  unfold opened
  split
  · rfl
  · exact (modTile_keeps (part := Tile.loopOrd) (fun _ => by rfl) ..).trans fetched_loopOrd

theorem opened_vget {b : W64} {k : Nat} (hb : ∀ o, (s.tile t).bundle = some o → o.vget = none) :
    ∀ o, ((opened s t b k).tile t).bundle = some o → o.vget = none := by
  unfold opened
  split
  · exact hb
  · intro o ho
    unfold State.openB at ho
    rw [tile_modTile, if_pos rfl] at ho
    cases ho
    rfl

/-! ### Flags, and the place in the bundle -/

theorem tileInner_flagV (s : State) (t f : Nat) : TileInner t s (s.flagV t f) := by
  unfold State.flagV
  refine .trans ?_ (tileInner_modTile (fun _ => by exact ⟨rfl, rfl, rfl⟩) _)
  unfold State.flag
  split
  · exact .refl ..
  · exact tileInner_set (by unfold OffTile; dsimp only; omega) s

theorem tileInner_slotRun (s : State) (t k : Nat) (eff : State → State) : TileInner t (eff s) (s.slotRun t k eff) := by
  unfold State.slotRun
  dsimp only
  split
  · exact tileInner_modTile (fun _ => by exact ⟨rfl, rfl, rfl⟩) _
  · exact .refl ..

/-- A command that answers a next state holds the operation its slot is for. -/
theorem slotCmd_next {fits : Bool} (ht : t < 2176) (h : slotCmd t fits u = .next v) : fits = true ∧ u = v := by
  unfold slotCmd at h
  rw [if_neg (by omega)] at h
  cases fits
  · cases h
  · cases h; exact ⟨rfl, rfl⟩

end

/-- Settles O9. -/
theorem computeFrame : Obligations.ComputeFrame := by
  unfold Obligations.ComputeFrame
  intro i t b s v ht hv
  refine ⟨fun f imm hi h hp hl hb => ?_, fun op hi h => ?_⟩
  · rw [exec_alu s hi] at hv
    obtain ⟨-, he⟩ := slotCmd_next ht hv
    rw [slot_due _ h, slotRun_ctl] at he
    have ho := tileInner_opened s t b 2
    generalize hu : opened s t b 2 = u at he ho
    have hnext (x : W32) : TileInner t (u.setSr t (nbits (cSlot b) 10 6) x) ((u.setSr t (nbits (cSlot b) 10 6) x).next t) := by
      refine tileInner_next ?_ ?_ ?_
      · unfold State.pc State.fget
        rw [setSr_get, ← hu]
        exact opened_pc.trans_lt hp
      · rw [loopOrd_setSr, ← hu, opened_loopOrd]; exact hl
      · rw [bundle_setSr, ← hu]; exact opened_vget hb
    unfold aluDo at he
    dsimp only at he
    have hn := hnext (aluFn f (u.sr t (nbits (cSlot b) 10 6)) (if imm = true then BitVec.ofNat 32 (nbits (cSlot b) 5 1) else u.sr t (nbits (cSlot b) 5 1)))
    rw [he] at hn
    have hall := (ho.1.trans (tileOnly_setSr ..)).trans hn.1
    refine ⟨fun r hr => ?_, fun r l => ?_, fun k r c => ?_, fun a => by rw [hall.mem], hall.tile, hall.log, hall.out, hall.get⟩
    · rw [hn.2.sr, ← ho.2.sr]
      by_cases h0 : nbits (cSlot b) 10 6 = 0
      · rw [h0, setSr_zero]
      · rw [sr_setSr _ _ _ _ _ h0, if_neg fun h => hr h.2]
    · rw [hn.2.vr, vr_setSr, ho.2.vr]
    · rw [hn.2.accs, acc_setSr, ho.2.accs]
  · rw [exec_lane s hi] at hv
    obtain ⟨-, he⟩ := slotCmd_next ht hv
    rw [slot_due _ h] at he
    have ho := tileInner_opened s t b 1
    generalize hu : opened s t b 1 = u at he ho
    have hrun := tileInner_slotRun u t 1 fun u => u.lanes3 t (vSlot b) fun x y d => laneFn op (u.ftz t) (u.vmode t (vSlot b)) x y d
    rw [he, lanes_eq u t op b] at hrun
    have hlast := (tileInner_flagV ..).trans hrun
    have hall := (ho.1.trans (tileOnly_modTile ..)).trans hlast.1
    refine ⟨fun r => ?_, fun r l hr hl => ?_, fun k r c => ?_, fun a => by rw [hall.mem], hall.tile, hall.log, hall.out, hall.get⟩
    · rw [hlast.2.sr, sr_setVrow, ho.2.sr]
    · rw [hlast.2.vr, vr_setVrow _ _ _ _ _ _ hl, if_neg fun h => hr h.2, ho.2.vr]
    · rw [hlast.2.accs, acc_setVrow, ho.2.accs]

end Sys2Proof.Machine
end

section
/-! The control slot (chapter 4). -/

namespace Sys2Proof.Machine

open Sys2Proof.Spec

theorem nbits_low5 (c : Nat) : nbits c 4 0 = c % 32 := by
  unfold nbits
  rw [Nat.pow_zero, Nat.div_one]
  rfl

theorem nbits_lt (v hi lo : Nat) : nbits v hi lo < 2 ^ (hi + 1 - lo) := Nat.mod_lt _ (Nat.two_pow_pos _)

/-- A register shifted by 10 with a 10-bit immediate below. -/
theorem shl10_or (x : W32) {n : Nat} (hn : n < 2 ^ 10) : ((x <<< 10) ||| BitVec.ofNat 32 n) = BitVec.ofNat 32 (x.toNat * 1024 + n) := by
  refine BitVec.eq_of_toNat_eq ?_
  rw [BitVec.toNat_or, BitVec.toNat_shiftLeft, BitVec.toNat_ofNat, BitVec.toNat_ofNat, ← Nat.or_mod_two_pow, ← Nat.shiftLeft_add_eq_or_of_lt hn, Nat.shiftLeft_eq]

/-- A sum of a register and a signed immediate, modulo 2^32. -/
theorem add_ofInt (x : W32) (i : Int) : x + BitVec.ofInt 32 i = BitVec.ofInt 32 (x.toNat + i) := by
  rw [BitVec.ofInt_add, BitVec.ofInt_natCast, BitVec.ofNat_toNat, BitVec.setWidth_eq]

section
variable {u : State} {t c : Nat}

theorem lva_eq (u : State) (t c : Nat) : u.lva t c = ((u.sr t (nbits c 9 5)).toNat + 4 * nbits c 4 0) % 0x80000 := by
  rw [nbits_low5]; rfl

theorem ldDo_reads {a : Nat} (ha : u.lva t c = a) (h4 : a % 4 = 0) :
    let v := (u.lmMeetAt t a 4).served t 2
    v.lmBad t a 4 = false → u.ldDo t c = (v.setSr t (nbits c 14 10) (BitVec.ofNat 32 (leNat (v.lmRead t a 4)))).next t := by
  subst ha
  exact fun hb => (if_neg (not_not.2 h4)).trans (if_neg (by rw [hb]; exact Bool.false_ne_true))

theorem stDo_writes {a : Nat} (ha : u.lva t c = a) (h4 : a % 4 = 0) :
    u.stDo t c = ((u.seqStore t a (leBytes 4 (u.sr t (nbits c 14 10)).toNat) false).served t 2).next t := by
  subst ha
  exact if_neg (not_not.2 h4)

/-- An access whose address the tile's TLB holds goes on with its translation. -/
theorem gAccess_hit {k g : Nat} {e : TlbEnt} {store : Bool} (h4 : u.gva t c % 4 = 0) (h : u.lookup t (u.gva t c) store = .hit k e g) :
    u.gAccess t c store = if store then (u.lookupDone t 0 (u.gva t c) store).gstAt t (u.gva t c) k g ((u.lookupDone t 0 (u.gva t c) store).sr t (nbits c 14 10))
      else (u.lookupDone t 0 (u.gva t c) store).gldAt t (nbits c 14 10) (u.gva t c) k g e.nc := by
  simp only [State.gAccess, h4, h, ne_eq, not_true_eq_false, if_false]

/-- A load of this device's HBM that the tile's cache holds. -/
theorem gldAt_cached {sd va key g ck : Nat} {nc : Bool} {l : CLine} (ho : u.isOwn g = true) (hr : region (gLocal g) = .hbm) (hh : u.accHole (gLocal g) 4 .read = false)
    (hl : isLm (u.home (gLocal g)) = false) (ha : u.allocates g nc = true) (hc : u.cacheFind t (gLocal g) = some (ck, l)) (hp : l.perr = false) :
    u.gldAt t sd va key g nc = (((u.modTile t fun x => { x with cache := tput x.cache ck { l with used := true } }).bump (R.tileCacheHit t) 32 1).setSr t sd
      (BitVec.ofNat 32 (l.data.toNat / 2 ^ (8 * (gLocal g % 128))))).next t := by
  simp only [State.gldAt, ho, hr, hh, hl, ha, State.cacheLoad, hc, hp, Bool.not_true, Bool.false_eq_true, if_false, if_true, reduceCtorEq]

/-- A store to this device's HBM. -/
theorem gstAt_hbm {va key g : Nat} {v : W32} (ho : u.isOwn g = true) (hr : region (gLocal g) = .hbm) (hh : u.accHole (gLocal g) 4 (.write (leBytes 4 v.toNat)) = false)
    (hl : isLm (u.home (gLocal g)) = false) :
    u.gstAt t va key g v = ((u.cacheStore t (gLocal g) v).missPut t key
      { line := lineOf (gLocal g), cached := false, store := true, sd := 0, off := gLocal g % 128, tlb := none, req := none, va := va, data := v }).next t := by
  simp only [State.gstAt, ho, hr, hh, hl, Bool.not_true, Bool.false_eq_true, if_false, reduceCtorEq]

/-- A loop that breaks no rule is opened, or passed over where its count is 0. -/
theorem loopGo_ok {lv count n : Nat} (h : u.loopBad t lv n = false) :
    u.loopGo t lv count n = if count = 0 then u.fall t (u.pc t + n) else
      State.finishB ((((u.set (R.tileSeqLoop t lv) (BitVec.ofNat 64 count)).set (R.tileSeqLoopb t lv)
        (BitVec.ofNat 64 ((u.pc t + n) % 65536 * 65536 + (u.pc t + 1) % 65536))).bset (R.tileSeqStatus t) (16 + lv) true).modTile t
          fun x => { x with loopOrd := lv :: x.loopOrd }) t (u.pc t + 1) := if_neg (by rw [h]; exact Bool.false_ne_true)

theorem sigDo_ok {o : Nat} {v : W64} (h : o ≤ 8191) :
    let w := u.modTile t fun x => { x with sigq := x.sigq ++ [(o, v, ((u.tile t).misses.filter (fun e => e.2.store && !e.2.dead)).map (·.1))] }
    u.sigDo t o v = (w.sigFlush t (w.tile t).sigq.length).next t := if_neg (by omega)

/-- A release of flits that a ring-mode port holds. -/
theorem relDo_ok {p n k : Nat} {d : Dressing} (h31 : u.bget (R.tileSinCfg t p) 31 = true) (h30 : u.bget (R.tileSinCfg t p) 30 = true)
    (hn : n ≤ u.fget (R.tileSinStat t p) 28 16) (hu : u.countUe 4 (4 * t + p) = false) (hd : u.dressOf t = some (k, d)) :
    u.relDo t p n = State.next ((u.set (R.tileSinStat t p) (setFld (setFld (u.get (R.tileSinStat t p)) 28 16 (u.fget (R.tileSinStat t p) 28 16 - n)) 12 0
      (u.fget (R.tileSinStat t p) 12 0 + n))).creditBack d (tgetD (u.tile t).sinSrc p 0) n) t := by
  have hlt : ¬ u.fget (R.tileSinStat t p) 28 16 < n := by omega
  simp only [State.relDo, h31, h30, hlt, hu, hd, Bool.not_true, Bool.or_self, decide_false, Bool.false_eq_true, if_false]
  rfl

/-! ### END -/

/-- The two bits of a status' state, by themselves. -/
theorem fld_bit31 (v : W64) : fld v 31 31 = fld v 31 30 / 2 := by
  unfold fld nbits
  omega
theorem fld_bit30 (v : W64) : fld v 30 30 = fld v 31 30 % 2 := by
  unfold fld nbits
  omega

theorem endDo_status (u : State) (t : Nat) : (u.endDo t).get (R.tileSeqStatus t) =
    setFld (setFld (setFld (u.get (R.tileSeqStatus t)) 31 30 1) 27 24 0) 15 0 (u.pc t + 1) := by
  unfold State.endDo
  dsimp only
  rw [closeB_get]
  exact (get_set_off seqStatus_ne_issued).trans (get_set_self ..)

/-- A tile that ends is stopped, its end is marked, and its index is that of the bundle after. -/
theorem endDo_stops (u : State) (t : Nat) : (u.endDo t).running t = false ∧ (u.endDo t).bget (R.tileSeqStatus t) 30 = true
    ∧ (u.endDo t).fget (R.tileSeqStatus t) 27 24 = 0 ∧ (u.endDo t).pc t = (u.pc t + 1) % 65536 := by
  have hstate : fld ((u.endDo t).get (R.tileSeqStatus t)) 31 30 = 1 := by
    rw [endDo_status, fld_setFld_off (by decide) (by decide) (by decide) (by decide), fld_setFld_off (by decide) (by decide) (by decide) (by decide),
      fld_setFld (by decide) (by decide)]
    rfl
  refine ⟨?_, ?_, ?_, ?_⟩
  · unfold State.running State.bget State.fget
    rw [fld_bit31, hstate]; rfl
  · unfold State.bget State.fget
    rw [fld_bit30, hstate]; rfl
  · unfold State.fget
    rw [endDo_status, fld_setFld_off (by decide) (by decide) (by decide) (by decide), fld_setFld (by decide) (by decide)]
    exact Nat.zero_mod _
  · show fld ((u.endDo t).get (R.tileSeqStatus t)) 15 0 = _
    rw [endDo_status, fld_setFld (by decide) (by decide)]
    rfl

end

/-- Settles O21. -/
theorem controlSlot : Obligations.ControlSlot := by
  unfold Obligations.ControlSlot
  refine ⟨?_, ?_, ?_, ?_, ?_, ?_, ?_, ?_, ?_, ?_, ?_, ?_, ?_, ?_, ?_, ?_, ?_, ?_, ?_, ?_, ?_, ?_⟩
  · exact fun s t b ht hop h => exec_ctl ht hop h (by rfl) rfl
  · exact fun s t b ht hop h => exec_ctl ht hop h (by rfl) rfl
  · exact fun s t b ht hop h => exec_ctl ht hop h (by dsimp only; rw [shl10_or _ (nbits_lt ..)]) rfl
  · exact fun s t b ht hop h => exec_ctl ht hop h (by dsimp only; rw [add_ofInt]) rfl
  · intro s t b ht hop h u a v h4 hb
    exact exec_ctl ht hop h (ldDo_reads (lva_eq ..) h4 hb) rfl
  · intro s t b ht hop h u a h4
    exact exec_ctl ht hop h (stDo_writes (lva_eq ..) h4) rfl
  · intro s t b k e g ck l ht hop h u va w a h4 hk ho hr hh hl ha hc hp
    exact exec_ctl ht hop h ((gAccess_hit h4 hk).trans (gldAt_cached ho hr hh hl ha hc hp)) rfl
  · intro s t b k e g ht hop h u va w a v h4 hk ho hr hh hl
    exact exec_ctl ht hop h ((gAccess_hit h4 hk).trans (gstAt_hbm ho hr hh hl)) rfl
  · exact fun s t b ht hop h => exec_ctl ht hop h (by rfl) rfl
  · exact fun s t b ht hop h => exec_ctl ht hop h (by rw [ite_not]) rfl
  · exact fun s t b ht hop h => exec_ctl ht hop h (by rfl) rfl
  · intro s t b ht hop h u lv n c hbad
    exact exec_ctl ht hop h (loopGo_ok hbad) rfl
  · intro s t b ht hop h u lv n hbad
    exact exec_ctl ht hop h ((loopGo_ok hbad).trans (if_neg (Nat.succ_ne_zero _))) rfl
  · intro s t b ht hop h u o w ho
    exact exec_ctl ht hop h (sigDo_ok ho) rfl
  · intro s t b ht hop h u w
    exact exec_ctl ht hop h (sigDo_ok (Nat.le_of_lt_succ (nbits_lt ..))) rfl
  · exact fun s t b ht hop h => exec_ctl ht hop h (by rfl) rfl
  · intro s t b k d ht hop h u p n h31 h30 hn hu hd
    exact exec_ctl ht hop h (relDo_ok h31 h30 hn hu hd) rfl
  · exact fun s t b ht hop h => exec_ctl ht hop h (by rfl) rfl
  · exact fun s t b ht hop h => exec_ctl ht hop h (by rfl) rfl
  · exact fun s t b ht hop h => exec_ctl ht hop h (by rfl) rfl
  · exact fun s t b ht hop h => exec_ctl ht hop h (by rfl) rfl
  · exact fun s t b ht hop h => ⟨_, exec_ctl ht hop h (by rfl) rfl, endDo_stops ..⟩

end Sys2Proof.Machine
end

section
/-! The vector slot: reductions, conversions, local memory, broadcasts and streams; and slots out of turn (chapter 4). -/

namespace Sys2Proof.Machine

open Sys2Proof.Spec

/-! ### A tile's state replaced by itself -/

theorem tput_tput {α : Type} (t : Tbl α) (k : Nat) (a : α) : tput (tput t k a) k a = tput t k a := by
  induction t with
  | nil => simp [tput]
  | cons e r ih =>
    obtain ⟨i, v⟩ := e
    by_cases h1 : k < i
    · simp [tput, h1]
    · by_cases h2 : i = k
      · simp [tput, h2]
      · simp [tput, h1, h2, ih]

theorem tset_tset {α : Type} [DecidableEq α] (t : Tbl α) (k : Nat) (d a : α) : tset (tset t k d a) k d a = tset t k d a := by
  unfold tset
  split
  · unfold tdel; rw [List.filter_filter]; simp
  · exact tput_tput ..

theorem setTile_setTile (s : State) (t : Nat) (x : Tile) : (s.setTile t x).setTile t x = s.setTile t x := by
  unfold State.setTile
  rw [tset_tset]

/-- A change that leaves a tile as it is has no effect after a change of the tile. -/
theorem modTile_modTile_id {f g : Tile → Tile} (hg : ∀ x, g x = x) (s : State) (t : Nat) : (s.modTile t f).modTile t g = s.modTile t f := by
  unfold State.modTile
  rw [tile_setTile, hg, setTile_setTile]

/-- No flag is set after a vector register has been written. -/
theorem flagV_zero (u : State) (t r : Nat) (vs : List W32) : (u.setVrow t r vs).flagV t 0 = u.setVrow t r vs := by
  have hid (x : Tile) : { x with bundle := x.bundle.map fun o => { o with flags := o.flags ||| 0 } } = x := by
    obtain ⟨⟩ := x
    simp
  have hflag : (u.setVrow t r vs).flag t 0 = u.setVrow t r vs := if_pos rfl
  unfold State.flagV
  rw [hflag]
  exact modTile_modTile_id hid ..

/-! ### Local-memory addresses, modulo 512 KiB -/

theorem lmMeetAt_mod (u : State) (t a n : Nat) : u.lmMeetAt t (a % 0x80000) n = u.lmMeetAt t a n := by
  unfold State.lmMeetAt; rw [Nat.mod_mod]
theorem lmBad_mod (u : State) (t a n : Nat) : u.lmBad t (a % 0x80000) n = u.lmBad t a n := by
  unfold State.lmBad; rw [Nat.mod_mod]
theorem lmRead_mod (u : State) (t a n : Nat) : u.lmRead t (a % 0x80000) n = u.lmRead t a n := by
  unfold State.lmRead; rw [Nat.mod_mod]

theorem seqStore_mod (u : State) (t a : Nat) (bs : List Byte) (p : Bool) : u.seqStore t (a % 0x80000) bs p = u.seqStore t a bs p := by
  have h8 : a % 0x80000 % 8 = a % 8 := by omega
  have hp (i : Nat) : (a % 0x80000 / 8 + i) % 65536 = (a / 8 + i) % 65536 := by omega
  have hkeep (n : Nat) : u.codeKeep t (a % 0x80000) n = u.codeKeep t a n := by
    unfold State.codeKeep
    simp only [h8, hp]
  unfold State.seqStore State.lmWrite
  rw [hkeep, Nat.mod_mod]

theorem nbits_low8 (c : Nat) : nbits c 7 0 = c % 256 := by
  unfold nbits
  rw [Nat.pow_zero, Nat.div_one]
  rfl

theorem lmBad_setVrow (u : State) (t r a n : Nat) (vs : List W32) : (u.setVrow t r vs).lmBad t a n = u.lmBad t a n := rfl

section
variable {u : State} {t v : Nat}

theorem vaddr_eq (u : State) (t v : Nat) : u.vaddr t v = ((u.sr t (nbits v 12 8)).toNat + 16 * nbits v 7 0) % 0x80000 := by
  rw [nbits_low8]; rfl

theorem vld_loads {a : Nat} (ha : a = (u.sr t (nbits v 12 8)).toNat + 16 * nbits v 7 0) (h16 : (u.sr t (nbits v 12 8)).toNat % 16 = 0) :
    let w := (u.lmMeetAt t a 256).served t 2
    w.lmBad t a 256 = false → u.vld t v = w.setVrow t (nbits v 17 13) (wordsOf 64 (w.lmRead t a 256)) := by
  intro w hw
  simp only [State.vld, vaddr_eq, ← ha, lmMeetAt_mod, h16, ne_eq, not_true_eq_false, if_false, lmBad_mod, lmRead_mod, lmBad_setVrow]
  exact if_neg fun h => Bool.false_ne_true (hw.symm.trans h)

theorem vst_stores {a : Nat} (ha : a = (u.sr t (nbits v 12 8)).toNat + 16 * nbits v 7 0) (h16 : (u.sr t (nbits v 12 8)).toNat % 16 = 0) :
    u.vst t v = (u.seqStore t a (bytesOf (u.vrow t (nbits v 17 13))) false).served t 2 := by
  simp only [State.vst, vaddr_eq, ← ha, seqStore_mod, h16, ne_eq, not_true_eq_false, if_false, State.vbytes]

/-! ### Conversions -/

/-- Without stochastic rounding nothing is drawn. -/
theorem draws_none {f mode : Nat} (h : usesSr f mode = false) (u : State) (t : Nat) (l : List Nat) : u.draws t f mode l = (List.replicate l.length 0, u) := by
  cases l with
  | nil => rfl
  | cons a l => simp only [State.draws, h, Bool.false_eq_true, if_false, List.length_cons]

theorem getD_replicate_zero (n l : Nat) : (List.replicate n 0).getD l 0 = 0 := by
  rw [List.getD_eq_getElem?_getD, List.getElem?_replicate]
  split <;> rfl

/-- To INT8, rounded to nearest even. -/
theorem cvtd_int8 (hf : nbits v 7 4 = 0xA) (hm : u.rmode t (v % 8) = 0) :
    let c (l : Nat) : Nat × Nat := toInt 8 0 0 (numOfInt (sext 32 (u.vr t (nbits v 12 8) l).toNat))
    u.cvtd t v = (u.setVrow t (nbits v 17 13) (wordsOf 64 (packBytes 8 ((List.range 64).map fun l => (c l).1)))).flagV t
      ((List.range 64).foldl (fun f l => f ||| (c l).2) 0) := by
  intro c
  have hlane (l : Nat) (hl : l ∈ List.range 64) : (u.vrow t (nbits v 12 8)).getD l 0 = u.vr t (nbits v 12 8) l := by
    have hl' := List.mem_range.1 hl
    unfold State.vrow
    rw [List.getD_eq_getElem?_getD, List.getElem?_map, List.getElem?_range hl']
    rfl
  have hconv (r : Nat) (x : Num) : convElem 0xA (u.sat t) 0 r x = ((toInt 8 0 r x).1, (toInt 8 0 r x).2, false) := rfl
  have hcs : ((List.range 64).map fun l => convElem 0xA (u.sat t) 0 ((List.replicate 64 0).getD l 0) (numOfInt (sext 32 ((u.vrow t (nbits v 12 8)).getD l 0).toNat)))
      = (List.range 64).map fun l => ((c l).1, (c l).2, false) := by
    refine List.map_congr_left fun l hl => ?_
    rw [getD_replicate_zero, hlane l hl, hconv]
  unfold State.cvtd
  simp only [hf, hm, draws_none (f := 0xA) (mode := 0) rfl, List.length_range, if_true, hcs, List.map_map, List.foldl_map, Function.comp_def]
  rfl

theorem cvtu_float (hf : nbits v 7 4 ≤ 4) :
    let w := fmtBits (nbits v 7 4)
    u.cvtu t v = u.setVrow t (nbits v 17 13) ((unpackBits w 64 (leNat (((u.vbytes t (nbits v 12 8)).drop (8 * w * nbits v 3 2)).take (8 * w)))).map fun c =>
      BitVec.ofNat 32 (toFp32 0 (decode (nbits v 7 4) c)).1) := by
  have hne : ¬ nbits v 7 4 = 0xA := by omega
  simp only [State.cvtu, hne, if_false]

/-! ### Streams -/

theorem pull_pops {p n : Nat} (hp : nbits v 12 11 = p) (hn : nbits v 10 9 + 1 = n) (ho : u.popOk t p = true) (hu : u.countUe 4 (4 * t + p) = false)
    (hb : flitsBad ((u.fifo t p).take n) = false) :
    u.pull t v = (u.popFlits t p n).setVrow t (nbits v 17 13) (wordsOf 64 (flitBytes ((u.fifo t p).take n))) := by
  simp only [State.pull, hp, hn, ho, hu, hb, Bool.not_true, Bool.false_eq_true, if_false]

theorem push_sends (h : u.bget (R.tileSoutStat t (nbits v 12 11)) 31 = true) :
    u.push t v = (u.sendFlits t (nbits v 12 11) (cutFlits (nbit v 8) false (nbits v 10 9 + 1) (bytesOf (u.vrow t (nbits v 17 13))))).served t (8 + nbits v 12 11) :=
  if_neg (by rw [h]; exact Bool.false_ne_true)

end

/-- Settles O24. -/
theorem vectorSlot : Obligations.VectorSlot := by
  unfold Obligations.VectorSlot
  refine ⟨?_, ?_, ?_, ?_, ?_, ?_, ?_, ?_, ?_, ?_, ?_, ?_⟩
  · exact fun s t b ht hop h => exec_vec ht hop h (by rfl) rfl
  · exact fun s t b ht hop h => exec_vec ht hop h (slotRun_congr (by rfl)) rfl
  · exact fun s t b ht hop h => exec_vec ht hop h (slotRun_congr (by exact flagV_zero ..)) rfl
  · exact fun s t b ht hop h hf hm => exec_vec ht hop h (slotRun_congr (by exact cvtd_int8 hf hm)) rfl
  · exact fun s t b ht hop h hf => exec_vec ht hop h (slotRun_congr (by exact cvtu_float hf)) rfl
  · intro s t b ht hop h u a w h16 hb
    exact exec_vec ht hop h (slotRun_congr (by exact vld_loads rfl h16 hb)) rfl
  · intro s t b ht hop h u a h16
    exact exec_vec ht hop h (slotRun_congr (by exact vst_stores rfl h16)) rfl
  · refine fun s t b ht hop h => exec_vec ht hop h (slotRun_congr ?_) rfl
    refine (flagV_zero ..).trans ?_
    dsimp only
    rw [BitVec.ofNat_toNat, BitVec.setWidth_eq]
  · exact fun s t b ht hop h => exec_vec ht hop h (slotRun_congr (by rfl)) rfl
  · exact fun s t b ht hop h => exec_vec ht hop h (slotRun_congr (by rfl)) rfl
  · intro s t b ht hop h u p n ho hu hb
    exact exec_vec ht hop h (slotRun_congr (by exact pull_pops rfl rfl ho hu hb)) rfl
  · intro s t b ht hop h u p hp
    exact exec_vec ht hop h (slotRun_congr (by exact push_sends hp)) rfl

/-! ### Slots out of turn -/

section
variable {s : State} {t k : Nat} {b : W64} {eff : State → State}

theorem slot_stopped (h : s.running t = false) : s.slot t b k eff = s := if_pos (by rw [h]; rfl)

/-- The first slot of a bundle that is the one fetched. -/
theorem slot_first (hr : s.running t = true) (hn : (s.tile t).bundle = none) (hf : firstSlot b k = true) (hb : s.fetchB t (s.pc t) = b) :
    s.slot t b k eff = if s.fetchesLm t (s.pc t) && (fetched s t).lmBad t (8 * (fetched s t).pc t) 8 then (fetched s t).slotKill t 8 6 0
      else match bundleCheck b with
        | some (c, u, d) => (fetched s t).slotKill t c u d
        | none => if (fetched s t).stallCode t b ≠ 0 then (fetched s t).stallDo t b ((fetched s t).stallCode t b)
          else ((fetched s t).openB t b k).slotRun t k eff := by
  have hgo : (!firstSlot b k || s.fetchB t (s.pc t) != b) = false := by rw [hf, hb, bne_self_eq_false]; rfl
  unfold State.slot
  rw [if_neg (by rw [hr]; exact Bool.false_ne_true), hn]
  simp only [hgo, Bool.false_eq_true, if_false] <;> rfl

end

/-- Settles O27. -/
theorem slotOrder : Obligations.SlotOrder := by
  unfold Obligations.SlotOrder
  refine ⟨fun s t b k eff h => slot_stopped h, fun s t b k eff o hr ho hn => ?_, fun s t b k eff hn hb => ?_, fun s t b k eff c n d hr hn hf hb hl hc => ?_,
    fun s t b k eff hr hn hf hb hl hbad => ?_⟩
  · unfold State.slot
    rw [if_neg (by rw [hr]; exact Bool.false_ne_true), ho]
    exact if_neg (by rw [hn]; exact Bool.false_ne_true)
  · cases hr : s.running t with
    | false => exact slot_stopped hr
    | true =>
      unfold State.slot
      rw [if_neg (by rw [hr]; exact Bool.false_ne_true), hn]
      exact if_pos (by rw [bne_iff_ne.2 hb, Bool.or_true])
  · rw [slot_first hr hn hf hb, if_neg (by rw [hl]; exact Bool.false_ne_true), hc]
  · rw [slot_first hr hn hf hb, if_pos (by rw [hl, hbad]; rfl)]

end Sys2Proof.Machine
end

section
/-! Accumulator and softmax rows of the vector slot (chapters 2 and 4). -/

namespace Sys2Proof.Machine

open Sys2Proof.Spec

section
variable {u : State} {t v : Nat}

/-- An instruction that has read an accumulator with neither a parity error nor poison ends with nothing more. -/
theorem accEnd_clean (u : State) (t a : Nat) : u.accEnd t a false false = u := rfl

/-! ### Write-out and load (R117) -/

theorem vawr_local {a f : Nat} {w : W32} {r : (List Nat × List Nat × Nat) × State} {x : State} (ha : nbits v 17 16 = a) (hf : nbits v 10 7 = f)
    (hw : u.sr t (nbits v 15 11) = w) (hr : u.woConv t a f (u.rmode t (nbits v 6 4)) = r)
    (hx : ((r.2.flagV t r.1.2.2).woRows t w (4 * fmtBits f) false 32 0 (packBytes (fmtBits f) r.1.1)).served t 3 = x)
    (hport : nbit v 3 = false) (hbad : u.accBad t a = false) (hpar : u.accParity t a = false) (hok : u.vawrCheck t v = 0) :
    u.vawr t v = if fmtScaled f then x.seqStore t (woBase w + 32 * woStride w) (packBytes (if f = 8 then 16 else 8) r.1.2.1) false else x := by
  obtain ⟨⟨cs, scales, fl⟩, s'⟩ := r
  simp only [State.vawr, ha, hf, hw, hr, hx, hok, hport, hbad, hpar, ne_eq, not_true_eq_false, Bool.false_and, Bool.false_eq_true, if_false, Bool.or_self, accEnd_clean]

theorem lmBad_setAcc (u : State) (t k a n : Nat) (vs : List W32) : (u.setAcc t k vs).lmBad t a n = u.lmBad t a n := rfl

theorem vald_loads (h31 : nbit (u.sr t (nbits v 15 11)).toNat 31 = false) (h15 : nbit (u.sr t (nbits v 15 11)).toNat 15 = false) :
    let a := nbits v 17 16
    let w := u.sr t (nbits v 15 11)
    let at' (r : Nat) := woBase w + r * woStride w
    let x := ((List.range 32).foldl (fun s r => s.lmMeetAt t (at' r) 128) u).served t 3
    ((List.range 32).any fun r => x.lmBad t (at' r) 128) = false →
    u.vald t v = ((x.setAcc t a ((List.range 32).flatMap fun r => wordsOf 32 (x.lmRead t (at' r) 128))).setTag t a (nbit v 10)).setAccBad t a false := by
  intro a w at' x hbad
  unfold State.vald
  rw [if_neg (by rw [h31, h15]; exact Bool.false_ne_true)]
  exact (if_neg fun h => Bool.false_ne_true (hbad.symm.trans h)).trans (congrArg _ hbad)

/-! ### Arithmetic (R57, R119) -/

theorem vaadd_float {d a : Nat} (hd : nbits v 17 16 = d) (ha : nbits v 15 14 = a) (hdi : u.accIsInt t d = false) (hai : u.accIsInt t a = false)
    (hdb : u.accBad t d = false) (hab : u.accBad t a = false) (hdp : u.accParity t d = false) (hap : u.accParity t a = false) :
    u.vaadd t v = u.accOut t d ((List.range 1024).map fun i =>
      fAdd (u.ftz t) 0 (u.acc t d (i / 32) (i % 32)).toNat (u.acc t a (i / 32) (i % 32)).toNat) false false := by
  simp only [State.vaadd, hd, ha, hdi, hai, hdb, hab, hdp, hap, bne_self_eq_false, Bool.false_eq_true, if_false, Bool.or_self]

theorem varsc_float (hi : u.accIsInt t (nbits v 17 16) = false) (hb : u.accBad t (nbits v 17 16) = false) (hp : u.accParity t (nbits v 17 16) = false) :
    u.varsc t v = u.accOut t (nbits v 17 16) ((List.range 1024).map fun i =>
      if (u.vr t (nbits v 15 11) (i / 32)).toNat = 0x3F800000 then ((u.acc t (nbits v 17 16) (i / 32) (i % 32)).toNat, 0)
      else fMul (u.ftz t) 0 (u.acc t (nbits v 17 16) (i / 32) (i % 32)).toNat (u.vr t (nbits v 15 11) (i / 32)).toNat) false false := by
  simp only [State.varsc, hi, hb, hp, Bool.false_eq_true, if_false]

theorem vafin_float (hi : u.accIsInt t (nbits v 17 16) = false) (hb : u.accBad t (nbits v 17 16) = false) (hp : u.accParity t (nbits v 17 16) = false) :
    u.vafin t v = u.accOut t (nbits v 17 16) ((List.range 32).flatMap fun r =>
      finRow (u.ftz t) (u.vr t (nbits v 15 11) r).toNat ((u.accRow t (nbits v 17 16) r).map (·.toNat))) false false := by
  simp only [State.vafin, hi, hb, hp, Bool.false_eq_true, if_false]

/-- Half a register written with a function of the row: 32 values fill it. -/
theorem setHalf_rows (u : State) (t r : Nat) (f : Nat → Nat) :
    u.setHalf t r ((List.range 32).map f) = u.setVrow t r ((List.range 32).map fun i => BitVec.ofNat 32 (f i)) := by
  unfold State.setHalf
  rw [List.take_of_length_le (by simp), List.map_map]
  rfl

theorem vamax_float (hi : u.accIsInt t (nbits v 12 11) = false) :
    u.vamax t v = (u.setVrow t (nbits v 17 13) ((List.range 32).map fun r => BitVec.ofNat 32 (maxAll (u.ftz t) ((u.accRow t (nbits v 12 11) r).map (·.toNat))))).accEnd t
      (nbits v 12 11) (u.accParity t (nbits v 12 11)) (u.accBad t (nbits v 12 11)) := by
  simp only [State.vamax, hi, Bool.false_eq_true, if_false, setHalf_rows]

/-! ### Softmax (R55, R56) -/

/-- A register none of the rest names is written with its own values. -/
theorem setHalves_cons {key : List Nat} {r : Nat} {vs : List Nat} {rest : List (Nat × List Nat)} (h : ∀ e ∈ rest, e.1 ≠ r) (u : State) :
    u.setHalves t key ((r, vs) :: rest) = (u.setHalves t key rest).setHalf t r vs := by
  have hany : (rest.any fun e => e.1 == r) = false := by
    rw [List.any_eq_false]
    intro e he
    simpa using h e he
  simp only [State.setHalves, hany, Bool.false_eq_true, if_false]

theorem vsmu_distinct {m l al a : Nat} (hm : nbits v 17 13 = m) (hl : nbits v 12 8 = l) (hal : nbits v 7 3 = al) (ha : nbits v 2 1 = a)
    (hi : u.accIsInt t a = false) (hb : u.accBad t a = false) (hp : u.accParity t a = false) (hml : m ≠ l) (hma : m ≠ al) (hla : l ≠ al) :
    let row (r : Nat) : SmRow := smRow (u.ftz t) (u.vr t m r).toNat (u.vr t l r).toNat ((u.accRow t a r).map (·.toNat))
    u.vsmu t v = ((((u.setAcc t a (((List.range 32).flatMap fun r => (row r).ps).map (BitVec.ofNat 32 ·))).setHalf t al ((List.range 32).map fun r => (row r).alpha)).setHalf t l
      ((List.range 32).map fun r => (row r).l)).setHalf t m ((List.range 32).map fun r => (row r).m)).flagV t ((List.range 32).foldl (fun f r => f ||| (row r).fl) 0) := by
  intro row
  unfold State.vsmu
  simp only [hm, hl, hal, ha, hi, hb, hp, Bool.false_eq_true, if_false, accEnd_clean]
  rw [setHalves_cons (by simp [hml.symm, hma.symm]), setHalves_cons (by simp [hla.symm]), setHalves_cons (by simp)]
  simp only [State.setHalves, List.map_map, List.foldl_map, List.flatMap_map, Function.comp_def]
  rfl

theorem vsmg_distinct {m l p : Nat} (hm : nbits v 17 13 = m) (hl : nbits v 12 8 = l) (hp : nbits v 7 3 = p) (hml : m ≠ l) (hmp : m ≠ p) (hlp : l ≠ p)
    (hmp' : m ≠ p + 1) (hlp' : l ≠ p + 1) :
    let row (r : Nat) := mergeRow (u.ftz t) (u.vr t m r).toNat (u.vr t l r).toNat (u.vr t p r).toNat (u.vr t (p + 1) r).toNat
    u.vsmg t v = ((((u.setHalf t (p + 1) ((List.range 32).map fun r => (row r).2.2.2.1)).setHalf t p ((List.range 32).map fun r => (row r).2.2.1)).setHalf t
      l ((List.range 32).map fun r => (row r).2.1)).setHalf t m ((List.range 32).map fun r => (row r).1)).flagV t
        ((List.range 32).foldl (fun f r => f ||| (row r).2.2.2.2) 0) := by
  intro row
  unfold State.vsmg
  simp only [hm, hl, hp]
  rw [setHalves_cons (by simp [hml.symm, hmp.symm, hmp'.symm]), setHalves_cons (by simp [hlp.symm, hlp'.symm]), setHalves_cons (by simp), setHalves_cons (by simp)]
  simp only [State.setHalves, List.map_map, List.foldl_map, Function.comp_def]
  rfl

end

/-- Settles O25. -/
theorem accumulatorSlot : Obligations.AccumulatorSlot := by
  unfold Obligations.AccumulatorSlot
  refine ⟨?_, ?_, ?_, ?_, ?_, ?_, ?_, ?_⟩
  · intro s t b ht hop h u v a f w r hport hbad hpar hok x
    exact exec_vec ht hop h (slotRun_congr (by exact vawr_local rfl rfl rfl rfl rfl hport hbad hpar hok)) rfl
  · intro s t b ht hop h u v a w at' x h31 h15 hbad
    exact exec_vec ht hop h (slotRun_congr (by exact vald_loads h31 h15 hbad)) rfl
  · intro s t b ht hop h u d a hdi hai hdb hab hdp hap
    exact exec_vec ht hop h (slotRun_congr (by exact vaadd_float rfl rfl hdi hai hdb hab hdp hap)) rfl
  · intro s t b ht hop h u a hi hb hp
    exact exec_vec ht hop h (slotRun_congr (by exact varsc_float hi hb hp)) rfl
  · intro s t b ht hop h u a hi hb hp
    exact exec_vec ht hop h (slotRun_congr (by exact vafin_float hi hb hp)) rfl
  · intro s t b ht hop h u a w hi
    refine ⟨fun hb hp => exec_vec ht hop h (slotRun_congr ?_) rfl, fun hp => exec_vec ht hop h (slotRun_congr ?_) rfl⟩
    · refine (vamax_float hi).trans ?_
      rw [hb, hp]; rfl
    · refine (vamax_float hi).trans ?_
      rw [hp]; rfl
  · intro s t b ht hop h u v a row hi hb hp hml hma hla
    exact exec_vec ht hop h (slotRun_congr (by exact vsmu_distinct rfl rfl rfl rfl hi hb hp hml hma hla)) rfl
  · intro s t b ht hop h u v vp row hml hmp hlp hmp' hlp'
    exact exec_vec ht hop h (slotRun_congr (by exact vsmg_distinct rfl rfl rfl hml hmp hlp hmp' hlp')) rfl

end Sys2Proof.Machine
end

section
/-! The matrix slot and the matrix engine (chapters 3 and 4). -/

namespace Sys2Proof.Machine

open Sys2Proof.Spec

/-- A change of a tile matters at the tile's own state alone. -/
theorem modTile_congr {s : State} {t : Nat} {f g : Tile → Tile} (h : f (s.tile t) = g (s.tile t)) : s.modTile t f = s.modTile t g := by
  unfold State.modTile; rw [h]

section
variable {s v : State} {t : Nat} {b : W64} {i : Instr} {eff : State → State}

theorem exec_mat {fits : Bool} (ht : t < 2176) (hop : fits = true) (h : Due s t b 0) (e : (opened s t b 0).slotRun t 0 eff = v)
    (hx : exec i s = slotCmd t fits (s.slot t b 0 eff)) : exec i s = .next v := exec_slot ht hop h e hx

/-! ### Issue -/

/-- An MMA whose operands pass every check raises no kill. -/
theorem mmaCheck_ok {m k : Nat} {dA dB : W64} (hA : s.pair t (2 * nbits m 13 10) = dA) (hB : s.pair t (2 * nbits m 9 6) = dB)
    (hk : (s.sr t (nbits m 5 1)).toNat = k) (h1 : 1 ≤ k) (hk' : k ≤ 0xFFFE0) (h32 : k % 32 = 0) (hfA : dFmt dA < 13) (hfB : dFmt dB < 13)
    (hcA : descClean dA = true) (hcB : descClean dB = true) (hp : pairOk (dFmt dA) (dFmt dB) = true)
    (htag : nbit m 14 = true ∨ s.accIsInt t (nbits m 16 15) = pairInt (dFmt dA)) : s.mmaCheck t m = 0 := by
  have hk0 : ¬ (k = 0 ∨ 0xFFFE0 < k ∨ k % 32 ≠ 0) := by omega
  have hf : ¬ (13 ≤ dFmt dA ∨ 13 ≤ dFmt dB) := by omega
  have ht : (!nbit m 14 && s.accIsInt t (nbits m 16 15) != pairInt (dFmt dA)) = false := by
    rcases htag with h | h
    · rw [h]; rfl
    · rw [h, bne_self_eq_false, Bool.and_false]
  simp only [State.mmaCheck, hA, hB, hk, if_neg hk0, if_neg hf, hcA, hcB, hp, ht, Bool.not_true, Bool.or_self, Bool.false_eq_true, if_false]

theorem mmaDo_queues {m : Nat} (h : s.mmaCheck t m = 0) :
    let dA := s.pair t (2 * nbits m 13 10)
    let dB := s.pair t (2 * nbits m 9 6)
    let w := s.modTile t fun x => { x with queue := x.queue ++
      [{ mclr := false, acc := nbits m 16 15, clr := nbit m 14, int := pairInt (dFmt dA), dA := dA, dB := dB, total := (s.sr t (nbits m 5 1)).toNat / 32, wrap := s.intWrap t, addr := s.bAddr t }] }
    s.mmaDo t m = if nbit m 14 then w.setTag t (nbits m 16 15) (pairInt (dFmt dA)) else w := if_neg (not_not.2 h)

/-! ### Granules -/

theorem matStep_clears {o : MOp} {q : List MOp} {errs : List (Nat × Int)} {dup : Bool} (hq : (s.tile t).queue = o :: q) (hm : o.mclr = true) :
    s.matStep t errs dup = ((s.setAcc t o.acc []).setAccBad t o.acc false).modTile t fun x => { x with queue := q } := by
  simp only [State.matStep, hq, hm, if_true]

/-- The state after a granule of clean operands that does not begin a clear: the accumulator, the flags, the buffers and the queue. -/
def granDone (s : State) (t : Nat) (o : MOp) (l : List MOp) (ga gb : Granule) (ta tb : List Granule) (errs : List (Nat × Int)) : State :=
  let r := s.granule t o (granRows (dFmt o.dA) ga) (granRows (dFmt o.dB) gb) errs
  ((s.setAcc t o.acc r.1).flag t r.2).modTile t fun x => { x with bufA := ta, bufB := tb, queue := l }

/-- Whether an MMA has met a fault by the end of a granule. -/
def granFault (s : State) (t : Nat) (o : MOp) (ga gb : Granule) (errs : List (Nat × Int)) (dup : Bool) : Bool :=
  o.fault || s.granFails t o (granRows (dFmt o.dA) ga) (granRows (dFmt o.dB) gb) errs dup

theorem flag_tile (s : State) (t f q : Nat) : (s.flag t f).tile q = s.tile q := by
  unfold State.flag
  split
  · rfl
  · exact tile_set ..

theorem granDone_accBad {o : MOp} {l : List MOp} {ga gb : Granule} {ta tb : List Granule} {errs : List (Nat × Int)} :
    (granDone s t o l ga gb ta tb errs).accBad t o.acc = s.accBad t o.acc := by
  unfold State.accBad granDone
  dsimp only
  rw [modTile_keeps (part := Tile.accPoison) (fun _ => by rfl), flag_tile]
  unfold State.setAcc
  rw [modTile_keeps (part := Tile.accPoison) (fun _ => by rfl)]

theorem matStep_granule {o : MOp} {q : List MOp} {ga gb : Granule} {ta tb : List Granule} {errs : List (Nat × Int)} {dup : Bool} (hq : (s.tile t).queue = o :: q)
    (hm : o.mclr = false) (hA : (s.tile t).bufA = ga :: ta) (hB : (s.tile t).bufB = gb :: tb) (hfA : o.done < o.fillA) (hfB : o.done < o.fillB)
    (hpA : ga.poison = false) (hpB : gb.poison = false) (hc : o.clr = false ∨ o.done ≠ 0) :
    s.matStep t errs dup = if o.done + 1 ≠ o.total then
        granDone s t o ({ o with done := o.done + 1, fault := granFault s t o ga gb errs dup } :: q) ga gb ta tb errs
      else if granFault s t o ga gb errs dup then (granDone s t o q ga gb ta tb errs).dpFault t o.acc 0 o.addr
      else if s.accBad t o.acc then (granDone s t o q ga gb ta tb errs).kill t 8 0 o.acc o.addr
      else granDone s t o q ga gb ta tb errs := by
  have hcl : (o.clr && o.done == 0) = false := by
    rcases hc with h | h
    · rw [h]; rfl
    · simp [h]
  have hwait : ¬ (o.fillA ≤ o.done ∨ o.fillB ≤ o.done) := by omega
  rw [← granDone_accBad (s := s) (t := t) (o := o) (l := q) (ga := ga) (gb := gb) (ta := ta) (tb := tb) (errs := errs)]
  by_cases hend : o.done + 1 = o.total
  · simp only [State.matStep, hq, hm, hA, hB, if_neg hwait, hcl, hpA, hpB, hend, Bool.or_self, Bool.false_eq_true, ne_eq, not_true_eq_false, if_false, if_true, granDone,
      granFault]
    rfl
  · simp only [State.matStep, hq, hm, hA, hB, if_neg hwait, hcl, hpA, hpB, hend, Bool.or_self, Bool.false_eq_true, ne_eq, not_false_eq_true, if_false, if_true, granDone,
      granFault]

/-! ### Operand buffers -/

theorem foldl_tile {α : Type} {f : State → α → State} {q : Nat} (h : ∀ s x, (f s x).tile q = s.tile q) (l : List α) (s : State) : (l.foldl f s).tile q = s.tile q := by
  induction l generalizing s with
  | nil => rfl
  | cons a l ih => rw [List.foldl_cons, ih, h]

theorem granMeet_tile (s : State) (t : Nat) (d : W64) (g q : Nat) : (s.granMeet t d g).tile q = s.tile q := by
  have helems : (if (dEport d).isNone then (List.range 32).foldl (fun s r => s.lmMeetAt t (dEbase d + r * dStride d + 4 * fmtBits (dFmt d) * g) (4 * fmtBits (dFmt d))) s
      else s).tile q = s.tile q := by
    split
    · exact foldl_tile (fun s r => lmMeetAt_tile ..) _ s
    · rfl
  unfold State.granMeet
  dsimp only
  split
  · exact (lmMeetAt_tile ..).trans helems
  · exact helems

/-- An operand of an unscaled format that no port feeds comes from local memory. -/
theorem fillOne_local {d : W64} {g : Nat} {half : List Nat} (hs : fmtScaled (dFmt d) = false) (he : dEport d = none) :
    s.fillOne t false d g half = some (⟨⟨(((s.granMeet t d g).served t 0).granLm t d g).1, [], (((s.granMeet t d g).served t 0).granLm t d g).2⟩, []⟩,
      (s.granMeet t d g).served t 0) := by
  simp only [State.fillOne, hs, he, Option.isSome_none, Bool.false_and, Bool.false_eq_true, if_false, Bool.not_false, if_true, b2n]

theorem bufFill_local {o : MOp} {q : List MOp} (hq : (s.tile t).queue = o :: q) (hm : o.mclr = false) (hf : o.fillA < o.total)
    (hb : (s.tile t).bufA.length < 2) (hs : fmtScaled (dFmt o.dA) = false) (he : dEport o.dA = none) :
    let u := (s.granMeet t o.dA o.fillA).served t 0
    s.bufFill t false = u.modTile t fun x => { x with bufA := x.bufA ++ [⟨(u.granLm t o.dA o.fillA).1, [], (u.granLm t o.dA o.fillA).2⟩],
                                                      queue := { o with fillA := o.fillA + 1, halfA := [] } :: q } := by
  intro u
  have hfull : ¬ 2 ≤ (s.tile t).bufA.length := by omega
  have hfind : (o :: q).findIdx? (fun o => !o.mclr && decide (o.fillA < o.total)) = some 0 := by
    rw [List.findIdx?_cons, if_pos (by rw [hm, decide_eq_true hf]; rfl)]
  have hports : opPorts o.dA = [] := by simp [opPorts, he, hs]
  have hqueue : (u.tile t).queue = o :: q := by
    rw [← hq]
    exact (modTile_keeps (part := Tile.queue) (fun _ => by rfl) ..).trans (congrArg Tile.queue (granMeet_tile ..))
  simp only [State.bufFill, hq, hfull, hfind, hports, fillOne_local hs he, List.getElem?_cons_zero, List.find?_nil, Bool.false_eq_true, if_false]
  refine modTile_congr ?_
  rw [hqueue]
  rfl

end

/-- Settles O26. -/
theorem matrixEngine : Obligations.MatrixEngine := by
  unfold Obligations.MatrixEngine
  refine ⟨?_, ?_, ?_, ?_, ?_, ?_⟩
  · exact fun s t b ht hop h => exec_mat ht (by unfold mOp; rw [hop]; decide) h (by rfl) rfl
  · intro s t b ht hop h u m a dA dB k h1 hk h32 hfA hfB hcA hcB hp htag
    exact exec_mat ht (beq_iff_eq.2 hop) h (slotRun_congr (by exact mmaDo_queues (mmaCheck_ok rfl rfl rfl h1 hk h32 hfA hfB hcA hcB hp htag))) rfl
  · exact fun s t b ht hop h => exec_mat ht (beq_iff_eq.2 hop) h (by rfl) rfl
  · exact fun s t o q ht hq hm errs dup => run_eq (decide_eq_true ht) (matStep_clears hq hm)
  · intro s t o q ga gb ta tb errs dup ht hq hm hA hB hfA hfB hpA hpB hc ra rb r fault v
    have hstep := matStep_granule (errs := errs) (dup := dup) hq hm hA hB hfA hfB hpA hpB hc
    refine ⟨fun ht' => run_eq (decide_eq_true ht) ?_, fun ht' hbad hfault => run_eq (decide_eq_true ht) ?_, fun ht' hfault => run_eq (decide_eq_true ht) ?_⟩
    · exact hstep.trans (if_pos ht')
    · exact hstep.trans ((if_neg (not_not.2 ht')).trans ((if_neg fun h => Bool.false_ne_true (hfault.symm.trans h)).trans (if_neg (by rw [hbad]; exact Bool.false_ne_true))))
    · exact hstep.trans ((if_neg (not_not.2 ht')).trans (if_pos hfault))
  · intro s t o q f bs ht hq hm hf hb hfmt hs he hbs
    subst hfmt hbs
    exact run_eq (decide_eq_true ht) (bufFill_local hq hm hf hb hs he)

end Sys2Proof.Machine
end

section
/-! Arrivals at a tile, context kills, tile DMA and the acting registers of a tile (chapter 3). -/

namespace Sys2Proof.Machine

open Sys2Proof.Spec

/-- Two range checks of operands that both pass. -/
theorem both_lt {a b m n : Nat} (ha : a < m) (hb : b < n) : (decide (a < m) && decide (b < n)) = true := by
  rw [decide_eq_true ha, decide_eq_true hb]; rfl

section
variable {s : State} {t : Nat}

/-! ### Arrivals -/

theorem routerRead_clean {b : Nat} (h : b ∉ s.rtrPar) : s.routerRead b = s :=
  if_neg fun hc => h (List.contains_iff_mem.1 hc)

/-- A flit that reaches a bound port with a credit left is accepted (R87). -/
theorem arrive_accepts {p : Nat} {f : Flit} (hp : t / 32 ∉ s.rtrPar) (hu : s.countUe 4 (4 * t + p) = false) (hb : s.bget (R.tileSinCfg t p) 31 = true)
    (hc : 0 < s.fget (R.tileSinStat t p) 12 0) : s.arrive t p f = s.acceptFlit t p f := by
  unfold State.arrive
  rw [routerRead_clean hp]
  exact (if_pos hb).trans ((if_neg (by rw [hu]; exact Bool.false_ne_true)).trans (if_neg (by omega)))

/-- A clean flit accepted by a port without a ring is queued, and moves a credit from free to used. -/
theorem acceptFlit_queues {p : Nat} {f : Flit} (hr : s.bget (R.tileSinCfg t p) 30 = false) (hf : f.poison = false) :
    let u := s.fset (R.tileSinStat t p) 28 16 (s.fget (R.tileSinStat t p) 28 16 + 1)
    s.acceptFlit t p f = (u.fset (R.tileSinStat t p) 12 0 (u.fget (R.tileSinStat t p) 12 0 - 1)).modTile t
      fun x => { x with sin := tset x.sin p [] (tgetD x.sin p [] ++ [f]) } := by
  have hne : (R.tileSinCfg t p).addr ≠ (R.tileSinStat t p).addr := by dsimp only; omega
  have hcfg : ((s.fset (R.tileSinStat t p) 28 16 (s.fget (R.tileSinStat t p) 28 16 + 1)).fset (R.tileSinStat t p) 12 0
      ((s.fset (R.tileSinStat t p) 28 16 (s.fget (R.tileSinStat t p) 28 16 + 1)).fget (R.tileSinStat t p) 12 0 - 1)).bget (R.tileSinCfg t p) 30 = false := by
    rw [bget_fset_other hne, bget_fset_other hne, hr]
  unfold State.acceptFlit
  rw [hf, if_neg Bool.false_ne_true]
  exact if_neg (by rw [hcfg]; exact Bool.false_ne_true)

theorem creditIn_bound {p n : Nat} (hb : s.bget (R.tileSoutStat t p) 31 = true) (hw : (s.tile t).wout = none) :
    s.creditIn t p n = s.fset (R.tileSoutStat t p) 12 0 (s.fget (R.tileSoutStat t p) 12 0 + n) := by
  have hw' : ((s.fset (R.tileSoutStat t p) 12 0 (s.fget (R.tileSoutStat t p) 12 0 + n)).tile t).wout = none := by
    unfold State.fset; rw [tile_set, hw]
  unfold State.creditIn
  rw [if_pos hb]
  dsimp only
  rw [hw']

/-! ### Context kills -/

theorem recordKill_again {c n d : Nat} {a : W64} (h : s.bget (R.tileErrStatus t) 31 = true) : s.recordKill t c n d a = s.bset (R.tileErrStatus t) 30 true := if_pos h

/-- The record of the first kill since the status was cleared. -/
theorem recordKill_first {c n d : Nat} {a : W64} (h : s.bget (R.tileErrStatus t) 31 = false) :
    let u := (((s.fset (R.tileErrStatus t) 31 31 1).fset (R.tileErrStatus t) 23 16 c).fset (R.tileErrStatus t) 11 8 n).fset (R.tileErrStatus t) 7 0 d
    s.recordKill t c n d a = (u.set (R.tileErrAddr t) a).fset (R.tileErrCtx t) 11 0 (u.ctxOf t) :=
  if_neg (by rw [h]; exact Bool.false_ne_true)

theorem fget_recordKill {c n d hi lo : Nat} {a : W64} (h : s.bget (R.tileErrStatus t) 31 = false) :
    (s.recordKill t c n d a).fget (R.tileErrStatus t) hi lo =
      ((((s.fset (R.tileErrStatus t) 31 31 1).fset (R.tileErrStatus t) 23 16 c).fset (R.tileErrStatus t) 11 8 n).fset (R.tileErrStatus t) 7 0 d).fget
        (R.tileErrStatus t) hi lo := by
  rw [recordKill_first h, fget_fset_other (by dsimp only; omega), fget_set_off (by dsimp only; omega)]

theorem recordKill_fields {c n d : Nat} {a : W64} (h : s.bget (R.tileErrStatus t) 31 = false) (hc : c < 256) (hn : n < 16) (hd : d < 256) :
    let u := s.recordKill t c n d a
    u.bget (R.tileErrStatus t) 31 = true ∧ u.fget (R.tileErrStatus t) 23 16 = c ∧ u.fget (R.tileErrStatus t) 11 8 = n
      ∧ u.fget (R.tileErrStatus t) 7 0 = d ∧ u.get (R.tileErrAddr t) = a := by
  dsimp only
  refine ⟨?valid, ?cause, ?unit, ?detail, ?addr⟩
  case valid =>
    unfold State.bget
    rw [fget_recordKill h, fget_fset_off (by decide) (by decide) (by decide) (by decide), fget_fset_off (by decide) (by decide) (by decide) (by decide),
      fget_fset_off (by decide) (by decide) (by decide) (by decide), fget_fset (by decide) (by decide)]
    rfl
  case cause =>
    rw [fget_recordKill h, fget_fset_off (by decide) (by decide) (by decide) (by decide), fget_fset_off (by decide) (by decide) (by decide) (by decide),
      fget_fset (by decide) (by decide)]
    exact Nat.mod_eq_of_lt hc
  case unit =>
    rw [fget_recordKill h, fget_fset_off (by decide) (by decide) (by decide) (by decide), fget_fset (by decide) (by decide)]
    exact Nat.mod_eq_of_lt hn
  case detail =>
    rw [fget_recordKill h, fget_fset (by decide) (by decide)]
    exact Nat.mod_eq_of_lt hd
  case addr =>
    rw [recordKill_first h, get_fset_other (by dsimp only; omega), get_set_self]

/-- The last thing a kill does to a tile is to leave it what its units still wait for (R81, R94). -/
theorem killTile_tile (d : Dressing) : (s.killTile d t).tile t = (s.tile t).stopped := by
  unfold State.killTile State.resetRegs
  exact tile_setTile ..

theorem killCtx_pending (c : Nat) (o : Option Nat) : (s.killCtx c o).pending = s.pending :=
  (kept_killCtx (q0 := (s.pending, False)) s c o ⟨rfl, False.elim, False.elim⟩).1

end

/-- Settles O28. -/
theorem tileArrivalsAndKills : Obligations.TileArrivalsAndKills := by
  unfold Obligations.TileArrivalsAndKills
  refine ⟨⟨?fill, ?arrives, ?younger, ?credit⟩, ?kill, ?again, ?first, ?tile, ?ctx⟩
  case fill =>
    intro s t l a ht ha
    refine run_eq (decide_eq_true ht) ?_
    unfold State.tileFill
    rw [ha]
  case arrives =>
    intro s t p f r ht hp hf hs hpar hu hb hc hr hpo
    refine run_eq (both_lt ht hp) ?_
    rw [if_neg (by rw [hs]; exact Bool.false_ne_true), hf]
    refine (if_pos rfl).trans ?_
    rw [arrive_accepts (s := { s with flight := tset s.flight (4 * t + p) [] r }) hpar hu hb hc]
    exact acceptFlit_queues (s := { s with flight := tset s.flight (4 * t + p) [] r }) hr hpo
  case younger =>
    intro s t p f g r ht hp hf hne
    refine run_eq (both_lt ht hp) ?_
    rw [hf]
    split
    · rfl
    · exact if_neg (Ne.symm hne)
  case credit =>
    intro s t p n ht hp h1 hn hb hw hs
    refine run_eq (both_lt ht hp) ?_
    rw [Nat.min_eq_left hn, hs, Bool.or_false, if_neg (by rw [decide_eq_true_eq]; omega)]
    exact creditIn_bound (s := { s with credFly := tset s.credFly (4 * t + p) 0 (tgetD s.credFly (4 * t + p) 0 - n) }) hb hw
  case kill =>
    intro s t c n d a ht hd
    exact run_eq (decide_eq_true ht) (if_pos hd)
  case again => exact fun s t c n d a h => recordKill_again h
  case first => exact fun s t c n d a h hc hn hd => recordKill_fields h hc hn hd
  case tile => exact fun s d t => killTile_tile d
  case ctx => exact fun s c o => ⟨(lowKept_killCtx (s := s) fun _ _ => rfl), killCtx_pending c o⟩

/-! ### Tile DMA -/

section
variable {s : State} {t n : Nat} {d : DmaSt}

theorem dmaSource_local (h : d.srcLocal = true) : s.dmaSource t n d = none := if_pos h

/-- A piece from local memory to local memory is read, written and given back in one. -/
theorem dmaPiece_local (hs : d.srcLocal = true) (hd : d.dstLocal = true) (hp : d.toPort = false) :
    let k := s.dmaLen t d
    let u := (s.lmMeetAt t d.srcAt k).served t (12 + n)
    s.dmaPiece t n d = ((((u.lmWrite t d.dstAt (u.lmRead t d.srcAt k) (u.lmBad t d.srcAt k)).served t (12 + n)).setDma t n (d.moved k)).dmaFree t n, true) := by
  unfold State.dmaPiece
  rw [dmaSource_local hs]
  dsimp only
  rw [if_neg (by rw [hp]; exact Bool.false_ne_true), if_pos hd]
  unfold State.dmaToLm State.dmaRead
  dsimp only
  rw [if_pos hs]

theorem dmaBlock_goes (h : tget (s.tile t).dma n = some d) (hl : d.left ≠ 0) : s.dmaBlock t n = s.dmaMove t n (d.left / 16 + 4) := by
  unfold State.dmaBlock
  rw [h]
  exact if_pos hl

theorem dmaComplete_signals (h : tget (s.tile t).dma n = some d) (hr : d.row = d.rows) (hl : d.left = 0) (hu : d.unacked = 0) (hh : d.held = [])
    (hb : bit d.ctl 50 = true) :
    s.dmaComplete t n = ((s.modTile t fun x => { x with dma := tdel x.dma n }).set (R.tileDmaHead t n)
        (BitVec.ofNat 64 (((s.get (R.tileDmaHead t n)).toNat + 1) % 2 ^ (4 + s.fget (R.tileDmaCtrl t n) 26 24)))).signal (fld d.ctl 63 51) := by
  unfold State.dmaComplete
  rw [h]
  dsimp only
  rw [if_pos ⟨hr, hl, hu⟩, hh, if_pos hb]
  rfl

theorem dmaReady_true (hd : s.dressRuns t = true) (he : s.bget (R.tileDmaCtrl t n) 31 = true) (hn : tget (s.tile t).dma n = none)
    (hr : s.get (R.tileDmaHead t n) ≠ s.get (R.tileDmaTail t n)) :
    (s.dressRuns t && s.bget (R.tileDmaCtrl t n) 31 && (tget (s.tile t).dma n).isNone && s.get (R.tileDmaHead t n) != s.get (R.tileDmaTail t n)) = true := by
  rw [hd, he, hn, bne_iff_ne.2 hr]; rfl

end

/-- Settles O29. -/
theorem tileDma : Obligations.TileDma := by
  unfold Obligations.TileDma
  refine ⟨?fetch, ?block, ?piece, ?complete⟩
  case fetch =>
    intro s t n ht hn hd he hnone hr o u w d hbad
    have hnb : ¬ u.lmBad t o 32 = true := by rw [hbad]; exact Bool.false_ne_true
    refine ⟨fun hv => ?_, fun hv => ?_⟩
    · refine run_eq (both_lt ht hn) ((if_pos (dmaReady_true hd he hnone hr)).trans ((if_neg hnb).trans (if_neg ?_)))
      rw [hv]; exact Bool.false_ne_true
    · exact run_eq (both_lt ht hn) ((if_pos (dmaReady_true hd he hnone hr)).trans ((if_neg hnb).trans (if_pos hv)))
  case block =>
    intro s t n d ht hn h hl
    exact run_eq (both_lt ht hn) (congrArg State.accPump (dmaBlock_goes h hl))
  case piece => exact fun s t n d _ _ _ hs hd hp => dmaPiece_local hs hd hp
  case complete =>
    intro s t n d ht hn h hr hl hu hh hb ho
    refine run_eq (both_lt ht hn) ((dmaComplete_signals h hr hl hu hh hb).trans ?_)
    exact if_pos ho

/-! ### Registers of the tile -/

section
variable {s : State} {t : Nat}

theorem bit_get (r : Reg) (i : Nat) : bit (s.get r) i = s.bget r i := by
  unfold bit State.bget State.fget fld nbits
  rw [Nat.testBit_eq_decide_div_mod_eq, Nat.add_sub_cancel_left, pow_one]
  rfl

theorem dmaCtrlWr_free {n : Nat} {v : W32} (ha : nbits v.toNat 18 5 % 2 ^ (4 + nbits v.toNat 26 24) = 0) (h : s.bget (R.tileDmaCtrl t n) 31 = false) :
    s.dmaCtrlWr t n v = s.set (R.tileDmaCtrl t n) (BitVec.ofNat 64 (nbits v.toNat 31 31 * 2 ^ 31 + nbits v.toNat 26 24 * 2 ^ 24 + nbits v.toNat 18 5 * 32)) :=
  (if_neg (not_not.2 ha)).trans (if_neg fun hb => Bool.false_ne_true (h.symm.trans ((bit_get ..).symm.trans hb)))

theorem seqCtrl_starts {v : W32} {k : Nat} {d : Dressing} (h : s.dressOf t = some (k, d)) (ha : d.st = .active) (hr : s.running t = false) (hv : nbit v.toNat 0 = true) :
    s.seqCtrl t v = (s.modTile t fun x => { x with bundle := none, released := false, loopOrd := [], loopBuf := [], codeOld := [] }).set (R.tileSeqStatus t)
      (BitVec.ofNat 64 (2 ^ 31 + s.fget (R.tileSeqPc t) 15 0)) := by
  refine (if_pos hv).trans ?_
  unfold State.seqGo
  rw [h]
  dsimp only
  rw [if_pos ⟨ha, by rw [hr]; rfl⟩]
  rfl

theorem lmExternal_writes {m : Master} {a n : Nat} {bs : List Byte} (hp : s.powered = true) (hb : s.rangeBacked a n = true) :
    s.lmExternal m a n (.write bs) =
      ((s.routerRead (lmTile (s.home a) / 32)).served (lmTile (s.home a)) 16).lmWrite (lmTile (s.home a)) (lmOff (s.home a)) bs false := by
  unfold State.lmExternal
  rw [hp, hb, if_neg (by decide), if_neg (by decide)]
  unfold State.lmAccess
  dsimp only
  exact if_pos rfl

end

/-- Settles O30. -/
theorem tileRegisters : Obligations.TileRegisters := by
  unfold Obligations.TileRegisters
  refine ⟨?aged, ?tail, ?tailBeyond, ?ctrl, ?ctrlOdd, ?start, ?mode, ?modeNone, ?seed, ?reg, ?read, ?write⟩
  case aged =>
    intro s t r n ht hr hn ha
    refine run_eq (both_lt ht hr) (if_neg ?_)
    rw [Bool.or_eq_true, decide_eq_true_eq, List.contains_iff_mem]
    exact not_or.2 ⟨by omega, ha⟩
  case tail => exact fun s t n v ht hn h => run_eq (both_lt ht hn) (if_pos h)
  case tailBeyond => exact fun s t n v ht hn h => run_eq (both_lt ht hn) (if_neg (Nat.not_lt.2 h))
  case ctrl => exact fun s t n v ht hn ha h => run_eq (both_lt ht hn) (dmaCtrlWr_free ha h)
  case ctrlOdd => exact fun s t n v ht hn ha => run_eq (both_lt ht hn) (if_pos ha)
  case start => exact fun s t v k d ht h ha hr hv => run_eq (decide_eq_true ht) (seqCtrl_starts h ha hr hv)
  case mode =>
    intro s t v ht h
    refine run_eq (decide_eq_true ht) ?_
    unfold State.arithWr
    dsimp only
    rw [if_pos h]
  case modeNone =>
    intro s t v ht h
    refine run_eq (decide_eq_true ht) ?_
    unfold State.arithWr
    dsimp only
    rw [if_neg (Nat.not_le.2 h)]
  case seed => exact fun s t v ht => run_of (decide_eq_true ht)
  case reg =>
    intro s m a w v hm hr hp hw
    refine run_eq (by rw [hm, hr]; rfl) ?_
    exact (if_neg (by rw [hp]; exact Bool.false_ne_true)).trans (if_pos ⟨hr, hw⟩)
  case read =>
    intro s m a n hm hr hp hb
    refine run_eq (by rcases hr with h | h <;> rw [hm, h] <;> rfl) ?_
    exact (if_neg (by rw [hp]; exact Bool.false_ne_true)).trans (if_neg (by rw [hb]; exact Bool.false_ne_true))
  case write =>
    intro s m a n bs hm hr hp hb
    refine run_eq (by rcases hr with h | h <;> rw [hm, h] <;> rfl) ?_
    exact lmExternal_writes hp hb

end Sys2Proof.Machine
end

section
/-! Sync objects: waiters released, and claimed runs of objects (chapter 11). -/

namespace Sys2Proof.Machine

open Sys2Proof.Spec

/-! ### Tables whose keys rise -/

section
variable {α : Type} {l : Tbl α} {k : Nat} {v : α}

theorem mem_of_tget (h : tget l k = some v) : (k, v) ∈ l := by
  induction l with
  | nil => cases h
  | cons e r ih =>
    obtain ⟨j, x⟩ := e
    rw [tget] at h
    split at h
    next hj => cases h; rw [hj]; exact List.mem_cons_self
    next => exact List.mem_cons_of_mem _ (ih h)

theorem tget_of_mem (hp : l.Pairwise fun a b => a.1 < b.1) (h : (k, v) ∈ l) : tget l k = some v := by
  induction l with
  | nil => cases h
  | cons e r ih =>
    obtain ⟨hlt, hr⟩ := List.pairwise_cons.1 hp
    rcases List.mem_cons.1 h with he | he
    · rw [← he, tget, if_pos rfl]
    · have hne : e.1 ≠ k := fun hk => absurd (hlt _ he) (by rw [hk]; exact Nat.lt_irrefl _)
      obtain ⟨j, x⟩ := e
      rw [tget, if_neg hne]
      exact ih hr he

end

section
variable {s : State} {o t c : Nat} {w : Waiter}

/-! ### Waiters released -/

/-- The waiters that a count meets are those of the object whose threshold it has reached. -/
theorem mem_metBy (hp : s.waiters.Pairwise fun a b => a.1 < b.1) (hw : tget s.waiters t = some w) : t ∈ s.metBy o c ↔ w.obj = o ∧ w.thresh ≤ c := by
  unfold State.metBy
  simp only [List.mem_map, List.mem_filter, Bool.and_eq_true, beq_iff_eq, decide_eq_true_eq]
  constructor
  · rintro ⟨⟨j, x⟩, ⟨hm, hx⟩, rfl⟩
    rw [tget_of_mem hp hm] at hw
    cases hw
    exact hx
  · exact fun h => ⟨(t, w), ⟨mem_of_tget hw, h⟩, rfl⟩

theorem release_waiter (s : State) (u : Nat) : tget (s.release u).waiters t = if t = u then none else tget s.waiters t := by
  unfold State.release
  split
  next h =>
    split
    next e => rw [e, h]
    next => rfl
  next =>
    dsimp only
    unfold State.fset
    rw [set_waiters]
    exact tget_tdel

theorem releaseAll_waiter (l : List Nat) (s : State) : tget (l.foldl State.release s).waiters t = if t ∈ l then none else tget s.waiters t := by
  induction l generalizing s with
  | nil => rfl
  | cons u l ih =>
    rw [List.foldl_cons, ih, release_waiter]
    by_cases h : t ∈ l
    · rw [if_pos h, if_pos (List.mem_cons_of_mem _ h)]
    · by_cases e : t = u
      · rw [if_neg h, if_pos e, if_pos (by rw [e]; exact List.mem_cons_self)]
      · rw [if_neg h, if_neg e, if_neg (fun hm => (List.mem_cons.1 hm).elim e h)]

theorem release_updates (s : State) (u : Nat) : (s.release u).updates = if (tget s.waiters u).isSome then s.updates ++ [u] else s.updates := by
  unfold State.release
  split
  next h => rw [h]; rfl
  next h =>
    rw [h]
    dsimp only
    unfold State.fset
    rw [set_updates]
    rfl

theorem releaseAll_updates_keeps (l : List Nat) (s : State) (h : t ∈ s.updates) : t ∈ (l.foldl State.release s).updates := by
  induction l generalizing s with
  | nil => exact h
  | cons u l ih =>
    refine ih _ ?_
    rw [release_updates]
    split
    · exact List.mem_append_left _ h
    · exact h

theorem releaseAll_updates (l : List Nat) (s : State) (hl : t ∈ l) (hw : tget s.waiters t = some w) : t ∈ (l.foldl State.release s).updates := by
  induction l generalizing s with
  | nil => cases hl
  | cons u l ih =>
    rw [List.foldl_cons]
    by_cases e : t = u
    · refine releaseAll_updates_keeps l _ ?_
      rw [release_updates, ← e, hw, Option.isSome_some, if_pos rfl]
      exact List.mem_append_right _ List.mem_cons_self
    · refine ih _ ((List.mem_cons.1 hl).resolve_left e) ?_
      rw [release_waiter, if_neg e, hw]

/-- A register of no sync object's status reads as before a waiter was released. -/
theorem release_count (s : State) (u : Nat) : (s.release u).get (R.syncCount o) = s.get (R.syncCount o) := by
  unfold State.release
  split
  · rfl
  · exact get_fset_other (by dsimp only; omega)

theorem releaseAll_count (l : List Nat) (s : State) : (l.foldl State.release s).get (R.syncCount o) = s.get (R.syncCount o) := by
  induction l generalizing s with
  | nil => rfl
  | cons u l ih => rw [List.foldl_cons, ih, release_count]

/-! ### Notifiers -/

/-- A notifier that fires queues its action and changes registers of its own alone. -/
theorem fire_waiters (s : State) (o k : Nat) : (s.fire o k).waiters = s.waiters ∧ (s.fire o k).updates = s.updates := by
  unfold State.fire
  dsimp only
  split
  · exact ⟨rfl, rfl⟩
  · split
    · unfold State.fset
      exact ⟨set_waiters .., set_updates ..⟩
    · exact ⟨set_waiters .., set_updates ..⟩

theorem fire_count (s : State) (o k : Nat) : (s.fire o k).get (R.syncCount o) = s.get (R.syncCount o) := by
  unfold State.fire
  dsimp only
  split
  · rfl
  · split
    · exact get_fset_other (by dsimp only; omega)
    · exact get_set_off (by dsimp only; omega)

/-- The service cores that a count meets wait no more. -/
def freed (s : State) (o : Nat) : State := { s with svc := { s.svc with cores := s.svc.cores.map (coreFree o (s.get (R.syncCount o))) } }

theorem syncAfter_eq (s : State) (o : Nat) :
    s.syncAfter o = (((s.metBy o (s.get (R.syncCount o)).toNat).foldl State.release (freed s o)).fire o 0).fire o 1 := rfl

theorem syncAfter_waiter : tget (s.syncAfter o).waiters t = if t ∈ s.metBy o (s.get (R.syncCount o)).toNat then none else tget s.waiters t := by
  rw [syncAfter_eq, (fire_waiters ..).1, (fire_waiters ..).1, releaseAll_waiter]
  rfl

theorem syncAfter_updates (h : t ∈ s.metBy o (s.get (R.syncCount o)).toNat) (hw : tget s.waiters t = some w) : t ∈ (s.syncAfter o).updates := by
  rw [syncAfter_eq, (fire_waiters ..).2, (fire_waiters ..).2]
  exact releaseAll_updates _ _ h hw

theorem syncAfter_count : (s.syncAfter o).get (R.syncCount o) = s.get (R.syncCount o) := by
  rw [syncAfter_eq, fire_count, fire_count, releaseAll_count]
  rfl

/-! ### Claimed runs -/

variable {owner handle : Nat}

/-- A register outside an object's page reads as before the object was cleared. -/
theorem syncClear_off {r : Reg} (h : r.addr / 0x1000 ≠ 0x3ff010000 + o) : (s.syncClear o owner handle).get r = s.get r := by
  unfold State.syncClear
  rw [get_fset_other (by dsimp only; omega), get_fset_other (by dsimp only; omega), get_fset_other (by dsimp only; omega), get_fset_other (by dsimp only; omega),
    get_set_off (by dsimp only; omega)]

/-- A cleared object: its count is 0, its notifiers are disarmed and it is its owner's (R295). -/
def SyncCleared (s : State) (o owner handle : Nat) : Prop :=
  s.get (R.syncCount o) = 0 ∧ s.fget (R.syncAction o 0) 63 60 = 0 ∧ s.fget (R.syncAction o 1) 63 60 = 0
    ∧ s.fget (R.syncStatus o) 29 28 = owner ∧ s.fget (R.syncStatus o) 27 22 = handle

theorem syncCleared_of_get {u : State} (h : SyncCleared s o owner handle) (hg : ∀ r : Reg, r.addr / 0x1000 = 0x3ff010000 + o → u.get r = s.get r) :
    SyncCleared u o owner handle := by
  obtain ⟨h1, h2, h3, h4, h5⟩ := h
  unfold SyncCleared State.fget
  rw [hg (R.syncCount o) (by dsimp only; omega), hg (R.syncAction o 0) (by dsimp only; omega), hg (R.syncAction o 1) (by dsimp only; omega),
    hg (R.syncStatus o) (by dsimp only; omega)]
  exact ⟨h1, h2, h3, h4, h5⟩

theorem syncCleared_syncClear (ho : owner < 4) (hh : handle < 64) : SyncCleared (s.syncClear o owner handle) o owner handle := by
  unfold State.syncClear
  refine ⟨?count, ?first, ?second, ?owner, ?handle⟩
  case count =>
    rw [get_fset_other (by dsimp only; omega), get_fset_other (by dsimp only; omega), get_fset_other (by dsimp only; omega), get_fset_other (by dsimp only; omega),
      get_set_self]
  case first =>
    rw [fget_fset_other (by dsimp only; omega), fget_fset_other (by dsimp only; omega), fget_fset_other (by dsimp only; omega), fget_fset (by decide) (by decide)]
    rfl
  case second =>
    rw [fget_fset_other (by dsimp only; omega), fget_fset_other (by dsimp only; omega), fget_fset (by decide) (by decide)]
    rfl
  case owner =>
    rw [fget_fset_off (by decide) (by decide) (by decide) (by decide), fget_fset (by decide) (by decide)]
    exact Nat.mod_eq_of_lt ho
  case handle =>
    rw [fget_fset (by decide) (by decide)]
    exact Nat.mod_eq_of_lt hh

theorem syncClaim_succ (s : State) (f n : Nat) : s.syncClaim f (n + 1) owner handle = (s.syncClaim f n owner handle).syncClear (f + n) owner handle := by
  unfold State.syncClaim
  rw [List.range_succ, List.foldl_append]
  rfl

theorem syncClaim_off {f n : Nat} {r : Reg} (h : ∀ i < n, r.addr / 0x1000 ≠ 0x3ff010000 + (f + i)) : (s.syncClaim f n owner handle).get r = s.get r := by
  induction n with
  | zero => rfl
  | succ n ih => rw [syncClaim_succ, syncClear_off (h n (Nat.lt_succ_self n)), ih fun i hi => h i (Nat.lt_succ_of_lt hi)]

theorem syncCleared_syncClaim {f n i : Nat} (ho : owner < 4) (hh : handle < 64) (hi : i < n) : SyncCleared (s.syncClaim f n owner handle) (f + i) owner handle := by
  induction n with
  | zero => exact absurd hi (Nat.not_lt_zero i)
  | succ n ih =>
    rw [syncClaim_succ]
    rcases Nat.lt_succ_iff_lt_or_eq.1 hi with h | rfl
    · exact syncCleared_of_get (ih h) fun r hr => syncClear_off (by omega)
    · exact syncCleared_syncClear ho hh

end

/-- Settles O32. -/
theorem syncReleaseAndClaim : Obligations.SyncReleaseAndClaim := by
  unfold Obligations.SyncReleaseAndClaim
  refine ⟨?release, ?claim⟩
  case release =>
    intro s o t w _ hw hp
    have hmet := mem_metBy (o := o) (c := (s.get (R.syncCount o)).toNat) hp hw
    refine ⟨fun ho hc => ?met, fun h => ?unmet, syncAfter_count, syncAfter_blind mem_blind ..⟩
    case met =>
      have hm := hmet.2 ⟨ho, hc⟩
      exact ⟨by rw [syncAfter_waiter, if_pos hm], syncAfter_updates hm hw⟩
    case unmet =>
      have hm : t ∉ s.metBy o (s.get (R.syncCount o)).toNat := fun hm => by
        obtain ⟨h1, h2⟩ := hmet.1 hm
        rcases h with h | h
        · exact h h1
        · omega
      rw [syncAfter_waiter, if_neg hm, hw]
  case claim =>
    intro s f n owner handle i _ ho hh hi
    obtain ⟨h1, h2, h3, h4, h5⟩ := syncCleared_syncClaim (s := s) (f := f) ho hh hi
    refine ⟨h1, h2, h3, h4, h5, fun o _ hout => ⟨syncClaim_off fun j hj => ?_, syncClaim_off fun j hj => ?_⟩⟩
    · dsimp only; omega
    · dsimp only; omega

end Sys2Proof.Machine
end

section
/-! Requests of chiplets at a home of the hub, and answers at their requesters (chapters 9 and 10). -/

namespace Sys2Proof.Machine

open Sys2Proof.Spec

section
variable {s : State} {n l : Nat}

/-! ### Global addresses of this device -/

theorem ownDev_lt : s.ownDev < 2 ^ 18 := by
  unfold State.ownDev
  split
  · exact fld_lt
  · decide

theorem gLocal_gOwn {a : Nat} (h : a < 2 ^ 46) : gLocal (s.gOwn a) = a := by
  unfold gLocal State.gOwn; omega

theorem isOwn_gOwn {a : Nat} (h : a < 2 ^ 46) : s.isOwn (s.gOwn a) = true := by
  have := ownDev_lt (s := s)
  unfold State.isOwn gDev State.gOwn
  rw [beq_iff_eq]
  omega

/-! ### Requests of a site -/

section
variable {r : CReq}

/-- A request of a site that is up and not fenced, to a line homed here, once its form is in order. -/
theorem siteReq_homed (hl : l < 2 ^ 39) (hup : s.bget (R.siteStatus n) 31 = true) (hf : s.fenced n = false) (hh : s.homed (128 * l) = true)
    (hat : r.k = .atomic → aopOk r.aop = true ∧ (r.size = 4 ∨ r.size = 8) ∧ r.off + r.size ≤ 128) :
    s.siteReq n l r = match r.k with
      | .evictClean => s.cohReq { r with a := .site n, line := 128 * l }
      | .evictDirty => s.cohReq { r with a := .site n, line := 128 * l }
      | _ => if r.k.code ≠ 0 ∧ s.libHit (128 * l) 128 then s.siteHole n { r with a := .site n, line := 128 * l } r.k.code (s.gOwn (128 * l)) 2
        else s.regOne ({ r with a := .site n, line := 128 * l }, false) := by
  have h46 : 128 * l < 2 ^ 46 := by omega
  have hform : ¬ (r.k = .atomic ∧ (!(aopOk r.aop) ∨ (r.size ≠ 4 ∧ r.size ≠ 8))) := by
    rintro ⟨hk, h⟩
    obtain ⟨ha, hz, _⟩ := hat hk
    rw [ha] at h
    rcases h with h | ⟨h4, h8⟩
    · cases h
    · exact hz.elim h4 h8
  have hfit : ¬ (r.k = .atomic ∧ 128 < r.off + r.size) := fun ⟨hk, h⟩ => absurd (hat hk).2.2 (Nat.not_le.2 h)
  have hup' : ¬ (!s.bget (R.siteStatus n) 31) = true := by rw [hup]; exact Bool.false_ne_true
  have hf' : ¬ s.fenced n = true := by rw [hf]; exact Bool.false_ne_true
  have hg : s.lineG l = s.gOwn (128 * l) := if_pos hl
  have hown : (s.isOwn (s.gOwn (128 * l)) && s.homed (128 * l)) = true := by rw [isOwn_gOwn h46, hh]; rfl
  unfold State.siteReq
  dsimp only
  rw [hg, gLocal_gOwn h46, if_neg hup', if_neg hf', if_neg hform, if_neg hfit]
  exact if_pos hown

/-- Every request but an eviction meets the regulator of its source (R377); one that writes spares the library. -/
theorem siteReq_regulated (hl : l < 2 ^ 39) (hup : s.bget (R.siteStatus n) 31 = true) (hf : s.fenced n = false) (hh : s.homed (128 * l) = true)
    (hat : r.k = .atomic → aopOk r.aop = true ∧ (r.size = 4 ∨ r.size = 8) ∧ r.off + r.size ≤ 128)
    (hlib : r.k.code = 0 ∨ s.libHit (128 * l) 128 = false) (hc : r.k ≠ .evictClean) (hd : r.k ≠ .evictDirty) :
    s.siteReq n l r = s.regOne ({ r with a := .site n, line := 128 * l }, false) := by
  have hno : ¬ (r.k.code ≠ 0 ∧ s.libHit (128 * l) 128 = true) := by
    rintro ⟨h0, h1⟩
    rcases hlib with h | h
    · exact h0 h
    · exact Bool.false_ne_true (h.symm.trans h1)
  rw [siteReq_homed hl hup hf hh hat, if_neg hno]
  split
  next h => exact absurd h hc
  next h => exact absurd h hd
  next => rfl

theorem siteReq_evicts (hl : l < 2 ^ 39) (hup : s.bget (R.siteStatus n) 31 = true) (hf : s.fenced n = false) (hh : s.homed (128 * l) = true)
    (hk : r.k = .evictClean ∨ r.k = .evictDirty) : s.siteReq n l r = s.cohReq { r with a := .site n, line := 128 * l } := by
  rw [siteReq_homed hl hup hf hh fun h => by rcases hk with e | e <;> rw [e] at h <;> cases h]
  rcases hk with h | h <;> rw [h]

theorem request_site {p : Miss → Bool} (hp : s.powered = true) : s.request (.site n) l r p = s.siteReq n l r := by
  unfold State.request
  rw [hp]
  rfl

end

/-- A request that no earlier one of its source and class waits before, and that its regulator lets by, reaches its home (R377). -/
theorem regOne_passes {r : CReq} {b : Bool} (hq : ∀ x ∈ s.regQ, x.1.a ≠ r.a ∨ x.1.tc ≠ r.tc) (ho : s.regOpen r.a r.line r.tc r.bytes = true) :
    s.regOne (r, b) = (s.regSpend r.a r.line r.tc r.bytes).cohReq r := by
  have hany : ¬ (s.regQ.any fun x => x.1.a == r.a && x.1.tc == r.tc) = true := by
    rw [List.any_eq_true]
    rintro ⟨x, hx, h⟩
    rw [Bool.and_eq_true, beq_iff_eq, beq_iff_eq] at h
    exact (hq x hx).elim (fun hn => hn h.1) fun hn => hn h.2
  unfold State.regOne
  dsimp only
  rw [if_neg hany, if_pos ho]

/-! ### Answers -/

theorem ansIn_here {a : Agent} {tag : Nat} {k : AnsK} {data : BitVec 1024} {poison : Bool} {x : Ans} {u : State} (h : s.ansTake a l tag k = some (x, u)) :
    s.ansIn a l tag k data poison = u.ansGive x := by
  unfold State.ansIn
  rw [h]

theorem datFIn_here {a : Agent} {tag : Nat} {data : BitVec 1024} {poison : Bool} {x : Ans} {u : State} (h : s.ansTake a l tag .datF = some (x, u)) :
    s.datFIn a l tag data poison = u.ansGive x := by
  unfold State.datFIn
  split
  · rw [h, Option.isNone_some, Bool.false_and, Bool.false_and, if_neg Bool.false_ne_true]
    exact ansIn_here h
  · exact ansIn_here h

theorem rspErrIn_here {a : Agent} {tag : Nat} {x : Ans} {u : State} (h : s.ansTake a l tag .rspErr = some (x, u)) : s.rspErrIn a l tag = u.ansGive x := by
  unfold State.rspErrIn
  rw [h]

theorem ansGive_tile {x : Ans} {t : Nat} (ha : x.a = .tile t) (hk : x.k = .datS) : s.ansGive x = s.fillDone t x.tag x.data x.poison x.copy := by
  unfold State.ansGive
  rw [ha, hk]

theorem cmpIn_ends {tag : Nat} {e : Nat × ExtReq} (h : s.extFind l tag = some e) : s.cmpIn l tag = s.extEnd e.1 [] false 0 := by
  unfold State.cmpIn State.chipAns
  rw [h]
  dsimp only
  split
  · exact if_pos (Or.inr rfl)
  · rfl

end

/-- Settles O33. -/
theorem requestsAndAnswers : Obligations.RequestsAndAnswers := by
  unfold Obligations.RequestsAndAnswers
  refine ⟨?requests, fun s r b hq ho => regOne_passes hq ho, ?site, ?tile, ?cmp⟩
  case requests =>
    intro s n l tag tc hn hl hp hup hf hh r
    have hok : agentOk (.site n) = true := decide_eq_true hn
    refine ⟨?_, ?_, ?_, ?_, ?_, fun d p => ?_, fun hlib => ⟨fun d p => ?_, fun m d p => ?_, fun o a z x c ho h1 h10 hz hoz => ?_⟩⟩
    · exact run_eq hok (congrArg State.cohTail ((request_site hp).trans (siteReq_regulated hl hup hf hh (nofun) (.inl rfl) (nofun) (nofun))))
    · exact run_eq hok (congrArg State.cohTail ((request_site hp).trans (siteReq_regulated hl hup hf hh (nofun) (.inl rfl) (nofun) (nofun))))
    · exact run_eq hok (congrArg State.cohTail ((request_site hp).trans (siteReq_regulated hl hup hf hh (nofun) (.inl rfl) (nofun) (nofun))))
    · exact run_eq hok (congrArg State.cohTail ((request_site hp).trans (siteReq_regulated hl hup hf hh (nofun) (.inl rfl) (nofun) (nofun))))
    · exact run_eq hok (congrArg State.cohTail ((request_site hp).trans (siteReq_evicts hl hup hf hh (.inl rfl))))
    · exact run_eq hok (congrArg State.cohTail ((request_site hp).trans (siteReq_evicts hl hup hf hh (.inr rfl))))
    · exact run_eq hok (congrArg State.cohTail ((request_site hp).trans (siteReq_regulated hl hup hf hh (nofun) (.inr hlib) (nofun) (nofun))))
    · exact run_eq hok (congrArg State.cohTail ((request_site hp).trans (siteReq_regulated hl hup hf hh (nofun) (.inr hlib) (nofun) (nofun))))
    · have hdiv : (128 * l + o) / 128 = l := by omega
      have hmod : (128 * l + o) % 128 = o := by omega
      have haop : aopOk a = true := by unfold aopOk; rw [decide_eq_true h1, decide_eq_true h10]; rfl
      refine run_eq hok (congrArg State.cohTail ((request_site hp).trans ?_))
      rw [hdiv, hmod]
      exact siteReq_regulated hl hup hf hh (fun _ => ⟨haop, hz, hoz⟩) (.inr hlib) (nofun) (nofun)
  case site =>
    intro s n l tag x u hn
    have hok : agentOk (.site n) = true := decide_eq_true hn
    refine ⟨fun h d p => ?_, fun h => ?_, fun h w hw => ?_, fun h d p => ?_⟩
    · exact run_eq hok (congrArg State.accPump (ansIn_here h))
    · exact run_eq hok (congrArg State.accPump (ansIn_here h))
    · exact run_eq hok (congrArg State.accPump ((if_pos hw).trans (rspErrIn_here h)))
    · exact run_eq hok (congrArg State.accPump (datFIn_here h))
  case tile =>
    intro s t l tag x u d p ht h ha hk
    have hok : agentOk (.tile t) = true := decide_eq_true ht
    exact run_eq hok (congrArg State.accPump ((ansIn_here h).trans (ansGive_tile ha hk)))
  case cmp =>
    intro s n l tag e hn hr h _
    exact run_eq (by rw [hr, decide_eq_true hn, Bool.true_and, beq_iff_eq]) (congrArg State.accPump (cmpIn_ends h))

end Sys2Proof.Machine
end

section
/-! The directory (chapter 9). -/

namespace Sys2Proof.Machine
open Sys2Proof.Spec

theorem mem_sIns {l : List Nat} {x y : Nat} : y ∈ sIns l x ↔ y = x ∨ y ∈ l := by
  induction l with
  | nil => simp [sIns]
  | cons z r ih =>
    unfold sIns
    split
    · exact List.mem_cons
    · split
      next h => rw [← h, List.mem_cons, or_self_left]
      next => rw [List.mem_cons, ih, List.mem_cons, or_left_comm]

theorem lines_blind : Blind State.lines := ⟨fun _ _ _ _ => set_lines .., fun _ _ => rfl, fun _ _ => rfl, fun _ _ => rfl, fun _ _ => rfl, fun _ _ => rfl,
  fun _ _ => rfl, fun _ _ _ => rfl, fun _ _ => rfl, fun _ _ => rfl⟩

theorem bump_lines (s : State) (r : Reg) (w n : Nat) : (s.bump r w n).lines = s.lines := set_lines ..
theorem memErrAdd_lines (s : State) (u a k : Nat) : (s.memErrAdd u a k).lines = s.lines := by
  unfold State.memErrAdd
  split
  · exact log'_blind lines_blind ..
  · rfl
theorem measCommit_lines (s : State) : s.measCommit.lines = s.lines := by
  rfl
theorem libFail_lines (s : State) : s.libFail.lines = s.lines := by
  unfold State.libFail
  rw [measCommit_lines]
  unfold State.bset State.fset
  rw [set_lines, set_lines]

theorem meetLine_lines (s : State) (a : Nat) : (s.meetLine a).lines = s.lines := by
  unfold State.meetLine
  dsimp only
  simp only [apply_ite State.lines, memErrAdd_lines, bump_lines, libFail_lines, ite_self]
  
/-! ### A line's entry -/

section
variable {s : State} {l : Nat}

theorem dirOf_modLine {f : Line → Line} (h : (tget s.lines l).isSome = true) : (s.modLine l f).dirOf l = (f (tgetD s.lines l {})).dir := by
  obtain ⟨x, hx⟩ := Option.isSome_iff_exists.1 h
  unfold State.dirOf State.modLine
  rw [hx]
  dsimp only
  unfold tgetD
  rw [tget_tput, if_pos rfl, hx]
  rfl

/-- A line given a directory entry reads it. -/
theorem dirOf_setDir {x : Dir} (h : (tget s.lines l).isSome = true) : (s.modLine l fun y => { y with dir := x }).dirOf l = x := dirOf_modLine h

/-- The answer to a tile or a site is on its way from then on, and nothing else changes. -/
theorem answer_agent {r : CReq} {k : AnsK} {data : BitVec 1024} {poison copy : Bool} {reason : Nat} (ha : (∃ t, r.a = .tile t) ∨ ∃ n, r.a = .site n) :
    ∃ d n, s.answer r k data poison copy reason = { s with ans := s.ans ++ [⟨r.a, r.line, r.tag, k, d, poison, reason, copy, r.tc, n⟩] } := by
  unfold State.answer
  rcases ha with ⟨t, ha⟩ | ⟨n, ha⟩ <;> rw [ha] <;> exact ⟨_, _, rfl⟩

/-- The entry an answered request leaves, and its answer. -/
theorem answer_leaves {r : CReq} {k : AnsK} {data : BitVec 1024} {poison copy : Bool} {reason : Nat} (ha : (∃ t, r.a = .tile t) ∨ ∃ n, r.a = .site n) :
    (s.answer r k data poison copy reason).dirOf l = s.dirOf l ∧ ∃ x ∈ (s.answer r k data poison copy reason).ans, x.a = r.a ∧ x.tag = r.tag ∧ x.k = k := by
  obtain ⟨d, n, e⟩ := answer_agent (s := s) (k := k) (data := data) (poison := poison) (copy := copy) (reason := reason) ha
  rw [e]
  exact ⟨rfl, _, List.mem_append_right _ List.mem_cons_self, rfl, rfl, rfl⟩

end

/-! ### Requests that end (Table 9-4) -/

/-- The state after the line of a request that ends has been read. -/
def lineMet (s : State) (r : CReq) : State := State.meetLine { s with txn := tdel s.txn (r.line / 128) } r.line

/-- The same with the request's bytes counted: the state in which its effect is taken. -/
def ending (s : State) (r : CReq) : State := (lineMet s r).countBytes r.a r.line r.tc 128

theorem lineMet_dirOf (s : State) (r : CReq) (l : Nat) : (lineMet s r).dirOf l = s.dirOf l := by
  unfold State.dirOf lineMet
  rw [meetLine_lines]

theorem ending_lines (s : State) (r : CReq) : (ending s r).lines = s.lines := by
  unfold ending State.countBytes
  rw [apply_ite State.lines, bump_lines, ite_self]
  exact meetLine_lines ..

section
variable {s : State} {r : CReq} {l n : Nat} (hline : r.line = 128 * l) (hv : r.void = false)
include hline hv

theorem cohEnd_rdUnique (hk : r.k = .rdUnique) :
    s.cohEnd { r := r } = ((ending s r).modLine l fun y => { y with dir := { owner := agentNo r.a } }).answer r .datC ((lineMet s r).lineData r.line) ((lineMet s r).poison.contains r.line) true 0 := by
  have hl : r.line / 128 = l := by omega
  have hm : State.meetLine { s with txn := tdel s.txn l } r.line = lineMet s r := by unfold lineMet; rw [hl]
  unfold State.cohEnd
  simp only [hk, hv, hl, hm, Bool.false_eq_true, if_false, reduceCtorEq, ending]

theorem cohEnd_upgrade (hk : r.k = .upgrade) :
    s.cohEnd { r := r } = ((ending s r).modLine l fun y => { y with dir := { owner := agentNo r.a } }).answer r .cmpE 0 false true 0 := by
  have hl : r.line / 128 = l := by omega
  have hm : State.meetLine { s with txn := tdel s.txn l } r.line = lineMet s r := by unfold lineMet; rw [hl]
  unfold State.cohEnd
  simp only [hk, hv, hl, hm, Bool.false_eq_true, if_false, reduceCtorEq, ending]

theorem cohEnd_rdShared_first (hk : r.k = .rdShared) (ha : r.a = .site n) (hd : (s.dirOf l).held = false) :
    s.cohEnd { r := r } = ((ending s r).modLine l fun y => { y with dir := { owner := some n } }).answer r .datC ((lineMet s r).lineData r.line) ((lineMet s r).poison.contains r.line) true 0 := by
  have hl : r.line / 128 = l := by omega
  have hm : State.meetLine { s with txn := tdel s.txn l } r.line = lineMet s r := by unfold lineMet; rw [hl]
  unfold State.cohEnd
  simp only [hk, hv, hl, hm, Bool.false_eq_true, if_false, reduceCtorEq, ending, ha, lineMet_dirOf, hd, Option.isNone_none, Bool.not_false, Bool.and_self, if_true, agentNo]

theorem cohEnd_rdShared_forwards (hk : r.k = .rdShared) (ha : r.a = .site n) (hd : (s.dirOf l).held = true) (hf : r.fwd = true) :
    s.cohEnd { r := r } = ((ending s r).modLine l fun y => { y with dir := (s.dirOf l).share r.a true }).answer r .datF ((lineMet s r).lineData r.line) ((lineMet s r).poison.contains r.line) true 0 := by
  have hl : r.line / 128 = l := by omega
  have hm : State.meetLine { s with txn := tdel s.txn l } r.line = lineMet s r := by unfold lineMet; rw [hl]
  unfold State.cohEnd
  simp only [hk, hv, hl, hm, Bool.false_eq_true, if_false, reduceCtorEq, ending, ha, lineMet_dirOf, hd, Bool.not_true, Bool.false_and, hf, if_true]

theorem cohEnd_rdShared_tile {t : Nat} (hk : r.k = .rdShared) (ha : r.a = .tile t) :
    s.cohEnd { r := r } = ((ending s r).modLine l fun y => { y with dir := (s.dirOf l).share r.a false }).answer r .datS ((lineMet s r).lineData r.line) ((lineMet s r).poison.contains r.line) true 0 := by
  have hl : r.line / 128 = l := by omega
  have hm : State.meetLine { s with txn := tdel s.txn l } r.line = lineMet s r := by unfold lineMet; rw [hl]
  unfold State.cohEnd
  simp only [hk, hv, hl, hm, Bool.false_eq_true, if_false, reduceCtorEq, ending, ha, lineMet_dirOf]

theorem cohEnd_rdNoAlloc (hk : r.k = .rdNoAlloc) (hr : region (128 * l) ≠ .scratch) :
    s.cohEnd { r := r } = (ending s r).answer r .datS ((lineMet s r).lineData r.line) ((lineMet s r).poison.contains r.line) false 0 := by
  have hl : r.line / 128 = l := by omega
  have hm : State.meetLine { s with txn := tdel s.txn l } r.line = lineMet s r := by unfold lineMet; rw [hl]
  have htidy (u : State) : u.lineTidy l = u := if_neg (by rw [beq_eq_false_iff_ne.2 hr]; exact Bool.false_ne_true)
  unfold State.cohEnd
  simp only [hk, hv, hl, hm, Bool.false_eq_true, if_false, reduceCtorEq, ending, htidy]

end

/-- The entry and the answer that a request leaves, by how it ends. -/
theorem ended_leaves {s u : State} {r : CReq} {l : Nat} {x : Dir} {k : AnsK} {d : BitVec 1024} {p c : Bool} {w : Nat} (hs : (tget s.lines l).isSome = true)
    (ha : (∃ t, r.a = .tile t) ∨ ∃ n, r.a = .site n) (h : u = ((ending s r).modLine l fun y => { y with dir := x }).answer r k d p c w) :
    u.dirOf l = x ∧ ∃ y ∈ u.ans, y.a = r.a ∧ y.tag = r.tag ∧ y.k = k := by
  have hs' : (tget (ending s r).lines l).isSome = true := by rw [ending_lines]; exact hs
  obtain ⟨hdir, hans⟩ := answer_leaves (s := (ending s r).modLine l fun y => { y with dir := x }) (l := l) (k := k) (copy := c) (reason := w) (data := d)
    (poison := p) ha
  rw [h]
  exact ⟨hdir.trans (dirOf_setDir hs'), hans⟩

/-! ### Fences (R255) -/

/-- The states that differ in the answers under way alone: those to agents, to accesses and to the units of the hub. -/
def Answered (s u : State) : Prop := ∃ a b c, u = { s with ans := a, accs := b, curData := c }

theorem answered_answer (s : State) (r : CReq) (k : AnsK) (d : BitVec 1024) (p c : Bool) (w : Nat) : Answered s (s.answer r k d p c w) := by
  unfold State.answer
  split
  · split
    · split
      · exact ⟨_, _, _, rfl⟩
      · exact ⟨s.ans, s.accs, s.curData, rfl⟩
    · exact ⟨_, _, _, rfl⟩
  · exact ⟨_, _, _, rfl⟩

theorem answered_trans {s u v : State} (h : Answered s u) (h' : Answered u v) : Answered s v := by
  obtain ⟨_, _, _, rfl⟩ := h
  obtain ⟨a, b, c, rfl⟩ := h'
  exact ⟨a, b, c, rfl⟩

theorem answered_foldl {α : Type} {f : State → α → State} (hf : ∀ s x, Answered s (f s x)) (l : List α) (s : State) : Answered s (l.foldl f s) := by
  induction l generalizing s with
  | nil => exact ⟨s.ans, s.accs, s.curData, rfl⟩
  | cons x l ih => exact answered_trans (hf s x) (ih _)

theorem mem_owned_poison {ls p : List Nat} {x : Nat} : x ∈ ls.foldl (fun p l => sIns p (128 * l)) p ↔ x ∈ p ∨ ∃ l ∈ ls, x = 128 * l := by
  induction ls generalizing p with
  | nil => simp
  | cons y ls ih => rw [List.foldl_cons, ih, mem_sIns, List.exists_mem_cons_iff, or_comm (a := x = 128 * y), or_assoc]

/-- The lines that an agent owns. -/
def ownedBy (s : State) (k : Nat) : List Nat := (s.lines.filter fun e => e.2.dir.owner == some k).map (·.1)

theorem mem_ownedBy {s : State} {k : Nat} {e : Nat × Line} (h : e ∈ s.lines) (ho : e.2.dir.owner = some k) : e.1 ∈ ownedBy s k :=
  List.mem_map.2 ⟨e, List.mem_filter.2 ⟨h, beq_iff_eq.2 ho⟩, rfl⟩

theorem refuseAll_frame (s : State) (k : Nat) :
    ∃ q l a b c, s.refuseAll k = { s with regQ := q, txn := s.txn.map (Txn.voided k), lineQ := l, ans := a, accs := b, curData := c } := by
  obtain ⟨a, b, c, e⟩ := answered_foldl (fun s r => answered_answer s r .rspErr 0 false false 1)
    (((s.txn.map fun e : Nat × Txn => e.2.r) ++ s.lineQ.flatMap (·.2) ++ s.regQ.map (·.1)).filter (CReq.isOf k))
    { s with regQ := s.regQ.filter (fun e => !e.1.isOf k), txn := s.txn.map (Txn.voided k),
             lineQ := (s.lineQ.map fun e : Nat × List CReq => (e.1, e.2.filter fun r => !r.isOf k)).filter fun e => !e.2.isEmpty }
  exact ⟨_, _, a, b, c, e⟩

theorem fence_eq {s u : State} {n : Nat} (hn : n < 8) (hu : u = State.bset { s with tiles := s.tiles.map (dropWindow n) } (R.cohSiteStatus n) 31 true) :
    let v := State.refuseAll { u with poison := (ownedBy u n).foldl (fun p l => sIns p (128 * l)) u.poison } n
    s.fence n = (v.txn.map (·.1)).foldl (fun s l => s.fenceTxn n l) v := by
  subst hu
  have h8 : n ≠ 8 := by omega
  unfold State.fence
  simp only [if_neg h8]
  rfl

/-- With nothing in progress, a fence of a site sets its mark, poisons the lines it owned, and refuses its requests. -/
theorem fence_quiet {s : State} {n : Nat} (hn : n < 8) (ht : s.txn = []) :
    (∀ r, (s.fence n).get r = (s.bset (R.cohSiteStatus n) 31 true).get r) ∧ (s.fence n).poison = (ownedBy s n).foldl (fun p l => sIns p (128 * l)) s.poison
      ∧ (s.fence n).mem = s.mem := by
  have key (u : State) (hu : u = State.bset { s with tiles := s.tiles.map (dropWindow n) } (R.cohSiteStatus n) 31 true) (htx : u.txn = []) :
      (s.fence n).regs = u.regs ∧ (s.fence n).poison = (ownedBy u n).foldl (fun p l => sIns p (128 * l)) u.poison ∧ (s.fence n).mem = u.mem := by
    obtain ⟨q, l, a, b, c, e⟩ := refuseAll_frame { u with poison := (ownedBy u n).foldl (fun p l => sIns p (128 * l)) u.poison } n
    have htx' : ({ u with poison := (ownedBy u n).foldl (fun p l => sIns p (128 * l)) u.poison } : State).txn.map (Txn.voided n) = [] := by
      rw [htx]; rfl
    rw [fence_eq hn hu, e, htx']
    exact ⟨rfl, rfl, rfl⟩
  have hf : (State.bset { s with tiles := s.tiles.map (dropWindow n) } (R.cohSiteStatus n) 31 true).lines = s.lines := set_lines ..
  have hp : (State.bset { s with tiles := s.tiles.map (dropWindow n) } (R.cohSiteStatus n) 31 true).poison = s.poison := set_poison ..
  obtain ⟨hr, hpo, hm⟩ := key _ rfl ((set_txn ..).trans ht)
  unfold ownedBy at hpo
  rw [hf, hp] at hpo
  exact ⟨get_of_regs hr, hpo, hm.trans (set_mem ..)⟩

theorem cohReq_fenced {s : State} {r : CReq} {n : Nat} (ha : r.a = .site n) (hf : s.fenced n = true) :
    s.cohReq r = { s with ans := s.ans ++ [⟨.site n, r.line, r.tag, .rspErr, 0, false, 1, false, r.tc, if r.k = .atomic then 64 else 128⟩] } := by
  unfold State.cohReq
  dsimp only
  rw [ha]
  dsimp only [agentNo]
  rw [if_pos hf]
  unfold State.answer
  rw [ha]
  dsimp only
  by_cases hk : r.k = .atomic
  · rw [if_pos hk, if_pos hk]
    have h0 : (0 : BitVec 1024).toNat / 2 ^ (8 * r.off) % 2 ^ (8 * r.size) * 2 ^ (8 * (r.off % 64)) = 0 := by
      rw [BitVec.ofNat_eq_ofNat, BitVec.toNat_zero, Nat.zero_div, Nat.zero_mod, Nat.zero_mul]
    rw [h0]
    rfl
  · rw [if_neg hk, if_neg hk]

/-- Nothing is asked of a fenced agent: its copy is dropped, and a line it owned is poisoned. -/
theorem snoop_fenced {s : State} {l kind tag n : Nat} (hf : s.fenced n = true) :
    (s.snoop l kind tag [n]).2 = [] ∧ ((s.snoop l kind tag [n]).1.dirOf l).owner ≠ some n := by
  have hlive : [n].filter (fun k => !s.fenced k) = [] := by rw [List.filter_cons, hf]; rfl
  have hgone : [n].filter s.fenced = [n] := by rw [List.filter_cons, if_pos hf]; rfl
  have hdrop (u : State) : ((u.modLine l fun x => { x with dir := x.dir.without n }).dirOf l).owner ≠ some n := by
    by_cases h : (tget u.lines l).isSome = true
    · rw [dirOf_modLine h]
      unfold Dir.without
      dsimp only
      split
      · exact nofun
      next hne => exact hne
    · have hnone : tget u.lines l = none := Option.not_isSome_iff_eq_none.1 h
      unfold State.modLine
      rw [hnone]
      unfold State.dirOf tgetD
      rw [hnone]
      exact nofun
  unfold State.snoop
  rw [hlive, hgone]
  exact ⟨rfl, hdrop _⟩

/-- Settles O34. -/
theorem directory : Obligations.Directory := by
  unfold Obligations.Directory
  refine ⟨fun s r l hl hv hs => ?ends, ?fence, fun s r n ha hf => cohReq_fenced ha hf, fun s l kind tag n hf => snoop_fenced hf⟩
  case ends =>
    refine ⟨fun hk n ha => ?_, fun hk n ha => ?_, fun hk n ha hd => ?_, fun hk n ha hd hf => ?_, fun hk t ha => ?_, fun hk n ha hr => ?_⟩
    · obtain ⟨hdir, hans⟩ := ended_leaves hs (Or.inr ⟨n, ha⟩) (cohEnd_rdUnique hl hv hk)
      rw [ha] at hdir
      exact ⟨hdir, hans⟩
    · obtain ⟨hdir, hans⟩ := ended_leaves hs (Or.inr ⟨n, ha⟩) (cohEnd_upgrade hl hv hk)
      rw [ha] at hdir
      exact ⟨hdir, hans⟩
    · exact ended_leaves hs (Or.inr ⟨n, ha⟩) (cohEnd_rdShared_first hl hv hk ha hd)
    · obtain ⟨hdir, hans⟩ := ended_leaves hs (Or.inr ⟨n, ha⟩) (cohEnd_rdShared_forwards hl hv hk ha hd hf)
      rw [hdir, ha]
      rw [ha] at hans
      exact ⟨rfl, rfl, mem_sIns.2 (Or.inl rfl), hans⟩
    · obtain ⟨hdir, hans⟩ := ended_leaves hs (Or.inl ⟨t, ha⟩) (cohEnd_rdShared_tile hl hv hk ha)
      rw [hdir, ha]
      rw [ha] at hans
      exact ⟨mem_sIns.2 (Or.inl rfl), rfl, hans⟩
    · rw [cohEnd_rdNoAlloc hl hv hk hr]
      obtain ⟨hdir, hans⟩ := answer_leaves (s := ending s r) (l := l) (k := .datS) (copy := false) (reason := 0) (data := (lineMet s r).lineData r.line)
        (poison := (lineMet s r).poison.contains r.line) (Or.inr ⟨n, ha⟩)
      refine ⟨hdir.trans ?_, hans⟩
      unfold State.dirOf
      rw [ending_lines]
  case fence =>
    intro s n hn ht
    obtain ⟨hr, hp, hm⟩ := fence_quiet hn ht
    have h8 : n ≠ 8 := by omega
    refine ⟨?_, fun e he ho => ?_, fun x hx => ?_, hm⟩
    · unfold State.fenced State.bget State.fget
      rw [if_neg h8, hr]
      exact bget_bset (by decide)
    · rw [hp]
      exact mem_owned_poison.2 (Or.inr ⟨e.1, mem_ownedBy he ho, rfl⟩)
    · rw [hp]
      exact mem_owned_poison.2 (Or.inl hx)

end Sys2Proof.Machine
end

section
/-! Answers to snoops, invalidations and the queues of a line (chapter 9). -/

namespace Sys2Proof.Machine

open Sys2Proof.Spec

section
variable {s : State} {a : Agent} {l : Nat}

theorem snpAns_here {kind : Nat} {data : List Byte} {poison : Bool} {here : State → State} (h : ∀ m, region (128 * l) ≠ .site m) :
    s.snpAns a l kind data poison here = here s := by
  unfold State.snpAns
  split
  next m _ hm => exact absurd hm (h m)
  next => rfl

section
variable {k : Nat} {t : Txn} (h : s.awaits a l = some (k, t))
include h

theorem rspI_heard : s.rspI a l = (s.modLine l fun x => { x with dir := x.dir.without k }).cohWait { t with agents := sDel t.agents k } := by
  unfold State.rspI
  rw [h]
  rfl

theorem rspS_heard (hk : t.r.k = .rdNoAlloc) : s.rspS a l = s.cohWait { t with agents := sDel t.agents k } := by
  unfold State.rspS
  rw [h]
  dsimp only
  rw [hk]
  exact if_neg nofun

theorem rspFwd_heard (hk : t.r.k = .rdShared) (hf : (s.dirOf l).fwd = some k) :
    s.rspFwd a l = (s.modLine l fun x => { x with dir := { x.dir with fwd := none } }).cohWait { t with agents := sDel t.agents k, fwdDone := true } := by
  unfold State.rspFwd
  rw [h]
  exact if_pos ⟨hk, hf⟩

theorem datCur_heard {d : BitVec 1024} {p : Bool} (hk : t.r.k = .rdNoAlloc) : s.datCur a l d p = s.cohWait { t with agents := sDel t.agents k, cur := some (d, p) } := by
  unfold State.datCur
  rw [h]
  exact if_pos hk

theorem datWb_heard {d : BitVec 1024} {p : Bool} (hk : t.r.k = .rdUnique) : s.datWb a l d p = s.wbWrite l d p := by
  unfold State.datWb
  rw [h]
  dsimp only
  rw [hk]
  exact if_neg nofun

end

/-! ### Snoops of chiplet homes -/

theorem chipSnoop_here {n tag kind : Nat} {target : Option Nat} (hp : s.powered = true) (hu : s.bget (R.siteStatus n) 31 = true) (hc : s.siteCoherent n (128 * l) = true) :
    s.chipSnoop n l tag kind target = match target with
      | some k => s.toAgent (.site k) (128 * l) poolSnp (.snoop (.site k) (128 * l) tag kind)
      | none =>
        if kind = 1 then
          State.snpInvDone { s with binv := s.binv ++ ((List.range 68).filter fun b => !s.benchDown b).map fun b => (b, l), snpInv := s.snpInv ++ [(n, l, tag)] } l
        else s.toHome n l tag 10 [] false := by
  unfold State.chipSnoop
  rw [hp, hu, hc]
  rfl

theorem snpOk_here {n : Nat} (hn : n < 8) (hr : region (128 * l) = .site n) : snpOk n l none = true := by
  unfold snpOk
  rw [decide_eq_true hn, hr, beq_self_eq_true]
  rfl

/-- A home's SnpInv is answered once every bench has dropped the line. -/
theorem snpInvDone_one {n tag : Nat} (hb : ∀ x ∈ s.binv, x.2 ≠ l) (hs : s.snpInv = [(n, l, tag)]) :
    s.snpInvDone l = State.toHome { s with snpInv := [] } n l tag 9 [] false := by
  have hany : ¬ (s.binv.any fun x : Nat × Nat => x.2 == l) = true := by
    rw [List.any_eq_true]
    rintro ⟨x, hx, e⟩
    exact hb x hx (beq_iff_eq.1 e)
  have hl : (l == l) = true := beq_self_eq_true l
  unfold State.snpInvDone
  rw [if_neg hany, hs]
  simp only [List.filter_cons, hl, bne, Bool.not_true, Bool.false_eq_true, if_true, if_false, List.filter_nil, List.foldl_cons, List.foldl_nil]

/-! ### Bench invalidations -/

theorem tileInvs_txn (l b : Nat) (is : List Nat) (s : State) : (is.foldl (fun s i => s.tileInv l (32 * b + i)) s).txn = s.txn := by
  induction is generalizing s with
  | nil => rfl
  | cons i is ih => rw [List.foldl_cons, ih]; exact setTile_txn ..

theorem benchInv_awaited {b : Nat} {w : Option Nat} {t : Txn} (ht : tget s.txn l = some t) (hb : b ∈ t.benches) (hk : t.r.keepBench = []) :
    let u := ((List.range 32).filter fun i => w != some (32 * b + i)).foldl (fun s i => s.tileInv l (32 * b + i)) s
    s.benchInv b l w = (u.modLine l fun x => { x with dir := { x.dir with bench := sDel x.dir.bench b } }).cohWait { t with benches := sDel t.benches b } := by
  have ht' : tget (((List.range 32).filter fun i => w != some (32 * b + i)).foldl (fun s i => s.tileInv l (32 * b + i)) s).txn l = some t := by
    rw [tileInvs_txn, ht]
  unfold State.benchInv
  simp only [ht', hk, if_pos (List.contains_iff_mem.2 hb)]
  rfl

/-! ### Queues -/

theorem lineResume_front {r : CReq} {q : List CReq} (hq : tgetD s.lineQ l [] = r :: q) (ht : tget s.txn l = none) (hr : s.homeReady r.line = true)
    (hs : s.seamHeld r.a r.line = false) : s.lineResume l = State.cohTake { s with lineQ := tset s.lineQ l [] q } r := by
  unfold State.lineResume
  rw [hq]
  dsimp only
  rw [ht, hr, hs]
  rfl

theorem snoopTimeout_site {n : Nat} (hn : n < 8) (h : (s.txn.any fun e => e.2.agents.contains n) = true) :
    s.snoopTimeout (.site n) = ((s.fset (R.cohSiteStatus n) 15 0 (satInc 16 (s.fget (R.cohSiteStatus n) 15 0) 1)).log' 1 12 2 [n]).fence n := by
  have h8 : n ≠ 8 := by omega
  unfold State.snoopTimeout
  simp only [agentNo, h, if_true, if_neg h8]

end

/-- Settles O35. -/
theorem snoopAnswers : Obligations.SnoopAnswers := by
  unfold Obligations.SnoopAnswers
  refine ⟨fun s a l k t ha hr h => ⟨?_, fun hk => ?_, fun hk hf => ?_, fun d p hk => ?_, fun d p hk => ?_⟩, fun s n l tag hn hr hp hu hc => ⟨?_, ?_, ?_⟩,
    fun s n l tag hb hs => snpInvDone_one hb hs, ?bench, fun s l r q hq ht hr hs => ?_, fun s n hn h => ?_, fun s n l tag m d p hn => ?_⟩
  · exact run_eq ha ((snpAns_here hr).trans (congrArg State.cohTail (rspI_heard h)))
  · exact run_eq ha ((snpAns_here hr).trans (congrArg State.cohTail (rspS_heard h hk)))
  · exact run_eq ha ((snpAns_here hr).trans (congrArg State.cohTail (rspFwd_heard h hk hf)))
  · exact run_eq ha ((snpAns_here hr).trans (congrArg State.cohTail (datCur_heard h hk)))
  · exact run_eq ha ((snpAns_here hr).trans (datWb_heard h hk))
  · exact run_eq (snpOk_here hn hr) (chipSnoop_here hp hu hc)
  · exact run_eq (snpOk_here hn hr) (chipSnoop_here hp hu hc)
  · exact run_eq (snpOk_here hn hr) (chipSnoop_here hp hu hc)
  case bench =>
    intro s b l w t hb ht hm hw hk
    refine run_eq (decide_eq_true hb) ((if_pos ?_).trans ?_)
    · simp only [ht, hw, List.contains_iff_mem.2 hm, Bool.true_or, beq_self_eq_true, Bool.and_self]
    · rw [benchInv_awaited ht hm hk]
  · exact congrArg Host.Outcome.next (congrArg State.cohTail (lineResume_front hq ht hr hs))
  · exact run_eq (decide_eq_true hn) (congrArg State.cohTail (snoopTimeout_site hn h))
  · exact run_of (decide_eq_true hn)

end Sys2Proof.Machine
end

section
/-! The UCIe link of a site, its commands and its events (chapter 10). -/

namespace Sys2Proof.Machine

open Sys2Proof.Spec

section
variable {s : State} {n m : Nat}

/-! ### The link of a module -/

@[simp] theorem site_modSite (s : State) (n : Nat) (f : SiteSt → SiteSt) : (s.modSite n f).site n = f (s.site n) := by
  unfold State.site State.modSite
  rw [tgetD_tset, if_pos rfl]
  rfl

theorem mod_set (s : State) (r : Reg) (v : W64) (k : Nat) : (s.set r v).mod k = s.mod k := by
  unfold State.mod
  rw [set_mods]

/-- A flit with an error or out of order: one NAK until a good one arrives (R268). -/
theorem ucieIn_bad {f : UFlit} (h5 : s.mst n m = 5) (hb : f.crcOk = false ∨ f.seq ≠ ((s.mod (12 * n + m)).rxSeq + 1) % 4096) :
    s.ucieIn n m f = s.modNak (12 * n + m) := by
  have hst : ¬ (s.mst n m ≠ 3 ∧ s.mst n m ≠ 5) := fun h => h.2 h5
  have hbad : (!f.crcOk || f.seq != ((s.mod (12 * n + m)).rxSeq + 1) % 4096) = true := by
    rcases hb with h | h
    · rw [h]; rfl
    · rw [bne_iff_ne.2 h, Bool.or_true]
  exact (if_neg hst).trans (if_pos hbad)

theorem modNak_first {k : Nat} (h : (s.mod k).nakSent = false) :
    s.modNak k = ((s.bump (R.siteModCrcErr (k / 12) (k % 12)) 32 1).modMod k fun x => { x with nakSent := true }).emit (.ucie (k / 12) (k % 12) 1 0 (s.mod k).rxSeq []) := by
  have hm : (s.bump (R.siteModCrcErr (k / 12) (k % 12)) 32 1).mod k = s.mod k := mod_set ..
  unfold State.modNak
  dsimp only
  rw [hm, h]
  exact if_neg Bool.false_ne_true

theorem modNak_again {k : Nat} (h : (s.mod k).nakSent = true) : s.modNak k = s.bump (R.siteModCrcErr (k / 12) (k % 12)) 32 1 := by
  have hm : (s.bump (R.siteModCrcErr (k / 12) (k % 12)) 32 1).mod k = s.mod k := mod_set ..
  unfold State.modNak
  dsimp only
  rw [hm, h]
  exact if_pos rfl

theorem modCret_conUe (s : State) (k : Nat) (cret : List Nat) : (s.modCret k cret).1.conUe = s.conUe := by
  unfold State.modCret
  refine List.foldlRecOn (motive := fun a : State × Option Int => a.1.conUe = s.conUe) _ _ rfl fun a ha p _ => ?_
  dsimp only
  split
  · exact ha
  · exact ha

/-- A flit in order, whose credits keep within the grant and whose messages have no reserved value, is accepted. -/
theorem ucieIn_good {f : UFlit} (h5 : s.mst n m = 5) (hc : f.crcOk = true) (hq : f.seq = ((s.mod (12 * n + m)).rxSeq + 1) % 4096) :
    let k := 12 * n + m
    let u := s.modMod k fun x => { (x.acked f.ack) with rxSeq := f.seq, nakSent := false, toAck := x.toAck + 1 }
    let c := u.modCret k f.cret
    let g := flitMsgs f.units (c.1.mod k).rest
    let v := c.1.modMod k fun x => { x with rest := g.2.1, owe := g.1.foldl (fun o p => tset o p 0 (tgetD o p 0 + 1)) x.owe }
    u.countUe 2 k = false → c.2 = none → g.2.2 = false → ((v.modPump k).mod k).toAck < 32 → s.ucieIn n m f = v.modPump k := by
  intro k u c g v hu hover hg hack
  have hst : ¬ (s.mst n m ≠ 3 ∧ s.mst n m ≠ 5) := fun h => h.2 h5
  have hgood : ¬ (!f.crcOk || f.seq != ((s.mod k).rxSeq + 1) % 4096) = true := by
    rw [hc, bne_eq_false_iff_eq.2 hq]; exact Bool.false_ne_true
  have h3 : ¬ s.mst n m = 3 := by rw [h5]; decide
  have hu' : ¬ c.1.countUe 2 k = true := by
    have e : c.1.countUe 2 k = u.countUe 2 k := congrArg (fun l : List (Nat × Nat) => l.contains (2, k)) (modCret_conUe u k f.cret)
    rw [e, hu]
    exact Bool.false_ne_true
  have hg' : ¬ g.2.2 = true := by rw [hg]; exact Bool.false_ne_true
  unfold State.ucieIn
  dsimp only
  rw [if_neg hst, if_neg hgood, if_neg h3]
  refine (if_neg hu').trans ?_
  have hov : (u.modCret k f.cret).2 = none := hover
  rw [hov]
  dsimp only
  rw [if_neg hg']
  exact if_neg (Nat.not_le.2 hack)

theorem modAck_only {k : Nat} (ho : s.modOwes k = false) (ht : (s.mod k).toAck ≠ 0) :
    s.modAck k = (s.modMod k fun x => { x with toAck := 0 }).emit (.ucie (k / 12) (k % 12) 2 0 (s.mod k).rxSeq []) := by
  unfold State.modAck
  rw [ho, if_neg Bool.false_ne_true]
  exact if_neg ht

end

/-- Settles O36. -/
theorem ucieLink : Obligations.UcieLink := by
  unfold Obligations.UcieLink
  intro s n m hn hm k
  have hok : (decide (n < 8) && decide (m < 12)) = true := both_lt hn hm
  refine ⟨fun f h5 hb h => ?_, fun f h5 hb h => ?_, fun f h5 hc hq => ?_, fun a h5 => ?_, fun a h5 => ?_, fun h5 ho ht => ?_, fun h5 h => ?_, fun h6 => ?_, fun h6 => ?_, ?_⟩
  · exact run_eq hok ((ucieIn_bad h5 hb).trans (modNak_first h))
  · exact run_eq hok ((ucieIn_bad h5 hb).trans (modNak_again h))
  · exact fun hu hover hg hack => run_eq hok (ucieIn_good h5 hc hq hu hover hg hack)
  · exact run_eq hok (if_neg (not_not.2 h5))
  · exact run_eq hok (if_pos h5)
  · exact run_eq hok ((if_pos h5).trans (modAck_only ho ht))
  · exact run_eq hok (if_pos ⟨h5, h⟩)
  · exact run_eq hok (if_pos h6)
  · exact run_eq hok (if_pos h6)
  · refine ⟨fun h => run_eq hok (if_neg fun hc => h ?_), fun h h0 => run_eq hok (if_pos ⟨h, h0⟩)⟩
    have hph : ((s.modSite n fun x => { x with sideDown := sIns x.sideDown m, side := ((List.range 12).find? fun i => !(sIns x.sideDown m).contains i).getD x.side }).site n).ph
        = (s.site n).ph := by rw [site_modSite]
    exact hph.symm.trans hc.1

/-! ### Site commands -/

theorem freeBytes_length (s : State) (n : Nat) : (s.freeBytes n).length = n := by
  unfold State.freeBytes
  rw [List.length_map, List.length_range]

section
variable {s u : State} {q : Req} {n : Nat}

/-- A site's own mailbox, or one that is no site's, may name the site (R282). -/
theorem onSite_ok {f : State → AxR} (hn : n < 8) (hq : q.mbx < 16 ∨ 24 ≤ q.mbx ∨ q.mbx = 16 + n) : onSite u q n f = f u :=
  if_neg (by omega)

theorem onSite_other {f : State → AxR} (h1 : 16 ≤ q.mbx) (h2 : q.mbx < 24) (h3 : q.mbx ≠ 16 + n) : onSite u q n f = invalid u :=
  if_pos (Or.inr ⟨h1, h2, h3⟩)

theorem onSite_invalid {f : State → AxR} (hf : f u = invalid u) : onSite u q n f = invalid u := by
  unfold onSite
  split
  · rfl
  · exact hf

theorem siteResetCmd_goes {mb : Nat} {cycle scrub : Bool} (hp : s.populated n = true) (ho : (s.site n).ph ≠ .off) (hh : s.rst.held.contains (76 + n) = false)
    (hr : (s.site n).ph.running = false) : s.siteResetCmd mb n cycle scrub = .wait (s.siteReset n cycle scrub (some mb)) := by
  unfold State.siteResetCmd
  rw [hp, hh, hr, beq_eq_false_iff_ne.2 ho]
  rfl

end

/-- Settles O37. -/
theorem siteCommands : Obligations.SiteCommands := by
  unfold Obligations.SiteCommands
  refine ⟨fun s q n u h hn hq => ?_, fun s q n m u h hn hq hm => ?_, fun s q n u h h1 h2 h3 => ?_, fun s q n u h hn hq hp hup hh => ?_,
    fun s q n c r u h hn hq hp hheld hh => ?_, fun s q n w u h hn hq hw he => ?_, fun s q n w u h hw => ?_, fun s q n g u h hn hq hg hf => ?_⟩
  · exact exec_done h (onSite_ok hn hq) rfl
  · exact ⟨u.freeBytes 64, freeBytes_length .., exec_done h ((onSite_ok hn hq).trans (if_neg (Nat.not_le.2 hm))) rfl⟩
  · exact exec_fail h (onSite_other h1 h2 h3) rfl
  · exact exec_wait h ((onSite_ok hn hq).trans (siteResetCmd_goes hp (by rw [hup]; exact nofun) hh (by rw [hup]; rfl))) rfl
  · exact exec_wait h ((onSite_ok hn hq).trans (siteResetCmd_goes hp (by rw [hheld]; exact nofun) hh (by rw [hheld]; rfl))) rfl
  · refine exec_done h ((onSite_ok hn hq).trans ((if_neg (Nat.not_lt.2 hw)).trans ?_)) rfl
    have he' : ((u.modSite n fun x => { x with ceil := some (8 * w) }).site n).exact = false := by rw [site_modSite]; exact he
    dsimp only
    rw [he', if_neg Bool.false_ne_true]
    rfl
  · exact exec_fail h (onSite_invalid (if_pos hw)) rfl
  · exact exec_done h ((onSite_ok hn hq).trans ((if_neg (Nat.not_lt.2 hg)).trans (if_neg (Nat.not_lt.2 hf)))) rfl

/-! ### Site events -/

section
variable {s : State} {n : Nat}

theorem safStatus_ne_sitePwr (h : n < 8) : R.safStatus.addr ≠ (R.sitePwr n).addr := by dsimp only; omega
theorem siteId_ne_sitePwr {w : Nat} (h : w < 9) : (R.siteId n w).addr ≠ (R.sitePwr n).addr := by dsimp only; omega
theorem domStatus_ne_sitePwr (h : n < 8) : (R.pwrDomStatus (76 + n)).addr ≠ (R.sitePwr n).addr := by dsimp only; omega

theorem site_fset (s : State) (r : Reg) (hi lo x k : Nat) : (s.fset r hi lo x).site k = s.site k := by
  unfold State.site State.fset
  rw [set_sites]

/-- The state once word w of a chiplet's identity has been heard. -/
def idHeard (s : State) (n w : Nat) (v : W32) : State :=
  ((s.siteHeard n).set (R.siteId n w) (BitVec.ofNat 64 v.toNat)).modSite n fun x => { x with words := sIns x.words w }

theorem idRsp_heard {w : Nat} {v : W32} (hp : (s.site n).ph = .idents) (hw : w ≤ 8) :
    s.idRsp n w v =
      if ((idHeard s n w v).site n).words.length < 9 then idHeard s n w v
      else if (idHeard s n w v).idw n 0 23 16 = (idHeard s n w v).siteType n ∧
          (idHeard s n w v).siteSerial n = (tgetD (idHeard s n w v).fuse.siteSerial n 1).toNat ∧ (idHeard s n w v).idRanges n then
        let u := idHeard s n w v
        let x := (u.fset (R.sitePwr n) 63 56 (u.idw n 8 31 22)).fset (R.sitePwr n) 44 34 (u.idw n 8 21 11)
        ((x.fset (R.sitePwr n) 33 23 (u.idw n 8 10 0)).modsAll n 3).modSite n fun x => { x with ph := .training }
      else ((idHeard s n w v).bset (R.siteStatus n) 28 true).siteHold n dSiteMismatch 3 true := by
  have hidle : ¬ ((s.site n).ph ≠ .idents ∨ 8 < w) := fun h => h.elim (fun h => h hp) (by omega)
  have hword (u : State) (a b : Nat) : ((u.fset (R.sitePwr n) 63 56 a).fset (R.sitePwr n) 44 34 b).idw n 8 10 0 = u.idw n 8 10 0 := by
    unfold State.idw
    rw [fget_fset_other (siteId_ne_sitePwr (by decide)), fget_fset_other (siteId_ne_sitePwr (by decide))]
  unfold State.idRsp
  rw [if_neg hidle]
  dsimp only
  rw [hword]
  rfl

theorem siteModsIn_trains {k : Nat} {spares : List Nat} (hp : (s.site n).ph = .training)
    (hk : k = (List.range 12).foldl (fun k m => if s.bget (R.siteModStatus n m) 30 then k + 2 ^ m else k) 0) (h0 : k ≠ 0) :
    let u := (List.range 12).foldl (fun s m => if nbit k m then s.modSpares n m (spares.getD m 0) else s.set (R.siteModStatus n m) (BitVec.ofNat 64 (7 * 2 ^ 21)))
      (s.emit (.sideband n sbSiteMods k))
    let v := (u.fset (R.siteStatus n) 11 0 k).modSite n fun x => { x with ph := .ack }
    s.siteModsIn n k spares = ((v.siteBase n (min (v.idw n 8 10 0) v.siteShare)).siteGrant n).tokenCheck 1 := by
  have hgo : ¬ (k = 0 ∨ k ≠ k) := fun h => h.elim h0 fun h => h rfl
  unfold State.siteModsIn
  rw [if_neg (not_not.2 hp), ← hk]
  exact if_neg hgo

theorem pwrReq_grants {v p : Nat} (hn : n < 8) (hp : s.sitePowered n = true) (he : (s.site n).exact = false) (hs : s.bget R.safStatus 29 = false) (h1 : 110 ≤ v) (h2 : v ≤ 210) :
    s.pwrReq n v p = ((((s.fset (R.sitePwr n) 33 23 p).fset (R.sitePwr n) 63 56 v).siteBase n p).siteGrant n).tokenCheck 1 := by
  have hgo : ¬ (!(s.fset (R.sitePwr n) 33 23 p).sitePowered n || ((s.fset (R.sitePwr n) 33 23 p).site n).exact || (s.fset (R.sitePwr n) 33 23 p).bget R.safStatus 29) = true := by
    have hpow : (s.fset (R.sitePwr n) 33 23 p).sitePowered n = true := by unfold State.sitePowered at hp ⊢; rw [site_fset]; exact hp
    rw [hpow, site_fset, he, bget_fset_other (safStatus_ne_sitePwr hn), hs]
    exact Bool.false_ne_true
  unfold State.pwrReq
  rw [if_neg hgo, if_pos ⟨h1, h2⟩]

/-- What a temperature does once it is recorded, where the chiplet has named its limit (R281). -/
theorem thermIn_limit {t : Nat} (hn : n < 8) (hr : s.siteRailsOn n = true) (h0 : s.idw n 7 23 16 ≠ 0) :
    let u := s.fset (R.sitePwr n) 7 0 t
    s.thermIn n t = if s.idw n 7 23 16 + 5 ≤ t then (u.log' 1 12 7 [n, t]).siteCut n else if s.idw n 7 23 16 < t then u.siteHot n 1
      else if t < s.idw n 7 23 16 then u.siteHot n 0 else u := by
  have hm : (s.fset (R.sitePwr n) 7 0 t).idw n 7 23 16 = s.idw n 7 23 16 := fget_fset_other (siteId_ne_sitePwr (by decide))
  have hgo : ¬ (!(s.fset (R.sitePwr n) 7 0 t).siteRailsOn n || s.idw n 7 23 16 == 0) = true := by
    have hon : (s.fset (R.sitePwr n) 7 0 t).siteRailsOn n = true := (bget_fset_other (domStatus_ne_sitePwr hn)).trans hr
    rw [hon, beq_eq_false_iff_ne.2 h0]
    exact Bool.false_ne_true
  unfold State.thermIn
  dsimp only
  rw [hm, if_neg hgo]

/-- What an average does once it is recorded, outside the safe hold. -/
theorem siteAvg_on {a : Nat} (hn : n < 8) (hr : s.siteRailsOn n = true) (hs : s.bget R.safStatus 29 = false) :
    let u := s.fset (R.sitePwr n) 55 45 a
    s.siteAvg n a = if 1400 < a then (u.log' 1 12 9 [n, a]).siteCut n
      else if (s.site n).gseq ≠ 0 ∧ s.fget (R.sitePwr n) 22 12 < a then ((u.modSite n fun x => { x with overAvg := true }).siteGrant n).log' 1 12 9 [n, a]
      else u.modSite n fun x => { x with overAvg := false } := by
  have hon : (s.fset (R.sitePwr n) 55 45 a).siteRailsOn n = true := (bget_fset_other (domStatus_ne_sitePwr hn)).trans hr
  have hsaf : (s.fset (R.sitePwr n) 55 45 a).bget R.safStatus 29 = false := (bget_fset_other (safStatus_ne_sitePwr hn)).trans hs
  have hg : (s.fset (R.sitePwr n) 55 45 a).fget (R.sitePwr n) 22 12 = s.fget (R.sitePwr n) 22 12 := fget_fset_off (by decide) (by decide) (by decide) (by decide)
  unfold State.siteAvg
  dsimp only
  rw [hon, hsaf, hg, site_fset]
  simp only [Bool.not_true, Bool.false_eq_true, if_false, false_and, or_false]

end

/-- Settles O38. -/
theorem siteEvents : Obligations.SiteEvents := by
  unfold Obligations.SiteEvents
  intro s n hn
  have hok : decide (n < 8) = true := decide_eq_true hn
  refine ⟨fun w v hp hw => ⟨fun h => ?_, fun h9 ht hs hr => ?_, fun h9 ht => ?_⟩, fun k spares hp hk h0 => ?_, fun v p hp he hs h1 h2 => ?_, fun q i hi => ?_, fun t hr h0 ht => ?_,
    fun t hr h0 h1 h2 => ?_, fun t hr h0 ht => ?_, fun ms hr h0 h10 h100 => ?_, fun ms hr h0 h100 => ?_, fun hp => ?_, fun hp => ?_, fun c => ?_, fun a hr hs ha => ?_,
    fun a hr hs hg ha hover => ?_, fun a hr ho ha => ?_, fun a hr ho ha => ?_⟩
  · exact run_eq hok ((idRsp_heard hp hw).trans (if_pos h))
  · exact run_eq hok ((idRsp_heard hp hw).trans ((if_neg (Nat.not_lt.2 h9)).trans (if_pos ⟨ht, hs, hr⟩)))
  · exact run_eq hok ((idRsp_heard hp hw).trans ((if_neg (Nat.not_lt.2 h9)).trans (if_neg fun h => ht h.1)))
  · exact run_eq hok (siteModsIn_trains hp hk h0)
  · exact run_eq hok (pwrReq_grants hn hp he hs h1 h2)
  · refine run_eq hok ?_
    unfold State.pwrAckIn
    rw [hi]
  · exact run_eq hok ((thermIn_limit hn hr h0).trans ((if_neg (by omega)).trans ((if_neg (by omega)).trans (if_pos ht))))
  · exact run_eq hok ((thermIn_limit hn hr h0).trans ((if_neg (by omega)).trans (if_pos h1)))
  · exact run_eq hok ((thermIn_limit hn hr h0).trans (if_pos ht))
  · have hgo : ¬ (!s.siteRailsOn n || s.idw n 7 23 16 == 0) = true := by rw [hr, beq_eq_false_iff_ne.2 h0]; exact Bool.false_ne_true
    exact run_eq hok ((if_neg hgo).trans ((if_neg (Nat.not_le.2 h100)).trans (if_pos h10)))
  · have hgo : ¬ (!s.siteRailsOn n || s.idw n 7 23 16 == 0) = true := by rw [hr, beq_eq_false_iff_ne.2 h0]; exact Bool.false_ne_true
    exact run_eq hok ((if_neg hgo).trans (if_pos h100))
  · exact run_eq hok ((if_neg (not_not.2 hp)).trans (if_pos rfl))
  · exact run_eq hok (if_pos hp)
  · exact run_of hok
  · exact run_eq hok ((siteAvg_on hn hr hs).trans (if_pos ha))
  · exact run_eq hok ((siteAvg_on hn hr hs).trans ((if_neg (Nat.not_lt.2 ha)).trans (if_pos ⟨hg, hover⟩)))
  · exact run_eq hok ((if_neg (by rw [hr, ho]; exact Bool.false_ne_true)).trans (if_pos ha))
  · exact run_eq hok ((if_neg (by rw [hr, ho]; exact Bool.false_ne_true)).trans (if_neg (Nat.not_lt.2 ha)))

end Sys2Proof.Machine
end

section
/-! The state store and HBM: commands and events (chapter 7). -/

namespace Sys2Proof.Machine

open Sys2Proof.Spec

section
variable {s u : State}

/-! ### Granule modes and flushes -/

/-- New masks that keep granule 0, meet no granule of the context store, and come while no job runs: the lines of the granules that leave are recalled
or purged first (R206, R207). -/
theorem ssConfig_starts {mb n m : Nat} (hn : n % 2 = 1) (hm : m % 2 = 1) (hn' : n < 256) (hm' : m < 256)
    (h0 : u.t0Meets (lost n (u.maskOf 0)) (lost m (u.maskOf 1)) = false) (hj : u.ssJob = none) :
    let on := u.maskOf 0
    let os := u.maskOf 1
    let rec' := u.hbmLines fun e => nbit (if u.homeSlice (128 * e.1) < 128 then lost on n else lost os m) (e.2.way / 8)
      && !nbit (u.fget (R.ssCfg (u.homeSlice (128 * e.1))) 15 8) (e.2.way / 8)
    let pur := (u.lines.filter fun e => region (128 * e.1) == .scratch
      && nbit (if scrSlice (128 * e.1) < 128 then lost n on else lost m os) (scrGran (128 * e.1))).map (·.1)
    u.ssConfig mb n m = .wait (u.jobStart { mbx := some mb, masks := some (n, m) } rec' pur) := by
  refine (if_neg (by omega)).trans ((if_neg ?_).trans (if_neg ?_))
  · rw [h0]; exact Bool.false_ne_true
  · rw [hj]; exact Bool.false_ne_true

theorem ssConfig_even {mb n m : Nat} (h : n % 2 = 0 ∨ m % 2 = 0) : u.ssConfig mb n m = invalid u :=
  if_pos (h.elim Or.inl fun h => Or.inr (Or.inl h))

theorem ssConfig_refuses {mb n m : Nat} (hn : n % 2 = 1) (hm : m % 2 = 1) (hn' : n < 256) (hm' : m < 256)
    (h0 : u.t0Meets (lost n (u.maskOf 0)) (lost m (u.maskOf 1)) = true) : u.ssConfig mb n m = refuse u dState :=
  (if_neg (by omega)).trans (if_pos h0)

theorem flushLines_busy {mb : Nat} {ls : List Nat} (h : u.ssJob ≠ none) : u.flushLines mb ls = busy u :=
  if_pos (Option.isSome_iff_ne_none.2 h)

theorem flushLines_now {mb : Nat} {ls : List Nat} (h : u.ssJob = none) (hr : (ls.all fun l => u.stackReady (128 * l)) = true) :
    u.flushLines mb ls = .done (ls.foldl State.cleanLine u) 0 (p32 ls.length) :=
  (if_neg (by rw [h]; exact Bool.false_ne_true)).trans (if_pos hr)

theorem flushLines_later {mb : Nat} {ls : List Nat} (h : u.ssJob = none) (hr : ¬ (ls.all fun l => u.stackReady (128 * l)) = true) :
    u.flushLines mb ls = .wait (State.jobClean { u with ssJob := some { mbx := some mb, clean := ls, written := ls.length } }) :=
  (if_neg (by rw [h]; exact Bool.false_ne_true)).trans (if_neg hr)

/-- A flush by command: at once where every stack issues accesses, else a job. -/
theorem exec_flush {q : Req} {cmd : Nat} {i : Instr} {body : State → AxR} {ls : List Nat} (h : Begins s q cmd u) (hb : body u = u.flushLines q.mbx ls)
    (hj : u.ssJob = none) (hx : exec i s = run (mbxOk q) (axotte s q cmd body)) :
    exec i s = if ls.all fun l => u.stackReady (128 * l) then done (ls.foldl State.cleanLine u) q cmd 0 (p32 ls.length)
      else .next (State.jobClean { u with ssJob := some { mbx := some q.mbx, clean := ls, written := ls.length } }) := by
  by_cases hr : (ls.all fun l => u.stackReady (128 * l)) = true
  · rw [if_pos hr]
    exact exec_done h (hb.trans (flushLines_now hj hr)) hx
  · rw [if_neg hr]
    exact exec_wait h (hb.trans (flushLines_later hj hr)) hx

/-- A range of whole lines of backed HBM. -/
theorem flushRange_ok {b l : Nat} (hb : b % 128 = 0) (hl : l % 128 = 0) (h0 : l ≠ 0) (h1 : u.hbmBacked b = true) (h2 : u.hbmBacked (b + l - 1) = true) :
    ¬ (b % 128 ≠ 0 ∨ l % 128 ≠ 0 ∨ l = 0 ∨ (!u.hbmBacked b) = true ∨ (!u.hbmBacked (b + l - 1)) = true) := by
  rw [h1, h2, hb, hl]
  simp only [ne_eq, not_true_eq_false, h0, Bool.not_true, Bool.false_eq_true, or_self, not_false_eq_true]

/-! ### Events -/

theorem prefetch_enters {a : Nat} {cause : Bool} (hb : s.hbmBacked a = true) (hl : tget s.lines (a / 128) = none) (hi : s.inSide (a / 128) = false)
    (hy : s.lineBusy (a / 128) = false) (hr : s.stackReady a = true) (hc : cause = true)
    (hv : (if s.halfOf a = 0 then s.fget R.regStatus 35 32 else s.fget R.regStatus 39 36) ≤ s.fget R.regCongCfg 11 8) :
    let u := (s.hbmReq a false).meetLine (128 * (a / 128))
    s.prefetch a cause = if u.poison.contains (128 * (a / 128)) then u else u.sidePut (a / 128) := by
  refine if_neg ?_
  rw [hb, hl, hi, hy, hr, hc, decide_eq_true hv]
  exact Bool.false_ne_true

/-- A fill that a transaction waits for, of another class than 0: the line enters where there is room, and the request goes on. -/
theorem fillReturn_goes {a b n : Nat} {t : Txn} (hab : a / 128 * 128 = b) (hb : s.hbmBacked b = true) (hr : s.stackReady b = true) (ht : tget s.txn (b / 128) = some t)
    (hf : t.fill = true) (hc : t.r.tc ≠ 0) :
    let l := b / 128
    let p := s.partOf t.r.a
    let bare := t.r.k.reads && decide (p < 16) && s.fget (R.regPartSs p) 6 0 == 0 && (agentNo t.r.a).isNone
    let m := if bare then (s, true) else s.ssRoom l p
    let v := (m.1.hbmReq b false).meetLine b
    let w := { v with txn := tdel v.txn l }
    s.fillReturn a n = if m.2 then (if bare then (w.countBytes t.r.a b t.r.tc 128).answer t.r .datS (w.lineData b) (w.poison.contains b) false 0
      else (w.ssInsert l t.r.fillAge p false).cohGo t.r) else m.1 := by
  subst hab
  have hgo : ¬ (!s.hbmBacked (a / 128 * 128) || !s.stackReady (a / 128 * 128)) = true := by rw [hb, hr]; exact Bool.false_ne_true
  have h0 : (t.r.k.reads && t.r.tc == 0) = false := by rw [beq_eq_false_iff_ne.2 hc, Bool.and_false]
  unfold State.fillReturn
  dsimp only
  rw [if_neg hgo]
  simp only [ht, hf, h0, Bool.not_true, Bool.false_eq_true, if_false]
  generalize (if (t.r.k.reads && decide (s.partOf t.r.a < 16) && s.fget (R.regPartSs (s.partOf t.r.a)) 6 0 == 0 && (agentNo t.r.a).isNone) = true then (s, true)
    else s.ssRoom (a / 128 * 128 / 128) (s.partOf t.r.a)) = m
  cases m.2 <;> rfl

theorem fillReturn_stopped {a n : Nat} (h : s.stackReady (a / 128 * 128) = false) : s.fillReturn a n = s :=
  if_pos (by rw [h, Bool.not_false, Bool.or_true])

end

/-- Settles O39. -/
theorem memoryUnits : Obligations.MemoryUnits := by
  unfold Obligations.MemoryUnits
  refine ⟨⟨?even, ?evenExpert, ?t0, ?config, ?flush, ?range, ?busy, ?status, ?training, ?scrub, ?scrubExpert, ?errors, ?dir⟩, fun s => ⟨?ssPatrol, ?patrol, ?patrolStopped,
    ?powerup, ?complete, ?thermal, ?temp, ?turn, ?turnOff, ?prefetch, ?fill, ?fillStopped, ?probe⟩⟩
  case even => exact fun s q k u h hk => exec_fail h (if_pos hk) rfl
  case evenExpert => exact fun s q n m u h hnm => exec_fail h (ssConfig_even hnm) rfl
  case t0 => exact fun s q n m u h hn hm hn' hm' h0 => exec_refuse h (ssConfig_refuses hn hm hn' hm' h0) rfl
  case config =>
    rintro s q n m i cmd u (⟨rfl, rfl⟩ | ⟨k, h1, h8, rfl, rfl, rfl, rfl⟩) h hn hm hn' hm' h0 hj
    · exact exec_wait h (ssConfig_starts hn hm hn' hm' h0 hj) rfl
    · exact exec_wait h ((if_neg (by omega)).trans (ssConfig_starts hn hm hn' hm' h0 hj)) rfl
  case flush => exact fun s q u h hj => exec_flush h rfl hj rfl
  case range =>
    intro s q b l i u h hb hl h0 h1 h2 hj f d
    have hidle : ¬ u.ssJob.isSome = true := by rw [hj]; exact Bool.false_ne_true
    cases i with
    | true => exact exec_wait h ((if_neg (flushRange_ok hb hl h0 h1 h2)).trans (if_neg hidle)) rfl
    | false => exact exec_flush h ((if_neg (flushRange_ok hb hl h0 h1 h2)).trans (if_neg Bool.false_ne_true)) hj rfl
  case busy =>
    rintro s q b l i c u (⟨rfl, rfl⟩ | ⟨rfl, rfl, hb, hl, h0, h1, h2⟩) h hj
    · exact exec_fail h (flushLines_busy hj) rfl
    · exact exec_fail h ((if_neg (flushRange_ok hb hl h0 h1 h2)).trans ((if_neg Bool.false_ne_true).trans (flushLines_busy hj))) rfl
  case status => exact fun s q u h => exec_done h rfl rfl
  case training => exact fun s q t c u h ht hc => ⟨u.freeBytes 64, freeBytes_length .., exec_done h (if_neg (by omega)) rfl⟩
  case scrub => exact fun s q u h => exec_done h rfl rfl
  case scrubExpert => exact fun s q a p u h h1 h2 h3 h4 => exec_done h (if_neg (by omega)) rfl
  case errors => exact fun s q f c u h h1 h2 => exec_done h (if_neg (by omega)) rfl
  case dir => exact fun s q a u h ha => exec_done h (if_neg (Nat.not_le.2 ha)) rfl
  case ssPatrol =>
    intro a h
    refine congrArg Host.Outcome.next (if_pos ?_)
    rw [Bool.or_eq_true, Option.isSome_iff_ne_none]
    exact h
  case patrol => exact fun a hb hl hr => congrArg Host.Outcome.next (if_pos (by rw [hb, hl, hr]; rfl))
  case patrolStopped => exact fun a hr => congrArg Host.Outcome.next (if_neg (by rw [hr, Bool.and_false]; exact Bool.false_ne_true))
  case powerup => exact fun h hh => run_of (decide_eq_true hh)
  case complete =>
    intro h hs hp hh
    have hc : s.ssInv.contains h = true := by rw [hs, List.contains_iff_mem]; exact List.mem_singleton_self h
    have hd : sDel s.ssInv h = [] := by rw [hs]; unfold sDel; rw [List.filter_cons, bne_self_eq_false, if_neg Bool.false_ne_true]; rfl
    refine run_eq (decide_eq_true hh) ((if_pos hc).trans ?_)
    rw [hd]
    exact if_pos hp
  case thermal => exact fun h hh => run_of (decide_eq_true hh)
  case temp => exact fun t v ht => run_of (decide_eq_true ht)
  case turn =>
    intro t ht h31
    have hgo : ¬ (!s.bget (R.hbmStatus t) 31) = true := by rw [h31]; exact Bool.false_ne_true
    refine ⟨fun k b hk => run_eq (decide_eq_true ht) ((if_neg hgo).trans ?_), fun hk => run_eq (decide_eq_true ht) ((if_neg hgo).trans ?_)⟩ <;> rw [hk]
  case turnOff => exact fun t ht h31 => run_eq (decide_eq_true ht) (if_pos (by rw [h31]; rfl))
  case prefetch => exact fun a b hb hl hi hy hr hc hv => congrArg Host.Outcome.next (prefetch_enters hb hl hi hy hr hc hv)
  case fill => exact fun a n t hb hr ht hf hc => congrArg Host.Outcome.next (congrArg State.jobEnd (fillReturn_goes rfl hb hr ht hf hc))
  case fillStopped => exact fun a n hr => congrArg Host.Outcome.next (congrArg State.jobEnd (fillReturn_stopped hr))
  case probe => exact fun v hv => congrArg Host.Outcome.next (if_pos hv)

end Sys2Proof.Machine
end

section
/-! The commands on dressings (chapter 5). -/

namespace Sys2Proof.Machine

open Sys2Proof.Spec

/-! ### Images named by a command -/

section
variable {u v : State} {g : W64} {z : Nat} {img : List Byte} {f : State → Option (List Byte) → AxR}

theorem withImage_hole (h : ImageHole u g z v) : u.withImage g z f = f v none := by
  obtain ⟨h, rfl⟩ := h
  exact if_pos h

theorem withImage_awaits (h : u.imgHole g.toNat z = false) (hr : u.imgReady g.toNat z = false) : u.withImage g z f = .hold (u.farAsk g.toNat z 0) :=
  (if_neg (by rw [h]; exact Bool.false_ne_true)).trans (if_pos (by rw [hr]; rfl))

theorem withImage_read (h : ImageAt u g z img v) : u.withImage g z f = f v (some img) := by
  obtain ⟨h, hr, hi, rfl⟩ := h
  unfold State.withImage
  rw [hi, if_neg (by rw [h]; exact Bool.false_ne_true), if_neg (by rw [hr]; exact Bool.false_ne_true)]

end

section
variable {u v : State} {h : Nat} {d : Dressing}

/-! ### Loads -/

theorem drsLoad_hole {g : W64} {z c : Nat} {o : LoadOpt} (hi : ImageHole u g z v) : u.drsLoad g z c o = refuse v dBadHeader := withImage_hole hi

theorem drsLoad_awaits {g : W64} {z c : Nat} {o : LoadOpt} (hh : u.imgHole g.toNat z = false) (hr : u.imgReady g.toNat z = false) :
    u.drsLoad g z c o = .hold (u.farAsk g.toNat z 0) := withImage_awaits hh hr

theorem drsLoad_badHead {g : W64} {z c : Nat} {o : LoadOpt} {img : List Byte} (hi : ImageAt u g z img v) (hb : imgHeadOk img = false) :
    u.drsLoad g z c o = refuse v dBadHeader := by
  have hb' : (!imgHeadOk img) = true := by rw [hb]; rfl
  refine (withImage_read hi).trans ?_
  dsimp only
  rw [if_pos hb']

/-! ### Handles (R150) -/

theorem onHandle_known {f : Dressing → AxR} (hh : h < 64) (hd : tget u.dress h = some d) (hm : d.mbx = none) : onHandle u h f = f d := by
  unfold onHandle
  rw [if_neg (Nat.not_le.2 hh), hd]
  exact if_neg (by rw [hm]; exact Bool.false_ne_true)

theorem onHandle_busy {f : Dressing → AxR} (hh : h < 64) (hd : tget u.dress h = some d) (hm : d.mbx.isSome = true) : onHandle u h f = busy u := by
  unfold onHandle
  rw [if_neg (Nat.not_le.2 hh), hd]
  exact if_pos hm

theorem onHandle_unknown {f : Dressing → AxR} (hh : h < 64) (hd : tget u.dress h = none) : onHandle u h f = refuse u dBadHandle := by
  unfold onHandle
  rw [if_neg (Nat.not_le.2 hh), hd]

theorem onHandle_invalid {f : Dressing → AxR} (hh : 64 ≤ h) : onHandle u h f = invalid u := if_pos hh

theorem objOk_named {x : Nat} (h : x < 8192 ∨ x = 0xFFFF) : ¬ (!objOk x) = true := by
  have hx : objOk x = true := by
    unfold objOk
    rcases h with h | h
    · rw [decide_eq_true h]; rfl
    · rw [h]; rfl
  rw [hx]
  exact Bool.false_ne_true

/-! ### Activation (Table 5-7) -/

/-- Streams without a chiplet endpoint keep their module and grant, and nothing is awaited of a site. -/
theorem foldl_append_same {α : Type} {f : List α → α → α} (l : List α) (hf : ∀ acc, ∀ x ∈ l, f acc x = x) (a : List α) :
    l.foldl (fun ys x => ys ++ [f ys x]) a = a ++ l := by
  induction l generalizing a with
  | nil => exact (List.append_nil a).symm
  | cons x l ih =>
    rw [List.foldl_cons, hf a x List.mem_cons_self, ih (fun acc y hy => hf acc y (List.mem_cons_of_mem _ hy)), List.append_assoc]
    rfl

theorem foldl_idle {σ α : Type} {f : σ → α → σ} (l : List α) (hf : ∀ s, ∀ x ∈ l, f s x = s) (s : σ) : l.foldl f s = s := by
  induction l with
  | nil => rfl
  | cons x l ih => rw [List.foldl_cons, hf s x List.mem_cons_self]; exact ih fun s y hy => hf s y (List.mem_cons_of_mem _ hy)

section
variable {mb x : Nat} {hold : Bool} (hp : u.fget R.stwPstate 31 30 ≠ 1)
include hp

theorem activate_state (hs : d.st ≠ .loaded) : u.activate h mb x hold d = refuse (u.putD h { d with last := dState, mbx := none }) dState :=
  (if_neg hp).trans (if_pos hs)

theorem activate_dead (hs : d.st = .loaded) (hc : u.bget (R.xltCtx d.ctx) 63 = false) :
    u.activate h mb x hold d = refuse (u.putD h { d with last := dContextDead, mbx := none }) dContextDead :=
  (if_neg hp).trans ((if_neg (not_not.2 hs)).trans (if_pos (by rw [hc]; rfl)))

end

/-- An activation that comes to the dressing's image: its power state, context and tiles allow it, and the image's bytes are held (Table 5-7, step 1). -/
structure ActReady (u : State) (h : Nat) (d : Dressing) (img : List Byte) (v : State) : Prop where
  pstate : u.fget R.stwPstate 31 30 ≠ 1
  loaded : d.st = .loaded
  alive : u.bget (R.xltCtx d.ctx) 63 = true
  whole : (u.tilesOf d).any u.isolated.contains = false
  free : u.tilesHeld h d = false
  image : ImageAt u (BitVec.ofNat 64 d.image) d.size img v

/-- A dressing as steps 1 to 5 leave it where no stream has a chiplet endpoint. -/
def activating (v : State) (d : Dressing) (mb x : Nat) (hold : Bool) (img : List Byte) : Dressing :=
  { v.keepUndo d with
    st := .activating, mbx := some mb, obj := x, hold := hold, phase := 5, await := [], handed := []
    starts := ((recsOf img (imgSects img) 3).filter (fun r => nbit (imgU r 28 1) 0)).map fun r => imgU r 0 2
    segs := segPlaces ((imgSegs img).getD []), freed := [] }

section
variable {img : List Byte} {mb x : Nat} {hold : Bool} (hr : ActReady u h d img v)
include hr

theorem activate_digest (hd : (imgDigestOk img (imgU img 0x10 4) && BitVec.ofNat 512 (imgU img 0x30 64) == d.digest) = false) :
    u.activate h mb x hold d = refuse ((v.freeSegs d (segPlaces ((imgSegs img).getD []))).putD h { d with last := dDigest, mbx := none }) dDigest := by
  obtain ⟨hp, hl, ha, hw, hf, hi⟩ := hr
  unfold State.activate
  dsimp only
  rw [if_neg hp, if_neg (not_not.2 hl), if_neg (by rw [ha]; exact Bool.false_ne_true), if_neg (by rw [hw]; exact Bool.false_ne_true),
    if_neg (by rw [hf]; exact Bool.false_ne_true), withImage_read hi]
  exact if_pos (by rw [hd]; rfl)

theorem activate_done (hd : (imgDigestOk img (imgU img 0x10 4) && BitVec.ofNat 512 (imgU img 0x30 64) == d.digest) = true) (hs : ∀ y, y ∈ d.streams → y.siteEp = none) :
    let e := activating v d mb x hold img
    let w := { v with rst := { v.rst with idle := v.rst.idle.filter fun b => !((v.tilesOf e).map (· / 32)).contains b } }
    let y := ((w.copySegs e ((imgSegs img).getD [])).putD h e).presets e img
    u.activate h mb x hold d = .done ((d.streams.foldl (fun s x => s.bindStream e x) y).actFinish h e) 0 [] := by
  obtain ⟨hp, hl, ha, hw, hf, hi⟩ := hr
  have haw : (d.streams.filterMap fun x => x.siteEp.map fun e => epKey e.1 e.2) = [] :=
    List.filterMap_eq_nil_iff.2 fun y hy => by rw [hs y hy]; rfl
  unfold State.activate
  dsimp only
  rw [if_neg hp, if_neg (not_not.2 hl), if_neg (by rw [ha]; exact Bool.false_ne_true), if_neg (by rw [hw]; exact Bool.false_ne_true),
    if_neg (by rw [hf]; exact Bool.false_ne_true), withImage_read hi]
  refine (if_neg (by rw [hd]; exact Bool.false_ne_true)).trans ?_
  rw [foldl_append_same (l := d.streams) (a := []) (hf := fun acc y hy => by simp only [hs y hy]), List.nil_append, haw,
    foldl_idle (l := d.streams) (hf := fun s y hy => by simp only [hs y hy])]
  rfl

end

/-! ### Deactivation, swap and unload -/

theorem drsDeact_goes {mb n : Nat} (hn : n ≤ 10000) (hh : h < 64) (hd : tget u.dress h = some d) (hm : d.mbx = none) (hs : d.st = .active) :
    u.drsDeact mb h n = .wait (u.deactivate h mb n d none false) :=
  (if_neg (Nat.not_lt.2 hn)).trans ((onHandle_known hh hd hm).trans (if_neg (not_not.2 hs)))

theorem drsSwap_cases {a b mb n : Nat} {e : Dressing} (hn : n ≤ 10000) (ha : a < 64) (hb : b < 64) (hd : tget u.dress a = some d) (he : tget u.dress b = some e)
    (hdm : d.mbx = none) (hem : e.mbx = none) :
    u.drsSwap mb a b n = if d.st = .active ∧ e.st = .loaded ∧ e.target = some a
      then .wait ((u.deactivate a mb n d (some b) false).putD b { e with mbx := some mb }) else refuse u dState := by
  unfold State.drsSwap
  rw [if_neg (by omega), onHandle_known ha hd hdm, onHandle_known hb he hem]
  by_cases hc : d.st = .active ∧ e.st = .loaded ∧ e.target = some a
  · rw [if_pos hc, if_neg (by tauto)]
  · rw [if_neg hc, if_pos (by tauto)]

end

/-- Settles O40. -/
theorem dressingCommands : Obligations.DressingCommands := by
  unfold Obligations.DressingCommands
  refine ⟨?load, ?swapRange, ?activate, ?deactivate, ?deactivateExpert, ?swap, ?unload, ?handles, ?status, ?map⟩
  case load =>
    rintro s q g z c lb sb w o i cmd p u (⟨rfl, rfl, rfl⟩ | ⟨rfl, rfl, hw, rfl⟩) h hc
    · have hgo : ¬ 4096 ≤ c := Nat.not_le.2 hc
      refine ⟨fun v hi => ?_, fun hh hr => ?_, fun img v hi hb => ?_⟩
      · exact exec_refuse h ((if_neg hgo).trans (drsLoad_hole hi)) rfl
      · exact exec_hold h ((if_neg hgo).trans (drsLoad_awaits hh hr)) rfl
      · exact exec_refuse h ((if_neg hgo).trans (drsLoad_badHead hi hb)) rfl
    · have hgo : ¬ (4096 ≤ c ∨ (w ≠ 0xFF ∧ 64 ≤ w)) := by omega
      refine ⟨fun v hi => ?_, fun hh hr => ?_, fun img v hi hb => ?_⟩
      · exact exec_refuse h ((if_neg hgo).trans (drsLoad_hole hi)) rfl
      · exact exec_hold h ((if_neg hgo).trans (drsLoad_awaits hh hr)) rfl
      · exact exec_refuse h ((if_neg hgo).trans (drsLoad_badHead hi hb)) rfl
  case swapRange => exact fun s q g z c w o u lb sb h h64 hff => exec_fail h (if_pos (Or.inr ⟨hff, h64⟩)) rfl
  case activate =>
    intro s q h x hold d i cmd u hi hb hx hh hd hm hp
    have hbody : ∃ body, exec i s = run (mbxOk q) (axotte s q cmd body) ∧ body u = u.activate h q.mbx x hold d := by
      rcases hi with ⟨rfl, rfl, rfl⟩ | ⟨rfl, rfl⟩
      · exact ⟨_, rfl, (if_neg (objOk_named hx)).trans (onHandle_known hh hd hm)⟩
      · exact ⟨_, rfl, (if_neg (objOk_named hx)).trans (onHandle_known hh hd hm)⟩
    obtain ⟨body, hex, hbody⟩ := hbody
    refine ⟨fun hs => exec_refuse hb (hbody.trans (activate_state hp hs)) hex, fun hs hc => exec_refuse hb (hbody.trans (activate_dead hp hs hc)) hex,
      fun img v hs hc hi ht ha => ⟨fun hdg => ?_, fun hdg hdd hst => ?_⟩⟩
    · exact exec_refuse hb (hbody.trans (activate_digest ⟨hp, hs, hc, hi, ht, ha⟩ hdg)) hex
    · have hall : (imgDigestOk img (imgU img 0x10 4) && BitVec.ofNat 512 (imgU img 0x30 64) == d.digest) = true := by rw [hdg, hdd, beq_self_eq_true]; rfl
      exact exec_done hb (hbody.trans (activate_done ⟨hp, hs, hc, hi, ht, ha⟩ hall hst)) hex
  case deactivate => exact fun s q h d u hb hh hd hm hs => exec_wait hb (drsDeact_goes (by decide) hh hd hm hs) rfl
  case deactivateExpert => exact fun s q h n d u hb hn hh hd hm hs => exec_wait hb (drsDeact_goes hn hh hd hm hs) rfl
  case swap =>
    intro s q a b n d e i cmd u hi hb hn ha hb' hd he hdm hem
    have hcases := drsSwap_cases (mb := q.mbx) hn ha hb' hd he hdm hem
    by_cases hc : d.st = .active ∧ e.st = .loaded ∧ e.target = some a
    · rw [if_pos hc] at hcases ⊢
      rcases hi with ⟨rfl, rfl, rfl⟩ | ⟨rfl, rfl⟩
      · exact exec_wait hb hcases rfl
      · exact exec_wait hb hcases rfl
    · rw [if_neg hc] at hcases ⊢
      rcases hi with ⟨rfl, rfl, rfl⟩ | ⟨rfl, rfl⟩
      · exact exec_refuse hb hcases rfl
      · exact exec_refuse hb hcases rfl
  case unload =>
    intro s q h d u hb hh hd hm
    have hk : u.drsUnload q.mbx h = _ := onHandle_known hh hd hm
    cases hs : d.st <;> simp only [hs] at hk
    · exact exec_done hb hk rfl
    · exact exec_refuse hb hk rfl
    · exact exec_wait hb hk rfl
    · exact exec_refuse hb hk rfl
    · exact exec_wait hb hk rfl
  case handles =>
    intro s q h d i cmd u hi hb
    have hbody : ∃ body f, exec i s = run (mbxOk q) (axotte s q cmd body) ∧ body u = onHandle u h f := by
      rcases hi with ⟨rfl, rfl⟩ | ⟨rfl, rfl⟩ | ⟨rfl, rfl⟩
      · exact ⟨_, _, rfl, if_neg (objOk_named (Or.inr rfl))⟩
      · exact ⟨_, _, rfl, if_neg (by decide)⟩
      · exact ⟨_, _, rfl, rfl⟩
    obtain ⟨body, f, hex, hbody⟩ := hbody
    exact ⟨fun hh hd hm => exec_fail hb (hbody.trans (onHandle_busy hh hd hm)) hex, fun hh hd => exec_refuse hb (hbody.trans (onHandle_unknown hh hd)) hex,
      fun hh => exec_fail hb (hbody.trans (onHandle_invalid hh)) hex⟩
  case status =>
    intro s q h d u hb hh hd
    refine exec_done hb ((if_neg (Nat.not_le.2 hh)).trans ?_) rfl
    rw [hd]
  case map => exact fun s q f n u hb h1 h2 h3 => exec_done hb (if_neg (by omega)) rfl

end Sys2Proof.Machine
end

section
/-! Stop phases and the stream messages of sites (chapters 5 and 10). -/

namespace Sys2Proof.Machine

open Sys2Proof.Spec

section
variable {s : State} {h n : Nat} {d : Dressing}

/-- A list is empty as a test and as an equation. -/
theorem ite_isEmpty {α β : Type} {l : List α} {x y : β} : (if l.isEmpty then x else y) = if l = [] then x else y := by
  cases l <;> rfl

/-! ### Stop phases (Table 5-8) -/

section
variable (hd : tget s.dress h = some d)
include hd

theorem stopPhase_other (hs : d.st ≠ .deactivating) : s.stopPhase h = s := by
  unfold State.stopPhase
  rw [hd]
  exact if_pos hs

theorem stopPhase_two (hs : d.st = .deactivating) (hp : d.phase = 2) : s.stopPhase h = s.stopTiles h d := by
  unfold State.stopPhase
  rw [hd]
  exact (if_neg (not_not.2 hs)).trans (if_pos hp)

theorem stopPhase_four (hs : d.st = .deactivating) (hp : d.phase = 4) : s.stopPhase h = s.stopEnd h d := by
  unfold State.stopPhase
  rw [hd]
  exact (if_neg (not_not.2 hs)).trans ((if_neg (by omega)).trans (if_pos hp))

theorem stopPhase_halts {e : Dressing} (hs : d.st = .deactivating) (hp : d.phase = 1 ∨ (d.phase = 0 ∧ s.allEnded d = true))
    (hb : ∀ p, p ∈ s.tilesOf d → (s.tile p).bundle = none) (he : tget (s.detachAll h).dress h = some e) :
    s.stopPhase h = (((s.detachAll h).tilesOf e).foldl State.haltTile (s.detachAll h)).stopTiles h
      { e with unended := ((s.tilesOf d).filter fun p => !s.bget (R.tileSeqStatus p) 30).length, phase := 2 } := by
  have hall : (s.tilesOf d).all (fun p => (s.tile p).bundle.isNone) = true := List.all_eq_true.2 fun p hp => by rw [hb p hp]; rfl
  unfold State.stopPhase
  rw [hd]
  dsimp only
  rw [if_neg (not_not.2 hs), if_neg (by omega), if_neg (by omega), if_pos ⟨hp, hall⟩, he]

theorem sgrantTimeout_fails {m : Nat} (hs : d.st = .activating) (ha : d.await.any (fun k => epSite k == n) = true) (hm : d.mbx = some m) :
    s.sgrantTimeout h n = ((s.sendUnbinds d).actUndo h d dSiteNoGrant).axFinish m stRefused dSiteNoGrant [] := by
  unfold State.sgrantTimeout
  rw [hd]
  dsimp only
  rw [if_pos ⟨hs, ha⟩, hm]

theorem sunboundTimeout_drops (hp : d.phase = 3) (ha : d.await.any (fun k => epSite k == n) = true) :
    let late := d.await.filter fun k => epSite k == n
    let held := (d.streams.filter fun x => match x.siteEp with | some (c, e) => !c && late.contains (epKey c e) | none => false).foldl
      (fun n x => n + s.fget (R.tileSinStat (s.dtile d (nbits x.cons 10 0)) (nbits x.cons 17 16)) 12 0) 0
    let u := { s with siteHeld := tset s.siteHeld n 0 (tgetD s.siteHeld n 0 + held) }.log' 1 12 1 [n, h]
    let e := { d with await := d.await.filter fun k => epSite k != n }
    s.sunboundTimeout h n = if e.await = [] then u.stopEnd h e else u.putD h e := by
  have hlate : ¬ (d.phase ≠ 3 ∨ (d.await.filter fun k => epSite k == n).isEmpty = true) := by
    rw [List.isEmpty_iff, List.filter_eq_nil_iff]
    obtain ⟨k, hk, hs⟩ := List.any_eq_true.1 ha
    exact fun hc => hc.elim (fun hc => hc hp) fun hc => hc k hk hs
  unfold State.sunboundTimeout
  rw [hd]
  dsimp only
  rw [if_neg hlate]
  exact ite_isEmpty

end

/-! ### Messages of a site (R278) -/

variable {x k : Nat} {w : DStream}

theorem sgrant_heard {c : Bool} {y : Nat} (hc : decide (1 ≤ k) = c) (hy : epKey c (n * 65536 + x) = y) (hk : k ≤ 4096)
    (hs : s.siteStream n x c (Dressing.awaits .activating 5 y) = some (h, d, w)) :
    let u := if c then s.fset (R.tileSoutStat (s.dtile d (nbits w.prod 10 0)) (nbits w.prod 17 16)) 12 0 k else s
    let e := { d with await := sDel d.await y, streams := if c then d.streams.map (DStream.granted w.cons k) else d.streams }
    s.sgrant n x k = if e.await = [] then (match d.mbx with | some m => (u.actFinish h e).axFinish m stDone 0 [] | none => u.actFinish h e) else u.putD h e := by
  subst hc hy
  unfold State.sgrant
  dsimp only
  rw [hs]
  dsimp only
  rw [if_neg (Nat.not_lt.2 hk)]
  exact ite_isEmpty

theorem sunbound_heard {c : Bool} (hs : s.unboundOf n x = some (h, d, w, c)) :
    let e := { d with await := sDel d.await (epKey c (n * 65536 + x)), handed := tput d.handed (epKey c (n * 65536 + x)) k }
    s.sunbound n x k = if e.await = [] then s.stopEnd h e else s.putD h e := by
  unfold State.sunbound
  rw [hs]
  exact ite_isEmpty

end

/-- Settles O41. -/
theorem dressingEvents : Obligations.DressingEvents := by
  unfold Obligations.DressingEvents
  intro s h d hh hd
  have hok : decide (h < 64) = true := decide_eq_true hh
  refine ⟨fun hs hp => ?_, fun e hs hp hb he => ?_, fun hs hp => ?_, fun hs hp => ?_, fun hs => ⟨?_, ?_⟩, fun n x k w hn hk hs => ?_, fun n m hn hs ha hm => ?_,
    fun n x w f hn hs => ?_, fun n x w c hn hs => ?_, fun n x w c k hn hk hs => ?_, fun n hn hp ha => ?_⟩
  · refine run_eq hok ?_
    rw [hd]
    exact if_pos ⟨hs, hp⟩
  · exact run_eq hok (stopPhase_halts hd hs hp hb he)
  · exact run_eq hok (stopPhase_two hd hs hp)
  · exact run_eq hok (stopPhase_four hd hs hp)
  · exact run_eq hok (stopPhase_other hd hs)
  · refine run_eq hok ?_
    rw [hd]
    exact if_neg fun hc => hs hc.1
  · exact run_eq (decide_eq_true hn) (sgrant_heard rfl rfl hk hs)
  · exact run_eq (both_lt hh hn) (sgrantTimeout_fails hd hs ha hm)
  · refine run_eq (decide_eq_true hn) ?_
    rw [hs]
  · refine run_eq (decide_eq_true hn) ?_
    rw [hs]
  · exact run_eq (both_lt hn hk) (sunbound_heard hs)
  · exact run_eq (both_lt hh hn) (sunboundTimeout_drops hd hp ha)

end Sys2Proof.Machine
end

section
/-! Self-test in service and the audits (chapters 12, 18 and 21). -/

namespace Sys2Proof.Machine

open Sys2Proof.Spec

section
variable {s u : State} {k n mb : Nat} {stop : Bool}

/-! ### Runs of self-test -/

section
variable (ha : u.asleep = false) (hp : u.fget R.stwPstate 31 30 ≠ 1) (hb : u.bootState = 2 ∨ u.bootState = 3)
include ha hp hb

theorem bistRun_held (hf : u.bistFree k n = false) : u.bistRun mb k n stop = refuse u dState := by
  have h1 : ¬ (u.asleep || u.fget R.stwPstate 31 30 == 1) = true := by rw [ha, beq_eq_false_iff_ne.2 hp]; exact Bool.false_ne_true
  exact (if_neg h1).trans ((if_neg (by omega)).trans (if_pos (by rw [hf]; rfl)))

/-- A free unit while no round of online test runs: what stands in its way is a run of its own or its bench (R403, R455). -/
theorem bistRun_free (hf : u.bistFree k n = true) (ho : u.bist.online = []) :
    u.bistRun mb k n stop =
      if u.bistTaken k n || (match bistBench k n with | some b => decide (8 ≤ u.bistBenches.length) && !u.bistBenches.contains b | none => false) then
        .again u.drew (u.free.toNat % 65536)
      else .wait { u with bist := { u.bist with next := u.bist.next + 1, active := tput u.bist.active u.bist.next ⟨k, n, bistBench k n, some mb, stop⟩ } } := by
  have h1 : ¬ (u.asleep || u.fget R.stwPstate 31 30 == 1) = true := by rw [ha, beq_eq_false_iff_ne.2 hp]; exact Bool.false_ne_true
  exact (if_neg h1).trans ((if_neg (by omega)).trans ((if_neg (by rw [hf]; exact Bool.false_ne_true)).trans (if_neg (by rw [ho]; exact Bool.false_ne_true))))

theorem bistRun_round (hf : u.bistFree k n = true) (ho : u.bist.online ≠ []) : u.bistRun mb k n stop = busy u := by
  have h1 : ¬ (u.asleep || u.fget R.stwPstate 31 30 == 1) = true := by rw [ha, beq_eq_false_iff_ne.2 hp]; exact Bool.false_ne_true
  have h2 : (!u.bist.online.isEmpty) = true := by
    rw [Bool.not_eq_true', List.isEmpty_eq_false_iff]; exact ho
  exact (if_neg h1).trans ((if_neg (by omega)).trans ((if_neg (by rw [hf]; exact Bool.false_ne_true)).trans (if_pos h2)))

end

/-- A bench has room where fewer than eight are under test, or it is one of them. -/
theorem bench_room (h : ∀ b, bistBench k n = some b → u.bistBenches.length < 8 ∨ u.bistBenches.contains b = true) :
    (match bistBench k n with | some b => decide (8 ≤ u.bistBenches.length) && !u.bistBenches.contains b | none => false) = false := by
  cases hb : bistBench k n with
  | none => rfl
  | some b =>
    dsimp only
    rcases h b hb with h | h
    · rw [decide_eq_false (Nat.not_le.2 h), Bool.false_and]
    · rw [h, Bool.not_true, Bool.and_false]

/-- The operands of the expert form in their ranges. -/
theorem bistExpert_ok {bg lo hi ps : Nat} {es : List (BitVec 16)} {sd : W32} (hk : bistUnitOk k n = true) (h1 : 1 ≤ bg) (h15 : bg ≤ 15) (hl : es.length ≤ 8)
    (he : ∀ e, e ∈ es → nbits e.toNat 11 8 = 0) (hlo : lo ≤ hi) (hhi : hi ≤ 0x7FFF) (hp : 1 ≤ ps) (hp' : ps ≤ 2 ^ 20) :
    (!bistUnitOk k n || sd.toNat ≥ 2 ^ 32 || ((k == 2 || k == 3 || k == 5) && (bg == 0 || decide (16 ≤ bg))) || decide (8 < es.length)
      || es.any (fun e => nbits e.toNat 11 8 != 0) || (k == 2 && (decide (hi < lo) || decide (0x7FFF < hi)))
      || ((k == 1 || k == 4) && (ps == 0 || decide (2 ^ 20 < ps)))) = false := by
  have hany : es.any (fun e => nbits e.toNat 11 8 != 0) = false := by
    rw [List.any_eq_false]
    exact fun e hm => by rw [he e hm]; decide
  have hbg : (bg == 0 || decide (16 ≤ bg)) = false := by rw [beq_eq_false_iff_ne.2 (by omega), decide_eq_false (by omega)]; rfl
  have hps : (ps == 0 || decide (2 ^ 20 < ps)) = false := by rw [beq_eq_false_iff_ne.2 (by omega), decide_eq_false (by omega)]; rfl
  have hr : (decide (hi < lo) || decide (0x7FFF < hi)) = false := by rw [decide_eq_false (by omega), decide_eq_false (by omega)]; rfl
  have hsd : decide (sd.toNat ≥ 2 ^ 32) = false := decide_eq_false (by have := sd.isLt; omega)
  rw [hk, hany, hbg, hps, hr, hsd, decide_eq_false (Nat.not_lt.2 hl)]
  simp only [Bool.not_true, Bool.or_self, Bool.and_false]

/-- A run of a tile that has ended: its memory is zero, its failures isolate it, and a place frees. -/
theorem bistEnd_tile {r : Nat} {a : BistA} {fails : List (BitVec 256)} (h : tget s.bist.active r = some a) (hk : a.kind ≤ 3) (hs : a.stop = false) :
    let u := ({ s with bist := { s.bist with active := tdel s.bist.active r } }.bistKeep r fails).zero (lmBase a.unit) 0x80000
    let v := if fails = [] then u else u.bistFail a.unit
    s.bistEnd r fails = a.mbx.elim v.benchesNext fun m => v.benchesNext.axFinish m stDone 0 (p32 r) := by
  unfold State.bistEnd
  rw [h]
  dsimp only
  rw [hs, if_neg Bool.false_ne_true, if_pos hk, if_pos hk, ite_isEmpty]
  cases a.mbx <;> rfl

/-! ### Rounds of online test -/

theorem onlineRound_on {r : Nat} {fails : List Nat} (hb : s.bootState = 2 ∨ s.bootState = 3) (hr : s.bget R.stwStatus 31 = true) (ha : s.asleep = false) :
    s.onlineRound r fails =
      if s.bist.online = [] then ((List.range 68).foldl (fun s b => s.fset (R.safObist b) 15 0 (satInc 16 (s.fget (R.safObist b) 15 0) 1)) s).roundGo r
      else s.roundEnd fails := by
  have hgo : ¬ (s.bootState ≠ 2 ∧ s.bootState ≠ 3 ∨ (!s.bget R.stwStatus 31) = true ∨ s.asleep = true) := by
    rw [hr, ha]
    simp only [Bool.not_true, Bool.false_eq_true, or_false]
    omega
  refine (if_neg hgo).trans ?_
  cases ho : s.bist.online with
  | nil => rfl
  | cons t ts => rfl

theorem retest_cases {t : Nat} {p : Bool} (hw : nbit (tgetD s.saf.why t 0) 0 = true) (hr : s.reservedBy t = none) :
    s.retest t p = if p = false then s.bistFail t else if (s.tile t).dpFaults = 1 ∧ (s.tile t).dpInjected = false then s.isoClear t 0 else s := by
  have hgo : ¬ (!nbit (tgetD s.saf.why t 0) 0 || (s.reservedBy t).isSome) = true := by rw [hw, hr]; exact Bool.false_ne_true
  refine (if_neg hgo).trans ?_
  cases p <;> simp only [Bool.not_true, Bool.not_false, Bool.not_eq_true', reduceIte, Bool.false_eq_true, reduceCtorEq]

/-! ### Checks of idle pools (R300, Table 12-4) -/

theorem linkAudit_ok {kind i : Nat} (hk : kind < 3) (hi : i < [68 * 6, 96, 8].getD kind 0) (hr : kind = 0 → linkReal (i / 6) (i % 6) = true) :
    ¬ (decide (3 ≤ kind) || decide ([68 * 6, 96, 8].getD kind 0 ≤ i) || (kind == 0 && !linkReal (i / 6) (i % 6))) = true := by
  have hreal : (kind == 0 && !linkReal (i / 6) (i % 6)) = false := by
    by_cases h : kind = 0
    · rw [hr h, Bool.not_true, Bool.and_false]
    · rw [beq_eq_false_iff_ne.2 h, Bool.false_and]
  rw [decide_eq_false (Nat.not_le.2 hk), decide_eq_false (Nat.not_le.2 hi), hreal]
  exact Bool.false_ne_true

theorem meshAct_eq (u : State) (b l : Nat) : u.meshAct b l = u.regionGo (if linkSeam b l then 92 else (linkTo b l).getD b) none false := by
  unfold State.meshAct
  cases linkSeam b l <;> rfl

theorem meshCheck_ue {b l p f : Nat} (h : s.countUe 1 (6 * b + l) = true) : s.meshCheck b l p f = (s.countMet 1 (6 * b + l)).meshAct b l := if_pos h

theorem meshCheck_counts {b l p f : Nat} (h : s.countUe 1 (6 * b + l) = false) :
    let u := { s with meshHeld := tset s.meshHeld (32 * (6 * b + l) + p) (Config.meshGrant p) f }
    s.meshCheck b l p f = if f = Config.meshGrant p then u
      else (u.breach 1 (6 * b + l) ((Config.meshGrant p : Int) - f) false).regionGo (if linkSeam b l then 92 else (linkTo b l).getD b) none false := by
  refine (if_neg (by rw [h]; exact Bool.false_ne_true)).trans ?_
  rw [← meshAct_eq]

theorem linkCheck_module_ue {p f : Nat} (h : s.countUe 2 n = true) : s.linkCheck false n p f = (s.countMet 2 n).ucieReset (n / 12) :=
  (if_neg Bool.false_ne_true).trans (if_pos h)

/-- An idle pool of a unit that is up is whole, or a breach. -/
theorem ite_up {α : Type} {b : Bool} {c : Prop} [Decidable c] {x y : α} (hb : b = true) : (if !b || decide c then x else y) = if c then x else y := by
  subst hb
  simp only [Bool.not_true, Bool.false_or, decide_eq_true_eq]

theorem linkCheck_module {p f : Nat} (h : s.countUe 2 n = false) (hu : s.modUp (n / 12) (n % 12) = true) :
    s.linkCheck false n p f = if f = s.chipGrant (n / 12) p then s else s.ucieBreach (n / 12) (n % 12) ((s.chipGrant (n / 12) p : Int) - f) :=
  (if_neg Bool.false_ne_true).trans ((if_neg (by rw [h]; exact Bool.false_ne_true)).trans (ite_up hu))

theorem linkCheck_port_ue {p f : Nat} (h : s.countUe 3 n = true) : s.linkCheck true n p f = (s.countMet 3 n).portReset n := (if_pos rfl).trans (if_pos h)

theorem linkCheck_port {p f : Nat} (h : s.countUe 3 n = false) (hu : s.portUp n = true) :
    s.linkCheck true n p f = if f = tgetD (s.port n).cap p 0 then s else (s.breach 3 n (((tgetD (s.port n).cap p 0 : Nat) : Int) - f) false).portReset n :=
  (if_pos rfl).trans ((if_neg (by rw [h]; exact Bool.false_ne_true)).trans (ite_up hu))

end

/-- Settles O42. -/
theorem selfTestsAndAudits : Obligations.SelfTestsAndAudits := by
  unfold Obligations.SelfTestsAndAudits
  refine ⟨?run, ?complete, ?result, ?round, ?restart, ?retest, ?syncBoth, ?sync, ?credit, ?module, ?port, ?mesh, ?meshIdle, ?moduleIdle, ?portIdle⟩
  case run =>
    intro s q k n u i cmd stop h hk hi hp hb
    have hbody : ∃ body, exec i s = run (mbxOk q) (axotte s q cmd body) ∧ body u = u.bistRun q.mbx k n stop := by
      rcases hi with ⟨rfl, rfl, rfl⟩ | ⟨bg, es, lo, hi, ps, sd, rfl, rfl, h1, h15, hl, he, hlo, hhi, hps, hps'⟩
      · exact ⟨_, rfl, if_neg (by rw [hk]; exact Bool.false_ne_true)⟩
      · exact ⟨_, rfl, if_neg (by rw [bistExpert_ok hk h1 h15 hl he hlo hhi hps hps']; exact Bool.false_ne_true)⟩
    obtain ⟨body, hx, hbody⟩ := hbody
    have ha := begins_awake h
    refine ⟨fun hf => exec_refuse h (hbody.trans (bistRun_held ha hp hb hf)) hx, fun hf ho => exec_fail h (hbody.trans (bistRun_round ha hp hb hf ho)) hx,
      fun hf ho ht => exec_again h (hbody.trans ((bistRun_free ha hp hb hf ho).trans (if_pos ?_))) hx,
      fun hf ho ht hr => exec_wait h (hbody.trans ((bistRun_free ha hp hb hf ho).trans (if_neg ?_))) hx⟩
    · rw [ht, Bool.true_or]
    · rw [ht, bench_room hr]
      exact Bool.false_ne_true
  case complete =>
    intro s r a fails h hk hs
    refine congrArg Host.Outcome.next ((bistEnd_tile h hk hs).trans ?_)
    cases a.mbx <;> rfl
  case result =>
    intro s q r e u h he
    refine exec_done h ?_ rfl
    rw [he]
  case round => exact fun s r fails hr hb hs ha => run_eq (decide_eq_true hr) (onlineRound_on hb hs ha)
  case restart => exact fun s hs hw => congrArg Host.Outcome.next (if_pos (by rw [hs, hw]; rfl))
  case retest => exact fun s t p ht hw hr => run_eq (decide_eq_true ht) (retest_cases hw hr)
  case syncBoth => exact fun s q u h => exec_done h rfl rfl
  case sync => exact fun s q a u h ha => exec_done h (if_pos ha) rfl
  case credit => exact fun s q a d u h ha hd hm => exec_done h (onHandle_known ha hd hm) rfl
  case module => exact fun s q i u h hi => exec_done h (if_neg (linkAudit_ok (kind := 1) (by decide) hi nofun)) rfl
  case port => exact fun s q i u h hi => exec_done h (if_neg (linkAudit_ok (kind := 2) (by decide) hi nofun)) rfl
  case mesh => exact fun s q i u h hi hr => exec_done h (if_neg (linkAudit_ok (kind := 0) (by decide) hi fun _ => hr)) rfl
  case meshIdle =>
    intro s b l p f hb hl hr hp
    have hok : (decide (b < 68) && decide (l < 6) && linkReal b l && decide (p < meshPools)) = true := by rw [both_lt hb hl, hr, decide_eq_true hp]; rfl
    exact ⟨fun h => run_eq hok (meshCheck_ue h), fun h => run_eq hok (meshCheck_counts h)⟩
  case moduleIdle =>
    exact fun s n p f hn hp => ⟨fun h => run_eq (both_lt hn hp) (linkCheck_module_ue h), fun h hu => run_eq (both_lt hn hp) (linkCheck_module h hu)⟩
  case portIdle =>
    exact fun s n p f hn hp => ⟨fun h => run_eq (both_lt hn hp) (linkCheck_port_ue h), fun h hu => run_eq (both_lt hn hp) (linkCheck_port h hu)⟩

end Sys2Proof.Machine
end

section
/-! Sequences and pages of the context store (chapter 6). -/

namespace Sys2Proof.Machine

open Sys2Proof.Spec

/-! ### The conditions that every command of the store has -/

section
variable {u : State} {f : State → AxR} {e : Nat}

theorem onStore_ready (h : u.storeInit = true) : onStore u f = f u := if_pos h

theorem onStore_refuses (h : u.storeInit = false) : onStore u f = refuse u dState := if_neg (by rw [h]; exact Bool.false_ne_true)

theorem onSeq_open (h : u.storeInit = true) (he : u.seqState e = 1) : onSeq u e f = f u := (onStore_ready h).trans (if_pos he)

theorem onSeq_refuses (h : u.storeInit = false ∨ u.seqState e ≠ 1) : onSeq u e f = refuse u dState := by
  rcases Bool.eq_false_or_eq_true u.storeInit with hi | hi
  · exact (onStore_ready hi).trans (if_neg (h.resolve_left (by rw [hi]; exact Bool.true_eq_false_eq_False)))
  · exact onStore_refuses hi

end

/-! ### CTX_STORE_INIT (R161) -/

section
variable {u : State} {b l n d c : Nat} {t0 : List Nat}

/-- The state with the region zeroed and the registers that say where its tables stand. -/
def State.storeLaid (u : State) (b z b1 d : Nat) : State :=
  ((((u.zero b z).set R.ctxSeqBase (BitVec.ofNat 64 b)).set R.ctxDescBase (BitVec.ofNat 64 b1)).set R.ctxDescCount (BitVec.ofNat 64 d)).bset R.ctxStoreStatus 31 true

theorem storeLaid_keyCtr {z b1 : Nat} : (u.storeLaid b z b1 d).keyCtr = u.keyCtr := by
  unfold State.storeLaid State.bset State.fset
  rw [set_keyCtr, set_keyCtr, set_keyCtr, set_keyCtr]
  rfl

theorem storeInitGo_again (h : u.storeInit = true) : u.storeInitGo b l n d c t0 = refuse u dState := if_pos h

theorem storeInitGo_checked (ho : u.initOk b l n d t0 = true) (hd : t0.eraseDups.length = t0.length) : ¬ (!u.initOk b l n d t0 || t0.eraseDups.length != t0.length) = true := by
  rw [ho, hd, bne_self_eq_false]
  exact Bool.false_ne_true

section
variable (h : u.storeInit = false) (ho : u.initOk b l n d t0 = true) (hd : t0.eraseDups.length = t0.length)
include h ho hd

theorem storeInitGo_small (hs : b + l < b + up64K (2 ^ n * 64) + up64K (d * 32) + up64K (c * 4096)) : u.storeInitGo b l n d c t0 = invalid u :=
  (if_neg (by rw [h]; exact Bool.false_ne_true)).trans ((if_neg (storeInitGo_checked ho hd)).trans (if_pos hs))

theorem storeInitGo_done (hs : b + up64K (2 ^ n * 64) + up64K (d * 32) + up64K (c * 4096) ≤ b + l) :
    let b1 := b + up64K (2 ^ n * 64)
    let b2 := b1 + up64K (d * 32)
    let b3 := b2 + up64K (c * 4096)
    u.storeInitGo b l n d c t0 = .done (State.modStore { u.storeLaid b (b3 - b) b1 d with keyCtr := u.keyCtr + 1 } fun _ =>
      { rBase := b, rLen := l, cap := 2 ^ n, chunkBase := b2, chunks := c, descFree := d, curKey := u.keyCtr + 1,
        pools := (if t0 = [] then [] else [(0, t0.map fun g => (16 * g, 16))]) ++ [(1, [(b3 / 0x10000, (b + l - b3) / 0x10000)])] })
      0 (p64 b ++ p64 b1 ++ p64 b2 ++ p64 ((b + l - b3) / 0x10000)) := by
  intro b1 b2 b3
  refine (if_neg (by rw [h]; exact Bool.false_ne_true)).trans ((if_neg (storeInitGo_checked ho hd)).trans ((if_neg (Nat.not_lt.2 hs)).trans ?_))
  rw [ite_isEmpty, ← storeLaid_keyCtr (b := b) (z := b3 - b) (b1 := b1) (d := d)]
  rfl

end

end

/-! ### CTX_SEQ_OPEN (R158) -/

theorem openOk_iff {c g r f p w k : Nat} : openOk c g r f p w k = true ↔
    c < 4096 ∧ seqOk g r f p = true ∧ w % 0x10000 = 0 ∧ w + 0x10000 * g ≤ 2 ^ 55 ∧ k < 16 := by
  simp only [openOk, Bool.and_eq_true, decide_eq_true_eq, beq_iff_eq, and_assoc]

theorem seqOpen_done {u v : State} {e c g r f p w k gt : Nat} {ks : List Nat} (he : e < u.store.cap) (hc : c < 4096) (hs : seqOk g r f p = true)
    (hw : w % 0x10000 = 0) (hg : w + 0x10000 * g ≤ 2 ^ 55) (hk : ∀ y, y ∈ ks → y < 3) (hst : u.seqState e = 0)
    (ht : u.takeChunks (cdiv (16 * g) 4096) = some (gt, v)) :
    let a := v.seqAddr e
    let x := (v.put8 a (2 ^ 56 + k * 2 ^ 52 + c * 2 ^ 40 + g * 2 ^ 27 + f * 2 ^ 23)).put8 (a + 8) (r * 2 ^ 48 + p * 2 ^ 32)
    let y := (((x.put8 (a + 16) 0).put8 (a + 24) w).put8 (a + 32) gt).put8 (a + 40) 0
    u.seqOpen e c g r f p w k ks = .done ((List.range g).foldl (fun s j =>
      ((s.put8 (gt + 16 * j) (ks.getD j 0)).put4 (gt + 16 * j + 8) 0).put4 (gt + 16 * j + 12) 0xFFFFFFFF) y) 0 [] := by
  intro a x y
  have hany : ¬ ks.any (fun k => decide (3 ≤ k)) = true := by
    rw [List.any_eq_true]
    rintro ⟨z, hz, h3⟩
    exact absurd (hk z hz) (Nat.not_lt.2 (of_decide_eq_true h3))
  have hbad : ¬ (u.store.cap ≤ e ∨ 4096 ≤ c ∨ (!seqOk g r f p) = true ∨ w % 0x10000 ≠ 0 ∨ 2 ^ 55 < w + 0x10000 * g
      ∨ ks.any (fun k => decide (3 ≤ k)) = true) := by
    rw [hs]
    simp only [Bool.not_true, Bool.false_eq_true, false_or, not_or, hany, not_false_eq_true, and_true]
    omega
  unfold State.seqOpen
  rw [if_neg hbad, if_neg (not_not.2 hst), ht]

/-! ### The end of a close (Table 6-12) -/

theorem seqFinish_frees {s : State} {e x : Nat} (hc : tget s.store.closing e = some x) (hw : s.closeWaits e = false) (hu : s.unzeroed e = []) :
    let cs := (List.range (s.seqGroups e)).flatMap (fun g => s.chain (s.grpPages e g / 1022 + 1) (s.grpChunk e g))
      ++ (List.range (cdiv (16 * s.seqGroups e) 4096)).map (fun i => s.seqGtab e + 4096 * i)
    let u := ((s.seqDescs e).foldl State.freePage s).giveChunks cs
    let v := u.zero (u.seqAddr e) 64
    s.seqFinish e = { v with store := { v.store with closing := tdel v.store.closing e } }.signal x := by
  intro cs u v
  have hs : (s.unzeroed e).foldl State.zeroPage s = s := by rw [hu]; rfl
  unfold State.seqFinish
  rw [hc]
  refine (if_neg (by rw [hw]; exact Bool.false_ne_true)).trans ?_
  rw [hs]
  exact if_neg (by rw [hu]; exact Bool.false_ne_true)

/-! ### Appends (R168) -/

/-- A state whose appending command holds the pages it took. -/
def State.holdsDescs (v : State) (w : AppendW) : State := { v with store := { v.store with appends := [w] } }

theorem appendEnd_holds {v : State} {w : AppendW} {ds : List Nat} (hd : w.descs = some ds)
    (hs : ∀ i, i < w.gCount → v.slotUnmaps (v.seqCtx w.seq) (v.seqWin w.seq + 0x10000 * (w.gFirst + i)) = false) :
    (v.holdsDescs w).appendEnd w = { v with store := { v.store with appends := [] } }.axFinish w.mbx stDone 0 (ds.flatMap p32) := by
  have hfree : ¬ ((List.range w.gCount).any fun i =>
      (v.holdsDescs w).slotUnmaps ((v.holdsDescs w).seqCtx w.seq) ((v.holdsDescs w).seqWin w.seq + 0x10000 * (w.gFirst + i))) = true := by
    rw [List.any_eq_true]
    rintro ⟨i, hi, h⟩
    exact Bool.false_ne_true ((hs i (List.mem_range.1 hi)).symm.trans h)
  have hnone : [w].filter (fun x => x.mbx != w.mbx) = [] := by
    rw [List.filter_cons_of_neg (by rw [bne_self_eq_false]; exact Bool.false_ne_true), List.filter_nil]
  unfold State.appendEnd
  rw [hd]
  refine (if_neg hfree).trans ?_
  show ({ v with store := { v.store with appends := [w].filter (fun x => x.mbx != w.mbx) } }.axFinish w.mbx stDone 0 (ds.flatMap p32)) = _
  rw [hnone]

theorem appendTry_takes {u v : State} {w : AppendW} {ds : List Nat} (hw : w.descs = none)
    (ha : u.appendAll w.seq ((List.range w.gCount).map (· + w.gFirst)) = .inr (ds, v)) (hv : v.store.appends = [w]) :
    u.appendTry w = (v.holdsDescs { w with descs := some ds }).appendEnd { w with descs := some ds } := by
  have hm : v.store.appends.map (fun x => if x.mbx = w.mbx then { w with descs := some ds } else x) = [{ w with descs := some ds }] := by
    rw [hv, List.map_singleton, if_pos rfl]
  unfold State.appendTry
  rw [hw, ha]
  show State.appendEnd { v with store := { v.store with appends := v.store.appends.map (fun x => if x.mbx = w.mbx then { w with descs := some ds } else x) } } _ = _
  rw [hm]
  rfl

theorem appendTimeout_refuses {s : State} {m : Nat} {w : AppendW} (hf : s.store.appends.find? (fun w => w.mbx == m) = some w) (hd : w.descs = none) :
    s.appendTimeout m = { s with store := { s.store with appends := s.store.appends.filter (fun x => x.mbx != m) } }.axFinish m stRefused dNoSpace [] := by
  obtain ⟨_, _, _, _, _⟩ := w
  cases hd
  unfold State.appendTimeout
  rw [hf]

/-! ### Commits (R169) -/

theorem commit_outside {u : State} {e l x : Nat} (h : l < u.seqLen e ∨ u.commitMax e < l) : u.commit e l x = invalid u := if_pos h

/-- What a commit does to the open pages of its sequence, taken in order: the state, and the number of pages sealed. -/
def State.commitPages (u v : State) (e l : Nat) : State × Nat :=
  (v.openPages e).foldl (fun a p => let b := a.1.commitPage e l u.store.nextCommit p; (b.1, a.2 + b.2)) (v, 0)

/-- How a commit ends once its pages are done. -/
def State.commitEnd (u : State) (x : Nat) (r : State × Nat) : AxR :=
  let y := { r.1 with store := { r.1.store with nextCommit := u.store.nextCommit + 1 } }
  if r.2 = 0 then .done (y.signal x) 0 (p32 0)
  else .done ({ y with store := { y.store with commits := tput y.store.commits u.store.nextCommit x } }.sealPump y.store.unmapQ.length) 0 (p32 r.2)

theorem commit_inside {u v : State} {e l x : Nat} (hl : u.seqLen e ≤ l) (hm : l ≤ u.commitMax e)
    (hv : u.put8 (u.seqAddr e + 16) (l * 2 ^ 24) = v) : u.commit e l x = u.commitEnd x (u.commitPages v e l) := by
  unfold State.commit
  rw [if_neg (not_or.2 ⟨Nat.not_lt.2 hl, Nat.not_lt.2 hm⟩), hv]
  rcases hr : u.commitPages v e l with ⟨t, n⟩
  unfold State.commitPages at hr
  dsimp only at hr ⊢
  rw [hr]
  rfl

/-- Settles O43. -/
theorem storeCommands : Obligations.StoreCommands := by
  unfold Obligations.StoreCommands
  refine ⟨?_, ?_, ?_, ?_, ?_, ?_, ?_, ?_, ?_, ?_, ?_, ?_, ?_, ?_⟩
  case refine_1 =>
    intro s q b l n d c t0 i cmd u h hi
    have hbody : exec i s = run (mbxOk q) (axotte s q cmd fun u => u.storeInitGo b l n d c t0) := by
      rcases hi with ⟨rfl, rfl, rfl, rfl⟩ | ⟨rfl, rfl⟩ <;> rfl
    refine ⟨fun hs => exec_refuse h (storeInitGo_again hs) hbody, fun hs ho hd => ⟨fun hl => exec_fail h (storeInitGo_small hs ho hd hl) hbody, fun hl => ?_⟩⟩
    exact exec_done h (storeInitGo_done hs ho hd hl) hbody
  case refine_2 =>
    intro s q e c g r f p w k x i cmd u h hs hi
    rcases hi with ⟨rfl, rfl, rfl⟩ | ⟨rfl, rfl⟩
    · refine ⟨fun ho => exec_fail h (if_pos (by rw [ho]; rfl)) rfl, fun ho => ⟨?_, ?_, ?_⟩⟩
      · rintro ks v (⟨-, rfl, rfl⟩ | ⟨hc, -⟩)
        · exact (exec_begins h rfl).trans (congrArg (fun a => Host.Outcome.next (axTakeUp _ _ a)) ((if_neg (by rw [ho]; exact Bool.false_ne_true)).trans (onStore_ready hs)))
        · exact absurd hc (by decide)
      · exact fun v hc => absurd hc (by decide)
      · exact fun hc => absurd hc (by decide)
    · refine ⟨fun ho => exec_fail h (if_pos (by rw [ho]; rfl)) rfl, fun ho => ⟨?_, ?_, ?_⟩⟩
      · rintro ks v (⟨hc, -⟩ | ⟨-, bs, hb, rfl⟩)
        · exact absurd hc (by decide)
        · exact (exec_begins h rfl).trans (congrArg (fun a => Host.Outcome.next (axTakeUp _ _ a))
            ((if_neg (by rw [ho]; exact Bool.false_ne_true)).trans ((onStore_ready hs).trans (withImage_read hb))))
      · exact fun v _ hv => exec_refuse h ((if_neg (by rw [ho]; exact Bool.false_ne_true)).trans ((onStore_ready hs).trans (withImage_hole hv))) rfl
      · exact fun _ hh hr => exec_hold h ((if_neg (by rw [ho]; exact Bool.false_ne_true)).trans ((onStore_ready hs).trans (withImage_awaits hh hr))) rfl
  case refine_3 =>
    exact fun u e c g r f p w k ks he hc hs hw hg hk hst gt v ht => seqOpen_done he hc hs hw hg hk hst ht
  case refine_4 =>
    rintro s q e x u i cmd h hx hn (⟨rfl, rfl⟩ | ⟨rfl, rfl⟩ | ⟨a, b, rfl, hb, rfl⟩ | ⟨l, rfl, rfl⟩ | ⟨g, k, t, rfl, ht, rfl⟩)
    · exact exec_refuse h ((if_neg (objOk_named hx)).trans (onSeq_refuses hn)) rfl
    · exact exec_refuse h (onSeq_refuses hn) rfl
    · exact exec_refuse h ((if_neg hb).trans (onSeq_refuses hn)) rfl
    · exact exec_refuse h ((if_neg (objOk_named hx)).trans (onSeq_refuses hn)) rfl
    · exact exec_refuse h ((if_neg (Nat.not_le.2 ht)).trans (onSeq_refuses hn)) rfl
  case refine_5 =>
    exact fun s q e x u h hx hs he => exec_done h ((if_neg (objOk_named hx)).trans (onSeq_open hs he)) rfl
  case refine_6 =>
    exact fun s e x hc hw hu => congrArg (fun a : State => Host.Outcome.next a.appendRetry) (seqFinish_frees hc hw hu)
  case refine_7 =>
    exact fun s q e u h hs he => exec_done h (onSeq_open hs he) rfl
  case refine_8 =>
    intro s q e a n u h hs he hn hg hb ha
    have hbody : ∀ {f : State → AxR}, (if n = 0 then invalid u else onSeq u e f) = f u := (if_neg hn).trans (onSeq_open hs he)
    have hnone : (u.store.appends.any fun w => w.seq == e && decide (w.gFirst < a + n) && decide (a < w.gFirst + w.gCount)) = false := by rw [ha]; rfl
    refine ⟨?_, ?_⟩
    · rintro ⟨i, hi, ho⟩
      refine exec_refuse h (hbody.trans ((if_neg (Nat.not_lt.2 hg)).trans ((if_neg (by rw [hb]; exact Bool.false_ne_true)).trans (if_pos ?_)))) rfl
      exact Bool.or_eq_true_iff.2 (.inl (List.any_eq_true.2 ⟨i, List.mem_range.2 hi, bne_iff_ne.2 ho⟩))
    · intro ho
      have hfree : ((List.range n).any fun i => u.grpOpen e (a + i) != 0xFFFFFFFF) = false :=
        List.any_eq_false.2 fun i hi => by rw [ho i (List.mem_range.1 hi)]; decide
      refine exec_wait h (hbody.trans ((if_neg (Nat.not_lt.2 hg)).trans ((if_neg (by rw [hb]; exact Bool.false_ne_true)).trans ((if_neg ?_).trans ?_)))) rfl
      · rw [hfree, hnone]
        exact Bool.false_ne_true
      · rw [ha]
        rfl
  case refine_9 =>
    intro u w ds v hd ha hv hs
    exact ⟨_, (appendTry_takes hd ha hv).trans (appendEnd_holds rfl hs), rfl, rfl⟩
  case refine_10 =>
    exact fun s m w hm hf hd => run_eq (decide_eq_true hm) (appendTimeout_refuses hf hd)
  case refine_11 =>
    intro s q e l x u h hx hs he
    have hbody : ∀ {f : State → AxR}, (if !objOk x then invalid u else onSeq u e f) = f u := (if_neg (objOk_named hx)).trans (onSeq_open hs he)
    refine ⟨fun ho => exec_fail h (hbody.trans (commit_outside ho)) rfl, fun hl hm => ?_⟩
    intro v r y
    refine (exec_begins h rfl).trans (congrArg (fun a => Host.Outcome.next (axTakeUp _ _ a)) (hbody.trans (commit_inside hl hm rfl))) |>.trans ?_
    show Host.Outcome.next (axTakeUp _ _ (State.commitEnd u x r)) = _
    unfold State.commitEnd
    split <;> rfl
  case refine_12 =>
    intro s q e g k t i u h hs he ht hp
    have hbody : ∀ {f : State → AxR}, (if 4 ≤ t then invalid u else onSeq u e f) = f u := (if_neg (Nat.not_le.2 ht)).trans (onSeq_open hs he)
    split
    next hm =>
      refine exec_done h (hbody.trans ?_) rfl
      rw [hp]
      refine if_neg ?_
      rw [hm.1, beq_eq_false_iff_ne.2 hm.2]
      exact Bool.false_ne_true
    next hm =>
      refine exec_refuse h (hbody.trans ?_) rfl
      rw [hp]
      refine if_pos ?_
      rw [Bool.or_eq_true, Bool.not_eq_true', beq_iff_eq]
      by_contra hn
      rw [not_or, Bool.not_eq_false] at hn
      exact hm hn
  case refine_13 =>
    intro s q e g k t f p un i u h hs he ht hf hpu hp hm hne hfm
    have hbody : ∀ {b : State → AxR}, (if 4 ≤ t ∨ 10 ≤ f ∨ (p = true ∧ un = true) then invalid u else onSeq u e b) = b u := by
      refine (if_neg ?_).trans (onSeq_open hs he)
      rw [Bool.and_eq_false_iff] at hpu
      simp only [not_or, Nat.not_le, not_and, Bool.not_eq_true]
      exact ⟨ht, hf, fun h1 => hpu.resolve_left (by rw [h1]; exact Bool.true_eq_false_eq_False)⟩
    have hstay : ¬ (t = (u.pd i).tier ∧ f = (u.pd i).fmt) := fun h => hne.elim (fun g => g h.1) (fun g => g h.2)
    refine exec_done h (hbody.trans ?_) rfl
    rw [hp]
    dsimp only
    rw [if_neg ?_, if_neg (by rw [hm]; exact Bool.false_ne_true), if_neg (fun h => hstay h.1), if_neg hstay]
    rintro ⟨h1, h2⟩
    rcases hfm with h3 | ⟨h3, h4⟩
    · exact h1 h3
    · rcases h2 with h2 | h2
      · rw [decide_eq_true h3] at h2
        exact absurd h2 (by decide)
      · exact h4 h2
  case refine_14 =>
    intro s q e g k p i u h hs he hp ht hf hok hmv
    refine exec_done h ((if_neg ?_).trans ((onSeq_open hs he).trans ?_)) rfl
    · simp only [not_or, Nat.not_le]
      exact ⟨ht, hf, by cases p <;> decide⟩
    · rw [hp]
      dsimp only
      have hpin : p = true ∨ (!p) = true := by cases p <;> decide
      rw [if_neg (fun h => h.1 rfl), if_neg ?_, if_neg ?_, if_pos ⟨rfl, rfl⟩, if_pos ?_]
      · exact Bool.or_eq_true_iff.2 hpin
      · rintro ⟨-, h1, h2⟩
        cases p
        · exact Bool.false_ne_true h2
        · exact Bool.false_ne_true h1
      · rw [hok, hmv, decide_eq_true hpin]
        simp
end Sys2Proof.Machine
end

section
/-! Lanes, policy, tiers, the pool for exports and the audits of the context store (chapter 6). -/

namespace Sys2Proof.Machine

open Sys2Proof.Spec

/-! ### The operands' ranges -/

theorem tierSrcOk_range {b n : Nat} {add : Bool} (hb : b % 4096 = 0) (hn : n % 4096 = 0) (h0 : n ≠ 0) (hl : 0x100000000000 ≤ b) :
    ¬ (!tierSrcOk 2 add (.range b n)) = true := by
  have h : tierSrcOk 2 add (.range b n) = true := by
    simp only [tierSrcOk, hb, hn, bne_iff_ne.2 h0, decide_eq_true hl, beq_self_eq_true, Bool.and_self]
  rw [h]
  exact Bool.false_ne_true

theorem tierSrcOk_peer {d n : Nat} {add : Bool} (hd : d < 2 ^ 18) (hn : add = true → n ≠ 0 ∧ n < 2 ^ 32) :
    ¬ (!tierSrcOk 3 add (.peer d n)) = true := by
  have h : tierSrcOk 3 add (.peer d n) = true := by
    have hg : (!add || (n != 0 && decide (n < 2 ^ 32))) = true := by
      cases add with
      | false => rfl
      | true => exact Bool.and_eq_true_iff.2 ⟨bne_iff_ne.2 (hn rfl).1, decide_eq_true (hn rfl).2⟩
    exact Bool.and_eq_true_iff.2 ⟨Bool.and_eq_true_iff.2 ⟨rfl, decide_eq_true hd⟩, hg⟩
  rw [h]
  exact Bool.false_ne_true

theorem marksOk_passes {hi lo : List Nat} (h : marksOk hi lo = true) : ¬ (!marksOk hi lo) = true := by
  rw [h]
  exact Bool.false_ne_true

/-! ### Tiers (R165) -/

section
variable {u : State} {d : Nat} {rs : List (Nat × Nat)}

/-- The runs of a tier taken from it, and the grants that they came from given back to their peer. -/
def State.giveBackRuns (v : State) (m d : Nat) (rs : List (Nat × Nat)) : State :=
  rs.foldl (fun s r => (s.tksSend (.giveBack m) (s.reqFrame d 3 0x09 0 0 0 (BitVec.ofNat 64 (t3Sett r.1)) (BitVec.ofNat 64 r.2) [] false)).getD s)
    (rs.foldl (fun s r => s.cutRun 3 r.1 r.2) v)

/-- What CTX_TIER_REMOVE does for a peer, once its operands and the state of the store allow it. -/
def State.removePeer (u : State) (m d : Nat) (rs : List (Nat × Nat)) : AxR :=
  if rs.isEmpty then invalid u
  else if rs.any fun r => u.runUsed 3 r.1 r.2 then busy u
  else if !u.tksOn || (u.route d).isNone then refuse (u.hole steward 1 (d * 2 ^ 46)) dHole
  else if 16384 < u.tksTrim.tksOut + rs.length ∨ 32768 ≤ u.tksTrim.reqAge (u.tksTrim.tksFloor d) + rs.length then busy u.tksTrim
  else .wait (u.tksTrim.giveBackRuns m d rs)

theorem removePeer_none {m : Nat} (h : rs = []) : u.removePeer m d rs = invalid u := by
  rw [h]
  exact if_pos rfl

section
variable {m : Nat} (h : rs ≠ [])
include h

theorem removePeer_used (hu : (rs.any fun r => u.runUsed 3 r.1 r.2) = true) : u.removePeer m d rs = busy u :=
  (if_neg (by rw [List.isEmpty_iff]; exact h)).trans (if_pos hu)

variable (hu : (rs.any fun r => u.runUsed 3 r.1 r.2) = false)
include hu

theorem removePeer_lost (hr : u.tksOn = false ∨ u.route d = none) : u.removePeer m d rs = refuse (u.hole steward 1 (d * 2 ^ 46)) dHole := by
  refine (if_neg (by rw [List.isEmpty_iff]; exact h)).trans ((if_neg (by rw [hu]; exact Bool.false_ne_true)).trans (if_pos ?_))
  rw [Bool.or_eq_true, Bool.not_eq_true', Option.isNone_iff_eq_none]
  exact hr

theorem removePeer_goes (ht : u.tksOn = true) (hr : u.route d ≠ none) (ho : u.tksTrim.tksOut + rs.length ≤ 16384)
    (ha : u.tksTrim.reqAge (u.tksTrim.tksFloor d) + rs.length < 32768) : u.removePeer m d rs = .wait (u.tksTrim.giveBackRuns m d rs) := by
  refine (if_neg (by rw [List.isEmpty_iff]; exact h)).trans ((if_neg (by rw [hu]; exact Bool.false_ne_true)).trans ((if_neg ?_).trans (if_neg ?_)))
  · rw [ht, Option.isNone_eq_false_iff.2 (Option.isSome_iff_ne_none.2 hr)]
    exact Bool.false_ne_true
  · omega

end

end

/-- Settles O44. -/
theorem storeSettings : Obligations.StoreSettings := by
  unfold Obligations.StoreSettings
  refine ⟨?_, ?_, ?_, ?_, ?_, ?_, ?_, ?_, ?_, ?_, ?_, ?_, ?_⟩
  case refine_1 =>
    intro s q h d u hb hs hh hd hm
    have hbody : ∀ {f : Dressing → AxR}, (if 64 ≤ h then invalid u else onStore u fun s => onHandle s h f) = f d :=
      (if_neg (Nat.not_le.2 hh)).trans ((onStore_ready hs).trans (onHandle_known hh hd hm))
    split
    next ho =>
      have hgo : ¬ (d.st ≠ .active ∨ (u.openTags h d).isEmpty = true) := by
        rw [List.isEmpty_iff]
        exact not_or.2 ⟨not_not.2 ho.1, ho.2⟩
      rcases ha : u.attachAll h (u.openTags h d) with ⟨e, p⟩ | ⟨p, v⟩
      · exact exec_refuseWith hb (hbody.trans ((if_neg hgo).trans (by rw [ha]))) rfl
      · exact exec_done hb (hbody.trans ((if_neg hgo).trans (by rw [ha]))) rfl
    next ho =>
      refine exec_refuse hb (hbody.trans (if_pos ?_)) rfl
      rw [List.isEmpty_iff]
      exact Decidable.not_and_iff_or_not.1 ho |>.imp_right Decidable.not_not.1
  case refine_2 =>
    intro s q h g n k d x u hb hs hh hd hm hn hk ho hf ht hl
    have hbody : ∀ {f : Dressing → AxR}, (if 64 ≤ h ∨ 64 ≤ n ∨ 8 ≤ k then invalid u else onStore u fun s => onHandle s h f) = f d :=
      (if_neg (by omega)).trans ((onStore_ready hs).trans (onHandle_known hh hd hm))
    have hfree : ¬ (u.tagBound h g || (tget u.lanes (8 * n + k)).isSome) = true := by
      rw [ht, hl]
      exact Bool.false_ne_true
    rcases ha : u.attach1 h n k x with ⟨e, p⟩ | v
    · exact exec_refuseWith hb (hbody.trans ((if_neg (not_not.2 ho)).trans (by rw [hf]; exact (if_neg hfree).trans (by rw [ha])))) rfl
    · exact exec_done hb (hbody.trans ((if_neg (not_not.2 ho)).trans (by rw [hf]; exact (if_neg hfree).trans (by rw [ha])))) rfl
  case refine_3 =>
    exact fun s q h d u hb hs hh hd hm => exec_done hb ((if_neg (Nat.not_le.2 hh)).trans ((onStore_ready hs).trans (onHandle_known hh hd hm))) rfl
  case refine_4 =>
    exact fun s q hi lo u hb hs hm => exec_done hb ((if_neg (marksOk_passes hm)).trans (onStore_ready hs)) rfl
  case refine_5 =>
    intro s q c hi lo sh a nx tf u hb hs hm hc hsh ha hnx htf hok hf
    refine exec_done hb ((if_neg ?_).trans (onStore_ready hs)) rfl
    have hfm : (tf.all fun f => decide (f ≤ 9)) = true := List.all_eq_true.2 fun f hm => decide_eq_true (hf f hm)
    rw [hm, hok, hfm]
    simp only [Bool.not_true, Bool.false_eq_true, false_or, or_false]
    omega
  case refine_6 =>
    intro s q b n u hb hs hba hna hn hl o
    have hbody : ∀ {f : State → AxR}, (if !tierSrcOk 2 true (.range b n) then invalid u else onStore u f) = f u :=
      (if_neg (tierSrcOk_range hba hna hn hl)).trans (onStore_ready hs)
    exact ⟨fun hc => exec_refuse hb (hbody.trans (if_pos (by rw [hc]; rfl))) rfl,
      fun hc hr => exec_done hb (hbody.trans ((if_neg (by rw [hc]; exact Bool.false_ne_true)).trans (if_neg (by rw [hr]; exact Bool.false_ne_true)))) rfl⟩
  case refine_7 =>
    intro s q d n u hb hs hn hn32 hd hown
    have hbody : ∀ {f : State → AxR}, (if !tierSrcOk 3 true (.peer d n) then invalid u else onStore u f) = f u :=
      (if_neg (tierSrcOk_peer hd fun _ => ⟨hn, hn32⟩)).trans (onStore_ready hs)
    refine ((exec_begins hb rfl).trans (congrArg (fun a => Host.Outcome.next (axTakeUp _ _ a)) (hbody.trans (if_neg hown)))).trans ?_
    cases u.tksAsk (.grant q.mbx n) (u.reqFrame d 3 0x08 0 0 0 0 (BitVec.ofNat 64 n) [] false) with
    | sent i v => rfl
    | stall => rfl
    | noRoute => rfl
  case refine_8 =>
    intro s q b n u hb hs hbr hl hba hna hn k hm
    have hbody : ∀ {f : State → AxR}, (if !tierSrcOk 2 false (.range b n) then invalid u else onStore u fun s => if s.store.broken then refuse s dState else f s) = f u :=
      (if_neg (tierSrcOk_range hba hna hn hl)).trans ((onStore_ready hs).trans (if_neg (by rw [hbr]; exact Bool.false_ne_true)))
    have hgo : ¬ (!runMeets (u.tierRuns 2) k (n / 4096)) = true := by rw [hm]; exact Bool.false_ne_true
    split
    next hu => exact exec_fail hb (hbody.trans ((if_neg hgo).trans (if_pos hu))) rfl
    next hu => exact exec_done hb (hbody.trans ((if_neg hgo).trans (if_neg hu))) rfl
  case refine_9 =>
    intro s q d n u hb hd hs hbr rs
    have hbody : ∀ {f : State → AxR}, (if !tierSrcOk 3 false (.peer d n) then invalid u else onStore u fun s => if s.store.broken then refuse s dState else f s) = f u :=
      (if_neg (tierSrcOk_peer hd fun h => absurd h (by decide))).trans ((onStore_ready hs).trans (if_neg (by rw [hbr]; exact Bool.false_ne_true)))
    exact ⟨fun h => exec_fail hb (hbody.trans (removePeer_none h)) rfl,
      fun h hu => exec_fail hb (hbody.trans (removePeer_used h hu)) rfl,
      fun h hu hr => exec_refuse hb (hbody.trans (removePeer_lost h hu hr)) rfl,
      fun h hu ht hr ho ha => exec_wait hb (hbody.trans (removePeer_goes h hu ht hr ho ha)) rfl⟩
  case refine_10 =>
    intro s q b n u hb hs hn hba hna h1 h2 hr hg
    refine exec_done hb ((if_neg (by omega)).trans ((onStore_ready hs).trans ((if_neg hn).trans ((if_neg ?_).trans (if_neg ?_))))) rfl
    · rw [h1, h2]
      simp only [Bool.not_true, Bool.false_eq_true, false_or]
      omega
    · rw [Bool.not_eq_true', List.isEmpty_eq_false_iff]
      exact fun h => hg.elim h.1 h.2
  case refine_11 =>
    intro s q b u hb hs
    have hbody : ∀ {f : State → AxR}, (if (0 : Nat) ≠ 0 ∧ (b % 4096 ≠ 0 ∨ 0 % 4096 ≠ 0) then invalid u else onStore u f) = f u :=
      (if_neg (fun h => h.1 rfl)).trans (onStore_ready hs)
    split
    next hg => exact exec_done hb (hbody.trans ((if_pos rfl).trans (if_pos (List.isEmpty_iff.2 hg)))) rfl
    next hg => exact exec_fail hb (hbody.trans ((if_pos rfl).trans (if_neg fun h => hg (List.isEmpty_iff.1 h)))) rfl
  case refine_12 =>
    exact fun s q u hb hs => exec_done hb (onStore_ready hs) rfl
  case refine_13 =>
    exact fun s q u hb hs => exec_done hb (onStore_ready hs) rfl
end Sys2Proof.Machine
end

section
/-! Page moves and gathers (chapter 6). -/

namespace Sys2Proof.Machine

open Sys2Proof.Spec

/-! ### Page moves (Table 6-7) -/

section
variable {s : State} {i : Nat} {v : MoveSt} (hv : tget s.store.moves i = some v)
include hv

section
variable {h n : Nat} (hp : v.phase = .chosen) (hn : unitsIn v.tier (s.pageSetts (s.pd i) v.fmt) = n)
include hp hn

theorem moveStart_takes {a : Nat} {t : State} (ht : s.takeUnits v.tier n = some (a, t)) :
    s.moveStart i h = t.moveGo i h { v with unit := a, count := n } := by
  unfold State.moveStart
  rw [hv]
  dsimp only
  rw [hp]
  dsimp only
  rw [hn, ht]

theorem moveStart_lacks (ht : s.takeUnits v.tier n = none) :
    s.moveStart i h = if v.tier = (s.pd i).tier ∧ v.fmt = (s.pd i).fmt then s else s.abandon i h false := by
  unfold State.moveStart
  rw [hv]
  dsimp only
  rw [hp]
  dsimp only
  rw [hn, ht]

end

theorem moveRewrite_ready (hp : v.phase = .writing) (hu : v.unacked = 0) (ho : v.out = []) :
    s.moveRewrite i = if s.pdOk i = false then s.abandon i v.hoist true
      else (((s.epochOut (s.pd i).tier (s.pd i).epoch).epochIn v.tier v.epoch).setPd i
        { s.pd i with loc := locOf v.tier v.unit, tier := v.tier, fmt := v.fmt, epoch := v.epoch, size := s.pageSetts (s.pd i) v.fmt - 1, lossy := v.lossy, dataCrc := v.crc }).setMove i
          { v with phase := .rewritten } := by
  unfold State.moveRewrite
  rw [hv]
  refine (if_pos ⟨hp, hu, List.isEmpty_iff.2 ho⟩).trans ?_
  cases h : s.pdOk i with
  | false => exact (if_pos rfl).trans (if_pos rfl).symm
  | true => exact (if_neg Bool.false_ne_true).trans (if_neg (Ne.symm Bool.false_ne_true)).symm

theorem moveFree_rewritten (hp : v.phase = .rewritten) :
    s.moveFree i = if s.pageRead i (some (v.srcTier, v.srcUnit)) = true then s
      else (((s.giveUnits v.srcTier v.srcUnit v.srcCount).dropMove i).bump (R.ctxMoved v.hoist) 32 1).appendRetry := by
  unfold State.moveFree
  rw [hv]
  rcases Bool.eq_false_or_eq_true (s.pageRead i (some (v.srcTier, v.srcUnit))) with h | h
  · exact (if_neg (fun hn => by rw [h] at hn; exact Bool.false_ne_true hn.2)).trans (if_pos h).symm
  · exact (if_pos ⟨hp, by rw [h]; rfl⟩).trans (if_neg (by rw [h]; exact Bool.false_ne_true)).symm

end

/-! ### Policy and epochs (R171, R174, R181) -/

section
variable {s : State}

theorem demoteGo_low {t n : Nat} (h : 16 * s.tierUse t ≤ s.policy.low.getD t 12 * s.tierTotal t) : s.demoteGo t n = s := by
  cases n with
  | zero => rfl
  | succ n => exact if_pos h

theorem promote_goes {i t : Nat} (hc : s.store.promote.contains i = true) (hm : s.movable i = true) (hp : (s.pd i).pinned = false)
    (ht : t < (s.pd i).tier) (hl : 16 * s.tierUse t < s.policy.low.getD t 12 * s.tierTotal t) :
    s.promote i t = { s with store := { s.store with promote := sDel s.store.promote i } }.choose i t (s.pd i).fmt := by
  refine (if_neg (by rw [hc]; exact Bool.false_ne_true)).trans (if_pos ?_)
  have h : (s.movable i && !(s.pd i).pinned && decide (t < (s.pd i).tier) && decide (16 * s.tierUse t < s.policy.low.getD t 12 * s.tierTotal t)) = true := by
    rw [hm, hp, decide_eq_true ht, decide_eq_true hl]
    rfl
  exact h

theorem reencrypt_goes {i : Nat} (ho : s.oldLive = true) (hm : s.movable i = true) (ht : 2 ≤ (s.pd i).tier) (he : (s.pd i).epoch = s.oldEpoch) :
    s.reencrypt i = s.choose i (s.pd i).tier (s.pd i).fmt :=
  if_pos (by rw [ho, hm, he, decide_eq_true ht, beq_self_eq_true]; rfl)

/-- When the old epoch can be retired. -/
theorem retire_cond : (s.oldLive && s.epochPages s.oldEpoch == 0 && !s.store.epochBad
    && !s.store.moves.any (fun m => m.2.phase == .writing && decide (2 ≤ m.2.tier) && m.2.epoch == s.oldEpoch)) = true ↔
    s.oldLive = true ∧ s.epochPages s.oldEpoch = 0 ∧ s.store.epochBad = false
      ∧ (s.store.moves.any fun m => m.2.phase == .writing && decide (2 ≤ m.2.tier) && m.2.epoch == s.oldEpoch) = false := by
  simp only [Bool.and_eq_true, beq_iff_eq, Bool.not_eq_true', and_assoc]

theorem retire_goes (ho : s.oldLive = true) (hp : s.epochPages s.oldEpoch = 0) (hb : s.store.epochBad = false)
    (hm : (s.store.moves.any fun m => m.2.phase == .writing && decide (2 ≤ m.2.tier) && m.2.epoch == s.oldEpoch) = false) :
    let v := s.epochCheck s.oldEpoch
    s.retire = if v.store.epochBad then v
      else ({ v with store := { v.store with oldKey := 0 } }.bset R.ctxStoreStatus 30 false).log' 1 17 1 [s.oldEpoch] :=
  if_pos (retire_cond.2 ⟨ho, hp, hb, hm⟩)

theorem retire_waits (h : s.oldLive = false ∨ s.epochPages s.oldEpoch ≠ 0 ∨ s.store.epochBad = true) : s.retire = s := by
  refine if_neg fun hc => ?_
  obtain ⟨ho, hp, hb, -⟩ := retire_cond.1 hc
  rcases h with h | h | h
  · exact Bool.false_ne_true (h.symm.trans ho)
  · exact h hp
  · exact Bool.false_ne_true (hb.symm.trans h)

end

/-! ### Lanes: the ring and its descriptors (R185, R186, R230) -/

/-- Nothing of a gather is on its way where no stream carries a flit. -/
theorem gather_drained {s : State} {n : Nat} {g : Gather} (hm : g.made = true) (he : g.eflits = []) (hs : g.sflits = []) (hf : s.flight = []) :
    (!g.made || !g.eflits.isEmpty || !g.sflits.isEmpty
    || (match tget s.lanes (8 * n + g.elane) with | some x => !(tgetD s.flight (4 * x.ptile + x.port) []).isEmpty | none => false)
    || (fmtScaled g.dfmt && (match tget s.lanes (8 * n + g.slane) with | some x => !(tgetD s.flight (4 * x.ptile + x.port) []).isEmpty | none => false))) = false := by
  have hfly : ∀ o : Option Lane, (match o with | some x => !(tgetD s.flight (4 * x.ptile + x.port) []).isEmpty | none => false) = false := by
    rintro (_ | x)
    · rfl
    · show (!(tgetD s.flight (4 * x.ptile + x.port) []).isEmpty) = false
      rw [hf]
      rfl
  have hdone : (!g.made || !g.eflits.isEmpty || !g.sflits.isEmpty) = false := by rw [hm, he, hs]; rfl
  exact Bool.or_eq_false_iff.2 ⟨Bool.or_eq_false_iff.2 ⟨hdone, hfly _⟩, Bool.and_eq_false_iff.2 (.inr (hfly _))⟩

section
variable {s : State} {n k : Nat} {l : Lane} (hl : tget s.lanes (8 * n + k) = some l)
include hl

theorem laneTail_written {v : W32} :
    let u := s.set (R.ctxLaneTail n k) (BitVec.ofNat 64 (nbits v.toNat 11 0))
    s.laneTail n k v = if u.ringSize n k ≤ nbits v.toNat 11 0 then u.hoistKill n k 8 (BitVec.ofNat 64 (u.ringVa n k (nbits v.toNat 11 0))) else u := by
  intro u
  have hu : tget u.lanes (8 * n + k) = some l := hl
  unfold State.laneTail
  dsimp only
  rw [hu]

theorem ringPrefetch_head (ht : laneTr l (s.ringVa n k (s.ringHead n k)) = none) :
    s.ringPrefetch n k = s.askWalk (hoist n) k l.ctx (s.ringVa n k (s.ringHead n k)) false true := by
  unfold State.ringPrefetch
  rw [hl]
  dsimp only
  rw [ht]

section
variable (hk : s.bget (R.ctxLaneCfg n k) 62 = false) (hs : s.bget R.safStatus 29 = false)
include hk hs

theorem gatherExec_made {g : Gather} (hc : l.cur = some g) (hm : g.made = true) : s.gatherExec n k = (s.lanePush n g.elane).lanePush n g.slane := by
  unfold State.gatherExec
  rw [hl]
  refine (if_neg (by rw [hk, hs]; exact Bool.false_ne_true)).trans ?_
  rw [hc]
  exact if_pos hm

theorem gatherExec_open {g : Gather} (hc : l.cur = some g) (hm : g.made = false) : s.gatherExec n k = s.gatherGo n k g := by
  unfold State.gatherExec
  rw [hl]
  refine (if_neg (by rw [hk, hs]; exact Bool.false_ne_true)).trans ?_
  rw [hc]
  exact if_neg (by rw [hm]; exact Bool.false_ne_true)

theorem gatherExec_empty (hc : l.cur = none) (hr : s.ringHead n k = s.ringTail n k) : s.gatherExec n k = s := by
  unfold State.gatherExec
  rw [hl]
  refine (if_neg (by rw [hk, hs]; exact Bool.false_ne_true)).trans ?_
  rw [hc]
  exact if_pos (.inl hr)

theorem gatherExec_reads {a : Nat} (hc : l.cur = none) (hrd : l.rd = none) (hr : s.ringHead n k ≠ s.ringTail n k) (hi : s.storeInit = true)
    (ha : laneFind l (s.ringVa n k (s.ringHead n k)) = some a) : s.gatherExec n k = s.ringRead n k (s.ringVa n k (s.ringHead n k)) a l := by
  unfold State.gatherExec
  rw [hl]
  refine (if_neg (by rw [hk, hs]; exact Bool.false_ne_true)).trans ?_
  rw [hc]
  refine (if_neg (not_or.2 ⟨hr, by rw [hi]; exact Bool.false_ne_true⟩)).trans ?_
  dsimp only
  rw [hrd, ha]

end

section
variable {g : Gather} (hc : l.cur = some g) (hm : g.made = true) (he : g.eflits = []) (hs : g.sflits = []) (hf : s.flight = [])
include hc hm he hs hf

theorem gatherEnd_ends {c : Nat} {a : W64} (hg : g.ending = some (c, a)) : s.gatherEnd n k = s.hoistKill n k c a := by
  unfold State.gatherEnd
  rw [hl]
  dsimp only
  rw [hc]
  refine (if_neg (Bool.eq_false_iff.1 (gather_drained hm he hs hf))).trans ?_
  rw [hg]

theorem gatherEnd_completes (hg : g.ending = none) (hp : g.promote = false) :
    let u := s.setGather n k none
    let v := u.set (R.ctxLaneHead n k) (BitVec.ofNat 64 ((u.ringHead n k + 1) % u.ringSize n k))
    s.gatherEnd n k = if bit (gW g 2) 18 then v.syncAdd (fld (gW g 2) 31 19) 1 false else v := by
  unfold State.gatherEnd
  rw [hl]
  dsimp only
  rw [hc]
  refine (if_neg (Bool.eq_false_iff.1 (gather_drained hm he hs hf))).trans ?_
  rw [hg]
  dsimp only
  rw [if_neg (show ¬ g.promote = true by rw [hp]; exact Bool.false_ne_true)]

end

theorem peerTimeout_asked {g : Gather} {x : Nat} {xs : List Nat} (hc : l.cur = some g) (hw : g.want = x :: xs) :
    s.peerTimeout n k = (s.poisonPage (x / 16)).hoistKill n k 7 (BitVec.ofNat 64 (x / 16)) := by
  unfold State.peerTimeout
  rw [hl]
  dsimp only
  rw [hc]
  dsimp only
  rw [hw]

end

section
variable {s : State} {n k va a : Nat} {l : Lane}

theorem ringRead_hole (h : s.gHole a 32 = true) :
    s.ringRead n k va a l = ((s.laneGive n k).hole (hoist n) 0 a).hoistKill n k (if s.isOwn a then 5 else 7) (BitVec.ofNat 64 va) := if_pos h

theorem ringRead_asks (h : s.gHole a 32 = false) (hr : s.gReady (hoist n) a 32 = false) :
    s.ringRead n k va a l = (s.laneHold n k va a).gAsk (hoist n) a 32 0 :=
  (if_neg (by rw [h]; exact Bool.false_ne_true)).trans (if_pos (by rw [hr]; rfl))

theorem ringRead_read (h : s.gHole a 32 = false) (hr : s.gReady (hoist n) a 32 = true) (he : s.gErr a 32 = 0) :
    let r := s.gRead (hoist n) a 32 0
    let u := r.2.2.laneGive n k
    s.ringRead n k va a l = if r.2.1 then u.hoistKill n k 6 (BitVec.ofNat 64 va)
      else u.gatherBegin n k va l ((List.range 4).map fun i => BitVec.ofNat 64 (leNat ((r.1.drop (8 * i)).take 8))) := by
  intro r u
  unfold State.ringRead
  rw [if_neg (by rw [h]; exact Bool.false_ne_true), if_neg (by rw [hr]; exact Bool.false_ne_true)]
  dsimp only
  exact if_neg (fun hn => hn he)

end

/-- Settles O45. -/
theorem movesAndGathers : Obligations.MovesAndGathers := by
  unfold Obligations.MovesAndGathers
  refine ⟨?_, ?_, ?_, ?_, ?_, ?_, ?_, ?_, ?_, ?_, ?_, ?_, ?_, ?_⟩
  case refine_1 =>
    intro s i h v hh hv hp n
    rcases ht : s.takeUnits v.tier n with _ | ⟨a, t⟩
    · exact run_eq (decide_eq_true hh) (moveStart_lacks hv hp rfl ht)
    · exact run_eq (decide_eq_true hh) (moveStart_takes hv hp rfl ht)
  case refine_2 =>
    exact fun s i v hv hp hu ho => congrArg Host.Outcome.next (moveRewrite_ready hv hp hu ho)
  case refine_3 =>
    exact fun s i v hv hp => congrArg Host.Outcome.next (moveFree_rewritten hv hp)
  case refine_4 =>
    intro s t ht hs
    refine run_eq (decide_eq_true ht) ?_
    rw [hs, Bool.true_and]
    simp only [decide_eq_true_eq]
  case refine_5 =>
    exact fun s t n h => demoteGo_low h
  case refine_6 =>
    exact fun s i t ht hc hm hp hlt hl => run_eq (decide_eq_true ht) (promote_goes hc hm hp hlt hl)
  case refine_7 =>
    exact fun s i ho hm ht he => congrArg Host.Outcome.next (reencrypt_goes ho hm ht he)
  case refine_8 =>
    exact fun s ho hp hb hm => congrArg Host.Outcome.next (retire_goes ho hp hb hm)
  case refine_9 =>
    exact fun s h => congrArg Host.Outcome.next (retire_waits h)
  case refine_10 =>
    exact fun s n k v l hn hk hl => run_eq (both_lt hn hk) (laneTail_written hl)
  case refine_11 =>
    exact fun s n k l hn hk hl ht => run_eq (both_lt hn hk) (ringPrefetch_head hl ht)
  case refine_12 =>
    intro s n k l hn hk hl hkill hsafe
    refine ⟨fun g hc hm => run_eq (both_lt hn hk) (gatherExec_made hl hkill hsafe hc hm), fun g hc hm => run_eq (both_lt hn hk) (gatherExec_open hl hkill hsafe hc hm),
      fun hc hr => run_eq (both_lt hn hk) (gatherExec_empty hl hkill hsafe hc hr), fun a hc hrd hr hi ha => ?_⟩
    have hgo := gatherExec_reads hl hkill hsafe hc hrd hr hi ha
    exact ⟨fun hh => run_eq (both_lt hn hk) (hgo.trans (ringRead_hole hh)), fun hh hr => run_eq (both_lt hn hk) (hgo.trans (ringRead_asks hh hr)),
      fun hh hr he => run_eq (both_lt hn hk) (hgo.trans (ringRead_read hh hr he))⟩
  case refine_13 =>
    intro s n k l g hn hk hl hc hm he hs hf
    exact ⟨fun c a hg => run_eq (both_lt hn hk) (gatherEnd_ends hl hc hm he hs hf hg), fun hg hp => run_eq (both_lt hn hk) (gatherEnd_completes hl hc hm he hs hf hg hp)⟩
  case refine_14 =>
    exact fun s n k l g x xs hn hk hl hc hw => run_eq (both_lt hn hk) (peerTimeout_asked hl hc hw)
end Sys2Proof.Machine
end

section
/-! The translation commands (chapter 8). -/

namespace Sys2Proof.Machine

open Sys2Proof.Spec

/-! ### Operands and contexts -/

theorem ctxOk_named {c : Nat} (h : c < 4096) : (!ctxOk c) = false := by
  rw [ctxOk, decide_eq_true h]
  rfl

section
variable {u : State} {c : Nat}

theorem ctx_taken (h : u.bget (R.xltCtx c) 63 = true ∨ u.bget (R.xltCtx c) 62 = true) : (u.bget (R.xltCtx c) 63 || u.bget (R.xltCtx c) 62) = true :=
  Bool.or_eq_true_iff.2 h

theorem ctx_untaken (h3 : u.bget (R.xltCtx c) 63 = false) (h2 : u.bget (R.xltCtx c) 62 = false) : ¬ (u.bget (R.xltCtx c) 63 || u.bget (R.xltCtx c) 62) = true := by
  rw [h3, h2]
  exact Bool.false_ne_true

end

/-! ### XLT_MAP (R235) -/

section
variable {u : State} {c va l g : Nat} {w nc e : Bool}

theorem mapOk_passes (hc : c < 4096) (hv : vaOk va l = true) (hg : g % 0x10000 = 0) (hl : g + l ≤ 2 ^ 64) :
    ¬ ((!ctxOk c) = true ∨ (!vaOk va l) = true ∨ g % 0x10000 ≠ 0 ∨ 2 ^ 64 < g + l) := by
  rw [ctxOk_named hc, hv]
  simp only [Bool.false_eq_true, Bool.not_true, false_or]
  omega

variable (hin : ¬ ((!ctxOk c) = true ∨ (!vaOk va l) = true ∨ g % 0x10000 ≠ 0 ∨ 2 ^ 64 < g + l))
include hin

theorem xltMap_dead (hd : u.bget (R.xltCtx c) 62 = true) : u.xltMap c va l g w nc e = refuse u dContextDead := (if_neg hin).trans (if_pos hd)

variable (hd : u.bget (R.xltCtx c) 62 = false) (hs : u.bget (R.xltCtx c) 63 = true)
include hd hs

theorem xltMap_mapped (hm : ∃ j, j < l / 0x10000 ∧ u.mapped (u.root c) (va + 0x10000 * j) = true) : u.xltMap c va l g w nc e = refuse u dState := by
  obtain ⟨j, hj, hm⟩ := hm
  refine (if_neg hin).trans ((if_neg (by rw [hd]; exact Bool.false_ne_true)).trans ((if_neg (by rw [hs]; exact Bool.false_ne_true)).trans (if_pos ?_)))
  exact List.any_eq_true.2 ⟨j, List.mem_range.2 hj, hm⟩

theorem xltMap_maps (hm : ∀ j, j < l / 0x10000 → u.mapped (u.root c) (va + 0x10000 * j) = false) :
    let r := u.mapRange c (u.root c) (u.bget (R.xltCtx c) 61) e w nc (l / 0x10000) va g l
    u.xltMap c va l g w nc e = if r.2 = 0 then .done r.1 0 [] else refuse u r.2 := by
  intro r
  have hfree : ((List.range (l / 0x10000)).any fun i => u.mapped (u.root c) (va + 0x10000 * i)) = false :=
    List.any_eq_false.2 fun j hj => by rw [hm j (List.mem_range.1 hj)]; exact Bool.false_ne_true
  unfold State.xltMap
  rw [if_neg hin, if_neg (by rw [hd]; exact Bool.false_ne_true), if_neg (by rw [hs]; exact Bool.false_ne_true), if_neg (by rw [hfree]; exact Bool.false_ne_true)]

end

/-! ### The audit (R241) -/

section
variable {u : State}

theorem tlbRefRead_clean (h : u.conUe = []) {b : Nat} : u.tlbRefRead b = u := if_neg (by rw [State.countUe, h]; exact Bool.false_ne_true)

theorem laneRefRead_clean (h : u.conUe = []) {b : Nat} : u.laneRefRead b = u := if_neg (by rw [State.countUe, h]; exact Bool.false_ne_true)

theorem foldl_fixed {σ α : Type} {f : σ → α → σ} {l : List α} {s : σ} (h : ∀ x ∈ l, f s x = s) : l.foldl f s = s := by
  induction l with
  | nil => rfl
  | cons x l ih => rw [List.foldl_cons, h x List.mem_cons_self]; exact ih fun y hy => h y (List.mem_cons_of_mem _ hy)

theorem xltCheck_agrees (hs : u.laneSettle = u) (hc : u.conUe = []) (hb : ∀ b, b < 68 → u.tlbSum b = u.tlbHeld b)
    (hh : ∀ h, h < 64 → u.laneSum h = u.laneReads h) : u.xltCheck = u := by
  unfold State.xltCheck
  dsimp only
  rw [hs, foldl_fixed (l := List.range 68) (s := u), foldl_fixed (l := List.range 64) (s := u)]
  · intro h hr
    rw [laneRefRead_clean hc]
    exact if_pos (hh h (List.mem_range.1 hr))
  · intro b hr
    rw [tlbRefRead_clean hc]
    exact if_pos (hb b (List.mem_range.1 hr))

end

/-- Settles O46. -/
theorem translationCommands : Obligations.TranslationCommands := by
  unfold Obligations.TranslationCommands
  refine ⟨?_, ?_, ?_, ?_, ?_, ?_, ?_, ?_, ?_⟩
  case refine_1 =>
    intro s q c b l u h hc hb hl hl3
    have hin : ¬ ((!ctxOk c) = true ∨ b % 0x10000 ≠ 0 ∨ l % 0x10000 ≠ 0 ∨ l < 0x30000) := by
      rw [ctxOk_named hc]
      simp only [Bool.false_eq_true, false_or]
      omega
    refine ⟨fun ht => exec_refuse h ((if_neg hin).trans (if_pos (ctx_taken ht))) rfl, fun h3 h2 hm hm' => ?_⟩
    exact exec_done h ((if_neg hin).trans ((if_neg (ctx_untaken h3 h2)).trans (if_neg (by rw [hm, hm']; exact Bool.false_ne_true)))) rfl
  case refine_2 =>
    intro s q c r u h hc hr h3 h2
    have hin : ¬ ((!ctxOk c) = true ∨ r % 0x10000 ≠ 0) := by
      rw [ctxOk_named hc]
      simp only [Bool.false_eq_true, false_or]
      omega
    split
    next ht => exact exec_done h ((if_neg hin).trans ((if_neg (ctx_untaken h3 h2)).trans (if_neg (by rw [ht]; exact Bool.false_ne_true)))) rfl
    next ht => exact exec_refuse h ((if_neg hin).trans ((if_neg (ctx_untaken h3 h2)).trans (if_pos (by rw [Bool.not_eq_true', ← Bool.not_eq_true]; exact ht)))) rfl
  case refine_3 =>
    intro s q c x u h hc hx
    have hin : ¬ ((!ctxOk c) = true ∨ (!objOk x) = true) := by
      rw [ctxOk_named hc]
      exact not_or.2 ⟨Bool.false_ne_true, objOk_named hx⟩
    refine ⟨fun hh => exec_refuse h ((if_neg hin).trans (if_pos hh)) rfl, fun hh hk => ?_, fun k hh hk => ?_⟩
    · exact exec_fail h ((if_neg hin).trans ((if_neg (by rw [hh]; exact Bool.false_ne_true)).trans (by rw [hk]; rfl))) rfl
    · exact exec_wait h ((if_neg hin).trans ((if_neg (by rw [hh]; exact Bool.false_ne_true)).trans (by rw [hk]))) rfl
  case refine_4 =>
    intro s q c v l x u h hc hv hx hf hp
    have hin : ¬ ((!ctxOk c) = true ∨ (!vaOk v.toNat l) = true ∨ (!objOk x) = true) := by
      rw [ctxOk_named hc, hv]
      exact not_or.2 ⟨Bool.false_ne_true, not_or.2 ⟨Bool.false_ne_true, objOk_named hx⟩⟩
    refine ⟨fun k hk => ?_, fun hk => ?_⟩
    · exact exec_done h ((if_neg hin).trans ((if_neg (by rw [hf]; exact Bool.false_ne_true)).trans ((if_neg (by rw [hp]; exact Bool.false_ne_true)).trans (by rw [hk])))) rfl
    · exact exec_fail h ((if_neg hin).trans ((if_neg (by rw [hf]; exact Bool.false_ne_true)).trans ((if_neg (by rw [hp]; exact Bool.false_ne_true)).trans (by rw [hk]; rfl)))) rfl
  case refine_5 =>
    intro s q c v l x a k u h hc hv hx hf hk
    have hin : ¬ ((!ctxOk c) = true ∨ (!(a || vaOk v.toNat l)) = true ∨ (!objOk x) = true) := by
      rw [ctxOk_named hc, Bool.or_eq_true_iff.2 hv]
      exact not_or.2 ⟨Bool.false_ne_true, not_or.2 ⟨Bool.false_ne_true, objOk_named hx⟩⟩
    exact exec_done h ((if_neg hin).trans ((if_neg (by rw [hf]; exact Bool.false_ne_true)).trans (by rw [hk]))) rfl
  case refine_6 =>
    intro s q k u h hk
    refine exec_done h ((if_neg (Nat.not_le.2 hk)).trans ?_) rfl
    simp only [Bool.not_eq_true']
  case refine_7 =>
    intro s q c v l g w nc e i cmd u hi h hc hv hg hl
    have hbody : exec i s = run (mbxOk q) (axotte s q cmd fun s => s.xltMap c v.toNat l g.toNat w nc e) := by
      rcases hi with ⟨rfl, rfl, rfl⟩ | ⟨rfl, rfl, rfl⟩ <;> rfl
    have hin := mapOk_passes hc hv hg hl
    refine ⟨fun hd => exec_refuse h (xltMap_dead hin hd) hbody, fun hd hs hm => exec_refuse h (xltMap_mapped hin hd hs hm) hbody, fun hd hs hm => ?_⟩
    refine (exec_begins h hbody).trans ((congrArg (fun a => Host.Outcome.next (axTakeUp _ _ a)) (xltMap_maps hin hd hs hm)).trans ?_)
    split <;> rfl
  case refine_8 =>
    exact fun s q u h => exec_done h rfl rfl
  case refine_9 =>
    exact fun u hs hc hb hh => xltCheck_agrees hs hc hb hh
end Sys2Proof.Machine
end

section
/-! The steps of an unmap, walks, and pinned ways (chapters 3 and 8). -/

namespace Sys2Proof.Machine

open Sys2Proof.Spec

/-! ### Slots (R236) -/

section
variable {s : State} {k : Nat}

theorem invGo_ignored {r : InvRec} (h : s.bget (R.xltInvCtl k) 30 = true ∨ (s.bget (R.xltInvCtl k) 28 = false ∧ (s.get (R.xltInvLen k)).toNat % 0x10000 ≠ 0)) :
    s.invGo k r = s := by
  rcases Bool.eq_false_or_eq_true (s.bget (R.xltInvCtl k) 30) with hb | hb
  · exact if_pos hb
  · obtain ⟨ha, hn⟩ := h.resolve_left (by rw [hb]; exact Bool.false_ne_true)
    refine (if_neg (by rw [hb]; exact Bool.false_ne_true)).trans (if_pos ?_)
    rw [ha, bne_iff_ne.2 hn, Bool.or_true]
    rfl

theorem invGo_starts {r : InvRec} (hb : s.bget (R.xltInvCtl k) 30 = false)
    (h : s.bget (R.xltInvCtl k) 28 = true ∨ ((s.get (R.xltInvLen k)).toNat % 0x10000 = 0 ∧ (s.get (R.xltInvLen k)).toNat ≠ 0)) :
    s.invGo k r = { s with inv := tput s.inv k r }.set (R.xltInvCtl k) (setFld (setFld (s.get (R.xltInvCtl k)) 30 30 1) 29 29 0) := by
  refine (if_neg (by rw [hb]; exact Bool.false_ne_true)).trans (if_neg ?_)
  rcases h with h | ⟨h0, hn⟩
  · rw [h]
    exact Bool.false_ne_true
  · rw [decide_eq_false hn, h0, bne_self_eq_false, Bool.or_self, Bool.and_false]
    exact Bool.false_ne_true

/-- Whether a slot in step 4 has still to wait. -/
def State.slotHeld (s : State) (k : Nat) : Bool :=
  !(s.bget (R.xltInvCtl k) 29) || s.invRefs k != 0 || s.tlb.any (fun e => e.2.retiring.contains k)

/-- A slot that ends: no longer busy, its object signalled. -/
def State.slotEnd (s : State) (k : Nat) : State :=
  let c := s.get (R.xltInvCtl k)
  let u := { s with inv := tdel s.inv k }.bset (R.xltInvCtl k) 30 false
  if bit c 27 then u.signal (fld c 26 14) else u

theorem invFinish_held (h : s.slotHeld k = true) : s.invFinish k = s := by
  unfold State.invFinish
  cases tget s.inv k with
  | none => rfl
  | some r => exact if_pos h

section
variable {r : InvRec} (hr : tget s.inv k = some r) (h : s.slotHeld k = false)
include hr h

theorem invFinish_kept (hc : r.clear = none) : s.invFinish k = s.slotEnd k := by
  unfold State.invFinish
  rw [hr]
  refine (if_neg (by unfold State.slotHeld at h; rw [h]; exact Bool.false_ne_true)).trans ?_
  rw [hc]
  rfl

theorem invFinish_clears {m : Nat} (hc : r.clear = some m) :
    s.invFinish k = (({ s.slotEnd k with pools := tdel (s.slotEnd k).pools (fld (s.get (R.xltInvCtl k)) 11 0) }.set (R.xltCtx (fld (s.get (R.xltInvCtl k)) 11 0)) 0).signal
      r.clearObj).axFinish m 0 0 [] := by
  unfold State.invFinish
  rw [hr]
  refine (if_neg (by unfold State.slotHeld at h; rw [h]; exact Bool.false_ne_true)).trans ?_
  rw [hc]
  rfl

end

section
variable {r : InvRec} (hr : tget s.inv k = some r)
include hr

theorem unmapDone_plain (hc : r.commit = none) : s.unmapDone k = s.laneSettle.invFinish k := by
  unfold State.unmapDone
  rw [hr]
  show (match r.commit with | some c => _ | none => _) = _
  rw [hc]

theorem unmapDone_seal {d : Nat} (hc : r.commit = some d) :
    s.unmapDone k = if (tget (s.laneSettle.invFinish k).inv k).isNone then (s.laneSettle.invFinish k).sealDone d else s.laneSettle.invFinish k := by
  unfold State.unmapDone
  rw [hr]
  show (match r.commit with | some c => _ | none => _) = _
  rw [hc]

end

end

/-! ### Walks (R228) -/

section
variable {s : State} {h : Nat}

theorem walkComplete_idle (hq : s.walkQ.find? (fun r => r.half == h) = none) : s.walkComplete h = s := by
  have hrs : (s.walkQ.filter fun r => r.half == h && (s.walking h).contains (r.ctx, r.va / 0x10000)) = [] :=
    List.filter_eq_nil_iff.2 fun r hr hc => List.find?_eq_none.1 hq r hr (Bool.and_eq_true_iff.1 hc).1
  unfold State.walkComplete
  dsimp only
  rw [hrs]
  rfl

section
variable {r : WalkReq} {rs : List WalkReq} (hrs : (s.walkQ.filter fun r => r.half == h && (s.walking h).contains (r.ctx, r.va / 0x10000)) = rs)
include hrs

theorem walkComplete_serves (hf : rs.find? (fun r => (s.walkWaits h r.ctx r.va).isNone) = some r) :
    let same (x : WalkReq) : Bool := x.half == h && x.ctx == r.ctx && x.va / 0x10000 == r.va / 0x10000
    let w := { s with walkQ := s.walkQ.filter (fun x => !same x) }.walk h r.ctx r.va
    s.walkComplete h = (s.walkQ.filter same).foldl (fun z x => z.walkServe x w.1) w.2 := by
  unfold State.walkComplete
  dsimp only
  rw [hrs, hf]

theorem walkComplete_asks {a : Nat} (hf : rs.find? (fun r => (s.walkWaits h r.ctx r.va).isNone) = none) (hh : rs.head? = some r)
    (hw : s.walkWaits h r.ctx r.va = some a) : s.walkComplete h = s.engAsk (walker h) a 8 0 := by
  unfold State.walkComplete
  dsimp only
  rw [hrs, hf]
  cases rs with
  | nil => exact absurd hh (Option.some_ne_none r).symm
  | cons x xs =>
    obtain rfl : x = r := Option.some.inj hh
    dsimp only
    rw [hw]

end

end

/-- Settles O47. -/
theorem translationEvents : Obligations.TranslationEvents := by
  unfold Obligations.TranslationEvents
  intro s
  refine ⟨?_, ?_, ?_, ?_, ?_, ?_, ?_, ?_, ?_, ?_⟩
  case refine_1 =>
    exact fun k hk h => run_eq (decide_eq_true hk) (invGo_ignored h)
  case refine_2 =>
    exact fun k hk hb h => run_eq (decide_eq_true hk) (invGo_starts hb h)
  case refine_3 =>
    exact fun k hk hb ha => run_eq (decide_eq_true hk) (if_pos (by rw [hb, ha]; rfl))
  case refine_4 =>
    exact fun k hk ha => run_eq (decide_eq_true hk) (if_neg (by rw [ha, Bool.not_true, Bool.and_false]; exact Bool.false_ne_true))
  case refine_5 =>
    intro k r hk hr hc w h
    refine run_eq (decide_eq_true hk) ((unmapDone_plain hr hc).trans (invFinish_held ?_))
    show w.slotHeld k = true
    unfold State.slotHeld
    rcases h with h | h
    · rw [h]
      rfl
    · rw [bne_iff_ne.2 h, Bool.or_true, Bool.true_or]
  case refine_6 =>
    intro k r hk hr w hw hp hn ht c u v
    have hheld : w.slotHeld k = false := by
      unfold State.slotHeld
      rw [hp, hn, ht]
      rfl
    refine ⟨fun hc => run_eq (decide_eq_true hk) ((unmapDone_plain hr hc).trans ?_), fun d hc hcl => run_eq (decide_eq_true hk) ((unmapDone_seal hr hc).trans ?_)⟩
    · rcases hcl : r.clear with _ | m
      · exact invFinish_kept hw hheld hcl
      · exact invFinish_clears hw hheld hcl
    · have e : s.laneSettle.invFinish k = v := invFinish_kept hw hheld hcl
      rw [e]
  case refine_7 =>
    intro m l c v w hm hcl hc
    refine run_eq ?_ rfl
    rw [hm, decide_eq_true hc]
    rcases hcl with h | h <;> rw [h] <;> rfl
  case refine_8 =>
    exact fun h hh hq => run_eq (decide_eq_true hh) (walkComplete_idle hq)
  case refine_9 =>
    exact fun h r rs hh hrs => ⟨fun hf => run_eq (decide_eq_true hh) (walkComplete_serves hrs hf), fun a hf hhd hw => run_eq (decide_eq_true hh) (walkComplete_asks hrs hf hhd hw)⟩
  case refine_10 =>
    exact fun b c v hb => run_eq (decide_eq_true hb) rfl
end Sys2Proof.Machine
end

section
/-! Host requests over CXL.mem and the answers of the host (chapter 14). -/

namespace Sys2Proof.Machine

open Sys2Proof.Spec

section
variable {s : State} {p d t : Nat}

/-! ### The port and its decoder (R332) -/

theorem port_moves (hp : s.powered = true) (hu : s.hostUp = true) : s.port' = true := by
  rw [State.port', hp, hu]
  rfl

theorem memHole_read (hn : s.hdmDpa p = none) :
    s.memHole p t false = { s.hole ⟨.host, 0⟩ 0 p with freeCtr := (s.hole ⟨.host, 0⟩ 0 p).freeCtr + 64 }.emit (.memData p t 0 ((s.hole ⟨.host, 0⟩ 0 p).freeBytes 64) true) := by
  unfold State.memHole
  rw [hn]
  rfl

theorem memHole_write (hn : s.hdmDpa p = none) : s.memHole p t true = (s.hole ⟨.host, 0⟩ 1 p).emit (.memCmp p t 0) := by
  unfold State.memHole
  rw [hn]
  rfl

section
variable {inv : Nat} {wr : Bool} {f : Nat → CReq} (hp : s.port' = true)
include hp

theorem memReq_uncovered (hn : s.hdmDpa p = none) : s.memReq p t inv wr f = s.memHole p t wr := by
  refine (if_neg (by rw [hp]; exact Bool.false_ne_true)).trans ?_
  rw [hn]

theorem memReq_homed (hd : s.hdmDpa p = some d) (hh : s.homed d = true) (hr : region d = .hbm) (hl : wr = false ∨ s.libHit d 64 = false) :
    let x := { f d with a := .host, line := lineOf d, tag := t, tc := s.fget R.cxlCtrl 5 4 }
    let u := { s with cfg := { s.cfg with hostTag := tput s.cfg.hostTag t (2 * p + inv) } }
    s.memReq p t inv wr f = if x.k = .evictClean ∨ x.k = .evictDirty then u.cohReq x else u.regOne (x, false) := by
  have hw : (wr && s.libHit d 64) = false := Bool.and_eq_false_iff.2 hl
  refine (if_neg (by rw [hp]; exact Bool.false_ne_true)).trans ?_
  rw [hd]
  refine if_neg ?_
  rw [hh, hr, hw]
  exact Bool.false_ne_true

/-! ### Writes (R334) -/

variable {m b : Bool} {v : BitVec 512}

theorem memWr_snooped (hd : s.hdmDpa p = some d) (ha : (s.awaits .host (d / 128)).isSome = true) :
    s.memWr p m t v b = (s.hostWb d v b).emit (.memCmp p t 0) := by
  unfold State.memWr
  rw [hd]
  exact if_pos (Bool.and_eq_true_iff.2 ⟨hp, ha⟩)

/-- The request that a write becomes where no snoop awaits the host. -/
def State.writeReq (s : State) (m : Bool) (v : BitVec 512) (b : Bool) (d : Nat) : CReq :=
  { k := if m ∧ (s.dirOf (d / 128)).owner = some 8 then .evictDirty else .wrPart, a := .host, line := 0
    mask := halfMask d (BitVec.allOnes 64), data := halfData d v, poison := b }

omit hp in
theorem memWr_unsnooped (hd : s.hdmDpa p = some d) (ha : s.awaits .host (d / 128) = none) :
    s.memWr p m t v b = s.memReq p t 0 true (s.writeReq m v b) := by
  unfold State.memWr
  rw [hd]
  exact if_neg (Bool.eq_false_iff.1 (Bool.and_eq_false_iff.2 (.inr (Option.isSome_eq_false_iff.2 (Option.isNone_iff_eq_none.2 ha)))))

theorem memWr_uncovered (hn : s.hdmDpa p = none) : s.memWr p m t v b = s.memReq p t 0 true (s.writeReq m v b) := by
  unfold State.memWr
  rw [hn]
  exact if_neg (by rw [hp]; exact Bool.false_ne_true)

end

end

/-- Settles O48. -/
theorem hostMemoryRequests : Obligations.HostMemoryRequests := by
  unfold Obligations.HostMemoryRequests
  intro s hpow hup
  have hp : s.port' = true := port_moves hpow hup
  refine ⟨?_, ?_, ?_, ?_, ?_, ?_, ?_, ?_⟩
  case refine_1 =>
    intro p t d i w r hd hh hr hi x u
    have hreq : ∃ wr f, exec i s = .next (s.memReq p t w wr f).cohTail ∧ (wr = false ∨ s.libHit d 64 = false) ∧ f d = r := by
      rcases hi with ⟨rfl, rfl, rfl⟩ | ⟨rfl, rfl, rfl⟩ | ⟨rfl, rfl, rfl⟩ | ⟨rfl, rfl, rfl⟩ | ⟨rfl, rfl, rfl⟩ | ⟨rfl, rfl, rfl⟩
        | ⟨m, v, b, rfl, rfl, hl, rfl⟩ | ⟨v, b, rfl, rfl, hl, ha, ho, rfl⟩ | ⟨v, b, rfl, rfl, hl, ha, rfl⟩
      · exact ⟨_, _, rfl, .inl rfl, rfl⟩
      · exact ⟨_, _, rfl, .inl rfl, rfl⟩
      · exact ⟨_, _, rfl, .inl rfl, rfl⟩
      · exact ⟨_, _, rfl, .inl rfl, rfl⟩
      · exact ⟨_, _, rfl, .inl rfl, rfl⟩
      · exact ⟨_, _, rfl, .inl rfl, rfl⟩
      · exact ⟨_, _, rfl, .inr hl, rfl⟩
      · refine ⟨_, _, congrArg (fun a : State => Host.Outcome.next a.cohTail) (memWr_unsnooped hd ha), .inr hl, ?_⟩
        unfold State.writeReq
        rw [if_pos ⟨rfl, ho⟩]
      · refine ⟨_, _, congrArg (fun a : State => Host.Outcome.next a.cohTail) (memWr_unsnooped hd ha), .inr hl, ?_⟩
        unfold State.writeReq
        rw [if_neg (fun h => Bool.false_ne_true h.1)]
    have ha : r.a = .host := by
      rcases hi with ⟨-, -, rfl⟩ | ⟨-, -, rfl⟩ | ⟨-, -, rfl⟩ | ⟨-, -, rfl⟩ | ⟨-, -, rfl⟩ | ⟨-, -, rfl⟩
        | ⟨m, v, b, -, -, -, rfl⟩ | ⟨v, b, -, -, -, -, -, rfl⟩ | ⟨v, b, -, -, -, -, rfl⟩ <;> rfl
    obtain ⟨wr, f, he, hl, rfl⟩ := hreq
    rw [he, memReq_homed hp hd hh hr hl, ← ha]
  case refine_2 =>
    rintro p t m i hn (rfl | rfl)
    · exact ⟨_, congrArg (fun a : State => Host.Outcome.next a.cohTail) ((memReq_uncovered hp hn).trans (memHole_read hn))⟩
    · exact ⟨_, congrArg (fun a : State => Host.Outcome.next a.cohTail) ((memReq_uncovered hp hn).trans (memHole_read hn))⟩
  case refine_3 =>
    rintro p t m v b i hn (rfl | rfl)
    · exact congrArg (fun a : State => Host.Outcome.next a.cohTail) ((memReq_uncovered hp hn).trans (memHole_write hn))
    · exact congrArg (fun a : State => Host.Outcome.next a.cohTail) ((memWr_uncovered hp hn).trans ((memReq_uncovered hp hn).trans (memHole_write hn)))
  case refine_4 =>
    exact fun p t d v b i hd ha => congrArg (fun a : State => Host.Outcome.next a.cohTail) (memWr_snooped hp hd ha)
  case refine_5 =>
    intro p d hd
    refine ⟨congrArg Host.Outcome.next ((if_pos hp).trans ?_), congrArg Host.Outcome.next ((if_pos hp).trans ?_), congrArg Host.Outcome.next (if_pos (by rw [hp, hd]; rfl))⟩
    · rw [hd]
      rfl
    · rw [hd]
      rfl
  case refine_6 =>
    exact fun p t => congrArg Host.Outcome.next (if_pos hp)
  case refine_7 =>
    intro i v b x hx hs
    refine congrArg Host.Outcome.next ((if_pos hp).trans (congrArg State.cohTail ?_))
    unfold State.d2hRsp
    rw [hx]
    exact if_pos (by rw [hs]; rfl)
  case refine_8 =>
    exact congrArg Host.Outcome.next (if_pos hp)
end Sys2Proof.Machine
end

section
/-! The host port: accesses, interrupts, the link, the function-level reset and the host-tier windows (chapter 14). -/

namespace Sys2Proof.Machine

open Sys2Proof.Spec

/-! ### Interrupts (R339) -/

theorem msixWr_unmasks {s : State} {v : Nat} (hc : s.msixPend.contains v = true) (hm : s.msixFnMask = false) (he : s.bget R.cxlStatus 28 = true)
    (hu : s.hostUp = true) : s.msixWr (4 * v + 3) 0
      = { s with cfg := { s.cfg with msixTab := tset s.cfg.msixTab (4 * v + 3) 1 0 }, msixOpen := sIns s.msixOpen v, msixPend := sDel s.msixPend v }.emit (.msix v) := by
  have h4 : (4 * v + 3) % 4 = 3 := by omega
  have hv : (4 * v + 3) / 4 = v := by omega
  unfold State.msixWr
  rw [h4, hv]
  refine (if_neg (fun h => h rfl)).trans ((if_pos rfl).trans ?_)
  unfold State.msixUnmaskDo
  refine (if_pos ?_).trans ?_
  · have hall : (s.msixPend.contains v && !s.msixFnMask && s.bget R.cxlStatus 28 && s.hostUp) = true := by
      rw [hc, hm, he, hu]
      rfl
    exact hall
  · rfl

/-! ### Configuration space and the link (R327, R341, R390) -/

section
variable {s : State}

theorem cfgReq_retries {w : Bool} {r : Nat} {v : W32} (h : s.bget R.stwStatus 31 = false) : s.cfgReq w r v = s.emit (.cfgCpl 2 0) :=
  if_pos (by rw [h]; rfl)

theorem cfgReq_reads {r : Nat} {v : W32} (h : s.bget R.stwStatus 31 = true) : s.cfgReq false r v = s.emit (.cfgCpl 0 (s.cfgRd r)) :=
  (if_neg (by rw [h]; exact Bool.false_ne_true)).trans (if_neg Bool.false_ne_true)

theorem cfgReq_writes {r : Nat} {v : W32} (h : s.bget R.stwStatus 31 = true) : s.cfgReq true r v = (s.cfgWr r v).emit (.cfgCpl 0 0) :=
  (if_neg (by rw [h]; exact Bool.false_ne_true)).trans (if_pos rfl)

theorem linkDown_idle {b : Bool} (h : (if b then s.bset R.hubClkStatus 16 false else s).hostUp = false) :
    s.linkDown b = if b then s.bset R.hubClkStatus 16 false else s := if_pos (by rw [h]; rfl)

theorem linkDown_fences {b : Bool} {w u : State} (hw : (if b then s.bset R.hubClkStatus 16 false else s) = w) (h : w.hostUp = true)
    (hu : ((w.set R.cxlStatus (setFld (setFld (setFld (w.get R.cxlStatus) 31 30 1) 12 8 0) 7 4 0)).log' 1 10 1 [8]).fence 8 = u) :
    s.linkDown b = ((u.ext.filter fun e : Nat × ExtReq => e.2.site.isNone).map fun e : Nat × ExtReq => e.1).foldl (fun (s : State) i => s.extEnd i [] false 2) u := by
  unfold State.linkDown
  rw [hw, if_neg (by rw [h]; exact Bool.false_ne_true)]
  subst hu
  rfl

end

/-! ### Host-tier windows (R335, R337) -/

section
variable {b n : Nat}

theorem hostGrant_args (h : htArgs b n = true) : ¬ (!htArgs b n) = true := by
  rw [h]
  exact Bool.false_ne_true

end

/-- Settles O49. -/
theorem hostPort : Obligations.HostPort := by
  unfold Obligations.HostPort
  refine ⟨?_, ?_, ?_, ?_, ?_, ?_, ?_, ?_⟩
  case refine_1 =>
    intro s hpow hup
    have hp : s.port' = true := port_moves hpow hup
    refine ⟨?_, ?_, ?_, ?_, ?_, ?_, ?_, ?_⟩
    case refine_1 => exact fun b o n op ho => congrArg Host.Outcome.next ((if_pos hp).trans (congrArg State.accPump (if_neg ho)))
    case refine_2 => exact fun b o => congrArg Host.Outcome.next (if_pos hp)
    case refine_3 => exact fun a n w => congrArg Host.Outcome.next (if_pos hp)
    case refine_4 => exact fun v hv hc hm he => run_eq (decide_eq_true hv) ((if_pos hp).trans (msixWr_unmasks hc hm he hup))
    case refine_5 => exact congrArg Host.Outcome.next (if_pos hp)
    case refine_6 => exact fun r v hr hs => run_eq (decide_eq_true hr) ((if_pos hp).trans (cfgReq_retries hs))
    case refine_7 =>
      exact fun r v hr hs => ⟨run_eq (decide_eq_true hr) ((if_pos hp).trans (cfgReq_reads hs)), run_eq (decide_eq_true hr) ((if_pos hp).trans (cfgReq_writes hs))⟩
    case refine_8 =>
      intro b
      refine congrArg Host.Outcome.next ((if_pos hpow).trans ?_)
      rcases Bool.eq_false_or_eq_true (if b then s.bset R.hubClkStatus 16 false else s).hostUp with h | h
      · exact (congrArg State.cohTail (linkDown_fences rfl h rfl)).trans (if_pos h).symm
      · exact (congrArg State.cohTail (linkDown_idle h)).trans (if_neg (by rw [h]; exact Bool.false_ne_true)).symm
  case refine_2 =>
    intro s w r hp ha hm hd hw hw16 hr hr6
    refine congrArg Host.Outcome.next (if_pos ?_)
    rw [hp, ha, hm, hd, decide_eq_true ⟨hw, hw16, hr, hr6⟩]
    rfl
  case refine_3 =>
    intro s k v hk
    refine run_eq (decide_eq_true hk) ?_
    unfold State.hostWindow
    simp only [Bool.and_eq_true]
  case refine_4 =>
    intro s q b n k t u h ha hk ht
    refine exec_done h ((if_neg (hostGrant_args ha)).trans ?_) rfl
    rw [hk]
    dsimp only
    rw [ht]
  case refine_5 =>
    intro s q b n u h ha hk
    have hnone : (List.range 64).find? (fun k => !u.bget (R.cxlHtTier k) 63) = none :=
      List.find?_eq_none.2 fun k hr => by rw [hk k (List.mem_range.1 hr)]; exact Bool.false_ne_true
    refine exec_refuse h ((if_neg (hostGrant_args ha)).trans ?_) rfl
    rw [hnone]
  case refine_6 =>
    intro s q b n t k u h ha hk ht hl
    have hin : ¬ ((!htArgs b n) = true ∨ 64 ≤ k ∨ t % 2 ^ 21 ≠ 0 ∨ 2 ^ 44 < t + n) :=
      not_or.2 ⟨hostGrant_args ha, by omega⟩
    split
    next hv => exact exec_refuse h ((if_neg hin).trans (if_pos hv)) rfl
    next hv =>
      split
      next hb => exact exec_fail h ((if_neg hin).trans ((if_neg hv).trans (if_pos hb))) rfl
      next hb => exact exec_done h ((if_neg hin).trans ((if_neg hv).trans (if_neg hb))) rfl
  case refine_7 =>
    intro s q k u h hk
    split
    next hv => exact exec_done h ((if_neg (Nat.not_le.2 hk)).trans (if_neg (by rw [hv]; exact Bool.false_ne_true))) rfl
    next hv => exact exec_refuse h ((if_neg (Nat.not_le.2 hk)).trans (if_pos (by rw [Bool.not_eq_true', ← Bool.not_eq_true]; exact hv))) rfl
  case refine_8 =>
    exact fun s q u h => exec_done h rfl rfl
end Sys2Proof.Machine
end

section
/-! Requests arriving on Tukosen, responses, frames in transit, and the actions of notifiers (chapters 11 and 13). -/

namespace Sys2Proof.Machine

open Sys2Proof.Spec

section
variable {s u : State} {p : Nat} {f : Frame}

/-! ### A request taken from its port (R317, R321, R322) -/

theorem tksReqCmd_taken {op : Nat} (hp : p < 8) (ho : f.op = op) (hr : f.resp = false) (hd : f.dst = s.ownDev) (ht : s.tksTake p f = some u) :
    tksReqCmd p f op s = .next (u.reqIn p f).accPump := by
  unfold tksReqCmd
  rw [ho, hr, hd, ht]
  refine (if_neg ?_).trans (run_of (decide_eq_true hp))
  simp only [ne_eq, not_true_eq_false, Bool.false_eq_true, or_self, not_false_eq_true]

/-- The state with the memo entries below a request's floor freed (R321). -/
def State.memoKept (u : State) (f : Frame) : State := State.memoCount { u with memo := u.memo.filter fun e : MemoE => !memoOld f e }

section
variable (hh : u.bget R.secTenStatus 31 = false)
include hh

theorem reqIn_malformed (hk : reqOk f = false) : u.reqIn p f = (u.bump (R.tksMalformed p) 32 1).oweCells (some (cellsOf p f)) :=
  (if_neg (by rw [hh]; exact Bool.false_ne_true)).trans (if_pos (by rw [hk]; rfl))

variable {op : Nat} (hk : reqOk f = true) (ho : f.op = op)
include hk ho

theorem reqIn_queued (hb : (op != 0x3E && ((u.memoKept f).flowBusy f || (u.memoKept f).ingQ.any fun e => sameFlow f e.2.1)) = true) :
    u.reqIn p f = { u.memoKept f with ingQ := (u.memoKept f).ingQ ++ [(p, f, false)] } := by
  subst ho
  exact (if_neg (by rw [hh]; exact Bool.false_ne_true)).trans ((if_neg (by rw [hk]; exact Bool.false_ne_true)).trans (if_pos hb))

variable (hb : (op != 0x3E && ((u.memoKept f).flowBusy f || (u.memoKept f).ingQ.any fun e => sameFlow f e.2.1)) = false)
include hb

theorem reqIn_held (hs : (u.memoKept f).reqShut p f = true) :
    u.reqIn p f = { (u.memoKept f).reqHeld p f false with ingQ := ((u.memoKept f).reqHeld p f false).ingQ ++ [(p, f, true)] } := by
  subst ho
  exact (if_neg (by rw [hh]; exact Bool.false_ne_true)).trans ((if_neg (by rw [hk]; exact Bool.false_ne_true)).trans ((if_neg (Bool.eq_false_iff.1 hb)).trans (if_pos hs)))

theorem reqIn_goes (hs : (u.memoKept f).reqShut p f = false) : u.reqIn p f = (u.memoKept f).reqGo p f := by
  subst ho
  exact (if_neg (by rw [hh]; exact Bool.false_ne_true)).trans ((if_neg (by rw [hk]; exact Bool.false_ne_true)).trans
    ((if_neg (Bool.eq_false_iff.1 hb)).trans (if_neg (Bool.eq_false_iff.1 hs))))

end

theorem reqGo_again {e : MemoE} (hm : s.memo.find? (fun e : MemoE => e.src == f.src && e.reqid == f.reqid) = some e) :
    s.reqGo p f = ((s.bump R.tksE2eDup 32 1).tksSendResp f e.status e.addr e.aux [] false).oweCells (some (cellsOf p f)) := by
  unfold State.reqGo
  rw [hm]

section
variable (hm : s.memo.find? (fun e : MemoE => e.src == f.src && e.reqid == f.reqid) = none)
include hm

theorem reqGo_full (ho : opMemo f.op = true) (hf : s.memoFull = true) :
    s.reqGo p f = ((s.bump R.tksE2eBusy 32 1).tksSendResp f 3 f.addr.toNat 0 [] false).oweCells (some (cellsOf p f)) := by
  unfold State.reqGo
  rw [hm]
  dsimp only
  rw [if_pos (by rw [ho, hf]; rfl)]

theorem reqGo_performs (ho : opMemo f.op = false ∨ s.memoFull = false) : s.reqGo p f = (s.reqDo p f).oweCells (some (cellsOf p f)) := by
  unfold State.reqGo
  rw [hm]
  dsimp only
  rw [if_neg (Bool.eq_false_iff.1 (Bool.and_eq_false_iff.2 ho))]

end

/-! ### What each operation does (Table 13-5) -/

/-- The access that a SYNC makes of its object's page. -/
def syncOp (f : Frame) : AccessOp :=
  match f.aop with
  | 0 => .write (leBytes 8 f.aux.toNat)
  | 0xF => .read
  | k => .atomic k f.aux (BitVec.ofNat 64 (leNat f.payload))

theorem tksSyncDo_eq : s.tksSyncDo p f = if (syncPage f.addr.toNat).isNone then s.ingressHole p f (if f.aop = 0xF then 0 else if f.aop = 0 then 1 else 2)
    else s.access ⟨.tukosen, p⟩ (.ingress p f) (s.gOwn f.addr.toNat) 8 f.tc (syncOp f) f.poison := by
  unfold State.tksSyncDo
  rcases h : syncPage f.addr.toNat with _ | o
  · dsimp only
    rw [h]
    rfl
  · refine Eq.trans ?_ (if_neg Bool.false_ne_true).symm
    dsimp only
    rw [h]
    dsimp only
    split
    next h0 =>
      unfold syncOp
      rw [h0]
      rfl
    next h15 =>
      unfold syncOp
      rw [h15]
      rfl
    next h0 h15 =>
      unfold syncOp
      split
      next h => exact absurd h h0
      next h => exact absurd h h15
      next => rfl

theorem settGrantDo_eq : s.settGrantDo f = (findRun [(0, s.expo.len / 4096)] (s.expo.granted.map fun e : Nat × Nat => e.1) f.aux.toNat).elim
    (s.tksRespond f 6 0 0 [] false) fun k => if f.aux.toNat = 0 ∨ s.expo.len / 4096 < f.aux.toNat then s.tksRespond f 6 0 0 [] false
      else { s with expo := { s.expo with granted := (List.range f.aux.toNat).foldl (fun t j => tput t (k + j) f.src) s.expo.granted } }.tksRespond
        f 0 k (BitVec.ofNat 64 f.aux.toNat) [] false := by
  unfold State.settGrantDo State.expoSetts
  dsimp only
  rcases findRun [(0, s.expo.len / 4096)] (s.expo.granted.map fun e : Nat × Nat => e.1) f.aux.toNat with _ | k
  · exact ite_self _
  · rfl

/-! ### Responses (R316, R320) and transit (R319) -/

theorem tksResponse_dropped (hp : p < 8) (hr : f.resp = true) (hd : f.dst = s.ownDev) (ht : s.tksTake p f = none) :
    execTksResponse p f s = .next (s.tksDrop p f) := by
  unfold execTksResponse
  rw [ht]
  exact (if_neg (not_or.2 ⟨by rw [hr]; exact Bool.false_ne_true, not_not.2 hd⟩)).trans (run_of (decide_eq_true hp))

section
variable (hp : p < 8) (hr : f.resp = true) (hd : f.dst = s.ownDev) (ht : s.tksTake p f = some u)
include hp hr hd ht

theorem tksResponse_malformed (hk : respOk f = false) : execTksResponse p f s = .next ((u.oweCells (some (cellsOf p f))).bump (R.tksMalformed p) 32 1) := by
  unfold execTksResponse
  rw [ht]
  exact (if_neg (not_or.2 ⟨by rw [hr]; exact Bool.false_ne_true, not_not.2 hd⟩)).trans (run_eq (decide_eq_true hp) (if_pos (by rw [hk]; rfl)))

theorem tksResponse_taken (hk : respOk f = true) (hh : (u.oweCells (some (cellsOf p f))).bget R.secTenStatus 31 = false) :
    execTksResponse p f s = .next ((u.oweCells (some (cellsOf p f))).respIn f).cohTail := by
  unfold execTksResponse
  rw [ht]
  exact (if_neg (not_or.2 ⟨by rw [hr]; exact Bool.false_ne_true, not_not.2 hd⟩)).trans (run_eq (decide_eq_true hp)
    ((if_neg (by rw [hk]; exact Bool.false_ne_true)).trans (if_neg (by rw [hh]; exact Bool.false_ne_true))))

end

theorem respIn_asked {q : TReq} (hq : tget s.tksReq f.reqid.toNat = some q) (he : q.ended = false) (hs : q.f.dst = f.src) (ho : q.f.op = f.op) :
    s.respIn f = if f.status = 0 ∨ f.status = 2 ∨ f.status = 6 then s.tksEnd f.reqid.toNat f.status f else s := by
  unfold State.respIn
  rw [hq]
  exact if_neg (not_or.2 ⟨by rw [he]; exact Bool.false_ne_true, not_or.2 ⟨not_not.2 hs, not_not.2 ho⟩⟩)

theorem tksForward_sends (hh : s.bget R.secTenStatus 31 = false) :
    s.tksForward p f = if f.hops = 0 then (if f.resp then s else s.tksSendResp f 5 f.addr.toNat 0 [] false).oweCells (some (cellsOf p f))
      else (s.route f.dst).elim ((if f.resp then s else s.tksSendResp f 4 f.addr.toNat 0 [] false).oweCells (some (cellsOf p f)))
        fun r => s.sendVia r { f with hops := f.hops - 1 } (some (cellsOf p f)) := by
  unfold State.tksForward
  refine (if_neg (by rw [hh]; exact Bool.false_ne_true)).trans ?_
  cases s.route f.dst with
  | none => rfl
  | some r => rfl

theorem tksForward_taken (hp : p < 8) (hd : f.dst ≠ s.ownDev) (ht : s.tksTake p f = some u) :
    execTksForward p f s = .next (if !frameOk f then (u.bump (R.tksMalformed p) 32 1).oweCells (some (cellsOf p f)) else u.tksForward p f) := by
  unfold execTksForward
  rw [ht]
  exact (if_neg hd).trans (run_of (decide_eq_true hp))

end

/-- Settles O50. -/
theorem tukosenRequests : Obligations.TukosenRequests := by
  unfold Obligations.TukosenRequests
  refine ⟨?_, ?_, ?_, ?_, ?_, ?_⟩
  case refine_1 =>
    intro s p f u i op hp ho hr hd ht hh hi
    have hx : exec i s = .next (u.reqIn p f).accPump := by
      refine Eq.trans ?_ (tksReqCmd_taken hp ho hr hd ht)
      rcases hi with ⟨rfl, rfl⟩ | ⟨rfl, rfl⟩ | ⟨rfl, rfl⟩ | ⟨rfl, rfl⟩ | ⟨rfl, rfl⟩ | ⟨rfl, rfl⟩ | ⟨rfl, rfl⟩ | ⟨rfl, rfl⟩ | ⟨rfl, rfl⟩ | ⟨rfl, rfl⟩ | ⟨rfl, rfl⟩ <;> rfl
    refine ⟨fun hk => hx.trans (congrArg (fun a : State => Host.Outcome.next a.accPump) (reqIn_malformed hh hk)), fun hk => ?_⟩
    intro v own a n busy
    refine ⟨fun hb => ?_, fun hb hs => ?_, fun e hb hs hm => ?_, fun hb hs hm hop hf => ?_, fun hb hs hm hop => ?_⟩
    · exact hx.trans (congrArg (fun a : State => Host.Outcome.next a.accPump) (reqIn_queued hh hk ho hb))
    · exact hx.trans (congrArg (fun a : State => Host.Outcome.next a.accPump) (reqIn_held hh hk ho hb hs))
    · exact hx.trans (congrArg (fun a : State => Host.Outcome.next a.accPump) ((reqIn_goes hh hk ho hb hs).trans (reqGo_again hm)))
    · exact hx.trans (congrArg (fun a : State => Host.Outcome.next a.accPump) ((reqIn_goes hh hk ho hb hs).trans (reqGo_full hm (by rw [ho]; exact hop) hf)))
    · refine hx.trans (congrArg (fun a : State => Host.Outcome.next a.accPump) ((reqIn_goes hh hk ho hb hs).trans
        ((reqGo_performs hm (by rw [ho]; exact hop)).trans (congrArg (fun a : State => a.oweCells (some (cellsOf p f))) ?_))))
      show v.reqDo p f = _
      unfold State.reqDo
      rw [ho]
      rcases hi with ⟨-, rfl⟩ | ⟨-, rfl⟩ | ⟨-, rfl⟩ | ⟨-, rfl⟩ | ⟨-, rfl⟩ | ⟨-, rfl⟩ | ⟨-, rfl⟩ | ⟨-, rfl⟩ | ⟨-, rfl⟩ | ⟨-, rfl⟩ | ⟨-, rfl⟩
      · rfl
      · rfl
      · rfl
      · exact tksSyncDo_eq
      · rfl
      · refine settGrantDo_eq.trans ?_
        dsimp only [n]
        cases findRun [(0, v.expo.len / 4096)] (v.expo.granted.map fun e : Nat × Nat => e.1) f.aux.toNat with
        | none => rfl
        | some k => rfl
      · rfl
      · rfl
      · rfl
      · rfl
      · rfl
  case refine_2 =>
    exact fun s p f hp hr hd ht => tksResponse_dropped hp hr hd ht
  case refine_3 =>
    intro s p f u hp hr hd ht v
    exact ⟨fun hk => tksResponse_malformed hp hr hd ht hk,
      fun q hk hh hq he hs ho => (tksResponse_taken hp hr hd ht hk hh).trans (congrArg (fun a : State => Host.Outcome.next a.cohTail) (respIn_asked hq he hs ho))⟩
  case refine_4 =>
    intro s p f u hp hd ht hh
    refine (tksForward_taken hp hd ht).trans (congrArg Host.Outcome.next ?_)
    rw [tksForward_sends hh]
    cases hk : frameOk f with
    | false => rfl
    | true =>
      refine (if_neg Bool.false_ne_true).trans (Eq.trans ?_ (if_neg (Ne.symm Bool.false_ne_true)).symm)
      cases u.route f.dst with
      | none => rfl
      | some r => rfl
  case refine_5 =>
    intro s h
    refine congrArg Host.Outcome.next ?_
    rw [h]
  case refine_6 =>
    intro s x r h t
    refine (congrArg Host.Outcome.next ?_ : exec .notifierAction s = .next ((t.notifyDo x).cohTail)).trans (congrArg (fun a : State => Host.Outcome.next a.cohTail) ?_)
    · rw [h]
    · unfold State.notifyDo
      generalize x.kind = k
      match k with
      | 0 => rfl
      | 1 =>
        have hiff : (t.bget R.cxlStatus 31 && t.bget R.cxlStatus 28 && !t.fenced 8) = true ↔
            s.bget R.cxlStatus 31 = true ∧ s.bget R.cxlStatus 28 = true ∧ s.fenced 8 = false := by
          rw [Bool.and_eq_true, Bool.and_eq_true, Bool.not_eq_true', and_assoc]
          rfl
        exact ite_congr (propext hiff) (fun _ => rfl) fun _ => rfl
      | 2 => rfl
      | 3 => rfl
      | 4 => rfl
      | k + 5 => rfl
end Sys2Proof.Machine
end

section
/-! The Tukosen link: frames accepted, acknowledgements and credits, retraining and link-up (chapter 13). -/

namespace Sys2Proof.Machine

open Sys2Proof.Spec

section
variable {s : State} {p : Nat}

/-! ### Acceptance (R313, R317) -/

theorem tksTake_accepts {f : Frame} (hn : s.tksOn = true) (hl : s.portLive p = true) (hp : f.part = s.fget R.tksDevPart 15 0)
    (hq : f.lseq = ((s.port p).rxSeq + 1) % 65536) :
    let u := ((s.modPort p fun x => { x with rxSeq := f.lseq, nakSent := false, toAck := x.toAck + 1 }).bump (R.tksRx p) 64 1).portAck p f.lack f.cr0 f.cr1
    s.tksTake p f = some (if 32 ≤ (u.port p).toAck then u.sendAck p else u) :=
  (if_neg (by rw [hl, hn]; exact Bool.false_ne_true)).trans (if_neg (not_or.2 ⟨not_not.2 hp, not_not.2 hq⟩))

theorem tksTake_foreign {f : Frame} (h : f.part ≠ s.fget R.tksDevPart 15 0 ∨ f.lseq ≠ ((s.port p).rxSeq + 1) % 65536) : s.tksTake p f = none := by
  unfold State.tksTake
  rw [if_pos h]
  exact ite_self _

/-! ### HELLO (R309, R313) -/

theorem hello_greets {d q n : Nat} {u : State} (hs : s.pst p = psHello) (hu : (s.fset (R.tksStatus p) 20 18 n).fset (R.tksStatus p) 17 0 d = u)
    (hn : u.tksOn = true) (hp : u.pst p = psHello) (hg : (u.port p).greeted = false) :
    s.hello p d q n = if q ≠ u.fget R.tksDevPart 15 0 then u.setPst p psIsolated else (u.modPort p fun x => { x with greeted := true }).grantSend p := by
  have hiso : ¬ u.pst p = psIsolated := by rw [hp]; decide
  have ht : (if s.pst p = psTraining then s.portLocked p else s) = s := if_neg (by rw [hs]; decide)
  unfold State.hello
  rw [if_neg (by rw [hs]; decide)]
  dsimp only
  rw [ht, hu]
  refine ite_congr rfl (fun _ => rfl) fun _ => ?_
  exact (if_neg (by rw [hn]; exact Bool.false_ne_true)).trans ((if_neg hiso).trans (if_neg (by rw [hg]; exact Bool.false_ne_true)))

/-! ### Acknowledgements (R317) -/

theorem nakIn_replays {l : Nat} (hn : s.tksOn = true) (hl : s.portLive p = true) :
    let u := s.modPort p fun x => x.acked l
    let x := u.port p
    let q := (l + 1) % 65536
    let v := u.setPort p { x with nakSeq := q, nakRun := if x.nakSeq = q then x.nakRun + 1 else 1 }
    s.nakIn p l = (x.replay.foldl (fun s f => s.emit (.frame p { f with lack := x.rxSeq })) v).bump (R.tksReplay p) 32 x.replay.length :=
  if_neg (by rw [hl, hn]; exact Bool.false_ne_true)

/-! ### Retraining (R319) -/

theorem retrained_anew (hg : (s.port p).greeted = false) : s.retrained p = s.portLocked p := if_pos (by rw [hg]; rfl)

theorem retrained_up (hn : s.tksOn = true) (hg : (s.port p).greeted = true) :
    let u := (s.setPst p psUp).bset (R.tksStatus p) 27 true
    s.retrained p = ((u.port p).replay.foldl (fun s f => s.emit (.frame p f)) u).pump p := if_neg (by rw [hg, hn]; exact Bool.false_ne_true)

/-! ### Discarded frames (R305, R308, R313) -/

theorem badFrame_fcs {b : Bool} (hu : s.pst p = psUp) : s.badFrame p (.fcs b) = s.bump (R.tksFcs p) 32 1 := if_neg (by rw [hu]; decide)

theorem badFrame_malformed {g : Frame} (hu : s.pst p = psUp) : s.badFrame p (.malformed g) = s.badForm p g := if_neg (by rw [hu]; decide)

theorem badForm_dropped {g : Frame} (h : s.tksTake p g = none) : s.badForm p g = s.tksDrop p g := by
  unfold State.badForm
  rw [h]

theorem badForm_taken {g : Frame} {u : State} (h : s.tksTake p g = some u) :
    s.badForm p g = (u.bump (R.tksMalformed p) 32 1).oweCells (some (cellsOf p g)) := by
  unfold State.badForm
  rw [h]

theorem badFrame_address (hu : s.pst p = psUp) : s.badFrame p .foreignAddr = s.bump (R.tksDropDa p) 32 1 := if_neg (by rw [hu]; decide)

theorem badFrame_sequence {q : Nat} (hu : s.pst p = psUp) (hn : s.tksOn = true) (hl : s.portLive p = true) (hq : q ≠ ((s.port p).rxSeq + 1) % 65536) :
    s.badFrame p (.wrongSeq q) = s.sendNak p :=
  (if_neg (by rw [hu]; decide)).trans (if_pos ⟨hn, hl, hq⟩)

/-! ### Frames in transit (R311) -/

theorem transitDrop_oldest {i : Nat} {e : TxE} (hi : (s.port p).queue.findIdx? (fun e => e.back.isSome) = some i) (he : (s.port p).queue[i]? = some e) :
    s.transitDrop p = ((s.modPort p fun x => { x with queue := x.queue.eraseIdx i }).oweCells e.back).bump (R.tksDropHeld p) 32 1 := by
  unfold State.transitDrop
  rw [hi]
  dsimp only
  rw [he]

end

/-- Settles O51. -/
theorem tukosenLink : Obligations.TukosenLink := by
  unfold Obligations.TukosenLink
  intro s p hp hn
  have hp8 : decide (p < 8) = true := decide_eq_true hp
  refine ⟨?_, ?_, ?_, ?_, ?_, ?_, ?_, ?_, ?_, ?_, ?_, ?_, ?_, ?_, ?_, ?_, ?_, ?_⟩
  case refine_1 => exact fun f hl hpt hq => tksTake_accepts hn hl hpt hq
  case refine_2 => exact fun f h => tksTake_foreign h
  case refine_3 => exact fun d q n hs hu hup hg => run_eq hp8 (hello_greets hs rfl hu hup hg)
  case refine_4 => exact fun l c0 c1 hl => run_eq hp8 (if_pos (by rw [hn, hl]; rfl))
  case refine_5 => exact fun l hl => run_eq hp8 (nakIn_replays hn hl)
  case refine_6 => exact fun hl => run_eq hp8 (if_pos (by rw [hn, hl]; rfl))
  case refine_7 => exact fun hu h => run_eq hp8 (if_pos ⟨hu, h⟩)
  case refine_8 => exact fun hr hg => run_eq hp8 ((if_pos hr).trans (retrained_anew hg))
  case refine_9 => exact fun hr hg => run_eq hp8 ((if_pos hr).trans (retrained_up hn hg))
  case refine_10 => exact fun ht => run_eq hp8 ((if_neg (by rw [ht]; decide)).trans (if_pos ht))
  case refine_11 => exact fun hr => run_eq hp8 (if_pos hr)
  case refine_12 => exact fun h => run_eq hp8 ((if_neg (by rcases h with h | h <;> rw [h] <;> decide)).trans (if_pos h))
  case refine_13 => exact fun b hu => run_eq hp8 (badFrame_fcs hu)
  case refine_14 => exact fun g hu ht => run_eq hp8 ((badFrame_malformed hu).trans (badForm_dropped ht))
  case refine_15 => exact fun g u hu ht => run_eq hp8 ((badFrame_malformed hu).trans (badForm_taken ht))
  case refine_16 => exact fun hu => run_eq hp8 (badFrame_address hu)
  case refine_17 => exact fun q hu hq hl => run_eq hp8 (badFrame_sequence hu hn hl hq)
  case refine_18 => exact fun i e hi he => run_eq hp8 (transitDrop_oldest hi he)
end Sys2Proof.Machine
end

section
/-! Resends, failures, the memo and the port commands of Tukosen (chapter 13). -/

namespace Sys2Proof.Machine

open Sys2Proof.Spec

section
variable {s : State}

/-! ### Requests sent again (R320) -/

section
variable {i : Nat} {q : TReq} {v : Nat × Bool × Bool} (hq : tget s.tksReq i = some q) (he : q.ended = false) (hr : s.route q.f.dst = some v)
include hq he hr

theorem tksAgain_quiet : s.tksAgain i false = s.sendVia v { q.f with floor := s.tksFloor q.f.dst % 65536 } none := by
  unfold State.tksAgain
  rw [hq]
  refine (if_neg (by rw [he]; exact Bool.false_ne_true)).trans ?_
  rw [hr]
  rfl

theorem tksAgain_counted : s.tksAgain i true
    = (s.bump R.tksE2eResend 32 1).sendVia v { q.f with floor := (s.bump R.tksE2eResend 32 1).tksFloor q.f.dst % 65536 } none := by
  unfold State.tksAgain
  rw [hq]
  refine (if_neg (by rw [he]; exact Bool.false_ne_true)).trans ?_
  rw [hr]
  rfl

end

/-! ### TKS_PING -/

section
variable {m d t n : Nat}

theorem pingGo_lost (h : s.tksOn = false ∨ s.route d = none) : s.pingGo m d t n = refuse (s.hole ⟨.steward, 0⟩ 0 (d * 2 ^ 46)) dHole := by
  refine if_pos ?_
  rw [Bool.or_eq_true, Bool.not_eq_true', Option.isNone_iff_eq_none]
  exact h

section
variable (hn : s.tksOn = true) (hr : (s.route d).isSome = true)
include hn hr

theorem ping_reaches : ¬ (!s.tksOn || (s.route d).isNone) = true := by
  rw [hn, Option.isNone_eq_false_iff.2 hr]
  exact Bool.false_ne_true

theorem pingGo_full (h : 16384 < s.tksOut + n) : s.pingGo m d t n = .hold s := (if_neg (ping_reaches hn hr)).trans (if_pos (.inl h))

theorem pingGo_sends (ho : s.tksOut + n ≤ 16384) (ha : s.tksTrim.reqAge (s.tksTrim.tksFloor d) + n ≤ 32768) :
    s.pingGo m d t n = .wait ((List.range n).foldl (fun s i => (s.tksSend (.ping m i) (s.reqFrame d t 0x3E 0 0 0 0 0 [] false)).getD s)
      { s with pings := tput s.pings m (PingW.mk n []) }) :=
  (if_neg (ping_reaches hn hr)).trans (if_neg (not_or.2 ⟨Nat.not_lt.2 ho, Nat.not_lt.2 ha⟩))

end

end

end

/-- Settles O52. -/
theorem tukosenCommands : Obligations.TukosenCommands := by
  unfold Obligations.TukosenCommands
  refine ⟨?_, ?_, ?_, ?_, ?_, ?_, ?_, ?_, ?_, ?_, ?_⟩
  case refine_1 =>
    exact fun s r q v hq he hr => ⟨congrArg Host.Outcome.next (tksAgain_quiet hq he hr), congrArg Host.Outcome.next (tksAgain_counted hq he hr)⟩
  case refine_2 =>
    intro s r q hq
    refine congrArg Host.Outcome.next ?_
    rw [hq]
  case refine_3 => exact fun s n r => rfl
  case refine_4 => exact fun s q p u h hp => exec_done h (if_neg (Nat.not_le.2 hp)) rfl
  case refine_5 =>
    exact fun s q p l u h hp hl => ⟨u.freeBytes 128, freeBytes_length _ _, exec_done h (if_neg (by omega)) rfl⟩
  case refine_6 => exact fun s q p u h hp => exec_done h (if_neg (Nat.not_le.2 hp)) rfl
  case refine_7 => exact fun s q p hd u h hp => exec_done h (if_neg (Nat.not_le.2 hp)) rfl
  case refine_8 =>
    intro s q d u h hd
    refine (exec_begins h rfl).trans (congrArg (fun a => Host.Outcome.next (axTakeUp _ _ a)) (if_neg (Nat.not_le.2 hd))) |>.trans ?_
    cases u.route d with
    | none => rfl
    | some r => rfl
  case refine_9 =>
    intro s q d t n u h hd hown ht hn hn256
    have hin : ¬ (2 ^ 18 ≤ d ∨ d = u.ownDev ∨ 4 ≤ t ∨ n = 0 ∨ 256 < n) := by omega
    exact ⟨fun hl => exec_refuse h ((if_neg hin).trans (pingGo_lost hl)) rfl, fun hon hr hf => exec_hold h ((if_neg hin).trans (pingGo_full hon hr hf)) rfl,
      fun hon hr ho ha => exec_wait h ((if_neg hin).trans (pingGo_sends hon hr ho ha)) rfl⟩
  case refine_10 => exact fun s q p u h hp => exec_done h (if_neg (Nat.not_le.2 hp)) rfl
  case refine_11 =>
    intro s q p g u h hp hg
    constructor
    · intro hbad
      have hin : 8 ≤ p ∨ g.length ≠ 16 ∨ 8192 < g.foldl (· + ·) 0 ∨ g.any (· < 17) = true := by
        rcases hbad with hs | ⟨x, hx, hlt⟩
        · exact .inr (.inr (.inl hs))
        · exact .inr (.inr (.inr (List.any_eq_true.2 ⟨x, hx, decide_eq_true hlt⟩)))
      exact exec_fail h (if_pos hin) rfl
    · intro hsum hall
      have hany : g.any (· < 17) = false := List.any_eq_false.2 fun x hx => by rw [decide_eq_true_eq]; exact Nat.not_lt.2 (hall x hx)
      have hin : ¬ (8 ≤ p ∨ g.length ≠ 16 ∨ 8192 < g.foldl (· + ·) 0 ∨ g.any (· < 17) = true) := by
        rw [hany]
        simp only [Bool.false_eq_true, or_false]
        omega
      exact exec_done h (if_neg hin) rfl
end Sys2Proof.Machine
end

section
/-! Doorbells, management sessions and attestation (chapters 15 and 22). -/

namespace Sys2Proof.Machine

open Sys2Proof.Spec

/-! ### Doorbells (R350 to R352) -/

section
variable {s : State} {m : Nat}

theorem doorbell_rings {v : W32} (hm : m < 24) (hv : v.getLsbD 0 = true) :
    let b := mbxBase m
    s.doorbell m v = s.post m ⟨s.word b 2, BitVec.ofNat 32 (s.word (b + 8) 4), BitVec.ofNat 32 (s.word (b + 12) 4), nbit (s.word (b + 2) 2) 0⟩
      (s.word (b + 2) 2) (s.word (b + 4) 2) (s.word (b + 6) 2) :=
  if_neg (by rw [hv, decide_eq_false (Nat.not_le.2 hm)]; exact Bool.false_ne_true)

theorem doorbell_silent {v : W32} (hv : v.getLsbD 0 = false) : s.doorbell m v = s := if_pos (by rw [hv]; rfl)

section
variable {h : Hdr} {f l r : Nat} (hp : s.powered = true) (ha : s.asleep = false) (hd : s.drowsing = false)
include hp ha hd

theorem post_seen : ¬ (!s.powered || (s.asleep && decide (m < 24)) || (s.drowsing && decide (m < 16))) = true := by
  rw [hp, ha, hd]
  exact Bool.false_ne_true

theorem post_overruns (hs : mbxState s m = 1 ∨ mbxState s m = 2) : s.post m h f l r = s.bset (R.mbxStatus m) 29 true :=
  (if_neg (post_seen hp ha hd)).trans (if_pos hs)

theorem post_posts {u : State} (h1 : mbxState s m ≠ 1) (h2 : mbxState s m ≠ 2)
    (hu : (s.setBox m { (s.box m) with cur := some h, begun := false }).fset (R.mbxStatus m) 31 30 1 = u) (hr : u.bget R.stwStatus 31 = true)
    (hl : ∀ x, (u.box m).last = some x → x.same h = false) :
    s.post m h f l r = if headerCheck m h.cmd f l r ≠ 0 then u.axEnd m h (headerCheck m h.cmd f l r) 0 [] else u := by
  have hst : ¬ (s.fget (R.mbxStatus m) 31 30 = 1 ∨ s.fget (R.mbxStatus m) 31 30 = 2) := not_or.2 ⟨h1, h2⟩
  have hnew : ((u.box m).last.any fun x => x.same h) = false := by
    rcases hx : (u.box m).last with _ | x
    · rfl
    · exact hl x hx
  unfold State.post
  rw [if_neg (post_seen hp ha hd), if_neg hst, hu]
  dsimp only
  rw [if_neg (by rw [hr]; exact Bool.false_ne_true), if_neg (Bool.eq_false_iff.1 hnew)]

end

end

/-! ### Management sessions (R359, R360) -/

section
variable {s : State} {n c f l : Nat} {t q : W32} (hp : s.powered = true)
include hp

theorem mgmtMsg_rejected (h : s.sessOk n c = false) : s.mgmtMsg n c f l t q = s.bump R.mbxMgmtRejected 32 1 :=
  (if_neg (by rw [hp]; exact Bool.false_ne_true)).trans (if_pos (by rw [h]; rfl))

theorem mgmtMsg_posted {m : Nat} (h : s.sessOk n c = true) (hb : s.sessBox n = some m) :
    s.mgmtMsg n c f l t q = (if (s.box m).session = some n then s else s.setBox m { session := some n }).post m ⟨c, t, q, nbit f 0⟩ f l 0 := by
  refine (if_neg (by rw [hp]; exact Bool.false_ne_true)).trans ((if_neg (by rw [h]; exact Bool.false_ne_true)).trans ?_)
  rw [hb]

theorem mgmtMsg_busy (h : s.sessOk n c = true) (hb : s.sessBox n = none) : s.mgmtMsg n c f l t q = s.emit (.mgmt n ⟨c, t, q, nbit f 0⟩ 3 0 []) := by
  refine (if_neg (by rw [hp]; exact Bool.false_ne_true)).trans ((if_neg (by rw [h]; exact Bool.false_ne_true)).trans ?_)
  rw [hb]

end

theorem sessEnd_unbound {s : State} {n : Nat} (h : ∀ m, (s.box m).session ≠ some n) : s.sessEnd n = { s with sec := { s.sec with sess := tdel s.sec.sess n } } :=
  foldl_fixed fun m _ => if_neg (h m)

/-! ### SPDM (R483, R484) -/

section
variable {s : State} {p k : Nat} (hp : s.powered = true) (hr : s.bget R.stwStatus 31 = true)
include hp hr

theorem spdm_runs : ¬ (!s.powered || !s.bget R.stwStatus 31) = true := by
  rw [hp, hr]
  exact Bool.false_ne_true

theorem onSpdm_answers {f : State → State} (h : k ≤ (tgetD s.sec.conns p {}).stage) : s.onSpdm p k f = f s :=
  (if_neg (spdm_runs hp hr)).trans (if_neg (Nat.not_lt.2 h))

theorem onSpdm_early {f : State → State} (h : (tgetD s.sec.conns p {}).stage < k) : s.onSpdm p k f = s.spdm p 0x7F [0x04, 0] :=
  (if_neg (spdm_runs hp hr)).trans (if_pos h)

theorem onSess_finished {f : State → Sess → State} {n : Nat} {x : Sess} (h : (tgetD s.sec.conns p {}).stage = 3) (hx : tget s.sec.sess n = some x)
    (hport : x.port = p) (hrdy : x.ready = true) : s.onSess p n f = f s x := by
  refine (onSpdm_answers hp hr (Nat.le_of_eq h.symm)).trans ?_
  rw [hx]
  exact if_pos ⟨hport, hrdy⟩

end

section
variable {s : State} {p : Nat}

theorem onSess_early {f : State → Sess → State} {n : Nat} (hp : s.powered = true) (hr : s.bget R.stwStatus 31 = true) (h : (tgetD s.sec.conns p {}).stage < 3) :
    s.onSess p n f = s.spdm p 0x7F [0x04, 0] := onSpdm_early hp hr h

theorem onSess_unknown {f : State → Sess → State} {n : Nat} (hp : s.powered = true) (hr : s.bget R.stwStatus 31 = true) (h : (tgetD s.sec.conns p {}).stage = 3)
    (hx : tget s.sec.sess n = none) : s.onSess p n f = s.spdm p 0x7F [0x02, 0] := by
  refine (onSpdm_answers hp hr (Nat.le_of_eq h.symm)).trans ?_
  rw [hx]

end

/-- Settles O53. -/
theorem managementMessages : Obligations.ManagementMessages := by
  unfold Obligations.ManagementMessages
  refine ⟨?_, ?_, ?_, ?_, ?_, ?_⟩
  case refine_1 =>
    intro s m v hm hv hp ha hd hr b h u c
    have hm28 : decide (m < 28) = true := decide_eq_true (by omega)
    exact ⟨fun hs => run_eq hm28 ((doorbell_rings hm hv).trans (post_overruns hp ha hd hs)),
      fun h1 h2 hru hl => run_eq hm28 ((doorbell_rings hm hv).trans (post_posts hp ha hd h1 h2 rfl hru hl))⟩
  case refine_2 =>
    exact fun s m v hm hv => run_eq (decide_eq_true hm) (doorbell_silent hv)
  case refine_3 =>
    exact fun s n c f l t q hp => ⟨fun h => congrArg Host.Outcome.next (mgmtMsg_rejected hp h), fun m h hb => congrArg Host.Outcome.next (mgmtMsg_posted hp h hb),
      fun h hb => congrArg Host.Outcome.next (mgmtMsg_busy hp h hb)⟩
  case refine_4 =>
    exact fun s n h => congrArg Host.Outcome.next (sessEnd_unbound h)
  case refine_5 =>
    intro s p hp2 hp hr c no
    have h2 : decide (p < 2) = true := decide_eq_true hp2
    refine ⟨?_, ?_, ?_, ?_, ?_, ?_, fun hst => ?_⟩
    case refine_1 => exact run_eq h2 (onSpdm_answers hp hr (Nat.zero_le _))
    case refine_2 => exact fun k => run_eq h2 (onSpdm_answers hp hr (Nat.zero_le _))
    case refine_3 => exact fun h0 => run_eq h2 (onSpdm_early hp hr (Nat.lt_of_le_of_lt (Nat.le_of_eq h0) Nat.zero_lt_one))
    case refine_4 =>
      rintro h3 i (rfl | ⟨a, b, d, rfl⟩ | ⟨a, rfl⟩ | ⟨a, b, d, rfl⟩ | ⟨a, rfl⟩ | ⟨a, rfl⟩)
      · exact run_eq h2 (onSpdm_early hp hr h3)
      · exact run_eq h2 (onSpdm_early hp hr h3)
      · exact run_eq h2 (onSpdm_early hp hr h3)
      · exact run_eq h2 (onSpdm_early hp hr h3)
      · exact run_eq h2 (onSpdm_early hp hr h3)
      · exact run_eq h2 (onSess_early hp hr h3)
    case refine_5 => exact fun h1 => run_eq h2 (onSpdm_answers hp hr h1)
    case refine_6 =>
      intro a h2'
      refine (run_eq h2 (onSpdm_answers hp hr h2')).trans ?_
      split <;> rfl
    case refine_7 =>
      have h3 : 3 ≤ (tgetD s.sec.conns p {}).stage := Nat.le_of_eq hst.symm
      refine ⟨?_, ?_, ?_, ?_, ?_, ?_, ?_, ?_, ?_, ?_, ?_, ?_⟩
      case refine_1 => exact run_eq h2 (onSpdm_answers hp hr h3)
      case refine_2 =>
        intro a b l x hx hb y
        refine run_eq h2 ((onSpdm_answers hp hr h3).trans ?_)
        rw [hx]
        exact if_neg (Nat.not_lt.2 hb)
      case refine_3 =>
        intro a x hx hs
        refine ⟨s.freeBytes 32, freeBytes_length _ _, run_eq h2 ((onSpdm_answers hp hr h3).trans ?_)⟩
        rw [hx]
        exact if_neg (by rw [hs]; exact Bool.false_ne_true)
      case refine_4 =>
        intro a hs
        refine run_eq h2 ((onSpdm_answers hp hr h3).trans ?_)
        cases s.chainOf a with
        | none => rfl
        | some x => exact if_pos (by rw [hs]; rfl)
      case refine_5 =>
        intro i a g hg
        refine run_eq h2 ((onSpdm_answers hp hr h3).trans (if_neg ?_))
        rintro ⟨h1, hn⟩
        rw [hg h1] at hn
        exact Bool.false_ne_true hn
      case refine_6 => exact fun h l d => run_eq h2 (onSpdm_answers hp hr h3)
      case refine_7 =>
        intro h i y
        refine (run_eq h2 (onSpdm_answers hp hr h3)).trans ((congrArg Host.Outcome.next ite_isEmpty).trans ?_)
        exact apply_ite Host.Outcome.next _ _ _
      case refine_8 =>
        intro n hs hn
        refine ⟨s.freeBytes 96, freeBytes_length _ _, run_eq h2 ((onSpdm_answers hp hr h3).trans (if_neg ?_))⟩
        rw [hs, hn]
        exact Bool.false_ne_true
      case refine_9 =>
        intro n x d hx hport hrdy
        have hopen : ¬ (x.port ≠ p ∨ x.ready = true) := not_or.2 ⟨not_not.2 hport, by rw [hrdy]; exact Bool.false_ne_true⟩
        constructor
        · refine run_eq h2 ((onSpdm_answers hp hr h3).trans ?_)
          rw [hx]
          exact (if_neg hopen).trans (if_pos rfl)
        · refine run_eq h2 ((onSpdm_answers hp hr h3).trans ?_)
          rw [hx]
          exact (if_neg hopen).trans (if_neg Bool.false_ne_true)
      case refine_10 =>
        intro n hn
        refine ⟨run_eq h2 ((onSpdm_answers hp hr h3).trans (if_neg ?_)), run_eq h2 (onSess_unknown hp hr hst hn)⟩
        rw [hn]
        exact Bool.false_ne_true
      case refine_11 =>
        intro n x l hx
        refine ⟨run_eq h2 ((onSpdm_answers hp hr h3).trans (if_pos (by rw [hx]; rfl))), run_eq h2 ((onSpdm_answers hp hr h3).trans ?_)⟩
        rw [hx]
      case refine_12 =>
        intro n x hx hport hrdy
        refine ⟨run_eq h2 (onSess_finished hp hr hst hx hport hrdy), fun o h1 h3o => run_eq h2 ((onSess_finished hp hr hst hx hport hrdy).trans (if_neg (by omega))),
          run_eq h2 (onSess_finished hp hr hst hx hport hrdy), fun a k hk hs => run_eq h2 ((onSess_finished hp hr hst hx hport hrdy).trans ?_), fun a l h1 ha hl => ?_⟩
        · rw [hk]
          exact if_neg (by rw [hs]; exact Bool.false_ne_true)
        · refine (run_eq h2 (onSess_finished hp hr hst hx hport hrdy)).trans ?_
          cases hauth : x.auth with
          | true => exact congrArg Host.Outcome.next (if_neg (not_or.2 ⟨by omega, not_or.2 ⟨by omega, not_or.2 ⟨by omega, Bool.false_ne_true⟩⟩⟩))
          | false => exact congrArg Host.Outcome.next (if_pos (.inr (.inr (.inr rfl))))
  case refine_6 =>
    exact fun s p hp => run_eq (decide_eq_true hp) rfl
end Sys2Proof.Machine
end

section
/-! What security commands require, change, refuse and answer (chapter 22). -/

namespace Sys2Proof.Machine

open Sys2Proof.Spec

section
variable {u v : State}

/-! ### SEC_HANDOVER (R466) -/

section
variable {m : Nat} {c d : Bool} {p : Option Nat}

theorem handover_state (h : u.fget R.stwPstate 31 30 ≠ 0) : u.handover m c d p = refuse u dPowerState := if_pos h

theorem handover_busy (h : u.fget R.stwPstate 31 30 = 0)
    (hb : u.sec.burn.isSome ∨ u.sec.fwNow = true ∨ u.sec.hand.isSome ∨ u.runs m [0x0708, 0x8708, 0x070A, 0x870A] = true) : u.handover m c d p = busy u := by
  refine (if_neg (not_not.2 h)).trans (if_pos ?_)
  rw [Bool.or_eq_true, Bool.or_eq_true, Bool.or_eq_true, or_assoc, or_assoc]
  exact hb

theorem handover_idle (h : u.fget R.stwPstate 31 30 = 0) (hb : u.sec.burn = none) (hf : u.sec.fwNow = false) (hh : u.sec.hand = none)
    (hr : u.runs m [0x0708, 0x8708, 0x070A, 0x870A] = false) :
    ¬ u.fget R.stwPstate 31 30 ≠ 0 ∧ ¬ (u.sec.burn.isSome || u.sec.fwNow || u.sec.hand.isSome || u.runs m [0x0708, 0x8708, 0x070A, 0x870A]) = true := by
  refine ⟨not_not.2 h, ?_⟩
  rw [hb, hf, hh, hr]
  exact Bool.false_ne_true

end

/-! ### SEC_LC_TRANSITION (R474 to R476) -/

/-- The end of a transition whose bits are known: the token's answer, the supply, and the burn begun. -/
def State.lcBurn (s : State) (m target : Nat) (bits : List Nat) (ok : Bool) : AxR :=
  if !ok then refuse s dSigInvalid
  else if !s.burnOk then refuse s dSupplyLow
  else .wait { s with sec := { s.sec with burn := some { mbx := m, target := target, bits := bits } } }

theorem lcBurn_takeUp {q : Req} {t : Nat} {bs : List Nat} {ok : Bool} :
    (Host.Outcome.next (axTakeUp q.mbx (hdr q 0x0702) (u.lcBurn q.mbx t bs ok)) : Outc)
      = if ok = false then refused u q 0x0702 dSigInvalid
        else if u.burnOk then .next { u with sec := { u.sec with burn := some { mbx := q.mbx, target := t, bits := bs } } } else refused u q 0x0702 dSupplyLow := by
  unfold State.lcBurn
  cases ok with
  | false => rfl
  | true =>
    refine Eq.trans ?_ (if_neg (Ne.symm Bool.false_ne_true)).symm
    cases u.burnOk with
    | true => rfl
    | false => rfl

/-! ### SEC_EPOCH_ROTATE (R181) -/

theorem rotate_refuses (hh : u.sec.hand = none) (h : u.oldLive = true ∨ u.store.epochBad = true) : u.rotate = refuse u dState :=
  (if_neg (by rw [hh]; exact Bool.false_ne_true)).trans (if_pos (Bool.or_eq_true_iff.2 h))

theorem storeInit_fset {s : State} {x : Nat} : (s.fset R.ctxStoreStatus 23 16 x).storeInit = s.storeInit := bget_fset_off (by decide) (by decide) (by decide)

theorem rotate_done (hh : u.sec.hand = none) (ho : u.oldLive = false) (hb : u.store.epochBad = false)
    (hv : { u with keyCtr := u.keyCtr + 1, store := { u.store with curKey := u.keyCtr, oldKey := if u.storeInit then u.store.curKey else 0 } } = v) :
    let n := (u.curEpoch + 1) % 256
    let w := v.fset R.ctxStoreStatus 23 16 n
    u.rotate = .done (if u.storeInit then (w.fset R.ctxStoreStatus 15 8 u.curEpoch).bset R.ctxStoreStatus 30 true else w).measDone 0 (p32 n) := by
  intro n w
  have hi : w.storeInit = u.storeInit := by
    subst hv
    exact storeInit_fset
  unfold State.rotate
  rw [if_neg (by rw [hh]; exact Bool.false_ne_true), if_neg (by rw [ho, hb]; exact Bool.false_ne_true)]
  subst hv
  exact congrArg (fun b : Bool => AxR.done (if b then (w.fset R.ctxStoreStatus 15 8 u.curEpoch).bset R.ctxStoreStatus 30 true else w).measDone 0 (p32 n)) hi

end

/-! ### Writes of the persistent block (R442, R444) -/

theorem exec_persists {s u t : State} {q : Req} {cmd : Nat} {i : Instr} {body : State → AxR} {ws : List (Nat × W32)} {fin : PEnd} (h : Begins s q cmd u)
    (hb : body u = t.prbCmd q ws fin) (hx : exec i s = run (mbxOk q) (axotte s q cmd body)) : exec i s = persists t q cmd ws fin := by
  rw [exec_begins h hx, hb]
  unfold persists State.prbCmd
  cases ws.find? (fun p : Nat × W32 => t.worn p.1) with
  | some p => rfl
  | none =>
    cases hs : t.bget R.pwrSupplyStatus 31 with
    | false => rfl
    | true =>
      refine Eq.trans ?_ (if_neg (Ne.symm Bool.false_ne_true)).symm
      by_cases hn : 32 < t.prb.deferred.length + (ws.map fun p : Nat × W32 => PWrite.mk p.1 p.2 (some (q.mbx, q.tag, q.seq)) false).length
      · exact (congrArg (fun a => Host.Outcome.next (axTakeUp _ _ a)) ((if_pos rfl).trans (if_pos hn))).trans (if_pos hn).symm
      · exact (congrArg (fun a => Host.Outcome.next (axTakeUp _ _ a)) ((if_pos rfl).trans (if_neg hn))).trans (if_neg hn).symm

/-- Settles O54. -/
theorem securityCommands : Obligations.SecurityCommands := by
  unfold Obligations.SecurityCommands
  refine ⟨?_, ?_, ?_, ?_, ?_, ?_, ?_, ?_⟩
  case refine_1 =>
    rintro s q i cmd c d p u hi h
    have hbody : ∃ body, exec i s = run (mbxOk q) (axotte s q cmd body) ∧ ((∃ t, p = some t ∧ 0x10000 ≤ t) → body u = invalid u)
        ∧ ((∀ t, p = some t → t < 0x10000) → body u = u.handover q.mbx c d p) := by
      rcases hi with ⟨rfl, rfl, rfl, rfl, rfl⟩ | ⟨rfl, rfl⟩
      · exact ⟨_, rfl, fun ⟨t, ht, _⟩ => absurd ht.symm (Option.some_ne_none t), fun _ => rfl⟩
      · refine ⟨_, rfl, ?_, ?_⟩
        · rintro ⟨t, rfl, ht⟩
          exact if_pos ht
        · intro ht
          cases p with
          | none => rfl
          | some t => exact if_neg (Nat.not_le.2 (ht t rfl))
    obtain ⟨body, hx, hbad, hgo⟩ := hbody
    refine ⟨fun hp => exec_fail h (hbad hp) hx, fun hp => ⟨fun hs => exec_refuse h ((hgo hp).trans (handover_state hs)) hx,
      fun hs hb => exec_fail h ((hgo hp).trans (handover_busy hs hb)) hx, fun hs hb hf hh hr => exec_wait h ((hgo hp).trans ?_) hx⟩⟩
    obtain ⟨h1, h2⟩ := handover_idle hs hb hf hh hr
    exact (if_neg h1).trans (if_neg h2)
  case refine_2 =>
    intro s q t n k u h
    refine ⟨fun hbad => exec_fail h (if_pos (hbad.imp_left id)) rfl, fun ht hn hl hb hh => ?_⟩
    have hin : ¬ (3 < t ∨ n ≠ u.get R.hubIdModule) := not_or.2 ⟨Nat.not_lt.2 ht, not_not.2 hn⟩
    have hlock : ¬ u.bget R.secLcStatus 25 = true := by rw [hl]; exact Bool.false_ne_true
    have hidle : ¬ (u.sec.burn.isSome || u.sec.hand.isSome) = true := by rw [hb, hh]; exact Bool.false_ne_true
    refine ⟨fun hnone => ?_, fun bs hbs hst => ?_, fun bs hbs hst => ⟨fun v hv => ?_, fun hi hr => ?_, fun img v hv => ?_⟩⟩
    · refine exec_refuse h ((if_neg hin).trans ((if_neg hlock).trans ((if_neg hidle).trans ?_))) rfl
      rw [hnone]
    · refine Eq.trans ((exec_begins h rfl).trans (congrArg (fun a => Host.Outcome.next (axTakeUp _ _ a))
        ((if_neg hin).trans ((if_neg hlock).trans ((if_neg hidle).trans ?_))))) ((lcBurn_takeUp (ok := true)).trans (if_neg (Ne.symm Bool.false_ne_true)))
      rw [hbs]
      exact if_pos hst
    · refine exec_refuse h ((if_neg hin).trans ((if_neg hlock).trans ((if_neg hidle).trans ?_))) rfl
      rw [hbs]
      exact (if_neg (not_not.2 hst)).trans (withImage_hole hv)
    · refine exec_hold h ((if_neg hin).trans ((if_neg hlock).trans ((if_neg hidle).trans ?_))) rfl
      rw [hbs]
      exact (if_neg (not_not.2 hst)).trans (withImage_awaits hi hr)
    · refine Eq.trans ((exec_begins h rfl).trans (congrArg (fun a => Host.Outcome.next (axTakeUp _ _ a))
        ((if_neg hin).trans ((if_neg hlock).trans ((if_neg hidle).trans ?_))))) lcBurn_takeUp
      rw [hbs]
      exact (if_neg (not_not.2 hst)).trans (withImage_read hv)
  case refine_3 =>
    intro s q k x u h
    split
    next hk => exact exec_fail h (if_pos hk) rfl
    next hk =>
      split
      next hs => exact exec_refuse h ((if_neg hk).trans (if_pos hs)) rfl
      next hs => exact exec_done h ((if_neg hk).trans (if_neg hs)) rfl
  case refine_4 =>
    refine fun s q u h hh => ⟨fun ho => exec_refuse h (rotate_refuses hh ho) rfl, fun ho hb => ?_⟩
    intro n v w
    exact exec_done h (rotate_done (v := v) hh ho hb rfl) rfl
  case refine_5 =>
    intro s q d u h
    split
    next hd => exact exec_fail h (if_pos hd) rfl
    next hd =>
      split
      next ht => exact exec_refuse h ((if_neg hd).trans (if_pos ht)) rfl
      next ht => exact exec_persists h ((if_neg hd).trans (if_neg ht)) rfl
  case refine_6 =>
    intro s q d u h
    split
    next hd => exact exec_fail h (if_pos hd) rfl
    next hd =>
      split
      next ht => exact exec_refuse h ((if_neg hd).trans (if_pos ht)) rfl
      next ht => exact exec_persists h ((if_neg hd).trans (if_neg ht)) rfl
  case refine_7 =>
    intro s q k u h
    refine ⟨fun hs => exec_refuse h (if_pos hs) rfl, fun hs => ⟨fun v hv => ?_, fun hi hr => ?_, fun img v hv => ?_⟩⟩
    · refine exec_refuse h ((if_neg hs).trans ?_) rfl
      exact withImage_hole hv
    · refine exec_hold h ((if_neg hs).trans ?_) rfl
      exact withImage_awaits hi hr
    rcases hc : v.tokenScope img with _ | c
    · refine exec_refuse h ((if_neg hs).trans ?_) rfl
      refine (withImage_read hv).trans ?_
      dsimp only [Option.bind_some]
      rw [hc]
      rfl
    · refine exec_done h ((if_neg hs).trans ?_) rfl
      refine (withImage_read hv).trans ?_
      dsimp only [Option.bind_some]
      rw [hc]
      rfl
  case refine_8 => exact fun s q u h => exec_done h rfl rfl
end Sys2Proof.Machine
end

section
/-! Images, trust items and routing entries (chapter 22). -/

namespace Sys2Proof.Machine

open Sys2Proof.Spec

/-! ### What a command that reads an image leaves of the security state -/

section
variable {s t : State}

/-- The security state after a choice between two states with the same one. -/
theorem ite_sec {c : Prop} [Decidable c] {a b : State} {x : Sec} (ha : a.sec = x) (hb : b.sec = x) : (if c then a else b).sec = x := by
  split
  · exact ha
  · exact hb

theorem foldl_sec {α : Type} {f : State → α → State} (h : ∀ s x, (f s x).sec = s.sec) (l : List α) (s : State) : (l.foldl f s).sec = s.sec := by
  induction l generalizing s with
  | nil => rfl
  | cons a l ih => rw [List.foldl_cons, ih, h]

theorem hole_sec {m : Master} {c g : Nat} : (s.hole m c g).sec = s.sec := by
  unfold State.hole
  exact ite_sec (set_sec ..) ((msix_blind sec_blind ..).trans ((set_sec ..).trans (set_sec ..)))

theorem modSend_sec {k : Nat} (h : s.modSend k = some t) : t.sec = s.sec := by
  unfold State.modSend at h
  dsimp only at h
  split at h
  · cases h
  · split at h
    · cases h
    · split at h
      · cases h
      · cases h; rfl

theorem modPumpGo_sec {k n : Nat} : (s.modPumpGo k n).sec = s.sec := by
  induction n generalizing s with
  | zero => rfl
  | succ n ih =>
    unfold State.modPumpGo
    refine ite_sec rfl ?_
    split
    · rfl
    · next t h => rw [ih, modSend_sec h]

theorem siteSend_sec {n m pool : Nat} {o : Out} : (s.siteSend n m pool o).sec = s.sec := by
  unfold State.siteSend
  exact ite_sec rfl modPumpGo_sec

theorem siteAsk_sec {why : Purp} {k : ReqK} {a n tc : Nat} {bs : List Byte} {b : Bool} {p z : Nat} : (s.siteAsk why k a n tc bs b p z).sec = s.sec := by
  unfold State.siteAsk
  exact ite_sec siteSend_sec (siteSend_sec.trans siteSend_sec)

theorem oweCells_sec {b : Option (Nat × Nat × Nat)} : (s.oweCells b).sec = s.sec := by
  unfold State.oweCells
  cases b <;> rfl

theorem sendOne_sec {p i : Nat} {e : TxE} : (s.sendOne p i e).sec = s.sec := by
  unfold State.sendOne
  exact oweCells_sec.trans rfl

theorem pumpGo_sec {p n : Nat} : (s.pumpGo p n).sec = s.sec := by
  induction n generalizing s with
  | zero => rfl
  | succ n ih =>
    unfold State.pumpGo
    refine ite_sec rfl ?_
    split
    · rfl
    · rw [ih]
      exact sendOne_sec

theorem tksAsk_sec {why : Purp} {f : Frame} {i : W32} (h : s.tksAsk why f = .sent i t) : t.sec = s.sec := by
  unfold State.tksAsk at h
  dsimp only at h
  split at h
  · cases h
  · split at h
    · cases h
    · split at h
      · cases h
      · cases h
        exact pumpGo_sec

theorem hostAsk_sec {why : Purp} {k : ReqK} {a n : Nat} {bs : List Byte} : (s.hostAsk why k a n bs).sec = s.sec := rfl

theorem farAsk_sec {g n tc : Nat} : (s.farAsk g n tc).sec = s.sec := by
  unfold State.farAsk
  refine ite_sec ?_ (foldl_sec (fun s p => ?_) _ _)
  · split
    · exact foldl_sec (fun _ _ => hostAsk_sec) _ _
    · exact foldl_sec (fun _ _ => siteAsk_sec) _ _
    · rfl
  · dsimp only
    split
    next t h => exact tksAsk_sec h
    next h => rfl
    next h => rfl

end

section
variable {s u v : State} {g : W64} {n : Nat}

theorem imageHole_sec (h : ImageHole u g n v) : v.sec = u.sec := by
  obtain ⟨-, rfl⟩ := h
  exact hole_sec

theorem imageAt_sec {img : List Byte} (h : ImageAt u g n img v) : v.sec = u.sec := by
  obtain ⟨-, -, -, rfl⟩ := h
  exact ite_sec rfl rfl

/-! ### SEC_FW_UPDATE (R482) -/

/-- A firmware update runs as another command does, but for one that restarts the steward at once. -/
theorem exec_fwUpdate {q : Req} {i : Instr} {cmd : Nat} {now : Bool}
    (hi : (i = .secFwUpdate q g n ∧ cmd = 0x0708 ∧ now = false) ∨ (i = .secFwUpdateExpert q g n now ∧ cmd = 0x8708 ∧ s.sec.fwNow = false))
    (h : Begins s q cmd u) {r : AxR} (hb : u.fwUpdate g n now = r) (hs : (axTakeUp q.mbx (hdr q cmd) r).sec = u.sec) :
    exec i s = .next (axTakeUp q.mbx (hdr q cmd) r) := by
  subst hb
  rcases hi with ⟨rfl, rfl, rfl⟩ | ⟨rfl, rfl, hf⟩
  · exact exec_begins (body := fun s => s.fwUpdate g n false) h rfl
  · obtain ⟨ht, rfl⟩ := h
    have hax : axotte s q 0x8708 (fun s => s.fwUpdate g n now) = axTakeUp q.mbx (hdr q 0x8708) ((begun s q 0x8708).fwUpdate g n now) := axotte_takes _ ht
    have hno : (axTakeUp q.mbx (hdr q 0x8708) ((begun s q 0x8708).fwUpdate g n now)).sec.fwNow = false := by rw [hs, begun_sec, hf]
    have hm : mbxOk q = true := by
      obtain ⟨-, ⟨hm, -⟩, -⟩ := ht
      exact decide_eq_true hm
    refine run_eq hm ?_
    rw [hax]
    exact if_neg (by rw [hno]; exact Bool.false_ne_true)

section
variable {q : Req} {i : Instr} {cmd : Nat} {now : Bool} {img : List Byte} {b : Nat}

theorem exec_fwUpdate_refuse
    (hi : (i = .secFwUpdate q g n ∧ cmd = 0x0708 ∧ now = false) ∨ (i = .secFwUpdateExpert q g n now ∧ cmd = 0x8708 ∧ s.sec.fwNow = false))
    (h : Begins s q cmd u) {d : Nat} (hb : u.fwUpdate g n now = refuse v d) (hs : v.sec = u.sec) : exec i s = refused v q cmd d :=
  exec_fwUpdate hi h hb ((axEndR_sec ..).trans hs)

theorem fwUpdate_headless (hv : ImageAt u g n img v) (hb : imgHeader img 0x46564C46 n = none) : u.fwUpdate g n now = refuse v dBadHeader := by
  refine (withImage_read hv).trans ?_
  dsimp only
  rw [hb]

theorem fwUpdate_reserved (hv : ImageAt u g n img v) (hb : imgHeader img 0x46564C46 n = some b) (hr : svcReserved img = false ∨ 255 < imgU img 0x14 4) :
    u.fwUpdate g n now = refuse v dBadHeader := by
  refine (withImage_read hv).trans ?_
  dsimp only
  rw [hb]
  refine if_pos (Bool.or_eq_true_iff.2 (hr.imp (fun h => ?_) decide_eq_true))
  rw [h]
  rfl

/-- What is left to check when the header of an update is sound. -/
theorem fwUpdate_sound (hv : ImageAt u g n img v) (hb : imgHeader img 0x46564C46 n = some b) (hr : svcReserved img = true) (hn : imgU img 0x14 4 ≤ 255)
    (hbad : imgDigestOk img b = false ∨ imgU img 0x14 4 < v.fget R.secFwStatus 23 16) :
    u.fwUpdate g n now = refuse v (if imgDigestOk img b then dSigInvalid else dDigest) := by
  refine (withImage_read hv).trans ?_
  dsimp only
  rw [hb]
  refine (if_neg (Bool.eq_false_iff.1 (Bool.or_eq_false_iff.2 ⟨by rw [hr]; rfl, decide_eq_false (Nat.not_lt.2 hn)⟩))).trans ?_
  cases hd : imgDigestOk img b with
  | false => exact if_pos rfl
  | true => exact (if_neg Bool.false_ne_true).trans (if_pos (Bool.or_eq_true_iff.2 (Or.inr (decide_eq_true (hbad.resolve_left (by rw [hd]; exact (Ne.symm Bool.false_ne_true)))))))

end

/-! ### SEC_LIBRARY_LOAD (R484) -/

section
variable {img : List Byte} {base : Option Nat}

theorem libLoad_image (hh : u.sec.hand = none) (hv : ImageAt u g n img v)
    (hbad : svcReserved img = false ∨ imgZero img 0x14 8 = false ∨ (v.imgVerify img 0x5242494C n 2).2 ≠ 0) :
    u.libLoad g n base = refuse v (if svcReserved img && imgZero img 0x14 8 then (v.imgVerify img 0x5242494C n 2).2 else dBadHeader) := by
  refine (if_neg (by rw [hh]; exact Bool.false_ne_true)).trans ((withImage_read hv).trans ?_)
  dsimp only
  generalize (v.imgVerify img 0x5242494C n 2).2 = e at *
  cases hr : (svcReserved img && imgZero img 0x14 8) with
  | true =>
    obtain ⟨h1, h2⟩ := Bool.and_eq_true_iff.1 hr
    rw [h1, h2] at hbad
    have he : e ≠ 0 := by simpa using hbad
    rw [h1, h2]
    exact (if_neg (fun h => absurd h.2.2 Bool.false_ne_true)).trans (if_pos he)
  | false =>
    have hno : (!svcReserved img || !imgZero img 0x14 8) = true := by rw [← Bool.not_and, hr]; rfl
    rw [hno]
    by_cases h0 : e = 0
    · exact (if_neg (fun h => h.1 h0)).trans ((if_neg (not_not.2 h0)).trans (if_pos rfl))
    · by_cases h1 : e = dBadHeader
      · rw [h1]
        exact (if_neg (fun h => h.2.1 rfl)).trans (if_pos (by decide))
      · exact if_pos ⟨h0, h1, rfl⟩

end

/-- Settles O55. -/
theorem securityImages : Obligations.SecurityImages := by
  unfold Obligations.SecurityImages
  refine ⟨?_, ?_, ?_, ?_⟩
  case refine_1 =>
    intro s q g n now i cmd u hi h
    refine ⟨fun v hv => exec_fwUpdate_refuse hi h (withImage_hole hv) (imageHole_sec hv),
      fun hh hr => exec_fwUpdate hi h (withImage_awaits hh hr) ((setBox_sec ..).trans farAsk_sec), fun img v hv => ?_⟩
    have hs := imageAt_sec hv
    refine ⟨fun hb => exec_fwUpdate_refuse hi h (fwUpdate_headless hv hb) hs, fun b hb hr => exec_fwUpdate_refuse hi h (fwUpdate_reserved hv hb hr) hs,
      fun b hb hr hn hd => exec_fwUpdate_refuse hi h ((fwUpdate_sound hv hb hr hn (Or.inl hd)).trans ?_) hs,
      fun b hb hr hn hd hlt => exec_fwUpdate_refuse hi h ((fwUpdate_sound hv hb hr hn (Or.inr hlt)).trans ?_) hs⟩
    · rw [hd]; rfl
    · rw [hd]; rfl
  case refine_2 =>
    intro s q g n i cmd base u hi h hh
    have hbody : exec i s = run (mbxOk q) (axotte s q cmd fun u => u.libLoad g n base) := by
      rcases hi with ⟨rfl, rfl, rfl⟩ | ⟨b, rfl, rfl, rfl⟩ <;> rfl
    have hfree : ¬ u.sec.hand.isSome = true := by rw [hh]; exact Bool.false_ne_true
    refine ⟨fun v hv => exec_refuse h ((if_neg hfree).trans (withImage_hole hv)) hbody,
      fun ho hr => exec_hold h ((if_neg hfree).trans (withImage_awaits ho hr)) hbody, fun img v hv => ⟨fun hr => ?_, fun hr hz he => ?_⟩⟩
    · refine exec_refuse h ((libLoad_image hh hv (hr.imp_right Or.inl)).trans (congrArg (refuse v) (if_neg ?_))) hbody
      exact Bool.eq_false_iff.1 (Bool.and_eq_false_iff.2 hr)
    · exact exec_refuse h ((libLoad_image hh hv (Or.inr (Or.inr he))).trans (congrArg (refuse v) (if_pos (Bool.and_eq_true_iff.2 ⟨hr, hz⟩)))) hbody
  case refine_3 =>
    intro s q it pr u h v auth first
    refine ⟨fun hw => exec_fail h ?_ rfl, fun ws hw ha hf => exec_fail h ?_ rfl, fun ws hw ha => exec_persists h ?_ rfl⟩
    · dsimp only
      rw [hw]
      rfl
    · dsimp only
      rw [hw]
      refine if_pos (Bool.and_eq_true_iff.2 ⟨?_, ?_⟩)
      · exact congrArg not ha
      · exact congrArg not hf
    · dsimp only
      rw [hw]
      refine if_neg (Bool.eq_false_iff.1 (Bool.and_eq_false_iff.2 (ha.imp ?_ ?_)))
      · exact congrArg not
      · exact congrArg not
  case refine_4 =>
    intro s q t f es u h ht hne hf he
    refine exec_persists h (if_neg ?_) rfl
    rintro (hb | hb | hb | hb)
    · exact absurd hb (Nat.not_lt.2 ht)
    · exact hne (List.isEmpty_iff.1 hb)
    · exact absurd hb (Nat.not_lt.2 hf)
    · obtain ⟨e, hm, hx⟩ := List.any_eq_true.1 hb
      obtain ⟨h1, h2⟩ := he e hm
      rw [h1, h2] at hx
      exact absurd hx (by decide)

end
end Sys2Proof.Machine
end

section
/-! Safety conditions and their reactions (chapter 21). -/

namespace Sys2Proof.Machine

open Sys2Proof.Spec

/-! ### Sensors and coolant -/

section
variable {s : State} {b i : Nat} {t : Int}

theorem sensor_broken (h : t < -20 ∨ 150 < t) : s.sensor b i t = (s.fset (R.pwrBenchTemp b) (8 * i + 7) (8 * i) (min 255 t.toNat)).benchCool b 9 i false := if_pos h

/-- A sound reading moves the run of hot readings, and the fifth of them cools the bench. -/
theorem sensor_sound (h1 : -20 ≤ t) (h2 : t ≤ 150) {n : Nat} (hn : (if 105 ≤ t then tgetD s.saf.hotRun (2 * b + i) 0 + 1 else 0) = n) :
    let u := s.fset (R.pwrBenchTemp b) (8 * i + 7) (8 * i) (min 255 t.toNat)
    let v := { u with saf := { u.saf with hotRun := tset u.saf.hotRun (2 * b + i) 0 (min n 5) } }
    s.sensor b i t = if 5 ≤ n then v.benchCool b 3 i false else v := by
  subst hn
  exact if_neg (by omega)

theorem flow_early (h : s.stepDoneB 3 = false) {l : Bool} : s.flow l = s := if_pos (by rw [h]; rfl)

theorem flow_ok (h : s.stepDoneB 3 = true) : s.flow true = { s with saf := { s.saf with flowLow := 0 } }.bset R.safStatus 31 true :=
  (if_neg (by rw [h]; exact Bool.false_ne_true)).trans (if_neg fun hn => absurd (show 0 = 50 from hn.1) (by decide))

/-- The fiftieth low sample in a row acts, once. -/
theorem flow_lost (h : s.stepDoneB 3 = true) (hn : s.saf.flowLow = 49) (hc : s.bget R.safStatus 30 = false) {u : State}
    (hu : { s with saf := { s.saf with flowLow := 50 } }.bset R.safStatus 31 false = u) :
    s.flow false = if s.bget R.safStatus 29 then u.armAt 93 4 0 else (u.detect 4 93 0 false).deviceCool := by
  have hoff (i : Nat) (hi : i ≠ 31) : u.bget R.safStatus i = s.bget R.safStatus i := by
    rw [← hu, bget_bset_off (by decide) hi]
    rfl
  unfold State.flow
  rw [if_neg (by rw [h]; exact Bool.false_ne_true), if_neg Bool.false_ne_true, hn]
  dsimp only
  rw [← hoff 29 (by decide)]
  subst hu
  exact if_pos ⟨rfl, congrArg not ((hoff 30 (by decide)).trans hc)⟩

end

/-! ### The watchdog -/

section
variable {s : State} {t i m : Nat}

theorem watchdog_idle {k : Nat} (hk : k < 3)
    (h : if k = 0 then s.seqStuck t = false ∨ s.wdogRuns (t / 32) m = false else if k = 1 then tget (s.tile t).dma i = none ∨ s.wdogRuns (t / 32) m = false
      else tget s.lanes (8 * t + i) = none) : s.watchdog k t i m = s := by
  match k with
  | 0 => exact if_neg (Bool.eq_false_iff.1 (Bool.and_eq_false_iff.2 h))
  | 1 => exact if_neg (Bool.eq_false_iff.1 (Bool.and_eq_false_iff.2 (h.imp_left fun h => by rw [h]; rfl)))
  | 2 =>
    have hl : tget s.lanes (8 * t + i) = none := h
    unfold State.watchdog
    rw [hl]
    rfl
  | k + 3 => exact absurd hk (by omega)

theorem exec_watchdog {k : Nat} (hk : k < 4) (ht : t < [2176, 2176, 64, 68].getD k 0) (hi : i < 8) :
    exec (.watchdogExpiry k t i m) s = .next (s.watchdog k t i m) :=
  run_of (by rw [both_lt hk ht, decide_eq_true hi]; rfl)

end

/-! ### DIAG_FAULT_INJECT (R465) -/

/-- How many units a fault of the code has, and which may take it. -/
def injTop (code : Nat) : Nat := if code = 3 then 68 else 2176
def State.injOk (s : State) (code u : Nat) : Bool :=
  if code = 3 then s.injBench u else if code = 8 then s.injTile u && (List.range 2176).any fun v => v != u && s.injTile v else s.injTile u

section
variable {s : State} {c x m : Nat} {o : Option Nat}

theorem injOk_tile (h3 : c ≠ 3) (h : s.injTile x = false) : s.injOk c x = false := by
  unfold State.injOk
  rw [if_neg h3, h]
  exact ite_self false

theorem injOk_pair {y : Nat} (hx : s.injTile x = true) (hy : s.injTile y = true) (hlt : y < 2176) (hne : x ≠ y) : s.injOk 8 x = true := by
  refine Bool.and_eq_true_iff.2 ⟨hx, List.any_eq_true.2 ⟨y, List.mem_range.2 hlt, ?_⟩⟩
  rw [hy, bne_iff_ne.2 hne.symm]
  rfl

/-- A fault goes to the unit named, and to the lowest that may take it where none is named. -/
theorem injectCmd_done (hc : c ∈ [3, 5, 6, 7, 8]) (hx : x < injTop c) (hok : s.injOk c x = true) (ho : o = some x ∨ o = none ∧ ∀ y, y < x → s.injOk c y = false) :
    s.injectCmd m c o = .done ({ s with freeCtr := s.freeCtr + 8 }.inject c x) 0 (p32 1 ++ s.freeBytes 8) := by
  have h2 : c ≠ 2 := by rintro rfl; exact absurd hc (by decide)
  refine (if_neg h2).trans ((if_neg (by rw [List.contains_iff_mem.2 hc]; exact Bool.false_ne_true)).trans ?_)
  rcases ho with rfl | ⟨rfl, hlow⟩
  · refine (if_neg fun h => absurd (of_decide_eq_true (show decide (injTop c ≤ x) = true from h)) (Nat.not_le.2 hx)).trans ?_
    have hif : (if s.injOk c x = true then some x else none) = some x := if_pos hok
    unfold State.injOk at hif
    dsimp only
    rw [hif]
  · refine (if_neg Bool.false_ne_true).trans ?_
    have hfind : (List.range (injTop c)).find? (s.injOk c) = some x :=
      List.find?_range_eq_some.2 ⟨hok, List.mem_range.2 hx, fun y hy => by rw [hlow y hy]; rfl⟩
    unfold State.injOk injTop at hfind
    dsimp only
    rw [hfind]

theorem injectCmd_refuses (hc : c ∈ [3, 5, 6, 7, 8]) (hin : ∀ n, o = some n → n < injTop c) (hno : ∀ x, s.injOk c x = false) : s.injectCmd m c o = refuse s dState := by
  have h2 : c ≠ 2 := by rintro rfl; exact absurd hc (by decide)
  refine (if_neg h2).trans ((if_neg (by rw [List.contains_iff_mem.2 hc]; exact Bool.false_ne_true)).trans ?_)
  cases o with
  | some n =>
    refine (if_neg fun h => absurd (of_decide_eq_true (show decide (injTop c ≤ n) = true from h)) (Nat.not_le.2 (hin n rfl))).trans ?_
    have hif : (if s.injOk c n = true then some n else none) = none := if_neg (by rw [hno n]; exact Bool.false_ne_true)
    unfold State.injOk at hif
    dsimp only
    rw [hif]
  | none =>
    refine (if_neg Bool.false_ne_true).trans ?_
    have hfind : (List.range (injTop c)).find? (s.injOk c) = none := List.find?_range_eq_none.2 fun y _ => by rw [hno y]; rfl
    unfold State.injOk injTop at hfind
    dsimp only
    rw [hfind]

end

/-- Settles O56. -/
theorem safetyReactions : Obligations.SafetyReactions := by
  unfold Obligations.SafetyReactions
  refine ⟨fun s => ⟨?_, ?_, rfl, ?_, ?_, ?_, ?_, ?_, ?_, ?_, ?_, ?_, ?_, ?_, ?_, ?_, ?_, ?_, ?_⟩, ?_, ?_⟩
  case refine_1 => exact fun n hp hs => congrArg Host.Outcome.next (if_pos (Bool.and_eq_true_iff.2 ⟨hp, hs⟩))
  case refine_2 => exact fun n h => congrArg Host.Outcome.next (if_neg (Bool.eq_false_iff.1 (Bool.and_eq_false_iff.2 h)))
  case refine_3 => exact fun hp hs => congrArg Host.Outcome.next (if_pos (Bool.and_eq_true_iff.2 ⟨hp, hs⟩))
  case refine_4 => exact fun b x y hb hu => run_eq (decide_eq_true hb) (if_pos hu)
  case refine_5 => exact fun b x y hb hu => run_eq (decide_eq_true hb) (if_neg (by rw [hu]; exact Bool.false_ne_true))
  case refine_6 => exact fun b i t h => sensor_broken h
  case refine_7 =>
    intro b i t h1 h2 hr
    exact (sensor_sound (n := 5) (by omega) h2 (by rw [if_pos h1, hr])).trans (if_pos (Nat.le_refl 5))
  case refine_8 =>
    intro b i t h1 h2
    exact (sensor_sound (n := 0) h1 (by omega) (if_neg (by omega))).trans (if_neg (by decide))
  case refine_9 => exact fun b i hb hi => run_of (both_lt hb hi)
  case refine_10 =>
    intro b m hb
    refine run_eq (decide_eq_true hb) ?_
    simp only [Bool.and_eq_true, Bool.not_eq_true', decide_eq_true_eq, and_assoc]
  case refine_11 => exact fun h l => congrArg Host.Outcome.next (flow_early h)
  case refine_12 => exact fun h => congrArg Host.Outcome.next (flow_ok h)
  case refine_13 =>
    intro h hn hc u
    exact congrArg Host.Outcome.next (flow_lost (u := u) h hn hc rfl)
  case refine_14 =>
    intro t i m ht hi hs hw
    refine (exec_watchdog (by decide) ht hi).trans (congrArg Host.Outcome.next ?_)
    exact if_pos (Bool.and_eq_true_iff.2 ⟨hs, hw⟩)
  case refine_15 =>
    intro t i m ht hi hs hw
    refine (exec_watchdog (by decide) ht hi).trans (congrArg Host.Outcome.next ?_)
    exact if_pos (Bool.and_eq_true_iff.2 ⟨hs, hw⟩)
  case refine_16 =>
    intro n i m l hn hi hl hne hw
    refine (exec_watchdog (by decide) hn hi).trans (congrArg Host.Outcome.next ?_)
    unfold State.watchdog
    rw [hl]
    exact if_pos ⟨hne, hw⟩
  case refine_17 =>
    intro b i m hb hi hw
    refine (exec_watchdog (by decide) hb hi).trans (congrArg Host.Outcome.next ?_)
    exact if_pos hw
  case refine_18 =>
    intro k u i m hk hu hi h
    refine (exec_watchdog (by omega) ?_ hi).trans (congrArg Host.Outcome.next (watchdog_idle hk h))
    match k, hk with
    | 0, _ => exact hu
    | 1, _ => exact hu
    | 2, _ => exact hu
  case refine_19 => exact fun s q u h => exec_done h rfl rfl
  case refine_20 =>
    intro s q c i cmd o u hi h
    have hbody : exec i s = run (mbxOk q) (axotte s q cmd fun u => u.injectCmd q.mbx c o) := by
      rcases hi with ⟨rfl, rfl, rfl⟩ | ⟨n, rfl, rfl, rfl⟩ <;> rfl
    refine ⟨?_, ?_, ?_, ?_, ?_, ?_⟩
    · rintro rfl hm
      exact exec_wait h ((if_pos rfl).trans (if_neg (Nat.not_lt.2 hm))) hbody
    · rintro (⟨rfl, hm⟩ | hc)
      · exact exec_fail h ((if_pos rfl).trans (if_pos hm)) hbody
      · refine exec_fail h ((if_neg ?_).trans (if_pos ?_)) hbody
        · rintro rfl
          exact hc (by decide)
        · have hno : [3, 5, 6, 7, 8].contains c = false := Bool.eq_false_iff.2 fun hin => hc (List.mem_cons_of_mem 2 (List.contains_iff_mem.1 hin))
          rw [hno]
          rfl
    · intro x hx hc hok ho
      have h3 : c ≠ 3 := by omega
      have h8 : c ≠ 8 := by omega
      have hlow : o = some x ∨ o = none ∧ ∀ y, y < x → u.injOk c y = false := ho.imp_right (And.imp_right fun hl y hy => injOk_tile h3 (hl y hy))
      refine exec_done h (injectCmd_done ?_ ?_ ?_ hlow) hbody
      · rcases hc with rfl | rfl | rfl <;> decide
      · exact hx.trans_eq (if_neg h3).symm
      · exact ((if_neg h3).trans (if_neg h8)).trans hok
    · rintro x hx rfl hok ho
      exact exec_done h (injectCmd_done (by decide) (show x < injTop 3 from hx) (show u.injOk 3 x = true from hok) ho) hbody
    · rintro x y hx hy hne rfl hox hoy ho
      exact exec_done h (injectCmd_done (by decide) hx (injOk_pair hox hoy hy hne) (ho.imp_right (And.imp_right fun hl z hz => injOk_tile (by decide) (hl z hz)))) hbody
    · intro hc hin hno
      have h3 : c ≠ 3 := by omega
      refine exec_refuse h (injectCmd_refuses ?_ (fun n hn => (hin n hn).trans_eq (if_neg h3).symm) fun x => injOk_tile h3 (hno x)) hbody
      rcases hc with rfl | rfl | rfl | rfl <;> decide
end Sys2Proof.Machine
end

section
/-! Operations of the service cores (R363 to R366). -/

namespace Sys2Proof.Machine

open Sys2Proof.Spec

section
variable {s u t : State} {c : Nat} {i : Instr} {eff : State → State}

theorem exec_fsig {a b : W64} : exec (.fsig c a b) s = coreCmd c s fun s =>
    if 8191 < a.toNat then s.coreIll c
    else if (s.core c).stores = 0 then s.syncAdd a.toNat b false
    else s.modCore c fun x => { x with sigq := x.sigq ++ [(a.toNat, b)] } := rfl

theorem exec_fwait {r : Nat} {a b : W64} : exec (.fwait c r a b) s = coreCmd c s fun s =>
    if 8191 < a.toNat then s.coreIll c
    else if b.toNat ≤ (s.get (R.syncCount a.toNat)).toNat then s.modCore c fun x => x.setX r (s.get (R.syncCount a.toNat))
    else s.modCore c fun x => { x with wait := some (a.toNat, b, r) } := rfl

theorem exec_firqRead {r : Nat} : exec (.firqRead c r) s = coreCmd c s fun s => s.firqPop c r := rfl

theorem exec_svcCoreAccess {r n : Nat} {p : W64} {o : AccessOp} {l : Bool} : exec (.svcCoreAccess c r p n o l) s = coreCmd c s fun s =>
    (s.coreAccess c r p (if accWrites o then (accBytes o).length else n) o l).accPump := rfl

theorem core_stopped (hc : c < 16) (h : s.coreRuns c = false) (hx : exec i s = coreCmd c s eff) : exec i s = .next s :=
  hx.trans (run_eq (decide_eq_true hc) (if_neg (by rw [h]; exact Bool.false_ne_true)))

/-- An operation of a core that executes clears the wait that was open, then does its own. -/
theorem core_runs (hc : c < 16) (h : s.coreRuns c = true) (hu : (s.modCore c fun x => { x with wait := none }) = u) (hx : exec i s = coreCmd c s eff) :
    exec i s = .next (eff u) := by
  rw [hx, ← hu]
  exact run_eq (decide_eq_true hc) (if_pos h)

/-! ### Uncached accesses of a core -/

variable {r n g : Nat} {p : W64} {o : AccessOp} {l : Bool}

theorem coreAccess_outside (hg : u.coreG c p = none) : u.coreAccess c r p n o l = u.modCore c fun x => x.trap (if accCode o = 0 then 5 else 7) p := by
  unfold State.coreAccess
  rw [hg]

theorem coreAccess_private_store (hg : u.coreG c p = some g) (hp : u.inPrivate g n = true) (ho : accWrites o = true) (hl : l = false) : u.coreAccess c r p n o l = u := by
  unfold State.coreAccess
  rw [hg]
  exact (if_pos hp).trans (if_pos (by rw [ho, hl]; rfl))

theorem coreAccess_private_other (hg : u.coreG c p = some g) (hp : u.inPrivate g n = true) (ho : accWrites o = false ∨ l = true) :
    u.coreAccess c r p n o l = u.drew.modCore c fun x => x.setX (r % 32) u.free := by
  unfold State.coreAccess
  rw [hg]
  exact (if_pos hp).trans (if_neg (Bool.eq_false_iff.1 (Bool.and_eq_false_iff.2 (ho.imp_right (congrArg not)))))

theorem coreAccess_reserved (hg : u.coreG c p = some g) (hp : u.inPrivate g n = false) :
    u.coreAccess c r p n o true = u.modCore c fun x => x.trap (if accCode o = 0 then 5 else 7) p := by
  unfold State.coreAccess
  rw [hg]
  exact (if_neg (by rw [hp]; exact Bool.false_ne_true)).trans (if_pos rfl)

/-- A plain access outside the range of the service complex goes to the memory system, a store counted first. -/
theorem coreAccess_goes (hg : u.coreG c p = some g) (hp : u.inPrivate g n = false) (ht : (if accWrites o then u.modCore c fun x => { x with stores := x.stores + 1 } else u) = t) :
    u.coreAccess c r p n o false = t.access ⟨.core, c⟩ (.core c r) g n ((t.core c).ftcls % 4) o false := by
  subst ht
  unfold State.coreAccess
  rw [hg]
  exact (if_neg (by rw [hp]; exact Bool.false_ne_true)).trans (if_neg Bool.false_ne_true)

end

/-- Settles O57. -/
theorem serviceCores : Obligations.ServiceCores := by
  unfold Obligations.ServiceCores
  intro s c hc u
  have hu : (s.modCore c fun x => { x with wait := none }) = u := rfl
  clear_value u
  refine ⟨?_, fun h => ⟨?_, ?_, ?_, ?_, ?_, ?_, ?_, ?_, ?_, ?_, ?_⟩⟩
  case refine_1 =>
    rintro i (⟨a, b, rfl⟩ | ⟨r, a, b, rfl⟩ | ⟨r, rfl⟩ | ⟨r, p, n, o, l, rfl⟩) h
    · exact core_stopped hc h exec_fsig
    · exact core_stopped hc h exec_fwait
    · exact core_stopped hc h exec_firqRead
    · exact core_stopped hc h exec_svcCoreAccess
  case refine_2 => exact fun a b ha => (core_runs hc h hu exec_fsig).trans (congrArg Host.Outcome.next (if_pos ha))
  case refine_3 => exact fun a b ha hs => (core_runs hc h hu exec_fsig).trans (congrArg Host.Outcome.next ((if_neg (Nat.not_lt.2 ha)).trans (if_pos hs)))
  case refine_4 => exact fun a b ha hs => (core_runs hc h hu exec_fsig).trans (congrArg Host.Outcome.next ((if_neg (Nat.not_lt.2 ha)).trans (if_neg hs)))
  case refine_5 => exact fun r a b ha => (core_runs hc h hu exec_fwait).trans (congrArg Host.Outcome.next (if_pos ha))
  case refine_6 => exact fun r a b ha hb => (core_runs hc h hu exec_fwait).trans (congrArg Host.Outcome.next ((if_neg (Nat.not_lt.2 ha)).trans (if_pos hb)))
  case refine_7 => exact fun r a b ha hb => (core_runs hc h hu exec_fwait).trans (congrArg Host.Outcome.next ((if_neg (Nat.not_lt.2 ha)).trans (if_neg (Nat.not_le.2 hb))))
  case refine_8 =>
    intro r hq
    refine (core_runs hc h hu exec_firqRead).trans (congrArg Host.Outcome.next ?_)
    unfold State.firqPop
    rw [hq]
  case refine_9 =>
    intro r v l hq
    refine (core_runs hc h hu exec_firqRead).trans (congrArg Host.Outcome.next ?_)
    unfold State.firqPop
    rw [hq]
  case refine_10 => exact fun r p n o l hg => (core_runs hc h hu exec_svcCoreAccess).trans (congrArg (fun t : State => Host.Outcome.next t.accPump) (coreAccess_outside hg))
  case refine_11 =>
    intro r p n o g w hg hp
    refine ⟨(core_runs hc h hu exec_svcCoreAccess).trans (congrArg (fun t : State => Host.Outcome.next t.accPump) (coreAccess_reserved hg hp)), fun ho => ?_, fun ho => ?_⟩
    · exact (core_runs hc h hu exec_svcCoreAccess).trans (congrArg (fun t : State => Host.Outcome.next t.accPump) (coreAccess_goes hg hp (if_neg (by rw [ho]; exact Bool.false_ne_true))))
    · exact (core_runs hc h hu exec_svcCoreAccess).trans (congrArg (fun t : State => Host.Outcome.next t.accPump) (coreAccess_goes hg hp (if_pos ho)))
  case refine_12 =>
    intro r p n o g l hg hp
    exact ⟨fun ho hl => (core_runs hc h hu exec_svcCoreAccess).trans (congrArg (fun t : State => Host.Outcome.next t.accPump) (coreAccess_private_store hg hp ho hl)),
      fun ho => (core_runs hc h hu exec_svcCoreAccess).trans (congrArg (fun t : State => Host.Outcome.next t.accPump) (coreAccess_private_other hg hp ho))⟩
end Sys2Proof.Machine
end

section
/-! Firmware, queues and status of the service complex (chapter 16). -/

namespace Sys2Proof.Machine

open Sys2Proof.Spec

/-! ### SVC_FW_LOAD (R367) -/

/-- The state after a service image whose body lies at an offset of the service complex's range, its bytes poisoned where the image read in error. -/
def State.svcLoaded (s : State) (img : List Byte) (body : Nat) (bad : Bool) : State :=
  let t := (s.engWrite ⟨.steward, 0⟩ (2 ^ 40) (s.svc.base + imgU img 0x14 4) 1 ((img.drop 0x100).take body) bad).1
  ({ t with svc := { t.svc with loaded := true, fwId := BitVec.ofNat 64 (imgU img 0x20 8), digest := BitVec.ofNat 512 (imgU img 0x30 64), entry := imgU img 0x18 4 } }).measCommit

section
variable {u v : State} {g : W64} {n : Nat} {img : List Byte}

theorem svcLoad_state (h : u.coresRun ≠ [] ∨ u.svc.size = 0) : u.svcLoad g n = refuse u dState :=
  if_pos (h.imp_left fun h => by rw [List.isEmpty_eq_false_iff.2 h]; rfl)

theorem svcLoad_able (hc : u.coresRun = []) (hz : u.svc.size ≠ 0) : ¬ ((!u.coresRun.isEmpty) = true ∨ u.svc.size = 0) := by
  rw [hc]
  exact not_or.2 ⟨Bool.false_ne_true, hz⟩

/-- What becomes of a service image that is read. -/
theorem svcLoad_image (hc : u.coresRun = []) (hz : u.svc.size ≠ 0) (hv : ImageAt u g n img v) :
    u.svcLoad g n
      = if (v.imgVerify img 0x46435653 n 1).2 = dBadHeader ∨ svcReserved img = false ∨ imgU img 0x14 4 % 4096 ≠ 0
          ∨ v.svc.size < imgU img 0x14 4 + ((v.imgVerify img 0x46435653 n 1).1 - 0x100) ∨ v.svc.size ≤ imgU img 0x18 4 then refuse v dBadHeader
        else if (v.imgVerify img 0x46435653 n 1).2 ≠ 0 then refuse v (v.imgVerify img 0x46435653 n 1).2
        else .done (v.svcLoaded img ((v.imgVerify img 0x46435653 n 1).1 - 0x100) (u.imgBad g n)) 0
          (p64 (imgU img 0x20 8) ++ leBytes 64 (BitVec.ofNat 512 (imgU img 0x30 64)).toNat) := by
  refine (if_neg (svcLoad_able hc hz)).trans ((withImage_read hv).trans ?_)
  exact if_congr (or_congr_right (or_congr_left (iff_of_eq (Bool.not_eq_true' _)))) rfl rfl

end

/-! ### SVC_START (R368) -/

section
variable {u : State} {b n : Nat} {a : W64} {cs : List (Nat × Nat)}

theorem svcStart_invalid
    (h : b % 0x10000 ≠ 0 ∨ n % 0x10000 ≠ 0 ∨ n < 0x4000000 ∨ u.hbmBacked b = false ∨ u.hbmBacked (b + n - 1) = false ∨ (b < u.store.rBase + u.store.rLen ∧ u.store.rBase < b + n)) :
    u.svcStart b n a cs = invalid u := by
  rw [← Bool.not_eq_true', ← Bool.not_eq_true'] at h
  exact if_pos h

theorem svcStart_range (hb : b % 0x10000 = 0) (hn : n % 0x10000 = 0) (hs : 0x4000000 ≤ n) (h1 : u.hbmBacked b = true) (h2 : u.hbmBacked (b + n - 1) = true)
    (hr : u.store.rBase + u.store.rLen ≤ b ∨ b + n ≤ u.store.rBase) :
    ¬ (b % 0x10000 ≠ 0 ∨ n % 0x10000 ≠ 0 ∨ n < 0x4000000 ∨ (!u.hbmBacked b) = true ∨ (!u.hbmBacked (b + n - 1)) = true
      ∨ (b < u.store.rBase + u.store.rLen ∧ u.store.rBase < b + n)) := by
  rw [h1, h2]
  rintro (h | h | h | h | h | h)
  · exact h hb
  · exact h hn
  · exact absurd h (Nat.not_lt.2 hs)
  · exact Bool.false_ne_true h
  · exact Bool.false_ne_true h
  · omega

theorem svcStart_state (hp : u.coresRun ≠ [] ∨ (u.svc.loaded = true ∧ (u.svc.base ≠ b ∨ u.svc.size ≠ n))) :
    (!u.coresRun.isEmpty) = true ∨ (u.svc.loaded = true ∧ (u.svc.base ≠ b ∨ u.svc.size ≠ n)) :=
  hp.imp_left fun h => by rw [List.isEmpty_eq_false_iff.2 h]; rfl

theorem svcStart_able (hc : u.coresRun = []) (hl : u.svc.loaded = true → u.svc.base = b ∧ u.svc.size = n) :
    ¬ ((!u.coresRun.isEmpty) = true ∨ (u.svc.loaded = true ∧ (u.svc.base ≠ b ∨ u.svc.size ≠ n))) := by
  rw [hc]
  rintro (h | ⟨h, hne⟩)
  · exact Bool.false_ne_true h
  · obtain ⟨h1, h2⟩ := hl h
    exact hne.elim (absurd h1) (absurd h2)

end

/-! ### SVC_QUEUE_SET (R370) -/

section
variable {u : State} {k b n o w : Nat} {es : List (Nat × W64)} {v : W64}

theorem queueSet_unsized (h : iqWord b n o w = none) : u.queueSet k b n o w es = invalid u := by
  unfold State.queueSet
  rw [h]

theorem queueSet_takeUp {m : Nat} {hd : Hdr} (h : iqWord b n o w = some v) (hk : k < 256) (he : ∀ e, e ∈ es → e.1 < 16 ∧ fld e.2 59 56 ≤ 12) {r : Option State}
    (hr : ((u.iqSet k v).bind fun t => es.foldlM (fun (x : State) (e : Nat × W64) => x.eqSet e.1 e.2) t) = r) :
    axTakeUp m hd (u.queueSet k b n o w es) = r.elim (u.axEnd m hd stRefused dState []) fun t => t.axEnd m hd stDone 0 [] := by
  have hin : ¬ (256 ≤ k ∨ es.any (fun e => decide (16 ≤ e.1) || decide (12 < fld e.2 59 56)) = true) := by
    refine not_or.2 ⟨Nat.not_le.2 hk, fun h => ?_⟩
    obtain ⟨e, hm, hx⟩ := List.any_eq_true.1 h
    obtain ⟨h1, h2⟩ := he e hm
    rw [decide_eq_false (Nat.not_le.2 h1), decide_eq_false (Nat.not_lt.2 h2)] at hx
    exact Bool.false_ne_true hx
  unfold State.queueSet
  rw [h]
  dsimp only
  rw [if_neg hin, hr]
  cases r <;> rfl

end

/-- Settles O58. -/
theorem serviceCommands : Obligations.ServiceCommands := by
  unfold Obligations.ServiceCommands
  refine ⟨?_, ?_, fun s q u h => exec_done h rfl rfl, ?_, fun s q u h => exec_done h rfl rfl⟩
  case refine_1 =>
    refine fun s q g n u h => ⟨fun hb => exec_refuse h (svcLoad_state hb) rfl, fun hc hz => ⟨fun v hv => ?_, fun hh hr => ?_, fun img v hv => ?_⟩⟩
    · exact exec_refuse h ((if_neg (svcLoad_able hc hz)).trans (withImage_hole hv)) rfl
    · exact exec_hold h ((if_neg (svcLoad_able hc hz)).trans (withImage_awaits hh hr)) rfl
    · intro b e off
      refine ⟨fun hbad => exec_refuse h ((svcLoad_image hc hz hv).trans (if_pos hbad)) rfl,
        fun he hr ho hs hn h0 => exec_refuse h ((svcLoad_image hc hz hv).trans ((if_neg ?_).trans (if_pos h0))) rfl⟩
      rw [hr]
      rintro (hx | hx | hx | hx | hx)
      · exact he hx
      · exact Bool.false_ne_true hx.symm
      · exact hx ho
      · exact absurd hx (Nat.not_lt.2 hs)
      · exact absurd hx (Nat.not_le.2 hn)
  case refine_2 =>
    intro s q i cmd b n a cs u hi h
    have hbody : ∃ body, exec i s = run (mbxOk q) (axotte s q cmd body) ∧ body u = u.svcStart b n a cs := by
      rcases hi with ⟨rfl, rfl, rfl⟩ | ⟨m, es, rfl, rfl, hm, hl, he, rfl⟩
      · exact ⟨_, rfl, rfl⟩
      · refine ⟨_, rfl, if_neg ?_⟩
        rintro (hx | hx | hx)
        · exact absurd hx (Nat.not_le.2 hm)
        · exact hx hl
        · obtain ⟨e, hmem, hx⟩ := List.any_eq_true.1 hx
          exact absurd (of_decide_eq_true hx) (Nat.not_le.2 (he e hmem))
    obtain ⟨body, hx, hgo⟩ := hbody
    refine ⟨fun hbad => exec_fail h (hgo.trans (svcStart_invalid hbad)) hx, fun hb hn hs h1 h2 hr => ⟨fun hp => ?_, fun hc hl => ?_⟩⟩
    · exact exec_refuse h (hgo.trans ((if_neg (svcStart_range hb hn hs h1 h2 hr)).trans (if_pos (svcStart_state hp)))) hx
    · intro t
      cases hd : u.domUp 89 with
      | true => exact exec_done h (hgo.trans ((if_neg (svcStart_range hb hn hs h1 h2 hr)).trans ((if_neg (svcStart_able hc hl)).trans (if_neg (by rw [hd]; exact Bool.false_ne_true))))) hx
      | false => exact exec_refuse h (hgo.trans ((if_neg (svcStart_range hb hn hs h1 h2 hr)).trans ((if_neg (svcStart_able hc hl)).trans (if_pos (by rw [hd]; rfl))))) hx
  case refine_3 =>
    intro s q i cmd k b n o w es u hi h
    have hbody : exec i s = run (mbxOk q) (axotte s q cmd fun u => u.queueSet k b n o w es) := by
      rcases hi with ⟨rfl, rfl, rfl, rfl⟩ | ⟨rfl, rfl⟩ <;> rfl
    refine ⟨fun hw => exec_fail h (queueSet_unsized hw) hbody, fun v hw hk he => ?_⟩
    refine (exec_begins h hbody).trans ((congrArg Host.Outcome.next (queueSet_takeUp hw hk he rfl)).trans ?_)
    cases (u.iqSet k v).bind fun t => es.foldlM (fun (x : State) (e : Nat × W64) => x.eqSet e.1 e.2) t <;> rfl
end Sys2Proof.Machine
end

section
/-! Egress descriptors and the serving profile (R372 to R375). -/

namespace Sys2Proof.Machine

open Sys2Proof.Spec

/-! ### Egress (R372) -/

section
variable {s : State} {e : Nat}

theorem egressSend_idle (h : s.powered = false ∨ s.bget (R.svcEqCfg e) 63 = false ∨ tgetD s.svc.sent e 0 = (s.get (R.svcEqTail e)).toNat) : s.egressSend e = s := by
  refine if_pos ?_
  rcases h with h | h | h
  · rw [h]; rfl
  · rw [h, Bool.not_false, Bool.or_true]; rfl
  · rw [h, beq_self_eq_true, Bool.or_true]

theorem egress_due (hp : s.powered = true) (hc : s.bget (R.svcEqCfg e) 63 = true) (hi : tgetD s.svc.sent e 0 ≠ (s.get (R.svcEqTail e)).toNat) :
    ¬ (!s.powered || !s.bget (R.svcEqCfg e) 63 || tgetD s.svc.sent e 0 == (s.get (R.svcEqTail e)).toNat) = true := by
  rw [hp, hc, beq_eq_false_iff_ne.2 hi]
  exact Bool.false_ne_true

/-- The descriptor that is due is read, asked for, or found missing. -/
theorem egressSend_due (hd : ¬ (!s.powered || !s.bget (R.svcEqCfg e) 63 || tgetD s.svc.sent e 0 == (s.get (R.svcEqTail e)).toNat) = true) {a : Nat}
    (ha : s.gOwn (s.eqAddr e (tgetD s.svc.sent e 0)) = a) {r : List Byte × Bool × State} (hr : s.gRead svcHub a 32 1 = r) :
    s.egressSend e = if s.gHole a 32 then s.hole svcHub 0 a else if !s.gReady svcHub a 32 then s.gAsk svcHub a 32 1
      else r.2.2.egressGo e (tgetD s.svc.sent e 0) (egDesc r.1) r.2.1 := by
  unfold State.egressSend
  dsimp only
  rw [if_neg hd, ha, hr]

theorem exec_egressSend (he : e < 16) {t : State} (h : s.egressSend e = t) : exec (.egressSend e) s = .next t.cohTail :=
  run_eq (decide_eq_true he) (congrArg State.cohTail h)

section
variable {i a : Nat}

theorem exec_egressSend_due (he : e < 16) (hp : s.powered = true) (hc : s.bget (R.svcEqCfg e) 63 = true) (hi : i = tgetD s.svc.sent e 0)
    (hne : i ≠ (s.get (R.svcEqTail e)).toNat) (ha : s.gOwn (s.eqAddr e i) = a) {r : List Byte × Bool × State} (hr : s.gRead svcHub a 32 1 = r) :
    exec (.egressSend e) s = .next (if s.gHole a 32 then s.hole svcHub 0 a else if !s.gReady svcHub a 32 then s.gAsk svcHub a 32 1
      else r.2.2.egressGo e i (egDesc r.1) r.2.1).cohTail := by
  subst hi
  exact exec_egressSend he (egressSend_due (egress_due hp hc hne) ha hr)

theorem exec_egressSend_hole (he : e < 16) (hp : s.powered = true) (hc : s.bget (R.svcEqCfg e) 63 = true) (hi : i = tgetD s.svc.sent e 0)
    (hne : i ≠ (s.get (R.svcEqTail e)).toNat) (ha : s.gOwn (s.eqAddr e i) = a) (hh : s.gHole a 32 = true) : exec (.egressSend e) s = .next (s.hole svcHub 0 a).cohTail := by
  rw [exec_egressSend_due he hp hc hi hne ha rfl, if_pos hh]

theorem exec_egressSend_asks (he : e < 16) (hp : s.powered = true) (hc : s.bget (R.svcEqCfg e) 63 = true) (hi : i = tgetD s.svc.sent e 0)
    (hne : i ≠ (s.get (R.svcEqTail e)).toNat) (ha : s.gOwn (s.eqAddr e i) = a) (hh : s.gHole a 32 = false) (hr : s.gReady svcHub a 32 = false) :
    exec (.egressSend e) s = .next (s.gAsk svcHub a 32 1).cohTail := by
  rw [exec_egressSend_due he hp hc hi hne ha rfl, if_neg (by rw [hh]; exact Bool.false_ne_true), if_pos (by rw [hr]; rfl)]

theorem exec_egressSend_goes (he : e < 16) (hp : s.powered = true) (hc : s.bget (R.svcEqCfg e) 63 = true) (hi : i = tgetD s.svc.sent e 0)
    (hne : i ≠ (s.get (R.svcEqTail e)).toNat) (ha : s.gOwn (s.eqAddr e i) = a) (hh : s.gHole a 32 = false) (hr : s.gReady svcHub a 32 = true)
    {r : List Byte × Bool × State} (hx : s.gRead svcHub a 32 1 = r) : exec (.egressSend e) s = .next (r.2.2.egressGo e i (egDesc r.1) r.2.1).cohTail := by
  rw [exec_egressSend_due he hp hc hi hne ha hx, if_neg (by rw [hh]; exact Bool.false_ne_true), if_neg (by rw [hr]; exact Bool.false_ne_true)]

end

end

/-! ### The serving profile (R373, R374) -/

section
variable {s : State} {r : SvReq}

theorem svAdmit_idle (h : s.serving = false) : s.svAdmit r = s := if_pos (by rw [h]; rfl)

theorem svAdmit_malformed (h : s.serving = true) (hr : r.prompt = [] ∨ 1024 < r.topK ∨ r.maxNew = 0 ∨ 4 ≤ r.tc) : s.svAdmit r = s.svReply r 5 0 [] :=
  (if_neg (by rw [h]; exact Bool.false_ne_true)).trans (if_pos (hr.imp_left List.isEmpty_iff.2))

theorem svAdmit_formed (hp : r.prompt ≠ []) (hk : r.topK ≤ 1024) (hn : r.maxNew ≠ 0) (ht : r.tc < 4) :
    ¬ (r.prompt.isEmpty = true ∨ 1024 < r.topK ∨ r.maxNew = 0 ∨ 4 ≤ r.tc) := by
  rintro (h | h | h | h)
  · exact hp (List.isEmpty_iff.1 h)
  · exact absurd h (Nat.not_lt.2 hk)
  · exact hn h
  · exact absurd h (Nat.not_le.2 ht)

theorem svAdmit_waits (h : s.serving = true) (hr : ¬ (r.prompt.isEmpty = true ∨ 1024 < r.topK ∨ r.maxNew = 0 ∨ 4 ≤ r.tc))
    (hf : ∀ i, i < s.man 40 2 → (tget s.svc.ents i).isSome) :
    s.svAdmit r = { s with svc := { s.svc with waitQ := (s.svc.waitQ.filter fun x : SvReq => x.id != r.id) ++ [r] } } := by
  have hnone : ((List.range (s.man 40 2)).find? fun i => (tget s.svc.ents i).isNone) = none :=
    List.find?_range_eq_none.2 fun i hi => by rw [← Option.not_isSome, hf i hi]; rfl
  refine (if_neg (by rw [h]; exact Bool.false_ne_true)).trans ((if_neg hr).trans ?_)
  rw [hnone]

/-- A request with room takes the lowest free entry, and waits where its pages have none. -/
theorem svAdmit_enters (h : s.serving = true) (hr : ¬ (r.prompt.isEmpty = true ∨ 1024 < r.topK ∨ r.maxNew = 0 ∨ 4 ≤ r.tc)) {i : Nat}
    (hi : i < s.man 40 2) (hfree : tget s.svc.ents i = none) (hlow : ∀ j, j < i → (tget s.svc.ents j).isSome) :
    s.svAdmit r = if s.svRoom r then
        { s with svc := { s.svc with waitQ := s.svc.waitQ.filter fun x : SvReq => x.id != r.id, ents := tput s.svc.ents i { r := r, seq := (s.man 36 4 + i) % 2 ^ 24 } } }.svOpen
          ((s.man 36 4 + i) % 2 ^ 24)
      else { s with svc := { s.svc with waitQ := (s.svc.waitQ.filter fun x : SvReq => x.id != r.id) ++ [r] } } := by
  have hsome : ((List.range (s.man 40 2)).find? fun i => (tget s.svc.ents i).isNone) = some i :=
    List.find?_range_eq_some.2 ⟨by rw [hfree]; rfl, List.mem_range.2 hi, fun j hj => by rw [← Option.not_isSome, hlow j hj]; rfl⟩
  refine (if_neg (by rw [h]; exact Bool.false_ne_true)).trans ((if_neg hr).trans ?_)
  rw [hsome]

theorem svStep_idle (h : s.serving = false ∨ s.svc.ents = []) : s.svStep = s := by
  refine if_pos ?_
  rcases h with h | h
  · rw [h]; rfl
  · rw [h]; exact Bool.or_true _

theorem svStep_due (h : s.serving = true) (he : s.svc.ents ≠ []) : ¬ (!s.serving || s.svc.ents.isEmpty) = true := by
  rw [h, List.isEmpty_eq_false_iff.2 he]
  exact Bool.false_ne_true

theorem svStep_killed (h : s.serving = true) (he : s.svc.ents ≠ []) (hk : s.bget (R.xltCtx (s.man 44 2 % 4096)) 62 = true) :
    s.svStep = (s.svc.ents.foldl (fun (x : State) (e : Nat × SvEnt) => x.svReply e.2.r 4 (e.2.r.prompt.length + e.2.gen - e.2.toks.length) e.2.toks)
      { s with svc := { s.svc with ents := [], going := false } }).svReload :=
  (if_neg (svStep_due h he)).trans (if_pos hk)

theorem svStep_begins (h : s.serving = true) (he : s.svc.ents ≠ []) (hk : s.bget (R.xltCtx (s.man 44 2 % 4096)) 62 = false) (hg : s.svc.going = false) : s.svStep = s.svBegin :=
  (if_neg (svStep_due h he)).trans ((if_neg (by rw [hk]; exact Bool.false_ne_true)).trans (if_neg (by rw [hg]; exact Bool.false_ne_true)))

theorem svStep_runs (h : s.serving = true) (he : s.svc.ents ≠ []) (hk : s.bget (R.xltCtx (s.man 44 2 % 4096)) 62 = false) (hg : s.svc.going = true)
    (hd : (s.get (R.syncCount (s.man 66 2 % 8192))).toNat < s.svc.step) : s.svStep = s :=
  (if_neg (svStep_due h he)).trans ((if_neg (by rw [hk]; exact Bool.false_ne_true)).trans ((if_pos hg).trans (if_pos hd)))

end

/-- Settles O59. -/
theorem egressAndServing : Obligations.EgressAndServing := by
  unfold Obligations.EgressAndServing
  refine fun s => ⟨?_, ?_, ?_, ?_, ?_, ?_, ?_, ?_, ?_⟩
  case refine_1 => exact fun e v he hp hb => run_eq (decide_eq_true he) (if_pos (Bool.and_eq_true_iff.2 ⟨hp, hb⟩))
  case refine_2 => exact fun e he h => exec_egressSend he (egressSend_idle h)
  case refine_3 =>
    intro e i he hp hc hs hi a
    exact ⟨fun hh => exec_egressSend_hole he hp hc hs hi rfl hh, fun hh hr => exec_egressSend_asks he hp hc hs hi rfl hh hr, fun hh hr => exec_egressSend_goes he hp hc hs hi rfl hh hr rfl⟩
  case refine_4 => exact fun r h => congrArg (fun t : State => Host.Outcome.next t.accPump) (svAdmit_idle h)
  case refine_5 => exact fun r h hr => congrArg (fun t : State => Host.Outcome.next t.accPump) (svAdmit_malformed h hr)
  case refine_6 =>
    intro r h hp hk hn ht rest put
    have hr := svAdmit_formed hp hk hn ht
    exact ⟨fun hf => congrArg (fun t : State => Host.Outcome.next t.accPump) (svAdmit_waits h hr hf),
      fun i hi hfree hlow => congrArg (fun t : State => Host.Outcome.next t.accPump) (svAdmit_enters h hr hi hfree hlow)⟩
  case refine_7 =>
    intro id hw
    refine congrArg Host.Outcome.next ?_
    rw [hw]
  case refine_8 =>
    intro id r hw h
    refine congrArg Host.Outcome.next ?_
    rw [hw]
    exact if_pos h
  case refine_9 =>
    intro w
    refine ⟨fun h => ?_, fun h he hk => ?_, fun h he hk => ⟨fun hg => ?_, fun hg hd => ?_⟩⟩
    · exact congrArg (fun t : State => Host.Outcome.next t.cohTail) (svStep_idle h)
    · exact congrArg (fun t : State => Host.Outcome.next t.cohTail) (svStep_killed h he hk)
    · exact congrArg (fun t : State => Host.Outcome.next t.cohTail) (svStep_begins h he hk hg)
    · exact congrArg (fun t : State => Host.Outcome.next t.cohTail) (svStep_runs h he hk hg hd)
end Sys2Proof.Machine
end

section
/-! Commands that read an image or a token, and the claims, releases and wake-ups of sync objects, each to its end. -/

namespace Sys2Proof.Machine

open Sys2Proof.Spec

section
variable {m : Nat} {h : Hdr} {a b : AxR} {x y : Outc}

/-- What becomes of a request whose result is chosen by a check. -/
theorem next_ite {c d : Prop} [Decidable c] [Decidable d] (hc : c ↔ d) (ha : Host.Outcome.next (axTakeUp m h a) = x) (hb : Host.Outcome.next (axTakeUp m h b) = y) :
    Host.Outcome.next (axTakeUp m h (if c then a else b)) = if d then x else y := by
  by_cases hd : d
  · rw [if_pos hd, if_pos (hc.2 hd), ha]
  · rw [if_neg hd, if_neg (fun h => hd (hc.1 h)), hb]

theorem next_elim {o : Option Nat} {f : Nat → AxR} {F : Nat → Outc} (ha : Host.Outcome.next (axTakeUp m h a) = x)
    (hf : ∀ b, Host.Outcome.next (axTakeUp m h (f b)) = F b) : Host.Outcome.next (axTakeUp m h (o.elim a f)) = match o with | none => x | some b => F b := by
  cases o with
  | none => exact ha
  | some b => exact hf b

theorem not_true_iff_false {b : Bool} : (!b) = true ↔ b = false := iff_of_eq (Bool.not_eq_true' b)

end

/-! ### SEC_FW_UPDATE (R482) -/

section
variable {s u v : State} {q : Req} {i : Instr} {cmd : Nat} {g : W64} {n : Nat} {now : Bool} {img : List Byte} {b : Nat}

/-- An update that restarts the steward at once does so after its response. -/
theorem exec_fwUpdate_end
    (hi : (i = .secFwUpdate q g n ∧ cmd = 0x0708 ∧ now = false) ∨ (i = .secFwUpdateExpert q g n now ∧ cmd = 0x8708 ∧ s.sec.fwNow = false))
    (h : Begins s q cmd u) {w : State} (hw : axTakeUp q.mbx (hdr q cmd) (u.fwUpdate g n now) = w) (hs : w.sec.fwNow = (now || u.sec.fwNow)) :
    exec i s = .next (if now then w.lockstep 10000000 false else w) := by
  subst hw
  rcases hi with ⟨rfl, rfl, rfl⟩ | ⟨rfl, rfl, hf⟩
  · exact (exec_begins (body := fun s => s.fwUpdate g n false) h rfl).trans (congrArg Host.Outcome.next (if_neg Bool.false_ne_true).symm)
  · obtain ⟨ht, rfl⟩ := h
    have hax : axotte s q 0x8708 (fun s => s.fwUpdate g n now) = axTakeUp q.mbx (hdr q 0x8708) ((begun s q 0x8708).fwUpdate g n now) := axotte_takes _ ht
    have hm : mbxOk q = true := by
      obtain ⟨-, ⟨hm, -⟩, -⟩ := ht
      exact decide_eq_true hm
    rw [begun_sec, hf, Bool.or_false] at hs
    refine run_eq hm ?_
    rw [hax]
    dsimp only
    rw [hs, hf, Bool.not_false, Bool.and_true]

/-- The state after an update that verifies. -/
def State.fwTaken (s : State) (img : List Byte) (now : Bool) : State :=
  let k := 1 - s.fget R.secFwStatus 30 30
  let d := BitVec.ofNat 512 (imgU img 0x30 64)
  { s with sec := { s.sec with fwDigest := tput s.sec.fwDigest k d, fwVer := tput s.sec.fwVer k (imgU img 0x18 4 % 2 ^ 24), pendDigest := some d, fwNow := now || s.sec.fwNow } }.set
    R.secFwStatus (setFld (setFld (s.get R.secFwStatus) 31 31 1) 7 0 (imgU img 0x14 4))

theorem fwTaken_fwNow : (v.fwTaken img now).sec.fwNow = (now || v.sec.fwNow) := rfl

/-- What becomes of an update whose header is sound. -/
theorem fwUpdate_checked (hv : ImageAt u g n img v) (hb : imgHeader img 0x46564C46 n = some b) :
    u.fwUpdate g n now
      = if (!svcReserved img || decide (255 < imgU img 0x14 4)) = true then refuse v dBadHeader
        else if (!imgDigestOk img b) = true then refuse v dDigest
        else if (!imgSigOk img b (Config.flivonKey 0) || decide (imgU img 0x14 4 < v.fget R.secFwStatus 23 16)) = true then refuse v dSigInvalid
        else .done (v.fwTaken img now) 0 (p32 ((v.fwTaken img now).fwVersion (1 - v.fget R.secFwStatus 30 30))) := by
  refine (withImage_read hv).trans ?_
  dsimp only
  rw [hb]
  rfl

end

/-! ### SEC_LIBRARY_LOAD (R484) -/

section
variable {u v : State} {g : W64} {n : Nat} {img : List Byte} {base : Option Nat}

/-- The base of a library of some bytes below a top: the one named, where it is free, or the highest that is, where the bytes fit at all. -/
def State.libFits (s : State) (w top : Nat) (highest : Option Nat) : Option Nat → Option Nat
  | some b => if (barHit s.libBars b w).isSome then none else some b
  | none => if top < w then none else highest

/-- Whether a named base is one no library of some bytes can have. -/
def libMisplaced (w top : Nat) : Option Nat → Bool
  | some b => decide (b % 2 ^ 21 ≠ 0 ∨ top < b + w)
  | none => false

theorem libLoad_sound (hh : u.sec.hand = none) (hv : ImageAt u g n img v) (hr : svcReserved img = true) (hz : imgZero img 0x14 8 = true)
    {body w top : Nat} (he : v.imgVerify img 0x5242494C n 2 = (body, 0)) (hw : cdiv (body - 0x100) (2 ^ 21) * 2 ^ 21 = w) (ht : (v.get R.hubMapHbmTop).toNat + 1 = top)
    {highest : Option Nat} (hl : libPlace v.libBars w 256 ((top - w) / 2 ^ 21 * 2 ^ 21) = highest) :
    u.libLoad g n base = if libMisplaced w top base then invalid v else v.libPut img body w (v.libFits w top highest base) := by
  refine (if_neg (by rw [hh]; exact Bool.false_ne_true)).trans ((withImage_read hv).trans ?_)
  dsimp only
  rw [he, hr, hz]
  refine (if_neg (fun h => h.1 rfl)).trans ((if_neg (fun h => h rfl)).trans ((if_neg Bool.false_ne_true).trans ?_))
  dsimp only
  rw [hw, ht, hl]
  cases base with
  | none => rfl
  | some b => exact if_congr (iff_of_eq (decide_eq_true_eq)).symm rfl rfl

/-- The state after a library placed at a base. -/
def State.libPlaced (s : State) (img : List Byte) (body w b : Nat) : State :=
  let t := { s with sec := { s.sec with libDigest := BitVec.ofNat 512 (imgU img 0x30 64) } }.write b ((img.drop 0x100).take (body - 0x100)) false
  ((t.set R.secLibStatus (BitVec.ofNat 64 (2 ^ 63 + b2n (t.bget R.secLibStatus 62) * 2 ^ 62 + w / 2 ^ 21 * 2 ^ 46 + b))).bset R.safStatus 28 false).measDone

theorem libPut_takeUp {q : Req} {cmd body w : Nat} {o : Option Nat} :
    (Host.Outcome.next (axTakeUp q.mbx (hdr q cmd) (v.libPut img body w o)) : Outc)
      = match o with
        | none => refused v q cmd dState
        | some b => if w = 0 then refused v q cmd dBadHeader
          else done (v.libPlaced img body w b) q cmd 0 (p64 b ++ p64 w ++ leBytes 64 (BitVec.ofNat 512 (imgU img 0x30 64)).toNat) := by
  cases o with
  | none => rfl
  | some b => exact next_ite Iff.rfl rfl rfl

end

/-! ### FAB_DRS_LOAD (R147 to R149) -/

section
variable {u v : State} {g : W64} {z c m : Nat} {img : List Byte} {o : LoadOpt}

/-- Where the load places its tiles, with the code of what is wrong there, and its sync objects. -/
def State.loadBase (s : State) (o : LoadOpt) (n align : Nat) : Nat × Nat := o.base.elim (s.placeBase n align) fun b => (b.1, s.placeCheck b.1 n o.swap)
def State.loadSyncs (s : State) (o : LoadOpt) (m : Nat) : Option Nat := o.base.elim (s.freeRun m) fun b => if s.syncRun b.2 m 0 then some b.2 else none

theorem loadBase_eq {n a : Nat} : v.loadBase o n a = match o.base with | some (b, _) => (b, v.placeCheck b n o.swap) | none => v.placeBase n a := by
  unfold State.loadBase
  cases o.base <;> rfl

theorem loadSyncs_eq : v.loadSyncs o m = match o.base with | some (_, b) => if v.syncRun b m 0 then some b else none | none => v.freeRun m := by
  unfold State.loadSyncs
  generalize v.freeRun m = f
  cases o.base <;> rfl

/-- The state after a dressing loaded in a slot: its sync objects its own, its tiles out of the self-test. -/
def State.drsLoaded (s : State) (h : Nat) (d : Dressing) : State :=
  let x := (List.range d.syncs).foldl (fun s i => (s.fset (R.syncStatus (d.sbase + i)) 29 28 1).fset (R.syncStatus (d.sbase + i)) 27 22 h) s
  let y := { x with dress := tput x.dress h d }
  ({ y with bist := { y.bist with online := y.bist.online.filter fun t => !(y.tilesOf d).contains t } }).measCommit

/-- What a load leaves once its places are known: its routes and links looked at, and the dressing loaded. -/
def State.drsRoute (s : State) (h : Nat) (d : Dressing) (limit : Nat) : AxR :=
  match routeFull s.allStreams d.streams, linkOver s.allStreams d.streams limit with
  | some b, _ => .refuse s dRouteFull (p16 b ++ p16 0)
  | none, some (b, l) => .refuse s dLinkOversub (p16 b ++ p16 (linkCode l))
  | none, none => .done (s.drsLoaded h d) 0 (p16 h ++ p16 d.lbase ++ p16 d.sbase)

theorem drsRoute_takeUp {q : Req} {cmd h limit : Nat} {d : Dressing} :
    (Host.Outcome.next (axTakeUp q.mbx (hdr q cmd) (v.drsRoute h d limit)) : Outc)
      = match routeFull v.allStreams d.streams, linkOver v.allStreams d.streams limit with
        | some e, _ => .next (v.axEnd q.mbx (hdr q cmd) 4 dRouteFull (p16 e ++ p16 0))
        | none, some e => .next (v.axEnd q.mbx (hdr q cmd) 4 dLinkOversub (p16 e.1 ++ p16 (linkCode e.2)))
        | none, none => done (v.drsLoaded h d) q cmd 0 (p16 h ++ p16 d.lbase ++ p16 d.sbase) := by
  unfold State.drsRoute
  cases routeFull v.allStreams d.streams with
  | some e => rfl
  | none => cases linkOver v.allStreams d.streams limit <;> rfl

/-- The dressing of an image placed. -/
def State.drsOf (s : State) (g : W64) (z c : Nat) (img : List Byte) (o : LoadOpt) (base sb : Nat) : Dressing :=
  { ctx := c, image := g.toNat, size := z, digest := BitVec.ofNat 512 (imgU img 0x30 64), dressId := BitVec.ofNat 64 (imgU img 0x20 8), n := imgU img 0x14 2,
    lbase := base, sbase := sb, syncs := imgU ((recsOf img (imgSects img) 1).headD []) 0 2, streams := (imgStreams img).map (s.routed base),
    target := o.swap.filter fun a => (tget s.dress a).isSome, oversub := o.oversub }

/-- A load of an image that is read, check by check. -/
theorem drsLoad_read (hv : ImageAt u g z img v) {body e : Nat} (hve : v.imgVerify img 0x54555242 z 0 = (body, e)) :
    u.drsLoad g z c o
      = if (!imgHeadOk img) = true then refuse v dBadHeader
        else if e ≠ 0 then refuse v e
        else if (!imgRecordsOk img body) = true then refuse v dMalformed
        else if (!v.bget (R.xltCtx c) 63) = true then refuse v dContextDead
        else ((List.range 64).find? (fun h => (tget v.dress h).isNone)).elim (refuse v dNoHandle) fun h =>
          let claim := (recsOf img (imgSects img) 1).headD []
          if (List.range 8).any (fun k => imgU claim (4 + k) 1 != 0 && imgU claim (4 + k) 1 != v.siteType k) = true then refuse v dSiteMismatch
          else
            let r := v.loadBase o (imgU img 0x14 2) (imgU img 0x16 1)
            if r.2 ≠ 0 then refuse v r.2
            else (v.loadSyncs o (imgU claim 0 2)).elim (refuse v dSyncExhausted) fun b =>
              if (!relocsOk img) = true then refuse v dMalformed else v.drsRoute h (v.drsOf g z c img o r.1 b) o.limit := by
  refine (withImage_read hv).trans ?_
  dsimp only
  rw [hve]
  refine if_congr Iff.rfl rfl (if_congr Iff.rfl rfl (if_congr Iff.rfl rfl (if_congr Iff.rfl rfl ?_)))
  cases (List.range 64).find? (fun h => (tget v.dress h).isNone) with
  | none => rfl
  | some h =>
    refine if_congr Iff.rfl rfl ?_
    rw [loadBase_eq, loadSyncs_eq]
    generalize v.freeRun (imgU ((recsOf img (imgSects img) 1).headD []) 0 2) = f
    obtain ⟨_ | ⟨b, sb⟩, sw, ov⟩ := o
    · refine if_congr Iff.rfl rfl ?_
      cases f with
      | none => rfl
      | some sb =>
        refine if_congr Iff.rfl rfl ?_
        unfold State.drsRoute State.drsOf
        dsimp only
        rfl
    · refine if_congr Iff.rfl rfl ?_
      dsimp only
      cases v.syncRun sb (imgU ((recsOf img (imgSects img) 1).headD []) 0 2) 0 with
      | false => rfl
      | true =>
        refine if_congr Iff.rfl rfl ?_
        unfold State.drsRoute State.drsOf
        dsimp only
        rfl

end

/-- Settles O60. -/
theorem imageAndClaimCommandsComplete : Obligations.ImageAndClaimCommandsComplete := by
  unfold Obligations.ImageAndClaimCommandsComplete
  refine ⟨?load, ?service, ?firmware, ?debug, ?library, ?reserve, ?reserveExpert, ?release, ?wake⟩
  case load =>
    intro s q g z c lb sb w o i cmd p u img v hi h hc hv no n claim m r xs
    have hbody : ∃ body, exec i s = run (mbxOk q) (axotte s q cmd body) ∧ body u = u.drsLoad g z c p := by
      rcases hi with ⟨rfl, rfl, rfl⟩ | ⟨rfl, rfl, hw, rfl⟩
      · exact ⟨_, rfl, if_neg (Nat.not_le.2 hc)⟩
      · exact ⟨_, rfl, if_neg (by omega)⟩
    obtain ⟨body, hx, hgo⟩ := hbody
    have hr : v.loadBase p n (imgU img 0x16 1) = r := loadBase_eq
    refine (exec_begins h hx).trans ((congrArg (fun a => Host.Outcome.next (axTakeUp _ _ a)) (hgo.trans (drsLoad_read hv Prod.mk.eta.symm))).trans ?_)
    refine next_ite not_true_iff_false rfl (next_ite Iff.rfl rfl (next_ite not_true_iff_false rfl (next_ite not_true_iff_false rfl (next_elim rfl fun k => next_ite Iff.rfl rfl ?_))))
    dsimp only
    rw [hr]
    refine next_ite Iff.rfl rfl ?_
    refine Eq.trans (congrArg (fun o => Host.Outcome.next (axTakeUp _ _ (Option.elim o _ _))) loadSyncs_eq) (next_elim rfl fun b => next_ite not_true_iff_false rfl ?_)
    exact drsRoute_takeUp
  case service =>
    intro s q g n u img v h hc hz hv no e body d t
    refine (exec_begins h rfl).trans ?_
    rw [svcLoad_image hc hz hv]
    exact next_ite Iff.rfl rfl (next_ite Iff.rfl rfl rfl)
  case firmware =>
    intro s q g n now i cmd u img v hi h hv no svn k d x t w
    have hs := imageAt_sec hv
    rcases hb : imgHeader img 0x46564C46 n with _ | b
    · exact exec_fwUpdate_refuse hi h (fwUpdate_headless hv hb) hs
    have hgo := fwUpdate_checked (now := now) hv hb
    dsimp only
    split
    next hr => exact exec_fwUpdate_refuse hi h (hgo.trans (if_pos (by simpa using hr))) hs
    next hr =>
      replace hgo := hgo.trans (if_neg (by simpa using hr))
      split
      next hd => exact exec_fwUpdate_refuse hi h (hgo.trans (if_pos (not_true_iff_false.2 hd))) hs
      next hd =>
        replace hgo := hgo.trans (if_neg (fun h => hd (not_true_iff_false.1 h)))
        split
        next hk => exact exec_fwUpdate_refuse hi h (hgo.trans (if_pos (by simpa using hk))) hs
        next hk =>
          replace hgo := hgo.trans (if_neg (by simpa using hk))
          refine exec_fwUpdate_end hi h (by rw [hgo]; rfl) ?_
          exact (congrArg Sec.fwNow (axEndR_sec ..)).trans (fwTaken_fwNow.trans (by rw [hs]))
  case debug =>
    intro s q k u img v h hst hv t
    rcases hc : v.tokenScope img with _ | c
    · refine exec_refuse h ((if_neg hst).trans ?_) rfl
      refine (withImage_read hv).trans ?_
      dsimp only [Option.bind_some]
      rw [hc]
      rfl
    · refine exec_done h ((if_neg hst).trans ?_) rfl
      refine (withImage_read hv).trans ?_
      dsimp only [Option.bind_some]
      rw [hc]
      rfl
  case library =>
    intro s q g n i cmd base u img v hi h hh hv no e body w top d
    have hw : cdiv ((v.imgVerify img 0x5242494C n 2).1 - 0x100) (2 ^ 21) * 2 ^ 21 = w := rfl
    have ht : (v.get R.hubMapHbmTop).toNat + 1 = top := rfl
    clear_value w top
    generalize hl : libPlace v.libBars w 256 ((top - w) / 2 ^ 21 * 2 ^ 21) = highest
    have hbody : exec i s = run (mbxOk q) (axotte s q cmd fun u => u.libLoad g n base) := by
      rcases hi with ⟨rfl, rfl, rfl⟩ | ⟨b, rfl, rfl, rfl⟩ <;> rfl
    by_cases hr : (svcReserved img && imgZero img 0x14 8) = false
    · refine Eq.trans ?_ (if_pos hr).symm
      refine exec_refuse h ((libLoad_image hh hv ?_).trans (congrArg (refuse v) (if_neg (Bool.eq_false_iff.1 hr)))) hbody
      exact (Bool.and_eq_false_iff.1 hr).imp_right Or.inl
    refine Eq.trans ?_ (if_neg hr).symm
    by_cases he : e ≠ 0
    · refine Eq.trans ?_ (if_pos he).symm
      exact exec_refuse h ((libLoad_image hh hv (Or.inr (Or.inr he))).trans (congrArg (refuse v) (if_pos (Bool.not_eq_false _ ▸ hr)))) hbody
    refine Eq.trans ?_ (if_neg he).symm
    obtain ⟨h1, h2⟩ := Bool.and_eq_true_iff.1 (Bool.not_eq_false _ ▸ hr)
    have hp : v.imgVerify img 0x5242494C n 2 = ((v.imgVerify img 0x5242494C n 2).1, 0) := Prod.ext rfl (not_not.1 he)
    refine (exec_begins h hbody).trans ((congrArg (fun a => Host.Outcome.next (axTakeUp _ _ a)) (libLoad_sound hh hv h1 h2 hp hw ht hl)).trans ?_)
    refine next_ite ?_ rfl ?_
    · cases base <;> exact Iff.rfl
    · refine Eq.trans (congrArg (fun o => Host.Outcome.next (axTakeUp _ _ (v.libPut img _ w o))) ?_) libPut_takeUp
      cases base <;> rfl
  case reserve =>
    intro s q n u h h1 h2
    refine (exec_begins h rfl).trans ((congrArg (fun a => Host.Outcome.next (axTakeUp _ _ a)) (if_neg (by omega))).trans ?_)
    cases u.freeRun n <;> rfl
  case reserveExpert =>
    intro s q f n u h h1 h2 h3
    refine (exec_begins h rfl).trans ((congrArg (fun a => Host.Outcome.next (axTakeUp _ _ a)) (if_neg (by omega))).trans ?_)
    exact next_ite Iff.rfl rfl rfl
  case release =>
    intro s q f n u h h1 h2
    refine (exec_begins h rfl).trans ((congrArg (fun a => Host.Outcome.next (axTakeUp _ _ a)) (if_neg (by omega))).trans ?_)
    exact next_ite Iff.rfl rfl rfl
  case wake => exact fun s t ht hu => run_eq (decide_eq_true ht) (if_pos hu)
end Sys2Proof.Machine
end
